-- ==== Sys2Proof/Word.lean ====
section
/-! DEFINITION. The word types of the model: a register word of 32 bits (R504), a byte, a 64-bit word of a descriptor or of
STIME (R29, R348). -/

namespace Sys2Proof

/-- A BAR0 register word (R504). -/
abbrev Word := BitVec 32

/-- A 64-bit word: STIME (R29), a descriptor word (R348), a key (R129). -/
abbrev DWord := BitVec 64

/-- A byte of a memory. -/
abbrev Byte := BitVec 8

end Sys2Proof
end

