-- ==== Sys2Proof/Syntax.lean ====
section
/-! DEFINITION. The commands of the block: one constructor for each row of the table of operations and events, with what
the command carries. Indexes count device-wide (R8). -/

namespace Sys2Proof

/-- Who makes a register access from outside: a host function by BAR0 (R336), or a microengine through I/O space (R285). -/
inductive Sender where
  | fn (f : Fin 4)
  | me (e : Fin 8)
  deriving DecidableEq, Repr

/-- A descriptor: eight 64-bit words, d0 the header (R348). -/
structure Desc where
  d0 : DWord
  d1 : DWord
  d2 : DWord
  d3 : DWord
  d4 : DWord
  d5 : DWord
  d6 : DWord
  d7 : DWord
  deriving DecidableEq, Repr

/-- What a descriptor read brings back from the host (R344, R347): the descriptors, or an error. -/
inductive FetchResult where
  | ok (ds : List Desc)
  | error
  deriving DecidableEq, Repr

/-- The bytes a read of host memory brings back, in address order: fewer than were asked for where an error follows them (R350). -/
abbrev HostData := List Byte

/-- One dword of a bulk write with its byte enables (R361). -/
structure MaskedDword where
  be : BitVec 4
  v : Word
  deriving DecidableEq, Repr

/-- The fabric queues whose credits return to their producer (R12). -/
inductive FabricQueue where
  | descriptor (q : Fin 4)
  | spine
  | completion (q : Fin 4)
  | spineCompletion
  | stagedWrite
  | record (q : Fin 4)
  deriving DecidableEq, Repr

/-- The widths of the host link (R335, R368). -/
inductive LinkWidth where
  | x1 | x4 | x8
  deriving DecidableEq, Repr

/-- The rates of the host link (R335, R368). -/
inductive LinkRate where
  | gt2_5 | gt5 | gt8 | gt16
  deriving DecidableEq, Repr

/-- The three acknowledgeable flags of a channel in COMPAT mode (R387). -/
inductive CompatFlag where
  | match0 | match1 | ovf
  deriving DecidableEq, Repr

/-- The owners of twin delay lines: a fine-edge generator, the sampler of an axis input pair (0 A, 1 B, 2 Z), the sampler of
a field lane (R44, R46). -/
inductive LineOwner where
  | generator (g : Fin 256)
  | axisInput (a : Fin 8) (p : Fin 3)
  | laneInput (n : Fin 512)
  deriving DecidableEq, Repr

/-- The data line of a serial frame (R84, R85): its level at the frame's start and its changes, in ticks after the start, oldest first. -/
structure SerialFrame where
  first : Bool
  changes : List (Nat × Bool)
  deriving DecidableEq, Repr

/-- The recognised levels of the 128 field lanes of a quadrant, bit l for local lane l. -/
abbrev Lanes := BitVec 128

/-- The spine blocks whose parity is checked (R433). -/
inductive SpineBlock where
  | hostInterface | recordUnit | commitUnit | memoryController | serviceUnit
  deriving DecidableEq, Repr

/-- The I/O supply rails: VDDIO of a lane bank (R483), VDDFE of a quadrant's FE and CONV pins. -/
inductive IoRail where
  | bank (b : Fin 16)
  | fe (q : Fin 4)
  deriving DecidableEq, Repr

/-- The wake sources of R472 that are active at the ACLK edge. -/
inductive WakeSource where
  | link | timer | seal | serviceN
  deriving DecidableEq, Repr

/-- What a debugger asks for over JTAG (R453): `off` is a dword of BAR0, `a` a word of an image or of the scratch, `word` a 16-byte word of
stacked memory; `lanes` are the recognised levels of the quadrant's lanes. -/
inductive DebugRequest where
  | readRegister (off : Fin 65536)
  | writeRegister (off : Fin 65536) (v : Word)
  | halt (e : Fin 8)
  | resume (e : Fin 8)
  | step (e : Fin 8) (lanes : Lanes)
  | readEngine (e : Fin 8) (lanes : Lanes) (port : Fin 1024)
  | writeEngine (e : Fin 8) (port : Fin 1024) (v : Word)
  | readImage (e : Fin 8) (bank : Fin 2) (a : Fin 16384)
  | writeImage (e : Fin 8) (bank : Fin 2) (a : Fin 16384) (v : DWord)
  | readScratch (e : Fin 8) (a : Fin 8192)
  | writeScratch (e : Fin 8) (a : Fin 8192) (v : Word)
  | readMemory (word : Fin 4194304)
  | writeMemory (word : Fin 4194304) (v : BitVec 128)
  deriving DecidableEq, Repr


/-- A calendar block whose read finds an error (R310, R312): its place in its bucket's chain, its 16-byte word in stacked memory, and the
syndromes of that read, which say whether it is corrected. -/
structure CalLoss where
  block : Nat
  word : Fin 4194304
  syn : BitVec 24
  deriving DecidableEq, Repr

/-- The second dword of an 8-byte write of BAR0 (R505). -/
structure SecondDword where
  /-- byte enables -/
  be : BitVec 4
  /-- value -/
  v : Word
  deriving DecidableEq, Repr

/-- What a write of BAR0 carries (R504, R505): one dword, or two. -/
structure Written where
  v : Word
  second : Option SecondDword
  deriving DecidableEq, Repr


/-- The commands: one constructor per row of the table of operations and events. -/
inductive Instr where
  /-- SUBMISSION_DOORBELL (R341): Host writes a new tail to a submission ring doorbell in BAR2; it is checked and may start a fetch. -/
  | submissionDoorbell (f : Fin 4) (off : Fin 1024) (v : Word)
  /-- RETURN_DOORBELL (R342): Host writes a new head to a return ring doorbell, returning consumed slots and re-arming the ring interrupt. -/
  | returnDoorbell (f : Fin 4) (off : Fin 1024) (v : Word)
  /-- DESCRIPTOR_FETCH_ISSUE (R344): The fetch engine takes its round-robin turn and issues one read of up to FETCH descriptors of a ring. -/
  | descriptorFetchIssue
  /-- DESCRIPTOR_FETCH_DONE (R344): A descriptor read returns from the host and its descriptors enter the fetch buffer. -/
  | descriptorFetchDone (k : Fin 32) (r : FetchResult)
  /-- DESCRIPTOR_FORWARD (R345): A buffered descriptor leaves for its quadrant or the spine once it holds a credit and a completion slot. -/
  | descriptorForward (k : Fin 32)
  /-- CREDIT_RETURN (R12): A consumer removes an item from a fabric queue and the credit returns to the producer. -/
  | creditReturn (x : FabricQueue)
  /-- COMPLETION_WRITE (R359): The last effect of a forwarded descriptor has taken place and its completion record is written to the completion ring. -/
  | completionWrite (k : Nat)
  /-- NOP (R350): Descriptor that does nothing and completes. -/
  | nop
  /-- QREG_WRITE (R351): Descriptor that checks and applies up to 7 register writes in one quadrant block. -/
  | qregWrite (q : Fin 4)
  /-- SREG_WRITE (R351): Descriptor that checks and applies up to 7 register writes in spine blocks. -/
  | sregWrite
  /-- REG_READ (R351): Descriptor that reads up to 12 registers and writes their values to host memory. -/
  | regRead
  /-- STAGE_WRITE (R352): Descriptor that places up to 7 writes in a commit group without applying them. -/
  | stageWrite
  /-- COMMIT_ARM (R403): Descriptor that arms a commit group by time, by position through a Coach entry, or for the next tick. -/
  | commitArm
  /-- COMMIT_ABORT (R406): Descriptor that discards a commit group's writes and frees it or makes it CLOSING. -/
  | commitAbort
  /-- SNAPSHOT (R410): Descriptor that takes a snapshot set 16 ticks later and writes it to host memory. -/
  | snapshot
  /-- COACH_INSERT (R353): Descriptor that checks and offers up to 3 calendar entries to a Coach slice. -/
  | coachInsert (q : Fin 4)
  /-- COACH_CANCEL (R151): Cancel request that searches a slice for entries with a TAG and key kind and removes them. -/
  | coachCancel (q : Fin 4)
  /-- COACH_LOAD (R353): Descriptor that reads up to 4,096 entries from stacked memory, checks them and accepts them in order. -/
  | coachLoad (q : Fin 4)
  /-- ROUTE_SET (R354): Descriptor that adds a crossbar route, taking a selector and if needed an export line. -/
  | routeSet
  /-- ROUTE_CLEAR (R354): Descriptor that removes a crossbar route and frees its selector and unused export line. -/
  | routeClear
  /-- IBEX_LOAD (R355): Descriptor that reads program words from the host and writes them into a stopped ibex on one tick. -/
  | ibexLoad (q : Fin 4) (h : HostData)
  /-- ME_IMAGE (R355): Descriptor that writes words into a microengine image bank. -/
  | meImage (q : Fin 4) (h : HostData)
  /-- ME_SWAP (R416): Descriptor that joins a microengine image swap to a commit group and locks the inactive bank. -/
  | meSwap (q : Fin 4)
  /-- MEM_WRITE (R356): DMA descriptor that copies host memory into stacked memory. -/
  | memWrite (k : Nat) (h : HostData)
  /-- MEM_READ (R356): DMA descriptor that copies stacked memory to host memory. -/
  | memRead (k : Nat) (hostErrAt : Option Nat)
  /-- MEM_FILL (R356): DMA descriptor that fills a stacked-memory range with a pattern. -/
  | memFill (k : Nat)
  /-- QUAD_RESET (R358): Descriptor that applies a quadrant reset and aborts the quadrant's queued descriptors. -/
  | quadReset
  /-- NVS_READ (R452): Descriptor that reads the non-volatile store into host memory. -/
  | nvsRead (hostErrAt : Option Nat)
  /-- NVS_WRITE (R452): Descriptor that writes host data into the non-volatile store, needing presence for the boot region. -/
  | nvsWrite (h : HostData)
  /-- FAULTLOG_READ (R438): Descriptor that writes fault-log entries in log order to host memory from FLOG_RDIDX. -/
  | faultlogRead (hostErrAt : Option Nat)
  /-- FAULTLOG_CLEAR (R439): Privileged descriptor that empties the fault log and writes a Cleared entry. -/
  | faultlogClear
  /-- FUSE_PROG (R446): Privileged descriptor that checks a fuse image and programs its words. -/
  | fuseProg (h : HostData) (vfuseOk : Bool)
  /-- FUSE_WORD_PROGRAM (R447): One fuse word finishes its 1 ms programming and the next begins, or programming stops on VFUSE loss. -/
  | fuseWordProgram (vfuseOk : Bool)
  /-- DEBUG_UNLOCK (R453): Privileged descriptor that sets the debug lock level in force. -/
  | debugUnlock
  /-- CAL_WRITE (R357): Privileged descriptor that writes the factory calibration region. -/
  | calWrite (h : HostData)
  /-- SELFTEST (R421): Descriptor that queues a background test of a unit. -/
  | selftest
  /-- BULK_WRITE (R361): A host write to BAR4 writes stacked memory at the bulk pointer in STREAM or WINDOW mode. -/
  | bulkWrite (f : Fin 4) (off : Fin 16384) (data : List MaskedDword)
  /-- BULK_READ (R361): A host read from BAR4 reads stacked memory at the bulk pointer as one burst. -/
  | bulkRead (f : Fin 4) (off : Fin 16384) (n : Fin 1025)
  /-- LINK_DOWN (R363): DL_Down detaches the host interface, drops host-bound writes and resets rings while the field side runs on. -/
  | linkDown
  /-- LINK_UP (R365): The link trains again, HIF.GEN advances and LINK_UP is set. -/
  | linkUp (width : LinkWidth) (rate : LinkRate)
  /-- BUS_MASTER_ENABLE (R365): A function's bus master enable is set, clearing DETACHED and releasing held messages. -/
  | busMasterEnable (f : Fin 4) (msixEn : Bool) (fmask : Bool) (pmeEn : Bool)
  /-- FUNCTION_LEVEL_RESET (R366): An FLR of a function resets its rings, bulk port and MSI-X state, and with FLRSTOP its quadrants. -/
  | functionLevelReset (f : Fin 4)
  /-- D3HOT_ENTRY (R367): A function enters D3hot; its rings stop fetching and its records are held. -/
  | d3hotEntry (f : Fin 4)
  /-- D0_RETURN (R386): A function returns to D0; held records are written, rings re-evaluated and due messages sent. -/
  | d0Return (f : Fin 4)
  /-- SQ_ENABLE (R339): Write of SR[k].CFG.EN = 1, checked for ownership and completion ring, resetting head and tail. -/
  | sqEnable (f : Fin 4) (k : Fin 32) (v : Word)
  /-- SQ_DISABLE (R370): Write of SR[k].CFG.EN = 0 stops fetching and aborts buffered descriptors. -/
  | sqDisable (f : Fin 4) (k : Fin 32) (v : Word)
  /-- RR_ENABLE (R339): Write of RR[k].CFG.EN = 1, checked for ownership, resetting the ring and arming its interrupt. -/
  | rrEnable (f : Fin 4) (k : Fin 32) (v : Word)
  /-- RR_DISABLE (R371): Write of RR[k].CFG.EN = 0, refused while an enabled submission ring names it. -/
  | rrDisable (f : Fin 4) (k : Fin 32) (v : Word)
  /-- RECORD_COLLECT (R15): The record collector moves one pending record, in round-robin source order, into the quadrant record queue. -/
  | recordCollect (q : Fin 4)
  /-- RECORD_ACCEPT (R377): The record unit takes one record from a record queue or the spine buffer and routes it to an event ring and engines. -/
  | recordAccept
  /-- SPINE_RECORD_BUFFER (R375): A spine record enters the spine record buffer, or is dropped when it is full. -/
  | spineRecordBuffer
  /-- IRQ_MODERATION_EXPIRE (R384): A return ring's moderation timer expires and one MSI-X message is sent if records remain, or PME in D3hot. -/
  | irqModerationExpire (k : Fin 32)
  /-- MSIX_PENDING_SEND (R385): A message held pending by masking or disabled bus mastering is sent once all conditions allow. -/
  | msixPendingSend (f : Fin 4) (vec : Fin 64)
  /-- ROUTE_WRITE (R390): Write to REC.ROUTE, checked for ownership, governing records accepted from the fourth FCLK cycle after. -/
  | routeWrite (f : Fin 4) (o : Fin 5) (t : Fin 32) (v : Word)
  /-- TC_FLAG_ACK (R387): A write of 1 to a COMPAT flag acknowledges it, or counts a stray acknowledge. -/
  | tcFlagAck (w : Sender) (n : Fin 1024) (flag : CompatFlag)
  /-- XBAR_SINK_ACT (R23): A routed event acts at a crossbar sink 2 or 6 ticks after its source, merging events of one tick. -/
  | xbarSinkAct (q : Fin 4) (sink : Fin 452)
  /-- CONV_PULSE_END (R27): A CONV pin's pulse width expires and the pin falls. -/
  | convPulseEnd (c : Fin 16)
  /-- TCLK_LOCK (R29): TCLK first locks after cold reset and STIME starts at 0. -/
  | tclkLock
  /-- STIME_LO_READ (R32): A read of TB.STIME_LO returns the low half and latches the high half. -/
  | stimeLoRead (f : Fin 4)
  /-- SYNC_OUT_FRAME (R40): A master or relay sends the frame and marker of each 2^20-tick epoch on SYNC_OUT. -/
  | syncOutFrame
  /-- SYNC_FRAME (R41): A slave latches the marker, computes the epoch error, and steers or steps STIME. -/
  | syncFrame (b : DWord) (tick : DWord) (fine : Fin 64)
  /-- SYNC_LOST (R42): Three epochs pass without a valid frame; the slave clears SYNC_LOCK and sets SYNC_LOST. -/
  | syncLost
  /-- REF_LOST (R35): The reference monitor declares an input lost and the timebase switches to the backup or holds over. -/
  | refLost (x : Fin 2)
  /-- REF_REVERT (R35): With REVERT set, the primary has been good for 1 s and the timebase returns to it. -/
  | refRevert
  /-- REFCFG_WRITE (R57): A write to TB.REFCFG takes effect at the next reference monitor decision. -/
  | refcfgWrite (f : Fin 4) (v : Word)
  /-- PLL_FAULT (R37): The PLL monitor declares the driving TCLK PLL failed and begins the switchover window. -/
  | pllFault
  /-- PLL_SWITCHOVER (R37): TCLK changes to the standby PLL with a one-tick hold; deferred reloads and arming resume. -/
  | pllSwitchover
  /-- PLL_RESTORED (R39): The restarted PLL has held lock for 10 ms and returns to standby. -/
  | pllRestored
  /-- PLL_SINGLE (R39): The restarted PLL fails to lock within 100 ms; the timebase runs on one PLL. -/
  | pllSingle
  /-- TCLK_STOP (R222): A second PLL failure stops TCLK; pins hold their levels. -/
  | tclkStop
  /-- TB_SWITCH (R516): TB.CTL.SWITCH switches TCLK to the standby PLL. -/
  | tbSwitch (f : Fin 4)
  /-- TB_RETRY (R516): TB.CTL.RETRY restarts the failed PLL while PLL_SINGLE is set. -/
  | tbRetry (f : Fin 4)
  /-- TB_RECAL (R516): TB.CTL.RECAL recalibrates every standby line as one trigger. -/
  | tbRecal (f : Fin 4)
  /-- FIRST_CALIBRATION_START (R46): The first calibration of a quadrant begins on TCLK lock or at the end of a quadrant reset. -/
  | firstCalibrationStart (q : Fin 4)
  /-- LINE_CALIBRATION_DONE (R44): Code-density calibration of a delay line completes and its tap table is built. -/
  | lineCalibrationDone (x : LineOwner) (hits : List Nat)
  /-- LINE_SWAP (R48): A generator or sampler swaps to its recalibrated standby line at a pulse boundary. -/
  | lineSwap (x : LineOwner)
  /-- RECAL_INTERVAL (R49): The recalibration interval expires and standby lines are recalibrated. -/
  | recalInterval
  /-- RECAL_TEMPERATURE (R49): The die temperature moves by TSTEP and standby lines are recalibrated. -/
  | recalTemperature (t : Int)
  /-- CAL_DEFER (R50): No pulse boundary is found within SWAP_WAIT; the generator keeps its line and sets CAL_DEFER. -/
  | calDefer (g : Fin 256)
  /-- CAL_STALE (R50): A generator goes 1 s without a swap and sets CAL_STALE. -/
  | calStale (g : Fin 256)
  /-- HK_COUNT (R51): A housekeeping timer's prescale expires and its count advances. -/
  | hkCount (n : Fin 32)
  /-- HK_CNT_LO_READ (R55): A read of HK[n].CNT_LO latches the high half. -/
  | hkCntLoRead (f : Fin 4) (n : Fin 32)
  /-- ACLK_RATIO_MEASURE (R52): Every 4,096 ACLK periods the ticks counted are written to TB.ACLK_RATIO. -/
  | aclkRatioMeasure (ticks : Nat)
  /-- AXIS_CFG_WRITE (R62): A write of AXIS[a].CFG changes mode, multiplier, filter or limits and may restart the axis history. -/
  | axisCfgWrite (w : Sender) (a : Fin 8) (v : Word)
  /-- INPUT_LOSS (R63): An input pair in use stays within ±50 mV for 64 ticks; the axis sets LOSS and faults. -/
  | inputLoss (a : Fin 8) (p : Fin 3)
  /-- INPUT_RESTORED (R63): A lost pair leaves the ±50 mV band and its first accepted level is taken as a reference. -/
  | inputRestored (a : Fin 8) (p : Fin 3) (lvl : Bool)
  /-- AXIS_INPUT_TRANSITION (R65): A transition at an axis input ball is stamped by the sampler and enters the glitch filter. -/
  | axisInputTransition (a : Fin 8) (p : Fin 3) (lvl : Bool) (fine : Fin 64)
  /-- FILTER_ACCEPT (R64): A level has held for FILT ticks and the decoder accepts it. -/
  | filterAccept (a : Fin 8) (p : Fin 3)
  /-- QUADRATURE_DECODE (R67): The decoder acts on a change of state on its decode tick, counting, ignoring or judging it illegal. -/
  | quadratureDecode (a : Fin 8)
  /-- TOOTH_EDGE (R73): An accepted tooth edge is classed as learning, normal, gap or extra tooth and counted. -/
  | toothEdge (a : Fin 8)
  /-- POS_LO_WRITE (R90): A write of AXIS[a].POS_LO loads the true position with the held HI half. -/
  | posLoWrite (w : Sender) (a : Fin 8) (v : Word)
  /-- LIMIT_LO_WRITE (R82): A write of a limit's LO half loads the limit with the held HI half, or is refused. -/
  | limitLoWrite (w : Sender) (a : Fin 8) (hi : Bool) (v : Word)
  /-- LPOS_LO_READ (R71): A read of AXIS[a].LPOS_LO returns the latched position and freezes the latch set. -/
  | lposLoRead (w : Sender) (a : Fin 8)
  /-- AXIS_FAULT_CLEAR (R92): Writing 1 to AXIS[a].STATUS.FAULT clears the fault, its cause and run counters. -/
  | axisFaultClear (w : Sender) (a : Fin 8)
  /-- SERIAL_FRAME_START (R83): The SERPER period or a CONV edge starts a serial frame, or the trigger is dropped as OVERRUN. -/
  | serialFrameStart (a : Fin 8) (conv : Bool)
  /-- SERIAL_FRAME_CHECK (R87): A completed SSI or SPF frame is checked and accepted or discarded. -/
  | serialFrameCheck (a : Fin 8) (frame : SerialFrame)
  /-- AXIS_HOLD (R103): No new latch arrives by the HOLD time and the estimator issues a HOLD. -/
  | axisHold (a : Fin 8)
  /-- HOLD_ARRIVE (R103): A HOLD reaches a Coach slice and withdraws armed entries that are still far enough ahead. -/
  | holdArrive (q : Fin 4) (a : Fin 8)
  /-- AXIS_STOPPED (R105): STOP µs pass without a latch; the axis is STOPPED and extrapolation turns off. -/
  | axisStopped (a : Fin 8)
  /-- REAIM_ARRIVE (R141): New predictions reach a slice and re-aim, fire late or re-edge-arm its slots. -/
  | reaimArrive (q : Fin 4) (a : Fin 8)
  /-- EMU_ENABLE (R110): EMU[a].CFG.EN goes to 1; the emulator records P0 and loads the accumulator, or refuses the ratio. -/
  | emuEnable (w : Sender) (a : Fin 8) (v : Word)
  /-- EMU_RATIO_N_WRITE (R111): A write of RATIO_N applies the held ratio at the next source count. -/
  | emuRatioNWrite (w : Sender) (a : Fin 8) (v : Word)
  /-- EMU_OUTPUT_EDGE (R114): An emulated output count goes out as one quadrature change, draining the backlog at 32-tick spacing. -/
  | emuOutputEdge (a : Fin 8)
  /-- SLAVE_FRAME_START (R119): A falling clock edge at the slave clock lane latches the answer value and starts a frame. -/
  | slaveFrameStart (a : Fin 8)
  /-- SLAVE_IDLE_TIMEOUT (R122): The slave clock stays high for TM µs, ending or aborting the frame. -/
  | slaveIdleTimeout (a : Fin 8)
  /-- COACH_ACCEPT (R137): A slice accepts an entry, sending it to insertion or linking it into its calendar bucket. -/
  | coachAccept (q : Fin 4)
  /-- INSERTION (R128): The insertion stage sorts one entry into the horizon or a carriage buffer, displacing if full. -/
  | insertion (q : Fin 4)
  /-- HORIZON_DRAW (R136): The horizon draws an entry from a loaded bucket as space allows. -/
  | horizonDraw (q : Fin 4) (ue : Option CalLoss)
  /-- CALENDAR_L2_MOVE (R134): An L2 bucket becomes current and its entries move into L1. -/
  | calendarL2Move (q : Fin 4) (ue : Option CalLoss)
  /-- FAR_LIST_SCAN (R134): L2 wraps and the far list is scanned into L2. -/
  | farListScan (q : Fin 4) (ue : Option CalLoss)
  /-- POSITION_WHEEL_RESCAN (R135): The position wheel's centre moves 256 buckets and the far list is rescanned. -/
  | positionWheelRescan (q : Fin 4) (a : Fin 8) (ue : Option CalLoss)
  /-- BUCKET_LOAD (R138): T enters a new bucket and the next position bucket is loaded into the horizon. -/
  | bucketLoad (q : Fin 4)
  /-- ARM_TAKE (R144): The arm stage takes one eligible entry into the lead-time pipeline and settles its outcome. -/
  | armTake (q : Fin 4)
  /-- SLOT_LIVE (R140): An entry becomes live in its target 256 ticks after it was taken. -/
  | slotLive (q : Fin 4) (k : Nat)
  /-- SLOT_FIRE (R143): A live slot fires its action on its tick, or edge-exact on its crossing latch. -/
  | slotFire (q : Fin 4) (k : Nat)
  /-- CANCEL_COMPLETE (R151): A cancel's calendar search ends and the request completes with the count removed. -/
  | cancelComplete (q : Fin 4)
  /-- TEMPLATE_READ_DONE (R156): A carriage's next template entry is read and sent to insertion. -/
  | templateReadDone (c : Fin 2048)
  /-- TPL_SWAP (R155): TPL[t].CMD.SWAP starts a check of the inactive page. -/
  | tplSwap (w : Sender) (t : Fin 256)
  /-- TPL_CHECK_DONE (R155): A template page check ends and the page is activated or refused. -/
  | tplCheckDone (t : Fin 256)
  /-- CAR_FLAGSET (R157): A write of CAR[a].FLAGSET sets and clears a carriage's flags. -/
  | carFlagset (w : Sender) (a : Fin 8) (v : Word)
  /-- CAR_CLOSE_COMMAND (R158): A write of CAR[a].CLOSE closes a carriage with reason COMMAND. -/
  | carCloseCommand (w : Sender) (a : Fin 8) (v : Word)
  /-- CAR_VBASE_READ (R166): A read of CAR[a].VBASE_LO latches VBASE_HI and VSTAT of the selected carriage. -/
  | carVbaseRead (w : Sender) (a : Fin 8)
  /-- COACH_ENABLE (R165): COACH[q].CTL.EN is written; arming starts or stops, or EN is refused for a bad region. -/
  | coachEnable (w : Sender) (q : Fin 4) (v : Word)
  /-- COACH_FLUSH (R165): COACH[q].CTL.FLUSH discards every entry and closes every carriage while EN is 0. -/
  | coachFlush (w : Sender) (q : Fin 4)
  /-- TC_COUNT (R176): A channel's counter changes by its source's increment, with compares and overflow. -/
  | tcCount (n : Fin 1024)
  /-- TC_CARRY (R186): A carry from the lower member reaches the upper member of a chain one tick later. -/
  | tcCarry (n : Fin 1024)
  /-- TC_CNT_WRITE (R174): A write of TC[n].CNT loads the counter on the next tick. -/
  | tcCntWrite (w : Sender) (n : Fin 1024) (v : Word)
  /-- TC_CNT_READ (R189): A read of a chain's lowest member CNT latches every member's corrected value. -/
  | tcCntRead (w : Sender) (n : Fin 1024)
  /-- TC_LANE_CAPTURE (R181): An edge on the capture lane writes a capture entry 3 ticks later. -/
  | tcLaneCapture (n : Fin 1024) (rising : Bool) (fine : Fin 64)
  /-- TC_GATE_END (R180): The gate ends in GATED mode, capturing CNT and loading 0. -/
  | tcGateEnd (n : Fin 1024) (fine : Fin 64)
  /-- TC_CAPCNT_READ (R183): A read of TC[n].CAPCNT removes the oldest entry and places its details in view. -/
  | tcCapcntRead (w : Sender) (n : Fin 1024)
  /-- TC_CMD_START (R203): TC[n].CMD.START starts the channel. -/
  | tcCmdStart (w : Sender) (n : Fin 1024)
  /-- TC_CMD_STOP (R203): TC[n].CMD.STOP stops the channel. -/
  | tcCmdStop (w : Sender) (n : Fin 1024)
  /-- TC_CMD_RESTART (R203): TC[n].CMD.RESTART loads 0 and runs. -/
  | tcCmdRestart (w : Sender) (n : Fin 1024)
  /-- TC_CMD_CAPT (R203): TC[n].CMD.CAPT captures the counter. -/
  | tcCmdCapt (w : Sender) (n : Fin 1024)
  /-- TC_CMD_QCLR (R203): TC[n].CMD.QCLR empties the capture queue and clears CAPOVFCNT. -/
  | tcCmdQclr (w : Sender) (n : Fin 1024)
  /-- FE_PERIOD_EDGE (R205): A running generator places a rise or fall at its fine-step time, checking minimum pulse and ending ONESHOT or BURST. -/
  | fePeriodEdge (g : Fin 256)
  /-- FE_RELOAD (R213): On reload tick R_k the shadow set is copied into the active set. -/
  | feReload (g : Fin 256)
  /-- FE_FINE_WRITE (R212): A write of FE[n].FINE moves PER, WID and their fine parts into the shadow set. -/
  | feFineWrite (w : Sender) (g : Fin 256) (v : Word)
  /-- FE_FINE_IMM (R214): A FINE write with IMM also makes its values active in the period in progress. -/
  | feFineImm (w : Sender) (g : Fin 256) (v : Word)
  /-- FE_CMD_START (R209): FE[n].CMD.START starts the generator at w + 1 + TDLY. -/
  | feCmdStart (w : Sender) (g : Fin 256)
  /-- FE_CMD_STOP (R210): FE[n].CMD.STOP stops the generator after its armed edges and current pulse. -/
  | feCmdStop (w : Sender) (g : Fin 256)
  /-- FE_CMD_RECAL (R223): FE[n].CMD.RECAL calibrates the standby line. -/
  | feCmdRecal (w : Sender) (g : Fin 256)
  /-- FE_CMD_CLRCNT (R227): FE[n].CMD.CLRCNT clears SUPCNT, STRCNT and IGNCNT. -/
  | feCmdClrcnt (w : Sender) (g : Fin 256)
  /-- FE_ENABLE (R220): FE[n].CTL.EN goes to 1 and the pin drives its inactive level. -/
  | feEnable (w : Sender) (g : Fin 256) (v : Word)
  /-- FE_DISABLE (R219): FE[n].CTL.EN goes to 0 and the pin reaches its fused idle level 2 ticks later. -/
  | feDisable (w : Sender) (g : Fin 256) (v : Word)
  /-- FEQ_DISABLE_ALL (R219): FEQ[q].CTL.DISABLE_ALL disables all 64 generators of the quadrant on one tick. -/
  | feqDisableAll (w : Sender) (q : Fin 4)
  /-- IBEX_GO (R237): GO instruction branches when its test holds. -/
  | ibexGo (e : Fin 64) (lanes : Lanes)
  /-- IBEX_AWAIT (R244): AWAIT instruction completes or enters WAITING for a condition, lane level or FIFO contents. -/
  | ibexAwait (e : Fin 64) (lanes : Lanes)
  /-- IBEX_AWAIT_DONE (R244): A waiting AWAIT finds its condition and completes. -/
  | ibexAwaitDone (e : Fin 64) (lanes : Lanes)
  /-- IBEX_SHIFT (R241): SHIFT instruction shifts bits between a shift register and a port, refilling or draining under continuous mode. -/
  | ibexShift (e : Fin 64) (lanes : Lanes)
  /-- IBEX_XFER (R241): XFER instruction fills a shift register from the TX FIFO or drains it into the RX FIFO. -/
  | ibexXfer (e : Fin 64)
  /-- IBEX_COPY (R237): COPY instruction moves an operated source into a destination. -/
  | ibexCopy (e : Fin 64) (lanes : Lanes)
  /-- IBEX_PUT (R237): PUT instruction writes an immediate into a destination. -/
  | ibexPut (e : Fin 64)
  /-- IBEX_BITS (R237): BITS instruction clears, sets or toggles one lane's level or direction. -/
  | ibexBits (e : Fin 64)
  /-- IBEX_NOTIFY (R245): NOTIFY instruction raises signal lines and optionally writes a record. -/
  | ibexNotify (e : Fin 64)
  /-- IBEX_CLOCK (R238): CLOCK instruction opens or closes the clock gate and may set the clock level. -/
  | ibexClock (e : Fin 64)
  /-- IBEX_END (R256): END instruction stops the engine with cause END_INSN. -/
  | ibexEnd (e : Fin 64)
  /-- IBEX_ILLEGAL (R239): An undefined or malformed word stops the engine with cause ILLEGAL. -/
  | ibexIllegal (e : Fin 64)
  /-- IBEX_STALL_RESUME (R246): A word enters or leaves the FIFO and the stalled instruction issues again. -/
  | ibexStallResume (e : Fin 64) (lanes : Lanes)
  /-- IBEX_CMD_CONDCLR (R253): IBX[e].CMD.CONDCLR sets the pending counts to 0. -/
  | ibexCmdCondclr (w : Sender) (e : Fin 64)
  /-- IBEX_CMD_FLUSHTX (R253): IBX[e].CMD.FLUSHTX empties the TX FIFO of a stopped engine. -/
  | ibexCmdFlushtx (w : Sender) (e : Fin 64)
  /-- IBEX_CMD_FLUSHRX (R253): IBX[e].CMD.FLUSHRX empties the RX FIFO of a stopped engine. -/
  | ibexCmdFlushrx (w : Sender) (e : Fin 64)
  /-- IBEX_CMD_STOP (R254): IBX[e].CMD.STOP stops the engine at once or at its next boundary. -/
  | ibexCmdStop (w : Sender) (e : Fin 64)
  /-- IBEX_STOP_AT_BOUNDARY (R254): A running engine reaches its boundary after a STOP and enters STOPPED. -/
  | ibexStopAtBoundary (e : Fin 64)
  /-- IBEX_CMD_CLRSHIFT (R255): IBX[e].CMD.CLRSHIFT clears S0, N0, S1 and N1 of a stopped engine. -/
  | ibexCmdClrshift (w : Sender) (e : Fin 64)
  /-- IBEX_CMD_START (R255): IBX[e].CMD.START makes a stopped engine RUNNING. -/
  | ibexCmdStart (w : Sender) (e : Fin 64)
  /-- IBEX_ENABLE (R233): IBX[e].CTL.EN goes to 1; pins and directions take their initial values and the engine is STOPPED. -/
  | ibexEnable (w : Sender) (e : Fin 64) (v : Word)
  /-- IBEX_DISABLE (R233): IBX[e].CTL.EN goes to 0; the engine stops and its lanes reach fused idle. -/
  | ibexDisable (w : Sender) (e : Fin 64) (v : Word)
  /-- IBEX_PDATA_WRITE (R252): A write of PDATA stores a program word and advances PADDR, or is refused. -/
  | ibexPdataWrite (w : Sender) (e : Fin 64) (v : Word)
  /-- IBEX_PDATA_READ (R252): A read of PDATA returns the word at PADDR and advances PADDR. -/
  | ibexPdataRead (w : Sender) (e : Fin 64)
  /-- IBEX_TXDATA_WRITE (R247): A write of TXDATA pushes a word into the TX FIFO, or is dropped. -/
  | ibexTxdataWrite (w : Sender) (e : Fin 64) (v : Word)
  /-- IBEX_RXDATA_READ (R247): A read of RXDATA removes a word from the RX FIFO, or returns 0. -/
  | ibexRxdataRead (w : Sender) (e : Fin 64)
  /-- TX_STREAM_RUN (R248): TXS_CTL.RUN is written, starting or stopping the TX stream. -/
  | txStreamRun (w : Sender) (e : Fin 64) (v : Word)
  /-- TX_STREAM_READ_DONE (R248): A TX stream read returns and its words enter the FIFO, ending, wrapping or erroring the pass. -/
  | txStreamReadDone (e : Fin 64)
  /-- RX_STREAM_RUN (R250): RXS_CTL.RUN is written, starting or stopping the RX stream. -/
  | rxStreamRun (w : Sender) (e : Fin 64) (v : Word)
  /-- RX_STREAM_WRITE (R250): The RX stream takes FIFO words and writes a full 16-byte group to memory. -/
  | rxStreamWrite (e : Fin 64)
  /-- RX_STREAM_GROUP_TIMEOUT (R250): An incomplete RX group waits 256 ticks and is written masked. -/
  | rxStreamGroupTimeout (e : Fin 64)
  /-- IBEX_HANDOVER (R258): HOCTL.GO checks and performs a handover of a pin group from an outgoing ibex to the spare. -/
  | ibexHandover (w : Sender) (e : Fin 64) (v : Word)
  /-- IBEX_RESET (R479): QPWR[q].IBXRST resets one ibex, keeping its program memory. -/
  | ibexReset (w : Sender) (q : Fin 4) (v : Word)
  /-- ME_TWO_MOVE_WORD (R271): A word of two moves reads its sources and writes its destinations and triggers. -/
  | meTwoMoveWord (e : Fin 8) (lanes : Lanes)
  /-- ME_COMPARE_BRANCH (R269): A compare-and-branch word redirects when its condition holds. -/
  | meCompareBranch (e : Fin 8) (lanes : Lanes)
  /-- ME_LONG_IMMEDIATE (R270): A long-immediate word moves a 32-bit immediate into one port. -/
  | meLongImmediate (e : Fin 8) (lanes : Lanes)
  /-- ALU_ADD (R277): ALU.add trigger computes A + v with carry. -/
  | aluAdd (e : Fin 8) (v : Word)
  /-- ALU_SUB (R277): ALU.sub trigger computes A − v with borrow. -/
  | aluSub (e : Fin 8) (v : Word)
  /-- ALU_AND (R277): ALU.and trigger computes the bitwise AND. -/
  | aluAnd (e : Fin 8) (v : Word)
  /-- ALU_OR (R277): ALU.or trigger computes the bitwise OR. -/
  | aluOr (e : Fin 8) (v : Word)
  /-- ALU_XOR (R277): ALU.xor trigger computes the bitwise XOR. -/
  | aluXor (e : Fin 8) (v : Word)
  /-- ALU_SHL (R277): ALU.shl trigger shifts A left. -/
  | aluShl (e : Fin 8) (v : Word)
  /-- ALU_SHR (R277): ALU.shr trigger shifts A right with zero fill. -/
  | aluShr (e : Fin 8) (v : Word)
  /-- ALU_SAR (R277): ALU.sar trigger shifts A right arithmetically. -/
  | aluSar (e : Fin 8) (v : Word)
  /-- ALU_MIN (R277): ALU.min trigger gives the signed minimum. -/
  | aluMin (e : Fin 8) (v : Word)
  /-- ALU_MAX (R277): ALU.max trigger gives the signed maximum. -/
  | aluMax (e : Fin 8) (v : Word)
  /-- ALU_ADDC (R277): ALU.addc trigger adds with carry in. -/
  | aluAddc (e : Fin 8) (v : Word)
  /-- ALU_SUBB (R277): ALU.subb trigger subtracts with borrow in. -/
  | aluSubb (e : Fin 8) (v : Word)
  /-- MUL_T (R278): MUL.t trigger forms the signed 64-bit product. -/
  | mulT (e : Fin 8) (v : Word)
  /-- MUL_TU (R278): MUL.tu trigger forms the unsigned 64-bit product. -/
  | mulTu (e : Fin 8) (v : Word)
  /-- LUT_T (R279): LUT.t trigger interpolates a table at a Q16.16 index. -/
  | lutT (e : Fin 8) (v : Word)
  /-- LSU_LD (R281): LSU.ld trigger loads a word from scratch or stacked memory. -/
  | lsuLd (e : Fin 8) (v : Word)
  /-- LSU_ST (R281): LSU.st trigger stores a word at LSU.a. -/
  | lsuSt (e : Fin 8) (v : Word)
  /-- LSU_FAA (R282): LSU.faa atomically adds to a 32-bit stacked-memory word. -/
  | lsuFaa (e : Fin 8) (v : Word)
  /-- LSU_FAA64 (R282): LSU.faa64 atomically adds to a 64-bit stacked-memory word. -/
  | lsuFaa64 (e : Fin 8) (v : Word)
  /-- LSU_SWP (R282): LSU.swp atomically exchanges a 32-bit stacked-memory word. -/
  | lsuSwp (e : Fin 8) (v : Word)
  /-- LSU_LOAD_DATA_ARRIVE (R281): An outstanding stacked-memory load or atomic returns its data, releasing waiting words. -/
  | lsuLoadDataArrive (e : Fin 8)
  /-- LSU_IRD (R283): LSU.ird reads a word of the active image. -/
  | lsuIrd (e : Fin 8) (v : Word)
  /-- LSU_IWR (R283): LSU.iwr writes a word into the inactive image, unless it is locked. -/
  | lsuIwr (e : Fin 8) (v : Word)
  /-- AGU_LD (R284): AGU.ldK loads at pointer K and steps it by its mode. -/
  | aguLd (e : Fin 8) (k : Fin 8) (v : Word)
  /-- AGU_ST (R284): AGU.stK stores at pointer K and steps it by its mode. -/
  | aguSt (e : Fin 8) (k : Fin 8) (v : Word)
  /-- BR_T (R275): BR.t jumps to a target. -/
  | brT (e : Fin 8) (v : Word)
  /-- CALL_T (R291): CALL.t pushes the return address and calls a target, or traps STACK_OVF. -/
  | callT (e : Fin 8) (v : Word)
  /-- CALL_RET (R291): CALL.ret pops and returns, or traps STACK_UNF. -/
  | callRet (e : Fin 8) (v : Word)
  /-- REP_T (R292): REP.t repeats the next word n times. -/
  | repT (e : Fin 8) (v : Word)
  /-- TIME_LO_READ (R293): A read of TIME.lo returns STIME[31:0] and latches TIME.hi. -/
  | timeLoRead (e : Fin 8)
  /-- TIME_WAIT (R293): TIME.wait puts the engine in WAITING until a given tick. -/
  | timeWait (e : Fin 8) (v : Word)
  /-- TIME_WAIT_EXPIRE (R293): The tick of a TIME.wait arrives and the next word issues. -/
  | timeWaitExpire (e : Fin 8)
  /-- TIME_SLP (R294): TIME.slp puts the engine in SLEEPING until a record or selected event bit. -/
  | timeSlp (e : Fin 8) (v : Word)
  /-- ME_SLEEP_WAKE (R294): A record arrives or a selected event bit sets and a sleeping engine resumes. -/
  | meSleepWake (e : Fin 8)
  /-- IO_WR (R285): IO.wr writes a register of the quadrant block through I/O space. -/
  | ioWr (e : Fin 8) (v : Word)
  /-- IO_RD (R285): IO.rd reads a register of the quadrant block, with read side effects. -/
  | ioRd (e : Fin 8) (v : Word)
  /-- COACH_PORT_INSERT (R286): COACH.t ← 0 offers an entry to the slice. -/
  | coachPortInsert (e : Fin 8)
  /-- COACH_PORT_CANCEL (R286): COACH.t ← 1 issues a cancel request. -/
  | coachPortCancel (e : Fin 8)
  /-- COACH_REQUEST_DONE (R286): A Coach port request completes and places a result in the queue. -/
  | coachRequestDone (e : Fin 8)
  /-- COACH_ST_READ (R286): A read of COACH.st removes the oldest result. -/
  | coachStRead (e : Fin 8)
  /-- REC_T (R287): REC.t moves the oldest record of the engine queue into REC.w0 to w7. -/
  | recT (e : Fin 8) (v : Word)
  /-- SYS_ERET (R295): SYS.eret clears INTRAP and returns. -/
  | sysEret (e : Fin 8) (v : Word)
  /-- SYS_TRAP (R295): SYS.trap traps with cause SOFT. -/
  | sysTrap (e : Fin 8) (v : Word)
  /-- BIT_MAP (R288): BIT.map maps a bit window to a bit address. -/
  | bitMap (e : Fin 8) (v : Word)
  /-- BIT_SET (R288): BIT.set sets a bit of the bit space. -/
  | bitSet (e : Fin 8) (v : Word)
  /-- BIT_CLR (R288): BIT.clr clears a bit of the bit space. -/
  | bitClr (e : Fin 8) (v : Word)
  /-- BIT_TAS (R288): BIT.tas tests and sets a semaphore or private bit. -/
  | bitTas (e : Fin 8) (v : Word)
  /-- CRC_B (R299): CRC.b feeds one byte into the CRC register. -/
  | crcB (e : Fin 8) (v : Word)
  /-- CRC_W (R299): CRC.w feeds four bytes into the CRC register. -/
  | crcW (e : Fin 8) (v : Word)
  /-- XP_IN (R300): XP.in writes a row into the transposer fill bank. -/
  | xpIn (e : Fin 8) (v : Word)
  /-- XP_OUT_READ (R300): A read of XP.out returns the next column and advances. -/
  | xpOutRead (e : Fin 8)
  /-- XP_CLR (R300): XP.clr empties both transposer banks. -/
  | xpClr (e : Fin 8) (v : Word)
  /-- XP_BANK_SWAP (R300): A full fill bank and an empty drain bank swap 2 cycles later. -/
  | xpBankSwap (e : Fin 8)
  /-- ME_START (R304): ME[e].CTL.EN goes to 1; the engine loads its call registers and issues ENTRY. -/
  | meStart (w : Sender) (e : Fin 8) (v : Word)
  /-- ME_STOP (R304): ME[e].CTL.EN goes to 0; the engine stops at its next boundary or at once. -/
  | meStop (w : Sender) (e : Fin 8) (v : Word)
  /-- ME_ERESET (R303): ME[e].CTL.ERESET resets one engine and clears EN. -/
  | meEreset (w : Sender) (e : Fin 8) (v : Word)
  /-- ME_IMDATA_WRITE (R303): A write of IMDATA_LO stores an image word and advances IMADDR, or is refused. -/
  | meImdataWrite (w : Sender) (e : Fin 8) (v : Word)
  /-- ME_CYC_LO_READ (R303): A read of ME[e].CYC_LO latches CYC_HI. -/
  | meCycLoRead (w : Sender) (e : Fin 8)
  /-- ME_DEBUG_HALT (R302): The debugger halts an engine, freezing its owned channels, generators and ibex engines if set. -/
  | meDebugHalt (e : Fin 8)
  /-- ME_DEBUG_RESUME (R302): The debugger resumes an engine and its frozen blocks resume. -/
  | meDebugResume (e : Fin 8)
  /-- DEBUG_PORT_ACCESS (R453): A JTAG debug request is served or refused by the debug lock level. -/
  | debugPortAccess (r : DebugRequest)
  /-- BANK_READ (R310): A bank read decodes the check code and returns clean, corrected or uncorrectable data. -/
  | bankRead (b : Fin 16) (flip : BitVec 152)
  /-- BANK_WRITE (R308): A full or masked write is applied at a bank. -/
  | bankWrite (b : Fin 16)
  /-- BANK_ATOMIC (R316): An atomic is performed at a bank in two consecutive slots. -/
  | bankAtomic (b : Fin 16) (flip : BitVec 152)
  /-- CE_WRITEBACK (R311): A corrected word is written back in the background unless a write intervened. -/
  | ceWriteback
  /-- SCRUB_READ (R315): The patrol scrub reads the next word and corrects errors. -/
  | scrubRead (flip : BitVec 152)
  /-- SPARE_GO (R323): A write of SPARECFG.GO spares the named logical bank. -/
  | spareGo (f : Fin 4) (v : Word)
  /-- SPARE_COPY_WORD (R324): The sparing copy moves one word to the spare; on the last word the map switches. -/
  | spareCopyWord (flip : BitVec 152)
  /-- SLICE_BORROW (R326): MEM.TESTCTL.GO borrows and tests a slice through the mirror. -/
  | sliceBorrow (f : Fin 4) (v : Word)
  /-- SLICE_TEST_DONE (R328): A slice borrowing ends, its result enters TESTSTAT and a failing bank may be spared. -/
  | sliceTestDone (fails : BitVec 16)
  /-- MOVE_CMD_START (R319): MV[m].CMD.START starts a memory move, or is refused or dropped. -/
  | moveCmdStart (w : Sender) (m : Fin 64)
  /-- MOVE_CMD_STOP (R320): MV[m].CMD.STOP ends the move after the word in progress. -/
  | moveCmdStop (w : Sender) (m : Fin 64)
  /-- MOVE_WORD (R319): A move copies or fills one word; on the last word the move ends. -/
  | moveWord (m : Fin 64)
  /-- MEM_WAKE_READY (R322): 25 µs after wake begins the memory accepts its first access. -/
  | memWakeReady
  /-- STAGED_WRITE_LAND (R398): A staged write lands in its quadrant's commit buffer. -/
  | stagedWriteLand (k : Nat)
  /-- QSTAGE_WRITE (R394): A write of QSTAGE[q].VAL stages a write into a group through the port. -/
  | qstageWrite (w : Sender) (q : Fin 4) (v : Word)
  /-- QSTAGE_ABORT (R406): QSTAGE[q].CMD.ABORT aborts a group claimed by the port. -/
  | qstageAbort (w : Sender) (q : Fin 4)
  /-- COMMIT_FIRE (R399): A commit group is strobed and its landed writes take effect on commit tick C. -/
  | commitFire (g : Fin 32)
  /-- SNAPSHOT_TAKE (R410): A snapshot set is taken on its snapshot tick into a buffer, or dropped. -/
  | snapshotTake (k : Fin 32)
  /-- SNAPSHOT_WRITE_DONE (R411): A snapshot image is written to the host or a memory slot and its buffer is freed. -/
  | snapshotWriteDone (k : Nat) (hostErr : Bool)
  /-- TEST_START (R421): The head request of the test queue starts once its condition holds. -/
  | testStart
  /-- TEST_DONE (R421): A background test ends with PASS or FAIL and writes a SERVICE record. -/
  | testDone (pass : Bool) (detail : Word)
  /-- TEST_NOT_IDLE (R423): IDLEWAIT expires with the condition unmet and the request ends NOT_IDLE. -/
  | testNotIdle
  /-- TEST_ABANDON (R423): A unit under test leaves its condition and the test ends ABANDONED. -/
  | testAbandon
  /-- PATROL_TICK (R425): Every PERIOD ms the patrol queues its next item while the queue is empty. -/
  | patrolTick
  /-- QHOLD_SET (R426): A write of 1 to SVC.QHOLD bit q resets and holds the quadrant. -/
  | qholdSet (f : Fin 4) (q : Fin 4)
  /-- QHOLD_RELEASE (R427): A write of 0 to SVC.QHOLD bit q releases the quadrant as from a quadrant reset. -/
  | qholdRelease (f : Fin 4) (q : Fin 4)
  /-- QUADRANT_MONITOR_TRIP (R428): A quadrant's clock-spine or supply monitor trips and the quadrant is isolated. -/
  | quadrantMonitorTrip (q : Fin 4) (supply : Bool)
  /-- QUADRANT_RELEASE (R430): SVC.QRELEASE with GO releases an isolated quadrant, or is refused. -/
  | quadrantRelease (f : Fin 4) (v : Word)
  /-- QUADRANT_RESET_END (R478): An unheld quadrant reset ends 1 µs after its trigger and calibration begins. -/
  | quadrantResetEnd (q : Fin 4)
  /-- DCLK_PLL_LOSS (R432): The DCLK PLL loses lock and the memory controller runs from TCLK. -/
  | dclkPllLoss
  /-- FCLK_PLL_LOSS (R432): The FCLK PLL loses lock and the fabric runs from TCLK. -/
  | fclkPllLoss
  /-- SPINE_PARITY_ERROR (R433): A parity error restarts a spine block and logs it. -/
  | spineParityError (b : SpineBlock)
  /-- FAULT_LOG_STORE_WRITE (R434): A buffered fault-log entry is written to the store, or merged as a repeat. -/
  | faultLogStoreWrite
  /-- PRESENCE_ASSERT (R449): SERVICE_N is low for 20 ms and the presence window opens. -/
  | presenceAssert
  /-- PRESENCE_RELEASE (R449): SERVICE_N is high for 20 ms and is taken as released. -/
  | presenceRelease
  /-- PRESENCE_TIMEOUT (R449): The presence window closes 60 s after it opened. -/
  | presenceTimeout
  /-- PRESENCE_CLOSE (R449): A write of 1 to SVC.PRES.CLOSE closes the presence window. -/
  | presenceClose (f : Fin 4)
  /-- SEAL_OPEN (R454): SEAL is high for 1 ms; the loop is taken as opened and logged. -/
  | sealOpen
  /-- SEAL_CLEAR (R456): A write of 1 to SVC.SEAL.OPEN clears it inside the presence window, or is refused. -/
  | sealClear (f : Fin 4)
  /-- POWER_GOOD_RELEASE (R461): The core rails have been good for 1 ms and the device leaves cold reset. -/
  | powerGoodRelease
  /-- RST_N_ASSERT (R477): RST_N held low for 1 µs applies a cold reset. -/
  | rstNAssert
  /-- PWR_COLD (R481): PWR.CTL.COLD applies a cold reset on the next tick. -/
  | pwrCold (f : Fin 4)
  /-- CORE_SUPPLY_LOSS (R463): VDD falls below 0.68 V for 1 µs; pins go idle and all state is lost. -/
  | coreSupplyLoss
  /-- IO_RAIL_GOOD (R461): A VDDIO or VDDFE rail becomes good and its pins take their levels. -/
  | ioRailGood (r : IoRail) (v33 : Bool)
  /-- IO_RAIL_LOST (R486): A VDDIO or VDDFE rail leaves its range and its pins stop driving. -/
  | ioRailLost (r : IoRail)
  /-- FUSE_LOAD_DONE (R443): The fuse array is loaded at cold start and idle latches take their levels. -/
  | fuseLoadDone
  /-- BOOT_READ_DONE (R465): The boot region has been read from the store. -/
  | bootReadDone
  /-- STARTUP_SCRUB_DONE (R329): The start-up scrub has written every word and MEM READY is set. -/
  | startupScrubDone
  /-- BOOT_APPLY (R466): The boot image records are applied in order and the device becomes READY. -/
  | bootApply
  /-- PWR_REQ_IDLE (R469): PWR.CTL.REQ = IDLE enters IDLE if every block is disabled, or is refused. -/
  | pwrReqIdle (f : Fin 4)
  /-- IDLE_EXIT (R469): An access to a gated block returns the device from IDLE to RUN. -/
  | idleExit
  /-- PWR_REQ_SLEEP (R470): PWR.CTL.REQ = SLEEP makes a SLEEP request pending. -/
  | pwrReqSleep (f : Fin 4)
  /-- PWR_REQ_RUN (R470): PWR.CTL.REQ = RUN cancels a pending SLEEP request. -/
  | pwrReqRun (f : Fin 4)
  /-- SLEEP_ENTRY (R470): On the first tick all functions are in D3hot or the link is down, SLEEP entry runs. -/
  | sleepEntry
  /-- WAKE (R472): A wake source is active at an ACLK edge and the wake timeline begins. -/
  | wake (src : WakeSource)
  /-- STIME_RESUME (R53): TCLK resumes on an ACLK edge; STIME and housekeeping timers are made up. -/
  | stimeResume (n : Nat) (levels : BitVec 24)
  /-- WAKE_RUN (R473): 120 µs after wake the device reaches RUN and blocks resume. -/
  | wakeRun
  /-- THERMAL_SAMPLE (R476): The junction temperature sample is taken and compared with the grade limits. -/
  | thermalSample (t : Int)
  /-- LANE_CFG_WRITE (R484): A write of LANE[n].CFG changes the lane's owner, drive or pull on the next tick. -/
  | laneCfgWrite (w : Sender) (n : Fin 512) (v : Word)
  /-- RSVW_FLAG_CLEAR (R511): A write of 1 to GLB.RSVW.FLAG clears the reserved-write flag and releases its record. -/
  | rsvwFlagClear (f : Fin 4)
  /-- REGISTER_WRITE (R504): A write to a register with no row of its own is applied under that register's access rules. -/
  | registerWrite (w : Sender) (off : Fin 65536) (be : BitVec 4) (v : Written)
  /-- SLAVE_CLOCK_EDGE (R120): A rising or falling edge of the downstream master's clock at the slave clock lane during a frame drives the next answer bit, or counts as an extra clock. -/
  | slaveClockEdge (a : Fin 8) (rising : Bool)
  /-- REFERENCE_RETURN (R35): A lost reference input comes back within limits, setting its REFx_OK again and ending holdover when both had been lost. -/
  | referenceReturn (x : Fin 2)
  /-- QUADRANT_MONITOR_GOOD (R430): An isolated quadrant's island supply and clock spine come back and both monitors read good again, clearing SUPPLY_TRIP and CLOCK_TRIP. -/
  | quadrantMonitorGood (q : Fin 4)
  /-- COMPLETION_TIMEOUT (R347): A descriptor read to the host gets no completion in time, and the ring is stopped with HOST_ERR as for a returned error. -/
  | completionTimeout (k : Fin 32)
  /-- VAON_LOSS (R462): VAON falls away, the always-on domain and pad idle latches lose power, and every FE pin, lane and CONV pin goes high impedance. -/
  | vaonLoss
  deriving DecidableEq, Repr

end Sys2Proof
end

