-- ==== Sys2Proof/Decode.lean ====
section
/-! DEFINITION. The decoder over the rows of the table of operations and events that give bits. -/

namespace Sys2Proof

/-- The command a word spells by the table's bits. No row of this hardware's table gives bits, so no word spells one. -/
def decodeTableWord (_nbits _w : Nat) : Option Instr := none

end Sys2Proof
end

