-- ==== Sys2Proof/Config.lean ====
section
/-! DEFINITION. What an implementation fixes and what the specification leaves open: free values. Each is a constant with no body, so
nothing can be proved of it; a meaning applies it to a counter of the state that it advances, or to the operands. -/

namespace Sys2Proof.Config

/-- A free value for use number `n` (log 5, log 6): the steering value of R41, an epoch error beyond the 16 bits of TB.SYNC_ERR, and
every other value that the specification leaves open. -/
opaque freeWord : Nat → BitVec 64

/-- R338: the next pointer of the vendor-specific capability of function `f`, which the specification leaves open (log 10). -/
opaque vsecNext : Nat → BitVec 12

/-- R313: the three syndromes of a word of these data under the poison code, whose symbols the specification does not give (log 8). -/
opaque poisonSyndrome : Nat → BitVec 24

end Sys2Proof.Config
end

