-- ==== Sys2Proof/Machine/Tab.lean ====
section
/-! DEFINITION. Sparse tables: a list of (index, value) pairs with strictly rising indexes and no value equal to what an
unlisted index reads as. Registers, memories and the repeated blocks are held so, and equal tables are equal lists. -/

namespace Sys2Proof.Machine

/-- A table with entries for some indexes. -/
abbrev Tab (α : Type) := List (Nat × α)

/-- The value at index `i`; `d` where the table lists none. -/
def Tab.get {α : Type} (d : α) : Tab α → Nat → α
  | [], _ => d
  | (k, v) :: t, i => if i = k then v else Tab.get d t i

/-- The table with the entry (`i`, `v`) in its place. -/
def Tab.insert {α : Type} (i : Nat) (v : α) : Tab α → Tab α
  | [] => [(i, v)]
  | (k, w) :: t => if i < k then (i, v) :: (k, w) :: t else if i = k then (i, v) :: t else (k, w) :: Tab.insert i v t

/-- The table with `v` at index `i`; a value equal to `d` is not listed. -/
def Tab.set {α : Type} [DecidableEq α] (d : α) (t : Tab α) (i : Nat) (v : α) : Tab α :=
  if v = d then t.filter (fun p => p.1 != i) else Tab.insert i v t

/-- The canonical form from index `lo` on: rising indexes, no value equal to the unlisted one. -/
def Tab.wfFrom {α : Type} [DecidableEq α] (d : α) : Nat → Tab α → Bool
  | _, [] => true
  | lo, (k, v) :: t => decide (lo ≤ k) && decide (v ≠ d) && Tab.wfFrom d (k + 1) t

/-- The canonical form of a table. -/
def Tab.wf {α : Type} [DecidableEq α] (d : α) (t : Tab α) : Bool := Tab.wfFrom d 0 t

/-- The table with `f` applied at index `i`. -/
def Tab.mod {α : Type} [DecidableEq α] (d : α) (t : Tab α) (i : Nat) (f : α → α) : Tab α :=
  Tab.set d t i (f (Tab.get d t i))

/-- The first number of the list for which `p` holds. -/
def firstIdx (p : Nat → Bool) : Nat → Nat → Option Nat
  | _, 0 => none
  | i, n + 1 => if p i then some i else firstIdx p (i + 1) n

end Sys2Proof.Machine
end

