-- ==== Sys2Proof/Machine/RegMap.lean ====
section
/-! DEFINITION. The register map of BAR0 (R512 to R514): every register's access classes, reset word and reserved
encodings, and the decoding of an offset. -/

namespace Sys2Proof.Machine

/-- The register groups of R513 and R514. -/
inductive Gid where
  | glb | cmt | cmtg | snap | snaplist | hif | bulk | sr | rr | route | recq | recu | medrop | ackstray | sdsel | hold | tb | hk | fuse | fusest | mem | cecnt | mv | svcpres | svc | pwr | qstage | qpwr | axis | me | agu | lane | qio | coach | car | tpl | tc | tcv | sinksel | xline | xbar | convw | feq | feqidle | fe | ibx
  deriving DecidableEq, Repr

/-- One register of a group: its offset in the group, its reset word, and for each access class of R2 the mask of
the bits of that class; the bits of no class are RSV. `bad` lists the fields with reserved encodings: lowest bit, width,
and the least value that is reserved (R510). -/
structure RegInfo where
  off : Nat
  reset : Nat
  rw : Nat
  ro : Nat
  w1c : Nat
  wo : Nat
  bad : List (Nat × Nat × Nat) := []
  deriving DecidableEq, Repr

/-- One register group: its base (in a quadrant block where `quad`), outer stride and count, inner stride and count. -/
structure Grp where
  gid : Gid
  base : Nat
  s1 : Nat
  c1 : Nat
  s2 : Nat
  c2 : Nat
  quad : Bool
  regs : List RegInfo
  deriving DecidableEq, Repr

/-- R515: the group GLB. -/
def grp_glb : Grp := ⟨.glb, 0x0, 0x0, 1, 0x0, 1, false,
  [⟨0x0, 0x84000001, 0x0, 0xFFFFFFFF, 0x0, 0x0, []⟩,
   ⟨0x4, 0x0, 0x0, 0x1F8, 0x0, 0x0, []⟩,
   ⟨0x8, 0x0, 0xFFFFFFFF, 0x0, 0x0, 0x0, []⟩,
   ⟨0xC, 0x0, 0x0, 0xF3FFFF, 0x80000000, 0x0, []⟩,
   ⟨0x10, 0x0, 0xFFFFFFFF, 0x0, 0x0, 0x0, []⟩,
   ⟨0x14, 0x0, 0xFFFFFFFF, 0x0, 0x0, 0x0, []⟩]⟩

/-- R413: the group CMT. -/
def grp_cmt : Grp := ⟨.cmt, 0x1000, 0x0, 1, 0x0, 1, false,
  [⟨0x0, 0x0, 0x0, 0x0, 0x1, 0x0, []⟩,
   ⟨0x4, 0x400, 0x0, 0x7FF, 0x0, 0x0, []⟩,
   ⟨0x8, 0x0, 0xFFFFFFFF, 0x0, 0x0, 0x0, []⟩,
   ⟨0xC, 0x0, 0xFFFFFFFF, 0x0, 0x0, 0x0, []⟩,
   ⟨0x10, 0x0, 0xFFFFFFFF, 0x0, 0x0, 0x0, []⟩]⟩

/-- R414: the group CMTG. -/
def grp_cmtg : Grp := ⟨.cmtg, 0x1100, 0x10, 32, 0x0, 1, false,
  [⟨0x0, 0x0, 0x0, 0xF70001FF, 0x0, 0x0, []⟩,
   ⟨0x4, 0x0, 0x0, 0xFFFFFFFF, 0x0, 0x0, []⟩,
   ⟨0x8, 0x0, 0x0, 0xFFFFFFFF, 0x0, 0x0, []⟩]⟩

/-- R414: the group SNAP. -/
def grp_snap : Grp := ⟨.snap, 0x1800, 0x100, 32, 0x0, 1, false,
  [⟨0x0, 0x100, 0xE07FFF00, 0xFF, 0x0, 0x0, []⟩,
   ⟨0x4, 0x0, 0x3FFFC00, 0x0, 0x0, 0x0, []⟩]⟩

/-- R413: the group SNAPLIST. -/
def grp_snaplist : Grp := ⟨.snaplist, 0x1840, 0x100, 32, 0x4, 64, false,
  [⟨0x0, 0x0, 0x8003FFFC, 0x0, 0x0, 0x0, []⟩]⟩

/-- R369: the group HIF. -/
def grp_hif : Grp := ⟨.hif, 0x4000, 0x0, 1, 0x0, 1, false,
  [⟨0x0, 0x0, 0x0, 0x1FF, 0x0, 0x0, []⟩,
   ⟨0x4, 0x0, 0x0, 0xFF, 0x0, 0x0, []⟩,
   ⟨0x8, 0x0, 0x0, 0xFFFFFFFF, 0x0, 0x0, []⟩,
   ⟨0xC, 0x10820820, 0x0, 0x1FFFFFFF, 0x0, 0x0, []⟩,
   ⟨0x10, 0x0, 0xFFFFFFFF, 0x0, 0x0, 0x0, []⟩,
   ⟨0x14, 0x0, 0xFFFFFFFF, 0x0, 0x0, 0x0, []⟩,
   ⟨0x18, 0x0, 0xFFFFFFFF, 0x0, 0x0, 0x0, []⟩]⟩

/-- R368: the group BULK. -/
def grp_bulk : Grp := ⟨.bulk, 0x4040, 0x10, 4, 0x0, 1, false,
  [⟨0x0, 0x0, 0x3FFFFFC, 0x0, 0x0, 0x0, []⟩,
   ⟨0x4, 0x0, 0x3, 0x0, 0x0, 0x0, []⟩,
   ⟨0x8, 0x0, 0x0, 0x0, 0x7, 0x0, []⟩]⟩

/-- R368: the group SR. -/
def grp_sr : Grp := ⟨.sr, 0x4100, 0x20, 32, 0x0, 1, false,
  [⟨0x0, 0x0, 0xFFFFF000, 0x0, 0x0, 0x0, []⟩,
   ⟨0x4, 0x0, 0xFFFFFFFF, 0x0, 0x0, 0x0, []⟩,
   ⟨0x8, 0x40080, 0x9F1F00F0, 0x0, 0x0, 0x0, []⟩,
   ⟨0xC, 0x0, 0x0, 0xFFFF, 0x0, 0x0, []⟩,
   ⟨0x10, 0x0, 0x0, 0xFFFF, 0x0, 0x0, []⟩,
   ⟨0x14, 0x20, 0x0, 0xFFFF8, 0x7, 0x0, []⟩]⟩

/-- R368: the group RR. -/
def grp_rr : Grp := ⟨.rr, 0x4500, 0x20, 32, 0x0, 1, false,
  [⟨0x0, 0x0, 0xFFFFF000, 0x0, 0x0, 0x0, []⟩,
   ⟨0x4, 0x0, 0xFFFFFFFF, 0x0, 0x0, 0x0, []⟩,
   ⟨0x8, 0x40000, 0xC01F0000, 0x0, 0x0, 0x0, []⟩,
   ⟨0xC, 0x0, 0x0, 0xFFFF, 0x0, 0x0, []⟩,
   ⟨0x10, 0x0, 0x0, 0xFFFF, 0x0, 0x0, []⟩,
   ⟨0x14, 0x8, 0x0, 0xFFFF000C, 0x3, 0x0, []⟩,
   ⟨0x18, 0x0, 0x83FF003F, 0x70000000, 0x0, 0x0, []⟩,
   ⟨0x1C, 0x0, 0x7FFFFFFF, 0x80000000, 0x0, 0x0, []⟩]⟩

/-- R390: the group ROUTE. -/
def grp_route : Grp := ⟨.route, 0x4C00, 0x80, 5, 0x4, 32, false,
  [⟨0x0, 0x0, 0xDF0000FF, 0x0, 0x0, 0x0, []⟩]⟩

/-- R389: the group RECQ. -/
def grp_recq : Grp := ⟨.recq, 0x4F00, 0x4, 4, 0x0, 1, false,
  [⟨0x0, 0x0, 0xFFFFFFFF, 0x0, 0x0, 0x0, []⟩]⟩

/-- R389: the group RECU. -/
def grp_recu : Grp := ⟨.recu, 0x4F10, 0x0, 1, 0x0, 1, false,
  [⟨0x0, 0x0, 0xFFFFFFFF, 0x0, 0x0, 0x0, []⟩,
   ⟨0x4, 0x0, 0xFFFFFFFF, 0x0, 0x0, 0x0, []⟩,
   ⟨0x8, 0x0, 0xFFFFFFFF, 0x0, 0x0, 0x0, []⟩]⟩

/-- R389: the group MEDROP. -/
def grp_medrop : Grp := ⟨.medrop, 0x4F20, 0x4, 8, 0x0, 1, false,
  [⟨0x0, 0x0, 0xFFFFFFFF, 0x0, 0x0, 0x0, []⟩]⟩

/-- R389: the group ACKSTRAY. -/
def grp_ackstray : Grp := ⟨.ackstray, 0x4F40, 0x4, 4, 0x0, 1, false,
  [⟨0x0, 0x0, 0xFFFFFFFF, 0x0, 0x0, 0x0, []⟩]⟩

/-- R389: the group SDSEL. -/
def grp_sdsel : Grp := ⟨.sdsel, 0x4F50, 0x8, 4, 0x0, 1, false,
  [⟨0x0, 0x0, 0x1FF, 0x0, 0x0, 0x0, []⟩,
   ⟨0x4, 0x0, 0xFF, 0x0, 0x0, 0x0, []⟩]⟩

/-- R389: the group HOLD. -/
def grp_hold : Grp := ⟨.hold, 0x4F80, 0x4, 4, 0x0, 1, false,
  [⟨0x0, 0x0, 0x0, 0x1FF, 0x0, 0x0, []⟩]⟩

/-- R516: the group TB. -/
def grp_tb : Grp := ⟨.tb, 0x8000, 0x0, 1, 0x0, 1, false,
  [⟨0x0, 0x0, 0x0, 0x0, 0x0, 0x7, []⟩,
   ⟨0x4, 0x0, 0x0, 0xF36F, 0xC90, 0x0, []⟩,
   ⟨0x8, 0x0, 0x0, 0xFFFFFFFF, 0x0, 0x0, []⟩,
   ⟨0xC, 0x0, 0x0, 0xFFFFFFFF, 0x0, 0x0, []⟩,
   ⟨0x10, 0x2, 0xF, 0x0, 0x0, 0x0, []⟩,
   ⟨0x18, 0x0, 0x7, 0x0, 0x0, 0x0, []⟩,
   ⟨0x1C, 0x0, 0xFFFF, 0x0, 0x0, 0x0, []⟩,
   ⟨0x20, 0x0, 0x0, 0xFFFFFFFF, 0x0, 0x0, []⟩,
   ⟨0x24, 0xA5064, 0xFFFFFF, 0x0, 0x0, 0x0, []⟩,
   ⟨0x28, 0x5F5E100, 0x0, 0xFFFFFFFF, 0x0, 0x0, []⟩,
   ⟨0x2C, 0x0, 0x0, 0xFFFFFFFF, 0x0, 0x0, []⟩]⟩

/-- R60: the group HK. -/
def grp_hk : Grp := ⟨.hk, 0x8100, 0x20, 32, 0x0, 1, false,
  [⟨0x0, 0x0, 0xFFFF000D, 0x0, 0x2, 0x0, [(2, 2, 3)]⟩,
   ⟨0x8, 0x0, 0xFFFFFFFF, 0x0, 0x0, 0x0, []⟩,
   ⟨0xC, 0x0, 0xFFFFFFFF, 0x0, 0x0, 0x0, []⟩,
   ⟨0x10, 0x0, 0xFFFFFFFF, 0x0, 0x0, 0x0, []⟩,
   ⟨0x14, 0x0, 0xFFFFFFFF, 0x0, 0x0, 0x0, []⟩,
   ⟨0x18, 0x0, 0xFFFFFFFF, 0x0, 0x0, 0x0, []⟩,
   ⟨0x1C, 0x0, 0xFFFFFFFF, 0x0, 0x0, 0x0, []⟩]⟩

/-- R458: the group FUSE. -/
def grp_fuse : Grp := ⟨.fuse, 0xC000, 0x4, 64, 0x0, 1, false,
  [⟨0x0, 0x0, 0x0, 0xFFFFFFFF, 0x0, 0x0, []⟩]⟩

/-- R459: the group FUSEST. -/
def grp_fusest : Grp := ⟨.fusest, 0xC100, 0x0, 1, 0x0, 1, false,
  [⟨0x0, 0x0, 0x0, 0xF, 0x0, 0x0, []⟩]⟩

/-- R331: the group MEM. -/
def grp_mem : Grp := ⟨.mem, 0x30000, 0x0, 1, 0x0, 1, false,
  [⟨0x0, 0xA1805, 0xFFFF07, 0x0, 0x0, 0x0, []⟩,
   ⟨0x4, 0x0, 0x0, 0x1F034D, 0xB0, 0x0, []⟩,
   ⟨0x8, 0x400100, 0xFFFFFF0F, 0x0, 0x0, 0x80, []⟩,
   ⟨0xC, 0x0, 0x0, 0x3FFFF, 0x0, 0x0, []⟩,
   ⟨0x10, 0x0, 0xFFFFFFFF, 0x0, 0x0, 0x0, []⟩,
   ⟨0x14, 0x0, 0xFFFFFFFF, 0x0, 0x0, 0x0, []⟩,
   ⟨0x18, 0x0, 0x0, 0x3FFFFF0, 0x0, 0x0, []⟩,
   ⟨0x1C, 0x0, 0x0, 0x7FFF8000, 0x80000000, 0x0, []⟩,
   ⟨0x20, 0x0, 0x0, 0xFFFFFF, 0x0, 0x0, []⟩,
   ⟨0x24, 0x0, 0x0, 0xFFFFFFFF, 0x0, 0x0, []⟩,
   ⟨0x28, 0x0, 0x0, 0xFFFFFFFF, 0x0, 0x0, []⟩,
   ⟨0xA0, 0x0, 0x0, 0x0, 0x0, 0x3FF0001, []⟩,
   ⟨0xA4, 0x0, 0x0, 0x3FFFFFF, 0xC0000000, 0x0, []⟩]⟩

/-- R330: the group CECNT. -/
def grp_cecnt : Grp := ⟨.cecnt, 0x30040, 0x4, 17, 0x0, 1, false,
  [⟨0x0, 0x0, 0xFFFFFFFF, 0x0, 0x0, 0x0, []⟩]⟩

/-- R333: the group MV. -/
def grp_mv : Grp := ⟨.mv, 0x30400, 0x20, 64, 0x0, 1, false,
  [⟨0x0, 0x0, 0x7, 0x0, 0x0, 0x0, []⟩,
   ⟨0x4, 0x0, 0x3FFFFF0, 0x0, 0x0, 0x0, []⟩,
   ⟨0x8, 0x0, 0x3FFFFF0, 0x0, 0x0, 0x0, []⟩,
   ⟨0xC, 0x0, 0x3FFFFF, 0x0, 0x0, 0x0, []⟩,
   ⟨0x10, 0x0, 0xFFFFFFFF, 0x0, 0x0, 0x0, []⟩,
   ⟨0x14, 0x0, 0x0, 0x0, 0x0, 0x3, []⟩,
   ⟨0x18, 0x0, 0xFF000000, 0x1, 0x1E, 0x0, []⟩,
   ⟨0x1C, 0x0, 0x0, 0x3FFFFF, 0x0, 0x0, []⟩]⟩

/-- R459: the group SVCPRES. -/
def grp_svcpres : Grp := ⟨.svcpres, 0x38000, 0x0, 1, 0x0, 1, false,
  [⟨0x0, 0x0, 0x0, 0xE0FF003F, 0x0, 0x8000, []⟩,
   ⟨0x4, 0x0, 0x0, 0x6, 0x9, 0x0, []⟩,
   ⟨0x8, 0x0, 0x0, 0xFFFFFFFF, 0x0, 0x0, []⟩]⟩

/-- R442: the group SVC. -/
def grp_svc : Grp := ⟨.svc, 0x38100, 0x0, 1, 0x0, 1, false,
  [⟨0x0, 0xA32, 0x8000FFFF, 0x0, 0x0, 0x0, []⟩,
   ⟨0x4, 0x0, 0x0, 0x9FFFFFFF, 0x0, 0x0, []⟩,
   ⟨0x8, 0x0, 0x0, 0xFFFFFFFF, 0x0, 0x0, []⟩,
   ⟨0xC, 0x0, 0x0, 0xFFFFFFFF, 0x0, 0x0, []⟩,
   ⟨0x10, 0x0, 0x0, 0xFFFFF, 0x0, 0x0, []⟩,
   ⟨0x14, 0x0, 0xF, 0x0, 0x0, 0x0, []⟩,
   ⟨0x18, 0x0, 0x0, 0x0, 0x0, 0x80000003, []⟩,
   ⟨0x1C, 0x0, 0x0, 0x7, 0x0, 0x0, []⟩,
   ⟨0x20, 0x0, 0x0, 0x3FFF01FF, 0x0, 0x0, []⟩,
   ⟨0x24, 0x0, 0x3FFF, 0x0, 0x0, 0x0, []⟩,
   ⟨0x28, 0x0, 0xFFFFFFFF, 0x0, 0x0, 0x0, []⟩,
   ⟨0x2C, 0x0, 0x0, 0xFFFFFFFF, 0x0, 0x0, []⟩,
   ⟨0x30, 0x0, 0xFFFFFFFF, 0x0, 0x0, 0x0, []⟩]⟩

/-- R481: the group PWR. -/
def grp_pwr : Grp := ⟨.pwr, 0x38200, 0x0, 1, 0x0, 1, false,
  [⟨0x0, 0x0, 0x3, 0x0, 0x0, 0x80000000, [(0, 2, 3)]⟩,
   ⟨0x4, 0x0, 0x0, 0xF9CFFFFF, 0x6000000, 0x0, []⟩,
   ⟨0x8, 0x0, 0x3, 0x0, 0x0, 0x0, []⟩,
   ⟨0xC, 0x0, 0xFFFFFFFF, 0x0, 0x0, 0x0, []⟩,
   ⟨0x10, 0x0, 0x0, 0xFFFF, 0x0, 0x0, []⟩,
   ⟨0x14, 0x0, 0x0, 0xF800FFFF, 0x0, 0x0, []⟩]⟩

/-- R415: the group QSTAGE. -/
def grp_qstage : Grp := ⟨.qstage, 0x0, 0x0, 1, 0x0, 1, true,
  [⟨0x0, 0x0, 0x1F, 0x0, 0x0, 0x0, []⟩,
   ⟨0x4, 0x0, 0x7FFC, 0x0, 0x0, 0x0, []⟩,
   ⟨0x8, 0x0, 0x0, 0x0, 0x0, 0xFFFFFFFF, []⟩,
   ⟨0xC, 0x0, 0x0, 0x0, 0x0, 0x1, []⟩,
   ⟨0x10, 0x0, 0x0, 0xFF00, 0x1, 0x0, []⟩]⟩

/-- R480: the group QPWR. -/
def grp_qpwr : Grp := ⟨.qpwr, 0x100, 0x0, 1, 0x0, 1, true,
  [⟨0x0, 0x0, 0x0, 0x0, 0x0, 0xFFFF, []⟩]⟩

/-- R91: the group AXIS. -/
def grp_axis : Grp := ⟨.axis, 0x400, 0x200, 2, 0x0, 1, true,
  [⟨0x0, 0x0, 0xFFFF0F07, 0x0, 0x0, 0x0, [(8, 2, 3), (0, 3, 5)]⟩,
   ⟨0x4, 0x0, 0x0, 0x7B123, 0x4ED8, 0x0, []⟩,
   ⟨0x8, 0x30000, 0xFFFF00FD, 0x0, 0x0, 0x0, [(6, 2, 3)]⟩,
   ⟨0xC, 0x60204100, 0xFFFFF3F0, 0x0, 0x0, 0x0, [(6, 2, 3)]⟩,
   ⟨0x10, 0x0, 0xFFFFFFFF, 0x0, 0x0, 0x0, []⟩,
   ⟨0x14, 0x0, 0xFFFFFFFF, 0x0, 0x0, 0x0, []⟩,
   ⟨0x18, 0x0, 0x0, 0xFFFFFFFF, 0x0, 0x0, []⟩,
   ⟨0x1C, 0x0, 0x0, 0xFFFFFFFF, 0x0, 0x0, []⟩,
   ⟨0x20, 0x0, 0xFFFFFFFF, 0x0, 0x0, 0x0, []⟩,
   ⟨0x24, 0x0, 0xFFFF, 0x0, 0x0, 0x0, []⟩,
   ⟨0x28, 0x0, 0xFFFFFFFF, 0x0, 0x0, 0x0, []⟩,
   ⟨0x2C, 0x0, 0xFFFF, 0x0, 0x0, 0x0, []⟩,
   ⟨0x30, 0x0, 0xFFFFFFFF, 0x0, 0x0, 0x0, []⟩,
   ⟨0x34, 0x0, 0xFFFF, 0x0, 0x0, 0x0, []⟩,
   ⟨0x38, 0x0, 0xFFFFFFFF, 0x0, 0x0, 0x0, []⟩,
   ⟨0x3C, 0x0, 0x0, 0xFFFFFFFF, 0x0, 0x0, []⟩,
   ⟨0x40, 0x1600402, 0xFBFFFF0F, 0x0, 0x0, 0x0, [(27, 2, 3), (16, 2, 3)]⟩,
   ⟨0x44, 0x19019014, 0xFFFFFFFF, 0x0, 0x0, 0x0, []⟩,
   ⟨0x48, 0x0, 0xFF00FFFF, 0x0, 0x0, 0x0, []⟩,
   ⟨0x4C, 0x1F40, 0xFFFFFFFF, 0x0, 0x0, 0x0, []⟩,
   ⟨0x50, 0x0, 0xFFFFFFFF, 0x0, 0x0, 0x0, []⟩,
   ⟨0x54, 0x0, 0x0, 0xFFFF0000, 0x1FF, 0x0, []⟩,
   ⟨0x58, 0x0, 0x0, 0xFFFFFFFF, 0x0, 0x0, []⟩,
   ⟨0x5C, 0x0, 0x0, 0xFFFF, 0x0, 0x0, []⟩,
   ⟨0x60, 0x0, 0x0, 0xFFFFFFFF, 0x0, 0x0, []⟩,
   ⟨0x64, 0x0, 0x0, 0xFFFFFFFF, 0x0, 0x0, []⟩,
   ⟨0x68, 0x0, 0x0, 0xFFFFFFFF, 0x0, 0x0, []⟩,
   ⟨0x6C, 0x0, 0x0, 0xFFFFFFFF, 0x0, 0x0, []⟩,
   ⟨0x70, 0x0, 0x0, 0x3FFF00FF, 0x0, 0x0, []⟩,
   ⟨0x74, 0x0, 0xFFFFFFFF, 0x0, 0x0, 0x0, []⟩,
   ⟨0x78, 0x0, 0xFFFFFFFF, 0x0, 0x0, 0x0, []⟩,
   ⟨0x7C, 0x0, 0xFFFFFFFF, 0x0, 0x0, 0x0, []⟩,
   ⟨0x80, 0x18080400, 0xFF7F3F01, 0x0, 0x0, 0x0, []⟩,
   ⟨0x84, 0x2710, 0xFFFF, 0x0, 0x0, 0x0, []⟩,
   ⟨0x88, 0x0, 0x0, 0xFF001B, 0x24, 0x0, []⟩,
   ⟨0x90, 0x0, 0x0, 0xFFFFFFFF, 0x0, 0x0, []⟩,
   ⟨0x94, 0x0, 0x0, 0xFFFFFFFF, 0x0, 0x0, []⟩,
   ⟨0x98, 0x0, 0x0, 0xFFFFFFFF, 0x0, 0x0, []⟩,
   ⟨0x9C, 0x0, 0x0, 0xFFFFFFFF, 0x0, 0x0, []⟩,
   ⟨0xA0, 0x0, 0xFFFFFFFF, 0x0, 0x0, 0x0, []⟩,
   ⟨0x100, 0x10000020, 0xFF7F0FF3, 0x0, 0x0, 0x0, [(6, 2, 3)]⟩,
   ⟨0x104, 0x1, 0xFFFFFF, 0x0, 0x0, 0x0, []⟩,
   ⟨0x108, 0x1, 0xFFFFFF, 0x0, 0x0, 0x0, []⟩,
   ⟨0x10C, 0x0, 0xFFFFFF, 0x0, 0x0, 0x0, []⟩,
   ⟨0x110, 0x0, 0xFFFFFFFF, 0x0, 0x0, 0x0, []⟩,
   ⟨0x114, 0x0, 0xFFFF, 0x0, 0x0, 0x0, []⟩,
   ⟨0x118, 0x0, 0xFFFFFFFF, 0x0, 0x0, 0x0, []⟩,
   ⟨0x11C, 0x16014000, 0xFFFFF000, 0x0, 0x0, 0x0, [(28, 2, 3)]⟩,
   ⟨0x120, 0x0, 0x0, 0xFF0043, 0x3C, 0x0, []⟩,
   ⟨0x124, 0x0, 0xFFFFFFFF, 0x0, 0x0, 0x0, []⟩,
   ⟨0x128, 0x0, 0xFFFFFFFF, 0x0, 0x0, 0x0, []⟩]⟩

/-- R304: the group ME. -/
def grp_me : Grp := ⟨.me, 0x800, 0x200, 2, 0x0, 1, true,
  [⟨0x0, 0x0, 0x80000000, 0x0, 0x0, 0x1, []⟩,
   ⟨0x4, 0x0, 0x0, 0xF8000000, 0x1E, 0x0, []⟩,
   ⟨0x8, 0x0, 0x3FFF, 0x0, 0x0, 0x0, []⟩,
   ⟨0xC, 0x8, 0x3FFF, 0x0, 0x0, 0x0, []⟩,
   ⟨0x10, 0x0, 0x0, 0x3FFF, 0x0, 0x0, []⟩,
   ⟨0x14, 0x0, 0x0, 0xFFFF00FF, 0x0, 0x0, []⟩,
   ⟨0x18, 0x0, 0x0, 0xFFFFFFFF, 0x0, 0x0, []⟩,
   ⟨0x1C, 0x0, 0x0, 0x3FFF, 0x0, 0x0, []⟩,
   ⟨0x20, 0x0, 0x0, 0xFFFFFFFF, 0x0, 0x0, []⟩,
   ⟨0x24, 0x0, 0x0, 0xFFFFFFFF, 0x0, 0x0, []⟩,
   ⟨0x30, 0x0, 0x7FFF, 0x0, 0x0, 0x0, []⟩,
   ⟨0x34, 0x0, 0xFFFFFFFF, 0x0, 0x0, 0x0, []⟩,
   ⟨0x38, 0x0, 0xFFFFFFFF, 0x0, 0x0, 0x0, []⟩,
   ⟨0xC0, 0x70006C00, 0xFFFFFFFF, 0x0, 0x0, 0x0, []⟩]⟩

/-- R305: the group AGU. -/
def grp_agu : Grp := ⟨.agu, 0x840, 0x200, 2, 0x10, 8, true,
  [⟨0x0, 0x4, 0x3FFFC, 0x0, 0x0, 0x0, [(16, 2, 3)]⟩,
   ⟨0x4, 0x0, 0xFFFFFFFC, 0x0, 0x0, 0x0, []⟩,
   ⟨0x8, 0x0, 0xFFFC, 0x0, 0x0, 0x0, []⟩]⟩

/-- R502: the group LANE. -/
def grp_lane : Grp := ⟨.lane, 0xC00, 0x4, 128, 0x0, 1, true,
  [⟨0x0, 0x10, 0x7FF3F, 0x0, 0x0, 0x0, [(4, 2, 3), (0, 2, 3)]⟩]⟩

/-- R503: the group QIO. -/
def grp_qio : Grp := ⟨.qio, 0xE00, 0x0, 1, 0x0, 1, true,
  [⟨0x0, 0x0, 0x0, 0x3FF, 0x0, 0x0, []⟩]⟩

/-- R165: the group COACH. -/
def grp_coach : Grp := ⟨.coach, 0x1000, 0x0, 1, 0x0, 1, true,
  [⟨0x0, 0x0, 0x1, 0x0, 0x0, 0x2, []⟩,
   ⟨0x4, 0x0, 0x0, 0xD, 0x32, 0x0, []⟩,
   ⟨0x8, 0x0, 0x0, 0x1FFF1FFF, 0x0, 0x0, []⟩,
   ⟨0xC, 0x0, 0x0, 0x7FF07FF, 0x0, 0x0, []⟩,
   ⟨0x10, 0x0, 0x3FF, 0x0, 0x0, 0x0, []⟩,
   ⟨0x14, 0x0, 0xFF, 0x0, 0x0, 0x0, []⟩,
   ⟨0x18, 0x0, 0x0, 0x3FFFF, 0x0, 0x0, []⟩,
   ⟨0x1C, 0x10, 0xFF, 0x0, 0x0, 0x0, []⟩,
   ⟨0x20, 0x8080808, 0x1F1F1F1F, 0x0, 0x0, 0x0, []⟩,
   ⟨0x24, 0x8080808, 0x1F1F1F1F, 0x0, 0x0, 0x0, []⟩,
   ⟨0x28, 0x0, 0xFFFFFFFF, 0x0, 0x0, 0x0, []⟩,
   ⟨0x2C, 0x0, 0xFFFFFFFF, 0x0, 0x0, 0x0, []⟩,
   ⟨0x30, 0x0, 0xFFFFFFFF, 0x0, 0x0, 0x0, []⟩,
   ⟨0x34, 0x0, 0xFFFFFFFF, 0x0, 0x0, 0x0, []⟩,
   ⟨0x38, 0x0, 0xFFFFFFFF, 0x0, 0x0, 0x0, []⟩]⟩

/-- R167: the group CAR. -/
def grp_car : Grp := ⟨.car, 0x1200, 0x100, 2, 0x0, 1, true,
  [⟨0x0, 0x0, 0xFFFFFD01, 0x0, 0x0, 0x0, []⟩,
   ⟨0x4, 0x0, 0xFFFFFFFF, 0x0, 0x0, 0x0, []⟩,
   ⟨0x8, 0x0, 0xFFFFFFFF, 0x0, 0x0, 0x0, []⟩,
   ⟨0xC, 0x0, 0xFFFFFF, 0x0, 0x0, 0x0, []⟩,
   ⟨0x10, 0x0, 0xFFFFFFFF, 0x0, 0x0, 0x0, []⟩,
   ⟨0x14, 0x0, 0xFFFFFFFF, 0x0, 0x0, 0x0, []⟩,
   ⟨0x18, 0x0, 0xFFFFFFFF, 0x0, 0x0, 0x0, []⟩,
   ⟨0x1C, 0x0, 0xFFFFFFFF, 0x0, 0x0, 0x0, []⟩,
   ⟨0x20, 0x0, 0x0, 0x1FFF801, 0xE, 0x0, []⟩,
   ⟨0x24, 0x0, 0xFFFFFFFF, 0x0, 0x0, 0x0, []⟩,
   ⟨0x28, 0x0, 0xFFFFFFFF, 0x0, 0x0, 0x0, []⟩,
   ⟨0x2C, 0x0, 0xFFFFFFFF, 0x0, 0x0, 0x0, []⟩,
   ⟨0x30, 0x0, 0xFFFFFFFF, 0x0, 0x0, 0x0, []⟩,
   ⟨0x34, 0x0, 0x0, 0x0, 0x0, 0xFFFFFF, []⟩,
   ⟨0x38, 0x0, 0x0, 0x0, 0x0, 0xFF, []⟩,
   ⟨0x3C, 0x0, 0xFF, 0x0, 0x0, 0x0, []⟩,
   ⟨0x40, 0x0, 0x0, 0xFFFFFFFF, 0x0, 0x0, []⟩,
   ⟨0x44, 0x0, 0x0, 0xFFFFFFFF, 0x0, 0x0, []⟩,
   ⟨0x48, 0x0, 0x0, 0xC0FF1FFF, 0x0, 0x0, []⟩]⟩

/-- R168: the group TPL. -/
def grp_tpl : Grp := ⟨.tpl, 0x1800, 0x20, 64, 0x0, 1, true,
  [⟨0x0, 0x0, 0xFFFFF, 0x0, 0x0, 0x0, []⟩,
   ⟨0x4, 0x0, 0xFFFFF, 0x0, 0x0, 0x0, []⟩,
   ⟨0x8, 0x0, 0x1FFF1FFF, 0x0, 0x0, 0x0, []⟩,
   ⟨0xC, 0x0, 0x0, 0xFFF7FF9, 0x6, 0x0, []⟩,
   ⟨0x10, 0x0, 0x0, 0x0, 0x0, 0x1, []⟩]⟩

/-- R200: the group TC. -/
def grp_tc : Grp := ⟨.tc, 0x2000, 0x20, 256, 0x0, 1, true,
  [⟨0x0, 0x0, 0xFFFFF8F0, 0x0, 0x0, 0x0, [(28, 3, 5)]⟩,
   ⟨0x4, 0x1000, 0xFFFFFFFF, 0x0, 0x0, 0x0, [(29, 3, 6), (24, 2, 3), (21, 3, 5)]⟩,
   ⟨0x8, 0x0, 0xFFFFFFFF, 0x0, 0x0, 0x0, []⟩,
   ⟨0xC, 0x0, 0xFFFFFFFF, 0x0, 0x0, 0x0, []⟩,
   ⟨0x10, 0x0, 0xFFFFFFFF, 0x0, 0x0, 0x0, []⟩,
   ⟨0x14, 0x0, 0x0, 0xFFFFFFFF, 0x0, 0x0, []⟩,
   ⟨0x18, 0x0, 0x0, 0xFF0F0850, 0x7AF, 0x0, []⟩,
   ⟨0x1C, 0x0, 0x0, 0x0, 0x0, 0x1F, []⟩]⟩

/-- R199: the group TCV. -/
def grp_tcv : Grp := ⟨.tcv, 0x4000, 0x10, 256, 0x0, 1, true,
  [⟨0x0, 0x0, 0x0, 0xFFFFFFFF, 0x0, 0x0, []⟩,
   ⟨0x4, 0x0, 0x0, 0x3F0700F8, 0x0, 0x0, []⟩,
   ⟨0x8, 0x0, 0x0, 0xFFFFFFFF, 0x0, 0x0, []⟩,
   ⟨0xC, 0x0, 0x0, 0xFFFFFFFF, 0x0, 0x0, []⟩]⟩

/-- R204: the group SINKSEL. -/
def grp_sinksel : Grp := ⟨.sinksel, 0x5000, 0x8, 452, 0x0, 1, true,
  [⟨0x0, 0x0, 0x8FFF8FFF, 0x0, 0x0, 0x0, []⟩,
   ⟨0x4, 0x0, 0x8FFF8FFF, 0x0, 0x0, 0x0, []⟩]⟩

/-- R204: the group XLINE. -/
def grp_xline : Grp := ⟨.xline, 0x6000, 0x4, 64, 0x0, 1, true,
  [⟨0x0, 0x0, 0x8FFF, 0x0, 0x0, 0x0, []⟩]⟩

/-- R204: the group XBAR. -/
def grp_xbar : Grp := ⟨.xbar, 0x6100, 0x0, 1, 0x0, 1, true,
  [⟨0x0, 0x0, 0xFFFFFFFF, 0x0, 0x0, 0x0, []⟩]⟩

/-- R204: the group CONVW. -/
def grp_convw : Grp := ⟨.convw, 0x6104, 0x4, 4, 0x0, 1, true,
  [⟨0x0, 0x7, 0xFF, 0x0, 0x0, 0x0, []⟩]⟩

/-- R225: the group FEQ. -/
def grp_feq : Grp := ⟨.feq, 0x6400, 0x0, 1, 0x0, 1, true,
  [⟨0x0, 0x0, 0x0, 0x0, 0x0, 0x1, []⟩]⟩

/-- R225: the group FEQIDLE. -/
def grp_feqidle : Grp := ⟨.feqidle, 0x6410, 0x4, 4, 0x0, 1, true,
  [⟨0x0, 0x0, 0x0, 0xFFFFFFFF, 0x0, 0x0, []⟩]⟩

/-- R226: the group FE. -/
def grp_fe : Grp := ⟨.fe, 0x6800, 0x40, 64, 0x0, 1, true,
  [⟨0x0, 0x0, 0xFEFC0000, 0x0, 0x0, 0x0, [(29, 2, 3)]⟩,
   ⟨0x4, 0x8, 0xFFFFFFFF, 0x0, 0x0, 0x0, []⟩,
   ⟨0x8, 0x0, 0xFFFFFFFF, 0x0, 0x0, 0x0, []⟩,
   ⟨0xC, 0x0, 0x3F3F, 0x0, 0x0, 0x80000000, []⟩,
   ⟨0x10, 0x0, 0xFFFF, 0x0, 0x0, 0x0, []⟩,
   ⟨0x14, 0x40, 0xFFFFFFFF, 0x0, 0x0, 0x0, []⟩,
   ⟨0x18, 0x100, 0xFFFFFFFF, 0x0, 0x0, 0x0, []⟩,
   ⟨0x1C, 0x0, 0x0, 0x0, 0x0, 0xF, []⟩,
   ⟨0x20, 0x2, 0x0, 0x7B07, 0x84F8, 0x0, []⟩,
   ⟨0x24, 0x0, 0xFFFFFFFF, 0x0, 0x0, 0x0, []⟩,
   ⟨0x28, 0x0, 0xFFFFFFFF, 0x0, 0x0, 0x0, []⟩,
   ⟨0x2C, 0x0, 0xFFFFFFFF, 0x0, 0x0, 0x0, []⟩,
   ⟨0x30, 0x0, 0x0, 0x1FFFF, 0x0, 0x0, []⟩]⟩

/-- R261: the group IBX. -/
def grp_ibx : Grp := ⟨.ibx, 0x7800, 0x80, 16, 0x0, 1, true,
  [⟨0x0, 0x0, 0xFFFC0000, 0x0, 0x0, 0x0, []⟩,
   ⟨0x4, 0x0, 0x7F1F7F, 0x0, 0x0, 0x0, []⟩,
   ⟨0x8, 0x0, 0x0, 0x0, 0x0, 0x7B, []⟩,
   ⟨0xC, 0x0, 0x0, 0xFFFFFF08, 0xF7, 0x0, []⟩,
   ⟨0x10, 0x0, 0x3F, 0x0, 0x0, 0x0, []⟩,
   ⟨0x14, 0x0, 0x3F, 0x0, 0x0, 0x0, []⟩,
   ⟨0x18, 0x0, 0xFFFFFF, 0x0, 0x0, 0x0, []⟩,
   ⟨0x1C, 0x0, 0xFFFFFFFF, 0x0, 0x0, 0x0, []⟩,
   ⟨0x20, 0x0, 0xFFFFFFFF, 0x0, 0x0, 0x0, []⟩,
   ⟨0x24, 0x0, 0x0, 0x0, 0x0, 0xFFFFFFFF, []⟩,
   ⟨0x28, 0x0, 0x0, 0xFFFFFFFF, 0x0, 0x0, []⟩,
   ⟨0x30, 0x0, 0xFFFFFFFF, 0x0, 0x0, 0x0, []⟩,
   ⟨0x34, 0x0, 0xFFFFFFFF, 0x0, 0x0, 0x0, []⟩,
   ⟨0x38, 0x0, 0xFFFFFFFF, 0x0, 0x0, 0x0, []⟩,
   ⟨0x3C, 0x0, 0xFFFFFFFF, 0x0, 0x0, 0x0, []⟩,
   ⟨0x40, 0x0, 0xFFFFFFFF, 0x0, 0x0, 0x0, []⟩,
   ⟨0x44, 0x0, 0x3F3F, 0xFFFF0000, 0x0, 0x0, []⟩,
   ⟨0x48, 0x0, 0x3F, 0x0, 0x0, 0x80000000, []⟩,
   ⟨0x4C, 0x0, 0x3FFFFF0, 0x0, 0x0, 0x0, []⟩,
   ⟨0x50, 0x0, 0xFFFFFF, 0x0, 0x0, 0x0, []⟩,
   ⟨0x54, 0x0, 0x7, 0xFFFFFF00, 0x8, 0x0, []⟩,
   ⟨0x58, 0x0, 0x3FFFFF0, 0x0, 0x0, 0x0, []⟩,
   ⟨0x5C, 0x0, 0xFFFFFF, 0x0, 0x0, 0x0, []⟩,
   ⟨0x60, 0x0, 0x7, 0xFFFFFF00, 0x8, 0x0, []⟩,
   ⟨0x64, 0x0, 0xFFFFFFFF, 0x0, 0x0, 0x0, []⟩,
   ⟨0x68, 0x0, 0xFFFFFFFF, 0x0, 0x0, 0x0, []⟩]⟩

/-- The groups outside the quadrant blocks (R513). -/
def spineGroups : List Grp :=
  [grp_glb, grp_cmt, grp_cmtg, grp_snap, grp_snaplist, grp_hif, grp_bulk, grp_sr] ++
  [grp_rr, grp_route, grp_recq, grp_recu, grp_medrop, grp_ackstray, grp_sdsel, grp_hold] ++
  [grp_tb, grp_hk, grp_fuse, grp_fusest, grp_mem, grp_cecnt, grp_mv, grp_svcpres] ++
  [grp_svc, grp_pwr]

/-- The groups of a quadrant block (R514). -/
def quadGroups : List Grp :=
  [grp_qstage, grp_qpwr, grp_axis, grp_me, grp_agu, grp_lane, grp_qio, grp_coach] ++
  [grp_car, grp_tpl, grp_tc, grp_tcv, grp_sinksel, grp_xline, grp_xbar, grp_convw] ++
  [grp_feq, grp_feqidle, grp_fe, grp_ibx]

/-- What an offset reaches: the group, the index in it (device-wide for a group of the quadrant blocks, R8), the inner
index, the quadrant (0 in the spine) and the register. -/
structure Loc where
  gid : Gid
  i : Nat
  j : Nat
  q : Nat
  info : RegInfo
  deriving DecidableEq, Repr

/-- The index of `o` in a run of `c` items of stride `s` (one item where the stride is 0), and the rest. -/
def strideSplit (o s c : Nat) : Option (Nat × Nat) :=
  if s = 0 then some (0, o) else if o / s < c then some (o / s, o % s) else none

/-- The register of group `g` at offset `o`, if any; `q` is the quadrant (R514). -/
def Grp.locate (g : Grp) (q o : Nat) : Option Loc :=
  if o < g.base then none else
  match strideSplit (o - g.base) g.s1 g.c1 with
  | none => none
  | some (i, r) =>
    match strideSplit r g.s2 g.c2 with
    | none => none
    | some (j, r') =>
      match g.regs.find? (fun x => x.off = r') with
      | none => none
      | some x => some ⟨g.gid, q * g.c1 + i, j, q, x⟩

/-- R512 to R514: the register that a BAR0 offset reaches; none for a hole (R507). -/
def locate (o : Nat) : Option Loc :=
  if 0x10000 ≤ o ∧ o < 0x30000 then
    quadGroups.findSome? (fun g => g.locate ((o - 0x10000) / 0x8000) (o % 0x8000))
  else spineGroups.findSome? (fun g => g.locate 0 o)

/-- R3: the word a register holds after a cold reset (fields that follow fuses are read elsewhere); EMU[a].CFG.SRC resets to a (R125). -/
def resetWord (o : Nat) : Word :=
  match locate o with
  | some l => BitVec.ofNat 32 (l.info.reset + (if l.gid = .axis ∧ l.info.off = 0x100 then l.i * 512 else 0))
  | none => 0

end Sys2Proof.Machine
end

