-- ==== Sys2Proof/Machine/Regs.lean ====
section
/-! DEFINITION. The BAR0 registers by their names in the specification: for each register its BAR0 byte offset
(index arguments count device-wide, R8, R512 to R514), for each field its place in the register. -/

namespace Sys2Proof.Machine

/-- One field of one BAR0 register: the register's offset, the field's lowest bit and its width. -/
structure Fld where
  off : Nat
  lo : Nat
  w : Nat
  deriving DecidableEq, Repr

/-- R515. -/
def GLB_ID : Nat := 0x0
def GLB_ID_PART : Fld := ⟨GLB_ID, 16, 16⟩
def GLB_ID_REVID : Fld := ⟨GLB_ID, 8, 8⟩
def GLB_ID_MAPVER : Fld := ⟨GLB_ID, 0, 8⟩
/-- R515. -/
def GLB_CAPS : Nat := 0x4
def GLB_CAPS_EXT : Fld := ⟨GLB_CAPS, 8, 1⟩
def GLB_CAPS_COMPAT : Fld := ⟨GLB_CAPS, 7, 1⟩
def GLB_CAPS_FLRSTOP : Fld := ⟨GLB_CAPS, 6, 1⟩
def GLB_CAPS_OPTP : Fld := ⟨GLB_CAPS, 5, 1⟩
def GLB_CAPS_GRADE : Fld := ⟨GLB_CAPS, 3, 2⟩
/-- R515. -/
def GLB_SCRATCH : Nat := 0x8
def GLB_SCRATCH_SCRATCH : Fld := ⟨GLB_SCRATCH, 0, 32⟩
/-- R515. -/
def GLB_RSVW : Nat := 0xC
def GLB_RSVW_FLAG : Fld := ⟨GLB_RSVW, 31, 1⟩
def GLB_RSVW_ORIGIN : Fld := ⟨GLB_RSVW, 20, 4⟩
def GLB_RSVW_OFFSET : Fld := ⟨GLB_RSVW, 0, 18⟩
/-- R515. -/
def GLB_RSVWCNT : Nat := 0x10
def GLB_RSVWCNT_CNT : Fld := ⟨GLB_RSVWCNT, 0, 32⟩
/-- R515. -/
def GLB_ACCERR : Nat := 0x14
def GLB_ACCERR_CNT : Fld := ⟨GLB_ACCERR, 0, 32⟩

/-- R413. -/
def CMT_STATUS : Nat := 0x1000
def CMT_STATUS_CFG_ERR : Fld := ⟨CMT_STATUS, 0, 1⟩
/-- R413. -/
def CMT_STOREFREE : Nat := 0x1004
def CMT_STOREFREE_FREE : Fld := ⟨CMT_STOREFREE, 0, 11⟩
/-- R413. -/
def CMT_SNAPDROP : Nat := 0x1008
def CMT_SNAPDROP_CNT : Fld := ⟨CMT_SNAPDROP, 0, 32⟩
/-- R413. -/
def CMT_EMPTYFIRE : Nat := 0x100C
def CMT_EMPTYFIRE_CNT : Fld := ⟨CMT_EMPTYFIRE, 0, 32⟩
/-- R413. -/
def CMT_GCOLL : Nat := 0x1010
def CMT_GCOLL_CNT : Fld := ⟨CMT_GCOLL, 0, 32⟩

/-- R414. -/
def CMTG_STATE (i : Nat) : Nat := 0x1100 + i * 0x10
def CMTG_STATE_STATE (i : Nat) : Fld := ⟨CMTG_STATE i, 30, 2⟩
def CMTG_STATE_ARM (i : Nat) : Fld := ⟨CMTG_STATE i, 28, 2⟩
def CMTG_STATE_OWNER (i : Nat) : Fld := ⟨CMTG_STATE i, 24, 3⟩
def CMTG_STATE_COUNT (i : Nat) : Fld := ⟨CMTG_STATE i, 0, 9⟩
/-- R413. -/
def CMTG_KEY_LO (i : Nat) : Nat := 0x1104 + i * 0x10
def CMTG_KEY_LO_KEY (i : Nat) : Fld := ⟨CMTG_KEY_LO i, 0, 32⟩
/-- R413. -/
def CMTG_KEY_HI (i : Nat) : Nat := 0x1108 + i * 0x10
def CMTG_KEY_HI_KEY (i : Nat) : Fld := ⟨CMTG_KEY_HI i, 0, 32⟩

/-- R414. -/
def SNAP_CFG (i : Nat) : Nat := 0x1800 + i * 0x100
def SNAP_CFG_EN (i : Nat) : Fld := ⟨SNAP_CFG i, 31, 1⟩
def SNAP_CFG_REC (i : Nat) : Fld := ⟨SNAP_CFG i, 30, 1⟩
def SNAP_CFG_ONCMT (i : Nat) : Fld := ⟨SNAP_CFG i, 29, 1⟩
def SNAP_CFG_NENT (i : Nat) : Fld := ⟨SNAP_CFG i, 16, 7⟩
def SNAP_CFG_SLOTS (i : Nat) : Fld := ⟨SNAP_CFG i, 8, 8⟩
def SNAP_CFG_NEXT (i : Nat) : Fld := ⟨SNAP_CFG i, 0, 8⟩
/-- R413. -/
def SNAP_DST (i : Nat) : Nat := 0x1804 + i * 0x100
def SNAP_DST_BASE (i : Nat) : Fld := ⟨SNAP_DST i, 10, 16⟩

/-- R413. -/
def SNAPLIST_LIST (i j : Nat) : Nat := 0x1840 + i * 0x100 + j * 0x4
def SNAPLIST_LIST_WIDE (i j : Nat) : Fld := ⟨SNAPLIST_LIST i j, 31, 1⟩
def SNAPLIST_LIST_OFF (i j : Nat) : Fld := ⟨SNAPLIST_LIST i j, 2, 16⟩

/-- R369. -/
def HIF_STATUS : Nat := 0x4000
def HIF_STATUS_MGR : Fld := ⟨HIF_STATUS, 8, 1⟩
def HIF_STATUS_OWNQ : Fld := ⟨HIF_STATUS, 4, 4⟩
def HIF_STATUS_D3 : Fld := ⟨HIF_STATUS, 3, 1⟩
def HIF_STATUS_DETACHED : Fld := ⟨HIF_STATUS, 2, 1⟩
def HIF_STATUS_BME : Fld := ⟨HIF_STATUS, 1, 1⟩
def HIF_STATUS_LINK_UP : Fld := ⟨HIF_STATUS, 0, 1⟩
/-- R368. -/
def HIF_LINK : Nat := 0x4004
def HIF_LINK_WIDTH : Fld := ⟨HIF_LINK, 4, 4⟩
def HIF_LINK_RATE : Fld := ⟨HIF_LINK, 0, 4⟩
/-- R368. -/
def HIF_GEN : Nat := 0x4008
def HIF_GEN_GEN : Fld := ⟨HIF_GEN, 0, 32⟩
/-- R368. -/
def HIF_CRED : Nat := 0x400C
def HIF_CRED_SPINE : Fld := ⟨HIF_CRED, 24, 5⟩
def HIF_CRED_Q3 : Fld := ⟨HIF_CRED, 18, 6⟩
def HIF_CRED_Q2 : Fld := ⟨HIF_CRED, 12, 6⟩
def HIF_CRED_Q1 : Fld := ⟨HIF_CRED, 6, 6⟩
def HIF_CRED_Q0 : Fld := ⟨HIF_CRED, 0, 6⟩
/-- R368. -/
def HIF_DBDROP : Nat := 0x4010
def HIF_DBDROP_CNT : Fld := ⟨HIF_DBDROP, 0, 32⟩
/-- R368. -/
def HIF_DETACH_DROP : Nat := 0x4014
def HIF_DETACH_DROP_CNT : Fld := ⟨HIF_DETACH_DROP, 0, 32⟩
/-- R368. -/
def HIF_OWNVIOL : Nat := 0x4018
def HIF_OWNVIOL_CNT : Fld := ⟨HIF_OWNVIOL, 0, 32⟩

/-- R368. -/
def BULK_PTR (i : Nat) : Nat := 0x4040 + i * 0x10
def BULK_PTR_PTR (i : Nat) : Fld := ⟨BULK_PTR i, 2, 24⟩
/-- R368. -/
def BULK_CTL (i : Nat) : Nat := 0x4044 + i * 0x10
def BULK_CTL_INC (i : Nat) : Fld := ⟨BULK_CTL i, 1, 1⟩
def BULK_CTL_EN (i : Nat) : Fld := ⟨BULK_CTL i, 0, 1⟩
/-- R369. -/
def BULK_STATUS (i : Nat) : Nat := 0x4048 + i * 0x10
def BULK_STATUS_POISON (i : Nat) : Fld := ⟨BULK_STATUS i, 2, 1⟩
def BULK_STATUS_REGION (i : Nat) : Fld := ⟨BULK_STATUS i, 1, 1⟩
def BULK_STATUS_RANGE (i : Nat) : Fld := ⟨BULK_STATUS i, 0, 1⟩

/-- R368. -/
def SR_BASE_LO (i : Nat) : Nat := 0x4100 + i * 0x20
def SR_BASE_LO_ADDR (i : Nat) : Fld := ⟨SR_BASE_LO i, 12, 20⟩
/-- R368. -/
def SR_BASE_HI (i : Nat) : Nat := 0x4104 + i * 0x20
def SR_BASE_HI_ADDR (i : Nat) : Fld := ⟨SR_BASE_HI i, 0, 32⟩
/-- R370. -/
def SR_CFG (i : Nat) : Nat := 0x4108 + i * 0x20
def SR_CFG_EN (i : Nat) : Fld := ⟨SR_CFG i, 31, 1⟩
def SR_CFG_CQ (i : Nat) : Fld := ⟨SR_CFG i, 24, 5⟩
def SR_CFG_LOG2SZ (i : Nat) : Fld := ⟨SR_CFG i, 16, 5⟩
def SR_CFG_FETCH (i : Nat) : Fld := ⟨SR_CFG i, 4, 4⟩
/-- R368. -/
def SR_HEAD (i : Nat) : Nat := 0x410C + i * 0x20
def SR_HEAD_HEAD (i : Nat) : Fld := ⟨SR_HEAD i, 0, 16⟩
/-- R368. -/
def SR_TAIL (i : Nat) : Nat := 0x4110 + i * 0x20
def SR_TAIL_TAIL (i : Nat) : Fld := ⟨SR_TAIL i, 0, 16⟩
/-- R370. -/
def SR_STATUS (i : Nat) : Nat := 0x4114 + i * 0x20
def SR_STATUS_BUFFERED (i : Nat) : Fld := ⟨SR_STATUS i, 16, 4⟩
def SR_STATUS_INFLIGHT (i : Nat) : Fld := ⟨SR_STATUS i, 6, 10⟩
def SR_STATUS_IDLE (i : Nat) : Fld := ⟨SR_STATUS i, 5, 1⟩
def SR_STATUS_FENCED (i : Nat) : Fld := ⟨SR_STATUS i, 4, 1⟩
def SR_STATUS_BLOCKED (i : Nat) : Fld := ⟨SR_STATUS i, 3, 1⟩
def SR_STATUS_HOST_ERR (i : Nat) : Fld := ⟨SR_STATUS i, 2, 1⟩
def SR_STATUS_DBERR (i : Nat) : Fld := ⟨SR_STATUS i, 1, 1⟩
def SR_STATUS_CFG_ERR (i : Nat) : Fld := ⟨SR_STATUS i, 0, 1⟩

/-- R368. -/
def RR_BASE_LO (i : Nat) : Nat := 0x4500 + i * 0x20
def RR_BASE_LO_ADDR (i : Nat) : Fld := ⟨RR_BASE_LO i, 12, 20⟩
/-- R368. -/
def RR_BASE_HI (i : Nat) : Nat := 0x4504 + i * 0x20
def RR_BASE_HI_ADDR (i : Nat) : Fld := ⟨RR_BASE_HI i, 0, 32⟩
/-- R371. -/
def RR_CFG (i : Nat) : Nat := 0x4508 + i * 0x20
def RR_CFG_EN (i : Nat) : Fld := ⟨RR_CFG i, 31, 1⟩
def RR_CFG_TYPE (i : Nat) : Fld := ⟨RR_CFG i, 30, 1⟩
def RR_CFG_LOG2SZ (i : Nat) : Fld := ⟨RR_CFG i, 16, 5⟩
/-- R368. -/
def RR_HEAD (i : Nat) : Nat := 0x450C + i * 0x20
def RR_HEAD_HEAD (i : Nat) : Fld := ⟨RR_HEAD i, 0, 16⟩
/-- R368. -/
def RR_TAIL (i : Nat) : Nat := 0x4510 + i * 0x20
def RR_TAIL_TAIL (i : Nat) : Fld := ⟨RR_TAIL i, 0, 16⟩
/-- R371. -/
def RR_STATUS (i : Nat) : Nat := 0x4514 + i * 0x20
def RR_STATUS_RESV (i : Nat) : Fld := ⟨RR_STATUS i, 16, 16⟩
def RR_STATUS_P (i : Nat) : Fld := ⟨RR_STATUS i, 3, 1⟩
def RR_STATUS_FULL (i : Nat) : Fld := ⟨RR_STATUS i, 2, 1⟩
def RR_STATUS_DBERR (i : Nat) : Fld := ⟨RR_STATUS i, 1, 1⟩
def RR_STATUS_CFG_ERR (i : Nat) : Fld := ⟨RR_STATUS i, 0, 1⟩
/-- R391. -/
def RR_IRQ (i : Nat) : Nat := 0x4518 + i * 0x20
def RR_IRQ_EN (i : Nat) : Fld := ⟨RR_IRQ i, 31, 1⟩
def RR_IRQ_DUE (i : Nat) : Fld := ⟨RR_IRQ i, 30, 1⟩
def RR_IRQ_ARMED (i : Nat) : Fld := ⟨RR_IRQ i, 29, 1⟩
def RR_IRQ_TIMING (i : Nat) : Fld := ⟨RR_IRQ i, 28, 1⟩
def RR_IRQ_MOD (i : Nat) : Fld := ⟨RR_IRQ i, 16, 10⟩
def RR_IRQ_VEC (i : Nat) : Fld := ⟨RR_IRQ i, 0, 6⟩
/-- R391. -/
def RR_LOST (i : Nat) : Nat := 0x451C + i * 0x20
def RR_LOST_PEND (i : Nat) : Fld := ⟨RR_LOST i, 31, 1⟩
def RR_LOST_DROPPED (i : Nat) : Fld := ⟨RR_LOST i, 0, 31⟩

/-- R390. -/
def ROUTE_ROUTE (i j : Nat) : Nat := 0x4C00 + i * 0x80 + j * 0x4
def ROUTE_ROUTE_HOST (i j : Nat) : Fld := ⟨ROUTE_ROUTE i j, 31, 1⟩
def ROUTE_ROUTE_ALL (i j : Nat) : Fld := ⟨ROUTE_ROUTE i j, 30, 1⟩
def ROUTE_ROUTE_RING (i j : Nat) : Fld := ⟨ROUTE_ROUTE i j, 24, 5⟩
def ROUTE_ROUTE_MEMASK (i j : Nat) : Fld := ⟨ROUTE_ROUTE i j, 0, 8⟩

/-- R389. -/
def RECQ_DROP (i : Nat) : Nat := 0x4F00 + i * 0x4
def RECQ_DROP_CNT (i : Nat) : Fld := ⟨RECQ_DROP i, 0, 32⟩

/-- R389. -/
def RECU_SPDROP : Nat := 0x4F10
def RECU_SPDROP_CNT : Fld := ⟨RECU_SPDROP, 0, 32⟩
/-- R389. -/
def RECU_NOENG : Nat := 0x4F14
def RECU_NOENG_CNT : Fld := ⟨RECU_NOENG, 0, 32⟩
/-- R389. -/
def RECU_OFFDROP : Nat := 0x4F18
def RECU_OFFDROP_CNT : Fld := ⟨RECU_OFFDROP, 0, 32⟩

/-- R389. -/
def MEDROP_MEDROP (i : Nat) : Nat := 0x4F20 + i * 0x4
def MEDROP_MEDROP_CNT (i : Nat) : Fld := ⟨MEDROP_MEDROP i, 0, 32⟩

/-- R389. -/
def ACKSTRAY_ACK_STRAY (i : Nat) : Nat := 0x4F40 + i * 0x4
def ACKSTRAY_ACK_STRAY_CNT (i : Nat) : Fld := ⟨ACKSTRAY_ACK_STRAY i, 0, 32⟩

/-- R389. -/
def SDSEL_SDSEL (i : Nat) : Nat := 0x4F50 + i * 0x8
def SDSEL_SDSEL_SRC (i : Nat) : Fld := ⟨SDSEL_SDSEL i, 0, 9⟩
/-- R389. -/
def SDSEL_SDCNT (i : Nat) : Nat := 0x4F54 + i * 0x8
def SDSEL_SDCNT_CNT (i : Nat) : Fld := ⟨SDSEL_SDCNT i, 0, 8⟩

/-- R389. -/
def HOLD_HOLD (i : Nat) : Nat := 0x4F80 + i * 0x4
def HOLD_HOLD_CNT (i : Nat) : Fld := ⟨HOLD_HOLD i, 0, 9⟩

/-- R516. -/
def TB_CTL : Nat := 0x8000
def TB_CTL_SWITCH : Fld := ⟨TB_CTL, 2, 1⟩
def TB_CTL_RETRY : Fld := ⟨TB_CTL, 1, 1⟩
def TB_CTL_RECAL : Fld := ⟨TB_CTL, 0, 1⟩
/-- R56. -/
def TB_STATUS : Nat := 0x8004
def TB_STATUS_CAL_DONE : Fld := ⟨TB_STATUS, 12, 4⟩
def TB_STATUS_STEP : Fld := ⟨TB_STATUS, 11, 1⟩
def TB_STATUS_SYNC_LOST : Fld := ⟨TB_STATUS, 10, 1⟩
def TB_STATUS_SYNC_LOCK : Fld := ⟨TB_STATUS, 9, 1⟩
def TB_STATUS_PLL_SINGLE : Fld := ⟨TB_STATUS, 8, 1⟩
def TB_STATUS_PLL_SWITCHED : Fld := ⟨TB_STATUS, 7, 1⟩
def TB_STATUS_PLL_ACTIVE : Fld := ⟨TB_STATUS, 6, 1⟩
def TB_STATUS_HOLDOVER : Fld := ⟨TB_STATUS, 5, 1⟩
def TB_STATUS_REF_SWITCHED : Fld := ⟨TB_STATUS, 4, 1⟩
def TB_STATUS_REF_ACTIVE : Fld := ⟨TB_STATUS, 3, 1⟩
def TB_STATUS_REFB_OK : Fld := ⟨TB_STATUS, 2, 1⟩
def TB_STATUS_REFA_OK : Fld := ⟨TB_STATUS, 1, 1⟩
def TB_STATUS_TCLK_LOCK : Fld := ⟨TB_STATUS, 0, 1⟩
/-- R55. -/
def TB_STIME_LO : Nat := 0x8008
def TB_STIME_LO_STIME : Fld := ⟨TB_STIME_LO, 0, 32⟩
/-- R55. -/
def TB_STIME_HI : Nat := 0x800C
def TB_STIME_HI_STIME : Fld := ⟨TB_STIME_HI, 0, 32⟩
/-- R57. -/
def TB_REFCFG : Nat := 0x8010
def TB_REFCFG_REVERT : Fld := ⟨TB_REFCFG, 3, 1⟩
def TB_REFCFG_PRIMARY : Fld := ⟨TB_REFCFG, 2, 1⟩
def TB_REFCFG_FREQ : Fld := ⟨TB_REFCFG, 0, 2⟩
/-- R58. -/
def TB_SYNCCFG : Nat := 0x8018
def TB_SYNCCFG_OUT_EN : Fld := ⟨TB_SYNCCFG, 2, 1⟩
def TB_SYNCCFG_ROLE : Fld := ⟨TB_SYNCCFG, 0, 2⟩
/-- R55. -/
def TB_SYNC_DELAY : Nat := 0x801C
def TB_SYNC_DELAY_DELAY : Fld := ⟨TB_SYNC_DELAY, 0, 16⟩
/-- R55. -/
def TB_SYNC_ERR : Nat := 0x8020
def TB_SYNC_ERR_COUNT : Fld := ⟨TB_SYNC_ERR, 16, 16⟩
def TB_SYNC_ERR_ERR : Fld := ⟨TB_SYNC_ERR, 0, 16⟩
/-- R59. -/
def TB_CALCFG : Nat := 0x8024
def TB_CALCFG_SWAP_WAIT : Fld := ⟨TB_CALCFG, 16, 8⟩
def TB_CALCFG_TSTEP : Fld := ⟨TB_CALCFG, 12, 4⟩
def TB_CALCFG_INTERVAL : Fld := ⟨TB_CALCFG, 0, 12⟩
/-- R55. -/
def TB_ACLK_RATIO : Nat := 0x8028
def TB_ACLK_RATIO_RATIO : Fld := ⟨TB_ACLK_RATIO, 0, 32⟩
/-- R55. -/
def TB_STEPCNT : Nat := 0x802C
def TB_STEPCNT_CNT : Fld := ⟨TB_STEPCNT, 0, 32⟩

/-- R60. -/
def HK_CTL (i : Nat) : Nat := 0x8100 + i * 0x20
def HK_CTL_PRE (i : Nat) : Fld := ⟨HK_CTL i, 16, 16⟩
def HK_CTL_MODE (i : Nat) : Fld := ⟨HK_CTL i, 2, 2⟩
def HK_CTL_LATE (i : Nat) : Fld := ⟨HK_CTL i, 1, 1⟩
def HK_CTL_EN (i : Nat) : Fld := ⟨HK_CTL i, 0, 1⟩
/-- R55. -/
def HK_CNT_LO (i : Nat) : Nat := 0x8108 + i * 0x20
def HK_CNT_LO_CNT (i : Nat) : Fld := ⟨HK_CNT_LO i, 0, 32⟩
/-- R55. -/
def HK_CNT_HI (i : Nat) : Nat := 0x810C + i * 0x20
def HK_CNT_HI_CNT (i : Nat) : Fld := ⟨HK_CNT_HI i, 0, 32⟩
/-- R55. -/
def HK_CMP_LO (i : Nat) : Nat := 0x8110 + i * 0x20
def HK_CMP_LO_CMP (i : Nat) : Fld := ⟨HK_CMP_LO i, 0, 32⟩
/-- R55. -/
def HK_CMP_HI (i : Nat) : Nat := 0x8114 + i * 0x20
def HK_CMP_HI_CMP (i : Nat) : Fld := ⟨HK_CMP_HI i, 0, 32⟩
/-- R55. -/
def HK_PER_LO (i : Nat) : Nat := 0x8118 + i * 0x20
def HK_PER_LO_PER (i : Nat) : Fld := ⟨HK_PER_LO i, 0, 32⟩
/-- R55. -/
def HK_PER_HI (i : Nat) : Nat := 0x811C + i * 0x20
def HK_PER_HI_PER (i : Nat) : Fld := ⟨HK_PER_HI i, 0, 32⟩

/-- R458. -/
def FUSE_W (i : Nat) : Nat := 0xC000 + i * 0x4
def FUSE_W_W (i : Nat) : Fld := ⟨FUSE_W i, 0, 32⟩

/-- R459. -/
def FUSEST_STATUS : Nat := 0xC100
def FUSEST_STATUS_VFUSE_OK : Fld := ⟨FUSEST_STATUS, 3, 1⟩
def FUSEST_STATUS_PROGBUSY : Fld := ⟨FUSEST_STATUS, 2, 1⟩
def FUSEST_STATUS_LOCKED : Fld := ⟨FUSEST_STATUS, 1, 1⟩
def FUSEST_STATUS_PEND : Fld := ⟨FUSEST_STATUS, 0, 1⟩

/-- R331. -/
def MEM_CTL : Nat := 0x30000
def MEM_CTL_CEREC : Fld := ⟨MEM_CTL, 16, 8⟩
def MEM_CTL_SCRUBH : Fld := ⟨MEM_CTL, 8, 8⟩
def MEM_CTL_WBACK : Fld := ⟨MEM_CTL, 2, 1⟩
def MEM_CTL_UEAUTO : Fld := ⟨MEM_CTL, 1, 1⟩
def MEM_CTL_AUTO : Fld := ⟨MEM_CTL, 0, 1⟩
/-- R331. -/
def MEM_STATUS : Nat := 0x30004
def MEM_STATUS_SPAREFOR : Fld := ⟨MEM_STATUS, 16, 5⟩
def MEM_STATUS_TESTBUSY : Fld := ⟨MEM_STATUS, 9, 1⟩
def MEM_STATUS_COPYING : Fld := ⟨MEM_STATUS, 8, 1⟩
def MEM_STATUS_NOSPARE : Fld := ⟨MEM_STATUS, 7, 1⟩
def MEM_STATUS_SPARE_USED : Fld := ⟨MEM_STATUS, 6, 1⟩
def MEM_STATUS_UE : Fld := ⟨MEM_STATUS, 5, 1⟩
def MEM_STATUS_CE : Fld := ⟨MEM_STATUS, 4, 1⟩
def MEM_STATUS_RET : Fld := ⟨MEM_STATUS, 3, 1⟩
def MEM_STATUS_WAKING : Fld := ⟨MEM_STATUS, 2, 1⟩
def MEM_STATUS_READY : Fld := ⟨MEM_STATUS, 0, 1⟩
/-- R332. -/
def MEM_SPARECFG : Nat := 0x30008
def MEM_SPARECFG_THR : Fld := ⟨MEM_SPARECFG, 16, 16⟩
def MEM_SPARECFG_WINDOW : Fld := ⟨MEM_SPARECFG, 8, 8⟩
def MEM_SPARECFG_GO : Fld := ⟨MEM_SPARECFG, 7, 1⟩
def MEM_SPARECFG_BANK : Fld := ⟨MEM_SPARECFG, 0, 4⟩
/-- R330. -/
def MEM_SPAREPTR : Nat := 0x3000C
def MEM_SPAREPTR_P : Fld := ⟨MEM_SPAREPTR, 0, 18⟩
/-- R330. -/
def MEM_COLLCNT : Nat := 0x30010
def MEM_COLLCNT_CNT : Fld := ⟨MEM_COLLCNT, 0, 32⟩
/-- R330. -/
def MEM_UECNT : Nat := 0x30014
def MEM_UECNT_CNT : Fld := ⟨MEM_UECNT, 0, 32⟩
/-- R330. -/
def MEM_ERRADDR : Nat := 0x30018
def MEM_ERRADDR_ADDR : Fld := ⟨MEM_ERRADDR, 4, 22⟩
/-- R332. -/
def MEM_ERRINFO : Nat := 0x3001C
def MEM_ERRINFO_VALID : Fld := ⟨MEM_ERRINFO, 31, 1⟩
def MEM_ERRINFO_UE : Fld := ⟨MEM_ERRINFO, 30, 1⟩
def MEM_ERRINFO_CLASS : Fld := ⟨MEM_ERRINFO, 27, 3⟩
def MEM_ERRINFO_PBANK : Fld := ⟨MEM_ERRINFO, 22, 5⟩
def MEM_ERRINFO_SIDE : Fld := ⟨MEM_ERRINFO, 20, 2⟩
def MEM_ERRINFO_SYMBOL : Fld := ⟨MEM_ERRINFO, 15, 5⟩
/-- R330. -/
def MEM_ERRSYN : Nat := 0x30020
def MEM_ERRSYN_S2 : Fld := ⟨MEM_ERRSYN, 16, 8⟩
def MEM_ERRSYN_S1 : Fld := ⟨MEM_ERRSYN, 8, 8⟩
def MEM_ERRSYN_S0 : Fld := ⟨MEM_ERRSYN, 0, 8⟩
/-- R330. -/
def MEM_ERRTIME_LO : Nat := 0x30024
def MEM_ERRTIME_LO_TIME : Fld := ⟨MEM_ERRTIME_LO, 0, 32⟩
/-- R330. -/
def MEM_ERRTIME_HI : Nat := 0x30028
def MEM_ERRTIME_HI_TIME : Fld := ⟨MEM_ERRTIME_HI, 0, 32⟩
/-- R330. -/
def MEM_TESTCTL : Nat := 0x300A0
def MEM_TESTCTL_SLICE : Fld := ⟨MEM_TESTCTL, 16, 10⟩
def MEM_TESTCTL_GO : Fld := ⟨MEM_TESTCTL, 0, 1⟩
/-- R332. -/
def MEM_TESTSTAT : Nat := 0x300A4
def MEM_TESTSTAT_DONE : Fld := ⟨MEM_TESTSTAT, 31, 1⟩
def MEM_TESTSTAT_FAIL : Fld := ⟨MEM_TESTSTAT, 30, 1⟩
def MEM_TESTSTAT_SLICE : Fld := ⟨MEM_TESTSTAT, 16, 10⟩
def MEM_TESTSTAT_BANKS : Fld := ⟨MEM_TESTSTAT, 0, 16⟩

/-- R330. -/
def CECNT_CECNT (i : Nat) : Nat := 0x30040 + i * 0x4
def CECNT_CECNT_CNT (i : Nat) : Fld := ⟨CECNT_CECNT i, 0, 32⟩

/-- R333. -/
def MV_CTL (i : Nat) : Nat := 0x30400 + i * 0x20
def MV_CTL_REC (i : Nat) : Fld := ⟨MV_CTL i, 2, 1⟩
def MV_CTL_FILL (i : Nat) : Fld := ⟨MV_CTL i, 1, 1⟩
def MV_CTL_EN (i : Nat) : Fld := ⟨MV_CTL i, 0, 1⟩
/-- R333. -/
def MV_SRC (i : Nat) : Nat := 0x30404 + i * 0x20
def MV_SRC_ADDR (i : Nat) : Fld := ⟨MV_SRC i, 4, 22⟩
/-- R333. -/
def MV_DST (i : Nat) : Nat := 0x30408 + i * 0x20
def MV_DST_ADDR (i : Nat) : Fld := ⟨MV_DST i, 4, 22⟩
/-- R333. -/
def MV_LEN (i : Nat) : Nat := 0x3040C + i * 0x20
def MV_LEN_WORDS (i : Nat) : Fld := ⟨MV_LEN i, 0, 22⟩
/-- R333. -/
def MV_PATTERN (i : Nat) : Nat := 0x30410 + i * 0x20
def MV_PATTERN_PATTERN (i : Nat) : Fld := ⟨MV_PATTERN i, 0, 32⟩
/-- R333. -/
def MV_CMD (i : Nat) : Nat := 0x30414 + i * 0x20
def MV_CMD_STOP (i : Nat) : Fld := ⟨MV_CMD i, 1, 1⟩
def MV_CMD_START (i : Nat) : Fld := ⟨MV_CMD i, 0, 1⟩
/-- R334. -/
def MV_STATUS (i : Nat) : Nat := 0x30418 + i * 0x20
def MV_STATUS_MISSCNT (i : Nat) : Fld := ⟨MV_STATUS i, 24, 8⟩
def MV_STATUS_RANGE (i : Nat) : Fld := ⟨MV_STATUS i, 4, 1⟩
def MV_STATUS_ERR (i : Nat) : Fld := ⟨MV_STATUS i, 3, 1⟩
def MV_STATUS_MISSED (i : Nat) : Fld := ⟨MV_STATUS i, 2, 1⟩
def MV_STATUS_DONE (i : Nat) : Fld := ⟨MV_STATUS i, 1, 1⟩
def MV_STATUS_BUSY (i : Nat) : Fld := ⟨MV_STATUS i, 0, 1⟩
/-- R333. -/
def MV_LEFT (i : Nat) : Nat := 0x3041C + i * 0x20
def MV_LEFT_WORDS (i : Nat) : Fld := ⟨MV_LEFT i, 0, 22⟩

/-- R459. -/
def SVCPRES_PRES : Nat := 0x38000
def SVCPRES_PRES_OPEN : Fld := ⟨SVCPRES_PRES, 31, 1⟩
def SVCPRES_PRES_ASSERTED : Fld := ⟨SVCPRES_PRES, 30, 1⟩
def SVCPRES_PRES_STUCK : Fld := ⟨SVCPRES_PRES, 29, 1⟩
def SVCPRES_PRES_LEVEL : Fld := ⟨SVCPRES_PRES, 16, 8⟩
def SVCPRES_PRES_CLOSE : Fld := ⟨SVCPRES_PRES, 15, 1⟩
def SVCPRES_PRES_LEFT : Fld := ⟨SVCPRES_PRES, 0, 6⟩
/-- R459. -/
def SVCPRES_SEAL : Nat := 0x38004
def SVCPRES_SEAL_CLRREF : Fld := ⟨SVCPRES_SEAL, 3, 1⟩
def SVCPRES_SEAL_LOCKING : Fld := ⟨SVCPRES_SEAL, 2, 1⟩
def SVCPRES_SEAL_LOOP : Fld := ⟨SVCPRES_SEAL, 1, 1⟩
def SVCPRES_SEAL_OPEN : Fld := ⟨SVCPRES_SEAL, 0, 1⟩
/-- R458. -/
def SVCPRES_SEALCNT : Nat := 0x38008
def SVCPRES_SEALCNT_CNT : Fld := ⟨SVCPRES_SEALCNT, 0, 32⟩

/-- R442. -/
def SVC_TESTCFG : Nat := 0x38100
def SVC_TESTCFG_PATROL : Fld := ⟨SVC_TESTCFG, 31, 1⟩
def SVC_TESTCFG_IDLEWAIT : Fld := ⟨SVC_TESTCFG, 8, 8⟩
def SVC_TESTCFG_PERIOD : Fld := ⟨SVC_TESTCFG, 0, 8⟩
/-- R441. -/
def SVC_TESTSTAT : Nat := 0x38104
def SVC_TESTSTAT_BUSY : Fld := ⟨SVC_TESTSTAT, 31, 1⟩
def SVC_TESTSTAT_QUEUED : Fld := ⟨SVC_TESTSTAT, 24, 5⟩
def SVC_TESTSTAT_KIND : Fld := ⟨SVC_TESTSTAT, 16, 8⟩
def SVC_TESTSTAT_INDEX : Fld := ⟨SVC_TESTSTAT, 0, 16⟩
/-- R441. -/
def SVC_TESTRES : Nat := 0x38108
def SVC_TESTRES_KIND : Fld := ⟨SVC_TESTRES, 24, 8⟩
def SVC_TESTRES_RESULT : Fld := ⟨SVC_TESTRES, 16, 8⟩
def SVC_TESTRES_INDEX : Fld := ⟨SVC_TESTRES, 0, 16⟩
/-- R441. -/
def SVC_TESTDET : Nat := 0x3810C
def SVC_TESTDET_DETAIL : Fld := ⟨SVC_TESTDET, 0, 32⟩
/-- R442. -/
def SVC_QSTAT : Nat := 0x38110
def SVC_QSTAT_RELEASE_LOCK : Fld := ⟨SVC_QSTAT, 16, 4⟩
def SVC_QSTAT_SUPPLY_TRIP : Fld := ⟨SVC_QSTAT, 12, 4⟩
def SVC_QSTAT_CLOCK_TRIP : Fld := ⟨SVC_QSTAT, 8, 4⟩
def SVC_QSTAT_HELD : Fld := ⟨SVC_QSTAT, 4, 4⟩
def SVC_QSTAT_ISO : Fld := ⟨SVC_QSTAT, 0, 4⟩
/-- R441. -/
def SVC_QHOLD : Nat := 0x38114
def SVC_QHOLD_HOLD : Fld := ⟨SVC_QHOLD, 0, 4⟩
/-- R441. -/
def SVC_QRELEASE : Nat := 0x38118
def SVC_QRELEASE_GO : Fld := ⟨SVC_QRELEASE, 31, 1⟩
def SVC_QRELEASE_QUAD : Fld := ⟨SVC_QRELEASE, 0, 2⟩
/-- R441. -/
def SVC_CLKSTAT : Nat := 0x3811C
def SVC_CLKSTAT_TCLK_LOST : Fld := ⟨SVC_CLKSTAT, 2, 1⟩
def SVC_CLKSTAT_FCLK_FB : Fld := ⟨SVC_CLKSTAT, 1, 1⟩
def SVC_CLKSTAT_DCLK_FB : Fld := ⟨SVC_CLKSTAT, 0, 1⟩
/-- R441. -/
def SVC_FLOG : Nat := 0x38120
def SVC_FLOG_RING : Fld := ⟨SVC_FLOG, 16, 14⟩
def SVC_FLOG_KEEP : Fld := ⟨SVC_FLOG, 0, 9⟩
/-- R441. -/
def SVC_FLOG_RDIDX : Nat := 0x38124
def SVC_FLOG_RDIDX_IDX : Fld := ⟨SVC_FLOG_RDIDX, 0, 14⟩
/-- R441. -/
def SVC_FLOG_LOST : Nat := 0x38128
def SVC_FLOG_LOST_CNT : Fld := ⟨SVC_FLOG_LOST, 0, 32⟩
/-- R441. -/
def SVC_FLOG_SEQ : Nat := 0x3812C
def SVC_FLOG_SEQ_SEQ : Fld := ⟨SVC_FLOG_SEQ, 0, 32⟩
/-- R441. -/
def SVC_RESTARTCNT : Nat := 0x38130
def SVC_RESTARTCNT_CNT : Fld := ⟨SVC_RESTARTCNT, 0, 32⟩

/-- R481. -/
def PWR_CTL : Nat := 0x38200
def PWR_CTL_COLD : Fld := ⟨PWR_CTL, 31, 1⟩
def PWR_CTL_REQ : Fld := ⟨PWR_CTL, 0, 2⟩
/-- R481. -/
def PWR_STATUS : Nat := 0x38204
def PWR_STATUS_STATE : Fld := ⟨PWR_STATUS, 30, 2⟩
def PWR_STATUS_REFCAUSE : Fld := ⟨PWR_STATUS, 28, 2⟩
def PWR_STATUS_WAKEREF : Fld := ⟨PWR_STATUS, 27, 1⟩
def PWR_STATUS_REFUSED : Fld := ⟨PWR_STATUS, 26, 1⟩
def PWR_STATUS_HOT : Fld := ⟨PWR_STATUS, 25, 1⟩
def PWR_STATUS_AXSTALE : Fld := ⟨PWR_STATUS, 24, 1⟩
def PWR_STATUS_READY : Fld := ⟨PWR_STATUS, 23, 1⟩
def PWR_STATUS_SLPPEND : Fld := ⟨PWR_STATUS, 22, 1⟩
def PWR_STATUS_IOGOOD : Fld := ⟨PWR_STATUS, 0, 20⟩
/-- R480. -/
def PWR_WAKEEN : Nat := 0x38208
def PWR_WAKEEN_SEAL : Fld := ⟨PWR_WAKEEN, 1, 1⟩
def PWR_WAKEEN_TIMER : Fld := ⟨PWR_WAKEEN, 0, 1⟩
/-- R480. -/
def PWR_WAKETIME : Nat := 0x3820C
def PWR_WAKETIME_PERIODS : Fld := ⟨PWR_WAKETIME, 0, 32⟩
/-- R480. -/
def PWR_TEMP : Nat := 0x38210
def PWR_TEMP_TEMP : Fld := ⟨PWR_TEMP, 0, 16⟩
/-- R481. -/
def PWR_BOOTSTAT : Nat := 0x38214
def PWR_BOOTSTAT_READY : Fld := ⟨PWR_BOOTSTAT, 31, 1⟩
def PWR_BOOTSTAT_RESULT : Fld := ⟨PWR_BOOTSTAT, 28, 3⟩
def PWR_BOOTSTAT_READ : Fld := ⟨PWR_BOOTSTAT, 27, 1⟩
def PWR_BOOTSTAT_IDX : Fld := ⟨PWR_BOOTSTAT, 0, 16⟩

/-- R415. -/
def QSTAGE_GROUP (i : Nat) : Nat := 0x10000 + i * 0x8000 + 0x0
def QSTAGE_GROUP_GROUP (i : Nat) : Fld := ⟨QSTAGE_GROUP i, 0, 5⟩
/-- R415. -/
def QSTAGE_OFF (i : Nat) : Nat := 0x10000 + i * 0x8000 + 0x4
def QSTAGE_OFF_OFF (i : Nat) : Fld := ⟨QSTAGE_OFF i, 2, 13⟩
/-- R415. -/
def QSTAGE_VAL (i : Nat) : Nat := 0x10000 + i * 0x8000 + 0x8
def QSTAGE_VAL_VAL (i : Nat) : Fld := ⟨QSTAGE_VAL i, 0, 32⟩
/-- R415. -/
def QSTAGE_CMD (i : Nat) : Nat := 0x10000 + i * 0x8000 + 0xC
def QSTAGE_CMD_ABORT (i : Nat) : Fld := ⟨QSTAGE_CMD i, 0, 1⟩
/-- R415. -/
def QSTAGE_STATUS (i : Nat) : Nat := 0x10000 + i * 0x8000 + 0x10
def QSTAGE_STATUS_PEND (i : Nat) : Fld := ⟨QSTAGE_STATUS i, 8, 8⟩
def QSTAGE_STATUS_REFUSED (i : Nat) : Fld := ⟨QSTAGE_STATUS i, 0, 1⟩

/-- R480. -/
def QPWR_IBXRST (i : Nat) : Nat := 0x10000 + i * 0x8000 + 0x100
def QPWR_IBXRST_RST (i : Nat) : Fld := ⟨QPWR_IBXRST i, 0, 16⟩

/-- R91. -/
def AXIS_CFG (i : Nat) : Nat := 0x10000 + (i / 2) * 0x8000 + 0x400 + (i % 2) * 0x200
def AXIS_CFG_FILT (i : Nat) : Fld := ⟨AXIS_CFG i, 24, 8⟩
def AXIS_CFG_ILLMAX (i : Nat) : Fld := ⟨AXIS_CFG i, 16, 8⟩
def AXIS_CFG_LIM_EN (i : Nat) : Fld := ⟨AXIS_CFG i, 11, 1⟩
def AXIS_CFG_INVERT (i : Nat) : Fld := ⟨AXIS_CFG i, 10, 1⟩
def AXIS_CFG_MULT (i : Nat) : Fld := ⟨AXIS_CFG i, 8, 2⟩
def AXIS_CFG_MODE (i : Nat) : Fld := ⟨AXIS_CFG i, 0, 3⟩
/-- R92. -/
def AXIS_STATUS (i : Nat) : Nat := 0x10000 + (i / 2) * 0x8000 + 0x404 + (i % 2) * 0x200
def AXIS_STATUS_LOSS (i : Nat) : Fld := ⟨AXIS_STATUS i, 18, 1⟩
def AXIS_STATUS_FAULT_CAUSE (i : Nat) : Fld := ⟨AXIS_STATUS i, 15, 3⟩
def AXIS_STATUS_FAULT (i : Nat) : Fld := ⟨AXIS_STATUS i, 14, 1⟩
def AXIS_STATUS_SAT_HI (i : Nat) : Fld := ⟨AXIS_STATUS i, 13, 1⟩
def AXIS_STATUS_SAT_LO (i : Nat) : Fld := ⟨AXIS_STATUS i, 12, 1⟩
def AXIS_STATUS_IDX_SEEN (i : Nat) : Fld := ⟨AXIS_STATUS i, 11, 1⟩
def AXIS_STATUS_IDX_FLAG (i : Nat) : Fld := ⟨AXIS_STATUS i, 10, 1⟩
def AXIS_STATUS_ILLEGAL (i : Nat) : Fld := ⟨AXIS_STATUS i, 9, 1⟩
def AXIS_STATUS_TW_LEARN (i : Nat) : Fld := ⟨AXIS_STATUS i, 8, 1⟩
def AXIS_STATUS_TW_STOP (i : Nat) : Fld := ⟨AXIS_STATUS i, 7, 1⟩
def AXIS_STATUS_TW_ERR (i : Nat) : Fld := ⟨AXIS_STATUS i, 6, 1⟩
def AXIS_STATUS_SER_VALID (i : Nat) : Fld := ⟨AXIS_STATUS i, 5, 1⟩
def AXIS_STATUS_SER_ERR (i : Nat) : Fld := ⟨AXIS_STATUS i, 4, 1⟩
def AXIS_STATUS_LIM_ERR (i : Nat) : Fld := ⟨AXIS_STATUS i, 3, 1⟩
def AXIS_STATUS_DIR (i : Nat) : Fld := ⟨AXIS_STATUS i, 1, 1⟩
def AXIS_STATUS_ACTIVE (i : Nat) : Fld := ⟨AXIS_STATUS i, 0, 1⟩
/-- R93. -/
def AXIS_IDXCFG (i : Nat) : Nat := 0x10000 + (i / 2) * 0x8000 + 0x408 + (i % 2) * 0x200
def AXIS_IDXCFG_TOL (i : Nat) : Fld := ⟨AXIS_IDXCFG i, 24, 8⟩
def AXIS_IDXCFG_MMAX (i : Nat) : Fld := ⟨AXIS_IDXCFG i, 16, 8⟩
def AXIS_IDXCFG_POLICY (i : Nat) : Fld := ⟨AXIS_IDXCFG i, 6, 2⟩
def AXIS_IDXCFG_GATE (i : Nat) : Fld := ⟨AXIS_IDXCFG i, 4, 2⟩
def AXIS_IDXCFG_ZPOL (i : Nat) : Fld := ⟨AXIS_IDXCFG i, 3, 1⟩
def AXIS_IDXCFG_PERIODIC (i : Nat) : Fld := ⟨AXIS_IDXCFG i, 2, 1⟩
def AXIS_IDXCFG_IDX_EN (i : Nat) : Fld := ⟨AXIS_IDXCFG i, 0, 1⟩
/-- R93. -/
def AXIS_TWCFG (i : Nat) : Nat := 0x10000 + (i / 2) * 0x8000 + 0x40C + (i % 2) * 0x200
def AXIS_TWCFG_GAP_RATIO (i : Nat) : Fld := ⟨AXIS_TWCFG i, 24, 8⟩
def AXIS_TWCFG_EXTRA_RATIO (i : Nat) : Fld := ⟨AXIS_TWCFG i, 16, 8⟩
def AXIS_TWCFG_MAXGAP (i : Nat) : Fld := ⟨AXIS_TWCFG i, 12, 4⟩
def AXIS_TWCFG_AVG_N (i : Nat) : Fld := ⟨AXIS_TWCFG i, 8, 2⟩
def AXIS_TWCFG_DIRSRC (i : Nat) : Fld := ⟨AXIS_TWCFG i, 6, 2⟩
def AXIS_TWCFG_EDGE (i : Nat) : Fld := ⟨AXIS_TWCFG i, 5, 1⟩
def AXIS_TWCFG_REFTYPE (i : Nat) : Fld := ⟨AXIS_TWCFG i, 4, 1⟩
/-- R90. -/
def AXIS_POS_LO (i : Nat) : Nat := 0x10000 + (i / 2) * 0x8000 + 0x410 + (i % 2) * 0x200
def AXIS_POS_LO_POS (i : Nat) : Fld := ⟨AXIS_POS_LO i, 0, 32⟩
/-- R90. -/
def AXIS_POS_HI (i : Nat) : Nat := 0x10000 + (i / 2) * 0x8000 + 0x414 + (i % 2) * 0x200
def AXIS_POS_HI_POS (i : Nat) : Fld := ⟨AXIS_POS_HI i, 0, 32⟩
/-- R90. -/
def AXIS_EXCESS (i : Nat) : Nat := 0x10000 + (i / 2) * 0x8000 + 0x418 + (i % 2) * 0x200
def AXIS_EXCESS_EXCESS (i : Nat) : Fld := ⟨AXIS_EXCESS i, 0, 32⟩
/-- R90. -/
def AXIS_IDX_DEV (i : Nat) : Nat := 0x10000 + (i / 2) * 0x8000 + 0x41C + (i % 2) * 0x200
def AXIS_IDX_DEV_D (i : Nat) : Fld := ⟨AXIS_IDX_DEV i, 0, 32⟩
/-- R90. -/
def AXIS_LIMIT_LO_LO (i : Nat) : Nat := 0x10000 + (i / 2) * 0x8000 + 0x420 + (i % 2) * 0x200
def AXIS_LIMIT_LO_LO_LIMIT (i : Nat) : Fld := ⟨AXIS_LIMIT_LO_LO i, 0, 32⟩
/-- R90. -/
def AXIS_LIMIT_LO_HI (i : Nat) : Nat := 0x10000 + (i / 2) * 0x8000 + 0x424 + (i % 2) * 0x200
def AXIS_LIMIT_LO_HI_LIMIT (i : Nat) : Fld := ⟨AXIS_LIMIT_LO_HI i, 0, 16⟩
/-- R90. -/
def AXIS_LIMIT_HI_LO (i : Nat) : Nat := 0x10000 + (i / 2) * 0x8000 + 0x428 + (i % 2) * 0x200
def AXIS_LIMIT_HI_LO_LIMIT (i : Nat) : Fld := ⟨AXIS_LIMIT_HI_LO i, 0, 32⟩
/-- R90. -/
def AXIS_LIMIT_HI_HI (i : Nat) : Nat := 0x10000 + (i / 2) * 0x8000 + 0x42C + (i % 2) * 0x200
def AXIS_LIMIT_HI_HI_LIMIT (i : Nat) : Fld := ⟨AXIS_LIMIT_HI_HI i, 0, 16⟩
/-- R90. -/
def AXIS_IDX_BASE_LO (i : Nat) : Nat := 0x10000 + (i / 2) * 0x8000 + 0x430 + (i % 2) * 0x200
def AXIS_IDX_BASE_LO_BASE (i : Nat) : Fld := ⟨AXIS_IDX_BASE_LO i, 0, 32⟩
/-- R90. -/
def AXIS_IDX_BASE_HI (i : Nat) : Nat := 0x10000 + (i / 2) * 0x8000 + 0x434 + (i % 2) * 0x200
def AXIS_IDX_BASE_HI_BASE (i : Nat) : Fld := ⟨AXIS_IDX_BASE_HI i, 0, 16⟩
/-- R90. -/
def AXIS_IDX_PERIOD (i : Nat) : Nat := 0x10000 + (i / 2) * 0x8000 + 0x438 + (i % 2) * 0x200
def AXIS_IDX_PERIOD_PERIOD (i : Nat) : Fld := ⟨AXIS_IDX_PERIOD i, 0, 32⟩
/-- R90. -/
def AXIS_TWAVG (i : Nat) : Nat := 0x10000 + (i / 2) * 0x8000 + 0x43C + (i % 2) * 0x200
def AXIS_TWAVG_A (i : Nat) : Fld := ⟨AXIS_TWAVG i, 0, 32⟩
/-- R94. -/
def AXIS_SERCFG (i : Nat) : Nat := 0x10000 + (i / 2) * 0x8000 + 0x440 + (i % 2) * 0x200
def AXIS_SERCFG_SEQCHK (i : Nat) : Fld := ⟨AXIS_SERCFG i, 31, 1⟩
def AXIS_SERCFG_SIGNED (i : Nat) : Fld := ⟨AXIS_SERCFG i, 30, 1⟩
def AXIS_SERCFG_GRAY (i : Nat) : Fld := ⟨AXIS_SERCFG i, 29, 1⟩
def AXIS_SERCFG_ERRBIT (i : Nat) : Fld := ⟨AXIS_SERCFG i, 27, 2⟩
def AXIS_SERCFG_SPFLEN (i : Nat) : Fld := ⟨AXIS_SERCFG i, 24, 2⟩
def AXIS_SERCFG_NBITS (i : Nat) : Fld := ⟨AXIS_SERCFG i, 18, 6⟩
def AXIS_SERCFG_START (i : Nat) : Fld := ⟨AXIS_SERCFG i, 16, 2⟩
def AXIS_SERCFG_CONVSEL (i : Nat) : Fld := ⟨AXIS_SERCFG i, 14, 2⟩
def AXIS_SERCFG_FAULTN (i : Nat) : Fld := ⟨AXIS_SERCFG i, 8, 6⟩
def AXIS_SERCFG_SPFWAIT (i : Nat) : Fld := ⟨AXIS_SERCFG i, 0, 4⟩
/-- R94. -/
def AXIS_SERTIME (i : Nat) : Nat := 0x10000 + (i / 2) * 0x8000 + 0x444 + (i % 2) * 0x200
def AXIS_SERTIME_HALF (i : Nat) : Fld := ⟨AXIS_SERTIME i, 20, 12⟩
def AXIS_SERTIME_TIMEOUT (i : Nat) : Fld := ⟨AXIS_SERTIME i, 10, 10⟩
def AXIS_SERTIME_RECOVERY (i : Nat) : Fld := ⟨AXIS_SERTIME i, 0, 10⟩
/-- R90. -/
def AXIS_SERDLY (i : Nat) : Nat := 0x10000 + (i / 2) * 0x8000 + 0x448 + (i % 2) * 0x200
def AXIS_SERDLY_DATA_DELAY (i : Nat) : Fld := ⟨AXIS_SERDLY i, 24, 8⟩
def AXIS_SERDLY_SENSOR_LAT (i : Nat) : Fld := ⟨AXIS_SERDLY i, 0, 16⟩
/-- R90. -/
def AXIS_SERPER (i : Nat) : Nat := 0x10000 + (i / 2) * 0x8000 + 0x44C + (i % 2) * 0x200
def AXIS_SERPER_PER (i : Nat) : Fld := ⟨AXIS_SERPER i, 0, 32⟩
/-- R90. -/
def AXIS_SERMAX (i : Nat) : Nat := 0x10000 + (i / 2) * 0x8000 + 0x450 + (i % 2) * 0x200
def AXIS_SERMAX_MAX (i : Nat) : Fld := ⟨AXIS_SERMAX i, 0, 32⟩
/-- R95. -/
def AXIS_SERERR (i : Nat) : Nat := 0x10000 + (i / 2) * 0x8000 + 0x454 + (i % 2) * 0x200
def AXIS_SERERR_BADCNT (i : Nat) : Fld := ⟨AXIS_SERERR i, 16, 16⟩
def AXIS_SERERR_WARN (i : Nat) : Fld := ⟨AXIS_SERERR i, 8, 1⟩
def AXIS_SERERR_OVERRUN (i : Nat) : Fld := ⟨AXIS_SERERR i, 7, 1⟩
def AXIS_SERERR_JUMP (i : Nat) : Fld := ⟨AXIS_SERERR i, 6, 1⟩
def AXIS_SERERR_SEQ (i : Nat) : Fld := ⟨AXIS_SERERR i, 5, 1⟩
def AXIS_SERERR_LEN (i : Nat) : Fld := ⟨AXIS_SERERR i, 4, 1⟩
def AXIS_SERERR_SENSOR (i : Nat) : Fld := ⟨AXIS_SERERR i, 3, 1⟩
def AXIS_SERERR_CRC (i : Nat) : Fld := ⟨AXIS_SERERR i, 2, 1⟩
def AXIS_SERERR_TIMEOUT (i : Nat) : Fld := ⟨AXIS_SERERR i, 1, 1⟩
def AXIS_SERERR_LINE (i : Nat) : Fld := ⟨AXIS_SERERR i, 0, 1⟩
/-- R90. -/
def AXIS_SERRAW_LO (i : Nat) : Nat := 0x10000 + (i / 2) * 0x8000 + 0x458 + (i % 2) * 0x200
def AXIS_SERRAW_LO_RAW (i : Nat) : Fld := ⟨AXIS_SERRAW_LO i, 0, 32⟩
/-- R90. -/
def AXIS_SERRAW_HI (i : Nat) : Nat := 0x10000 + (i / 2) * 0x8000 + 0x45C + (i % 2) * 0x200
def AXIS_SERRAW_HI_RAW (i : Nat) : Fld := ⟨AXIS_SERRAW_HI i, 0, 16⟩
/-- R90. -/
def AXIS_LPOS_LO (i : Nat) : Nat := 0x10000 + (i / 2) * 0x8000 + 0x460 + (i % 2) * 0x200
def AXIS_LPOS_LO_LPOS (i : Nat) : Fld := ⟨AXIS_LPOS_LO i, 0, 32⟩
/-- R90. -/
def AXIS_LPOS_HI (i : Nat) : Nat := 0x10000 + (i / 2) * 0x8000 + 0x464 + (i % 2) * 0x200
def AXIS_LPOS_HI_LPOS (i : Nat) : Fld := ⟨AXIS_LPOS_HI i, 0, 32⟩
/-- R90. -/
def AXIS_LTIME_LO (i : Nat) : Nat := 0x10000 + (i / 2) * 0x8000 + 0x468 + (i % 2) * 0x200
def AXIS_LTIME_LO_LTIME (i : Nat) : Fld := ⟨AXIS_LTIME_LO i, 0, 32⟩
/-- R90. -/
def AXIS_LTIME_HI (i : Nat) : Nat := 0x10000 + (i / 2) * 0x8000 + 0x46C + (i % 2) * 0x200
def AXIS_LTIME_HI_LTIME (i : Nat) : Fld := ⟨AXIS_LTIME_HI i, 0, 32⟩
/-- R95. -/
def AXIS_LFLAGS (i : Nat) : Nat := 0x10000 + (i / 2) * 0x8000 + 0x470 + (i % 2) * 0x200
def AXIS_LFLAGS_FINE (i : Nat) : Fld := ⟨AXIS_LFLAGS i, 24, 6⟩
def AXIS_LFLAGS_INC (i : Nat) : Fld := ⟨AXIS_LFLAGS i, 16, 8⟩
def AXIS_LFLAGS_REV (i : Nat) : Fld := ⟨AXIS_LFLAGS i, 7, 1⟩
def AXIS_LFLAGS_SNAP (i : Nat) : Fld := ⟨AXIS_LFLAGS i, 6, 1⟩
def AXIS_LFLAGS_SAT (i : Nat) : Fld := ⟨AXIS_LFLAGS i, 5, 1⟩
def AXIS_LFLAGS_BREAK (i : Nat) : Fld := ⟨AXIS_LFLAGS i, 4, 1⟩
def AXIS_LFLAGS_GAP (i : Nat) : Fld := ⟨AXIS_LFLAGS i, 3, 1⟩
def AXIS_LFLAGS_CLOCK_SWITCH (i : Nat) : Fld := ⟨AXIS_LFLAGS i, 2, 1⟩
def AXIS_LFLAGS_FINE_UNCAL (i : Nat) : Fld := ⟨AXIS_LFLAGS i, 1, 1⟩
def AXIS_LFLAGS_DIR (i : Nat) : Fld := ⟨AXIS_LFLAGS i, 0, 1⟩
/-- R90. -/
def AXIS_ILLCNT (i : Nat) : Nat := 0x10000 + (i / 2) * 0x8000 + 0x474 + (i % 2) * 0x200
def AXIS_ILLCNT_CNT (i : Nat) : Fld := ⟨AXIS_ILLCNT i, 0, 32⟩
/-- R90. -/
def AXIS_GLITCHCNT (i : Nat) : Nat := 0x10000 + (i / 2) * 0x8000 + 0x478 + (i % 2) * 0x200
def AXIS_GLITCHCNT_CNT (i : Nat) : Fld := ⟨AXIS_GLITCHCNT i, 0, 32⟩
/-- R90. -/
def AXIS_IDXCNT (i : Nat) : Nat := 0x10000 + (i / 2) * 0x8000 + 0x47C + (i % 2) * 0x200
def AXIS_IDXCNT_MISMATCH (i : Nat) : Fld := ⟨AXIS_IDXCNT i, 16, 16⟩
def AXIS_IDXCNT_GOOD (i : Nat) : Fld := ⟨AXIS_IDXCNT i, 0, 16⟩
/-- R124. -/
def AXIS_ESTCFG (i : Nat) : Nat := 0x10000 + (i / 2) * 0x8000 + 0x480 + (i % 2) * 0x200
def AXIS_ESTCFG_HOLDF (i : Nat) : Fld := ⟨AXIS_ESTCFG i, 24, 8⟩
def AXIS_ESTCFG_HIST (i : Nat) : Fld := ⟨AXIS_ESTCFG i, 16, 7⟩
def AXIS_ESTCFG_WIN (i : Nat) : Fld := ⟨AXIS_ESTCFG i, 8, 6⟩
def AXIS_ESTCFG_NOEXT (i : Nat) : Fld := ⟨AXIS_ESTCFG i, 0, 1⟩
/-- R123. -/
def AXIS_ESTSTOP (i : Nat) : Nat := 0x10000 + (i / 2) * 0x8000 + 0x484 + (i % 2) * 0x200
def AXIS_ESTSTOP_STOP (i : Nat) : Fld := ⟨AXIS_ESTSTOP i, 0, 16⟩
/-- R124. -/
def AXIS_ESTSTAT (i : Nat) : Nat := 0x10000 + (i / 2) * 0x8000 + 0x488 + (i % 2) * 0x200
def AXIS_ESTSTAT_RUN (i : Nat) : Fld := ⟨AXIS_ESTSTAT i, 16, 8⟩
def AXIS_ESTSTAT_HOLD_ISSUED (i : Nat) : Fld := ⟨AXIS_ESTSTAT i, 5, 1⟩
def AXIS_ESTSTAT_CLAMPED (i : Nat) : Fld := ⟨AXIS_ESTSTAT i, 4, 1⟩
def AXIS_ESTSTAT_STOPPED (i : Nat) : Fld := ⟨AXIS_ESTSTAT i, 3, 1⟩
def AXIS_ESTSTAT_REBUILD (i : Nat) : Fld := ⟨AXIS_ESTSTAT i, 2, 1⟩
def AXIS_ESTSTAT_EXT_ON (i : Nat) : Fld := ⟨AXIS_ESTSTAT i, 1, 1⟩
def AXIS_ESTSTAT_VALID (i : Nat) : Fld := ⟨AXIS_ESTSTAT i, 0, 1⟩
/-- R123. -/
def AXIS_VEL_LO (i : Nat) : Nat := 0x10000 + (i / 2) * 0x8000 + 0x490 + (i % 2) * 0x200
def AXIS_VEL_LO_VEL (i : Nat) : Fld := ⟨AXIS_VEL_LO i, 0, 32⟩
/-- R123. -/
def AXIS_VEL_HI (i : Nat) : Nat := 0x10000 + (i / 2) * 0x8000 + 0x494 + (i % 2) * 0x200
def AXIS_VEL_HI_VEL (i : Nat) : Fld := ⟨AXIS_VEL_HI i, 0, 32⟩
/-- R123. -/
def AXIS_XPOS_LO (i : Nat) : Nat := 0x10000 + (i / 2) * 0x8000 + 0x498 + (i % 2) * 0x200
def AXIS_XPOS_LO_XPOS (i : Nat) : Fld := ⟨AXIS_XPOS_LO i, 0, 32⟩
/-- R123. -/
def AXIS_XPOS_HI (i : Nat) : Nat := 0x10000 + (i / 2) * 0x8000 + 0x49C + (i % 2) * 0x200
def AXIS_XPOS_HI_XPOS (i : Nat) : Fld := ⟨AXIS_XPOS_HI i, 0, 32⟩
/-- R123. -/
def AXIS_HOLDCNT (i : Nat) : Nat := 0x10000 + (i / 2) * 0x8000 + 0x4A0 + (i % 2) * 0x200
def AXIS_HOLDCNT_CNT (i : Nat) : Fld := ⟨AXIS_HOLDCNT i, 0, 32⟩
/-- R125. -/
def AXIS_EMU_CFG (i : Nat) : Nat := 0x10000 + (i / 2) * 0x8000 + 0x500 + (i % 2) * 0x200
def AXIS_EMU_CFG_DELAY (i : Nat) : Fld := ⟨AXIS_EMU_CFG i, 24, 8⟩
def AXIS_EMU_CFG_LANE (i : Nat) : Fld := ⟨AXIS_EMU_CFG i, 16, 7⟩
def AXIS_EMU_CFG_SRC (i : Nat) : Fld := ⟨AXIS_EMU_CFG i, 9, 3⟩
def AXIS_EMU_CFG_ZEN (i : Nat) : Fld := ⟨AXIS_EMU_CFG i, 8, 1⟩
def AXIS_EMU_CFG_SLAVE (i : Nat) : Fld := ⟨AXIS_EMU_CFG i, 6, 2⟩
def AXIS_EMU_CFG_SMOOTH (i : Nat) : Fld := ⟨AXIS_EMU_CFG i, 5, 1⟩
def AXIS_EMU_CFG_INV (i : Nat) : Fld := ⟨AXIS_EMU_CFG i, 4, 1⟩
def AXIS_EMU_CFG_OUT_EN (i : Nat) : Fld := ⟨AXIS_EMU_CFG i, 1, 1⟩
def AXIS_EMU_CFG_EN (i : Nat) : Fld := ⟨AXIS_EMU_CFG i, 0, 1⟩
/-- R123. -/
def AXIS_EMU_RATIO_M (i : Nat) : Nat := 0x10000 + (i / 2) * 0x8000 + 0x504 + (i % 2) * 0x200
def AXIS_EMU_RATIO_M_M (i : Nat) : Fld := ⟨AXIS_EMU_RATIO_M i, 0, 24⟩
/-- R123. -/
def AXIS_EMU_RATIO_N (i : Nat) : Nat := 0x10000 + (i / 2) * 0x8000 + 0x508 + (i % 2) * 0x200
def AXIS_EMU_RATIO_N_N (i : Nat) : Fld := ⟨AXIS_EMU_RATIO_N i, 0, 24⟩
/-- R123. -/
def AXIS_EMU_PHASE (i : Nat) : Nat := 0x10000 + (i / 2) * 0x8000 + 0x50C + (i % 2) * 0x200
def AXIS_EMU_PHASE_PHASE (i : Nat) : Fld := ⟨AXIS_EMU_PHASE i, 0, 24⟩
/-- R123. -/
def AXIS_EMU_CNT_LO (i : Nat) : Nat := 0x10000 + (i / 2) * 0x8000 + 0x510 + (i % 2) * 0x200
def AXIS_EMU_CNT_LO_C (i : Nat) : Fld := ⟨AXIS_EMU_CNT_LO i, 0, 32⟩
/-- R123. -/
def AXIS_EMU_CNT_HI (i : Nat) : Nat := 0x10000 + (i / 2) * 0x8000 + 0x514 + (i % 2) * 0x200
def AXIS_EMU_CNT_HI_C (i : Nat) : Fld := ⟨AXIS_EMU_CNT_HI i, 0, 16⟩
/-- R123. -/
def AXIS_EMU_ZCFG (i : Nat) : Nat := 0x10000 + (i / 2) * 0x8000 + 0x518 + (i % 2) * 0x200
def AXIS_EMU_ZCFG_ZPERIOD (i : Nat) : Fld := ⟨AXIS_EMU_ZCFG i, 16, 16⟩
def AXIS_EMU_ZCFG_ZPOS (i : Nat) : Fld := ⟨AXIS_EMU_ZCFG i, 0, 16⟩
/-- R126. -/
def AXIS_EMU_SLVCFG (i : Nat) : Nat := 0x10000 + (i / 2) * 0x8000 + 0x51C + (i % 2) * 0x200
def AXIS_EMU_SLVCFG_GRAY (i : Nat) : Fld := ⟨AXIS_EMU_SLVCFG i, 31, 1⟩
def AXIS_EMU_SLVCFG_ERR_EN (i : Nat) : Fld := ⟨AXIS_EMU_SLVCFG i, 30, 1⟩
def AXIS_EMU_SLVCFG_SPFLEN (i : Nat) : Fld := ⟨AXIS_EMU_SLVCFG i, 28, 2⟩
def AXIS_EMU_SLVCFG_NBITS (i : Nat) : Fld := ⟨AXIS_EMU_SLVCFG i, 22, 6⟩
def AXIS_EMU_SLVCFG_TM (i : Nat) : Fld := ⟨AXIS_EMU_SLVCFG i, 12, 10⟩
/-- R126. -/
def AXIS_EMU_STATUS (i : Nat) : Nat := 0x10000 + (i / 2) * 0x8000 + 0x520 + (i % 2) * 0x200
def AXIS_EMU_STATUS_BACKLOG (i : Nat) : Fld := ⟨AXIS_EMU_STATUS i, 16, 8⟩
def AXIS_EMU_STATUS_LANE_ERR (i : Nat) : Fld := ⟨AXIS_EMU_STATUS i, 6, 1⟩
def AXIS_EMU_STATUS_RATIO_ERR (i : Nat) : Fld := ⟨AXIS_EMU_STATUS i, 5, 1⟩
def AXIS_EMU_STATUS_FAULT (i : Nat) : Fld := ⟨AXIS_EMU_STATUS i, 4, 1⟩
def AXIS_EMU_STATUS_OVERSPEED (i : Nat) : Fld := ⟨AXIS_EMU_STATUS i, 3, 1⟩
def AXIS_EMU_STATUS_LATE (i : Nat) : Fld := ⟨AXIS_EMU_STATUS i, 2, 1⟩
def AXIS_EMU_STATUS_EDGE_FALLBACK (i : Nat) : Fld := ⟨AXIS_EMU_STATUS i, 1, 1⟩
def AXIS_EMU_STATUS_RUNNING (i : Nat) : Fld := ⟨AXIS_EMU_STATUS i, 0, 1⟩
/-- R123. -/
def AXIS_EMU_LOSTCNT (i : Nat) : Nat := 0x10000 + (i / 2) * 0x8000 + 0x524 + (i % 2) * 0x200
def AXIS_EMU_LOSTCNT_CNT (i : Nat) : Fld := ⟨AXIS_EMU_LOSTCNT i, 0, 32⟩
/-- R123. -/
def AXIS_EMU_SLVCNT (i : Nat) : Nat := 0x10000 + (i / 2) * 0x8000 + 0x528 + (i % 2) * 0x200
def AXIS_EMU_SLVCNT_ABORTED (i : Nat) : Fld := ⟨AXIS_EMU_SLVCNT i, 16, 16⟩
def AXIS_EMU_SLVCNT_ANSWERED (i : Nat) : Fld := ⟨AXIS_EMU_SLVCNT i, 0, 16⟩

/-- R304. -/
def ME_CTL (i : Nat) : Nat := 0x10000 + (i / 2) * 0x8000 + 0x800 + (i % 2) * 0x200
def ME_CTL_EN (i : Nat) : Fld := ⟨ME_CTL i, 31, 1⟩
def ME_CTL_ERESET (i : Nat) : Fld := ⟨ME_CTL i, 0, 1⟩
/-- R304. -/
def ME_STATUS (i : Nat) : Nat := 0x10000 + (i / 2) * 0x8000 + 0x804 + (i % 2) * 0x200
def ME_STATUS_STATE (i : Nat) : Fld := ⟨ME_STATUS i, 29, 3⟩
def ME_STATUS_INTRAP (i : Nat) : Fld := ⟨ME_STATUS i, 28, 1⟩
def ME_STATUS_IMAGE (i : Nat) : Fld := ⟨ME_STATUS i, 27, 1⟩
def ME_STATUS_REFUSED (i : Nat) : Fld := ⟨ME_STATUS i, 4, 1⟩
def ME_STATUS_LANE_ERR (i : Nat) : Fld := ⟨ME_STATUS i, 3, 1⟩
def ME_STATUS_COACHLOST (i : Nat) : Fld := ⟨ME_STATUS i, 2, 1⟩
def ME_STATUS_TRAPPED (i : Nat) : Fld := ⟨ME_STATUS i, 1, 1⟩
/-- R303. -/
def ME_ENTRY (i : Nat) : Nat := 0x10000 + (i / 2) * 0x8000 + 0x808 + (i % 2) * 0x200
def ME_ENTRY_ENTRY (i : Nat) : Fld := ⟨ME_ENTRY i, 0, 14⟩
/-- R303. -/
def ME_VEC (i : Nat) : Nat := 0x10000 + (i / 2) * 0x8000 + 0x80C + (i % 2) * 0x200
def ME_VEC_VEC (i : Nat) : Fld := ⟨ME_VEC i, 0, 14⟩
/-- R303. -/
def ME_EPC (i : Nat) : Nat := 0x10000 + (i / 2) * 0x8000 + 0x810 + (i % 2) * 0x200
def ME_EPC_EPC (i : Nat) : Fld := ⟨ME_EPC i, 0, 14⟩
/-- R303. -/
def ME_CAUSE (i : Nat) : Nat := 0x10000 + (i / 2) * 0x8000 + 0x814 + (i % 2) * 0x200
def ME_CAUSE_TRAPCNT (i : Nat) : Fld := ⟨ME_CAUSE i, 16, 16⟩
def ME_CAUSE_CAUSE (i : Nat) : Fld := ⟨ME_CAUSE i, 0, 8⟩
/-- R303. -/
def ME_TVAL (i : Nat) : Nat := 0x10000 + (i / 2) * 0x8000 + 0x818 + (i % 2) * 0x200
def ME_TVAL_TVAL (i : Nat) : Fld := ⟨ME_TVAL i, 0, 32⟩
/-- R303. -/
def ME_PC (i : Nat) : Nat := 0x10000 + (i / 2) * 0x8000 + 0x81C + (i % 2) * 0x200
def ME_PC_PC (i : Nat) : Fld := ⟨ME_PC i, 0, 14⟩
/-- R303. -/
def ME_CYC_LO (i : Nat) : Nat := 0x10000 + (i / 2) * 0x8000 + 0x820 + (i % 2) * 0x200
def ME_CYC_LO_CYC (i : Nat) : Fld := ⟨ME_CYC_LO i, 0, 32⟩
/-- R303. -/
def ME_CYC_HI (i : Nat) : Nat := 0x10000 + (i / 2) * 0x8000 + 0x824 + (i % 2) * 0x200
def ME_CYC_HI_CYC (i : Nat) : Fld := ⟨ME_CYC_HI i, 0, 32⟩
/-- R303. -/
def ME_IMADDR (i : Nat) : Nat := 0x10000 + (i / 2) * 0x8000 + 0x830 + (i % 2) * 0x200
def ME_IMADDR_BANK (i : Nat) : Fld := ⟨ME_IMADDR i, 14, 1⟩
def ME_IMADDR_WORD (i : Nat) : Fld := ⟨ME_IMADDR i, 0, 14⟩
/-- R303. -/
def ME_IMDATA_LO (i : Nat) : Nat := 0x10000 + (i / 2) * 0x8000 + 0x834 + (i % 2) * 0x200
def ME_IMDATA_LO_DATA (i : Nat) : Fld := ⟨ME_IMDATA_LO i, 0, 32⟩
/-- R303. -/
def ME_IMDATA_HI (i : Nat) : Nat := 0x10000 + (i / 2) * 0x8000 + 0x838 + (i % 2) * 0x200
def ME_IMDATA_HI_DATA (i : Nat) : Fld := ⟨ME_IMDATA_HI i, 0, 32⟩
/-- R303. -/
def ME_CALLRST (i : Nat) : Nat := 0x10000 + (i / 2) * 0x8000 + 0x8C0 + (i % 2) * 0x200
def ME_CALLRST_BASE (i : Nat) : Fld := ⟨ME_CALLRST i, 16, 16⟩
def ME_CALLRST_LIM (i : Nat) : Fld := ⟨ME_CALLRST i, 0, 16⟩

/-- R305. -/
def AGU_CFG (i j : Nat) : Nat := 0x10000 + (i / 2) * 0x8000 + 0x840 + (i % 2) * 0x200 + j * 0x10
def AGU_CFG_MODE (i j : Nat) : Fld := ⟨AGU_CFG i j, 16, 2⟩
def AGU_CFG_STEP (i j : Nat) : Fld := ⟨AGU_CFG i j, 2, 14⟩
/-- R303. -/
def AGU_BASE (i j : Nat) : Nat := 0x10000 + (i / 2) * 0x8000 + 0x844 + (i % 2) * 0x200 + j * 0x10
def AGU_BASE_BASE (i j : Nat) : Fld := ⟨AGU_BASE i j, 2, 30⟩
/-- R303. -/
def AGU_LEN (i j : Nat) : Nat := 0x10000 + (i / 2) * 0x8000 + 0x848 + (i % 2) * 0x200 + j * 0x10
def AGU_LEN_LEN (i j : Nat) : Fld := ⟨AGU_LEN i j, 2, 14⟩

/-- R502. -/
def LANE_CFG (i : Nat) : Nat := 0x10000 + (i / 128) * 0x8000 + 0xC00 + (i % 128) * 0x4
def LANE_CFG_KIND (i : Nat) : Fld := ⟨LANE_CFG i, 16, 3⟩
def LANE_CFG_INDEX (i : Nat) : Fld := ⟨LANE_CFG i, 8, 8⟩
def LANE_CFG_DRV (i : Nat) : Fld := ⟨LANE_CFG i, 4, 2⟩
def LANE_CFG_OD (i : Nat) : Fld := ⟨LANE_CFG i, 3, 1⟩
def LANE_CFG_SLOW (i : Nat) : Fld := ⟨LANE_CFG i, 2, 1⟩
def LANE_CFG_PULL (i : Nat) : Fld := ⟨LANE_CFG i, 0, 2⟩

/-- R503. -/
def QIO_BANKSTAT (i : Nat) : Nat := 0x10000 + i * 0x8000 + 0xE00
def QIO_BANKSTAT_FE_V33 (i : Nat) : Fld := ⟨QIO_BANKSTAT i, 9, 1⟩
def QIO_BANKSTAT_FE_GOOD (i : Nat) : Fld := ⟨QIO_BANKSTAT i, 8, 1⟩
def QIO_BANKSTAT_V33 (i : Nat) : Fld := ⟨QIO_BANKSTAT i, 4, 4⟩
def QIO_BANKSTAT_GOOD (i : Nat) : Fld := ⟨QIO_BANKSTAT i, 0, 4⟩

/-- R165. -/
def COACH_CTL (i : Nat) : Nat := 0x10000 + i * 0x8000 + 0x1000
def COACH_CTL_FLUSH (i : Nat) : Fld := ⟨COACH_CTL i, 1, 1⟩
def COACH_CTL_EN (i : Nat) : Fld := ⟨COACH_CTL i, 0, 1⟩
/-- R165. -/
def COACH_STATUS (i : Nat) : Nat := 0x10000 + i * 0x8000 + 0x1004
def COACH_STATUS_CFG_REFUSED (i : Nat) : Fld := ⟨COACH_STATUS i, 5, 1⟩
def COACH_STATUS_CAL_EXHAUSTED (i : Nat) : Fld := ⟨COACH_STATUS i, 4, 1⟩
def COACH_STATUS_AFULL (i : Nat) : Fld := ⟨COACH_STATUS i, 3, 1⟩
def COACH_STATUS_HFULL (i : Nat) : Fld := ⟨COACH_STATUS i, 2, 1⟩
def COACH_STATUS_LATE_SEEN (i : Nat) : Fld := ⟨COACH_STATUS i, 1, 1⟩
def COACH_STATUS_RUNNING (i : Nat) : Fld := ⟨COACH_STATUS i, 0, 1⟩
/-- R164. -/
def COACH_HOCC (i : Nat) : Nat := 0x10000 + i * 0x8000 + 0x1008
def COACH_HOCC_HIGH (i : Nat) : Fld := ⟨COACH_HOCC i, 16, 13⟩
def COACH_HOCC_OCC (i : Nat) : Fld := ⟨COACH_HOCC i, 0, 13⟩
/-- R164. -/
def COACH_AOCC (i : Nat) : Nat := 0x10000 + i * 0x8000 + 0x100C
def COACH_AOCC_HIGH (i : Nat) : Fld := ⟨COACH_AOCC i, 16, 11⟩
def COACH_AOCC_HELD (i : Nat) : Fld := ⟨COACH_AOCC i, 0, 11⟩
/-- R164. -/
def COACH_REGBASE (i : Nat) : Nat := 0x10000 + i * 0x8000 + 0x1010
def COACH_REGBASE_BASE (i : Nat) : Fld := ⟨COACH_REGBASE i, 0, 10⟩
/-- R164. -/
def COACH_REGSIZE (i : Nat) : Nat := 0x10000 + i * 0x8000 + 0x1014
def COACH_REGSIZE_SIZE (i : Nat) : Fld := ⟨COACH_REGSIZE i, 0, 8⟩
/-- R164. -/
def COACH_FREEBLK (i : Nat) : Nat := 0x10000 + i * 0x8000 + 0x1018
def COACH_FREEBLK_FREE (i : Nat) : Fld := ⟨COACH_FREEBLK i, 0, 18⟩
/-- R164. -/
def COACH_EDGEWIN (i : Nat) : Nat := 0x10000 + i * 0x8000 + 0x101C
def COACH_EDGEWIN_COUNTS (i : Nat) : Fld := ⟨COACH_EDGEWIN i, 0, 8⟩
/-- R164. -/
def COACH_PGRAN0 (i : Nat) : Nat := 0x10000 + i * 0x8000 + 0x1020
def COACH_PGRAN0_G3 (i : Nat) : Fld := ⟨COACH_PGRAN0 i, 24, 5⟩
def COACH_PGRAN0_G2 (i : Nat) : Fld := ⟨COACH_PGRAN0 i, 16, 5⟩
def COACH_PGRAN0_G1 (i : Nat) : Fld := ⟨COACH_PGRAN0 i, 8, 5⟩
def COACH_PGRAN0_G0 (i : Nat) : Fld := ⟨COACH_PGRAN0 i, 0, 5⟩
/-- R164. -/
def COACH_PGRAN1 (i : Nat) : Nat := 0x10000 + i * 0x8000 + 0x1024
def COACH_PGRAN1_G7 (i : Nat) : Fld := ⟨COACH_PGRAN1 i, 24, 5⟩
def COACH_PGRAN1_G6 (i : Nat) : Fld := ⟨COACH_PGRAN1 i, 16, 5⟩
def COACH_PGRAN1_G5 (i : Nat) : Fld := ⟨COACH_PGRAN1 i, 8, 5⟩
def COACH_PGRAN1_G4 (i : Nat) : Fld := ⟨COACH_PGRAN1 i, 0, 5⟩
/-- R164. -/
def COACH_LATECNT (i : Nat) : Nat := 0x10000 + i * 0x8000 + 0x1028
def COACH_LATECNT_CNT (i : Nat) : Fld := ⟨COACH_LATECNT i, 0, 32⟩
/-- R164. -/
def COACH_DISCCNT (i : Nat) : Nat := 0x10000 + i * 0x8000 + 0x102C
def COACH_DISCCNT_CNT (i : Nat) : Fld := ⟨COACH_DISCCNT i, 0, 32⟩
/-- R164. -/
def COACH_COLLCNT (i : Nat) : Nat := 0x10000 + i * 0x8000 + 0x1030
def COACH_COLLCNT_CNT (i : Nat) : Fld := ⟨COACH_COLLCNT i, 0, 32⟩
/-- R164. -/
def COACH_CALFULL (i : Nat) : Nat := 0x10000 + i * 0x8000 + 0x1034
def COACH_CALFULL_CNT (i : Nat) : Fld := ⟨COACH_CALFULL i, 0, 32⟩
/-- R164. -/
def COACH_REGION_WR (i : Nat) : Nat := 0x10000 + i * 0x8000 + 0x1038
def COACH_REGION_WR_CNT (i : Nat) : Fld := ⟨COACH_REGION_WR i, 0, 32⟩

/-- R167. -/
def CAR_CFG (i : Nat) : Nat := 0x10000 + (i / 2) * 0x8000 + 0x1200 + (i % 2) * 0x100
def CAR_CFG_MINGAP (i : Nat) : Fld := ⟨CAR_CFG i, 16, 16⟩
def CAR_CFG_TEMPLATE (i : Nat) : Fld := ⟨CAR_CFG i, 10, 6⟩
def CAR_CFG_REJ_EN (i : Nat) : Fld := ⟨CAR_CFG i, 8, 1⟩
def CAR_CFG_EN (i : Nat) : Fld := ⟨CAR_CFG i, 0, 1⟩
/-- R166. -/
def CAR_OFFSET_LO (i : Nat) : Nat := 0x10000 + (i / 2) * 0x8000 + 0x1204 + (i % 2) * 0x100
def CAR_OFFSET_LO_OFFSET (i : Nat) : Fld := ⟨CAR_OFFSET_LO i, 0, 32⟩
/-- R166. -/
def CAR_OFFSET_HI (i : Nat) : Nat := 0x10000 + (i / 2) * 0x8000 + 0x1208 + (i % 2) * 0x100
def CAR_OFFSET_HI_OFFSET (i : Nat) : Fld := ⟨CAR_OFFSET_HI i, 0, 32⟩
/-- R166. -/
def CAR_BACKLIM (i : Nat) : Nat := 0x10000 + (i / 2) * 0x8000 + 0x120C + (i % 2) * 0x100
def CAR_BACKLIM_COUNTS (i : Nat) : Fld := ⟨CAR_BACKLIM i, 0, 24⟩
/-- R166. -/
def CAR_REJENT0 (i : Nat) : Nat := 0x10000 + (i / 2) * 0x8000 + 0x1210 + (i % 2) * 0x100
def CAR_REJENT0_ENT (i : Nat) : Fld := ⟨CAR_REJENT0 i, 0, 32⟩
/-- R166. -/
def CAR_REJENT1 (i : Nat) : Nat := 0x10000 + (i / 2) * 0x8000 + 0x1214 + (i % 2) * 0x100
def CAR_REJENT1_ENT (i : Nat) : Fld := ⟨CAR_REJENT1 i, 0, 32⟩
/-- R166. -/
def CAR_REJENT2 (i : Nat) : Nat := 0x10000 + (i / 2) * 0x8000 + 0x1218 + (i % 2) * 0x100
def CAR_REJENT2_ENT (i : Nat) : Fld := ⟨CAR_REJENT2 i, 0, 32⟩
/-- R166. -/
def CAR_REJENT3 (i : Nat) : Nat := 0x10000 + (i / 2) * 0x8000 + 0x121C + (i % 2) * 0x100
def CAR_REJENT3_ENT (i : Nat) : Fld := ⟨CAR_REJENT3 i, 0, 32⟩
/-- R167. -/
def CAR_STATUS (i : Nat) : Nat := 0x10000 + (i / 2) * 0x8000 + 0x1220 + (i % 2) * 0x100
def CAR_STATUS_OPEN (i : Nat) : Fld := ⟨CAR_STATUS i, 16, 9⟩
def CAR_STATUS_REJQ (i : Nat) : Fld := ⟨CAR_STATUS i, 11, 5⟩
def CAR_STATUS_REJLOST (i : Nat) : Fld := ⟨CAR_STATUS i, 3, 1⟩
def CAR_STATUS_NOSLOT (i : Nat) : Fld := ⟨CAR_STATUS i, 2, 1⟩
def CAR_STATUS_UNEXTRAP_OPEN (i : Nat) : Fld := ⟨CAR_STATUS i, 1, 1⟩
def CAR_STATUS_ACTIVE (i : Nat) : Fld := ⟨CAR_STATUS i, 0, 1⟩
/-- R166. -/
def CAR_NOSLOTCNT (i : Nat) : Nat := 0x10000 + (i / 2) * 0x8000 + 0x1224 + (i % 2) * 0x100
def CAR_NOSLOTCNT_CNT (i : Nat) : Fld := ⟨CAR_NOSLOTCNT i, 0, 32⟩
/-- R166. -/
def CAR_REJLOSTCNT (i : Nat) : Nat := 0x10000 + (i / 2) * 0x8000 + 0x1228 + (i % 2) * 0x100
def CAR_REJLOSTCNT_CNT (i : Nat) : Fld := ⟨CAR_REJLOSTCNT i, 0, 32⟩
/-- R166. -/
def CAR_OPENCNT (i : Nat) : Nat := 0x10000 + (i / 2) * 0x8000 + 0x122C + (i % 2) * 0x100
def CAR_OPENCNT_CNT (i : Nat) : Fld := ⟨CAR_OPENCNT i, 0, 32⟩
/-- R166. -/
def CAR_BOUNCECNT (i : Nat) : Nat := 0x10000 + (i / 2) * 0x8000 + 0x1230 + (i % 2) * 0x100
def CAR_BOUNCECNT_CNT (i : Nat) : Fld := ⟨CAR_BOUNCECNT i, 0, 32⟩
/-- R166. -/
def CAR_FLAGSET (i : Nat) : Nat := 0x10000 + (i / 2) * 0x8000 + 0x1234 + (i % 2) * 0x100
def CAR_FLAGSET_CAR (i : Nat) : Fld := ⟨CAR_FLAGSET i, 16, 8⟩
def CAR_FLAGSET_SET (i : Nat) : Fld := ⟨CAR_FLAGSET i, 8, 8⟩
def CAR_FLAGSET_CLR (i : Nat) : Fld := ⟨CAR_FLAGSET i, 0, 8⟩
/-- R166. -/
def CAR_CLOSE (i : Nat) : Nat := 0x10000 + (i / 2) * 0x8000 + 0x1238 + (i % 2) * 0x100
def CAR_CLOSE_CAR (i : Nat) : Fld := ⟨CAR_CLOSE i, 0, 8⟩
/-- R166. -/
def CAR_CARSEL (i : Nat) : Nat := 0x10000 + (i / 2) * 0x8000 + 0x123C + (i % 2) * 0x100
def CAR_CARSEL_CAR (i : Nat) : Fld := ⟨CAR_CARSEL i, 0, 8⟩
/-- R166. -/
def CAR_VBASE_LO (i : Nat) : Nat := 0x10000 + (i / 2) * 0x8000 + 0x1240 + (i % 2) * 0x100
def CAR_VBASE_LO_BASE (i : Nat) : Fld := ⟨CAR_VBASE_LO i, 0, 32⟩
/-- R166. -/
def CAR_VBASE_HI (i : Nat) : Nat := 0x10000 + (i / 2) * 0x8000 + 0x1244 + (i % 2) * 0x100
def CAR_VBASE_HI_BASE (i : Nat) : Fld := ⟨CAR_VBASE_HI i, 0, 32⟩
/-- R166. -/
def CAR_VSTAT (i : Nat) : Nat := 0x10000 + (i / 2) * 0x8000 + 0x1248 + (i % 2) * 0x100
def CAR_VSTAT_OPEN (i : Nat) : Fld := ⟨CAR_VSTAT i, 31, 1⟩
def CAR_VSTAT_UNEXTRAP (i : Nat) : Fld := ⟨CAR_VSTAT i, 30, 1⟩
def CAR_VSTAT_FLAGS (i : Nat) : Fld := ⟨CAR_VSTAT i, 16, 8⟩
def CAR_VSTAT_CURSOR (i : Nat) : Fld := ⟨CAR_VSTAT i, 0, 13⟩

/-- R168. -/
def TPL_PAGE0 (i : Nat) : Nat := 0x10000 + (i / 64) * 0x8000 + 0x1800 + (i % 64) * 0x20
def TPL_PAGE0_BASE (i : Nat) : Fld := ⟨TPL_PAGE0 i, 0, 20⟩
/-- R168. -/
def TPL_PAGE1 (i : Nat) : Nat := 0x10000 + (i / 64) * 0x8000 + 0x1804 + (i % 64) * 0x20
def TPL_PAGE1_BASE (i : Nat) : Fld := ⟨TPL_PAGE1 i, 0, 20⟩
/-- R168. -/
def TPL_LEN (i : Nat) : Nat := 0x10000 + (i / 64) * 0x8000 + 0x1808 + (i % 64) * 0x20
def TPL_LEN_LEN1 (i : Nat) : Fld := ⟨TPL_LEN i, 16, 13⟩
def TPL_LEN_LEN0 (i : Nat) : Fld := ⟨TPL_LEN i, 0, 13⟩
/-- R168. -/
def TPL_STATUS (i : Nat) : Nat := 0x10000 + (i / 64) * 0x8000 + 0x180C + (i % 64) * 0x20
def TPL_STATUS_BADIDX (i : Nat) : Fld := ⟨TPL_STATUS i, 16, 12⟩
def TPL_STATUS_CHECKING (i : Nat) : Fld := ⟨TPL_STATUS i, 14, 1⟩
def TPL_STATUS_USERS (i : Nat) : Fld := ⟨TPL_STATUS i, 4, 10⟩
def TPL_STATUS_OLD_BUSY (i : Nat) : Fld := ⟨TPL_STATUS i, 3, 1⟩
def TPL_STATUS_WR_DROP (i : Nat) : Fld := ⟨TPL_STATUS i, 2, 1⟩
def TPL_STATUS_BAD (i : Nat) : Fld := ⟨TPL_STATUS i, 1, 1⟩
def TPL_STATUS_ACTIVE (i : Nat) : Fld := ⟨TPL_STATUS i, 0, 1⟩
/-- R168. -/
def TPL_CMD (i : Nat) : Nat := 0x10000 + (i / 64) * 0x8000 + 0x1810 + (i % 64) * 0x20
def TPL_CMD_SWAP (i : Nat) : Fld := ⟨TPL_CMD i, 0, 1⟩

/-- R200. -/
def TC_CTL (i : Nat) : Nat := 0x10000 + (i / 256) * 0x8000 + 0x2000 + (i % 256) * 0x20
def TC_CTL_EN (i : Nat) : Fld := ⟨TC_CTL i, 31, 1⟩
def TC_CTL_MODE (i : Nat) : Fld := ⟨TC_CTL i, 28, 3⟩
def TC_CTL_DBGFRZ (i : Nat) : Fld := ⟨TC_CTL i, 27, 1⟩
def TC_CTL_OWNER (i : Nat) : Fld := ⟨TC_CTL i, 26, 1⟩
def TC_CTL_OUTACT0 (i : Nat) : Fld := ⟨TC_CTL i, 24, 2⟩
def TC_CTL_OUTACT1 (i : Nat) : Fld := ⟨TC_CTL i, 22, 2⟩
def TC_CTL_OUTEN (i : Nat) : Fld := ⟨TC_CTL i, 21, 1⟩
def TC_CTL_OUTINIT (i : Nat) : Fld := ⟨TC_CTL i, 20, 1⟩
def TC_CTL_LANE (i : Nat) : Fld := ⟨TC_CTL i, 13, 7⟩
def TC_CTL_CQPOL (i : Nat) : Fld := ⟨TC_CTL i, 12, 1⟩
def TC_CTL_WIDECMP (i : Nat) : Fld := ⟨TC_CTL i, 11, 1⟩
def TC_CTL_RECCAPT (i : Nat) : Fld := ⟨TC_CTL i, 7, 1⟩
def TC_CTL_RECOVF (i : Nat) : Fld := ⟨TC_CTL i, 6, 1⟩
def TC_CTL_RECM1 (i : Nat) : Fld := ⟨TC_CTL i, 5, 1⟩
def TC_CTL_RECM0 (i : Nat) : Fld := ⟨TC_CTL i, 4, 1⟩
/-- R201. -/
def TC_CLK (i : Nat) : Nat := 0x10000 + (i / 256) * 0x8000 + 0x2004 + (i % 256) * 0x20
def TC_CLK_SRC (i : Nat) : Fld := ⟨TC_CLK i, 29, 3⟩
def TC_CLK_AXSEL (i : Nat) : Fld := ⟨TC_CLK i, 26, 3⟩
def TC_CLK_CEDGE (i : Nat) : Fld := ⟨TC_CLK i, 24, 2⟩
def TC_CLK_TRIGFN (i : Nat) : Fld := ⟨TC_CLK i, 21, 3⟩
def TC_CLK_CLANE (i : Nat) : Fld := ⟨TC_CLK i, 14, 7⟩
def TC_CLK_CAPIN (i : Nat) : Fld := ⟨TC_CLK i, 13, 1⟩
def TC_CLK_DIRCNT (i : Nat) : Fld := ⟨TC_CLK i, 12, 1⟩
def TC_CLK_PRE (i : Nat) : Fld := ⟨TC_CLK i, 0, 12⟩
/-- R199. -/
def TC_CNT (i : Nat) : Nat := 0x10000 + (i / 256) * 0x8000 + 0x2008 + (i % 256) * 0x20
def TC_CNT_CNT (i : Nat) : Fld := ⟨TC_CNT i, 0, 32⟩
/-- R199. -/
def TC_CMP0 (i : Nat) : Nat := 0x10000 + (i / 256) * 0x8000 + 0x200C + (i % 256) * 0x20
def TC_CMP0_CMP (i : Nat) : Fld := ⟨TC_CMP0 i, 0, 32⟩
/-- R199. -/
def TC_CMP1 (i : Nat) : Nat := 0x10000 + (i / 256) * 0x8000 + 0x2010 + (i % 256) * 0x20
def TC_CMP1_CMP (i : Nat) : Fld := ⟨TC_CMP1 i, 0, 32⟩
/-- R199. -/
def TC_CNTLAT (i : Nat) : Nat := 0x10000 + (i / 256) * 0x8000 + 0x2014 + (i % 256) * 0x20
def TC_CNTLAT_CNT (i : Nat) : Fld := ⟨TC_CNTLAT i, 0, 32⟩
/-- R202. -/
def TC_STATUS (i : Nat) : Nat := 0x10000 + (i / 256) * 0x8000 + 0x2018 + (i % 256) * 0x20
def TC_STATUS_CAPOVFCNT (i : Nat) : Fld := ⟨TC_STATUS i, 24, 8⟩
def TC_STATUS_CQOCC (i : Nat) : Fld := ⟨TC_STATUS i, 17, 3⟩
def TC_STATUS_RUN (i : Nat) : Fld := ⟨TC_STATUS i, 16, 1⟩
def TC_STATUS_FROZEN (i : Nat) : Fld := ⟨TC_STATUS i, 11, 1⟩
def TC_STATUS_LOADHIT (i : Nat) : Fld := ⟨TC_STATUS i, 10, 1⟩
def TC_STATUS_SHORTCYC (i : Nat) : Fld := ⟨TC_STATUS i, 9, 1⟩
def TC_STATUS_CFG_ERR (i : Nat) : Fld := ⟨TC_STATUS i, 8, 1⟩
def TC_STATUS_CAPOVF (i : Nat) : Fld := ⟨TC_STATUS i, 7, 1⟩
def TC_STATUS_OUT (i : Nat) : Fld := ⟨TC_STATUS i, 6, 1⟩
def TC_STATUS_INCSAT (i : Nat) : Fld := ⟨TC_STATUS i, 5, 1⟩
def TC_STATUS_CHAINED (i : Nat) : Fld := ⟨TC_STATUS i, 4, 1⟩
def TC_STATUS_OVF (i : Nat) : Fld := ⟨TC_STATUS i, 3, 1⟩
def TC_STATUS_MATCH1 (i : Nat) : Fld := ⟨TC_STATUS i, 2, 1⟩
def TC_STATUS_MATCH0 (i : Nat) : Fld := ⟨TC_STATUS i, 1, 1⟩
def TC_STATUS_OVERRUN (i : Nat) : Fld := ⟨TC_STATUS i, 0, 1⟩
/-- R203. -/
def TC_CMD (i : Nat) : Nat := 0x10000 + (i / 256) * 0x8000 + 0x201C + (i % 256) * 0x20
def TC_CMD_QCLR (i : Nat) : Fld := ⟨TC_CMD i, 4, 1⟩
def TC_CMD_CAPT (i : Nat) : Fld := ⟨TC_CMD i, 3, 1⟩
def TC_CMD_RESTART (i : Nat) : Fld := ⟨TC_CMD i, 2, 1⟩
def TC_CMD_STOP (i : Nat) : Fld := ⟨TC_CMD i, 1, 1⟩
def TC_CMD_START (i : Nat) : Fld := ⟨TC_CMD i, 0, 1⟩

/-- R199. -/
def TCV_CAPCNT (i : Nat) : Nat := 0x10000 + (i / 256) * 0x8000 + 0x4000 + (i % 256) * 0x10
def TCV_CAPCNT_CNT (i : Nat) : Fld := ⟨TCV_CAPCNT i, 0, 32⟩
/-- R203. -/
def TCV_CAPINFO (i : Nat) : Nat := 0x10000 + (i / 256) * 0x8000 + 0x4004 + (i % 256) * 0x10
def TCV_CAPINFO_FINE (i : Nat) : Fld := ⟨TCV_CAPINFO i, 24, 6⟩
def TCV_CAPINFO_SRC (i : Nat) : Fld := ⟨TCV_CAPINFO i, 16, 3⟩
def TCV_CAPINFO_VALID (i : Nat) : Fld := ⟨TCV_CAPINFO i, 7, 1⟩
def TCV_CAPINFO_CHAIN (i : Nat) : Fld := ⟨TCV_CAPINFO i, 6, 1⟩
def TCV_CAPINFO_FROZEN (i : Nat) : Fld := ⟨TCV_CAPINFO i, 5, 1⟩
def TCV_CAPINFO_FINE_UNCAL (i : Nat) : Fld := ⟨TCV_CAPINFO i, 4, 1⟩
def TCV_CAPINFO_CLOCK_SWITCH (i : Nat) : Fld := ⟨TCV_CAPINFO i, 3, 1⟩
/-- R199. -/
def TCV_CAPTIME_LO (i : Nat) : Nat := 0x10000 + (i / 256) * 0x8000 + 0x4008 + (i % 256) * 0x10
def TCV_CAPTIME_LO_TIME (i : Nat) : Fld := ⟨TCV_CAPTIME_LO i, 0, 32⟩
/-- R199. -/
def TCV_CAPTIME_HI (i : Nat) : Nat := 0x10000 + (i / 256) * 0x8000 + 0x400C + (i % 256) * 0x10
def TCV_CAPTIME_HI_TIME (i : Nat) : Fld := ⟨TCV_CAPTIME_HI i, 0, 32⟩

/-- R204. -/
def SINKSEL_W0 (i : Nat) : Nat := 0x10000 + (i / 452) * 0x8000 + 0x5000 + (i % 452) * 0x8
def SINKSEL_W0_EN1 (i : Nat) : Fld := ⟨SINKSEL_W0 i, 31, 1⟩
def SINKSEL_W0_SRC1 (i : Nat) : Fld := ⟨SINKSEL_W0 i, 16, 12⟩
def SINKSEL_W0_EN0 (i : Nat) : Fld := ⟨SINKSEL_W0 i, 15, 1⟩
def SINKSEL_W0_SRC0 (i : Nat) : Fld := ⟨SINKSEL_W0 i, 0, 12⟩
/-- R204. -/
def SINKSEL_W1 (i : Nat) : Nat := 0x10000 + (i / 452) * 0x8000 + 0x5004 + (i % 452) * 0x8
def SINKSEL_W1_EN3 (i : Nat) : Fld := ⟨SINKSEL_W1 i, 31, 1⟩
def SINKSEL_W1_SRC3 (i : Nat) : Fld := ⟨SINKSEL_W1 i, 16, 12⟩
def SINKSEL_W1_EN2 (i : Nat) : Fld := ⟨SINKSEL_W1 i, 15, 1⟩
def SINKSEL_W1_SRC2 (i : Nat) : Fld := ⟨SINKSEL_W1 i, 0, 12⟩

/-- R204. -/
def XLINE_EXPORT (i : Nat) : Nat := 0x10000 + (i / 64) * 0x8000 + 0x6000 + (i % 64) * 0x4
def XLINE_EXPORT_EN (i : Nat) : Fld := ⟨XLINE_EXPORT i, 15, 1⟩
def XLINE_EXPORT_SRC (i : Nat) : Fld := ⟨XLINE_EXPORT i, 0, 12⟩

/-- R204. -/
def XBAR_MERGE (i : Nat) : Nat := 0x10000 + i * 0x8000 + 0x6100
def XBAR_MERGE_CNT (i : Nat) : Fld := ⟨XBAR_MERGE i, 0, 32⟩

/-- R204. -/
def CONVW_CONVW (i : Nat) : Nat := 0x10000 + (i / 4) * 0x8000 + 0x6104 + (i % 4) * 0x4
def CONVW_CONVW_W (i : Nat) : Fld := ⟨CONVW_CONVW i, 0, 8⟩

/-- R225. -/
def FEQ_CTL (i : Nat) : Nat := 0x10000 + i * 0x8000 + 0x6400
def FEQ_CTL_DISABLE_ALL (i : Nat) : Fld := ⟨FEQ_CTL i, 0, 1⟩

/-- R225. -/
def FEQIDLE_IDLE (i : Nat) : Nat := 0x10000 + (i / 4) * 0x8000 + 0x6410 + (i % 4) * 0x4
def FEQIDLE_IDLE_IDLE (i : Nat) : Fld := ⟨FEQIDLE_IDLE i, 0, 32⟩

/-- R226. -/
def FE_CTL (i : Nat) : Nat := 0x10000 + (i / 64) * 0x8000 + 0x6800 + (i % 64) * 0x40
def FE_CTL_EN (i : Nat) : Fld := ⟨FE_CTL i, 31, 1⟩
def FE_CTL_MODE (i : Nat) : Fld := ⟨FE_CTL i, 29, 2⟩
def FE_CTL_POL (i : Nat) : Fld := ⟨FE_CTL i, 28, 1⟩
def FE_CTL_PAIR (i : Nat) : Fld := ⟨FE_CTL i, 27, 1⟩
def FE_CTL_MPOL (i : Nat) : Fld := ⟨FE_CTL i, 26, 1⟩
def FE_CTL_RETRIG (i : Nat) : Fld := ⟨FE_CTL i, 25, 1⟩
def FE_CTL_TRIGFN (i : Nat) : Fld := ⟨FE_CTL i, 22, 2⟩
def FE_CTL_DBGRUN (i : Nat) : Fld := ⟨FE_CTL i, 21, 1⟩
def FE_CTL_OWNER (i : Nat) : Fld := ⟨FE_CTL i, 20, 1⟩
def FE_CTL_RECDONE (i : Nat) : Fld := ⟨FE_CTL i, 19, 1⟩
def FE_CTL_RECSUP (i : Nat) : Fld := ⟨FE_CTL i, 18, 1⟩
/-- R225. -/
def FE_PER (i : Nat) : Nat := 0x10000 + (i / 64) * 0x8000 + 0x6804 + (i % 64) * 0x40
def FE_PER_PER (i : Nat) : Fld := ⟨FE_PER i, 0, 32⟩
/-- R225. -/
def FE_WID (i : Nat) : Nat := 0x10000 + (i / 64) * 0x8000 + 0x6808 + (i % 64) * 0x40
def FE_WID_WID (i : Nat) : Fld := ⟨FE_WID i, 0, 32⟩
/-- R227. -/
def FE_FINE (i : Nat) : Nat := 0x10000 + (i / 64) * 0x8000 + 0x680C + (i % 64) * 0x40
def FE_FINE_IMM (i : Nat) : Fld := ⟨FE_FINE i, 31, 1⟩
def FE_FINE_PERF (i : Nat) : Fld := ⟨FE_FINE i, 8, 6⟩
def FE_FINE_WIDF (i : Nat) : Fld := ⟨FE_FINE i, 0, 6⟩
/-- R225. -/
def FE_BCNT (i : Nat) : Nat := 0x10000 + (i / 64) * 0x8000 + 0x6810 + (i % 64) * 0x40
def FE_BCNT_BCNT (i : Nat) : Fld := ⟨FE_BCNT i, 0, 16⟩
/-- R225. -/
def FE_PULSE (i : Nat) : Nat := 0x10000 + (i / 64) * 0x8000 + 0x6814 + (i % 64) * 0x40
def FE_PULSE_DT (i : Nat) : Fld := ⟨FE_PULSE i, 16, 16⟩
def FE_PULSE_MINPW (i : Nat) : Fld := ⟨FE_PULSE i, 0, 16⟩
/-- R225. -/
def FE_TDLY (i : Nat) : Nat := 0x10000 + (i / 64) * 0x8000 + 0x6818 + (i % 64) * 0x40
def FE_TDLY_TICKS (i : Nat) : Fld := ⟨FE_TDLY i, 6, 26⟩
def FE_TDLY_FINE (i : Nat) : Fld := ⟨FE_TDLY i, 0, 6⟩
/-- R227. -/
def FE_CMD (i : Nat) : Nat := 0x10000 + (i / 64) * 0x8000 + 0x681C + (i % 64) * 0x40
def FE_CMD_CLRCNT (i : Nat) : Fld := ⟨FE_CMD i, 3, 1⟩
def FE_CMD_RECAL (i : Nat) : Fld := ⟨FE_CMD i, 2, 1⟩
def FE_CMD_STOP (i : Nat) : Fld := ⟨FE_CMD i, 1, 1⟩
def FE_CMD_START (i : Nat) : Fld := ⟨FE_CMD i, 0, 1⟩
/-- R228. -/
def FE_STATUS (i : Nat) : Nat := 0x10000 + (i / 64) * 0x8000 + 0x6820 + (i % 64) * 0x40
def FE_STATUS_CLKSTOP (i : Nat) : Fld := ⟨FE_STATUS i, 15, 1⟩
def FE_STATUS_FROZEN (i : Nat) : Fld := ⟨FE_STATUS i, 14, 1⟩
def FE_STATUS_PAIRED (i : Nat) : Fld := ⟨FE_STATUS i, 13, 1⟩
def FE_STATUS_FINE_QUANT (i : Nat) : Fld := ⟨FE_STATUS i, 12, 1⟩
def FE_STATUS_CAL_STALE (i : Nat) : Fld := ⟨FE_STATUS i, 11, 1⟩
def FE_STATUS_CAL_DEFER (i : Nat) : Fld := ⟨FE_STATUS i, 10, 1⟩
def FE_STATUS_LINE (i : Nat) : Fld := ⟨FE_STATUS i, 9, 1⟩
def FE_STATUS_SHPEND (i : Nat) : Fld := ⟨FE_STATUS i, 8, 1⟩
def FE_STATUS_SHORTCYC (i : Nat) : Fld := ⟨FE_STATUS i, 7, 1⟩
def FE_STATUS_STRETCHED (i : Nat) : Fld := ⟨FE_STATUS i, 6, 1⟩
def FE_STATUS_SUPPRESSED (i : Nat) : Fld := ⟨FE_STATUS i, 5, 1⟩
def FE_STATUS_CFG_ERR (i : Nat) : Fld := ⟨FE_STATUS i, 4, 1⟩
def FE_STATUS_DONE (i : Nat) : Fld := ⟨FE_STATUS i, 3, 1⟩
def FE_STATUS_OUT (i : Nat) : Fld := ⟨FE_STATUS i, 2, 1⟩
def FE_STATUS_IDLE (i : Nat) : Fld := ⟨FE_STATUS i, 1, 1⟩
def FE_STATUS_RUN (i : Nat) : Fld := ⟨FE_STATUS i, 0, 1⟩
/-- R225. -/
def FE_SUPCNT (i : Nat) : Nat := 0x10000 + (i / 64) * 0x8000 + 0x6824 + (i % 64) * 0x40
def FE_SUPCNT_CNT (i : Nat) : Fld := ⟨FE_SUPCNT i, 0, 32⟩
/-- R225. -/
def FE_STRCNT (i : Nat) : Nat := 0x10000 + (i / 64) * 0x8000 + 0x6828 + (i % 64) * 0x40
def FE_STRCNT_CNT (i : Nat) : Fld := ⟨FE_STRCNT i, 0, 32⟩
/-- R225. -/
def FE_IGNCNT (i : Nat) : Nat := 0x10000 + (i / 64) * 0x8000 + 0x682C + (i % 64) * 0x40
def FE_IGNCNT_CNT (i : Nat) : Fld := ⟨FE_IGNCNT i, 0, 32⟩
/-- R225. -/
def FE_BLEFT (i : Nat) : Nat := 0x10000 + (i / 64) * 0x8000 + 0x6830 + (i % 64) * 0x40
def FE_BLEFT_LEFT (i : Nat) : Fld := ⟨FE_BLEFT i, 0, 17⟩

/-- R261. -/
def IBX_CTL (i : Nat) : Nat := 0x10000 + (i / 16) * 0x8000 + 0x7800 + (i % 16) * 0x80
def IBX_CTL_EN (i : Nat) : Fld := ⟨IBX_CTL i, 31, 1⟩
def IBX_CTL_DBGFRZ (i : Nat) : Fld := ⟨IBX_CTL i, 30, 1⟩
def IBX_CTL_OWNER (i : Nat) : Fld := ⟨IBX_CTL i, 29, 1⟩
def IBX_CTL_CONT0 (i : Nat) : Fld := ⟨IBX_CTL i, 27, 2⟩
def IBX_CTL_CONT1 (i : Nat) : Fld := ⟨IBX_CTL i, 25, 2⟩
def IBX_CTL_CKEN (i : Nat) : Fld := ⟨IBX_CTL i, 24, 1⟩
def IBX_CTL_CKPH (i : Nat) : Fld := ⟨IBX_CTL i, 23, 1⟩
def IBX_CTL_CKINIT (i : Nat) : Fld := ⟨IBX_CTL i, 22, 1⟩
def IBX_CTL_TXSRC (i : Nat) : Fld := ⟨IBX_CTL i, 21, 1⟩
def IBX_CTL_RXSRC (i : Nat) : Fld := ⟨IBX_CTL i, 20, 1⟩
def IBX_CTL_RECSTOP (i : Nat) : Fld := ⟨IBX_CTL i, 19, 1⟩
def IBX_CTL_RECSTALL (i : Nat) : Fld := ⟨IBX_CTL i, 18, 1⟩
/-- R260. -/
def IBX_GROUP (i : Nat) : Nat := 0x10000 + (i / 16) * 0x8000 + 0x7804 + (i % 16) * 0x80
def IBX_GROUP_CKLANE (i : Nat) : Fld := ⟨IBX_GROUP i, 16, 7⟩
def IBX_GROUP_WIDTH (i : Nat) : Fld := ⟨IBX_GROUP i, 8, 5⟩
def IBX_GROUP_BASE (i : Nat) : Fld := ⟨IBX_GROUP i, 0, 7⟩
/-- R262. -/
def IBX_CMD (i : Nat) : Nat := 0x10000 + (i / 16) * 0x8000 + 0x7808 + (i % 16) * 0x80
def IBX_CMD_CONDCLR (i : Nat) : Fld := ⟨IBX_CMD i, 6, 1⟩
def IBX_CMD_FLUSHRX (i : Nat) : Fld := ⟨IBX_CMD i, 5, 1⟩
def IBX_CMD_FLUSHTX (i : Nat) : Fld := ⟨IBX_CMD i, 4, 1⟩
def IBX_CMD_CLRSHIFT (i : Nat) : Fld := ⟨IBX_CMD i, 3, 1⟩
def IBX_CMD_STOP (i : Nat) : Fld := ⟨IBX_CMD i, 1, 1⟩
def IBX_CMD_START (i : Nat) : Fld := ⟨IBX_CMD i, 0, 1⟩
/-- R262. -/
def IBX_STATUS (i : Nat) : Nat := 0x10000 + (i / 16) * 0x8000 + 0x780C + (i % 16) * 0x80
def IBX_STATUS_STATE (i : Nat) : Fld := ⟨IBX_STATUS i, 29, 3⟩
def IBX_STATUS_CAUSE (i : Nat) : Fld := ⟨IBX_STATUS i, 26, 3⟩
def IBX_STATUS_STALLON (i : Nat) : Fld := ⟨IBX_STATUS i, 24, 2⟩
def IBX_STATUS_CODE (i : Nat) : Fld := ⟨IBX_STATUS i, 16, 8⟩
def IBX_STATUS_TXLVL (i : Nat) : Fld := ⟨IBX_STATUS i, 12, 4⟩
def IBX_STATUS_RXLVL (i : Nat) : Fld := ⟨IBX_STATUS i, 8, 4⟩
def IBX_STATUS_HO_ERR (i : Nat) : Fld := ⟨IBX_STATUS i, 7, 1⟩
def IBX_STATUS_HO_DONE (i : Nat) : Fld := ⟨IBX_STATUS i, 6, 1⟩
def IBX_STATUS_STR_ERR (i : Nat) : Fld := ⟨IBX_STATUS i, 5, 1⟩
def IBX_STATUS_CONDOVF (i : Nat) : Fld := ⟨IBX_STATUS i, 4, 1⟩
def IBX_STATUS_LANE_ERR (i : Nat) : Fld := ⟨IBX_STATUS i, 3, 1⟩
def IBX_STATUS_CFG_ERR (i : Nat) : Fld := ⟨IBX_STATUS i, 2, 1⟩
def IBX_STATUS_REFUSED (i : Nat) : Fld := ⟨IBX_STATUS i, 1, 1⟩
def IBX_STATUS_STALL_SEEN (i : Nat) : Fld := ⟨IBX_STATUS i, 0, 1⟩
/-- R260. -/
def IBX_PC (i : Nat) : Nat := 0x10000 + (i / 16) * 0x8000 + 0x7810 + (i % 16) * 0x80
def IBX_PC_PC (i : Nat) : Fld := ⟨IBX_PC i, 0, 6⟩
/-- R260. -/
def IBX_PADDR (i : Nat) : Nat := 0x10000 + (i / 16) * 0x8000 + 0x7814 + (i % 16) * 0x80
def IBX_PADDR_PADDR (i : Nat) : Fld := ⟨IBX_PADDR i, 0, 6⟩
/-- R260. -/
def IBX_PDATA (i : Nat) : Nat := 0x10000 + (i / 16) * 0x8000 + 0x7818 + (i % 16) * 0x80
def IBX_PDATA_WORD (i : Nat) : Fld := ⟨IBX_PDATA i, 0, 24⟩
/-- R260. -/
def IBX_PININIT (i : Nat) : Nat := 0x10000 + (i / 16) * 0x8000 + 0x781C + (i % 16) * 0x80
def IBX_PININIT_PIN (i : Nat) : Fld := ⟨IBX_PININIT i, 0, 32⟩
/-- R260. -/
def IBX_DIRINIT (i : Nat) : Nat := 0x10000 + (i / 16) * 0x8000 + 0x7820 + (i % 16) * 0x80
def IBX_DIRINIT_DIR (i : Nat) : Fld := ⟨IBX_DIRINIT i, 0, 32⟩
/-- R260. -/
def IBX_TXDATA (i : Nat) : Nat := 0x10000 + (i / 16) * 0x8000 + 0x7824 + (i % 16) * 0x80
def IBX_TXDATA_DATA (i : Nat) : Fld := ⟨IBX_TXDATA i, 0, 32⟩
/-- R260. -/
def IBX_RXDATA (i : Nat) : Nat := 0x10000 + (i / 16) * 0x8000 + 0x7828 + (i % 16) * 0x80
def IBX_RXDATA_DATA (i : Nat) : Fld := ⟨IBX_RXDATA i, 0, 32⟩
/-- R260. -/
def IBX_S0 (i : Nat) : Nat := 0x10000 + (i / 16) * 0x8000 + 0x7830 + (i % 16) * 0x80
def IBX_S0_S (i : Nat) : Fld := ⟨IBX_S0 i, 0, 32⟩
/-- R260. -/
def IBX_S1 (i : Nat) : Nat := 0x10000 + (i / 16) * 0x8000 + 0x7834 + (i % 16) * 0x80
def IBX_S1_S (i : Nat) : Fld := ⟨IBX_S1 i, 0, 32⟩
/-- R260. -/
def IBX_U (i : Nat) : Nat := 0x10000 + (i / 16) * 0x8000 + 0x7838 + (i % 16) * 0x80
def IBX_U_U (i : Nat) : Fld := ⟨IBX_U i, 0, 32⟩
/-- R260. -/
def IBX_V (i : Nat) : Nat := 0x10000 + (i / 16) * 0x8000 + 0x783C + (i % 16) * 0x80
def IBX_V_V (i : Nat) : Fld := ⟨IBX_V i, 0, 32⟩
/-- R260. -/
def IBX_LOOP (i : Nat) : Nat := 0x10000 + (i / 16) * 0x8000 + 0x7840 + (i % 16) * 0x80
def IBX_LOOP_K1 (i : Nat) : Fld := ⟨IBX_LOOP i, 16, 16⟩
def IBX_LOOP_K0 (i : Nat) : Fld := ⟨IBX_LOOP i, 0, 16⟩
/-- R263. -/
def IBX_SHCNT (i : Nat) : Nat := 0x10000 + (i / 16) * 0x8000 + 0x7844 + (i % 16) * 0x80
def IBX_SHCNT_PEND (i : Nat) : Fld := ⟨IBX_SHCNT i, 16, 16⟩
def IBX_SHCNT_N1 (i : Nat) : Fld := ⟨IBX_SHCNT i, 8, 6⟩
def IBX_SHCNT_N0 (i : Nat) : Fld := ⟨IBX_SHCNT i, 0, 6⟩
/-- R263. -/
def IBX_HOCTL (i : Nat) : Nat := 0x10000 + (i / 16) * 0x8000 + 0x7848 + (i % 16) * 0x80
def IBX_HOCTL_GO (i : Nat) : Fld := ⟨IBX_HOCTL i, 31, 1⟩
def IBX_HOCTL_TAKEFIFO (i : Nat) : Fld := ⟨IBX_HOCTL i, 5, 1⟩
def IBX_HOCTL_TAKESTATE (i : Nat) : Fld := ⟨IBX_HOCTL i, 4, 1⟩
def IBX_HOCTL_FROM (i : Nat) : Fld := ⟨IBX_HOCTL i, 0, 4⟩
/-- R260. -/
def IBX_TXS_ADDR (i : Nat) : Nat := 0x10000 + (i / 16) * 0x8000 + 0x784C + (i % 16) * 0x80
def IBX_TXS_ADDR_ADDR (i : Nat) : Fld := ⟨IBX_TXS_ADDR i, 4, 22⟩
/-- R260. -/
def IBX_TXS_LEN (i : Nat) : Nat := 0x10000 + (i / 16) * 0x8000 + 0x7850 + (i % 16) * 0x80
def IBX_TXS_LEN_LEN (i : Nat) : Fld := ⟨IBX_TXS_LEN i, 0, 24⟩
/-- R263. -/
def IBX_TXS_CTL (i : Nat) : Nat := 0x10000 + (i / 16) * 0x8000 + 0x7854 + (i % 16) * 0x80
def IBX_TXS_CTL_LEFT (i : Nat) : Fld := ⟨IBX_TXS_CTL i, 8, 24⟩
def IBX_TXS_CTL_STR_DONE (i : Nat) : Fld := ⟨IBX_TXS_CTL i, 3, 1⟩
def IBX_TXS_CTL_RING (i : Nat) : Fld := ⟨IBX_TXS_CTL i, 2, 1⟩
def IBX_TXS_CTL_REC (i : Nat) : Fld := ⟨IBX_TXS_CTL i, 1, 1⟩
def IBX_TXS_CTL_RUN (i : Nat) : Fld := ⟨IBX_TXS_CTL i, 0, 1⟩
/-- R260. -/
def IBX_RXS_ADDR (i : Nat) : Nat := 0x10000 + (i / 16) * 0x8000 + 0x7858 + (i % 16) * 0x80
def IBX_RXS_ADDR_ADDR (i : Nat) : Fld := ⟨IBX_RXS_ADDR i, 4, 22⟩
/-- R260. -/
def IBX_RXS_LEN (i : Nat) : Nat := 0x10000 + (i / 16) * 0x8000 + 0x785C + (i % 16) * 0x80
def IBX_RXS_LEN_LEN (i : Nat) : Fld := ⟨IBX_RXS_LEN i, 0, 24⟩
/-- R263. -/
def IBX_RXS_CTL (i : Nat) : Nat := 0x10000 + (i / 16) * 0x8000 + 0x7860 + (i % 16) * 0x80
def IBX_RXS_CTL_LEFT (i : Nat) : Fld := ⟨IBX_RXS_CTL i, 8, 24⟩
def IBX_RXS_CTL_STR_DONE (i : Nat) : Fld := ⟨IBX_RXS_CTL i, 3, 1⟩
def IBX_RXS_CTL_RING (i : Nat) : Fld := ⟨IBX_RXS_CTL i, 2, 1⟩
def IBX_RXS_CTL_REC (i : Nat) : Fld := ⟨IBX_RXS_CTL i, 1, 1⟩
def IBX_RXS_CTL_RUN (i : Nat) : Fld := ⟨IBX_RXS_CTL i, 0, 1⟩
/-- R260. -/
def IBX_STALLCNT (i : Nat) : Nat := 0x10000 + (i / 16) * 0x8000 + 0x7864 + (i % 16) * 0x80
def IBX_STALLCNT_CNT (i : Nat) : Fld := ⟨IBX_STALLCNT i, 0, 32⟩
/-- R260. -/
def IBX_DROPCNT (i : Nat) : Nat := 0x10000 + (i / 16) * 0x8000 + 0x7868 + (i % 16) * 0x80
def IBX_DROPCNT_TXDROP (i : Nat) : Fld := ⟨IBX_DROPCNT i, 16, 16⟩
def IBX_DROPCNT_RXUNDER (i : Nat) : Fld := ⟨IBX_DROPCNT i, 0, 16⟩

end Sys2Proof.Machine
end

