-- ==== Sys2Proof/Machine/State.lean ====
section
/-! DEFINITION. The state of the block: the queue of waiting commands, the BAR0 registers, the state of every unit that is no
register, the stacked memory, the non-volatile store and the fuse array; faults, refusals and the state after reset. -/

namespace Sys2Proof.Machine

/-- Why a command stops. `badCommand`: an operand that no sender can send (lists of a wrong length, WellFormed); raised by the
meanings of the commands with list operands. Safe: nothing the specification describes is cut off. -/
inductive Fault where
  | badCommand
  deriving DecidableEq, Repr

/-- Why a command is refused. `notModelled`: the dispatch has no meaning for the row. Safe. -/
inductive Refusal where
  | notModelled (mnemonic : String)
  deriving DecidableEq, Repr

/-- A latched time (R33): STIME, fine stamp, and the flags a latch carries. -/
structure Stamp where
  /-- STIME of the latched tick (02 R33) -/
  time : Nat := 0
  /-- fine stamp, 0 to 63 (02 R33) -/
  fine : Nat := 0
  /-- taken in a PLL switchover (02 R38) -/
  clkSw : Bool := false
  /-- taken before the quadrant's first calibration (02 R33) -/
  uncal : Bool := false
  deriving DecidableEq, Repr

/-- An event record before SEQ and P are known (R372). -/
structure Rec where
  /-- TYPE (12 R374) -/
  typ : Nat := 0
  /-- SUB (12 R374) -/
  sub : Nat := 0
  /-- ORIG (12 R372) -/
  orig : Nat := 0
  /-- SRC (12 R374) -/
  src : Nat := 0
  /-- time of the event (01 R11) -/
  at_ : Stamp := {}
  /-- payload P0 (12 R374) -/
  p0 : Nat := 0
  /-- payload P1 (12 R374) -/
  p1 : Nat := 0
  /-- payload P2 (12 R374) -/
  p2 : Nat := 0
  /-- payload P3 (12 R374) -/
  p3 : Nat := 0
  deriving DecidableEq, Repr

/-- A record pending at its source (R15). -/
structure PendRec where
  /-- source number (12 R376) -/
  source : Nat := 0
  /-- tick on which it becomes pending, two after it was raised (01 R15) -/
  due : Nat := 0
  /-- the record (01 R15) -/
  r : Rec := {}
  deriving DecidableEq, Repr

/-- What leaves the block toward the host or the debugger. -/
inductive Output where
  /-- a completion record written to slot `slot` of return ring `ring` (R359) -/
  | completion (ring slot : Nat) (record : BitVec 128)
  /-- an event record written to slot `slot` of event ring `ring`, its eight dwords (R372) -/
  | event (ring slot : Nat) (dwords : List Nat)
  /-- bytes written to host memory (R350) -/
  | hostWrite (addr : Nat) (bytes : List Byte)
  /-- a descriptor read request for `count` slots of ring `ring` from slot `slot` (R344) -/
  | fetch (ring slot count : Nat)
  /-- an MSI-X message (R384) -/
  | msix (f vec : Nat)
  /-- a PM_PME message of function f (R386) -/
  | pme (f : Nat)
  /-- the value a BAR0 read returns (R2, R504) -/
  | readData (off : Nat) (v : Word)
  /-- the value an I/O read returns to microengine e (R285) -/
  | ioData (e off : Nat) (v : Word)
  /-- the dwords a bulk read returns and whether they are poisoned (R361, R362) -/
  | bulkData (f : Nat) (data : List Word) (poison : Bool)
  /-- a bulk read completed with Unsupported Request (R362) -/
  | unsupported (f : Nat)
  /-- the frame of epoch boundary `b` on SYNC_OUT (R40) -/
  | syncFrame (b : Nat)
  /-- a JTAG answer; none: refused (R453) -/
  | jtag (v : Option Nat)
  deriving DecidableEq, Repr

/-- An event on its way through the crossbars to one sink (R23). -/
structure XEvent where
  /-- quadrant of the sink (01 R23) -/
  q : Nat := 0
  /-- sink number (06 R193) -/
  sink : Nat := 0
  /-- selector of the sink that took the event (06 R194) -/
  sel : Nat := 0
  /-- tick on which it acts, t + 2 or t + 6 (01 R23) -/
  due : Nat := 0
  /-- the source's stamp (01 R25) -/
  at_ : Stamp := {}
  deriving DecidableEq, Repr

/-- A credit travelling back to its producer (R12). -/
structure CreditBack where
  /-- the queue (01 R12) -/
  x : FabricQueue
  /-- tick on which it arrives, four FCLK cycles after the item left (01 R12) -/
  due : Nat
  deriving DecidableEq, Repr

/-- A record in a quadrant's record queue (R12, R16). -/
structure QueuedRec where
  /-- tick from which the record unit may take it (01 R16) -/
  avail : Nat := 0
  /-- the record (01 R16) -/
  r : Rec := {}
  deriving DecidableEq, Repr

/-- What a quadrant holds that is no register and belongs to no single block. -/
structure Quad where
  /-- records pending at their sources, in the order raised (01 R15) -/
  pend : List PendRec := []
  /-- record-drop counters by source number (12 R376) -/
  drops : Tab Nat := []
  /-- source served last by the collector (01 R15) -/
  lastSource : Nat := 0x18F
  /-- tick + 1 on which the collector last moved a record (01 R15) -/
  collected : Nat := 0
  /-- the record queue's event entries (01 R12, R14) -/
  recq : List QueuedRec := []
  /-- the quadrant is in quadrant reset (16 R478) -/
  inReset : Bool := false
  /-- tick on which an unheld quadrant reset ends (16 R478) -/
  resetEnd : Nat := 0
  /-- tick on which the first calibration under way began (02 R46) -/
  calStart : Option Nat := none
  /-- tick since which both monitors read good (14 R430) -/
  goodSince : Option Nat := some 0
  /-- isolations since cold reset, those for heat left out (14 R430) -/
  isolations : Nat := 0
  /-- isolations for heat since cold reset (16 R476) -/
  heatIsolations : Nat := 0
  /-- semaphore bits set, by number 0 to 4,095 (09 R289) -/
  sems : Tab Bool := []
  /-- levels of the field lanes as recognised last at the timer channels' edges, by local lane (06 R180) -/
  laneIn : Tab Bool := []
  /-- drive level bits of the lanes, by local lane (09 R289) -/
  drive : Tab Bool := []
  /-- the descriptor identifier of the QUAD_RESET that waits for the reset's end (11 R358) -/
  resetFlight : List Nat := []
  deriving DecidableEq, Repr

/-- A CONV pin (R27). -/
structure Conv where
  /-- the pin is high (01 R27) -/
  high : Bool := false
  /-- tick on which its pulse ends (01 R27) -/
  until_ : Nat := 0
  deriving DecidableEq, Repr

/-- The record unit. -/
structure RecUnit where
  /-- spine records raised and not yet in the buffer, oldest first (12 R375) -/
  raised : List Rec := []
  /-- the spine record buffer (12 R375) -/
  spine : List Rec := []
  /-- the next turn takes from the spine buffer when it is not empty (12 R375) -/
  spineTurn : Bool := true
  /-- quadrant served last (01 R16) -/
  lastQuad : Nat := 3
  /-- route words that still govern acceptance, with the tick on which the write reached the unit: ROUTE index, old word (12 R377, R390) -/
  routeOld : Tab (Nat × Nat) := []
  /-- sequence counts of the event rings (12 R373) -/
  ringSeq : Tab Nat := []
  /-- records dropped at a ring since its last LOST_RECORDS record: count, SEQ and STIME of the first (12 R382) -/
  ringLost : Tab (Nat × Nat × Nat) := []
  /-- hold buffers of the functions in D3hot: ring, SEQ and record (12 R386) -/
  held : Tab (List (Nat × Nat × Rec)) := []
  /-- engine sequence counts (12 R373) -/
  meSeq : Tab Nat := []
  /-- records dropped at an engine under ALL since its last report: count, SEQ and STIME of the first (12 R381) -/
  meLost : Tab (Nat × Nat × Nat) := []
  /-- STIME of the first record dropped after the link was lost (12 R383) -/
  detachFirst : Option Nat := none
  /-- HIF.GEN for which the detach report has been placed (12 R383) -/
  detachReported : Nat := 0
  /-- ticks on which the rings' moderation timers expire (12 R384) -/
  modEnd : Tab Nat := []
  /-- a ring was disarmed and its message has been sent (12 R386) -/
  sent : Tab Nat := []
  deriving DecidableEq, Repr

/-- A descriptor in flight: forwarded and not yet completed. -/
structure Flight where
  /-- identifier, in order of forwarding (18 R508) -/
  id : Nat := 0
  /-- submission ring (11 R359) -/
  sr : Nat := 0
  /-- owning function (11 R349) -/
  f : Nat := 0
  /-- completion ring that holds its slot (11 R343) -/
  cq : Nat := 0
  /-- target: quadrant 0 to 3, 4 the spine, 5 where it reached none (11 R346, R347, R370) -/
  target : Nat := 4
  /-- SQHEAD of the record of a failed descriptor read (11 R347) -/
  sqhead : Option Nat := none
  /-- the descriptor (11 R348) -/
  desc : Desc := ⟨0, 0, 0, 0, 0, 0, 0, 0⟩
  /-- 0 waits at its target, 1 in progress, 2 its last effect has taken place (11 R359) -/
  stage : Nat := 0
  /-- progress of a descriptor that takes several steps: items done (11 R353, R355, R356) -/
  done : Nat := 0
  /-- status of the completion (11 R360) -/
  status : Nat := 0
  /-- value of the completion (11 R350) -/
  value : Nat := 0
  /-- STIME of the last effect (11 R359) -/
  stime : Nat := 0
  /-- its completion is dropped because its path to the host is gone (01 R13) -/
  orphan : Bool := false
  deriving DecidableEq, Repr

/-- A submission ring's fetch state. -/
structure SRing where
  /-- fetch buffer, oldest first (11 R344) -/
  buf : List Desc := []
  /-- slot and count of the descriptor read under way (11 R344) -/
  reading : Option (Nat × Nat) := none
  deriving DecidableEq, Repr

/-- A function as the link sees it. -/
structure Func where
  /-- bus master enable (11 R369) -/
  bme : Bool := false
  /-- in D3hot (11 R367) -/
  d3 : Bool := false
  /-- MSI-X Enable (12 R385) -/
  msixEn : Bool := false
  /-- MSI-X function mask (12 R385) -/
  fmask : Bool := false
  /-- PME_En (12 R386) -/
  pmeEn : Bool := false
  /-- PME_Status (12 R386) -/
  pmeStatus : Bool := false
  /-- MSI-X table: dword offset in the table, value; vector control resets masked (11 R519) -/
  table : Tab Word := []
  /-- MSI-X pending bits: vector numbers that are pending (11 R519) -/
  pba : List Nat := []
  deriving DecidableEq, Repr

/-- An access of function f to its bulk port, at dword off of its BAR4 (11 R361). -/
inductive BulkOp where
  /-- a write -/
  | write (f off : Nat) (data : List MaskedDword)
  /-- a read of n dwords -/
  | read (f off n : Nat)
  deriving DecidableEq, Repr

/-- The host interface. -/
structure HostIf where
  /-- submission rings (11 R340) -/
  srs : Tab SRing := []
  /-- ring served last by the fetch engine (11 R344) -/
  lastRing : Nat := 31
  /-- descriptors in flight in order of forwarding (11 R345) -/
  flights : List Flight := []
  /-- identifier of the next forwarded descriptor (18 R508) -/
  nextId : Nat := 0
  /-- credits travelling back (01 R12) -/
  credits : List CreditBack := []
  /-- accesses of the bulk port that wait, oldest first: 16 blocks of 256 bytes in its queue, the rest held on the link (01 R12, R18) -/
  bulkq : List BulkOp := []
  /-- the functions (11 R336) -/
  fns : Tab Func := []
  /-- the link is up (11 R369) -/
  linkUp : Bool := false
  /-- DETACHED (11 R369) -/
  detached : Bool := false
  deriving DecidableEq, Repr

/-- The timebase. -/
structure TbState where
  /-- TCLK runs (02 R29) -/
  running : Bool := false
  /-- a switchover window is open: it was commanded by TB.CTL.SWITCH (02 R37, R38) -/
  window : Option Bool := none
  /-- tick since which the failed PLL is being restarted (02 R39) -/
  pllDown : Option Nat := none
  /-- ticks since which REFA and REFB have been good (02 R35) -/
  refGood : Tab (Option Nat) := []
  /-- consecutive epochs within two fine steps (02 R42) -/
  syncGood : Nat := 0
  /-- consecutive epochs of a locked slave beyond 64 fine steps (02 R42) -/
  syncBad : Nat := 0
  /-- the epoch boundary that the last frame taken announced (02 R42) -/
  syncLast : Option Nat := none
  /-- tick of the last frame taken (02 R42) -/
  syncTick : Nat := 0
  /-- the loss of frames since then has been declared (02 R42) -/
  syncGone : Bool := false
  /-- the latch of the last SYNC marker: its tick, its fine stamp, FINE_UNCAL and CLOCK_SWITCH (02 R33, R38, R41) -/
  syncMark : Stamp := {}
  /-- the primary reference that the last decision of the monitor took (02 R34, R57) -/
  refPrim : Nat := 0
  /-- the steering value of the PLLs (02 R41); a free value -/
  steer : BitVec 16 := 0
  /-- epoch boundary of the last frame sent on SYNC_OUT (02 R40) -/
  syncOut : Option Nat := none
  /-- ticks of the recalibration triggers, oldest first (02 R49) -/
  recals : List Nat := []
  /-- tick of the last interval trigger (02 R49) -/
  lastInterval : Nat := 0
  /-- die temperature at the last swap (02 R49); 0 °C before the first, one value for all owners (log 54) -/
  swapTemp : Int := 0
  deriving DecidableEq, Repr

/-- The twin lines of one owner (R44 to R50). -/
structure Lines where
  /-- tap tables of line A and line B: the tap of each fine step; none before its first calibration (02 R44) -/
  tapsA : List Nat := []
  /-- tap table of line B (02 R44) -/
  tapsB : List Nat := []
  /-- line B drives (02 R48) -/
  activeB : Bool := false
  /-- the standby line has been recalibrated and waits for a boundary, since this tick (02 R48, R50) -/
  ready : Option Nat := none
  /-- recalibration triggers already served (02 R49) -/
  seen : Nat := 0
  /-- a recalibration of its own asked by FE CMD.RECAL (07 R223) -/
  own : Bool := false
  /-- tick of the last swap (02 R50) -/
  lastSwap : Nat := 0
  /-- a recalibration ended without a swap since the last one (02 R50) -/
  deferred : Bool := false
  /-- tick + 1 of the last latch of a sampler (02 R49) -/
  latched : Nat := 0
  deriving DecidableEq, Repr

/-- A housekeeping timer's prescaler. -/
structure HkState where
  /-- tick of the next count while it counts (02 R51, R60) -/
  next : Nat := 0
  /-- residue held while it does not count (02 R51) -/
  residue : Nat := 0
  /-- ticks of the count under way, as PRE was when it began (02 R60) -/
  cur : Nat := 0
  deriving DecidableEq, Repr

/-- A register write whose effect comes on the tick after it (R508): it lands at the end of tick `due`, in the order of `rank`. -/
structure LateWrite where
  /-- the tick at whose end it lands -/
  due : Nat
  /-- its place in the order of R508: 0 BAR0, 1 descriptor, 2 + e microengine e, 10 commit group; 11 to 13 are no write
  but a capture, an image swap and a cold reset that come at the end of the tick -/
  rank : Nat
  /-- the writer's code -/
  code : Nat
  /-- the register -/
  off : Nat
  /-- the value under the register's access classes -/
  v : Word
  deriving DecidableEq, Repr

/-- An accepted change of an axis input that the decoder has not yet taken (R65, R66). -/
structure AxChange where
  /-- input pair: 0 A, 1 B, 2 Z (03 R61) -/
  pair : Nat := 0
  /-- the new level (03 R64) -/
  lvl : Bool := false
  /-- tick of the raw transition (03 R65) -/
  raw : Nat := 0
  /-- stamp of the raw transition (03 R65) -/
  at_ : Stamp := {}
  /-- tick of the acceptance (03 R66) -/
  acc : Nat := 0
  deriving DecidableEq, Repr

/-- One input pair of an axis (R61 to R64). -/
structure AxIn where
  /-- level the sampler last saw (03 R64) -/
  raw : Bool := false
  /-- tick of the last sampled transition (03 R65) -/
  rawTick : Nat := 0
  /-- stamp of the last sampled transition (03 R65) -/
  at_ : Stamp := {}
  /-- a level is held in the filter (03 R64) -/
  pend : Bool := false
  /-- level the filter has accepted (03 R64) -/
  acc : Bool := false
  /-- levels accepted lately, newest first (03 R76) -/
  hist : List (Nat × Bool) := []
  /-- the pair is lost (03 R63) -/
  lost : Bool := false
  /-- the next accepted level is only a reference (03 R63) -/
  ref : Bool := false
  /-- tick of the last discard (03 R66) -/
  discard : Nat := 0
  /-- tick of the raw transition of the discarded level (03 R66) -/
  discRaw : Nat := 0
  deriving DecidableEq, Repr

/-- An edge latch (R70). -/
structure Latch where
  /-- latched position in 1/65,536 count (03 R70) -/
  pos : Int := 0
  /-- true position in 1/65,536 count (04 R96) -/
  t16 : Int := 0
  /-- stamp (03 R70) -/
  at_ : Stamp := {}
  /-- count increment (03 R70) -/
  inc : Int := 0
  /-- DIR, REV, SNAP, SAT, BREAK, GAP (03 R70) -/
  dir : Bool := false
  /-- REV (03 R72) -/
  rev : Bool := false
  /-- SNAP (03 R70) -/
  snap : Bool := false
  /-- SAT (03 R81) -/
  sat : Bool := false
  /-- BREAK (03 R69) -/
  brk : Bool := false
  /-- GAP (03 R73) -/
  gap : Bool := false
  deriving DecidableEq, Repr

/-- What a Coach slice knows of an axis: the estimator as the last message that reached it left it (R101, R141). -/
structure AxView where
  /-- true position T in 1/65,536 count (04 R101) -/
  t16 : Int := 0
  /-- time of the latch in fine steps (04 R101) -/
  ft : Nat := 0
  /-- tick on which the latch was written (04 R102) -/
  tick : Nat := 0
  /-- STIME of the tick on which the latch was written (04 R102) -/
  stime : Nat := 0
  /-- velocity in 2^-40 count per tick (04 R98) -/
  vel : Int := 0
  /-- extrapolation is on (04 R99) -/
  ext : Bool := false
  /-- direction of travel is reverse (05 R139) -/
  rev : Bool := false
  /-- clamp span S in 1/65,536 count (04 R100) -/
  span : Int := 65536
  /-- history of the last latches, newest first (05 R144) -/
  hist : List (Int × Nat) := []
  deriving DecidableEq, Repr

/-- An axis unit: decoder, filters, tooth wheel, serial master, estimator. -/
structure Axis where
  /-- input pair A (03 R61) -/
  inA : AxIn := {}
  /-- input pair B (03 R61) -/
  inB : AxIn := {}
  /-- input pair Z (03 R61) -/
  inZ : AxIn := {}
  /-- accepted changes not yet decoded, oldest first (03 R66) -/
  changes : List AxChange := []
  /-- decoder state BA (03 R67) -/
  dec : Nat := 0
  /-- true position T in 1/65,536 count (03 R80) -/
  t16 : Int := 0
  /-- EXCESS in counts (03 R80, R82) -/
  excess : Int := 0
  /-- an increment other than 0 has been made since the history was cleared (03 R72) -/
  moved : Bool := false
  /-- the next latch carries BREAK (03 R69) -/
  brkNext : Bool := false
  /-- the next latch carries SNAP (03 R90) -/
  snapNext : Bool := false
  /-- run of illegal transitions (03 R69) -/
  illRun : Nat := 0
  /-- counted edges since the last illegal transition (03 R69) -/
  illClean : Nat := 0
  /-- consecutive index mismatches (03 R77) -/
  idxRun : Nat := 0
  /-- the last latch (03 R70) -/
  latch : Latch := {}
  /-- the latch set frozen by a read of LPOS_LO (03 R71) -/
  frozen : Option Latch := none
  /-- tooth wheel: time of the last real tooth in fine steps; none before the first tooth (03 R73) -/
  tPrev : Option Nat := none
  /-- tooth wheel: learning (03 R75) -/
  learning : Bool := true
  /-- tooth wheel: normal periods, newest first (03 R73) -/
  periods : List Nat := []
  /-- serial: the frame under way began on this tick (03 R83) -/
  frameStart : Option Nat := none
  /-- serial: stamp of the frame's latching edge (03 R89) -/
  frameAt : Stamp := {}
  /-- serial: tick before which no frame starts, timeout and recovery included (03 R83) -/
  busyUntil : Nat := 0
  /-- serial: tick of the last periodic trigger (03 R83) -/
  lastPeriodic : Nat := 0
  /-- serial: previous raw value; none before the first good frame (03 R88) -/
  serPrev : Option Nat := none
  /-- serial: a good frame since the last mode change or fault clear (03 R92) -/
  serOk : Bool := false
  /-- tick from which the FILT in force has held (03 R64) -/
  filtFrom : Nat := 0
  /-- serial: previous SPF sequence number (03 R87) -/
  serSeq : Option Nat := none
  /-- serial: consecutive discarded frames (03 R87) -/
  serBad : Nat := 0
  /-- estimator history, newest first: true position in 1/65,536 count, time in fine steps (04 R97) -/
  hist : List (Int × Nat) := []
  /-- run count n (04 R97) -/
  run : Nat := 0
  /-- velocity in 2^-40 count per tick (04 R98) -/
  vel : Int := 0
  /-- tick on which the last latch was written (04 R105) -/
  lastLatch : Nat := 0
  /-- stopped (04 R105) -/
  stopped : Bool := false
  /-- a HOLD has been issued for the last latch (04 R103) -/
  holdDone : Bool := true
  /-- the next latch starts a new run: FAULT has been cleared (04 R97) -/
  runNext : Bool := false
  /-- no latch since wake (16 R474) -/
  stale : Bool := false
  /-- what the estimator held before the latches and jumps of the last ticks, newest first (04 R119) -/
  recent : List (Nat × AxView) := []
  deriving DecidableEq, Repr

/-- A message from an axis to a slice (R101, R103). -/
structure AxMsg where
  /-- slice (04 R101) -/
  q : Nat := 0
  /-- axis (04 R101) -/
  a : Nat := 0
  /-- tick on which it arrives (04 R101) -/
  due : Nat := 0
  /-- a HOLD; else new predictions (04 R103) -/
  hold : Bool := false
  /-- the HOLD of a reversal or an isolation: withdraws whatever the key (04 R104, 14 R429) -/
  all : Bool := false
  /-- the latch carried REV (05 R142) -/
  rev : Bool := false
  /-- an edge latch, against a snap or a write of POS (03 R79) -/
  edge : Bool := false
  /-- the position jumped (03 R79) -/
  jump : Bool := false
  /-- size of the jump in 1/65,536 count (03 R79) -/
  size : Int := 0
  /-- the view it brings (04 R101) -/
  view : AxView := {}
  deriving DecidableEq, Repr

/-- An output count of an emulator that is not yet out (R112 to R114). -/
structure EmuDue where
  /-- tick on which it is due (04 R112, R113) -/
  due : Nat := 0
  /-- forward (04 R110) -/
  up : Bool := true
  /-- the count after it (04 R115) -/
  c : Int := 0
  /-- placed ahead of its source count (04 R113) -/
  early : Bool := false
  deriving DecidableEq, Repr

/-- An emulator's divider before a change of the last ticks (R119). -/
structure EmuPast where
  /-- tick of the change -/
  tick : Nat := 0
  /-- C before it (04 R110) -/
  c : Int := 0
  /-- the accumulator before it (04 R110) -/
  acc : Int := 0
  /-- M before it (04 R111) -/
  m : Nat := 1
  /-- N before it (04 R111) -/
  n : Nat := 1
  deriving DecidableEq, Repr

/-- An emulator EMU[a]. -/
structure Emu where
  /-- the emulated count C (04 R110) -/
  c : Int := 0
  /-- the accumulator (04 R110) -/
  acc : Int := 0
  /-- C0, the count when EN was set (04 R110) -/
  c0 : Int := 0
  /-- P0, the source's whole-count true position when EN was set (04 R110) -/
  p0 : Int := 0
  /-- the ratio in force: M and N (04 R111) -/
  m : Nat := 1
  /-- the ratio in force: N (04 R111) -/
  n : Nat := 1
  /-- a ratio that applies on the next source count (04 R111) -/
  newRatio : Option (Nat × Nat) := none
  /-- smooth counts that have gone out ahead of their source counts, signed (04 R113) -/
  ahead : Int := 0
  /-- the divider before the changes of the last ticks, newest first (04 R119) -/
  recent : List EmuPast := []
  /-- output counts waiting, oldest first (04 R114) -/
  backlog : List EmuDue := []
  /-- the quadrature state BA at the outputs (04 R114) -/
  out : Nat := 0
  /-- the count that the outputs have reached (04 R114) -/
  shown : Int := 0
  /-- tick of the last output change (04 R114) -/
  lastOut : Option Nat := none
  /-- slave: level of the clock lane (04 R118) -/
  clk : Bool := true
  /-- slave: the answer frame's levels still to drive, one for each rising edge; none while idle (04 R120) -/
  frame : Option (List Bool) := none
  /-- slave: level of the data lane (04 R120) -/
  data : Bool := true
  /-- slave: tick of the last rising clock edge (04 R120, R122) -/
  clkHigh : Nat := 0
  /-- slave: sequence number of the next SPF answer (04 R121) -/
  seq : Nat := 0
  deriving DecidableEq, Repr

/-- A calendar or template entry as the slice holds it (R129). -/
structure Entry where
  /-- KTYPE: 0 TIME, 1 POS, 2 COFF (05 R129) -/
  ktype : Nat := 0
  /-- DIR (05 R129) -/
  dir : Nat := 0
  /-- AXIS (05 R129) -/
  axis : Nat := 0
  /-- PRIO (05 R129) -/
  prio : Nat := 0
  /-- LATEPOL (05 R129) -/
  latepol : Bool := false
  /-- RECMODE (05 R129) -/
  recmode : Nat := 0
  /-- ACTION (05 R131) -/
  action : Nat := 0
  /-- TARGET (05 R129) -/
  target : Nat := 0
  /-- TAG (05 R129) -/
  tag : Nat := 0
  /-- REPSH (05 R149) -/
  repsh : Bool := false
  /-- REPCNT (05 R129) -/
  repcnt : Nat := 0
  /-- REPINT (05 R149) -/
  repint : Nat := 0
  /-- the key: TIME in fine steps of STIME, POS and COFF in 1/65,536 count (05 R130) -/
  key : Int := 0
  /-- acceptance number within its slice (05 R139) -/
  acc : Nat := 0
  /-- tick on which it was accepted, by which entries of different slices are ordered (05 R147) -/
  accTick : Nat := 0
  /-- carriage of a template entry or its copy, 0 to 2,047 (05 R156) -/
  car : Option Nat := none
  /-- the carriage's base was unextrapolated (05 R161) -/
  unext : Bool := false
  /-- a reject entry: its condition is ignored (05 R159) -/
  reject : Bool := false
  /-- number of the arming that this entry fires; 0 for none (13 R404) -/
  arming : Nat := 0
  deriving DecidableEq, Repr

/-- Where in the calendar an entry is linked (R134, R135). -/
inductive Bucket where
  /-- bucket n of L1 of the time wheel, counted from STIME 0 -/
  | time1 (n : Nat)
  /-- bucket n of L2 of the time wheel, counted from STIME 0 -/
  | time2 (n : Nat)
  /-- far list of the time wheel -/
  | timeFar
  /-- bucket n of the position wheel of axis a, counted from position 0 -/
  | pos1 (a : Nat) (n : Int)
  /-- far list of the position wheel of axis a -/
  | posFar (a : Nat)
  /-- entries of axis a whose buckets T has left behind or jumped over -/
  | posPast (a : Nat)
  deriving DecidableEq, Repr

/-- Who waits for the outcome of an entry or a cancel. -/
inductive Requester where
  /-- the descriptor in flight with this identifier -/
  | flight (id : Nat)
  /-- the Coach port of microengine e, with the request's tag of R286 -/
  | port (e : Nat)
  deriving DecidableEq, Repr

/-- An entry offered to a slice and not yet accepted. -/
structure Offer where
  /-- who offered it (05 R137) -/
  who : Requester
  /-- the entry with its key as written (05 R130) -/
  e : Entry := {}
  /-- last entry of its request (11 R353) -/
  last : Bool := true
  deriving DecidableEq, Repr

/-- A request at the insertion stage (R128). -/
structure InsReq where
  /-- 0 an entry returned under R142, 1 a repeat copy, 2 a carriage-buffer fill, 3 an entry for the horizon (05 R128, R142) -/
  cls : Nat := 3
  /-- the entry (05 R128) -/
  e : Entry := {}
  /-- tick from which it may be served (05 R128) -/
  from_ : Nat := 0
  /-- the slot whose occurrence is told REPDROP when this copy is lost (05 R150) -/
  origin : Option Nat := none
  /-- who waits for this entry's acceptance, and whether it is the last of its request (05 R137) -/
  who : Option (Requester × Bool) := none
  /-- drawn from the calendar, where the entry stands until the stage has inserted it (05 R128) -/
  drawn : Bool := false
  deriving DecidableEq, Repr

/-- A slot of the armed set, held from tick a on (R140). -/
structure Slot where
  /-- number of the slot's taking, in order (05 R148) -/
  id : Nat := 0
  /-- the entry (05 R140) -/
  e : Entry := {}
  /-- tick on which it was taken (05 R140) -/
  a : Nat := 0
  /-- 0 fires on a set tick, 1 timed, 2 edge-armed (05 R141, R142) -/
  kind : Nat := 0
  /-- fire time in fine steps of STIME, where kind is not 2 (05 R144) -/
  f : Int := 0
  /-- ideal fire time in fine steps of STIME, where known (05 R144) -/
  ideal : Option Int := none
  /-- the key had passed or was crossed and its crossing is out of the history (05 R144) -/
  lost : Bool := false
  /-- live in its target (05 R140) -/
  live : Bool := false
  /-- LATE (05 R161) -/
  late : Bool := false
  /-- UNEXTRAP (05 R161) -/
  unext : Bool := false
  /-- CLAMP (05 R161) -/
  clamp : Bool := false
  /-- REPDROP (05 R161) -/
  repdrop : Bool := false
  /-- its carriage has closed under it (05 R158) -/
  orphan : Bool := false
  /-- a latch has crossed the key of an edge-armed slot: fire time in fine steps (05 R142) -/
  crossed : Option Int := none
  deriving DecidableEq, Repr

/-- A cancel under way (R151). -/
structure Cancel where
  /-- who asked (05 R151) -/
  who : Requester
  /-- TAG (05 R151) -/
  tag : Nat := 0
  /-- key kind POS (05 R151) -/
  pos : Bool := false
  /-- axis of the key kind POS (05 R151) -/
  axis : Nat := 0
  /-- tick on which the search began (05 R151) -/
  start : Nat := 0
  /-- acceptance number at the start: later entries are not removed (05 R151) -/
  accNo : Nat := 0
  /-- entries removed so far (05 R151) -/
  removed : Nat := 0
  /-- tick on which the search of the calendar ends (05 R151) -/
  ends : Nat := 0
  /-- the horizon, the pipeline and the armed set have been searched (05 R151) -/
  swept : Bool := false
  /-- calendar entries that the search has passed and left (05 R151) -/
  seen : Nat := 0
  deriving DecidableEq, Repr

/-- A Coach slice. -/
structure Slice where
  /-- entries offered, oldest first (05 R137) -/
  offers : List Offer := []
  /-- the insertion stage's requests in order of arrival (05 R128) -/
  insq : List InsReq := []
  /-- tick from which the insertion stage may finish its next request (05 R128) -/
  insFree : Nat := 0
  /-- the calendar with each entry's bucket (05 R133) -/
  cal : List (Bucket × Entry) := []
  /-- the horizon (05 R136) -/
  hor : List Entry := []
  /-- the pipeline and the armed set (05 R140) -/
  slots : List Slot := []
  /-- number of the next slot taken (05 R148) -/
  nextSlot : Nat := 0
  /-- tick + 1 on which the arm stage took an entry last (05 R139) -/
  took : Nat := 0
  /-- tick + 1 of the last firing, and the targets that fired then, one for each slot freed: kind and index (05 R143, R147) -/
  fired : Nat × List (Nat × Nat) := (0, [])
  /-- number of the next entry accepted (05 R139) -/
  nextAcc : Nat := 0
  /-- cancels waiting and under way, oldest first (05 R151) -/
  cancels : List Cancel := []
  /-- L2 bucket that is current, counted from STIME 0 (05 R134) -/
  cur2 : Nat := 0
  /-- L2 span for which the far list has been scanned (05 R134) -/
  scanned : Nat := 0
  /-- entries of the time wheel's far list that the scan under way has left there (05 R134) -/
  farSeen : Nat := 0
  /-- entries of the axes' far lists that the rescans under way have left there (05 R135) -/
  posSeen : Tab Nat := []
  /-- tick + 1 of the last calendar move (05 R134, R152) -/
  moved : Nat := 0
  /-- centre buckets of the position wheels (05 R135) -/
  centre : Tab Int := []
  /-- buckets in which the axes' positions were when last loaded (05 R136) -/
  loaded : Tab (Option Int) := []
  /-- list whose turn it is to be drawn: 0 time, 1 to 8 axes 0 to 7 (05 R136) -/
  drawTurn : Nat := 0
  /-- buckets that are being drawn, with the ticks on which their first entries come (05 R138) -/
  loads : List (Bucket × Nat) := []
  /-- the axes as the slice knows them (05 R127) -/
  views : Tab AxView := []
  /-- reject queues of the quadrant's two axes (05 R159) -/
  rejq : Tab (List Entry) := []
  /-- base of the previous opening of each local axis (05 R153) -/
  lastOpen : Tab (Option Int) := []
  deriving DecidableEq, Repr

/-- An open carriage (R153 to R158). -/
structure Carriage where
  /-- open (05 R153) -/
  isOpen : Bool := false
  /-- tick from which the index may be opened again (05 R153) -/
  freeFrom : Nat := 0
  /-- base in 1/65,536 count (05 R154) -/
  base : Int := 0
  /-- UNEXTRAP (05 R154) -/
  unext : Bool := false
  /-- flags (05 R157) -/
  flags : Nat := 0
  /-- next template entry to read (05 R166) -/
  cursor : Nat := 0
  /-- template, device-wide (05 R155) -/
  tpl : Nat := 0
  /-- page it runs on (05 R155) -/
  page : Nat := 0
  /-- length of that page (05 R155) -/
  len : Nat := 0
  /-- entries read whose insertion is under way or done and which have neither fired nor been discarded, copies included (05 R158) -/
  live : Nat := 0
  /-- the carriage buffer (05 R156) -/
  buf : List Entry := []
  /-- ticks on which template reads under way complete (05 R156) -/
  reads : List Nat := []
  deriving DecidableEq, Repr

/-- A template's swap check. -/
structure Tpl where
  /-- tick on which the check of the inactive page began (05 R155) -/
  check : Option Nat := none
  /-- the check is made for this commit group, on whose tick the page becomes active (05 R168) -/
  group : Option Nat := none
  deriving DecidableEq, Repr

/-- An entry of a capture queue (R181). -/
structure CapEntry where
  /-- captured count (06 R181) -/
  cnt : Nat := 0
  /-- stamp (06 R181) -/
  at_ : Stamp := {}
  /-- cause, coded as CAPINFO.SRC (06 R203) -/
  cause : Nat := 0
  /-- CHAIN (06 R191) -/
  chain : Bool := false
  /-- FROZEN (06 R198) -/
  frozen : Bool := false
  /-- capture tick (06 R181) -/
  tick : Nat := 0
  deriving DecidableEq, Repr

/-- A timer channel. -/
structure Tc where
  /-- tick of the next count of a tick or prescaled source (06 R170, R171) -/
  next : Nat := 0
  /-- increments of an axis, lane or trigger source with their ticks, oldest first (06 R170) -/
  pend : List (Nat × Int) := []
  /-- ticks on which carries from the lower member arrive, and their signs, oldest first (06 R186) -/
  carries : List (Nat × Int) := []
  /-- recent changes of CNT, newest first: tick, the value before it and the increment (06 R181, R189) -/
  hist : List (Nat × Nat × Int) := []
  /-- the capture queue, oldest first (06 R181, R182) -/
  queue : List CapEntry := []
  /-- the entry in view (06 R183) -/
  view : Option CapEntry := none
  /-- latch sets of the two microengines (06 R189) -/
  lat0 : Nat := 0
  /-- latch set of the second microengine (06 R189) -/
  lat1 : Nat := 0
  /-- tick on which a written CNT is loaded (06 R174) -/
  loadTick : Option Nat := none
  /-- last event of MATCH0, MATCH1 and OVF: tick + 1, whether the flag was set, OVERRUN before it (12 R387) -/
  evTick : Tab (Nat × Bool × Bool) := []
  /-- last acknowledge of MATCH0, MATCH1 and OVF that found its flag set: tick + 1 (12 R387) -/
  ackTick : Tab Nat := []
  /-- GATED: the gate is active (06 R180) -/
  gate : Bool := false
  /-- tick of the last trigger by the Coach or the crossbar, which a second one on the tick merges with (06 R185) -/
  trigTick : Option Nat := none
  /-- tick on which the last STOP acted that ended a run (06 R184) -/
  stopTick : Option Nat := none
  /-- tick of the last STOP of the running or the stopped channel, against which START and RESTART of the tick lose (06 R185) -/
  stopCmd : Option Nat := none
  /-- tick on which MERGE was last advanced for the trigger input (06 R185) -/
  mergeTick : Option Nat := none
  /-- tick of the last change of the output level by a match or an action, and the level until then: the lane driver follows on the
  next tick (06 R177) -/
  outWas : Nat × Bool := (0, false)
  /-- tick of the last capture, and whether its entry has appeared (06 R181) -/
  capTick : Option Nat := none
  deriving DecidableEq, Repr

/-- One pin of a generator or of a pair: its level and the pulses planned for it (R205, R216). -/
structure FePin where
  /-- at its active level (07 R228) -/
  out : Bool := false
  /-- time of the rise that has gone out last, in fine steps of the tick count (07 R215) -/
  lr : Option Nat := none
  /-- time of the fall that has gone out last (07 R215) -/
  lf : Option Nat := none
  /-- planned pulses, rise and fall, oldest first; the first one's rise is out while the pin is active (07 R205) -/
  pulses : List (Nat × Nat) := []
  /-- tap of the line in use through which its last edge went out; none while edges go out on whole ticks (07 R205, 02 R44) -/
  tap : Option Nat := none
  deriving DecidableEq, Repr

/-- A retriggered start that waits for its s_0 (R209), with the set it copied (R213). -/
structure FeAgain where
  /-- s_0 in fine steps (07 R209) -/
  s0 : Nat := 0
  /-- period (07 R213) -/
  p : Nat := 512
  /-- active time (07 R213) -/
  w : Nat := 0
  /-- dead time (07 R213) -/
  dt : Nat := 0
  /-- minimum pulse (07 R213) -/
  minpw : Nat := 64
  /-- periods after the first (07 R208) -/
  left : Option Nat := none
  /-- tick on which the start acted (07 R211) -/
  tick : Nat := 0
  deriving DecidableEq, Repr

/-- A fine-edge generator; times in fine steps of the tick count. -/
structure Fe where
  /-- shadow period in fine steps (07 R212) -/
  shP : Nat := 512
  /-- shadow active time in fine steps (07 R212) -/
  shW : Nat := 0
  /-- shadow set before the last FINE write, and the tick of that write: a reload of its tick takes the older set (07 R213) -/
  shPrev : Nat × Nat := (512, 0)
  /-- tick of the last FINE write (07 R213) -/
  shTick : Option Nat := none
  /-- active set: period (07 R213) -/
  p : Nat := 512
  /-- active set: active time (07 R213) -/
  w : Nat := 0
  /-- active set: dead time (07 R213) -/
  dt : Nat := 0
  /-- active set: minimum pulse (07 R213) -/
  minpw : Nat := 64
  /-- start of the period in progress (07 R205) -/
  s : Nat := 0
  /-- length of the period in progress (07 R205) -/
  pCur : Nat := 512
  /-- the reload of the next period has been made (07 R213) -/
  reloaded : Bool := false
  /-- periods not yet planned; none: without end (07 R208) -/
  left : Option Nat := none
  /-- tick on which a stop acted (07 R210) -/
  stopAt : Option Nat := none
  /-- its last pulse has been merged with the first of the next period, which is not yet planned (07 R210, R215) -/
  mergeLeft : Bool := false
  /-- its own pin, the even member's in a pair (07 R216) -/
  pin : FePin := {}
  /-- the odd member's pin in a pair (07 R216) -/
  odd : FePin := {}
  /-- tick of the last accepted start (07 R211) -/
  startTick : Option Nat := none
  /-- who made it: 0 Coach, 1 trigger input, 2 CMD (07 R211) -/
  startBy : Nat := 0
  /-- retriggered starts that wait for their s_0, in the order of it (07 R209) -/
  again : List FeAgain := []
  /-- tick of the last stop or disable (07 R211) -/
  stopTick : Option Nat := none
  /-- RUN when that stop acted (07 R211) -/
  stopRun : Bool := false
  /-- starts that wait for the end of a switchover: s_0, tick, source (02 R38) -/
  lateStarts : List (Nat × Nat × Nat) := []
  /-- a reload waits for the end of a switchover (02 R38, 07 R213) -/
  lateCopy : Bool := false
  /-- an IMM write waits for the end of a switchover (02 R38, 07 R214) -/
  lateImm : Bool := false
  /-- tick from which it is frozen (07 R221) -/
  frozenAt : Option Nat := none
  /-- tick from which the pin drives under EN (07 R220) -/
  onFrom : Nat := 0
  /-- tick from which the pin is at its fused idle level (07 R219) -/
  idleFrom : Nat := 0
  /-- CTL.POL when the last disable acted (07 R219) -/
  polWas : Bool := false
  deriving DecidableEq, Repr

/-- A memory stream of an ibex FIFO (R248, R250). -/
structure Stream where
  /-- byte address of the next dword of the pass (08 R248) -/
  addr : Nat := 0
  /-- FIFO words of the pass for which no read has been issued, or which the RX stream has not yet taken (08 R248) -/
  toIssue : Nat := 0
  /-- reads in flight: byte address and words of each, oldest first (08 R248) -/
  inflight : List (Nat × Nat) := []
  /-- words that found no room (08 R248) -/
  held : List Nat := []
  /-- RX: words of an incomplete group and the tick since which it waits (08 R250) -/
  group : List Nat := []
  /-- RX: tick since which the group waits (08 R250) -/
  since : Nat := 0
  /-- reads in flight that belong to a stopped pass (08 R248) -/
  old : Nat := 0
  deriving DecidableEq, Repr

/-- An ibex pin engine. -/
structure Ibex where
  /-- program memory; an unlisted word is END with CODE 0 (08 R229, R260) -/
  prog : Tab Nat := []
  /-- PINS (08 R233) -/
  pins : Nat := 0
  /-- DIRS (08 R233) -/
  dirs : Nat := 0
  /-- tick from which the lane drivers show PINS and DIRS (08 R235) -/
  pinTick : Nat := 0
  /-- PINS and DIRS that the lane drivers show before that tick (08 R235) -/
  pinWas : Nat × Nat := (0, 0)
  /-- tick from which the lanes of an engine with EN at 0 are at their idle levels, and those of one with EN at 1 are driven (08 R233) -/
  offFrom : Nat := 0
  /-- level of the companion clock lane (08 R234) -/
  clk : Bool := false
  /-- tick from which the clock lane driver shows its level (08 R235) -/
  clkTick : Nat := 0
  /-- the last levels given to the clock lane driver, newest first, each with the tick from which the driver shows it (08 R235) -/
  clkDrv : List (Nat × Bool) := []
  /-- the clock gate is open (08 R234) -/
  gate : Bool := false
  /-- boundary on which the clock lane toggles (08 R234) -/
  toggle : Option Nat := none
  /-- tick on which the next instruction issues (08 R242) -/
  next : Nat := 0
  /-- TX FIFO, oldest first (08 R229) -/
  tx : List Nat := []
  /-- RX FIFO, oldest first (08 R229) -/
  rx : List Nat := []
  /-- tick on which the stall's condition was first met: a word entered the TX FIFO or left the RX FIFO (08 R246) -/
  moved : Option Nat := none
  /-- tick since which it is stalled (08 R246) -/
  stallFrom : Nat := 0
  /-- an END has issued: its CODE; the engine stops at the boundary (08 R256) -/
  ending : Option Nat := none
  /-- a STOP acts at the first boundary at or after this tick (08 R254) -/
  stopping : Option Nat := none
  /-- a freeze acts at the first boundary at or after this tick (08 R259) -/
  freezing : Option Nat := none
  /-- state before the freeze, coded as STATUS.STATE (08 R259) -/
  before : Nat := 0
  /-- TX stream (08 R248) -/
  txs : Stream := {}
  /-- RX stream (08 R250) -/
  rxs : Stream := {}
  /-- stopped by a handover, or stopped and armed as a spare by a write of HOCTL: exempt from LANE_ERR (08 R232) -/
  exempt : Bool := false
  /-- tick on which it last gave or took a group (14 R420) -/
  hoTick : Option Nat := none
  deriving DecidableEq, Repr

/-- A write or read of a microengine that reaches a block of its quadrant on a later tick (R285, R288). -/
inductive MeIo where
  /-- an I/O write of `v` at `off` -/
  | wr (off : Nat) (v : Word)
  /-- an I/O read at `off`; the value lands in IO.d -/
  | rd (off : Nat)
  /-- a write of a bit of the quadrant's blocks -/
  | bit (addr : Nat) (b : Bool)
  /-- a write of a semaphore -/
  | sem (addr : Nat) (b : Bool)
  /-- BIT.tas on a semaphore -/
  | tas (addr : Nat)
  deriving DecidableEq, Repr

/-- A microengine. Values of its ports are kept by port number; a port not listed holds 0. -/
structure Me where
  /-- register and result ports by number; beyond them 0x1000: address + 1 of a load that met an uncorrectable error, 0x2000 + k: bit address of window k (09 R276, R281, R288); the reset values are those of CRC.poly and of the CALL registers -/
  ports : Tab Nat := [(0x0DA, 0x7000), (0x0DB, 0x6C00), (0x0DC, 0x7000), (0x300, 0x1021)]
  /-- results on their way: tick from which the port shows it, port, value, in trigger order (09 R273) -/
  res : List (Nat × Nat × Nat) := []
  /-- image banks: word of bank b at address a under b × 16,384 + a (09 R264) -/
  img : Tab Nat := []
  /-- data scratch by 32-bit word (09 R264) -/
  scratch : Tab Nat := []
  /-- tick from which the next word may issue (09 R266, R275) -/
  next : Nat := 0
  /-- issues of the word at PC still to come in a repeat; 0 outside one (09 R292) -/
  rep : Nat := 0
  /-- tick of the first issue since the last start; none before a start (09 R293, R303) -/
  started : Option Nat := none
  /-- TIME.wait: the value waited for (09 R293) -/
  waitFor : Option Nat := none
  /-- TIME.slp: the mask of event bits (09 R294) -/
  sleepFor : Nat := 0
  /-- stacked-memory load or atomic outstanding: data address and kind, 0 load, 1 faa, 2 faa64, 3 swp (09 R281, R282) -/
  load : Option (Nat × Nat) := none
  /-- Coach requests outstanding (09 R286) -/
  coachOut : Nat := 0
  /-- Coach requests settled whose results are on their way to the port: CODE and COUNT (09 R286) -/
  coachDone : List (Nat × Nat) := []
  /-- Coach results queued, oldest first (09 R286) -/
  coachRes : List (Nat × Nat) := []
  /-- a Coach result was dropped since the last read of COACH.st (09 R286) -/
  coachLost : Bool := false
  /-- record queue: the eight dwords of each record, oldest first (09 R287) -/
  recs : List (List Nat) := []
  /-- event bits (09 R264) -/
  events : Nat := 0
  /-- the engine's copy of the housekeeping matches (09 R289) -/
  hk : Nat := 0
  /-- housekeeping matches that reach the copy on the next even tick (01 R22, 09 R289) -/
  hkNext : Nat := 0
  /-- transposer: rows of the fill bank (09 R300) -/
  fill : List Nat := []
  /-- transposer: columns of the drain bank still to read (09 R300) -/
  drain : List Nat := []
  /-- transposer: tick on which the banks swap (09 R300) -/
  swapAt : Option Nat := none
  /-- what is on its way to the quadrant's blocks, with its tick, oldest first (09 R285, R288) -/
  io : List (Nat × MeIo) := []
  /-- EN has gone to 0 and the word under way goes on to its boundary (09 R304) -/
  stopping : Bool := false
  /-- state before a debug halt (09 R302) -/
  before : Nat := 0
  /-- recent changes of STATE or SYS.pri, newest first: tick, STATE and priority before it (12 R378) -/
  hist : List (Nat × Nat × Nat) := []
  deriving DecidableEq, Repr

/-- Who waits for a stacked-memory request. -/
inductive MemWho where
  /-- microengine e (09 R281) -/
  | me (e : Nat)
  /-- the TX stream of ibex e (08 R248) -/
  | txs (e : Nat)
  /-- the RX stream of ibex e (08 R250) -/
  | rxs (e : Nat)
  deriving DecidableEq, Repr

/-- A request waiting at a bank of stacked memory. -/
structure MemReq where
  /-- requester (10 R307) -/
  who : MemWho
  /-- 0 read, 1 write, 2 atomic (10 R307) -/
  kind : Nat := 0
  /-- 16-byte word A[25:4] (10 R306) -/
  word : Nat := 0
  /-- bytes written, bit i for byte i (10 R307) -/
  mask : Nat := 0
  /-- data of a write or operand of an atomic (10 R316) -/
  data : Nat := 0
  /-- atomic: 0 faa, 1 faa64, 2 swp (09 R282) -/
  op : Nat := 0
  /-- byte of the word an atomic works at (09 R282) -/
  lane : Nat := 0
  /-- tick on which it reached the bank (10 R318) -/
  at_ : Nat := 0
  /-- the value a read must return that met a spine-side write (10 R318) -/
  snap : Option Nat := none
  deriving DecidableEq, Repr

/-- The outcome of a read or an atomic on its way back. -/
structure MemRes where
  /-- requester (10 R312) -/
  who : MemWho
  /-- the 16-byte word read, or what an atomic read (10 R316) -/
  data : Nat := 0
  /-- uncorrectable (10 R312) -/
  err : Bool := false
  deriving DecidableEq, Repr

/-- A move unit at work (R319). -/
structure Move where
  /-- 16-byte word to read next (10 R319) -/
  src : Nat := 0
  /-- 16-byte word to write next (10 R319) -/
  dst : Nat := 0
  /-- words moved (10 R320) -/
  done : Nat := 0
  /-- CMD.STOP: it ends after the word in progress (10 R320) -/
  stopping : Bool := false
  deriving DecidableEq, Repr

/-- A write applied at a bank on one tick, for what the other port does on that tick (R318). -/
structure Touch where
  /-- tick (10 R318) -/
  tick : Nat := 0
  /-- 16-byte word (10 R318) -/
  word : Nat := 0
  /-- it came by the spine-side port (10 R317) -/
  spine : Bool := false
  /-- the word before the write, and whether that was uncorrectable (10 R318) -/
  old : Nat × Bool := (0, false)
  /-- bytes written (10 R318) -/
  mask : Nat := 0
  /-- data written (10 R318) -/
  data : Nat := 0
  deriving DecidableEq, Repr

/-- The memory controller. -/
structure MemCtl where
  /-- requests in order of arrival (10 R308) -/
  reqs : List MemReq := []
  /-- outcomes on their way back, oldest first (10 R308) -/
  results : List MemRes := []
  /-- classes last granted at each logical bank, newest first, at most 15 (01 R20) -/
  slots : Tab (List Nat) := []
  /-- logical bank under a sparing copy (10 R324) -/
  copy : Option Nat := none
  /-- sparing triggers that wait for the return of a borrowed slice (10 R323) -/
  waiting : List Nat := []
  /-- the spare bank has failed its test and is refused (14 R422) -/
  spareBad : Bool := false
  /-- the borrowed slice (10 R326) -/
  borrow : Option Nat := none
  /-- words of the borrowed slice that the mirror holds, from its first on (10 R326) -/
  mirrored : Nat := 0
  /-- writes applied on the present tick, newest first (10 R318) -/
  touched : List Touch := []
  /-- physical words whose correction is to be written back, oldest first (10 R311) -/
  wback : List Nat := []
  /-- tick + 1 of the last MEM_CE record of each physical bank (10 R314) -/
  ceRec : Tab Nat := []
  /-- ticks of the CEs of each physical bank within the sparing window (10 R323) -/
  ceWin : Tab (List Nat) := []
  /-- next physical word of the patrol scrub (10 R315) -/
  scrub : Nat := 0
  /-- tick of the last scrub read (10 R315) -/
  scrubLast : Nat := 0
  /-- tick from which a memory that wakes accepts its first access (10 R322) -/
  wakeAt : Option Nat := none
  /-- move units 0 to 63 (10 R319) -/
  moves : Tab Move := []
  deriving DecidableEq, Repr

/-- The cells of stacked memory: 17 physical banks of 262,144 words; the physical word number is bank × 262,144 + index,
and the mirror buffer follows as words 17 × 262,144 on (10 R326). -/
structure MemArr where
  /-- stored data symbols: byte 16 × physical word + k is symbol Sk; an unlisted one is 0 (10 R309, R329) -/
  data : Tab Byte := []
  /-- how the stored check symbols of a physical word differ from those of its stored data symbols, C0 highest (10 R309) -/
  chk : Tab (BitVec 24) := []
  /-- words that hold the poison code (10 R313) -/
  poison : Tab Bool := []
  deriving DecidableEq, Repr

/-- A write that a commit group holds (R395 to R398). -/
structure Staged where
  /-- BAR0 offset (13 R395) -/
  off : Nat := 0
  /-- value (13 R394) -/
  v : Word := 0
  /-- quadrant whose commit buffer takes it (13 R397) -/
  q : Nat := 0
  /-- it sits in the commit buffer (13 R398) -/
  landed : Bool := false
  /-- the descriptor that brought it; none for the staging port (13 R394) -/
  flight : Option Nat := none
  /-- template whose page is still being checked for it (13 R395, 05 R155) -/
  check : Option Nat := none
  /-- an image swap of this microengine (13 R395, 14 R416) -/
  swap : Option Nat := none
  deriving DecidableEq, Repr

/-- How and when a group fires, once that is settled (R403). -/
structure GroupFire where
  /-- commit tick C (13 R399) -/
  c : Nat := 0
  /-- late (13 R408) -/
  late : Bool := false
  /-- Coach status byte (13 R408) -/
  status : Nat := 0
  /-- lateness in ticks (13 R408) -/
  lateness : Nat := 0
  deriving DecidableEq, Repr

/-- A commit group beside its STATE and KEY registers. -/
structure Group where
  /-- writes in staging order (13 R396) -/
  writes : List Staged := []
  /-- the settled firing (13 R403) -/
  fire : Option GroupFire := none
  /-- key of a TIME arming in STIME ticks (13 R403) -/
  key : Option Nat := none
  /-- number of the arming entry that is in the Coach; 0 for none (13 R404) -/
  arming : Nat := 0
  deriving DecidableEq, Repr

/-- A snapshot that waits for its tick or whose image is being written (R410, R411). -/
structure Snap where
  /-- set (13 R409) -/
  s : Nat := 0
  /-- trigger: 0 descriptor, 1 Coach, 2 commit (13 R412) -/
  trig : Nat := 0
  /-- snapshot tick S (13 R410) -/
  due : Nat := 0
  /-- the descriptor that asked (13 R411) -/
  flight : Option Nat := none
  /-- STIME of S (13 R412) -/
  time : Nat := 0
  /-- the set's CFG word on S (13 R414) -/
  cfg : Word := 0
  /-- the image's dwords (13 R412) -/
  image : List Nat := []
  deriving DecidableEq, Repr

/-- The commit and snapshot unit. -/
structure Cmt where
  /-- groups 0 to 31 (13 R392) -/
  groups : Tab Group := []
  /-- number of the last POS arming; the model's own name for an arming entry (13 R404) -/
  armNo : Nat := 0
  /-- commit tick of the last firing and the registers written for that tick (13 R401) -/
  lastC : Option (Nat × List Nat) := none
  /-- snapshots triggered and not yet taken, oldest first (13 R410) -/
  trigs : List Snap := []
  /-- images in the two buffers, oldest first (13 R411) -/
  bufs : List Snap := []
  /-- image sequence counts of the sets (13 R412) -/
  seq : Tab Nat := []
  deriving DecidableEq, Repr

/-- A fault-log entry (R435). -/
structure FlEntry where
  /-- STIME of the event (14 R435) -/
  time : Nat := 0
  /-- CODE (14 R436) -/
  code : Nat := 0
  /-- ORIG (14 R435) -/
  orig : Nat := 4
  /-- LOST (14 R435) -/
  lost : Bool := false
  /-- SRC (14 R435) -/
  src : Nat := 0
  /-- SEQ (14 R435) -/
  seq : Nat := 0
  /-- cold starts since manufacture (14 R435) -/
  cold : Nat := 0
  /-- REPEAT (14 R437) -/
  rep : Nat := 0
  /-- D0 (14 R436) -/
  d0 : Nat := 0
  /-- D1 (14 R436) -/
  d1 : Nat := 0
  deriving DecidableEq, Repr

/-- A background test request (R421, R425). -/
structure TestReq where
  /-- unit kind (14 R422) -/
  kind : Nat := 0
  /-- unit index (14 R422) -/
  index : Nat := 0
  /-- an item of the patrol (14 R425) -/
  patrol : Bool := false
  /-- tick on which it reached the head of the queue (14 R423) -/
  head : Option Nat := none
  deriving DecidableEq, Repr

/-- The service unit. -/
structure Svc where
  /-- buffer of entries not yet in the store, oldest first (14 R434) -/
  flBuf : List FlEntry := []
  /-- entries were lost since the last one accepted (14 R434) -/
  flLostNext : Bool := false
  /-- CODE, SRC and STIME of the log's last entry, and whether it is in the store (14 R437) -/
  flLast : Option (Nat × Nat × Nat × Bool) := none
  /-- occurrences to merge into the last entry of the store (14 R437) -/
  flRep : Nat := 0
  /-- STIME of the last rewrite of that entry (14 R437) -/
  flRewrite : Nat := 0
  /-- cold starts since manufacture, as read from the store (14 R435) -/
  cold : Nat := 0
  /-- test requests, oldest first (14 R421) -/
  queue : List TestReq := []
  /-- the test that runs and the tick on which it began (14 R421) -/
  running : Option (TestReq × Nat) := none
  /-- next item of the patrol, 0 to 1,028 (14 R425) -/
  patrolNext : Nat := 0
  /-- tick of the patrol's last tick (14 R425) -/
  patrolLast : Nat := 0
  /-- DBGLOCK level in force (15 R453) -/
  dbgLevel : Nat := 0
  /-- tick on which the presence window opened (15 R449) -/
  presOpen : Option Nat := none
  /-- fuse pairs still to program, oldest first, and the descriptor that programs them (15 R447) -/
  fuseJob : Option (Nat × List (Nat × Nat)) := none
  /-- fuse words programmed so far by that descriptor (15 R447) -/
  fuseDone : Nat := 0
  deriving DecidableEq, Repr
/-- The non-volatile store. -/
structure NvStore where
  /-- bytes of the boot, user, calibration and device-held regions by store offset; an unlisted one is 0 (15 R452) -/
  data : Tab Byte := []
  /-- sparing map: the logical bank on the spare (10 R324) -/
  spare : Option Nat := none
  /-- keep area of the fault log, oldest first (14 R434) -/
  keep : List FlEntry := []
  /-- ring of the fault log, oldest first (14 R434) -/
  ring : List FlEntry := []
  /-- SEQ of the next entry (14 R435) -/
  seq : Nat := 0
  /-- cold starts since manufacture (14 R435) -/
  cold : Nat := 0
  deriving DecidableEq, Repr

/-- The fuse array: programmed words; an unlisted one is blank, 0 (15 R443). -/
structure FuseArr where
  /-- word by number, 0 to 63 (15 R443) -/
  data : Tab Word := []
  deriving DecidableEq, Repr

/-- Power, reset and the always-on domain. -/
structure Power where
  /-- the device has left cold reset (16 R461) -/
  released : Bool := false
  /-- VAON is good (16 R462) -/
  vaon : Bool := true
  /-- fuse load has ended: idle latches hold their levels (16 R464) -/
  fuses : Bool := false
  /-- cause of the last cold reset: 0 power-up, 1 RST_N, 2 PWR.CTL.COLD, 3 core supply loss (16 R478) -/
  cause : Nat := 0
  /-- I/O rails that are good: VDDIO[0] to [15], then VDDFE[0] to [3] (16 R461) -/
  railGood : Nat := 0
  /-- I/O rails in 3.3 V mode, as railGood (17 R486) -/
  railV33 : Nat := 0
  /-- SERVICE_N is low after its debounce (15 R449) -/
  serviceLow : Bool := false
  /-- openings of the seal loop latched while TCLK was stopped and not yet reported (15 R455) -/
  sealLatched : Nat := 0
  /-- SLEEP entry has begun (16 R470) -/
  entering : Bool := false
  /-- STIME at the ACLK edge of SLEEP entry, while asleep (02 R53) -/
  s0 : Option Nat := none
  /-- the wake timeline has begun (16 R473) -/
  waking : Bool := false
  /-- tick from which the device may reach RUN in a wake (16 R473) -/
  runAt : Option Nat := none
  /-- tick since which the junction has been at U + 15 °C or above (16 R476) -/
  hotSince : Option Nat := none
  /-- last temperature sample at or above U (16 R476) -/
  hot : Bool := false
  /-- quadrants isolated for heat (16 R476) -/
  heatIso : Nat := 0
  /-- writes to a gated block held in IDLE: writer code, offset, value, oldest first (16 R469) -/
  held : List (Nat × Nat × Word) := []
  /-- tick on which IDLE ends for an access to a gated block (16 R469) -/
  idleEnd : Option Nat := none
  deriving DecidableEq, Repr

/-- Everything of the block but the queue, the memories and the fuse array. -/
structure Dev where
  /-- ticks of TCLK since it first ran: the model's own count for what is due at a tick (log 1) -/
  tick : Nat := 0
  /-- STIME (02 R29) -/
  stime : DWord := 0
  /-- the BAR0 registers by offset; an unlisted one holds its reset word (18 R512 to R514) -/
  regs : Tab Word := []
  /-- HI halves written and held until the LO half is written (03 R82, R90) -/
  heldHi : Tab Word := []
  /-- register writes that take effect on the tick after them, not landed yet (18 R508) -/
  late : List LateWrite := []
  /-- HI halves and companions latched by a read of the LO half (02 R32) -/
  latched : Tab Word := []
  /-- per quadrant: records, reset, calibration (01 R8) -/
  quads : Tab Quad := []
  /-- CONV pins 0 to 15 (01 R27) -/
  convs : Tab Conv := []
  /-- routed events on their way, oldest first (01 R23) -/
  xev : List XEvent := []
  /-- record unit (12) -/
  ru : RecUnit := {}
  /-- host interface (11) -/
  host : HostIf := {}
  /-- timebase (02) -/
  tb : TbState := {}
  /-- twin lines: generators 0 to 255, axis inputs 256 + 3a + p, lanes 512 + n (02 R44) -/
  lines : Tab Lines := []
  /-- housekeeping timers 0 to 31 (02 R51) -/
  hks : Tab HkState := []
  /-- axes 0 to 7 (03) -/
  axes : Tab Axis := []
  /-- messages from axes to slices, oldest first (04 R101) -/
  msgs : List AxMsg := []
  /-- emulators 0 to 7 (04) -/
  emus : Tab Emu := []
  /-- Coach slices 0 to 3 (05) -/
  slices : Tab Slice := []
  /-- carriages 0 to 2,047 (05) -/
  cars : Tab Carriage := []
  /-- templates 0 to 255 (05) -/
  tpls : Tab Tpl := []
  /-- timer channels 0 to 1,023 (06) -/
  tcs : Tab Tc := []
  /-- fine-edge generators 0 to 255 (07) -/
  fes : Tab Fe := []
  /-- ibex engines 0 to 63 (08) -/
  ibxs : Tab Ibex := []
  /-- everything that has left the block, oldest first; the model's own record of it (log 4) -/
  out : List Output := []
  /-- the model's own counter of free values taken (log 5) -/
  free : Nat := 0
  /-- service unit (14, 15) -/
  svc : Svc := {}
  /-- memory controller and move units (10) -/
  mc : MemCtl := {}
  /-- commit and snapshot unit (13) -/
  cmt : Cmt := {}
  /-- microengines 0 to 7 (09) -/
  mes : Tab Me := []
  /-- power, reset and the always-on domain (16) -/
  pw : Power := {}
  deriving DecidableEq, Repr

/-- The state of the block: the queue of waiting commands, and everything else. -/
structure State where
  /-- the commands that wait, first in first out; the model's own (log 1) -/
  pending : List Instr := []
  /-- everything but the memories and the fuse array (01 to 18) -/
  dev : Dev := {}
  /-- stacked memory (10) -/
  mem : MemArr := {}
  /-- non-volatile store (15 R452) -/
  nvs : NvStore := {}
  /-- the fuse array (15 R443) -/
  fuse : FuseArr := {}
  deriving DecidableEq, Repr

/-- The machine right after reset: every register at the value the specification gives, memories with nothing listed, TCLK not
yet running; values the specification does not give are named in log 2. -/
def State.reset : State := {}

end Sys2Proof.Machine
end

