-- ==== Sys2Proof/Machine/Ops.lean ====
section
/-! DEFINITION. The named operations that all meanings share: reading and writing registers and fields, saturating counters, time
stamps, event records, crossbar events, the fault log's entry point, the reserved-write flag, fuses in force. -/

namespace Sys2Proof.Machine

/-! ## Registers -/

/-- The word stored for the register at `off` (R3). -/
def Dev.word (d : Dev) (off : Nat) : Word := Tab.get (resetWord off) d.regs off

/-- The state with `v` stored at `off`. -/
def Dev.setWord (d : Dev) (off : Nat) (v : Word) : Dev :=
  { d with regs := Tab.set (resetWord off) d.regs off v }

/-- The field of width `w` at bit `lo` of a number. -/
def bits (n lo w : Nat) : Nat := (n >>> lo) % 2 ^ w

/-- The number `n` with the field of width `w` at bit `lo` replaced by `v`. -/
def putBits (n lo w v : Nat) : Nat := n - (bits n lo w) * 2 ^ lo + (v % 2 ^ w) * 2 ^ lo

/-- The value of a field. -/
def Dev.get (d : Dev) (f : Fld) : Nat := bits (d.word f.off).toNat f.lo f.w

/-- The state with a field set. -/
def Dev.put (d : Dev) (f : Fld) (v : Nat) : Dev :=
  d.setWord f.off (BitVec.ofNat 32 (putBits (d.word f.off).toNat f.lo f.w v))

/-- A one-bit field as a truth value. -/
def Dev.flag (d : Dev) (f : Fld) : Bool := d.get f != 0

/-- A number for a truth value. -/
def b2n (b : Bool) : Nat := if b then 1 else 0

/-- The state with a one-bit field set to `b`. -/
def Dev.putB (d : Dev) (f : Fld) (b : Bool) : Dev := d.put f (b2n b)

/-- The state with a flag raised. -/
def Dev.raise (d : Dev) (f : Fld) : Dev := d.put f 1

/-- The state with a counter field advanced by `n`, saturating at the field's greatest value (the counters "saturate"). -/
def Dev.addSat (d : Dev) (f : Fld) (n : Nat) : Dev := d.put f (min (d.get f + n) (2 ^ f.w - 1))

/-- The state with a counter field advanced by one, saturating. -/
def Dev.incSat (d : Dev) (f : Fld) : Dev := d.addSat f 1

/-- The state with a counter field advanced by one, modulo its width. -/
def Dev.incWrap (d : Dev) (f : Fld) : Dev := d.put f (d.get f + 1)

/-- A 64-bit value held in a LO and a HI register. -/
def Dev.pair (d : Dev) (lo hi : Nat) : Nat := (d.word lo).toNat + 2 ^ 32 * (d.word hi).toNat

/-- The state with a 64-bit value stored in a LO and a HI register. -/
def Dev.setPair (d : Dev) (lo hi v : Nat) : Dev :=
  (d.setWord lo (BitVec.ofNat 32 v)).setWord hi (BitVec.ofNat 32 (v >>> 32))

/-- The number `n` read as a two's-complement number of `w` bits. -/
def sgn (w n : Nat) : Int := if n % 2 ^ w < 2 ^ (w - 1) then (n % 2 ^ w : Int) else (n % 2 ^ w : Int) - 2 ^ w

/-- A whole number as a two's-complement number of `w` bits. -/
def uns (w : Nat) (i : Int) : Nat := (i % (2 ^ w : Int)).toNat

/-- `n` clamped to lie from `lo` to `hi` ("values outside act as the nearest"). -/
def clampN (lo hi n : Nat) : Nat := max lo (min hi n)

/-- `a / b` rounded to the nearest whole number, an exact half to the larger value (R206); 0 where `b` is 0. -/
def roundDiv (a b : Int) : Int := if b = 0 then 0 else (2 * a * b.sign + b.natAbs) / (2 * b.natAbs)

/-- Bit `i` of a number. -/
def bitAt (n i : Nat) : Bool := (n >>> i) % 2 == 1

/-- The number `n` with bit `i` set to `b`. -/
def setBitAt (n i : Nat) (b : Bool) : Nat := putBits n i 1 (b2n b)

/-! ## Blocks -/

/-- Quadrant `q`'s record of what is no register. -/
def Dev.quad (d : Dev) (q : Nat) : Quad := Tab.get {} d.quads q
/-- The state with quadrant `q` changed. -/
def Dev.modQuad (d : Dev) (q : Nat) (f : Quad → Quad) : Dev := { d with quads := Tab.mod {} d.quads q f }
/-- Axis `a`. -/
def Dev.axis (d : Dev) (a : Nat) : Axis := Tab.get {} d.axes a
/-- The state with axis `a` changed. -/
def Dev.modAxis (d : Dev) (a : Nat) (f : Axis → Axis) : Dev := { d with axes := Tab.mod {} d.axes a f }
/-- Emulator `a`. -/
def Dev.emu (d : Dev) (a : Nat) : Emu := Tab.get {} d.emus a
/-- The state with emulator `a` changed. -/
def Dev.modEmu (d : Dev) (a : Nat) (f : Emu → Emu) : Dev := { d with emus := Tab.mod {} d.emus a f }
/-- Slice `q`. -/
def Dev.slice (d : Dev) (q : Nat) : Slice := Tab.get {} d.slices q
/-- The state with slice `q` changed. -/
def Dev.modSlice (d : Dev) (q : Nat) (f : Slice → Slice) : Dev := { d with slices := Tab.mod {} d.slices q f }
/-- Carriage `c`. -/
def Dev.car (d : Dev) (c : Nat) : Carriage := Tab.get {} d.cars c
/-- The state with carriage `c` changed. -/
def Dev.modCar (d : Dev) (c : Nat) (f : Carriage → Carriage) : Dev := { d with cars := Tab.mod {} d.cars c f }
/-- Template `t`. -/
def Dev.tpl (d : Dev) (t : Nat) : Tpl := Tab.get {} d.tpls t
/-- The state with template `t` changed. -/
def Dev.modTpl (d : Dev) (t : Nat) (f : Tpl → Tpl) : Dev := { d with tpls := Tab.mod {} d.tpls t f }
/-- Channel `n`. -/
def Dev.tc (d : Dev) (n : Nat) : Tc := Tab.get {} d.tcs n
/-- The state with channel `n` changed. -/
def Dev.modTc (d : Dev) (n : Nat) (f : Tc → Tc) : Dev := { d with tcs := Tab.mod {} d.tcs n f }
/-- Generator `g`. -/
def Dev.fe (d : Dev) (g : Nat) : Fe := Tab.get {} d.fes g
/-- The state with generator `g` changed. -/
def Dev.modFe (d : Dev) (g : Nat) (f : Fe → Fe) : Dev := { d with fes := Tab.mod {} d.fes g f }
/-- Microengine `e`. -/
def Dev.me (d : Dev) (e : Nat) : Me := Tab.get {} d.mes e
/-- The state with microengine `e` changed. -/
def Dev.modMe (d : Dev) (e : Nat) (f : Me → Me) : Dev := { d with mes := Tab.mod {} d.mes e f }
/-- Commit group `g`. -/
def Dev.grp (d : Dev) (g : Nat) : Group := Tab.get {} d.cmt.groups g
/-- The state with commit group `g` changed. -/
def Dev.modGrp (d : Dev) (g : Nat) (f : Group → Group) : Dev :=
  { d with cmt := { d.cmt with groups := Tab.mod {} d.cmt.groups g f } }
/-- Ibex `e`. -/
def Dev.ibx (d : Dev) (e : Nat) : Ibex := Tab.get {} d.ibxs e
/-- The state with ibex `e` changed. -/
def Dev.modIbx (d : Dev) (e : Nat) (f : Ibex → Ibex) : Dev := { d with ibxs := Tab.mod {} d.ibxs e f }
/-- The twin lines of owner number `x`. -/
def Dev.line (d : Dev) (x : Nat) : Lines := Tab.get {} d.lines x
/-- The state with the twin lines of owner `x` changed. -/
def Dev.modLine (d : Dev) (x : Nat) (f : Lines → Lines) : Dev := { d with lines := Tab.mod {} d.lines x f }
/-- Function `f` as the link sees it. -/
def Dev.fn (d : Dev) (f : Nat) : Func := Tab.get {} d.host.fns f
/-- The state with function `f` changed. -/
def Dev.modFn (d : Dev) (f : Nat) (g : Func → Func) : Dev :=
  { d with host := { d.host with fns := Tab.mod {} d.host.fns f g } }
/-- Submission ring `k`'s fetch state. -/
def Dev.sring (d : Dev) (k : Nat) : SRing := Tab.get {} d.host.srs k
/-- The state with submission ring `k` changed. -/
def Dev.modSring (d : Dev) (k : Nat) (g : SRing → SRing) : Dev :=
  { d with host := { d.host with srs := Tab.mod {} d.host.srs k g } }

/-- `f` applied to the state for each number from `i` to `i + n - 1`, lowest first. -/
def forRange {σ : Type} (f : Nat → σ → σ) : Nat → Nat → σ → σ
  | _, 0, s => s
  | i, n + 1, s => forRange f (i + 1) n (f i s)

/-- Something leaves the block. -/
def Dev.emit (d : Dev) (o : Output) : Dev := { d with out := d.out ++ [o] }

/-- A free value and the state with the counter advanced (log 5). -/
def Dev.fresh (d : Dev) : BitVec 64 × Dev := (Config.freeWord d.free, { d with free := d.free + 1 })

/-! ## Time -/

/-- STIME as a number (R29). -/
def Dev.now (d : Dev) : Nat := d.stime.toNat

/-- STIME of tick `t` of the model's count, as far as no step lies between (R29). -/
def Dev.stimeAt (d : Dev) (t : Nat) : Nat := (d.now + t) - d.tick

/-- The first even STIME tick at or after tick `t`, as a tick (R22). -/
def Dev.evenTick (d : Dev) (t : Nat) : Nat := if (d.stimeAt t) % 2 = 0 then t else t + 1

/-- Ticks of a time in µs. -/
def usTicks (n : Nat) : Nat := n * 800

/-- Ticks of a time in ms. -/
def msTicks (n : Nat) : Nat := n * 800000

/-- CAL_DONE of quadrant `q` (R46). -/
def Dev.calDone (d : Dev) (q : Nat) : Bool := bitAt (d.get TB_STATUS_CAL_DONE) q

/-- A latch is taken inside a switchover window (R38). -/
def Dev.inWindow (d : Dev) : Bool := d.tb.window.isSome

/-- The stamp of tick `t` and fine step `fine` in quadrant `q`: fine 0 and FINE_UNCAL before the first calibration (R33),
CLOCK_SWITCH in a switchover (R38). -/
def Dev.stamp (d : Dev) (q t fine : Nat) : Stamp :=
  { time := d.stimeAt t, fine := if d.calDone q then fine else 0, clkSw := d.inWindow, uncal := !d.calDone q }

/-- The stamp of this tick at fine step 0 in a block of the spine, which belongs to no quadrant (R33). -/
def Dev.stampNow (d : Dev) : Stamp := { time := d.now, clkSw := d.inWindow }

/-! ## Fuses in force -/

/-- Fuse word `k` in force (R443, R458): the readback register. -/
def Dev.fw (d : Dev) (k : Nat) : Nat := (d.word (FUSE_W k)).toNat

/-! ## Quadrants -/

/-- Quadrant `q` is held: in reset, held by QHOLD, or isolated (R426, R429, R478). -/
def Dev.quadDown (d : Dev) (q : Nat) : Bool :=
  (d.quad q).inReset || bitAt (d.get SVC_QSTAT_ISO) q || bitAt (d.get SVC_QSTAT_HELD) q

/-- The device is in SLEEP, entering it or waking: channels do not count, the Coach does not arm, engines do not issue (R470, R473). -/
def Dev.napping (d : Dev) : Bool := 2 ≤ d.get PWR_STATUS_STATE

/-! ## The reserved-write flag -/

/-- R510, R511: a reserved write by origin code `o` at offset `off` sets the flag; the first one is recorded. -/
def Dev.reserved (d : Dev) (o off : Nat) : Dev :=
  let d := if d.flag GLB_RSVW_FLAG then d
    else ((d.raise GLB_RSVW_FLAG).put GLB_RSVW_ORIGIN o).put GLB_RSVW_OFFSET off
  d.incSat GLB_RSVWCNT_CNT

/-! ## Event records -/

/-- R15: source `source` of quadrant `q` raises a record on tick `t`; it drops it and counts it while records of another
tick are still pending (R376). -/
def Dev.raiseRecAt (d : Dev) (q source t : Nat) (r : Rec) : Dev :=
  if (d.quad q).pend.any (fun p => p.source == source && p.due != t + 2) then
    d.modQuad q (fun x => { x with drops := Tab.mod 0 x.drops source (fun n => min (n + 1) 255) })
  else d.modQuad q (fun x => { x with pend := x.pend ++ [{ source, due := t + 2, r := { r with orig := q } }] })

/-- R15: source `source` of quadrant `q` raises a record on this tick. -/
def Dev.raiseRec (d : Dev) (q source : Nat) (r : Rec) : Dev := d.raiseRecAt q source d.tick r

/-- R375: a spine block raises a record; the row SPINE_RECORD_BUFFER puts it into the buffer. -/
def Dev.spineRec (d : Dev) (r : Rec) : Dev :=
  { d with ru := { d.ru with raised := d.ru.raised ++ [{ r with orig := 4 }] } }

/-- A spine record of this tick. -/
def Dev.spineRecNow (d : Dev) (typ sub src p0 p1 p2 : Nat) : Dev :=
  d.spineRec { typ, sub, src, at_ := d.stampNow, p0, p1, p2 }

/-! ## Crossbar -/

/-- R193: the sinks of the ECLK domain. -/
def sinkIsEclk (sink : Nat) : Bool := (0x140 ≤ sink && sink < 0x180) || (0x1A0 ≤ sink && sink < 0x1C0)

/-- The enable and source of selector `k` of sink `s` of quadrant `q` (R204). -/
def Dev.selector (d : Dev) (q s k : Nat) : Bool × Nat :=
  let w := (d.word (0x10000 + q * 0x8000 + 0x5000 + s * 8 + (k / 2) * 4)).toNat
  if k % 2 = 0 then (bitAt w 15, bits w 0 12) else (bitAt w 31, bits w 16 12)

/-- The list without a pair whose first member stood in an earlier one: one event reaches a sink once, on its lowest selector. -/
def firstPerSink : Option Nat → List (Nat × Nat) → List (Nat × Nat)
  | _, [] => []
  | last, p :: r => if last = some p.1 then firstPerSink last r else p :: firstPerSink (some p.1) r

/-- The sinks of quadrant `q` whose selector words are listed: (sink, selector) pairs that select `source` (R194). -/
def Dev.selected (d : Dev) (q source : Nat) : List (Nat × Nat) :=
  let base := 0x10000 + q * 0x8000 + 0x5000
  firstPerSink none ((d.regs.filter (fun p => base ≤ p.1 && p.1 < base + 452 * 8)).flatMap (fun p =>
    let s := (p.1 - base) / 8
    let k := 2 * (((p.1 - base) % 8) / 4)
    (if d.selector q s k == (true, source) then [(s, k)] else []) ++
    (if d.selector q s (k + 1) == (true, source) then [(s, k + 1)] else [])))

/-- R23: the routed event at the sinks of quadrant `sq`, `lat` ticks after tick `t`. -/
def Dev.route (d : Dev) (sq source t lat : Nat) (at_ : Stamp) : List XEvent :=
  (d.selected sq source).map (fun p =>
    { q := sq, sink := p.1, sel := p.2, due := if sinkIsEclk p.1 then d.evenTick (t + lat) else t + lat, at_ })

/-- The export lines of quadrant `q` that carry `source` (R195). -/
def Dev.exportsOf (d : Dev) (q source : Nat) : List Nat :=
  (d.regs.filter (fun p => XLINE_EXPORT (64 * q) ≤ p.1 && p.1 < XLINE_EXPORT (64 * q) + 256)).filterMap (fun p =>
    let l := (p.1 - XLINE_EXPORT (64 * q)) / 4
    if d.flag (XLINE_EXPORT_EN (64 * q + l)) && d.get (XLINE_EXPORT_SRC (64 * q + l)) == source then some l else none)

/-- R23, R24, R26, R194: source `source` of quadrant `q` raises an event on tick `t` with the given stamp. It goes to every sink
that selects it now, and over its export lines to the sinks of the other quadrants; a quadrant that is down takes and gives
none (R426, R429). An event that reaches one sink over two export lines is two events there, which merge under R25 (log 56). -/
def Dev.raiseEventAt (d : Dev) (q source t : Nat) (at_ : Stamp) : Dev :=
  if d.quadDown q then d else
  let loc := d.route q source t 2 at_
  let far := (d.exportsOf q source).flatMap (fun l =>
    ([0, 1, 2, 3].filter (fun r => r != q && !d.quadDown r)).flatMap (fun r => d.route r (0x500 + q * 0x40 + l) t 6 at_))
  { d with xev := d.xev ++ loc ++ far }

/-- An event of this tick at fine step 0. -/
def Dev.raiseEvent (d : Dev) (q source : Nat) : Dev := d.raiseEventAt q source d.tick (d.stamp q d.tick 0)

/-! ## Writers -/

/-- Who makes a register write inside the block (R508, R515). -/
inductive Writer where
  /-- function f, by BAR0 -/
  | fn (f : Nat)
  /-- function f, by a descriptor (R351) -/
  | desc (f : Nat)
  /-- microengine e through I/O space -/
  | me (e : Nat)
  /-- the boot image -/
  | boot
  /-- a commit group -/
  | commit
  /-- a debugger over JTAG (R453) -/
  | debug
  deriving DecidableEq, Repr

/-- The writer that a command's sender is. -/
def writerOf : Sender → Writer
  | .fn f => .fn f
  | .me e => .me e

/-- R515: the origin code of GLB.RSVW; a debugger has none, 7 is the model's own (log 41). -/
def Writer.code : Writer → Nat
  | .fn f => f
  | .desc f => f
  | .boot => 4
  | .commit => 5
  | .debug => 7
  | .me e => 8 + e

/-- The function that writes; none where no function does. -/
def Writer.func : Writer → Option Nat
  | .fn f => some f
  | .desc f => some f
  | _ => none

/-- R508: the order in which writes of one tick reach a register, by their writer. The debugger's come with BAR0's (log 41). -/
def Writer.rank : Writer → Nat
  | .fn _ => 0
  | .desc _ => 1
  | .boot => 0
  | .debug => 0
  | .me e => 2 + e
  | .commit => 10

/-- The writer with a code. -/
def Writer.ofCode (c : Nat) : Writer :=
  if c < 4 then .fn c else if c = 4 then .boot else if c = 5 then .commit else if c < 8 then .debug else .me (c - 8)

/-- R444: the manager function, FW4.MGR. -/
def Dev.manager (d : Dev) : Nat := bits (d.fw 4) 8 2

/-- R444: the owner of quadrant `q`. -/
def Dev.qOwner (d : Dev) (q : Nat) : Nat := bits (d.fw 4) (2 * q) 2

/-- R443: the owner of submission ring `k`. -/
def Dev.srOwner (d : Dev) (k : Nat) : Nat := bits (d.fw (5 + k / 16)) (2 * (k % 16)) 2

/-- R443: the owner of return ring `k`. -/
def Dev.rrOwner (d : Dev) (k : Nat) : Nat := bits (d.fw (7 + k / 16)) (2 * (k % 16)) 2

/-- R443: the fused idle code of FE pin `n`: 0 low, 1 high, 2 high impedance. -/
def Dev.feIdle (d : Dev) (n : Nat) : Nat := bits (d.fw (16 + n / 16)) (2 * (n % 16)) 2

/-- R443: the fused idle code of field lane `l`. -/
def Dev.laneIdle (d : Dev) (l : Nat) : Nat := bits (d.fw (32 + l / 16)) (2 * (l % 16)) 2

/-! ## The fault log's buffer -/

/-- R437: an event of `code` and `src` merges with the last entry: whether that entry is in the store; none where it does not merge. -/
def Dev.flogMerge (d : Dev) (code src : Nat) : Option Bool :=
  match d.svc.flLast with
  | some (c, r, t, stored) => if c == code && r == src && d.now < t + 800000000 then some stored else none
  | none => none

/-- R434, R435, R437: an event for the fault log. An event like the last entry within one second is merged; a new one enters the
buffer of 32, or is lost, counted and reported by a SERVICE record (R440). -/
def Dev.flog (d : Dev) (code orig src d0 d1 : Nat) : Dev :=
  match d.flogMerge code src with
  | some true => { d with svc := { d.svc with flRep := d.svc.flRep + 1 } }
  | some false =>
    { d with svc := { d.svc with flBuf := d.svc.flBuf.dropLast ++
        (d.svc.flBuf.getLast?.map (fun e => { e with rep := min (e.rep + 1) 65535 })).toList } }
  | none =>
    if d.svc.flBuf.length < 32 then
      let e : FlEntry := { time := d.now, code, orig, lost := d.svc.flLostNext, src, seq := d.get SVC_FLOG_SEQ_SEQ,
                           cold := d.svc.cold % 65536, d0, d1 }
      ({ d with svc := { d.svc with flBuf := d.svc.flBuf ++ [e], flLostNext := false,
                                    flLast := some (code, src, d.now, false) } }).incWrap SVC_FLOG_SEQ_SEQ
    else
      let d := ({ d with svc := { d.svc with flLostNext := true } }).incSat SVC_FLOG_LOST_CNT
      d.spineRecNow 0x14 0x07 0 (d.get SVC_FLOG_LOST_CNT) 0 0

/-- An outcome that changes only the block behind the queue and the memories. -/
def onDev (s : State) (f : Dev → Dev) : Host.Outcome State Fault Refusal := .next { s with dev := f s.dev }

end Sys2Proof.Machine
end

