-- ==== Sys2Proof/Machine/Carriage.lean ====
section
/-! DEFINITION. Closing a carriage (R158): what every way of closing shares. -/

namespace Sys2Proof.Machine

/-- The entry belongs to carriage `c` (R156). -/
def Entry.ofCar (e : Entry) (c : Nat) : Bool := e.car == some c

/-- R158: entries of carriage `c` not yet fired are discarded without records; a slot that `keep` admits still fires. -/
def Dev.carDrop (d : Dev) (c : Nat) (keep : Slot → Bool) : Dev :=
  d.modSlice (c / 512) (fun s => { s with
    insq := s.insq.filter (fun r => !r.e.ofCar c)
    cal := s.cal.filter (fun p => !p.2.ofCar c)
    hor := s.hor.filter (fun e => !e.ofCar c)
    slots := (s.slots.filter (fun x => !x.e.ofCar c || x.orphan || keep x)).map (fun x =>
      if x.e.ofCar c then { x with orphan := true } else x) })

/-- R158: carriage `c` closes on tick `t` for `reason` (0 END, 1 ENTRY, 2 BACKED, 3 COMMAND): its entries, the CAR_CLOSE record, the
crossbar source; its index is free from the next tick. -/
def Dev.carClose (d : Dev) (c reason t : Nat) (keep : Slot → Bool) : Dev :=
  let x := d.car c
  if !x.isOpen then d else
  let b := uns 64 x.base
  let d := (d.carDrop c keep).modCar c (fun _ => { freeFrom := t + 1 })
  let d := d.raiseRecAt (c / 512) (0x170 + (c / 256) % 2) t
    { typ := 5, sub := reason, src := c, at_ := d.stamp (c / 512) t 0, p1 := b % 2 ^ 32, p2 := b >>> 32 }
  d.raiseEventAt (c / 512) (0x405 + 8 * ((c / 256) % 2)) t (d.stamp (c / 512) t 0)

/-- R143: the time at which a slot fires, in fine steps of STIME: its set or predicted one, or for an edge-armed slot that of the latch that crossed
its key. -/
def Slot.due (x : Slot) : Option Int := if x.kind = 2 then x.crossed else some x.f

/-- R158: a slot that is live and due within 4 ticks. -/
def Dev.slotDueSoon (d : Dev) (x : Slot) : Bool :=
  x.live && (match x.due with
    | some f => decide (f / 64 < (d.now : Int) + 4)
    | none => false)

/-- R158, BACKED: every open carriage of axis `a` whose base lies more than BACKLIM counts above T closes; entries not yet fired are
discarded. -/
def Dev.carBacked (d : Dev) (a : Nat) (t16 : Int) (t : Nat) : Dev :=
  let lim := d.get (CAR_BACKLIM_COUNTS a)
  if lim = 0 then d else
  let cs := (d.cars.filter (fun p => p.1 / 256 == a && p.2.isOpen && decide (t16 + (lim : Int) * 65536 < p.2.base))).map (fun p => p.1)
  cs.foldl (fun d c => d.carClose c 2 t (fun _ => false)) d

end Sys2Proof.Machine
end

