-- ==== Sys2Proof/Machine/Estimator.lean ====
section
/-! DEFINITION. The estimator of an axis (R96 to R109): run, velocity, extrapolation, predictions, HOLD, standstill, and the messages
to the slices. -/

namespace Sys2Proof.Machine

/-! ## What the estimator knows -/

/-- R99: extrapolation of axis `a` is on. -/
def Dev.axExt (d : Dev) (a : Nat) : Bool :=
  let x := d.axis a
  decide (clampN 4 64 (d.get (AXIS_ESTCFG_HIST a)) ≤ x.run) && !d.flag (AXIS_ESTCFG_NOEXT a) && x.excess == 0 && !x.stopped

/-- R100: the clamp span S in 1/65,536 count. -/
def Dev.axSpan (d : Dev) (a : Nat) : Int :=
  if 3 ≤ d.get (AXIS_CFG_MODE a) then
    match (d.axis a).hist with
    | (t1, _) :: (t0, _) :: _ => 2 * ((t1 - t0).natAbs : Int) + 65536
    | _ => 65536
  else 65536

/-- What the estimator of axis `a` knows, its last latch written on tick `t`. -/
def Dev.axView (d : Dev) (a t : Nat) : AxView :=
  let x := d.axis a
  { t16 := x.t16, ft := (x.hist.head?.map (fun p => p.2)).getD 0, tick := t, stime := d.stimeAt t, vel := x.vel, ext := d.axExt a,
    rev := d.flag (AXIS_STATUS_DIR a), span := d.axSpan a, hist := x.hist }

/-- R100, R206: the extrapolated position at time `ft` in fine steps, and whether it is at the clamp: whether the unrounded travel since the latch
reaches S − 2^-16. Before the time of the latch the travel is negative. -/
def AxView.extrapolate (v : AxView) (ft : Nat) : Int × Bool :=
  let dt : Int := (ft : Int) - v.ft
  if v.ext then
    if (v.span - 1) * 2 ^ 30 ≤ v.vel.natAbs * dt then (v.t16 + v.vel.sign * (v.span - 1), true)
    else (v.t16 + roundDiv (v.vel * dt) (2 ^ 30), false)
  else (v.t16, false)

/-- R101, R206: the predicted crossing time of a key that lies ahead, in fine steps. -/
def AxView.predict (v : AxView) (key : Int) : Option Int :=
  if v.ext ∧ v.vel ≠ 0 ∧ 0 < (key - v.t16) * v.vel.sign then some ((v.ft : Int) + roundDiv ((key - v.t16) * 2 ^ 30) v.vel) else none

/-! ## Messages -/

/-- R101, R103, R127: what axis `a` tells the slices on tick `t` reaches its own quadrant's 2 ticks later and the others' after 6. -/
def Dev.axSend (d : Dev) (a t : Nat) (m : AxMsg) : Dev :=
  let v := d.axView a t
  { d with msgs := d.msgs ++ [0, 1, 2, 3].map (fun q => { m with q := q, a := a, due := if q = a / 2 then t + 2 else t + 6, view := v }) }

/-- R103, R104: a HOLD is counted and shown. -/
def Dev.axHoldShown (d : Dev) (a : Nat) : Dev := (d.raise (AXIS_ESTSTAT_HOLD_ISSUED a)).incSat (AXIS_HOLDCNT_CNT a)

/-- Remembers what the estimator held before tick `t` (R119). -/
def Dev.axRemember (d : Dev) (a t : Nat) (v : AxView) : Dev :=
  d.modAxis a (fun x => { x with recent := (t, v) :: x.recent.filter (fun p => d.tick < p.1 + 8) })

/-- What the estimator held on tick `f` (R119). -/
def Dev.axViewAt (d : Dev) (a f : Nat) : AxView :=
  match ((d.axis a).recent.filter (fun p => decide (f < p.1))).getLast? with
  | some p => p.2
  | none => d.axView a d.tick

/-! ## Latches -/

/-- R97, R98, R104, R105: the estimator takes a latch of axis `a` at time `ft`, written on tick `t`; `x.t16` is already T of the latch. The
result of a division by a zero interval is not stated: it is a free value (log 5). -/
def Dev.estLatch (d : Dev) (a t ft : Nat) (rev brk : Bool) : Dev :=
  let x := d.axis a
  let stop := usTicks (max 1 (d.get (AXIS_ESTSTOP_STOP a))) * 64
  let long := match x.hist with
    | (_, p) :: _ => decide (p + stop < ft)
    | [] => false
  let anew := x.run == 0 || x.runNext || rev || brk || x.stopped || long
  let n := if anew then 1 else min 64 (x.run + 1)
  let hist := ((x.t16, ft) :: x.hist).take 64
  let w := min (max 1 (d.get (AXIS_ESTCFG_WIN a))) (n - 1)
  let d := if anew then d.raise (AXIS_ESTSTAT_REBUILD a) else d
  let old := (hist[w]?).getD (0, 0)
  let open_ := decide (2 ≤ n) && old.2 == ft
  let v := if n < 2 then 0
    else if open_ then sgn 64 d.fresh.1.toNat
    else roundDiv ((x.t16 - old.1) * 2 ^ 30) ((ft : Int) - old.2)
  let d := if open_ then d.fresh.2 else d
  d.modAxis a (fun x => { x with hist := hist, run := n, vel := v, lastLatch := t, stopped := false, holdDone := false, runNext := false,
                                 stale := false })

/-- R106: a jump of T by `size` is added to every position of the history. -/
def Dev.estShift (d : Dev) (a : Nat) (size : Int) : Dev :=
  d.modAxis a (fun x => { x with hist := x.hist.map (fun p => (p.1 + size, p.2)) })

/-! ## HOLD and standstill -/

/-- R103: the HOLD of axis `a` is due on the tick within which its time lies. -/
def Dev.axHoldDue (d : Dev) (a : Nat) : Bool :=
  let x := d.axis a
  match x.hist with
  | [] => false
  | (_, ft) :: _ =>
    d.tb.running && decide (2 ≤ x.run) && x.vel != 0 && !x.holdDone && !x.stopped &&
    decide ((max 16 (d.get (AXIS_ESTCFG_HOLDF a)) : Int) * d.axSpan a * 2 ^ 30 < 16 * (x.vel.natAbs : Int) * (((d.now + 1) * 64 : Nat) - ft : Int))

/-- R103: the estimator issues the HOLD that is due. -/
def Dev.axHold (d : Dev) (a : Nat) : Dev :=
  if d.axHoldDue a then
    ((d.axHoldShown a).modAxis a (fun x => { x with holdDone := true })).axSend a d.tick { hold := true }
  else d

/-- R105: STOP µs have passed without a latch: STOPPED, no velocity, and a HOLD where none has been issued for the last latch. -/
def Dev.axStopped (d : Dev) (a : Nat) : Dev :=
  let x := d.axis a
  if d.tb.running ∧ x.hist ≠ [] ∧ x.run ≠ 0 ∧ ¬ x.stopped ∧ x.lastLatch + usTicks (max 1 (d.get (AXIS_ESTSTOP_STOP a))) ≤ d.tick then
    let v := d.axView a d.tick
    let first := !x.holdDone
    let d := if first then d.axHoldShown a else d
    let d := d.modAxis a (fun x => { x with stopped := true, holdDone := true, vel := 0 })
    (d.axRemember a d.tick v).axSend a d.tick { hold := first }
  else d

/-- R108: a write of ESTCFG or ESTSTOP lands; it acts on the next tick; the slices learn whether extrapolation is on. -/
def Dev.estCfg (d : Dev) (a off : Nat) (v : Word) : Dev :=
  let old := d.axView a d.tick
  let d := d.setWord off v
  if d.axExt a = old.ext then d else (d.axRemember a (d.tick + 1) old).axSend a (d.tick + 1) {}

/-! ## Reads -/

/-- R124: ESTSTAT as it reads. -/
def Dev.estStat (d : Dev) (a : Nat) : Nat :=
  let x := d.axis a
  let clamped := ((d.axView a d.tick).extrapolate (d.now * 64)).2
  (d.word (AXIS_ESTSTAT a)).toNat ||| (x.run * 2 ^ 16) ||| (b2n clamped * 16) ||| (b2n x.stopped * 8) ||| (b2n (d.axExt a) * 2) |||
    b2n (decide (2 ≤ x.run))

/-- R100, R107: XPOS: POS while EXCESS is not 0, else X of the present tick. -/
def Dev.axXpos (d : Dev) (a : Nat) : Int :=
  if (d.axis a).excess ≠ 0 then sgn 64 (d.pair (AXIS_POS_LO a) (AXIS_POS_HI a)) else ((d.axView a d.tick).extrapolate (d.now * 64)).1

/-! ## Meanings -/

/-- AXIS_HOLD (R103). -/
def execAxisHold (a : Fin 8) (s : State) : Host.Outcome State Fault Refusal := onDev s (fun d => d.axHold a)

/-- AXIS_STOPPED (R105). -/
def execAxisStopped (a : Fin 8) (s : State) : Host.Outcome State Fault Refusal := onDev s (fun d => d.axStopped a)

end Sys2Proof.Machine
end

