-- ==== Sys2Proof/Machine/Memory.lean ====
section
/-! DEFINITION. Stacked memory (R306 to R334, R20): the check code, requests at the banks, error logging, scrub, sparing, slice
borrowing, memory moves. -/

namespace Sys2Proof.Machine

/-! ## The check code -/

/-- R309: multiplication by α in GF(2^8) with field polynomial 0x11D. -/
def gfDouble (a : Nat) : Nat := if a < 128 then 2 * a else (2 * a) ^^^ 0x11D

/-- R309: `k` times: α^k × a. -/
def gfShift : Nat → Nat → Nat
  | 0, a => a
  | k + 1, a => gfShift k (gfDouble a)

/-- The product in GF(2^8), over `k` bits of `b` from the lowest. -/
def gfMulBits : Nat → Nat → Nat → Nat
  | 0, _, _ => 0
  | k + 1, a, b => (if b % 2 = 1 then a else 0) ^^^ gfMulBits k (gfDouble a) (b / 2)

/-- R309: the product in GF(2^8). -/
def gfMul (a b : Nat) : Nat := gfMulBits 8 a b

/-- R309: the coefficients of g(x) = (x + 1)(x + α)(x + α²): x², x and 1. -/
def genG : Nat × Nat × Nat := (1 ^^^ 2 ^^^ 4, 2 ^^^ 4 ^^^ 8, 8)

/-- R309: one step of the division of the data part by g: the three remainder symbols after a further data symbol. -/
def rsStep (r : Nat × Nat × Nat) (sym : Nat) : Nat × Nat × Nat :=
  let fb := sym ^^^ r.1
  (r.2.1 ^^^ gfMul fb genG.1, r.2.2 ^^^ gfMul fb genG.2.1, gfMul fb genG.2.2)

/-- Byte `k` of a 16-byte word. -/
def byteOf (v k : Nat) : Nat := bits v (8 * k) 8

/-- R309: the check symbols C0, C1, C2 of a 16-byte word, C0 highest. -/
def rsCheck (v : Nat) : BitVec 24 :=
  let r := (List.range 16).foldl (fun r k => rsStep r (byteOf v k)) (0, 0, 0)
  BitVec.ofNat 24 (r.1 * 65536 + r.2.1 * 256 + r.2.2)

/-- R310: syndrome i from the difference of the check symbols (a codeword's own syndromes are 0). -/
def syndrome (diff : BitVec 24) (i : Nat) : Nat :=
  let n := diff.toNat
  gfShift i (gfShift i (bits n 16 8)) ^^^ gfShift i (bits n 8 8) ^^^ bits n 0 8

/-- R310: what a read finds: the data (corrected), 0 clean, 1 corrected, 2 uncorrectable, the symbol in error, and the syndromes. -/
structure Decoded where
  data : Nat
  kind : Nat
  sym : Nat := 31
  s0 : Nat := 0
  s1 : Nat := 0
  s2 : Nat := 0
  deriving DecidableEq, Repr

/-- R310: the p from 0 to 18 with s1 = s0 α^p and s2 = s1 α^p. -/
def locateErr (s0 s1 s2 : Nat) : Option Nat := firstIdx (fun p => s1 == gfShift p s0 && s2 == gfShift p s1) 0 19

/-- R310: the decoding of stored data symbols whose check symbols differ by `diff`. -/
def decodeWord (v : Nat) (diff : BitVec 24) : Decoded :=
  let s0 := syndrome diff 0
  let s1 := syndrome diff 1
  let s2 := syndrome diff 2
  if s0 = 0 ∧ s1 = 0 ∧ s2 = 0 then { data := v, kind := 0 } else
  match (if s0 = 0 then none else locateErr s0 s1 s2) with
  | some p =>
    let sym := 18 - p
    { data := if sym < 16 then v ^^^ (s0 * 256 ^ sym) else v, kind := 1, sym, s0, s1, s2 }
  | none => { data := v, kind := 2, s0, s1, s2 }

/-! ## Cells -/

/-- The 16 data symbols stored in physical word `k`, S0 lowest. -/
def MemArr.raw (m : MemArr) (k : Nat) : Nat :=
  (List.range 16).foldr (fun i a => a * 256 + (Tab.get 0 m.data (16 * k + i)).toNat) 0

/-- Physical word `k` stored with data `v` and check difference `diff`, not poisoned. -/
def MemArr.store (m : MemArr) (k v : Nat) (diff : BitVec 24) : MemArr :=
  { data := (List.range 16).foldl (fun t i => Tab.set 0 t (16 * k + i) (BitVec.ofNat 8 (byteOf v i))) m.data
    chk := Tab.set 0 m.chk k diff
    poison := Tab.set false m.poison k false }

/-- R313: physical word `k` receives the poison code. -/
def MemArr.setPoison (m : MemArr) (k : Nat) : MemArr := { m with poison := Tab.set false m.poison k true }

/-- Cells of physical word `k` are disturbed: bits [127:0] are S15 to S0, bits [151:128] are C0 to C2. -/
def MemArr.disturb (m : MemArr) (k : Nat) (flip : BitVec 152) : MemArr :=
  if flip = 0 then m else
  let e := flip.toNat % 2 ^ 128
  let p := Tab.get false m.poison k
  let m' := m.store k (m.raw k ^^^ e) (Tab.get 0 m.chk k ^^^ rsCheck e ^^^ BitVec.ofNat 24 (flip.toNat / 2 ^ 128))
  if p then m'.setPoison k else m'

/-- R313: what a read of a poisoned word finds: uncorrectable, with syndromes that are not stated (log 8). -/
def poisoned (data : Nat) : Decoded :=
  let s := (Config.poisonSyndrome data).toNat
  { data, kind := 2, s0 := bits s 0 8, s1 := bits s 8 8, s2 := bits s 16 8 }

/-- R310, R313: what a read of physical word `k` finds. -/
def MemArr.read (m : MemArr) (k : Nat) : Decoded :=
  if Tab.get false m.poison k then poisoned (m.raw k) else decodeWord (m.raw k) (Tab.get 0 m.chk k)

/-- The 16 bytes of `new` where the mask has its bit, else of `old`. -/
def mergeBytes (mask old new : Nat) : Nat :=
  (List.range 16).foldr (fun i a => a * 256 + (if bitAt mask i then byteOf new i else byteOf old i)) 0

/-! ## Where a word lies -/

/-- R306, R324: the bank word that holds word `w`: of the spare behind the copy pointer or by the sparing map. -/
def Dev.memCell (d : Dev) (w : Nat) : Nat :=
  let b := w % 16
  let i := w / 16 % 2 ^ 18
  let onSpare := if d.flag MEM_STATUS_SPARE_USED then d.get MEM_STATUS_SPAREFOR == b
    else d.mc.copy == some b && decide (i < d.get MEM_SPAREPTR_P)
  (if onSpare then 16 else b) * 2 ^ 18 + i

/-- R326, R327: word `w` is served by the mirror. -/
def Dev.memMirror (d : Dev) (w : Nat) : Bool := d.mc.borrow == some (w / 4096) && decide (w % 4096 < d.mc.mirrored)

/-- R326: the place of word `w` in the mirror buffer. -/
def mirrorCell (w : Nat) : Nat := 17 * 2 ^ 18 + w % 4096

/-- R306, R324, R326: the physical word that serves word `w`. -/
def Dev.memLoc (d : Dev) (w : Nat) : Nat := if d.memMirror w then mirrorCell w else d.memCell w

/-- R321, R322, R329: the controller takes requests: not before the start-up scrub is over, from SLEEP entry on, and while it wakes. -/
def Dev.memUp (d : Dev) : Bool := d.flag MEM_STATUS_READY && !d.flag MEM_STATUS_RET && !d.flag MEM_STATUS_WAKING && !d.pw.entering

/-- R324: the word at the pointer of a sparing copy. -/
def Dev.copyAt (d : Dev) : Option Nat := d.mc.copy.map (fun b => d.get MEM_SPAREPTR_P * 16 + b)

/-- R308, R324: an access to the `n` words from `w` on may reach the banks: no request that reached its bank on an earlier tick waits for one of
them, and a sparing copy has none of them before it. -/
def Dev.memClear (d : Dev) (w n : Nat) : Bool :=
  !d.mc.reqs.any (fun r => decide (r.at_ < d.tick ∧ w ≤ r.word ∧ r.word < w + n)) && !d.copyAt.any (fun p => decide (w ≤ p ∧ p < w + n))

/-- R323: the logical bank that physical bank `p` serves. -/
def Dev.memServes (d : Dev) (p : Nat) : Option Nat :=
  if p < 16 then (if d.flag MEM_STATUS_SPARE_USED && d.get MEM_STATUS_SPAREFOR == p then none else some p)
  else if d.flag MEM_STATUS_SPARE_USED then some (d.get MEM_STATUS_SPAREFOR) else none

/-! ## Sparing triggers -/

/-- R323, R325, R422, R436: a trigger for logical bank `b`: it starts the copy, waits for a borrowed slice, or is refused with NOSPARE. -/
def Dev.spareTrigger (d : Dev) (b : Nat) : Dev :=
  if d.mc.borrow.isSome then { d with mc := { d.mc with waiting := d.mc.waiting ++ [b] } }
  else if d.flag MEM_STATUS_SPARE_USED ∨ d.mc.copy.isSome ∨ d.mc.spareBad then
    let p := if d.flag MEM_STATUS_SPARE_USED && d.get MEM_STATUS_SPAREFOR == b then 16 else b
    ((d.raise MEM_STATUS_NOSPARE).spineRecNow 0x12 2 p (b + 256) 0 0).flog 0x31 4 p (b + 256) 0
  else (({ d with mc := { d.mc with copy := some b } }).raise MEM_STATUS_COPYING).put MEM_SPAREPTR_P 0

/-! ## Errors -/

/-- R314: the error log takes an error; a logged UE stays until VALID is cleared. -/
def Dev.memLog (d : Dev) (ue : Bool) (w p cls side : Nat) (r : Decoded) : Dev :=
  if d.flag MEM_ERRINFO_VALID && d.flag MEM_ERRINFO_UE then d else
  let d := d.put MEM_ERRADDR_ADDR w
  let d := (((((d.raise MEM_ERRINFO_VALID).putB MEM_ERRINFO_UE ue).put MEM_ERRINFO_CLASS cls).put MEM_ERRINFO_PBANK p).put
    MEM_ERRINFO_SIDE side).put MEM_ERRINFO_SYMBOL (if ue then 31 else r.sym)
  let d := ((d.put MEM_ERRSYN_S2 r.s2).put MEM_ERRSYN_S1 r.s1).put MEM_ERRSYN_S0 r.s0
  d.setPair MEM_ERRTIME_LO MEM_ERRTIME_HI d.now

/-- R374: the payload words of a MEM record. -/
def memPay (w cls side : Nat) (r : Decoded) (quad : Option Nat) : Nat × Nat × Nat :=
  (w * 16, r.s2 * 65536 + r.s1 * 256 + r.s0, cls + side * 16 + (match quad with | some q => 2048 + q * 256 | none => 0))

/-- R314, R323: a corrected error: counted, logged, recorded at most once per CEREC ms, and measured against the sparing threshold. -/
def Dev.memCe (d : Dev) (w p cls side : Nat) (r : Decoded) : Dev :=
  let d := ((d.raise MEM_STATUS_CE).incSat (CECNT_CECNT_CNT p)).memLog false w p cls side r
  let last := Tab.get 0 d.mc.ceRec p
  let pay := memPay w cls side r none
  let d := if last = 0 ∨ last - 1 + msTicks (d.get MEM_CTL_CEREC) ≤ d.tick then
      ({ d with mc := { d.mc with ceRec := Tab.set 0 d.mc.ceRec p (d.tick + 1) } }).spineRecNow 0x12 0 p pay.1 pay.2.1 pay.2.2
    else d
  let thr := d.get MEM_SPARECFG_THR
  let win := max 1 (d.get MEM_SPARECFG_WINDOW) * 800000000
  let l := (Tab.get [] d.mc.ceWin p).filter (fun t => d.tick < t + win) ++ [d.tick]
  let hit := decide (0 < thr ∧ thr ≤ l.length) && d.flag MEM_CTL_AUTO
  let d := { d with mc := { d.mc with ceWin := Tab.set [] d.mc.ceWin p (if hit then [] else l) } }
  match hit, d.memServes p with
  | true, some b => d.spareTrigger b
  | _, _ => d

/-- R312, R314, R323, R436: an uncorrectable error: counted, logged, recorded; `quad` names the quadrant of a lost calendar block. -/
def Dev.memUe (d : Dev) (w p cls side : Nat) (r : Decoded) (quad : Option Nat) : Dev :=
  let d := ((d.raise MEM_STATUS_UE).incSat MEM_UECNT_CNT).memLog true w p cls side r
  let pay := memPay w cls side r quad
  let d := (d.spineRecNow 0x12 1 p pay.1 pay.2.1 pay.2.2).flog 0x30 4 p pay.1 pay.2.1
  match d.flag MEM_CTL_UEAUTO, d.memServes p with
  | true, some b => d.spareTrigger b
  | _, _ => d

/-! ## Reading and writing -/

/-- The side code of ERRINFO: 2 for the mirror, else the port's. -/
def Dev.memSide (d : Dev) (w side : Nat) : Nat := if d.memMirror w then 2 else side

/-- R310 to R312, R314: a read of word `w` by class `cls` on port `side` (0 engine, 1 spine): the data and whether it is uncorrectable. A
corrected demand read is written back where WBACK is set. -/
def State.memFetch (s : State) (w cls side : Nat) : (Nat × Bool) × State :=
  let k := s.dev.memLoc w
  let p := s.dev.memCell w / 2 ^ 18
  let r := s.mem.read k
  let sd := s.dev.memSide w side
  if r.kind = 0 then ((r.data, false), s)
  else if r.kind = 1 then
    let d := s.dev.memCe w p cls sd r
    let d := if d.flag MEM_CTL_WBACK then { d with mc := { d.mc with wback := d.mc.wback ++ [k] } } else d
    ((r.data, false), { s with dev := d })
  else ((r.data, true), { s with dev := s.dev.memUe w p cls sd r none })

/-- R318: the writes that port `spine` has made to word `w` on this tick, newest first. -/
def Dev.touches (d : Dev) (spine : Bool) (w : Nat) : List Touch := d.mc.touched.filter (fun t => t.tick == d.tick && t.spine == spine && t.word == w)

/-- R318: what a read by a port finds where the other port has written word `w` on this tick: the value from before the write. -/
def Dev.readFirst (d : Dev) (spine : Bool) (w : Nat) : Option (Nat × Bool) := ((d.touches (!spine) w).getLast?).map Touch.old

/-- R310, R318: a read of word `w` by class `cls` on port `side`. -/
def State.memRead (s : State) (w cls side : Nat) : (Nat × Bool) × State :=
  match s.dev.readFirst (side == 1) w with
  | some v => (v, s)
  | none => s.memFetch w cls side

/-- R307, R311 to R313: the bytes of the mask are written to word `w`: a full write stores good data; a masked write merges into the corrected
word, or leaves the poison code where the word cannot be corrected. -/
def State.memPut (s : State) (w mask v cls side : Nat) : State :=
  let k := s.dev.memLoc w
  let p := s.dev.memCell w / 2 ^ 18
  let r := s.mem.read k
  let sd := s.dev.memSide w side
  let note (d : Dev) : Dev := { d with mc := { d.mc with
    wback := d.mc.wback.filter (· != k)
    touched := { tick := d.tick, word := w, spine := side == 1, old := (r.data, r.kind == 2), mask, data := v } :: d.mc.touched.filter (fun t => t.tick == d.tick) } }
  if mask = 0xFFFF then { s with mem := s.mem.store k v 0, dev := note s.dev }
  else if mask = 0 then s
  else if r.kind = 2 then { s with mem := s.mem.setPoison k, dev := note (s.dev.memUe w p cls sd r none) }
  else { s with mem := s.mem.store k (mergeBytes mask r.data v) 0, dev := note (if r.kind = 1 then s.dev.memCe w p cls sd r else s.dev) }

/-- R318: two writes of one word hold different data in a byte that both write. -/
def clashes (mask v mask' v' : Nat) : Bool := (List.range 16).any (fun i => bitAt mask i && bitAt mask' i && byteOf v i != byteOf v' i)

/-- R318: an engine-side write of word `w` meets a spine-side write of this tick that holds different data: a collision is counted. -/
def Dev.memMeets (d : Dev) (w mask v : Nat) : Dev :=
  if (d.touches true w).any (fun t => clashes mask v t.mask t.data) then d.incSat MEM_COLLCNT_CNT else d

/-- R318: a spine-side write of word `w` on the tick on which the engine side writes it or has requests for it that came on this tick: a read
that came returns the value from before the write; different data counts as a collision. -/
def State.memCollide (s : State) (w mask v : Nat) : State :=
  let old := (s.mem.read (s.dev.memLoc w)).data
  let meets (r : MemReq) : Bool := r.word == w && r.at_ == s.dev.tick
  let clash := s.dev.mc.reqs.any (fun r => meets r && r.kind == 1 && clashes mask v r.mask r.data) ||
    (s.dev.touches false w).any (fun t => clashes mask v t.mask t.data)
  let d := { s.dev with mc := { s.dev.mc with reqs := s.dev.mc.reqs.map (fun r =>
    if meets r && r.kind == 0 && r.snap.isNone then { r with snap := some old } else r) } }
  { s with dev := if clash then d.incSat MEM_COLLCNT_CNT else d }

/-- R317, R318: a spine-side write of word `w`; bytes that the engine side writes on the same tick hold the engine's data. -/
def State.memSpineStore (s : State) (w mask v : Nat) : State :=
  (s.memCollide w mask v).memPut w mask ((s.dev.touches false w).foldr (fun t v => mergeBytes t.mask v t.data) v) 3 1

/-- The bytes at byte address `a` of the word `v` of word address `a / 16`, as a dword. -/
def dwordAt (v a : Nat) : Nat := bits v (8 * (a % 16)) 32

/-! ## Regions closed to writes -/

/-- R133: the quadrant whose calendar region holds word `w`. -/
def Dev.calendarOf (d : Dev) (w : Nat) : Option Nat :=
  firstIdx (fun q => decide (d.get (COACH_REGBASE_BASE q) ≤ w / 4096 ∧ w / 4096 < d.get (COACH_REGBASE_BASE q) + min 128 (d.get (COACH_REGSIZE_SIZE q)))) 0 4

/-- The template whose LEN register lies at `off`. -/
def tplOfLen (off : Nat) : Option Nat :=
  if 0x10000 ≤ off ∧ off < 0x30000 ∧ 0x1800 ≤ off % 0x8000 ∧ off % 0x8000 < 0x2000 ∧ off % 0x20 = 8 then
    some (64 * ((off - 0x10000) / 0x8000) + (off % 0x8000 - 0x1800) / 0x20)
  else none

/-- R133, R155: the pages that templates name: template, page, first 16-byte word and length; a page of length 0 is no region (log 17). -/
def Dev.tplPages (d : Dev) : List (Nat × Nat × Nat × Nat) :=
  (d.regs.filterMap (fun p => tplOfLen p.1)).flatMap (fun t =>
    [(t, 0, 4 * d.get (TPL_PAGE0_BASE t), min 4096 (d.get (TPL_LEN_LEN0 t))), (t, 1, 4 * d.get (TPL_PAGE1_BASE t), min 4096 (d.get (TPL_LEN_LEN1 t)))])

/-- R155: open carriages use page `p` of template `t`. -/
def Dev.tplUsers (d : Dev) (t p : Nat) : Nat := (d.cars.filter (fun x => x.2.isOpen && x.2.tpl == t && x.2.page == p)).length

/-- R133, R155: a write of word `w` by anyone but the Coach: none where it may pass; else the state that has counted the drop. -/
def Dev.regionDrop (d : Dev) (w : Nat) : Option Dev :=
  match d.calendarOf w with
  | some q => some (d.incSat (COACH_REGION_WR_CNT q))
  | none =>
    let pages := d.tplPages.filter (fun x => decide (x.2.2.1 ≤ w ∧ w < x.2.2.1 + x.2.2.2))
    if pages.isEmpty then none else
    let d := forRange (fun q d => if pages.any (fun x => x.1 / 64 == q) then d.incSat (COACH_REGION_WR_CNT q) else d) 0 4 d
    some (pages.foldl (fun d x => if d.tplUsers x.1 x.2.1 = 0 then d else d.raise (TPL_STATUS_WR_DROP x.1)) d)

/-- R356: the `n` words from `w` on overlap a calendar or a template page. -/
def Dev.regionMeets (d : Dev) (w n : Nat) : Bool :=
  (List.range 4).any (fun q => decide (d.get (COACH_REGBASE_BASE q) * 4096 < w + n ∧
    w < (d.get (COACH_REGBASE_BASE q) + min 128 (d.get (COACH_REGSIZE_SIZE q))) * 4096 ∧ 0 < d.get (COACH_REGSIZE_SIZE q))) ||
  d.tplPages.any (fun x => decide (x.2.2.1 < w + n ∧ w < x.2.2.1 + x.2.2.2 ∧ 0 < x.2.2.2))

/-- A write from the engine side that is no Coach's: dropped in a closed region (R133); `met` says that what it meets on its tick is settled. -/
def State.memEngineStore (s : State) (w mask v cls : Nat) (met : Bool) : State :=
  match s.dev.regionDrop w with
  | some d => { s with dev := d }
  | none => ({ s with dev := if met then s.dev else s.dev.memMeets w mask v } : State).memPut w mask v cls 0

/-! ## Requests -/

/-- R20: the class of a requester: 1 an ibex stream, 2 a microengine. -/
def MemWho.cls : MemWho → Nat
  | .me _ => 2
  | .txs _ => 1
  | .rxs _ => 1

/-- R12: requester `who` has fewer than 32 requests waiting. -/
def Dev.memRoom (d : Dev) (who : MemWho) : Bool := decide ((d.mc.reqs.filter (fun r => r.who == who)).length < 32)

/-- R308, R318: a request reaches its bank; a read on a tick on which the spine side has written its word returns the value from before. -/
def Dev.memAsk (d : Dev) (r : MemReq) : Dev :=
  let d := if r.kind = 1 then d.memMeets r.word r.mask r.data else d
  let snap := if r.kind = 0 then (d.readFirst false r.word).map (·.1) else none
  { d with mc := { d.mc with reqs := d.mc.reqs ++ [{ r with at_ := d.tick, snap }] } }

/-- R20: the class granted next at logical bank `b`: one that waits and has had none of the last 15 grants, else the highest. -/
def Dev.memGrant (d : Dev) (b : Nat) : Option Nat :=
  let cs := (d.mc.reqs.filter (fun r => r.word % 16 == b)).map (fun r => r.who.cls)
  let past := Tab.get [] d.mc.slots b
  let starved := firstIdx (fun c => cs.contains c && decide (15 ≤ past.length) && !past.contains c) 0 5
  match starved with
  | some c => some c
  | none => firstIdx (fun c => cs.contains c) 0 5

/-- R308: the request served next at logical bank `b`: the oldest of the class granted. -/
def Dev.memNext (d : Dev) (b : Nat) : Option MemReq :=
  match d.memGrant b with
  | some c => d.mc.reqs.find? (fun r => r.word % 16 == b && r.who.cls == c)
  | none => none

/-- The list without the first element equal to `x`. -/
def removeFirst {α : Type} [DecidableEq α] (x : α) : List α → List α
  | [] => []
  | y :: t => if y = x then t else y :: removeFirst x t

/-- R20: class `cls` takes `n` slots of logical bank `b`. -/
def Dev.memSlots (d : Dev) (b cls n : Nat) : Dev :=
  { d with mc := { d.mc with slots := Tab.mod [] d.mc.slots b (fun l => (List.replicate n cls ++ l).take 15) } }

/-- R307: the slots that a request takes: two for a masked write or an atomic. -/
def MemReq.slots (r : MemReq) : Nat := if r.kind = 2 ∨ (r.kind = 1 ∧ r.mask ≠ 0xFFFF) then 2 else 1

/-- The request leaves the queue of its bank, and the slots granted are remembered (R20, R307). -/
def Dev.memTake (d : Dev) (r : MemReq) : Dev :=
  ({ d with mc := { d.mc with reqs := removeFirst r d.mc.reqs } }).memSlots (r.word % 16) r.who.cls r.slots

/-- An outcome is on its way back. -/
def Dev.memAnswer (d : Dev) (who : MemWho) (v : Nat) (err : Bool) : Dev :=
  { d with mc := { d.mc with results := d.mc.results ++ [{ who, data := v, err }] } }

/-- The state with the cells of word `w` disturbed. -/
def State.memDisturb (s : State) (w : Nat) (flip : BitVec 152) : State :=
  { s with mem := s.mem.disturb (s.dev.memLoc w) flip }

/-- R282: the width in bytes of an atomic. -/
def atomicWidth (op : Nat) : Nat := if op = 1 then 8 else 4

/-- R282: the value an atomic writes: faa and faa64 add, swp replaces. -/
def atomicNew (op old v : Nat) : Nat := if op = 2 then v % 2 ^ 32 else (old + v) % 2 ^ (8 * atomicWidth op)

/-- R310, R318: a read is served. -/
def State.serveRead (s : State) (r : MemReq) (flip : BitVec 152) : State :=
  let s := { s with dev := s.dev.memTake r }
  match r.snap with
  | some v => { s with dev := s.dev.memAnswer r.who v false }
  | none =>
    let x := (s.memDisturb r.word flip).memRead r.word r.who.cls 0
    { x.2 with dev := x.2.dev.memAnswer r.who x.1.1 x.1.2 }

/-- R308, R313, R318: a full or masked write is applied. -/
def State.serveWrite (s : State) (r : MemReq) : State :=
  ({ s with dev := s.dev.memTake r } : State).memEngineStore r.word r.mask r.data r.who.cls (r.at_ == s.dev.tick)

/-- R316, R318: an atomic is performed; on an uncorrectable word it changes nothing (R312). -/
def State.serveAtomic (s : State) (r : MemReq) (flip : BitVec 152) : State :=
  let s := ({ s with dev := s.dev.memTake r } : State).memDisturb r.word flip
  let x := s.memFetch r.word r.who.cls 0
  if x.1.2 then { x.2 with dev := x.2.dev.memAnswer r.who 0 true }
  else
    let wd := atomicWidth r.op
    let old := bits x.1.1 (8 * r.lane) (8 * wd)
    let new := atomicNew r.op old r.data
    let s := x.2.memEngineStore r.word 0xFFFF (mergeBytes ((2 ^ wd - 1) * 2 ^ r.lane) x.1.1 (new * 256 ^ r.lane)) r.who.cls true
    { s with dev := s.dev.memAnswer r.who old false }

/-- A request is served. -/
def State.memServe (s : State) (r : MemReq) (flip : BitVec 152) : State :=
  if r.kind = 0 then s.serveRead r flip else if r.kind = 1 then s.serveWrite r else s.serveAtomic r flip

/-- R308: logical bank `b` serves its next request where that is of kind `kind`. A sparing copy first writes the word at its pointer (R324). -/
def State.bankServe (s : State) (b kind : Nat) (flip : BitVec 152) : State :=
  match s.dev.memUp, s.dev.memNext b with
  | true, some r => if r.kind = kind ∧ s.dev.copyAt ≠ some r.word then s.memServe r flip else s
  | _, _ => s

/-- R321: every request already queued is completed. -/
def State.memDrain (s : State) : State := s.dev.mc.reqs.foldl (fun s r => s.memServe r 0) s

/-! ## Background -/

/-- R311: the oldest corrected word is written back; a write in between has dropped it. -/
def State.ceWriteback (s : State) : State :=
  match s.dev.memUp, s.dev.mc.wback with
  | true, k :: r =>
    let x := s.mem.read k
    { s with dev := { s.dev with mc := { s.dev.mc with wback := r } }
             mem := if x.kind = 1 then s.mem.store k x.data 0 else s.mem }
  | _, _ => s

/-- R306: the word that physical word `k` holds, for the error log: by the bank it serves. -/
def Dev.memWordOf (d : Dev) (k : Nat) : Nat := (k % 2 ^ 18) * 16 + (d.memServes (k / 2 ^ 18)).getD 0

/-- R315: the patrol scrub reads the next physical word. -/
def State.scrubRead (s : State) (flip : BitVec 152) : State :=
  let h := s.dev.get MEM_CTL_SCRUBH
  let k := s.dev.mc.scrub
  if s.dev.memUp ∧ h ≠ 0 ∧ s.dev.mc.scrubLast + h * 2880000000000 / 4456448 ≤ s.dev.tick then
    let m := s.mem.disturb k flip
    let r := m.read k
    let w := s.dev.memWordOf k
    let p := k / 2 ^ 18
    let d := { s.dev with mc := { s.dev.mc with scrub := (k + 1) % 4456448, scrubLast := s.dev.tick } }
    let d := if r.kind = 1 then
        let d := d.memCe w p 4 1 r
        { d with mc := { d.mc with wback := d.mc.wback ++ [k] } }
      else if r.kind = 2 then d.memUe w p 4 1 r none else d
    { s with mem := m, dev := d }
  else s

/-- R324: the sparing copy moves the word at the pointer; on the last one the map switches, the store records it, and a record is written. -/
def State.spareCopy (s : State) (flip : BitVec 152) : State :=
  match s.dev.memUp, s.dev.mc.copy with
  | true, some b =>
    let i := s.dev.get MEM_SPAREPTR_P
    let k := b * 2 ^ 18 + i
    let m := s.mem.disturb k flip
    let r := m.read k
    let w := i * 16 + b
    let d := if r.kind = 1 then s.dev.memCe w b 4 1 r else if r.kind = 2 then s.dev.memUe w b 4 1 r none else s.dev
    let m := m.store (16 * 2 ^ 18 + i) r.data 0
    let m := if r.kind = 2 then m.setPoison (16 * 2 ^ 18 + i) else m
    if i + 1 < 2 ^ 18 then { s with mem := m, dev := d.put MEM_SPAREPTR_P (i + 1) }
    else
      let d := { d with mc := { d.mc with copy := none } }
      let d := ((d.put MEM_STATUS_COPYING 0).raise MEM_STATUS_SPARE_USED).put MEM_STATUS_SPAREFOR b
      { s with mem := m, dev := (d.spineRecNow 0x12 2 b b 0 0).flog 0x31 4 b b 0, nvs := { s.nvs with spare := some b } }
  | _, _ => s

/-- R323, R332: a write of SPARECFG: GO spares the bank named. -/
def Dev.spareCfg (d : Dev) (v : Nat) : Dev :=
  let d := d.setWord MEM_SPARECFG (BitVec.ofNat 32 (putBits v 7 1 0))
  if bitAt v 7 then d.spareTrigger (bits v 0 4) else d

/-- R326, R328: a slice is borrowed; not while one is borrowed or a sparing copy runs. -/
def Dev.sliceBorrow (d : Dev) (sl : Nat) : Dev :=
  if d.mc.borrow.isSome ∨ d.mc.copy.isSome ∨ ¬ d.memUp then d
  else ({ d with mc := { d.mc with borrow := some sl, mirrored := 0 } }).raise MEM_STATUS_TESTBUSY

/-- R326, R317: word `w` is copied between its bank and the mirror by the spine-side port: a corrected error is repaired, an uncorrectable word
is written as the poison code. -/
def State.copyWord (s : State) (w src dst side : Nat) : State :=
  let r := s.mem.read src
  let p := s.dev.memCell w / 2 ^ 18
  let m := s.mem.store dst r.data 0
  if r.kind = 0 then { s with mem := m }
  else if r.kind = 1 then { s with mem := m, dev := s.dev.memCe w p 4 side r }
  else { s with mem := m.setPoison dst, dev := s.dev.memUe w p 4 side r none }

/-- R326, R328: on each tick the next word of every bank of the borrowed slice enters the mirror. -/
def State.mirrorTick (s : State) : State :=
  match s.dev.mc.borrow with
  | none => s
  | some sl =>
    if 4096 ≤ s.dev.mc.mirrored ∨ ¬ s.dev.memUp then s else
    let w := 4096 * sl + s.dev.mc.mirrored
    let s := (List.range 16).foldl (fun s i => s.copyWord (w + i) (s.dev.memCell (w + i)) (mirrorCell (w + i)) 1) s
    { s with dev := { s.dev with mc := { s.dev.mc with mirrored := s.dev.mc.mirrored + 16 } } }

/-- R326: the mirror is copied back. -/
def State.mirrorBack (s : State) (sl : Nat) : State :=
  (List.range 4096).foldl (fun s i => s.copyWord (4096 * sl + i) (mirrorCell i) (s.dev.memCell (4096 * sl + i)) 2) s

/-- R323, R328: a borrowing ends: the result, then the sparing triggers that waited, and one for each failing bank. -/
def Dev.sliceDone (d : Dev) (fails : BitVec 16) : Dev :=
  match d.mc.borrow with
  | none => d
  | some sl =>
    let wait := d.mc.waiting
    let d := { d with mc := { d.mc with borrow := none, mirrored := 0, waiting := [], wback := d.mc.wback.filter (fun k => decide (k < 17 * 2 ^ 18)) } }
    let d := (((d.put MEM_STATUS_TESTBUSY 0).raise MEM_TESTSTAT_DONE).put MEM_TESTSTAT_SLICE sl).put MEM_TESTSTAT_BANKS fails.toNat
    let d := if fails = 0 then d else d.raise MEM_TESTSTAT_FAIL
    let d := wait.foldl (fun d b => d.spareTrigger b) d
    if d.flag MEM_CTL_AUTO then ((List.range 16).filter (fun b => bitAt fails.toNat b)).foldl (fun d b => d.spareTrigger b) d else d

/-- R326, R328: once the mirror has held the whole slice, it is copied back and the borrowing ends. -/
def State.sliceReturn (s : State) (fails : BitVec 16) : State :=
  match s.dev.mc.borrow with
  | none => s
  | some sl =>
    if s.dev.mc.mirrored < 4096 ∨ ¬ s.dev.memUp then s else
    let s := s.mirrorBack sl
    { s with dev := s.dev.sliceDone fails }

/-- R322: 25 µs after the wake began the memory accepts accesses. -/
def Dev.memWakeReady (d : Dev) : Dev :=
  match d.mc.wakeAt with
  | some t =>
    if t ≤ d.tick then ({ d with mc := { d.mc with wakeAt := none } }).put MEM_STATUS_WAKING 0 else d
  | none => d

/-! ## Memory moves -/

/-- Move unit `m`. -/
def Dev.move (d : Dev) (m : Nat) : Move := Tab.get {} d.mc.moves m
/-- The state with move unit `m` changed. -/
def Dev.modMove (d : Dev) (m : Nat) (f : Move → Move) : Dev := { d with mc := { d.mc with moves := Tab.mod {} d.mc.moves m f } }

/-- R319, R320, R334: a start of move unit `m`: ignored while EN is 0, dropped while it is busy, refused with RANGE. -/
def Dev.moveStart (d : Dev) (m : Nat) : Dev :=
  if ¬ d.flag (MV_CTL_EN m) ∨ d.quadDown (m / 16) then d
  else if d.flag (MV_STATUS_BUSY m) then (d.incSat (MV_STATUS_MISSCNT m)).raise (MV_STATUS_MISSED m)
  else
    let n := d.get (MV_LEN_WORDS m)
    let src := d.get (MV_SRC_ADDR m)
    let dst := d.get (MV_DST_ADDR m)
    if n = 0 ∨ 2 ^ 22 < dst + n ∨ 2 ^ 22 < src + n then d.raise (MV_STATUS_RANGE m)
    else ((d.raise (MV_STATUS_BUSY m)).put (MV_LEFT_WORDS m) n).modMove m (fun _ => { src, dst })

/-- R320: CMD.STOP ends the move after the word in progress. -/
def Dev.moveStop (d : Dev) (m : Nat) : Dev :=
  if d.flag (MV_STATUS_BUSY m) then d.modMove m (fun x => { x with stopping := true }) else d

/-- R319, R320: a write of MV[m].CMD; it acts on the next tick. -/
def Dev.moveCmd (d : Dev) (m v : Nat) : Dev :=
  let d := if bitAt v 1 then d.moveStop m else d
  if bitAt v 0 then d.moveStart m else d

/-- R320: the move ends. -/
def Dev.moveEnd (d : Dev) (m : Nat) (err stopped : Bool) : Dev :=
  let n := (d.move m).done
  let d := ((d.put (MV_STATUS_BUSY m) 0).raise (MV_STATUS_DONE m)).modMove m (fun _ => {})
  let d := if err then d.raise (MV_STATUS_ERR m) else d
  if d.flag (MV_CTL_REC m) then
    d.raiseRec (m / 16) (0x180 + m % 16) { typ := 0x0A, sub := b2n err + 2 * b2n stopped, src := m, at_ := d.stamp (m / 16) d.tick 0, p0 := n }
  else d

/-- R319: a dword written into every 4 bytes of a word. -/
def fillWord (v : Nat) : Nat := v * (1 + 2 ^ 32 + 2 ^ 64 + 2 ^ 96)

/-- R308: a move may reach the banks for its next words. -/
def Dev.moveMay (d : Dev) (m : Nat) : Bool :=
  let x := d.move m
  let fill := d.flag (MV_CTL_FILL m)
  d.memUp && d.memClear x.dst 1 && (fill || d.memClear x.src 1)

/-- R307, R319, R320, R312: move unit `m` moves or fills one word; a word into a Coach region is dropped and the move goes on. -/
def State.moveWord (s : State) (m : Nat) : State :=
  let d := s.dev
  if ¬ d.flag (MV_STATUS_BUSY m) ∨ ¬ d.moveMay m ∨ d.quadDown (m / 16) then s else
  let x := d.move m
  let fill := d.flag (MV_CTL_FILL m)
  let rd := if fill then ((fillWord (d.get (MV_PATTERN_PATTERN m)), false), s)
    else ({ s with dev := d.memSlots (x.src % 16) 2 1 } : State).memRead x.src 2 0
  if rd.1.2 then { rd.2 with dev := rd.2.dev.moveEnd m true false }
  else
    let s := ({ rd.2 with dev := rd.2.dev.memSlots (x.dst % 16) 2 1 } : State).memEngineStore x.dst 0xFFFF rd.1.1 2 false
    let left := s.dev.get (MV_LEFT_WORDS m) - 1
    let d := (s.dev.put (MV_LEFT_WORDS m) left).modMove m (fun y => { y with src := x.src + 1, dst := x.dst + 1, done := x.done + 1 })
    { s with dev := if left = 0 then d.moveEnd m false false else if x.stopping then d.moveEnd m false true else d }

/-! ## Meanings -/

/-- BANK_READ (R310). -/
def execBankRead (b : Fin 16) (flip : BitVec 152) (s : State) : Host.Outcome State Fault Refusal := .next (s.bankServe b 0 flip)
/-- BANK_WRITE (R308). -/
def execBankWrite (b : Fin 16) (s : State) : Host.Outcome State Fault Refusal := .next (s.bankServe b 1 0)
/-- BANK_ATOMIC (R316). -/
def execBankAtomic (b : Fin 16) (flip : BitVec 152) (s : State) : Host.Outcome State Fault Refusal := .next (s.bankServe b 2 flip)
/-- CE_WRITEBACK (R311). -/
def execCeWriteback (s : State) : Host.Outcome State Fault Refusal := .next s.ceWriteback
/-- SCRUB_READ (R315). -/
def execScrubRead (flip : BitVec 152) (s : State) : Host.Outcome State Fault Refusal := .next (s.scrubRead flip)
/-- SPARE_COPY_WORD (R324). -/
def execSpareCopyWord (flip : BitVec 152) (s : State) : Host.Outcome State Fault Refusal := .next (s.spareCopy flip)
/-- SLICE_TEST_DONE (R328). -/
def execSliceTestDone (fails : BitVec 16) (s : State) : Host.Outcome State Fault Refusal := .next (s.sliceReturn fails)
/-- MOVE_WORD (R319). -/
def execMoveWord (m : Fin 64) (s : State) : Host.Outcome State Fault Refusal := .next (s.moveWord m)
/-- MEM_WAKE_READY (R322). -/
def execMemWakeReady (s : State) : Host.Outcome State Fault Refusal := onDev s (fun d => d.memWakeReady)

end Sys2Proof.Machine
end

