-- ==== Sys2Proof/Machine/Strobe.lean ====
section
/-! DEFINITION. What several units share about descriptors in flight and commit groups: the end of a descriptor, the strobe of a group, a
lost arming entry, and a coarse step of STIME at groups and slots. -/

namespace Sys2Proof.Machine

/-! ## Descriptors in flight -/

/-- The state with the descriptor in flight `id` changed. -/
def Dev.modFlight (d : Dev) (id : Nat) (f : Flight → Flight) : Dev :=
  { d with host := { d.host with flights := d.host.flights.map (fun x => if x.id = id then f x else x) } }

/-- The descriptor in flight `id`. -/
def Dev.flight (d : Dev) (id : Nat) : Option Flight := d.host.flights.find? (fun x => x.id == id)

/-- R359: the last effect of descriptor `id` takes place on this tick, with this status and value. -/
def Dev.flightEnd (d : Dev) (id status value : Nat) : Dev :=
  d.modFlight id (fun x => { x with stage := 2, status := status, value := value, stime := d.now })

/-- R398: a descriptor that staged writes completes once none of them waits to land; VALUE is the count of its group. -/
def Dev.stageSettle (d : Dev) (id : Nat) : Dev :=
  if d.cmt.groups.any (fun p => p.2.writes.any (fun w => w.flight == some id && !w.landed)) then d else
  match d.flight id with
  | some f =>
    if f.stage ≠ 1 then d
    else if bits f.desc.d0.toNat 0 8 = 0x04 then d.flightEnd id 0 (d.grp (bits f.desc.d0.toNat 32 5)).writes.length
    else d.flightEnd id 0 0
  | none => d

/-- R398: the same for each descriptor of the list. -/
def Dev.stageSettleAll (d : Dev) (ids : List (Option Nat)) : Dev :=
  ids.foldl (fun d i => match i with
    | some id => d.stageSettle id
    | none => d) d

/-! ## Commit groups -/

/-- R414: STATE of group `g`: 0 FREE, 1 OPEN, 2 ARMED, 3 CLOSING. -/
def Dev.grpState (d : Dev) (g : Nat) : Nat := d.get (CMTG_STATE_STATE g)

/-- R408: a COMMIT record of group `g` for commit tick `c`. -/
def Dev.cmtRec (d : Dev) (g sub c p0 p1 p2 p3 : Nat) : Dev :=
  d.spineRec { typ := 0x13, sub, src := g, at_ := { time := d.stimeAt c, clkSw := d.inWindow }, p0, p1, p2, p3 }

/-- R393, R407: group `g` returns to FREE; a check of a page for it ends without a result. -/
def Dev.grpFree (d : Dev) (g : Nat) : Dev :=
  let d := (d.modGrp g (fun _ => {})).setWord (CMTG_STATE g) 0
  let d := d.setPair (CMTG_KEY_LO g) (CMTG_KEY_HI g) 0
  { d with tpls := (d.tpls.map (fun p => (p.1, if p.2.group = some g then {} else p.2))).filter (fun p => decide (p.2 ≠ {})) }

/-- R403: a TIME-armed group whose strobe has been issued, at K − 4, has its commit tick settled; while the device wakes none is (R473). -/
def Dev.grpSettle (d : Dev) (g : Nat) : Dev :=
  match (d.grp g).key, (d.grp g).fire with
  | some k, none => if k ≤ d.now + 4 ∧ ¬ d.pw.waking then d.modGrp g (fun x => { x with fire := some { c := d.tick + (k - d.now) } }) else d
  | _, _ => d

/-- R406: group `g` has been strobed. -/
def Dev.grpStrobed (d : Dev) (g : Nat) : Bool :=
  match ((d.grpSettle g).grp g).fire with
  | some f => decide (f.c ≤ d.tick + 4)
  | none => false

/-- R403, R405: a Coach entry with ACTION COMMIT reaches group `g` on its fire tick `t`; `arming` is its arming number, 0 for none. -/
def Dev.cmtStrobe (d : Dev) (g t status lateness arming : Nat) : Dev :=
  let d := d.grpSettle g
  let own := arming != 0 && (d.grp g).arming == arming
  if d.grpState g = 0 ∨ d.grpState g = 3 ∨ d.grpStrobed g then
    let d := (d.incSat CMT_EMPTYFIRE_CNT).cmtRec g 3 (t + 4) 0 0 status 0
    if own then (if d.grpState g = 3 then d.grpFree g else d.modGrp g (fun x => { x with arming := 0 })) else d
  else
    d.modGrp g (fun x => { x with arming := if own then 0 else x.arming, key := none,
                                  fire := some { c := t + 4, late := bitAt status 7, status, lateness } })

/-- R406: the arming entry `arming` has been discarded: a CLOSING group becomes FREE. -/
def Dev.cmtGone (d : Dev) (arming : Nat) : Dev :=
  if arming = 0 then d else
  forRange (fun g d =>
    if (d.grp g).arming = arming then (if d.grpState g = 3 then d.grpFree g else d.modGrp g (fun x => { x with arming := 0 })) else d) 0 32 d

/-- R410, R414: a trigger of snapshot set `s` for tick `due`; ignored while CFG.EN is 0, and its descriptor then ends without an image. -/
def Dev.snapTrigger (d : Dev) (s trig due : Nat) (flight : Option Nat) : Dev :=
  if d.flag (SNAP_CFG_EN s) then { d with cmt := { d.cmt with trigs := d.cmt.trigs ++ [{ s, trig, due, flight }] } }
  else match flight with
    | some id => d.flightEnd id 0 0
    | none => d

/-! ## A coarse step of STIME -/

/-- R404, R146: before STIME steps on tick `t`, groups that have been strobed keep their tick. -/
def Dev.strobedKeep (d : Dev) : Dev := forRange (fun g d => d.grpSettle g) 0 32 d

/-- R404: after a step, a TIME-armed group whose key was stepped over fires at once, late. -/
def Dev.strobeLate (d : Dev) : Dev :=
  forRange (fun g d => match (d.grp g).key, (d.grp g).fire with
    | some k, none =>
      if k < d.now + 4 then
        d.modGrp g (fun x => { x with fire := some { c := d.tick + 4, late := true, lateness := min (d.now + 4 - k) 0xFFFFFF } })
      else d
    | _, _ => d) 0 32 d

/-- R146: a forward step by `n` ticks from `old` leaves a live slot that is due within 4 ticks on its armed tick. -/
def Slot.stepped (old n : Nat) (x : Slot) : Slot :=
  if x.live ∧ x.kind ≠ 2 ∧ (old : Int) ≤ x.f / 64 ∧ x.f / 64 < (old : Int) + 4 then
    { x with f := x.f + (n : Int) * 64, ideal := x.ideal.map (fun i => i + (n : Int) * 64) }
  else x

/-- R31, R146: STIME becomes `v` on this tick; live slots that are due within 4 ticks keep the tick they are bound to. -/
def Dev.timeSet (d : Dev) (v : DWord) : Dev :=
  let old := d.now
  let d := { d with stime := v }
  if old < d.now then
    forRange (fun q d => if (d.slice q).slots.isEmpty then d else
      d.modSlice q (fun s => { s with slots := s.slots.map (Slot.stepped old (d.now - old)) })) 0 4 d
  else d

/-- R31, R146, R404: the same with the armed groups that the step passes. -/
def Dev.timeJump (d : Dev) (v : DWord) : Dev := (d.strobedKeep.timeSet v).strobeLate

end Sys2Proof.Machine
end

