-- ==== Sys2Proof/Machine/Coach.lean ====
section
/-! DEFINITION. The Coach's stores (R127 to R138, R150, R161 to R163): entries and their checks, calendar, acceptance, insertion stage,
horizon. -/

namespace Sys2Proof.Machine

/-! ## Entries -/

/-- R129: the entry of a key and a control word; a TIME key stays as written. -/
def Entry.of (key ctl : Nat) : Entry :=
  { ktype := bits ctl 62 2, dir := bits ctl 60 2, axis := bits ctl 57 3, prio := bits ctl 55 2, latepol := bitAt ctl 54
    recmode := bits ctl 52 2, action := bits ctl 48 4, target := bits ctl 40 8, tag := bits ctl 35 5, repsh := bitAt ctl 34
    repcnt := bits ctl 24 10, repint := bits ctl 0 24, key := if bits ctl 62 2 = 0 then key else sgn 64 key }

/-- R131: the greatest TARGET of an action. -/
def targetMax (action : Nat) : Nat := [0, 63, 63, 255, 255, 63, 31, 31, 0].getD action 0

/-- R132, R155: the slice refuses the entry; `template` says that it stands in a template. -/
def Entry.bad (e : Entry) (template : Bool) : Bool :=
  e.ktype == 3 || e.dir == 3 || e.recmode == 3 || decide (8 < e.action) || decide (targetMax e.action < e.target) ||
  (e.repcnt != 0 && e.repint == 0) || (if template then e.ktype != 2 else e.ktype == 2 || e.action == 8)

/-- R130: the STIME value, in fine steps, of a TIME key as written, for an entry accepted at STIME `now`. -/
def timeKey (now key : Nat) : Int :=
  let lo : Int := (now : Int) - 2 ^ 57
  (lo + ((key / 64 : Nat) - lo) % 2 ^ 58) * 64 + (key % 64 : Nat)

/-- R139: the qualifier admits travel in reverse (`rev`) or forward. -/
def Entry.admits (e : Entry) (rev : Bool) : Bool := e.dir == 2 || (e.dir == 1) == rev

/-- R139: the key is behind T in the axis's direction of travel, which the qualifier admits; for a TIME entry, behind now. -/
def Entry.passed (e : Entry) (v : AxView) (now : Nat) : Bool :=
  if e.ktype = 0 then decide (e.key / 64 < now)
  else e.admits v.rev && (if v.rev then decide (v.t16 ≤ e.key) else decide (e.key ≤ v.t16))

/-- R128: an entry of a template, or a reject entry, or a copy of one. -/
def Entry.isTpl (e : Entry) : Bool := e.car.isSome || e.reject

/-- R147: what the entry acts on: kind and index; none for NOP. -/
def Entry.goal (e : Entry) : Option (Nat × Nat) :=
  match e.action with
  | 0 => none
  | 1 | 2 => some (1, e.target)
  | 3 | 4 => some (3, e.target)
  | 8 => e.car.map (fun c => (8, c))
  | n => some (n, e.target)

/-- Axis `a` as slice `q` knows it (R127). -/
def Dev.view (d : Dev) (q a : Nat) : AxView := Tab.get {} (d.slice q).views a

/-- R161, R162, R374: an occurrence's record, where RECMODE asks for one, with the stamp `st`. -/
def Dev.entryRec (d : Dev) (q : Nat) (e : Entry) (status lateness : Nat) (st : Stamp) : Dev :=
  if e.recmode = 2 ∨ (e.recmode = 1 ∧ status ≠ 0) then
    let p1 := match e.car with
      | some c => 2 ^ 31 + (c / 256) * 2 ^ 11 + c % 256
      | none => if e.reject then 2 ^ 31 + e.axis * 2 ^ 11 else e.tag
    d.raiseRec q (0x160 + e.target % 16)
      { typ := 4, sub := status, src := q, at_ := st, p0 := e.action * 2 ^ 16 + e.target, p1, p3 := lateness }
  else d

/-- R158: an occurrence of a carriage's entry has fired or been discarded; the last one closes the carriage with reason END. -/
def Dev.carSettle (d : Dev) (c : Nat) : Dev :=
  let x := d.car c
  if x.isOpen ∧ x.len ≤ x.cursor ∧ x.reads = [] ∧ x.live = 0 then d.carClose c 0 d.tick (fun _ => false) else d

/-- The state in which one occurrence of the entry is no more. -/
def Dev.entryGone (d : Dev) (e : Entry) : Dev :=
  let d := d.cmtGone e.arming
  match e.car with
  | some c => (d.modCar c (fun x => { x with live := x.live - 1 })).carSettle c
  | none => d

/-! ## Calendar -/

/-- R133: calendar blocks of slice `q`'s region. -/
def Dev.calBlocks (d : Dev) (q : Nat) : Nat := 1024 * min 128 (d.get (COACH_REGSIZE_SIZE q))

/-- R133: calendar blocks in use: four entries of one bucket to a block. -/
def blocksUsed : List (Bucket × Entry) → Nat
  | [] => 0
  | p :: r => (if (r.filter (fun x => x.1 == p.1)).length % 4 = 0 then 1 else 0) + blocksUsed r

/-- R135: G of axis `a` in slice `q`. -/
def Dev.pgran (d : Dev) (q a : Nat) : Nat := clampN 4 24 (bits (d.word (COACH_PGRAN0 q + 4 * (a / 4))).toNat (8 * (a % 4)) 5)

/-- R135: the position bucket of axis `a` that holds position `p`. -/
def Dev.posBucket (d : Dev) (q a : Nat) (p : Int) : Int := p / 2 ^ (16 + d.pgran q a)

/-- R136: the position bucket around which axis `a`'s buckets are loaded. -/
def Dev.loadedAt (d : Dev) (q a : Nat) : Int :=
  match Tab.get none (d.slice q).loaded a with
  | some c => c
  | none => d.posBucket q a (d.view q a).t16

/-- R134, R135: the bucket of an entry. -/
def Dev.bucketOf (d : Dev) (q : Nat) (e : Entry) : Bucket :=
  if e.ktype = 0 then
    let n := (e.key / 64).toNat
    if n / 4096 < d.now / 4096 + 1024 then .time1 (n / 4096)
    else if n / 2 ^ 22 < d.now / 2 ^ 22 + 1024 then .time2 (n / 2 ^ 22)
    else .timeFar
  else
    let c := d.posBucket q e.axis (d.view q e.axis).t16
    let b := d.posBucket q e.axis e.key
    if c - 512 ≤ b ∧ b ≤ c + 511 then .pos1 e.axis b else .posFar e.axis

/-- R133, R137: the entry is linked into its bucket; none where no block is free. -/
def Dev.calLink (d : Dev) (q : Nat) (e : Entry) : Option Dev :=
  let b := d.bucketOf q e
  let cal := (d.slice q).cal
  if (cal.filter (fun p => p.1 == b)).length % 4 ≠ 0 ∨ blocksUsed cal < d.calBlocks q then
    some (d.modSlice q (fun s => { s with cal := s.cal ++ [(b, e)] }))
  else none

/-- R136, R137, R150: an entry finds no free block. -/
def Dev.calFull (d : Dev) (q : Nat) : Dev := (d.incSat (COACH_CALFULL_CNT q)).raise (COACH_STATUS_CAL_EXHAUSTED q)

/-- Splits off the `n`-th and later entries of bucket `b`: what stays and what goes. -/
def bucketCut (b : Bucket) : Nat → List (Bucket × Entry) → List (Bucket × Entry) × List Entry
  | _, [] => ([], [])
  | n, p :: r =>
    if p.1 == b then
      match n with
      | 0 => let (k, g) := bucketCut b 0 r; (k, p.2 :: g)
      | m + 1 => let (k, g) := bucketCut b m r; (p :: k, g)
    else let (k, g) := bucketCut b n r; (p :: k, g)

/-- R310: what a read with the syndromes `syn` finds: a symbol in error that is corrected, or an uncorrectable word. -/
def synRead (syn : Nat) : Decoded :=
  let s0 := bits syn 0 8
  let s1 := bits syn 8 8
  let s2 := bits syn 16 8
  match (if s0 = 0 then none else locateErr s0 s1 s2) with
  | some p => { data := 0, kind := 1, sym := 18 - p, s0, s1, s2 }
  | none => { data := 0, kind := 2, s0, s1, s2 }

/-- R310, R312: a read of bucket `b` by slice `q` finds an error: a corrected one is counted and logged; where a block is uncorrectable, its entries,
and those that only its link reaches, are lost without firing. -/
def Dev.calRead (d : Dev) (q : Nat) (b : Bucket) (err : Option CalLoss) : Dev :=
  match err with
  | none => d
  | some l =>
    let w : Nat := l.word
    let k := d.memLoc w
    let r := synRead l.syn.toNat
    if r.kind = 1 then d.memCe w (k / 2 ^ 18) 0 (d.memSide w 0) r else
    let (keep, gone) := bucketCut b (4 * l.block) (d.slice q).cal
    let d := d.modSlice q (fun s => { s with cal := keep })
    let d := gone.foldl (fun d e => d.entryGone e) d
    d.memUe w (k / 2 ^ 18) 0 (d.memSide w 0) r (some q)

/-! ## Acceptance -/

/-- R137, R353, R404: the acceptance of an entry is settled for the one who offered it. -/
def Dev.acceptDone (d : Dev) (q : Nat) (who : Requester) (last : Bool) (arming : Nat) (key : Int) (ok : Bool) : Dev :=
  let d := if arming = 0 then d else forRange (fun g d =>
      if (d.grp g).arming = arming then
        if ok then
          if d.grpState g = 1 then
            ((d.put (CMTG_STATE_STATE g) 2).put (CMTG_STATE_ARM g) 2).setPair (CMTG_KEY_LO g) (CMTG_KEY_HI g) (uns 64 key)
          else d
        else if d.grpState g = 3 then d.grpFree g else d.modGrp g (fun x => { x with arming := 0 })
      else d) 0 32 d
  match who with
  | .port e => d.modMe e (fun x => { x with coachDone := x.coachDone ++ [(if ok then 0 else 2, 0)] })
  | .flight id =>
    if ok then
      let d := d.modFlight id (fun f => { f with done := f.done + 1 })
      if last then d.flightEnd id 0 (if arming = 0 then ((d.flight id).map (fun f => f.done)).getD 0 else 0) else d
    else
      let d := d.modSlice q (fun s => { s with offers := s.offers.filter (fun o => o.who != .flight id) })
      d.flightEnd id 2 (((d.flight id).map (fun f => f.done)).getD 0)

/-- R136, R137: the entry's key lies within the buckets already loaded. -/
def Dev.inLoaded (d : Dev) (q : Nat) (e : Entry) : Bool :=
  if e.ktype = 0 then
    match d.bucketOf q e with
    | .time1 n => (d.slice q).cal.all (fun p => match p.1 with | .time1 m => decide (n < m) | _ => true)
    | _ => false
  else
    let c := d.loadedAt q e.axis
    let b := d.posBucket q e.axis e.key
    decide (c - 1 ≤ b ∧ b ≤ c + 1)

/-- R130, R137: slice `q` accepts the oldest entry offered. Entries of one request are accepted in order: the next one waits while its
predecessor is in the insertion stage. -/
def Dev.coachAccept (d : Dev) (q : Nat) : Dev :=
  let s := d.slice q
  match s.offers with
  | [] => d
  | o :: rest =>
    if d.quadDown q ∨ s.insq.any (fun r => match r.who with | some w => w.1 == o.who | none => false) then d else
    let e := { o.e with key := if o.e.ktype = 0 then timeKey d.now o.e.key.toNat else o.e.key, acc := s.nextAcc, accTick := d.tick }
    let d := d.modSlice q (fun s => { s with offers := rest, nextAcc := s.nextAcc + 1 })
    if d.inLoaded q e then
      d.modSlice q (fun s => { s with insq := s.insq ++ [{ cls := 3, e, from_ := d.tick, who := some (o.who, o.last) }] })
    else
      match d.calLink q e with
      | some d => d.acceptDone q o.who o.last e.arming e.key true
      | none => (d.calFull q).acceptDone q o.who o.last e.arming e.key false

/-! ## Cancels -/

/-- R151: the entry matches the cancel. -/
def Cancel.hits (c : Cancel) (e : Entry) : Bool :=
  !e.isTpl && e.tag == c.tag && decide (e.acc < c.accNo) && (if c.pos then e.ktype == 1 && e.axis == c.axis else e.ktype == 0)

/-- R151: the entry matches the cancel under way. -/
def Slice.cancels? (s : Slice) (e : Entry) : Bool := match s.cancels with
  | c :: _ => c.hits e
  | [] => false

/-- R151: the cancel under way removes `n` entries more. -/
def Slice.cancelled (s : Slice) (n : Nat) : Slice := match s.cancels with
  | c :: r => { s with cancels := { c with removed := c.removed + n } :: r }
  | [] => s

/-- R151: an entry that is moving is removed by the cancel under way. -/
def Dev.cancelOne (d : Dev) (q : Nat) (e : Entry) : Dev := (d.modSlice q (fun s => s.cancelled 1)).cmtGone e.arming

/-- R151: 64 ticks after it began, the search has been through the horizon, the pipeline and the armed set; a live slot that is due within 4
ticks then is left. -/
def Dev.cancelSweep (d : Dev) (q : Nat) : Dev :=
  let s := d.slice q
  match s.cancels with
  | [] => d
  | c :: r =>
    if c.swept ∨ d.tick < c.start + 64 then d else
    let soon (x : Slot) : Bool := x.live && (match x.due with
      | some f => decide (f / 64 < (d.stimeAt (c.start + 68) : Nat))
      | none => false)
    let out (x : Slot) : Bool := c.hits x.e && !soon x
    let gone := s.hor.filter c.hits ++ (s.slots.filter out).map (fun x => x.e)
    let d := d.modSlice q (fun s => { s with
      hor := s.hor.filter (fun e => !c.hits e), slots := s.slots.filter (fun x => !out x)
      cancels := { c with swept := true, removed := c.removed + gone.length } :: r })
    gone.foldl (fun d e => d.cmtGone e.arming) d

/-- R151: a tick of the cancel under way: the sweep when its 64 ticks are over, and then the calendar at 1 entry per tick. -/
def Dev.cancelTick (d : Dev) (q : Nat) : Dev :=
  let d := d.cancelSweep q
  let s := d.slice q
  match s.cancels with
  | [] => d
  | c :: r =>
    if ¬ c.swept ∨ c.ends ≤ d.tick then d else
    match s.cal[c.seen]? with
    | none => d
    | some p =>
      if c.hits p.2 then
        (d.modSlice q (fun s => { s with cal := removeFirst p s.cal, cancels := { c with removed := c.removed + 1 } :: r })).cmtGone p.2.arming
      else d.modSlice q (fun s => { s with cancels := { c with seen := c.seen + 1 } :: r })

/-- R151: a cancel begins, or waits for the one before it. -/
def Slice.begin_ (s : Slice) (t : Nat) (c : Cancel) : Cancel :=
  { c with start := t, accNo := s.nextAcc, ends := t + 64 + s.cal.length }

/-- R151: the slice takes a cancel request. -/
def Dev.cancelStart (d : Dev) (q : Nat) (who : Requester) (tag : Nat) (pos : Bool) (axis : Nat) : Dev :=
  d.modSlice q (fun s =>
    let c : Cancel := { who, tag, pos, axis }
    if s.cancels.isEmpty then { s with cancels := [s.begin_ d.tick c] } else { s with cancels := s.cancels ++ [c] })

/-- R151: the search of the calendar has ended: an entry that still matches has been moving, in the calendar or at the insertion stage, and is
removed; the request completes, and the next one begins. -/
def Dev.cancelComplete (d : Dev) (q : Nat) : Dev :=
  let d := d.cancelSweep q
  let s := d.slice q
  match s.cancels with
  | [] => d
  | c :: r =>
    if d.tick < c.ends then d else
    let moving := s.insq.filter (fun x => c.hits x.e && !x.drawn)
    let gone := (s.cal.filter (fun p => c.hits p.2)).map (fun p => p.2) ++ moving.map (fun x => x.e)
    let n := c.removed + gone.length
    let d := moving.foldl (fun d x => match x.who with
      | some (w, last) => d.acceptDone q w last x.e.arming x.e.key true
      | none => d) d
    let d := gone.foldl (fun d e => d.cmtGone e.arming) d
    let d := d.modSlice q (fun s => { s with
      cal := s.cal.filter (fun p => !c.hits p.2), insq := s.insq.filter (fun x => !c.hits x.e)
      cancels := match r with | x :: y => s.begin_ d.tick x :: y | [] => [] })
    match c.who with
    | .flight id => d.flightEnd id 0 n
    | .port e => d.modMe e (fun x => { x with coachDone := x.coachDone ++ [(0, min n 65535)] })

/-! ## Insertion stage -/

/-- R136: the list of the horizon that an entry belongs to: 0 time, 1 to 8 axes. -/
def Entry.list (e : Entry) : Nat := if e.ktype = 0 then 0 else e.axis + 1

/-- R136: how distant an entry is within its list: a TIME key's value, a POS key's distance from T. -/
def Entry.dist (e : Entry) (t16 : Int) : Int := if e.ktype = 0 then e.key else ((e.key - t16).natAbs : Int)

/-- The list's first entry with the greatest value of `f`. -/
def argMax (f : Entry → Int) : List Entry → Option Entry
  | [] => none
  | e :: r => match argMax f r with
    | none => some e
    | some m => if f e < f m then some m else some e

/-- The list's first entry with the least value of `f`. -/
def argMin (f : Entry → Int) (l : List Entry) : Option Entry := argMax (fun e => - f e) l

/-- R164: the high-water mark of the horizon's occupancy. -/
def Dev.horHigh (d : Dev) (q : Nat) : Dev := d.put (COACH_HOCC_HIGH q) (max (d.get (COACH_HOCC_HIGH q)) (d.slice q).hor.length)

/-- R150: a repeat copy is lost: the occurrence that was taken carries REPDROP. -/
def Dev.copyLost (d : Dev) (q : Nat) (r : InsReq) : Dev :=
  ((d.calFull q).modSlice q (fun s => { s with slots := s.slots.map (fun x => if some x.id = r.origin then { x with repdrop := true } else x) })).entryGone r.e

/-- R136: the most distant entry `m` returns to its bucket, or is lost for want of a block. -/
def Dev.displace (d : Dev) (q : Nat) (m : Entry) : Dev :=
  let d := d.modSlice q (fun s => { s with hor := removeFirst m s.hor })
  match d.calLink q m with
  | some d => d
  | none => ((d.calFull q).entryRec q m (8 + 64 * b2n m.unext) 0 (d.stamp q d.tick 0)).entryGone m

/-- R136, R150: an entry of the insertion stage finds no room in the horizon: one drawn stays in the calendar, any other is linked there, or is
lost. -/
def Dev.toCalendar (d : Dev) (q : Nat) (r : InsReq) (told : Dev → Bool → Dev) : Dev :=
  if r.drawn then d else
  match d.calLink q r.e with
  | some d => told d true
  | none =>
    if r.cls = 1 then d.copyLost q r
    else if r.who.isSome then told (d.calFull q) false
    else ((d.calFull q).entryRec q r.e (8 + 64 * b2n r.e.unext) 0 (d.stamp q d.tick 0)).entryGone r.e

/-- The entry of a request leaves the calendar, where it was drawn from there. -/
def Slice.undraw (s : Slice) (r : InsReq) : Slice :=
  if r.drawn then { s with cal := s.cal.eraseP (fun p => p.2 == r.e) } else s

/-- R136, R150: an entry of the insertion stage enters the horizon, displaces the most distant entry of its list, or waits in the calendar. A
drawn entry that the calendar no longer holds has been lost or cancelled. -/
def Dev.toHorizon (d : Dev) (q : Nat) (r : InsReq) : Dev :=
  let told (d : Dev) (ok : Bool) : Dev := match r.who with
    | some (w, last) => d.acceptDone q w last r.e.arming r.e.key ok
    | none => d
  let s := d.slice q
  if r.drawn ∧ ¬ s.cal.any (fun p => p.2 == r.e) then d else
  if s.cancels? r.e then told ((d.modSlice q (fun s => s.undraw r)).cancelOne q r.e) true else
  let enter (d : Dev) : Dev := told ((d.modSlice q (fun s => { s.undraw r with hor := s.hor ++ [r.e] })).horHigh q) true
  if s.hor.length < 4096 then enter d else
  let t := (d.view q r.e.axis).t16
  match argMax (fun e => e.dist t) (s.hor.filter (fun e => e.list == r.e.list)) with
  | some m => if r.e.dist t < m.dist t then enter ((d.modSlice q (fun s => s.undraw r)).displace q m) else d.toCalendar q r told
  | none => d.toCalendar q r told

/-- The earliest request of the least class among those that wait at tick `t` (R128). -/
def insFirst (t : Nat) (l : List InsReq) : Option InsReq :=
  let ready := l.filter (fun r => r.from_ ≤ t)
  (List.range 4).findSome? (fun c => ready.find? (fun r => r.cls == c))

/-- R128: the insertion stage finishes its next request, 10 ticks after it began. -/
def Dev.insertion (d : Dev) (q : Nat) : Dev :=
  let s := d.slice q
  match s.insq with
  | [] => d
  | r0 :: rest =>
    let begin_ := max s.insFree (rest.foldl (fun m r => min m r.from_) r0.from_)
    match insFirst begin_ s.insq with
    | none => d
    | some r =>
      if d.tick < begin_ + 10 then d else
      let d := d.modSlice q (fun s => { s with insq := removeFirst r s.insq, insFree := begin_ + 10 })
      if r.cls = 2 then
        match r.e.car with
        | some c => d.modCar c (fun x => { x with buf := x.buf ++ [r.e] })
        | none => d.modSlice q (fun s => { s with rejq := Tab.mod [] s.rejq (r.e.axis % 2) (fun l => l ++ [r.e]) })
      else d.toHorizon q r

/-! ## Drawing -/

/-- R128: the entries of the calendar that have not been drawn. -/
def Slice.undrawn (s : Slice) : List (Bucket × Entry) := s.cal.filter (fun p => !s.insq.any (fun r => r.drawn && r.e == p.2))

/-- R136, R146: the bucket from which list `l` draws next, and the entry: the least bucket of L1 in key order, or for an axis the entries left behind in
key order and then the one nearest T. -/
def Dev.drawFrom (d : Dev) (q l : Nat) : Option (Bucket × Entry) :=
  let cal := (d.slice q).undrawn
  if l = 0 then
    let near := cal.filter (fun p => match p.1 with | .time1 _ => true | _ => false)
    let least := near.foldl (fun m p => match p.1, m with
      | .time1 n, some k => some (min n k)
      | .time1 n, none => some n
      | _, m => m) (none : Option Nat)
    least.bind (fun n => (argMin (fun e => e.key) ((near.filter (fun p => p.1 == .time1 n)).map (fun p => p.2))).map (fun e => (.time1 n, e)))
  else
    let a := l - 1
    let v := d.view q a
    let past := (cal.filter (fun p => p.1 == .posPast a)).map (fun p => p.2)
    match argMin (fun e => if v.rev then - e.key else e.key) past with
    | some e => some (.posPast a, e)
    | none =>
      let c := d.loadedAt q a
      let near := cal.filter (fun p => match p.1 with | .pos1 b n => b == a && decide (c - 1 ≤ n ∧ n ≤ c + 1) | _ => false)
      (argMin (fun e => e.dist v.t16) (near.map (fun p => p.2))).bind (fun e => near.find? (fun p => p.2 == e))

/-- R136: the list that is drawn next: they take turns, one entry each, in the order time, axis 0 to axis 7. -/
def Dev.drawList (d : Dev) (q : Nat) : Option Nat :=
  ((List.range 9).map (fun k => ((d.slice q).drawTurn + k) % 9)).find? (fun l => (d.drawFrom q l).isSome)

/-- R138: the tick on which the entries of bucket `b` come: 160 ticks after its load began, which is now unless it is under way. -/
def Slice.loadTick (s : Slice) (b : Bucket) (tick : Nat) : Nat :=
  match s.loads.find? (fun p => p.1 == b) with
  | some p => max tick p.2
  | none => tick + 160

/-- R128, R136, R138: the horizon draws one entry: it goes to the insertion stage and stays in the calendar until it is inserted. A load is over
once its bucket has no entry left to draw. -/
def Dev.horizonDraw (d : Dev) (q : Nat) (err : Option CalLoss) : Dev :=
  let s := d.slice q
  if d.quadDown q ∨ 4096 ≤ s.hor.length + (s.insq.filter (fun r => r.cls != 2)).length then d else
  match d.drawList q with
  | none => d
  | some l =>
    match d.drawFrom q l with
    | none => d
    | some (b, _) =>
      let d := d.calRead q b err
      let d := d.modSlice q (fun s => { s with drawTurn := (l + 1) % 9 })
      match d.drawFrom q l with
      | none => d
      | some (b, e) => d.modSlice q (fun s => { s with
          loads := (if s.loads.any (fun p => p.1 == b) then s.loads else s.loads ++ [(b, d.tick + 160)]).filter
            (fun p => p.1 == b || s.undrawn.any (fun x => x.1 == p.1))
          insq := s.insq ++ [{ cls := 3, e, from_ := s.loadTick b d.tick, drawn := true }] })

/-- R134: the calendar moves one entry per tick: those of an L2 bucket that has become current go into L1. -/
def Dev.l2Move (d : Dev) (q : Nat) (err : Option CalLoss) : Dev :=
  let c := d.now / 2 ^ 22
  if d.quadDown q ∨ c = (d.slice q).cur2 ∨ (d.slice q).moved = d.tick + 1 then d else
  let d := d.calRead q (.time2 c) err
  let due (p : Bucket × Entry) : Bool := match p.1 with
    | .time2 n => decide (n ≤ c)
    | _ => false
  d.modSlice q (fun s =>
    match s.cal.findIdx? due with
    | some i => { s with moved := d.tick + 1, cal := s.cal.modify i (fun p => (.time1 ((p.2.key / 64).toNat / 4096), p.2)) }
    | none => { s with cur2 := c })

/-- R134, R135: a far list is scanned by one entry: the `n`-th one of bucket `b` moves to the bucket it now belongs to. None at the list's end. -/
def Dev.farStep (d : Dev) (q : Nat) (b : Bucket) (n : Nat) : Option (Bool × Dev) :=
  ((((d.slice q).cal.filter (fun p => p.1 == b))[n]?).map (fun p =>
    let b2 := d.bucketOf q p.2
    (b2 != b, d.modSlice q (fun s => { s with
      moved := d.tick + 1
      cal := match s.cal.findIdx? (fun x => x == p) with
        | some i => s.cal.modify i (fun x => (b2, x.2))
        | none => s.cal }))))

/-- R134: L2 has wrapped: the far list is scanned at one entry per tick, and its entries within the next L2 span move into L2. -/
def Dev.farScan (d : Dev) (q : Nat) (err : Option CalLoss) : Dev :=
  let c := d.now / 2 ^ 32
  if d.quadDown q ∨ c = (d.slice q).scanned ∨ (d.slice q).moved = d.tick + 1 then d else
  let d := d.calRead q .timeFar err
  match d.farStep q .timeFar (d.slice q).farSeen with
  | some (true, e) => e
  | some (false, e) => e.modSlice q (fun s => { s with farSeen := s.farSeen + 1 })
  | none => d.modSlice q (fun s => { s with scanned := c, farSeen := 0 })

/-- R135: c of axis `a` has moved by 256 buckets: the far list is rescanned at one entry per tick, and its entries inside the window move into
L1. -/
def Dev.posRescan (d : Dev) (q a : Nat) (err : Option CalLoss) : Dev :=
  let c := d.posBucket q a (d.view q a).t16
  if d.quadDown q ∨ (c - Tab.get 0 (d.slice q).centre a).natAbs < 256 ∨ (d.slice q).moved = d.tick + 1 then d else
  let d := d.calRead q (.posFar a) err
  match d.farStep q (.posFar a) (Tab.get 0 (d.slice q).posSeen a) with
  | some (true, e) => e
  | some (false, e) => e.modSlice q (fun s => { s with posSeen := Tab.mod 0 s.posSeen a (· + 1) })
  | none => d.modSlice q (fun s => { s with centre := Tab.set 0 s.centre a c, posSeen := Tab.set 0 s.posSeen a 0 })

/-- R136: T of axis `a` has entered another bucket: the buckets around it are loaded, and what stays in buckets left behind or passed on the
way is drawn late. -/
def Dev.bucketLoadAxis (d : Dev) (q a : Nat) : Dev :=
  let old := d.loadedAt q a
  let c := d.posBucket q a (d.view q a).t16
  d.modSlice q (fun s => { s with
    loaded := Tab.set none s.loaded a (some c)
    cal := s.cal.map (fun p => match p.1 with
      | .pos1 b n => if b = a ∧ ((old ≤ c ∧ old - 1 ≤ n ∧ n < c - 1) ∨ (c < old ∧ c + 1 < n ∧ n ≤ old + 1)) then (.posPast a, p.2) else p
      | _ => p) })

/-- R136, R138: the slice loads the buckets of the first axis whose T has entered another bucket. -/
def Dev.bucketLoad (d : Dev) (q : Nat) : Dev :=
  if d.quadDown q then d else
  match firstIdx (fun a => Tab.get none (d.slice q).loaded a != some (d.posBucket q a (d.view q a).t16)) 0 8 with
  | some a => d.bucketLoadAxis q a
  | none => d

/-- R135: a write of PGRAN changes the buckets of slice `q`'s axes: every position entry is linked anew around the present buckets. -/
def Dev.rebucket (d : Dev) (q : Nat) : Dev :=
  let d := d.modSlice q (fun s => { s with
    loaded := [], posSeen := [], centre := forRange (fun a c => Tab.set 0 c a (d.posBucket q a (d.view q a).t16)) 0 8 [] })
  d.modSlice q (fun s => { s with cal := s.cal.map (fun p => if p.2.ktype = 0 ∨ p.1 == .posPast p.2.axis then p else (d.bucketOf q p.2, p.2)) })

/-! ## Meanings -/

/-- COACH_ACCEPT (R137). -/
def execCoachAccept (q : Fin 4) (s : State) : Host.Outcome State Fault Refusal := onDev s (fun d => d.coachAccept q)
/-- INSERTION (R128). -/
def execInsertion (q : Fin 4) (s : State) : Host.Outcome State Fault Refusal := onDev s (fun d => d.insertion q)
/-- HORIZON_DRAW (R136). -/
def execHorizonDraw (q : Fin 4) (ue : Option CalLoss) (s : State) : Host.Outcome State Fault Refusal := onDev s (fun d => d.horizonDraw q ue)
/-- CALENDAR_L2_MOVE (R134). -/
def execCalendarL2Move (q : Fin 4) (ue : Option CalLoss) (s : State) : Host.Outcome State Fault Refusal := onDev s (fun d => d.l2Move q ue)
/-- FAR_LIST_SCAN (R134). -/
def execFarListScan (q : Fin 4) (ue : Option CalLoss) (s : State) : Host.Outcome State Fault Refusal := onDev s (fun d => d.farScan q ue)
/-- POSITION_WHEEL_RESCAN (R135). -/
def execPositionWheelRescan (q : Fin 4) (a : Fin 8) (ue : Option CalLoss) (s : State) : Host.Outcome State Fault Refusal :=
  onDev s (fun d => d.posRescan q a ue)
/-- CANCEL_COMPLETE (R151). -/
def execCancelComplete (q : Fin 4) (s : State) : Host.Outcome State Fault Refusal := onDev s (fun d => d.cancelComplete q)
/-- BUCKET_LOAD (R138). -/
def execBucketLoad (q : Fin 4) (s : State) : Host.Outcome State Fault Refusal := onDev s (fun d => d.bucketLoad q)

end Sys2Proof.Machine
end

