-- ==== Sys2Proof/Machine/Timebase.lean ====
section
/-! DEFINITION. Timebase (R29 to R60, R516): STIME, references, PLLs, SYNC alignment, twin-line calibration, housekeeping timers. -/

namespace Sys2Proof.Machine

/-! ## STIME -/

/-- R30: STEP, STEPCNT and the STIME_STEP record with the value that STIME would have held and the value it holds. STEPCNT wraps at 32
bits (log 52). -/
def Dev.stepMark (d : Dev) (would : Nat) : Dev :=
  let d := (d.raise TB_STATUS_STEP).incWrap TB_STEPCNT_CNT
  d.spineRec { typ := 0x10, sub := 0, at_ := d.stampNow, p0 := would % 2 ^ 32, p1 := would >>> 32 }

/-- R30: STIME becomes `v`. -/
def Dev.stimeStep (d : Dev) (v : DWord) : Dev := (d.timeJump v).stepMark d.now

/-- R455: an opening of the seal loop is reported, with SEALCNT `cnt`; `latched` says that TCLK was stopped when it opened. -/
def Dev.sealTell (d : Dev) (latched : Bool) (cnt : Nat) : Dev := (d.flog 0x42 4 0 (b2n latched) cnt).spineRecNow 0x14 0x22 0 cnt 0 0

/-- R455: the openings latched while TCLK was stopped are reported on the first tick after it resumes. -/
def Dev.sealReport (d : Dev) : Dev :=
  let n := d.pw.sealLatched
  let cnt := (d.word SVCPRES_SEALCNT).toNat
  forRange (fun i d => d.sealTell true (cnt + 1 + i - n)) 0 n { d with pw := { d.pw with sealLatched := 0 } }

/-- R29: TCLK locks for the first time after a cold reset; STIME starts at 0. -/
def Dev.tclkLock (d : Dev) : Dev :=
  if !d.pw.released || !d.pw.fuses || d.tb.running || d.flag TB_STATUS_TCLK_LOCK || d.flag SVC_CLKSTAT_TCLK_LOST || d.get PWR_STATUS_STATE != 0 then d else
  (({ d with tick := 0, stime := 0, tb := { d.tb with running := true } }).raise TB_STATUS_TCLK_LOCK).sealReport

/-- One tick of TCLK (R29): what a step does on an empty queue (log 1). -/
def Dev.clockTick (d : Dev) : Dev :=
  if d.tb.running then { d with tick := d.tick + 1, stime := d.stime + 1 } else d

/-- R32: a read of TB.STIME_LO returns the low half and latches the high half. -/
def Dev.stimeLoRead (d : Dev) : Word × Dev :=
  (BitVec.ofNat 32 d.now, d.setWord TB_STIME_HI (BitVec.ofNat 32 (d.now >>> 32)))

/-! ## SYNC alignment -/

/-- R58: the ROLE field in force. -/
def Dev.syncRole (d : Dev) : Nat := d.get TB_SYNCCFG_ROLE

/-- R40, R43: the frame of the next epoch boundary, from 2,048 ticks before it on, while the device is master or relay and drives
SYNC_OUT. What OUT_EN and ROLE are within a frame that has begun is read at OUT_EN alone (log 53). -/
def Dev.syncOutFrame (d : Dev) : Dev :=
  let b := (d.now / 2 ^ 20 + 1) * 2 ^ 20
  if (d.syncRole = 1 ∨ d.syncRole = 3) ∧ d.flag TB_SYNCCFG_OUT_EN ∧ b ≤ d.now + 2048 ∧ d.tb.syncOut ≠ some b then
    ({ d with tb := { d.tb with syncOut := some b } }).emit (.syncFrame b)
  else d

/-- R40: the level of SYNC_OUT on the present tick: start bit, 64 data bits of 16 ticks, marker. -/
def Dev.syncOutLevel (d : Dev) : Bool :=
  match d.tb.syncOut with
  | none => false
  | some b =>
    if !d.flag TB_SYNCCFG_OUT_EN then false
    else if d.now < b then
      let k := b - d.now
      if 2033 ≤ k ∧ k ≤ 2048 then true
      else if 1009 ≤ k ∧ k ≤ 2032 then bitAt b (63 - (2032 - k) / 16)
      else false
    else decide (d.now < b + 64)

/-- R33, R38: the latch of a marker at tick `tick` and fine step `fine`. Its sampler belongs to no quadrant: it counts as calibrated once a
quadrant is (log 51). -/
def Dev.syncLatch (d : Dev) (tick fine : Nat) : Stamp :=
  let uncal := d.get TB_STATUS_CAL_DONE = 0
  { time := tick, fine := if uncal then 0 else fine, clkSw := d.inWindow, uncal }

/-- R42: the frame that announces `b` follows on the one before it; a missed epoch ends every run of consecutive ones. -/
def Dev.syncFollow (d : Dev) (b : Nat) : Dev :=
  let tb := if d.tb.syncLast = some (b - 2 ^ 20) ∧ 2 ^ 20 ≤ b then d.tb else { d.tb with syncGood := 0, syncBad := 0 }
  { d with tb := { tb with syncLast := some b, syncTick := d.tick, syncGone := false } }

/-- R41, R42: a slave or relay takes a frame that announced `b`, its marker latched at tick `tick` and fine step `fine`. ERR shows a free value for an
error beyond 16 signed bits (log 6); COUNT saturates (log 51). -/
def Dev.syncFrame (d : Dev) (b tick fine : Nat) : Dev :=
  if d.syncRole < 2 then d else
  let mark := d.syncLatch tick fine
  let d := d.syncFollow b
  let d := { d with tb := { d.tb with syncMark := mark } }
  let err : Int := ((tick * 64 + mark.fine : Int) - sgn 16 (d.get TB_SYNC_DELAY_DELAY)) - (b * 64 : Int)
  let (fr, d) := d.fresh
  let shown : Nat := if -32768 ≤ err ∧ err ≤ 32767 then uns 16 err else fr.toNat % 65536
  let d := d.put TB_SYNC_ERR_ERR shown
  let big : Bool := decide (64 < err.natAbs)
  let steer (d : Dev) : Dev := let (v, d) := d.fresh; { d with tb := { d.tb with steer := v.truncate 16 } }
  if d.flag TB_STATUS_SYNC_LOCK then
    if big then
      let d := d.incSat TB_SYNC_ERR_COUNT
      let n := d.tb.syncBad + 1
      let d := steer { d with tb := { d.tb with syncBad := n, syncGood := 0 } }
      if 3 ≤ n then ({ d with tb := { d.tb with syncBad := 0 } }).put TB_STATUS_SYNC_LOCK 0 else d
    else steer { d with tb := { d.tb with syncBad := 0 } }
  else if big then
    let d := { d with tb := { d.tb with syncGood := 0 } }
    d.stimeStep (BitVec.ofInt 64 ((d.now : Int) - err.tdiv 64))
  else
    let n := if err.natAbs ≤ 2 then d.tb.syncGood + 1 else 0
    let d := steer { d with tb := { d.tb with syncGood := n } }
    if 16 ≤ n then
      (({ d with tb := { d.tb with syncGood := 0, syncBad := 0 } }).raise TB_STATUS_SYNC_LOCK).spineRecNow 0x10 6 0 0 0 0
    else d

/-- R42: three consecutive epochs without a valid frame: SYNC_LOCK clears, SYNC_LOST is set, the steering value is held. -/
def Dev.syncLost (d : Dev) : Dev :=
  if d.syncRole < 2 ∨ d.tb.syncGone = true ∨ d.tick < d.tb.syncTick + 3 * 2 ^ 20 then d else
  let d := { d with tb := { d.tb with syncGood := 0, syncBad := 0, syncGone := true } }
  ((d.put TB_STATUS_SYNC_LOCK 0).raise TB_STATUS_SYNC_LOST).spineRecNow 0x10 5 0 0 0 0

/-! ## References -/

/-- R34: the field REFA_OK or REFB_OK of input `x`. -/
def refOk (x : Nat) : Fld := if x = 0 then TB_STATUS_REFA_OK else TB_STATUS_REFB_OK

/-- R35: the timebase takes input `x` in use: the hitless switch, its record and its fault-log entry. -/
def Dev.refSwitch (d : Dev) (x : Nat) : Dev :=
  let d := (d.put TB_STATUS_REF_ACTIVE x).raise TB_STATUS_REF_SWITCHED
  (d.spineRecNow 0x10 1 0 x 0 0).flog 0x20 4 0 0 x

/-- R34, R57: at a decision of the monitor a primary that has been written since the last one comes into use, where it is good (log 50). -/
def Dev.refDecide (d : Dev) : Dev :=
  let p := d.get TB_REFCFG_PRIMARY
  if p = d.tb.refPrim then d else
  let d := { d with tb := { d.tb with refPrim := p } }
  if d.get TB_STATUS_REF_ACTIVE ≠ p ∧ d.flag (refOk p) then d.refSwitch p else d

/-- R35, R36: the monitor declares input `x` lost: the timebase leaves it for a good backup; without one it holds over. -/
def Dev.refLost (d : Dev) (x : Nat) : Dev :=
  let d := d.refDecide
  let was := d.flag (refOk x)
  let d := d.put (refOk x) 0
  let d := { d with tb := { d.tb with refGood := Tab.set none d.tb.refGood x none } }
  if d.flag (refOk (1 - x)) then
    if d.get TB_STATUS_REF_ACTIVE = x then d.refSwitch (1 - x) else d
  else if was then
    ((d.raise TB_STATUS_HOLDOVER).spineRecNow 0x10 2 0 0 0 0).flog 0x20 4 0 1 (d.get TB_STATUS_REF_ACTIVE)
  else d

/-- R35, R36: input `x` comes back within limits; a holdover ends on it, and it is taken where the input in use is not good (log 50). -/
def Dev.refReturn (d : Dev) (x : Nat) : Dev :=
  let d := d.refDecide
  if d.flag (refOk x) then d else
  let d := d.raise (refOk x)
  let d := { d with tb := { d.tb with refGood := Tab.set none d.tb.refGood x (some d.tick) } }
  let d := if d.flag TB_STATUS_HOLDOVER then d.put TB_STATUS_HOLDOVER 0 else d
  if d.get TB_STATUS_REF_ACTIVE = x ∨ d.flag (refOk (d.get TB_STATUS_REF_ACTIVE)) then d else d.refSwitch x

/-- R35, R57: a decision of the monitor: with REVERT set and the primary good for 1 s, the timebase returns to it. -/
def Dev.refRevert (d : Dev) : Dev :=
  let d := d.refDecide
  let p := d.get TB_REFCFG_PRIMARY
  match Tab.get none d.tb.refGood p with
  | none => d
  | some t =>
    if d.flag TB_REFCFG_REVERT ∧ d.get TB_STATUS_REF_ACTIVE ≠ p ∧ d.flag (refOk p) ∧ t + 800000000 ≤ d.tick then d.refSwitch p else d

/-! ## PLLs -/

/-- R37, R38: the driving PLL fails; the switchover window opens. Without a standby the fault is that of R39 (TCLK_STOP). -/
def Dev.pllFault (d : Dev) : Dev :=
  if d.tb.running ∧ ¬ d.flag TB_STATUS_PLL_SINGLE ∧ d.tb.pllDown = none ∧ ¬ d.inWindow then
    { d with tb := { d.tb with window := some false } }
  else
    match d.tb.window with
    | some true => { d with tb := { d.tb with window := some false } }
    | _ => d

/-- R37, R516: TB.CTL.SWITCH begins the changeover to the standby; ignored while PLL_SINGLE is 1, no standby is ready, or a
switchover runs. -/
def Dev.tbSwitch (d : Dev) : Dev :=
  if d.tb.running ∧ ¬ d.flag TB_STATUS_PLL_SINGLE ∧ d.tb.pllDown = none ∧ ¬ d.inWindow then
    { d with tb := { d.tb with window := some true } }
  else d

/-- R49: a recalibration trigger for every standby line. -/
def Dev.recalTrigger (d : Dev) : Dev := { d with tb := { d.tb with recals := d.tb.recals ++ [d.tick] } }

/-- R37, R38, R39, R49: the changeover of an open window: the one-tick hold, the new driving PLL, its record, and the trigger of a
recalibration. A failed PLL is restarted; one left by command is the standby at once (R516). -/
def Dev.pllSwitchover (d : Dev) : Dev :=
  match d.tb.window with
  | none => d
  | some commanded =>
    let a := 1 - d.get TB_STATUS_PLL_ACTIVE
    let d := { d with tick := d.tick + 1, tb := { d.tb with window := none, pllDown := if commanded then none else some d.tick } }
    let d := d.stimeStep (d.stime + 1)
    let d := (d.put TB_STATUS_PLL_ACTIVE a).raise TB_STATUS_PLL_SWITCHED
    ((d.spineRecNow 0x10 3 0 a 0 0).flog 0x21 4 0 0 a).recalTrigger

/-- R39: the restarted PLL has held lock for 10 ms and is the standby again. -/
def Dev.pllRestored (d : Dev) : Dev :=
  match d.tb.pllDown with
  | none => d
  | some t =>
    if t + msTicks 10 ≤ d.tick then ({ d with tb := { d.tb with pllDown := none } }).put TB_STATUS_PLL_SINGLE 0 else d

/-- R39: the restarted PLL has not locked within 100 ms. -/
def Dev.pllSingle (d : Dev) : Dev :=
  match d.tb.pllDown with
  | none => d
  | some t =>
    if t + msTicks 100 ≤ d.tick then
      let first := !d.flag TB_STATUS_PLL_SINGLE
      let d := ({ d with tb := { d.tb with pllDown := none } }).raise TB_STATUS_PLL_SINGLE
      let d := if first then d.spineRecNow 0x10 4 0 0 0 0 else d
      d.flog 0x21 4 0 1 (d.get TB_STATUS_PLL_ACTIVE)
    else d

/-- R516: TB.CTL.RETRY restarts the failed PLL while PLL_SINGLE is 1. -/
def Dev.tbRetry (d : Dev) : Dev :=
  if d.flag TB_STATUS_PLL_SINGLE ∧ d.tb.pllDown = none then { d with tb := { d.tb with pllDown := some d.tick } } else d

/-- R516: a write of TB.CTL. -/
def Dev.tbCtl (d : Dev) (v : Nat) : Dev :=
  let single := d.flag TB_STATUS_PLL_SINGLE
  let d := if bitAt v 0 then d.recalTrigger else d
  let d := if bitAt v 1 && single then d.tbRetry else d
  if bitAt v 2 && !single then d.tbSwitch else d

/-- R222, R433 (caution): a second PLL failure stops TCLK; the pins hold their levels and the service unit reports it. -/
def Dev.tclkStop (d : Dev) : Dev :=
  if d.tb.running ∧ (d.flag TB_STATUS_PLL_SINGLE ∨ d.tb.pllDown ≠ none) then
    let d := (({ d with tb := { d.tb with running := false } }).put TB_STATUS_TCLK_LOCK 0).raise SVC_CLKSTAT_TCLK_LOST
    (d.flog 0x22 4 0 0 0).spineRecNow 0x14 0x06 0 0 0 0
  else d

/-! ## Twin lines -/

/-- The number of an owner of twin lines in the table of lines. -/
def lineNo : LineOwner → Nat
  | .generator g => g
  | .axisInput a p => 256 + 3 * a + p
  | .laneInput n => 512 + n

/-- The quadrant of an owner of twin lines (R8). -/
def lineQuad : LineOwner → Nat
  | .generator g => g / 64
  | .axisInput a _ => a / 2
  | .laneInput n => n / 128

/-- R44: the cumulative hits before each tap. -/
def cumulate : Nat → List Nat → List Nat
  | _, [] => []
  | acc, h :: t => acc :: cumulate (acc + h) t

/-- R44: the index of the value nearest `target`, the lowest on a tie; `best` is the best so far. -/
def nearestTap (target : Nat) : List Nat → Nat → Nat × Nat → Nat
  | [], _, best => best.1
  | c :: t, i, best =>
    let dist := (c - target) + (target - c)
    nearestTap target t (i + 1) (if dist < best.2 then (i, dist) else best)

/-- R44: the tap table that the hits of a line give: for each fine step k the tap whose D(i) lies nearest k × 19.531 25 ps. In units
of 1250 ps / 65,536 the target is k × 1,024. -/
def tapTable (hits : List Nat) : List Nat :=
  let cum := cumulate 0 hits
  (List.range 64).map (fun k => nearestTap (k * 1024) cum 0 (0, 65537))

/-- R46: the first calibration of quadrant `q` begins: on TCLK lock, or at the end of a quadrant reset. -/
def Dev.firstCalibration (d : Dev) (q : Nat) : Dev :=
  if d.tb.running ∧ ¬ d.quadDown q ∧ ¬ d.calDone q ∧ (d.quad q).calStart = none then
    let d := d.modQuad q (fun x => { x with calStart := some d.tick })
    let mine (k : Nat) : Bool := (k < 256 && k / 64 == q) || (256 ≤ k && k < 280 && (k - 256) / 6 == q) || (512 ≤ k && (k - 512) / 128 == q)
    { d with lines := d.lines.filter (fun p => !mine p.1) }
  else d

/-- R46: the owners of twin lines in quadrant `q`: its generators, its axis inputs and its lanes. -/
def lineOwners (q : Nat) : List Nat :=
  (List.range 64).map (· + 64 * q) ++ (List.range 6).map (· + (256 + 6 * q)) ++ (List.range 128).map (· + (512 + 128 * q))

/-- R44, R46, R48, R49: the calibration of a line of `x` completes with these hits. In the first calibration line A completes 96 µs after its
start and line B 192 µs after it, and CAL_DONE is set when both lines of every owner of the quadrant are done; later the standby line is
rebuilt and then waits for a boundary. -/
def Dev.lineDone (d : Dev) (x : LineOwner) (hits : List Nat) : Dev :=
  let q := lineQuad x
  let k := lineNo x
  let l := d.line k
  let taps := tapTable hits
  if d.calDone q then
    if l.own ∨ l.seen < d.tb.recals.length then
      let l := { l with seen := d.tb.recals.length, own := false, ready := some d.tick }
      d.modLine k (fun _ => if l.activeB then { l with tapsA := taps } else { l with tapsB := taps })
    else d
  else
    match (d.quad q).calStart with
    | none => d
    | some t =>
      let first := l.tapsA = []
      if d.tick < t + (if first then 76800 else 153600) ∨ l.tapsB ≠ [] then d else
      let l := { l with seen := d.tb.recals.length, lastSwap := d.tick }
      let d := d.modLine k (fun _ => if first then { l with tapsA := taps } else { l with tapsB := taps })
      if (lineOwners q).all (fun k => (d.line k).tapsB != []) then
        (d.put TB_STATUS_CAL_DONE (setBitAt (d.get TB_STATUS_CAL_DONE) q true)).modQuad q (fun y => { y with calStart := none })
      else d

/-- R49: the interval trigger: CALCFG.INTERVAL ms since the last one, taken from 1 to 1,000 (R59). -/
def Dev.recalInterval (d : Dev) : Dev :=
  if d.tb.running ∧ d.tb.lastInterval + msTicks (clampN 1 1000 (d.get TB_CALCFG_INTERVAL)) ≤ d.tick then
    ({ d with tb := { d.tb with lastInterval := d.tick } }).recalTrigger
  else d

/-- R49, R59: the temperature trigger: the die has moved by TSTEP since the last swap; 0 turns it off. `t` is in 1/16 °C as PWR.TEMP. -/
def Dev.recalTemperature (d : Dev) (t : Int) : Dev :=
  let n := d.get TB_CALCFG_TSTEP
  if n ≠ 0 ∧ d.tb.running ∧ n * 16 ≤ (t - d.tb.swapTemp).natAbs then d.recalTrigger else d

/-! ## Housekeeping timers -/

/-- Housekeeping timer `n`'s prescaler. -/
def Dev.hk (d : Dev) (n : Nat) : HkState := Tab.get {} d.hks n

/-- The state with housekeeping timer `n`'s prescaler changed. -/
def Dev.modHk (d : Dev) (n : Nat) (f : HkState → HkState) : Dev := { d with hks := Tab.mod {} d.hks n f }

/-- R51, R54: the record of a match, with LATE and the missed periods. -/
def Dev.hkRecord (d : Dev) (n : Nat) (late : Bool) (missed cnt : Nat) : Dev :=
  d.spineRecNow 0x11 (b2n late) n missed (cnt % 2 ^ 32) (cnt >>> 32)

/-- R51, R60: housekeeping timer `n` counts on the tick its prescale expires; a count equal to CMP matches as MODE sets. The match sets the
timer's bit in the microengines' bit space through `bit`. -/
def Dev.hkCount (bit : Nat → Dev → Dev) (d : Dev) (n : Nat) : Dev :=
  if d.tb.running ∧ d.flag (HK_CTL_EN n) ∧ (d.hk n).next ≤ d.tick then
    let cnt := (d.pair (HK_CNT_LO n) (HK_CNT_HI n) + 1) % 2 ^ 64
    let d := d.setPair (HK_CNT_LO n) (HK_CNT_HI n) cnt
    let d := d.modHk n (fun h => { h with next := h.next + d.get (HK_CTL_PRE n) + 1, cur := d.get (HK_CTL_PRE n) + 1 })
    let cmp := d.pair (HK_CMP_LO n) (HK_CMP_HI n)
    let mode := d.get (HK_CTL_MODE n)
    if cnt = cmp ∧ mode ≠ 0 then
      let d := bit n (d.hkRecord n false 0 cnt)
      if mode = 1 then d.setPair (HK_CMP_LO n) (HK_CMP_HI n) ((cmp + d.pair (HK_PER_LO n) (HK_PER_HI n)) % 2 ^ 64)
      else d.put (HK_CTL_EN n) 0
    else d
  else d

/-- R60, R51: a write of HK[n].CTL: EN starts the prescaler from the held residue or holds it; PRE acts from the next count; LATE clears. -/
def Dev.hkCtl (d : Dev) (n v : Nat) : Dev :=
  let was := d.flag (HK_CTL_EN n)
  let d := d.put (HK_CTL_PRE n) (bits v 16 16)
  let d := d.put (HK_CTL_MODE n) (bits v 2 2)
  let d := if bitAt v 1 then d.put (HK_CTL_LATE n) 0 else d
  let d := d.putB (HK_CTL_EN n) (bitAt v 0)
  if bitAt v 0 && !was then
    d.modHk n (fun h => { next := d.tick + (bits v 16 16 + 1) - min h.residue (bits v 16 16), residue := 0, cur := bits v 16 16 + 1 })
  else if !bitAt v 0 && was then
    d.modHk n (fun h => { next := 0, residue := h.cur - min (h.next - d.tick) h.cur, cur := 0 })
  else d

/-- R55: a read of HK[n].CNT_LO returns it and latches the high half. -/
def Dev.hkCntLoRead (d : Dev) (n : Nat) : Word × Dev :=
  (d.word (HK_CNT_LO n), { d with latched := Tab.set 0 d.latched (HK_CNT_HI n) (d.word (HK_CNT_HI n)) })

/-- R52: the ticks counted over 4,096 ACLK periods become TB.ACLK_RATIO in 20.12 format, in RUN. -/
def Dev.aclkRatio (d : Dev) (ticks : Nat) : Dev :=
  if d.tb.running ∧ d.get PWR_STATUS_STATE = 0 then d.setWord TB_ACLK_RATIO (BitVec.ofNat 32 ticks) else d

/-! ## The rows -/

/-- TCLK_LOCK (R29). -/
def execTclkLock (s : State) : Host.Outcome State Fault Refusal := onDev s (fun d => d.tclkLock)

/-- STIME_LO_READ (R32). -/
def execStimeLoRead (_f : Fin 4) (s : State) : Host.Outcome State Fault Refusal :=
  onDev s (fun d => (d.stimeLoRead).2.emit (.readData TB_STIME_LO d.stimeLoRead.1))

/-- SYNC_OUT_FRAME (R40). -/
def execSyncOutFrame (s : State) : Host.Outcome State Fault Refusal := onDev s (fun d => d.syncOutFrame)

/-- SYNC_FRAME (R41). -/
def execSyncFrame (b tick : DWord) (fine : Fin 64) (s : State) : Host.Outcome State Fault Refusal :=
  onDev s (fun d => d.syncFrame b.toNat tick.toNat fine)

/-- SYNC_LOST (R42). -/
def execSyncLost (s : State) : Host.Outcome State Fault Refusal := onDev s (fun d => d.syncLost)

/-- REF_LOST (R35). -/
def execRefLost (x : Fin 2) (s : State) : Host.Outcome State Fault Refusal := onDev s (fun d => d.refLost x)

/-- REF_REVERT (R35). -/
def execRefRevert (s : State) : Host.Outcome State Fault Refusal := onDev s (fun d => d.refRevert)

/-- REFERENCE_RETURN (R35). -/
def execReferenceReturn (x : Fin 2) (s : State) : Host.Outcome State Fault Refusal := onDev s (fun d => d.refReturn x)

/-- PLL_FAULT (R37). -/
def execPllFault (s : State) : Host.Outcome State Fault Refusal := onDev s (fun d => d.pllFault)

/-- PLL_RESTORED (R39). -/
def execPllRestored (s : State) : Host.Outcome State Fault Refusal := onDev s (fun d => d.pllRestored)

/-- PLL_SINGLE (R39). -/
def execPllSingle (s : State) : Host.Outcome State Fault Refusal := onDev s (fun d => d.pllSingle)

/-- TCLK_STOP (R222). -/
def execTclkStop (s : State) : Host.Outcome State Fault Refusal := onDev s (fun d => d.tclkStop)

/-- FIRST_CALIBRATION_START (R46). -/
def execFirstCalibrationStart (q : Fin 4) (s : State) : Host.Outcome State Fault Refusal := onDev s (fun d => d.firstCalibration q)

/-- LINE_CALIBRATION_DONE (R44): 192 taps, 65,536 samples. -/
def execLineCalibrationDone (x : LineOwner) (hits : List Nat) (s : State) : Host.Outcome State Fault Refusal :=
  if hits.length = 192 ∧ hits.sum = 65536 then onDev s (fun d => d.lineDone x hits) else .fault .badCommand

/-- RECAL_INTERVAL (R49). -/
def execRecalInterval (s : State) : Host.Outcome State Fault Refusal := onDev s (fun d => d.recalInterval)

/-- RECAL_TEMPERATURE (R49). -/
def execRecalTemperature (t : Int) (s : State) : Host.Outcome State Fault Refusal := onDev s (fun d => d.recalTemperature t)

/-- HK_CNT_LO_READ (R55). -/
def execHkCntLoRead (_f : Fin 4) (n : Fin 32) (s : State) : Host.Outcome State Fault Refusal :=
  onDev s (fun d => (d.hkCntLoRead n).2.emit (.readData (HK_CNT_LO n) (d.hkCntLoRead n).1))

/-- ACLK_RATIO_MEASURE (R52). -/
def execAclkRatioMeasure (ticks : Nat) (s : State) : Host.Outcome State Fault Refusal := onDev s (fun d => d.aclkRatio ticks)

end Sys2Proof.Machine
end

