-- ==== Sys2Proof/Machine/FineEdge.lean ====
section
/-! DEFINITION. Fine-edge generators (R205 to R228, R47, R48, R50): planning of pulses, the short-pulse policy, reloads, starts and
stops, pairs, disable, freeze, line swaps. Times are in fine steps of the tick count, so that a step of STIME moves no edge. -/

namespace Sys2Proof.Machine

/-! ## One pin -/

/-- R215: the last fall before a further pulse, planned or out. -/
def FePin.lastFall (x : FePin) : Option Nat :=
  match x.pulses.getLast? with
  | some p => some p.2
  | none => x.lf

/-- R215, R217: the time at which the last planned pulse will have fallen, once its fall has moved to leave it no shorter than `minpw`; with none
planned, the fall that went out last. -/
def FePin.fallsAt (x : FePin) (minpw : Nat) : Option Nat :=
  match x.pulses.getLast? with
  | some p => some (max p.2 ((if x.out && x.pulses.length == 1 then x.lr.getD p.1 else p.1) + minpw))
  | none => x.lf

/-- R215: a pulse from `r` to `f` is planned for a pin: the pin, the edge times of suppressions and of stretches. With `ext` the last pulse
has been merged with it before. -/
def FePin.add (x : FePin) (stretch ext : Bool) (minpw r f : Nat) : FePin × List Nat × List Nat :=
  let merged : FePin := { x with pulses := x.pulses.dropLast ++ (x.pulses.getLast?.map (fun p => (p.1, f))).toList }
  if ext then (merged, [], []) else
  let gapShort := match x.lastFall with | some l => decide (r < l + minpw) | none => false
  if stretch then
    let r' := if gapShort then (x.lastFall.getD 0) + minpw else r
    let f' := if f < r' + minpw then r' + minpw else f
    ({ x with pulses := x.pulses ++ [(r', f')] }, [], (if gapShort then [r'] else []) ++ (if f < r' + minpw then [f'] else []))
  else if gapShort then
    if x.pulses.isEmpty then (x, [r], []) else (merged, [r], [])
  else if f < r + minpw then (x, [r], [])
  else ({ x with pulses := x.pulses ++ [(r, f)] }, [], [])

/-- The time of the pin's next edge. -/
def FePin.nextEdge (x : FePin) : Option Nat := x.pulses.head?.map (fun p => if x.out then p.2 else p.1)

/-- R209: every edge at or after `s0` is dropped; a pulse active at `s0` stays active until it. -/
def FePin.clip (x : FePin) (s0 : Nat) : FePin :=
  { x with pulses := (x.pulses.filter (fun p => p.1 < s0)).map (fun p => (p.1, min p.2 s0)) }

/-- R210: a stop on tick `t`: no rise on tick `t + 4` or later. -/
def FePin.stop (x : FePin) (t : Nat) : FePin :=
  match x.pulses with
  | [] => x
  | p :: r => { x with pulses := (if x.out then [p] else if p.1 / 64 < t + 4 then [p] else []) ++ r.filter (fun y => y.1 / 64 < t + 4) }

/-! ## Generators -/

/-- R218: generator `n` is the even member of a pair. -/
def Dev.fePair (d : Dev) (n : Nat) : Bool := d.flag (FE_CTL_PAIR n)

/-- R218: generator `n` is the odd member of a pair. -/
def Dev.fePaired (d : Dev) (n : Nat) : Bool := n % 2 == 1 && d.flag (FE_CTL_PAIR (n - 1))

/-- R218, R228: a waveform runs on generator `n`: its own, or that of the pair whose odd member it is (log 137). -/
def Dev.feRuns (d : Dev) (n : Nat) : Bool := d.flag (FE_STATUS_RUN n) || (d.fePaired n && d.flag (FE_STATUS_RUN (n - 1)))

/-- The stamp of fine-step time `e` of the tick count (R33: fine 0 and FINE_UNCAL before the first calibration). -/
def Dev.feStamp (d : Dev) (n e : Nat) : Stamp := d.stamp (n / 64) (e / 64) (e % 64)

/-- R224: a record of generator `n`. -/
def Dev.feRec (d : Dev) (n sub e : Nat) : Dev :=
  d.raiseRec (n / 64) (0x100 + n % 64) { typ := 7, sub, src := n, at_ := d.feStamp n e }

/-- R215, R217, R224: suppressions and stretches of generator `n` at these edge times; each member of a pair counts its own. -/
def Dev.feCount (d : Dev) (n : Nat) (sup str : List Nat) : Dev :=
  let d := sup.foldl (fun d e =>
    let d := (d.raise (FE_STATUS_SUPPRESSED n)).incSat (FE_SUPCNT_CNT n)
    if d.flag (FE_CTL_RECSUP n) then d.feRec n 1 e else d) d
  str.foldl (fun d e =>
    let d := (d.raise (FE_STATUS_STRETCHED n)).incSat (FE_STRCNT_CNT n)
    if d.flag (FE_CTL_RECSUP n) then d.feRec n 2 e else d) d

/-- R205: the period in progress at fine-step time `now`. -/
def Fe.adv (x : Fe) (now : Nat) : Fe :=
  if x.reloaded ∧ x.s + x.pCur ≤ now then { x with s := x.s + x.pCur, pCur := x.p, reloaded := false } else x

/-- The last fine step of the present tick. -/
def Dev.fineNow (d : Dev) : Nat := d.tick * 64 + 63

/-- R207, R213, R215: the shadow set as a reload on tick `r` finds it, and DT and MINPW, become the active set. -/
def Dev.feCopy (d : Dev) (n r : Nat) : Dev :=
  let x := d.fe n
  let old := match x.shTick with | some t => decide (r ≤ t) | none => false
  let (p, w) := if old then x.shPrev else (x.shP, x.shW)
  let d := if old then d else d.put (FE_STATUS_SHPEND n) 0
  let d := if p < 512 then d.raise (FE_STATUS_CFG_ERR n) else d
  d.modFe n (fun x => { x with p := max p 512, w, dt := d.get (FE_PULSE_DT n), minpw := max 64 (d.get (FE_PULSE_MINPW n)) })

/-- R205, R215 to R217: the pulses of the period that starts at `s` are planned with the active set. -/
def Dev.fePlan (d : Dev) (n s : Nat) (ext : Bool) : Dev :=
  let x := d.fe n
  let stretch := d.flag (FE_CTL_MPOL n)
  if d.fePair n then
    let re := match x.odd.fallsAt x.minpw with | some l => max (s + x.dt) (l + x.dt) | none => s + x.dt
    let (pin, sup, str) := x.pin.add stretch ext x.minpw re (s + x.w)
    let ro := match pin.fallsAt x.minpw with | some l => max (s + x.w + x.dt) (l + x.dt) | none => s + x.w + x.dt
    let (odd, sup', str') := x.odd.add stretch false x.minpw ro (s + x.p)
    ((d.modFe n (fun x => { x with pin, odd })).feCount n sup str).feCount (n + 1) sup' str'
  else
    let (pin, sup, str) := x.pin.add stretch ext x.minpw s (s + x.w)
    (d.modFe n (fun x => { x with pin })).feCount n sup str

/-- R208: how many periods follow the first, by MODE. -/
def Dev.feLeft (d : Dev) (n : Nat) : Option Nat :=
  let m := d.get (FE_CTL_MODE n)
  if m = 0 then none else if m = 1 then some 0 else some (d.get (FE_BCNT_BCNT n))

/-- R208, R216: the end of the last period: its fall, or the period's end in a pair. -/
def Dev.feEnd (d : Dev) (n : Nat) : Nat := let x := d.fe n; if d.fePair n then x.s + x.pCur else x.s + x.w

/-- R208, R210, R216: RUN becomes 0 once nothing is left to go out; a ONESHOT or BURST that ended of itself sets DONE. -/
def Dev.feFinish (d : Dev) (n : Nat) : Dev :=
  let d := d.modFe n (fun x => x.adv d.fineNow)
  let x := d.fe n
  if d.flag (FE_STATUS_RUN n) ∧ x.pin.pulses = [] ∧ x.odd.pulses = [] ∧ x.again = [] ∧ ¬ x.mergeLeft then
    if x.stopAt.isSome then d.put (FE_STATUS_RUN n) 0
    else if x.left = some 0 ∧ ¬ x.reloaded ∧ d.feEnd n ≤ d.fineNow then
      let d := (d.put (FE_STATUS_RUN n) 0).raise (FE_STATUS_DONE n)
      if d.flag (FE_CTL_RECDONE n) then
        d.feRec n 0 (match (if d.fePair n then x.odd.lf else x.pin.lf) with | some l => if x.s ≤ l then l else d.feEnd n | none => d.feEnd n)
      else d
    else d
  else d

/-! ## Reload -/

/-- A generator's waveform moves on: it is not frozen, its quadrant is up and TCLK runs (R221, R222). -/
def Dev.feMoves (d : Dev) (n : Nat) : Bool :=
  d.tb.running && !d.quadDown (n / 64) && (d.fe n).frozenAt.isNone

/-- R209: a retriggered waveform takes over at its s_0; `rest` waits behind it. -/
def Dev.feTakeOver (d : Dev) (n : Nat) (g : FeAgain) (rest : List FeAgain) : Dev :=
  let x := d.fe n
  let active := match x.pin.pulses.getLast? with | some p => decide (g.s0 ≤ p.2) | none => false
  let d := d.modFe n (fun x => { x with
    pin := x.pin.clip g.s0, odd := x.odd.clip g.s0, s := g.s0, pCur := g.p, p := g.p, w := g.w, dt := g.dt, minpw := g.minpw
    left := g.left, reloaded := false, again := rest, mergeLeft := false })
  d.fePlan n g.s0 active

/-- R213, R38: the copy for the next period; in a switchover window it waits, and the period keeps the present values. -/
def Dev.feCopyNext (d : Dev) (n ns : Nat) : Dev :=
  if d.inWindow then d.modFe n (fun x => { x with lateCopy := true }) else d.feCopy n (ns / 64 - 4)

/-- R213, R38: the reload of the next period, from its reload tick on. -/
def Dev.feNextPeriod (d : Dev) (n : Nat) : Dev :=
  let x := d.fe n
  let ns := x.s + x.pCur
  if ¬ x.reloaded ∧ x.left ≠ some 0 ∧ (x.stopAt = none ∨ x.mergeLeft) ∧ ns / 64 ≤ d.tick + 4 then
    let d := (d.feCopyNext n ns).modFe n (fun x => { x with reloaded := true, mergeLeft := false,
                                                            left := if x.stopAt.isSome then some 0 else x.left.map (· - 1) })
    d.fePlan n ns x.mergeLeft
  else d

/-- R209, R213: a retriggered waveform that waits takes over once its edges are armed, if its s_0 comes before the next period; else the next
period reloads. -/
def Dev.feReloadNow (d : Dev) (n : Nat) : Dev :=
  let x := d.fe n
  match x.again with
  | g :: rest =>
    if g.s0 ≤ x.s + x.pCur ∨ x.left = some 0 then (if g.s0 / 64 ≤ d.tick + 3 then d.feTakeOver n g rest else d) else d.feNextPeriod n
  | [] => d.feNextPeriod n

/-- R213, R221, R222: the reload of generator `n`. -/
def Dev.feReload (d : Dev) (n : Nat) : Dev :=
  if ¬ d.flag (FE_STATUS_RUN n) ∨ ¬ d.feMoves n then d else (d.modFe n (fun x => x.adv d.fineNow)).feReloadNow n

/-! ## Edges -/

/-- R47: the tick on which an edge goes out: whole ticks before the first calibration. -/
def Dev.feEdgeTick (d : Dev) (n e : Nat) : Nat := if d.calDone (n / 64) then e / 64 else (e + 32) / 64

/-- R215, R210: the next period's first rise, known before its reload. -/
def Dev.feNextRise (d : Dev) (n : Nat) : Option Nat :=
  let x := d.fe n
  if x.reloaded ∨ x.left = some 0 ∨ x.stopAt.isSome ∨ x.mergeLeft ∨ x.again ≠ [] then none
  else some (x.s + x.pCur + (if d.fePair n then x.dt else 0))

/-- R205, R44: the tap through which an edge at fine-step time `e` of pin `n` leaves: that of the line in use for its fine step; none while edges go out
on whole ticks (R47). -/
def Dev.feTap (d : Dev) (n e : Nat) : Option Nat :=
  if d.calDone (n / 64) then (let l := d.line n; (if l.activeB then l.tapsB else l.tapsA)[e % 64]?) else none

/-- R205, R215: the due edge of the even or only pin (`odd` false) or of the odd pin goes out. A fall that would leave the pulse short moves;
under SUPPRESS a fall whose gap to the next rise is short does not go out, and the pulses merge. -/
def Dev.fePlace (d : Dev) (n : Nat) (odd : Bool) : Dev :=
  let x := d.fe n
  let pin := if odd then x.odd else x.pin
  let setPin (d : Dev) (p : FePin) : Dev := d.modFe n (fun x => if odd then { x with odd := p } else { x with pin := p })
  let k := if odd then n + 1 else n
  let out := FE_STATUS_OUT k
  match pin.pulses with
  | [] => d
  | (r, f) :: rest =>
    if pin.out then
      let lr := pin.lr.getD r
      if f < lr + x.minpw then
        let d := setPin d { pin with pulses := (r, lr + x.minpw) :: rest }
        d.feCount k [] [lr + x.minpw]
      else
        let merge := if d.flag (FE_CTL_MPOL n) || odd || !rest.isEmpty then none
          else match d.feNextRise n with
            | some a => if f ≤ a ∧ a < f + x.minpw then some a else none
            | none => none
        match merge with
        | some a =>
          let d := setPin d { pin with pulses := [(r, max a (f + 1))] }
          (d.modFe n (fun x => { x with mergeLeft := true })).feCount n [a] []
        | none => (setPin d { pin with out := false, lf := some f, pulses := rest, tap := d.feTap k f }).put out 0
    else (setPin d { pin with out := true, lr := some r, tap := d.feTap k r }).raise out

/-- R205: generator `n` places its earliest due edge; a disabled one may still place those armed for the two ticks of R219. No edge goes out at or
after the s_0 of a retriggered waveform that waits (R209). -/
def Dev.fePeriodEdge (d : Dev) (n : Nat) : Dev :=
  let x := d.fe n
  let armed (e : Nat) : Bool :=
    (d.flag (FE_STATUS_RUN n) || decide (d.feEdgeTick n e < x.idleFrom)) && x.again.all (fun g => decide (e < g.s0))
  let due (p : FePin) : Option Nat := match p.nextEdge with
    | some e => if d.feEdgeTick n e ≤ d.tick ∧ armed e then some e else none
    | none => none
  if ¬ d.feMoves n then d else
  match due x.pin, due x.odd with
  | some a, some b => (d.fePlace n (decide (b < a))).feFinish n
  | some _, none => (d.fePlace n false).feFinish n
  | none, some _ => (d.fePlace n true).feFinish n
  | none, none => d.feFinish n

/-! ## Starts, stops, disable -/

/-- R209, R213: a start of generator `n`, which runs nothing: the copy of the shadow set as it stood at the start of tick `r`, and the first period. -/
def Dev.feFirst (d : Dev) (n s0 t by_ r : Nat) : Dev :=
  let d := (d.raise (FE_STATUS_RUN n)).feCopy n r
  let left := d.feLeft n
  let d := d.modFe n (fun x => { x with
    s := s0, pCur := x.p, reloaded := false, left, stopAt := none, mergeLeft := false, again := [], startTick := some t
    startBy := by_, pin := { x.pin with out := false, pulses := [] }, odd := { x.odd with out := false, pulses := [] } })
  d.fePlan n s0 false

/-- R209, R213: a start of generator `n` while it runs: every edge at or after `s0` is dropped, so the starts that wait for a later s_0 are; the
new waveform waits with the set that it copied. -/
def Dev.feRestart (d : Dev) (n s0 t by_ r : Nat) : Dev :=
  let kept := d.fe n
  let d := d.feCopy n r
  let c := d.fe n
  let g : FeAgain := { s0, p := c.p, w := c.w, dt := c.dt, minpw := c.minpw, left := d.feLeft n, tick := t }
  d.modFe n (fun x => { x with
    p := kept.p, w := kept.w, dt := kept.dt, minpw := kept.minpw, stopAt := none, startTick := some t, startBy := by_
    again := x.again.filter (fun y => y.s0 < s0 && y.tick != t) ++ [g] })

/-- R209, R211: a start that acts on tick `t`, outside a switchover; the shadow set is copied as it stood at the start of tick `r`. Whether RUN was 1
is judged before a stop of the same tick, which bars the start (log 64). -/
def Dev.feStartNow (d : Dev) (n s0 t by_ r : Nat) : Dev :=
  let x := d.fe n
  let first := x.startTick == some t
  let run := if x.stopTick = some t then x.stopRun else d.flag (FE_STATUS_RUN n)
  let d := if first || (run && !d.flag (FE_CTL_RETRIG n)) then d.incSat (FE_IGNCNT_CNT n) else d
  if x.stopTick = some t then d
  else if first then
    if x.startBy ≤ by_ then d
    else if x.again.any (fun g => g.tick == t) then d.feRestart n s0 t by_ r else d.feFirst n s0 t by_ r
  else if run then (if d.flag (FE_CTL_RETRIG n) then d.feRestart n s0 t by_ r else d)
  else d.feFirst n s0 t by_ r

/-- R209, R211, R213: a start with s_0 on tick `t`; `by_` is 0 for the Coach, 1 for the trigger input, 2 for CMD. In a switchover window it waits
(R38). -/
def Dev.feStart (d : Dev) (n s0 t by_ : Nat) : Dev :=
  if d.fePaired n ∨ ¬ d.flag (FE_CTL_EN n) ∨ d.quadDown (n / 64) then d
  else if (d.fe n).frozenAt.isSome then d.incSat (FE_IGNCNT_CNT n)
  else if d.inWindow then d.modFe n (fun x => { x with lateStarts := x.lateStarts ++ [(s0, t, by_)] })
  else d.feStartNow n s0 t by_ t

/-- R210, R215: a stop leaves a last pulse whose gap to the next period's rise is short: under SUPPRESS the two are one pulse, with that rise. -/
def Dev.feStopMerge (d : Dev) (n t : Nat) : Option (Nat × Nat) :=
  let x := d.fe n
  match (x.pin.stop t).pulses, d.feNextRise n with
  | [(r, f)], some a => if ¬ d.flag (FE_CTL_MPOL n) ∧ f ≤ a ∧ a < f + x.minpw then some (r, a) else none
  | _, _ => none

/-- R210, R211: a stop on tick `t`: a start of this tick is undone, waiting ones are dropped, and what is armed for the ticks up to t + 3 goes
out. -/
def Dev.feStop (d : Dev) (n t : Nat) : Dev :=
  if d.fePaired n then d else
  let x := d.fe n
  if x.frozenAt.isSome then d.incSat (FE_IGNCNT_CNT n) else
  let run := d.flag (FE_STATUS_RUN n)
  let fresh := x.startTick == some t && !x.again.any (fun g => g.tick == t)
  let was := if x.stopTick = some t then x.stopRun else run && !fresh
  let d := d.modFe n (fun x => { x with
    stopTick := some t, stopRun := was, lateStarts := [], again := x.again.filter (fun g => g.tick != t) })
  if ¬ run then d
  else if fresh then
    (d.modFe n (fun x => { x with stopAt := some t, again := [], pin := { x.pin with pulses := [] }, odd := { x.odd with pulses := [] } })).feFinish n
  else
    let d := d.feReload n
    let merge := d.feStopMerge n t
    let d := d.modFe n (fun x => { x with stopAt := some t, again := [], pin := x.pin.stop t, odd := x.odd.stop t })
    let d := match merge with
      | some (r, a) => (d.modFe n (fun x => { x with mergeLeft := true, pin := { x.pin with pulses := [(r, a)] } })).feCount n [a] []
      | none => d
    d.feFinish n

/-- R219: one generator is disabled on tick `t`. -/
def Dev.feOff (d : Dev) (t n : Nat) : Dev :=
  if d.flag (FE_CTL_EN n) then
    let d := (d.put (FE_CTL_EN n) 0).put (FE_STATUS_RUN n) 0
    let pol := d.flag (FE_CTL_POL n)
    d.modFe n (fun x => { x with idleFrom := t + 2, polWas := pol, again := [], mergeLeft := false, stopTick := some t, stopRun := false
                                 lateStarts := [], lateCopy := false, lateImm := false })
  else d

/-- R218, R219: a disable on tick `t`; disabling either member of a pair disables both. -/
def Dev.feDisable (d : Dev) (n t : Nat) : Dev :=
  if ¬ d.tb.running then d
  else if d.fePair n then (d.feOff t n).feOff t (n + 1)
  else if d.fePaired n then (d.feOff t n).feOff t (n - 1)
  else d.feOff t n

/-- R220: EN becomes 1 on tick `t`: the pin drives its inactive level from the tick after it on. -/
def Dev.feEnable (d : Dev) (n t : Nat) : Dev :=
  let clear (p : FePin) : FePin := { p with out := false, pulses := [] }
  ((d.raise (FE_CTL_EN n)).put (FE_STATUS_OUT n) 0).modFe n (fun x => { x with onFrom := t + 1, pin := clear x.pin, odd := clear x.odd })

/-! ## Debug freeze -/

/-- R221: every scheduled time moves later by `k` ticks. -/
def Fe.shift (x : Fe) (k : Nat) : Fe :=
  let m (p : FePin) : FePin :=
    { p with lr := p.lr.map (· + 64 * k), lf := p.lf.map (· + 64 * k)
             pulses := p.pulses.map (fun y => (y.1 + 64 * k, y.2 + 64 * k)) }
  { x with s := x.s + 64 * k, pin := m x.pin, odd := m x.odd
           again := x.again.map (fun g => { g with s0 := g.s0 + 64 * k }) }

/-- R221: the debug owner of generator `n` is halted and DBGRUN is 0. -/
def Dev.feHeld (d : Dev) (n : Nat) : Bool :=
  !d.flag (FE_CTL_DBGRUN n) && d.get (ME_STATUS_STATE (2 * (n / 64) + d.get (FE_CTL_OWNER n))) == 4

/-- R221: generator `n` freezes or runs on from tick `t` as its owner's halt and DBGRUN set. -/
def Dev.feRefreeze (t n : Nat) (d : Dev) : Dev :=
  match (d.fe n).frozenAt, d.feHeld n with
  | none, true => (d.modFe n (fun x => { x with frozenAt := some t })).raise (FE_STATUS_FROZEN n)
  | some h, false => (d.modFe n (fun x => { x.shift (t - h) with frozenAt := none })).put (FE_STATUS_FROZEN n) 0
  | _, _ => d

/-- R221: the generators of quadrant `q` freeze or run on from tick `t`. -/
def Dev.feRefreezeQuad (d : Dev) (q t : Nat) : Dev := forRange (Dev.feRefreeze t) (64 * q) 64 d

/-- R222: TCLK runs again: an enabled generator starts with RUN at 0 at its inactive level, and sets CLKSTOP. -/
def Dev.feClockBack (n : Nat) (d : Dev) : Dev :=
  if d.flag (FE_CTL_EN n) then
    let d := ((d.put (FE_STATUS_RUN n) 0).put (FE_STATUS_OUT n) 0).raise (FE_STATUS_CLKSTOP n)
    d.modFe n (fun x => { x with again := [], mergeLeft := false, lateStarts := [], lateCopy := false, lateImm := false, pin := { x.pin with out := false, pulses := [] }
                                 odd := { x.odd with out := false, pulses := [] } })
  else d

/-! ## Register writes -/

/-- R211, R218, R219, R226: a write of CTL; MODE, POL and PAIR are refused while RUN is 1, and PAIR where R218 forbids it. A disable acts
first, on both members where PAIR is set. -/
def Dev.feCtl (d : Dev) (n v : Nat) : Dev :=
  let t := d.tick + 1
  let old := (d.word (FE_CTL n)).toNat
  let en := d.flag (FE_CTL_EN n)
  let run := d.feRuns n
  let locked := run && (bits v 27 4 != bits old 27 4)
  let pairBad := !run && bitAt v 27 && !bitAt old 27 && (n % 2 == 1 || d.flag (FE_STATUS_RUN (n + 1)))
  let v := if locked then putBits v 27 4 (bits old 27 4) else if pairBad then setBitAt v 27 false else v
  let d := if locked || pairBad then d.raise (FE_STATUS_CFG_ERR n) else d
  let d := if !bitAt v 31 && en then d.feDisable n t else d
  let d := d.setWord (FE_CTL n) (BitVec.ofNat 32 (setBitAt v 31 (d.flag (FE_CTL_EN n))))
  let d := if n % 2 = 0 then d.putB (FE_STATUS_PAIRED (n + 1)) (d.fePair n) else d
  let d := d.feRefreeze t n
  if bitAt v 31 && !en then d.feEnable n t else d

/-- R212: a write of FINE moves the staged PER and WID and its own fine parts into the shadow set. -/
def Dev.feFine (d : Dev) (n v : Nat) : Dev :=
  let d := (d.put (FE_FINE_PERF n) (bits v 8 6)).put (FE_FINE_WIDF n) (bits v 0 6)
  let p := d.get (FE_PER_PER n) * 64 + bits v 8 6
  let w := d.get (FE_WID_WID n) * 64 + bits v 0 6
  let d := d.modFe n (fun x => { x with shPrev := (if x.shTick = some d.tick then x.shPrev else (x.shP, x.shW)), shP := p, shW := w, shTick := some d.tick })
  d.raise (FE_STATUS_SHPEND n)

/-- R214, R215: a pin in the period that starts at `s` after an IMM write whose values ask for a pulse from `r` to `f`, where the period ended at `oldEnd`
before; `t1` is the first fine step of the tick on which it acts. A pulse that is out, or goes out in the tick before `t1`, keeps its rise; one that has not
risen is planned anew, with its checks, unless its time has passed. A pulse that was suppressed before is not counted again. -/
def FePin.immediate (x : FePin) (stretch : Bool) (minpw s oldEnd t1 r f : Nat) : FePin × List Nat × List Nat :=
  let f := max f t1
  let mine := x.pulses.filter (fun p => p.1 < oldEnd)
  let fixed := match mine with
    | p :: _ => x.out || decide (p.1 < t1)
    | [] => false
  match fixed, mine with
  | true, p :: _ => ({ x with pulses := [(p.1, f)] }, [], [])
  | _, _ =>
    let bare := { x with pulses := [] }
    if r < t1 then (bare, [], [])
    else
      let (y, sup, str) := bare.add stretch false minpw r f
      (y, if mine.any (fun p => s ≤ p.1) then sup else [], str)

/-- R214: the values of a FINE write become the active set of the period in progress on the next tick. The odd member of a pair, whose interval
has begun by the new values, rises at once (log 65). -/
def Dev.feImmNow (d : Dev) (n : Nat) : Dev :=
  let t1 := (d.tick + 1) * 64
  let d := d.modFe n (fun x => x.adv (t1 + 63))
  let x := d.fe n
  let pair := d.fePair n
  let stretch := d.flag (FE_CTL_MPOL n)
  let p := max x.shP 512
  let d := if x.shP < 512 then d.raise (FE_STATUS_CFG_ERR n) else d
  let w := x.shW
  if t1 + 63 < x.s then
    let active := match x.pin.pulses.find? (fun y => y.1 < x.s) with
      | some y => decide (x.s ≤ y.2)
      | none => false
    let d := d.modFe n (fun x => { x with p, w, pCur := p, pin := x.pin.clip x.s, odd := x.odd.clip x.s })
    d.fePlan n x.s active
  else
    let oneshot := x.left == some 0 && !x.reloaded && !pair
    let stop := max (x.s + p) t1
    let oldEnd := x.s + x.pCur
    let d := if x.s + p < t1 && !oneshot then d.raise (FE_STATUS_SHORTCYC n) else d
    let dt := if pair then x.dt else 0
    let (pin, sup, str) := x.pin.immediate stretch x.minpw x.s oldEnd t1 (x.s + dt) (x.s + w)
    let done := match x.odd.lr with
      | some l => decide (x.s ≤ l) && !x.odd.out
      | none => false
    let ro := max t1 (max (x.s + w + dt) (((pin.fallsAt x.minpw).getD 0) + dt))
    let (odd, sup', str') := if !pair || done then (x.odd, [], []) else x.odd.immediate stretch x.minpw x.s oldEnd t1 ro stop
    let was := x.reloaded
    let d := (d.modFe n (fun y => { y with p, w, pCur := stop - y.s, pin, odd, reloaded := false,
                                           left := if was then y.left.map (· + 1) else y.left })).feCount n sup str
    let d := if pair then d.feCount (n + 1) sup' str' else d
    let x := d.fe n
    if x.left ≠ some 0 ∧ x.stopAt = none ∧ (was ∨ stop / 64 ≤ d.tick + 5) then
      let d := d.modFe n (fun y => { y with reloaded := true, left := y.left.map (· - 1) })
      d.fePlan n stop false
    else d

/-- R214, R221, R38: an IMM write; it acts as a plain FINE write while RUN is 0 or the generator is frozen, and waits in a switchover window. -/
def Dev.feImm (d : Dev) (n : Nat) : Dev :=
  if ¬ d.flag (FE_STATUS_RUN n) ∨ d.fePaired n ∨ (d.fe n).frozenAt.isSome then d
  else if d.inWindow then d.modFe n (fun x => { x with lateImm := true })
  else d.feImmNow n

/-- R38, R213: the first tick after a changeover: the reload, the IMM write and the starts that waited are performed; a start whose s_0 has passed begins
on this tick (log 66). -/
def Dev.feAfterWindow (n : Nat) (d : Dev) : Dev :=
  let x := d.fe n
  if ¬ x.lateCopy ∧ ¬ x.lateImm ∧ x.lateStarts = [] then d else
  let d := d.modFe n (fun x => { x with lateCopy := false, lateImm := false, lateStarts := [] })
  let d := if x.lateCopy then d.feCopy n d.tick else d
  let d := if x.lateImm then d.feImm n else d
  x.lateStarts.foldl (fun d y => d.feStartNow n (max y.1 (d.tick * 64)) y.2.1 y.2.2 d.tick) d

/-- R212, R214: a write of FINE, with IMM or without. -/
def Dev.feFineWrite (d : Dev) (n v : Nat) : Dev :=
  let d := d.feFine n v
  if bitAt v 31 then d.feImm n else d

/-- R209: TDLY in fine steps; below 4 ticks it acts as 4 ticks. -/
def Dev.feDelay (d : Dev) (n : Nat) : Nat := max 256 (d.word (FE_TDLY n)).toNat

/-- R223: a calibration of the generator's standby line. -/
def Dev.feRecal (d : Dev) (n : Nat) : Dev := d.modLine n (fun l => { l with own := true })

/-- R227: the counters clear. -/
def Dev.feClrCnt (d : Dev) (n : Nat) : Dev :=
  ((d.put (FE_SUPCNT_CNT n) 0).put (FE_STRCNT_CNT n) 0).put (FE_IGNCNT_CNT n) 0

/-- R211, R227: a write of CMD acts on the next tick, a stop before a start. -/
def Dev.feCmd (d : Dev) (n v : Nat) : Dev :=
  let t := d.tick + 1
  let d := if bitAt v 3 then d.feClrCnt n else d
  let d := if bitAt v 2 then d.feRecal n else d
  let d := if bitAt v 1 then d.feStop n t else d
  if bitAt v 0 then d.feStart n (t * 64 + d.feDelay n) t 2 else d

/-- R209, R210, R219, R226: the trigger input acts on tick `t`. -/
def Dev.feTrigger (d : Dev) (n t : Nat) : Dev :=
  let fn := d.get (FE_CTL_TRIGFN n)
  if ¬ d.flag (FE_CTL_EN n) then d
  else if fn = 1 then d.feStart n (t * 64 + d.feDelay n) t 1
  else if fn = 2 then d.feStop n t
  else if fn = 3 then d.feDisable n t
  else d

/-- R219: DISABLE_ALL: every generator of quadrant `q` is disabled on one tick. -/
def Dev.feDisableAll (d : Dev) (q : Nat) : Dev :=
  if d.tb.running then forRange (fun n d => d.feOff (d.tick + 1) n) (64 * q) 64 d else d

/-- R208, R225: the burst periods still to start. -/
def Dev.feBleft (d : Dev) (n : Nat) : Nat :=
  let x := (d.fe n).adv d.fineNow
  if d.get (FE_CTL_MODE n) = 2 && d.flag (FE_STATUS_RUN n) then
    (x.left.getD 0) + b2n x.reloaded + b2n (decide (d.fineNow < x.s))
  else 0

/-- R219, R220, R228: the pin is at its fused idle level. -/
def Dev.feIsIdle (d : Dev) (n : Nat) : Bool :=
  let x := d.fe n
  decide (x.idleFrom ≤ d.tick) && (!d.flag (FE_CTL_EN n) || decide (d.tick < x.onFrom))

/-- R207, R219: the polarity under which pin `n` drives; a disable holds it until the pin is idle (log 137). -/
def Dev.fePol (d : Dev) (n : Nat) : Bool :=
  let x := d.fe n
  if !d.flag (FE_CTL_EN n) && decide (d.tick < x.idleFrom) then x.polWas else d.flag (FE_CTL_POL n)

/-- R207, R219, R220: the level of FE pin `n`; none where it is high impedance. -/
def Dev.fePinLevel (d : Dev) (n : Nat) : Option Bool :=
  if d.feIsIdle n || d.quadDown (n / 64) then
    (if d.feIdle n = 2 then none else some (d.feIdle n == 1))
  else some (d.flag (FE_STATUS_OUT n) != d.fePol n)

/-- R228: the pin is at its active level, driven so by its waveform or by its fused idle level. -/
def Dev.feActive (d : Dev) (n : Nat) : Bool := d.fePinLevel n == some (!d.fePol n)

/-! ## Line swaps -/

/-- R48: generator `n` is at a pulse boundary: it runs no waveform, or this is the first tick after a completed pulse and no edge lies in this tick or
the next. In a pair the pulse is the last of either member. -/
def Dev.feBoundary (d : Dev) (n : Nat) : Bool :=
  let x := d.fe n
  let quiet (p : FePin) : Bool := !p.out && (match p.nextEdge with | some e => decide (d.tick + 1 < e / 64) | none => true)
  let last := max (x.pin.lf.getD 0) (x.odd.lf.getD 0)
  !d.flag (FE_STATUS_RUN n) || (quiet x.pin && quiet x.odd && (x.pin.lf.isSome || x.odd.lf.isSome) && d.feEdgeTick n last + 1 == d.tick)

/-- The state with the lines of generator `n` or of a sampler swapped (R48, R49). -/
def Dev.swapLine (d : Dev) (k : Nat) : Dev :=
  let d := d.modLine k (fun l => { l with activeB := !l.activeB, ready := none, lastSwap := d.tick, deferred := false })
  let d := { d with tb := { d.tb with swapTemp := sgn 16 (d.get PWR_TEMP_TEMP) } }
  if k < 256 then (d.putB (FE_STATUS_LINE k) (d.line k).activeB).put (FE_STATUS_CAL_STALE k) 0 else d

/-- R48, R49, R218: the owner swaps to its recalibrated standby line: a generator at a pulse boundary, a pair together, the sampler of an axis input on a
tick on which it has latched nothing (log 61 for the lanes). -/
def Dev.lineSwap (d : Dev) (x : LineOwner) : Dev :=
  let k := lineNo x
  if (d.line k).ready.isNone then d
  else if 256 ≤ k then (if (d.line k).latched = d.tick + 1 then d else d.swapLine k)
  else
    let head := if d.fePaired k then k - 1 else k
    if d.fePair head then
      if d.feBoundary head && (d.line head).ready.isSome && (d.line (head + 1)).ready.isSome then (d.swapLine head).swapLine (head + 1)
      else d
    else if d.feBoundary k then d.swapLine k else d

/-- R50, R59: no boundary within SWAP_WAIT: the generator keeps its line until the next trigger. -/
def Dev.calDefer (d : Dev) (n : Nat) : Dev :=
  match (d.line n).ready with
  | some t =>
    if t + msTicks (max 1 (d.get TB_CALCFG_SWAP_WAIT)) ≤ d.tick then
      (d.modLine n (fun l => { l with ready := none, deferred := true })).raise (FE_STATUS_CAL_DEFER n)
    else d
  | none => d

/-- R50: 1 s without a swap. -/
def Dev.calStale (d : Dev) (n : Nat) : Dev :=
  let l := d.line n
  if l.deferred ∧ l.lastSwap + 800000000 ≤ d.tick then d.raise (FE_STATUS_CAL_STALE n) else d

/-! ## Meanings -/

/-- PLL_SWITCHOVER (R37, R38). -/
def execPllSwitchover (s : State) : Host.Outcome State Fault Refusal := onDev s (fun d =>
  if d.inWindow then forRange Dev.feAfterWindow 0 256 d.pllSwitchover else d)

/-- FE_PERIOD_EDGE (R205). -/
def execFePeriodEdge (g : Fin 256) (s : State) : Host.Outcome State Fault Refusal := onDev s (fun d => d.fePeriodEdge g)
/-- FE_RELOAD (R213). -/
def execFeReload (g : Fin 256) (s : State) : Host.Outcome State Fault Refusal := onDev s (fun d => d.feReload g)
/-- LINE_SWAP (R48). -/
def execLineSwap (x : LineOwner) (s : State) : Host.Outcome State Fault Refusal := onDev s (fun d => d.lineSwap x)
/-- CAL_DEFER (R50). -/
def execCalDefer (g : Fin 256) (s : State) : Host.Outcome State Fault Refusal := onDev s (fun d => d.calDefer g)
/-- CAL_STALE (R50). -/
def execCalStale (g : Fin 256) (s : State) : Host.Outcome State Fault Refusal := onDev s (fun d => d.calStale g)

end Sys2Proof.Machine
end

