-- ==== Sys2Proof/Machine/Timer.lean ====
section
/-! DEFINITION. Timer channels (R169 to R203): counting, compares, chains, captures, triggers, COMPAT flags, debug freeze. Every
operation takes the tick on which it acts: a write lands at the end of its tick and acts on the next (log 11). -/

namespace Sys2Proof.Machine

/-! ## Chains -/

/-- R186: channel `n` is an upper member of a chain. -/
def Dev.tcUpper (d : Dev) (n : Nat) : Bool := d.get (TC_CLK_SRC n) == 4

/-- R186: the lowest member of the chain of channel `n`, itself where it is no upper member; at most `k` steps down. -/
def Dev.tcLowFrom (d : Dev) : Nat → Nat → Nat
  | 0, n => n
  | k + 1, n => if d.tcUpper n then d.tcLowFrom k (n - 1) else n

/-- R186: the lowest member of the chain of channel `n`. -/
def Dev.tcLow (d : Dev) (n : Nat) : Nat := d.tcLowFrom 3 n

/-- R186: the upper members above channel `n`, at most `k` of them. -/
def Dev.tcAbove (d : Dev) : Nat → Nat → List Nat
  | 0, _ => []
  | k + 1, n => if (n + 1) % 256 ≠ 0 ∧ d.tcUpper (n + 1) then (n + 1) :: d.tcAbove k (n + 1) else []

/-- R186: the members of the chain that channel `n` heads, lowest first. -/
def Dev.tcMembers (d : Dev) (n : Nat) : List Nat := n :: d.tcAbove 3 n

/-- `f` applied for each channel of the list, in order. -/
def Dev.forList (f : Nat → Dev → Dev) : List Nat → Dev → Dev
  | [], d => d
  | n :: t, d => Dev.forList f t (f n d)

/-! ## Settings in force -/

/-- R187: the mode in which channel `n` acts: an upper member counts in FREE or MODULO. -/
def Dev.tcMode (d : Dev) (n : Nat) : Nat :=
  let m := d.get (TC_CTL_MODE n)
  if d.tcUpper n then (if m = 1 then 1 else 0) else m

/-- R175: the mode counts modulo CMP1 + 1. -/
def Dev.tcModulo (d : Dev) (n : Nat) : Bool := d.tcMode n == 1 || d.tcMode n == 4

/-- R175: the highest value before the wrap. -/
def Dev.tcTop (d : Dev) (n : Nat) : Nat := if d.tcModulo n then d.get (TC_CMP1_CMP n) else 0xFFFFFFFF

/-- R170, R171: ticks from one count to the next of a tick or prescaled source. -/
def Dev.tcPeriod (d : Dev) (n : Nat) : Nat := if d.get (TC_CLK_SRC n) = 1 then d.get (TC_CLK_PRE n) + 1 else 1

/-- R198: channel `n` is frozen: the lowest member's debug owner is halted (STATE 4) and its DBGFRZ is set. -/
def Dev.tcFrozen (d : Dev) (n : Nat) : Bool :=
  let l := d.tcLow n
  d.flag (TC_CTL_DBGFRZ l) && d.get (ME_STATUS_STATE (2 * (n / 256) + d.get (TC_CTL_OWNER l))) == 4

/-- R177, R502: the field lane of CTL.LANE is given to channel `n` (KIND 1 is a timer channel). -/
def Dev.tcLaneOwned (d : Dev) (n : Nat) : Bool :=
  let l := (n / 256) * 128 + d.get (TC_CTL_LANE n)
  d.get (LANE_CFG_KIND l) == 1 && d.get (LANE_CFG_INDEX l) == n % 256

/-- R177: the level that channel `n` drives onto its lane; none while the lane holds its fused idle level. A change on tick `t` reaches the
lane driver on `t + 1`. -/
def Dev.tcDrives (d : Dev) (n : Nat) : Option Bool :=
  if d.flag (TC_CTL_EN (d.tcLow n)) && d.flag (TC_CTL_OUTEN n) && d.tcLaneOwned n then
    some (if (d.tc n).outWas.1 = d.tick + 1 then (d.tc n).outWas.2 else d.flag (TC_STATUS_OUT n))
  else none

/-! ## The count and its past -/

/-- Remembers that CNT was `old` until tick `t`, on which it changed by `inc` (0: it was loaded). -/
def Dev.tcHist (d : Dev) (n t old : Nat) (inc : Int) : Dev :=
  d.modTc n (fun x => { x with hist := (t, old, inc) :: x.hist.filter (fun h => d.tick < h.1 + 8) })

/-- R174, R179, R184: CNT is loaded with `v` on tick `t`. -/
def Dev.tcLoad (d : Dev) (n t v : Nat) : Dev := (d.tcHist n t (d.get (TC_CNT_CNT n)) 0).put (TC_CNT_CNT n) v

/-- CNT before the changes of the list that came after tick `t`, and with `pre` before a load of tick `t` (R185). -/
def undoHist (pre : Bool) (t : Nat) : List (Nat × Nat × Int) → Nat → Nat
  | [], v => v
  | (tk, old, inc) :: r, v => if t < tk ∨ (pre = true ∧ tk = t ∧ inc = 0) then undoHist pre t r old else v

/-- R169, R174: CNT on tick `t`; with `pre` as a capture takes it, before a trigger's or command's load of the tick (R185). -/
def Dev.tcAt (d : Dev) (pre : Bool) (n t : Nat) : Nat :=
  undoHist (pre && (d.tc n).loadTick != some t) t (d.tc n).hist (d.get (TC_CNT_CNT n))

/-- R189: carries that have left member `n - 1` by tick `t` and have not reached member `n`. -/
def Dev.tcInFlight (d : Dev) (n t : Nat) : Int :=
  ((d.tc n).carries.filter (fun c => c.1 ≤ t + 1)).foldl (fun a c => a + c.2) 0 +
  ((d.tc n).hist.filter (fun h => h.1 == t + 1)).foldl (fun a h => a + h.2.2) 0

/-- The result of counting by `d` from `old` with highest value `top`: the new count, the sign of an overflow or 0, and whether the
upward count cut a cycle short (R175, R176, R178). -/
def countBy (old top : Nat) (inc : Int) : Nat × Int × Bool :=
  if 0 ≤ inc then
    let o := min old top
    let v := o + inc.toNat
    (v % (top + 1), if top < v then 1 else 0, decide (top < old ∧ 0 < inc))
  else
    let k := inc.natAbs
    if k ≤ old then (old - k, 0, false) else ((top + 1 - (k - old) % (top + 1)) % (top + 1), -1, false)

/-- R176: a compare at `cmp` is among the values passed. -/
def countPasses (old top cmp : Nat) (inc : Int) : Bool :=
  if 0 ≤ inc then
    let o := min old top
    decide (cmp ≤ top ∧ (cmp + top - o) % (top + 1) + 1 ≤ inc.toNat)
  else
    let k := inc.natAbs
    if cmp < old then decide (old - cmp ≤ k) else decide (cmp ≤ top ∧ old + (top + 1 - cmp) ≤ k)

/-- R189: the corrected values of the listed members on tick `t`, lowest first, with the carry that ripples into the first. A member that no
carry is on its way to shows its CNT. -/
def Dev.tcCorrected (d : Dev) (pre : Bool) (t : Nat) : List Nat → Int → List (Nat × Nat)
  | [], _ => []
  | n :: r, c =>
    let v := d.tcAt pre n t
    let inc := c + d.tcInFlight n t
    let res := if inc = 0 then (v, (0 : Int), false) else countBy v (d.tcTop n) inc
    (n, res.1) :: d.tcCorrected pre t r res.2.1

/-- R189: the corrected values of every member of the chain that `n` heads, on tick `t`. -/
def Dev.tcChainAt (d : Dev) (pre : Bool) (n t : Nat) : List (Nat × Nat) :=
  match d.tcMembers n with
  | [] => []
  | l :: r => (l, d.tcAt pre l t) :: d.tcCorrected pre t r 0

/-! ## Events and flags -/

/-- R33, R38: the stamp of tick `t` at fine step 0 in quadrant `q`. -/
def Dev.tickStamp (d : Dev) (q t : Nat) : Stamp := d.stamp q t 0

/-- R387, R388: the three level flags of a channel: 0 MATCH0, 1 MATCH1, 2 OVF. -/
def tcFlag (n k : Nat) : Fld := if k = 0 then TC_STATUS_MATCH0 n else if k = 1 then TC_STATUS_MATCH1 n else TC_STATUS_OVF n

/-- R374: the TC_COMPAT record of flag `k`. -/
def Dev.tcCompatRec (d : Dev) (n k t : Nat) : Dev :=
  d.raiseRec (n / 256) (n % 256) { typ := 2, sub := k + 1, src := n, at_ := d.tickStamp (n / 256) t, p0 := d.get (TC_CNT_CNT n) }

/-- R197, R387: an event of flag `k` on tick `t`: it sets the flag; in COMPAT a rise writes a record and an event whose flag is already
set sets OVERRUN. -/
def Dev.tcFlagEvent (d : Dev) (n k t : Nat) : Dev :=
  let was := d.flag (tcFlag n k)
  let ovr := d.flag (TC_STATUS_OVERRUN n)
  let d := d.raise (tcFlag n k)
  if d.tcMode n = 4 then
    let d := d.modTc n (fun x => { x with evTick := Tab.set (0, false, false) x.evTick k (t + 1, was, ovr) })
    if was then d.raise (TC_STATUS_OVERRUN n) else d.tcCompatRec n k t
  else d

/-- R387, R388: an acknowledge of flag `k` on the present tick: the cases of one tick, the stray acknowledge of a COMPAT channel. -/
def Dev.tcAck (d : Dev) (n k : Nat) : Dev :=
  let set := d.flag (tcFlag n k)
  if d.tcMode n = 4 then
    let ev := Tab.get (0, false, false) (d.tc n).evTick k
    if set then
      if ev.1 = d.tick + 1 then
        if ev.2.1 then
          let d := d.modTc n (fun x => { x with evTick := Tab.set (0, false, false) x.evTick k (d.tick + 1, false, ev.2.2) })
          (d.putB (TC_STATUS_OVERRUN n) ev.2.2).tcCompatRec n k d.tick
        else d
      else (d.put (tcFlag n k) 0).modTc n (fun x => { x with ackTick := Tab.set 0 x.ackTick k (d.tick + 1) })
    else if Tab.get 0 (d.tc n).ackTick k = d.tick + 1 then d
    else d.incSat (ACKSTRAY_ACK_STRAY_CNT (n / 256))
  else d.put (tcFlag n k) 0

/-- R177: an output action of tick `t` on the channel's level: 1 set, 2 clear, 3 toggle. -/
def Dev.tcOutAct (d : Dev) (n t act : Nat) : Dev :=
  let d := if (d.tc n).outWas.1 = t + 1 then d else d.modTc n (fun x => { x with outWas := (t + 1, d.flag (TC_STATUS_OUT n)) })
  if act = 1 then d.raise (TC_STATUS_OUT n)
  else if act = 2 then d.put (TC_STATUS_OUT n) 0
  else if act = 3 then d.putB (TC_STATUS_OUT n) (!d.flag (TC_STATUS_OUT n))
  else d

/-- R176, R177, R192, R196: event `kind` (0 match 0, 1 match 1, 2 overflow) of channel `n` on tick `t`: output action, flag, record and
crossbar event. -/
def Dev.tcEvent (d : Dev) (n kind t : Nat) : Dev :=
  let q := n / 256
  let d := if kind = 0 then d.tcOutAct n t (d.get (TC_CTL_OUTACT0 n)) else if kind = 1 then d.tcOutAct n t (d.get (TC_CTL_OUTACT1 n)) else d
  let d := if kind = 1 ∧ d.tcMode n = 2 then d.put (TC_STATUS_RUN n) 0 else d
  let d := d.tcFlagEvent n kind t
  let en := if kind = 0 then TC_CTL_RECM0 n else if kind = 1 then TC_CTL_RECM1 n else TC_CTL_RECOVF n
  let d := if d.flag en then
      d.raiseRec q (n % 256) { typ := 1, sub := kind, src := n, at_ := d.tickStamp q t, p0 := d.get (TC_CNT_CNT n) }
    else d
  d.raiseEventAt q ((n % 256) * 4 + kind) t (d.tickStamp q t)

/-- R188: match 0 with WIDECMP on the head of a chain: every upper member's corrected value equals its CMP0. -/
def Dev.tcWide (d : Dev) (n t : Nat) : Bool :=
  if d.flag (TC_CTL_WIDECMP n) && !d.tcUpper n then
    ((d.tcChainAt false n t).drop 1).all (fun p => p.2 == d.get (TC_CMP0_CMP p.1))
  else true

/-- R175 to R178, R186: CNT of channel `n` changes by `inc` on tick `t`. -/
def Dev.tcApply (d : Dev) (n t : Nat) (inc : Int) : Dev :=
  if inc = 0 then d else
  let old := d.get (TC_CNT_CNT n)
  let top := d.tcTop n
  let res := countBy old top inc
  let m0 := countPasses old top (d.get (TC_CMP0_CMP n)) inc
  let m1 := countPasses old top (d.get (TC_CMP1_CMP n)) inc
  let d := (d.tcHist n t old inc).put (TC_CNT_CNT n) res.1
  let d := if res.2.2 then d.raise (TC_STATUS_SHORTCYC n) else d
  let d := if res.2.1 ≠ 0 ∧ (n + 1) % 256 ≠ 0 ∧ d.tcUpper (n + 1) then
      d.modTc (n + 1) (fun x => { x with carries := x.carries ++ [(t + 1, res.2.1)] })
    else d
  let d := if m0 && d.tcWide n t then d.tcEvent n 0 t else d
  let d := if m1 then d.tcEvent n 1 t else d
  if res.2.1 ≠ 0 then d.tcEvent n 2 t else d

/-! ## Counting -/

/-- R171, R198: counts and carries that fell due before tick `t` are gone; the next count of a tick source is the first at or after `t`. -/
def Tc.skipTo (x : Tc) (period t : Nat) : Tc :=
  { x with next := if x.next < t then x.next + ((t - x.next + period - 1) / period) * period else x.next
           pend := x.pend.filter (fun p => t ≤ p.1), carries := x.carries.filter (fun p => t ≤ p.1) }

/-- R175, R180, R185, R198: a count due on tick `t` is applied. -/
def Dev.tcCounting (d : Dev) (n t : Nat) : Bool :=
  (d.flag (TC_STATUS_RUN n) || (match (d.tc n).stopTick with | some s => decide (t < s) | none => false)) &&
  d.flag (TC_CTL_EN n) && !d.tcFrozen n && !d.quadDown (n / 256) && !d.napping && (d.tcMode n != 3 || (d.tc n).gate)

/-- R172: an axis increment as the channel counts it: limited in magnitude, or its magnitude where DIRCNT is 0. -/
def Dev.tcAxisInc (d : Dev) (n : Nat) (inc : Int) : Int × Dev :=
  let m : Int := 2 ^ 31 - 1
  let d := if m < inc.natAbs then d.raise (TC_STATUS_INCSAT n) else d
  let i := max (-m) (min m inc)
  (if d.flag (TC_CLK_DIRCNT n) then i else (i.natAbs : Int), d)

/-- R174: the count of tick `t` met a load on that tick. -/
def Dev.tcHit (d : Dev) (n t : Nat) : Bool := (d.tc n).loadTick == some t

/-- R170 to R180: channel `n` takes its earliest due increment. -/
def Dev.tcCount (d : Dev) (n : Nat) : Dev :=
  let src := d.get (TC_CLK_SRC n)
  if src ≤ 1 then
    let t := (d.tc n).next
    if d.tb.running ∧ t ≤ d.tick ∧ d.flag (TC_CTL_EN n) then
      let go := d.tcCounting n t
      let hit := d.tcHit n t
      let d := d.modTc n (fun x => { x with next := t + d.tcPeriod n })
      if go then (if hit then d.raise (TC_STATUS_LOADHIT n) else d.tcApply n t 1) else d
    else d
  else if src = 4 then d
  else
    match (d.tc n).pend with
    | [] => d
    | (t, inc) :: r =>
      if t ≤ d.tick then
        let go := d.tcCounting n t
        let hit := d.tcHit n t
        let d := d.modTc n (fun x => { x with pend := r })
        if go then
          let (i, d) := if src = 2 then d.tcAxisInc n inc else (inc, d)
          if hit then d.raise (TC_STATUS_LOADHIT n) else d.tcApply n t i
        else d
      else d

/-- R186, R187, R198: the carry that has travelled longest reaches the upper member `n`. -/
def Dev.tcCarry (d : Dev) (n : Nat) : Dev :=
  match (d.tc n).carries with
  | [] => d
  | (t, c) :: r =>
    if t ≤ d.tick then
      let frozen := d.tcFrozen n || d.quadDown (n / 256)
      let hit := d.tcHit n t
      let d := d.modTc n (fun x => { x with carries := r })
      if frozen then d else if hit then d.raise (TC_STATUS_LOADHIT n) else d.tcApply n t c
    else d

/-- R170, R172: an edge latch of axis `a` on tick `t` with increment `inc` is on its way to every channel that counts the axis. -/
def Dev.tcAxisEdge (d : Dev) (a t : Nat) (inc : Int) : Dev :=
  let chans := [0, 1, 2, 3].flatMap (fun q =>
    (d.regs.filter (fun p => TC_CTL (256 * q) ≤ p.1 && p.1 < TC_CTL (256 * q) + 0x2000 && p.1 % 32 == 4)).map
      (fun p => 256 * q + (p.1 - TC_CTL (256 * q)) / 32))
  Dev.forList (fun n d =>
    if d.get (TC_CLK_SRC n) = 2 ∧ d.get (TC_CLK_AXSEL n) = a then
      d.modTc n (fun x => { x with pend := x.pend ++ [(if n / 256 = a / 2 then t + 2 else t + 6, inc)] })
    else d) chans d

/-! ## Captures -/

/-- R203: CAPINFO of an entry. -/
def CapEntry.info (e : CapEntry) : Nat :=
  e.at_.fine * 2 ^ 24 + e.cause * 2 ^ 16 + 2 ^ 7 + b2n e.chain * 2 ^ 6 + b2n e.frozen * 2 ^ 5 + b2n e.at_.uncal * 2 ^ 4 +
  b2n e.at_.clkSw * 2 ^ 3

/-- An entry put into a queue in order of capture tick (R181). -/
def insertCap (e : CapEntry) : List CapEntry → List CapEntry
  | [] => [e]
  | x :: r => if e.tick < x.tick then e :: x :: r else x :: insertCap e r

/-- R182, R191: a new entry reaches the queue of member `n`, under the lowest member's CQPOL. -/
def Dev.tcEnqueue (d : Dev) (newest : Bool) (n : Nat) (e : CapEntry) : Dev :=
  if (d.tc n).queue.length < 4 then d.modTc n (fun x => { x with queue := insertCap e x.queue })
  else
    let d := (d.raise (TC_STATUS_CAPOVF n)).incSat (TC_STATUS_CAPOVFCNT n)
    if newest then d.modTc n (fun x => { x with queue := insertCap e (x.queue.drop 1) }) else d

/-- R181, R182, R191, R196: a capture on tick `t` by the lowest member `n`. Causes of one capture tick write one entry, with the first
cause's stamp; the channel raises one capture event per tick. -/
def Dev.tcCapture (d : Dev) (n t cause : Nat) (at_ : Stamp) : Dev :=
  if d.tcUpper n ∨ ¬ d.flag (TC_CTL_EN n) ∨ d.quadDown (n / 256) then d else
  let members := d.tcMembers n
  if (d.tc n).queue.any (fun e => e.tick == t) then
    Dev.forList (fun m d => d.modTc m (fun x => { x with queue := x.queue.map (fun e =>
      if e.tick = t ∧ cause < e.cause then { e with cause := cause, at_ := at_ } else e) })) members d
  else
    let vals := d.tcChainAt true n t
    let chain := decide (1 < members.length)
    let frozen := d.tcFrozen n
    let newest := d.flag (TC_CTL_CQPOL n)
    let d := vals.foldl (fun d p => d.tcEnqueue newest p.1 { cnt := p.2, at_, cause, chain, frozen, tick := t }) d
    if (d.tc n).capTick = some d.tick then d else
    let d := d.modTc n (fun x => { x with capTick := some d.tick })
    let e : CapEntry := { cnt := d.tcAt true n t, at_, cause, chain, frozen, tick := t }
    let d := if d.flag (TC_CTL_RECCAPT n) then
        d.raiseRec (n / 256) (n % 256) { typ := 1, sub := 3, src := n, at_, p0 := e.cnt, p1 := e.info }
      else d
    d.raiseEventAt (n / 256) ((n % 256) * 4 + 3) d.tick at_

/-- R181: CLK.CEDGE takes this edge: 0 rising, 1 falling, 2 both. -/
def edgeMatches (cedge : Nat) (rising : Bool) : Bool := cedge == 2 || (cedge == 1) == !rising

/-- R180: the level of field lane CLANE of channel `n` as recognised last; a lane of which no edge has come is low (log 49). -/
def Dev.tcLaneIn (d : Dev) (n : Nat) : Bool := Tab.get false (d.quad (n / 256)).laneIn (d.get (TC_CLK_CLANE n))

/-- R180: the lane of channel `n` has been recognised at `level`. -/
def Dev.tcLaneSeen (d : Dev) (n : Nat) (level : Bool) : Dev :=
  d.modQuad (n / 256) (fun x => { x with laneIn := Tab.set false x.laneIn (d.get (TC_CLK_CLANE n)) level })

/-- R180: CEDGE falling makes the gate active low, any other value active high. -/
def Dev.tcGateHigh (d : Dev) (n : Nat) : Bool := d.get (TC_CLK_CEDGE n) != 1

/-- R180: the gate as the settings in force and the lane's level make it; a gate that opens counts from tick `t` on. -/
def Dev.tcRegate (d : Dev) (n t : Nat) : Dev :=
  let on := d.flag (TC_CTL_EN (d.tcLow n)) && d.tcMode n == 3 && d.tcLaneIn n == d.tcGateHigh n
  if on = (d.tc n).gate then d
  else d.modTc n (fun x => { (if on then x.skipTo (d.tcPeriod n) t else x) with gate := on })

/-- R170, R180, R181: an edge on lane CLANE, sampled on the raw edge tick and recognised now, three ticks later: it captures, counts, or
opens the gate. -/
def Dev.tcLaneEdge (d : Dev) (n : Nat) (rising : Bool) (fine : Nat) : Dev :=
  let d := d.tcLaneSeen n rising
  if ¬ d.flag (TC_CTL_EN (d.tcLow n)) ∨ d.tcUpper n then d else
  let raw := d.tick - 3
  let cedge := d.get (TC_CLK_CEDGE n)
  let d := if d.flag (TC_CLK_CAPIN n) && edgeMatches cedge rising then
      d.tcCapture n raw (b2n (!rising)) (d.stamp (n / 256) raw fine)
    else d
  let d := if d.get (TC_CLK_SRC n) = 3 ∧ edgeMatches cedge rising then
      d.modTc n (fun x => { x with pend := x.pend ++ [(d.tick, 1)] })
    else d
  if rising = d.tcGateHigh n then d.tcRegate n d.tick else d

/-- R180: the recognised end of the gate: it captures CNT with cause GATE_END and loads 0 on the next tick. -/
def Dev.tcGateEnd (d : Dev) (n fine : Nat) : Dev :=
  let d := d.tcLaneSeen n (!d.tcGateHigh n)
  if d.tcMode n = 3 ∧ (d.tc n).gate then
    let d := d.tcCapture n d.tick 2 (d.stamp (n / 256) (d.tick - 3) fine)
    (d.modTc n (fun x => { x with gate := false })).tcLoad n (d.tick + 1) 0
  else d

/-! ## Start, stop, restart -/

/-- The state with RUN of every member of the chain that `n` heads set to `b` (R187). -/
def Dev.tcRunAll (d : Dev) (n : Nat) (b : Bool) : Dev := Dev.forList (fun m d => d.putB (TC_STATUS_RUN m) b) (d.tcMembers n) d

/-- R187: 0 is loaded into every member on tick `t`; no carry is left on its way. -/
def Dev.tcZeroAll (d : Dev) (n t : Nat) : Dev :=
  Dev.forList (fun m d => (d.modTc m (fun x => { x with carries := [] })).tcLoad m t 0) (d.tcMembers n) d

/-- R171, R174: the residue returns to 0 on tick `t`; increments that fell due until then are gone. -/
def Dev.tcResidue (d : Dev) (n t : Nat) : Dev :=
  d.modTc n (fun x => { x with next := t + d.tcPeriod n, pend := x.pend.filter (fun p => t < p.1) })

/-- R185: a STOP acted on tick `t`. -/
def Dev.tcStoppedAt (d : Dev) (n t : Nat) : Bool := (d.tc n).stopCmd == some t

/-- R184, R179, R185: a START on tick `t`. -/
def Dev.tcStart (d : Dev) (n t : Nat) : Dev :=
  if d.tcUpper n ∨ ¬ d.flag (TC_CTL_EN n) ∨ d.flag (TC_STATUS_RUN n) ∨ d.tcStoppedAt n t then d else
  let d := if d.tcMode n = 2 then d.tcZeroAll n t else d
  ((d.modTc n (fun x => { x with stopTick := none })).tcRunAll n true).tcResidue n t

/-- R184, R185: a STOP on tick `t`; no count of that tick is applied. -/
def Dev.tcStop (d : Dev) (n t : Nat) : Dev :=
  if d.tcUpper n ∨ ¬ d.flag (TC_CTL_EN n) then d else
  let was := d.flag (TC_STATUS_RUN n)
  (d.modTc n (fun x => { x with stopTick := if was then some t else x.stopTick, stopCmd := some t })).tcRunAll n false

/-- R184, R185, R187: a RESTART on tick `t`. -/
def Dev.tcRestart (d : Dev) (n t : Nat) : Dev :=
  if d.tcUpper n ∨ ¬ d.flag (TC_CTL_EN n) then d else
  let stopped := d.tcStoppedAt n t
  let d := (d.tcZeroAll n t).tcResidue n t
  if stopped then d else (d.modTc n (fun x => { x with stopTick := none })).tcRunAll n true

/-- R203, R191: QCLR empties the queue and clears CAPOVFCNT of every member of the chain. -/
def Dev.tcQclr (d : Dev) (n : Nat) : Dev :=
  if d.tcUpper n then d else
  Dev.forList (fun m d => (d.modTc m (fun x => { x with queue := [] })).put (TC_STATUS_CAPOVFCNT m) 0) (d.tcMembers n) d

/-- R181, R203: the capture of CMD.CAPT at the end of its capture tick. -/
def Dev.tcCaptNow (d : Dev) (n : Nat) : Dev := d.tcCapture n d.tick 4 (d.tickStamp (n / 256) d.tick)

/-- R181, R191: CMD.CAPT of a channel that may capture: its capture tick is the next, and CNT is taken when the counts of that tick are in it. -/
def Dev.tcCaptAsk (d : Dev) (n : Nat) : Dev :=
  if d.tcUpper n ∨ ¬ d.flag (TC_CTL_EN n) then d
  else { d with late := d.late ++ [{ due := d.tick + 1, rank := 11, code := 0, off := TC_CMD n, v := 8 }] }

/-- R185, R203: a write of CMD acts on the next tick, in the order QCLR, CAPT, STOP, RESTART, START. -/
def Dev.tcCmd (d : Dev) (n v : Nat) : Dev :=
  let t := d.tick + 1
  let d := if bitAt v 4 then d.tcQclr n else d
  let d := if bitAt v 3 then d.tcCaptAsk n else d
  let d := if bitAt v 1 then d.tcStop n t else d
  let d := if bitAt v 2 then d.tcRestart n t else d
  if bitAt v 0 then d.tcStart n t else d

/-- R184, R185: the trigger input acts on tick `t`; a second trigger of the tick merges. -/
def Dev.tcTrigger (d : Dev) (n t : Nat) : Dev :=
  if d.tcUpper n ∨ ¬ d.flag (TC_CTL_EN n) then d
  else if (d.tc n).trigTick = some t then
    (if (d.tc n).mergeTick = some t then d
     else (d.modTc n (fun x => { x with mergeTick := some t })).incSat (XBAR_MERGE_CNT (n / 256)))
  else
    let d := d.modTc n (fun x => { x with trigTick := some t })
    let d := if d.get (TC_CLK_SRC n) = 5 then d.modTc n (fun x => { x with pend := x.pend ++ [(t, 1)] }) else d
    let fn := d.get (TC_CLK_TRIGFN n)
    if fn = 1 then d.tcStart n t
    else if fn = 2 then d.tcStop n t
    else if fn = 3 then d.tcRestart n t
    else if fn = 4 then d.tcCapture n t 3 (d.tickStamp (n / 256) t)
    else d

/-! ## Register writes and reads -/

/-- R177: CFG_ERR where the channel should drive a lane that is not given to it. -/
def Dev.tcLaneCheck (d : Dev) (n : Nat) : Dev :=
  if d.flag (TC_CTL_EN (d.tcLow n)) && d.flag (TC_CTL_OUTEN n) && !d.tcLaneOwned n then d.raise (TC_STATUS_CFG_ERR n) else d

/-- R175, R177, R197, R200: a write of CTL lands; it acts on the next tick. COMPAT is refused where the fuse forbids it. -/
def Dev.tcCtl (d : Dev) (n v : Nat) : Dev :=
  let t := d.tick + 1
  let refused := bits v 28 3 == 4 && bitAt (d.fw 9) 9
  let v := if refused then putBits v 28 3 (d.get (TC_CTL_MODE n)) else v
  let d := if refused then d.raise (TC_STATUS_CFG_ERR n) else d
  let en := d.flag (TC_CTL_EN n)
  let oe := d.flag (TC_CTL_OUTEN n)
  let frozen := d.tcFrozen n
  let d := d.setWord (TC_CTL n) (BitVec.ofNat 32 v)
  let d := if frozen && !d.tcFrozen n then
      Dev.forList (fun m d => d.modTc m (fun x => x.skipTo (d.tcPeriod m) t)) (d.tcMembers n) d
    else d
  let d := if (bitAt v 31 && !en) || (bitAt v 21 && !oe) then
      (d.modTc n (fun x => { x with outWas := (0, false) })).putB (TC_STATUS_OUT n) (bitAt v 20)
    else d
  let d := if bitAt v 31 && !en && !d.tcUpper n then
      let fn := d.get (TC_CLK_TRIGFN n)
      if fn = 1 ∨ fn = 3 then d else d.tcStart n t
    else if !bitAt v 31 && en && !d.tcUpper n then
      ((d.modTc n (fun x => { x with stopTick := none, stopCmd := none })).tcRunAll n false)
    else d
  (d.tcRegate n t).tcLaneCheck n

/-- R186: the upper members of the run of upper members just below `n`. -/
def Dev.tcBelow (d : Dev) : Nat → Nat → Nat
  | 0, _ => 0
  | k + 1, n => if n % 256 ≠ 0 ∧ d.tcUpper (n - 1) then d.tcBelow k (n - 1) + 1 else 0

/-- R171, R186, R201: a write of CLK lands; it acts on the next tick, PRE from the next count. -/
def Dev.tcClk (d : Dev) (n v : Nat) : Dev :=
  let old := d.get (TC_CLK_SRC n)
  let refused := bits v 29 3 == 4 && old != 4 &&
    (n % 256 == 0 || decide (3 < d.tcBelow 4 n + 1 + (d.tcAbove 4 n).length))
  let v := if refused then putBits v 29 3 old else v
  let d := if refused then d.raise (TC_STATUS_CFG_ERR n) else d
  let d := d.setWord (TC_CLK n) (BitVec.ofNat 32 v)
  let d := (d.putB (TC_STATUS_CHAINED n) (d.tcUpper n)).tcRegate n (d.tick + 1)
  if d.get (TC_CLK_SRC n) = old then d else
  let d := (d.modTc n (fun x => { x with carries := [], pend := [] })).tcResidue n (d.tick + 1)
  if d.tcUpper n then d.putB (TC_STATUS_RUN n) (d.flag (TC_STATUS_RUN (d.tcLow n))) else d

/-- R171, R174: a write of CNT lands; it is loaded on the next tick and displaces a count that falls due on it. -/
def Dev.tcCntWrite (d : Dev) (n v : Nat) : Dev :=
  let t := d.tick + 1
  let due := d.get (TC_CLK_SRC n) ≤ 1 ∧ (d.tc n).next = t ∧ d.tcCounting n t
  let d := if due then d.raise (TC_STATUS_LOADHIT n) else d
  let nx := if d.get (TC_CLK_SRC n) ≤ 1 then t + d.tcPeriod n else (d.tc n).next
  let d := d.modTc n (fun x => { x with loadTick := some t, next := nx })
  d.tcLoad n t v

/-- A reader's latch set (R189): the host's is CNTLAT; microengines 2q and 2q + 1 have their own. -/
def Dev.tcLatch (d : Dev) (w : Sender) (p : Nat × Nat) : Dev :=
  match w with
  | .fn _ => d.put (TC_CNTLAT_CNT p.1) p.2
  | .me e => d.modTc p.1 (fun x => if e.val % 2 = 0 then { x with lat0 := p.2 } else { x with lat1 := p.2 })

/-- R189, R190: a read of CNT: the present count; on the lowest member it latches every member's corrected value. -/
def Dev.tcCntRead (d : Dev) (w : Sender) (n : Nat) : Word × Dev :=
  (BitVec.ofNat 32 (d.tcAt false n d.tick), if d.tcUpper n then d else (d.tcChainAt false n d.tick).foldl (fun d p => d.tcLatch w p) d)

/-- R183: the entry in view, shown in the capture view registers. -/
def Dev.tcShow (d : Dev) (n : Nat) (e : Option CapEntry) : Dev :=
  let d := d.modTc n (fun x => { x with view := e })
  match e with
  | some e =>
    ((d.put (TCV_CAPCNT_CNT n) e.cnt).setWord (TCV_CAPINFO n) (BitVec.ofNat 32 e.info)).setPair (TCV_CAPTIME_LO n) (TCV_CAPTIME_HI n)
      e.at_.time
  | none => ((d.put (TCV_CAPCNT_CNT n) 0).setWord (TCV_CAPINFO n) 0).setPair (TCV_CAPTIME_LO n) (TCV_CAPTIME_HI n) 0

/-- R183, R191: a read of CAPCNT: the lowest member's removes the oldest entry of every member and shows it; an upper member's returns
the count in its view. -/
def Dev.tcCapRead (d : Dev) (n : Nat) : Word × Dev :=
  if d.tcUpper n then (d.word (TCV_CAPCNT n), d) else
  let d := Dev.forList (fun m d =>
    let e := (d.tc m).queue.head?
    (d.modTc m (fun x => { x with queue := x.queue.drop 1 })).tcShow m e) (d.tcMembers n) d
  (d.word (TCV_CAPCNT n), d)

/-- R198: the channels of quadrant `q` that engine `e`'s halt froze run on from tick `t`; what fell due meanwhile is lost. -/
def Dev.tcThaw (d : Dev) (q t : Nat) (was : Nat → Bool) : Dev :=
  Dev.forList (fun n d => if was n then d.modTc n (fun x => x.skipTo (d.tcPeriod n) t) else d) ((List.range 256).map (· + 256 * q)) d

/-! ## Meanings -/

/-- TC_COUNT (R176). -/
def execTcCount (n : Fin 1024) (s : State) : Host.Outcome State Fault Refusal := onDev s (fun d => d.tcCount n)
/-- TC_CARRY (R186). -/
def execTcCarry (n : Fin 1024) (s : State) : Host.Outcome State Fault Refusal := onDev s (fun d => d.tcCarry n)
/-- TC_LANE_CAPTURE (R181). -/
def execTcLaneCapture (n : Fin 1024) (rising : Bool) (fine : Fin 64) (s : State) : Host.Outcome State Fault Refusal :=
  onDev s (fun d => d.tcLaneEdge n rising fine)
/-- TC_GATE_END (R180). -/
def execTcGateEnd (n : Fin 1024) (fine : Fin 64) (s : State) : Host.Outcome State Fault Refusal :=
  onDev s (fun d => d.tcGateEnd n fine)

end Sys2Proof.Machine
end

