-- ==== Sys2Proof/Machine/Arm.lean ====
section
/-! DEFINITION. The Coach's arm stage and armed set (R139 to R149): taking an entry, re-aims and HOLDs, firing. -/

namespace Sys2Proof.Machine

/-! ## Lateness -/

/-- R144: the crossing of `key` interpolated between the two latches that straddle it; none where the history no longer holds it. -/
def crossTime (key : Int) : List (Int × Nat) → Option Int
  | (p1, t1) :: (p0, t0) :: r =>
    if (p0 < key ∧ key ≤ p1) ∨ (p1 ≤ key ∧ key < p0) then some ((t0 : Int) + roundDiv ((key - p0) * ((t1 : Int) - t0)) (p1 - p0))
    else crossTime key ((p0, t0) :: r)
  | _ => none

/-- R144: the lateness of a firing at `f`, whose ideal time is `i`, both in fine steps; an unknown crossing reads as the greatest value. -/
def latenessOf (f : Int) : Option Int → Nat
  | none => 0xFFFFFF
  | some i => min 0xFFFFFF ((f - i + 63) / 64).toNat

/-! ## Taking -/

/-- Where the arm stage finds an entry: the horizon, the buffer of a carriage, the reject queue of a local axis. -/
inductive ArmSource where
  | horizon
  | car (c : Nat)
  | reject (i : Nat)
  deriving DecidableEq, Repr

/-- R139: the fire estimate of an eligible entry in fine steps, and how it is taken: 0 its key has passed, 1 timed, 2 edge-armed. -/
def Dev.armEstimate (d : Dev) (q : Nat) (e : Entry) : Option (Int × Nat) :=
  let v := d.view q e.axis
  let now := d.now
  if e.passed v now then some ((now * 64 : Nat), 0)
  else if e.ktype = 0 then (if e.key / 64 ≤ (now : Int) + 1280 then some (e.key, 1) else none)
  else if v.ext then
    match v.predict e.key with
    | some p => if e.admits (decide (v.vel < 0)) ∧ p / 64 ≤ (now : Int) + 1280 then some (p, 1) else none
    | none => none
  else
    let w : Int := (max 1 (d.get (COACH_EDGEWIN_COUNTS q)) : Nat) * 65536
    if (e.admits false ∧ v.t16 < e.key ∧ e.key ≤ v.t16 + w) ∨ (e.admits true ∧ e.key < v.t16 ∧ v.t16 ≤ e.key + w) then
      some ((now * 64 : Nat), 2)
    else none

/-- Every entry that the arm stage of slice `q` can see (R139, R156, R159). -/
def Dev.armSees (d : Dev) (q : Nat) : List (ArmSource × Entry) :=
  let s := d.slice q
  s.hor.map (fun e => (ArmSource.horizon, e)) ++
  (d.cars.filter (fun p => p.1 / 512 == q && p.2.isOpen)).flatMap (fun p => p.2.buf.map (fun e => (ArmSource.car p.1, e))) ++
  s.rejq.flatMap (fun p => p.2.map (fun e => (ArmSource.reject p.1, e)))

/-- R139, R148: the order in which the arm stage takes: fire estimate, PRIO, acceptance. -/
def armBefore (x y : (Int × Nat) × ArmSource × Entry) : Bool :=
  decide (x.1.1 < y.1.1 ∨ (x.1.1 = y.1.1 ∧ (x.2.2.prio < y.2.2.prio ∨ (x.2.2.prio = y.2.2.prio ∧ x.2.2.acc < y.2.2.acc))))

/-- The entry that comes first. -/
def armBest : List ((Int × Nat) × ArmSource × Entry) → Option ((Int × Nat) × ArmSource × Entry)
  | [] => none
  | x :: r => match armBest r with
    | none => some x
    | some y => if armBefore y x then some y else some x

/-- R140, R143: slots held on this tick: a slot is free again on the tick after its firing. -/
def Dev.slotsHeld (d : Dev) (q : Nat) : Nat :=
  let s := d.slice q
  s.slots.length + (if s.fired.1 = d.tick + 1 then s.fired.2.length else 0)

/-- R156: the slice reads carriage `c`'s next template entry; the read completes within 160 ticks. -/
def Dev.carNext (d : Dev) (c : Nat) : Dev :=
  let x := d.car c
  if x.cursor < x.len then d.modCar c (fun x => { x with cursor := x.cursor + 1, reads := x.reads ++ [d.tick + 160] }) else d

/-- The entry is taken from where the arm stage found it. -/
def Dev.armRemove (d : Dev) (q : Nat) (src : ArmSource) (e : Entry) : Dev :=
  match src with
  | .horizon => d.modSlice q (fun s => { s with hor := removeFirst e s.hor })
  | .car c => (d.modCar c (fun x => { x with buf := removeFirst e x.buf })).carNext c
  | .reject i => d.modSlice q (fun s => { s with rejq := Tab.mod [] s.rejq i (removeFirst e) })

/-- R149: the repeat copy of an entry; `rev` is the direction of travel on the take-up tick. -/
def Entry.copy (e : Entry) (rev : Bool) (acc tick : Nat) : Entry :=
  let step : Int := if e.ktype = 0 then (if e.repsh then e.repint * 64 else e.repint)
                    else (if e.repsh then e.repint * 65536 else e.repint * 256)
  let back := e.ktype != 0 && (e.dir == 1 || (e.dir == 2 && rev))
  let k := if back then e.key - step else e.key + step
  { e with key := if e.ktype = 0 then k else sgn 64 (uns 64 k), repcnt := e.repcnt - 1, acc := acc, accTick := tick, arming := 0 }

/-- R149, R150: a taken entry with REPCNT above 0 sends its copy to the insertion stage; `slot` says that the original takes a slot, which is told if
the copy is lost. -/
def Dev.armCopy (d : Dev) (q : Nat) (e : Entry) (slot : Bool) : Dev :=
  if e.repcnt = 0 then d else
  let c := e.copy (d.view q e.axis).rev (d.slice q).nextAcc d.tick
  let d := d.modSlice q (fun s => { s with
    nextAcc := s.nextAcc + 1
    insq := s.insq ++ [{ cls := 1, e := c, from_ := d.tick, origin := if slot then some s.nextSlot else none }] })
  match e.car with
  | some k => d.modCar k (fun x => { x with live := x.live + 1 })
  | none => d

/-- R157: the condition of a template entry holds. -/
def Dev.armCond (d : Dev) (e : Entry) : Bool :=
  match e.car with
  | some c => !bitAt e.tag 4 || bitAt (d.car c).flags (e.tag % 8) == bitAt e.tag 3
  | none => true

/-- R144: the slot that an entry takes on this tick. -/
def Dev.armSlot (d : Dev) (q : Nat) (e : Entry) (f : Int) (how : Nat) : Slot :=
  let s := d.slice q
  let lead : Int := ((d.now + 256) * 64 : Nat)
  let base : Slot := { id := s.nextSlot, e, a := d.tick, unext := e.unext }
  if how = 0 then
    let i := if e.ktype = 0 then some e.key else crossTime e.key (d.view q e.axis).hist
    { base with kind := 0, f := lead, ideal := i, lost := i.isNone, late := true }
  else if how = 1 then { base with kind := if e.ktype = 0 then 0 else 1, f := max f lead, ideal := some f, late := decide (f < lead) }
  else { base with kind := 2 }

/-- R139, R144, R145, R149, R157: the arm stage takes the first of its eligible entries. -/
def Dev.armTake (d : Dev) (q : Nat) : Dev :=
  if d.quadDown q ∨ d.napping ∨ ¬ d.flag (COACH_CTL_EN q) ∨ (d.slice q).took = d.tick + 1 ∨ 1024 ≤ d.slotsHeld q then d else
  let d := d.cancelSweep q
  match armBest ((d.armSees q).filterMap (fun p => (d.armEstimate q p.2).map (fun f => (f, p.1, p.2)))) with
  | none => d
  | some ((f, how), src, e) =>
    let d := (d.armRemove q src e).modSlice q (fun s => { s with took := d.tick + 1 })
    if (d.slice q).cancels? e then d.cancelOne q e else
    let holds := d.armCond e
    let d := d.armCopy q e (holds && !(how == 0 && e.latepol))
    if !holds then d.entryGone e
    else if how = 0 ∧ e.latepol then
      let i := if e.ktype = 0 then some e.key else crossTime e.key (d.view q e.axis).hist
      ((d.incSat (COACH_DISCCNT_CNT q)).entryRec q e (8 + 64 * b2n e.unext) (latenessOf ((d.now * 64 : Nat) : Int) i) (d.stamp q d.tick 0)).entryGone e
    else
      let x := d.armSlot q e f how
      let d := d.modSlice q (fun s => { s with slots := s.slots ++ [x], nextSlot := s.nextSlot + 1 })
      d.put (COACH_AOCC_HIGH q) (max (d.get (COACH_AOCC_HIGH q)) (d.slotsHeld q))

/-- R140: slot `i` is live in its target from tick a + 256. -/
def Dev.slotLive (d : Dev) (q i : Nat) : Dev :=
  d.modSlice q (fun s => { s with slots := s.slots.map (fun x => if x.id = i ∧ x.a + 256 ≤ d.tick then { x with live := true } else x) })

/-! ## Messages from the axes -/

/-- R141: a slot is aimed at `p`, not before a + 256. -/
def Slot.aim (x : Slot) (p lead : Int) : Slot :=
  { x with kind := 1, f := max p lead, late := decide (p < lead), ideal := some p, lost := false }

/-- R141, R146: a slot whose key shows as passed fires on this tick, late. -/
def Slot.fireNow (x : Slot) (now lead : Int) (i : Option Int) : Slot :=
  { x with kind := 0, f := max now lead, late := true, ideal := i, lost := i.isNone }

/-- R102: the axis's true position went from `t0` to `t1` over the key in a direction that the qualifier admits; while extrapolation is off
the key's fraction is ignored. -/
def Entry.crosses (e : Entry) (v : AxView) (t0 t1 : Int) : Bool :=
  let k := if v.ext then e.key else e.key / 65536 * 65536
  (e.admits false && decide (t0 < e.key ∧ k ≤ t1 ∧ t0 < t1)) || (e.admits true && decide (k < t0 ∧ t1 ≤ k ∧ t1 < t0))

/-- R142: after a REV latch a slot whose qualifier does not admit the new direction goes back, unless it fires within 4 ticks. -/
def Slot.turned (x : Slot) (v : AxView) (now : Int) : Option Slot :=
  let tick : Option Int := if x.kind = 2 then x.crossed.map (fun k => k / 64) else some (x.f / 64)
  match tick with
  | some t => if t < now + 4 then some { x with clamp := x.clamp || x.kind == 1 } else none
  | none => if x.e.admits v.rev then some x else none

/-- R103, R142: what a HOLD does to a timed slot. -/
def Slot.held (x : Slot) (m : AxMsg) (now : Int) : Slot :=
  let v := m.view
  let beyond := if v.rev then decide (x.e.key < v.t16 - v.span) else decide (v.t16 + v.span < x.e.key)
  if m.hold ∧ x.kind = 1 ∧ (m.all ∨ beyond) then
    if now + 4 ≤ x.f / 64 then { x with kind := 2, late := false, ideal := none } else { x with clamp := true }
  else if ¬ v.ext ∧ x.kind = 1 ∧ now + 4 ≤ x.f / 64 then { x with kind := 2, late := false, ideal := none }
  else x

/-- R101, R102, R141, R142, R146: what a message of the axis does to one slot of it; none where the slot's entry returns to the horizon.
`t0` is T before the message, `now` STIME, `lead` the slot's tick a + 256 in fine steps. -/
def Slot.told (x : Slot) (m : AxMsg) (t0 : Int) (now : Nat) (lead : Int) : Option Slot :=
  let v := m.view
  let nowF : Int := (now * 64 : Nat)
  if m.rev ∧ ¬ x.e.admits v.rev then x.turned v now else
  let x := x.held m now
  let tj := v.t16 - m.size
  if x.kind = 2 then
    if x.crossed.isSome then some x
    else if m.edge ∧ x.e.crosses v t0 tj then
      let f := nowF + (v.ft % 64 : Nat)
      some { x with crossed := some (if f < lead then lead else f), late := decide (f < lead), ideal := crossTime x.e.key v.hist
                    lost := (crossTime x.e.key v.hist).isNone }
    else if m.jump ∧ (decide (m.size < 0) = v.rev) ∧ x.e.admits v.rev ∧ x.e.crosses v tj v.t16 then
      some (x.fireNow nowF lead (crossTime x.e.key v.hist))
    else if m.edge ∧ v.ext then some (match v.predict x.e.key with | some p => x.aim p lead | none => x)
    else some x
  else if x.kind = 1 ∧ ¬ m.hold ∧ (now : Int) + 4 ≤ x.f / 64 then
    if x.e.passed v now then some (x.fireNow nowF lead (crossTime x.e.key v.hist))
    else match v.predict x.e.key with
      | some p => if p / 64 ≤ now then some (x.fireNow nowF lead (some p)) else some (x.aim p lead)
      | none => some x
  else some x

/-- R101, R103, R142, R146: the oldest message of axis `a` to slice `q` arrives: the slots of the axis follow it, entries return to the horizon,
calendar entries that a jump passed over are drawn. -/
def Dev.axArrive (d : Dev) (q a : Nat) (hold : Bool) : Dev :=
  match d.msgs.find? (fun m => m.q == q && m.a == a) with
  | none => d
  | some m =>
    if d.tick < m.due ∨ m.hold ≠ hold then d else
    let d := { d with msgs := removeFirst m d.msgs }
    let v0 := d.view q a
    let now := d.now
    let lead (x : Slot) : Int := (d.stimeAt (x.a + 256) * 64 : Nat)
    let mine (x : Slot) : Bool := x.e.ktype == 1 && x.e.axis == a
    let s := d.slice q
    let back := s.slots.filter (fun x => mine x && !x.orphan && (x.told m v0.t16 now (lead x)).isNone)
    let slots := s.slots.filterMap (fun x => if mine x then x.told m v0.t16 now (lead x) else some x)
    let tj := m.view.t16 - m.size
    let crossed (e : Entry) : Bool := m.jump && (decide (m.size < 0) == m.view.rev) && e.ktype == 1 && e.axis == a && e.admits m.view.rev &&
      (if m.view.rev then decide (m.view.t16 ≤ e.key ∧ e.key < tj) else decide (tj < e.key ∧ e.key ≤ m.view.t16))
    d.modSlice q (fun s => { s with
      slots := slots
      views := Tab.set {} s.views a m.view
      cal := s.cal.map (fun p => if crossed p.2 then (.posPast a, p.2) else p)
      insq := s.insq ++ back.map (fun x => { cls := 0, e := { x.e with repcnt := 0 }, from_ := d.tick }) })

/-! ## Firing -/

/-- R143: the slot is live and due on STIME tick `now` or was due before it. -/
def Slot.isDue (x : Slot) (now : Nat) : Bool :=
  x.live && (match x.due with | some f => decide (f / 64 ≤ (now : Int)) | none => false)

/-- R131: the action of an entry on this tick, at fine step `fine`; `status` and `lateness` go to a commit group. -/
def Dev.entryAct (d : Dev) (q : Nat) (e : Entry) (fine status lateness : Nat) : Dev :=
  let t := d.tick
  let n := e.target
  match e.action with
  | 1 => d.feStart (64 * q + n) (t * 64 + fine) t 0
  | 2 => d.feStop (64 * q + n) t
  | 3 => d.tcTrigger (256 * q + n) t
  | 4 => d.tcCapture (256 * q + n) t 5 (d.tickStamp q t)
  | 5 => d.raiseEventAt q (0x440 + n) t (d.tickStamp q t)
  | 6 => d.cmtStrobe n t status lateness e.arming
  | 7 => d.snapTrigger n 1 (t + 4) none
  | 8 => match e.car with
    | some c => d.carClose c 1 t d.slotDueSoon
    | none => d
  | _ => d

/-- R147: the slices whose entries can act on the target: all of them on a commit group or a snapshot set. -/
def goalSlices (q : Nat) (g : Nat × Nat) : List Nat := if g.1 = 6 ∨ g.1 = 7 then [0, 1, 2, 3] else [q]

/-- R147, R148: an entry of slice `p` comes before one of slice `q` on their target: by PRIO, then by acceptance. -/
def Entry.beats (y : Entry) (p : Nat) (e : Entry) (q : Nat) : Bool :=
  decide (y.prio < e.prio ∨ (y.prio = e.prio ∧
    (if p = q then y.acc < e.acc else y.accTick < e.accTick ∨ (y.accTick = e.accTick ∧ p < q))))

/-- R147: on this tick another entry has acted on the target of slot `x` of slice `q`, or one that is due comes before it. -/
def Dev.slotBeaten (d : Dev) (q : Nat) (x : Slot) : Bool :=
  match x.e.goal with
  | none => false
  | some g => (goalSlices q g).any (fun p =>
      let s := d.slice p
      (s.fired.1 == d.tick + 1 && s.fired.2.contains g) ||
      (!d.quadDown p && s.slots.any (fun y => !(p == q && y.id == x.id) && y.isDue d.now && y.e.goal == some g && y.e.beats p x.e q)))

/-- R143, R147, R161: slot `i` fires on this tick. Of the slots that act on one target on one tick the one of lowest PRIO, then of earliest
acceptance, acts; EVENT entries on a line and COMMIT entries on a group act once without COLLIDE. -/
def Dev.slotFire (d : Dev) (q i : Nat) : Dev :=
  let d := d.cancelSweep q
  let s := d.slice q
  match s.slots.find? (fun x => x.id == i) with
  | none => d
  | some x =>
    if ¬ x.isDue d.now ∨ d.quadDown q ∨ d.pw.waking then d else
    let e := x.e
    let f0 := (x.due).getD 0
    let jumped := decide (f0 / 64 < (d.now : Int))
    let f : Int := if jumped then (d.now * 64 : Nat) else f0
    let done := if s.fired.1 = d.tick + 1 then s.fired.2 else []
    let beaten := d.slotBeaten q x
    let collide := beaten && e.action != 5 && e.action != 6
    let late := x.late || jumped
    let lateness := if x.lost then 0xFFFFFF else latenessOf f (if x.ideal.isSome then x.ideal else some f0)
    let fine := (f % 64).toNat
    let quant := e.action == 1 && !d.calDone q
    let status := 128 * b2n late + 64 * b2n (x.unext || x.kind == 2) + 32 * b2n x.clamp + 16 * b2n collide + 4 * b2n quant + 2 * b2n x.repdrop
    let d := d.modSlice q (fun s => { s with
      slots := s.slots.filter (fun y => y.id != i), fired := (d.tick + 1, done ++ [if beaten then (0, 0) else (e.goal).getD (0, 0)]) })
    let d := if beaten then d.cmtGone e.arming else d.entryAct q e fine status lateness
    let d := if collide then d.incSat (COACH_COLLCNT_CNT q) else d
    let d := if late then (d.incSat (COACH_LATECNT_CNT q)).raise (COACH_STATUS_LATE_SEEN q) else d
    let d := d.entryRec q e status lateness (d.stamp q d.tick fine)
    if x.orphan then d else
    match e.car with
    | some c => (d.modCar c (fun y => { y with live := y.live - 1 })).carSettle c
    | none => d

/-! ## Meanings -/

/-- ARM_TAKE (R144). -/
def execArmTake (q : Fin 4) (s : State) : Host.Outcome State Fault Refusal := onDev s (fun d => d.armTake q)
/-- SLOT_LIVE (R140). -/
def execSlotLive (q : Fin 4) (i : Nat) (s : State) : Host.Outcome State Fault Refusal := onDev s (fun d => d.slotLive q i)
/-- SLOT_FIRE (R143). -/
def execSlotFire (q : Fin 4) (i : Nat) (s : State) : Host.Outcome State Fault Refusal := onDev s (fun d => d.slotFire q i)
/-- REAIM_ARRIVE (R101). -/
def execReaimArrive (q : Fin 4) (a : Fin 8) (s : State) : Host.Outcome State Fault Refusal := onDev s (fun d => d.axArrive q a false)
/-- HOLD_ARRIVE (R103). -/
def execHoldArrive (q : Fin 4) (a : Fin 8) (s : State) : Host.Outcome State Fault Refusal := onDev s (fun d => d.axArrive q a true)

end Sys2Proof.Machine
end

