-- ==== Sys2Proof/Machine/Emulator.lean ====
section
/-! DEFINITION. The emulators EMU[a] (R110 to R126): divider, smooth placement, backlog, slave answers. -/

namespace Sys2Proof.Machine

/-! ## CRC -/

/-- R86: one byte through the CRC-16 with polynomial 0x1021. -/
def crc16Step (crc byte : Nat) : Nat :=
  (List.range 8).foldl (fun c _ => if 0x8000 ≤ c then ((c * 2) ^^^ 0x1021) % 65536 else (c * 2) % 65536) ((crc ^^^ (byte * 256)) % 65536)

/-- R86: the CRC of a list of bytes. -/
def crc16 (bytes : List Nat) : Nat := bytes.foldl crc16Step 0xFFFF

/-- The `w` bits of a number, most significant first. -/
def bitsOf (w n : Nat) : List Bool := (List.range w).map (fun i => bitAt n (w - 1 - i))

/-- The number of a list of bits, most significant first. -/
def ofBits (l : List Bool) : Nat := l.foldl (fun n b => 2 * n + b2n b) 0

/-- The bytes of a number of `k` bytes, most significant first. -/
def bytesOf (k n : Nat) : List Nat := (List.range k).map (fun i => bits n (8 * (k - 1 - i)) 8)

/-- R85: position bits of an SPF frame by its LEN code; the reserved code is taken as the longest (log 24). -/
def spfLen (code : Nat) : Nat := if code = 0 then 24 else if code = 1 then 32 else 48

/-! ## The divider -/

/-- R110: one source count of the given direction: the new accumulator and whether an output count comes of it. -/
def divStep (m n : Nat) (acc : Int) (up : Bool) : Int × Bool :=
  if up then (if (n : Int) ≤ acc + m then (acc + m - n, true) else (acc + m, false))
  else (if acc < m then (acc - m + n, true) else (acc - m, false))

/-- The ticks on which waiting counts go out, 32 ticks apart (R114). -/
def outTimes : Option Nat → List EmuDue → List Nat
  | _, [] => []
  | last, x :: r =>
    let t := match last with
      | some l => max x.due (l + 32)
      | none => x.due
    t :: outTimes (some t) r

/-- R114: an output count joins those that wait; one that would take the backlog past 255 is lost. One that is only placed ahead is not placed
then: it is lost, once, when its source count comes. -/
def Dev.emuPush (d : Dev) (b : Nat) (e : EmuDue) : Dev :=
  let x := d.emu b
  let ts := outTimes x.lastOut x.backlog
  let prev := match ts.getLast? with
    | some t => some t
    | none => x.lastOut
  let late : Bool := match prev with
    | some p => decide (e.due < p + 32)
    | none => false
  let d := if late then d.raise (AXIS_EMU_STATUS_OVERSPEED b) else d
  if late ∧ 255 ≤ (ts.filter (fun t => decide (e.due < t))).length then
    (if e.early then d else (d.incSat (AXIS_EMU_LOSTCNT_CNT b)).raise (AXIS_EMU_STATUS_FAULT b))
  else d.modEmu b (fun x => { x with backlog := x.backlog ++ [e] })

/-- R113: DELAY as it acts: at least FILT + 5 ticks, or FILT + 9 for a remote source. -/
def Dev.emuDelay (d : Dev) (b : Nat) : Nat :=
  let src := d.get (AXIS_EMU_CFG_SRC b)
  max (d.get (AXIS_EMU_CFG_DELAY b)) (d.get (AXIS_CFG_FILT src) + (if src / 2 = b / 2 then 5 else 9))

/-- The tick of the model's count for a time in fine steps of STIME, to the nearest tick, an exact half later (R113, R206). -/
def Dev.tickNear (d : Dev) (ft : Int) : Nat := ((ft + 32) / 64 - (d.now : Int) + d.tick).toNat

/-- R113: the time at which a travel of num / m counts after the latch of `v` is reached, in fine steps of STIME. -/
def AxView.travelTime (v : AxView) (num : Int) (m : Nat) : Int := (v.ft : Int) + roundDiv (num * 2 ^ 46) ((m : Int) * v.vel.natAbs)

/-- R111: a ratio that waits is applied on this source count. -/
def Emu.takeRatio (x : Emu) : Emu :=
  match x.newRatio with
  | some (m, n) => { x with acc := x.acc * n / x.n, m := m, n := n, newRatio := none }
  | none => x

/-- What a latch of the source tells an emulator: the view before it, whether its counts are placed smoothly, the time of its raw edge
in fine steps of STIME, the tick of the latch, the tick of edge mode. -/
structure EmuLatch where
  v : AxView
  smooth : Bool
  edge : Int
  t : Nat
  edgeDue : Nat

/-- R112, R113: the tick of the output count that the source count number `i` of a latch gives, and whether it has already passed. -/
def Dev.emuDueOf (d : Dev) (b : Nat) (l : EmuLatch) (i : Nat) (x : Emu) (up : Bool) : Nat × Bool :=
  if l.smooth then
    let num : Int := (i : Int) * x.m + (if up then (x.n : Int) - x.acc else x.acc)
    let t := d.tickNear (min (l.v.travelTime num x.m) l.edge + 64 * (d.emuDelay b : Int))
    if t < l.t then (l.t, true) else (t, false)
  else (l.edgeDue, false)

/-- R110, R113: source count number `i` of a latch. An output count that has been placed ahead takes its final tick, or has gone out
already; any other is placed now. -/
def Dev.emuCount (d : Dev) (b : Nat) (l : EmuLatch) (up : Bool) (i : Nat) (early : List EmuDue) : List EmuDue × Dev :=
  let x := (d.emu b).takeRatio
  let r := divStep x.m x.n x.acc up
  let c := if r.2 then (if up then x.c + 1 else x.c - 1) else x.c
  let due := d.emuDueOf b l i x up
  let d := d.modEmu b (fun _ => { x with acc := r.1, c := sgn 48 (uns 48 c) })
  if !r.2 then (early, d)
  else if 0 < x.ahead ∧ up ∨ x.ahead < 0 ∧ ¬ up then
    (early, d.modEmu b (fun x => { x with ahead := if up then x.ahead - 1 else x.ahead + 1 }))
  else
    match early with
    | e :: r => (r, d.emuPush b { e with due := min e.due (max l.t (d.tickNear (l.edge + 64 * (d.emuDelay b : Int)))), early := false })
    | [] =>
      let d := if due.2 then d.raise (AXIS_EMU_STATUS_LATE b) else d
      ([], d.emuPush b { due := due.1, up := up, c := c })

/-- R113: output counts that lie ahead within the clamp span are placed now, at the crossings that the latch of `v` predicts. `k` counts
have been placed; `skip` have gone out already. -/
def Dev.emuLook (d : Dev) (b : Nat) (v : AxView) (t : Nat) (up : Bool) : Nat → Nat → Nat → Dev
  | 0, _, _ => d
  | fuel + 1, k, skip =>
    let x := d.emu b
    let num : Int := (k : Int) * x.n + (if up then (x.n : Int) - x.acc else x.acc)
    if num * 65536 ≤ v.span * x.m then
      let d := if skip ≠ 0 then d
        else
          let tk := d.tickNear (v.travelTime num x.m + 64 * (d.emuDelay b : Int))
          let c := if up then x.c + (k + 1) else x.c - (k + 1)
          let d := if tk < t then d.raise (AXIS_EMU_STATUS_LATE b) else d
          d.emuPush b { due := max t tk, up := up, c := c, early := true }
      d.emuLook b v t up fuel (k + 1) (skip - 1)
    else d

/-- Output counts that went out ahead are taken back when the source turns (R110: the output retraces its counts). -/
def Dev.emuUndo (d : Dev) (b : Nat) (due : Nat) : Nat → Dev
  | 0 => d
  | k + 1 =>
    let x := d.emu b
    let up := decide (x.ahead < 0)
    let n := if up then x.ahead + 1 else x.ahead - 1
    let d := d.modEmu b (fun x => { x with ahead := n })
    (d.emuPush b { due := due, up := up, c := x.c + n }).emuUndo b due k

/-- R110 to R114, R117: emulator `b` takes a latch or jump that moves its source by `n` whole counts. -/
def Dev.emuTake (d : Dev) (b : Nat) (l : EmuLatch) (n : Int) (now : AxView) : Dev :=
  if ¬ d.flag (AXIS_EMU_CFG_EN b) then d else
  let up := decide (0 < n)
  let was := d.emu b
  let early := ((d.emu b).backlog.filter (fun e => e.early)).filter (fun e => decide (n ≠ 0) && e.up == up)
  let d := d.modEmu b (fun x => { x with backlog := x.backlog.filter (fun e => !e.early) })
  let turned := (0 < (d.emu b).ahead ∧ n < 0) ∨ ((d.emu b).ahead < 0 ∧ 0 < n)
  let d := if turned then d.emuUndo b l.t (d.emu b).ahead.natAbs else d
  let d := ((List.range n.natAbs).foldl (fun p i => p.2.emuCount b l up i p.1) (early, d)).2
  let d := if n = 0 then d
    else d.modEmu b (fun x => { x with
      recent := { tick := l.t, c := was.c, acc := was.acc, m := was.m, n := was.n } :: x.recent.filter (fun p => d.tick < p.tick + 8) })
  if d.flag (AXIS_EMU_CFG_SMOOTH b) ∧ now.ext ∧ now.vel ≠ 0 then
    let fwd := decide (0 < now.vel)
    let x := d.emu b
    let skip := if (0 < x.ahead) = (0 < now.vel) then x.ahead.natAbs else 0
    d.emuLook b now l.t fwd ((now.span * x.m / (65536 * x.n)).toNat + 2) 0 skip
  else d

/-- R112, R113, R117: the emulators that follow axis `a` take a latch or jump on tick `t`; `n` whole counts of movement, `v` the view before,
`ft` the raw edge in fine steps of STIME. -/
def Dev.emuAll (d : Dev) (a t : Nat) (v : AxView) (ft : Int) (n : Int) (jump : Bool) : Dev :=
  let now := d.axView a t
  [0, 1, 2, 3, 4, 5, 6, 7].foldl (fun d b =>
    if d.get (AXIS_EMU_CFG_SRC b) = a then
      d.emuTake b { v := v, smooth := v.ext && v.vel != 0 && decide (0 < n * v.vel) && d.flag (AXIS_EMU_CFG_SMOOTH b) && !jump,
                    edge := ft, t := t, edgeDue := if a / 2 = b / 2 then t + 2 else t + 6 } n now
    else d) d

/-! ## Outputs -/

/-- R67, R114: the next quadrature state BA in the given direction. -/
def quadNext (st : Nat) (up : Bool) : Nat :=
  if up then (if st = 0 then 1 else if st = 1 then 3 else if st = 3 then 2 else 0)
  else (if st = 0 then 2 else if st = 2 then 3 else if st = 3 then 1 else 0)

/-- R112 to R114: the oldest waiting count goes out once it is due and 32 ticks have passed since the last change. -/
def Dev.emuOut (d : Dev) (b : Nat) : Dev :=
  let x := d.emu b
  match x.backlog with
  | [] => d
  | e :: r =>
    let free : Bool := match x.lastOut with
      | some l => decide (l + 32 ≤ d.tick)
      | none => true
    if d.tb.running ∧ e.due ≤ d.tick ∧ free then
      d.modEmu b (fun x => { x with
        backlog := r
        out := quadNext x.out e.up
        shown := e.c
        lastOut := some d.tick
        ahead := if e.early then (if e.up then x.ahead + 1 else x.ahead - 1) else x.ahead })
    else d

/-- R125: the base lane of emulator `b`, device-wide. -/
def Dev.emuLane (d : Dev) (b : Nat) : Nat := (b / 2) * 128 + min 123 (d.get (AXIS_EMU_CFG_LANE b))

/-- R125, R502: field lane `l` is given to emulator `b` (KIND 3). -/
def Dev.emuOwns (d : Dev) (b l : Nat) : Bool :=
  d.get (LANE_CFG_KIND l) == 3 && d.get (LANE_CFG_INDEX l) == b % 2

/-- R115: the level of output Z: high while C mod ZPERIOD is ZPOS. -/
def Dev.emuZ (d : Dev) (b : Nat) : Bool :=
  let p := d.get (AXIS_EMU_ZCFG_ZPERIOD b)
  p != 0 && d.flag (AXIS_EMU_CFG_ZEN b) && ((d.emu b).c % (p : Int) == (d.get (AXIS_EMU_ZCFG_ZPOS b) : Int))

/-- R114, R115, R120, R125: the level that emulator `b` drives on its lane `k`: 0 A, 1 B, 2 Z, 4 slave data; none where it drives none. -/
def Dev.emuDrives (d : Dev) (b k : Nat) : Option Bool :=
  let x := d.emu b
  let inv := d.flag (AXIS_EMU_CFG_INV b)
  if !d.emuOwns b (d.emuLane b + k) then none
  else if k = 4 then (if d.get (AXIS_EMU_CFG_SLAVE b) ≠ 0 then some x.data else none)
  else if !d.flag (AXIS_EMU_CFG_OUT_EN b) then none
  else if k = 0 then some (bitAt x.out (b2n inv))
  else if k = 1 then some (bitAt x.out (1 - b2n inv))
  else if k = 2 then some (d.emuZ b)
  else none

/-- R125: a lane that emulator `b` needs is not given to it. -/
def Dev.emuLaneErr (d : Dev) (b : Nat) : Bool :=
  let l := d.emuLane b
  (d.flag (AXIS_EMU_CFG_OUT_EN b) && !(d.emuOwns b l && d.emuOwns b (l + 1) && d.emuOwns b (l + 2))) ||
  (d.get (AXIS_EMU_CFG_SLAVE b) != 0 && !d.emuOwns b (l + 4))

/-- R126: EMU[b].STATUS as it reads. -/
def Dev.emuStatus (d : Dev) (b : Nat) : Nat :=
  let en := d.flag (AXIS_EMU_CFG_EN b)
  let wait := ((d.emu b).backlog.filter (fun e => decide (e.due ≤ d.tick))).length
  (d.word (AXIS_EMU_STATUS b)).toNat ||| (min wait 255 * 2 ^ 16) ||| (b2n (d.emuLaneErr b) * 64) |||
    (b2n (en && d.flag (AXIS_EMU_CFG_SMOOTH b) && !d.axExt (d.get (AXIS_EMU_CFG_SRC b))) * 2) ||| b2n en

/-! ## Register writes -/

/-- R111: no value of M is held any more. -/
def Dev.emuUnhold (d : Dev) (b : Nat) : Dev := { d with heldHi := Tab.set 0 d.heldHi (AXIS_EMU_RATIO_M b) 0 }

/-- R110, R111, R125: a write of EMU[b].CFG lands; it acts on the next tick. EN is set only for a ratio that R111 allows; a held M belongs to the
run in which it was written. -/
def Dev.emuCfg (d : Dev) (b v : Nat) : Dev :=
  let d := if bitAt v 0 = d.flag (AXIS_EMU_CFG_EN b) then d else d.emuUnhold b
  let was := d.flag (AXIS_EMU_CFG_EN b)
  let m := d.get (AXIS_EMU_RATIO_M_M b)
  let n := d.get (AXIS_EMU_RATIO_N_N b)
  let refused := bitAt v 0 && !was && !(decide (1 ≤ m) && decide (m ≤ n))
  let d := d.setWord (AXIS_EMU_CFG b) (BitVec.ofNat 32 (if refused then setBitAt v 0 false else v))
  if refused then d.raise (AXIS_EMU_STATUS_RATIO_ERR b)
  else if bitAt v 0 && !was then
    let p := (d.axis (d.get (AXIS_EMU_CFG_SRC b))).t16 / 65536
    d.modEmu b (fun x => { x with
      acc := min (d.get (AXIS_EMU_PHASE_PHASE b)) (n - 1)
      c0 := x.c
      p0 := p
      m := m
      n := n
      newRatio := none
      backlog := x.backlog.filter (fun e => !e.early)
      shown := x.c
      ahead := 0 })
  else if !bitAt v 0 && was then d.modEmu b (fun x => { x with backlog := x.backlog.filter (fun e => !e.early), newRatio := none })
  else d

/-- R111: a write of RATIO_M: held while EN is 1. -/
def Dev.emuRatioM (d : Dev) (b v : Nat) : Dev :=
  if d.flag (AXIS_EMU_CFG_EN b) then { d with heldHi := Tab.set 0 d.heldHi (AXIS_EMU_RATIO_M b) (BitVec.ofNat 32 (v + 2 ^ 31)) }
  else (d.emuUnhold b).put (AXIS_EMU_RATIO_M_M b) v

/-- R111: a write of RATIO_N: while EN is 1 it takes the held M with it, and both apply on the next source count; a ratio that R111 does not
allow is refused. -/
def Dev.emuRatioN (d : Dev) (b v : Nat) : Dev :=
  let n := v % 2 ^ 24
  if d.flag (AXIS_EMU_CFG_EN b) then
    let held := (Tab.get 0 d.heldHi (AXIS_EMU_RATIO_M b)).toNat
    let m := if held ≠ 0 then held % 2 ^ 24 else d.get (AXIS_EMU_RATIO_M_M b)
    let d := d.emuUnhold b
    if 1 ≤ m ∧ m ≤ n then
      ((d.put (AXIS_EMU_RATIO_M_M b) m).put (AXIS_EMU_RATIO_N_N b) n).modEmu b (fun x => { x with newRatio := some (m, n) })
    else d.raise (AXIS_EMU_STATUS_RATIO_ERR b)
  else d.put (AXIS_EMU_RATIO_N_N b) n

/-- R123: a write of a half of CNT, ignored while EN is 1. -/
def Dev.emuCntWrite (d : Dev) (b : Nat) (hi : Bool) (v : Nat) : Dev :=
  if d.flag (AXIS_EMU_CFG_EN b) then d else
  d.modEmu b (fun x =>
    let old := uns 48 x.c
    { x with c := sgn 48 (if hi then bits old 0 32 + 2 ^ 32 * (v % 65536) else v % 2 ^ 32 + 2 ^ 32 * bits old 32 16) })

/-! ## Slave answers -/

/-- R119: the divider as it stood at tick `f`. -/
def Dev.emuPast (d : Dev) (b f : Nat) : EmuPast :=
  let x := d.emu b
  (x.recent.filter (fun p => decide (f < p.tick))).getLast?.getD { tick := d.tick, c := x.c, acc := x.acc, m := x.m, n := x.n }

/-- R119: C at tick `f`: while the source extrapolates in smooth mode, X of that tick stands in place of its whole counts. -/
def Dev.emuCAt (d : Dev) (b f : Nat) : Int :=
  let v := d.axViewAt (d.get (AXIS_EMU_CFG_SRC b)) f
  let p := d.emuPast b f
  if d.flag (AXIS_EMU_CFG_EN b) ∧ d.flag (AXIS_EMU_CFG_SMOOTH b) ∧ v.ext then
    let tr := (v.extrapolate (d.stimeAt f * 64)).1 - v.t16 / 65536 * 65536
    p.c + ((p.m : Int) * tr + p.acc * 65536) / ((p.n : Int) * 65536)
  else p.c

/-- R119, R121, R429: the source has FAULT set or its quadrant is isolated, or EN is 0. -/
def Dev.emuErr (d : Dev) (b : Nat) : Bool :=
  let src := d.get (AXIS_EMU_CFG_SRC b)
  d.flag (AXIS_STATUS_FAULT src) || bitAt (d.get SVC_QSTAT_ISO) (src / 2) || !d.flag (AXIS_EMU_CFG_EN b)

/-- R119 to R121: the levels of the data lane after each rising edge of the frame latched at tick `f`. -/
def Dev.slaveFrame (d : Dev) (b f : Nat) : List Bool :=
  let c := d.emuCAt b f
  if d.get (AXIS_EMU_CFG_SLAVE b) = 1 then
    let w := clampN 8 48 (d.get (AXIS_EMU_SLVCFG_NBITS b))
    let v := uns w c
    let v := if d.flag (AXIS_EMU_SLVCFG_GRAY b) then v ^^^ (v >>> 1) else v
    bitsOf w v ++ (if d.flag (AXIS_EMU_SLVCFG_ERR_EN b) then [d.emuErr b] else [])
  else
    let code := d.get (AXIS_EMU_SLVCFG_SPFLEN b)
    let l := spfLen code
    let hdr := code * 64 + (d.emu b).seq % 16
    let warn := !d.axExt (d.get (AXIS_EMU_CFG_SRC b))
    let stat := b2n (d.emuErr b) * 128 + b2n warn * 64
    let v := uns l c
    let crc := crc16 ([hdr] ++ bytesOf (l / 8) v ++ [stat])
    [true, true] ++ bitsOf 6 0x2C ++ bitsOf 8 hdr ++ bitsOf l v ++ bitsOf 8 stat ++ bitsOf 16 crc

/-- R118 to R121: a falling clock edge, recognised 2 ticks after it reached the lane, starts a frame while the data lane is high and idle. -/
def Dev.slaveStart (d : Dev) (b : Nat) : Dev :=
  let x := d.emu b
  let mode := d.get (AXIS_EMU_CFG_SLAVE b)
  if mode ≠ 0 ∧ x.frame = none ∧ x.data ∧ x.clk ∧ d.tb.running then
    let fr := d.slaveFrame b (d.tick - 2)
    d.modEmu b (fun x => { x with
      clk := false
      frame := some fr
      data := decide (mode ≠ 1)
      seq := if mode = 2 then (x.seq + 1) % 16 else x.seq })
  else d

/-- R120, R122: any other clock edge: a rising one brings the next level, or low after the last bit; a falling one while a frame is under way
or ended only moves the clock. -/
def Dev.slaveClock (d : Dev) (b : Nat) (rising : Bool) : Dev :=
  let x := d.emu b
  if d.get (AXIS_EMU_CFG_SLAVE b) = 0 then d
  else if rising then
    d.modEmu b (fun x => { x with
      clk := true
      clkHigh := d.tick
      data := match x.frame with
        | some (l :: _) => l
        | some [] => false
        | none => x.data
      frame := x.frame.map (fun l => l.drop 1) })
  else if x.frame = none then d.slaveStart b
  else d.modEmu b (fun x => { x with clk := false })

/-- R120, R122: the clock has stayed high for TM µs: an answer whose last bit has been driven is complete, any other is aborted, and the data
lane is high and idle. -/
def Dev.slaveTimeout (d : Dev) (b : Nat) : Dev :=
  let x := d.emu b
  match x.frame with
  | none => d
  | some l =>
    if x.clk ∧ x.clkHigh + usTicks (clampN 1 1000 (d.get (AXIS_EMU_SLVCFG_TM b))) ≤ d.tick then
      let d := d.modEmu b (fun x => { x with frame := none, data := true })
      if l = [] then d.incSat (AXIS_EMU_SLVCNT_ANSWERED b) else d.incSat (AXIS_EMU_SLVCNT_ABORTED b)
    else d

/-! ## Meanings -/

/-- EMU_OUTPUT_EDGE (R114). -/
def execEmuOutputEdge (a : Fin 8) (s : State) : Host.Outcome State Fault Refusal := onDev s (fun d => d.emuOut a)

/-- SLAVE_FRAME_START (R119). -/
def execSlaveFrameStart (a : Fin 8) (s : State) : Host.Outcome State Fault Refusal := onDev s (fun d => d.slaveStart a)

/-- SLAVE_CLOCK_EDGE (R120). -/
def execSlaveClockEdge (a : Fin 8) (rising : Bool) (s : State) : Host.Outcome State Fault Refusal := onDev s (fun d => d.slaveClock a rising)

/-- SLAVE_IDLE_TIMEOUT (R122). -/
def execSlaveIdleTimeout (a : Fin 8) (s : State) : Host.Outcome State Fault Refusal := onDev s (fun d => d.slaveTimeout a)

end Sys2Proof.Machine
end

