-- ==== Sys2Proof/Machine/Axis.lean ====
section
/-! DEFINITION. Axis inputs (R61 to R95): filters, quadrature and tooth-wheel decoding, index, soft limits, serial frames, edge
latches. -/

namespace Sys2Proof.Machine

/-! ## Events and faults -/

/-- R192: axis `a` raises its crossbar source `kind` on tick `t`: 0 edge, 1 index, 2 limit, 3 fault, 4 direction change, 7 serial error. -/
def Dev.axEvent (d : Dev) (a kind t : Nat) : Dev := d.raiseEventAt (a / 2) (0x400 + (a % 2) * 8 + kind) t (d.tickStamp (a / 2) t)

/-- A record that axis `a` raises on tick `t` (R374). -/
def Dev.axRec (d : Dev) (a t : Nat) (r : Rec) : Dev := d.raiseRecAt (a / 2) (0x178 + a % 2) t { r with typ := 3, src := a }

/-- R92: axis `a` faults with `cause` on tick `t`. -/
def Dev.axFault (d : Dev) (a cause t : Nat) : Dev :=
  let d := if d.flag (AXIS_STATUS_FAULT a) then d else (d.raise (AXIS_STATUS_FAULT a)).put (AXIS_STATUS_FAULT_CAUSE a) cause
  (d.axEvent a 3 t).axRec a t { sub := 1, at_ := d.tickStamp (a / 2) t, p0 := cause }

/-! ## Position and limits -/

/-- R80: LIMIT_LO of axis `a` in whole counts. -/
def Dev.axLimitLo (d : Dev) (a : Nat) : Int := sgn 48 (d.pair (AXIS_LIMIT_LO_LO a) (AXIS_LIMIT_LO_HI a))

/-- R80: LIMIT_HI of axis `a` in whole counts. -/
def Dev.axLimitHi (d : Dev) (a : Nat) : Int := sgn 48 (d.pair (AXIS_LIMIT_HI_LO a) (AXIS_LIMIT_HI_HI a))

/-- R80: EXCESS for a true position of `c` whole counts. -/
def Dev.axExcessOf (d : Dev) (a : Nat) (c : Int) : Int :=
  if d.flag (AXIS_CFG_LIM_EN a) then
    if d.axLimitHi a < c then c - d.axLimitHi a else if c < d.axLimitLo a then c - d.axLimitLo a else 0
  else 0

/-- R80 to R82: T becomes `t16` on tick `t`; POS, EXCESS and the saturation flags follow; the limit event where EXCESS changes between 0
and not 0; a fault where EXCESS would leave its range. -/
def Dev.axPlace (d : Dev) (a : Nat) (t16 : Int) (t : Nat) : Dev :=
  let ex := d.axExcessOf a (t16 / 65536)
  let b := max (-2147483648) (min 2147483647 ex)
  let tt := sgn 64 (uns 64 (t16 + (b - ex) * 65536))
  let pos := if b = 0 then tt else if 0 < b then d.axLimitHi a * 65536 else d.axLimitLo a * 65536
  let was := (d.axis a).excess
  let d := d.modAxis a (fun x => { x with t16 := tt, excess := b })
  let d := (d.setPair (AXIS_POS_LO a) (AXIS_POS_HI a) (uns 64 pos)).setWord (AXIS_EXCESS a) (BitVec.ofNat 32 (uns 32 b))
  let d := (d.putB (AXIS_STATUS_SAT_HI a) (decide (0 < b))).putB (AXIS_STATUS_SAT_LO a) (decide (b < 0))
  let d := if b = ex then d else d.axFault a 5 t
  if (was = 0) = (b = 0) then d else d.axEvent a 2 t

/-- POS of axis `a` in 1/65,536 count. -/
def Dev.axPos (d : Dev) (a : Nat) : Int := sgn 64 (d.pair (AXIS_POS_LO a) (AXIS_POS_HI a))

/-! ## Latches and jumps -/

/-- What an edge latch brings (R70): its movement in 1/65,536 count, the increment counted, the increment shown, the movement of an
index snap. -/
structure Edge where
  mv : Int := 0
  inc : Int := 0
  shown : Int := 0
  gap : Bool := false
  snap : Option Int := none

/-- R70, R72, R96, R104, R117: an edge latch of axis `a`, written on tick `t` with the stamp `st` of its raw transition: T moves, the latch is
written, the estimator acts, and the slices, the channels, the emulators and the carriages learn of it. -/
def Dev.axLatch (d : Dev) (a t : Nat) (st : Stamp) (e : Edge) : Dev :=
  let x := d.axis a
  let v := d.axView a t
  let rev := x.moved && e.inc != 0 && decide (e.inc < 0) != d.flag (AXIS_STATUS_DIR a)
  let d := if e.inc = 0 then d else (d.putB (AXIS_STATUS_DIR a) (decide (e.inc < 0))).modAxis a (fun x => { x with moved := true })
  let d := (d.axPlace a (x.t16 + e.mv + e.snap.getD 0) t).estShift a (e.snap.getD 0)
  let y := d.axis a
  let brk := y.brkNext
  let l : Latch := { pos := d.axPos a, t16 := y.t16, at_ := st, inc := e.shown, dir := d.flag (AXIS_STATUS_DIR a), rev := rev,
                     snap := e.snap.isSome || y.snapNext, sat := y.excess != 0, brk := brk, gap := e.gap }
  let d := d.modAxis a (fun x => { x with latch := l, brkNext := false, snapNext := false })
  let ft := st.time * 64 + st.fine
  let d := (d.estLatch a t ft rev brk).axRemember a t v
  let d := d.axEvent a 0 t
  let d := if rev then (d.axEvent a 4 t).axHoldShown a else d
  let d := d.axSend a t { hold := rev, all := rev, rev := rev, edge := true, jump := e.snap.isSome, size := e.snap.getD 0 }
  let d := if e.inc = 0 then d else d.tcAxisEdge a t e.inc
  let d := d.emuAll a t v ft ((d.axis a).t16 / 65536 - v.t16 / 65536) e.snap.isSome
  d.carBacked a (d.axis a).t16 t

/-- R79, R90, R106: T jumps by `size` on tick `t` without a latch; the next latch carries SNAP. -/
def Dev.axJump (d : Dev) (a t : Nat) (size : Int) : Dev :=
  let v := d.axView a t
  let d := ((d.axPlace a (v.t16 + size) t).estShift a size).modAxis a (fun x => { x with snapNext := true })
  let d := (d.axRemember a t v).axSend a t { jump := true, size := size }
  let d := d.emuAll a t v ((d.stimeAt t * 64 : Nat) : Int) ((d.axis a).t16 / 65536 - v.t16 / 65536) true
  d.carBacked a (d.axis a).t16 t

/-- R80, R82, R99: the limits are applied to the present T on tick `t`; the slices learn whether extrapolation is on. -/
def Dev.axRelimit (d : Dev) (a t : Nat) : Dev :=
  let v := d.axView a t
  let d := d.axPlace a v.t16 t
  if d.axExt a = v.ext then d else (d.axRemember a t v).axSend a t {}

/-! ## Index -/

/-- R77: the expected position nearest the true position `tg`, both in 1/65,536 count; a tie takes the lower. -/
def Dev.axExpected (d : Dev) (a : Nat) (tg : Int) : Int :=
  let base := sgn 48 (d.pair (AXIS_IDX_BASE_LO a) (AXIS_IDX_BASE_HI a)) * 65536
  let p : Int := (d.get (AXIS_IDX_PERIOD_PERIOD a) : Int) * 65536
  if d.flag (AXIS_IDXCFG_PERIODIC a) ∧ p ≠ 0 then base + (-((p - 2 * (tg - base)) / (2 * p))) * p else base

/-- R77, R78: an index at the true position `tg` on tick `t`; the size of the snap where the policy makes one. -/
def Dev.axIndex (d : Dev) (a t : Nat) (tg : Int) : Option Int × Dev :=
  let e := d.axExpected a tg
  let dv := tg - e
  let d := (d.setWord (AXIS_IDX_DEV a) (BitVec.ofNat 32 (uns 32 (dv / 65536)))).axEvent a 1 t
  if dv.natAbs ≤ d.get (AXIS_IDXCFG_TOL a) * 65536 then
    (none, ((d.incSat (AXIS_IDXCNT_GOOD a)).raise (AXIS_STATUS_IDX_SEEN a)).modAxis a (fun x => { x with idxRun := 0 }))
  else
    let d := ((d.incSat (AXIS_IDXCNT_MISMATCH a)).raise (AXIS_STATUS_IDX_FLAG a)).modAxis a (fun x => { x with idxRun := x.idxRun + 1 })
    let ec := uns 48 (e / 65536)
    let d := d.axRec a t { sub := 0, at_ := d.tickStamp (a / 2) t, p0 := uns 32 (dv / 65536), p1 := ec % 2 ^ 32, p2 := ec >>> 32 }
    let pol := d.get (AXIS_IDXCFG_POLICY a)
    let mmax := d.get (AXIS_IDXCFG_MMAX a)
    if pol = 2 then (none, d.axFault a 3 t)
    else
      let d := if mmax ≠ 0 ∧ (d.axis a).idxRun = mmax then d.axFault a 2 t else d
      (if pol = 0 then some (-dv) else none, d)

/-! ## Inputs and filters -/

/-- Input pair `p` of an axis. -/
def Axis.input (x : Axis) (p : Nat) : AxIn := if p = 0 then x.inA else if p = 1 then x.inB else x.inZ

/-- The state with input pair `p` of axis `a` changed. -/
def Dev.modIn (d : Dev) (a p : Nat) (f : AxIn → AxIn) : Dev :=
  d.modAxis a (fun x => if p = 0 then { x with inA := f x.inA } else if p = 1 then { x with inB := f x.inB } else { x with inZ := f x.inZ })

/-- R61, R63: input pair `p` of axis `a` is in use. -/
def Dev.axInUse (d : Dev) (a p : Nat) : Bool :=
  let m := d.get (AXIS_CFG_MODE a)
  if m = 1 then decide (p < 2) || d.flag (AXIS_IDXCFG_IDX_EN a)
  else if m = 2 then p == 0 || (p == 1 && d.get (AXIS_TWCFG_DIRSRC a) == 2)
  else if m = 3 ∨ m = 4 then p == 0
  else false

/-- R63: the pairs that are not in use are not lost. -/
def Dev.axUse (d : Dev) (a : Nat) : Dev :=
  [0, 1, 2].foldl (fun d p => if d.axInUse a p then d else d.modIn a p (fun i => { i with lost := false, ref := false })) d

/-- The level of a pair that had been accepted by the raw tick `t` (R74, R76). -/
def AxIn.levelAt (i : AxIn) (t : Nat) : Bool :=
  match i.hist.find? (fun p => decide (p.1 ≤ t)) with
  | some p => p.2
  | none => false

/-- The decoder's bit of an input pair: A is bit 0 and B bit 1, exchanged by INVERT (R67). -/
def Dev.decBit (d : Dev) (a p : Nat) : Nat := if d.flag (AXIS_CFG_INVERT a) then 1 - p else p

/-- R62: the decoder state is loaded from the levels of A and B that the filters hold; it counts nothing. -/
def Dev.decLoad (d : Dev) (a : Nat) : Dev :=
  let x := d.axis a
  let st := setBitAt (setBitAt 0 (d.decBit a 0) x.inA.acc) (d.decBit a 1) x.inB.acc
  d.modAxis a (fun x => { x with dec := st, changes := [] })

/-- R75: the tooth wheel learns anew. -/
def Axis.relearn (x : Axis) : Axis := { x with tPrev := none, learning := true, periods := [] }

/-- R63: the first level after a pair was lost is taken as a reference. -/
def Dev.axReference (d : Dev) (a p : Nat) : Dev :=
  let m := d.get (AXIS_CFG_MODE a)
  if p = 2 then d
  else if m = 1 then d.modAxis a (fun x => { x with dec := setBitAt x.dec (d.decBit a p) (x.input p).acc })
  else if m = 2 then d.modAxis a (fun x => x.relearn)
  else d.modAxis a (fun x => { x with serPrev := none, serSeq := none })

/-- R64, R66: the level held in the filter of pair `p` has held for FILT ticks and is accepted; a shorter FILT accepts no earlier than the tick
from which it holds. The sampler sees one level per tick: the level of a tick is the one in which the tick ends. -/
def Dev.filterAccept (d : Dev) (a p : Nat) : Dev :=
  let i := (d.axis a).input p
  let t := max (i.rawTick + d.get (AXIS_CFG_FILT a)) (d.axis a).filtFrom
  if ¬ (i.pend ∧ ¬ i.lost ∧ t ≤ d.tick ∧ i.rawTick < d.tick ∧ d.tb.running) then d else
  let d := d.modIn a p (fun i => { i with pend := false, acc := i.raw, ref := false, hist := ((i.rawTick, i.raw) :: i.hist).take 8 })
  let m := d.get (AXIS_CFG_MODE a)
  if i.ref then d.axReference a p
  else if (m = 1 ∧ p < 2) ∨ (m = 2 ∧ p = 0 ∧ i.raw = !d.flag (AXIS_TWCFG_EDGE a)) then
    d.modAxis a (fun x => { x with changes := x.changes ++ [{ pair := p, lvl := i.raw, raw := i.rawTick, at_ := i.at_, acc := t }] })
  else d

/-- R64, R65: a transition of pair `p` at the ball, on the present tick and fine step `fine`. A level that waits to become a reference (R63) and
reverts is discarded, and the level that is there then waits in its place. The sampler line latches on this tick (R49). -/
def Dev.axTransition (d : Dev) (a p : Nat) (lvl : Bool) (fine : Nat) : Dev :=
  let d := (d.filterAccept a p).modLine (256 + 3 * a + p) (fun l => { l with latched := d.tick + 1 })
  let i := (d.axis a).input p
  if i.lost ∨ i.raw = lvl ∨ ¬ d.tb.running then d
  else if i.pend then
    let d := if d.axInUse a p && i.rawTick != d.tick then d.incSat (AXIS_GLITCHCNT_CNT a) else d
    if i.ref then d.modIn a p (fun i => { i with raw := lvl, rawTick := d.tick, at_ := d.stamp (a / 2) d.tick fine })
    else if i.rawTick = d.tick then d.modIn a p (fun i => { i with raw := lvl, pend := false })
    else d.modIn a p (fun i => { i with raw := lvl, pend := false, discard := d.tick, discRaw := i.rawTick })
  else d.modIn a p (fun i => { i with raw := lvl, pend := true, rawTick := d.tick, at_ := d.stamp (a / 2) d.tick fine })

/-- R63: a pair in use is declared lost. -/
def Dev.inputLoss (d : Dev) (a p : Nat) : Dev :=
  if d.axInUse a p ∧ ¬ ((d.axis a).input p).lost ∧ d.tb.running then
    (d.modIn a p (fun i => { i with lost := true, pend := false })).axFault a 6 d.tick
  else d

/-- R63: the voltage of a lost pair leaves the band; the next accepted level is a reference and the next latch carries BREAK. -/
def Dev.inputRestored (d : Dev) (a p : Nat) (lvl : Bool) : Dev :=
  if ((d.axis a).input p).lost then
    (d.modIn a p (fun i => { i with lost := false, ref := true, raw := lvl, pend := true, rawTick := d.tick,
                                    at_ := d.stamp (a / 2) d.tick 0 })).modAxis a (fun x => { x with brkNext := true })
  else d

/-! ## Quadrature -/

/-- R67: the count of a legal change of state in ×4: +1 forward, −1 reverse; none for a double change. -/
def quadDir (s t : Nat) : Option Int :=
  if quadNext s true = t then some 1 else if quadNext s false = t then some (-1) else none

/-- R67: the change counts under MULT: ×4 always, ×2 where A changes, ×1 between 00 and 01 only. -/
def quadCounts (mult s t : Nat) : Bool :=
  if mult = 0 then true
  else if mult = 1 then s % 2 != t % 2
  else (s == 0 && t == 1) || (s == 1 && t == 0)

/-- R69: an illegal transition on decode tick `t`. -/
def Dev.axIllegal (d : Dev) (a t : Nat) : Dev :=
  let d := (d.incSat (AXIS_ILLCNT_CNT a)).raise (AXIS_STATUS_ILLEGAL a)
  let n := (d.axis a).illRun + 1
  let d := d.modAxis a (fun x => { x with illRun := n, illClean := 0, brkNext := true })
  if d.get (AXIS_CFG_ILLMAX a) ≠ 0 ∧ n = d.get (AXIS_CFG_ILLMAX a) then d.axFault a 1 (t + 1) else d

/-- R76: Z of axis `a` is active for a transition of raw tick `raw`. -/
def Dev.axZActive (d : Dev) (a raw : Nat) : Bool :=
  d.flag (AXIS_IDXCFG_IDX_EN a) && !(d.axis a).inZ.lost && ((d.axis a).inZ.levelAt raw != d.flag (AXIS_IDXCFG_ZPOL a))

/-- R67 to R70, R76: the decoder of axis `a` goes to state `st` on decode tick `t`, for the change `c`. -/
def Dev.axDecode (d : Dev) (a : Nat) (c : AxChange) (st t : Nat) : Dev :=
  let old := (d.axis a).dec
  let d := d.modAxis a (fun x => { x with dec := st })
  if st = old then d else
  match quadDir old st with
  | none => d.axIllegal a t
  | some s =>
    if !quadCounts (d.get (AXIS_CFG_MULT a)) old st then d else
    let d := d.modAxis a (fun x => if x.illClean + 1 < 4096 then { x with illClean := x.illClean + 1 } else { x with illClean := 0, illRun := 0 })
    let gate := d.get (AXIS_IDXCFG_GATE a)
    let hit := (if 0 < s then st == gate else old == gate) && d.axZActive a c.raw
    let tg := (d.axis a).t16 + s * 65536 + (if 0 < s then 0 else 65536)
    let r := if hit then d.axIndex a (t + 1) tg else (none, d)
    r.2.axLatch a (t + 1) c.at_ { mv := s * 65536, inc := s, shown := s, snap := r.1 }

/-- R66, R67: the decoder takes the oldest accepted change on its decode tick; a change of the other input that is closer than FILT + 2 ticks
holds it, and makes a double change with it once accepted. -/
def Dev.quadDecode (d : Dev) (a : Nat) : Dev :=
  let x := d.axis a
  match x.changes with
  | [] => d
  | c :: rest =>
    let t := c.acc + 2
    let other := x.input (1 - c.pair)
    if d.get (AXIS_CFG_MODE a) ≠ 1 ∨ d.tick < t ∨ ¬ d.tb.running then d
    else if other.pend ∧ other.rawTick < t ∧ ¬ other.lost then d
    else
      let st := setBitAt x.dec (d.decBit a c.pair) c.lvl
      match rest.find? (fun e => e.pair != c.pair && decide (e.raw < t)) with
      | some e =>
        let t2 := max t e.acc
        if d.tick < t2 then d
        else (d.modAxis a (fun x => { x with changes := rest.erase e })).axDecode a c (setBitAt st (d.decBit a e.pair) e.lvl) t2
      | none =>
        let t2 := if t < other.discard ∧ other.discRaw < t then other.discard else t
        (d.modAxis a (fun x => { x with changes := rest })).axDecode a c st t2

/-! ## Tooth wheels -/

/-- R93: periods of the average. -/
def Dev.twN (d : Dev) (a : Nat) : Nat := 4 * 2 ^ d.get (AXIS_TWCFG_AVG_N a)

/-- R73: the average A of the last AVG_N normal periods, in fine steps, rounded down (log 57). -/
def Dev.twAvg (d : Dev) (a : Nat) : Nat :=
  let l := (d.axis a).periods.take (d.twN a)
  l.sum / max 1 l.length

/-- R73: a normal period enters the average. -/
def Axis.pushPeriod (x : Axis) (p : Nat) : Axis := { x with periods := (p :: x.periods).take 32 }

/-- R73 to R75: a tooth of axis `a` for the change `c`. The pseudocode's tooth error event has no crossbar source in R192 and no record in R374:
TW_ERR is all that is seen of it (log 58). -/
def Dev.twTooth (d : Dev) (a : Nat) (c : AxChange) : Dev :=
  let t := c.acc + 3
  let ft := c.at_.time * 64 + c.at_.fine
  let src := d.get (AXIS_TWCFG_DIRSRC a)
  let dir : Int := if src = 0 then 1 else if src = 1 then -1 else if (d.axis a).inB.levelAt c.raw then -1 else 1
  let x := d.axis a
  match x.tPrev with
  | none => d.modAxis a (fun x => { x with tPrev := some ft })
  | some tp =>
    let p := ft - tp
    let count (n : Int) (gap : Bool) (snap : Option Int) (d : Dev) : Dev :=
      d.axLatch a t c.at_ { mv := dir * n * 65536, inc := dir * n, shown := dir * n, gap := gap, snap := snap }
    let setPrev (d : Dev) : Dev := d.modAxis a (fun x => { x with tPrev := some ft })
    let refIsExtra := d.flag (AXIS_TWCFG_REFTYPE a)
    let index (tg : Int) (d : Dev) : Option Int × Dev := if d.flag (AXIS_IDXCFG_IDX_EN a) then d.axIndex a t tg else (none, d)
    if x.learning then
      let d := (setPrev d).modAxis a (fun x => x.pushPeriod p)
      let d := d.modAxis a (fun x => { x with learning := decide (x.periods.length < d.twN a) })
      count 1 false none d
    else
      let avg := d.twAvg a
      let r := p * 64 / avg
      if d.get (AXIS_TWCFG_GAP_RATIO a) < r then
        let m := (p + avg / 2) / avg
        let d := setPrev d
        if max 1 (d.get (AXIS_TWCFG_MAXGAP a)) < m - 1 then
          let d := (d.raise (AXIS_STATUS_TW_STOP a)).modAxis a (fun x => { x with brkNext := true, learning := true, periods := [] })
          count 1 false none d
        else if refIsExtra then count m true none (d.raise (AXIS_STATUS_TW_ERR a))
        else
          let q := index (x.t16 + dir * m * 65536) d
          count m true q.1 q.2
      else if r < d.get (AXIS_TWCFG_EXTRA_RATIO a) then
        if refIsExtra then
          let q := index x.t16 d
          match q.1 with
          | some s => q.2.axJump a t s
          | none => q.2
        else d.raise (AXIS_STATUS_TW_ERR a)
      else count 1 false none ((setPrev d).modAxis a (fun x => x.pushPeriod p))

/-- R73: the tooth wheel takes the oldest accepted tooth on its decode tick. -/
def Dev.toothEdge (d : Dev) (a : Nat) : Dev :=
  match (d.axis a).changes with
  | [] => d
  | c :: rest =>
    if d.get (AXIS_CFG_MODE a) ≠ 2 ∨ d.tick < c.acc + 2 ∨ ¬ d.tb.running then d
    else (d.modAxis a (fun x => { x with changes := rest })).twTooth a c

/-! ## Serial frames -/

/-- R83, R94: the clock half-period of axis `a` in ticks. -/
def Dev.serHalf (d : Dev) (a : Nat) : Nat := clampN 40 4000 (d.get (AXIS_SERTIME_HALF a))

/-- R84, R85: clock periods of a frame. -/
def Dev.serClocks (d : Dev) (a : Nat) : Nat :=
  if d.get (AXIS_CFG_MODE a) = 3 then clampN 8 48 (d.get (AXIS_SERCFG_NBITS a)) + (if d.get (AXIS_SERCFG_ERRBIT a) = 0 then 0 else 1)
  else d.get (AXIS_SERCFG_SPFWAIT a) + 38 + spfLen (d.get (AXIS_SERCFG_SPFLEN a))

/-- R84, R85: ticks of a frame, (k + 0.5) Tc for k clock periods. -/
def Dev.serTicks (d : Dev) (a : Nat) : Nat := (2 * d.serClocks a + 1) * d.serHalf a

/-- The level of the data line `t` ticks after the frame's start. -/
def dataLevel (f : SerialFrame) (t : Nat) : Bool := f.changes.foldl (fun b c => if c.1 ≤ t then c.2 else b) f.first

/-- R84, R90: bit `k` is sampled at the falling clock edge k·Tc delayed by DATA_DELAY; a delay of HALF or more acts as HALF − 1. -/
def Dev.serBit (d : Dev) (a : Nat) (f : SerialFrame) (k : Nat) : Bool :=
  dataLevel f (2 * d.serHalf a * k + min (d.get (AXIS_SERDLY_DATA_DELAY a)) (d.serHalf a - 1))

/-- R84, R87, R94: the tick after the frame's start on which the data line is high again after the frame; none where that takes longer than
TIMEOUT. -/
def Dev.serHigh (d : Dev) (a : Nat) (f : SerialFrame) : Option Nat :=
  let e := d.serTicks a
  if dataLevel f e then some e
  else (f.changes.find? (fun c => decide (e < c.1) && decide (c.1 ≤ e + usTicks (clampN 1 1000 (d.get (AXIS_SERTIME_TIMEOUT a)))) && c.2)).map
    (fun c => c.1)

/-- R84: the level of AX⟨a⟩C on the present tick: high while no frame is under way; low in every other mode (R61). -/
def Dev.serClock (d : Dev) (a : Nat) : Bool :=
  if d.get (AXIS_CFG_MODE a) < 3 then false
  else match (d.axis a).frameStart with
    | none => true
    | some s =>
      let k := (d.tick - s) / d.serHalf a
      decide (2 * d.serClocks a < k) || k % 2 == 1

/-- R83: a start trigger of axis `a`: by CONV or periodic, as START sets; dropped while a frame, its timeout or its recovery runs. -/
def Dev.serStart (d : Dev) (a : Nat) (conv : Bool) : Dev :=
  let x := d.axis a
  let m := d.get (AXIS_CFG_MODE a)
  let st := d.get (AXIS_SERCFG_START a)
  let due := if conv then st == 2 && (Tab.get {} d.convs (4 * (a / 2) + d.get (AXIS_SERCFG_CONVSEL a))).high
    else st == 1 && decide (x.lastPeriodic + max 1 (d.get (AXIS_SERPER_PER a)) ≤ d.tick)
  if ¬ (3 ≤ m ∧ due ∧ d.tb.running ∧ ¬ d.quadDown (a / 2)) then d else
  let d := if conv then d else d.modAxis a (fun x => { x with lastPeriodic := d.tick })
  if x.frameStart ≠ none ∨ d.tick < x.busyUntil then (d.raise (AXIS_SERERR_OVERRUN a)).raise (AXIS_STATUS_SER_ERR a)
  else d.modAxis a (fun x => { x with frameStart := some d.tick, frameAt := d.stamp (a / 2) d.tick 0 })

/-- R87: a discarded frame; `bit` is its check in SERERR. -/
def Dev.serBadFrame (d : Dev) (a : Nat) (bit : Fld) : Dev :=
  let d := ((d.raise bit).raise (AXIS_STATUS_SER_ERR a)).incSat (AXIS_SERERR_BADCNT a)
  let d := (d.modAxis a (fun x => { x with serBad := x.serBad + 1 })).axEvent a 7 d.tick
  if d.get (AXIS_SERCFG_FAULTN a) ≠ 0 ∧ (d.axis a).serBad = d.get (AXIS_SERCFG_FAULTN a) then d.axFault a 4 d.tick else d

/-- R88: the movement from raw value `u` to `v` of width `w`, the shortest way round. -/
def serDelta (w u v : Nat) : Int := sgn w (uns w ((v : Int) - u))

/-- R88, R89: a frame that has passed every check but JUMP brings the raw value `v` of width `w`. The previous raw value is that of the last good
frame, though SERRAW shows a discarded one too (log 59). -/
def Dev.serGood (d : Dev) (a w v : Nat) : Dev :=
  let d := d.setPair (AXIS_SERRAW_LO a) (AXIS_SERRAW_HI a) v
  let x := d.axis a
  let lat := d.get (AXIS_SERDLY_SENSOR_LAT a)
  let st : Stamp := { x.frameAt with time := x.frameAt.time + lat }
  let max_ := d.get (AXIS_SERMAX_MAX a)
  match x.serPrev with
  | none =>
    let t : Int := if d.flag (AXIS_SERCFG_SIGNED a) then sgn w v else v
    let d := d.modAxis a (fun x => { x with serPrev := some v, serOk := true, serBad := 0 })
    d.axLatch a d.tick st { mv := t * 65536 - x.t16 }
  | some u =>
    let delta := serDelta w u v
    if max_ ≠ 0 ∧ max_ < delta.natAbs then d.serBadFrame a (AXIS_SERERR_JUMP a)
    else
      let d := d.modAxis a (fun x => { x with serPrev := some v, serOk := true, serBad := 0 })
      d.axLatch a d.tick st { mv := delta * 65536, inc := delta }

/-- A Gray code of `w` bits as binary (R84). -/
def ofGray (w v : Nat) : Nat := (List.range w).foldl (fun acc i => acc ^^^ (v >>> i)) 0 % 2 ^ w

/-- R87: the checks of an SSI frame in order, and its value. -/
def Dev.ssiCheck (d : Dev) (a : Nat) (f : SerialFrame) : Dev :=
  let n := clampN 8 48 (d.get (AXIS_SERCFG_NBITS a))
  let v := ofBits ((List.range n).map (fun i => d.serBit a f (i + 1)))
  let e := d.serBit a f (n + 1)
  let eb := d.get (AXIS_SERCFG_ERRBIT a)
  if !dataLevel f 0 then d.serBadFrame a (AXIS_SERERR_LINE a)
  else if (d.serHigh a f).isNone then d.serBadFrame a (AXIS_SERERR_TIMEOUT a)
  else if (eb = 1 ∧ e) ∨ (eb = 2 ∧ ¬ e) then d.serBadFrame a (AXIS_SERERR_SENSOR a)
  else d.serGood a n (if d.flag (AXIS_SERCFG_GRAY a) then ofGray n v else v)

/-- R87: the checks of an SPF frame in order, and its value; the sampled bits begin with SYNC after SPFWAIT clock periods. The previous sequence
number is that of the last frame that passed the checks before SEQ (log 59). -/
def Dev.spfCheck (d : Dev) (a : Nat) (f : SerialFrame) : Dev :=
  let code := d.get (AXIS_SERCFG_SPFLEN a)
  let l := spfLen code
  let field (lo w : Nat) : Nat := ofBits ((List.range w).map (fun i => d.serBit a f (d.get (AXIS_SERCFG_SPFWAIT a) + 1 + lo + i)))
  let hdr := field 6 8
  let v := field 14 l
  let stat := field (14 + l) 8
  let seq := hdr % 16
  let prev := (d.axis a).serSeq
  if dataLevel f 0 = false ∨ field 0 6 ≠ 0x2C then d.serBadFrame a (AXIS_SERERR_LINE a)
  else if (d.serHigh a f).isNone then d.serBadFrame a (AXIS_SERERR_TIMEOUT a)
  else if field (22 + l) 16 ≠ crc16 ([hdr] ++ bytesOf (l / 8) v ++ [stat]) then d.serBadFrame a (AXIS_SERERR_CRC a)
  else if hdr / 64 ≠ code ∨ code = 3 then d.serBadFrame a (AXIS_SERERR_LEN a)
  else if bitAt stat 7 then d.serBadFrame a (AXIS_SERERR_SENSOR a)
  else
    let d := d.modAxis a (fun x => { x with serSeq := some seq })
    let bad := match prev with
      | some p => seq != (p + 1) % 16
      | none => false
    if d.flag (AXIS_SERCFG_SEQCHK a) ∧ bad = true then d.serBadFrame a (AXIS_SERERR_SEQ a)
    else
      let n := (d.axis a).serBad
      let d := d.serGood a l v
      if bitAt stat 6 ∧ (d.axis a).serBad ≠ n + 1 then d.raise (AXIS_SERERR_WARN a) else d

/-- R87: the frame under way has ended and is checked: when the data is high again after it, or once the timeout has passed. -/
def Dev.serCheck (d : Dev) (a : Nat) (f : SerialFrame) : Dev :=
  match (d.axis a).frameStart with
  | none => d
  | some s =>
    let us (n : Nat) : Nat := usTicks (clampN 1 1000 n)
    let endT := s + (match d.serHigh a f with
      | some h => h
      | none => d.serTicks a + us (d.get (AXIS_SERTIME_TIMEOUT a)))
    if d.tick < endT then d else
    let d := d.modAxis a (fun x => { x with frameStart := none, busyUntil := d.tick + us (d.get (AXIS_SERTIME_RECOVERY a)) })
    if d.get (AXIS_CFG_MODE a) = 3 then d.ssiCheck a f else d.spfCheck a f

/-! ## Register writes -/

/-- R62: a change of MODE, MULT or INVERT: POS and EXCESS stay; the history, the average and the serial reference are cleared. The first count
after it has no direction before it, so it raises no direction change (log 57). -/
def Dev.axMode (d : Dev) (a : Nat) : Dev :=
  let v := d.axView a d.tick
  let d := d.modAxis a (fun x => { x.relearn with
    hist := [], run := 0, vel := 0, moved := false, serPrev := none, serSeq := none, serOk := false, serBad := 0, frameStart := none, stopped := false,
    holdDone := true, changes := [] })
  let d := d.decLoad a
  (d.axRemember a (d.tick + 1) v).axSend a (d.tick + 1) {}

/-- R62, R64, R82, R91: a write of CFG lands; it acts on the next tick. -/
def Dev.axCfg (d : Dev) (a v : Nat) : Dev :=
  let d := ((d.filterAccept a 0).filterAccept a 1).filterAccept a 2
  let old := (d.word (AXIS_CFG a)).toNat
  let bad := bitAt v 11 && !bitAt old 11 && decide (d.axLimitHi a < d.axLimitLo a)
  let v := if bad then setBitAt v 11 false else v
  let d := if bad then d.raise (AXIS_STATUS_LIM_ERR a) else d
  let changed := bits old 0 3 != bits v 0 3 || bits old 8 3 != bits v 8 3
  let d := (d.setWord (AXIS_CFG a) (BitVec.ofNat 32 v)).axUse a
  let d := if bits old 24 8 = bits v 24 8 then d else d.modAxis a (fun x => { x with filtFrom := d.tick + 1 })
  let d := if changed then d.axMode a else d
  if bitAt old 11 = bitAt v 11 then d else d.axRelimit a (d.tick + 1)

/-- R90: a write of POS_LO loads {held HI, LO} as T on the next tick. -/
def Dev.posWrite (d : Dev) (a v : Nat) : Dev :=
  let hi := (Tab.get 0 d.heldHi (AXIS_POS_HI a)).toNat
  d.axJump a (d.tick + 1) (sgn 64 (v % 2 ^ 32 + 2 ^ 32 * hi) - (d.axis a).t16)

/-- R82: a write of the LO half of a limit loads {held HI, LO} on the next tick. -/
def Dev.limitWrite (d : Dev) (a : Nat) (hi : Bool) (v : Nat) : Dev :=
  let lo := if hi then AXIS_LIMIT_HI_LO a else AXIS_LIMIT_LO_LO a
  let hi_ := if hi then AXIS_LIMIT_HI_HI a else AXIS_LIMIT_LO_HI a
  let new := v % 2 ^ 32 + 2 ^ 32 * ((Tab.get 0 d.heldHi hi_).toNat % 65536)
  let en := d.flag (AXIS_CFG_LIM_EN a)
  let bad := if hi then decide (sgn 48 new < d.axLimitLo a) else decide (d.axLimitHi a < sgn 48 new)
  if en && bad then d.raise (AXIS_STATUS_LIM_ERR a)
  else
    let d := d.setPair lo hi_ new
    if en then d.axRelimit a (d.tick + 1) else d

/-- R75, R88, R92, R97: writing 1 to FAULT clears it, its cause and the run and consecutive counters. -/
def Dev.axFaultClear (d : Dev) (a : Nat) : Dev :=
  let was := d.flag (AXIS_STATUS_FAULT a)
  let d := ((d.put (AXIS_STATUS_FAULT a) 0).put (AXIS_STATUS_FAULT_CAUSE a) 0).put (AXIS_SERERR_BADCNT a) 0
  let d := d.modAxis a (fun x => { x with illRun := 0, illClean := 0, idxRun := 0, serBad := 0 })
  if was then d.modAxis a (fun x => { x.relearn with serPrev := none, serSeq := none, serOk := false, runNext := true }) else d

/-- R83: a write of SERCFG; the periodic trigger counts from the write that turns it on. -/
def Dev.serCfg (d : Dev) (a : Nat) (v : Word) : Dev :=
  let was := d.get (AXIS_SERCFG_START a)
  let d := d.setWord (AXIS_SERCFG a) v
  if was ≠ 1 ∧ d.get (AXIS_SERCFG_START a) = 1 then d.modAxis a (fun x => { x with lastPeriodic := d.tick }) else d

/-! ## Register reads -/

/-- R92: STATUS as it reads. -/
def Dev.axStatus (d : Dev) (a : Nat) : Nat :=
  let x := d.axis a
  let m := d.get (AXIS_CFG_MODE a)
  (d.word (AXIS_STATUS a)).toNat ||| (b2n (x.inA.lost || x.inB.lost || x.inZ.lost) * 2 ^ 18) ||| (b2n (m == 2 && x.learning) * 2 ^ 8) |||
    (b2n (decide (3 ≤ m) && x.serOk) * 2 ^ 5) ||| b2n (m != 0)

/-- R71: the latch set that reads show: the frozen one once LPOS_LO has been read. -/
def Dev.axShown (d : Dev) (a : Nat) : Latch := (d.axis a).frozen.getD (d.axis a).latch

/-- R95: LFLAGS of a latch. -/
def Latch.flags (l : Latch) : Nat :=
  l.at_.fine * 2 ^ 24 + uns 8 l.inc * 2 ^ 16 + b2n l.rev * 128 + b2n l.snap * 64 + b2n l.sat * 32 + b2n l.brk * 16 + b2n l.gap * 8 +
  b2n l.at_.clkSw * 4 + b2n l.at_.uncal * 2 + b2n l.dir

/-- R71: a read of LPOS_LO freezes the latch set and returns its low half. -/
def Dev.lposRead (d : Dev) (a : Nat) : Word × Dev :=
  let l := (d.axis a).latch
  (BitVec.ofNat 32 (uns 64 l.pos), d.modAxis a (fun x => { x with frozen := some l }))

/-! ## Meanings -/

/-- AXIS_INPUT_TRANSITION (R65). -/
def execAxisInputTransition (a : Fin 8) (p : Fin 3) (lvl : Bool) (fine : Fin 64) (s : State) : Host.Outcome State Fault Refusal :=
  onDev s (fun d => d.axTransition a p lvl fine)
/-- INPUT_LOSS (R63). -/
def execInputLoss (a : Fin 8) (p : Fin 3) (s : State) : Host.Outcome State Fault Refusal := onDev s (fun d => d.inputLoss a p)
/-- INPUT_RESTORED (R63). -/
def execInputRestored (a : Fin 8) (p : Fin 3) (lvl : Bool) (s : State) : Host.Outcome State Fault Refusal :=
  onDev s (fun d => d.inputRestored a p lvl)
/-- FILTER_ACCEPT (R64). -/
def execFilterAccept (a : Fin 8) (p : Fin 3) (s : State) : Host.Outcome State Fault Refusal := onDev s (fun d => d.filterAccept a p)
/-- QUADRATURE_DECODE (R67). -/
def execQuadratureDecode (a : Fin 8) (s : State) : Host.Outcome State Fault Refusal := onDev s (fun d => d.quadDecode a)
/-- TOOTH_EDGE (R73). -/
def execToothEdge (a : Fin 8) (s : State) : Host.Outcome State Fault Refusal := onDev s (fun d => d.toothEdge a)
/-- SERIAL_FRAME_START (R83). -/
def execSerialFrameStart (a : Fin 8) (conv : Bool) (s : State) : Host.Outcome State Fault Refusal := onDev s (fun d => d.serStart a conv)
/-- SERIAL_FRAME_CHECK (R87). -/
def execSerialFrameCheck (a : Fin 8) (frame : SerialFrame) (s : State) : Host.Outcome State Fault Refusal :=
  onDev s (fun d => d.serCheck a frame)

end Sys2Proof.Machine
end

