-- ==== Sys2Proof/Machine/Ibex.lean ====
section
/-! DEFINITION. Ibex pin engines (R229 to R263): instructions, waits, stalls, FIFOs, memory streams, loading, handover, freeze. STATE codes
of R262: 0 DISABLED, 1 STOPPED, 2 RUNNING, 3 WAITING, 4 STALLED, 5 FROZEN. -/

namespace Sys2Proof.Machine

/-! ## Names -/

/-- The quadrant of ibex `e` (R8). -/
def ibxQ (e : Nat) : Nat := e / 16

/-- R260: a program word; an unlisted one is END with CODE 0. -/
def Dev.ibxWord (d : Dev) (e : Nat) : Nat := Tab.get 0x900000 (d.ibx e).prog (d.get (IBX_PC_PC e))

/-- R231: W, the lanes of the pin group. -/
def Dev.ibxW (d : Dev) (e : Nat) : Nat := d.get (IBX_GROUP_WIDTH e) + 1

/-- R230: the state. -/
def Dev.ibxState (d : Dev) (e : Nat) : Nat := d.get (IBX_STATUS_STATE e)

/-- R252: the engine is STOPPED or DISABLED. -/
def Dev.ibxIdle (d : Dev) (e : Nat) : Bool := d.ibxState e ≤ 1

/-- The engine's clock runs and its quadrant is up. -/
def Dev.ibxUp (d : Dev) (e : Nat) : Bool := d.tb.running && !d.quadDown (ibxQ e) && !d.napping

/-- A record of engine `e` (R245, R374). -/
def Dev.ibxRec (d : Dev) (e sub p0 p1 t : Nat) : Dev :=
  d.raiseRec (ibxQ e) (0x140 + e % 16) { typ := 8, sub, src := e, at_ := { time := d.stimeAt t, clkSw := d.inWindow }, p0, p1 }

/-! ## Boundaries -/

/-- R235: PINS and DIRS change; the lane drivers follow on tick `t`. -/
def Ibex.setPins (x : Ibex) (now pins dirs t : Nat) : Ibex :=
  { x with pinWas := if x.pinTick ≤ now then (x.pins, x.dirs) else x.pinWas, pins, dirs, pinTick := t }

/-- R235: the clock level changes; the clock lane driver follows on tick `t`. -/
def Ibex.setClk (x : Ibex) (b : Bool) (t : Nat) : Ibex := { x with clk := b, clkTick := t, clkDrv := ((t, b) :: x.clkDrv).take 3 }

/-- R229, R242: the tick on which the next instruction of engine `e` issues: the first with even STIME. -/
def Dev.ibxNext (d : Dev) (e : Nat) : Nat := d.evenTick (d.ibx e).next

/-- R234, R235: the clock toggle of a boundary that has come, at tick `now`; the clock lane driver follows 2 + `phase` ticks after it. -/
def Ibex.toggled (x : Ibex) (now phase : Nat) : Ibex :=
  match x.toggle with
  | some c => if c ≤ now then { x.setClk (!x.clk) (c + 2 + phase) with toggle := none } else x
  | none => x

/-- R234, R235: the same in the device. -/
def Dev.ibxToggle (d : Dev) (e : Nat) : Dev :=
  match (d.ibx e).toggle with
  | some c => if c ≤ d.tick then d.modIbx e (fun x => x.toggled d.tick (d.get (IBX_CTL_CKPH e))) else d
  | none => d

/-- R246: the stalled cycles so far are counted. -/
def Dev.ibxStallCount (d : Dev) (e : Nat) : Dev :=
  if d.get (IBX_STATUS_STATE e) = 4 then
    let n := (d.tick - (d.ibx e).stallFrom) / 2
    (d.addSat (IBX_STALLCNT_CNT e) n).modIbx e (fun x => { x with stallFrom := x.stallFrom + 2 * n })
  else d

/-- R254: the engine stops with a cause; a record where RECSTOP asks for one, always for ILLEGAL (R239). -/
def Dev.ibxHalt (d : Dev) (e cause t : Nat) : Dev :=
  let d := ((d.ibxStallCount e).put (IBX_STATUS_STATE e) 1).put (IBX_STATUS_CAUSE e) cause
  let d := (d.put (IBX_STATUS_STALLON e) 0).modIbx e (fun x => { x with stopping := none, freezing := none, ending := none })
  if cause = 3 ∨ ((cause = 1 ∨ cause = 2) ∧ d.flag (IBX_CTL_RECSTOP e)) then
    d.ibxRec e 0 (cause + d.get (IBX_STATUS_CODE e) * 256) (d.get (IBX_PC_PC e)) t
  else d

/-- R256: the boundary of an END has come: the engine stops there, and CODE is kept. -/
def Dev.ibxEnded (d : Dev) (e : Nat) : Dev :=
  match (d.ibx e).ending with
  | some c => if (d.ibx e).next ≤ d.tick then (d.put (IBX_STATUS_CODE e) c).ibxHalt e 2 (d.ibx e).next else d
  | none => d

/-- R256, R508: the ENDs whose boundaries are on this tick stop their engines. -/
def Dev.ibxEnds (d : Dev) : Dev := d.ibxs.foldl (fun d p => if p.2.ending.isSome then d.ibxEnded p.1 else d) d

/-- R259: the freeze of an engine: a running one at its boundary, a waiting or stalled one at once. -/
def Dev.ibxFreeze (d : Dev) (e t : Nat) : Dev :=
  let st := d.get (IBX_STATUS_STATE e)
  if (st = 2 ∧ t ≤ d.ibxNext e ∧ d.ibxNext e ≤ d.tick) ∨ ((st = 3 ∨ st = 4) ∧ t ≤ d.tick) then
    (d.put (IBX_STATUS_STATE e) 5).modIbx e (fun x => { x with freezing := none, before := st })
  else d

/-- What the time that has passed does to an engine: the toggle of a boundary, stalled cycles, the boundary of an END, a freeze. -/
def Dev.ibxSettle (d : Dev) (e : Nat) : Dev :=
  let d := ((d.ibxToggle e).ibxStallCount e).ibxEnded e
  match (d.ibx e).freezing with
  | some t => d.ibxFreeze e t
  | none => d

/-- R242, R254, R259: the instruction at PC may issue: the boundary has come and neither a stop nor a freeze takes it. -/
def Dev.ibxIssues (d : Dev) (e : Nat) : Bool :=
  let x := d.ibx e
  d.ibxUp e && d.get (IBX_STATUS_STATE e) == 2 && decide (d.ibxNext e ≤ d.tick) && x.ending.isNone &&
  (match x.stopping with | some t => decide (d.ibxNext e < t) | none => true)

/-- R236, R242: the instruction issued on tick `b` is complete: PC, the next boundary, and the clock toggle of R234. -/
def Dev.ibxDone (d : Dev) (e pc b ext : Nat) (toggles : Bool) : Dev :=
  let n := b + 2 * (1 + ext)
  let tog := toggles && d.flag (IBX_CTL_CKEN e) && (d.ibx e).gate
  (((d.put (IBX_PC_PC e) pc).put (IBX_STATUS_STATE e) 2).put (IBX_STATUS_STALLON e) 0).modIbx e (fun x =>
    { x with next := n, toggle := if tog then some n else none, moved := none })

/-- The address after PC (R242). -/
def Dev.ibxNextPc (d : Dev) (e : Nat) : Nat := (d.get (IBX_PC_PC e) + 1) % 64

/-! ## Encoding -/

/-- R238: a GO word uses no reserved value. -/
def legalGo (w x : Nat) : Bool :=
  let test := bits x 12 4
  let arg := bits x 6 5
  !bitAt x 11 && decide (test < 12) &&
  (if test = 6 ∨ test = 7 then decide (arg < w) else if test = 0xB then decide (arg < 4) else arg == 0)

/-- R238: an AWAIT word uses no reserved value. -/
def legalAwait (x : Nat) : Bool :=
  let kind := bits x 14 2
  let i := bits x 0 7
  bits x 7 6 == 0 &&
  (if kind = 0 then decide (i < 4) else if kind = 1 then true
   else if kind = 2 then decide (1 ≤ i ∧ i ≤ 8) && !bitAt x 13 else false)

/-- R238: a SHIFT word uses no reserved value. -/
def legalShift (x : Nat) : Bool :=
  let port := bits x 11 3
  bits x 5 5 == 0 && decide (port < 5) && !(port == 1 && bitAt x 14)

/-- R238: a COPY word uses no reserved value. -/
def legalCopy (x : Nat) : Bool := decide (bits x 12 4 < 8) && decide (bits x 8 4 < 10) && bits x 0 6 == 0

/-- R237 to R239: a word of an engine with `w` group lanes that may issue. -/
def ibxLegal (w word : Nat) : Bool :=
  let op := bits word 20 4
  let x := bits word 0 16
  match op with
  | 0 => legalGo w x
  | 1 => legalAwait x
  | 2 => legalShift x
  | 3 => bits x 0 14 == 0
  | 4 => legalCopy x
  | 5 => decide (bits x 13 3 < 6)
  | 6 => decide (bits x 14 2 < 3) && bits x 5 8 == 0 && decide (bits x 0 5 < w)
  | 7 => bits x 0 11 == 0
  | 8 => bits x 0 14 == 0
  | 9 => bits x 8 8 == 0
  | _ => false

/-- The instruction word, if it may issue now and has opcode `op`: the issue tick, EXT, and the operands. -/
def Dev.ibxTake (d : Dev) (e op : Nat) : Option (Nat × Nat × Nat) :=
  let w := d.ibxWord e
  if d.ibxIssues e && ibxLegal (d.ibxW e) w && bits w 20 4 == op then some (d.ibxNext e, bits w 16 4, bits w 0 16) else none

/-! ## Pins -/

/-- R231: the level of group lane `j` as recognised (R235). -/
def Dev.ibxLane (d : Dev) (e j : Nat) (lanes : Lanes) : Bool := bitAt lanes.toNat (d.get (IBX_GROUP_BASE e) + j)

/-- R235, R240: the levels of the group lanes, lane j in bit j. -/
def Dev.ibxPinsIn (d : Dev) (e : Nat) (lanes : Lanes) : Nat := bits lanes.toNat (d.get (IBX_GROUP_BASE e)) (d.ibxW e)

/-- R240: group lanes 0 to `k - 1` take the bits of `v`; DIRS where `dirs`, else PINS; the drivers change two ticks after `b`. -/
def Dev.ibxPinWrite (d : Dev) (e : Nat) (dirs : Bool) (k v b : Nat) : Dev :=
  let n := min k (d.ibxW e)
  d.modIbx e (fun x => if dirs then x.setPins d.tick x.pins (putBits x.dirs 0 n v) (b + 2) else x.setPins d.tick (putBits x.pins 0 n v) x.dirs (b + 2))

/-! ## FIFOs and the TX stream's reads -/

/-- R248: the TX stream issues one read if it may. -/
def Dev.txIssue1 (d : Dev) (e : Nat) : Dev :=
  let x := d.ibx e
  let s := x.txs
  let flying := (s.inflight.map (·.2)).foldl (· + ·) 0
  if d.flag (IBX_TXS_CTL_RUN e) ∧ d.flag (IBX_CTL_TXSRC e) ∧ 0 < s.toIssue ∧ s.inflight.length < 2 ∧
      x.tx.length + s.held.length + flying + 4 ≤ 8 ∧ ¬ d.quadDown (ibxQ e) then
    let n := min 4 s.toIssue
    let d := d.modIbx e (fun x => { x with txs := { s with addr := s.addr + 16, toIssue := s.toIssue - n, inflight := s.inflight ++ [(s.addr, n)] } })
    d.memAsk { who := .txs e, kind := 0, word := s.addr / 16 }
  else d

/-- R248: the TX stream issues what it may. -/
def Dev.txIssue (d : Dev) (e : Nat) : Dev := (d.txIssue1 e).txIssue1 e

/-- R246: the FIFO on which the engine is stalled (1 TX, 2 RX) has moved on this tick; the first such tick counts. -/
def Dev.ibxMoved (d : Dev) (e on : Nat) : Dev :=
  if d.get (IBX_STATUS_STALLON e) = on then d.modIbx e (fun x => { x with moved := some (x.moved.getD d.tick) }) else d

/-- R246: words enter the TX FIFO on this tick. -/
def Dev.txPush (d : Dev) (e : Nat) (ws : List Nat) : Dev :=
  let d := d.modIbx e (fun x => { x with tx := x.tx ++ ws })
  if ws = [] then d else d.ibxMoved e 1

/-- R248: words that found no room enter the FIFO as it has room. -/
def Dev.txRoom (d : Dev) (e : Nat) : Dev :=
  let n := 8 - (d.ibx e).tx.length
  let d := (d.txPush e ((d.ibx e).txs.held.take n)).modIbx e (fun x => { x with txs := { x.txs with held := x.txs.held.drop n } })
  d.txIssue e

/-- A word leaves the TX FIFO. -/
def Dev.txPop (d : Dev) (e : Nat) : Nat × Dev :=
  ((d.ibx e).tx.headD 0, (d.modIbx e (fun x => { x with tx := x.tx.drop 1 })).txRoom e)

/-- A word enters the RX FIFO. -/
def Dev.rxPush (d : Dev) (e v : Nat) : Dev := d.modIbx e (fun x => { x with rx := x.rx ++ [v] })

/-- R246: a word leaves the RX FIFO on this tick. -/
def Dev.rxPop (d : Dev) (e : Nat) : Nat × Dev :=
  ((d.ibx e).rx.headD 0, (d.modIbx e (fun x => { x with rx := x.rx.drop 1 })).ibxMoved e 2)

/-- R246: the instruction issued on tick `b` stalls: 1 on an empty TX FIFO, 2 on a full RX FIFO. -/
def Dev.ibxStall (d : Dev) (e on b : Nat) : Dev :=
  let first := !d.flag (IBX_STATUS_STALL_SEEN e)
  let d := ((d.put (IBX_STATUS_STATE e) 4).put (IBX_STATUS_STALLON e) on).raise (IBX_STATUS_STALL_SEEN e)
  let d := d.modIbx e (fun x => { x with stallFrom := b, moved := none })
  if first && d.flag (IBX_CTL_RECSTALL e) then d.ibxRec e 2 on (d.get (IBX_PC_PC e)) b else d

/-! ## Instructions -/

/-- R238: the outcome of GO's test, and the loop counters after it. -/
def Dev.ibxTest (d : Dev) (e test arg : Nat) (lanes : Lanes) : Bool × Dev :=
  let k0 := d.get (IBX_LOOP_K0 e)
  let k1 := d.get (IBX_LOOP_K1 e)
  match test with
  | 0 => (true, d)
  | 1 => (k0 != 0, d.put (IBX_LOOP_K0 e) (k0 - 1))
  | 2 => (k1 != 0, d.put (IBX_LOOP_K1 e) (k1 - 1))
  | 3 => (d.word (IBX_U e) == 0, d)
  | 4 => (d.word (IBX_U e) != 0, d)
  | 5 => (d.word (IBX_U e) != d.word (IBX_V e), d)
  | 6 => (d.ibxLane e arg lanes, d)
  | 7 => (!d.ibxLane e arg lanes, d)
  | 8 => (d.get (IBX_SHCNT_N0 e) == 0, d)
  | 9 => (d.get (IBX_SHCNT_N1 e) == 32, d)
  | 10 => ((d.ibx e).tx.isEmpty, d)
  | _ => (bits (d.get (IBX_SHCNT_PEND e)) (4 * arg) 4 != 0, d)

/-- GO (R237). -/
def Dev.ibxGo (d : Dev) (e : Nat) (lanes : Lanes) : Dev :=
  let d := d.ibxSettle e
  match d.ibxTake e 0 with
  | none => d
  | some (b, ext, x) =>
    let t := d.ibxTest e (bits x 12 4) (bits x 6 5) lanes
    t.2.ibxDone e (if t.1 then bits x 0 6 else d.ibxNextPc e) b ext true

/-- R238, R244: the AWAIT's condition holds. -/
def Dev.ibxHolds (d : Dev) (e x : Nat) (lanes : Lanes) : Bool :=
  let i := bits x 0 7
  match bits x 14 2 with
  | 0 => bits (d.get (IBX_SHCNT_PEND e)) (4 * i) 4 != 0
  | 1 => bitAt lanes.toNat i == bitAt x 13
  | _ => decide (i ≤ (d.ibx e).tx.length)

/-- R238: an AWAIT COND with FLAG takes one pending event. -/
def Dev.ibxConsume (d : Dev) (e x : Nat) : Dev :=
  if bits x 14 2 = 0 ∧ bitAt x 13 then
    let p := d.get (IBX_SHCNT_PEND e)
    let k := 4 * bits x 0 7
    d.put (IBX_SHCNT_PEND e) (putBits p k 4 (bits p k 4 - 1))
  else d

/-- AWAIT (R244): it completes or waits. -/
def Dev.ibxAwait (d : Dev) (e : Nat) (lanes : Lanes) : Dev :=
  let d := d.ibxSettle e
  match d.ibxTake e 1 with
  | none => d
  | some (b, ext, x) =>
    if d.ibxHolds e x lanes then (d.ibxConsume e x).ibxDone e (d.ibxNextPc e) b ext true
    else d.put (IBX_STATUS_STATE e) 3

/-- R244, R259: a waiting AWAIT finds its condition; it is treated as issued on the first even tick, not before a freeze is over. -/
def Dev.ibxAwaitDone (d : Dev) (e : Nat) (lanes : Lanes) : Dev :=
  let d := d.ibxSettle e
  let w := d.ibxWord e
  let x := bits w 0 16
  if d.ibxUp e && d.get (IBX_STATUS_STATE e) == 3 && decide ((d.ibx e).next ≤ d.tick) && d.ibxHolds e x lanes then
    (d.ibxConsume e x).ibxDone e (d.ibxNextPc e) (d.evenTick d.tick) (bits w 16 4) true
  else d

/-- The register of S0 or S1. -/
def ibxS (e r : Nat) : Nat := if r = 0 then IBX_S0 e else IBX_S1 e
/-- The count N0 or N1. -/
def ibxN (e r : Nat) : Fld := if r = 0 then IBX_SHCNT_N0 e else IBX_SHCNT_N1 e
/-- R261: the continuous mode of S0 or S1: bit 0 FILL, bit 1 DRAIN. -/
def Dev.ibxCont (d : Dev) (e r : Nat) : Nat := if r = 0 then d.get (IBX_CTL_CONT0 e) else d.get (IBX_CTL_CONT1 e)

/-- R237: COUNT; 0 means 32. -/
def shiftCount (x : Nat) : Nat := if bits x 0 5 = 0 then 32 else bits x 0 5

/-- R241: SHIFT out: the value shifted out and the register after it. -/
def shiftOut (s n : Nat) (least : Bool) : Nat × Nat :=
  if least then (s % 2 ^ n, s >>> n) else (s >>> (32 - n), (s * 2 ^ n) % 2 ^ 32)

/-- R241: SHIFT in: the register after `v` has entered. -/
def shiftIn (s v n : Nat) (least : Bool) : Nat :=
  if least then ((s >>> n) ||| (v * 2 ^ (32 - n))) % 2 ^ 32 else (s * 2 ^ n + v) % 2 ^ 32

/-- R241: a SHIFT with operands `x`, issued on tick `b`. -/
def Dev.ibxShiftAt (d : Dev) (e b ext x : Nat) (lanes : Lanes) : Dev :=
  let r := b2n (bitAt x 15)
  let n := shiftCount x
  let least := bitAt x 10
  let port := bits x 11 3
  let pc := d.ibxNextPc e
  let cont := d.ibxCont e r
  if bitAt x 14 then
    let full := bitAt cont 1 && decide (32 < d.get (ibxN e r) + n)
    if full && decide (8 ≤ (d.ibx e).rx.length) then d.ibxStall e 2 b else
    let d := if full then ((d.rxPush e (d.word (ibxS e r)).toNat).setWord (ibxS e r) 0).put (ibxN e r) 0 else d
    let v := (match port with
      | 0 => d.ibxPinsIn e lanes
      | 2 => (d.word (IBX_U e)).toNat
      | 3 => (d.word (IBX_V e)).toNat
      | _ => 0) % 2 ^ n
    let d := d.setWord (ibxS e r) (BitVec.ofNat 32 (shiftIn (d.word (ibxS e r)).toNat v n least))
    (d.put (ibxN e r) (min 32 (d.get (ibxN e r) + n))).ibxDone e pc b ext true
  else
    let short := bitAt cont 0 && decide (d.get (ibxN e r) < n)
    if short && (d.ibx e).tx.isEmpty then d.ibxStall e 1 b else
    let d := if short then
        let t := d.txPop e
        (t.2.setWord (ibxS e r) (BitVec.ofNat 32 t.1)).put (ibxN e r) 32
      else d
    let res := shiftOut (d.word (ibxS e r)).toNat n least
    let d := (d.setWord (ibxS e r) (BitVec.ofNat 32 res.2)).put (ibxN e r) (d.get (ibxN e r) - n)
    let d := match port with
      | 0 => d.ibxPinWrite e false n res.1 b
      | 1 => d.ibxPinWrite e true n res.1 b
      | 2 => d.setWord (IBX_U e) (BitVec.ofNat 32 res.1)
      | 3 => d.setWord (IBX_V e) (BitVec.ofNat 32 res.1)
      | _ => d
    d.ibxDone e pc b ext true

/-- SHIFT (R241). -/
def Dev.ibxShift (d : Dev) (e : Nat) (lanes : Lanes) : Dev :=
  let d := d.ibxSettle e
  match d.ibxTake e 2 with
  | none => d
  | some (b, ext, x) => d.ibxShiftAt e b ext x lanes

/-- R241: an XFER with operands `x`, issued on tick `b`. -/
def Dev.ibxXferAt (d : Dev) (e b ext x : Nat) : Dev :=
  let r := b2n (bitAt x 15)
  if bitAt x 14 then
    if 8 ≤ (d.ibx e).rx.length then d.ibxStall e 2 b
    else (((d.rxPush e (d.word (ibxS e r)).toNat).setWord (ibxS e r) 0).put (ibxN e r) 0).ibxDone e (d.ibxNextPc e) b ext true
  else if (d.ibx e).tx.isEmpty then d.ibxStall e 1 b
  else
    let t := d.txPop e
    ((t.2.setWord (ibxS e r) (BitVec.ofNat 32 t.1)).put (ibxN e r) 32).ibxDone e (d.ibxNextPc e) b ext true

/-- XFER (R241). -/
def Dev.ibxXfer (d : Dev) (e : Nat) : Dev :=
  let d := d.ibxSettle e
  match d.ibxTake e 3 with
  | none => d
  | some (b, ext, x) => d.ibxXferAt e b ext x

/-- R246, R259: the stalled instruction issues again on the first even tick at or after two ticks from the word that moved, not before a freeze is
over. -/
def Dev.ibxStallResume (d : Dev) (e : Nat) (lanes : Lanes) : Dev :=
  let d := d.ibxSettle e
  match (d.ibx e).moved with
  | none => d
  | some t =>
    let b := d.evenTick (max (t + 2) (d.ibx e).next)
    if d.ibxUp e ∧ d.get (IBX_STATUS_STATE e) = 4 ∧ b ≤ d.tick then
      let w := d.ibxWord e
      if bits w 20 4 = 2 then d.ibxShiftAt e b (bits w 16 4) (bits w 0 16) lanes
      else d.ibxXferAt e b (bits w 16 4) (bits w 0 16)
    else d

/-- The 32 bits of `v` in reverse order. -/
def reverse32 (v : Nat) : Nat := (List.range 32).foldl (fun a i => 2 * a + (v >>> i) % 2) 0

/-- R238: the source of a COPY. -/
def Dev.ibxCopySrc (d : Dev) (e src : Nat) (lanes : Lanes) : Nat :=
  match src with
  | 0 => d.ibxPinsIn e lanes
  | 1 => bits (d.ibx e).dirs 0 (d.ibxW e)
  | 2 => (d.word (IBX_U e)).toNat
  | 3 => (d.word (IBX_V e)).toNat
  | 4 => (d.word (IBX_S0 e)).toNat
  | 5 => (d.word (IBX_S1 e)).toNat
  | 6 => d.get (IBX_LOOP_K0 e)
  | 7 => d.get (IBX_LOOP_K1 e)
  | 9 => (d.ibx e).tx.length + (d.ibx e).rx.length * 16 + d.get (IBX_SHCNT_N0 e) * 256 + d.get (IBX_SHCNT_N1 e) * 65536
  | _ => 0

/-- R238: OPER applied to a 32-bit value. -/
def copyOper (oper v : Nat) : Nat :=
  match oper with
  | 0 => v
  | 1 => 2 ^ 32 - 1 - v
  | 2 => reverse32 v
  | _ => (v + 1) % 2 ^ 32

/-- COPY (R237, R240). -/
def Dev.ibxCopy (d : Dev) (e : Nat) (lanes : Lanes) : Dev :=
  let d := d.ibxSettle e
  match d.ibxTake e 4 with
  | none => d
  | some (b, ext, x) =>
    let v := copyOper (bits x 6 2) (d.ibxCopySrc e (bits x 8 4) lanes)
    let w := BitVec.ofNat 32 v
    let pc := d.ibxNextPc e
    let d := match bits x 12 4 with
      | 0 => d.ibxPinWrite e false 32 v b
      | 1 => d.ibxPinWrite e true 32 v b
      | 2 => d.setWord (IBX_U e) w
      | 3 => d.setWord (IBX_V e) w
      | 4 => (d.setWord (IBX_S0 e) w).put (IBX_SHCNT_N0 e) 32
      | 5 => (d.setWord (IBX_S1 e) w).put (IBX_SHCNT_N1 e) 32
      | 6 => d.put (IBX_LOOP_K0 e) v
      | _ => d.put (IBX_LOOP_K1 e) v
    d.ibxDone e pc b ext true

/-- PUT (R237, R240). -/
def Dev.ibxPut (d : Dev) (e : Nat) : Dev :=
  let d := d.ibxSettle e
  match d.ibxTake e 5 with
  | none => d
  | some (b, ext, x) =>
    let v := bits x 0 13
    let pc := d.ibxNextPc e
    let d := match bits x 13 3 with
      | 0 => d.ibxPinWrite e false 13 v b
      | 1 => d.ibxPinWrite e true 13 v b
      | 2 => d.setWord (IBX_U e) (BitVec.ofNat 32 v)
      | 3 => d.setWord (IBX_V e) (BitVec.ofNat 32 v)
      | 4 => d.put (IBX_LOOP_K0 e) v
      | _ => d.put (IBX_LOOP_K1 e) v
    d.ibxDone e pc b ext true

/-- BITS (R237, R240). -/
def Dev.ibxBits (d : Dev) (e : Nat) : Dev :=
  let d := d.ibxSettle e
  match d.ibxTake e 6 with
  | none => d
  | some (b, ext, x) =>
    let lane := bits x 0 5
    let act := bits x 14 2
    let f (v : Nat) : Nat := setBitAt v lane (if act = 0 then false else if act = 1 then true else !bitAt v lane)
    let pc := d.ibxNextPc e
    let d := d.modIbx e (fun y => if bitAt x 13 then y.setPins d.tick y.pins (f y.dirs) (b + 2) else y.setPins d.tick (f y.pins) y.dirs (b + 2))
    d.ibxDone e pc b ext true

/-- NOTIFY (R245). -/
def Dev.ibxNotify (d : Dev) (e : Nat) : Dev :=
  let d := d.ibxSettle e
  match d.ibxTake e 7 with
  | none => d
  | some (b, ext, x) =>
    let at_ : Stamp := { time := d.stimeAt (b + 2), clkSw := d.inWindow }
    let pc := d.get (IBX_PC_PC e)
    let d := ((List.range 4).filter (fun i => bitAt x (12 + i))).foldl (fun d i => d.raiseEventAt (ibxQ e) (0x480 + (e % 16) * 4 + i) (b + 2) at_) d
    let d := if bitAt x 11 then d.ibxRec e 1 (d.word (IBX_U e)).toNat pc b else d
    d.ibxDone e ((pc + 1) % 64) b ext true

/-- CLOCK (R238): the gate, and the clock lane's level. -/
def Dev.ibxClock (d : Dev) (e : Nat) : Dev :=
  let d := d.ibxSettle e
  match d.ibxTake e 8 with
  | none => d
  | some (b, ext, x) =>
    let act := bits x 14 2
    let set := decide (2 ≤ act) && d.flag (IBX_CTL_CKEN e)
    let d := d.modIbx e (fun y => { (if set then y.setClk (act == 3) (b + 2 + d.get (IBX_CTL_CKPH e)) else y) with gate := act == 1 })
    d.ibxDone e (d.ibxNextPc e) b ext false

/-- END (R256): the engine will stop at the boundary with CODE; PC takes the address after it. -/
def Dev.ibxEnd (d : Dev) (e : Nat) : Dev :=
  let d := d.ibxSettle e
  match d.ibxTake e 9 with
  | none => d
  | some (b, ext, x) =>
    (d.ibxDone e (d.ibxNextPc e) b ext true).modIbx e (fun y => { y with ending := some (bits x 0 8) })

/-- R239: an undefined word stops the engine on the tick on which it would issue. -/
def Dev.ibxIllegal (d : Dev) (e : Nat) : Dev :=
  let d := d.ibxSettle e
  if d.ibxIssues e && !ibxLegal (d.ibxW e) (d.ibxWord e) then d.ibxHalt e 3 (d.ibxNext e) else d

/-! ## Commands -/

/-- R254: a running engine reaches its boundary after a STOP. -/
def Dev.ibxStopBoundary (d : Dev) (e : Nat) : Dev :=
  let d := d.ibxSettle e
  match (d.ibx e).stopping with
  | some t =>
    if d.ibxUp e ∧ d.get (IBX_STATUS_STATE e) = 2 ∧ (d.ibx e).ending = none ∧ t ≤ d.ibxNext e ∧ d.ibxNext e ≤ d.tick then d.ibxHalt e 1 (d.ibxNext e)
    else d
  | none => d

/-- R254: a STOP that acts on tick `t`. -/
def Dev.ibxStop (d : Dev) (e t : Nat) : Dev :=
  match d.ibxState e with
  | 2 => d.modIbx e (fun x => { x with stopping := some t })
  | 3 => d.ibxHalt e 1 t
  | 4 => d.ibxHalt e 1 t
  | 5 => if (d.ibx e).before = 2 then d.modIbx e (fun x => { x with stopping := some t }) else d.ibxHalt e 1 t
  | _ => d

/-- R259: engine `e`'s debug owner is halted and DBGFRZ is set. -/
def Dev.ibxHeld (d : Dev) (e : Nat) : Bool :=
  d.flag (IBX_CTL_DBGFRZ e) && d.get (ME_STATUS_STATE (2 * ibxQ e + d.get (IBX_CTL_OWNER e))) == 4

/-- R255, R259: a START: the first instruction issues on the first even tick at or after `t`, unless the engine's owner is halted. -/
def Dev.ibxStart (d : Dev) (e t : Nat) : Dev :=
  match d.ibxState e with
  | 1 => (d.put (IBX_STATUS_STATE e) 2).modIbx e (fun x =>
      { x with next := d.evenTick t, gate := false, stopping := none, freezing := if d.ibxHeld e then some t else none, exempt := false })
  | 0 => d.raise (IBX_STATUS_REFUSED e)
  | _ => d

/-- R253, R254: words leave a FIFO of a stopped engine, or REFUSED; words of the TX stream that found no room then enter, and the stream reads on. -/
def Dev.ibxFlush (d : Dev) (e : Nat) (tx : Bool) : Dev :=
  if d.ibxIdle e then (if tx then (d.modIbx e (fun x => { x with tx := [] })).txRoom e else d.modIbx e (fun x => { x with rx := [] }))
  else d.raise (IBX_STATUS_REFUSED e)

/-- R253, R255: the shift state of a stopped engine is cleared, or REFUSED. -/
def Dev.ibxClrShift (d : Dev) (e : Nat) : Dev :=
  if d.ibxIdle e then (((d.setWord (IBX_S0 e) 0).setWord (IBX_S1 e) 0).put (IBX_SHCNT_N0 e) 0).put (IBX_SHCNT_N1 e) 0
  else d.raise (IBX_STATUS_REFUSED e)

/-- R253: a write of CMD acts on the next tick, its bits in order; STOP with START acts as STOP alone. -/
def Dev.ibxCmd (d : Dev) (e v : Nat) : Dev :=
  let d := d.ibxSettle e
  let t := d.tick + 1
  let d := if bitAt v 6 then d.put (IBX_SHCNT_PEND e) 0 else d
  let d := if bitAt v 4 then d.ibxFlush e true else d
  let d := if bitAt v 5 then d.ibxFlush e false else d
  let d := if bitAt v 1 then d.ibxStop e t else d
  let d := if bitAt v 3 then d.ibxClrShift e else d
  if bitAt v 0 && !bitAt v 1 then d.ibxStart e (t + 1) else d

/-! ## Register writes and reads -/

/-- R502: field lane `l` of the quadrant is given to ibex `e` (KIND 2). -/
def Dev.ibxOwns (d : Dev) (e l : Nat) : Bool :=
  let n := (ibxQ e) * 128 + l
  d.get (LANE_CFG_KIND n) == 2 && d.get (LANE_CFG_INDEX n) == e % 16

/-- R232: LANE_ERR: a lane of the group, or the clock lane in use, is not the engine's. -/
def Dev.ibxLaneErr (d : Dev) (e : Nat) : Bool :=
  let b := d.get (IBX_GROUP_BASE e)
  d.flag (IBX_CTL_EN e) && !(d.ibx e).exempt &&
  ((List.range (d.ibxW e)).any (fun j => !d.ibxOwns e (b + j)) ||
   (d.flag (IBX_CTL_CKEN e) && !d.ibxOwns e (d.get (IBX_GROUP_CKLANE e))))

/-- R233, R252, R261: a write of CTL; EN acts on the next tick, the other fields only on a stopped engine. -/
def Dev.ibxCtl (d : Dev) (e v : Nat) : Dev :=
  let d := d.ibxSettle e
  let old := (d.word (IBX_CTL e)).toNat
  let en := d.flag (IBX_CTL_EN e)
  let refused := !d.ibxIdle e && (bits v 0 31 != bits old 0 31)
  let d := d.setWord (IBX_CTL e) (BitVec.ofNat 32 (if refused then setBitAt old 31 (bitAt v 31) else v))
  let d := if refused then d.raise (IBX_STATUS_REFUSED e) else d
  if bitAt v 31 && !en then
    let m := 2 ^ d.ibxW e
    ((d.put (IBX_STATUS_STATE e) 1).modIbx e (fun x => { x with
      pins := (d.word (IBX_PININIT e)).toNat % m, dirs := (d.word (IBX_DIRINIT e)).toNat % m, pinTick := d.tick + 2
      clk := d.flag (IBX_CTL_CKINIT e), clkTick := d.tick + 2, clkDrv := [(d.tick + 2, d.flag (IBX_CTL_CKINIT e))]
      offFrom := d.tick + 2, gate := false, toggle := none, exempt := false, next := d.tick })).txIssue e
  else if !bitAt v 31 && en then
    (((d.ibxHalt e 5 d.tick).put (IBX_STATUS_STATE e) 0).modIbx e (fun x => { x with
      toggle := none, gate := false, exempt := false, offFrom := d.tick + 3 })).txIssue e
  else d.txIssue e

/-- R231, R252: a write of GROUP. -/
def Dev.ibxGroup (d : Dev) (e v : Nat) : Dev :=
  let base := bits v 0 7
  let width := bits v 8 5
  let ck := bits v 16 7
  let busy := !d.ibxIdle e
  if 127 < base + width ∨ (base ≤ ck ∧ ck ≤ base + width) ∨ busy then
    let d := d.raise (IBX_STATUS_CFG_ERR e)
    if busy then d.raise (IBX_STATUS_REFUSED e) else d
  else d.setWord (IBX_GROUP e) (BitVec.ofNat 32 v)

/-- R252, R263: a write of a register that only a stopped engine takes. -/
def Dev.ibxIdleWrite (d : Dev) (e off v : Nat) : Dev :=
  if ¬ d.ibxIdle e then d.raise (IBX_STATUS_REFUSED e)
  else if off = IBX_SHCNT e then
    (d.put (IBX_SHCNT_N0 e) (min 32 (bits v 0 6))).put (IBX_SHCNT_N1 e) (min 32 (bits v 8 6))
  else d.setWord off (BitVec.ofNat 32 v)

/-- R252: a write of PDATA. -/
def Dev.ibxPdataWrite (d : Dev) (e v : Nat) : Dev :=
  if d.ibxIdle e then
    (d.modIbx e (fun x => { x with prog := Tab.set 0x900000 x.prog (d.get (IBX_PADDR_PADDR e)) (v % 2 ^ 24) })).incWrap (IBX_PADDR_PADDR e)
  else d.raise (IBX_STATUS_REFUSED e)

/-- R252: a read of PDATA. -/
def Dev.ibxPdataRead (d : Dev) (e : Nat) : Word × Dev :=
  (BitVec.ofNat 32 (Tab.get 0x900000 (d.ibx e).prog (d.get (IBX_PADDR_PADDR e))), d.incWrap (IBX_PADDR_PADDR e))

/-- R247: a write of TXDATA. -/
def Dev.ibxTxWrite (d : Dev) (e v : Nat) : Dev :=
  if d.flag (IBX_CTL_TXSRC e) ∨ 8 ≤ (d.ibx e).tx.length then d.incSat (IBX_DROPCNT_TXDROP e) else d.txPush e [v]

/-- R247: a read of RXDATA. -/
def Dev.ibxRxRead (d : Dev) (e : Nat) : Word × Dev :=
  if d.flag (IBX_CTL_RXSRC e) ∨ (d.ibx e).rx = [] then (0, d.incSat (IBX_DROPCNT_RXUNDER e))
  else let r := d.rxPop e; (BitVec.ofNat 32 r.1, r.2)

/-! ## Streams -/

/-- A stream's control register, address and length. -/
def strCtl (e : Nat) (rx : Bool) : Nat := if rx then IBX_RXS_CTL e else IBX_TXS_CTL e
/-- The field LEFT of a stream. -/
def strLeft (e : Nat) (rx : Bool) : Fld := if rx then IBX_RXS_CTL_LEFT e else IBX_TXS_CTL_LEFT e
/-- The field RUN of a stream. -/
def strRun (e : Nat) (rx : Bool) : Fld := if rx then IBX_RXS_CTL_RUN e else IBX_TXS_CTL_RUN e
/-- The field RING of a stream. -/
def strRing (e : Nat) (rx : Bool) : Fld := if rx then IBX_RXS_CTL_RING e else IBX_TXS_CTL_RING e
/-- The field REC of a stream. -/
def strRec (e : Nat) (rx : Bool) : Fld := if rx then IBX_RXS_CTL_REC e else IBX_TXS_CTL_REC e
/-- The field STR_DONE of a stream. -/
def strDone (e : Nat) (rx : Bool) : Fld := if rx then IBX_RXS_CTL_STR_DONE e else IBX_TXS_CTL_STR_DONE e
/-- The start address in bytes. -/
def Dev.strAddr (d : Dev) (e : Nat) (rx : Bool) : Nat := 16 * (if rx then d.get (IBX_RXS_ADDR_ADDR e) else d.get (IBX_TXS_ADDR_ADDR e))
/-- The length in FIFO words. -/
def Dev.strLen (d : Dev) (e : Nat) (rx : Bool) : Nat := if rx then d.get (IBX_RXS_LEN_LEN e) else d.get (IBX_TXS_LEN_LEN e)
/-- The stream. -/
def Dev.str (d : Dev) (e : Nat) (rx : Bool) : Stream := if rx then (d.ibx e).rxs else (d.ibx e).txs
/-- The state with a stream changed. -/
def Dev.modStr (d : Dev) (e : Nat) (rx : Bool) (f : Stream → Stream) : Dev :=
  d.modIbx e (fun x => if rx then { x with rxs := f x.rxs } else { x with txs := f x.txs })

/-- R248: a pass may start: it does not reach beyond stacked memory, and is not empty (R260). -/
def Dev.strFits (d : Dev) (e : Nat) (rx : Bool) : Bool :=
  d.strLen e rx != 0 && decide (d.strAddr e rx + 4 * d.strLen e rx ≤ 2 ^ 26)

/-- R248: a pass starts with the ADDR and LEN of the moment. -/
def Dev.strPass (d : Dev) (e : Nat) (rx : Bool) : Dev :=
  let a := d.strAddr e rx
  let n := d.strLen e rx
  (d.put (strLeft e rx) n).modStr e rx (fun s => { s with addr := a, toIssue := n })

/-- R248, R249: the stream stops on an error. -/
def Dev.strError (d : Dev) (e : Nat) (rx : Bool) (addr : Nat) : Dev :=
  let d := ((d.put (strRun e rx) 0).raise (IBX_STATUS_STR_ERR e)).modStr e rx (fun s => { s with toIssue := 0, old := s.inflight.length })
  d.ibxRec e 5 (b2n rx) (addr / 16 * 16) d.tick

/-- R248: a pass is over: a ring starts the next one if it fits, any other stream ends. -/
def Dev.strOver (d : Dev) (e : Nat) (rx : Bool) (addr : Nat) : Dev :=
  if d.flag (strRing e rx) then
    (if d.strFits e rx then d.strPass e rx else d.strError e rx addr)
  else
    let d := (d.put (strRun e rx) 0).raise (strDone e rx)
    if d.flag (strRec e rx) then d.ibxRec e 4 (b2n rx) (addr / 16 * 16) d.tick else d

/-- R250: the RX stream's group is written, masked where it is incomplete. -/
def Dev.rxFlush (d : Dev) (e : Nat) : Dev :=
  let s := (d.ibx e).rxs
  if s.group = [] then d else
  let p := s.addr / 4 % 4
  let n := s.group.length
  let v := s.group.foldr (fun w a => a * 2 ^ 32 + w) 0
  let d := d.memAsk { who := .rxs e, kind := 1, word := s.addr / 16, mask := (2 ^ (4 * n) - 1) * 2 ^ (4 * p), data := v * 2 ^ (32 * p) }
  d.modStr e true (fun s => { s with addr := s.addr + 4 * n, group := [] })

/-- R248, R250, R263: a write of TXS_CTL or RXS_CTL: RING and REC are stored, STR_DONE is cleared, and RUN starts or stops the stream. -/
def Dev.strCtlWrite (d : Dev) (e : Nat) (rx : Bool) (v : Nat) : Dev :=
  let was := d.flag (strRun e rx)
  let d := (d.putB (strRing e rx) (bitAt v 2)).putB (strRec e rx) (bitAt v 1)
  let d := if bitAt v 3 then d.put (strDone e rx) 0 else d
  if bitAt v 0 && !was then
    if d.strFits e rx then
      let d := (d.raise (strRun e rx)).modStr e rx (fun s => { s with old := s.inflight.length, group := [] })
      let d := d.strPass e rx
      if rx then d else d.txIssue e
    else d.raise (IBX_STATUS_REFUSED e)
  else if !bitAt v 0 && was then
    let d := if rx then d.rxFlush e else d
    (d.put (strRun e rx) 0).modStr e rx (fun s => { s with toIssue := 0, old := s.inflight.length })
  else d

/-- The four dwords of a 16-byte word, lowest address first. -/
def dwordsOf (v : Nat) : List Nat := [bits v 0 32, bits v 32 32, bits v 64 32, bits v 96 32]

/-- R248, R249: a TX read returns: its words enter the FIFO; the pass ends, wraps or fails. -/
def Dev.txReadDone (d : Dev) (e : Nat) : Dev :=
  match d.mc.results.find? (fun r => decide (r.who = MemWho.txs e)), (d.ibx e).txs.inflight with
  | some r, (addr, n) :: rest =>
    let old := (d.ibx e).txs.old
    let d := { d with mc := { d.mc with results := removeFirst r d.mc.results } }
    let d := d.modStr e false (fun s => { s with inflight := rest, old := old - 1 })
    if r.err then d.strError e false addr
    else
      let ws := (dwordsOf r.data).take n
      let room := 8 - (d.ibx e).tx.length
      let d := (d.txPush e (ws.take room)).modStr e false (fun s => { s with held := s.held ++ ws.drop room })
      let d := if old = 0 then
          let left := d.get (IBX_TXS_CTL_LEFT e) - n
          let d := d.put (IBX_TXS_CTL_LEFT e) left
          if left = 0 then d.strOver e false (addr + 4 * n) else d
        else d
      d.txIssue e
  | _, _ => d

/-- R250: the RX stream takes FIFO words until its group completes a 16-byte word or its pass. -/
def Dev.rxTake (d : Dev) (e : Nat) : Nat → Dev
  | 0 => d
  | k + 1 =>
    let s := (d.ibx e).rxs
    if (d.ibx e).rx = [] ∨ s.toIssue = 0 then d else
    let r := d.rxPop e
    let d := r.2.modStr e true (fun s => { s with group := s.group ++ [r.1], toIssue := s.toIssue - 1, since := if s.group = [] then d.tick else s.since })
    let left := d.get (IBX_RXS_CTL_LEFT e) - 1
    let d := d.put (IBX_RXS_CTL_LEFT e) left
    let s := (d.ibx e).rxs
    if left = 0 then
      let d := d.rxFlush e
      d.strOver e true (d.ibx e).rxs.addr
    else if s.addr / 4 % 4 + s.group.length = 4 then d.rxFlush e
    else Dev.rxTake d e k

/-- RX_STREAM_WRITE (R250): the stream waits while 32 of its requests do (R12). -/
def Dev.rxStream (d : Dev) (e : Nat) : Dev :=
  if d.flag (IBX_RXS_CTL_RUN e) ∧ d.flag (IBX_CTL_RXSRC e) ∧ ¬ d.quadDown (ibxQ e) ∧ d.memRoom (.rxs e) then d.rxTake e 4 else d

/-- R250: an incomplete group has waited 256 ticks. -/
def Dev.rxTimeout (d : Dev) (e : Nat) : Dev :=
  let s := (d.ibx e).rxs
  if s.group ≠ [] ∧ s.since + 256 ≤ d.tick ∧ d.flag (IBX_RXS_CTL_RUN e) ∧ d.memRoom (.rxs e) then d.rxFlush e else d

/-! ## Await conditions -/

/-- R243: await condition `k` of engine `e` counts an event. -/
def Dev.ibxCond (d : Dev) (e k : Nat) : Dev :=
  let p := d.get (IBX_SHCNT_PEND e)
  if bits p (4 * k) 4 = 15 then d.raise (IBX_STATUS_CONDOVF e)
  else d.put (IBX_SHCNT_PEND e) (putBits p (4 * k) 4 (bits p (4 * k) 4 + 1))

/-! ## Handover -/

/-- R257: the number of the first failed condition, 0 where all hold. -/
def Dev.hoCheck (d : Dev) (o sp : Nat) : Nat :=
  if o = sp ∨ ¬ d.flag (IBX_CTL_EN o) then 1
  else if ¬ (d.flag (IBX_CTL_EN sp) ∧ d.ibxState sp = 1) then 2
  else if d.word (IBX_GROUP sp) ≠ d.word (IBX_GROUP o) ∨ d.get (IBX_CTL_CKEN sp) ≠ d.get (IBX_CTL_CKEN o) then 3
  else if d.flag (IBX_HOCTL_TAKEFIFO sp) ∧ ¬ ((d.ibx sp).tx = [] ∧ (d.ibx sp).rx = []) then 4
  else 0

/-- R258: a requester's reads in flight pass from engine `o` to engine `sp`. -/
def retarget (o sp : Nat) : MemWho → MemWho
  | .txs e => if e = o then .txs sp else .txs e
  | .rxs e => if e = o then .rxs sp else .rxs e
  | w => w

/-- R258: FIFOs, sources and streams pass from `o` to `sp`. -/
def Dev.hoFifo (d : Dev) (o sp : Nat) : Dev :=
  let x := d.ibx o
  let d := d.modIbx sp (fun y => { y with tx := x.tx, rx := x.rx, txs := x.txs, rxs := x.rxs })
  let d := d.modIbx o (fun y => { y with tx := [], rx := [], txs := {}, rxs := {} })
  let d := (d.put (IBX_CTL_TXSRC sp) (d.get (IBX_CTL_TXSRC o))).put (IBX_CTL_RXSRC sp) (d.get (IBX_CTL_RXSRC o))
  let d := ([(IBX_TXS_ADDR sp, IBX_TXS_ADDR o), (IBX_TXS_LEN sp, IBX_TXS_LEN o), (IBX_TXS_CTL sp, IBX_TXS_CTL o),
    (IBX_RXS_ADDR sp, IBX_RXS_ADDR o), (IBX_RXS_LEN sp, IBX_RXS_LEN o), (IBX_RXS_CTL sp, IBX_RXS_CTL o)]).foldl
    (fun d p => d.setWord p.1 (d.word p.2)) d
  let d := (((d.put (IBX_TXS_CTL_RUN o) 0).put (IBX_RXS_CTL_RUN o) 0).put (IBX_TXS_CTL_LEFT o) 0).put (IBX_RXS_CTL_LEFT o) 0
  { d with mc := { d.mc with reqs := d.mc.reqs.map (fun r => { r with who := retarget o sp r.who })
                             results := d.mc.results.map (fun r => { r with who := retarget o sp r.who }) } }

/-- R258: U, V, K0, K1, S0, S1, N0, N1 and the pending counts pass from `o` to `sp`. -/
def Dev.hoState (d : Dev) (o sp : Nat) : Dev :=
  ([(IBX_U sp, IBX_U o), (IBX_V sp, IBX_V o), (IBX_LOOP sp, IBX_LOOP o), (IBX_S0 sp, IBX_S0 o), (IBX_S1 sp, IBX_S1 o),
    (IBX_SHCNT sp, IBX_SHCNT o)]).foldl (fun d p => d.setWord p.1 (d.word p.2)) d

/-- R258: the lanes of the group and the clock lane pass from `o` to `sp` in the lane ownership. -/
def Dev.hoLanes (d : Dev) (o sp : Nat) : Dev :=
  let b := d.get (IBX_GROUP_BASE o)
  let ls := (List.range (d.ibxW o)).map (· + b) ++ (if d.flag (IBX_CTL_CKEN o) then [d.get (IBX_GROUP_CKLANE o)] else [])
  ls.foldl (fun d l => if d.ibxOwns o l then d.put (LANE_CFG_INDEX ((ibxQ o) * 128 + l)) (sp % 16) else d) d

/-- R257, R258: the handover to the spare `sp` acts on tick `c`. -/
def Dev.handover (d : Dev) (sp c : Nat) : Dev :=
  let o := (ibxQ sp) * 16 + d.get (IBX_HOCTL_FROM sp)
  let fail := d.hoCheck o sp
  let from_ := d.get (IBX_HOCTL_FROM sp)
  if fail ≠ 0 then
    let d := d.raise (IBX_STATUS_HO_ERR sp)
    d.ibxRec sp 3 (from_ + fail * 16) 0 c
  else
    let late := match (d.ibx o).toggle with | some t => decide (c < t) | none => false
    let d := (d.ibxToggle o).modIbx o (fun x => { x with toggle := if late then none else x.toggle })
    let x := d.ibx o
    let st := d.ibxState o
    let d := if 1 < st then
        ((((d.ibxStallCount o).put (IBX_STATUS_STATE o) 1).put (IBX_STATUS_CAUSE o) 4).put (IBX_STATUS_STALLON o) 0).modIbx o
          (fun x => { x with stopping := none, freezing := none, ending := none })
      else d.put (IBX_STATUS_CAUSE o) 4
    let d := d.hoLanes o sp
    let d := d.modIbx sp (fun y => { y with
      pins := x.pins, dirs := x.dirs, pinTick := x.pinTick, pinWas := x.pinWas, clk := x.clk, clkTick := x.clkTick, clkDrv := x.clkDrv
      toggle := x.toggle, hoTick := some c, exempt := false })
    let d := d.modIbx o (fun y => { y with exempt := true, hoTick := some c, toggle := none })
    let d := if d.flag (IBX_HOCTL_TAKESTATE sp) then d.hoState o sp else d
    let d := if d.flag (IBX_HOCTL_TAKEFIFO sp) then d.hoFifo o sp else d
    let d := d.ibxStart sp (c + 2)
    let d := (d.raise (IBX_STATUS_HO_DONE o)).raise (IBX_STATUS_HO_DONE sp)
    (d.ibxRec o 3 (from_ + 256) 0 c).ibxRec sp 3 from_ 0 c

/-- R232, R257, R263: a write of HOCTL: the fields are stored and arm a stopped engine as a spare; GO makes the handover on the next tick. -/
def Dev.ibxHoctl (d : Dev) (e v : Nat) : Dev :=
  let d := (d.setWord (IBX_HOCTL e) (BitVec.ofNat 32 (v % 64))).ibxSettle e
  let d := if d.ibxState e = 1 then d.modIbx e (fun x => { x with exempt := true }) else d
  if bitAt v 31 then d.handover e (d.tick + 1) else d

/-! ## Reset and freeze -/

/-- R260: every register of engine `e` returns to its Reset value, its FIFOs empty and its streams stop; the program memory stays where
`keep` says so. -/
def Dev.ibxReset (keep : Bool) (e : Nat) (d : Dev) : Dev :=
  let was := d.ibxState e
  let p := (d.ibx e).prog
  let d := if 2 ≤ was && keep && d.flag (IBX_CTL_RECSTOP e) then
      d.ibxRec e 0 (d.get (IBX_STATUS_CODE e) * 256) (d.get (IBX_PC_PC e)) d.tick
    else d
  let d := { d with regs := d.regs.filter (fun r => r.1 < IBX_CTL e || IBX_CTL e + 0x80 ≤ r.1) }
  let d := { d with mc := { d.mc with reqs := d.mc.reqs.filter (fun r => decide (r.who ≠ MemWho.txs e ∧ r.who ≠ MemWho.rxs e))
                                      results := d.mc.results.filter (fun r => decide (r.who ≠ MemWho.txs e)) } }
  d.modIbx e (fun _ => { prog := if keep then p else [] })

/-- R479: a write of QPWR[q].IBXRST resets the engines named. -/
def Dev.ibxResets (d : Dev) (q v : Nat) : Dev :=
  ((List.range 16).filter (fun k => bitAt v k)).foldl (fun d k => d.ibxReset true (16 * q + k)) d

/-- R259: engine `e` freezes, at once where it waits or is stalled, else at a boundary from tick `t`, or runs on after tick `t`. -/
def Dev.ibxRefreeze (t e : Nat) (d : Dev) : Dev :=
  let d := d.ibxSettle e
  let st := d.ibxState e
  if d.ibxHeld e then
    if st = 3 ∨ st = 4 then (d.put (IBX_STATUS_STATE e) 5).modIbx e (fun x => { x with before := st })
    else if st = 2 ∧ (d.ibx e).freezing = none then d.modIbx e (fun x => { x with freezing := some t })
    else d
  else if st = 5 then
    (d.put (IBX_STATUS_STATE e) (d.ibx e).before).modIbx e (fun x =>
      { x with next := max x.next (d.evenTick (t + 1)), stallFrom := d.evenTick (t + 1) })
  else d.modIbx e (fun x => { x with freezing := none })

/-! ## Meanings -/

/-- IBEX_GO (R237). -/
def execIbexGo (e : Fin 64) (lanes : Lanes) (s : State) : Host.Outcome State Fault Refusal := onDev s (fun d => d.ibxGo e lanes)
/-- IBEX_AWAIT (R244). -/
def execIbexAwait (e : Fin 64) (lanes : Lanes) (s : State) : Host.Outcome State Fault Refusal := onDev s (fun d => d.ibxAwait e lanes)
/-- IBEX_AWAIT_DONE (R244). -/
def execIbexAwaitDone (e : Fin 64) (lanes : Lanes) (s : State) : Host.Outcome State Fault Refusal :=
  onDev s (fun d => d.ibxAwaitDone e lanes)
/-- IBEX_SHIFT (R241). -/
def execIbexShift (e : Fin 64) (lanes : Lanes) (s : State) : Host.Outcome State Fault Refusal := onDev s (fun d => d.ibxShift e lanes)
/-- IBEX_XFER (R241). -/
def execIbexXfer (e : Fin 64) (s : State) : Host.Outcome State Fault Refusal := onDev s (fun d => d.ibxXfer e)
/-- IBEX_COPY (R237). -/
def execIbexCopy (e : Fin 64) (lanes : Lanes) (s : State) : Host.Outcome State Fault Refusal := onDev s (fun d => d.ibxCopy e lanes)
/-- IBEX_PUT (R237). -/
def execIbexPut (e : Fin 64) (s : State) : Host.Outcome State Fault Refusal := onDev s (fun d => d.ibxPut e)
/-- IBEX_BITS (R237). -/
def execIbexBits (e : Fin 64) (s : State) : Host.Outcome State Fault Refusal := onDev s (fun d => d.ibxBits e)
/-- IBEX_NOTIFY (R245). -/
def execIbexNotify (e : Fin 64) (s : State) : Host.Outcome State Fault Refusal := onDev s (fun d => d.ibxNotify e)
/-- IBEX_CLOCK (R238). -/
def execIbexClock (e : Fin 64) (s : State) : Host.Outcome State Fault Refusal := onDev s (fun d => d.ibxClock e)
/-- IBEX_END (R256). -/
def execIbexEnd (e : Fin 64) (s : State) : Host.Outcome State Fault Refusal := onDev s (fun d => d.ibxEnd e)
/-- IBEX_ILLEGAL (R239). -/
def execIbexIllegal (e : Fin 64) (s : State) : Host.Outcome State Fault Refusal := onDev s (fun d => d.ibxIllegal e)
/-- IBEX_STALL_RESUME (R246). -/
def execIbexStallResume (e : Fin 64) (lanes : Lanes) (s : State) : Host.Outcome State Fault Refusal :=
  onDev s (fun d => d.ibxStallResume e lanes)
/-- IBEX_STOP_AT_BOUNDARY (R254). -/
def execIbexStopAtBoundary (e : Fin 64) (s : State) : Host.Outcome State Fault Refusal := onDev s (fun d => d.ibxStopBoundary e)
/-- TX_STREAM_READ_DONE (R248). -/
def execTxStreamReadDone (e : Fin 64) (s : State) : Host.Outcome State Fault Refusal := onDev s (fun d => d.txReadDone e)
/-- RX_STREAM_WRITE (R250). -/
def execRxStreamWrite (e : Fin 64) (s : State) : Host.Outcome State Fault Refusal := onDev s (fun d => d.rxStream e)
/-- RX_STREAM_GROUP_TIMEOUT (R250). -/
def execRxStreamGroupTimeout (e : Fin 64) (s : State) : Host.Outcome State Fault Refusal := onDev s (fun d => d.rxTimeout e)

end Sys2Proof.Machine
end

