-- ==== Sys2Proof/Machine/Lanes.lean ====
section
/-! DEFINITION. The pins (R462, R464, R483 to R490): who drives a field lane, the levels of lanes, FE pins and CONV pins, the I/O rails. A
level is none where the pin is high impedance. -/

namespace Sys2Proof.Machine

/-- R443: the level of an idle code: 0 low, 1 high, 2 high impedance. -/
def idleLevel (code : Nat) : Option Bool := if code = 0 then some false else if code = 1 then some true else none

/-- R235: the level that the clock lane driver of an engine shows on tick `now`, where a toggle takes 2 + `phase` ticks. -/
def Ibex.clkLevel (x : Ibex) (now phase : Nat) : Bool :=
  match (x.toggled now phase).clkDrv.find? (fun p => decide (p.1 ≤ now)) with
  | some p => p.2
  | none => false

/-- R233, R235, R483: what ibex `e` drives on local lane `l`: the fused idle level from 2 ticks after EN became 0 until the tick after it
becomes 1, PINS where DIRS is 1, its clock. -/
def Dev.ibxDrives (d : Dev) (e l : Nat) : Option Bool :=
  let x := d.ibx e
  let b := d.get (IBX_GROUP_BASE e)
  let (pins, dirs) := if x.pinTick ≤ d.tick then (x.pins, x.dirs) else x.pinWas
  if (if d.flag (IBX_CTL_EN e) then decide (d.tick < x.offFrom) else decide (x.offFrom ≤ d.tick)) then idleLevel (d.laneIdle (128 * ibxQ e + l))
  else if d.flag (IBX_CTL_CKEN e) && l == d.get (IBX_GROUP_CKLANE e) then some (x.clkLevel d.tick (d.get (IBX_CTL_CKPH e)))
  else if b ≤ l ∧ l < b + d.ibxW e then (if bitAt dirs (l - b) then some (bitAt pins (l - b)) else none)
  else idleLevel (d.laneIdle (128 * ibxQ e + l))

/-- R483: the level at which lane `n` is driven by its owner; the fused idle level where that drives nothing (R177, R114). -/
def Dev.laneOwned (d : Dev) (n : Nat) : Option Bool :=
  let q := n / 128
  let idle := idleLevel (d.laneIdle n)
  let i := d.get (LANE_CFG_INDEX n)
  match d.get (LANE_CFG_KIND n) with
  | 1 =>
    let c := 256 * q + i
    if d.get (TC_CTL_LANE c) = n % 128 then (match d.tcDrives c with
      | some b => some b
      | none => idle)
    else idle
  | 2 => d.ibxDrives (16 * q + i) (n % 128)
  | 3 =>
    let b := 2 * q + i
    if d.emuLane b ≤ n ∧ n ≤ d.emuLane b + 4 then (match d.emuDrives b (n - d.emuLane b) with
      | some b => some b
      | none => idle)
    else idle
  | 4 => some (Tab.get false (d.quad q).drive (n % 128))
  | _ => idle

/-- R483, R485: the level of lane `n` with the open drain. -/
def Dev.laneLevel (d : Dev) (n : Nat) : Option Bool :=
  match if d.quadDown (n / 128) then idleLevel (d.laneIdle n) else d.laneOwned n with
  | some true => if d.flag (LANE_CFG_OD n) then none else some true
  | x => x

/-- R461, R462, R464, R486: a pin on rail `r`: nothing is driven without VAON, without its rail, or before the end of fuse load. -/
def Dev.pad (d : Dev) (r : Nat) (level : Option Bool) : Option Bool :=
  if !d.pw.vaon || !d.pw.fuses || !bitAt d.pw.railGood r then none else level

/-- The level at the ball of field lane `n`. -/
def Dev.lanePin (d : Dev) (n : Nat) : Option Bool := d.pad (n / 32) (d.laneLevel n)
/-- The level at the ball of FE pin `n` (R220, R488). -/
def Dev.fePin (d : Dev) (n : Nat) : Option Bool := d.pad (16 + n / 64) (d.fePinLevel n)
/-- The level at the ball of CONV pin `c`: low whenever it is not pulsing (R490). -/
def Dev.convPin (d : Dev) (c : Nat) : Option Bool := d.pad (16 + c / 4) (some ((Tab.get {} d.convs c).high && !d.quadDown (c / 4)))

/-- R484: whether an owner named by KIND and INDEX exists. -/
def laneOwnerOk (kind index : Nat) : Bool :=
  kind == 0 || kind == 1 || (kind == 2 && decide (index < 16)) || ((kind == 3 || kind == 4) && decide (index < 2))

/-- R484, R485: a write of LANE[n].CFG: an owner that does not exist leaves the register unchanged and sets the reserved-write flag. The
drive bit of a new microengine owner takes the lane's driven level; a level that is not there is a free value (log 5). -/
def Dev.laneWrite (d : Dev) (origin n : Nat) (v : Nat) : Dev :=
  if ¬ laneOwnerOk (bits v 16 3) (bits v 8 8) then d.reserved origin (LANE_CFG n) else
  let same := d.get (LANE_CFG_KIND n) == 4 && bits v 16 3 == 4 && d.get (LANE_CFG_INDEX n) == bits v 8 8
  let old := d.laneLevel n
  let d := d.setWord (LANE_CFG n) (BitVec.ofNat 32 v)
  let d := if bits v 16 3 = 4 && !same then
      match old with
      | some b => d.modQuad (n / 128) (fun x => { x with drive := Tab.set false x.drive (n % 128) b })
      | none =>
        let r := d.fresh
        r.2.modQuad (n / 128) (fun x => { x with drive := Tab.set false x.drive (n % 128) (bitAt r.1.toNat 0) })
    else d
  forRange (fun c d => if d.get (TC_CTL_LANE c) = n % 128 then d.tcLaneCheck c else d) (256 * (n / 128)) 256 d

/-- The number of an I/O rail: VDDIO[b] b, VDDFE[q] 16 + q (R481). -/
def railNo : IoRail → Nat
  | .bank b => b
  | .fe q => 16 + q

/-- R461, R486: an I/O rail becomes good in the 1.8 V or the 3.3 V mode, or is lost. -/
def Dev.rail (d : Dev) (r : Nat) (good v33 : Bool) : Dev :=
  { d with pw := { d.pw with railGood := setBitAt d.pw.railGood r good, railV33 := setBitAt d.pw.railV33 r (good && v33) } }

/-- R27: a CONV pin is pulsed from tick `t` for CONVW + 1 ticks; a trigger while the pin is high is merged (R25). -/
def Dev.convStart (d : Dev) (c t : Nat) : Dev :=
  let x : Conv := Tab.get {} d.convs c
  if x.high ∧ t < x.until_ then d.incSat (XBAR_MERGE_CNT (c / 4))
  else { d with convs := Tab.set {} d.convs c { high := true, until_ := t + d.get (CONVW_CONVW_W c) + 1 } }

/-- R27: the pulse of CONV pin `c` ends. -/
def Dev.convEnd (d : Dev) (c : Nat) : Dev :=
  let x : Conv := Tab.get {} d.convs c
  if x.high ∧ x.until_ ≤ d.tick ∧ d.tb.running then { d with convs := Tab.set {} d.convs c {} } else d

/-! ## Meanings -/

/-- IO_RAIL_GOOD (R461, R486). -/
def execIoRailGood (r : IoRail) (v33 : Bool) (s : State) : Host.Outcome State Fault Refusal := onDev s (fun d => d.rail (railNo r) true v33)
/-- IO_RAIL_LOST (R486). -/
def execIoRailLost (r : IoRail) (s : State) : Host.Outcome State Fault Refusal := onDev s (fun d => d.rail (railNo r) false false)
/-- CONV_PULSE_END (R27). -/
def execConvPulseEnd (c : Fin 16) (s : State) : Host.Outcome State Fault Refusal := onDev s (fun d => d.convEnd c)

end Sys2Proof.Machine
end

