-- ==== Sys2Proof/Machine/RecForm.lean ====
section
/-! DEFINITION. The form of an event record (R372) and the placing of the report of lost records in an engine's queue (R381). -/

namespace Sys2Proof.Machine

/-- R372: the eight dwords of a record with its sequence number and phase bit. -/
def Rec.dwords (r : Rec) (seq p : Nat) : List Nat :=
  [r.at_.time % 2 ^ 32, (r.at_.time >>> 32) % 2 ^ 32,
   (r.sub % 256) * 2 ^ 24 + (r.typ % 256) * 2 ^ 16 + (r.orig % 8) * 2 ^ 13 + b2n r.at_.clkSw * 128 + b2n r.at_.uncal * 64 + r.at_.fine % 64,
   (seq % 65536) * 2 ^ 16 + r.src % 65536, r.p0 % 2 ^ 32, r.p1 % 2 ^ 32, r.p2 % 2 ^ 32, (p % 2) * 2 ^ 31 + r.p3 % 2 ^ 31]

/-- R374: a LOST_RECORDS record: what lost them, how many, and the time of the first. -/
def Dev.lostRec (d : Dev) (sub src count time : Nat) : Rec :=
  { typ := 0x16, sub, orig := 4, src, at_ := { d.stampNow with fine := 0 }, p0 := count, p1 := time % 2 ^ 32, p2 := time >>> 32 }

/-- R381: the report of records lost at engine `e` enters its queue as soon as that has room. -/
def Dev.meLostPlace (d : Dev) (e : Nat) : Dev :=
  let x := Tab.get (0, 0, 0) d.ru.meLost e
  if x.1 = 0 ∨ 64 ≤ (d.me e).recs.length then d else
  let d := d.modMe e (fun m => { m with recs := m.recs ++ [(d.lostRec 1 e x.1 x.2.2).dwords x.2.1 0] })
  { d with ru := { d.ru with meLost := Tab.set (0, 0, 0) d.ru.meLost e (0, 0, 0) } }

end Sys2Proof.Machine
end

