-- ==== Sys2Proof/Machine/Template.lean ====
section
/-! DEFINITION. Carriages and templates (R153 to R160), and the Coach's own control (R133, R164 to R168). -/

namespace Sys2Proof.Machine

/-! ## Opening -/

/-- R154: the position between two latches at time `sf` in fine steps. -/
def posBetween (sf : Nat) : List (Int × Nat) → Option Int
  | (p1, t1) :: (p0, t0) :: r =>
    if t0 ≤ sf ∧ sf < t1 then some (p0 + roundDiv ((p1 - p0) * ((sf : Int) - t0)) ((t1 : Int) - t0)) else posBetween sf ((p0, t0) :: r)
  | _ => none

/-- R154: the position of an axis at time `sf` in fine steps; none where the history does not reach back to it. -/
def AxView.posAt (v : AxView) (sf : Nat) : Option Int :=
  if v.hist.isEmpty then some v.t16
  else if v.ext then (if v.ft ≤ sf then some (v.extrapolate sf).1 else posBetween sf v.hist)
  else (v.hist.find? (fun p => p.2 ≤ sf)).map (fun p => p.1)

/-- R155: the active page of template `t`. -/
def Dev.tplPage (d : Dev) (t : Nat) : Nat := d.get (TPL_STATUS_ACTIVE t)

/-- R168: entries of page `p` of template `t`. -/
def Dev.tplLen (d : Dev) (t p : Nat) : Nat := min 4096 (if p = 0 then d.get (TPL_LEN_LEN0 t) else d.get (TPL_LEN_LEN1 t))

/-- R168: 16-byte word of entry `i` of page `p` of template `t`. -/
def Dev.tplWord (d : Dev) (t p i : Nat) : Nat :=
  (4 * (if p = 0 then d.get (TPL_PAGE0_BASE t) else d.get (TPL_PAGE1_BASE t)) + i) % 4194304

/-- The reject entry of axis `a` as its registers hold it (R166). -/
def Dev.rejEntry (d : Dev) (a : Nat) : Entry :=
  Entry.of (d.pair (CAR_REJENT0 a) (CAR_REJENT1 a)) (d.pair (CAR_REJENT2 a) (CAR_REJENT3 a))

/-- R159: reject entries of axis `a` queued or on their way into the queue. -/
def Dev.rejCount (d : Dev) (a : Nat) : Nat :=
  let s := d.slice (a / 2)
  (Tab.get [] s.rejq (a % 2)).length + (s.insq.filter (fun r => r.cls == 2 && r.e.reject && r.e.axis == a)).length

/-- R159, R160: an opening with base `b` finds every carriage in use. -/
def Dev.noSlot (d : Dev) (a t : Nat) (b : Int) (unext : Bool) (st : Stamp) : Dev :=
  let q := a / 2
  let d := (d.incSat (CAR_NOSLOTCNT_CNT a)).raise (CAR_STATUS_NOSLOT a)
  let queue := d.flag (CAR_CFG_REJ_EN a) && decide (d.rejCount a < 16)
  let d := if queue then
      let r := d.rejEntry a
      let e := { r with ktype := 1, axis := a, key := sgn 64 (uns 64 (b + r.key)), unext := unext, reject := true, acc := (d.slice q).nextAcc, accTick := t }
      d.modSlice q (fun s => { s with nextAcc := s.nextAcc + 1, insq := s.insq ++ [{ cls := 2, e, from_ := t }] })
    else (d.incSat (CAR_REJLOSTCNT_CNT a)).raise (CAR_STATUS_REJLOST a)
  let w := uns 64 b
  let d := d.raiseRec q (0x170 + a % 2) { typ := 6, sub := b2n (!queue) + 2 * b2n queue, src := a, at_ := st, p1 := w % 2 ^ 32, p2 := w >>> 32 }
  d.raiseEventAt q (0x406 + 8 * (a % 2)) t (d.tickStamp q t)

/-- R153 to R156: an opening event with stamp `st` acts on the carriage-open sink of axis `a` on tick `t`. A stamp older than the history has no
stated position: it is a free value (log 5). -/
def Dev.carOpen (d : Dev) (a t : Nat) (st : Stamp) : Dev :=
  let q := a / 2
  if ¬ d.flag (CAR_CFG_EN a) ∨ ¬ d.flag (COACH_CTL_EN q) ∨ d.quadDown q then d else
  let v := d.axView a t
  let sf := st.time * 64 + st.fine
  let known := v.posAt sf
  let (fr, df) := d.fresh
  let d := if known.isNone then df else d
  let b := sgn 64 (uns 64 (known.getD (sgn 64 fr.toNat) + sgn 64 (d.pair (CAR_OFFSET_LO a) (CAR_OFFSET_HI a))))
  let gap : Int := (d.get (CAR_CFG_MINGAP a) : Nat) * 65536
  let near := match Tab.get none (d.slice q).lastOpen (a % 2) with
    | some p => decide (((b - p).natAbs : Int) < gap)
    | none => false
  if near then d.incSat (CAR_BOUNCECNT_CNT a) else
  let d := d.modSlice q (fun s => { s with lastOpen := Tab.set none s.lastOpen (a % 2) (some b) })
  match firstIdx (fun i => !(d.car i).isOpen && decide ((d.car i).freeFrom ≤ t)) (256 * a) 256 with
  | none => d.noSlot a t b (!v.ext) st
  | some c =>
    let tpl := 64 * q + d.get (CAR_CFG_TEMPLATE a)
    let page := d.tplPage tpl
    let len := d.tplLen tpl page
    let n := min 4 len
    let d := d.incSat (CAR_OPENCNT_CNT a)
    let d := if v.ext then d else d.raise (CAR_STATUS_UNEXTRAP_OPEN a)
    let d := d.modCar c (fun _ => { isOpen := true, base := b, unext := !v.ext, cursor := n, tpl, page, len, reads := List.replicate n (t + 160) })
    if len = 0 then d.carClose c 0 t (fun _ => false) else d

/-! ## Templates -/

/-- R156, R308, R312, R322: a template read of carriage `c` completes: the entry passes the insertion stage; one that reads as uncorrectable is skipped. -/
def State.templateRead (s : State) (c : Nat) : State :=
  let x := s.dev.car c
  let i := x.cursor - x.reads.length
  if ¬ x.isOpen ∨ x.reads = [] ∨ ¬ s.dev.memUp ∨ ¬ s.dev.memClear (s.dev.tplWord x.tpl x.page i) 1 then s else
  let ((w, ue), s) := s.memRead (s.dev.tplWord x.tpl x.page i) 0 0
  let d := s.dev.modCar c (fun x => { x with reads := x.reads.drop 1 })
  if ue then { s with dev := (d.carNext c).carSettle c } else
  let e := Entry.of (w % 2 ^ 64) (w / 2 ^ 64)
  let d := d.modCar c (fun x => { x with live := x.live + 1 })
  { s with dev := d.modSlice (c / 512) (fun z => { z with
      nextAcc := z.nextAcc + 1
      insq := z.insq ++ [{ cls := 2, from_ := d.tick, e := { e with
        ktype := 1, axis := c / 256, key := sgn 64 (uns 64 (x.base + sgn 64 (w % 2 ^ 64))), car := some c, unext := x.unext, acc := z.nextAcc, accTick := d.tick } }] }) }

/-- R155, R168: a write of CMD.SWAP of template `t`; `group` says that a commit group brings it, its page checked when it was staged. -/
def Dev.tplSwap (d : Dev) (t : Nat) (group : Bool) : Dev :=
  let p := d.tplPage t
  if d.tplUsers t (1 - p) ≠ 0 then (if (d.tpl t).check.isSome && !group then d else d.raise (TPL_STATUS_BAD t))
  else if group then d.put (TPL_STATUS_ACTIVE t) (1 - p)
  else if (d.tpl t).check.isSome then d
  else d.modTpl t (fun x => { x with check := some d.tick })

/-- R155: the checks of R132 and of the order over entries `i` to `i + n - 1`: the first that fails. Entries that read as uncorrectable are
skipped (R312). -/
def State.tplScan (t p : Nat) : Nat → Nat → Int → State → Option Nat × State
  | _, 0, _, s => (none, s)
  | i, n + 1, last, s =>
    let ((w, ue), s) := s.memRead (s.dev.tplWord t p i) 0 0
    if ue then State.tplScan t p (i + 1) n last s else
    let e := Entry.of (w % 2 ^ 64) (w / 2 ^ 64)
    if e.bad true ∨ e.key < last then (some i, s) else State.tplScan t p (i + 1) n e.key s

/-- R155, R308, R322, R395: the check of template `t`'s inactive page ends, at one entry per tick: the page becomes active, or joins its group, or is refused. -/
def State.tplCheckDone (s : State) (t : Nat) : State :=
  match (s.dev.tpl t).check with
  | none => s
  | some t0 =>
    let p := 1 - s.dev.tplPage t
    let n := s.dev.tplLen t p
    if s.dev.tick < t0 + n ∨ ¬ s.dev.memUp ∨ ¬ s.dev.memClear (s.dev.tplWord t p 0) n then s else
    let (bad, s) := State.tplScan t p 0 n (- 2 ^ 63) s
    let g := (s.dev.tpl t).group
    let d := s.dev.modTpl t (fun _ => {})
    let mine (w : Staged) : Bool := w.check == some t
    { s with dev := match bad, g with
      | none, none => d.put (TPL_STATUS_ACTIVE t) p
      | none, some g => d.modGrp g (fun x => { x with writes := x.writes.map (fun w => if mine w then { w with check := none } else w) })
      | some i, none => (d.raise (TPL_STATUS_BAD t)).put (TPL_STATUS_BADIDX t) i
      | some i, some g =>
        let d := (d.raise (TPL_STATUS_BAD t)).put (TPL_STATUS_BADIDX t) i
        let d := d.modGrp g (fun x => { x with writes := x.writes.filter (fun w => !mine w) })
        let d := if (d.grp g).writes.isEmpty then d.grpFree g else d
        d.stageSettleAll ((s.dev.grp g).writes.filterMap (fun w => if mine w then some w.flight else none)) }

/-! ## Control -/

/-- R164: slice `q` loses every entry; its carriages close without records. -/
def Dev.coachEmpty (d : Dev) (q : Nat) : Dev :=
  let s := d.slice q
  let d := (s.hor ++ s.cal.map (fun p => p.2) ++ s.insq.map (fun r => r.e) ++ s.slots.map (fun x => x.e)).foldl (fun d e => d.cmtGone e.arming) d
  let d := d.modSlice q (fun s => { s with insq := [], cal := [], hor := [], slots := [], rejq := [], loads := [] })
  let d := { d with cars := (d.cars.map (fun (p : Nat × Carriage) => (p.1, if p.1 / 512 = q ∧ p.2.isOpen then { freeFrom := d.tick + 1 } else p.2))) }
  (d.put (COACH_HOCC_HIGH q) 0).put (COACH_AOCC_HIGH q) 0

/-- R165: FLUSH: every entry is discarded and every carriage closed without records. Entries that wait at the insertion stage had been
accepted. -/
def Dev.coachFlush (d : Dev) (q : Nat) : Dev :=
  if d.flag (COACH_CTL_EN q) then d else
  let waits := (d.slice q).insq
  let d := d.coachEmpty q
  waits.foldl (fun d r => match r.who with
    | some (w, last) => d.acceptDone q w last 0 0 true
    | none => d) d

/-- R133, R165: a write of CTL of slice `q`. -/
def Dev.coachCtl (d : Dev) (q v : Nat) : Dev :=
  let d := if bitAt v 1 then d.coachFlush q else d
  if !bitAt v 0 then d.put (COACH_CTL_EN q) 0
  else if 1024 < d.get (COACH_REGBASE_BASE q) + min 128 (d.get (COACH_REGSIZE_SIZE q)) then
    (d.put (COACH_CTL_EN q) 0).raise (COACH_STATUS_CFG_REFUSED q)
  else d.put (COACH_CTL_EN q) 1

/-- R133: a write of REGBASE or REGSIZE: only while EN is 0. -/
def Dev.coachRegion (d : Dev) (q : Nat) (f : Fld) (v : Nat) : Dev :=
  if d.flag (COACH_CTL_EN q) then d.raise (COACH_STATUS_CFG_REFUSED q) else d.put f v

/-- R166: CAR[a].CFG is written; REJ_EN is set only while the reject entry passes its checks. -/
def Dev.carCfg (d : Dev) (a : Nat) (v : Word) : Dev :=
  let on := d.flag (CAR_CFG_REJ_EN a)
  let d := d.setWord (CAR_CFG a) v
  if d.flag (CAR_CFG_REJ_EN a) && !on && (d.rejEntry a).bad true then d.put (CAR_CFG_REJ_EN a) 0 else d

/-- R157, R166: flags of a carriage of axis `a` are set and cleared; a flag in both masks is set. -/
def Dev.carFlags (d : Dev) (a v : Nat) : Dev :=
  let c := 256 * a + bits v 16 8
  if (d.car c).isOpen then
    d.modCar c (fun x => { x with flags := (x.flags &&& (255 - bits v 0 8)) ||| bits v 8 8 })
  else d

/-- R158, R166: a write of CLOSE. -/
def Dev.carCloseCmd (d : Dev) (a v : Nat) : Dev :=
  let c := 256 * a + bits v 0 8
  if (d.car c).isOpen then d.carClose c 3 d.tick d.slotDueSoon else d

/-- R166: VBASE of the selected carriage of axis `a`; a closed one reads 0. -/
def Dev.carBase (d : Dev) (a : Nat) : Nat := uns 64 (d.car (256 * a + d.get (CAR_CARSEL_CAR a))).base

/-- R166: VSTAT of the selected carriage of axis `a`. -/
def Dev.carVstat (d : Dev) (a : Nat) : Nat :=
  let x := d.car (256 * a + d.get (CAR_CARSEL_CAR a))
  b2n x.isOpen * 2 ^ 31 + b2n x.unext * 2 ^ 30 + x.flags * 2 ^ 16 + x.cursor

/-- R166: a read of VBASE_LO latches VBASE_HI and VSTAT. -/
def Dev.carVbaseRead (d : Dev) (a : Nat) : Word × Dev :=
  let b := d.carBase a
  (BitVec.ofNat 32 b, (d.setWord (CAR_VBASE_HI a) (BitVec.ofNat 32 (b >>> 32))).setWord (CAR_VSTAT a) (BitVec.ofNat 32 (d.carVstat a)))

/-! ## Reads -/

/-- R165: STATUS of slice `q`. -/
def Dev.coachStatus (d : Dev) (q : Nat) : Nat :=
  (d.word (COACH_STATUS q)).toNat ||| b2n (decide (1024 ≤ d.slotsHeld q)) * 8 ||| b2n (decide (4096 ≤ (d.slice q).hor.length)) * 4 |||
    b2n (d.flag (COACH_CTL_EN q) && decide (0 < d.get (COACH_REGSIZE_SIZE q)))

/-- R167: STATUS of the carriage block of axis `a`. -/
def Dev.carStatus (d : Dev) (a : Nat) : Nat :=
  (d.word (CAR_STATUS a)).toNat ||| (d.cars.filter (fun p => p.1 / 256 == a && p.2.isOpen)).length * 2 ^ 16 |||
    d.rejCount a * 2 ^ 11 |||
    b2n (d.flag (CAR_CFG_EN a) && bitAt (d.coachStatus (a / 2)) 0)

/-- R168: STATUS of template `t`. -/
def Dev.tplStatus (d : Dev) (t : Nat) : Nat :=
  let p := d.tplPage t
  (d.word (TPL_STATUS t)).toNat ||| b2n (d.tpl t).check.isSome * 2 ^ 14 ||| d.tplUsers t p * 16 ||| b2n (d.tplUsers t (1 - p) != 0) * 8

/-! ## Meanings -/

/-- TEMPLATE_READ_DONE (R156). -/
def execTemplateReadDone (c : Fin 2048) (s : State) : Host.Outcome State Fault Refusal := .next (s.templateRead c)
/-- TPL_CHECK_DONE (R155). -/
def execTplCheckDone (t : Fin 256) (s : State) : Host.Outcome State Fault Refusal := .next (s.tplCheckDone t)

end Sys2Proof.Machine
end

