-- ==== Sys2Proof/Machine/Engine.lean ====
section
/-! DEFINITION. Quostad microengines (R264 to R305): ports and units, the three forms of a word, traps, the bit space, start and stop. -/

namespace Sys2Proof.Machine

/-! ## Ports -/

/-- What a port is: R276, R274. -/
inductive PortKind where
  | reg | result | trigger | undefined | absent
  deriving DecidableEq, Repr

/-- R276: the kind of a port. -/
def portKind (p : Nat) : PortKind :=
  if 0x380 ≤ p then .absent
  else if p ≤ 0x05F then .reg
  else if p = 0x061 ∨ p = 0x062 ∨ p = 0x080 ∨ p = 0x090 ∨ p = 0x098 ∨ p = 0x099 ∨ p = 0x0A0 ∨ p = 0x0A8 ∨ p = 0x0AC then .reg
  else if (0x0B0 ≤ p ∧ p ≤ 0x0B7) ∨ (0x0DA ≤ p ∧ p ≤ 0x0DC) ∨ p = 0x100 ∨ (0x110 ≤ p ∧ p ≤ 0x113) ∨ p = 0x1F0 ∨ p = 0x300 ∨ p = 0x301 then .reg
  else if p = 0x066 ∨ p = 0x067 ∨ p = 0x081 ∨ p = 0x082 ∨ p = 0x093 ∨ p = 0x094 ∨ p = 0x09B ∨ p = 0x0A2 ∨ p = 0x0A3 ∨ p = 0x0AA ∨ p = 0x0AB then .result
  else if p = 0x0E1 ∨ p = 0x0E2 ∨ p = 0x0F0 ∨ p = 0x0F1 ∨ p = 0x0F4 ∨ p = 0x103 ∨ p = 0x115 ∨ p = 0x119 ∨ (0x120 ≤ p ∧ p ≤ 0x127) then .result
  else if (0x1F1 ≤ p ∧ p ≤ 0x1F3) ∨ p = 0x1F6 ∨ p = 0x1F7 ∨ p = 0x311 ∨ p = 0x312 then .result
  else if p = 0x060 ∨ (0x063 ≤ p ∧ p ≤ 0x065) ∨ (0x083 ≤ p ∧ p ≤ 0x08E) ∨ p = 0x091 ∨ p = 0x092 ∨ p = 0x09A ∨ p = 0x0A1 then .trigger
  else if (0x0A4 ≤ p ∧ p ≤ 0x0A7) ∨ p = 0x0A9 ∨ p = 0x0AD ∨ (0x0B8 ≤ p ∧ p ≤ 0x0BF) ∨ (0x0C0 ≤ p ∧ p ≤ 0x0C7) ∨ p = 0x0D0 then .trigger
  else if p = 0x0D8 ∨ p = 0x0D9 ∨ p = 0x0E0 ∨ p = 0x0F2 ∨ p = 0x0F3 ∨ p = 0x101 ∨ p = 0x102 ∨ p = 0x114 ∨ p = 0x118 then .trigger
  else if p = 0x1F4 ∨ p = 0x1F5 ∨ p = 0x302 ∨ p = 0x303 ∨ p = 0x310 ∨ p = 0x313 then .trigger
  else .undefined

/-- R274: the unit of a trigger port: 0 bits, 1 ALU, 2 MUL, 3 LUT, 4 LSU, 5 control, 6 REP, 7 TIME, 8 IO, 9 Coach, 10 REC, 11 SYS.trap, 12 CRC,
13 transposer. -/
def portUnit (p : Nat) : Nat :=
  if p < 0x080 then 0 else if p < 0x090 then 1 else if p < 0x098 then 2 else if p < 0x0A0 then 3 else if p < 0x0D0 then 4
  else if p = 0x0E0 then 6 else if p = 0x0F2 ∨ p = 0x0F3 then 7 else if p = 0x101 ∨ p = 0x102 then 8 else if p = 0x114 then 9
  else if p = 0x118 then 10 else if p = 0x1F5 then 11 else if p = 0x302 ∨ p = 0x303 then 12 else if p = 0x310 ∨ p = 0x313 then 13 else 5

/-- R292: the word that moves into this port redirects. -/
def portRedirects (p : Nat) : Bool := p == 0x0D0 || p == 0x0D8 || p == 0x0D9 || p == 0x1F4

/-- The quadrant of engine `e`. -/
def meQ (e : Nat) : Nat := e / 2

/-- R273: results due by tick `t` land, in trigger order. -/
def Me.settle (m : Me) (t : Nat) : Me :=
  { m with ports := (m.res.filter (fun r => r.1 ≤ t)).foldl (fun p r => Tab.set 0 p r.2.1 r.2.2) m.ports, res := m.res.filter (fun r => !decide (r.1 ≤ t)) }

/-- The value of a stored port. -/
def Me.port (m : Me) (p : Nat) : Nat := Tab.get 0 m.ports p

/-- The engine with a stored port set. -/
def Me.setPort (m : Me) (p v : Nat) : Me := { m with ports := Tab.set 0 m.ports p v }

/-- The engine with a result on its way. -/
def Me.later (m : Me) (due p v : Nat) : Me := { m with res := m.res ++ [(due, p, v)] }

/-- A 32-bit word of the scratch at byte address `a`. -/
def Me.load32 (m : Me) (a : Nat) : Nat := Tab.get 0 m.scratch (a / 4)

/-- The scratch with a 32-bit word stored. -/
def Me.store32 (m : Me) (a v : Nat) : Me := { m with scratch := Tab.set 0 m.scratch (a / 4) (v % 2 ^ 32) }

/-- R264: the word of image bank `b` at `a`. -/
def Me.word (m : Me) (b a : Nat) : Nat := Tab.get 0 m.img (b * 16384 + a)

/-- The engine with a word of an image bank stored. -/
def Me.setImg (m : Me) (b a w : Nat) : Me := { m with img := Tab.set 0 m.img (b * 16384 + a) w }

/-- R300: XP.st. -/
def Me.xpSt (m : Me) : Nat := b2n m.swapAt.isSome * 2 ^ 16 + m.drain.length * 2 ^ 8 + m.fill.length

/-! ## State -/

/-- R265: the engine's state becomes `st`. -/
def Dev.meState (d : Dev) (e st : Nat) : Dev :=
  let old := d.get (ME_STATUS_STATE e)
  if old = st then d else
  (d.put (ME_STATUS_STATE e) st).modMe e (fun m => { m with hist := (d.tick, old, m.port 0x1F0) :: m.hist.filter (fun h => d.tick < h.1 + 8) })

/-- R378: STATE and SYS.pri of engine `e` as they stood on tick `t`. -/
def Dev.meAt (d : Dev) (e t : Nat) : Nat × Nat :=
  match ((d.me e).hist.filter (fun h => decide (t < h.1))).getLast? with
  | some h => h.2
  | none => (d.get (ME_STATUS_STATE e), (d.me e).port 0x1F0)

/-- R297: an ME_FAULT record and its place at the collector. -/
def Dev.meFault (d : Dev) (e cause tval word rep : Nat) : Dev :=
  d.raiseRec (meQ e) (0x150 + e % 2)
    { typ := 9, sub := cause, src := e, at_ := d.stamp (meQ e) d.tick 0, p0 := tval % 2 ^ 32, p1 := word % 2 ^ 32, p2 := word >>> 32
      p3 := d.get (ME_EPC_EPC e) * 2 ^ 17 + rep % 2 ^ 17 }

/-- R295, R298: the word `word` at `pc` traps; a second trap stops the engine. -/
def Dev.meTrap (d : Dev) (e cause tval pc word : Nat) : Dev :=
  let rep := (d.me e).rep
  let double := d.flag (ME_STATUS_INTRAP e)
  let code := if double then 0x12 else cause
  let tv := if double then cause else tval % 2 ^ 32
  let d := ((d.put (ME_EPC_EPC e) pc).put (ME_CAUSE_CAUSE e) code).put (ME_TVAL_TVAL e) tv
  let d := ((d.raise (ME_STATUS_INTRAP e)).raise (ME_STATUS_TRAPPED e)).incSat (ME_CAUSE_TRAPCNT e)
  let d := d.modMe e (fun (m : Me) => { (m.setPort 0x0E2 0) with rep := 0, next := d.tick + 4, waitFor := none })
  let d := d.meFault e code tv word rep
  if double then (d.meState e 5).flog 0x33 (meQ e) e code (d.get (ME_EPC_EPC e))
  else (d.put (ME_PC_PC e) (d.get (ME_VEC_VEC e))).meState e 1

/-! ## The bit space -/

/-- How a bit of the bit space may be written: R289. -/
inductive BitAccess where
  | none | ro | w1c | wo | rw | semaphore | private_
  deriving DecidableEq, Repr

/-- R289: the access of a bit address. -/
def bitAccess (a : Nat) : BitAccess :=
  if a < 0x400 then (if a % 4 = 3 then .ro else .w1c)
  else if a < 0x480 then .ro
  else if a < 0x500 then .rw
  else if a < 0x510 then .w1c
  else if a < 0x530 then .wo
  else if 0x600 ≤ a ∧ a < 0x6C0 then .ro
  else if 0x700 ≤ a ∧ a < 0x910 then .ro
  else if 0xA00 ≤ a ∧ a < 0xA20 then .w1c
  else if 0xB00 ≤ a ∧ a < 0xB04 then .ro
  else if 0x1000 ≤ a ∧ a < 0x2000 then .semaphore
  else if 0x8000 ≤ a ∧ a < 0x10000 then .private_
  else .none

/-- R289: scratch byte address and bit of a private bit. -/
def privAt (a : Nat) : Nat × Nat := (0x7000 + (a - 0x8000) / 8, (a - 0x8000) % 8)

/-- R289: the bit at a listed address as engine `e` sees it; `lanes` are the recognised levels of the quadrant's lanes. -/
def Dev.meBit (d : Dev) (e : Nat) (lanes : Lanes) (a : Nat) : Bool :=
  let q := meQ e
  let m := d.me e
  if a < 0x400 then
    let n := 256 * q + a / 4
    if a % 4 = 3 then !(d.tc n).queue.isEmpty else d.flag (tcFlag n (a % 4))
  else if a < 0x480 then lanes.getLsbD (a - 0x400)
  else if a < 0x500 then Tab.get false (d.quad q).drive (a - 0x480)
  else if a < 0x510 then bitAt m.events (a - 0x500)
  else if a < 0x600 then false
  else if a < 0x640 then d.feRuns (64 * q + (a - 0x600))
  else if a < 0x680 then d.feActive (64 * q + (a - 0x640))
  else if a < 0x6C0 then
    let k := 16 * q + (a - 0x680) / 4
    let x := (d.ibxSettle k).ibx k
    match (a - 0x680) % 4 with
    | 0 => d.ibxState k == 1
    | 1 => d.ibxState k == 4
    | 2 => decide (x.tx.length < 8)
    | _ => !x.rx.isEmpty
  else if a < 0x900 then (d.car (512 * q + (a - 0x700))).isOpen
  else if a < 0x910 then
    let i := 2 * q + (a - 0x900) / 8
    match (a - 0x900) % 8 with
    | 0 => d.axExt i
    | 1 => (d.axis i).stopped
    | 2 => d.flag (AXIS_STATUS_FAULT i)
    | 3 => d.flag (AXIS_STATUS_DIR i)
    | 4 => d.flag (AXIS_STATUS_SAT_HI i)
    | 5 => d.flag (AXIS_STATUS_SAT_LO i)
    | 6 => bitAt (d.axStatus i) 18
    | _ => bitAt (d.axStatus i) 5
  else if a < 0xB00 then bitAt m.hk (a - 0xA00)
  else if a < 0x1000 then bitAt (d.coachStatus q) (match a - 0xB00 with | 0 => 0 | 1 => 2 | 2 => 3 | _ => 1)
  else if a < 0x2000 then Tab.get false (d.quad q).sems (a - 0x1000)
  else bitAt (m.load32 (privAt a).1) (8 * ((privAt a).1 % 4) + (privAt a).2)

/-- R288: a semaphore is written. -/
def Dev.semSet (d : Dev) (e a : Nat) (b : Bool) : Dev := d.modQuad (meQ e) (fun x => { x with sems := Tab.set false x.sems (a - 0x1000) b })

/-- R289: a private bit is written. -/
def Dev.privSet (d : Dev) (e a : Nat) (b : Bool) : Dev :=
  d.modMe e (fun m => m.store32 (privAt a).1 (setBitAt (m.load32 (privAt a).1) (8 * ((privAt a).1 % 4) + (privAt a).2) b))

/-- R285, R288: `x` is on its way from engine `e` until tick `t`. -/
def Dev.meSend (d : Dev) (e t : Nat) (x : MeIo) : Dev := d.modMe e (fun m => { m with io := m.io ++ [(t, x)] })

/-! ## Units -/

/-- What a unit answers to a trigger, or a port to a read: it is done, the word traps with a cause and TVAL, or the word waits. -/
inductive MeAns (α : Type) where
  | ok (a : α)
  | trap (cause tval : Nat)
  | wait

/-- What follows an answer that is done. -/
def MeAns.bind {α β : Type} (x : MeAns α) (f : α → MeAns β) : MeAns β :=
  match x with
  | .ok a => f a
  | .trap c t => .trap c t
  | .wait => .wait

/-- R288 to R290: a bit is written by engine `e` on issue tick `t`: a semaphore at the end of the cycle, where the engines act in index order. -/
def Dev.meBitWrite (d : Dev) (e a t : Nat) (b : Bool) : MeAns Dev :=
  match bitAccess a with
  | .none | .ro => .trap 0x0D a
  | .semaphore => .ok (d.meSend e t (.sem a b))
  | .private_ => .ok (d.privSet e a b)
  | _ => .ok (d.meSend e (t + 2) (.bit a b))

/-- R277: the ALU's result and carry for trigger port 0x083 + `op`. -/
def aluOp (op a v cy : Nat) : Nat × Nat :=
  let w := 2 ^ 32
  match op with
  | 0 => ((a + v) % w, (a + v) / w)
  | 1 => ((a + w - v) % w, b2n (decide (a < v)))
  | 2 => (a &&& v, cy)
  | 3 => (a ||| v, cy)
  | 4 => (a ^^^ v, cy)
  | 5 => ((a <<< (v % 32)) % w, cy)
  | 6 => (a >>> (v % 32), cy)
  | 7 => (uns 32 (sgn 32 a / 2 ^ (v % 32)), cy)
  | 8 => (if sgn 32 a ≤ sgn 32 v then a else v, cy)
  | 9 => (if sgn 32 a ≤ sgn 32 v then v else a, cy)
  | 10 => ((a + v + cy) % w, (a + v + cy) / w)
  | _ => ((a + w + w - v - cy) % w, b2n (decide (a < v + cy)))

/-- R277: an ALU trigger. -/
def Dev.meAlu (d : Dev) (e op v : Nat) : Dev :=
  d.modMe e (fun m => let r := aluOp op (m.port 0x080) v (m.port 0x082); (m.setPort 0x081 r.1).setPort 0x082 r.2)

/-- R278: a product is due three cycles after its trigger. -/
def Dev.meMul (d : Dev) (e t v : Nat) (signed : Bool) : Dev :=
  d.modMe e (fun m =>
    let a := m.port 0x090
    let p := if signed then uns 64 (sgn 32 a * sgn 32 v) else a * v
    (m.later (t + 6) 0x093 (p % 2 ^ 32)).later (t + 6) 0x094 (p / 2 ^ 32))

/-- R279: the look-up of a Q16.16 index in a table of `n` entries. -/
def lutOf (y : Nat → Int) (n : Nat) (x : Int) : Int :=
  let k := x / 65536
  let f := x % 65536
  if x < 0 then y 0
  else if (n : Int) - 1 ≤ k then y (n - 1)
  else y k.toNat + ((y (k.toNat + 1) - y k.toNat) * f + 0x8000) / 65536

/-- R279: a look-up is due four cycles after its trigger. -/
def Dev.meLut (d : Dev) (e t v : Nat) : MeAns Dev :=
  let m := d.me e
  let n := m.port 0x099
  let base := m.port 0x098 / 4 * 4
  if n < 2 ∨ 4096 < n then .trap 0x0B v
  else if 0x8000 < base + 4 * n then .trap 0x06 base
  else .ok (d.modMe e (fun m => m.later (t + 8) 0x09B (uns 32 (lutOf (fun i => sgn 32 (m.load32 (base + 4 * i))) n (sgn 32 v)))))

/-- R280: the place of a data address: in scratch, or byte `a` of stacked memory. -/
def dataAt (v : Nat) : MeAns (Nat ⊕ Nat) :=
  if v % 4 ≠ 0 then .trap 0x07 v
  else if v < 0x8000 then .ok (.inl v)
  else if 0x10000000 ≤ v ∧ v < 0x14000000 then .ok (.inr (v - 0x10000000))
  else .trap 0x06 v

/-- R281: a load from data address `v`. -/
def Dev.meLoad (d : Dev) (e t v : Nat) : MeAns Dev :=
  match dataAt v with
  | .trap c x => .trap c x
  | .wait => .wait
  | .ok p =>
    if (d.me e).load.isSome then .wait else
    match p with
    | .inl a => .ok (d.modMe e (fun m => (m.later (t + 4) 0x0A2 (m.load32 a)).later (t + 4) 0x1000 0))
    | .inr a => .ok ((d.modMe e (fun m => { m with load := some (v, 0) })).memAsk { who := .me e, kind := 0, word := a / 16 })

/-- R281: a store of `x` at data address `v`; up to eight stacked-memory stores may be in flight. -/
def Dev.meStore (d : Dev) (e v x : Nat) : MeAns Dev :=
  match dataAt v with
  | .trap c y => .trap c y
  | .wait => .wait
  | .ok (.inl a) => .ok (d.modMe e (fun m => m.store32 a x))
  | .ok (.inr a) =>
    if 8 ≤ (d.mc.reqs.filter (fun r => r.who == .me e && r.kind == 1)).length then .wait
    else .ok (d.memAsk { who := .me e, kind := 1, word := a / 16, mask := 0xF * 2 ^ (a % 16), data := (x % 2 ^ 32) * 2 ^ (8 * (a % 16)) })

/-- R282: an atomic, 0 faa, 1 faa64, 2 swp, at LSU.a. -/
def Dev.meAtomic (d : Dev) (e op v : Nat) : MeAns Dev :=
  let a := (d.me e).port 0x0A0
  if a % (if op = 1 then 8 else 4) ≠ 0 then .trap 0x07 a
  else if a < 0x10000000 ∨ 0x14000000 ≤ a then .trap 0x06 a
  else if (d.me e).load.isSome then .wait
  else
    let b := a - 0x10000000
    .ok ((d.modMe e (fun m => { m with load := some (a, op + 1) })).memAsk
      { who := .me e, kind := 2, word := b / 16, op, lane := b % 16, data := if op = 1 then uns 64 (sgn 32 v) else v % 2 ^ 32 })

/-- The bits of `w`, `m` of them, in reverse order. -/
def revBits : Nat → Nat → Nat
  | 0, _ => 0
  | m + 1, w => (w % 2) * 2 ^ m + revBits m (w / 2)

/-- R284: pointer `k` after a step; none where the mode's settings trap. -/
def Dev.aguStep (d : Dev) (e k p : Nat) : Option Nat :=
  let s := sgn 14 (d.get (AGU_CFG_STEP e k))
  let b := d.get (AGU_BASE_BASE e k) * 4
  let l := d.get (AGU_LEN_LEN e k) * 4
  match d.get (AGU_CFG_MODE e k) with
  | 0 => some (uns 32 ((p : Int) + 4 * s))
  | 1 => if l = 0 then none else some (uns 32 ((b : Int) + ((p : Int) - b + 4 * s) % l))
  | _ =>
    let m := Nat.log2 (l / 4)
    if l = 0 ∨ l ≠ 4 * 2 ^ m ∨ b % l ≠ 0 then none else
    let w := uns m (((p : Int) - b) / 4)
    some (uns 32 ((b : Int) + 4 * (revBits m (uns m ((revBits m w : Nat) + s)) : Nat)))

/-- R284: a load or a store at pointer `k`, and its step. -/
def Dev.meAgu (d : Dev) (e t k v : Nat) (store : Bool) : MeAns Dev :=
  let p := (d.me e).port (0x0B0 + k)
  match d.aguStep e k p with
  | none => .trap 0x0B v
  | some n => (if store then d.meStore e p v else d.meLoad e t p).bind (fun d => .ok (d.modMe e (fun m => m.setPort (0x0B0 + k) n)))

/-- R417: the inactive bank of engine `e` is locked by an image swap that has landed in a group. -/
def Dev.meLocked (d : Dev) (e : Nat) : Bool :=
  d.cmt.groups.any (fun p => p.2.writes.any (fun w => w.swap == some e && w.landed))

/-- R283, R417: LSU.iwr: a word of the inactive image; dropped while the bank is locked. -/
def Dev.meIwr (d : Dev) (e v : Nat) : MeAns Dev :=
  let m := d.me e
  let a := m.port 0x0A8
  if 16383 < a then .trap 0x0A a
  else if d.meLocked e then .ok (d.raise (ME_STATUS_REFUSED e))
  else .ok (d.modMe e (fun m => m.setImg (1 - d.get (ME_STATUS_IMAGE e)) a (m.port 0x0AC * 2 ^ 32 + v)))

/-- R283: LSU.ird: a word of the active image, due two cycles later. -/
def Dev.meIrd (d : Dev) (e t v : Nat) : MeAns Dev :=
  if 16383 < v then .trap 0x0A v else
  .ok (d.modMe e (fun m =>
    let w := m.word (d.get (ME_STATUS_IMAGE e)) v
    (m.later (t + 4) 0x0AA (w % 2 ^ 32)).later (t + 4) 0x0AB (w / 2 ^ 32)))

/-- R275: control goes to `a`, `cost` cycles after the issue on tick `t`. -/
def Dev.meJump (d : Dev) (e t a cost : Nat) : Dev := (d.put (ME_PC_PC e) a).modMe e (fun m => { m with next := t + 2 * cost })

/-- R291: a stack pointer must be aligned and in scratch. -/
def stackTrap (a : Int) : Option (Nat × Nat) :=
  if a % 4 ≠ 0 then some (0x07, uns 32 a) else if a < 0 ∨ 0x8000 ≤ a then some (0x06, uns 32 a) else none

/-- R291: CALL.t by the word at `pc`. -/
def Dev.meCall (d : Dev) (e t pc v : Nat) : MeAns Dev :=
  let m := d.me e
  let sp := m.port 0x0DA
  let n : Int := (sp : Int) - 4
  if n < (m.port 0x0DB : Nat) then .trap 0x08 sp else
  match stackTrap n with
  | some (c, x) => .trap c x
  | none => .ok ((d.modMe e (fun m => (m.setPort 0x0DA n.toNat).store32 n.toNat (pc + 1))).meJump e t (v % 16384) 2)

/-- R291: CALL.ret. -/
def Dev.meRet (d : Dev) (e t : Nat) : MeAns Dev :=
  let m := d.me e
  let sp := m.port 0x0DA
  if m.port 0x0DC ≤ sp then .trap 0x09 sp else
  match stackTrap sp with
  | some (c, x) => .trap c x
  | none =>
    let a := m.load32 sp
    if 16383 < a then .trap 0x0A a else .ok ((d.modMe e (fun m => m.setPort 0x0DA (sp + 4))).meJump e t a 3)

/-- R292: REP.t: outside a repeat the next word is repeated; inside one REP.p is written. -/
def Dev.meRep (d : Dev) (e v : Nat) (inside : Bool) : MeAns Dev :=
  if v = 0 ∨ 65536 < v then .trap 0x0B v
  else if inside then .ok (d.modMe e (fun m => m.setPort 0x0E2 v))
  else .ok (d.modMe e (fun m => { m with rep := v }))

/-- R293: STIME tick `t` has reached `v`. -/
def timeCame (now v : Nat) : Bool := decide ((now + 2 ^ 32 - v % 2 ^ 32) % 2 ^ 32 < 2 ^ 31)

/-- R293: TIME.wait. -/
def Dev.meWait (d : Dev) (e v : Nat) : Dev :=
  if timeCame (d.now % 2 ^ 32) v then d else (d.modMe e (fun m => { m with waitFor := some v })).meState e 3

/-- R294: the engine's record queue is not empty, or an event bit of `m` is set. -/
def Me.wakes (x : Me) (m : Nat) : Bool := !x.recs.isEmpty || (x.events &&& (m % 65536)) != 0

/-- R294: TIME.slp. -/
def Dev.meSleep (d : Dev) (e v : Nat) : MeAns Dev :=
  if 65536 ≤ v then .trap 0x0B v
  else if (d.me e).wakes v then .ok d
  else .ok ((d.modMe e (fun m => { m with sleepFor := v })).meState e 2)

/-- R285: an I/O write or read of engine `e`, on its way from issue tick `t`. -/
def Dev.meIo (d : Dev) (e t off : Nat) (x : MeIo) : MeAns Dev :=
  if off % 4 ≠ 0 ∨ 0x7FFC < off then .trap 0x0E off else .ok (d.meSend e (t + 4) x)

/-- R286: a Coach request of the port, 0 an insert, 1 a cancel; a fifth outstanding one waits. -/
def Dev.meCoach (d : Dev) (e v : Nat) : MeAns Dev :=
  let m := d.me e
  if 1 < v then .trap 0x0B v
  else if 4 ≤ m.coachOut then .wait
  else
    let d := d.modMe e (fun m => { m with coachOut := m.coachOut + 1 })
    let en := Entry.of (m.port 0x111 * 2 ^ 32 + m.port 0x110) (m.port 0x113 * 2 ^ 32 + m.port 0x112)
    let refuse := d.modMe e (fun m => { m with coachDone := m.coachDone ++ [(1, 0)] })
    if v = 0 then
      if en.bad false then .ok refuse
      else .ok (d.modSlice (meQ e) (fun s => { s with offers := s.offers ++ [{ who := .port e, e := en }] }))
    else if 1 < en.ktype then .ok refuse
    else .ok (d.cancelStart (meQ e) (.port e) en.tag (en.ktype == 1) en.axis)

/-- R287: REC.t: the oldest record moves into REC.w0 to w7, due two cycles later. -/
def Dev.meRec (d : Dev) (e t : Nat) : Dev :=
  (d.modMe e (fun m =>
    let w := (m.recs.head?).getD []
    (List.range 8).foldl (fun m k => m.later (t + 4) (0x120 + k) (w.getD k 0)) { m with recs := m.recs.drop 1 })).meLostPlace e

/-- R299: a byte enters a CRC register under a polynomial. -/
def crcByte (poly crc b : Nat) : Nat :=
  (List.range 8).foldl (fun c _ => if 0x8000 ≤ c then ((2 * c) % 65536) ^^^ poly else 2 * c) (crc ^^^ ((b % 256) * 256))

/-- R299: CRC.b or CRC.w, from CRC.v as the previous cycle left it. -/
def Dev.meCrc (d : Dev) (e crc v : Nat) (word : Bool) : Dev :=
  d.modMe e (fun m =>
    let poly := m.port 0x300
    m.setPort 0x301 (if word then [24, 16, 8, 0].foldl (fun c s => crcByte poly c (v >>> s)) crc else crcByte poly crc v))

/-- R300: with 32 rows filled and the drain bank empty, the banks swap two cycles on. -/
def Me.xpArm (m : Me) (t : Nat) : Me :=
  if m.fill.length = 32 ∧ m.drain = [] ∧ m.swapAt = none then { m with swapAt := some (t + 4) } else m

/-- R300: XP.in. -/
def Dev.meXpIn (d : Dev) (e t v : Nat) : MeAns Dev :=
  if 32 ≤ (d.me e).fill.length then .trap 0x10 (d.me e).xpSt
  else .ok (d.modMe e (fun m => { m with fill := m.fill ++ [v] }.xpArm t))

/-- R300: a read of XP.out: the column and the engine after it. -/
def Me.xpOut (m : Me) (t : Nat) : Option (Nat × Me) :=
  match m.drain with
  | [] => none
  | c :: r => some (c, { m with drain := r }.xpArm t)

/-- R300: column `j` of 32 rows. -/
def xpColumn (rows : List Nat) (j : Nat) : Nat := (List.range 32).foldl (fun v i => setBitAt v i (bitAt (rows.getD i 0) j)) 0

/-- R300: the banks swap. -/
def Me.xpSwap (m : Me) (t : Nat) : Me :=
  match m.swapAt with
  | some s => if s ≤ t then { m with fill := [], drain := (List.range 32).map (xpColumn m.fill), swapAt := none } else m
  | none => m

/-- R288: BIT.tas takes the bit at `a`: it is set, and BIT.r shows what it was. -/
def Dev.tasTake (d : Dev) (e a : Nat) : Dev :=
  let old := d.meBit e 0 a
  (if a < 0x2000 then d.semSet e a true else d.privSet e a true).modMe e (fun m => m.setPort 0x066 (b2n old))

/-- R288, R290: BIT.tas at address `a` by a word of issue tick `t`: a semaphore is taken at the end of the cycle, in index order. -/
def Dev.meTas (d : Dev) (e a t : Nat) : MeAns Dev :=
  match bitAccess a with
  | .semaphore => .ok (d.meSend e t (.tas a))
  | .private_ => .ok (d.tasTake e a)
  | _ => .trap 0x0D a

/-- The word that a trigger belongs to: its issue tick, its address, whether it is repeated, and CRC.v before it. -/
structure MeCtx where
  /-- issue tick -/
  t : Nat
  /-- address of the word -/
  pc : Nat
  /-- the word is repeated -/
  inside : Bool
  /-- CRC.v as the previous cycle left it -/
  crc : Nat

/-- R276: trigger port `p` takes the value `v`. -/
def Dev.meTrigger (d : Dev) (e : Nat) (x : MeCtx) (p v : Nat) : MeAns Dev :=
  if p = 0x060 then .ok (d.modMe e (fun m => m.setPort (0x2000 + bits v 16 5) (bits v 0 16)))
  else if p = 0x063 then d.meBitWrite e (bits v 0 16) x.t true
  else if p = 0x064 then d.meBitWrite e (bits v 0 16) x.t false
  else if p = 0x065 then d.meTas e (bits v 0 16) x.t
  else if p < 0x090 then .ok (d.meAlu e (p - 0x083) v)
  else if p = 0x091 then .ok (d.meMul e x.t v true)
  else if p = 0x092 then .ok (d.meMul e x.t v false)
  else if p = 0x09A then d.meLut e x.t v
  else if p = 0x0A1 then d.meLoad e x.t v
  else if p = 0x0A4 then d.meStore e ((d.me e).port 0x0A0) v
  else if p < 0x0A8 then d.meAtomic e (p - 0x0A5) v
  else if p = 0x0A9 then d.meIrd e x.t v
  else if p = 0x0AD then d.meIwr e v
  else if p < 0x0C0 then d.meAgu e x.t (p - 0x0B8) v false
  else if p < 0x0C8 then d.meAgu e x.t (p - 0x0C0) v true
  else if p = 0x0D0 then .ok (d.meJump e x.t (v % 16384) 2)
  else if p = 0x0D8 then d.meCall e x.t x.pc v
  else if p = 0x0D9 then d.meRet e x.t
  else if p = 0x0E0 then d.meRep e v x.inside
  else if p = 0x0F2 then .ok (d.meWait e v)
  else if p = 0x0F3 then d.meSleep e v
  else if p = 0x101 then d.meIo e x.t ((d.me e).port 0x100) (.wr ((d.me e).port 0x100) (BitVec.ofNat 32 v))
  else if p = 0x102 then d.meIo e x.t v (.rd v)
  else if p = 0x114 then d.meCoach e v
  else if p = 0x118 then .ok (d.meRec e x.t)
  else if p = 0x1F4 then .ok ((d.put (ME_STATUS_INTRAP e) 0).meJump e x.t (v % 16384) 2)
  else if p = 0x1F5 then .trap 0x11 v
  else if p = 0x302 then .ok (d.meCrc e x.crc v false)
  else if p = 0x303 then .ok (d.meCrc e x.crc v true)
  else if p = 0x310 then d.meXpIn e x.t v
  else if p = 0x313 then .ok (d.modMe e (fun m => { m with fill := [], drain := [], swapAt := none }))
  else .trap 0x02 p

/-! ## Reading and writing ports -/

/-- R288: the value of a listed bit; an unlisted address traps. -/
def Dev.meBitRead (d : Dev) (e : Nat) (lanes : Lanes) (a : Nat) : MeAns Nat :=
  if bitAccess a = .none then .trap 0x0D a else .ok (b2n (d.meBit e lanes a))

/-- R289: BIT.w: the first of 32 bits that is not listed traps. -/
def Dev.meBits (d : Dev) (e : Nat) (lanes : Lanes) (a : Nat) : MeAns Nat :=
  match firstIdx (fun i => bitAccess (a + i) == .none) 0 32 with
  | some i => .trap 0x0D (a + i)
  | none => .ok ((List.range 32).foldl (fun v i => setBitAt v i (d.meBit e lanes (a + i))) 0)

/-- R293: ECLK cycles since the last start. -/
def Dev.meCycles (d : Dev) (e : Nat) : Nat :=
  match (d.me e).started with
  | some s => (d.tick - s) / 2
  | none => 0

/-- R286: COACH.st as the oldest result makes it, and the engine without it. -/
def Me.coachSt (m : Me) : Nat × Me :=
  match m.coachRes with
  | [] => (0, m)
  | r :: l => (2 ^ 31 + b2n m.coachLost * 2 ^ 30 + (r.2 % 65536) * 2 ^ 8 + r.1, { m with coachRes := l, coachLost := false })

/-- R293: TIME.lo, and the state with the engine's TIME.hi latched. -/
def Dev.meTimeLo (d : Dev) (e : Nat) : Nat × Dev :=
  (d.now % 2 ^ 32, d.modMe e (fun m => m.setPort 0x0F1 (d.now >>> 32)))

/-- R271, R276: a word reads port `p` on its issue tick: the value and the state after the read. -/
def Dev.meRead (d : Dev) (e : Nat) (lanes : Lanes) (p : Nat) : MeAns (Nat × Dev) :=
  let m := d.me e
  match portKind p with
  | .absent => .trap 0x03 p
  | .undefined | .trigger => .trap 0x02 p
  | _ =>
    if 0x040 ≤ p ∧ p ≤ 0x05F then (d.meBitRead e lanes (m.port (0x2000 + (p - 0x040)))).bind (fun v => .ok (v, d))
    else if p = 0x062 then (d.meBitRead e lanes (m.port 0x061)).bind (fun v => .ok (v, d))
    else if p = 0x067 then (d.meBits e lanes (m.port 0x061 / 32 * 32)).bind (fun v => .ok (v, d))
    else if p = 0x0A2 ∨ p = 0x0A3 then
      if m.load.isSome then .wait
      else if p = 0x0A2 ∧ m.port 0x1000 ≠ 0 then .trap 0x0F (m.port 0x1000 - 1)
      else .ok (m.port p, d)
    else if p = 0x0E1 then .ok (m.rep - 1, d)
    else if p = 0x0F0 then .ok (d.meTimeLo e)
    else if p = 0x0F4 then .ok (d.meCycles e % 2 ^ 32, d)
    else if p = 0x115 then .ok (m.coachSt.1, d.modMe e (fun m => m.coachSt.2))
    else if p = 0x119 then .ok (m.recs.length, d)
    else if p = 0x1F1 then .ok (d.get (ME_EPC_EPC e), d)
    else if p = 0x1F2 then .ok (d.get (ME_CAUSE_CAUSE e), d)
    else if p = 0x1F3 then .ok (d.get (ME_TVAL_TVAL e), d)
    else if p = 0x1F6 then .ok (e, d)
    else if p = 0x1F7 then .ok (d.get (ME_STATUS_IMAGE e), d)
    else if p = 0x311 then
      match m.xpOut d.tick with
      | some (c, m) => .ok (c, d.modMe e (fun _ => m))
      | none => .trap 0x10 m.xpSt
    else if p = 0x312 then .ok (m.xpSt, d)
    else .ok (m.port p, d)

/-- R276: the bits that a register port holds. -/
def portMask (p v : Nat) : Nat :=
  if p = 0x061 ∨ p = 0x300 ∨ p = 0x301 then v % 65536 else if p = 0x1F0 then v % 16 else v % 2 ^ 32

/-- R271: a word of issue tick `t` writes register port `p`. -/
def Dev.meWrite (d : Dev) (e t p v : Nat) : MeAns Dev :=
  if 0x040 ≤ p ∧ p ≤ 0x05F then d.meBitWrite e ((d.me e).port (0x2000 + (p - 0x040))) t (bitAt v 0)
  else if p = 0x062 then d.meBitWrite e ((d.me e).port 0x061) t (bitAt v 0)
  else if p = 0x1F0 then
    .ok (d.modMe e (fun (m : Me) => { (m.setPort p (v % 16)) with
      hist := (d.tick, d.get (ME_STATUS_STATE e), m.port 0x1F0) :: m.hist.filter (fun h => d.tick < h.1 + 8) }))
  else .ok (d.modMe e (fun m => m.setPort p (portMask p v)))

/-! ## Words -/

/-- One move of a word: destination and source, a port or an immediate. -/
structure MeMove where
  /-- destination port (09 R268) -/
  dst : Nat
  /-- source port, or the value of the immediate (09 R268) -/
  src : Nat ⊕ Nat
  deriving DecidableEq, Repr

/-- R268: a slot; none where it is ill-formed. -/
def slotOf (w : Nat) : Option MeMove :=
  let dst := bits w 21 10
  if bitAt w 20 then some ⟨dst, .inr (uns 32 (sgn 20 (bits w 0 20)))⟩
  else if bits w 0 10 ≠ 0 then none
  else some ⟨dst, .inl (bits w 10 10)⟩

/-- R274: a destination port that cannot be written. -/
def dstTrap (p : Nat) : Option (Nat × Nat) :=
  match portKind p with
  | .absent => some (0x03, p)
  | .undefined | .result => some (0x02, p)
  | _ => none

/-- R274: a source port that cannot be read. -/
def srcTrap : Nat ⊕ Nat → Option (Nat × Nat)
  | .inr _ => none
  | .inl p => match portKind p with
    | .absent => some (0x03, p)
    | .undefined | .trigger => some (0x02, p)
    | _ => none

/-- R268: the slot moves G0 into G0 and has no effect. -/
def MeMove.noop (m : MeMove) : Bool := m.dst == 0 && m.src == .inl 0

/-- R274, R292: what makes a word of these moves trap before it reads; the first cause that holds. -/
def movesTrap (ms : List MeMove) (inside : Bool) : Option (Nat × Nat) :=
  match ms.findSome? (fun m => (dstTrap m.dst).or (srcTrap m.src)) with
  | some x => some x
  | none =>
    let pair := match ms with
      | [a, b] => if a.noop || b.noop then none
        else if a.dst = b.dst then some (0x04, a.dst)
        else if portKind a.dst = .trigger ∧ portKind b.dst = .trigger ∧ portUnit a.dst = portUnit b.dst then some (0x05, b.dst)
        else none
      | _ => none
    match pair with
    | some x => some x
    | none => if ms.any (fun m => portRedirects m.dst) && (inside || ms.any (fun m => m.dst == 0x0E0)) then some (0x0C, 0) else none

/-- R271: the sources of the moves are read in order. -/
def Dev.meSources (e : Nat) (lanes : Lanes) : List MeMove → Dev → MeAns (List (Nat × Nat) × Dev)
  | [], d => .ok ([], d)
  | m :: r, d =>
    (match m.src with
      | .inr v => MeAns.ok (v, d)
      | .inl p => d.meRead e lanes p).bind (fun x =>
        (Dev.meSources e lanes r x.2).bind (fun y => .ok ((m.dst, x.1) :: y.1, y.2)))

/-- R272, R288: where a destination port stands in the course of a word: register ports, then ports that write a bit, then triggers, and the
look-up, which sees the stores of its own cycle, last. Log 68. -/
def sinkRank (p : Nat) : Nat :=
  if (0x040 ≤ p ∧ p ≤ 0x05F) ∨ (0x062 ≤ p ∧ p ≤ 0x065) then 1 else if portKind p = .reg then 0 else if p = 0x09A then 3 else 2

/-- R272, R290: the moves of a word write their ports, those of one rank in slot order. -/
def Dev.meSinks (e : Nat) (x : MeCtx) (ps : List (Nat × Nat)) (d : Dev) : MeAns Dev :=
  ([0, 1, 2, 3].flatMap (fun r => ps.filter (fun p => sinkRank p.1 == r))).foldl
    (fun a p => a.bind (fun d => if portKind p.1 = .reg then d.meWrite e x.t p.1 p.2 else d.meTrigger e x p.1 p.2)) (MeAns.ok d)

/-- R266, R292: the address after a word that does not redirect, and the repeat counts. A step past 16,383 traps. -/
def Dev.meAdvance (d : Dev) (e pc : Nat) (rep : Nat) : MeAns Dev :=
  let d := d.modMe e (fun m => { m with next := d.tick + 2 })
  if 1 < rep then .ok (d.modMe e (fun m => { m with rep := rep - 1 }))
  else if pc = 16383 then .trap 0x0A 16384
  else
    let d := d.put (ME_PC_PC e) (pc + 1)
    .ok (if rep = 1 then d.modMe e (fun (m : Me) => { (m.setPort 0x0E2 0) with rep := m.port 0x0E2 }) else d)

/-- R268, R271 to R275: a word of moves; no-op slots do nothing. -/
def Dev.meMoves (d : Dev) (e : Nat) (lanes : Lanes) (pc : Nat) (ms : List MeMove) : MeAns Dev :=
  let m := d.me e
  let x : MeCtx := { t := d.tick, pc, inside := decide (0 < m.rep), crc := m.port 0x301 }
  match movesTrap ms x.inside with
  | some (c, t) => .trap c t
  | none =>
    let redirects := ms.any (fun m => portRedirects m.dst)
    let ms := ms.filter (fun m => !m.noop)
    (Dev.meSources e lanes ms d).bind (fun s =>
      (Dev.meSinks e x s.1 s.2).bind (fun d => if redirects then .ok d else d.meAdvance e pc m.rep))

/-- R269: the condition of a compare-and-branch word; none where the code is undefined. -/
def meCond (c a b : Nat) : Option Bool :=
  match c with
  | 0 => some (a == b)
  | 1 => some (a != b)
  | 2 => some (decide (sgn 32 a < sgn 32 b))
  | 3 => some (decide (sgn 32 b ≤ sgn 32 a))
  | 4 => some (decide (a < b))
  | 5 => some (decide (b ≤ a))
  | 6 => some ((a &&& b) != 0)
  | 7 => some ((a &&& b) == 0)
  | 8 => some true
  | _ => none

/-- R269, R275: a compare-and-branch word. -/
def Dev.meBranch (d : Dev) (e : Nat) (lanes : Lanes) (pc w : Nat) : MeAns Dev :=
  let bimm := bitAt w 47
  let rep := (d.me e).rep
  if 8 < bits w 58 4 ∨ (!bimm ∧ bits w 27 10 ≠ 0) ∨ bits w 20 7 ≠ 0 then .trap 0x01 (w / 2 ^ 32) else
  let a : Nat ⊕ Nat := .inl (bits w 48 10)
  let b : Nat ⊕ Nat := if bimm then .inr (uns 32 (sgn 20 (bits w 27 20))) else .inl (bits w 37 10)
  match (srcTrap a).or (srcTrap b) with
  | some (c, t) => .trap c t
  | none =>
    if 0 < rep then .trap 0x0C 0 else
    (Dev.meSources e lanes [⟨0, a⟩, ⟨0, b⟩] d).bind (fun s =>
      let va := ((s.1.head?).getD (0, 0)).2
      let vb := ((s.1.getLast?).getD (0, 0)).2
      if (meCond (bits w 58 4) va vb).getD false then
        let t : Int := (pc : Int) + sgn 20 (bits w 0 20)
        if t < 0 ∨ 16383 < t then .trap 0x0A (uns 32 t) else .ok (s.2.meJump e d.tick t.toNat 2)
      else s.2.meAdvance e pc 0)

/-- R267 to R270: the word `w` at `pc` acts. -/
def Dev.meWord (d : Dev) (e : Nat) (lanes : Lanes) (pc w : Nat) : MeAns Dev :=
  match w / 2 ^ 62 with
  | 0 => match slotOf (bits w 31 31), slotOf (bits w 0 31) with
    | some a, some b => d.meMoves e lanes pc [a, b]
    | _, _ => .trap 0x01 (w / 2 ^ 32)
  | 1 => d.meBranch e lanes pc w
  | 2 => if bits w 32 20 ≠ 0 then .trap 0x01 (w / 2 ^ 32) else d.meMoves e lanes pc [⟨bits w 52 10, .inr (bits w 0 32)⟩]
  | _ => .trap 0x01 (w / 2 ^ 32)

/-- The engine's clock runs and its quadrant is up. -/
def Dev.meUp (d : Dev) (e : Nat) : Bool := d.tb.running && !d.quadDown (meQ e) && !d.napping

/-- R266: the engine may issue a word on this tick. -/
def Dev.meIssues (d : Dev) (e : Nat) : Bool :=
  let st := d.get (ME_STATUS_STATE e)
  d.meUp e && (st == 1 || (st == 3 && (d.me e).waitFor.isNone)) && !(d.me e).stopping && decide ((d.me e).next ≤ d.tick) && d.now % 2 == 0

/-- R266, R295: the engine issues the word at PC, where it is of one of the formats `fs`. -/
def Dev.meIssue (d : Dev) (e : Nat) (lanes : Lanes) (fs : List Nat) : Dev :=
  if !d.meIssues e then d else
  let d := d.modMe e (fun m => m.settle d.tick)
  let pc := d.get (ME_PC_PC e)
  let w := (d.me e).word (d.get (ME_STATUS_IMAGE e)) pc
  if !fs.contains (w / 2 ^ 62) then d else
  match d.meWord e lanes pc w with
  | .ok r => let st := r.get (ME_STATUS_STATE e); if st = 3 ∧ (r.me e).waitFor = none then r.meState e 1 else r
  | .trap c t => d.meTrap e c t pc w
  | .wait => d.meState e 3

/-- A trigger of one unit as an operation of its own, by the word at PC, on this tick: a trap and a wait act as for a word. -/
def Dev.meAlone (d : Dev) (e p v : Nat) : Dev :=
  let d := d.modMe e (fun m => m.settle d.tick)
  let pc := d.get (ME_PC_PC e)
  let m := d.me e
  match d.meTrigger e { t := d.tick, pc, inside := decide (0 < m.rep), crc := m.port 0x301 } p v with
  | .ok r => r
  | .trap c t => d.meTrap e c t pc (m.word (d.get (ME_STATUS_IMAGE e)) pc)
  | .wait => d.meState e 3

/-! ## Arrivals and waking -/

/-- R281, R282: the data of the outstanding load or atomic arrives. -/
def Dev.meArrive (d : Dev) (e : Nat) : Dev :=
  match d.mc.results.find? (fun r => r.who == .me e), (d.me e).load with
  | some r, some (a, kind) =>
    let d := { d with mc := { d.mc with results := removeFirst r d.mc.results } }
    let lo := if kind = 0 then dwordAt r.data a else r.data % 2 ^ 32
    d.modMe e (fun m =>
      let m := ({ m.settle d.tick with load := none }.setPort 0x0A2 lo).setPort 0x1000 (if r.err then a + 1 else 0)
      if kind = 2 then m.setPort 0x0A3 (r.data / 2 ^ 32 % 2 ^ 32) else m)
  | _, _ => d

/-- R293: the awaited tick has come. -/
def Dev.meWaitDone (d : Dev) (e : Nat) : Dev :=
  match (d.me e).waitFor with
  | some v =>
    if d.meUp e ∧ d.get (ME_STATUS_STATE e) = 3 ∧ d.now % 2 = 0 ∧ timeCame (d.now % 2 ^ 32) v ∧ (d.me e).next ≤ d.tick then
      (d.modMe e (fun m => { m with waitFor := none, next := d.tick })).meState e 1
    else d
  | none => d

/-- R294: a sleeping engine finds its condition. -/
def Dev.meWake (d : Dev) (e : Nat) : Dev :=
  if d.meUp e ∧ d.get (ME_STATUS_STATE e) = 2 ∧ (d.me e).wakes (d.me e).sleepFor then
    (d.modMe e (fun m => { m with next := d.evenTick (d.tick + 2) })).meState e 1
  else d

/-- R286: a settled Coach request places its result; one that finds the queue full is dropped. -/
def Dev.meCoachDone (d : Dev) (e : Nat) : Dev :=
  let m := d.me e
  match m.coachDone with
  | [] => d
  | r :: l =>
    let d := d.modMe e (fun m => { m with coachDone := l, coachOut := m.coachOut - 1 })
    if m.coachRes.length < 4 then d.modMe e (fun m => { m with coachRes := m.coachRes ++ [r] })
    else (d.modMe e (fun m => { m with coachLost := true })).raise (ME_STATUS_COACHLOST e)

/-- R193, R290: event bit `k` of engine `e` is set. -/
def Dev.meEvent (d : Dev) (e k : Nat) : Dev := d.modMe e (fun m => { m with events := setBitAt m.events k true })

/-- R22, R289: the match of housekeeping timer `n` is on its way to every engine's own copy. -/
def Dev.meHk (n : Nat) (d : Dev) : Dev := forRange (fun e d => d.modMe e (fun m => { m with hkNext := setBitAt m.hkNext n true })) 0 8 d

/-- R22, R289: on an even tick the matches on their way reach the engine's copy. -/
def Dev.meHkCopy (d : Dev) (e : Nat) : Dev :=
  if d.now % 2 = 0 ∧ (d.me e).hkNext ≠ 0 then d.modMe e (fun m => { m with hk := m.hk ||| m.hkNext, hkNext := 0 }) else d

/-! ## Start, stop, reset, images -/

/-- R304, R419: the CALL registers are loaded from CALLRST. -/
def Dev.meCallRst (d : Dev) (e : Nat) : Dev :=
  let b := d.get (ME_CALLRST_BASE e)
  d.modMe e (fun m => ((m.setPort 0x0DA b).setPort 0x0DC b).setPort 0x0DB (d.get (ME_CALLRST_LIM e)))

/-- R198, R221, R259: the engine's halt or resume reaches what it owns for debug, on tick `t`. -/
def Dev.meOwned (d : Dev) (e t : Nat) (was : Nat → Bool) : Dev :=
  let q := meQ e
  let d := d.tcThaw q t was
  let d := d.feRefreezeQuad q t
  forRange (Dev.ibxRefreeze t) (16 * q) 16 d

/-- R198, R221, R259: the engine's state becomes `st`; where it was HALTED, what it owns for debug goes on from tick `t`. -/
def Dev.meLeave (d : Dev) (e st t : Nat) : Dev :=
  if d.get (ME_STATUS_STATE e) = 4 then
    let frozen := d.tcFrozen
    let d1 := d.meState e st
    d1.meOwned e t (fun n => frozen n && !d1.tcFrozen n)
  else d.meState e st

/-- R303: an engine reset; SYS.epc, SYS.cause and SYS.tval are result ports. -/
def Dev.meReset (d : Dev) (e : Nat) : Dev :=
  let clear (m : Me) : Me :=
    { (([0x066, 0x081, 0x082, 0x093, 0x094, 0x09B, 0x0A2, 0x0A3, 0x0AA, 0x0AB, 0x0E2, 0x0F1, 0x103, 0x1000] ++
        (List.range 8).map (0x120 + ·) ++ (List.range 8).map (0x0B0 + ·) ++ List.range 64).foldl (fun (x : Me) p => x.setPort p 0) m) with
      res := [], rep := 0, coachRes := [], coachLost := false, waitFor := none, started := none, stopping := false }
  let d := d.modMe e (fun m => (((clear m).setPort 0x0DA 0x7000).setPort 0x0DB 0x6C00).setPort 0x0DC 0x7000)
  let d := ((d.put (ME_EPC_EPC e) 0).put (ME_CAUSE_CAUSE e) 0).put (ME_TVAL_TVAL e) 0
  ((d.put (ME_CTL_EN e) 0).put (ME_STATUS_INTRAP e) 0).meLeave e 0 (d.tick + 2)

/-- R304: the engine goes to STOPPED at its word boundary. -/
def Dev.meBoundary (d : Dev) (e : Nat) : Dev :=
  let m := d.me e
  if m.stopping ∧ m.next ≤ d.tick ∧ d.get (ME_STATUS_STATE e) = 1 then (d.modMe e (fun m => { m with stopping := false })).meState e 0 else d

/-- R304: a write of CTL. -/
def Dev.meCtl (d : Dev) (e v : Nat) : Dev :=
  if bitAt v 0 then d.meReset e else
  let was := d.flag (ME_CTL_EN e)
  let on := bitAt v 31
  let d := d.putB (ME_CTL_EN e) on
  if on && !was then
    let t := d.evenTick (d.tick + 1)
    let d := ((d.put (ME_STATUS_INTRAP e) 0).put (ME_PC_PC e) (d.get (ME_ENTRY_ENTRY e))).meCallRst e
    (d.modMe e (fun (m : Me) => { (m.setPort 0x0E2 0) with next := t, rep := 0, started := some t, waitFor := none, stopping := false })).meState e 1
  else if was && !on then
    if d.get (ME_STATUS_STATE e) = 1 ∧ d.tick + 1 < (d.me e).next then d.modMe e (fun m => { m with stopping := true })
    else (d.modMe e (fun m => { m with waitFor := none })).meLeave e 0 (d.tick + 2)
  else d

/-- R303, R417: a write of IMDATA_LO stores the held HI and the value at IMADDR, which advances; the active bank of an engine that is not
STOPPED, and a locked bank, are refused. -/
def Dev.meImdata (d : Dev) (e : Nat) (v : Word) : Dev :=
  let b := d.get (ME_IMADDR_BANK e)
  let a := d.get (ME_IMADDR_WORD e)
  let active := d.get (ME_STATUS_IMAGE e)
  if (b = active ∧ d.get (ME_STATUS_STATE e) ≠ 0) ∨ (b ≠ active ∧ d.meLocked e) then d.raise (ME_STATUS_REFUSED e) else
  ((d.setWord (ME_IMDATA_LO e) v).modMe e (fun m => m.setImg b a ((d.word (ME_IMDATA_HI e)).toNat * 2 ^ 32 + v.toNat))).put (ME_IMADDR_WORD e) (a + 1)

/-- R418, R419: the image swap of engine `e` with commit tick `c`. -/
def Dev.meSwap (d : Dev) (e c : Nat) : Dev :=
  let st := d.get (ME_STATUS_STATE e)
  let img := 1 - d.get (ME_STATUS_IMAGE e)
  let d := d.put (ME_STATUS_IMAGE e) img
  let entry := d.get (ME_ENTRY_ENTRY e)
  let d := d.spineRec { typ := 0x14, sub := 0, src := e, at_ := { time := d.stimeAt c, clkSw := d.inWindow }, p0 := img, p1 := entry }
  if st = 0 ∨ st = 5 then d else
  let d := ((d.put (ME_STATUS_INTRAP e) 0).put (ME_PC_PC e) entry).meCallRst e
  let d := d.modMe e (fun (m : Me) => { (m.setPort 0x0E2 0) with rep := 0, waitFor := none, next := d.evenTick (c + 2), before := 1 })
  if st = 4 then d else d.meState e 1

/-- R303: a read of CYC_LO latches CYC_HI. -/
def Dev.meCycRead (d : Dev) (e : Nat) : Word × Dev :=
  let c := d.meCycles e
  (BitVec.ofNat 32 c, d.setWord (ME_CYC_HI e) (BitVec.ofNat 32 (c >>> 32)))

/-! ## Debug -/

/-- R302: the debugger halts the engine at its next word boundary. -/
def Dev.meHalt (d : Dev) (e : Nat) : Dev :=
  let st := d.get (ME_STATUS_STATE e)
  if st = 1 ∨ st = 2 ∨ st = 3 then
    ((d.modMe e (fun m => { m with before := st })).meState e 4).meOwned e d.tick (fun _ => false)
  else d

/-- R302: the engine resumes: its next word issues, or it waits again, on the first even tick at or after the resume tick + 2. -/
def Dev.meResume (d : Dev) (e : Nat) : Dev :=
  if d.get (ME_STATUS_STATE e) = 4 then
    (d.modMe e (fun m => { m with next := d.evenTick (d.tick + 2) })).meLeave e (d.me e).before (d.tick + 1)
  else d

/-! ## Meanings: words -/

/-- ME_TWO_MOVE_WORD (R271); a word of the reserved format traps here. -/
def execMeTwoMoveWord (e : Fin 8) (lanes : Lanes) (s : State) : Host.Outcome State Fault Refusal := onDev s (fun d => d.meIssue e lanes [0, 3])
/-- ME_COMPARE_BRANCH (R269). -/
def execMeCompareBranch (e : Fin 8) (lanes : Lanes) (s : State) : Host.Outcome State Fault Refusal := onDev s (fun d => d.meIssue e lanes [1])
/-- ME_LONG_IMMEDIATE (R270). -/
def execMeLongImmediate (e : Fin 8) (lanes : Lanes) (s : State) : Host.Outcome State Fault Refusal := onDev s (fun d => d.meIssue e lanes [2])

/-! ## Meanings: triggers -/

/-- ALU_ADD (R277). -/
def execAluAdd (e : Fin 8) (v : Word) (s : State) : Host.Outcome State Fault Refusal := onDev s (fun d => d.meAlone e 0x083 v.toNat)
/-- ALU_SUB (R277). -/
def execAluSub (e : Fin 8) (v : Word) (s : State) : Host.Outcome State Fault Refusal := onDev s (fun d => d.meAlone e 0x084 v.toNat)
/-- ALU_AND (R277). -/
def execAluAnd (e : Fin 8) (v : Word) (s : State) : Host.Outcome State Fault Refusal := onDev s (fun d => d.meAlone e 0x085 v.toNat)
/-- ALU_OR (R277). -/
def execAluOr (e : Fin 8) (v : Word) (s : State) : Host.Outcome State Fault Refusal := onDev s (fun d => d.meAlone e 0x086 v.toNat)
/-- ALU_XOR (R277). -/
def execAluXor (e : Fin 8) (v : Word) (s : State) : Host.Outcome State Fault Refusal := onDev s (fun d => d.meAlone e 0x087 v.toNat)
/-- ALU_SHL (R277). -/
def execAluShl (e : Fin 8) (v : Word) (s : State) : Host.Outcome State Fault Refusal := onDev s (fun d => d.meAlone e 0x088 v.toNat)
/-- ALU_SHR (R277). -/
def execAluShr (e : Fin 8) (v : Word) (s : State) : Host.Outcome State Fault Refusal := onDev s (fun d => d.meAlone e 0x089 v.toNat)
/-- ALU_SAR (R277). -/
def execAluSar (e : Fin 8) (v : Word) (s : State) : Host.Outcome State Fault Refusal := onDev s (fun d => d.meAlone e 0x08A v.toNat)
/-- ALU_MIN (R277). -/
def execAluMin (e : Fin 8) (v : Word) (s : State) : Host.Outcome State Fault Refusal := onDev s (fun d => d.meAlone e 0x08B v.toNat)
/-- ALU_MAX (R277). -/
def execAluMax (e : Fin 8) (v : Word) (s : State) : Host.Outcome State Fault Refusal := onDev s (fun d => d.meAlone e 0x08C v.toNat)
/-- ALU_ADDC (R277). -/
def execAluAddc (e : Fin 8) (v : Word) (s : State) : Host.Outcome State Fault Refusal := onDev s (fun d => d.meAlone e 0x08D v.toNat)
/-- ALU_SUBB (R277). -/
def execAluSubb (e : Fin 8) (v : Word) (s : State) : Host.Outcome State Fault Refusal := onDev s (fun d => d.meAlone e 0x08E v.toNat)
/-- MUL_T (R278). -/
def execMulT (e : Fin 8) (v : Word) (s : State) : Host.Outcome State Fault Refusal := onDev s (fun d => d.meAlone e 0x091 v.toNat)
/-- MUL_TU (R278). -/
def execMulTu (e : Fin 8) (v : Word) (s : State) : Host.Outcome State Fault Refusal := onDev s (fun d => d.meAlone e 0x092 v.toNat)
/-- LUT_T (R279). -/
def execLutT (e : Fin 8) (v : Word) (s : State) : Host.Outcome State Fault Refusal := onDev s (fun d => d.meAlone e 0x09A v.toNat)
/-- LSU_LD (R281). -/
def execLsuLd (e : Fin 8) (v : Word) (s : State) : Host.Outcome State Fault Refusal := onDev s (fun d => d.meAlone e 0x0A1 v.toNat)
/-- LSU_ST (R281). -/
def execLsuSt (e : Fin 8) (v : Word) (s : State) : Host.Outcome State Fault Refusal := onDev s (fun d => d.meAlone e 0x0A4 v.toNat)
/-- LSU_FAA (R282). -/
def execLsuFaa (e : Fin 8) (v : Word) (s : State) : Host.Outcome State Fault Refusal := onDev s (fun d => d.meAlone e 0x0A5 v.toNat)
/-- LSU_FAA64 (R282). -/
def execLsuFaa64 (e : Fin 8) (v : Word) (s : State) : Host.Outcome State Fault Refusal := onDev s (fun d => d.meAlone e 0x0A6 v.toNat)
/-- LSU_SWP (R282). -/
def execLsuSwp (e : Fin 8) (v : Word) (s : State) : Host.Outcome State Fault Refusal := onDev s (fun d => d.meAlone e 0x0A7 v.toNat)
/-- LSU_IRD (R283). -/
def execLsuIrd (e : Fin 8) (v : Word) (s : State) : Host.Outcome State Fault Refusal := onDev s (fun d => d.meAlone e 0x0A9 v.toNat)
/-- LSU_IWR (R283). -/
def execLsuIwr (e : Fin 8) (v : Word) (s : State) : Host.Outcome State Fault Refusal := onDev s (fun d => d.meAlone e 0x0AD v.toNat)
/-- BR_T (R275). -/
def execBrT (e : Fin 8) (v : Word) (s : State) : Host.Outcome State Fault Refusal := onDev s (fun d => d.meAlone e 0x0D0 v.toNat)
/-- CALL_T (R291). -/
def execCallT (e : Fin 8) (v : Word) (s : State) : Host.Outcome State Fault Refusal := onDev s (fun d => d.meAlone e 0x0D8 v.toNat)
/-- CALL_RET (R291). -/
def execCallRet (e : Fin 8) (v : Word) (s : State) : Host.Outcome State Fault Refusal := onDev s (fun d => d.meAlone e 0x0D9 v.toNat)
/-- REP_T (R292). -/
def execRepT (e : Fin 8) (v : Word) (s : State) : Host.Outcome State Fault Refusal := onDev s (fun d => d.meAlone e 0x0E0 v.toNat)
/-- TIME_WAIT (R293). -/
def execTimeWait (e : Fin 8) (v : Word) (s : State) : Host.Outcome State Fault Refusal := onDev s (fun d => d.meAlone e 0x0F2 v.toNat)
/-- TIME_SLP (R294). -/
def execTimeSlp (e : Fin 8) (v : Word) (s : State) : Host.Outcome State Fault Refusal := onDev s (fun d => d.meAlone e 0x0F3 v.toNat)
/-- IO_WR (R285). -/
def execIoWr (e : Fin 8) (v : Word) (s : State) : Host.Outcome State Fault Refusal := onDev s (fun d => d.meAlone e 0x101 v.toNat)
/-- IO_RD (R285). -/
def execIoRd (e : Fin 8) (v : Word) (s : State) : Host.Outcome State Fault Refusal := onDev s (fun d => d.meAlone e 0x102 v.toNat)
/-- REC_T (R287). -/
def execRecT (e : Fin 8) (v : Word) (s : State) : Host.Outcome State Fault Refusal := onDev s (fun d => d.meAlone e 0x118 v.toNat)
/-- SYS_ERET (R295). -/
def execSysEret (e : Fin 8) (v : Word) (s : State) : Host.Outcome State Fault Refusal := onDev s (fun d => d.meAlone e 0x1F4 v.toNat)
/-- SYS_TRAP (R295). -/
def execSysTrap (e : Fin 8) (v : Word) (s : State) : Host.Outcome State Fault Refusal := onDev s (fun d => d.meAlone e 0x1F5 v.toNat)
/-- BIT_MAP (R288). -/
def execBitMap (e : Fin 8) (v : Word) (s : State) : Host.Outcome State Fault Refusal := onDev s (fun d => d.meAlone e 0x060 v.toNat)
/-- BIT_SET (R288). -/
def execBitSet (e : Fin 8) (v : Word) (s : State) : Host.Outcome State Fault Refusal := onDev s (fun d => d.meAlone e 0x063 v.toNat)
/-- BIT_CLR (R288). -/
def execBitClr (e : Fin 8) (v : Word) (s : State) : Host.Outcome State Fault Refusal := onDev s (fun d => d.meAlone e 0x064 v.toNat)
/-- BIT_TAS (R288). -/
def execBitTas (e : Fin 8) (v : Word) (s : State) : Host.Outcome State Fault Refusal := onDev s (fun d => d.meAlone e 0x065 v.toNat)
/-- CRC_B (R299). -/
def execCrcB (e : Fin 8) (v : Word) (s : State) : Host.Outcome State Fault Refusal := onDev s (fun d => d.meAlone e 0x302 v.toNat)
/-- CRC_W (R299). -/
def execCrcW (e : Fin 8) (v : Word) (s : State) : Host.Outcome State Fault Refusal := onDev s (fun d => d.meAlone e 0x303 v.toNat)
/-- XP_IN (R300). -/
def execXpIn (e : Fin 8) (v : Word) (s : State) : Host.Outcome State Fault Refusal := onDev s (fun d => d.meAlone e 0x310 v.toNat)
/-- XP_CLR (R300). -/
def execXpClr (e : Fin 8) (v : Word) (s : State) : Host.Outcome State Fault Refusal := onDev s (fun d => d.meAlone e 0x313 v.toNat)
/-- AGU_LD (R284). -/
def execAguLd (e k : Fin 8) (v : Word) (s : State) : Host.Outcome State Fault Refusal := onDev s (fun d => d.meAlone e (0x0B8 + k) v.toNat)
/-- AGU_ST (R284). -/
def execAguSt (e k : Fin 8) (v : Word) (s : State) : Host.Outcome State Fault Refusal := onDev s (fun d => d.meAlone e (0x0C0 + k) v.toNat)
/-- COACH_PORT_INSERT (R286). -/
def execCoachPortInsert (e : Fin 8) (s : State) : Host.Outcome State Fault Refusal := onDev s (fun d => d.meAlone e 0x114 0)
/-- COACH_PORT_CANCEL (R286). -/
def execCoachPortCancel (e : Fin 8) (s : State) : Host.Outcome State Fault Refusal := onDev s (fun d => d.meAlone e 0x114 1)

/-! ## Meanings: results, waking, debug -/

/-- LSU_LOAD_DATA_ARRIVE (R281). -/
def execLsuLoadDataArrive (e : Fin 8) (s : State) : Host.Outcome State Fault Refusal := onDev s (fun d => d.meArrive e)
/-- TIME_LO_READ (R293). -/
def execTimeLoRead (e : Fin 8) (s : State) : Host.Outcome State Fault Refusal := onDev s (fun d => (d.meTimeLo e).2.emit (.ioData e 0x0F0 (BitVec.ofNat 32 (d.meTimeLo e).1)))
/-- TIME_WAIT_EXPIRE (R293). -/
def execTimeWaitExpire (e : Fin 8) (s : State) : Host.Outcome State Fault Refusal := onDev s (fun d => d.meWaitDone e)
/-- ME_SLEEP_WAKE (R294). -/
def execMeSleepWake (e : Fin 8) (s : State) : Host.Outcome State Fault Refusal := onDev s (fun d => d.meWake e)
/-- COACH_REQUEST_DONE (R286). -/
def execCoachRequestDone (e : Fin 8) (s : State) : Host.Outcome State Fault Refusal := onDev s (fun d => d.meCoachDone e)
/-- COACH_ST_READ (R286). -/
def execCoachStRead (e : Fin 8) (s : State) : Host.Outcome State Fault Refusal :=
  onDev s (fun d => (d.modMe e (fun m => m.coachSt.2)).emit (.ioData e 0x115 (BitVec.ofNat 32 (d.me e).coachSt.1)))
/-- XP_OUT_READ (R300): a read from an empty drain bank traps XP_ORDER. -/
def execXpOutRead (e : Fin 8) (s : State) : Host.Outcome State Fault Refusal :=
  onDev s (fun d => match (d.me e).xpOut d.tick with
    | some (c, m) => (d.modMe e (fun _ => m)).emit (.ioData e 0x311 (BitVec.ofNat 32 c))
    | none => d.meTrap e 0x10 (d.me e).xpSt (d.get (ME_PC_PC e)) ((d.me e).word (d.get (ME_STATUS_IMAGE e)) (d.get (ME_PC_PC e))))
/-- XP_BANK_SWAP (R300). -/
def execXpBankSwap (e : Fin 8) (s : State) : Host.Outcome State Fault Refusal := onDev s (fun d => d.modMe e (fun m => m.xpSwap d.tick))
/-- HK_COUNT (R51). -/
def execHkCount (n : Fin 32) (s : State) : Host.Outcome State Fault Refusal := onDev s (fun d => d.hkCount Dev.meHk n)

end Sys2Proof.Machine
end

