-- ==== Sys2Proof/Machine/Ring.lean ====
section
/-! DEFINITION. Rings, credits and the way to a target: sizes and occupancy of the rings, the credits of R12 and R13, and the status that
the ring registers show. -/

namespace Sys2Proof.Machine

/-- R339, R370: the size of a ring: values outside 4 to 16 act as the nearest. -/
def ringSize (log2 : Nat) : Nat := 2 ^ clampN 4 16 log2

/-- R370: the size of submission ring `k`. -/
def Dev.srSize (d : Dev) (k : Nat) : Nat := ringSize (d.get (SR_CFG_LOG2SZ k))

/-- R371: the size of return ring `k`. -/
def Dev.rrSize (d : Dev) (k : Nat) : Nat := ringSize (d.get (RR_CFG_LOG2SZ k))

/-- How far `b` lies ahead of `a`, going forward round a ring of `n` slots. -/
def ringDist (n a b : Nat) : Nat := (b % n + n - a % n) % n

/-- R342: records between head and tail of return ring `k`. -/
def Dev.rrUsed (d : Dev) (k : Nat) : Nat := ringDist (d.rrSize k) (d.get (RR_HEAD_HEAD k)) (d.get (RR_TAIL_TAIL k))

/-- R343: slots of completion ring `k` held by descriptors in flight. -/
def Dev.rrResv (d : Dev) (k : Nat) : Nat := (d.host.flights.filter (fun x => x.cq == k && !x.orphan)).length

/-- R343, R382: free slots of return ring `k`; an event ring reserves none. -/
def Dev.rrFree (d : Dev) (k : Nat) : Nat :=
  d.rrSize k - 1 - d.rrUsed k - (if d.flag (RR_CFG_TYPE k) then 0 else d.rrResv k)

/-! ## Credits -/

/-- R12: credits of queue `x` that travel back. -/
def Dev.inTransit (d : Dev) (x : FabricQueue) : Nat := (d.host.credits.filter (fun c => c.x == x)).length

/-- R12: an item has left queue `x`: its credit arrives four FCLK cycles later. -/
def Dev.creditBack (d : Dev) (x : FabricQueue) : Dev :=
  { d with host := { d.host with credits := d.host.credits ++ [{ x, due := d.tick + 4 }] } }

/-- R12: the credit of the queue from host interface to quadrant `q`. -/
def fqDesc (q : Nat) : FabricQueue := .descriptor (Fin.ofNat 4 q)
/-- R13: the completion credit of quadrant `q`. -/
def fqComp (q : Nat) : FabricQueue := .completion (Fin.ofNat 4 q)
/-- R12: the credit of the record queue of quadrant `q`. -/
def fqRec (q : Nat) : FabricQueue := .record (Fin.ofNat 4 q)

/-- R12, R345: descriptors that wait at target `t`: a quadrant 0 to 3, the spine 4. -/
def Dev.waiting (d : Dev) (t : Nat) : Nat := (d.host.flights.filter (fun x => x.target == t && x.stage == 0)).length

/-- R13: descriptors of target `t` in flight. -/
def Dev.inFlight (d : Dev) (t : Nat) : Nat := (d.host.flights.filter (fun x => x.target == t)).length

/-- R13, R345: completion credits free for target `t`. -/
def Dev.compCredits (d : Dev) (t : Nat) : Nat :=
  if t < 4 then 32 - d.inFlight t - d.inTransit (fqComp t) else 16 - d.inFlight 4 - d.inTransit .spineCompletion

/-- R12, R345: credits of the queue to target `t`. -/
def Dev.descCredits (d : Dev) (t : Nat) : Nat :=
  if t < 4 then 32 - d.waiting t - d.inTransit (fqDesc t) else 16 - d.waiting 4 - d.inTransit .spine

/-- R12, R14: entries of the record queue of quadrant `q` that an event record may take. -/
def Dev.recCredits (d : Dev) (q : Nat) : Nat := 992 - (d.quad q).recq.length - d.inTransit (fqRec q)

/-! ## Descriptors at the head of a ring -/

end Sys2Proof.Machine

namespace Sys2Proof
open Machine

/-- R348: a field of the descriptor's header. -/
def Desc.hdr (x : Desc) (lo w : Nat) : Nat := bits x.d0.toNat lo w
/-- R348: OPCODE. -/
def Desc.op (x : Desc) : Nat := x.hdr 0 8
/-- R348: PARAM. -/
def Desc.param (x : Desc) : Nat := x.hdr 32 32
/-- R348: FENCE. -/
def Desc.fence (x : Desc) : Bool := x.hdr 11 1 == 1
/-- R350: the opcodes whose target is a quadrant. -/
def quadOps : List Nat := [0x01, 0x10, 0x11, 0x12, 0x30, 0x31, 0x32]
/-- R345, R350: the target of a descriptor; an undefined opcode goes to the spine. -/
def Desc.target (x : Desc) : Nat := if quadOps.contains x.op then x.hdr 8 2 else 4

end Sys2Proof

namespace Sys2Proof.Machine

/-- R370: descriptors of submission ring `k` forwarded and not yet completed. -/
def Dev.srFlights (d : Dev) (k : Nat) : List Flight := d.host.flights.filter (fun x => x.sr == k && !x.orphan)

/-- R346: the next descriptor of ring `k` waits on FENCE. -/
def Dev.srFenced (d : Dev) (k : Nat) : Bool :=
  match (d.sring k).buf with
  | x :: _ => x.fence && !(d.srFlights k).isEmpty
  | [] => false

/-- R13, R345: the next descriptor of ring `k` finds a credit of its target and a slot of its completion ring. -/
def Dev.srRoom (d : Dev) (k : Nat) : Bool :=
  match (d.sring k).buf with
  | x :: _ => decide (0 < d.compCredits x.target) && decide (0 < d.descCredits x.target) && decide (0 < d.rrFree (d.get (SR_CFG_CQ k)))
  | [] => true

/-- R370: STATUS of submission ring `k`. -/
def Dev.srStatus (d : Dev) (k : Nat) : Nat :=
  let b := (d.sring k).buf.length
  let n := (d.srFlights k).length
  (bits (d.word (SR_STATUS k)).toNat 0 3) + b * 2 ^ 16 + n * 2 ^ 6 + b2n (b == 0 && n == 0) * 32 + b2n (d.srFenced k) * 16 +
    b2n (!d.srFenced k && !d.srRoom k) * 8

/-- R371: STATUS of return ring `k`. -/
def Dev.rrStatus (d : Dev) (k : Nat) : Nat :=
  d.rrResv k * 2 ^ 16 + bits (d.word (RR_STATUS k)).toNat 0 2 + d.get (RR_STATUS_P k) * 8 + b2n (d.rrFree k == 0) * 4

/-- R369: HIF.STATUS as function `f` reads it. -/
def Dev.hifStatus (d : Dev) (f : Nat) : Nat :=
  b2n (d.manager == f) * 256 + (List.range 4).foldl (fun n q => n + b2n (d.qOwner q == f) * 2 ^ (4 + q)) 0 + b2n (d.fn f).d3 * 8 +
    b2n d.host.detached * 4 + b2n (d.fn f).bme * 2 + b2n d.host.linkUp

/-- R368: HIF.CRED. -/
def Dev.hifCred (d : Dev) : Nat :=
  d.compCredits 4 * 2 ^ 24 + d.compCredits 3 * 2 ^ 18 + d.compCredits 2 * 2 ^ 12 + d.compCredits 1 * 2 ^ 6 + d.compCredits 0

end Sys2Proof.Machine
end

