-- ==== Sys2Proof/Machine/Records.lean ====
section
/-! DEFINITION. Event records from the collector to their destinations, rings and interrupts (R14 to R16, R372 to R391). -/

namespace Sys2Proof.Machine

/-! ## The collector -/

/-- R15: the block or target that a record names. -/
def Rec.block (r : Rec) : Nat := if r.typ = 4 then r.p0 % 256 else r.src

/-- R15: the pending record that the collector of quadrant `q` takes next: round robin over the sources, then ascending SUB and block. -/
def Dev.collectNext (d : Dev) (q : Nat) : Option PendRec :=
  let x := d.quad q
  let rank (p : PendRec) : Nat := ((p.source + 0x190 - x.lastSource - 1) % 0x190) * 2 ^ 24 + p.r.sub * 2 ^ 16 + p.r.block
  (x.pend.filter (fun p => decide (p.due ≤ d.tick))).foldl (fun best p => match best with
    | none => some p
    | some b => if rank p < rank b then some p else some b) none

/-- R14, R15: the collector moves one record of this tick into the record queue; it is dropped and counted where the 992 entries are full. -/
def Dev.recordCollect (d : Dev) (q : Nat) : Dev :=
  if ¬ d.tb.running ∨ d.quadDown q ∨ (d.quad q).collected = d.tick + 1 then d else
  match d.collectNext q with
  | none => d
  | some p =>
    let room := decide (0 < d.recCredits q)
    let d := d.modQuad q (fun x => { x with
      pend := removeFirst p x.pend
      lastSource := p.source
      collected := d.tick + 1
      recq := if room then x.recq ++ [{ avail := d.tick + 3, r := p.r }] else x.recq })
    if room then d else d.incSat (RECQ_DROP_CNT q)

/-- R375: a spine record enters the buffer of 64, or is dropped and counted. -/
def Dev.spineBuffer (d : Dev) : Dev :=
  match d.ru.raised with
  | [] => d
  | r :: rest =>
    let d := { d with ru := { d.ru with raised := rest } }
    if d.ru.spine.length < 64 then { d with ru := { d.ru with spine := d.ru.spine ++ [r] } } else d.incSat RECU_SPDROP_CNT

/-! ## Interrupts -/

/-- R385: a message of vector `vec` may be sent for function `f`. -/
def Dev.msixOk (d : Dev) (f vec : Nat) : Bool :=
  let x := d.fn f
  x.msixEn && !x.fmask && x.bme && !bitAt (Tab.get (1 : Word) x.table (4 * vec + 3)).toNat 0

/-- R384, R385: the message of ring `k` is due: it is sent, or its vector becomes pending. -/
def Dev.ringMessage (d : Dev) (k : Nat) : Dev :=
  let f := d.rrOwner k
  let vec := d.get (RR_IRQ_VEC k)
  let d := { d with ru := { d.ru with sent := Tab.set 0 d.ru.sent k 1 } }
  if d.msixOk f vec then (d.put (RR_IRQ_DUE k) 0).emit (.msix f vec)
  else (d.raise (RR_IRQ_DUE k)).modFn f (fun x => { x with pba := if x.pba.contains vec then x.pba else x.pba ++ [vec] })

/-- R384: the moderation timer of ring `k` starts. -/
def Dev.ringTimer (d : Dev) (k : Nat) : Dev :=
  ({ d with ru := { d.ru with modEnd := Tab.set 0 d.ru.modEnd k (d.tick + usTicks (min 1000 (d.get (RR_IRQ_MOD k)))) } }).raise (RR_IRQ_TIMING k)

/-- R384: ring `k` is armed. -/
def Dev.ringArm (d : Dev) (k : Nat) : Dev :=
  ({ d with ru := { d.ru with sent := Tab.set 0 d.ru.sent k 0 } }).raise (RR_IRQ_ARMED k)

/-- R384: a record has been written to ring `k`: an armed ring starts its timer and is disarmed. -/
def Dev.ringWrote (d : Dev) (k : Nat) : Dev :=
  if d.flag (RR_IRQ_ARMED k) then (d.put (RR_IRQ_ARMED k) 0).ringTimer k else d

/-- R386: records of ring `k` in the hold buffer of its owner. -/
def Dev.heldFor (d : Dev) (k : Nat) : Nat := ((Tab.get [] d.ru.held (d.rrOwner k)).filter (fun x => x.1 == k)).length

/-- R384, R386: the moderation timer of ring `k` expires. -/
def Dev.irqExpire (d : Dev) (k : Nat) : Dev :=
  if ¬ (d.flag (RR_IRQ_TIMING k) ∧ Tab.get 0 d.ru.modEnd k ≤ d.tick) then d else
  let f := d.rrOwner k
  let d := ({ d with ru := { d.ru with modEnd := Tab.set 0 d.ru.modEnd k 0 } }).put (RR_IRQ_TIMING k) 0
  if ¬ d.flag (RR_IRQ_EN k) ∨ d.rrUsed k + d.heldFor k = 0 then d
  else if (d.fn f).d3 then
    let d := (d.raise (RR_IRQ_DUE k)).modFn f (fun x => { x with pmeStatus := true })
    if (d.fn f).pmeEn then d.emit (.pme f) else d
  else d.ringMessage k

/-- R385: a pending message of vector `vec` of function `f` is sent once all conditions allow it. -/
def Dev.msixPending (d : Dev) (f vec : Nat) : Dev :=
  if (d.fn f).pba.contains vec ∧ d.msixOk f vec then
    let d := (d.modFn f (fun x => { x with pba := x.pba.filter (fun v => v != vec) })).emit (.msix f vec)
    forRange (fun k d => if d.rrOwner k = f ∧ d.get (RR_IRQ_VEC k) = vec then d.put (RR_IRQ_DUE k) 0 else d) 0 32 d
  else d

/-! ## Event rings -/

/-- R342, R382: the record enters slot tail of ring `k`, which advances; P changes when it wraps. -/
def Dev.ringPut (d : Dev) (k : Nat) (r : Rec) (seq : Nat) : Dev :=
  let t := d.get (RR_TAIL_TAIL k)
  let p := d.get (RR_STATUS_P k)
  let d := d.emit (.event k t (r.dwords seq p))
  let d := if t + 1 = d.rrSize k then (d.put (RR_TAIL_TAIL k) 0).put (RR_STATUS_P k) (1 - p) else d.put (RR_TAIL_TAIL k) (t + 1)
  d.ringWrote k

/-- R382: the report of the records lost at ring `k` is written as soon as a slot is free. -/
def Dev.ringLostPlace (d : Dev) (k : Nat) : Dev :=
  let x := Tab.get (0, 0, 0) d.ru.ringLost k
  if x.1 = 0 ∨ d.rrFree k = 0 ∨ ¬ d.flag (RR_CFG_EN k) then d else
  let d := { d with ru := { d.ru with ringLost := Tab.set (0, 0, 0) d.ru.ringLost k (0, 0, 0) } }
  (d.put (RR_LOST_PEND k) 0).ringPut k (d.lostRec 0 k x.1 x.2.2) x.2.1

/-- R382: a record for ring `k` with sequence number `seq` is lost. -/
def Dev.ringLose (d : Dev) (k : Nat) (r : Rec) (seq : Nat) : Dev :=
  let x := Tab.get (0, 0, 0) d.ru.ringLost k
  let y := if x.1 = 0 then (1, seq, r.at_.time) else (x.1 + 1, x.2.1, x.2.2)
  (({ d with ru := { d.ru with ringLost := Tab.set (0, 0, 0) d.ru.ringLost k y } }).incSat (RR_LOST_DROPPED k)).raise (RR_LOST_PEND k)

/-- R382: a record is written to ring `k`, after any report that waits, or lost where no slot is free. -/
def Dev.ringWrite (d : Dev) (k : Nat) (r : Rec) (seq : Nat) : Dev :=
  let d := d.ringLostPlace k
  if d.rrFree k = 0 then d.ringLose k r seq else d.ringPut k r seq

/-- R363: a write towards the host is dropped and counted. -/
def Dev.hostDrop (d : Dev) : Dev := d.incSat HIF_DETACH_DROP_CNT

/-- R378, R383, R386: a record routed to event ring `k`. -/
def Dev.toRing (d : Dev) (k : Nat) (r : Rec) : Dev :=
  if d.host.detached then
    let d := d.hostDrop
    if d.ru.detachFirst = none then { d with ru := { d.ru with detachFirst := some r.at_.time } } else d
  else if ¬ d.flag (RR_CFG_EN k) ∨ ¬ d.flag (RR_CFG_TYPE k) then d.incSat RECU_OFFDROP_CNT
  else
    let seq := Tab.get 0 d.ru.ringSeq k
    let d := { d with ru := { d.ru with ringSeq := Tab.set 0 d.ru.ringSeq k ((seq + 1) % 65536) } }
    let f := d.rrOwner k
    if (d.fn f).d3 then
      let h := Tab.get [] d.ru.held f
      if h.length < 256 then
        ({ d with ru := { d.ru with held := Tab.set [] d.ru.held f (h ++ [(k, seq, r)]) } }).ringWrote k
      else d.ringLose k r seq
    else d.ringWrite k r seq

/-! ## Engine queues -/

/-- R379, R381: a record is offered to the queue of engine `e`, after any report that waits. -/
def Dev.toEngine (d : Dev) (r : Rec) (e : Nat) : Dev :=
  let d := d.meLostPlace e
  let seq := Tab.get 0 d.ru.meSeq e
  let d := { d with ru := { d.ru with meSeq := Tab.set 0 d.ru.meSeq e ((seq + 1) % 65536) } }
  if (d.me e).recs.length < 64 then d.modMe e (fun m => { m with recs := m.recs ++ [r.dwords seq 0] })
  else
    let x := Tab.get (0, 0, 0) d.ru.meLost e
    let y := if x.1 = 0 then (1, seq, r.at_.time) else (x.1 + 1, x.2.1, x.2.2)
    ({ d with ru := { d.ru with meLost := Tab.set (0, 0, 0) d.ru.meLost e y } }).incSat (MEDROP_MEDROP_CNT e)

/-- R379, R380: engine `e` may take a record: its state as it stood four FCLK cycles before. -/
def Dev.eligible (d : Dev) (e : Nat) : Bool :=
  let st := (d.meAt e (d.tick - 4)).1
  d.flag (ME_CTL_EN e) && (st == 1 || st == 2 || st == 3) && decide ((d.me e).recs.length < 64)

/-- R379: how an engine ranks; the lowest takes the record: asleep below awake, then among awake engines SYS.pri, then the index (log 48). -/
def Dev.engineRank (d : Dev) (e : Nat) : Nat :=
  let x := d.meAt e (d.tick - 4)
  (if x.1 = 2 then 0 else 2 ^ 40 + x.2 * 8) + e

/-- R379, R381: the engines of a route. -/
def Dev.toEngines (d : Dev) (mask : Nat) (all : Bool) (r : Rec) : Dev :=
  let named := (List.range 8).filter (fun e => bitAt mask e)
  if named.isEmpty then d
  else if all then named.foldl (fun d e => d.toEngine r e) d
  else
    match (named.filter (fun e => d.eligible e)).foldl (fun (b : Option Nat) e => match b with
      | none => some e
      | some x => if d.engineRank e < d.engineRank x then some e else some x) none with
    | some e => d.toEngine r e
    | none => d.incSat RECU_NOENG_CNT

/-! ## Acceptance -/

/-- R377, R390: the route word that governs a record accepted on this tick. -/
def Dev.routeWord (d : Dev) (o t : Nat) : Nat :=
  let x := Tab.get (0, 0) d.ru.routeOld (32 * o + t)
  if d.tick + 1 < x.2 + 4 ∧ x.2 ≠ 0 then x.1 else (d.word (ROUTE_ROUTE o t)).toNat

/-- R377: the record unit accepts a record and sends it to every destination its route names. -/
def Dev.accept (d : Dev) (r : Rec) : Dev :=
  let w := d.routeWord r.orig r.typ
  let d := if bitAt w 31 then d.toRing (bits w 24 5) r else d
  d.toEngines (bits w 0 8) (bitAt w 30) r

/-- R16: the record that quadrant `q` has ready for the record unit. -/
def Dev.recReady (d : Dev) (q : Nat) : Option Rec :=
  match (d.quad q).recq with
  | x :: _ => if x.avail ≤ d.tick then some x.r else none
  | [] => none

/-- R16, R375: the record unit takes one record: the spine buffer has a turn between two turns of the quadrants. -/
def Dev.recordAccept (d : Dev) : Dev :=
  let quad := ([1, 2, 3, 4].map (fun i => (d.ru.lastQuad + i) % 4)).find? (fun q => (d.recReady q).isSome)
  match d.ru.spine, quad, d.ru.spineTurn with
  | r :: rest, some _, true => ({ d with ru := { d.ru with spine := rest, spineTurn := false } }).accept r
  | r :: rest, none, _ => ({ d with ru := { d.ru with spine := rest, spineTurn := false } }).accept r
  | _, some q, _ =>
    match d.recReady q with
    | some r =>
      let d := (d.modQuad q (fun x => { x with recq := x.recq.drop 1 })).creditBack (fqRec q)
      ({ d with ru := { d.ru with lastQuad := q, spineTurn := true } }).accept r
    | none => d
  | [], none, _ => d

/-! ## Registers -/

/-- R390: a write of ROUTE[o][t]: one that sets HOST for another function's ring, or MEMASK for an engine of another function's quadrant, is
dropped and counted; `f` is the writing function, none where no function writes. -/
def Dev.routeWrite (d : Dev) (f : Option Nat) (o t : Nat) (v : Nat) : Dev :=
  let bad := match f with
    | some f =>
      (bitAt v 31 && d.rrOwner (bits v 24 5) != f) ||
      (f != d.manager && (List.range 8).any (fun e => bitAt v e && d.qOwner (e / 2) != f))
    | none => false
  if bad then d.incSat HIF_OWNVIOL_CNT else
  let old := d.routeWord o t
  let d := { d with ru := { d.ru with routeOld := Tab.set (0, 0) d.ru.routeOld (32 * o + t) (old, d.tick + 1) } }
  d.setWord (ROUTE_ROUTE o t) (BitVec.ofNat 32 v)

/-- R376: the numbers that name a record source. -/
def isSource (n : Nat) : Bool :=
  decide (n < 0x152) || (decide (0x160 ≤ n) && decide (n < 0x172)) || n == 0x178 || n == 0x179 || (decide (0x180 ≤ n) && decide (n < 0x190))

/-- R376: a write of SDCNT sets the count of the selected source. -/
def Dev.sdcntWrite (d : Dev) (q v : Nat) : Dev :=
  let n := d.get (SDSEL_SDSEL_SRC q)
  if isSource n then d.modQuad q (fun x => { x with drops := Tab.set 0 x.drops n (v % 256) }) else d

/-! ## Meanings -/

/-- RECORD_COLLECT (R15). -/
def execRecordCollect (q : Fin 4) (s : State) : Host.Outcome State Fault Refusal := onDev s (fun d => d.recordCollect q)
/-- RECORD_ACCEPT (R377). -/
def execRecordAccept (s : State) : Host.Outcome State Fault Refusal := onDev s (fun d => d.recordAccept)
/-- SPINE_RECORD_BUFFER (R375). -/
def execSpineRecordBuffer (s : State) : Host.Outcome State Fault Refusal := onDev s (fun d => d.spineBuffer)
/-- IRQ_MODERATION_EXPIRE (R384). -/
def execIrqModerationExpire (k : Fin 32) (s : State) : Host.Outcome State Fault Refusal := onDev s (fun d => d.irqExpire k)
/-- MSIX_PENDING_SEND (R385). -/
def execMsixPendingSend (f : Fin 4) (vec : Fin 64) (s : State) : Host.Outcome State Fault Refusal := onDev s (fun d => d.msixPending f vec)

end Sys2Proof.Machine
end

