-- ==== Sys2Proof/Machine/RegRead.lean ====
section
/-! DEFINITION. Reading the registers of BAR0: what each register shows, the reads that have an effect of their own, and who may read. -/

namespace Sys2Proof.Machine

/-- A number as a register word. -/
def w32 (n : Nat) : Word := BitVec.ofNat 32 n

/-! ## What a register shows -/

/-- R414: the writes that all groups hold. -/
def Dev.storeUsed (d : Dev) : Nat := d.cmt.groups.foldl (fun n p => n + p.2.writes.length) 0

/-- R398: the writes of the staging port of quadrant `q` that have not landed. -/
def Dev.portPend (d : Dev) (q : Nat) : Nat :=
  d.cmt.groups.foldl (fun n p => n + (p.2.writes.filter (fun w => w.flight.isNone && w.q == q && !w.landed)).length) 0

/-- R92 to R126: a register of axis `a`, its estimator and its emulator. -/
def Dev.peekAxis (d : Dev) (a o : Nat) (v : Word) : Word :=
  match o with
  | 0x004 => w32 (d.axStatus a)
  | 0x03C => w32 (d.twAvg a / 64)
  | 0x060 => w32 (uns 64 (d.axShown a).pos)
  | 0x064 => w32 (uns 64 (d.axShown a).pos >>> 32)
  | 0x068 => w32 (d.axShown a).at_.time
  | 0x06C => w32 ((d.axShown a).at_.time >>> 32)
  | 0x070 => w32 (d.axShown a).flags
  | 0x088 => w32 (d.estStat a)
  | 0x090 => w32 (uns 64 (d.axis a).vel)
  | 0x094 => w32 (uns 64 (d.axis a).vel >>> 32)
  | 0x098 => w32 (uns 64 (d.axXpos a))
  | 0x09C => w32 (uns 64 (d.axXpos a) >>> 32)
  | 0x110 => w32 (uns 48 (d.emu a).c)
  | 0x114 => w32 (uns 48 (d.emu a).c >>> 32)
  | 0x120 => w32 (d.emuStatus a)
  | _ => v

/-- R219, R220, R228: STATUS of generator `n`. FINE_QUANT reads 1 until CAL_DONE (R47), from the cold reset on, though R228 gives it the Reset value 0
(log 63). -/
def Dev.feStatus (d : Dev) (n : Nat) : Nat :=
  let idle := d.feIsIdle n
  let v := (d.word (FE_STATUS n)).toNat
  setBitAt (setBitAt (setBitAt (setBitAt v 0 (d.feRuns n)) 1 idle) 2 (d.feActive n)) 12 (!d.calDone (n / 64))

/-- R262: STATUS of ibex `e`. -/
def Dev.ibxStatus (d : Dev) (e : Nat) : Nat :=
  let d := d.ibxSettle e
  setBitAt (putBits (putBits (putBits (d.word (IBX_STATUS e)).toNat 29 3 (d.ibxState e)) 12 4 (d.ibx e).tx.length) 8 4 (d.ibx e).rx.length)
    3 (d.ibxLaneErr e)

/-- R449: whole seconds left in the presence window. -/
def Dev.presLeft (d : Dev) : Nat :=
  match d.svc.presOpen with
  | some t => (t + 60 * 800000000 - d.tick) / 800000000
  | none => 0

/-- R441: TESTSTAT: a test that runs or waits, and the tests behind it. -/
def Dev.testStat (d : Dev) : Nat :=
  match d.svc.running with
  | some (r, _) => 2 ^ 31 + d.svc.queue.length * 2 ^ 24 + r.kind * 2 ^ 16 + r.index
  | none => d.svc.queue.length * 2 ^ 24

/-- R474: an active axis has not latched since wake. -/
def Dev.axStale (d : Dev) : Bool := (List.range 8).any (fun a => (d.axis a).stale && d.get (AXIS_CFG_MODE a) != 0)

/-- What the register at `off` shows to function `f` without any effect of a read; the high half of a 64-bit value is the present one (R410). -/
def Dev.peekAt (d : Dev) (f : Nat) (l : Loc) (off : Nat) : Word :=
  let v := d.word off
  let i := l.i
  let r : Word := match l.gid, l.info.off with
    | .glb, 0x000 => w32 (putBits v.toNat 8 8 (bits (d.fw 2) 8 8))
    | .glb, 0x004 => w32 (b2n (!bitAt (d.fw 9) 9) * 128 + bits (d.fw 4) 11 1 * 64 + bits (d.fw 2) 2 1 * 32 + bits (d.fw 2) 0 2 * 8)
    | .cmt, 0x004 => w32 (1024 - d.storeUsed)
    | .cmtg, 0x000 => w32 (putBits v.toNat 0 9 (d.grp i).writes.length)
    | .hif, 0x000 => w32 (d.hifStatus f)
    | .hif, 0x00C => w32 d.hifCred
    | .sr, 0x014 => w32 (d.srStatus i)
    | .rr, 0x014 => w32 (d.rrStatus i)
    | .sdsel, 0x004 => w32 (Tab.get 0 (d.quad i).drops (d.get (SDSEL_SDSEL_SRC i)))
    | .hold, 0x000 => w32 (Tab.get [] d.ru.held i).length
    | .tb, 0x008 => w32 d.now
    | .tb, 0x00C => w32 (d.now >>> 32)
    | .fusest, 0x000 => w32 (setBitAt v.toNat 1 (bitAt (d.fw 4) 31))
    | .svcpres, 0x000 => w32 (putBits (putBits v.toNat 16 8 d.svc.dbgLevel) 0 6 d.presLeft)
    | .svcpres, 0x004 => w32 (setBitAt v.toNat 2 (bitAt v.toNat 0 && bitAt (d.fw 9) 8))
    | .svc, 0x004 => w32 d.testStat
    | .pwr, 0x004 => w32 (putBits (setBitAt v.toNat 24 d.axStale) 0 20 d.pw.railGood)
    | .qstage, 0x010 => w32 (putBits v.toNat 8 8 (d.portPend i))
    | .axis, o => d.peekAxis i o v
    | .me, 0x020 => w32 (d.meCycles i)
    | .me, 0x024 => w32 (d.meCycles i >>> 32)
    | .qio, 0x000 => w32 (bits d.pw.railGood (4 * i) 4 + 16 * bits d.pw.railV33 (4 * i) 4 + 256 * bits d.pw.railGood (16 + i) 1 +
        512 * bits d.pw.railV33 (16 + i) 1)
    | .coach, 0x004 => w32 (d.coachStatus i)
    | .coach, 0x008 => w32 (putBits v.toNat 0 13 (d.slice i).hor.length)
    | .coach, 0x00C => w32 (putBits v.toNat 0 11 (d.slotsHeld i))
    | .coach, 0x018 => w32 (d.calBlocks i - blocksUsed (d.slice i).cal)
    | .car, 0x020 => w32 (d.carStatus i)
    | .car, 0x040 => w32 (d.carBase i)
    | .car, 0x044 => w32 (d.carBase i >>> 32)
    | .car, 0x048 => w32 (d.carVstat i)
    | .tpl, 0x00C => w32 (d.tplStatus i)
    | .tc, 0x008 => w32 (d.tcAt false i d.tick)
    | .tc, 0x018 => w32 (setBitAt (putBits v.toNat 17 3 (d.tc i).queue.length) 11 (d.tcFrozen i))
    | .feqidle, 0x000 => w32 (d.fw (16 + i))
    | .fe, 0x020 => w32 (d.feStatus i)
    | .fe, 0x030 => w32 (d.feBleft i)
    | .ibx, 0x00C => w32 (d.ibxStatus i)
    | .ibx, 0x018 => w32 (Tab.get 0x900000 (d.ibx i).prog (d.get (IBX_PADDR_PADDR i)))
    | .ibx, 0x064 => (d.ibxSettle i).word off
    | _, _ => v
  r &&& w32 (l.info.rw ||| l.info.ro ||| l.info.w1c)

/-- What the register at `off` shows to the manager; 0 in a hole (R507). -/
def Dev.peek (d : Dev) (off : Nat) : Word :=
  match locate off with
  | some l => d.peekAt d.manager l off
  | none => 0

/-! ## Reads with an effect of their own -/

/-- R32: a read of a LO half latches the HI half at `off + 4`. -/
def Dev.latchHi (d : Dev) (f : Nat) (l : Loc) (off : Nat) (hi : Word) : Word × Dev :=
  (d.peekAt f l off, { d with latched := Tab.set 0 d.latched (off + 4) hi })

/-- The HI half last latched. -/
def Dev.latchedHi (d : Dev) (off : Nat) : Word := Tab.get 0 d.latched off

/-- R71, R183, R189, R247, R252: registers of a quadrant's block whose read has an effect, beside a latched HI half. -/
def readActs (l : Loc) : Bool :=
  match l.gid, l.info.off with
  | .axis, 0x060 => true
  | .tc, 0x008 => true
  | .tcv, 0x000 => true
  | .ibx, 0x018 => true
  | .ibx, 0x028 => true
  | _, _ => false

/-- R504: a read of the register at `off` by a reader that its block belongs to, with its effect. -/
def Dev.readOwn (d : Dev) (w : Sender) (f : Nat) (l : Loc) (off : Nat) : Word × Dev :=
  let i := l.i
  match l.gid, l.info.off with
  | .tb, 0x008 => d.stimeLoRead
  | .tb, 0x00C => (d.word off, d)
  | .hk, 0x008 => d.hkCntLoRead i
  | .hk, 0x00C => (d.latchedHi off, d)
  | .axis, 0x010 => d.latchHi f l off (d.word (off + 4))
  | .axis, 0x014 => (d.latchedHi off, d)
  | .axis, 0x060 => d.lposRead i
  | .axis, 0x090 => d.latchHi f l off (w32 (uns 64 (d.axis i).vel >>> 32))
  | .axis, 0x094 => (d.latchedHi off, d)
  | .axis, 0x098 => d.latchHi f l off (w32 (uns 64 (d.axXpos i) >>> 32))
  | .axis, 0x09C => (d.latchedHi off, d)
  | .axis, 0x110 => d.latchHi f l off (w32 (uns 48 (d.emu i).c >>> 32))
  | .axis, 0x114 => (d.latchedHi off, d)
  | .me, 0x020 => d.meCycRead i
  | .me, 0x024 => (d.word off, d)
  | .car, 0x040 => d.carVbaseRead i
  | .car, 0x044 => (d.word off, d)
  | .car, 0x048 => (d.word off, d)
  | .tc, 0x008 => d.tcCntRead w i
  | .tc, 0x014 => match w with
    | .fn _ => (d.word off, d)
    | .me e => (w32 (if e.val % 2 = 0 then (d.tc i).lat0 else (d.tc i).lat1), d)
  | .tcv, 0x000 => d.tcCapRead i
  | .ibx, 0x018 => d.ibxPdataRead i
  | .ibx, 0x028 => (d.ibxSettle i).ibxRxRead i
  | _, _ => (d.peekAt f l off, d)

/-- R519: what function `f` reads in its MSI-X table and pending-bit array; vector control resets to masked (PRESUMED, log 10). -/
def Dev.msixRead (d : Dev) (f off : Nat) : Word :=
  let o := off - 0x6000
  if o < 0x400 then Tab.get (if o % 16 = 12 then 1 else 0) (d.fn f).table (o / 4)
  else if o < 0x408 then
    w32 ((List.range 32).foldl (fun n i => if (d.fn f).pba.contains (32 * ((o - 0x400) / 4) + i) then n + 2 ^ i else n) 0)
  else 0

/-- R337: another function's ring and bulk registers. -/
def Dev.foreign (d : Dev) (f : Nat) (l : Loc) : Bool :=
  match l.gid with
  | .bulk => l.i != f
  | .sr => d.srOwner l.i != f
  | .rr => d.rrOwner l.i != f
  | _ => false

/-- R2, R337, R504, R507: a BAR0 read by function `f`: a read with an effect in the block of a quadrant that `f` does not own returns 0 and
has none. -/
def Dev.hostRead (d : Dev) (f off : Nat) : Word × Dev :=
  if 0x6000 ≤ off ∧ off < 0x8000 then (d.msixRead f off, d) else
  match locate off with
  | none => (0, d)
  | some l =>
    if readActs l && d.qOwner l.q != f then (0, d)
    else d.readOwn (.fn (Fin.ofNat 4 f)) f l off

/-- R285: a read through I/O space by microengine `e` of its quadrant's block. -/
def Dev.ioRead (d : Dev) (e io : Nat) : Word × Dev :=
  let off := 0x10000 + (e / 2) * 0x8000 + io
  match locate off with
  | none => (0, d)
  | some l => d.readOwn (.me (Fin.ofNat 8 e)) d.manager l off

/-- A read by a sender. -/
def Dev.senderRead (d : Dev) (w : Sender) (off : Nat) : Word × Dev :=
  match w with
  | .fn f => d.hostRead f off
  | .me e => if 0x10000 + (e / 2) * 0x8000 ≤ off ∧ off < 0x18000 + (e / 2) * 0x8000 then d.ioRead e (off % 0x8000) else (0, d)

/-- A read by a sender, its value sent back. -/
def Dev.readOut (d : Dev) (w : Sender) (off : Nat) : Dev :=
  let r := d.senderRead w off
  match w with
  | .fn _ => r.2.emit (.readData off r.1)
  | .me e => r.2.emit (.ioData e (off % 0x8000) r.1)

/-! ## Meanings -/

/-- LPOS_LO_READ (R71). -/
def execLposLoRead (w : Sender) (a : Fin 8) (s : State) : Host.Outcome State Fault Refusal := onDev s (fun d => d.readOut w (AXIS_LPOS_LO a))
/-- CAR_VBASE_READ (R166). -/
def execCarVbaseRead (w : Sender) (a : Fin 8) (s : State) : Host.Outcome State Fault Refusal :=
  onDev s (fun d => d.readOut w (CAR_VBASE_LO a))
/-- TC_CNT_READ (R189). -/
def execTcCntRead (w : Sender) (n : Fin 1024) (s : State) : Host.Outcome State Fault Refusal := onDev s (fun d => d.readOut w (TC_CNT n))
/-- TC_CAPCNT_READ (R183). -/
def execTcCapcntRead (w : Sender) (n : Fin 1024) (s : State) : Host.Outcome State Fault Refusal :=
  onDev s (fun d => d.readOut w (TCV_CAPCNT n))
/-- IBEX_PDATA_READ (R252). -/
def execIbexPdataRead (w : Sender) (e : Fin 64) (s : State) : Host.Outcome State Fault Refusal := onDev s (fun d => d.readOut w (IBX_PDATA e))
/-- IBEX_RXDATA_READ (R247). -/
def execIbexRxdataRead (w : Sender) (e : Fin 64) (s : State) : Host.Outcome State Fault Refusal :=
  onDev s (fun d => d.readOut w (IBX_RXDATA e))
/-- ME_CYC_LO_READ (R303). -/
def execMeCycLoRead (w : Sender) (e : Fin 8) (s : State) : Host.Outcome State Fault Refusal := onDev s (fun d => d.readOut w (ME_CYC_LO e))
end Sys2Proof.Machine
end

