-- ==== Sys2Proof/Machine/Stage.lean ====
section
/-! DEFINITION. Staging into commit groups (R392 to R398), arming and aborting them (R403 to R406), and the lists of snapshot sets (R409). -/

namespace Sys2Proof.Machine

/-- R395: the registers that may be staged. -/
def stageable (l : Loc) : Bool :=
  match l.gid with
  | .axis => [0x000, 0x008, 0x00C, 0x010, 0x014, 0x020, 0x024, 0x028, 0x02C, 0x030, 0x034, 0x038, 0x080, 0x084, 0x100, 0x104, 0x108,
              0x10C, 0x118, 0x11C].contains l.info.off
  | .coach => [0x01C, 0x020, 0x024].contains l.info.off
  | .car => [0x000, 0x004, 0x008, 0x00C, 0x010, 0x014, 0x018, 0x01C, 0x034, 0x038].contains l.info.off
  | .tpl => [0x008, 0x010].contains l.info.off
  | .tc => [0x000, 0x004, 0x008, 0x00C, 0x010, 0x01C].contains l.info.off
  | .sinksel => true
  | .xline => true
  | .convw => true
  | .fe => [0x000, 0x004, 0x008, 0x00C, 0x010, 0x014, 0x018, 0x01C].contains l.info.off
  | .feq => true
  | .ibx => [0x000, 0x008, 0x048].contains l.info.off
  | .mv => [0x000, 0x004, 0x008, 0x00C, 0x010, 0x014].contains l.info.off
  | _ => false

/-- R193: the sinks that exist. -/
def sinkExists (n : Nat) : Bool := decide (n < 0x182) || (0x190 ≤ n && n < 0x1C4)

/-- R394, R395: the quadrant whose commit buffer takes a write to `off`, where `off` may be staged; a move unit belongs to the quadrant of
its index (log 47). -/
def stageQuad (off : Nat) : Option Nat :=
  match locate off with
  | some l =>
    if !stageable l || (l.gid == .sinksel && !sinkExists (l.i % 452)) then none
    else some (if l.gid == .mv then l.i / 16 else l.q)
  | none => none

/-- R396: the place of a staged write: a register offset, or for an image swap a number of its own. -/
def Staged.place (w : Staged) : Nat := match w.swap with
  | some e => 0x40000 + e
  | none => w.off

/-- R397: the writes of a list whose places group `g` does not hold yet, each place once. -/
def Dev.stageNew (d : Dev) (g : Nat) (ws : List Staged) : List Staged :=
  ws.foldl (fun acc w => if ((d.grp g).writes ++ acc).any (fun x => x.place == w.place) then acc else acc ++ [w]) []

/-- R397: the writes that the commit buffer of quadrant `q` holds or will hold. -/
def Dev.bufferUsed (d : Dev) (q : Nat) : Nat :=
  d.cmt.groups.foldl (fun n p => n + (p.2.writes.filter (fun w => w.q == q)).length) 0

/-- R397: the limits of a group, of the store and of the commit buffers allow the writes. -/
def Dev.stageFits (d : Dev) (g : Nat) (ws : List Staged) : Bool :=
  let new := d.stageNew g ws
  decide ((d.grp g).writes.length + new.length ≤ 256) && decide (d.storeUsed + new.length ≤ 1024) &&
  (List.range 4).all (fun q => decide (d.bufferUsed q + (new.filter (fun w => w.q == q)).length ≤ 512))

/-- R393: the claim of group `g` admits claimant `owner`: 0 to 3 function, 4 to 7 staging port. -/
def Dev.grpAdmits (d : Dev) (g owner : Nat) : Bool := d.grpState g == 0 || d.get (CMTG_STATE_OWNER g) == owner

/-- R393, R396, R155: one write enters group `g`. A staged template swap begins its check, and is ignored while one runs. -/
def Dev.stageOne (d : Dev) (g owner : Nat) (w : Staged) : Dev :=
  let t : Option Nat := match locate w.off with
    | some l => if w.swap.isNone && l.gid == .tpl && l.info.off == 0x010 && bitAt w.v.toNat 0 then some l.i else none
    | none => none
  let running := match t with
    | some t => (d.tpl t).check.isSome
    | none => false
  if running then d else
  let d := match t with
    | some t => d.modTpl t (fun _ => { check := some d.tick, group := some g })
    | none => d
  let w := { w with check := t }
  let old := (d.grp g).writes.find? (fun x => x.place == w.place)
  let d := if d.grpState g = 0 then (d.put (CMTG_STATE_STATE g) 1).put (CMTG_STATE_OWNER g) owner else d
  match old with
  | some o =>
    (d.modGrp g (fun x => { x with writes := x.writes.map (fun y => if y.place = w.place then w else y) })).stageSettleAll [o.flight]
  | none => d.modGrp g (fun x => { x with writes := x.writes ++ [w] })

/-- R394, R415: a write of QSTAGE[q].VAL stages {OFF, value} into GROUP, or is dropped and sets REFUSED. -/
def Dev.portStage (d : Dev) (q : Nat) (v : Word) : Dev :=
  let g := d.get (QSTAGE_GROUP_GROUP q)
  let off := 0x10000 + q * 0x8000 + 4 * d.get (QSTAGE_OFF_OFF q)
  match stageQuad off with
  | some b =>
    let w : Staged := { off, v, q := b }
    if d.grpAdmits g (4 + q) ∧ d.grpState g ≤ 1 ∧ d.stageFits g [w] then d.stageOne g (4 + q) w else d.raise (QSTAGE_STATUS_REFUSED q)
  | none => d.raise (QSTAGE_STATUS_REFUSED q)

/-! ## Arming and aborting -/

/-- R403: COMMIT_ARM of an OPEN group for a time: K of the key, or late at A + 16. -/
def Dev.armTime (d : Dev) (g : Nat) (key : Nat) : Dev :=
  let k := timeKey d.now key / 64
  let d := (d.put (CMTG_STATE_STATE g) 2).put (CMTG_STATE_ARM g) 1
  let d := d.setPair (CMTG_KEY_LO g) (CMTG_KEY_HI g) key
  if k < (d.now : Int) + 16 then
    d.modGrp g (fun x => { x with fire := some { c := d.tick + 16, late := true, lateness := (min ((d.now : Int) + 16 - k) 0xFFFFFF).toNat } })
  else d.modGrp g (fun x => { x with key := some k.toNat })

/-- R403: COMMIT_ARM of an OPEN group for the next tick: C = A + 16. -/
def Dev.armNext (d : Dev) (g : Nat) : Dev :=
  ((d.put (CMTG_STATE_STATE g) 2).put (CMTG_STATE_ARM g) 3).modGrp g (fun x => { x with fire := some { c := d.tick + 16 } })

/-- R404: COMMIT_ARM of an OPEN group for a position: an arming entry is offered to the slice of the axis; the group is armed once it is
accepted. -/
def Dev.armPos (d : Dev) (g id dir axis : Nat) (key : Int) : Dev :=
  let n := d.cmt.armNo + 1
  let e : Entry := { ktype := 1, dir, axis, prio := 0, latepol := false, recmode := 0, action := 6, target := g, key, arming := n }
  let d := ({ d with cmt := { d.cmt with armNo := n } }).modGrp g (fun x => { x with arming := n })
  d.modSlice (axis / 2) (fun s => { s with offers := s.offers ++ [{ who := .flight id, e, last := true }] })

/-- R406: the writes of group `g` are discarded; none where it has been strobed. A group with an arming entry in the Coach becomes
CLOSING, any other FREE. -/
def Dev.grpAbort (d : Dev) (g : Nat) : Option (Nat × Dev) :=
  let d := d.grpSettle g
  if d.grpStrobed g then none
  else if d.grpState g = 0 ∨ d.grpState g = 3 then some (0, d)
  else
    let ws := (d.grp g).writes
    let a := (d.grp g).arming
    let d := d.cmtRec g 2 d.tick ws.length 0 0 0
    let own := d.get (CMTG_STATE_OWNER g)
    let d := d.grpFree g
    let d := if a = 0 then d
      else ((d.put (CMTG_STATE_STATE g) 3).put (CMTG_STATE_OWNER g) own).modGrp g (fun x => { x with arming := a })
    some (ws.length, d.stageSettleAll (ws.map (fun w => w.flight)))

/-- R406, R415: QSTAGE[q].CMD.ABORT: for a group that the port has claimed. -/
def Dev.portAbort (d : Dev) (q : Nat) : Dev :=
  let g := d.get (QSTAGE_GROUP_GROUP q)
  if d.grpState g ≠ 0 ∧ d.get (CMTG_STATE_OWNER g) = 4 + q then
    match d.grpAbort g with
    | some r => r.2
    | none => d
  else if d.grpState g = 0 then d else d.raise (QSTAGE_STATUS_REFUSED q)

/-- R407, R415: a quadrant reset discards the writes in the commit buffer of quadrant `q` and those of its staging port. -/
def Dev.grpDrop (d : Dev) (q : Nat) : Dev :=
  forRange (fun g d =>
    let mine (w : Staged) : Bool := w.q == q && (w.landed || w.flight.isNone)
    let gone := (d.grp g).writes.filter mine
    if gone.isEmpty then d else
    (d.modGrp g (fun x => { x with writes := x.writes.filter (fun w => !mine w) })).stageSettleAll (gone.map (fun w => w.flight))) 0 32 d

/-! ## Snapshot lists -/

/-- R409: a register that a snapshot entry may name. -/
def snapMay (off : Nat) (wide : Bool) : Bool :=
  match locate off with
  | some l =>
    if 0x10000 ≤ off ∧ off < 0x30000 then
      !((l.gid == .tcv && l.info.off == 0) || (l.gid == .ibx && (l.info.off == 0x028 || l.info.off == 0x018)))
    else wide && ((l.gid == .tb && l.info.off == 0x008) || (l.gid == .hk && l.info.off == 0x008))
  | none => false

/-- R409: a write of SNAP[s].LIST: an entry that may not be listed stays as it is and sets CFG_ERR. -/
def Dev.snapListWrite (d : Dev) (off : Nat) (v : Word) : Dev :=
  let r := 4 * bits v.toNat 2 16
  let wide := bitAt v.toNat 31
  if snapMay r wide && (!wide || !(0x10000 ≤ r && r < 0x30000) || snapMay (r + 4) true) then d.setWord off v else d.raise CMT_STATUS_CFG_ERR

end Sys2Proof.Machine
end

