-- ==== Sys2Proof/Machine/Reset.lean ====
section
/-! DEFINITION. Resets: the quadrant reset (R478) and its end, isolation and release (R428 to R430), the cold reset (R477). The engine resets
stand with their engines. -/

namespace Sys2Proof.Machine

/-! ## Quadrant reset -/

/-- R358, R404: a quadrant reset ends the descriptors of quadrant `q` with ABORTED, and a COMMIT_ARM whose entry its slice has not accepted. -/
def Dev.quadAbort (d : Dev) (q : Nat) : Dev :=
  let s := d.slice q
  let asks := s.offers.map (fun o => o.who) ++ s.insq.filterMap (fun r => r.who.map (fun w => w.1))
  let ids := asks.filterMap (fun w => match w with
    | .flight id => some id
    | .port _ => none)
  let d := s.offers.foldl (fun d o => d.cmtGone o.e.arming) d
  { d with host := { d.host with flights := d.host.flights.map (fun x =>
      if x.stage < 2 ∧ (x.target = q ∨ ids.contains x.id) then { x with stage := 2, status := 9, value := 0, stime := d.now } else x) } }

/-- R478, R380: the records of quadrant `q` are dropped and counted, those in its engines' queues too. -/
def Dev.quadRecords (d : Dev) (q : Nat) : Dev :=
  let x := d.quad q
  let d := d.addSat (RECQ_DROP_CNT q) (x.pend.length + x.recq.length)
  let d := d.modQuad q (fun x => { x with pend := [], recq := [] })
  forRange (fun e d =>
    let d := d.addSat (MEDROP_MEDROP_CNT e) (d.me e).recs.length
    { d with ru := { d.ru with meSeq := Tab.set 0 d.ru.meSeq e 0, meLost := Tab.set (0, 0, 0) d.ru.meLost e (0, 0, 0) } }) (2 * q) 2 d

/-- The slice after a quadrant reset of `q`: empty; it still follows the axes of the other quadrants (R164, R127). -/
def Slice.emptied (s : Slice) (q : Nat) : Slice :=
  { cur2 := s.cur2, scanned := s.scanned, views := s.views.filter (fun p => p.1 / 2 != q), moved := s.moved, centre := s.centre.filter (fun p => p.1 / 2 != q),
    loaded := s.loaded.filter (fun p => p.1 / 2 != q) }

/-- R62: an input of an axis whose quadrant has been reset: only the level that its sampler sees. -/
def AxIn.level (i : AxIn) : AxIn := { raw := i.raw, acc := i.raw }

/-- R90, R62: an axis after a reset of its quadrant: the levels at its inputs are what they were. -/
def Axis.levels (x : Axis) : Axis := { inA := x.inA.level, inB := x.inB.level, inZ := x.inZ.level }

/-- R90, R123, R164, R199, R225, R260, R303, R320, R502: every register of quadrant `q`'s block and of its move units returns to its
Reset value, and every unit to its state after reset. The images and the scratch of its engines stay (log 38). -/
def Dev.quadRegs (d : Dev) (q : Nat) : Dev :=
  let base := 0x10000 + q * 0x8000
  let mine (o : Nat) : Bool := (base ≤ o && o < base + 0x8000) || (0x30400 + 0x200 * q ≤ o && o < 0x30600 + 0x200 * q)
  let tell (w : MemWho) : Bool := match w with
    | .me e => e / 2 == q
    | .txs e => e / 16 == q
    | .rxs e => e / 16 == q
  { d with
    regs := d.regs.filter (fun p => !mine p.1)
    heldHi := d.heldHi.filter (fun p => !mine p.1)
    latched := d.latched.filter (fun p => !mine p.1)
    convs := d.convs.filter (fun p => p.1 / 4 != q)
    xev := d.xev.filter (fun x => x.q != q)
    axes := forRange (fun a t => Tab.set {} t a (d.axis a).levels) (2 * q) 2 d.axes
    emus := d.emus.filter (fun p => p.1 / 2 != q)
    msgs := d.msgs.filter (fun m => m.a / 2 != q)
    slices := Tab.mod {} d.slices q (fun s => s.emptied q)
    cars := d.cars.filter (fun p => p.1 / 512 != q)
    tpls := d.tpls.filter (fun p => p.1 / 64 != q)
    tcs := d.tcs.filter (fun p => p.1 / 256 != q)
    fes := d.fes.filter (fun p => p.1 / 64 != q)
    ibxs := d.ibxs.filter (fun p => p.1 / 16 != q)
    mes := forRange (fun e t => Tab.mod {} t e (fun (m : Me) => { img := m.img, scratch := m.scratch })) (2 * q) 2 d.mes
    mc := { d.mc with
      reqs := d.mc.reqs.filter (fun r => !tell r.who || r.kind == 1)
      results := d.mc.results.filter (fun r => !tell r.who)
      moves := d.mc.moves.filter (fun p => p.1 / 16 != q) } }

/-- R478: a quadrant reset of `q`; `all` says that it is an isolation, whose HOLD reaches every slice (R429). -/
def Dev.quadReset (d : Dev) (q : Nat) (all : Bool) : Dev :=
  let d := ((d.quadAbort q).coachEmpty q).grpDrop q
  let d := (d.quadRecords q).quadRegs q
  let d := d.put TB_STATUS_CAL_DONE (setBitAt (d.get TB_STATUS_CAL_DONE) q false)
  let d := d.modQuad q (fun x => { x with
    inReset := true, resetEnd := d.tick + usTicks 1, calStart := none, sems := [], drive := [] })
  forRange (fun a d => d.axSend a d.tick { hold := all, all := all }) (2 * q) 2 d

/-- R478, R358: the reset of quadrant `q` ends; the descriptors that asked for it complete. -/
def Dev.resetOver (d : Dev) (q : Nat) : Dev :=
  let ids := (d.quad q).resetFlight
  ids.foldl (fun d id => d.flightEnd id 0 0) (d.modQuad q (fun x => { x with inReset := false, resetFlight := [] }))

/-- R478: an unheld quadrant reset ends 1 µs after its trigger. -/
def Dev.quadResetEnd (d : Dev) (q : Nat) : Dev :=
  if (d.quad q).inReset ∧ ¬ bitAt (d.get SVC_QSTAT_ISO) q ∧ ¬ bitAt (d.get SVC_QSTAT_HELD) q ∧ ((d.quad q).resetEnd ≤ d.tick ∨ ¬ d.tb.running) then
    d.resetOver q
  else d

/-! ## Holding a quadrant -/

/-- R426: quadrant `q` is reset and held; ignored where FW9.NOQHOLD forbids it (R445). -/
def Dev.qHold (d : Dev) (q : Nat) : Dev :=
  if bitAt (d.fw 9) 7 ∨ bitAt (d.get SVC_QHOLD_HOLD) q then d else
  let d := (d.put SVC_QHOLD_HOLD (setBitAt (d.get SVC_QHOLD_HOLD) q true)).put SVC_QSTAT_HELD (setBitAt (d.get SVC_QSTAT_HELD) q true)
  d.quadReset q false

/-- R427: quadrant `q` is released as from a quadrant reset, where no isolation holds it. -/
def Dev.qRelease (d : Dev) (q : Nat) : Dev :=
  if ¬ bitAt (d.get SVC_QHOLD_HOLD) q then d else
  let d := (d.put SVC_QHOLD_HOLD (setBitAt (d.get SVC_QHOLD_HOLD) q false)).put SVC_QSTAT_HELD (setBitAt (d.get SVC_QSTAT_HELD) q false)
  if bitAt (d.get SVC_QSTAT_ISO) q then d else d.resetOver q

/-- R426, R441: a write of QHOLD. -/
def Dev.qHoldWrite (d : Dev) (v : Nat) : Dev :=
  forRange (fun q d => if bitAt v q then d.qHold q else d.qRelease q) 0 4 d

/-! ## Isolation -/

/-- R476, R6: the upper temperature limit U of the device's grade in 1/16 °C: 110 °C for grade I, 95 °C for grade C. -/
def Dev.tempLimit (d : Dev) : Int := if bits (d.fw 2) 0 2 = 1 then 95 * 16 else 110 * 16

/-- R429: quadrant `q` is isolated; `d0` names the monitors that tripped, 0 for heat (R476). -/
def Dev.isolate (d : Dev) (q d0 : Nat) : Dev :=
  if bitAt (d.get SVC_QSTAT_ISO) q then d else
  let d := d.put SVC_QSTAT_ISO (setBitAt (d.get SVC_QSTAT_ISO) q true)
  let d := d.modQuad q (fun x => if d0 = 0 then { x with heatIsolations := x.heatIsolations + 1 } else { x with isolations := x.isolations + 1 })
  let d := if 3 ≤ (d.quad q).isolations then d.put SVC_QSTAT_RELEASE_LOCK (setBitAt (d.get SVC_QSTAT_RELEASE_LOCK) q true) else d
  let d := d.quadReset q true
  (d.flog 0x10 4 q d0 ((d.quad q).isolations + (d.quad q).heatIsolations)).spineRecNow 0x14 0x02 q d0 0 0

/-- R428: a monitor of quadrant `q` trips: its supply monitor or its clock-spine monitor. -/
def Dev.monitorTrip (d : Dev) (q : Nat) (supply : Bool) : Dev :=
  if ¬ d.pw.released then d else
  let d := if supply then d.put SVC_QSTAT_SUPPLY_TRIP (setBitAt (d.get SVC_QSTAT_SUPPLY_TRIP) q true)
    else d.put SVC_QSTAT_CLOCK_TRIP (setBitAt (d.get SVC_QSTAT_CLOCK_TRIP) q true)
  (d.modQuad q (fun x => { x with goodSince := none })).isolate q (if supply then 2 else 1)

/-- R430: both monitors of quadrant `q` read good again. -/
def Dev.monitorGood (d : Dev) (q : Nat) : Dev :=
  if (d.quad q).goodSince.isSome then d else
  let d := (d.put SVC_QSTAT_SUPPLY_TRIP (setBitAt (d.get SVC_QSTAT_SUPPLY_TRIP) q false)).put
    SVC_QSTAT_CLOCK_TRIP (setBitAt (d.get SVC_QSTAT_CLOCK_TRIP) q false)
  d.modQuad q (fun x => { x with goodSince := some d.tick })

/-- R430, R476: the release of quadrant `q` succeeds. -/
def Dev.mayRelease (d : Dev) (q : Nat) : Bool :=
  (match (d.quad q).goodSince with
    | some t => decide (t + msTicks 1 ≤ d.tick)
    | none => false) &&
  !bitAt (d.get SVC_QSTAT_RELEASE_LOCK) q && (!bitAt d.pw.heatIso q || decide (sgn 16 (d.get PWR_TEMP_TEMP) < d.tempLimit - 160))

/-- R430: a write of QRELEASE. -/
def Dev.qReleaseWrite (d : Dev) (v : Nat) : Dev :=
  let q := bits v 0 2
  if ¬ bitAt v 31 ∨ ¬ bitAt (d.get SVC_QSTAT_ISO) q ∨ ¬ d.mayRelease q then d else
  let d := d.put SVC_QSTAT_ISO (setBitAt (d.get SVC_QSTAT_ISO) q false)
  let d := { d with pw := { d.pw with heatIso := setBitAt d.pw.heatIso q false } }
  let d := if bitAt (d.get SVC_QSTAT_HELD) q then d else d.resetOver q
  (d.flog 0x11 4 q 0 0).spineRecNow 0x14 0x03 q 0 0 0

/-! ## Cold reset -/

/-- R3, R458, R477: everything returns to its state after a cold reset; the always-on domain keeps what it holds. -/
def Dev.fresh0 (d : Dev) : Dev :=
  let n : Dev := { out := d.out, free := d.free, pw := {
    released := d.pw.released, vaon := d.pw.vaon, cause := d.pw.cause, railGood := d.pw.railGood, railV33 := d.pw.railV33,
    serviceLow := d.pw.serviceLow, sealLatched := d.pw.sealLatched } }
  let n := (n.put SVCPRES_SEAL_OPEN (d.get SVCPRES_SEAL_OPEN)).put SVCPRES_SEAL_LOOP (d.get SVCPRES_SEAL_LOOP)
  (n.setWord SVCPRES_SEALCNT (d.word SVCPRES_SEALCNT)).putB SVCPRES_PRES_ASSERTED d.pw.serviceLow

/-- R477: a cold reset by RST_N (cause 1) or PWR.CTL.COLD (cause 2): the supplies are good, and start-up begins at once. -/
def Dev.coldReset (d : Dev) (cause : Nat) : Dev :=
  if ¬ d.pw.released then d else
  let d := d.fresh0
  { d with pw := { d.pw with cause := cause } }

/-- R463: a core supply loss: everything is lost, and the idle latches hold the pins at their idle levels (R462). -/
def Dev.coreLoss (d : Dev) : Dev :=
  if ¬ d.pw.released then d else
  let held := d.regs.filter (fun p => FUSE_W 0 ≤ p.1 && p.1 < FUSE_W 64)
  let n := d.fresh0
  let n := { n with pw := { n.pw with cause := 3, released := false, fuses := d.pw.fuses } }
  let n := held.foldl (fun n p => n.setWord p.1 p.2) n
  n.put SVC_QSTAT_ISO 15

/-- R461: the core rails have been good for 1 ms: the device leaves cold reset. After a core supply loss the cause stays, else it is
power-up (R478). -/
def Dev.powerGood (d : Dev) : Dev :=
  if d.pw.released then d else
  let n := d.fresh0
  { n with pw := { n.pw with released := true, vaon := true, cause := if d.pw.cause = 3 then 3 else 0 } }

/-- R462, R454: VAON falls away: the always-on domain loses what it held, and no pin is driven. What SEAL.OPEN and SEALCNT hold after it is
not stated (log 5). -/
def Dev.vaonLoss (d : Dev) : Dev :=
  if ¬ d.pw.vaon then d else
  let r := d.fresh0.fresh
  let n := { r.2 with pw := { railGood := r.2.pw.railGood, railV33 := r.2.pw.railV33, vaon := false } }
  ((n.put SVCPRES_PRES_ASSERTED 0).put SVCPRES_SEAL_OPEN (bits r.1.toNat 0 1)).setWord SVCPRES_SEALCNT (BitVec.ofNat 32 (r.1.toNat / 2 ^ 32))

/-! ## Meanings -/

/-- QUADRANT_RESET_END (R478). -/
def execQuadrantResetEnd (q : Fin 4) (s : State) : Host.Outcome State Fault Refusal := onDev s (fun d => d.quadResetEnd q)
/-- QUADRANT_MONITOR_TRIP (R428). -/
def execQuadrantMonitorTrip (q : Fin 4) (supply : Bool) (s : State) : Host.Outcome State Fault Refusal := onDev s (fun d => d.monitorTrip q supply)
/-- QUADRANT_MONITOR_GOOD (R430). -/
def execQuadrantMonitorGood (q : Fin 4) (s : State) : Host.Outcome State Fault Refusal := onDev s (fun d => d.monitorGood q)
/-- POWER_GOOD_RELEASE (R461). -/
def execPowerGoodRelease (s : State) : Host.Outcome State Fault Refusal := onDev s (fun d => d.powerGood)
/-- RST_N_ASSERT (R477). -/
def execRstNAssert (s : State) : Host.Outcome State Fault Refusal := onDev s (fun d => d.coldReset 1)
/-- CORE_SUPPLY_LOSS (R463). -/
def execCoreSupplyLoss (s : State) : Host.Outcome State Fault Refusal := onDev s (fun d => d.coreLoss)
/-- VAON_LOSS (R462). -/
def execVaonLoss (s : State) : Host.Outcome State Fault Refusal := onDev s (fun d => d.vaonLoss)

end Sys2Proof.Machine
end

