-- ==== Sys2Proof/Machine/Guard.lean ====
section
/-! DEFINITION. Presence window and seal loop (R449 to R456), and the requests for the power states (R468 to R470). -/

namespace Sys2Proof.Machine

/-! ## Presence -/

/-- R449, R450: SERVICE_N is asserted: from the end of start-up on, a presence window opens. -/
def Dev.presAssert (d : Dev) : Dev :=
  if d.pw.serviceLow ∨ ¬ d.pw.vaon then d else
  let d := ({ d with pw := { d.pw with serviceLow := true } }).raise SVCPRES_PRES_ASSERTED
  if ¬ d.flag PWR_BOOTSTAT_READY then d else
  let d := ({ d with svc := { d.svc with presOpen := some d.tick } }).raise SVCPRES_PRES_OPEN
  (d.flog 0x40 4 0 0 0).spineRecNow 0x14 0x20 0 0 0 0

/-- R449, R450: SERVICE_N is released. -/
def Dev.presRelease (d : Dev) : Dev :=
  if ¬ d.pw.serviceLow then d else
  (({ d with pw := { d.pw with serviceLow := false } }).put SVCPRES_PRES_ASSERTED 0).put SVCPRES_PRES_STUCK 0

/-- R449, R457: the presence window closes: 0 after 60 s, 1 by CLOSE, 2 at SLEEP entry. -/
def Dev.presClose (d : Dev) (why : Nat) : Dev :=
  if d.svc.presOpen = none then d else
  (({ d with svc := { d.svc with presOpen := none } }).put SVCPRES_PRES_OPEN 0).spineRecNow 0x14 0x21 0 why 0 0

/-- R449: 60 s after it opened the window closes. -/
def Dev.presTimeout (d : Dev) : Dev :=
  match d.svc.presOpen with
  | some t => if t + 60 * 800000000 ≤ d.tick then d.presClose 0 else d
  | none => d

/-- R449: the manager writes 1 to PRES.CLOSE. -/
def Dev.presWrite (d : Dev) (v : Nat) : Dev := if bitAt v 15 then d.presClose 1 else d

/-! ## The seal loop -/

/-- R454, R455: the seal loop has opened. -/
def Dev.sealOpened (d : Dev) : Dev :=
  if ¬ d.pw.vaon then d else
  let d := ((d.raise SVCPRES_SEAL_OPEN).raise SVCPRES_SEAL_LOOP).incSat SVCPRES_SEALCNT_CNT
  if d.tb.running then d.sealTell false (d.get SVCPRES_SEALCNT_CNT)
  else { d with pw := { d.pw with sealLatched := d.pw.sealLatched + 1 } }

/-- R456, R459: a write of SEAL: OPEN clears inside the presence window; outside it CLRREF is set. -/
def Dev.sealWrite (d : Dev) (v : Nat) : Dev :=
  let d := if bitAt v 3 then d.put SVCPRES_SEAL_CLRREF 0 else d
  if ¬ bitAt v 0 then d
  else if d.svc.presOpen = none then d.raise SVCPRES_SEAL_CLRREF
  else if d.flag SVCPRES_SEAL_OPEN then
    let n := d.get SVCPRES_SEALCNT_CNT
    ((d.put SVCPRES_SEAL_OPEN 0).flog 0x43 4 0 n 0).spineRecNow 0x14 0x23 0 n 0 0
  else d

/-! ## Requests for power states -/

/-- R470, R481: a request is refused: 1 ACTIVE, 2 LINK, 3 BUSY, or 3 with `wake` for a wake source. -/
def Dev.pwrRefuse (d : Dev) (cause : Nat) (wake : Bool) : Dev :=
  ((d.raise PWR_STATUS_REFUSED).put PWR_STATUS_REFCAUSE cause).putB PWR_STATUS_WAKEREF wake

/-- R469: some channel, generator, ibex, microengine, move unit or slice has EN at 1. -/
def Dev.anyActive (d : Dev) : Bool :=
  (List.range 1024).any (fun n => d.flag (TC_CTL_EN n)) || (List.range 256).any (fun n => d.flag (FE_CTL_EN n)) ||
  (List.range 64).any (fun e => d.flag (IBX_CTL_EN e) || d.flag (MV_CTL_EN e)) || (List.range 8).any (fun e => d.flag (ME_CTL_EN e)) ||
  (List.range 4).any (fun q => d.flag (COACH_CTL_EN q))

/-- R469: a request for IDLE, from RUN. -/
def Dev.reqIdle (d : Dev) : Dev :=
  if d.get PWR_STATUS_STATE ≠ 0 then d
  else if d.anyActive then d.pwrRefuse 1 false
  else ((d.put PWR_CTL_REQ 1).put PWR_STATUS_STATE 1).put PWR_STATUS_SLPPEND 0

/-- R470: a request for SLEEP becomes pending. -/
def Dev.reqSleep (d : Dev) : Dev :=
  if 2 ≤ d.get PWR_STATUS_STATE then d else (d.put PWR_CTL_REQ 2).raise PWR_STATUS_SLPPEND

/-- R470: a request for RUN cancels a pending request for SLEEP. -/
def Dev.reqRun (d : Dev) : Dev :=
  if 2 ≤ d.get PWR_STATUS_STATE then d else (d.put PWR_CTL_REQ 0).put PWR_STATUS_SLPPEND 0

/-- R481: a write of PWR.CTL; its reserved request has been refused before. COLD resets the device on the next tick, at once while TCLK is stopped
(log 11). -/
def Dev.pwrCtl (d : Dev) (v : Nat) : Dev :=
  if bitAt v 31 then
    (if d.tb.running then { d with late := d.late ++ [{ due := d.tick, rank := 13, code := 0, off := PWR_CTL, v := 0 }] } else d.coldReset 2) else
  match bits v 0 2 with
  | 0 => d.reqRun
  | 1 => d.reqIdle
  | _ => d.reqSleep

/-! ## Meanings -/

/-- PRESENCE_ASSERT (R449). -/
def execPresenceAssert (s : State) : Host.Outcome State Fault Refusal := onDev s (fun d => d.presAssert)
/-- PRESENCE_RELEASE (R449). -/
def execPresenceRelease (s : State) : Host.Outcome State Fault Refusal := onDev s (fun d => d.presRelease)
/-- PRESENCE_TIMEOUT (R449). -/
def execPresenceTimeout (s : State) : Host.Outcome State Fault Refusal := onDev s (fun d => d.presTimeout)
/-- SEAL_OPEN (R454). -/
def execSealOpen (s : State) : Host.Outcome State Fault Refusal := onDev s (fun d => d.sealOpened)

end Sys2Proof.Machine
end

