-- ==== Sys2Proof/Machine/RingReg.lean ====
section
/-! DEFINITION. The registers of submission and return rings (R339, R347, R368, R370, R371, R383, R391). -/

namespace Sys2Proof.Machine

/-- A completion of ring `k` without a target: of a descriptor that reached none, or of a failed read (R347, R370). -/
def Dev.flightNone (d : Dev) (k : Nat) (x : Desc) (status : Nat) (sqhead : Option Nat) : Dev :=
  let f : Flight := { id := d.host.nextId, sr := k, f := d.srOwner k, cq := d.get (SR_CFG_CQ k), target := 5, desc := x, stage := 2, status,
                      stime := d.now, sqhead }
  { d with host := { d.host with flights := d.host.flights ++ [f], nextId := d.host.nextId + 1 } }

/-- R347, R370: the buffered descriptors of ring `k` complete with ABORTED, and it fetches no more. -/
def Dev.srStop (d : Dev) (k : Nat) : Dev :=
  let l := (d.sring k).buf
  let d := (d.put (SR_CFG_EN k) 0).modSring k (fun s => { s with buf := [], reading := none })
  l.foldl (fun d x => d.flightNone k x 9 none) d

/-- R339, R370: a write of SR[k].CFG. -/
def Dev.srCfgWrite (d : Dev) (k : Nat) (v : Nat) : Dev :=
  let on := bitAt v 31
  if d.flag (SR_CFG_EN k) then
    let moved := bits v 24 5 != d.get (SR_CFG_CQ k) || bits v 16 5 != d.get (SR_CFG_LOG2SZ k) || bits v 4 4 != d.get (SR_CFG_FETCH k)
    let d := if moved then d.raise (SR_STATUS_CFG_ERR k) else d
    if on then d else d.srStop k
  else
    let d := ((d.put (SR_CFG_CQ k) (bits v 24 5)).put (SR_CFG_LOG2SZ k) (bits v 16 5)).put (SR_CFG_FETCH k) (bits v 4 4)
    let c := bits v 24 5
    if ¬ on then d
    else if d.rrOwner c = d.srOwner k ∧ d.flag (RR_CFG_EN c) ∧ ¬ d.flag (RR_CFG_TYPE c) then
      ((d.put (SR_HEAD_HEAD k) 0).put (SR_TAIL_TAIL k) 0).raise (SR_CFG_EN k)
    else d.raise (SR_STATUS_CFG_ERR k)

/-- R383: the report of the records dropped after a link loss enters the first event ring enabled since. -/
def Dev.detachReport (d : Dev) (k : Nat) : Dev :=
  match d.ru.detachFirst with
  | some t =>
    if d.flag (RR_CFG_TYPE k) ∧ d.ru.detachReported ≠ d.get HIF_GEN_GEN then
      let d := { d with ru := { d.ru with detachFirst := none, detachReported := d.get HIF_GEN_GEN } }
      d.ringPut k (d.lostRec 2 k (d.get HIF_DETACH_DROP_CNT) t) 0
    else d
  | none => d

/-- R339, R373, R391: return ring `k` is enabled: head and tail 0, first pass, its counts afresh, armed. -/
def Dev.rrEnable (d : Dev) (k : Nat) : Dev :=
  let d := (((d.put (RR_HEAD_HEAD k) 0).put (RR_TAIL_TAIL k) 0).put (RR_STATUS_P k) 1).put (RR_LOST_PEND k) 0
  let d := { d with ru := { d.ru with ringSeq := Tab.set 0 d.ru.ringSeq k 0, ringLost := Tab.set (0, 0, 0) d.ru.ringLost k (0, 0, 0) } }
  ((d.raise (RR_CFG_EN k)).ringArm k).detachReport k

/-- R371: an enabled submission ring names return ring `k`. -/
def Dev.rrNamed (d : Dev) (k : Nat) : Bool := (List.range 32).any (fun j => d.flag (SR_CFG_EN j) && d.get (SR_CFG_CQ j) == k)

/-- R339, R371: a write of RR[k].CFG. -/
def Dev.rrCfgWrite (d : Dev) (k : Nat) (v : Nat) : Dev :=
  let on := bitAt v 31
  if d.flag (RR_CFG_EN k) then
    let moved := b2n (bitAt v 30) != d.get (RR_CFG_TYPE k) || bits v 16 5 != d.get (RR_CFG_LOG2SZ k)
    let d := if moved then d.raise (RR_STATUS_CFG_ERR k) else d
    if on then d
    else if ¬ d.flag (RR_CFG_TYPE k) ∧ d.rrNamed k then d.raise (RR_STATUS_CFG_ERR k)
    else d.put (RR_CFG_EN k) 0
  else
    let d := (d.put (RR_CFG_TYPE k) (bits v 30 1)).put (RR_CFG_LOG2SZ k) (bits v 16 5)
    if on then d.rrEnable k else d

/-- R368: a write of a base register is ignored and sets CFG_ERR while the ring is enabled. -/
def Dev.baseWrite (d : Dev) (en err : Fld) (off : Nat) (v : Word) : Dev := if d.flag en then d.raise err else d.setWord off v

end Sys2Proof.Machine
end

