-- ==== Sys2Proof/Machine/RegWrite.lean ====
section
/-! DEFINITION. Writing the registers of BAR0 (R2, R337, R504 to R511): who may write, reserved values, and what each register's write does. -/

namespace Sys2Proof.Machine

/-! ## Who may write -/

/-- R389: the quadrant whose owner writes a register of the record unit; none for the manager's. -/
def recOwner (l : Loc) : Option Nat :=
  match l.gid with
  | .route => if l.i < 4 then some l.i else none
  | .recq => some l.i
  | .ackstray => some l.i
  | .sdsel => some l.i
  | _ => none

/-- R337, R389, R512: function `f` may write at `off`. -/
def Dev.fnMay (d : Dev) (f off : Nat) : Bool :=
  if off < 0x4000 then d.manager == f
  else if off < 0x4C00 then (match locate off with
    | some l => !d.foreign f l
    | none => true)
  else if off < 0x5000 then (match locate off with
    | some l => (match recOwner l with
      | some q => d.qOwner q == f
      | none => d.manager == f)
    | none => d.manager == f)
  else if off < 0x8000 then true
  else if 0x10000 ≤ off ∧ off < 0x30000 then d.qOwner ((off - 0x10000) / 0x8000) == f
  else d.manager == f

/-- R337, R466, R453: the writer may write at `off`; the boot image, commit groups and the debugger are not checked. An engine reaches its
own quadrant's block (R285). -/
def Dev.mayWrite (d : Dev) (w : Writer) (off : Nat) : Bool :=
  match w with
  | .fn f => d.fnMay f off
  | .desc f => d.fnMay f off
  | .me e => decide (0x10000 + (e / 2) * 0x8000 ≤ off ∧ off < 0x18000 + (e / 2) * 0x8000)
  | _ => true

/-- R510, R515: a reserved write sets the flag; one by the debugger has no origin there and sets none (log 41). -/
def Dev.rsvWrite (d : Dev) (w : Writer) (off : Nat) : Dev := if w = .debug then d else d.reserved w.code off

/-! ## What a write holds -/

/-- R510: the value has a reserved encoding in some field of the register. -/
def badValue (i : RegInfo) (v : Nat) : Bool := i.bad.any (fun b => decide (b.2.2 ≤ bits v b.1 b.2.1))

/-- R510: the bits of no access class that the value sets. -/
def rsvBits (i : RegInfo) (v : Word) : Word := v &&& ~~~(w32 (i.rw ||| i.ro ||| i.w1c ||| i.wo))

/-- R192: source number `n` of quadrant `q` can be active. -/
def sourceLives (q n : Nat) : Bool :=
  decide (n < 0x410) || (decide (0x440 ≤ n) && decide (n < 0x600) && !(decide (0x500 ≤ n) && (n - 0x500) / 0x40 == q))

/-- R194, R195, R484: a value that the register's own rule refuses as reserved. -/
def refusedValue (l : Loc) (v : Nat) : Bool :=
  match l.gid with
  | .sinksel => (bitAt v 15 && !sourceLives l.q (bits v 0 12)) || (bitAt v 31 && !sourceLives l.q (bits v 16 12))
  | .xline => !(sourceLives l.q (bits v 0 12) && decide (bits v 0 12 < 0x500))
  | .lane => !laneOwnerOk (bits v 16 3) (bits v 8 8)
  | _ => false

/-- R2: the value stored under the access classes of the register. -/
def Dev.store (d : Dev) (i : RegInfo) (off : Nat) (v : Word) : Dev :=
  let old := d.word off
  d.setWord off ((old &&& ~~~(w32 i.rw) &&& ~~~(v &&& w32 i.w1c)) ||| (v &&& w32 i.rw))

/-- R82, R90: a HI half is held until its LO half is written. -/
def Dev.holdHi (d : Dev) (off : Nat) (v : Word) : Dev := { d with heldHi := Tab.set 0 d.heldHi off v }

/-! ## What each write does -/

/-- R90 to R95, R108, R123 to R126: a write of a register of axis `a`, its estimator or its emulator. -/
def Dev.axisWrite (d : Dev) (l : Loc) (off : Nat) (v : Word) : Dev :=
  let a := l.i
  match l.info.off with
  | 0x000 => d.axCfg a v.toNat
  | 0x004 => (if bitAt v.toNat 14 then d.axFaultClear a else d).store l.info off v
  | 0x008 => (d.store l.info off v).axUse a
  | 0x00C => (d.store l.info off v).axUse a
  | 0x010 => d.posWrite a v.toNat
  | 0x014 => d.holdHi off v
  | 0x020 => d.limitWrite a false v.toNat
  | 0x024 => d.holdHi off v
  | 0x028 => d.limitWrite a true v.toNat
  | 0x02C => d.holdHi off v
  | 0x040 => d.serCfg a v
  | 0x080 => d.estCfg a off v
  | 0x084 => d.estCfg a off v
  | 0x100 => d.emuCfg a v.toNat
  | 0x104 => d.emuRatioM a v.toNat
  | 0x108 => d.emuRatioN a v.toNat
  | 0x110 => d.emuCntWrite a false v.toNat
  | 0x114 => d.emuCntWrite a true v.toNat
  | _ => d.store l.info off v

/-- R200 to R203, R387: a write of a register of channel `n`. -/
def Dev.tcWrite (d : Dev) (l : Loc) (off : Nat) (v : Word) : Dev :=
  let n := l.i
  match l.info.off with
  | 0x000 => d.tcCtl n v.toNat
  | 0x004 => d.tcClk n v.toNat
  | 0x008 => d.tcCntWrite n v.toNat
  | 0x018 =>
    let d := forRange (fun k d => if bitAt v.toNat (k + 1) then d.tcAck n k else d) 0 3 d
    d.store l.info off (v &&& ~~~14)
  | 0x01C => d.tcCmd n v.toNat
  | _ => d.store l.info off v

/-- R260 to R263: a write of a register of ibex `e`. -/
def Dev.ibxWrite (d : Dev) (l : Loc) (off : Nat) (v : Word) : Dev :=
  let e := l.i
  match l.info.off with
  | 0x000 => d.ibxCtl e v.toNat
  | 0x004 => d.ibxGroup e v.toNat
  | 0x008 => d.ibxCmd e v.toNat
  | 0x00C => (d.ibxSettle e).store l.info off v
  | 0x010 => d.ibxIdleWrite e off v.toNat
  | 0x018 => d.ibxPdataWrite e v.toNat
  | 0x024 => d.ibxTxWrite e v.toNat
  | 0x030 => d.ibxIdleWrite e off v.toNat
  | 0x034 => d.ibxIdleWrite e off v.toNat
  | 0x038 => d.ibxIdleWrite e off v.toNat
  | 0x03C => d.ibxIdleWrite e off v.toNat
  | 0x040 => d.ibxIdleWrite e off v.toNat
  | 0x044 => d.ibxIdleWrite e off v.toNat
  | 0x048 => d.ibxHoctl e v.toNat
  | 0x054 => d.strCtlWrite e false v.toNat
  | 0x060 => d.strCtlWrite e true v.toNat
  | 0x064 => (d.ibxSettle e).store l.info off v
  | 0x068 => (d.ibxSettle e).store l.info off v
  | _ => d.store l.info off v

/-- What a write of a register in a quadrant's block does. -/
def Dev.quadWrite (d : Dev) (w : Writer) (l : Loc) (off : Nat) (v : Word) : Dev :=
  let i := l.i
  match l.gid, l.info.off with
  | .qstage, 0x008 => d.portStage i v
  | .qstage, 0x00C => if bitAt v.toNat 0 then d.portAbort i else d
  | .qpwr, _ => d.ibxResets i v.toNat
  | .axis, _ => d.axisWrite l off v
  | .me, 0x000 => d.meCtl i v.toNat
  | .me, 0x034 => d.meImdata i v
  | .lane, _ => d.laneWrite w.code i v.toNat
  | .coach, 0x000 => d.coachCtl i v.toNat
  | .coach, 0x010 => d.coachRegion i (COACH_REGBASE_BASE i) v.toNat
  | .coach, 0x014 => d.coachRegion i (COACH_REGSIZE_SIZE i) v.toNat
  | .coach, 0x020 => (d.store l.info off v).rebucket i
  | .coach, 0x024 => (d.store l.info off v).rebucket i
  | .car, 0x000 => d.carCfg i v
  | .car, 0x034 => d.carFlags i v.toNat
  | .car, 0x038 => d.carCloseCmd i v.toNat
  | .tpl, 0x010 => if bitAt v.toNat 0 then d.tplSwap i (w == .commit) else d
  | .tc, _ => d.tcWrite l off v
  | .feq, _ => if bitAt v.toNat 0 then d.feDisableAll i else d
  | .fe, 0x000 => d.feCtl i v.toNat
  | .fe, 0x00C => d.feFineWrite i v.toNat
  | .fe, 0x01C => d.feCmd i v.toNat
  | .ibx, _ => d.ibxWrite l off v
  | _, _ => d.store l.info off v

/-- What a write of a register outside the quadrants' blocks does; `f` is the writing function, none where no function writes. -/
def Dev.spineWrite (d : Dev) (f : Option Nat) (l : Loc) (off : Nat) (v : Word) : Dev :=
  let i := l.i
  match l.gid, l.info.off with
  | .glb, 0x00C => if bitAt v.toNat 31 && d.flag GLB_RSVW_FLAG then (d.put GLB_RSVW_FLAG 0).put GLB_RSVWCNT_CNT 0 else d
  | .snaplist, _ => d.snapListWrite off v
  | .sr, 0x000 => d.baseWrite (SR_CFG_EN i) (SR_STATUS_CFG_ERR i) off v
  | .sr, 0x004 => d.baseWrite (SR_CFG_EN i) (SR_STATUS_CFG_ERR i) off v
  | .sr, 0x008 => d.srCfgWrite i v.toNat
  | .rr, 0x000 => d.baseWrite (RR_CFG_EN i) (RR_STATUS_CFG_ERR i) off v
  | .rr, 0x004 => d.baseWrite (RR_CFG_EN i) (RR_STATUS_CFG_ERR i) off v
  | .rr, 0x008 => d.rrCfgWrite i v.toNat
  | .route, _ => d.routeWrite f i l.j v.toNat
  | .sdsel, 0x004 => d.sdcntWrite i v.toNat
  | .tb, 0x000 => d.tbCtl v.toNat
  | .hk, 0x000 => d.hkCtl i v.toNat
  | .mem, 0x008 => d.spareCfg v.toNat
  | .mem, 0x0A0 => if bitAt v.toNat 0 then d.sliceBorrow (bits v.toNat 16 10) else d
  | .mv, 0x014 => d.moveCmd i v.toNat
  | .svcpres, 0x000 => d.presWrite v.toNat
  | .svcpres, 0x004 => d.sealWrite v.toNat
  | .svc, 0x014 => d.qHoldWrite v.toNat
  | .svc, 0x018 => d.qReleaseWrite v.toNat
  | .pwr, 0x000 => d.pwrCtl v.toNat
  | _, _ => d.store l.info off v

/-- What a write does to the register that it reaches; a quadrant in reset stays at its Reset values (log 39). -/
def Dev.regAct (d : Dev) (w : Writer) (l : Loc) (off : Nat) (v : Word) : Dev :=
  if 0x10000 ≤ off ∧ off < 0x30000 then (if d.quadDown l.q then d else d.quadWrite w l off v) else d.spineWrite w.func l off v

/-- The registers whose writes take effect on the tick after them: CFG of an axis (R62), its POS and limits (R82,
R90), its ESTCFG and ESTSTOP (R108) and its emulator's CFG
(R125); CFG and FLAGSET of the carriages of an axis (R157, R167); CTL, CLK, CNT, CMP0, CMP1 and CMD of a channel (R174, R200,
R201, R203); the selectors of a sink (R194); CTL and CMD of a generator (R226, R227) and of all of a quadrant
(R219); CTL, CMD and HOCTL of an ibex (R253, R258, R261) and its reset (R479); CTL of an engine (R304) and its AGU's CFG (R305); CFG of a
lane (R484); CMD of a move unit (R320). -/
def lateReg (l : Loc) : Bool :=
  match l.gid with
  | .axis => [0x000, 0x010, 0x014, 0x020, 0x024, 0x028, 0x02C, 0x080, 0x084, 0x100].contains l.info.off
  | .car => [0x000, 0x034].contains l.info.off
  | .tc => [0x000, 0x004, 0x008, 0x00C, 0x010, 0x01C].contains l.info.off
  | .sinksel => true
  | .fe => [0x000, 0x01C].contains l.info.off
  | .feq => l.info.off == 0
  | .ibx => [0x000, 0x008, 0x048].contains l.info.off
  | .qpwr => true
  | .me => l.info.off == 0
  | .agu => l.info.off == 0
  | .lane => true
  | .mv => l.info.off == 0x014
  | _ => false

/-- The write of `v` takes effect on the tick after it. TB.CTL does so while TCLK runs (R516): while it is stopped there is no next tick, and it acts at
once. The clearing of an axis fault does (R92), and so does every write of a commit group, which then stands on C and comes after every direct
write of C − 1 (R399, R401). -/
def Dev.isLate (d : Dev) (w : Writer) (l : Loc) (v : Word) : Bool :=
  w == .commit || lateReg l || (l.gid == .tb && l.info.off == 0 && d.tb.running) || (l.gid == .axis && l.info.off == 0x004 && bitAt v.toNat 14)

/-- R507, R510: a write that its writer may make: a hole and reserved values are refused, then the register's own rule acts, at once or at the
end of the tick. -/
def Dev.writeAt (d : Dev) (w : Writer) (off : Nat) (v : Word) : Dev :=
  match locate off with
  | none => if v = 0 then d else d.rsvWrite w off
  | some l =>
    if l.gid == .sinksel && !sinkExists (l.i % 452) then (if v = 0 then d else d.rsvWrite w off)
    else if badValue l.info v.toNat || refusedValue l v.toNat then d.rsvWrite w off
    else
      let d := if rsvBits l.info v = 0 then d else d.rsvWrite w off
      let u := v &&& w32 (l.info.rw ||| l.info.w1c ||| l.info.wo)
      if d.isLate w l u then { d with late := d.late ++ [{ due := d.tick, rank := w.rank, code := w.code, off, v := u }] }
      else d.regAct w l off u

/-! ## What lands at the end of the tick -/

/-- A write lands: the register's own rule acts. Rank 11 is the capture of CMD.CAPT at the end of its capture tick (R181), rank 12 the image
swap of engine `off` for the commit tick that follows (R418), and rank 13 the cold reset by PWR.CTL.COLD (R481). -/
def Dev.lateAct (d : Dev) (x : LateWrite) : Dev :=
  if x.rank = 13 then d.coldReset 2 else
  if x.rank = 12 then (if d.quadDown (meQ x.off) then d else d.meSwap x.off (d.tick + 1)) else
  match locate x.off with
  | some l => if x.rank = 11 then (if d.quadDown l.q then d else d.tcCaptNow l.i) else d.regAct (Writer.ofCode x.code) l x.off x.v
  | none => d

/-- R508: what is due at the end of this tick lands while TCLK runs: captures first, then the writes in the order of their writers, then image
swaps, last a cold reset. -/
def Dev.landed (d : Dev) : Dev :=
  if d.tb.running then
    let ws := d.late.filter (fun x => x.due ≤ d.tick)
    let d := { d with late := d.late.filter (fun x => !decide (x.due ≤ d.tick)) }
    [11, 0, 1, 2, 3, 4, 5, 6, 7, 8, 9, 10, 12, 13].foldl (fun d r => (ws.filter (fun x => x.rank == r)).foldl Dev.lateAct d) d
  else d

/-- R519: a write in the MSI-X window, which reaches the accessing function's own table. -/
def Dev.msixWrite (d : Dev) (w : Writer) (f off : Nat) (v : Word) : Dev :=
  let o := off - 0x6000
  if o < 0x400 then
    let rest : Word := if o % 16 = 12 then 1 else 0
    let u : Word := if o % 16 = 12 then v &&& 1 else v
    d.modFn f (fun x => { x with table := Tab.set rest x.table (o / 4) u })
  else if o < 0x408 ∨ v = 0 then d
  else d.rsvWrite w off

/-- R469: `off` lies in a block whose clock stops in IDLE. -/
def gated (off : Nat) : Bool :=
  (decide (0x10000 ≤ off) && decide (off < 0x30000) && !(decide (0x400 ≤ off % 0x8000) && decide (off % 0x8000 < 0x800))) ||
  (decide (0x30400 ≤ off) && decide (off < 0x30C00))

/-- R469: in IDLE an access to a gated block ends the state 2 µs later. -/
def Dev.idleTouch (d : Dev) : Dev :=
  if d.pw.idleEnd.isSome then d else { d with pw := { d.pw with idleEnd := some (d.tick + usTicks 2) } }

/-- R337, R389: a write that its writer may not make has no effect; one by a function is counted. -/
def Dev.notOwned (w : Writer) (d : Dev) : Dev :=
  match w with
  | .fn _ => d.incSat HIF_OWNVIOL_CNT
  | .desc _ => d.incSat HIF_OWNVIOL_CNT
  | _ => d

/-- R508 to R510: a register write by `w` of all four bytes. -/
def Dev.regWrite (w : Writer) (off : Nat) (v : Word) (d : Dev) : Dev :=
  if ¬ d.mayWrite w off then d.notOwned w
  else if 0x6000 ≤ off ∧ off < 0x8000 then d.msixWrite w (match w with
    | .fn f => f
    | _ => d.manager) off v
  else if d.get PWR_STATUS_STATE = 1 ∧ gated off ∧ w ≠ .commit then
    let d := d.idleTouch
    { d with pw := { d.pw with held := d.pw.held ++ [(w.code, off, v)] } }
  else
    let d := if d.get PWR_STATUS_STATE = 1 ∧ gated off then (d.put PWR_STATUS_STATE 0).put PWR_CTL_REQ 0 else d
    d.writeAt w off v

/-- R506, R509: a BAR0 write with byte enables. -/
def Dev.hostWrite (w : Writer) (off : Nat) (be : BitVec 4) (v : Word) (d : Dev) : Dev :=
  if be = 15 then d.regWrite w off v
  else if ¬ d.mayWrite w off then d.notOwned w
  else (d.rsvWrite w off).incSat GLB_ACCERR_CNT

/-- R469: an access to a gated block ends IDLE: the held writes act in order. -/
def Dev.idleExit (d : Dev) : Dev :=
  match d.pw.idleEnd with
  | some t =>
    if t ≤ d.tick then
      let ws := d.pw.held
      let idle := d.get PWR_STATUS_STATE = 1
      let d : Dev := { d with pw := { d.pw with held := [], idleEnd := none } }
      let d := if idle then (d.put PWR_STATUS_STATE 0).put PWR_CTL_REQ 0 else d
      ws.foldl (fun d x => d.regWrite (Writer.ofCode x.1) x.2.1 x.2.2) d
    else d
  | none => d

/-- IDLE_EXIT (R469). -/
def execIdleExit (s : State) : Host.Outcome State Fault Refusal := onDev s (fun d => d.idleExit)

end Sys2Proof.Machine
end

