-- ==== Sys2Proof/Machine/Land.lean ====
section
/-! DEFINITION. What reaches a quadrant's blocks some ticks after a microengine's word (R285, R288), the sinks of the crossbars (R23 to R27,
R193), and a tick of the clock. -/

namespace Sys2Proof.Machine

/-! ## What a microengine's word writes -/

/-- R288, R289: a bit of the quadrant's blocks is written by engine `e` on tick `t`. -/
def Dev.bitLand (d : Dev) (e a : Nat) (b : Bool) (t : Nat) : Dev :=
  let q := meQ e
  if a < 0x400 then (if b then d.tcAck (256 * q + a / 4) (a % 4) else d)
  else if a < 0x500 then
    let n := 128 * q + (a - 0x480)
    if d.get (LANE_CFG_KIND n) = 4 ∧ d.get (LANE_CFG_INDEX n) = e % 2 then
      d.modQuad q (fun x => { x with drive := Tab.set false x.drive (a - 0x480) b })
    else d.raise (ME_STATUS_LANE_ERR e)
  else if ¬ b then d
  else if a < 0x510 then d.modMe e (fun m => { m with events := setBitAt m.events (a - 0x500) false })
  else if a < 0x530 then d.raiseEventAt q (0x4C0 + 32 * (e % 2) + (a - 0x510)) t (d.tickStamp q t)
  else d.modMe e (fun m => { m with hk := setBitAt m.hk (a - 0xA00) false })

/-- R285: what engine `e` sent acts on tick `t`; the value of a read reaches IO.d for words issued four ticks later. -/
def Dev.ioAct (d : Dev) (e t : Nat) (x : MeIo) : Dev :=
  match x with
  | .wr off v => d.regWrite (.me e) (0x10000 + 0x8000 * meQ e + off) v
  | .rd off =>
    let r := d.ioRead e off
    r.2.modMe e (fun m => m.later (t + 4) 0x103 r.1.toNat)
  | .bit a b => d.bitLand e a b t
  | .sem a b => d.semSet e a b
  | .tas a => d.tasTake e a

/-- R288: a write of a bit of the quadrant's blocks. -/
def isBlockBit : MeIo → Bool
  | .bit _ _ => true
  | _ => false

/-- R285, R288: what engine `e` sent and what is due by this tick acts, oldest first: bits of blocks, or the rest. -/
def Dev.ioLand (blockBits : Bool) (e : Nat) (d : Dev) : Dev :=
  if d.quadDown (meQ e) then d else
  let here (x : Nat × MeIo) : Bool := decide (x.1 ≤ d.tick) && isBlockBit x.2 == blockBits
  let ws := (d.me e).io.filter here
  if ws.isEmpty then d else
  let d := d.modMe e (fun m => { m with io := m.io.filter (fun x => !here x) })
  ws.foldl (fun d x => d.ioAct e x.1 x.2) d

/-- R22, R288, R290, R304: a tick begins for engine `e`: the bits it wrote two ticks before change, ahead of what the hardware sets on the tick;
then the housekeeping matches reach it, and it stops at a word boundary. -/
def Dev.meTick (e : Nat) (d : Dev) : Dev := ((d.ioLand true e).meHkCopy e).meBoundary e

/-- R29, R285, R508: the end of a tick: what engines sent for it acts after every other write of the tick, and then the writes land that take
effect on the next; the cancels of the slices go on (R151). -/
def Dev.tickEnds (d : Dev) : Dev :=
  forRange (fun q d => if (d.slice q).cancels.isEmpty then d else d.cancelTick q) 0 4 (forRange (Dev.ioLand false) 0 8 d).landed

/-- R29: a tick of the clock passes, while it runs: the tick ends, and the next begins, where ENDs reach their boundaries (R256) and engines go on. -/
def Dev.idleTick (d : Dev) : Dev := if d.tb.running then forRange Dev.meTick 0 8 d.tickEnds.clockTick.ibxEnds else d

/-! ## Sinks -/

/-- R193: the sink acts on tick `t` with stamp `st`. -/
def Dev.sinkAct (d : Dev) (q sink t : Nat) (st : Stamp) : Dev :=
  if sink < 0x100 then d.tcTrigger (256 * q + sink) t
  else if sink < 0x140 then d.feTrigger (64 * q + (sink - 0x100)) t
  else if sink < 0x180 then d.ibxCond (16 * q + (sink - 0x140) / 4) ((sink - 0x140) % 4)
  else if sink < 0x182 then d.carOpen (2 * q + (sink - 0x180)) t st
  else if sink < 0x190 then d
  else if sink < 0x1A0 then d.moveStart (16 * q + (sink - 0x190))
  else if sink < 0x1C0 then d.meEvent (2 * q + (sink - 0x1A0) / 16) ((sink - 0x1A0) % 16)
  else if sink < 0x1C4 then d.convStart (4 * q + (sink - 0x1C0)) t
  else d

/-- R25: the earlier of two merged events by STIME and fine stamp, then by selector. -/
def XEvent.first (x y : XEvent) : XEvent :=
  if y.at_.time < x.at_.time ∨ (y.at_.time = x.at_.time ∧
    (y.at_.fine < x.at_.fine ∨ (y.at_.fine = x.at_.fine ∧ y.sel < x.sel))) then y else x

/-- R23, R25: the events that reach a sink on the earliest tick that is due act there once. -/
def Dev.xbarAct (d : Dev) (q sink : Nat) : Dev :=
  let here (x : XEvent) : Bool := x.q == q && x.sink == sink
  match (d.xev.filter here).map XEvent.due with
  | [] => d
  | t :: ts =>
    let t := ts.foldl min t
    if d.tick < t ∨ !d.tb.running then d else
    match d.xev.filter (fun x => here x && x.due == t) with
    | [] => d
    | x :: xs =>
      let d := { d with xev := d.xev.filter (fun x => !(here x && x.due == t)) }
      if d.quadDown q then d else
      let d := if xs.isEmpty then d else
          (if sink < 0x100 then d.modTc (256 * q + sink) (fun c => { c with mergeTick := some t }) else d).incSat (XBAR_MERGE_CNT q)
      d.sinkAct q sink t (xs.foldl XEvent.first x).at_

/-! ## Meanings -/

/-- XBAR_SINK_ACT (R23, R25). -/
def execXbarSinkAct (q : Fin 4) (sink : Fin 452) (s : State) : Host.Outcome State Fault Refusal := onDev s (fun d => d.xbarAct q sink)

end Sys2Proof.Machine
end

