-- ==== Sys2Proof/WellFormed.lean ====
section
/-! DEFINITION. Well-formed commands: a command whose operand is a list must carry a list that its sender can send. Every other
operand is bounded by its type. -/

namespace Sys2Proof

/-- R44: the hits of one calibration: one count for each of the 192 taps, 65,536 samples in all. -/
def wfHits (hits : List Nat) : Bool := hits.length == 192 && hits.sum == 65536

/-- R361, R362: a bulk access moves at least one dword and stays in the port's 64 KiB window, whose dword `off` it starts at. -/
def wfBulk (off n : Nat) : Bool := decide (1 ≤ n) && decide (off + n ≤ 16384)

/-- R344: one descriptor read brings at most the eight descriptors that the fetch buffer holds. -/
def wfFetch : FetchResult → Bool
  | .ok ds => decide (ds.length ≤ 8)
  | .error => true

/-- The changes of the data line stand in the order of their ticks. -/
def risingTicks : List (Nat × Bool) → Bool
  | a :: b :: r => decide (a.1 < b.1) && risingTicks (b :: r)
  | _ => true

/-- R84: the data line of a serial frame changes at rising ticks after the frame's start. -/
def wfFrame (f : SerialFrame) : Bool := risingTicks f.changes

/-- R505, R507: an 8-byte write stays in BAR0. -/
def wfPair (off : Nat) (second : Option SecondDword) : Bool := second.isNone || decide (off + 1 < 65536)

/-- Well-formedness of a command. -/
def Instr.wf : Instr → Bool
  | .lineCalibrationDone _ hits => wfHits hits
  | .bulkWrite _ off data => wfBulk off data.length
  | .bulkRead _ off n => wfBulk off n
  | .descriptorFetchDone _ r => wfFetch r
  | .serialFrameCheck _ frame => wfFrame frame
  | .registerWrite _ off _ v => wfPair off v.second
  | _ => true

end Sys2Proof
end

