-- ==== Sys2Proof/Machine/Host.lean ====
section
/-! DEFINITION. The host interface (R335 to R347, R359 to R371): doorbells, fetching and forwarding of descriptors, completions, the bulk
port, and the states of the link and of the functions. -/

namespace Sys2Proof.Machine

/-! ## Configuration space -/

/-- R338: class code, subclass and programming interface of every function. -/
def classCode : BitVec 24 := 0x118000

/-- A list of numbers as a mask of bits. -/
def maskOf (n : Nat) (p : Nat → Bool) : Nat := (List.range n).foldl (fun v i => setBitAt v i (p i)) 0

/-- R338: dword `i` of the vendor-specific extended capability of function `f`: the fuses give what the function owns. -/
def Dev.vsec (d : Dev) (f i : Nat) : Word :=
  match i with
  | 0 => BitVec.ofNat 32 ((Sys2Proof.Config.vsecNext f).toNat * 2 ^ 20 + 1 * 2 ^ 16 + 0x000B)
  | 1 => BitVec.ofNat 32 (0x020 * 2 ^ 20 + 1 * 2 ^ 16 + 0x0001)
  | 2 => 0x4E444353
  | 3 => BitVec.ofNat 32 (f * 2 ^ 8 + b2n (d.manager == f) * 2 ^ 4 + maskOf 4 (fun q => d.qOwner q == f))
  | 4 => BitVec.ofNat 32 (maskOf 32 (fun k => d.srOwner k == f))
  | 5 => BitVec.ofNat 32 (maskOf 32 (fun k => d.rrOwner k == f))
  | _ => 0

/-! ## Doorbells -/

/-- R341: a doorbell write is dropped and counted. -/
def Dev.dbDrop (d : Dev) : Dev := d.incSat HIF_DBDROP_CNT

/-- R341: the doorbell of submission ring `k`: a new tail. -/
def Dev.srDoorbell (d : Dev) (f k v : Nat) : Dev :=
  let n := d.srSize k
  let h := d.get (SR_HEAD_HEAD k)
  if d.srOwner k ≠ f ∨ ¬ d.flag (SR_CFG_EN k) ∨ n ≤ v then d.dbDrop
  else if ringDist n h v < ringDist n h (d.get (SR_TAIL_TAIL k)) then d.dbDrop.raise (SR_STATUS_DBERR k)
  else d.put (SR_TAIL_TAIL k) v

/-- R341, R382, R384: the doorbell of return ring `k`: a new head. The ring is armed; a report of lost records finds its slot; records that
remain start the timer at once. -/
def Dev.rrDoorbell (d : Dev) (f k v : Nat) : Dev :=
  let n := d.rrSize k
  let h := d.get (RR_HEAD_HEAD k)
  if d.rrOwner k ≠ f ∨ ¬ d.flag (RR_CFG_EN k) ∨ n ≤ v then d.dbDrop
  else if ringDist n h (d.get (RR_TAIL_TAIL k)) < ringDist n h v then d.dbDrop.raise (RR_STATUS_DBERR k)
  else
    let d := ((d.put (RR_HEAD_HEAD k) v).ringArm k).ringLostPlace k
    if d.rrUsed k + d.heldFor k = 0 then d else d.ringWrote k

/-- R341: a write by function `f` at byte offset `off` of its BAR2. -/
def Dev.doorbell (d : Dev) (f off : Nat) (v : Word) : Dev :=
  let i := bits v.toNat 0 16
  if off % 0x40 ≠ 0 ∨ 0x1000 ≤ off then d.dbDrop
  else if off < 0x800 then d.srDoorbell f (off / 0x40) i
  else d.rrDoorbell f ((off - 0x800) / 0x40) i

/-! ## Fetching and forwarding -/

/-- R12: the function of a bulk access, its dword offset, and its dwords. -/
def BulkOp.span : BulkOp → Nat × Nat × Nat
  | .write f off data => (f, off, data.length)
  | .read f off n => (f, off, n)

/-- A bulk access that writes. -/
def BulkOp.isWrite : BulkOp → Bool
  | .write _ _ _ => true
  | .read _ _ _ => false

/-- R362: a bulk write of function `f` has not reached stacked memory yet. -/
def Dev.bulkBehind (d : Dev) (f : Nat) : Bool := d.host.bulkq.any (fun x => x.isWrite && x.span.1 == f)

/-- R344, R362, R363, R367, R369, R465, R470: the fetch engine may read for ring `k`. -/
def Dev.mayFetch (d : Dev) (k : Nat) : Bool :=
  let f := d.fn (d.srOwner k)
  d.flag (SR_CFG_EN k) && d.host.linkUp && !d.host.detached && f.bme && !f.d3 && d.flag PWR_BOOTSTAT_READY && decide (d.get PWR_STATUS_STATE < 2) &&
  !d.bulkBehind (d.srOwner k) && (d.sring k).reading.isNone && decide ((d.sring k).buf.length < 8) && d.get (SR_HEAD_HEAD k) != d.get (SR_TAIL_TAIL k)

/-- R344: the descriptors of one read: consecutive slots that do not pass the ring's end. -/
def Dev.fetchCount (d : Dev) (k : Nat) : Nat :=
  let n := d.srSize k
  let h := d.get (SR_HEAD_HEAD k)
  min (min (clampN 1 8 (d.get (SR_CFG_FETCH k))) (8 - (d.sring k).buf.length)) (min (ringDist n h (d.get (SR_TAIL_TAIL k))) (n - h))

/-- R344: the next ring in turn issues a read. -/
def Dev.fetchIssue (d : Dev) : Dev :=
  match firstIdx (fun i => d.mayFetch ((d.host.lastRing + 1 + i) % 32)) 0 32 with
  | none => d
  | some i =>
    let k := (d.host.lastRing + 1 + i) % 32
    let n := d.fetchCount k
    let h := d.get (SR_HEAD_HEAD k)
    ((({ d with host := { d.host with lastRing := k } }).modSring k (fun s => { s with reading := some (h, n) })).emit (.fetch k h n))

/-- R347: the read of ring `k` has failed: the ring stops, and one record reports the slot where its completion ring has a free slot. -/
def Dev.fetchFail (d : Dev) (k : Nat) : Dev :=
  match (d.sring k).reading with
  | none => d
  | some (slot, _) =>
    let d := (d.srStop k).raise (SR_STATUS_HOST_ERR k)
    if d.rrFree (d.get (SR_CFG_CQ k)) = 0 then d
    else d.flightNone k ⟨0xFFFF00FF, 0, 0, 0, 0, 0, 0, 0⟩ 7 (some slot)

/-- R340, R344: a descriptor read brings its descriptors: they enter the fetch buffer, and the head advances past them. -/
def Dev.fetchDone (d : Dev) (k : Nat) (ds : List Desc) : Dev :=
  match (d.sring k).reading with
  | none => d
  | some (slot, _) =>
    (d.modSring k (fun s => { s with buf := s.buf ++ ds, reading := none })).put (SR_HEAD_HEAD k) ((slot + ds.length) % d.srSize k)

/-- R345, R346: the next descriptor of ring `k` leaves the fetch buffer for its target. -/
def Dev.forward (d : Dev) (k : Nat) : Dev :=
  match (d.sring k).buf with
  | [] => d
  | x :: rest =>
    if d.srFenced k ∨ ¬ d.srRoom k then d else
    let f : Flight := { id := d.host.nextId, sr := k, f := d.srOwner k, cq := d.get (SR_CFG_CQ k), target := x.target, desc := x }
    let d := d.modSring k (fun s => { s with buf := rest })
    { d with host := { d.host with flights := d.host.flights ++ [f], nextId := d.host.nextId + 1 } }

/-- R12: the oldest credit of queue `x` that is due arrives. -/
def Dev.creditArrive (d : Dev) (x : FabricQueue) : Dev :=
  match d.host.credits.find? (fun c => c.x == x && decide (c.due ≤ d.tick)) with
  | some c => { d with host := { d.host with credits := removeFirst c d.host.credits } }
  | none => d

/-! ## Completions -/

/-- R359: the completion record of `x` with phase bit `p` and the head `h` of its ring. -/
def completionRecord (x : Flight) (p h : Nat) : BitVec 128 :=
  BitVec.ofNat 128 (p * 2 ^ 127 + (x.stime % 2 ^ 36) * 2 ^ 85 + (x.sr % 32) * 2 ^ 80 + (h % 2 ^ 16) * 2 ^ 64 +
    (x.value % 2 ^ 32) * 2 ^ 32 + x.desc.op * 2 ^ 24 + (x.status % 256) * 2 ^ 16 + x.desc.hdr 16 16)

/-- The completion credit of the target of `x` goes back (R12, R13). -/
def Dev.compBack (d : Dev) (x : Flight) : Dev :=
  if x.target < 4 then d.creditBack (fqComp x.target) else if x.target = 4 then d.creditBack .spineCompletion else d

/-- R342, R359, R384: the record is written at the tail of ring `k`, which advances. -/
def Dev.completionPut (d : Dev) (x : Flight) : Dev :=
  let k := x.cq
  let t := d.get (RR_TAIL_TAIL k)
  let p := d.get (RR_STATUS_P k)
  let d := d.emit (.completion k t (completionRecord x p (x.sqhead.getD (d.get (SR_HEAD_HEAD x.sr)))))
  let d := if t + 1 = d.rrSize k then (d.put (RR_TAIL_TAIL k) 0).put (RR_STATUS_P k) (1 - p) else d.put (RR_TAIL_TAIL k) (t + 1)
  d.ringWrote k

/-- R13, R359, R363, R367: the completion of the `i`-th descriptor in flight is written, or dropped where its path to the host is gone. It waits
for a last effect that comes on the next tick (R351), and while its function is in D3hot. -/
def Dev.completionWrite (d : Dev) (i : Nat) : Dev :=
  match d.host.flights[i]? with
  | none => d
  | some x =>
    if x.stage ≠ 2 ∨ x.stime = d.now + 1 then d else
    let gone := ({ d with host := { d.host with flights := removeFirst x d.host.flights } }).compBack x
    if x.orphan then gone.hostDrop
    else if (d.fn x.f).d3 ∨ ¬ d.flag (RR_CFG_EN x.cq) ∨ d.rrSize x.cq ≤ d.rrUsed x.cq + 1 then d
    else gone.completionPut x

/-- R350, R363: bytes go to host memory for descriptor `x`; once the path to the host is gone they are dropped and counted. -/
def Dev.hostOut (d : Dev) (x : Flight) (bytes : List Byte) : Dev :=
  if x.orphan then d.hostDrop else if bytes.isEmpty then d else d.emit (.hostWrite x.desc.d1.toNat bytes)

/-! ## The link -/

/-- R389: the records held for function `f` in D3hot are dropped. -/
def Dev.holdDrop (d : Dev) (f : Nat) : Dev := { d with ru := { d.ru with held := Tab.set [] d.ru.held f [] } }

/-- R363, R389: a link loss counts the records that the hold buffers lose. -/
def Dev.holdCount (f : Nat) (d : Dev) : Dev := d.addSat HIF_DETACH_DROP_CNT (Tab.get [] d.ru.held f).length

/-- R363, R366: what function `f` has in its fetch buffers and at its bulk port is discarded, and completions still outstanding lose their path. -/
def Dev.pathGone (d : Dev) (f : Nat) : Dev :=
  { d with host := { d.host with
    srs := d.host.srs.filter (fun p => d.srOwner p.1 != f)
    bulkq := d.host.bulkq.filter (fun x => x.span.1 != f)
    flights := d.host.flights.map (fun x => if x.f = f then { x with orphan := true } else x) } }

/-- R363, R366, R368: the rings, the bulk port and the MSI-X state of function `f` return to their Reset values. -/
def Dev.hostRegs (d : Dev) (f : Nat) : Dev :=
  let mine (o : Nat) : Bool :=
    (decide (0x4040 + 0x10 * f ≤ o) && decide (o < 0x4050 + 0x10 * f)) ||
    (decide (0x4100 ≤ o) && decide (o < 0x4500) && d.srOwner ((o - 0x4100) / 0x20) == f) ||
    (decide (0x4500 ≤ o) && decide (o < 0x4900) && d.rrOwner ((o - 0x4500) / 0x20) == f)
  { d with
    regs := d.regs.filter (fun p => !mine p.1)
    ru := { d.ru with
      ringSeq := d.ru.ringSeq.filter (fun p => d.rrOwner p.1 != f)
      ringLost := d.ru.ringLost.filter (fun p => d.rrOwner p.1 != f)
      modEnd := d.ru.modEnd.filter (fun p => d.rrOwner p.1 != f)
      sent := d.ru.sent.filter (fun p => d.rrOwner p.1 != f) }
    host := { d.host with fns := Tab.set {} d.host.fns f {} } }

/-- R363, R366: what the loss of the path does to function `f`; a function-level reset does not count the records held for it (R389). -/
def Dev.fnLost (f : Nat) (d : Dev) : Dev := ((d.pathGone f).holdDrop f).hostRegs f

/-- R383: the records held for D3hot that a link loss drops: the STIME of the first one stands for the report. -/
def Dev.firstHeld (d : Dev) : Option Nat := ((d.ru.held.flatMap (fun p => p.2)).head?).map (fun x => x.2.2.at_.time)

/-- R363, R364, R368: the link is lost: every function loses its path, the interface's registers return to their Reset values but GEN and
DETACH_DROP, and a LINK_STATE record is raised. -/
def Dev.linkLost (d : Dev) : Dev :=
  let first := d.ru.detachFirst.or d.firstHeld
  let d := forRange Dev.fnLost 0 4 (forRange Dev.holdCount 0 4 d)
  let keep (o : Nat) : Bool := o < 0x4000 || 0x4040 ≤ o || o == HIF_GEN || o == HIF_DETACH_DROP
  let d := { d with
    regs := d.regs.filter (fun p => keep p.1)
    ru := { d.ru with detachFirst := first }
    host := { d.host with linkUp := false, detached := true } }
  d.spineRecNow 0x15 0 0 (d.get HIF_GEN_GEN) (d.get HIF_DETACH_DROP_CNT) 0

/-- R363: DL_Down. -/
def Dev.linkDown (d : Dev) : Dev := if d.host.linkUp then d.linkLost else d

/-- R368: the code of a rate. -/
def rateCode : LinkRate → Nat
  | .gt2_5 => 1
  | .gt5 => 2
  | .gt8 => 3
  | .gt16 => 4

/-- R368: the code of a width. -/
def widthCode : LinkWidth → Nat
  | .x1 => 1
  | .x4 => 4
  | .x8 => 8

/-- R364, R365: the link trains; a return after a loss raises a LINK_STATE record. -/
def Dev.linkTrained (d : Dev) (width rate : Nat) : Dev :=
  if d.host.linkUp ∨ ¬ d.pw.released then d else
  let d := (((d.incWrap HIF_GEN_GEN).put HIF_LINK_WIDTH width).put HIF_LINK_RATE rate)
  let d := { d with host := { d.host with linkUp := true } }
  if d.host.detached then d.spineRecNow 0x15 1 0 (d.get HIF_GEN_GEN) (d.get HIF_DETACH_DROP_CNT) 0 else d

/-- R386: one ring of a function back in D0: a message that is due, and one of a ring that holds records while disarmed without a message sent. -/
def Dev.ringBack (f : Nat) (k : Nat) (d : Dev) : Dev :=
  if d.rrOwner k ≠ f ∨ ¬ d.flag (RR_CFG_EN k) ∨ ¬ d.flag (RR_IRQ_EN k) then d
  else if d.flag (RR_IRQ_DUE k) ∨ (0 < d.rrUsed k ∧ ¬ d.flag (RR_IRQ_ARMED k) ∧ Tab.get 0 d.ru.sent k = 0) then
    ((({ d with ru := { d.ru with modEnd := Tab.set 0 d.ru.modEnd k 0 } }).put (RR_IRQ_TIMING k) 0).ringMessage k)
  else d

/-- R386: function `f` is in D0 with bus master enable set: held records enter their rings, then its rings send what is due. -/
def Dev.fnBack (d : Dev) (f : Nat) : Dev :=
  if (d.fn f).d3 ∨ ¬ (d.fn f).bme then d else
  let l := Tab.get [] d.ru.held f
  let d := { d with ru := { d.ru with held := Tab.set [] d.ru.held f [] } }
  let d := l.foldl (fun d x => d.ringWrite x.1 x.2.2 x.2.1) d
  if l.isEmpty && !(List.range 32).any (fun k => d.rrOwner k == f && d.flag (RR_IRQ_DUE k)) then d else forRange (Dev.ringBack f) 0 32 d

/-- R365, R369, R385, R386: bus master enable of function `f` is set, with its MSI-X and PME control. -/
def Dev.busMaster (d : Dev) (f : Nat) (msixEn fmask pmeEn : Bool) : Dev :=
  if ¬ d.host.linkUp then d else
  let d := d.modFn f (fun x => { x with bme := true, msixEn, fmask, pmeEn })
  ({ d with host := { d.host with detached := false } }).fnBack f

/-- R366, R477: a function-level reset; FW4.FLRSTOP resets the quadrants that the function owns. -/
def Dev.flr (d : Dev) (f : Nat) : Dev :=
  if ¬ d.host.linkUp then d else
  let d := d.fnLost f
  if bitAt (d.fw 4) 11 then forRange (fun q d => if d.qOwner q = f then d.quadReset q false else d) 0 4 d else d

/-- R367: function `f` enters D3hot. -/
def Dev.d3Enter (d : Dev) (f : Nat) : Dev := if d.host.linkUp then d.modFn f (fun x => { x with d3 := true }) else d

/-- R386, R470: function `f` returns to D0; the manager's return refuses a pending request for SLEEP. -/
def Dev.d0Return (d : Dev) (f : Nat) : Dev :=
  if ¬ (d.fn f).d3 then d else
  let d := d.modFn f (fun x => { x with d3 := false })
  let d := if d.flag PWR_STATUS_SLPPEND ∧ d.manager = f ∧ d.get PWR_STATUS_STATE < 2 then
      ((d.put PWR_STATUS_SLPPEND 0).put PWR_CTL_REQ 0).pwrRefuse 2 false
    else d
  d.fnBack f

/-! ## The bulk port -/

/-- R361: the stacked byte address of an access at dword `off` of function `f`'s BAR4. -/
def Dev.bulkAt (d : Dev) (f off : Nat) : Nat :=
  4 * d.get (BULK_PTR_PTR f) + (if d.flag (BULK_CTL_INC f) then 0 else 4 * off)

/-- R361: PTR after an access of `n` dwords that stayed in stacked memory. -/
def Dev.bulkStep (d : Dev) (f n : Nat) : Dev :=
  if d.flag (BULK_CTL_INC f) then d.put (BULK_PTR_PTR f) (d.get (BULK_PTR_PTR f) + n) else d

/-- A byte mask of a dword's byte enables. -/
def beMask (be : BitVec 4) : Nat := be.toNat

/-- The dwords of a write from byte address `a` on, as 16-byte words: word address, byte mask, data. -/
def bulkWords : Nat → List MaskedDword → List (Nat × Nat × Nat)
  | _, [] => []
  | a, x :: r =>
    let rest := bulkWords (a + 4) r
    let m := beMask x.be * 2 ^ (a % 16)
    let v := x.v.toNat * 2 ^ (8 * (a % 16))
    match rest with
    | y :: t => if y.1 = a / 16 then (y.1, y.2.1 + m, y.2.2 + v) :: t else (a / 16, m, v) :: rest
    | [] => [(a / 16, m, v)]

/-- R361, R362, R133: one 16-byte word of a bulk write; in a closed region it is dropped and sets REGION. -/
def State.bulkStore (f : Nat) (s : State) (x : Nat × Nat × Nat) : State :=
  if x.2.1 = 0 then s else
  match s.dev.regionDrop x.1 with
  | some d => { s with dev := d.raise (BULK_STATUS_REGION f) }
  | none => s.memSpineStore x.1 x.2.1 x.2.2

/-- R361, R362: a bulk write by function `f` acts. -/
def State.bulkWrite (s : State) (f off : Nat) (data : List MaskedDword) : State :=
  let d := s.dev
  if ¬ d.flag (BULK_CTL_EN f) then s else
  let a := d.bulkAt f off
  let room := (2 ^ 26 - a) / 4
  let s := (bulkWords a (data.take room)).foldl (State.bulkStore f) s
  { s with dev := if room < data.length then s.dev.raise (BULK_STATUS_RANGE f) else s.dev.bulkStep f data.length }

/-- R312: `n` 16-byte words from word `w` on, each with whether it is uncorrectable, read by class `cls` on port `side` (0 engine, 1 spine). -/
def State.wordsRead (cls side : Nat) : Nat → Nat → State → List (Nat × Bool) × State
  | _, 0, s => ([], s)
  | w, n + 1, s =>
    let r := s.memRead (w % 2 ^ 22) cls side
    let rest := State.wordsRead cls side (w + 1) n r.2
    (r.1 :: rest.1, rest.2)

/-- The dwords from byte address `a` on, out of the words from that address on. -/
def bulkDwords (a n : Nat) (ws : List (Nat × Bool)) : List Word :=
  (List.range n).map (fun i => BitVec.ofNat 32 (dwordAt ((ws.getD ((a + 4 * i) / 16 - a / 16) (0, false)).1) (a + 4 * i)))

/-- R361, R362: a bulk read of `n` dwords by function `f` acts. -/
def State.bulkRead (s : State) (f off n : Nat) : State :=
  let d := s.dev
  if ¬ d.flag (BULK_CTL_EN f) then { s with dev := d.emit (.bulkData f (List.replicate n 0) false) } else
  let a := d.bulkAt f off
  if 2 ^ 26 < a + 4 * n then { s with dev := (d.raise (BULK_STATUS_RANGE f)).emit (.unsupported f) } else
  let r := State.wordsRead 3 1 (a / 16) ((a + 4 * n + 15) / 16 - a / 16) s
  let bad := r.1.any (fun x => x.2)
  let d := if bad then r.2.dev.raise (BULK_STATUS_POISON f) else r.2.dev
  { r.2 with dev := (d.bulkStep f n).emit (.bulkData f (bulkDwords a n r.1) bad) }

/-- R322, R308: a bulk access may act: its port is off, or stacked memory takes requests and none waits for its words. -/
def Dev.bulkMay (d : Dev) (x : BulkOp) : Bool :=
  let f := x.span.1
  let a := d.bulkAt f x.span.2.1
  !d.flag (BULK_CTL_EN f) || (d.memUp && d.memClear (a / 16) ((a + 4 * x.span.2.2 + 15) / 16 - a / 16))

/-- R361: a bulk access acts. -/
def State.bulkAct (s : State) : BulkOp → State
  | .write f off data => s.bulkWrite f off data
  | .read f off n => s.bulkRead f off n

/-- R12, R18: a bulk access arrives: it acts at once where none waits before it and it may; else it waits. -/
def State.bulkArrive (s : State) (x : BulkOp) : State :=
  if s.dev.host.bulkq.isEmpty && s.dev.bulkMay x then s.bulkAct x
  else { s with dev := { s.dev with host := { s.dev.host with bulkq := s.dev.host.bulkq ++ [x] } } }

/-- R12, R18: on each tick the oldest access that waits acts where it may. -/
def State.bulkTick (s : State) : State :=
  match s.dev.host.bulkq with
  | [] => s
  | x :: r =>
    if s.dev.bulkMay x then ({ s with dev := { s.dev with host := { s.dev.host with bulkq := r } } } : State).bulkAct x else s

/-- R29: a tick of the clock passes for the device and for stacked memory (R326, R12); none while TCLK is stopped. -/
def State.idleTick (s : State) : State :=
  if s.dev.tb.running then (({ s with dev := s.dev.idleTick } : State).mirrorTick).bulkTick else s

/-! ## Meanings -/

/-- SUBMISSION_DOORBELL (R341): a write of dword `off` of function `f`'s BAR2. -/
def execSubmissionDoorbell (f : Fin 4) (off : Fin 1024) (v : Word) (s : State) : Host.Outcome State Fault Refusal :=
  onDev s (fun d => d.doorbell f (4 * off) v)
/-- RETURN_DOORBELL (R341): a write of dword `off` of function `f`'s BAR2. -/
def execReturnDoorbell (f : Fin 4) (off : Fin 1024) (v : Word) (s : State) : Host.Outcome State Fault Refusal :=
  onDev s (fun d => d.doorbell f (4 * off) v)
/-- DESCRIPTOR_FETCH_ISSUE (R344). -/
def execDescriptorFetchIssue (s : State) : Host.Outcome State Fault Refusal := onDev s (fun d => d.fetchIssue)
/-- DESCRIPTOR_FETCH_DONE (R344): a read answers with as many descriptors as it asked for, or with an error. -/
def execDescriptorFetchDone (k : Fin 32) (r : FetchResult) (s : State) : Host.Outcome State Fault Refusal :=
  match r, (s.dev.sring k).reading with
  | .error, _ => onDev s (fun d => d.fetchFail k)
  | .ok ds, some (_, n) => if ds.length = n then onDev s (fun d => d.fetchDone k ds) else .fault .badCommand
  | .ok _, none => .next s
/-- COMPLETION_TIMEOUT (R347). -/
def execCompletionTimeout (k : Fin 32) (s : State) : Host.Outcome State Fault Refusal := onDev s (fun d => d.fetchFail k)
/-- DESCRIPTOR_FORWARD (R345). -/
def execDescriptorForward (k : Fin 32) (s : State) : Host.Outcome State Fault Refusal := onDev s (fun d => d.forward k)
/-- CREDIT_RETURN (R12). -/
def execCreditReturn (x : FabricQueue) (s : State) : Host.Outcome State Fault Refusal := onDev s (fun d => d.creditArrive x)
/-- COMPLETION_WRITE (R359). -/
def execCompletionWrite (i : Nat) (s : State) : Host.Outcome State Fault Refusal := onDev s (fun d => d.completionWrite i)
/-- BULK_WRITE (R361). -/
def execBulkWrite (f : Fin 4) (off : Fin 16384) (data : List MaskedDword) (s : State) : Host.Outcome State Fault Refusal :=
  if wfBulk off data.length then .next (s.bulkArrive (.write f off data)) else .fault .badCommand
/-- BULK_READ (R361). -/
def execBulkRead (f : Fin 4) (off : Fin 16384) (n : Fin 1025) (s : State) : Host.Outcome State Fault Refusal :=
  if wfBulk off n then .next (s.bulkArrive (.read f off n)) else .fault .badCommand
/-- LINK_DOWN (R363). -/
def execLinkDown (s : State) : Host.Outcome State Fault Refusal := onDev s (fun d => d.linkDown)
/-- LINK_UP (R365). -/
def execLinkUp (width : LinkWidth) (rate : LinkRate) (s : State) : Host.Outcome State Fault Refusal :=
  onDev s (fun d => d.linkTrained (widthCode width) (rateCode rate))
/-- BUS_MASTER_ENABLE (R365). -/
def execBusMasterEnable (f : Fin 4) (msixEn fmask pmeEn : Bool) (s : State) : Host.Outcome State Fault Refusal :=
  onDev s (fun d => d.busMaster f msixEn fmask pmeEn)
/-- FUNCTION_LEVEL_RESET (R366). -/
def execFunctionLevelReset (f : Fin 4) (s : State) : Host.Outcome State Fault Refusal := onDev s (fun d => d.flr f)
/-- D3HOT_ENTRY (R367). -/
def execD3hotEntry (f : Fin 4) (s : State) : Host.Outcome State Fault Refusal := onDev s (fun d => d.d3Enter f)
/-- D0_RETURN (R367). -/
def execD0Return (f : Fin 4) (s : State) : Host.Outcome State Fault Refusal := onDev s (fun d => d.d0Return f)

end Sys2Proof.Machine
end

