-- ==== Sys2Proof/Machine/Commit.lean ====
section
/-! DEFINITION. Staged writes land, commit groups fire (R398 to R403, R407, R408), and snapshots are taken and written (R409 to R414). -/

namespace Sys2Proof.Machine

/-! ## Landing -/

/-- A write that may land: accepted, its page checked. -/
def Staged.waits (w : Staged) : Bool := !w.landed && w.check.isNone

/-- R398: the groups and places of the writes that may land, lowest group first, in staging order. -/
def Dev.unlanded (d : Dev) : List (Nat × Staged) :=
  d.cmt.groups.flatMap (fun p => (p.2.writes.filter Staged.waits).map (fun w => (p.1, w)))

/-- R398, R12: the `i`-th write that waits lands in the commit buffer of its quadrant; one for a quadrant that is down is discarded (R407).
Its credit of the staged-write queue returns. -/
def Dev.stageLand (d : Dev) (i : Nat) : Dev :=
  match d.unlanded[i]? with
  | none => d
  | some (g, w) =>
    let down := d.quadDown w.q
    let next (ys : List Staged) : List Staged :=
      if down then ys.filter (fun y => y.place != w.place) else ys.map (fun y => if y.place = w.place then { y with landed := true } else y)
    let d := d.modGrp g (fun x => { x with writes := next x.writes })
    match w.flight with
    | some id => (d.creditBack .stagedWrite).stageSettle id
    | none => d

/-! ## Snapshots -/

/-- R410, R189: the value of a listed register: a channel's CNT as corrected, everything else as it stands. -/
def Dev.snapValue (d : Dev) (off : Nat) : Word :=
  match locate off with
  | some l =>
    if l.gid == .tc && l.info.off == 0x008 then
      match (d.tcChainAt false (d.tcLow l.i) d.tick).find? (fun p => p.1 == l.i) with
      | some p => w32 p.2
      | none => d.peek off
    else d.peek off
  | none => 0

/-- R414: the LIST words of set `s` in use. -/
def Dev.snapEntries (d : Dev) (s : Nat) (cfg : Nat) : List Nat :=
  (List.range (min 64 (bits cfg 16 7))).map (fun k => (d.word (SNAPLIST_LIST s k)).toNat)

/-- R409: the offset of an entry. -/
def entryOff (w : Nat) : Nat := 4 * bits w 2 16

/-- R412, R409: the value dwords of the entries, at most 128. -/
def Dev.snapValues (d : Dev) (ws : List Nat) : List Nat :=
  (ws.flatMap (fun w => (d.snapValue (entryOff w)).toNat :: (if bitAt w 31 then [(d.snapValue (entryOff w + 4)).toNat] else []))).take 128

/-- R33, R412: an entry lies in a quadrant that has not been calibrated (log 44). -/
def Dev.snapUncal (d : Dev) (ws : List Nat) : Bool :=
  ws.any (fun w => decide (0x10000 ≤ entryOff w) && decide (entryOff w < 0x30000) && !d.calDone ((entryOff w - 0x10000) / 0x8000))

/-- R412: the image of set `s` on this tick, with sequence number `seq`. -/
def Dev.snapImage (d : Dev) (x : Snap) (time seq : Nat) : List Nat :=
  let cfg := (d.word (SNAP_CFG x.s)).toNat
  let ws := d.snapEntries x.s cfg
  let vs := d.snapValues ws
  [time % 2 ^ 32, time / 2 ^ 32, x.s * 2 ^ 24 + ws.length * 2 ^ 16 + vs.length,
   (seq % 65536) * 2 ^ 16 + b2n d.inWindow * 2 + b2n (d.snapUncal ws), x.trig, 0, 0, 0] ++ vs

/-- R408, R411: a COMMIT record of set `s`. -/
def Dev.snapRec (d : Dev) (sub s time p0 p1 : Nat) : Dev :=
  d.spineRec { typ := 0x13, sub, src := s, at_ := { time, clkSw := d.inWindow }, p0, p1 }

/-- R410, R411: a snapshot is taken on this tick, or dropped where both buffers hold images. -/
def Dev.snapNow (d : Dev) (x : Snap) : Dev :=
  let time := d.stimeAt x.due
  if 2 ≤ d.cmt.bufs.length then
    let d := d.incSat CMT_SNAPDROP_CNT
    let d := if d.flag (SNAP_CFG_REC x.s) then d.snapRec 5 x.s time 0 0 else d
    match x.flight with
    | some id => d.flightEnd id 4 0
    | none => d
  else
    let seq := Tab.get 0 d.cmt.seq x.s
    let y : Snap := { x with time, cfg := d.word (SNAP_CFG x.s), image := d.snapImage x time seq }
    { d with cmt := { d.cmt with bufs := d.cmt.bufs ++ [y], seq := Tab.set 0 d.cmt.seq x.s ((seq + 1) % 65536) } }

/-- R410: the oldest trigger of set `s` whose tick has come is taken. -/
def Dev.snapTake (d : Dev) (s : Nat) : Dev :=
  match d.cmt.trigs.find? (fun x => x.s == s && decide (x.due ≤ d.tick)) with
  | some x => ({ d with cmt := { d.cmt with trigs := removeFirst x d.cmt.trigs } }).snapNow x
  | none => d

/-- The bytes of dwords, little-endian. -/
def dwordBytes (ws : List Nat) : List Byte := ws.flatMap (fun w => (List.range 4).map (fun k => BitVec.ofNat 8 (byteOf w k)))

/-- Up to four dwords as a 16-byte word. -/
def quadWord (ws : List Nat) : Nat := (ws.take 4).foldr (fun w v => v * 2 ^ 32 + w) 0

/-- R411, R20: dwords are written to stacked memory from byte address `a` on, a 16-byte word at a time, in the class of a microengine. -/
def State.imageStore : Nat → Nat → List Nat → State → State
  | 0, _, _, s => s
  | n + 1, a, ws, s =>
    if ws = [] then s else
    State.imageStore n (a + 16) (ws.drop 4) (s.memEngineStore (a / 16 % 2 ^ 22) (2 ^ (4 * min 4 ws.length) - 1) (quadWord ws) 2 false)

/-- R411, R412: the `i`-th image held in a buffer has been written, to the host or to its slot in stacked memory, and its buffer is free. -/
def State.snapWritten (s : State) (i : Nat) (hostErr : Bool) : State :=
  match s.dev.cmt.bufs[i]? with
  | none => s
  | some x =>
    let d : Dev := { s.dev with cmt := { s.dev.cmt with bufs := s.dev.cmt.bufs.eraseIdx i } }
    let len := 4 * x.image.length
    match x.flight with
    | some id =>
      match d.flight id with
      | some f =>
        if hostErr then { s with dev := d.flightEnd id 7 0 }
        else { s with dev := (d.hostOut f (dwordBytes x.image)).flightEnd id 0 len }
      | none => { s with dev := d }
    | none =>
      let next := d.get (SNAP_CFG_NEXT x.s)
      let slots := max 1 (bits x.cfg.toNat 8 8)
      let a := (1024 * (d.get (SNAP_DST_BASE x.s) + next)) % 2 ^ 26
      if !d.memUp || !d.memClear (a / 16) ((x.image.length + 3) / 4) then s else
      let s := State.imageStore 34 a x.image { s with dev := d.put (SNAP_CFG_NEXT x.s) ((next + 1) % slots) }
      { s with dev := if bitAt x.cfg.toNat 30 then s.dev.snapRec 4 x.s x.time len a else s.dev }

/-! ## Firing -/

/-- The ibex engine whose block a staged write goes to. -/
def Staged.ibex (w : Staged) : Option Nat :=
  match locate w.off with
  | some l => if w.swap.isNone && l.gid == .ibx then some l.i else none
  | none => none

/-- R399, R420: the order in which writes are applied: within a block the staging order, ibex blocks in ascending order. -/
def commitOrder (ws : List Staged) : List Staged :=
  ws.filter (fun w => w.ibex.isNone) ++ (List.range 64).flatMap (fun e => ws.filter (fun w => w.ibex == some e))

/-- R399, R402, R418: one write of a group reaches its register on C − 1, with the checks of a direct write; an image swap acts on C. -/
def Dev.commitWrite (d : Dev) (w : Staged) : Dev :=
  match w.swap with
  | some e => { d with late := d.late ++ [{ due := d.tick, rank := 12, code := 0, off := e, v := 0 }] }
  | none => d.regWrite .commit w.off w.v

/-- R401: registers that an earlier firing for the same commit tick wrote count once each; a mark 2^20 higher says that one has been counted. -/
def Dev.commitCollide (d : Dev) (c : Nat) (offs : List Nat) : Dev :=
  let before := match d.cmt.lastC with
    | some (t, l) => if t = c then l else []
    | none => []
  let hit := offs.filter (fun o => before.contains o && !before.contains (o + 2 ^ 20))
  let d := d.addSat CMT_GCOLL_CNT hit.length
  { d with cmt := { d.cmt with lastC := some (c, before ++ offs ++ hit.map (· + 2 ^ 20)) } }

/-- R401: a lower group waits to fire for the same commit tick. -/
def Dev.lowerFires (d : Dev) (g c : Nat) : Bool :=
  (List.range g).any (fun k => match ((d.grpSettle k).grp k).fire with
    | some f => f.c == c
    | none => false)

/-- R399 to R403, R407, R408, R410: group `g` fires on C − 1: its landed writes act, the others are discarded, a snapshot that it triggers is taken
before, and a record is written. -/
def Dev.commitFire (d : Dev) (g : Nat) : Dev :=
  let d := d.grpSettle g
  match (d.grp g).fire with
  | none => d
  | some f =>
    if d.tick + 1 < f.c ∨ d.lowerFires g f.c ∨ ¬ d.tb.running then d else
    let d := if d.flag (SNAP_CFG_ONCMT g) && d.flag (SNAP_CFG_EN g) then d.snapNow { s := g, trig := 2, due := f.c - 1 } else d
    let ws := (d.grp g).writes
    let on := ws.filter (fun w => w.landed)
    let d := d.commitCollide f.c ((on.filter (fun w => w.swap.isNone)).map (fun w => w.off))
    let d := d.grpFree g
    let d := (commitOrder on).foldl Dev.commitWrite d
    let d := if ws = [] then (d.incSat CMT_EMPTYFIRE_CNT).cmtRec g 3 f.c 0 0 f.status 0
      else d.cmtRec g (b2n f.late) f.c on.length (ws.length - on.length) f.status f.lateness
    d.stageSettleAll (ws.map (fun w => w.flight))

/-! ## Meanings -/

/-- STAGED_WRITE_LAND (R398). -/
def execStagedWriteLand (i : Nat) (s : State) : Host.Outcome State Fault Refusal := onDev s (fun d => d.stageLand i)
/-- COMMIT_FIRE (R399). -/
def execCommitFire (g : Fin 32) (s : State) : Host.Outcome State Fault Refusal := onDev s (fun d => d.commitFire g)
/-- SNAPSHOT_TAKE (R410). -/
def execSnapshotTake (k : Fin 32) (s : State) : Host.Outcome State Fault Refusal := onDev s (fun d => d.snapTake k)
/-- SNAPSHOT_WRITE_DONE (R411). -/
def execSnapshotWriteDone (i : Nat) (hostErr : Bool) (s : State) : Host.Outcome State Fault Refusal := .next (s.snapWritten i hostErr)

end Sys2Proof.Machine
end

