-- ==== Sys2Proof/Machine/Debug.lean ====
section
/-! DEFINITION. The JTAG debug port (R302, R453) and the debugger's halt and resume of an engine. -/

namespace Sys2Proof.Machine

/-- R453: the registers named STATUS, which level 2 may read. -/
def statusReg (l : Loc) : Bool :=
  match l.gid, l.info.off with
  | .cmt, 0x000 => true
  | .hif, 0x000 => true
  | .bulk, 0x008 => true
  | .sr, 0x014 => true
  | .rr, 0x014 => true
  | .tb, 0x004 => true
  | .fusest, 0x000 => true
  | .mem, 0x004 => true
  | .mv, 0x018 => true
  | .pwr, 0x004 => true
  | .qstage, 0x010 => true
  | .axis, 0x004 => true
  | .axis, 0x120 => true
  | .me, 0x004 => true
  | .coach, 0x004 => true
  | .car, 0x020 => true
  | .tpl, 0x00C => true
  | .tc, 0x018 => true
  | .fe, 0x020 => true
  | .ibx, 0x00C => true
  | _, _ => false

/-- R453: the highest lock level at which the port still serves the request; a status register may be read at level 1 as at level 2 (log 41). -/
def debugReach : DebugRequest → Nat
  | .readRegister off => match locate (4 * off) with
    | some l => if statusReg l then 2 else 0
    | none => 0
  | .halt _ | .resume _ | .step _ _ | .readEngine _ _ _ => 1
  | _ => 0

/-- R302, R453: a halted engine issues one word and is halted again (log 41). -/
def Dev.meStep (d : Dev) (e : Nat) (lanes : Lanes) : Dev :=
  if d.get (ME_STATUS_STATE e) ≠ 4 ∨ d.quadDown (meQ e) then d else
  let d := d.modMe e (fun m => m.settle d.tick)
  let pc := d.get (ME_PC_PC e)
  let w := (d.me e).word (d.get (ME_STATUS_IMAGE e)) pc
  let d := match d.meWord e lanes pc w with
    | .ok r => r
    | .trap c t => d.meTrap e c t pc w
    | .wait => d
  let st := d.get (ME_STATUS_STATE e)
  if st = 1 ∨ st = 2 ∨ st = 3 then (d.modMe e (fun m => { m with before := st })).meState e 4 else d

/-- R453: the value of a port without the effects of a word that reads it. -/
def Dev.mePeek (d : Dev) (e : Nat) (lanes : Lanes) (p : Nat) : Option Nat :=
  match (d.modMe e (fun m => m.settle d.tick)).meRead e lanes p with
  | .ok r => some r.1
  | _ => none

/-- R453: a register port of an engine takes a value; another port takes none. -/
def Dev.mePoke (d : Dev) (e p v : Nat) : Dev :=
  if portKind p = .reg then (match d.meWrite e d.tick p v with
    | .ok r => r
    | _ => d)
  else d

/-- R453: a request that the lock level lets through is served; any other is answered with an error and changes nothing. -/
def State.debug (s : State) (r : DebugRequest) : State :=
  let d := s.dev
  let say (s : State) (v : Nat) : State := { s with dev := s.dev.emit (.jtag (some v)) }
  let act (d : Dev) : State := say { s with dev := d } 0
  if debugReach r < d.svc.dbgLevel then { s with dev := d.emit (.jtag none) } else
  match r with
  | .readRegister off => say s (d.peek (4 * off)).toNat
  | .writeRegister off v => act (d.regWrite .debug (4 * off) v)
  | .halt e => act (d.meHalt e)
  | .resume e => act (d.meResume e)
  | .step e lanes => act (d.meStep e lanes)
  | .readEngine e lanes p => { s with dev := d.emit (.jtag (d.mePeek e lanes p)) }
  | .writeEngine e p v => act (d.mePoke e p v.toNat)
  | .readImage e b a => say s ((d.me e).word b a)
  | .writeImage e b a v => act (d.modMe e (fun m => m.setImg b a v.toNat))
  | .readScratch e a => say s ((d.me e).load32 (4 * a))
  | .writeScratch e a v => act (d.modMe e (fun m => m.store32 (4 * a) v.toNat))
  | .readMemory w =>
    if !d.memUp || !d.memClear w 1 then { s with dev := d.emit (.jtag none) } else
    let r := s.memRead w 3 1
    say r.2 r.1.1
  | .writeMemory w v => if !d.memUp || !d.memClear w 1 then { s with dev := d.emit (.jtag none) } else say (s.memSpineStore w 0xFFFF v.toNat) 0

/-- ME_DEBUG_HALT (R302). -/
def execMeDebugHalt (e : Fin 8) (s : State) : Host.Outcome State Fault Refusal := onDev s (fun d => d.meHalt e)
/-- ME_DEBUG_RESUME (R302). -/
def execMeDebugResume (e : Fin 8) (s : State) : Host.Outcome State Fault Refusal := onDev s (fun d => d.meResume e)
/-- DEBUG_PORT_ACCESS (R453). -/
def execDebugPortAccess (r : DebugRequest) (s : State) : Host.Outcome State Fault Refusal := .next (s.debug r)

end Sys2Proof.Machine
end

