-- ==== Sys2Proof/Machine/Descriptor.lean ====
section
/-! DEFINITION. The descriptors at their targets (R346, R348 to R358): which one is served next, the checks of R349, and what each opcode does
but for those of the service unit. -/

namespace Sys2Proof
open Machine

/-- R348: payload word `k`, 0 the header. -/
def Desc.pay (x : Desc) (k : Nat) : Nat := ([x.d0, x.d1, x.d2, x.d3, x.d4, x.d5, x.d6, x.d7].getD k 0).toNat

/-- R350: a field of PARAM. -/
def Desc.par (x : Desc) (lo w : Nat) : Nat := bits x.param lo w

/-- R350: the first `n` pairs of a BAR0 offset and a value, from D1 on. -/
def Desc.pairs (x : Desc) (n : Nat) : List (Nat × Word) :=
  (List.range n).map (fun k => (bits (x.pay (k + 1)) 0 32, BitVec.ofNat 32 (bits (x.pay (k + 1)) 32 32)))

/-- R350: the first `n` offsets of REG_READ, two per word from D2 on. -/
def Desc.offsets (x : Desc) (n : Nat) : List Nat := (List.range n).map (fun i => bits (x.pay (2 + i / 2)) (32 * (i % 2)) 32)

/-- R353: entry `k` of COACH_INSERT, counted from 1. -/
def Desc.entry (x : Desc) (k : Nat) : Entry := Entry.of (x.pay (2 * k)) (x.pay (2 * k + 1))

/-- R352: the COUNT of writes that a descriptor carries. -/
def Desc.writes (x : Desc) : Nat := if x.op = 0x04 then x.par 8 3 else x.par 0 3

/-- R346: an opcode that runs on a DMA channel. -/
def isDma (op : Nat) : Bool := op == 0x40 || op == 0x41 || op == 0x42

/-- R350: the bits of PARAM that name a field; none for a reserved opcode. -/
def paramMask (op : Nat) : Option Nat :=
  (([(0x00, 0), (0x01, 7), (0x02, 7), (0x03, 0xF), (0x04, 0x71F), (0x05, 0x7F1F), (0x06, 0x1F), (0x07, 0x1F), (0x10, 3), (0x11, 0xF1F),
    (0x12, 0x1FFF), (0x20, 0xF), (0x21, 0xF), (0x30, 0x1FFFF), (0x31, 0xFFFF), (0x32, 0x3F), (0x40, 0), (0x41, 0), (0x42, 0), (0x48, 3),
    (0x50, 0), (0x51, 0), (0x52, 0), (0x53, 0), (0x54, 0), (0x55, 3), (0x56, 0), (0x57, 0xFFFFFF)] : List (Nat × Nat)).find?
      (fun p => p.1 == op)).map (fun p => p.2)

/-- R357: a privileged operation: one that needs the presence window; NVS_WRITE is one where it touches the boot region (R452). -/
def Desc.privileged (x : Desc) : Bool :=
  x.op == 0x53 || x.op == 0x54 || x.op == 0x55 || x.op == 0x56 || (x.op == 0x51 && decide (bits x.d2.toNat 0 23 < 0x100000))

end Sys2Proof

namespace Sys2Proof.Machine

/-! ## Service at a target -/

/-- R346: the descriptor that target `t` may begin next: the oldest that waits and has no earlier one of its ring in progress there; a quadrant
that loads the Coach begins none (R353). -/
def Dev.descNext (d : Dev) (t : Nat) : Option Flight :=
  (d.host.flights.filter (fun x => x.target == t && x.stage == 0 && !isDma x.desc.op)).find? (fun x =>
    !d.host.flights.any (fun y => y.target == t && y.stage == 1 && !isDma y.desc.op && (y.sr == x.sr || (decide (t < 4) && y.desc.op == 0x12))))

/-- R346: the descriptor of target `t` that is next, where it has opcode `op`. -/
def Dev.descOf (d : Dev) (t op : Nat) : Option Flight :=
  match d.descNext t with
  | some x => if x.desc.op = op then some x else none
  | none => none

/-- R346: the `i`-th DMA descriptor, one of the four oldest, where it has opcode `op` and every earlier spine descriptor of its ring has taken
effect. -/
def Dev.dmaOf (d : Dev) (i op : Nat) : Option Flight :=
  match ((d.host.flights.filter (fun x => isDma x.desc.op && x.stage == 0)).take 4)[i]? with
  | some x =>
    if x.desc.op = op ∧ ¬ d.host.flights.any (fun y => y.sr == x.sr && y.target == 4 && y.stage != 2 && !isDma y.desc.op && decide (y.id < x.id)) then
      some x
    else none
  | none => none

/-- R345, R12: descriptor `x` leaves its queue and is in progress. -/
def Dev.descBegin (d : Dev) (x : Flight) : Dev :=
  (d.modFlight x.id (fun y => { y with stage := 1 })).creditBack (if x.target < 4 then fqDesc x.target else .spine)

/-- R451, R457: descriptor `x` ends; a privileged operation that is done, or refused for want of a right, is logged. -/
def Dev.descEnd (d : Dev) (x : Flight) (status value : Nat) : Dev :=
  let d := d.flightEnd x.id status value
  if ¬ x.desc.privileged then d
  else if status = 0 then (d.flog 0x41 4 0 x.desc.op value).spineRecNow 0x14 0x24 0 x.desc.op x.f value
  else if status = 5 ∨ status = 6 then d.flog 0x44 4 0 x.desc.op status
  else d

/-! ## The checks of R349 -/

/-- R351: an offset that SREG_WRITE may name: the timebase, fuse, memory and service blocks. -/
def spineReg (o : Nat) : Bool := (decide (0x8000 ≤ o) && decide (o < 0x10000)) || (decide (0x30000 ≤ o) && decide (o < 0x40000))

/-- R452: the region of a store access: 0 boot, 1 user, 2 factory calibration; none where it touches another or spans regions that its
descriptor may not reach. -/
def nvsReach (op off len : Nat) : Bool :=
  decide (off + len ≤ 0x700000) || (op == 0x50 && decide (0x780000 ≤ off) && decide (off + len ≤ 0x790000))

/-- R422: the unit of a background test exists. -/
def testUnit (kind index : Nat) : Bool :=
  match kind with
  | 0x01 => decide (index < 1024)
  | 0x02 => decide (index < 256)
  | 0x03 => decide (index < 1024)
  | 0x04 => decide (index < 256)
  | 0x05 => decide (index < 64)
  | 0x06 => decide (index < 8)
  | 0x07 => decide (index < 8)
  | 0x08 => decide (index = 0)
  | 0x09 => decide (index = 0)
  | 0x0A => decide (index = 0)
  | 0x0B => decide (index = 0)
  | 0x0C => decide (index = 0)
  | 0x10 => decide (index < 4)
  | _ => false

/-- R354: a source that a route may name. -/
def routeSource (n : Nat) : Bool := decide (n < 0x410) || (decide (0x440 ≤ n) && decide (n < 0x500))

/-- R349 step 1 for the fields of each opcode: one is out of its range. -/
def descBadField (x : Desc) : Bool :=
  let w (k lo n : Nat) : Nat := bits (x.pay k) lo n
  match x.op with
  | 0x01 =>
    let lo := 0x10000 + x.target * 0x8000
    x.writes == 0 || (x.pairs x.writes).any (fun p => p.1 % 4 != 0 || decide (p.1 < lo) || decide (lo + 0x8000 ≤ p.1))
  | 0x02 => x.writes == 0 || (x.pairs x.writes).any (fun p => p.1 % 4 != 0 || !spineReg p.1)
  | 0x03 => x.par 0 4 == 0 || decide (12 < x.par 0 4) || (x.offsets (x.par 0 4)).any (fun o =>
      o % 4 != 0 || decide (0x40000 ≤ o) || (decide (0x4000 ≤ o) && decide (o < 0x8000)))
  | 0x04 => x.writes == 0 || (x.pairs x.writes).any (fun p => (stageQuad p.1).isNone)
  | 0x05 => x.par 8 2 == 3 || x.par 10 2 == 3
  | 0x10 => x.par 0 2 == 0 || (List.range (x.par 0 2)).any (fun k => (x.entry (k + 1)).bad false)
  | 0x12 => x.par 0 13 == 0 || decide (4096 < x.par 0 13) || decide (2 ^ 22 < w 1 4 22 + x.par 0 13)
  | 0x20 => !routeSource (w 1 0 12) || !sinkExists (w 1 16 12)
  | 0x21 => !routeSource (w 1 0 12) || !sinkExists (w 1 16 12)
  | 0x30 => x.par 10 7 == 0 || decide (64 < x.par 10 7) || decide (64 < x.par 4 6 + x.par 10 7)
  | 0x31 => w 2 0 15 == 0 || decide (16384 < w 2 0 15)
  | 0x40 => w 3 0 25 % 16 != 0 || decide (w 3 0 25 < 16) || decide (16777216 < w 3 0 25)
  | 0x41 => w 3 0 25 % 16 != 0 || decide (w 3 0 25 < 16) || decide (16777216 < w 3 0 25)
  | 0x42 => w 3 0 25 % 16 != 0 || decide (w 3 0 25 < 16) || decide (16777216 < w 3 0 25)
  | 0x50 => w 3 0 17 == 0 || decide (65536 < w 3 0 17) || !nvsReach 0x50 (w 2 0 23) (w 3 0 17)
  | 0x51 => w 3 0 17 == 0 || decide (65536 < w 3 0 17) || !nvsReach 0x51 (w 2 0 23) (w 3 0 17)
  | 0x52 => w 3 0 17 % 32 != 0
  | 0x56 => w 3 0 17 == 0 || decide (65536 < w 3 0 17)
  | 0x57 => !testUnit (x.par 0 8) (x.par 8 16)
  | _ => false

/-- R349 step 1: an undefined opcode, a must-be-0 bit that is set, or a field out of its range. -/
def descBad (x : Desc) : Bool :=
  match paramMask x.op with
  | none => true
  | some m => x.hdr 12 4 != 0 || x.hdr 10 1 != 0 || x.param &&& m != x.param || descBadField x

/-- R349 step 2, R337, R354, R357, R393, R394, R404, R445, R456: function `f` may not do this. -/
def Dev.descDenied (d : Dev) (f : Nat) (x : Desc) : Bool :=
  let owns (q : Nat) : Bool := d.qOwner q == f
  let mgr : Bool := d.manager == f
  let fw9 := d.fw 9
  let service (forbid : Bool) : Bool := !mgr || forbid || (x.privileged && d.flag SVCPRES_SEAL_OPEN && bitAt fw9 8)
  if x.target < 4 then !owns x.target || (x.op == 0x32 && !d.grpAdmits (x.par 1 5) f)
  else match x.op with
  | 0x02 => !mgr
  | 0x04 => (x.pairs x.writes).any (fun p => (stageQuad p.1).any (fun q => !owns q)) || !d.grpAdmits (x.par 0 5) f
  | 0x05 => (x.par 8 2 == 1 && !owns (x.par 12 3 / 2)) || !d.grpAdmits (x.par 0 5) f
  | 0x06 => !d.grpAdmits (x.par 0 5) f
  | 0x20 => !owns (x.par 0 2) || !owns (x.par 2 2)
  | 0x21 => !owns (x.par 0 2) || !owns (x.par 2 2)
  | 0x48 => !mgr && !owns (x.par 0 2)
  | 0x50 => service false
  | 0x51 => service (x.privileged && bitAt fw9 2)
  | 0x52 => service false
  | 0x53 => service (bitAt fw9 4)
  | 0x54 => service false
  | 0x55 => service (bitAt fw9 3)
  | 0x56 => service (bitAt fw9 5)
  | 0x57 => service (bitAt fw9 6)
  | _ => false

/-- R426, R429: descriptor `x` is for a quadrant that is down. -/
def Dev.descDown (d : Dev) (x : Flight) : Bool :=
  if x.target < 4 then d.quadDown x.target
  else match x.desc.op with
  | 0x05 => x.desc.par 8 2 == 1 && d.quadDown (x.desc.par 12 3 / 2)
  | 0x20 => d.quadDown (x.desc.par 0 2) || d.quadDown (x.desc.par 2 2)
  | 0x21 => d.quadDown (x.desc.par 0 2) || d.quadDown (x.desc.par 2 2)
  | _ => false

/-- R349 steps 1 to 3: the status of the first check that fails; a descriptor for a quadrant that is down ends ABORTED before them. -/
def Dev.descRefuse (d : Dev) (x : Flight) : Option Nat :=
  if x.target < 4 ∧ d.quadDown x.target then some 9
  else if descBad x.desc then some 1
  else if d.descDenied x.f x.desc then some 5
  else if d.descDown x then some 9
  else if x.desc.privileged ∧ d.svc.presOpen = none then some 6
  else none

/-! ## Waiting -/

/-- R469: descriptor `x` reaches a block whose clock stops in IDLE. -/
def Flight.touches (x : Flight) : Bool :=
  decide (x.target < 4) ||
  (match x.desc.op with
    | 0x02 => (x.desc.pairs x.desc.writes).any (fun p => gated p.1)
    | 0x03 => (x.desc.offsets (x.desc.par 0 4)).any gated
    | 0x05 => x.desc.par 8 2 == 1
    | 0x20 => true
    | 0x21 => true
    | _ => false)

/-- The target cannot serve descriptors: the device sleeps or wakes (R470, R473), or the quadrant's clock is stopped. -/
def Dev.descStopped (d : Dev) (x : Flight) : Bool :=
  d.get PWR_STATUS_STATE == 2 || (d.get PWR_STATUS_STATE == 3 && d.pw.waking) || (decide (x.target < 4) && !d.tb.running)

/-- R12: writes that descriptors have staged and that have not landed. -/
def Dev.stagedFlights (d : Dev) : Nat :=
  d.cmt.groups.foldl (fun n p => n + (p.2.writes.filter (fun w => w.flight.isSome && !w.landed)).length) 0

/-- What an accepted descriptor waits for: credits of the staged-write queue (R12), stacked memory (R308, R312, R470), the fuse programmer (R447). -/
def Dev.descHolds (d : Dev) (x : Desc) : Bool :=
  match x.op with
  | 0x04 => decide (256 < d.stagedFlights + d.inTransit .stagedWrite + x.writes)
  | 0x12 => !d.memUp || !d.memClear (bits x.d1.toNat 4 22) (x.par 0 13)
  | 0x40 => !d.memUp || !d.memClear (bits x.d2.toNat 4 22) (bits x.d3.toNat 0 25 / 16)
  | 0x41 => !d.memUp || !d.memClear (bits x.d2.toNat 4 22) (bits x.d3.toNat 0 25 / 16)
  | 0x42 => !d.memUp || !d.memClear (bits x.d2.toNat 4 22) (bits x.d3.toNat 0 25 / 16)
  | 0x54 => d.svc.fuseJob.isSome
  | _ => false

/-- R349: the descriptor that a target has found is checked and acts, or ends with the status of a failed check, or waits. -/
def State.descRun (s : State) (x : Option Flight) (body : Flight → State → State) : State :=
  match x with
  | none => s
  | some x =>
    if s.dev.descStopped x then s
    else if s.dev.get PWR_STATUS_STATE = 1 ∧ x.touches then { s with dev := s.dev.idleTouch }
    else match s.dev.descRefuse x with
    | some st => { s with dev := (s.dev.descBegin x).descEnd x st 0 }
    | none => if s.dev.descHolds x.desc then s else body x { s with dev := s.dev.descBegin x }

/-- The same for an opcode that leaves the memories alone. -/
def descDev (s : State) (t op : Nat) (body : Flight → Dev → Dev) : Host.Outcome State Fault Refusal :=
  .next (s.descRun (s.dev.descOf t op) (fun x s => { s with dev := body x s.dev }))

/-- R350, R363: the `n` bytes that a descriptor reads from the host; none where an error came, or its path to the host is gone. -/
def Flight.brought (x : Flight) (n : Nat) (h : HostData) : Option (List Byte) :=
  if x.orphan ∨ h.length < n then none else some (h.take n)

/-- A little-endian number of bytes. -/
def bytesNat (bs : List Byte) : Nat := bs.foldr (fun b v => b.toNat + 256 * v) 0

/-- The numbers of `n` bytes each that a list of bytes holds. -/
def bytesWords (n count : Nat) (bs : List Byte) : List Nat := (List.range count).map (fun k => bytesNat ((bs.drop (n * k)).take n))

/-! ## Registers (R351) -/

/-- R351, R359: the register writes of a descriptor, in payload order; where one takes effect on the next tick, so does the descriptor's last. -/
def Dev.descWrites (x : Flight) (d : Dev) : Dev :=
  let n := x.desc.writes
  let w := (x.desc.pairs n).foldl (fun d p => d.regWrite (.desc x.f) p.1 p.2) d
  let e := w.descEnd x 0 n
  if w.late.length = d.late.length then e else e.modFlight x.id (fun y => { y with stime := w.now + 1 })

/-- R351, R337: reads in order, each with its effects. -/
def Dev.descReads (f : Nat) : List Nat → Dev → List Nat × Dev
  | [], d => ([], d)
  | o :: r, d =>
    let a := d.hostRead f o
    let rest := Dev.descReads f r a.2
    (a.1.toNat :: rest.1, rest.2)

/-- R351: REG_READ. -/
def Dev.descRegRead (x : Flight) (d : Dev) : Dev :=
  let n := x.desc.par 0 4
  let r := Dev.descReads x.f (x.desc.offsets n) d
  (r.2.hostOut x (dwordBytes r.1)).descEnd x 0 n

/-! ## Commit groups (R352) -/

/-- R394, R397: STAGE_WRITE. -/
def Dev.descStage (x : Flight) (d : Dev) : Dev :=
  let g := x.desc.par 0 5
  let ws : List Staged := (x.desc.pairs x.desc.writes).map (fun p =>
    { off := p.1, v := p.2, q := (stageQuad p.1).getD 0, flight := some x.id })
  if 2 ≤ d.grpState g ∨ ¬ d.stageFits g ws then d.descEnd x 4 0
  else (ws.foldl (fun d w => d.stageOne g x.f w) d).stageSettle x.id

/-- R403 to R405: COMMIT_ARM. -/
def Dev.descArm (x : Flight) (d : Dev) : Dev :=
  let g := x.desc.par 0 5
  let d := d.grpSettle g
  if d.grpState g ≠ 1 ∨ (d.grp g).arming ≠ 0 then d.descEnd x 4 0
  else match x.desc.par 8 2 with
  | 0 => (d.armTime g x.desc.d1.toNat).descEnd x 0 0
  | 1 => d.armPos g x.id (x.desc.par 10 2) (x.desc.par 12 3) (sgn 64 x.desc.d1.toNat)
  | _ => (d.armNext g).descEnd x 0 0

/-- R406: COMMIT_ABORT. -/
def Dev.descAbort (x : Flight) (d : Dev) : Dev :=
  match d.grpAbort (x.desc.par 0 5) with
  | some r => r.2.descEnd x 0 r.1
  | none => d.descEnd x 4 0

/-- R410: SNAPSHOT: taken 16 ticks later. -/
def Dev.descSnap (x : Flight) (d : Dev) : Dev := d.snapTrigger (x.desc.par 0 5) 0 (d.tick + 16) (some x.id)

/-- R416: ME_SWAP. -/
def Dev.descSwap (x : Flight) (d : Dev) : Dev :=
  let g := x.desc.par 1 5
  let w : Staged := { q := x.target, flight := some x.id, swap := some (2 * x.target + x.desc.par 0 1) }
  if 2 ≤ d.grpState g ∨ ¬ d.stageFits g [w] then d.descEnd x 4 0 else d.stageOne g x.f w

/-! ## Coach (R353) -/

/-- R353: entries are offered to slice `q` in order. -/
def Dev.offerAll (d : Dev) (q : Nat) (who : Requester) (es : List Entry) : Dev :=
  d.modSlice q (fun s => { s with offers := s.offers ++ es.dropLast.map (fun e => { who, e, last := false }) ++
    (es.getLast?.map (fun e => ({ who, e } : Offer))).toList })

/-- R353: COACH_INSERT. -/
def Dev.descInsert (x : Flight) (d : Dev) : Dev :=
  d.offerAll x.target (.flight x.id) ((List.range (x.desc.par 0 2)).map (fun k => x.desc.entry (k + 1)))

/-- R151: COACH_CANCEL. -/
def Dev.descCancel (x : Flight) (d : Dev) : Dev :=
  d.cancelStart x.target (.flight x.id) (x.desc.par 0 5) (bitAt x.desc.param 8) (x.desc.par 9 3)

/-- R353, R312: COACH_LOAD: the entries are read and checked; then they are offered. -/
def State.descLoad (x : Flight) (s : State) : State :=
  let n := x.desc.par 0 13
  let r := State.wordsRead 0 0 (bits x.desc.d1.toNat 4 22) n s
  let es := r.1.map (fun p => Entry.of (p.1 % 2 ^ 64) (p.1 / 2 ^ 64))
  match firstIdx (fun k => (r.1.getD k (0, false)).2 || (es.getD k {}).bad false) 0 n with
  | some k => { r.2 with dev := r.2.dev.descEnd x (if (r.1.getD k (0, false)).2 then 8 else 1) k }
  | none => { r.2 with dev := r.2.dev.offerAll x.target (.flight x.id) es }

/-! ## Routes (R354) -/

/-- R204: the word of selector `k` of sink `s` of quadrant `q`, and the place of its half. -/
def selectorAt (q s k : Nat) : Nat × Nat := (0x10000 + q * 0x8000 + 0x5000 + s * 8 + (k / 2) * 4, 16 * (k % 2))

/-- R204: selector `k` of sink `s` of quadrant `q` takes `v`: its enable and source. -/
def Dev.putSelector (d : Dev) (q s k v : Nat) : Dev :=
  let a := selectorAt q s k
  d.setWord a.1 (BitVec.ofNat 32 (putBits (d.word a.1).toNat a.2 16 v))

/-- R194, R195: the source numbers by which quadrant `sq` sees source `n` of quadrant `q` now. -/
def Dev.seenAs (d : Dev) (q n sq : Nat) : List Nat := if q = sq then [n] else (d.exportsOf q n).map (fun l => 0x500 + q * 0x40 + l)

/-- R194: the selector of sink `s` of quadrant `sq` that names one of the numbers. -/
def Dev.selectorOf (d : Dev) (sq s : Nat) (ns : List Nat) : Option Nat := firstIdx (fun k => (d.selector sq s k).1 && ns.contains (d.selector sq s k).2) 0 4

/-- R354: the export line that a selector's source number names, 0xFF where the route is local. -/
def lineOf (n : Nat) : Nat := if n < 0x500 then 0xFF else n % 0x40

/-- R354, R26, R194: ROUTE_SET. -/
def Dev.descRoute (x : Flight) (d : Dev) : Dev :=
  let q := x.desc.par 0 2
  let sq := x.desc.par 2 2
  let n := bits x.desc.d1.toNat 0 12
  let s := bits x.desc.d1.toNat 16 12
  let seen := d.seenAs q n sq
  match d.selectorOf sq s seen, firstIdx (fun k => !(d.selector sq s k).1) 0 4 with
  | some k, _ => d.descEnd x 0 (k * 256 + lineOf (d.selector sq s k).2)
  | none, none => d.descEnd x 3 0
  | none, some k =>
    match seen with
    | m :: _ => (d.putSelector sq s k (0x8000 + m)).descEnd x 0 (k * 256 + lineOf m)
    | [] =>
      match firstIdx (fun l => !d.flag (XLINE_EXPORT_EN (64 * q + l))) 0 64 with
      | none => d.descEnd x 3 0
      | some l => ((d.setWord (XLINE_EXPORT (64 * q + l)) (BitVec.ofNat 32 (0x8000 + n))).putSelector sq s k
          (0x8000 + 0x500 + q * 0x40 + l)).descEnd x 0 (k * 256 + l)

/-- R354: some sink of some quadrant selects import number `m`. -/
def Dev.imported (d : Dev) (m : Nat) : Bool := (List.range 4).any (fun r => !(d.selected r m).isEmpty)

/-- R354: ROUTE_CLEAR. -/
def Dev.descUnroute (x : Flight) (d : Dev) : Dev :=
  let q := x.desc.par 0 2
  let sq := x.desc.par 2 2
  let s := bits x.desc.d1.toNat 16 12
  match d.selectorOf sq s (d.seenAs q (bits x.desc.d1.toNat 0 12) sq) with
  | none => d.descEnd x 0 0
  | some k =>
    let m := (d.selector sq s k).2
    let d := d.putSelector sq s k 0
    let d := if 0x500 ≤ m ∧ ¬ d.imported m then d.setWord (XLINE_EXPORT (64 * q + m % 0x40)) 0 else d
    d.descEnd x 0 1

/-! ## Programs and images (R355) -/

/-- R355: words enter the program memory of ibex `e` from address `a` on. -/
def Dev.ibxStore (d : Dev) (e a : Nat) (ws : List Nat) : Dev :=
  d.modIbx e (fun i => { i with prog := (ws.zipIdx).foldl (fun t p => Tab.set 0x900000 t (a + p.2) p.1) i.prog })

/-- R355: IBEX_LOAD. -/
def Dev.descIbex (h : HostData) (x : Flight) (d : Dev) : Dev :=
  let e := 16 * x.target + x.desc.par 0 4
  let n := x.desc.par 10 7
  match x.brought (4 * n) h with
  | none => d.descEnd x 7 0
  | some bs =>
    let ws := bytesWords 4 n bs
    let d := d.ibxSettle e
    if ws.any (fun w => decide (2 ^ 24 ≤ w)) then d.descEnd x 1 0
    else if ¬ d.ibxIdle e then d.descEnd x 4 0
    else (d.ibxStore e (x.desc.par 4 6) ws).descEnd x 0 n

/-- R355, R417: ME_IMAGE: its words go to the bank from the first word on, round the end of the bank; a locked bank drops them. -/
def Dev.descImage (h : HostData) (x : Flight) (d : Dev) : Dev :=
  let e := 2 * x.target + x.desc.par 0 1
  let b := x.desc.par 1 1
  let n := bits x.desc.d2.toNat 0 15
  match x.brought (8 * n) h with
  | none => d.descEnd x 7 0
  | some bs =>
    if b = d.get (ME_STATUS_IMAGE e) then
      if d.get (ME_STATUS_STATE e) ≠ 0 then d.descEnd x 4 0
      else (d.modMe e (fun m => ((bytesWords 8 n bs).zipIdx).foldl (fun m p => m.setImg b ((x.desc.par 2 14 + p.2) % 16384) p.1) m)).descEnd x 0 n
    else if d.meLocked e then (d.raise (ME_STATUS_REFUSED e)).descEnd x 0 0
    else (d.modMe e (fun m => ((bytesWords 8 n bs).zipIdx).foldl (fun m p => m.setImg b ((x.desc.par 2 14 + p.2) % 16384) p.1) m)).descEnd x 0 n

/-! ## DMA (R356) -/

/-- R356, R133: 16-byte words go to stacked memory from word `w` on, a closed region's dropped. -/
def State.dmaStore : Nat → List Nat → State → State
  | _, [], s => s
  | w, v :: r, s =>
    State.dmaStore (w + 1) r (match s.dev.regionDrop w with
      | some d => { s with dev := d }
      | none => s.memSpineStore w 0xFFFF v)

/-- R356: the stacked range of a DMA descriptor: its first word and its length in words. -/
def dmaRange (x : Desc) : Nat × Nat := (bits x.d2.toNat 4 22, bits x.d3.toNat 0 25 / 16)

/-- R356: the range passes the end of stacked memory or overlaps a Coach region. -/
def Dev.dmaBad (d : Dev) (x : Desc) : Bool := decide (2 ^ 22 < (dmaRange x).1 + (dmaRange x).2) || d.regionMeets (dmaRange x).1 (dmaRange x).2

/-- R356: MEM_WRITE; an error of the host stops it at a 16-byte boundary. -/
def State.descMemWrite (h : HostData) (x : Flight) (s : State) : State :=
  if s.dev.dmaBad x.desc then { s with dev := s.dev.descEnd x 1 0 } else
  let n := (dmaRange x.desc).2
  let got := if x.orphan then 0 else min n (h.length / 16)
  let s := State.dmaStore (dmaRange x.desc).1 (bytesWords 16 got h) s
  { s with dev := s.dev.descEnd x (if got < n then 7 else 0) (16 * got) }

/-- R356: MEM_READ: a word with an uncorrectable error goes out as zeros. -/
def State.descMemRead (errAt : Option Nat) (x : Flight) (s : State) : State :=
  if s.dev.dmaBad x.desc then { s with dev := s.dev.descEnd x 1 0 } else
  let n := (dmaRange x.desc).2
  let m := min n ((errAt.map (fun e => e / 16)).getD n)
  let r := State.wordsRead 3 1 (dmaRange x.desc).1 m s
  let bytes := r.1.flatMap (fun p => (List.range 16).map (fun k => if p.2 then (0 : Byte) else BitVec.ofNat 8 (byteOf p.1 k)))
  let d := r.2.dev.hostOut x bytes
  { r.2 with dev :=
    if m < n then d.descEnd x 7 (16 * m)
    else match firstIdx (fun k => (r.1.getD k (0, false)).2) 0 n with
    | some k => d.descEnd x 8 (16 * k)
    | none => d.descEnd x 0 (16 * n) }

/-- R356: MEM_FILL. -/
def State.descMemFill (x : Flight) (s : State) : State :=
  if s.dev.dmaBad x.desc then { s with dev := s.dev.descEnd x 1 0 } else
  let n := (dmaRange x.desc).2
  let s := State.dmaStore (dmaRange x.desc).1 (List.replicate n (fillWord (bits x.desc.d4.toNat 0 32))) s
  { s with dev := s.dev.descEnd x 0 (16 * n) }

/-! ## Quadrant reset (R358) -/

/-- R358: QUAD_RESET; it completes when the reset has ended. -/
def Dev.descQuadReset (x : Flight) (d : Dev) : Dev :=
  let q := x.desc.par 0 2
  (d.quadReset q false).modQuad q (fun y => { y with resetFlight := y.resetFlight ++ [x.id] })

/-! ## Meanings -/

/-- NOP (R350); a reserved opcode, which goes to the spine, ends here with BAD_FIELD. -/
def execNop (s : State) : Host.Outcome State Fault Refusal :=
  let x := match s.dev.descNext 4 with
    | some x => if x.desc.op = 0 ∨ (paramMask x.desc.op).isNone then some x else none
    | none => none
  .next (s.descRun x (fun x s => { s with dev := s.dev.descEnd x 0 0 }))
/-- QREG_WRITE (R351). -/
def execQregWrite (q : Fin 4) (s : State) : Host.Outcome State Fault Refusal := descDev s q 0x01 Dev.descWrites
/-- SREG_WRITE (R351). -/
def execSregWrite (s : State) : Host.Outcome State Fault Refusal := descDev s 4 0x02 Dev.descWrites
/-- REG_READ (R351). -/
def execRegRead (s : State) : Host.Outcome State Fault Refusal := descDev s 4 0x03 Dev.descRegRead
/-- STAGE_WRITE (R352). -/
def execStageWrite (s : State) : Host.Outcome State Fault Refusal := descDev s 4 0x04 Dev.descStage
/-- COMMIT_ARM (R403). -/
def execCommitArm (s : State) : Host.Outcome State Fault Refusal := descDev s 4 0x05 Dev.descArm
/-- COMMIT_ABORT (R406). -/
def execCommitAbort (s : State) : Host.Outcome State Fault Refusal := descDev s 4 0x06 Dev.descAbort
/-- SNAPSHOT (R410). -/
def execSnapshot (s : State) : Host.Outcome State Fault Refusal := descDev s 4 0x07 Dev.descSnap
/-- COACH_INSERT (R353). -/
def execCoachInsert (q : Fin 4) (s : State) : Host.Outcome State Fault Refusal := descDev s q 0x10 Dev.descInsert
/-- COACH_CANCEL (R151). -/
def execCoachCancel (q : Fin 4) (s : State) : Host.Outcome State Fault Refusal := descDev s q 0x11 Dev.descCancel
/-- COACH_LOAD (R353). -/
def execCoachLoad (q : Fin 4) (s : State) : Host.Outcome State Fault Refusal := .next (s.descRun (s.dev.descOf q 0x12) State.descLoad)
/-- ROUTE_SET (R354). -/
def execRouteSet (s : State) : Host.Outcome State Fault Refusal := descDev s 4 0x20 Dev.descRoute
/-- ROUTE_CLEAR (R354). -/
def execRouteClear (s : State) : Host.Outcome State Fault Refusal := descDev s 4 0x21 Dev.descUnroute
/-- IBEX_LOAD (R355). -/
def execIbexLoad (q : Fin 4) (h : HostData) (s : State) : Host.Outcome State Fault Refusal := descDev s q 0x30 (Dev.descIbex h)
/-- ME_IMAGE (R355). -/
def execMeImage (q : Fin 4) (h : HostData) (s : State) : Host.Outcome State Fault Refusal := descDev s q 0x31 (Dev.descImage h)
/-- ME_SWAP (R416). -/
def execMeSwap (q : Fin 4) (s : State) : Host.Outcome State Fault Refusal := descDev s q 0x32 Dev.descSwap
/-- MEM_WRITE (R356). -/
def execMemWrite (i : Nat) (h : HostData) (s : State) : Host.Outcome State Fault Refusal :=
  .next (s.descRun (s.dev.dmaOf i 0x40) (State.descMemWrite h))
/-- MEM_READ (R356). -/
def execMemRead (i : Nat) (hostErrAt : Option Nat) (s : State) : Host.Outcome State Fault Refusal :=
  .next (s.descRun (s.dev.dmaOf i 0x41) (State.descMemRead hostErrAt))
/-- MEM_FILL (R356). -/
def execMemFill (i : Nat) (s : State) : Host.Outcome State Fault Refusal := .next (s.descRun (s.dev.dmaOf i 0x42) State.descMemFill)
/-- QUAD_RESET (R358). -/
def execQuadReset (s : State) : Host.Outcome State Fault Refusal := descDev s 4 0x48 Dev.descQuadReset

end Sys2Proof.Machine
end

