-- ==== Sys2Proof/Machine/Service.lean ====
section
/-! DEFINITION. The service unit: background tests (R421 to R427), clock fallbacks and restarts of spine blocks (R432, R433), the fault log
(R434 to R439), the non-volatile store (R452), fuse programming (R446 to R448) and the debug lock (R453). -/

namespace Sys2Proof.Machine

/-! ## Background tests -/

/-- R423: with no test running, the request at the head of the queue has reached it on this tick at the latest. -/
def Dev.testHead (d : Dev) : Dev :=
  match d.svc.running, d.svc.queue with
  | none, r :: rest => if r.head.isSome then d else { d with svc := { d.svc with queue := { r with head := some d.tick } :: rest } }
  | _, _ => d

/-- R421, R425: a request enters the queue. -/
def Dev.testQueue (d : Dev) (kind index : Nat) (patrol : Bool) : Dev :=
  ({ d with svc := { d.svc with queue := d.svc.queue ++ [({ kind := kind, index := index, patrol := patrol } : TestReq)] } }).testHead

/-- R35: the reference input that is not the primary. -/
def Dev.backupRef (d : Dev) : Nat := 1 - d.get TB_REFCFG_PRIMARY

/-- R416: an image swap of engine `e` is staged. -/
def Dev.swapStaged (d : Dev) (e : Nat) : Bool := d.cmt.groups.any (fun p => p.2.writes.any (fun w => w.swap == some e))

/-- R422, R328: the condition of a test; one of a memory slice needs it at its start only, since no copy starts while a slice is borrowed. -/
def Dev.testMay (d : Dev) (r : TestReq) (start : Bool) : Bool :=
  let n := r.index
  match r.kind with
  | 0x01 => !start || (d.mc.copy.isNone && d.mc.borrow.isNone && d.memUp)
  | 0x02 => d.calDone (n / 64)
  | 0x03 => !d.flag (TC_CTL_EN n) && !d.tcUpper n && (d.tcAbove 3 n).isEmpty
  | 0x04 => !d.flag (FE_CTL_EN n) && !(d.fePair n && d.flag (FE_CTL_EN (n + 1))) && !(d.fePaired n && d.flag (FE_CTL_EN (n - 1)))
  | 0x05 => d.ibxState n == 0
  | 0x06 => !d.swapStaged n
  | 0x07 => d.get (ME_STATUS_STATE n) == 0
  | 0x08 => !d.flag TB_STATUS_PLL_SINGLE
  | 0x09 => d.flag (refOk d.backupRef)
  | 0x0A => !d.flag MEM_STATUS_SPARE_USED && d.mc.copy.isNone
  | 0x10 => bitAt (d.get SVC_QSTAT_HELD) n
  | _ => true

/-- R422: the least duration of a test in ticks. -/
def testTicks (kind : Nat) : Nat :=
  match kind with
  | 0x01 => 3072
  | 0x02 => usTicks 96
  | 0x03 => usTicks 4
  | 0x04 => usTicks 20
  | 0x05 => usTicks 10
  | 0x06 => 196608
  | 0x07 => usTicks 200
  | 0x08 => msTicks 10
  | 0x09 => msTicks 10
  | 0x0A => usTicks 3280
  | 0x0B => msTicks 2000
  | 0x0C => msTicks 1
  | _ => msTicks 40

/-- R422, R39: what a test that fails does to its unit, beside its report. -/
def Dev.testFails (d : Dev) (r : TestReq) : Dev :=
  match r.kind with
  | 0x02 => d.modLine r.index (fun l => { l with ready := none })
  | 0x08 =>
    if d.flag TB_STATUS_PLL_SINGLE then d
    else ((d.raise TB_STATUS_PLL_SINGLE).spineRecNow 0x10 4 0 0 0 0).flog 0x21 4 0 1 (d.get TB_STATUS_PLL_ACTIVE)
  | 0x0A => { d with mc := { d.mc with spareBad := true } }
  | _ => d

/-- R421, R436, R440: test `r` ends: its result is shown and recorded, a failure logged. -/
def Dev.testEnd (d : Dev) (r : TestReq) (result detail : Nat) : Dev :=
  let d := ((d.put SVC_TESTRES_KIND r.kind).put SVC_TESTRES_RESULT result).put SVC_TESTRES_INDEX r.index
  let d := (d.put SVC_TESTDET_DETAIL detail).spineRecNow 0x14 1 r.index (r.kind + result * 256) detail 0
  let d := if result ≠ 1 then d
    else if r.kind = 0x10 then d.flog 0x12 4 r.index detail 0
    else (d.flog 0x32 4 r.index r.kind detail).testFails r
  d.testHead

/-- R421, R423: the request at the head of the queue starts where its condition holds. -/
def Dev.testStart (d : Dev) : Dev :=
  match d.svc.running, d.svc.queue with
  | none, r :: rest =>
    if d.napping ∨ ¬ d.testMay r true then d else
    let d := { d with svc := { d.svc with queue := rest, running := some (r, d.tick) } }
    if r.kind = 1 then d.sliceBorrow r.index else d
  | _, _ => d

/-- R421, R422: the test that runs ends after its duration; a slice's once it has been returned, with the result that the memory controller shows. -/
def Dev.testDone (d : Dev) (pass : Bool) (detail : Nat) : Dev :=
  match d.svc.running with
  | none => d
  | some (r, t) =>
    if d.tick < t + testTicks r.kind ∨ ¬ d.testMay r false ∨ (r.kind = 1 ∧ d.mc.borrow.isSome) then d else
    let d := { d with svc := { d.svc with running := none } }
    if r.kind = 1 then d.testEnd r (b2n (d.get MEM_TESTSTAT_BANKS != 0)) (d.get MEM_TESTSTAT_BANKS)
    else d.testEnd r (b2n (!pass)) detail

/-- R423: IDLEWAIT ms have passed at the head of the queue. -/
def Dev.testNotIdle (d : Dev) : Dev :=
  match d.svc.running, d.svc.queue with
  | none, r :: rest =>
    match r.head with
    | some t =>
      if d.testMay r true ∨ d.tick < t + msTicks (d.get SVC_TESTCFG_IDLEWAIT) then d
      else ({ d with svc := { d.svc with queue := rest } }).testEnd r 2 0
    | none => d
  | _, _ => d

/-- R423: the test that runs is abandoned. -/
def Dev.testGone (d : Dev) : Dev :=
  match d.svc.running with
  | some (r, _) => ({ d with svc := { d.svc with running := none } }).testEnd r 3 0
  | none => d

/-- R423: the unit under test has left its condition. -/
def Dev.testAbandon (d : Dev) : Dev :=
  match d.svc.running with
  | some (r, _) => if d.testMay r false then d else d.testGone
  | none => d

/-- R425: item `n` of the patrol: kind and index. -/
def patrolItem (n : Nat) : Nat × Nat :=
  if n < 1024 then (1, n) else ([(0x0A, 0), (0x0B, 0), (0x0C, 0), (0x08, 0), (0x09, 0)] : List (Nat × Nat)).getD (n - 1024) (0x0C, 0)

/-- R425, R442: the patrol's interval has passed: with the queue empty its next item enters it. -/
def Dev.patrolTick (d : Dev) : Dev :=
  if ¬ d.flag SVC_TESTCFG_PATROL ∨ d.tick < d.svc.patrolLast + msTicks (max 1 (d.get SVC_TESTCFG_PERIOD)) then d else
  let d := { d with svc := { d.svc with patrolLast := d.tick } }
  if ¬ d.svc.queue.isEmpty then d else
  let x := patrolItem d.svc.patrolNext
  ({ d with svc := { d.svc with patrolNext := (d.svc.patrolNext + 1) % 1029 } }).testQueue x.1 x.2 true

/-- R421: SELFTEST. -/
def Dev.descSelftest (x : Flight) (d : Dev) : Dev :=
  if 16 ≤ d.svc.queue.length then d.descEnd x 4 0 else (d.testQueue (x.desc.par 0 8) (x.desc.par 8 16) false).descEnd x 0 0

/-! ## Clock fallbacks and restarts -/

/-- R432: a PLL loses lock: its clock is taken from TCLK until a cold reset. -/
def Dev.clockFallback (d : Dev) (f : Fld) (bit : Nat) : Dev :=
  if d.flag f then d else ((d.raise f).flog 0x23 4 0 bit 0).spineRecNow 0x14 5 0 bit 0 0

/-- R436: the code of a spine block. -/
def blockCode : SpineBlock → Nat
  | .hostInterface => 0
  | .recordUnit => 1
  | .commitUnit => 2
  | .memoryController => 3
  | .serviceUnit => 4

/-- R433: a restart of the commit and snapshot unit frees group `g`. -/
def Dev.grpRestart (g : Nat) (d : Dev) : Dev :=
  if d.grpState g = 0 then d else
  let ws := (d.grp g).writes
  ((d.cmtRec g 2 d.tick ws.length 0 0 0).grpFree g).stageSettleAll (ws.map (fun w => w.flight))

/-- R433: a restart of the commit and snapshot unit drops the images in its buffers. -/
def Dev.snapRestart (d : Dev) : Dev :=
  let l := d.cmt.bufs
  l.foldl (fun d x => match x.flight with
    | some id => d.flightEnd id 4 0
    | none => d) { d with cmt := { d.cmt with bufs := [] } }

/-- R433: a restart of the record unit drops the records it holds. -/
def Dev.recRestart (d : Dev) : Dev :=
  let n := d.ru.spine.length + d.ru.held.foldl (fun n p => n + p.2.length) 0
  ({ d with ru := { d.ru with spine := [], held := [] } }).addSat RECU_SPDROP_CNT n

/-- R433: the work that a restart of a block loses. -/
def Dev.blockLoss (d : Dev) : SpineBlock → Dev
  | .hostInterface => d.linkDown
  | .recordUnit => d.recRestart
  | .commitUnit => (forRange Dev.grpRestart 0 32 d).snapRestart
  | .memoryController => d
  | .serviceUnit => d.testGone

/-- R433: a parity error restarts a spine block. -/
def Dev.parityError (d : Dev) (b : SpineBlock) : Dev :=
  let c := blockCode b
  (((d.blockLoss b).incSat SVC_RESTARTCNT_CNT).flog 0x24 4 0 c 0).spineRecNow 0x14 4 c 0 0 0

/-! ## The fault log -/

/-- The list with `f` applied to its last member. -/
def modLast {α : Type} (f : α → α) : List α → List α
  | [] => []
  | [x] => [f x]
  | x :: y :: r => x :: modLast f (y :: r)

/-- R437: merged occurrences enter the last entry of the store. -/
def State.flogMerge (s : State) : State :=
  if s.dev.svc.flRep = 0 then s else
  let f (e : FlEntry) : FlEntry := { e with rep := min (e.rep + s.dev.svc.flRep) 65535 }
  let nvs := if s.nvs.ring = [] then { s.nvs with keep := modLast f s.nvs.keep } else { s.nvs with ring := modLast f s.nvs.ring }
  { s with nvs, dev := { s.dev with svc := { s.dev.svc with flRep := 0, flRewrite := s.dev.now } } }

/-- R441: SVC.FLOG shows the entries of the two areas. -/
def Dev.flogShow (d : Dev) (n : NvStore) : Dev := (d.put SVC_FLOG_KEEP n.keep.length).put SVC_FLOG_RING n.ring.length

/-- R434, R435: an entry enters the store: the keep area, then the ring, which overwrites its oldest entry. -/
def NvStore.logPut (n : NvStore) (e : FlEntry) : NvStore :=
  let n := { n with seq := (e.seq + 1) % 2 ^ 32 }
  if n.keep.length < 256 then { n with keep := n.keep ++ [e] }
  else { n with ring := (if n.ring.length < 16128 then n.ring else n.ring.drop 1) ++ [e] }

/-- R434, R437: the oldest entry of the buffer is written to the store, after occurrences merged into the store's last entry; with the buffer
empty those alone, once a second. -/
def State.flogStore (s : State) : State :=
  match s.dev.svc.flBuf with
  | e :: rest =>
    let s := s.flogMerge
    let nvs := s.nvs.logPut e
    let v := s.dev.svc
    let last := if rest = [] then v.flLast.map (fun x => (x.1, x.2.1, x.2.2.1, true)) else v.flLast
    { s with nvs, dev := ({ s.dev with svc := { v with flBuf := rest, flLast := last, flRewrite := 0 } }).flogShow nvs }
  | [] => if s.dev.svc.flRewrite = 0 ∨ s.dev.svc.flRewrite + 800000000 ≤ s.dev.now then s.flogMerge else s

/-- R435: the eight dwords of an entry. -/
def FlEntry.dwords (e : FlEntry) : List Nat :=
  let head := [e.time % 2 ^ 32, e.time / 2 ^ 32, e.code * 2 ^ 24 + e.orig * 2 ^ 21 + b2n e.lost * 2 ^ 20 + e.src % 2 ^ 16, e.seq % 2 ^ 32,
    (e.cold % 2 ^ 16) * 2 ^ 16 + e.rep % 2 ^ 16, e.d0 % 2 ^ 32, e.d1 % 2 ^ 32]
  head ++ [crc16 ((dwordBytes head).map BitVec.toNat)]

/-- R438: FAULTLOG_READ; where the host fails, the bytes before the error have gone out and FLOG_RDIDX stands. -/
def State.descLogRead (errAt : Option Nat) (x : Flight) (s : State) : State :=
  let d := s.dev
  let i := d.get SVC_FLOG_RDIDX_IDX
  let es := ((s.nvs.keep ++ s.nvs.ring).drop i).take (bits x.desc.d3.toNat 0 17 / 32)
  let bytes := dwordBytes (es.flatMap FlEntry.dwords)
  let fails := errAt.any (fun e => decide (e < bytes.length))
  { s with dev :=
    if fails then (d.hostOut x (bytes.take (errAt.getD 0))).descEnd x 7 0
    else ((d.hostOut x bytes).put SVC_FLOG_RDIDX_IDX (i + es.length)).descEnd x 0 bytes.length }

/-- R439: FAULTLOG_CLEAR; the Cleared entry is the first of the new keep area. -/
def State.descLogClear (x : Flight) (s : State) : State :=
  let d := s.dev
  let n := s.nvs.keep.length + s.nvs.ring.length
  let e : FlEntry := { time := d.now, code := 1, seq := d.get SVC_FLOG_SEQ_SEQ, cold := d.svc.cold % 65536, d0 := n }
  let nvs := { s.nvs with keep := [e], ring := [], seq := (e.seq + 1) % 2 ^ 32 }
  let v := d.svc
  let last := if v.flBuf.isEmpty then some (1, 0, d.now, true) else v.flLast
  let d := ({ d with svc := { v with flLast := last, flRep := 0, flRewrite := 0 } }).incWrap SVC_FLOG_SEQ_SEQ
  { s with nvs, dev := (d.flogShow nvs).descEnd x 0 n }

/-! ## The non-volatile store -/

/-- R452: the bytes of the store from offset `a` on. -/
def NvStore.bytes (n : NvStore) (a len : Nat) : List Byte := (List.range len).map (fun k => Tab.get 0 n.data (a + k))

/-- R452: bytes enter the store from offset `a` on. -/
def NvStore.put (n : NvStore) (a : Nat) (bs : List Byte) : NvStore := { n with data := (bs.zipIdx).foldl (fun t p => Tab.set 0 t (a + p.2) p.1) n.data }

/-- R350, R452: NVS_READ; where the host fails, the bytes before the error have gone out. -/
def State.descNvsRead (errAt : Option Nat) (x : Flight) (s : State) : State :=
  let n := bits x.desc.d3.toNat 0 17
  let bytes := s.nvs.bytes (bits x.desc.d2.toNat 0 23) n
  { s with dev :=
    if errAt.any (fun e => decide (e < n)) then (s.dev.hostOut x (bytes.take (errAt.getD 0))).descEnd x 7 0
    else (s.dev.hostOut x bytes).descEnd x 0 n }

/-- R350, R452: NVS_WRITE and CAL_WRITE: `n` bytes from the host enter the store at offset `a`, or none. -/
def State.descNvsWrite (h : HostData) (a n : Nat) (x : Flight) (s : State) : State :=
  match x.brought n h with
  | none => { s with dev := s.dev.descEnd x 7 0 }
  | some bs => { s with nvs := s.nvs.put a bs, dev := s.dev.descEnd x 0 n }

/-! ## Fuses -/

/-- R443: fuse word `k` of the array. -/
def FuseArr.word (a : FuseArr) (k : Nat) : Nat := (Tab.get 0 a.data k).toNat

/-- R448: PEND: the array differs from the values in force. -/
def State.fusePend (s : State) : State :=
  { s with dev := s.dev.putB FUSEST_STATUS_PEND ((List.range 64).any (fun k => s.fuse.word k != s.dev.fw k)) }

/-- R443 to R446: the value sets a bit that must stay blank, or an idle code that may not be programmed. -/
def fuseIllegal (k v : Nat) : Bool :=
  if k = 4 then bits v 12 19 != 0 || bitAt v 10
  else if k = 9 then bits v 18 14 != 0 || bits v 10 6 != 0 || bits v 0 2 != 0
  else if 10 ≤ k ∧ k < 16 then v != 0
  else if 16 ≤ k then (List.range 16).any (fun i => bits v (2 * i) 2 == 3)
  else false

/-- R446: the pairs of a fuse image. -/
def fusePairs : List Nat → List (Nat × Nat)
  | k :: v :: r => (k, v) :: fusePairs r
  | _ => []

/-- R446: an index above 63, a bit cleared, or a value that may not be programmed. -/
def FuseArr.refuses (a : FuseArr) (p : Nat × Nat) : Bool := decide (63 < p.1) || (a.word p.1 &&& p.2) != a.word p.1 || fuseIllegal p.1 p.2

/-- R447: the pairs that still have a bit to set, from the first one on. -/
def FuseArr.todo (a : FuseArr) (ps : List (Nat × Nat)) : List (Nat × Nat) := ps.dropWhile (fun p => a.word p.1 == p.2)

/-- R447: the pairs left are programmed one per step; with none left the descriptor ends. -/
def State.fuseGo (s : State) (x : Flight) (ps : List (Nat × Nat)) (done : Nat) : State :=
  match s.fuse.todo ps with
  | [] => { s with dev := (({ s.dev with svc := { s.dev.svc with fuseJob := none, fuseDone := 0 } }).put FUSEST_STATUS_PROGBUSY 0).descEnd x 0 done }
  | l => { s with dev := ({ s.dev with svc := { s.dev.svc with fuseJob := some (x.id, l), fuseDone := done } }).raise FUSEST_STATUS_PROGBUSY }

/-- R446: FUSE_PROG: the checks of the whole image, then programming. -/
def State.descFuse (h : HostData) (vfuseOk : Bool) (x : Flight) (s : State) : State :=
  let s := { s with dev := s.dev.putB FUSEST_STATUS_VFUSE_OK vfuseOk }
  let n := bits x.desc.d3.toNat 0 17
  let stop (st : Nat) : State := { s with dev := s.dev.descEnd x st 0 }
  if bitAt (s.dev.fw 4) 31 then stop 5
  else if n % 8 ≠ 0 ∨ n < 8 ∨ 512 < n then stop 1
  else match x.brought n h with
  | none => stop 7
  | some bs =>
    let ps := fusePairs (bytesWords 4 (n / 4) bs)
    if ps.any (fun p => decide (p.1 < 4)) then stop 5
    else if ps.any s.fuse.refuses then stop 1
    else if ¬ vfuseOk then stop 10
    else s.fuseGo x ps 0

/-- R447, R448: the word in progress is programmed; the next one begins, or the descriptor ends where VFUSE has left its range. -/
def State.fuseWord (s : State) (vfuseOk : Bool) : State :=
  match s.dev.svc.fuseJob with
  | none => s
  | some (id, ps) =>
    match ps, s.dev.flight id with
    | p :: r, some x =>
      let s := { s with fuse := { data := Tab.set 0 s.fuse.data p.1 (BitVec.ofNat 32 (s.fuse.word p.1 ||| p.2)) } }
      let s := ({ s with dev := s.dev.putB FUSEST_STATUS_VFUSE_OK vfuseOk }).fusePend
      let n := s.dev.svc.fuseDone + 1
      if vfuseOk then s.fuseGo x r n
      else
        let d := ({ s.dev with svc := { s.dev.svc with fuseJob := none, fuseDone := 0 } }).put FUSEST_STATUS_PROGBUSY 0
        { s with dev := (d.descEnd x 10 n).flog 0x41 4 0 0x54 n }
    | _, _ => { s with dev := ({ s.dev with svc := { s.dev.svc with fuseJob := none, fuseDone := 0 } }).put FUSEST_STATUS_PROGBUSY 0 }

/-! ## Debug lock -/

/-- R453: DEBUG_UNLOCK. -/
def Dev.descUnlock (x : Flight) (d : Dev) : Dev :=
  let l := x.desc.par 0 2
  ({ d with svc := { d.svc with dbgLevel := l } }).descEnd x 0 l

/-! ## Meanings -/

/-- NVS_READ (R452). -/
def execNvsRead (hostErrAt : Option Nat) (s : State) : Host.Outcome State Fault Refusal :=
  .next (s.descRun (s.dev.descOf 4 0x50) (State.descNvsRead hostErrAt))
/-- NVS_WRITE (R452). -/
def execNvsWrite (h : HostData) (s : State) : Host.Outcome State Fault Refusal :=
  .next (s.descRun (s.dev.descOf 4 0x51) (fun x => State.descNvsWrite h (bits x.desc.d2.toNat 0 23) (bits x.desc.d3.toNat 0 17) x))
/-- FAULTLOG_READ (R438). -/
def execFaultlogRead (hostErrAt : Option Nat) (s : State) : Host.Outcome State Fault Refusal :=
  .next (s.descRun (s.dev.descOf 4 0x52) (State.descLogRead hostErrAt))
/-- FAULTLOG_CLEAR (R439). -/
def execFaultlogClear (s : State) : Host.Outcome State Fault Refusal := .next (s.descRun (s.dev.descOf 4 0x53) State.descLogClear)
/-- FUSE_PROG (R446). -/
def execFuseProg (h : HostData) (vfuseOk : Bool) (s : State) : Host.Outcome State Fault Refusal :=
  .next (s.descRun (s.dev.descOf 4 0x54) (State.descFuse h vfuseOk))
/-- FUSE_WORD_PROGRAM (R447). -/
def execFuseWordProgram (vfuseOk : Bool) (s : State) : Host.Outcome State Fault Refusal := .next (s.fuseWord vfuseOk)
/-- DEBUG_UNLOCK (R453). -/
def execDebugUnlock (s : State) : Host.Outcome State Fault Refusal := descDev s 4 0x55 Dev.descUnlock
/-- CAL_WRITE (R452). -/
def execCalWrite (h : HostData) (s : State) : Host.Outcome State Fault Refusal :=
  .next (s.descRun (s.dev.descOf 4 0x56) (fun x => State.descNvsWrite h 0x780000 (bits x.desc.d3.toNat 0 17) x))
/-- SELFTEST (R421). -/
def execSelftest (s : State) : Host.Outcome State Fault Refusal := descDev s 4 0x57 Dev.descSelftest
/-- TEST_START (R421). -/
def execTestStart (s : State) : Host.Outcome State Fault Refusal := onDev s (fun d => d.testStart)
/-- TEST_DONE (R421): the outcome and its detail are the sender's. -/
def execTestDone (pass : Bool) (detail : Word) (s : State) : Host.Outcome State Fault Refusal := onDev s (fun d => d.testDone pass detail.toNat)
/-- TEST_NOT_IDLE (R423). -/
def execTestNotIdle (s : State) : Host.Outcome State Fault Refusal := onDev s (fun d => d.testNotIdle)
/-- TEST_ABANDON (R423). -/
def execTestAbandon (s : State) : Host.Outcome State Fault Refusal := onDev s (fun d => d.testAbandon)
/-- PATROL_TICK (R425). -/
def execPatrolTick (s : State) : Host.Outcome State Fault Refusal := onDev s (fun d => d.patrolTick)
/-- DCLK_PLL_LOSS (R432). -/
def execDclkPllLoss (s : State) : Host.Outcome State Fault Refusal := onDev s (fun d => d.clockFallback SVC_CLKSTAT_DCLK_FB 1)
/-- FCLK_PLL_LOSS (R432). -/
def execFclkPllLoss (s : State) : Host.Outcome State Fault Refusal := onDev s (fun d => d.clockFallback SVC_CLKSTAT_FCLK_FB 2)
/-- SPINE_PARITY_ERROR (R433). -/
def execSpineParityError (b : SpineBlock) (s : State) : Host.Outcome State Fault Refusal := onDev s (fun d => d.parityError b)
/-- FAULT_LOG_STORE_WRITE (R434). -/
def execFaultLogStoreWrite (s : State) : Host.Outcome State Fault Refusal := .next s.flogStore

end Sys2Proof.Machine
end

