-- ==== Sys2Proof/Machine/Power.lean ====
section
/-! DEFINITION. Start-up and the boot image (R443, R464 to R467), SLEEP and wake (R53, R54, R470 to R474), and the thermal limits (R476). -/

namespace Sys2Proof.Machine

/-! ## Start-up -/

/-- R443, R435, R453, R458, R478: fuse load ends: the array is in force, and the cold start is counted and logged with its cause. -/
def State.fuseLoad (s : State) : State :=
  if ¬ s.dev.pw.released ∨ s.dev.pw.fuses then s else
  let nvs := { s.nvs with cold := s.nvs.cold + 1 }
  let d := forRange (fun k d => d.setWord (FUSE_W k) (Tab.get 0 s.fuse.data k)) 0 64 s.dev
  let d := { d with pw := { d.pw with fuses := true }, svc := { d.svc with dbgLevel := bits (d.fw 9) 16 2, cold := nvs.cold, flLast := none } }
  let d := (d.flogShow nvs).put SVC_FLOG_SEQ_SEQ nvs.seq
  { s with nvs, dev := d.flog 0x02 4 0 d.pw.cause 0 }

/-- R465: the boot region has been read. -/
def Dev.bootRead (d : Dev) : Dev := if d.pw.fuses then d.raise PWR_BOOTSTAT_READ else d

/-- R324, R329, R465: the start-up scrub ends: every word is 0, the sparing map of the store is applied, and READY is set. -/
def State.scrubDone (s : State) : State :=
  let d := s.dev
  if ¬ d.pw.fuses ∨ d.flag MEM_STATUS_READY then s else
  let d := match s.nvs.spare with
    | some b => (d.raise MEM_STATUS_SPARE_USED).put MEM_STATUS_SPAREFOR b
    | none => d
  { s with mem := {}, dev := d.raise MEM_STATUS_READY }

/-! ## The boot image -/

/-- The dword of the store at offset `a` (R466). -/
def NvStore.dword (n : NvStore) (a : Nat) : Nat := bytesNat (n.bytes a 4)

/-- R466: bytes enter stacked memory from byte address `a` on, 16 at a time. -/
def State.bootMem : Nat → Nat → List Byte → State → State
  | 0, _, _, s => s
  | n + 1, w, bs, s =>
    if bs = [] ∨ 2 ^ 22 ≤ w then s else
    let part := bs.take 16
    State.bootMem n (w + 1) (bs.drop 16) (match s.dev.regionDrop w with
      | some d => { s with dev := d }
      | none => s.memSpineStore w (2 ^ part.length - 1) (bytesNat part))

/-- R466: register writes by the boot image. -/
def Dev.bootRegs : List Nat → Dev → Dev
  | off :: v :: r, d => Dev.bootRegs r (d.regWrite .boot off (BitVec.ofNat 32 v))
  | _, d => d

/-- R466: words of an image of engine `e` from word `a` of bank `b` on, as writes of IMDATA. -/
def Dev.bootImage (d : Dev) (e b a : Nat) (ws : List Nat) : Dev :=
  let active := d.get (ME_STATUS_IMAGE e)
  if (b = active ∧ d.get (ME_STATUS_STATE e) ≠ 0) ∨ (b ≠ active ∧ d.meLocked e) then d.raise (ME_STATUS_REFUSED e) else
  d.modMe e (fun m => (ws.zipIdx).foldl (fun m p => m.setImg b ((a + p.2) % 16384) p.1) m)

/-- R466: program words of ibex `e` from address `a` on, as writes of PDATA. -/
def Dev.bootProg (d : Dev) (e a : Nat) (ws : List Nat) : Dev :=
  if ¬ d.ibxIdle e then d.raise (IBX_STATUS_REFUSED e) else
  d.modIbx e (fun i => { i with prog := (ws.zipIdx).foldl (fun t p => Tab.set 0x900000 t ((a + p.2) % 64) (p.1 % 2 ^ 24)) i.prog })

/-- R466: one record of the boot image is applied: its TYPE, TARGET, ARG and payload. -/
def State.bootRecord (s : State) (typ target arg : Nat) (pay : List Byte) : State :=
  match typ with
  | 1 => { s with dev := Dev.bootRegs (bytesWords 4 (2 * (pay.length / 8)) pay) s.dev }
  | 2 => s.bootMem (pay.length / 16 + 1) (bits target 4 22) pay
  | 3 => { s with dev := s.dev.bootImage (bits target 0 3) (bits target 3 1) arg (bytesWords 8 (pay.length / 8) pay) }
  | 4 => { s with dev := s.dev.bootProg (bits target 0 6) arg (bytesWords 4 (pay.length / 4) pay) }
  | _ => s

/-- R466, R467: the records from index `i` at store offset `off` on, `n` of them left, in an image of `len` bytes: the state and the index of the
record that failed. -/
def State.bootRecords (len : Nat) : Nat → Nat → Nat → State → State × Option Nat
  | 0, _, _, s => (s, none)
  | n + 1, i, off, s =>
    if len < off + 16 then (s, some i) else
    let h := s.nvs.dword off
    let size := bits h 0 24
    let padded := (size + 15) / 16 * 16
    let typ := bits h 24 8
    if len < off + 16 + padded then (s, some i)
    else
      let pay := s.nvs.bytes (off + 16) padded
      let crc := crc16 ((s.nvs.bytes off 12 ++ pay).map BitVec.toNat)
      if bits (s.nvs.dword (off + 12)) 0 16 ≠ crc ∨ typ = 0 ∨ 5 < typ then (s, some i)
      else if typ = 5 then (s, none)
      else State.bootRecords len n (i + 1) (off + 16 + padded) (s.bootRecord typ (s.nvs.dword (off + 4)) (s.nvs.dword (off + 8)) (pay.take size))

/-- R436, R467: the fault-log entry of a boot image that failed; its D1 is not stated (log 5). -/
def Dev.bootLog (d : Dev) (idx : Nat) : Dev :=
  let r := d.fresh
  r.2.flog 0x52 4 0 idx (r.1.toNat % 2 ^ 32)

/-- R467: BOOTSTAT takes the outcome. -/
def Dev.bootResult (d : Dev) (result : Nat) : Dev := d.put PWR_BOOTSTAT_RESULT result

/-- R465, R450: start-up ends: READY is set, and SERVICE_N that is low by then opens no window. -/
def Dev.bootReady (d : Dev) : Dev :=
  let d := (d.raise PWR_BOOTSTAT_READY).raise PWR_STATUS_READY
  if d.pw.serviceLow then d.raise SVCPRES_PRES_STUCK else d

/-- R466, R467: the boot image is treated. -/
def State.bootRun (s : State) : State :=
  let len := s.nvs.dword 8
  if s.nvs.dword 0 ≠ 0x54424353 then { s with dev := s.dev.bootResult 2 }
  else if bits (s.nvs.dword 12) 0 16 ≠ crc16 ((s.nvs.bytes 0 12).map BitVec.toNat) ∨ bits (s.nvs.dword 4) 16 16 ≠ 1 ∨ len < 32 ∨ 1048576 < len then
    { s with dev := (s.dev.bootResult 3).bootLog 0xFFFF }
  else
    let r := State.bootRecords len (bits (s.nvs.dword 4) 0 16) 0 32 s
    { r.1 with dev := match r.2 with
      | some i => ((r.1.dev.bootResult 4).put PWR_BOOTSTAT_IDX i).bootLog i
      | none => r.1.dev.bootResult 1 }

/-- R465, R466: with the boot region read, every quadrant calibrated and the memory ready, the boot image is applied and the device is READY. -/
def State.bootApply (s : State) : State :=
  let d := s.dev
  if d.flag PWR_BOOTSTAT_READY ∨ ¬ d.flag PWR_BOOTSTAT_READ ∨ ¬ d.flag MEM_STATUS_READY ∨ d.get TB_STATUS_CAL_DONE ≠ 15 then s else
  let s := s.bootRun
  { s with dev := s.dev.bootReady }

/-! ## SLEEP -/

/-- R470: every function is in D3hot or the link is down. -/
def Dev.maySleep (d : Dev) : Bool := !d.host.linkUp || (List.range 4).all (fun f => (d.fn f).d3)

/-- R470: fuse programming, a sparing copy or a foreground test runs. -/
def Dev.sleepBusy (d : Dev) : Bool :=
  d.svc.fuseJob.isSome || d.mc.copy.isSome || d.svc.running.any (fun x => x.1.kind == 0x10)

/-- R470: SLEEP entry begins on this tick, or is refused. -/
def Dev.sleepBegin (d : Dev) : Dev :=
  let d := d.put PWR_STATUS_SLPPEND 0
  if d.sleepBusy then (d.put PWR_CTL_REQ 0).pwrRefuse 3 false else
  let d := (d.presClose 2).put PWR_STATUS_STATE 3
  { d with pw := { d.pw with entering := true } }

/-- R53, R321, R470: the ACLK edge of SLEEP entry: S0 is recorded, the tick clock stops, the memory is in retention. -/
def Dev.sleepEnter (d : Dev) : Dev :=
  let d := (d.strobedKeep.put PWR_STATUS_STATE 2).raise MEM_STATUS_RET
  { d with pw := { d.pw with entering := false, s0 := some d.now }, tb := { d.tb with running := false } }

/-- R321, R470: SLEEP entry: it begins where a request is pending and the host is away, the requests queued at stacked memory are completed,
and it ends on the next ACLK edge, at the next such command. -/
def State.sleepEntry (s : State) : State :=
  let d := s.dev
  if ¬ d.tb.running then s
  else if d.pw.entering then { s with dev := d.sleepEnter }
  else if d.flag PWR_STATUS_SLPPEND ∧ d.get PWR_STATUS_STATE < 2 ∧ d.maySleep then
    if d.sleepBusy then { s with dev := d.sleepBegin } else
    let s := s.memDrain
    { s with dev := s.dev.sleepBegin }
  else s

/-- R472: the wake source counts. -/
def Dev.wakes (d : Dev) : WakeSource → Bool
  | .timer => d.flag PWR_WAKEEN_TIMER
  | .seal => d.flag PWR_WAKEEN_SEAL
  | _ => true

/-- R470, R472, R473, R322: a wake source is active at the ACLK edge: the device wakes, or entry ends at once and is refused. -/
def Dev.wake (d : Dev) (x : WakeSource) : Dev :=
  if ¬ d.wakes x then d
  else if d.pw.entering then
    let d := (d.put PWR_STATUS_STATE 0).put PWR_CTL_REQ 0
    ({ d with pw := { d.pw with entering := false } }).pwrRefuse 3 true
  else if d.get PWR_STATUS_STATE = 2 then
    let d := ((d.put PWR_STATUS_STATE 3).put MEM_STATUS_RET 0).raise MEM_STATUS_WAKING
    { d with pw := { d.pw with waking := true } }
  else d

/-! ## Wake -/

/-- R53, R54: a housekeeping timer makes up `e` ticks; a compare value that was passed is reported once, with the missed periods: one for a
ONESHOT timer (log 55). -/
def Dev.hkMakeUp (e n : Nat) (d : Dev) : Dev :=
  if ¬ d.flag (HK_CTL_EN n) then d else
  let pre := d.get (HK_CTL_PRE n) + 1
  let h := d.hk n
  let t := (h.cur - min (h.next - d.tick) h.cur) + e
  let old := d.pair (HK_CNT_LO n) (HK_CNT_HI n)
  let adds := t / pre
  let cnt := old + adds
  let cmp := d.pair (HK_CMP_LO n) (HK_CMP_HI n)
  let per := d.pair (HK_PER_LO n) (HK_PER_HI n)
  let mode := d.get (HK_CTL_MODE n)
  let d := (d.setPair (HK_CNT_LO n) (HK_CNT_HI n) (cnt % 2 ^ 64)).modHk n (fun h => { h with next := d.tick + pre - t % pre, cur := pre })
  if mode = 0 ∨ ¬ (old < cmp ∧ cmp ≤ cnt) then d else
  let missed := if mode = 1 ∧ per ≠ 0 then (cnt - cmp) / per + 1 else 1
  let d := Dev.meHk n ((d.raise (HK_CTL_LATE n)).hkRecord n true missed (cnt % 2 ^ 64))
  if mode = 1 then d.setPair (HK_CMP_LO n) (HK_CMP_HI n) ((cmp + missed * per) % 2 ^ 64) else d.put (HK_CTL_EN n) 0

/-- R62, R474: an input pair takes the level at its ball on tick `t` as a reference. -/
def AxIn.wake (i : AxIn) (lvl : Bool) (t : Nat) (st : Stamp) : AxIn :=
  if i.lost then i else { i with raw := lvl, acc := lvl, pend := false, ref := false, rawTick := t, at_ := st, hist := [(t, lvl)] }

/-- R62, R474: axis `a` wakes: the decoder state is loaded, its first tooth or frame is a reference, and a new run begins. -/
def Dev.axWake (levels : BitVec 24) (a : Nat) (d : Dev) : Dev :=
  if d.get (AXIS_CFG_MODE a) = 0 then d else
  let st := d.stamp (a / 2) d.tick 0
  let l (p : Nat) : Bool := bitAt levels.toNat (3 * a + p)
  (d.modAxis a (fun x => { x.relearn with
    inA := x.inA.wake (l 0) d.tick st, inB := x.inB.wake (l 1) d.tick st, inZ := x.inZ.wake (l 2) d.tick st
    serPrev := none, serSeq := none, frameStart := none, runNext := true, stale := true })).decLoad a

/-- R52, R53: ticks of one ACLK period, rounded. -/
def Dev.aclkTicks (d : Dev) : Nat := (d.get TB_ACLK_RATIO_RATIO + 2048) / 4096

/-- R53, R54, R222, R455, R473, R474: TCLK resumes on the ACLK edge that ends `n` periods: STIME and the housekeeping timers are made up. -/
def Dev.stimeResume (d : Dev) (n : Nat) (levels : BitVec 24) : Dev :=
  match d.pw.s0, d.pw.waking with
  | some s0, true =>
    let e := (n * d.get TB_ACLK_RATIO_RATIO + 2048) / 4096
    let would := d.now
    let p := d.aclkTicks
    let d := { d with tb := { d.tb with running := true } }
    let d := (d.timeSet (BitVec.ofNat 64 (s0 + e))).stepMark would
    let d := forRange (Dev.hkMakeUp e) 0 32 d
    let d := forRange (Dev.axWake levels) 0 8 (forRange Dev.feClockBack 0 256 d)
    let d := { d with
      pw := { d.pw with s0 := none, runAt := some (d.tick + usTicks 120 - p) }
      mc := { d.mc with wakeAt := some (d.tick + usTicks 43 - p) } }
    d.recalTrigger.sealReport
  | _, _ => d

/-- R473: 120 µs after the wake the device is in RUN; lines that are ready swap at once, and groups whose keys have passed fire late. -/
def Dev.wakeRun (d : Dev) : Dev :=
  match d.pw.runAt with
  | some t =>
    if d.tick < t then d else
    let ready := d.lines.filter (fun p => p.2.ready.isSome)
    let d := ready.foldl (fun d p => d.swapLine p.1) d
    let d := { d with pw := { d.pw with waking := false, runAt := none } }
    ((d.put PWR_STATUS_STATE 0).put PWR_CTL_REQ 0).strobeLate
  | none => d

/-! ## Thermal limits -/

/-- R476: a fault-log entry of the thermal limits; its details are not stated (log 5). -/
def Dev.thermalLog (d : Dev) (code : Nat) : Dev :=
  let r := d.fresh
  r.2.flog code 4 0 (r.1.toNat % 2 ^ 32) (r.1.toNat / 2 ^ 32)

/-- R476, R429: the four quadrants are isolated for heat. -/
def Dev.heatIsolate (d : Dev) : Dev :=
  forRange (fun q d => d.isolate q 0) 0 4 { d with pw := { d.pw with heatIso := 15 } }

/-- R476: the sample `t`, in 1/16 °C, is compared with the grade's limits. -/
def Dev.thermal (d : Dev) (t : Int) : Dev :=
  if ¬ d.pw.released then d else
  let u := d.tempLimit
  let d := d.put PWR_TEMP_TEMP (uns 16 t)
  let was := d.pw.hot
  let d := { d with pw := { d.pw with hot := decide (u ≤ t) } }
  let d := if u ≤ t ∧ ¬ was then (d.raise PWR_STATUS_HOT).thermalLog 0x50 else d
  if t < u + 240 then { d with pw := { d.pw with hotSince := none } }
  else match d.pw.hotSince with
  | none => { d with pw := { d.pw with hotSince := some d.tick } }
  | some x =>
    if d.tick < x + msTicks 1 ∨ d.pw.heatIso = 15 then d else d.heatIsolate.thermalLog 0x51

/-! ## Meanings -/

/-- FUSE_LOAD_DONE (R443). -/
def execFuseLoadDone (s : State) : Host.Outcome State Fault Refusal := .next s.fuseLoad
/-- BOOT_READ_DONE (R465). -/
def execBootReadDone (s : State) : Host.Outcome State Fault Refusal := onDev s (fun d => d.bootRead)
/-- STARTUP_SCRUB_DONE (R329). -/
def execStartupScrubDone (s : State) : Host.Outcome State Fault Refusal := .next s.scrubDone
/-- BOOT_APPLY (R466). -/
def execBootApply (s : State) : Host.Outcome State Fault Refusal := .next s.bootApply
/-- SLEEP_ENTRY (R470). -/
def execSleepEntry (s : State) : Host.Outcome State Fault Refusal := .next s.sleepEntry
/-- WAKE (R472). -/
def execWake (src : WakeSource) (s : State) : Host.Outcome State Fault Refusal := onDev s (fun d => d.wake src)
/-- STIME_RESUME (R53): `n` ACLK periods have passed; `levels` are those of the axis inputs, pair p of axis a at bit 3a + p. -/
def execStimeResume (n : Nat) (levels : BitVec 24) (s : State) : Host.Outcome State Fault Refusal := onDev s (fun d => d.stimeResume n levels)
/-- WAKE_RUN (R473). -/
def execWakeRun (s : State) : Host.Outcome State Fault Refusal := onDev s (fun d => d.wakeRun)
/-- THERMAL_SAMPLE (R476). -/
def execThermalSample (t : Int) (s : State) : Host.Outcome State Fault Refusal := onDev s (fun d => d.thermal t)

end Sys2Proof.Machine
end

