-- ==== Sys2Proof/Machine/WriteRows.lean ====
section
/-! DEFINITION. The rows that are a write of one register (R504 to R511): each is that write by its sender. A row named after a bit carries that bit
in its value (log 14). -/

namespace Sys2Proof.Machine

/-- R202: the number of a COMPAT flag. -/
def flagNo : CompatFlag → Nat
  | .match0 => 0
  | .match1 => 1
  | .ovf => 2

/-- ROUTE_WRITE (R390). -/
def execRouteWrite (f : Fin 4) (o : Fin 5) (t : Fin 32) (v : Word) (s : State) : Host.Outcome State Fault Refusal :=
  onDev s (fun d => d.regWrite (.fn f) (ROUTE_ROUTE o t) v)
/-- SQ_ENABLE (R339). -/
def execSqEnable (f : Fin 4) (k : Fin 32) (v : Word) (s : State) : Host.Outcome State Fault Refusal :=
  onDev s (fun d => d.regWrite (.fn f) (SR_CFG k) (v ||| 0x80000000))
/-- SQ_DISABLE (R370). -/
def execSqDisable (f : Fin 4) (k : Fin 32) (v : Word) (s : State) : Host.Outcome State Fault Refusal :=
  onDev s (fun d => d.regWrite (.fn f) (SR_CFG k) (v &&& 0x7FFFFFFF))
/-- RR_ENABLE (R339). -/
def execRrEnable (f : Fin 4) (k : Fin 32) (v : Word) (s : State) : Host.Outcome State Fault Refusal :=
  onDev s (fun d => d.regWrite (.fn f) (RR_CFG k) (v ||| 0x80000000))
/-- RR_DISABLE (R371). -/
def execRrDisable (f : Fin 4) (k : Fin 32) (v : Word) (s : State) : Host.Outcome State Fault Refusal :=
  onDev s (fun d => d.regWrite (.fn f) (RR_CFG k) (v &&& 0x7FFFFFFF))
/-- TC_FLAG_ACK (R387). -/
def execTcFlagAck (w : Sender) (n : Fin 1024) (flag : CompatFlag) (s : State) : Host.Outcome State Fault Refusal :=
  onDev s (fun d => d.regWrite (writerOf w) (TC_STATUS n) (w32 (2 ^ (flagNo flag + 1))))
/-- REFCFG_WRITE (R57). -/
def execRefcfgWrite (f : Fin 4) (v : Word) (s : State) : Host.Outcome State Fault Refusal :=
  onDev s (fun d => d.regWrite (.fn f) TB_REFCFG v)
/-- TB_SWITCH (R516). -/
def execTbSwitch (f : Fin 4) (s : State) : Host.Outcome State Fault Refusal :=
  onDev s (fun d => d.regWrite (.fn f) TB_CTL 4)
/-- TB_RETRY (R516). -/
def execTbRetry (f : Fin 4) (s : State) : Host.Outcome State Fault Refusal :=
  onDev s (fun d => d.regWrite (.fn f) TB_CTL 2)
/-- TB_RECAL (R516). -/
def execTbRecal (f : Fin 4) (s : State) : Host.Outcome State Fault Refusal :=
  onDev s (fun d => d.regWrite (.fn f) TB_CTL 1)
/-- AXIS_CFG_WRITE (R62). -/
def execAxisCfgWrite (w : Sender) (a : Fin 8) (v : Word) (s : State) : Host.Outcome State Fault Refusal :=
  onDev s (fun d => d.regWrite (writerOf w) (AXIS_CFG a) v)
/-- POS_LO_WRITE (R90). -/
def execPosLoWrite (w : Sender) (a : Fin 8) (v : Word) (s : State) : Host.Outcome State Fault Refusal :=
  onDev s (fun d => d.regWrite (writerOf w) (AXIS_POS_LO a) v)
/-- LIMIT_LO_WRITE (R82). -/
def execLimitLoWrite (w : Sender) (a : Fin 8) (hi : Bool) (v : Word) (s : State) : Host.Outcome State Fault Refusal :=
  onDev s (fun d => d.regWrite (writerOf w) (if hi then AXIS_LIMIT_HI_LO a else AXIS_LIMIT_LO_LO a) v)
/-- AXIS_FAULT_CLEAR (R92). -/
def execAxisFaultClear (w : Sender) (a : Fin 8) (s : State) : Host.Outcome State Fault Refusal :=
  onDev s (fun d => d.regWrite (writerOf w) (AXIS_STATUS a) 0x4000)
/-- EMU_ENABLE (R110). -/
def execEmuEnable (w : Sender) (a : Fin 8) (v : Word) (s : State) : Host.Outcome State Fault Refusal :=
  onDev s (fun d => d.regWrite (writerOf w) (AXIS_EMU_CFG a) (v ||| 1))
/-- EMU_RATIO_N_WRITE (R111). -/
def execEmuRatioNWrite (w : Sender) (a : Fin 8) (v : Word) (s : State) : Host.Outcome State Fault Refusal :=
  onDev s (fun d => d.regWrite (writerOf w) (AXIS_EMU_RATIO_N a) v)
/-- TPL_SWAP (R155). -/
def execTplSwap (w : Sender) (t : Fin 256) (s : State) : Host.Outcome State Fault Refusal :=
  onDev s (fun d => d.regWrite (writerOf w) (TPL_CMD t) 1)
/-- CAR_FLAGSET (R157). -/
def execCarFlagset (w : Sender) (a : Fin 8) (v : Word) (s : State) : Host.Outcome State Fault Refusal :=
  onDev s (fun d => d.regWrite (writerOf w) (CAR_FLAGSET a) v)
/-- CAR_CLOSE_COMMAND (R158). -/
def execCarCloseCommand (w : Sender) (a : Fin 8) (v : Word) (s : State) : Host.Outcome State Fault Refusal :=
  onDev s (fun d => d.regWrite (writerOf w) (CAR_CLOSE a) v)
/-- COACH_ENABLE (R165). -/
def execCoachEnable (w : Sender) (q : Fin 4) (v : Word) (s : State) : Host.Outcome State Fault Refusal :=
  onDev s (fun d => d.regWrite (writerOf w) (COACH_CTL q) v)
/-- TC_CNT_WRITE (R174). -/
def execTcCntWrite (w : Sender) (n : Fin 1024) (v : Word) (s : State) : Host.Outcome State Fault Refusal :=
  onDev s (fun d => d.regWrite (writerOf w) (TC_CNT n) v)
/-- TC_CMD_START (R203). -/
def execTcCmdStart (w : Sender) (n : Fin 1024) (s : State) : Host.Outcome State Fault Refusal :=
  onDev s (fun d => d.regWrite (writerOf w) (TC_CMD n) 1)
/-- TC_CMD_STOP (R203). -/
def execTcCmdStop (w : Sender) (n : Fin 1024) (s : State) : Host.Outcome State Fault Refusal :=
  onDev s (fun d => d.regWrite (writerOf w) (TC_CMD n) 2)
/-- TC_CMD_RESTART (R203). -/
def execTcCmdRestart (w : Sender) (n : Fin 1024) (s : State) : Host.Outcome State Fault Refusal :=
  onDev s (fun d => d.regWrite (writerOf w) (TC_CMD n) 4)
/-- TC_CMD_CAPT (R203). -/
def execTcCmdCapt (w : Sender) (n : Fin 1024) (s : State) : Host.Outcome State Fault Refusal :=
  onDev s (fun d => d.regWrite (writerOf w) (TC_CMD n) 8)
/-- TC_CMD_QCLR (R203). -/
def execTcCmdQclr (w : Sender) (n : Fin 1024) (s : State) : Host.Outcome State Fault Refusal :=
  onDev s (fun d => d.regWrite (writerOf w) (TC_CMD n) 16)
/-- FE_FINE_WRITE (R212). -/
def execFeFineWrite (w : Sender) (g : Fin 256) (v : Word) (s : State) : Host.Outcome State Fault Refusal :=
  onDev s (fun d => d.regWrite (writerOf w) (FE_FINE g) (v &&& 0x7FFFFFFF))
/-- FE_FINE_IMM (R214). -/
def execFeFineImm (w : Sender) (g : Fin 256) (v : Word) (s : State) : Host.Outcome State Fault Refusal :=
  onDev s (fun d => d.regWrite (writerOf w) (FE_FINE g) (v ||| 0x80000000))
/-- FE_CMD_START (R209). -/
def execFeCmdStart (w : Sender) (g : Fin 256) (s : State) : Host.Outcome State Fault Refusal :=
  onDev s (fun d => d.regWrite (writerOf w) (FE_CMD g) 1)
/-- FE_CMD_STOP (R218). -/
def execFeCmdStop (w : Sender) (g : Fin 256) (s : State) : Host.Outcome State Fault Refusal :=
  onDev s (fun d => d.regWrite (writerOf w) (FE_CMD g) 2)
/-- FE_CMD_RECAL (R223). -/
def execFeCmdRecal (w : Sender) (g : Fin 256) (s : State) : Host.Outcome State Fault Refusal :=
  onDev s (fun d => d.regWrite (writerOf w) (FE_CMD g) 4)
/-- FE_CMD_CLRCNT (R227). -/
def execFeCmdClrcnt (w : Sender) (g : Fin 256) (s : State) : Host.Outcome State Fault Refusal :=
  onDev s (fun d => d.regWrite (writerOf w) (FE_CMD g) 8)
/-- FE_ENABLE (R220). -/
def execFeEnable (w : Sender) (g : Fin 256) (v : Word) (s : State) : Host.Outcome State Fault Refusal :=
  onDev s (fun d => d.regWrite (writerOf w) (FE_CTL g) (v ||| 0x80000000))
/-- FE_DISABLE (R219). -/
def execFeDisable (w : Sender) (g : Fin 256) (v : Word) (s : State) : Host.Outcome State Fault Refusal :=
  onDev s (fun d => d.regWrite (writerOf w) (FE_CTL g) (v &&& 0x7FFFFFFF))
/-- FEQ_DISABLE_ALL (R219). -/
def execFeqDisableAll (w : Sender) (q : Fin 4) (s : State) : Host.Outcome State Fault Refusal :=
  onDev s (fun d => d.regWrite (writerOf w) (FEQ_CTL q) 1)
/-- IBEX_CMD_CONDCLR (R262). -/
def execIbexCmdCondclr (w : Sender) (e : Fin 64) (s : State) : Host.Outcome State Fault Refusal :=
  onDev s (fun d => d.regWrite (writerOf w) (IBX_CMD e) 64)
/-- IBEX_CMD_FLUSHTX (R262). -/
def execIbexCmdFlushtx (w : Sender) (e : Fin 64) (s : State) : Host.Outcome State Fault Refusal :=
  onDev s (fun d => d.regWrite (writerOf w) (IBX_CMD e) 16)
/-- IBEX_CMD_FLUSHRX (R262). -/
def execIbexCmdFlushrx (w : Sender) (e : Fin 64) (s : State) : Host.Outcome State Fault Refusal :=
  onDev s (fun d => d.regWrite (writerOf w) (IBX_CMD e) 32)
/-- IBEX_CMD_STOP (R262). -/
def execIbexCmdStop (w : Sender) (e : Fin 64) (s : State) : Host.Outcome State Fault Refusal :=
  onDev s (fun d => d.regWrite (writerOf w) (IBX_CMD e) 2)
/-- IBEX_CMD_CLRSHIFT (R262). -/
def execIbexCmdClrshift (w : Sender) (e : Fin 64) (s : State) : Host.Outcome State Fault Refusal :=
  onDev s (fun d => d.regWrite (writerOf w) (IBX_CMD e) 8)
/-- IBEX_CMD_START (R262). -/
def execIbexCmdStart (w : Sender) (e : Fin 64) (s : State) : Host.Outcome State Fault Refusal :=
  onDev s (fun d => d.regWrite (writerOf w) (IBX_CMD e) 1)
/-- IBEX_ENABLE (R233). -/
def execIbexEnable (w : Sender) (e : Fin 64) (v : Word) (s : State) : Host.Outcome State Fault Refusal :=
  onDev s (fun d => d.regWrite (writerOf w) (IBX_CTL e) (v ||| 0x80000000))
/-- IBEX_DISABLE (R233). -/
def execIbexDisable (w : Sender) (e : Fin 64) (v : Word) (s : State) : Host.Outcome State Fault Refusal :=
  onDev s (fun d => d.regWrite (writerOf w) (IBX_CTL e) (v &&& 0x7FFFFFFF))
/-- IBEX_PDATA_WRITE (R252). -/
def execIbexPdataWrite (w : Sender) (e : Fin 64) (v : Word) (s : State) : Host.Outcome State Fault Refusal :=
  onDev s (fun d => d.regWrite (writerOf w) (IBX_PDATA e) v)
/-- IBEX_TXDATA_WRITE (R247). -/
def execIbexTxdataWrite (w : Sender) (e : Fin 64) (v : Word) (s : State) : Host.Outcome State Fault Refusal :=
  onDev s (fun d => d.regWrite (writerOf w) (IBX_TXDATA e) v)
/-- TX_STREAM_RUN (R248). -/
def execTxStreamRun (w : Sender) (e : Fin 64) (v : Word) (s : State) : Host.Outcome State Fault Refusal :=
  onDev s (fun d => d.regWrite (writerOf w) (IBX_TXS_CTL e) v)
/-- RX_STREAM_RUN (R250). -/
def execRxStreamRun (w : Sender) (e : Fin 64) (v : Word) (s : State) : Host.Outcome State Fault Refusal :=
  onDev s (fun d => d.regWrite (writerOf w) (IBX_RXS_CTL e) v)
/-- IBEX_HANDOVER (R258). -/
def execIbexHandover (w : Sender) (e : Fin 64) (v : Word) (s : State) : Host.Outcome State Fault Refusal :=
  onDev s (fun d => d.regWrite (writerOf w) (IBX_HOCTL e) (v ||| 0x80000000))
/-- IBEX_RESET (R479). -/
def execIbexReset (w : Sender) (q : Fin 4) (v : Word) (s : State) : Host.Outcome State Fault Refusal :=
  onDev s (fun d => d.regWrite (writerOf w) (QPWR_IBXRST q) v)
/-- ME_START (R304). -/
def execMeStart (w : Sender) (e : Fin 8) (v : Word) (s : State) : Host.Outcome State Fault Refusal :=
  onDev s (fun d => d.regWrite (writerOf w) (ME_CTL e) (v ||| 0x80000000))
/-- ME_STOP (R304). -/
def execMeStop (w : Sender) (e : Fin 8) (v : Word) (s : State) : Host.Outcome State Fault Refusal :=
  onDev s (fun d => d.regWrite (writerOf w) (ME_CTL e) (v &&& 0x7FFFFFFF))
/-- ME_ERESET (R303). -/
def execMeEreset (w : Sender) (e : Fin 8) (v : Word) (s : State) : Host.Outcome State Fault Refusal :=
  onDev s (fun d => d.regWrite (writerOf w) (ME_CTL e) (v ||| 1))
/-- ME_IMDATA_WRITE (R303). -/
def execMeImdataWrite (w : Sender) (e : Fin 8) (v : Word) (s : State) : Host.Outcome State Fault Refusal :=
  onDev s (fun d => d.regWrite (writerOf w) (ME_IMDATA_LO e) v)
/-- SPARE_GO (R323). -/
def execSpareGo (f : Fin 4) (v : Word) (s : State) : Host.Outcome State Fault Refusal :=
  onDev s (fun d => d.regWrite (.fn f) MEM_SPARECFG (v ||| 0x80))
/-- SLICE_BORROW (R326). -/
def execSliceBorrow (f : Fin 4) (v : Word) (s : State) : Host.Outcome State Fault Refusal :=
  onDev s (fun d => d.regWrite (.fn f) MEM_TESTCTL (v ||| 1))
/-- MOVE_CMD_START (R319). -/
def execMoveCmdStart (w : Sender) (m : Fin 64) (s : State) : Host.Outcome State Fault Refusal :=
  onDev s (fun d => d.regWrite (writerOf w) (MV_CMD m) 1)
/-- MOVE_CMD_STOP (R320). -/
def execMoveCmdStop (w : Sender) (m : Fin 64) (s : State) : Host.Outcome State Fault Refusal :=
  onDev s (fun d => d.regWrite (writerOf w) (MV_CMD m) 2)
/-- QSTAGE_WRITE (R394). -/
def execQstageWrite (w : Sender) (q : Fin 4) (v : Word) (s : State) : Host.Outcome State Fault Refusal :=
  onDev s (fun d => d.regWrite (writerOf w) (QSTAGE_VAL q) v)
/-- QSTAGE_ABORT (R406). -/
def execQstageAbort (w : Sender) (q : Fin 4) (s : State) : Host.Outcome State Fault Refusal :=
  onDev s (fun d => d.regWrite (writerOf w) (QSTAGE_CMD q) 1)
/-- QUADRANT_RELEASE (R430). -/
def execQuadrantRelease (f : Fin 4) (v : Word) (s : State) : Host.Outcome State Fault Refusal :=
  onDev s (fun d => d.regWrite (.fn f) SVC_QRELEASE (v ||| 0x80000000))
/-- PRESENCE_CLOSE (R449). -/
def execPresenceClose (f : Fin 4) (s : State) : Host.Outcome State Fault Refusal :=
  onDev s (fun d => d.regWrite (.fn f) SVCPRES_PRES 0x8000)
/-- SEAL_CLEAR (R456). -/
def execSealClear (f : Fin 4) (s : State) : Host.Outcome State Fault Refusal :=
  onDev s (fun d => d.regWrite (.fn f) SVCPRES_SEAL 1)
/-- PWR_COLD (R481). -/
def execPwrCold (f : Fin 4) (s : State) : Host.Outcome State Fault Refusal :=
  onDev s (fun d => d.regWrite (.fn f) PWR_CTL 0x80000000)
/-- PWR_REQ_IDLE (R469). -/
def execPwrReqIdle (f : Fin 4) (s : State) : Host.Outcome State Fault Refusal :=
  onDev s (fun d => d.regWrite (.fn f) PWR_CTL 1)
/-- PWR_REQ_SLEEP (R470). -/
def execPwrReqSleep (f : Fin 4) (s : State) : Host.Outcome State Fault Refusal :=
  onDev s (fun d => d.regWrite (.fn f) PWR_CTL 2)
/-- PWR_REQ_RUN (R470). -/
def execPwrReqRun (f : Fin 4) (s : State) : Host.Outcome State Fault Refusal :=
  onDev s (fun d => d.regWrite (.fn f) PWR_CTL 0)
/-- LANE_CFG_WRITE (R484). -/
def execLaneCfgWrite (w : Sender) (n : Fin 512) (v : Word) (s : State) : Host.Outcome State Fault Refusal :=
  onDev s (fun d => d.regWrite (writerOf w) (LANE_CFG n) v)
/-- RSVW_FLAG_CLEAR (R511). -/
def execRsvwFlagClear (f : Fin 4) (s : State) : Host.Outcome State Fault Refusal :=
  onDev s (fun d => d.regWrite (.fn f) GLB_RSVW 0x80000000)
/-- COACH_FLUSH (R165): CTL.FLUSH with EN as it stands. -/
def execCoachFlush (w : Sender) (q : Fin 4) (s : State) : Host.Outcome State Fault Refusal :=
  onDev s (fun d => d.regWrite (writerOf w) (COACH_CTL q) (2 ||| w32 (d.get (COACH_CTL_EN q))))
/-- QHOLD_SET (R426): the other bits as they stand. -/
def execQholdSet (f q : Fin 4) (s : State) : Host.Outcome State Fault Refusal :=
  onDev s (fun d => d.regWrite (.fn f) SVC_QHOLD (w32 (setBitAt (d.get SVC_QHOLD_HOLD) q true)))
/-- QHOLD_RELEASE (R427): the other bits as they stand. -/
def execQholdRelease (f q : Fin 4) (s : State) : Host.Outcome State Fault Refusal :=
  onDev s (fun d => d.regWrite (.fn f) SVC_QHOLD (w32 (setBitAt (d.get SVC_QHOLD_HOLD) q false)))
/-- R505: the offset of POS, LIMIT_LO or LIMIT_HI of an axis, whose HI half goes first. -/
def hiFirst (off : Nat) : Bool :=
  match locate off with
  | some l => l.gid == .axis && (l.info.off == 0x010 || l.info.off == 0x020 || l.info.off == 0x028)
  | none => false

/-- R504, R505: a write of one dword, or of two in address order but for the pairs whose HI half goes first. -/
def Dev.hostWrites (w : Writer) (off : Nat) (be : BitVec 4) (v : Written) (d : Dev) : Dev :=
  match v.second with
  | none => d.hostWrite w off be v.v
  | some x =>
    if hiFirst off then (d.hostWrite w (off + 4) x.be x.v).hostWrite w off be v.v else (d.hostWrite w off be v.v).hostWrite w (off + 4) x.be x.v

/-- REGISTER_WRITE (R504, R505): a write of the dword `off` of BAR0, or of two dwords from it on. -/
def execRegisterWrite (w : Sender) (off : Fin 65536) (be : BitVec 4) (v : Written) (s : State) :
    Host.Outcome State Fault Refusal :=
  if wfPair off v.second then onDev s (fun d => d.hostWrites (writerOf w) (4 * off) be v) else .fault .badCommand

end Sys2Proof.Machine
end

