-- ==== Sys2Proof/Machine/Dispatch.lean ====
section
/-! DEFINITION. The dispatch of the commands: one arm per row of the table, each calling that row's own meaning. -/

namespace Sys2Proof.Machine

/-- The effect of one command on everything but the queue. -/
def exec (i : Instr) (s : State) : Host.Outcome State Fault Refusal :=
  match i with
  | .submissionDoorbell f off v => Sys2Proof.Machine.execSubmissionDoorbell f off v s
  | .returnDoorbell f off v => Sys2Proof.Machine.execReturnDoorbell f off v s
  | .descriptorFetchIssue => Sys2Proof.Machine.execDescriptorFetchIssue s
  | .descriptorFetchDone k r => Sys2Proof.Machine.execDescriptorFetchDone k r s
  | .descriptorForward k => Sys2Proof.Machine.execDescriptorForward k s
  | .creditReturn x => Sys2Proof.Machine.execCreditReturn x s
  | .completionWrite k => Sys2Proof.Machine.execCompletionWrite k s
  | .nop => Sys2Proof.Machine.execNop s
  | .qregWrite q => Sys2Proof.Machine.execQregWrite q s
  | .sregWrite => Sys2Proof.Machine.execSregWrite s
  | .regRead => Sys2Proof.Machine.execRegRead s
  | .stageWrite => Sys2Proof.Machine.execStageWrite s
  | .commitArm => Sys2Proof.Machine.execCommitArm s
  | .commitAbort => Sys2Proof.Machine.execCommitAbort s
  | .snapshot => Sys2Proof.Machine.execSnapshot s
  | .coachInsert q => Sys2Proof.Machine.execCoachInsert q s
  | .coachCancel q => Sys2Proof.Machine.execCoachCancel q s
  | .coachLoad q => Sys2Proof.Machine.execCoachLoad q s
  | .routeSet => Sys2Proof.Machine.execRouteSet s
  | .routeClear => Sys2Proof.Machine.execRouteClear s
  | .ibexLoad q h => Sys2Proof.Machine.execIbexLoad q h s
  | .meImage q h => Sys2Proof.Machine.execMeImage q h s
  | .meSwap q => Sys2Proof.Machine.execMeSwap q s
  | .memWrite k h => Sys2Proof.Machine.execMemWrite k h s
  | .memRead k hostErrAt => Sys2Proof.Machine.execMemRead k hostErrAt s
  | .memFill k => Sys2Proof.Machine.execMemFill k s
  | .quadReset => Sys2Proof.Machine.execQuadReset s
  | .nvsRead hostErrAt => Sys2Proof.Machine.execNvsRead hostErrAt s
  | .nvsWrite h => Sys2Proof.Machine.execNvsWrite h s
  | .faultlogRead hostErrAt => Sys2Proof.Machine.execFaultlogRead hostErrAt s
  | .faultlogClear => Sys2Proof.Machine.execFaultlogClear s
  | .fuseProg h vfuseOk => Sys2Proof.Machine.execFuseProg h vfuseOk s
  | .fuseWordProgram vfuseOk => Sys2Proof.Machine.execFuseWordProgram vfuseOk s
  | .debugUnlock => Sys2Proof.Machine.execDebugUnlock s
  | .calWrite h => Sys2Proof.Machine.execCalWrite h s
  | .selftest => Sys2Proof.Machine.execSelftest s
  | .bulkWrite f off data => Sys2Proof.Machine.execBulkWrite f off data s
  | .bulkRead f off n => Sys2Proof.Machine.execBulkRead f off n s
  | .linkDown => Sys2Proof.Machine.execLinkDown s
  | .linkUp width rate => Sys2Proof.Machine.execLinkUp width rate s
  | .busMasterEnable f msixEn fmask pmeEn => Sys2Proof.Machine.execBusMasterEnable f msixEn fmask pmeEn s
  | .functionLevelReset f => Sys2Proof.Machine.execFunctionLevelReset f s
  | .d3hotEntry f => Sys2Proof.Machine.execD3hotEntry f s
  | .d0Return f => Sys2Proof.Machine.execD0Return f s
  | .sqEnable f k v => Sys2Proof.Machine.execSqEnable f k v s
  | .sqDisable f k v => Sys2Proof.Machine.execSqDisable f k v s
  | .rrEnable f k v => Sys2Proof.Machine.execRrEnable f k v s
  | .rrDisable f k v => Sys2Proof.Machine.execRrDisable f k v s
  | .recordCollect q => Sys2Proof.Machine.execRecordCollect q s
  | .recordAccept => Sys2Proof.Machine.execRecordAccept s
  | .spineRecordBuffer => Sys2Proof.Machine.execSpineRecordBuffer s
  | .irqModerationExpire k => Sys2Proof.Machine.execIrqModerationExpire k s
  | .msixPendingSend f vec => Sys2Proof.Machine.execMsixPendingSend f vec s
  | .routeWrite f o t v => Sys2Proof.Machine.execRouteWrite f o t v s
  | .tcFlagAck w n flag => Sys2Proof.Machine.execTcFlagAck w n flag s
  | .xbarSinkAct q sink => Sys2Proof.Machine.execXbarSinkAct q sink s
  | .convPulseEnd c => Sys2Proof.Machine.execConvPulseEnd c s
  | .tclkLock => Sys2Proof.Machine.execTclkLock s
  | .stimeLoRead f => Sys2Proof.Machine.execStimeLoRead f s
  | .syncOutFrame => Sys2Proof.Machine.execSyncOutFrame s
  | .syncFrame b tick fine => Sys2Proof.Machine.execSyncFrame b tick fine s
  | .syncLost => Sys2Proof.Machine.execSyncLost s
  | .refLost x => Sys2Proof.Machine.execRefLost x s
  | .refRevert => Sys2Proof.Machine.execRefRevert s
  | .refcfgWrite f v => Sys2Proof.Machine.execRefcfgWrite f v s
  | .pllFault => Sys2Proof.Machine.execPllFault s
  | .pllSwitchover => Sys2Proof.Machine.execPllSwitchover s
  | .pllRestored => Sys2Proof.Machine.execPllRestored s
  | .pllSingle => Sys2Proof.Machine.execPllSingle s
  | .tclkStop => Sys2Proof.Machine.execTclkStop s
  | .tbSwitch f => Sys2Proof.Machine.execTbSwitch f s
  | .tbRetry f => Sys2Proof.Machine.execTbRetry f s
  | .tbRecal f => Sys2Proof.Machine.execTbRecal f s
  | .firstCalibrationStart q => Sys2Proof.Machine.execFirstCalibrationStart q s
  | .lineCalibrationDone x hits => Sys2Proof.Machine.execLineCalibrationDone x hits s
  | .lineSwap x => Sys2Proof.Machine.execLineSwap x s
  | .recalInterval => Sys2Proof.Machine.execRecalInterval s
  | .recalTemperature t => Sys2Proof.Machine.execRecalTemperature t s
  | .calDefer g => Sys2Proof.Machine.execCalDefer g s
  | .calStale g => Sys2Proof.Machine.execCalStale g s
  | .hkCount n => Sys2Proof.Machine.execHkCount n s
  | .hkCntLoRead f n => Sys2Proof.Machine.execHkCntLoRead f n s
  | .aclkRatioMeasure ticks => Sys2Proof.Machine.execAclkRatioMeasure ticks s
  | .axisCfgWrite w a v => Sys2Proof.Machine.execAxisCfgWrite w a v s
  | .inputLoss a p => Sys2Proof.Machine.execInputLoss a p s
  | .inputRestored a p lvl => Sys2Proof.Machine.execInputRestored a p lvl s
  | .axisInputTransition a p lvl fine => Sys2Proof.Machine.execAxisInputTransition a p lvl fine s
  | .filterAccept a p => Sys2Proof.Machine.execFilterAccept a p s
  | .quadratureDecode a => Sys2Proof.Machine.execQuadratureDecode a s
  | .toothEdge a => Sys2Proof.Machine.execToothEdge a s
  | .posLoWrite w a v => Sys2Proof.Machine.execPosLoWrite w a v s
  | .limitLoWrite w a hi v => Sys2Proof.Machine.execLimitLoWrite w a hi v s
  | .lposLoRead w a => Sys2Proof.Machine.execLposLoRead w a s
  | .axisFaultClear w a => Sys2Proof.Machine.execAxisFaultClear w a s
  | .serialFrameStart a conv => Sys2Proof.Machine.execSerialFrameStart a conv s
  | .serialFrameCheck a frame => Sys2Proof.Machine.execSerialFrameCheck a frame s
  | .axisHold a => Sys2Proof.Machine.execAxisHold a s
  | .holdArrive q a => Sys2Proof.Machine.execHoldArrive q a s
  | .axisStopped a => Sys2Proof.Machine.execAxisStopped a s
  | .reaimArrive q a => Sys2Proof.Machine.execReaimArrive q a s
  | .emuEnable w a v => Sys2Proof.Machine.execEmuEnable w a v s
  | .emuRatioNWrite w a v => Sys2Proof.Machine.execEmuRatioNWrite w a v s
  | .emuOutputEdge a => Sys2Proof.Machine.execEmuOutputEdge a s
  | .slaveFrameStart a => Sys2Proof.Machine.execSlaveFrameStart a s
  | .slaveIdleTimeout a => Sys2Proof.Machine.execSlaveIdleTimeout a s
  | .coachAccept q => Sys2Proof.Machine.execCoachAccept q s
  | .insertion q => Sys2Proof.Machine.execInsertion q s
  | .horizonDraw q ue => Sys2Proof.Machine.execHorizonDraw q ue s
  | .calendarL2Move q ue => Sys2Proof.Machine.execCalendarL2Move q ue s
  | .farListScan q ue => Sys2Proof.Machine.execFarListScan q ue s
  | .positionWheelRescan q a ue => Sys2Proof.Machine.execPositionWheelRescan q a ue s
  | .bucketLoad q => Sys2Proof.Machine.execBucketLoad q s
  | .armTake q => Sys2Proof.Machine.execArmTake q s
  | .slotLive q k => Sys2Proof.Machine.execSlotLive q k s
  | .slotFire q k => Sys2Proof.Machine.execSlotFire q k s
  | .cancelComplete q => Sys2Proof.Machine.execCancelComplete q s
  | .templateReadDone c => Sys2Proof.Machine.execTemplateReadDone c s
  | .tplSwap w t => Sys2Proof.Machine.execTplSwap w t s
  | .tplCheckDone t => Sys2Proof.Machine.execTplCheckDone t s
  | .carFlagset w a v => Sys2Proof.Machine.execCarFlagset w a v s
  | .carCloseCommand w a v => Sys2Proof.Machine.execCarCloseCommand w a v s
  | .carVbaseRead w a => Sys2Proof.Machine.execCarVbaseRead w a s
  | .coachEnable w q v => Sys2Proof.Machine.execCoachEnable w q v s
  | .coachFlush w q => Sys2Proof.Machine.execCoachFlush w q s
  | .tcCount n => Sys2Proof.Machine.execTcCount n s
  | .tcCarry n => Sys2Proof.Machine.execTcCarry n s
  | .tcCntWrite w n v => Sys2Proof.Machine.execTcCntWrite w n v s
  | .tcCntRead w n => Sys2Proof.Machine.execTcCntRead w n s
  | .tcLaneCapture n rising fine => Sys2Proof.Machine.execTcLaneCapture n rising fine s
  | .tcGateEnd n fine => Sys2Proof.Machine.execTcGateEnd n fine s
  | .tcCapcntRead w n => Sys2Proof.Machine.execTcCapcntRead w n s
  | .tcCmdStart w n => Sys2Proof.Machine.execTcCmdStart w n s
  | .tcCmdStop w n => Sys2Proof.Machine.execTcCmdStop w n s
  | .tcCmdRestart w n => Sys2Proof.Machine.execTcCmdRestart w n s
  | .tcCmdCapt w n => Sys2Proof.Machine.execTcCmdCapt w n s
  | .tcCmdQclr w n => Sys2Proof.Machine.execTcCmdQclr w n s
  | .fePeriodEdge g => Sys2Proof.Machine.execFePeriodEdge g s
  | .feReload g => Sys2Proof.Machine.execFeReload g s
  | .feFineWrite w g v => Sys2Proof.Machine.execFeFineWrite w g v s
  | .feFineImm w g v => Sys2Proof.Machine.execFeFineImm w g v s
  | .feCmdStart w g => Sys2Proof.Machine.execFeCmdStart w g s
  | .feCmdStop w g => Sys2Proof.Machine.execFeCmdStop w g s
  | .feCmdRecal w g => Sys2Proof.Machine.execFeCmdRecal w g s
  | .feCmdClrcnt w g => Sys2Proof.Machine.execFeCmdClrcnt w g s
  | .feEnable w g v => Sys2Proof.Machine.execFeEnable w g v s
  | .feDisable w g v => Sys2Proof.Machine.execFeDisable w g v s
  | .feqDisableAll w q => Sys2Proof.Machine.execFeqDisableAll w q s
  | .ibexGo e lanes => Sys2Proof.Machine.execIbexGo e lanes s
  | .ibexAwait e lanes => Sys2Proof.Machine.execIbexAwait e lanes s
  | .ibexAwaitDone e lanes => Sys2Proof.Machine.execIbexAwaitDone e lanes s
  | .ibexShift e lanes => Sys2Proof.Machine.execIbexShift e lanes s
  | .ibexXfer e => Sys2Proof.Machine.execIbexXfer e s
  | .ibexCopy e lanes => Sys2Proof.Machine.execIbexCopy e lanes s
  | .ibexPut e => Sys2Proof.Machine.execIbexPut e s
  | .ibexBits e => Sys2Proof.Machine.execIbexBits e s
  | .ibexNotify e => Sys2Proof.Machine.execIbexNotify e s
  | .ibexClock e => Sys2Proof.Machine.execIbexClock e s
  | .ibexEnd e => Sys2Proof.Machine.execIbexEnd e s
  | .ibexIllegal e => Sys2Proof.Machine.execIbexIllegal e s
  | .ibexStallResume e lanes => Sys2Proof.Machine.execIbexStallResume e lanes s
  | .ibexCmdCondclr w e => Sys2Proof.Machine.execIbexCmdCondclr w e s
  | .ibexCmdFlushtx w e => Sys2Proof.Machine.execIbexCmdFlushtx w e s
  | .ibexCmdFlushrx w e => Sys2Proof.Machine.execIbexCmdFlushrx w e s
  | .ibexCmdStop w e => Sys2Proof.Machine.execIbexCmdStop w e s
  | .ibexStopAtBoundary e => Sys2Proof.Machine.execIbexStopAtBoundary e s
  | .ibexCmdClrshift w e => Sys2Proof.Machine.execIbexCmdClrshift w e s
  | .ibexCmdStart w e => Sys2Proof.Machine.execIbexCmdStart w e s
  | .ibexEnable w e v => Sys2Proof.Machine.execIbexEnable w e v s
  | .ibexDisable w e v => Sys2Proof.Machine.execIbexDisable w e v s
  | .ibexPdataWrite w e v => Sys2Proof.Machine.execIbexPdataWrite w e v s
  | .ibexPdataRead w e => Sys2Proof.Machine.execIbexPdataRead w e s
  | .ibexTxdataWrite w e v => Sys2Proof.Machine.execIbexTxdataWrite w e v s
  | .ibexRxdataRead w e => Sys2Proof.Machine.execIbexRxdataRead w e s
  | .txStreamRun w e v => Sys2Proof.Machine.execTxStreamRun w e v s
  | .txStreamReadDone e => Sys2Proof.Machine.execTxStreamReadDone e s
  | .rxStreamRun w e v => Sys2Proof.Machine.execRxStreamRun w e v s
  | .rxStreamWrite e => Sys2Proof.Machine.execRxStreamWrite e s
  | .rxStreamGroupTimeout e => Sys2Proof.Machine.execRxStreamGroupTimeout e s
  | .ibexHandover w e v => Sys2Proof.Machine.execIbexHandover w e v s
  | .ibexReset w q v => Sys2Proof.Machine.execIbexReset w q v s
  | .meTwoMoveWord e lanes => Sys2Proof.Machine.execMeTwoMoveWord e lanes s
  | .meCompareBranch e lanes => Sys2Proof.Machine.execMeCompareBranch e lanes s
  | .meLongImmediate e lanes => Sys2Proof.Machine.execMeLongImmediate e lanes s
  | .aluAdd e v => Sys2Proof.Machine.execAluAdd e v s
  | .aluSub e v => Sys2Proof.Machine.execAluSub e v s
  | .aluAnd e v => Sys2Proof.Machine.execAluAnd e v s
  | .aluOr e v => Sys2Proof.Machine.execAluOr e v s
  | .aluXor e v => Sys2Proof.Machine.execAluXor e v s
  | .aluShl e v => Sys2Proof.Machine.execAluShl e v s
  | .aluShr e v => Sys2Proof.Machine.execAluShr e v s
  | .aluSar e v => Sys2Proof.Machine.execAluSar e v s
  | .aluMin e v => Sys2Proof.Machine.execAluMin e v s
  | .aluMax e v => Sys2Proof.Machine.execAluMax e v s
  | .aluAddc e v => Sys2Proof.Machine.execAluAddc e v s
  | .aluSubb e v => Sys2Proof.Machine.execAluSubb e v s
  | .mulT e v => Sys2Proof.Machine.execMulT e v s
  | .mulTu e v => Sys2Proof.Machine.execMulTu e v s
  | .lutT e v => Sys2Proof.Machine.execLutT e v s
  | .lsuLd e v => Sys2Proof.Machine.execLsuLd e v s
  | .lsuSt e v => Sys2Proof.Machine.execLsuSt e v s
  | .lsuFaa e v => Sys2Proof.Machine.execLsuFaa e v s
  | .lsuFaa64 e v => Sys2Proof.Machine.execLsuFaa64 e v s
  | .lsuSwp e v => Sys2Proof.Machine.execLsuSwp e v s
  | .lsuLoadDataArrive e => Sys2Proof.Machine.execLsuLoadDataArrive e s
  | .lsuIrd e v => Sys2Proof.Machine.execLsuIrd e v s
  | .lsuIwr e v => Sys2Proof.Machine.execLsuIwr e v s
  | .aguLd e k v => Sys2Proof.Machine.execAguLd e k v s
  | .aguSt e k v => Sys2Proof.Machine.execAguSt e k v s
  | .brT e v => Sys2Proof.Machine.execBrT e v s
  | .callT e v => Sys2Proof.Machine.execCallT e v s
  | .callRet e v => Sys2Proof.Machine.execCallRet e v s
  | .repT e v => Sys2Proof.Machine.execRepT e v s
  | .timeLoRead e => Sys2Proof.Machine.execTimeLoRead e s
  | .timeWait e v => Sys2Proof.Machine.execTimeWait e v s
  | .timeWaitExpire e => Sys2Proof.Machine.execTimeWaitExpire e s
  | .timeSlp e v => Sys2Proof.Machine.execTimeSlp e v s
  | .meSleepWake e => Sys2Proof.Machine.execMeSleepWake e s
  | .ioWr e v => Sys2Proof.Machine.execIoWr e v s
  | .ioRd e v => Sys2Proof.Machine.execIoRd e v s
  | .coachPortInsert e => Sys2Proof.Machine.execCoachPortInsert e s
  | .coachPortCancel e => Sys2Proof.Machine.execCoachPortCancel e s
  | .coachRequestDone e => Sys2Proof.Machine.execCoachRequestDone e s
  | .coachStRead e => Sys2Proof.Machine.execCoachStRead e s
  | .recT e v => Sys2Proof.Machine.execRecT e v s
  | .sysEret e v => Sys2Proof.Machine.execSysEret e v s
  | .sysTrap e v => Sys2Proof.Machine.execSysTrap e v s
  | .bitMap e v => Sys2Proof.Machine.execBitMap e v s
  | .bitSet e v => Sys2Proof.Machine.execBitSet e v s
  | .bitClr e v => Sys2Proof.Machine.execBitClr e v s
  | .bitTas e v => Sys2Proof.Machine.execBitTas e v s
  | .crcB e v => Sys2Proof.Machine.execCrcB e v s
  | .crcW e v => Sys2Proof.Machine.execCrcW e v s
  | .xpIn e v => Sys2Proof.Machine.execXpIn e v s
  | .xpOutRead e => Sys2Proof.Machine.execXpOutRead e s
  | .xpClr e v => Sys2Proof.Machine.execXpClr e v s
  | .xpBankSwap e => Sys2Proof.Machine.execXpBankSwap e s
  | .meStart w e v => Sys2Proof.Machine.execMeStart w e v s
  | .meStop w e v => Sys2Proof.Machine.execMeStop w e v s
  | .meEreset w e v => Sys2Proof.Machine.execMeEreset w e v s
  | .meImdataWrite w e v => Sys2Proof.Machine.execMeImdataWrite w e v s
  | .meCycLoRead w e => Sys2Proof.Machine.execMeCycLoRead w e s
  | .meDebugHalt e => Sys2Proof.Machine.execMeDebugHalt e s
  | .meDebugResume e => Sys2Proof.Machine.execMeDebugResume e s
  | .debugPortAccess r => Sys2Proof.Machine.execDebugPortAccess r s
  | .bankRead b flip => Sys2Proof.Machine.execBankRead b flip s
  | .bankWrite b => Sys2Proof.Machine.execBankWrite b s
  | .bankAtomic b flip => Sys2Proof.Machine.execBankAtomic b flip s
  | .ceWriteback => Sys2Proof.Machine.execCeWriteback s
  | .scrubRead flip => Sys2Proof.Machine.execScrubRead flip s
  | .spareGo f v => Sys2Proof.Machine.execSpareGo f v s
  | .spareCopyWord flip => Sys2Proof.Machine.execSpareCopyWord flip s
  | .sliceBorrow f v => Sys2Proof.Machine.execSliceBorrow f v s
  | .sliceTestDone fails => Sys2Proof.Machine.execSliceTestDone fails s
  | .moveCmdStart w m => Sys2Proof.Machine.execMoveCmdStart w m s
  | .moveCmdStop w m => Sys2Proof.Machine.execMoveCmdStop w m s
  | .moveWord m => Sys2Proof.Machine.execMoveWord m s
  | .memWakeReady => Sys2Proof.Machine.execMemWakeReady s
  | .stagedWriteLand k => Sys2Proof.Machine.execStagedWriteLand k s
  | .qstageWrite w q v => Sys2Proof.Machine.execQstageWrite w q v s
  | .qstageAbort w q => Sys2Proof.Machine.execQstageAbort w q s
  | .commitFire g => Sys2Proof.Machine.execCommitFire g s
  | .snapshotTake k => Sys2Proof.Machine.execSnapshotTake k s
  | .snapshotWriteDone k hostErr => Sys2Proof.Machine.execSnapshotWriteDone k hostErr s
  | .testStart => Sys2Proof.Machine.execTestStart s
  | .testDone pass detail => Sys2Proof.Machine.execTestDone pass detail s
  | .testNotIdle => Sys2Proof.Machine.execTestNotIdle s
  | .testAbandon => Sys2Proof.Machine.execTestAbandon s
  | .patrolTick => Sys2Proof.Machine.execPatrolTick s
  | .qholdSet f q => Sys2Proof.Machine.execQholdSet f q s
  | .qholdRelease f q => Sys2Proof.Machine.execQholdRelease f q s
  | .quadrantMonitorTrip q supply => Sys2Proof.Machine.execQuadrantMonitorTrip q supply s
  | .quadrantRelease f v => Sys2Proof.Machine.execQuadrantRelease f v s
  | .quadrantResetEnd q => Sys2Proof.Machine.execQuadrantResetEnd q s
  | .dclkPllLoss => Sys2Proof.Machine.execDclkPllLoss s
  | .fclkPllLoss => Sys2Proof.Machine.execFclkPllLoss s
  | .spineParityError b => Sys2Proof.Machine.execSpineParityError b s
  | .faultLogStoreWrite => Sys2Proof.Machine.execFaultLogStoreWrite s
  | .presenceAssert => Sys2Proof.Machine.execPresenceAssert s
  | .presenceRelease => Sys2Proof.Machine.execPresenceRelease s
  | .presenceTimeout => Sys2Proof.Machine.execPresenceTimeout s
  | .presenceClose f => Sys2Proof.Machine.execPresenceClose f s
  | .sealOpen => Sys2Proof.Machine.execSealOpen s
  | .sealClear f => Sys2Proof.Machine.execSealClear f s
  | .powerGoodRelease => Sys2Proof.Machine.execPowerGoodRelease s
  | .rstNAssert => Sys2Proof.Machine.execRstNAssert s
  | .pwrCold f => Sys2Proof.Machine.execPwrCold f s
  | .coreSupplyLoss => Sys2Proof.Machine.execCoreSupplyLoss s
  | .ioRailGood r v33 => Sys2Proof.Machine.execIoRailGood r v33 s
  | .ioRailLost r => Sys2Proof.Machine.execIoRailLost r s
  | .fuseLoadDone => Sys2Proof.Machine.execFuseLoadDone s
  | .bootReadDone => Sys2Proof.Machine.execBootReadDone s
  | .startupScrubDone => Sys2Proof.Machine.execStartupScrubDone s
  | .bootApply => Sys2Proof.Machine.execBootApply s
  | .pwrReqIdle f => Sys2Proof.Machine.execPwrReqIdle f s
  | .idleExit => Sys2Proof.Machine.execIdleExit s
  | .pwrReqSleep f => Sys2Proof.Machine.execPwrReqSleep f s
  | .pwrReqRun f => Sys2Proof.Machine.execPwrReqRun f s
  | .sleepEntry => Sys2Proof.Machine.execSleepEntry s
  | .wake src => Sys2Proof.Machine.execWake src s
  | .stimeResume n levels => Sys2Proof.Machine.execStimeResume n levels s
  | .wakeRun => Sys2Proof.Machine.execWakeRun s
  | .thermalSample t => Sys2Proof.Machine.execThermalSample t s
  | .laneCfgWrite w n v => Sys2Proof.Machine.execLaneCfgWrite w n v s
  | .rsvwFlagClear f => Sys2Proof.Machine.execRsvwFlagClear f s
  | .registerWrite w off be v => Sys2Proof.Machine.execRegisterWrite w off be v s
  | .slaveClockEdge a rising => Sys2Proof.Machine.execSlaveClockEdge a rising s
  | .referenceReturn x => Sys2Proof.Machine.execReferenceReturn x s
  | .quadrantMonitorGood q => Sys2Proof.Machine.execQuadrantMonitorGood q s
  | .completionTimeout k => Sys2Proof.Machine.execCompletionTimeout k s
  | .vaonLoss => Sys2Proof.Machine.execVaonLoss s

end Sys2Proof.Machine
end

