-- ==== Sys2Proof/Safety.lean ====
section
/-! DEFINITION. The terms in which statements about the block are made: what a command leaves alone, when a register write reaches its
register, the canonical form of the memories. -/

namespace Sys2Proof.Machine

/-- The parts of a state other than the BAR0 registers. -/
inductive Part where
  | pending | mem | nvs | fuse
  | tick | stime | heldHi | late | latched | quads | convs | xev | ru | host | tb | lines | hks | axes | msgs | emus | slices | cars | tpls
  | tcs | fes | ibxs | out | free | svc | mc | cmt | mes | pw
  deriving DecidableEq, Repr

/-- The part `p` of the states `s` and `t` is the same. -/
def Part.same (p : Part) (s t : State) : Prop :=
  match p with
  | .pending => t.pending = s.pending
  | .mem => t.mem = s.mem
  | .nvs => t.nvs = s.nvs
  | .fuse => t.fuse = s.fuse
  | .tick => t.dev.tick = s.dev.tick
  | .stime => t.dev.stime = s.dev.stime
  | .heldHi => t.dev.heldHi = s.dev.heldHi
  | .late => t.dev.late = s.dev.late
  | .latched => t.dev.latched = s.dev.latched
  | .quads => t.dev.quads = s.dev.quads
  | .convs => t.dev.convs = s.dev.convs
  | .xev => t.dev.xev = s.dev.xev
  | .ru => t.dev.ru = s.dev.ru
  | .host => t.dev.host = s.dev.host
  | .tb => t.dev.tb = s.dev.tb
  | .lines => t.dev.lines = s.dev.lines
  | .hks => t.dev.hks = s.dev.hks
  | .axes => t.dev.axes = s.dev.axes
  | .msgs => t.dev.msgs = s.dev.msgs
  | .emus => t.dev.emus = s.dev.emus
  | .slices => t.dev.slices = s.dev.slices
  | .cars => t.dev.cars = s.dev.cars
  | .tpls => t.dev.tpls = s.dev.tpls
  | .tcs => t.dev.tcs = s.dev.tcs
  | .fes => t.dev.fes = s.dev.fes
  | .ibxs => t.dev.ibxs = s.dev.ibxs
  | .out => t.dev.out = s.dev.out
  | .free => t.dev.free = s.dev.free
  | .svc => t.dev.svc = s.dev.svc
  | .mc => t.dev.mc = s.dev.mc
  | .cmt => t.dev.cmt = s.dev.cmt
  | .mes => t.dev.mes = s.dev.mes
  | .pw => t.dev.pw = s.dev.pw

/-- Two fields share no bit: they lie in different registers, or at different places of one. -/
def Fld.apart (f g : Fld) : Prop := f.off ≠ g.off ∨ f.lo + f.w ≤ g.lo ∨ g.lo + g.w ≤ f.lo

/-- The register at `o` as one field. -/
def whole (o : Nat) : Fld := ⟨o, 0, 32⟩

/-- The frame of a command: from `s` to `t` every part but those of `ps` stays as it was, and so does every field of every register that
shares no bit with the fields of `fs`. -/
def Frame (ps : List Part) (fs : List Fld) (s t : State) : Prop :=
  (∀ p, p ∉ ps → p.same s t) ∧ ∀ g : Fld, (∀ f ∈ fs, f.apart g) → t.dev.get g = s.dev.get g

/-- The register at `off` takes a write by `w` now: `w` may write there (R337, R389, R512), the device is not in IDLE, where a gated block
holds the write (R469), `off` lies in no MSI-X table (R519), and the quadrant of `off` is not down (R426, R429, R478). -/
def Dev.takes (d : Dev) (w : Writer) (off : Nat) : Bool :=
  d.mayWrite w off && d.get PWR_STATUS_STATE != 1 && !(decide (0x6000 ≤ off) && decide (off < 0x8000)) &&
  !(decide (0x10000 ≤ off) && decide (off < 0x30000) && d.quadDown ((off - 0x10000) / 0x8000))

/-- The register at `off` takes a write by `w`, no other write waits for the end of the tick, and TCLK runs, so that the write lands alone (R508). -/
def Dev.takesLate (d : Dev) (w : Writer) (off : Nat) : Bool := d.takes w off && d.late.isEmpty && d.tb.running

/-- R508: the state when the writes that take effect on the next tick have landed. -/
def State.landed (s : State) : State := { s with dev := s.dev.landed }

/-- R508: from `s` to `u` a register write has come that takes effect on the next tick, and nothing else has changed; `t` is `u` when it has
landed. -/
def lands (s u t : State) : Prop := Frame [.late] [] s u ∧ t = u.landed

/-- The device with a write by `w` that waits for the end of the tick (R508). -/
def Dev.awaiting (d : Dev) (w : Writer) (off : Nat) (v : Word) : Dev :=
  { d with late := d.late ++ [{ due := d.tick, rank := w.rank, code := w.code, off, v }] }

/-- A read by `w` of a register whose read has an effect, in the block of quadrant `q`, reaches it (R285, R337). -/
def Dev.reads (d : Dev) (w : Sender) (q : Nat) : Bool :=
  match w with
  | .fn f => d.qOwner q == f.val
  | .me e => e.val / 2 == q

/-- The answer to a read by `w` of the register at `off` (R285, R504). -/
def answer (w : Sender) (off : Nat) (v : Word) : Output :=
  match w with
  | .fn _ => .readData off v
  | .me e => .ioData e (off % 0x8000) v

/-- The parts that an edge latch of an axis reaches (R70): the axis, its records and events, what the slices, the emulators, the channels and the
carriages learn of it. -/
def latchParts : List Part := [.axes, .quads, .xev, .msgs, .emus, .tcs, .slices, .cars, .free]

/-- The registers that an edge latch of axis `a` writes beside the latch set (R72, R80, R81, R92, R97, R104, R113, R114). -/
def latchFields (a : Nat) : List Fld :=
  [whole (AXIS_POS_LO a), whole (AXIS_POS_HI a), whole (AXIS_EXCESS a), AXIS_STATUS_DIR a, AXIS_STATUS_SAT_HI a, AXIS_STATUS_SAT_LO a,
   AXIS_STATUS_FAULT a, AXIS_STATUS_FAULT_CAUSE a, AXIS_ESTSTAT_REBUILD a, AXIS_ESTSTAT_HOLD_ISSUED a, AXIS_HOLDCNT_CNT a] ++
  (List.range 8).flatMap (fun b =>
    [AXIS_EMU_STATUS_OVERSPEED b, AXIS_EMU_STATUS_FAULT b, AXIS_EMU_STATUS_LATE b, AXIS_EMU_LOSTCNT_CNT b])

/-- The registers of the 32 commit groups that show their state and their key (R414). -/
def groupFields : List Fld := (List.range 32).flatMap (fun g => [whole (CMTG_STATE g), whole (CMTG_KEY_LO g), whole (CMTG_KEY_HI g)])

/-- The rows that serve descriptors, each with the descriptor that it finds now (R346, R350): `i` counts the descriptors for the DMA channels, `h` is
what the host brings, `e` where the host fails, `v` whether VFUSE is in its range. -/
def Dev.descRows (d : Dev) (q : Fin 4) (i : Nat) (h : HostData) (e : Option Nat) (v : Bool) : List (Instr × Option Flight) :=
  [(.nop, (d.descNext 4).filter (fun x => x.desc.op == 0 || (paramMask x.desc.op).isNone)),
   (.qregWrite q, d.descOf q 0x01), (.sregWrite, d.descOf 4 0x02), (.regRead, d.descOf 4 0x03), (.stageWrite, d.descOf 4 0x04),
   (.commitArm, d.descOf 4 0x05), (.commitAbort, d.descOf 4 0x06), (.snapshot, d.descOf 4 0x07), (.coachInsert q, d.descOf q 0x10),
   (.coachCancel q, d.descOf q 0x11), (.coachLoad q, d.descOf q 0x12), (.routeSet, d.descOf 4 0x20), (.routeClear, d.descOf 4 0x21),
   (.ibexLoad q h, d.descOf q 0x30), (.meImage q h, d.descOf q 0x31), (.meSwap q, d.descOf q 0x32), (.memWrite i h, d.dmaOf i 0x40),
   (.memRead i e, d.dmaOf i 0x41), (.memFill i, d.dmaOf i 0x42), (.quadReset, d.descOf 4 0x48), (.nvsRead e, d.descOf 4 0x50),
   (.nvsWrite h, d.descOf 4 0x51), (.faultlogRead e, d.descOf 4 0x52), (.faultlogClear, d.descOf 4 0x53), (.fuseProg h v, d.descOf 4 0x54),
   (.debugUnlock, d.descOf 4 0x55), (.calWrite h, d.descOf 4 0x56), (.selftest, d.descOf 4 0x57)]

/-- Descriptor `x` is served now and passes the checks that hold for every opcode (R349): its target runs, no block has to leave IDLE for it, no
check fails, and what it needs is there. -/
def Dev.passes (d : Dev) (x : Flight) : Bool :=
  !d.descStopped x && !(d.get PWR_STATUS_STATE == 1 && x.touches) && (d.descRefuse x).isNone && !d.descHolds x.desc

/-- The credit of the queue that descriptor `x` leaves (R12). -/
def Dev.queueCredit (d : Dev) (x : Flight) : CreditBack :=
  { x := if x.target < 4 then .descriptor (Fin.ofNat 4 x.target) else .spine, due := d.tick + 4 }

/-- The host interface after descriptor `x` has left its queue and is in progress (R12, R345). -/
def Dev.begun (d : Dev) (x : Flight) : HostIf :=
  { d.host with
    flights := d.host.flights.map (fun y => if y.id = x.id then { y with stage := 1 } else y)
    credits := d.host.credits ++ [d.queueCredit x] }

/-- The host interface after descriptor `x` has left its queue and has had its last effect on this tick (R12, R359). -/
def Dev.done (d : Dev) (x : Flight) (status value : Nat) : HostIf :=
  { d.host with
    flights := d.host.flights.map (fun y => if y.id = x.id then { y with stage := 2, status, value, stime := d.now } else y)
    credits := d.host.credits ++ [d.queueCredit x] }

/-- The outcome of the commands one after another, each on what the one before it left. -/
def execAll : List Instr → State → Host.Outcome State Fault Refusal
  | [], s => .next s
  | c :: r, s => match exec c s with
    | .next t => execAll r t
    | o => o

/-- R397: the writes of a group after `new` has been staged: each takes the place of an earlier one of its place, or comes last. -/
def stagedAfter (old new : List Staged) : List Staged :=
  new.foldl (fun l w => if l.any (fun y => y.place == w.place) then l.map (fun y => if y.place = w.place then w else y) else l ++ [w]) old

/-- The registers of the fault log that an event writes (R434, R435, R437). -/
def flogFields : List Fld := [SVC_FLOG_SEQ_SEQ, SVC_FLOG_LOST_CNT]

/-- R434, R435: from `d` to `e` an event has entered the fault log's buffer, where it is not merged (R437) and the buffer has room. -/
def Dev.logged (d e : Dev) (code src d0 d1 : Nat) : Prop :=
  d.flogMerge code src = none → d.svc.flBuf.length < 32 →
    ∃ x ∈ e.svc.flBuf, x.code = code ∧ x.src = src ∧ x.d0 = d0 ∧ x.d1 = d1 ∧ x.time = d.now

/-- R440, R457: from `d` to `e` a SERVICE record has been raised. -/
def Dev.serviced (d e : Dev) (sub src p0 p1 : Nat) : Prop :=
  ∃ l r m, e.ru.raised = d.ru.raised ++ l ++ r :: m ∧ r.typ = 0x14 ∧ r.sub = sub ∧ r.src = src ∧ r.orig = 4 ∧ r.p0 = p0 ∧ r.p1 = p1

/-- The parts that a reset of a quadrant reaches (R478): its units, its records and events, its descriptors and its staged writes. -/
def quadParts : List Part :=
  [.heldHi, .latched, .quads, .convs, .xev, .ru, .host, .axes, .msgs, .emus, .slices, .cars, .tpls, .tcs, .fes, .ibxs, .mc, .cmt, .mes]

/-- The registers that a reset of quadrant `q` reaches: its block, its move units, CAL_DONE, the counters of dropped records, the commit groups. -/
def quadFields (q : Nat) : List Fld :=
  (List.range 0x8000).map (fun i => whole (0x10000 + q * 0x8000 + i)) ++ (List.range 0x200).map (fun i => whole (0x30400 + 0x200 * q + i)) ++
  TB_STATUS_CAL_DONE :: RECQ_DROP_CNT q :: MEDROP_MEDROP_CNT (2 * q) :: MEDROP_MEDROP_CNT (2 * q + 1) :: groupFields

/-- R46, R90, R199, R220, R358, R407, R478: from `d` to `e` quadrant `q` has been reset. Its registers and units are as after a cold reset but for the
images and the scratch of its engines (log 38), its records are gone and counted, its descriptors ABORTED, its landed writes discarded, and it
is down; the units of the other quadrants are as they were. -/
structure Dev.wiped (d e : Dev) (q : Nat) : Prop where
  regs : ∀ off, (0x10000 + q * 0x8000 ≤ off ∧ off < 0x18000 + q * 0x8000) ∨ (0x30400 + 0x200 * q ≤ off ∧ off < 0x30600 + 0x200 * q) →
    e.word off = resetWord off
  units : ∀ n, (n / 2 = q → e.axis n = (d.axis n).levels ∧ e.emu n = {}) ∧ (n / 256 = q → e.tc n = {}) ∧ (n / 64 = q → e.fe n = {} ∧ e.tpl n = {}) ∧
    (n / 16 = q → e.ibx n = {} ∧ e.move n = {}) ∧ (n / 512 = q → e.car n = {}) ∧ (n / 4 = q → Tab.get {} e.convs n = {}) ∧
    (n / 2 = q → e.me n = { img := (d.me n).img, scratch := (d.me n).scratch })
  others : ∀ n, (n / 2 ≠ q → e.axis n = d.axis n ∧ e.emu n = d.emu n ∧ e.me n = d.me n) ∧ (n / 256 ≠ q → e.tc n = d.tc n) ∧
    (n / 64 ≠ q → e.fe n = d.fe n) ∧ (n / 16 ≠ q → e.ibx n = d.ibx n ∧ e.move n = d.move n) ∧ (n / 512 ≠ q → e.car n = d.car n) ∧
    (n / 4 ≠ q → Tab.get {} e.convs n = Tab.get {} d.convs n) ∧ (n ≠ q → e.quad n = d.quad n ∧ e.slice n = d.slice n)
  slice : (e.slice q).insq = [] ∧ (e.slice q).cal = [] ∧ (e.slice q).hor = [] ∧ (e.slice q).slots = []
  down : (e.quad q).inReset = true ∧ e.quadDown q = true
  ends : (e.quad q).resetEnd = d.tick + 800 ∧ (e.quad q).calStart = none
  cal : ∀ i, (e.get TB_STATUS_CAL_DONE).testBit i = ((d.get TB_STATUS_CAL_DONE).testBit i && i != q)
  records : (e.quad q).pend = [] ∧ (e.quad q).recq = [] ∧
    e.get (RECQ_DROP_CNT q) = min (d.get (RECQ_DROP_CNT q) + ((d.quad q).pend.length + (d.quad q).recq.length)) (2 ^ 32 - 1)
  engines : ∀ k, k / 2 = q → e.get (MEDROP_MEDROP_CNT k) = min (d.get (MEDROP_MEDROP_CNT k) + (d.me k).recs.length) (2 ^ 32 - 1)
  events : e.xev = d.xev.filter (fun x => x.q != q)
  flights : ∀ x ∈ d.host.flights, x.stage < 2 → x.target = q → (∀ y ∈ d.host.flights, y.id = x.id → y = x) →
    ({ x with stage := 2, status := 9, value := 0, stime := d.now } : Flight) ∈ e.host.flights
  writes : ∀ g, g < 32 → ∀ w ∈ (e.grp g).writes, ¬ (w.q = q ∧ (w.landed = true ∨ w.flight = none))

/-- R103, R429: from `d` to `e` a HOLD for the axes of quadrant `q` has been sent to every slice. -/
def Dev.heldAll (d e : Dev) (q : Nat) : Prop :=
  ∀ a r, a / 2 = q → r < 4 → ∃ m ∈ e.msgs, m.a = a ∧ m.q = r ∧ m.hold = true ∧ m.due = d.tick + (if r = q then 2 else 6)

/-- R458, R462, R477: from `s` to `t` the device has gone to its state after a cold reset. Every register but those of `keep` and of the seal loop has
its Reset value, every part is as at reset but for the always-on domain, and the seal loop's registers and the memories outside the device's
core keep what they hold; the start-up scrub clears stacked memory later (R329). -/
structure State.coldStart (keep : List Nat) (s t : State) : Prop where
  regs : ∀ off, off ∉ keep → off ≠ SVCPRES_PRES → off ≠ SVCPRES_SEAL → off ≠ SVCPRES_SEALCNT → t.dev.word off = resetWord off
  cleared : t.dev.get SVCPRES_SEAL_CLRREF = 0 ∧ t.dev.get SVCPRES_PRES_OPEN = 0 ∧ t.dev.get SVCPRES_PRES_STUCK = 0
  parts : ∀ p : Part, p ∉ [.out, .free, .pw, .pending, .mem, .nvs, .fuse] → p.same State.reset t
  stores : ∀ p : Part, p ∈ [.out, .pending, .mem, .nvs, .fuse] → p.same s t

/-- R454, R458: from `d` to `e` the always-on domain has kept what it holds of the seal loop and of SERVICE_N. -/
def Dev.sealKept (d e : Dev) : Prop :=
  e.free = d.free ∧ e.get SVCPRES_SEAL_OPEN = d.get SVCPRES_SEAL_OPEN ∧ e.get SVCPRES_SEAL_LOOP = d.get SVCPRES_SEAL_LOOP ∧
  e.get SVCPRES_SEALCNT_CNT = d.get SVCPRES_SEALCNT_CNT ∧ e.get SVCPRES_PRES_ASSERTED = b2n d.pw.serviceLow

/-- R510, R511: from `d` to `e` a reserved write by `w` at `off` has set the flag and been counted; the first one is recorded. -/
def Dev.flagged (d e : Dev) (w : Writer) (off : Nat) : Prop :=
  e.get GLB_RSVW_FLAG = 1 ∧ e.get GLB_RSVWCNT_CNT = min (d.get GLB_RSVWCNT_CNT + 1) (2 ^ 32 - 1) ∧
  (d.get GLB_RSVW_FLAG = 0 → e.get GLB_RSVW_ORIGIN = w.code ∧ e.get GLB_RSVW_OFFSET = off) ∧
  (d.get GLB_RSVW_FLAG = 1 → e.get GLB_RSVW_ORIGIN = d.get GLB_RSVW_ORIGIN ∧ e.get GLB_RSVW_OFFSET = d.get GLB_RSVW_OFFSET)

/-- The registers that a reserved write changes (R511). -/
def flagFields : List Fld := [GLB_RSVW_FLAG, GLB_RSVW_ORIGIN, GLB_RSVW_OFFSET, GLB_RSVWCNT_CNT]

/-- The registers in which stacked memory reports errors (R314, R323). -/
def memErrFields : List Fld :=
  [whole MEM_STATUS, whole MEM_SPAREPTR, whole MEM_ERRADDR, whole MEM_ERRINFO, whole MEM_ERRSYN, whole MEM_ERRTIME_LO, whole MEM_ERRTIME_HI,
   MEM_UECNT_CNT] ++ (List.range 17).map (fun p => CECNT_CECNT_CNT p) ++ flogFields

/-- The registers in which a write of stacked memory is refused or counted (R133, R155, R318). -/
def memDropFields : List Fld :=
  MEM_COLLCNT_CNT :: (List.range 4).map (fun q => COACH_REGION_WR_CNT q) ++ (List.range 256).map (fun n => TPL_STATUS_WR_DROP n)

/-- The registers of the host interface (R368). -/
def hostFields : List Fld := (List.range 0x900).map (fun i => whole (0x4000 + i))

/-- The registers of the return rings (R368, R391). -/
def ringFields : List Fld := (List.range 0x400).map (fun i => whole (0x4500 + i))

/-- The registers of the rings and the bulk port of function `f` (R366, R368). -/
def Dev.fnFields (d : Dev) (f : Nat) : List Fld :=
  ((List.range 0x900).filter (fun i => let o := 0x4000 + i
    (decide (0x4040 + 0x10 * f ≤ o) && decide (o < 0x4050 + 0x10 * f)) ||
    (decide (0x4100 ≤ o) && decide (o < 0x4500) && d.srOwner ((o - 0x4100) / 0x20) == f) ||
    (decide (0x4500 ≤ o) && d.rrOwner ((o - 0x4500) / 0x20) == f))).map (fun i => whole (0x4000 + i))

/-- The canonical form of stacked memory (10 R309): rising addresses, nothing listed that equals what an unlisted cell holds. -/
def MemArr.wf (m : MemArr) : Bool := Tab.wf 0 m.data && Tab.wf 0 m.chk && Tab.wf false m.poison

/-- The canonical form of the memories: stacked memory, the regions of the non-volatile store, the fuse array. -/
def State.memWf (s : State) : Bool := s.mem.wf && Tab.wf 0 s.nvs.data && Tab.wf 0 s.fuse.data

/-- The canonical form of stacked memory by the name the guide gives it. -/
def Memory.wf (m : MemArr) : Bool := m.wf

end Sys2Proof.Machine
end

