-- ==== Sys2Proof/Certificates/Slice0/Obligations.lean ====
section
/-! DEFINITION. The statements for the provers. -/

open Sys2Proof Sys2Proof.Machine

/-- R181, R184, R185, R187, R203: what the five bits of TC[n].CMD do, from the tick after the write, to every member of the chain that channel
`n` heads; with EN at 0 or on an upper member they do nothing (QCLR needs no EN); a STOP of the same tick wins over START and RESTART. CAPT makes
the next tick a capture tick, and the count that stands at its end is captured with cause 4. -/
def Obligations.TimerCommandsActOnTheChain : Prop :=
  (∀ (s : State) (w : Sender) (n : Fin 1024), s.dev.takesLate (writerOf w) (TC_CMD n) = true →
    ((s.dev.tcUpper n = true ∨ s.dev.flag (TC_CTL_EN n) = false) →
      (∃ u, exec (.tcCmdStart w n) s = .next u ∧ lands s u s) ∧ (∃ u, exec (.tcCmdStop w n) s = .next u ∧ lands s u s) ∧
      (∃ u, exec (.tcCmdRestart w n) s = .next u ∧ lands s u s) ∧ (∃ u, exec (.tcCmdCapt w n) s = .next u ∧ lands s u s)) ∧
    (s.dev.tcUpper n = true → ∃ u, exec (.tcCmdQclr w n) s = .next u ∧ lands s u s) ∧
    ((s.dev.flag (TC_STATUS_RUN n) = true ∨ s.dev.tcStoppedAt n (s.dev.tick + 1) = true) →
      ∃ u, exec (.tcCmdStart w n) s = .next u ∧ lands s u s) ∧
    (s.dev.tcUpper n = false → s.dev.flag (TC_CTL_EN n) = true →
      (s.dev.flag (TC_STATUS_RUN n) = false → s.dev.tcStoppedAt n (s.dev.tick + 1) = false →
        ∃ u t, exec (.tcCmdStart w n) s = .next u ∧ lands s u t ∧
          (∀ m ∈ s.dev.tcMembers n, t.dev.get (TC_STATUS_RUN m) = 1 ∧
            t.dev.get (TC_CNT_CNT m) = if s.dev.tcMode n = 2 then 0 else s.dev.get (TC_CNT_CNT m)) ∧
          (∀ m, m ∉ s.dev.tcMembers n → t.dev.tc m = s.dev.tc m) ∧
          Frame [.tcs] ((s.dev.tcMembers n).flatMap (fun m => [TC_STATUS_RUN m, TC_CNT_CNT m])) s t) ∧
      (∃ u t, exec (.tcCmdStop w n) s = .next u ∧ lands s u t ∧ (∀ m ∈ s.dev.tcMembers n, t.dev.get (TC_STATUS_RUN m) = 0) ∧
        t.dev.tcStoppedAt n (s.dev.tick + 1) = true ∧
        (∀ m, m ≠ n.val → t.dev.tc m = s.dev.tc m) ∧ Frame [.tcs] ((s.dev.tcMembers n).map TC_STATUS_RUN) s t) ∧
      (∃ u t, exec (.tcCmdRestart w n) s = .next u ∧ lands s u t ∧
        (∀ m ∈ s.dev.tcMembers n, t.dev.get (TC_CNT_CNT m) = 0 ∧ (t.dev.tc m).carries = [] ∧
          t.dev.get (TC_STATUS_RUN m) = if s.dev.tcStoppedAt n (s.dev.tick + 1) then s.dev.get (TC_STATUS_RUN m) else 1) ∧
        (∀ m, m ∉ s.dev.tcMembers n → t.dev.tc m = s.dev.tc m) ∧
        Frame [.tcs] ((s.dev.tcMembers n).flatMap (fun m => [TC_STATUS_RUN m, TC_CNT_CNT m])) s t) ∧
      (∃ u t, exec (.tcCmdCapt w n) s = .next u ∧ lands s u t ∧
        t.dev.late = [{ due := s.dev.tick + 1, rank := 11, code := 0, off := TC_CMD n, v := 8 }] ∧ Frame [.late] [] s t)) ∧
    (s.dev.tcUpper n = false →
      ∃ u t, exec (.tcCmdQclr w n) s = .next u ∧ lands s u t ∧
        (∀ m ∈ s.dev.tcMembers n, t.dev.get (TC_STATUS_CAPOVFCNT m) = 0 ∧ t.dev.tc m = { s.dev.tc m with queue := [] }) ∧
        (∀ m, m ∉ s.dev.tcMembers n → t.dev.tc m = s.dev.tc m) ∧ Frame [.tcs] ((s.dev.tcMembers n).map TC_STATUS_CAPOVFCNT) s t)) ∧
  (∀ (s : State) (n : Fin 1024), s.dev.late = [{ due := s.dev.tick, rank := 11, code := 0, off := TC_CMD n, v := 8 }] →
    s.dev.tb.running = true → s.dev.quadDown (n / 256) = false → s.dev.tcUpper n = false → s.dev.flag (TC_CTL_EN n) = true →
    s.dev.tcMembers n = [n.val] → (s.dev.tc n).queue.all (fun e => e.tick < s.dev.tick) = true → (s.dev.tc n).queue.length < 4 →
      (let e : CapEntry := { cnt := s.dev.tcAt true n s.dev.tick, at_ := s.dev.tickStamp (n / 256) s.dev.tick, cause := 4,
                             frozen := s.dev.tcFrozen n, tick := s.dev.tick }
      (s.landed.dev.tc n).queue = (s.dev.tc n).queue ++ [e]) ∧
      (∀ m, m ≠ n.val → s.landed.dev.tc m = s.dev.tc m) ∧ Frame [.late, .tcs, .quads, .xev] [] s s.landed)

/-- R169 to R178, R186: a count or a carry changes CNT by its increment, modulo CMP1 + 1 in MODULO and COMPAT and modulo 2^32 else; a wrap of
a member below an upper member sends its carry one tick later; a count above the top returns to 0 and sets SHORTCYC; a count that a load
displaces is lost and sets LOADHIT; a channel that does not count loses it. A write of CNT loads it for the next tick. -/
def Obligations.TimerCountsAndCarries : Prop :=
  ∀ (s : State) (n : Fin 1024),
    (s.dev.get (TC_CLK_SRC n) ≤ 1 → s.dev.tb.running = true → (s.dev.tc n).next ≤ s.dev.tick → s.dev.flag (TC_CTL_EN n) = true →
      (s.dev.tcCounting n (s.dev.tc n).next = true → (s.dev.tc n).loadTick ≠ some (s.dev.tc n).next →
        ∃ t, exec (.tcCount n) s = .next t ∧
          t.dev.get (TC_CNT_CNT n) = (min (s.dev.get (TC_CNT_CNT n)) (s.dev.tcTop n) + 1) % (s.dev.tcTop n + 1) ∧
          (s.dev.tcTop n < s.dev.get (TC_CNT_CNT n) → t.dev.get (TC_STATUS_SHORTCYC n) = 1) ∧
          (t.dev.tc n).next = (s.dev.tc n).next + s.dev.tcPeriod n ∧
          (s.dev.tcTop n ≤ s.dev.get (TC_CNT_CNT n) → (n.val + 1) % 256 ≠ 0 → s.dev.tcUpper (n + 1) = true →
            (t.dev.tc (n + 1)).carries = (s.dev.tc (n + 1)).carries ++ [((s.dev.tc n).next + 1, 1)]) ∧
          (∀ m, m ≠ n.val → m ≠ n + 1 → t.dev.tc m = s.dev.tc m) ∧
          Frame [.tcs, .quads, .xev] [TC_CNT_CNT n, whole (TC_STATUS n)] s t) ∧
      (s.dev.tcCounting n (s.dev.tc n).next = true → (s.dev.tc n).loadTick = some (s.dev.tc n).next →
        ∃ t, exec (.tcCount n) s = .next t ∧ t.dev.get (TC_STATUS_LOADHIT n) = 1 ∧ Frame [.tcs] [TC_STATUS_LOADHIT n] s t) ∧
      (s.dev.tcCounting n (s.dev.tc n).next = false → ∃ t, exec (.tcCount n) s = .next t ∧ Frame [.tcs] [] s t)) ∧
    (s.dev.get (TC_CLK_SRC n) ≤ 1 → s.dev.tick < (s.dev.tc n).next → exec (.tcCount n) s = .next s) ∧
    (∀ tk inc r, s.dev.get (TC_CLK_SRC n) ≠ 4 → 1 < s.dev.get (TC_CLK_SRC n) → (s.dev.tc n).pend = (tk, inc) :: r → tk ≤ s.dev.tick →
      s.dev.tcCounting n tk = true → (s.dev.tc n).loadTick ≠ some tk → s.dev.get (TC_CNT_CNT n) ≤ s.dev.tcTop n →
      (s.dev.get (TC_CLK_SRC n) = 2 → inc.natAbs < 2 ^ 31) →
        ∃ t, exec (.tcCount n) s = .next t ∧ (t.dev.tc n).pend = r ∧
          (t.dev.get (TC_CNT_CNT n) : Int) = ((s.dev.get (TC_CNT_CNT n) : Int) +
            (if s.dev.get (TC_CLK_SRC n) = 2 ∧ s.dev.flag (TC_CLK_DIRCNT n) = false then (inc.natAbs : Int) else inc)) % (s.dev.tcTop n + 1 : Nat) ∧
          Frame [.tcs, .quads, .xev] [TC_CNT_CNT n, whole (TC_STATUS n)] s t) ∧
    (∀ tk c r, (s.dev.tc n).carries = (tk, c) :: r → tk ≤ s.dev.tick → s.dev.tcFrozen n = false → s.dev.quadDown (n / 256) = false →
      (s.dev.tc n).loadTick ≠ some tk → s.dev.get (TC_CNT_CNT n) ≤ s.dev.tcTop n →
        ∃ t, exec (.tcCarry n) s = .next t ∧ (t.dev.tc n).carries = r ∧
          (t.dev.get (TC_CNT_CNT n) : Int) = ((s.dev.get (TC_CNT_CNT n) : Int) + c) % (s.dev.tcTop n + 1 : Nat) ∧
          Frame [.tcs, .quads, .xev] [TC_CNT_CNT n, whole (TC_STATUS n)] s t) ∧
    ((s.dev.tc n).carries = [] → exec (.tcCarry n) s = .next s) ∧
    (∀ (w : Sender) (v : Word), s.dev.takesLate (writerOf w) (TC_CNT n) = true →
      ∃ u t, exec (.tcCntWrite w n v) s = .next u ∧ lands s u t ∧ t.dev.word (TC_CNT n) = v ∧ (t.dev.tc n).loadTick = some (s.dev.tick + 1) ∧
        (s.dev.get (TC_CLK_SRC n) ≤ 1 → (t.dev.tc n).next = s.dev.tick + 1 + s.dev.tcPeriod n) ∧
        (s.dev.get (TC_CLK_SRC n) ≤ 1 → (s.dev.tc n).next = s.dev.tick + 1 → s.dev.tcCounting n (s.dev.tick + 1) = true →
          t.dev.get (TC_STATUS_LOADHIT n) = 1) ∧
        (∀ m, m ≠ n.val → t.dev.tc m = s.dev.tc m) ∧ Frame [.tcs] [TC_CNT_CNT n, TC_STATUS_LOADHIT n] s t)

/-- R181 to R183, R187, R189 to R191: captures by a lane edge and by the end of a gate, and the reads of a channel.
An entry carries the count of the capture tick, three ticks before the recognised edge, and its stamp; a full queue keeps the oldest entries
or the newest ones as CQPOL says and counts the loss. The lane's level as recognised is kept for the gate (R180). A read of CAPCNT of the lowest member takes the oldest entry of every member, a read of
CNT latches the corrected values for its reader. -/
def Obligations.TimerCapturesAndReads : Prop :=
  ∀ (s : State) (n : Fin 1024),
    (∀ (rising : Bool) (fine : Fin 64), s.dev.tcUpper n = false → s.dev.flag (TC_CTL_EN n) = true → s.dev.quadDown (n / 256) = false →
      s.dev.flag (TC_CLK_CAPIN n) = true → (s.dev.get (TC_CLK_CEDGE n) = 2 ∨ s.dev.get (TC_CLK_CEDGE n) = b2n (!rising)) →
      (s.dev.tc n).queue.all (fun e => e.tick < s.dev.tick - 3) = true → s.dev.tcMembers n = [n.val] →
        ∃ t, exec (.tcLaneCapture n rising fine) s = .next t ∧
          (let e : CapEntry := { cnt := s.dev.tcAt true n (s.dev.tick - 3), at_ := s.dev.stamp (n / 256) (s.dev.tick - 3) fine,
                                 cause := b2n (!rising), frozen := s.dev.tcFrozen n, tick := s.dev.tick - 3 }
          ((s.dev.tc n).queue.length < 4 → (t.dev.tc n).queue = (s.dev.tc n).queue ++ [e]) ∧
          (4 ≤ (s.dev.tc n).queue.length → t.dev.get (TC_STATUS_CAPOVF n) = 1 ∧
            (t.dev.tc n).queue = if s.dev.flag (TC_CTL_CQPOL n) then (s.dev.tc n).queue.drop 1 ++ [e] else (s.dev.tc n).queue)) ∧
          (s.dev.tcMode n ≠ 3 → s.dev.get (TC_CLK_SRC n) = 3 → (t.dev.tc n).pend = (s.dev.tc n).pend ++ [(s.dev.tick, 1)]) ∧
          (s.dev.tcMode n = 3 → rising = (s.dev.get (TC_CLK_CEDGE n) != 1) → (t.dev.tc n).gate = true) ∧
          t.dev.tcLaneIn n = rising ∧
          Frame [.tcs, .quads, .xev] [TC_STATUS_CAPOVF n, TC_STATUS_CAPOVFCNT n] s t) ∧
    (∀ (rising : Bool) (fine : Fin 64), (s.dev.tcUpper n = true ∨ s.dev.flag (TC_CTL_EN (s.dev.tcLow n)) = false) →
      ∃ t, exec (.tcLaneCapture n rising fine) s = .next t ∧ t.dev.tcLaneIn n = rising ∧ Frame [.quads] [] s t) ∧
    (∀ (fine : Fin 64), s.dev.tcMode n = 3 → (s.dev.tc n).gate = true →
      ∃ t, exec (.tcGateEnd n fine) s = .next t ∧ (t.dev.tc n).gate = false ∧ t.dev.get (TC_CNT_CNT n) = 0 ∧
        (s.dev.tcUpper n = false → s.dev.flag (TC_CTL_EN n) = true → s.dev.quadDown (n / 256) = false →
          (s.dev.tc n).queue.length < 4 → (s.dev.tc n).queue.all (fun e => e.tick != s.dev.tick) = true →
          ∃ e ∈ (t.dev.tc n).queue, e.tick = s.dev.tick ∧ e.cause = 2 ∧ e.cnt = s.dev.tcAt true n s.dev.tick ∧
            e.at_ = s.dev.stamp (n / 256) (s.dev.tick - 3) fine) ∧
        Frame [.tcs, .quads, .xev] (TC_CNT_CNT n :: (s.dev.tcMembers n).flatMap (fun m => [TC_STATUS_CAPOVF m, TC_STATUS_CAPOVFCNT m])) s t) ∧
    (∀ (fine : Fin 64), (s.dev.tc n).gate = false →
      ∃ t, exec (.tcGateEnd n fine) s = .next t ∧ t.dev.tcLaneIn n = !s.dev.tcGateHigh n ∧ Frame [.quads] [] s t) ∧
    (∀ (w : Sender), s.dev.reads w (n / 256) = true → s.dev.tcUpper n = false →
      (∃ t, exec (.tcCapcntRead w n) s = .next t ∧
        (∀ m ∈ s.dev.tcMembers n, (t.dev.tc m).queue = (s.dev.tc m).queue.drop 1 ∧ (t.dev.tc m).view = (s.dev.tc m).queue.head? ∧
          (∀ e, (s.dev.tc m).queue.head? = some e → t.dev.get (TCV_CAPCNT_CNT m) = e.cnt % 2 ^ 32) ∧
          ((s.dev.tc m).queue = [] → t.dev.get (TCV_CAPCNT_CNT m) = 0 ∧ t.dev.get (TCV_CAPINFO_VALID m) = 0)) ∧
        t.dev.out = s.dev.out ++ [answer w (TCV_CAPCNT n) (t.dev.word (TCV_CAPCNT n))] ∧
        Frame [.tcs, .out] ((s.dev.tcMembers n).flatMap
          (fun m => [whole (TCV_CAPCNT m), whole (TCV_CAPINFO m), whole (TCV_CAPTIME_LO m), whole (TCV_CAPTIME_HI m)])) s t) ∧
      (∃ t, exec (.tcCntRead w n) s = .next t ∧
        t.dev.out = s.dev.out ++ [answer w (TC_CNT n) (BitVec.ofNat 32 (s.dev.tcAt false n s.dev.tick))] ∧
        (∀ f, w = .fn f → t.dev.tcs = s.dev.tcs ∧ ∀ p ∈ s.dev.tcChainAt false n s.dev.tick, t.dev.get (TC_CNTLAT_CNT p.1) = p.2 % 2 ^ 32) ∧
        (∀ e, w = .me e → ∀ p ∈ s.dev.tcChainAt false n s.dev.tick,
          (if e.val % 2 = 0 then (t.dev.tc p.1).lat0 else (t.dev.tc p.1).lat1) = p.2) ∧
        Frame [.tcs, .out] ((s.dev.tcMembers n).map TC_CNTLAT_CNT) s t)) ∧
    (∀ (w : Sender), s.dev.reads w (n / 256) = true → s.dev.tcUpper n = true →
      exec (.tcCntRead w n) s = .next { s with dev := s.dev.emit (answer w (TC_CNT n) (BitVec.ofNat 32 (s.dev.tcAt false n s.dev.tick))) } ∧
      exec (.tcCapcntRead w n) s = .next { s with dev := s.dev.emit (answer w (TCV_CAPCNT n) (s.dev.word (TCV_CAPCNT n))) })

/-- R388, with R387 for two acknowledges on one tick: an acknowledge of a flag at 0 of a channel in COMPAT mode changes nothing but ACK_STRAY of the
channel's quadrant; one of a flag that is set clears it. A write of 1 to the flag of a channel in another mode clears it, or does nothing if it
is 0, and is not counted. -/
def Obligations.StrayAcknowledgesAreCounted : Prop :=
  ∀ (s : State) (n : Fin 1024) (w : Sender) (k : CompatFlag), s.dev.takes (writerOf w) (TC_STATUS n) = true →
    let flag := tcFlag n (flagNo k)
    let stray := ACKSTRAY_ACK_STRAY_CNT (n / 256)
    (s.dev.tcMode n ≠ 4 → ∃ t, exec (.tcFlagAck w n k) s = .next t ∧ t.dev.get flag = 0 ∧ t.dev.get stray = s.dev.get stray ∧
      (s.dev.get flag = 0 → Frame [] [] s t) ∧ Frame [] [flag] s t) ∧
    (s.dev.tcMode n = 4 → s.dev.flag flag = true → (Tab.get (0, false, false) (s.dev.tc n).evTick (flagNo k)).1 ≠ s.dev.tick + 1 →
      ∃ t, exec (.tcFlagAck w n k) s = .next t ∧ t.dev.get flag = 0 ∧ t.dev.get stray = s.dev.get stray ∧ Frame [.tcs] [flag] s t) ∧
    (s.dev.tcMode n = 4 → s.dev.flag flag = false → Tab.get 0 (s.dev.tc n).ackTick (flagNo k) ≠ s.dev.tick + 1 →
      ∃ t, exec (.tcFlagAck w n k) s = .next t ∧ t.dev.get stray = min (s.dev.get stray + 1) (2 ^ 32 - 1) ∧ Frame [] [stray] s t)

/-- R212, R219, R220, R222, R223, R227: what enables, disables, FINE writes and two bits of FE[n].CMD do. An enabled generator drives its
inactive level from the second tick after the write (log 134); a disable acts on the next tick, clears EN and RUN and takes the pin to its fused idle level two ticks
later, and does not act while TCLK is stopped; a FINE write moves the staged set into the shadow set; CLRCNT clears the three counters;
RECAL asks for a calibration of the standby line. -/
def Obligations.GeneratorEnableDisableAndShadow : Prop :=
  ∀ (s : State) (w : Sender),
    (∀ (g : Fin 256) (v : Word), s.dev.takesLate (writerOf w) (FE_CTL g) = true → v &&& 0xFEFC0000 = v → bits v.toNat 29 2 < 3 →
      (s.dev.flag (FE_CTL_EN g) = false →
        ∃ u t, exec (.feEnable w g v) s = .next u ∧ lands s u t ∧ t.dev.get (FE_CTL_EN g) = 1 ∧ t.dev.get (FE_STATUS_OUT g) = 0 ∧
          (t.dev.fe g).onFrom = s.dev.tick + 2 ∧ (t.dev.fe g).pin.pulses = [] ∧ t.dev.get (FE_STATUS_RUN g) = s.dev.get (FE_STATUS_RUN g) ∧
          (∀ m, m ≠ g.val → t.dev.fe m = s.dev.fe m) ∧
          Frame [.fes] [whole (FE_CTL g), whole (FE_STATUS g), FE_STATUS_PAIRED (g + 1)] s t) ∧
      (s.dev.flag (FE_CTL_EN g) = true →
        ∃ u t, exec (.feDisable w g v) s = .next u ∧ lands s u t ∧ t.dev.get (FE_CTL_EN g) = 0 ∧ t.dev.get (FE_STATUS_RUN g) = 0 ∧
          (t.dev.fe g).idleFrom = s.dev.tick + 3 ∧ (t.dev.fe g).again = [] ∧
          (∀ m, m ≠ g.val → m ≠ g + 1 → m + 1 ≠ g.val → t.dev.fe m = s.dev.fe m) ∧
          Frame [.fes] [whole (FE_CTL g), whole (FE_STATUS g), FE_CTL_EN (g + 1), whole (FE_STATUS (g + 1)), FE_CTL_EN (g - 1),
            whole (FE_STATUS (g - 1))] s t)) ∧
    (∀ (g : Fin 256) (v : Word), s.dev.takes (writerOf w) (FE_CTL g) = true → v &&& 0xFEFC0000 = v → bits v.toNat 29 2 < 3 →
      s.dev.tb.running = false →
        ∃ t, exec (.feDisable w g v) s = .next t ∧ t.dev = s.dev.awaiting (writerOf w) (FE_CTL g) (v &&& 0x7FFFFFFF) ∧ t.landed = t ∧
          Frame [.late] [] s t) ∧
    (∀ (q : Fin 4), s.dev.takesLate (writerOf w) (FEQ_CTL q) = true →
      ∃ u t, exec (.feqDisableAll w q) s = .next u ∧ lands s u t ∧
        (∀ i < 64, t.dev.get (FE_CTL_EN (64 * q + i)) = 0 ∧ (s.dev.flag (FE_CTL_EN (64 * q + i)) = true →
          t.dev.get (FE_STATUS_RUN (64 * q + i)) = 0 ∧ (t.dev.fe (64 * q + i)).idleFrom = s.dev.tick + 3)) ∧
        (∀ m, m / 64 ≠ q.val → t.dev.fe m = s.dev.fe m) ∧
        Frame [.fes] ((List.range 64).flatMap (fun i => [FE_CTL_EN (64 * q + i), FE_STATUS_RUN (64 * q + i)])) s t) ∧
    (∀ (g : Fin 256) (v : Word), s.dev.takes (writerOf w) (FE_FINE g) = true → v &&& 0x3F3F = v →
      ∃ t, exec (.feFineWrite w g v) s = .next t ∧
        (t.dev.fe g).shP = s.dev.get (FE_PER_PER g) * 64 + bits v.toNat 8 6 ∧
        (t.dev.fe g).shW = s.dev.get (FE_WID_WID g) * 64 + bits v.toNat 0 6 ∧
        (t.dev.fe g).p = (s.dev.fe g).p ∧ (t.dev.fe g).w = (s.dev.fe g).w ∧ (t.dev.fe g).pin = (s.dev.fe g).pin ∧
        t.dev.get (FE_FINE_PERF g) = bits v.toNat 8 6 ∧ t.dev.get (FE_FINE_WIDF g) = bits v.toNat 0 6 ∧
        t.dev.get (FE_STATUS_SHPEND g) = 1 ∧ (∀ m, m ≠ g.val → t.dev.fe m = s.dev.fe m) ∧
        Frame [.fes] [FE_FINE_PERF g, FE_FINE_WIDF g, FE_STATUS_SHPEND g] s t) ∧
    (∀ (g : Fin 256), s.dev.takesLate (writerOf w) (FE_CMD g) = true →
      (∃ u t, exec (.feCmdClrcnt w g) s = .next u ∧ lands s u t ∧ t.dev.get (FE_SUPCNT_CNT g) = 0 ∧ t.dev.get (FE_STRCNT_CNT g) = 0 ∧
        t.dev.get (FE_IGNCNT_CNT g) = 0 ∧ Frame [] [FE_SUPCNT_CNT g, FE_STRCNT_CNT g, FE_IGNCNT_CNT g] s t) ∧
      (∃ u t, exec (.feCmdRecal w g) s = .next u ∧ lands s u t ∧ t.dev.line g = { s.dev.line g with own := true } ∧
        (∀ x, x ≠ g.val → t.dev.line x = s.dev.line x) ∧ Frame [.lines] [] s t))

/-- R205, R208 to R214: starts, stops, immediate FINE writes, reloads and edges. A start by CMD on the next tick puts s_0 TDLY (at least four
ticks) later, copies the shadow set (the period at least eight ticks) and plans the first pulse; while the waveform runs and RETRIG is 0 it
is ignored and counted, and with RETRIG it waits with its own set until its s_0; in a switchover window it is deferred (R38); a stop lets no
rise out from the fourth tick on and clears RUN once nothing is left; a reload copies the shadow set for the next period four ticks before it
starts; a due edge goes out, through the tap that the line in use has for it. Each member of a pair counts its own suppressions and stretches
(log 135). -/
def Obligations.GeneratorStartStopReloadAndEdge : Prop :=
  ∀ (s : State) (g : Fin 256),
    (∀ (w : Sender), s.dev.takesLate (writerOf w) (FE_CMD g) = true → s.dev.fePaired g = false →
      (s.dev.flag (FE_CTL_EN g) = false → ∃ u, exec (.feCmdStart w g) s = .next u ∧ lands s u s) ∧
      (s.dev.flag (FE_CTL_EN g) = true → (s.dev.fe g).frozenAt = none → s.dev.inWindow = true →
        ∃ u t, exec (.feCmdStart w g) s = .next u ∧ lands s u t ∧
          (t.dev.fe g).lateStarts = (s.dev.fe g).lateStarts ++
            [((s.dev.tick + 1) * 64 + max 256 (s.dev.word (FE_TDLY g)).toNat, s.dev.tick + 1, 2)] ∧ Frame [.fes] [] s t) ∧
      (s.dev.flag (FE_CTL_EN g) = true → (s.dev.fe g).frozenAt = none → s.dev.inWindow = false → (s.dev.fe g).stopTick ≠ some (s.dev.tick + 1) →
        (s.dev.flag (FE_STATUS_RUN g) = false → (s.dev.fe g).startTick ≠ some (s.dev.tick + 1) → (s.dev.fe g).shTick.all (· ≤ s.dev.tick) = true →
          ∃ u t, exec (.feCmdStart w g) s = .next u ∧ lands s u t ∧ t.dev.get (FE_STATUS_RUN g) = 1 ∧
            (let s0 := (s.dev.tick + 1) * 64 + max 256 (s.dev.word (FE_TDLY g)).toNat
            (t.dev.fe g).s = s0 ∧ (t.dev.fe g).p = max (s.dev.fe g).shP 512 ∧ (t.dev.fe g).w = (s.dev.fe g).shW ∧
              (s.dev.fePair g = false → max 64 (s.dev.get (FE_PULSE_MINPW g)) ≤ (s.dev.fe g).shW →
                (s.dev.fe g).pin.lf.all (fun l => l + max 64 (s.dev.get (FE_PULSE_MINPW g)) ≤ s0) = true →
                (t.dev.fe g).pin.pulses = [(s0, s0 + (s.dev.fe g).shW)])) ∧
            t.dev.get (FE_STATUS_SHPEND g) = 0 ∧ (∀ m, m ≠ g.val → t.dev.fe m = s.dev.fe m) ∧
            Frame [.fes, .quads] [whole (FE_STATUS g), FE_SUPCNT_CNT g, FE_STRCNT_CNT g,
              whole (FE_STATUS (g + 1)), FE_SUPCNT_CNT (g + 1), FE_STRCNT_CNT (g + 1)] s t) ∧
        (s.dev.flag (FE_STATUS_RUN g) = true → s.dev.flag (FE_CTL_RETRIG g) = true → (s.dev.fe g).startTick ≠ some (s.dev.tick + 1) →
          (s.dev.fe g).shTick.all (· ≤ s.dev.tick) = true →
          ∃ u t, exec (.feCmdStart w g) s = .next u ∧ lands s u t ∧
            (∃ l x, (t.dev.fe g).again = l ++ [x] ∧ x.s0 = (s.dev.tick + 1) * 64 + max 256 (s.dev.word (FE_TDLY g)).toNat ∧
              x.p = max (s.dev.fe g).shP 512 ∧ x.w = (s.dev.fe g).shW ∧ ∀ y ∈ l, y ∈ (s.dev.fe g).again ∧ y.s0 < x.s0) ∧
            (t.dev.fe g).pin = (s.dev.fe g).pin ∧ (t.dev.fe g).odd = (s.dev.fe g).odd ∧ (t.dev.fe g).p = (s.dev.fe g).p ∧
            t.dev.get (FE_STATUS_SHPEND g) = 0 ∧ Frame [.fes] [whole (FE_STATUS g)] s t) ∧
        (s.dev.flag (FE_STATUS_RUN g) = true → s.dev.flag (FE_CTL_RETRIG g) = false → (s.dev.fe g).startBy ≤ 2 →
          ∃ u t, exec (.feCmdStart w g) s = .next u ∧ lands s u t ∧
            t.dev.get (FE_IGNCNT_CNT g) = min (s.dev.get (FE_IGNCNT_CNT g) + 1) (2 ^ 32 - 1) ∧ Frame [] [FE_IGNCNT_CNT g] s t)) ∧
      ((s.dev.fe g).frozenAt = none → s.dev.flag (FE_STATUS_RUN g) = false →
        ∃ u t, exec (.feCmdStop w g) s = .next u ∧ lands s u t ∧ (t.dev.fe g).stopTick = some (s.dev.tick + 1) ∧ Frame [.fes] [] s t) ∧
      ((s.dev.fe g).frozenAt = none → s.dev.flag (FE_STATUS_RUN g) = true →
        ∃ u t, exec (.feCmdStop w g) s = .next u ∧ lands s u t ∧ (t.dev.fe g).stopAt = some (s.dev.tick + 1) ∧ (t.dev.fe g).again = [] ∧
          (∀ p ∈ (t.dev.fe g).pin.pulses.drop (b2n (s.dev.fe g).pin.out), p.1 / 64 < s.dev.tick + 5) ∧
          ((t.dev.fe g).pin.pulses = [] → (t.dev.fe g).odd.pulses = [] → (t.dev.fe g).mergeLeft = false → t.dev.get (FE_STATUS_RUN g) = 0) ∧
          (∀ m, m ≠ g.val → t.dev.fe m = s.dev.fe m) ∧
          Frame [.fes, .quads] [whole (FE_STATUS g), FE_SUPCNT_CNT g, FE_STRCNT_CNT g,
              whole (FE_STATUS (g + 1)), FE_SUPCNT_CNT (g + 1), FE_STRCNT_CNT (g + 1)] s t) ∧
      ((s.dev.fe g).frozenAt.isSome = true → ∃ u t, exec (.feCmdStop w g) s = .next u ∧ lands s u t ∧
        t.dev.get (FE_IGNCNT_CNT g) = min (s.dev.get (FE_IGNCNT_CNT g) + 1) (2 ^ 32 - 1) ∧ Frame [] [FE_IGNCNT_CNT g] s t)) ∧
    (∀ (w : Sender) (v : Word), s.dev.takes (writerOf w) (FE_FINE g) = true → v &&& 0x3F3F = v →
      ∃ t, exec (.feFineImm w g v) s = .next t ∧
        (t.dev.fe g).shP = s.dev.get (FE_PER_PER g) * 64 + bits v.toNat 8 6 ∧
        (t.dev.fe g).shW = s.dev.get (FE_WID_WID g) * 64 + bits v.toNat 0 6 ∧ t.dev.get (FE_STATUS_SHPEND g) = 1 ∧
        (s.dev.flag (FE_STATUS_RUN g) = true → s.dev.fePaired g = false → (s.dev.fe g).frozenAt = none → s.dev.inWindow = false →
          (t.dev.fe g).p = max (s.dev.get (FE_PER_PER g) * 64 + bits v.toNat 8 6) 512 ∧
          (t.dev.fe g).w = s.dev.get (FE_WID_WID g) * 64 + bits v.toNat 0 6) ∧
        ((s.dev.flag (FE_STATUS_RUN g) = false ∨ (s.dev.fe g).frozenAt.isSome = true ∨ s.dev.inWindow = true) →
          (t.dev.fe g).p = (s.dev.fe g).p ∧ (t.dev.fe g).w = (s.dev.fe g).w ∧ (t.dev.fe g).pin = (s.dev.fe g).pin) ∧
        (∀ m, m ≠ g.val → t.dev.fe m = s.dev.fe m) ∧
        Frame [.fes, .quads] [FE_FINE_PERF g, FE_FINE_WIDF g, whole (FE_STATUS g), FE_SUPCNT_CNT g, FE_STRCNT_CNT g,
              whole (FE_STATUS (g + 1)), FE_SUPCNT_CNT (g + 1), FE_STRCNT_CNT (g + 1)] s t) ∧
    ((s.dev.flag (FE_STATUS_RUN g) = false ∨ s.dev.feMoves g = false) → exec (.feReload g) s = .next s) ∧
    (s.dev.flag (FE_STATUS_RUN g) = true → s.dev.feMoves g = true → s.dev.inWindow = false → (s.dev.fe g).again = [] →
      (s.dev.fe g).reloaded = false → (s.dev.fe g).left ≠ some 0 → (s.dev.fe g).stopAt = none →
      ((s.dev.fe g).s + (s.dev.fe g).pCur) / 64 ≤ s.dev.tick + 4 →
      (s.dev.fe g).shTick.all (· < ((s.dev.fe g).s + (s.dev.fe g).pCur) / 64 - 4) = true →
        ∃ t, exec (.feReload g) s = .next t ∧ (t.dev.fe g).reloaded = true ∧ (t.dev.fe g).p = max (s.dev.fe g).shP 512 ∧
          (t.dev.fe g).w = (s.dev.fe g).shW ∧ (t.dev.fe g).s = (s.dev.fe g).s ∧ (t.dev.fe g).pCur = (s.dev.fe g).pCur ∧
          (t.dev.fe g).left = (s.dev.fe g).left.map (· - 1) ∧ t.dev.get (FE_STATUS_SHPEND g) = 0 ∧
          Frame [.fes, .quads] [whole (FE_STATUS g), FE_SUPCNT_CNT g, FE_STRCNT_CNT g,
              whole (FE_STATUS (g + 1)), FE_SUPCNT_CNT (g + 1), FE_STRCNT_CNT (g + 1)] s t) ∧
    (s.dev.feMoves g = false → exec (.fePeriodEdge g) s = .next s) ∧
    (∀ r f rest, s.dev.feMoves g = true → (s.dev.fe g).odd.pulses = [] → (s.dev.fe g).pin.pulses = (r, f) :: rest →
      s.dev.flag (FE_STATUS_RUN g) = true → (s.dev.fe g).again = [] →
      ((s.dev.fe g).pin.out = false → s.dev.feEdgeTick g r ≤ s.dev.tick →
        ∃ t, exec (.fePeriodEdge g) s = .next t ∧ t.dev.get (FE_STATUS_OUT g) = 1 ∧ (t.dev.fe g).pin.out = true ∧
          (t.dev.fe g).pin.lr = some r ∧ (t.dev.fe g).pin.tap = s.dev.feTap g r ∧ (t.dev.fe g).pin.pulses = (r, f) :: rest ∧
          (∀ m, m ≠ g.val → t.dev.fe m = s.dev.fe m) ∧ Frame [.fes, .quads] [whole (FE_STATUS g)] s t) ∧
      ((s.dev.fe g).pin.out = true → s.dev.feEdgeTick g f ≤ s.dev.tick → ((s.dev.fe g).pin.lr.getD r) + (s.dev.fe g).minpw ≤ f →
        (s.dev.flag (FE_CTL_MPOL g) = true ∨ rest ≠ []) →
        ∃ t, exec (.fePeriodEdge g) s = .next t ∧ t.dev.get (FE_STATUS_OUT g) = 0 ∧ (t.dev.fe g).pin.out = false ∧
          (t.dev.fe g).pin.lf = some f ∧ (t.dev.fe g).pin.tap = s.dev.feTap g f ∧ (t.dev.fe g).pin.pulses = rest ∧
          (∀ m, m ≠ g.val → t.dev.fe m = s.dev.fe m) ∧ Frame [.fes, .quads] [whole (FE_STATUS g)] s t))

/-- R236 to R239, R242, R244, R256: GO, AWAIT, a waiting AWAIT, CLOCK, END and an undefined word, from the state `d` in which what was due
at the engine's boundary has happened. An instruction that issues on tick b has its boundary 2 × (1 + EXT) ticks later and leaves PC at its
successor or GO's target; an AWAIT whose condition does not hold waits; an END stops the engine at that boundary with its code, and an undefined
word at once, each with its cause; where
no such instruction issues, nothing further happens. -/
def Obligations.IbexBranchesWaitsAndEnds : Prop :=
  ∀ (s : State) (e : Fin 64) (lanes : Lanes),
    let d := s.dev.ibxSettle e
    let pc := (d.get (IBX_PC_PC e) + 1) % 64
    (∀ op : Nat, d.ibxTake e op = none →
      (op = 0 → exec (.ibexGo e lanes) s = .next { s with dev := d }) ∧ (op = 1 → exec (.ibexAwait e lanes) s = .next { s with dev := d }) ∧
      (op = 8 → exec (.ibexClock e) s = .next { s with dev := d }) ∧ (op = 9 → exec (.ibexEnd e) s = .next { s with dev := d })) ∧
    (∀ b ext x, d.ibxTake e 0 = some (b, ext, x) →
      (∃ t, exec (.ibexGo e lanes) s = .next t ∧
        t.dev.get (IBX_PC_PC e) = (if (d.ibxTest e (bits x 12 4) (bits x 6 5) lanes).1 = true then bits x 0 6 else pc) ∧
        t.dev.get (IBX_LOOP_K0 e) = d.get (IBX_LOOP_K0 e) - (if bits x 12 4 = 1 then 1 else 0) ∧
        t.dev.get (IBX_LOOP_K1 e) = d.get (IBX_LOOP_K1 e) - (if bits x 12 4 = 2 then 1 else 0) ∧
        t.dev.get (IBX_STATUS_STATE e) = 2 ∧ (t.dev.ibx e).next = b + 2 * (1 + ext) ∧
        (t.dev.ibx e).toggle = (if d.flag (IBX_CTL_CKEN e) = true ∧ (d.ibx e).gate = true then some (b + 2 * (1 + ext)) else none) ∧
        Frame [.ibxs] [IBX_PC_PC e, IBX_LOOP_K0 e, IBX_LOOP_K1 e, IBX_STATUS_STATE e, IBX_STATUS_STALLON e] s t)) ∧
    (∀ arg : Nat, (d.ibxTest e 0 arg lanes).1 = true ∧ (d.ibxTest e 1 arg lanes).1 = (d.get (IBX_LOOP_K0 e) != 0) ∧
      (d.ibxTest e 2 arg lanes).1 = (d.get (IBX_LOOP_K1 e) != 0) ∧ (d.ibxTest e 3 arg lanes).1 = (d.word (IBX_U e) == 0) ∧
      (d.ibxTest e 4 arg lanes).1 = (d.word (IBX_U e) != 0) ∧ (d.ibxTest e 5 arg lanes).1 = (d.word (IBX_U e) != d.word (IBX_V e)) ∧
      (d.ibxTest e 6 arg lanes).1 = bitAt lanes.toNat (d.get (IBX_GROUP_BASE e) + arg) ∧
      (d.ibxTest e 7 arg lanes).1 = !bitAt lanes.toNat (d.get (IBX_GROUP_BASE e) + arg) ∧
      (d.ibxTest e 8 arg lanes).1 = (d.get (IBX_SHCNT_N0 e) == 0) ∧ (d.ibxTest e 9 arg lanes).1 = (d.get (IBX_SHCNT_N1 e) == 32) ∧
      (d.ibxTest e 10 arg lanes).1 = (d.ibx e).tx.isEmpty ∧
      (d.ibxTest e 11 arg lanes).1 = (bits (d.get (IBX_SHCNT_PEND e)) (4 * arg) 4 != 0)) ∧
    (∀ b ext x, d.ibxTake e 1 = some (b, ext, x) →
      (d.ibxHolds e x lanes = true → ∃ t, exec (.ibexAwait e lanes) s = .next t ∧ t.dev.get (IBX_PC_PC e) = pc ∧
        (t.dev.ibx e).next = b + 2 * (1 + ext) ∧
        (∀ k < 4, bits (t.dev.get (IBX_SHCNT_PEND e)) (4 * k) 4 = bits (d.get (IBX_SHCNT_PEND e)) (4 * k) 4 -
          (if bits x 14 2 = 0 ∧ bitAt x 13 = true ∧ k = bits x 0 7 then 1 else 0)) ∧
        Frame [.ibxs] [IBX_PC_PC e, IBX_SHCNT_PEND e, IBX_STATUS_STATE e, IBX_STATUS_STALLON e] s t) ∧
      (d.ibxHolds e x lanes = false → ∃ t, exec (.ibexAwait e lanes) s = .next t ∧ t.dev.get (IBX_STATUS_STATE e) = 3 ∧
        Frame [.ibxs] [IBX_STATUS_STATE e] s t)) ∧
    (d.ibxUp e = true → d.get (IBX_STATUS_STATE e) = 3 → (d.ibx e).next ≤ d.tick →
      (d.ibxHolds e (bits (d.ibxWord e) 0 16) lanes = true → ∃ t, exec (.ibexAwaitDone e lanes) s = .next t ∧
        t.dev.get (IBX_PC_PC e) = pc ∧ t.dev.get (IBX_STATUS_STATE e) = 2 ∧
        (t.dev.ibx e).next = d.evenTick d.tick + 2 * (1 + bits (d.ibxWord e) 16 4) ∧
        Frame [.ibxs] [IBX_PC_PC e, IBX_SHCNT_PEND e, IBX_STATUS_STATE e, IBX_STATUS_STALLON e] s t) ∧
      (d.ibxHolds e (bits (d.ibxWord e) 0 16) lanes = false → exec (.ibexAwaitDone e lanes) s = .next { s with dev := d })) ∧
    (∀ b ext x, d.ibxTake e 8 = some (b, ext, x) → ∃ t, exec (.ibexClock e) s = .next t ∧ t.dev.get (IBX_PC_PC e) = pc ∧
      (t.dev.ibx e).gate = (bits x 14 2 == 1) ∧ (t.dev.ibx e).toggle = none ∧ (t.dev.ibx e).next = b + 2 * (1 + ext) ∧
      (t.dev.ibx e).clk = (if 2 ≤ bits x 14 2 ∧ d.flag (IBX_CTL_CKEN e) = true then bits x 14 2 == 3 else (d.ibx e).clk) ∧
      (2 ≤ bits x 14 2 → d.flag (IBX_CTL_CKEN e) = true → (t.dev.ibx e).clkTick = b + 2 + d.get (IBX_CTL_CKPH e)) ∧
      Frame [.ibxs] [IBX_PC_PC e, IBX_STATUS_STATE e, IBX_STATUS_STALLON e] s t) ∧
    (∀ b ext x, d.ibxTake e 9 = some (b, ext, x) → ∃ t, exec (.ibexEnd e) s = .next t ∧ t.dev.get (IBX_PC_PC e) = pc ∧
      (t.dev.ibx e).ending = some (bits x 0 8) ∧ t.dev.get (IBX_STATUS_STATE e) = 2 ∧ (t.dev.ibx e).next = b + 2 * (1 + ext) ∧
      Frame [.ibxs] [IBX_PC_PC e, IBX_STATUS_STATE e, IBX_STATUS_STALLON e] s t) ∧
    (∀ c < 256, (s.dev.ibx e).ending = some c → (s.dev.ibx e).next ≤ s.dev.tick → d.get (IBX_STATUS_STATE e) = 1 ∧
      d.get (IBX_STATUS_CAUSE e) = 2 ∧ d.get (IBX_STATUS_CODE e) = c ∧ (d.ibx e).ending = none ∧ d.get (IBX_PC_PC e) = s.dev.get (IBX_PC_PC e) ∧
      (s.dev.flag (IBX_CTL_RECSTOP e) = false → d.quads = s.dev.quads) ∧
      Frame [.ibxs, .quads] [IBX_STATUS_STATE e, IBX_STATUS_CAUSE e, IBX_STATUS_CODE e, IBX_STATUS_STALLON e, IBX_STALLCNT_CNT e] s { s with dev := d }) ∧
    (d.ibxIssues e = true → (10 ≤ bits (d.ibxWord e) 20 4 → ibxLegal (d.ibxW e) (d.ibxWord e) = false) ∧
      (ibxLegal (d.ibxW e) (d.ibxWord e) = true → exec (.ibexIllegal e) s = .next { s with dev := d }) ∧
      (ibxLegal (d.ibxW e) (d.ibxWord e) = false → ∃ t, exec (.ibexIllegal e) s = .next t ∧ t.dev.get (IBX_STATUS_STATE e) = 1 ∧
        t.dev.get (IBX_STATUS_CAUSE e) = 3 ∧ (t.dev.ibx e).pins = (d.ibx e).pins ∧ (t.dev.ibx e).dirs = (d.ibx e).dirs ∧
        (t.dev.ibx e).clk = (d.ibx e).clk ∧ Frame [.ibxs, .quads] [IBX_STATUS_STATE e, IBX_STATUS_CAUSE e, IBX_STATUS_STALLON e] s t))

/-- R241, R246: what a SHIFT and an XFER that issue on tick b do, and that a stalled one does the same on the first even tick two ticks after
the word that moved. A shift out takes COUNT bits off one end of the register and gives them to the port; a shift in takes COUNT bits of the
port at the other end; with FILL and DRAIN they first take or give a FIFO word; on an empty TX FIFO or a full RX FIFO the engine stalls with
nothing of the instruction done. -/
def Obligations.IbexShiftsTransfersAndStalls : Prop :=
  (∀ (s : State) (e : Fin 64) (lanes : Lanes),
    let d := s.dev.ibxSettle e
    (∀ b ext x, d.ibxTake e 2 = some (b, ext, x) → exec (.ibexShift e lanes) s = .next { s with dev := d.ibxShiftAt e b ext x lanes }) ∧
    (d.ibxTake e 2 = none → exec (.ibexShift e lanes) s = .next { s with dev := d }) ∧
    (∀ b ext x, d.ibxTake e 3 = some (b, ext, x) → exec (.ibexXfer e) s = .next { s with dev := d.ibxXferAt e b ext x }) ∧
    (d.ibxTake e 3 = none → exec (.ibexXfer e) s = .next { s with dev := d }) ∧
    (∀ t0, (d.ibx e).moved = some t0 → d.ibxUp e = true → d.get (IBX_STATUS_STATE e) = 4 →
      d.evenTick (max (t0 + 2) (d.ibx e).next) ≤ d.tick →
      (bits (d.ibxWord e) 20 4 = 2 → exec (.ibexStallResume e lanes) s = .next { s with
        dev := d.ibxShiftAt e (d.evenTick (max (t0 + 2) (d.ibx e).next)) (bits (d.ibxWord e) 16 4) (bits (d.ibxWord e) 0 16) lanes }) ∧
      (bits (d.ibxWord e) 20 4 = 3 → exec (.ibexStallResume e lanes) s = .next { s with
        dev := d.ibxXferAt e (d.evenTick (max (t0 + 2) (d.ibx e).next)) (bits (d.ibxWord e) 16 4) (bits (d.ibxWord e) 0 16) })) ∧
    ((d.ibx e).moved = none → exec (.ibexStallResume e lanes) s = .next { s with dev := d }) ∧
    (s.dev.get (IBX_STATUS_STATE e) = 4 → d.get (IBX_STALLCNT_CNT e) =
      min (s.dev.get (IBX_STALLCNT_CNT e) + (s.dev.tick - (s.dev.ibx e).stallFrom) / 2) (2 ^ 32 - 1))) ∧
  ∀ (s : State) (e : Fin 64) (b ext x : Nat) (lanes : Lanes),
    let d := s.dev
    let r := b2n (bitAt x 15)
    let n := shiftCount x
    let pc := (d.get (IBX_PC_PC e) + 1) % 64
    (bitAt x 14 = false → (bitAt (d.ibxCont e r) 0 = false ∨ n ≤ d.get (ibxN e r) ∨ (d.ibx e).tx ≠ []) →
      let fill := bitAt (d.ibxCont e r) 0 = true ∧ d.get (ibxN e r) < n
      let v0 := if fill then (d.ibx e).tx.headD 0 % 2 ^ 32 else (d.word (ibxS e r)).toNat
      let v := if bitAt x 10 = true then v0 % 2 ^ n else v0 / 2 ^ (32 - n)
      let t := { s with dev := d.ibxShiftAt e b ext x lanes }
      (t.dev.word (ibxS e r)).toNat = (if bitAt x 10 = true then v0 / 2 ^ n else v0 * 2 ^ n % 2 ^ 32) ∧
      t.dev.get (ibxN e r) = (if fill then 32 else d.get (ibxN e r)) - n ∧
      (t.dev.ibx e).pins = (if bits x 11 3 = 0 then putBits (d.ibx e).pins 0 (min n (d.ibxW e)) v else (d.ibx e).pins) ∧
      (t.dev.ibx e).dirs = (if bits x 11 3 = 1 then putBits (d.ibx e).dirs 0 (min n (d.ibxW e)) v else (d.ibx e).dirs) ∧
      (bits x 11 3 ≤ 1 → (t.dev.ibx e).pinTick = b + 2) ∧
      (bits x 11 3 = 2 → (t.dev.word (IBX_U e)).toNat = v) ∧ (bits x 11 3 = 3 → (t.dev.word (IBX_V e)).toNat = v) ∧
      t.dev.get (IBX_PC_PC e) = pc ∧ t.dev.get (IBX_STATUS_STATE e) = 2 ∧ (t.dev.ibx e).next = b + 2 * (1 + ext) ∧
      Frame [.ibxs, .mc] ([whole (ibxS e r), ibxN e r, IBX_PC_PC e, IBX_STATUS_STATE e, IBX_STATUS_STALLON e] ++
        (if bits x 11 3 = 2 then [whole (IBX_U e)] else if bits x 11 3 = 3 then [whole (IBX_V e)] else [])) s t) ∧
    (bitAt x 14 = true → (bitAt (d.ibxCont e r) 1 = false ∨ d.get (ibxN e r) + n ≤ 32 ∨ (d.ibx e).rx.length < 8) →
      let drain := bitAt (d.ibxCont e r) 1 = true ∧ 32 < d.get (ibxN e r) + n
      let v0 := if drain then 0 else (d.word (ibxS e r)).toNat
      let v := (if bits x 11 3 = 0 then d.ibxPinsIn e lanes else if bits x 11 3 = 2 then (d.word (IBX_U e)).toNat
        else if bits x 11 3 = 3 then (d.word (IBX_V e)).toNat else 0) % 2 ^ n
      let t := { s with dev := d.ibxShiftAt e b ext x lanes }
      (t.dev.word (ibxS e r)).toNat = (if bitAt x 10 = true then v0 / 2 ^ n ||| v * 2 ^ (32 - n) else (v0 * 2 ^ n + v) % 2 ^ 32) ∧
      t.dev.get (ibxN e r) = min 32 ((if drain then 0 else d.get (ibxN e r)) + n) ∧
      (t.dev.ibx e).rx = (if drain then (d.ibx e).rx ++ [(d.word (ibxS e r)).toNat] else (d.ibx e).rx) ∧
      t.dev.get (IBX_PC_PC e) = pc ∧ (t.dev.ibx e).next = b + 2 * (1 + ext) ∧
      Frame [.ibxs] [whole (ibxS e r), ibxN e r, IBX_PC_PC e, IBX_STATUS_STATE e, IBX_STATUS_STALLON e] s t) ∧
    (bitAt x 14 = false → (d.ibx e).tx = [] → (bitAt (d.ibxCont e r) 0 = true → d.get (ibxN e r) < n →
        d.ibxShiftAt e b ext x lanes = d.ibxStall e 1 b) ∧ d.ibxXferAt e b ext x = d.ibxStall e 1 b) ∧
    (bitAt x 14 = true → 8 ≤ (d.ibx e).rx.length → (bitAt (d.ibxCont e r) 1 = true → 32 < d.get (ibxN e r) + n →
        d.ibxShiftAt e b ext x lanes = d.ibxStall e 2 b) ∧ d.ibxXferAt e b ext x = d.ibxStall e 2 b) ∧
    (∀ v rest, bitAt x 14 = false → (d.ibx e).tx = v :: rest → let t := { s with dev := d.ibxXferAt e b ext x }
      t.dev.word (ibxS e r) = BitVec.ofNat 32 v ∧ t.dev.get (ibxN e r) = 32 ∧ ((d.ibx e).txs.held = [] → (t.dev.ibx e).tx = rest) ∧
      t.dev.get (IBX_PC_PC e) = pc ∧ (t.dev.ibx e).next = b + 2 * (1 + ext) ∧
      Frame [.ibxs, .mc] [whole (ibxS e r), ibxN e r, IBX_PC_PC e, IBX_STATUS_STATE e, IBX_STATUS_STALLON e] s t) ∧
    (bitAt x 14 = true → (d.ibx e).rx.length < 8 → let t := { s with dev := d.ibxXferAt e b ext x }
      t.dev.word (ibxS e r) = 0 ∧ t.dev.get (ibxN e r) = 0 ∧ (t.dev.ibx e).rx = (d.ibx e).rx ++ [(d.word (ibxS e r)).toNat] ∧
      t.dev.get (IBX_PC_PC e) = pc ∧ (t.dev.ibx e).next = b + 2 * (1 + ext) ∧
      Frame [.ibxs] [whole (ibxS e r), ibxN e r, IBX_PC_PC e, IBX_STATUS_STATE e, IBX_STATUS_STALLON e] s t) ∧
    (∀ on : Nat, let t := { s with dev := d.ibxStall e on b }
      t.dev.get (IBX_STATUS_STATE e) = 4 ∧ t.dev.get (IBX_STATUS_STALLON e) = on % 4 ∧ t.dev.get (IBX_STATUS_STALL_SEEN e) = 1 ∧
      (t.dev.ibx e).stallFrom = b ∧ (t.dev.ibx e).pins = (d.ibx e).pins ∧ (t.dev.ibx e).clk = (d.ibx e).clk ∧
      Frame [.ibxs, .quads] [IBX_STATUS_STATE e, IBX_STATUS_STALLON e, IBX_STATUS_STALL_SEEN e] s t)

/-- R237, R238, R240, R245: COPY, PUT, BITS and NOTIFY that issue on tick b, from the state `d` in which what was due at the engine's
boundary has happened: the destination takes the value, pins change two ticks later in the lanes that the rules give, signal lines rise on
tick b + 2, and PC moves on; where no such instruction issues, nothing further happens. -/
def Obligations.IbexMovesBitsAndSignals : Prop :=
  (∀ v : Nat, v < 2 ^ 32 → copyOper 0 v = v ∧ copyOper 1 v = 2 ^ 32 - 1 - v ∧ copyOper 3 v = (v + 1) % 2 ^ 32 ∧
    ∀ j < 32, bitAt (copyOper 2 v) j = bitAt v (31 - j)) ∧
  ∀ (s : State) (e : Fin 64) (lanes : Lanes),
    let d := s.dev.ibxSettle e
    let pc := (d.get (IBX_PC_PC e) + 1) % 64
    (∀ op : Nat, d.ibxTake e op = none →
      (op = 4 → exec (.ibexCopy e lanes) s = .next { s with dev := d }) ∧ (op = 5 → exec (.ibexPut e) s = .next { s with dev := d }) ∧
      (op = 6 → exec (.ibexBits e) s = .next { s with dev := d }) ∧ (op = 7 → exec (.ibexNotify e) s = .next { s with dev := d })) ∧
    (∀ b ext x, d.ibxTake e 4 = some (b, ext, x) →
      let v := copyOper (bits x 6 2) (d.ibxCopySrc e (bits x 8 4) lanes)
      let k := bits x 12 4
      ∃ t, exec (.ibexCopy e lanes) s = .next t ∧
        (t.dev.ibx e).pins = (if k = 0 then putBits (d.ibx e).pins 0 (d.ibxW e) v else (d.ibx e).pins) ∧
        (t.dev.ibx e).dirs = (if k = 1 then putBits (d.ibx e).dirs 0 (d.ibxW e) v else (d.ibx e).dirs) ∧
        (k ≤ 1 → (t.dev.ibx e).pinTick = b + 2) ∧
        (k = 2 → (t.dev.word (IBX_U e)).toNat = v % 2 ^ 32) ∧ (k = 3 → (t.dev.word (IBX_V e)).toNat = v % 2 ^ 32) ∧
        (k = 4 → (t.dev.word (IBX_S0 e)).toNat = v % 2 ^ 32 ∧ t.dev.get (IBX_SHCNT_N0 e) = 32) ∧
        (k = 5 → (t.dev.word (IBX_S1 e)).toNat = v % 2 ^ 32 ∧ t.dev.get (IBX_SHCNT_N1 e) = 32) ∧
        (k = 6 → t.dev.get (IBX_LOOP_K0 e) = v % 2 ^ 16) ∧ (k = 7 → t.dev.get (IBX_LOOP_K1 e) = v % 2 ^ 16) ∧
        t.dev.get (IBX_PC_PC e) = pc ∧ (t.dev.ibx e).next = b + 2 * (1 + ext) ∧
        Frame [.ibxs] ([IBX_PC_PC e, IBX_STATUS_STATE e, IBX_STATUS_STALLON e] ++
          (if k = 2 then [whole (IBX_U e)] else if k = 3 then [whole (IBX_V e)] else if k = 4 then [whole (IBX_S0 e), IBX_SHCNT_N0 e]
            else if k = 5 then [whole (IBX_S1 e), IBX_SHCNT_N1 e] else if k = 6 then [IBX_LOOP_K0 e] else if k = 7 then [IBX_LOOP_K1 e] else [])) s t) ∧
    (∀ j < 32, bitAt (d.ibxCopySrc e 0 lanes) j = (decide (j < d.ibxW e) && bitAt lanes.toNat (d.get (IBX_GROUP_BASE e) + j))) ∧
    d.ibxCopySrc e 8 lanes = 0 ∧ d.ibxCopySrc e 2 lanes = (d.word (IBX_U e)).toNat ∧ d.ibxCopySrc e 4 lanes = (d.word (IBX_S0 e)).toNat ∧
    d.ibxCopySrc e 9 lanes =
      (d.ibx e).tx.length + (d.ibx e).rx.length * 16 + d.get (IBX_SHCNT_N0 e) * 256 + d.get (IBX_SHCNT_N1 e) * 65536 ∧
    (∀ b ext x, d.ibxTake e 5 = some (b, ext, x) →
      let v := bits x 0 13
      let k := bits x 13 3
      ∃ t, exec (.ibexPut e) s = .next t ∧
        (t.dev.ibx e).pins = (if k = 0 then putBits (d.ibx e).pins 0 (min 13 (d.ibxW e)) v else (d.ibx e).pins) ∧
        (t.dev.ibx e).dirs = (if k = 1 then putBits (d.ibx e).dirs 0 (min 13 (d.ibxW e)) v else (d.ibx e).dirs) ∧
        (k ≤ 1 → (t.dev.ibx e).pinTick = b + 2) ∧
        (k = 2 → (t.dev.word (IBX_U e)).toNat = v) ∧ (k = 3 → (t.dev.word (IBX_V e)).toNat = v) ∧
        (k = 4 → t.dev.get (IBX_LOOP_K0 e) = v) ∧ (k = 5 → t.dev.get (IBX_LOOP_K1 e) = v) ∧
        t.dev.get (IBX_PC_PC e) = pc ∧ (t.dev.ibx e).next = b + 2 * (1 + ext) ∧
        Frame [.ibxs] ([IBX_PC_PC e, IBX_STATUS_STATE e, IBX_STATUS_STALLON e] ++ (if k = 2 then [whole (IBX_U e)] else if k = 3 then
          [whole (IBX_V e)] else if k = 4 then [IBX_LOOP_K0 e] else if k = 5 then [IBX_LOOP_K1 e] else [])) s t) ∧
    (∀ b ext x, d.ibxTake e 6 = some (b, ext, x) →
      let new (v : Nat) : Bool := if bits x 14 2 = 0 then false else if bits x 14 2 = 1 then true else !bitAt v (bits x 0 5)
      ∃ t, exec (.ibexBits e) s = .next t ∧
        (bitAt x 13 = false → bitAt (t.dev.ibx e).pins (bits x 0 5) = new (d.ibx e).pins ∧ (t.dev.ibx e).dirs = (d.ibx e).dirs ∧
          ∀ j, j ≠ bits x 0 5 → bitAt (t.dev.ibx e).pins j = bitAt (d.ibx e).pins j) ∧
        (bitAt x 13 = true → bitAt (t.dev.ibx e).dirs (bits x 0 5) = new (d.ibx e).dirs ∧ (t.dev.ibx e).pins = (d.ibx e).pins ∧
          ∀ j, j ≠ bits x 0 5 → bitAt (t.dev.ibx e).dirs j = bitAt (d.ibx e).dirs j) ∧
        (t.dev.ibx e).pinTick = b + 2 ∧ t.dev.get (IBX_PC_PC e) = pc ∧ (t.dev.ibx e).next = b + 2 * (1 + ext) ∧
        Frame [.ibxs] [IBX_PC_PC e, IBX_STATUS_STATE e, IBX_STATUS_STALLON e] s t) ∧
    (∀ b ext x, d.ibxTake e 7 = some (b, ext, x) → ∃ t, exec (.ibexNotify e) s = .next t ∧
      t.dev.xev = (((List.range 4).filter (fun i => bitAt x (12 + i))).foldl (fun y i =>
        y.raiseEventAt (e / 16) (0x480 + (e % 16) * 4 + i) (b + 2) { time := d.stimeAt (b + 2), clkSw := d.inWindow }) d).xev ∧
      (bitAt x 11 = false → t.dev.quads = s.dev.quads) ∧
      (bitAt x 11 = true → (s.dev.quad (e / 16)).pend = [] → ∃ p, (t.dev.quad (e / 16)).pend = [p] ∧ p.source = 0x140 + e % 16 ∧
        p.r.typ = 8 ∧ p.r.sub = 1 ∧ p.r.src = e ∧ p.r.p0 = (d.word (IBX_U e)).toNat ∧ p.r.p1 = d.get (IBX_PC_PC e)) ∧
      t.dev.get (IBX_PC_PC e) = pc ∧ (t.dev.ibx e).next = b + 2 * (1 + ext) ∧
      Frame [.ibxs, .xev, .quads] [IBX_PC_PC e, IBX_STATUS_STATE e, IBX_STATUS_STALLON e] s t)

/-- R233, R252 to R255: the bits of IBX[e].CMD, a stop that reaches its boundary, and a change of EN, from the state `d` in which what was
due at the engine's boundary has happened. FLUSHTX, FLUSHRX and CLRSHIFT act on a stopped or disabled engine only and set REFUSED on any
other; a STOP ends a waiting or stalled engine at once and a running one at its boundary; a START starts a stopped engine on the first even
tick from the second after the write; the lanes of an enabled engine are driven from the second tick after the write (log 134). -/
def Obligations.IbexCommandsAndEnable : Prop :=
  ∀ (s : State) (w : Sender) (e : Fin 64),
    let d := s.dev.ibxSettle e
    (s.dev.takesLate (writerOf w) (IBX_CMD e) = true →
      (∃ u, exec (.ibexCmdCondclr w e) s = .next u ∧ lands s u { s with dev := d.put (IBX_SHCNT_PEND e) 0 }) ∧
      (∃ u, exec (.ibexCmdFlushtx w e) s = .next u ∧ lands s u { s with
        dev := if d.ibxIdle e = true then (d.modIbx e (fun x => { x with tx := [] })).txRoom e else d.put (IBX_STATUS_REFUSED e) 1 }) ∧
      (∃ u, exec (.ibexCmdFlushrx w e) s = .next u ∧ lands s u { s with
        dev := if d.ibxIdle e = true then d.modIbx e (fun x => { x with rx := [] }) else d.put (IBX_STATUS_REFUSED e) 1 }) ∧
      (d.ibxIdle e = false → (∃ u, exec (.ibexCmdClrshift w e) s = .next u ∧ lands s u { s with dev := d.put (IBX_STATUS_REFUSED e) 1 })) ∧
      (d.ibxIdle e = true → ∃ u t, exec (.ibexCmdClrshift w e) s = .next u ∧ lands s u t ∧ t.dev.word (IBX_S0 e) = 0 ∧ t.dev.word (IBX_S1 e) = 0 ∧
        t.dev.get (IBX_SHCNT_N0 e) = 0 ∧ t.dev.get (IBX_SHCNT_N1 e) = 0 ∧
        Frame [] [whole (IBX_S0 e), whole (IBX_S1 e), IBX_SHCNT_N0 e, IBX_SHCNT_N1 e] { s with dev := d } t) ∧
      (d.ibxState e ≤ 1 → (∃ u, exec (.ibexCmdStop w e) s = .next u ∧ lands s u { s with dev := d })) ∧
      ((d.ibxState e = 2 ∨ (d.ibxState e = 5 ∧ (d.ibx e).before = 2)) → ∃ u t, exec (.ibexCmdStop w e) s = .next u ∧ lands s u t ∧
        t.dev.ibx e = { d.ibx e with stopping := some (s.dev.tick + 1) } ∧ Frame [.ibxs] [] { s with dev := d } t) ∧
      ((d.ibxState e = 3 ∨ d.ibxState e = 4 ∨ (d.ibxState e = 5 ∧ (d.ibx e).before ≠ 2)) → ∃ u t, exec (.ibexCmdStop w e) s = .next u ∧ lands s u t ∧ t.dev.get (IBX_STATUS_STATE e) = 1 ∧
        t.dev.get (IBX_STATUS_CAUSE e) = 1 ∧ (t.dev.ibx e).tx = (d.ibx e).tx ∧ (t.dev.ibx e).rx = (d.ibx e).rx ∧
        (t.dev.ibx e).pins = (d.ibx e).pins ∧ (t.dev.ibx e).clk = (d.ibx e).clk ∧
        Frame [.ibxs, .quads] [IBX_STATUS_STATE e, IBX_STATUS_CAUSE e, IBX_STATUS_STALLON e, IBX_STALLCNT_CNT e] { s with dev := d } t) ∧
      (d.ibxState e = 1 → ∃ u t, exec (.ibexCmdStart w e) s = .next u ∧ lands s u t ∧ t.dev.get (IBX_STATUS_STATE e) = 2 ∧
        (t.dev.ibx e).next = d.evenTick (d.tick + 2) ∧ (t.dev.ibx e).gate = false ∧ Frame [.ibxs] [IBX_STATUS_STATE e] { s with dev := d } t) ∧
      (d.ibxState e = 0 → (∃ u, exec (.ibexCmdStart w e) s = .next u ∧ lands s u { s with dev := d.put (IBX_STATUS_REFUSED e) 1 })) ∧
      (2 ≤ d.ibxState e → (∃ u, exec (.ibexCmdStart w e) s = .next u ∧ lands s u { s with dev := d }))) ∧
    (∀ t0, (d.ibx e).stopping = some t0 → d.ibxUp e = true → d.get (IBX_STATUS_STATE e) = 2 → t0 ≤ d.ibxNext e → d.ibxNext e ≤ d.tick →
      (d.ibx e).ending = none →
      ∃ t, exec (.ibexStopAtBoundary e) s = .next t ∧ t.dev.get (IBX_STATUS_STATE e) = 1 ∧ t.dev.get (IBX_STATUS_CAUSE e) = 1 ∧
        (t.dev.ibx e).stopping = none ∧ (t.dev.ibx e).pins = (d.ibx e).pins ∧
        Frame [.ibxs, .quads] [IBX_STATUS_STATE e, IBX_STATUS_CAUSE e, IBX_STATUS_STALLON e] s t) ∧
    ((d.ibx e).stopping = none → exec (.ibexStopAtBoundary e) s = .next { s with dev := d }) ∧
    (∀ v : Word, s.dev.takesLate (writerOf w) (IBX_CTL e) = true → v &&& 0xFFFC0000 = v →
      (d.flag (IBX_CTL_EN e) = false → d.ibxIdle e = true → ∃ u t, exec (.ibexEnable w e v) s = .next u ∧ lands s u t ∧
        t.dev.word (IBX_CTL e) = v ||| 0x80000000 ∧ t.dev.get (IBX_STATUS_STATE e) = 1 ∧
        (t.dev.ibx e).pins = (d.word (IBX_PININIT e)).toNat % 2 ^ d.ibxW e ∧ (t.dev.ibx e).dirs = (d.word (IBX_DIRINIT e)).toNat % 2 ^ d.ibxW e ∧
        (t.dev.ibx e).clk = bitAt v.toNat 22 ∧ (t.dev.ibx e).pinTick = d.tick + 2 ∧ (t.dev.ibx e).clkTick = d.tick + 2 ∧ (t.dev.ibx e).offFrom = d.tick + 2 ∧
        Frame [.ibxs, .mc] [whole (IBX_CTL e), IBX_STATUS_STATE e] { s with dev := d } t) ∧
      (d.flag (IBX_CTL_EN e) = true → ∃ u t, exec (.ibexDisable w e v) s = .next u ∧ lands s u t ∧ t.dev.get (IBX_CTL_EN e) = 0 ∧
        t.dev.get (IBX_STATUS_STATE e) = 0 ∧ t.dev.get (IBX_STATUS_CAUSE e) = 5 ∧ (t.dev.ibx e).toggle = none ∧ (t.dev.ibx e).gate = false ∧ (t.dev.ibx e).offFrom = s.dev.tick + 3 ∧
        (d.ibxIdle e = true → t.dev.word (IBX_CTL e) = v &&& 0x7FFFFFFF) ∧
        (d.ibxIdle e = false → ∀ g : Fld, g.off = IBX_CTL e → g.lo + g.w ≤ 31 → t.dev.get g = d.get g) ∧
        (t.dev.ibx e).tx = (d.ibx e).tx ∧ (t.dev.ibx e).rx = (d.ibx e).rx ∧
        Frame [.ibxs, .mc] [whole (IBX_CTL e), whole (IBX_STATUS e), IBX_STALLCNT_CNT e] { s with dev := d } t))

/-- R247, R252: the program memory and the FIFOs by software. A write of PDATA to a stopped or disabled engine stores the word at PADDR and
advances PADDR, a read of PDATA reads it there and advances PADDR; a TXDATA write enters the FIFO and an RXDATA read takes its oldest word,
and each is counted instead where the stream has the FIFO, where it is full, or where it is empty. -/
def Obligations.IbexProgramAndFifoAccess : Prop :=
  ∀ (s : State) (w : Sender) (e : Fin 64),
    (∀ v : Word, s.dev.takes (writerOf w) (IBX_PDATA e) = true → v &&& 0xFFFFFF = v →
      (s.dev.ibxIdle e = true → ∃ t, exec (.ibexPdataWrite w e v) s = .next t ∧
        Tab.get 0x900000 (t.dev.ibx e).prog (s.dev.get (IBX_PADDR_PADDR e)) = v.toNat ∧
        (∀ a, a ≠ s.dev.get (IBX_PADDR_PADDR e) → Tab.get 0x900000 (t.dev.ibx e).prog a = Tab.get 0x900000 (s.dev.ibx e).prog a) ∧
        t.dev.get (IBX_PADDR_PADDR e) = (s.dev.get (IBX_PADDR_PADDR e) + 1) % 64 ∧
        (∀ m, m ≠ e.val → t.dev.ibx m = s.dev.ibx m) ∧ Frame [.ibxs] [IBX_PADDR_PADDR e] s t) ∧
      (s.dev.ibxIdle e = false → exec (.ibexPdataWrite w e v) s = .next { s with dev := s.dev.put (IBX_STATUS_REFUSED e) 1 })) ∧
    (s.dev.reads w (e / 16) = true → ∃ t, exec (.ibexPdataRead w e) s = .next t ∧
      t.dev.out = s.dev.out ++
        [answer w (IBX_PDATA e) (BitVec.ofNat 32 (Tab.get 0x900000 (s.dev.ibx e).prog (s.dev.get (IBX_PADDR_PADDR e))))] ∧
      t.dev.get (IBX_PADDR_PADDR e) = (s.dev.get (IBX_PADDR_PADDR e) + 1) % 64 ∧ Frame [.out] [IBX_PADDR_PADDR e] s t) ∧
    (∀ v : Word, s.dev.takes (writerOf w) (IBX_TXDATA e) = true →
      (s.dev.flag (IBX_CTL_TXSRC e) = false → (s.dev.ibx e).tx.length < 8 → ∃ t, exec (.ibexTxdataWrite w e v) s = .next t ∧
        (let m := if s.dev.get (IBX_STATUS_STALLON e) = 1 then some ((s.dev.ibx e).moved.getD s.dev.tick) else (s.dev.ibx e).moved
        t.dev.ibx e = { s.dev.ibx e with tx := (s.dev.ibx e).tx ++ [v.toNat], moved := m }) ∧
        (∀ m, m ≠ e.val → t.dev.ibx m = s.dev.ibx m) ∧ Frame [.ibxs] [] s t) ∧
      ((s.dev.flag (IBX_CTL_TXSRC e) = true ∨ 8 ≤ (s.dev.ibx e).tx.length) → ∃ t, exec (.ibexTxdataWrite w e v) s = .next t ∧
        t.dev.get (IBX_DROPCNT_TXDROP e) = min (s.dev.get (IBX_DROPCNT_TXDROP e) + 1) (2 ^ 16 - 1) ∧ Frame [] [IBX_DROPCNT_TXDROP e] s t)) ∧
    (s.dev.reads w (e / 16) = true →
      (∀ v rest, s.dev.flag (IBX_CTL_RXSRC e) = false → (s.dev.ibx e).rx = v :: rest → ∃ t, exec (.ibexRxdataRead w e) s = .next t ∧
        t.dev.out = s.dev.out ++ [answer w (IBX_RXDATA e) (BitVec.ofNat 32 v)] ∧ (t.dev.ibx e).rx = rest ∧
        ((s.dev.ibxSettle e).get (IBX_STATUS_STALLON e) = 2 →
          (t.dev.ibx e).moved = some (((s.dev.ibxSettle e).ibx e).moved.getD s.dev.tick)) ∧ Frame [.ibxs, .out] [] { s with dev := s.dev.ibxSettle e } t) ∧
      ((s.dev.flag (IBX_CTL_RXSRC e) = true ∨ (s.dev.ibx e).rx = []) → ∃ t, exec (.ibexRxdataRead w e) s = .next t ∧
        t.dev.out = s.dev.out ++ [answer w (IBX_RXDATA e) 0] ∧
        t.dev.get (IBX_DROPCNT_RXUNDER e) = min (s.dev.get (IBX_DROPCNT_RXUNDER e) + 1) (2 ^ 16 - 1) ∧
        Frame [.out] [IBX_DROPCNT_RXUNDER e] { s with dev := s.dev.ibxSettle e } t))

/-- R248 to R250: the memory streams. RUN starts a pass at ADDR with LEN words where it fits and sets REFUSED where it does not; a 0 stops
the stream, the RX stream's group written at once. A returned read gives its words to the TX FIFO, and ends the pass or the stream, or stops
it on an error; the RX stream gathers words of the RX FIFO into 16-byte writes and writes a group that has waited 256 ticks, unless 32 of its requests wait (R12), with the missing
words masked. -/
def Obligations.IbexStreamsReadAndWriteMemory : Prop :=
  ∀ (s : State) (e : Fin 64),
    (∀ (w : Sender) (v : Word), v &&& 0xF = v →
      (s.dev.takes (writerOf w) (IBX_TXS_CTL e) = true → s.dev.flag (IBX_TXS_CTL_RUN e) = false → bitAt v.toNat 0 = true →
        let a := 16 * s.dev.get (IBX_TXS_ADDR_ADDR e)
        let n := s.dev.get (IBX_TXS_LEN_LEN e)
        (n ≠ 0 → a + 4 * n ≤ 2 ^ 26 → ∃ t, exec (.txStreamRun w e v) s = .next t ∧ t.dev.get (IBX_TXS_CTL_RUN e) = 1 ∧
          t.dev.get (IBX_TXS_CTL_LEFT e) = n ∧ t.dev.get (IBX_TXS_CTL_RING e) = b2n (bitAt v.toNat 2) ∧
          t.dev.get (IBX_TXS_CTL_REC e) = b2n (bitAt v.toNat 1) ∧
          (s.dev.flag (IBX_CTL_TXSRC e) = false → (t.dev.ibx e).txs.addr = a ∧ (t.dev.ibx e).txs.toIssue = n ∧ t.dev.mc = s.dev.mc) ∧
          (s.dev.flag (IBX_CTL_TXSRC e) = true → (s.dev.ibx e).tx = [] → (s.dev.ibx e).txs.held = [] → (s.dev.ibx e).txs.inflight = [] →
            s.dev.quadDown (e / 16) = false → s.dev.mc.touched.all (fun x => x.tick != s.dev.tick) = true →
              (t.dev.ibx e).txs.inflight = (a, min 4 n) :: (if 4 < n then [(a + 16, min 4 (n - 4))] else []) ∧
              t.dev.mc.reqs = s.dev.mc.reqs ++ { who := .txs e, word := a / 16, at_ := s.dev.tick } ::
                (if 4 < n then [{ who := .txs e, word := a / 16 + 1, at_ := s.dev.tick }] else [])) ∧
          Frame [.ibxs, .mc] [whole (IBX_TXS_CTL e)] s t) ∧
        ((n = 0 ∨ 2 ^ 26 < a + 4 * n) → ∃ t, exec (.txStreamRun w e v) s = .next t ∧ t.dev.get (IBX_STATUS_REFUSED e) = 1 ∧
          t.dev.get (IBX_TXS_CTL_RUN e) = 0 ∧ Frame [] [whole (IBX_TXS_CTL e), IBX_STATUS_REFUSED e] s t)) ∧
      (s.dev.takes (writerOf w) (IBX_TXS_CTL e) = true → s.dev.flag (IBX_TXS_CTL_RUN e) = true → bitAt v.toNat 0 = false →
        ∃ t, exec (.txStreamRun w e v) s = .next t ∧ t.dev.get (IBX_TXS_CTL_RUN e) = 0 ∧ (t.dev.ibx e).txs.toIssue = 0 ∧
          (t.dev.ibx e).txs.inflight = (s.dev.ibx e).txs.inflight ∧ Frame [.ibxs] [whole (IBX_TXS_CTL e)] s t) ∧
      (s.dev.takes (writerOf w) (IBX_RXS_CTL e) = true → s.dev.flag (IBX_RXS_CTL_RUN e) = false → bitAt v.toNat 0 = true →
        let a := 16 * s.dev.get (IBX_RXS_ADDR_ADDR e)
        let n := s.dev.get (IBX_RXS_LEN_LEN e)
        (n ≠ 0 → a + 4 * n ≤ 2 ^ 26 → ∃ t, exec (.rxStreamRun w e v) s = .next t ∧ t.dev.get (IBX_RXS_CTL_RUN e) = 1 ∧
          t.dev.get (IBX_RXS_CTL_LEFT e) = n ∧ (t.dev.ibx e).rxs.addr = a ∧ (t.dev.ibx e).rxs.toIssue = n ∧ (t.dev.ibx e).rxs.group = [] ∧
          Frame [.ibxs] [whole (IBX_RXS_CTL e)] s t) ∧
        ((n = 0 ∨ 2 ^ 26 < a + 4 * n) → ∃ t, exec (.rxStreamRun w e v) s = .next t ∧ t.dev.get (IBX_STATUS_REFUSED e) = 1 ∧
          t.dev.get (IBX_RXS_CTL_RUN e) = 0 ∧ Frame [] [whole (IBX_RXS_CTL e), IBX_STATUS_REFUSED e] s t)) ∧
      (s.dev.takes (writerOf w) (IBX_RXS_CTL e) = true → s.dev.flag (IBX_RXS_CTL_RUN e) = true → bitAt v.toNat 0 = false →
        ∃ t, exec (.rxStreamRun w e v) s = .next t ∧ t.dev.get (IBX_RXS_CTL_RUN e) = 0 ∧ (t.dev.ibx e).rxs.toIssue = 0 ∧
          (t.dev.ibx e).rxs.group = [] ∧ t.dev.mc.reqs.length = s.dev.mc.reqs.length + (if (s.dev.ibx e).rxs.group = [] then 0 else 1) ∧
          Frame [.ibxs, .mc] [whole (IBX_RXS_CTL e), MEM_COLLCNT_CNT] s t)) ∧
    (∀ r a n rest, s.dev.mc.results.find? (fun x => decide (x.who = MemWho.txs e)) = some r → (s.dev.ibx e).txs.inflight = (a, n) :: rest →
      (r.err = false → (s.dev.ibx e).tx.length + n ≤ 8 → n ≤ 4 → (s.dev.ibx e).txs.old = 0 → n < s.dev.get (IBX_TXS_CTL_LEFT e) →
        ∃ t, exec (.txStreamReadDone e) s = .next t ∧
          (t.dev.ibx e).tx = (s.dev.ibx e).tx ++ [bits r.data 0 32, bits r.data 32 32, bits r.data 64 32, bits r.data 96 32].take n ∧
          t.dev.get (IBX_TXS_CTL_LEFT e) = s.dev.get (IBX_TXS_CTL_LEFT e) - n ∧ t.dev.mc.results = removeFirst r s.dev.mc.results ∧
          Frame [.ibxs, .mc] [IBX_TXS_CTL_LEFT e] s t) ∧
      (r.err = false → (s.dev.ibx e).txs.old = 0 → s.dev.get (IBX_TXS_CTL_LEFT e) = n → s.dev.flag (IBX_TXS_CTL_RING e) = false →
        ∃ t, exec (.txStreamReadDone e) s = .next t ∧ t.dev.get (IBX_TXS_CTL_RUN e) = 0 ∧ t.dev.get (IBX_TXS_CTL_STR_DONE e) = 1 ∧
          Frame [.ibxs, .mc, .quads] [whole (IBX_TXS_CTL e)] s t) ∧
      (r.err = true → ∃ t, exec (.txStreamReadDone e) s = .next t ∧ t.dev.get (IBX_TXS_CTL_RUN e) = 0 ∧ t.dev.get (IBX_STATUS_STR_ERR e) = 1 ∧
        (t.dev.ibx e).tx = (s.dev.ibx e).tx ∧ (t.dev.ibx e).txs.inflight = rest ∧
        Frame [.ibxs, .mc, .quads] [IBX_TXS_CTL_RUN e, IBX_STATUS_STR_ERR e] s t)) ∧
    (s.dev.mc.results.find? (fun x => decide (x.who = MemWho.txs e)) = none → exec (.txStreamReadDone e) s = .next s) ∧
    (s.dev.flag (IBX_RXS_CTL_RUN e) = true → s.dev.flag (IBX_CTL_RXSRC e) = true → s.dev.quadDown (e / 16) = false → s.dev.memRoom (.rxs e) = true →
      (∀ w0 w1 w2 w3 rest, (s.dev.ibx e).rx = w0 :: w1 :: w2 :: w3 :: rest → (s.dev.ibx e).rxs.addr % 16 = 0 → (s.dev.ibx e).rxs.group = [] →
        4 < s.dev.get (IBX_RXS_CTL_LEFT e) → (s.dev.ibx e).rxs.toIssue = s.dev.get (IBX_RXS_CTL_LEFT e) →
          ∃ t, exec (.rxStreamWrite e) s = .next t ∧ (t.dev.ibx e).rx = rest ∧ (t.dev.ibx e).rxs.group = [] ∧
            (t.dev.ibx e).rxs.addr = (s.dev.ibx e).rxs.addr + 16 ∧ t.dev.get (IBX_RXS_CTL_LEFT e) = s.dev.get (IBX_RXS_CTL_LEFT e) - 4 ∧
            t.dev.mc.reqs = s.dev.mc.reqs ++ [{ who := .rxs e, kind := 1, word := (s.dev.ibx e).rxs.addr / 16, mask := 0xFFFF
                                                data := w0 + 2 ^ 32 * (w1 + 2 ^ 32 * (w2 + 2 ^ 32 * w3)), at_ := s.dev.tick }] ∧
            Frame [.ibxs, .mc] [IBX_RXS_CTL_LEFT e, MEM_COLLCNT_CNT] s t) ∧
      (∀ v, (s.dev.ibx e).rx = [v] → (s.dev.ibx e).rxs.addr % 16 = 0 → (s.dev.ibx e).rxs.group = [] →
        1 < s.dev.get (IBX_RXS_CTL_LEFT e) → (s.dev.ibx e).rxs.toIssue = s.dev.get (IBX_RXS_CTL_LEFT e) →
          ∃ t, exec (.rxStreamWrite e) s = .next t ∧ (t.dev.ibx e).rx = [] ∧ (t.dev.ibx e).rxs.group = [v] ∧
            (t.dev.ibx e).rxs.since = s.dev.tick ∧ t.dev.get (IBX_RXS_CTL_LEFT e) = s.dev.get (IBX_RXS_CTL_LEFT e) - 1 ∧
            Frame [.ibxs] [IBX_RXS_CTL_LEFT e] s t)) ∧
    ((s.dev.flag (IBX_RXS_CTL_RUN e) = false ∨ s.dev.flag (IBX_CTL_RXSRC e) = false ∨ (s.dev.ibx e).rx = [] ∨ s.dev.memRoom (.rxs e) = false) →
      exec (.rxStreamWrite e) s = .next s) ∧
    ((s.dev.ibx e).rxs.group ≠ [] → (s.dev.ibx e).rxs.since + 256 ≤ s.dev.tick → s.dev.flag (IBX_RXS_CTL_RUN e) = true →
      s.dev.memRoom (.rxs e) = true → ∃ t, exec (.rxStreamGroupTimeout e) s = .next t ∧ (t.dev.ibx e).rxs.group = [] ∧
        (t.dev.ibx e).rxs.addr = (s.dev.ibx e).rxs.addr + 4 * (s.dev.ibx e).rxs.group.length ∧
        (∃ r, t.dev.mc.reqs = s.dev.mc.reqs ++ [r] ∧ r.who = .rxs e ∧ r.kind = 1 ∧ r.word = (s.dev.ibx e).rxs.addr / 16 ∧
          r.mask = (2 ^ (4 * (s.dev.ibx e).rxs.group.length) - 1) * 2 ^ (4 * ((s.dev.ibx e).rxs.addr / 4 % 4))) ∧
        Frame [.ibxs, .mc] [MEM_COLLCNT_CNT] s t) ∧
    (((s.dev.ibx e).rxs.group = [] ∨ s.dev.tick < (s.dev.ibx e).rxs.since + 256 ∨ s.dev.memRoom (.rxs e) = false) → exec (.rxStreamGroupTimeout e) s = .next s)

/-- R257, R258, R260, R479: a handover and a reset of engines. A handover that GO makes acts on the next tick; if a condition fails, both
engines stay as they are and HO_ERR is set; else the outgoing engine stops with cause HANDOVER, the spare takes its pins, its lanes and what
TAKESTATE and TAKEFIFO name, and starts. A reset named in IBXRST gives an engine its reset values with its program kept. -/
def Obligations.IbexHandoverAndReset : Prop :=
  (∀ (s : State) (w : Sender) (e : Fin 64) (v : Word), s.dev.takesLate (writerOf w) (IBX_HOCTL e) = true → v &&& 0x8000003F = v →
    let d := (s.dev.setWord (IBX_HOCTL e) (v &&& 0x3F)).ibxSettle e
    ∃ u, exec (.ibexHandover w e v) s = .next u ∧ lands s u { s with
      dev := (if d.ibxState e = 1 then d.modIbx e (fun x => { x with exempt := true }) else d).handover e (s.dev.tick + 1) }) ∧
  (∀ (s : State) (sp : Fin 64) (c : Nat),
    let d := s.dev
    let o := (sp.val / 16) * 16 + d.get (IBX_HOCTL_FROM sp)
    let t := { s with dev := d.handover sp c }
    (d.hoCheck o sp = 0 ↔ o ≠ sp.val ∧ d.flag (IBX_CTL_EN o) = true ∧ d.flag (IBX_CTL_EN sp) = true ∧ d.ibxState sp = 1 ∧
      d.word (IBX_GROUP sp) = d.word (IBX_GROUP o) ∧ d.get (IBX_CTL_CKEN sp) = d.get (IBX_CTL_CKEN o) ∧
      (d.flag (IBX_HOCTL_TAKEFIFO sp) = true → (d.ibx sp).tx = [] ∧ (d.ibx sp).rx = [])) ∧
    (d.hoCheck o sp ≠ 0 → t.dev.get (IBX_STATUS_HO_ERR sp) = 1 ∧ Frame [.quads] [IBX_STATUS_HO_ERR sp] s t) ∧
    (d.hoCheck o sp = 0 →
      t.dev.get (IBX_STATUS_STATE o) = (if 1 < d.ibxState o then 1 else d.get (IBX_STATUS_STATE o)) ∧ t.dev.get (IBX_STATUS_CAUSE o) = 4 ∧ t.dev.get (IBX_STATUS_STATE sp) = 2 ∧
      t.dev.get (IBX_STATUS_HO_DONE o) = 1 ∧ t.dev.get (IBX_STATUS_HO_DONE sp) = 1 ∧
      (t.dev.ibx sp).pins = (d.ibx o).pins ∧ (t.dev.ibx sp).dirs = (d.ibx o).dirs ∧ (t.dev.ibx sp).next = d.evenTick (c + 2) ∧
      (t.dev.ibx o).exempt = true ∧ (t.dev.ibx sp).exempt = false ∧ (t.dev.ibx sp).pinTick = (d.ibx o).pinTick ∧
      ((d.ibx o).toggle = none ∨ (∃ b, (d.ibx o).toggle = some b ∧ d.tick < b) → (t.dev.ibx sp).clk = (d.ibx o).clk) ∧
      (∀ j < d.ibxW o, d.ibxOwns o (d.get (IBX_GROUP_BASE o) + j) = true →
        t.dev.get (LANE_CFG_INDEX ((o / 16) * 128 + d.get (IBX_GROUP_BASE o) + j)) = sp.val % 16) ∧
      (d.flag (IBX_HOCTL_TAKESTATE sp) = true → t.dev.word (IBX_U sp) = d.word (IBX_U o) ∧ t.dev.word (IBX_V sp) = d.word (IBX_V o) ∧
        t.dev.word (IBX_LOOP sp) = d.word (IBX_LOOP o) ∧ t.dev.word (IBX_S0 sp) = d.word (IBX_S0 o) ∧
        t.dev.word (IBX_S1 sp) = d.word (IBX_S1 o) ∧ t.dev.word (IBX_SHCNT sp) = d.word (IBX_SHCNT o)) ∧
      (d.flag (IBX_HOCTL_TAKESTATE sp) = false → t.dev.word (IBX_U sp) = d.word (IBX_U sp) ∧ t.dev.word (IBX_S0 sp) = d.word (IBX_S0 sp)) ∧
      (d.flag (IBX_HOCTL_TAKEFIFO sp) = true → (t.dev.ibx sp).tx = (d.ibx o).tx ∧ (t.dev.ibx sp).rx = (d.ibx o).rx ∧
        (t.dev.ibx o).tx = [] ∧ (t.dev.ibx o).rx = [] ∧ t.dev.word (IBX_TXS_CTL sp) = d.word (IBX_TXS_CTL o) ∧
        t.dev.get (IBX_TXS_CTL_RUN o) = 0 ∧ t.dev.get (IBX_RXS_CTL_RUN o) = 0) ∧
      (d.flag (IBX_HOCTL_TAKEFIFO sp) = false → (t.dev.ibx o).tx = (d.ibx o).tx ∧ (t.dev.ibx sp).tx = (d.ibx sp).tx) ∧
      (t.dev.ibx o).prog = (d.ibx o).prog ∧ t.dev.get (IBX_PC_PC o) = d.get (IBX_PC_PC o) ∧
      (∀ m, m ≠ o → m ≠ sp.val → t.dev.ibx m = d.ibx m))) ∧
  (∀ (s : State) (w : Sender) (q : Fin 4) (v : Word), s.dev.takesLate (writerOf w) (QPWR_IBXRST q) = true → v &&& 0xFFFF = v →
    ∃ u t, exec (.ibexReset w q v) s = .next u ∧ lands s u t ∧
      (∀ k < 16, bitAt v.toNat k = true → t.dev.ibx (16 * q + k) = { prog := (s.dev.ibx (16 * q + k)).prog } ∧
        ∀ j < 32, t.dev.word (IBX_CTL (16 * q + k) + 4 * j) = resetWord (IBX_CTL (16 * q + k) + 4 * j)) ∧
      (∀ m, m / 16 ≠ q.val ∨ bitAt v.toNat (m % 16) = false → t.dev.ibx m = s.dev.ibx m) ∧
      Frame [.ibxs, .quads, .mc] ((List.range 16).flatMap (fun k => if bitAt v.toNat k = true then
        (List.range 32).map (fun j => whole (IBX_CTL (16 * q + k) + 4 * j)) else [])) s t)

/-- R273, R276 to R279, R299: what the ALU, the multiplier, the look-up and the CRC unit do with the value moved to their trigger ports. The
ALU's result and carry are there at once; a product lands three cycles later and a look-up four, in trigger order; a CRC takes the byte or the
four bytes, most significant first; a look-up in a table of the wrong size, or not wholly in scratch, traps. No trigger touches anything but
its engine. -/
def Obligations.EngineArithmeticUnits : Prop :=
  ∀ (s : State) (e : Fin 8) (v : Word),
    let m := (s.dev.me e).settle s.dev.tick
    let trap (c tv : Nat) : State := { s with dev := (s.dev.modMe e (fun x => x.settle s.dev.tick)).meTrap e c tv (s.dev.get (ME_PC_PC e))
                                                (m.word (s.dev.get (ME_STATUS_IMAGE e)) (s.dev.get (ME_PC_PC e))) }
    let gives (i : Instr) (x : Me) : Prop :=
      ∃ t, exec i s = .next t ∧ t.dev.me e = x ∧ (∀ k, k ≠ e.val → t.dev.me k = s.dev.me k) ∧ Frame [.mes] [] s t
    let alu (i : Instr) (r : Word) (cy : Nat) : Prop := gives i ((m.setPort 0x081 r.toNat).setPort 0x082 cy)
    let a : Word := BitVec.ofNat 32 (m.port 0x080)
    let cy := m.port 0x082
    (m.port 0x080 < 2 ^ 32 → cy ≤ 1 →
      alu (.aluAdd e v) (a + v) ((a.toNat + v.toNat) / 2 ^ 32) ∧
      alu (.aluAddc e v) (a + v + BitVec.ofNat 32 cy) ((a.toNat + v.toNat + cy) / 2 ^ 32) ∧
      alu (.aluSub e v) (a - v) (b2n (decide (a.toNat < v.toNat))) ∧
      alu (.aluSubb e v) (a - v - BitVec.ofNat 32 cy) (b2n (decide (a.toNat < v.toNat + cy))) ∧
      alu (.aluAnd e v) (a &&& v) cy ∧ alu (.aluOr e v) (a ||| v) cy ∧ alu (.aluXor e v) (a ^^^ v) cy ∧
      alu (.aluShl e v) (a <<< (v.toNat % 32)) cy ∧ alu (.aluShr e v) (a >>> (v.toNat % 32)) cy ∧
      alu (.aluSar e v) (a.sshiftRight (v.toNat % 32)) cy ∧
      alu (.aluMin e v) (if a.toInt ≤ v.toInt then a else v) cy ∧ alu (.aluMax e v) (if a.toInt ≤ v.toInt then v else a) cy) ∧
    (m.port 0x090 < 2 ^ 32 →
      gives (.mulT e v) { m with res := m.res ++
        [(s.dev.tick + 6, 0x093, ((BitVec.ofNat 32 (m.port 0x090)).signExtend 64 * v.signExtend 64).toNat % 2 ^ 32),
         (s.dev.tick + 6, 0x094, ((BitVec.ofNat 32 (m.port 0x090)).signExtend 64 * v.signExtend 64).toNat / 2 ^ 32)] } ∧
      gives (.mulTu e v) { m with res := m.res ++
        [(s.dev.tick + 6, 0x093, m.port 0x090 * v.toNat % 2 ^ 32), (s.dev.tick + 6, 0x094, m.port 0x090 * v.toNat / 2 ^ 32)] }) ∧
    (let n := m.port 0x099
     let b := m.port 0x098 / 4 * 4
     let y (i : Nat) : Int := sgn 32 (m.load32 (b + 4 * i))
     let x := v.toInt
     ((n < 2 ∨ 4096 < n) → exec (.lutT e v) s = .next (trap 0x0B v.toNat)) ∧
     (2 ≤ n → n ≤ 4096 → 0x8000 < b + 4 * n → exec (.lutT e v) s = .next (trap 0x06 b)) ∧
     (2 ≤ n → n ≤ 4096 → b + 4 * n ≤ 0x8000 → ∃ r : Int, gives (.lutT e v) { m with res := m.res ++ [(s.dev.tick + 8, 0x09B, uns 32 r)] } ∧
       (x < 0 → r = y 0) ∧ (0 ≤ x → (n : Int) - 1 ≤ x / 65536 → r = y (n - 1)) ∧
       (∀ k : Nat, x / 65536 = k → k + 1 < n → r = y k + ((y (k + 1) - y k) * (x % 65536) + 0x8000) / 65536))) ∧
    gives (.crcB e v) (m.setPort 0x301 (crcByte (m.port 0x300) (m.port 0x301) (v.toNat % 256))) ∧
    gives (.crcW e v) (m.setPort 0x301 (crcByte (m.port 0x300) (crcByte (m.port 0x300) (crcByte (m.port 0x300) (crcByte (m.port 0x300)
      (m.port 0x301) (v.toNat / 2 ^ 24)) (v.toNat / 2 ^ 16 % 256)) (v.toNat / 2 ^ 8 % 256)) (v.toNat % 256))) ∧
    (∀ p c b : Nat, crcByte p c (b % 256) = crcByte p c b) ∧
    ([0x31, 0x32, 0x33, 0x34, 0x35, 0x36, 0x37, 0x38, 0x39].foldl (crcByte 0x1021) 0xFFFF = 0x29B1)

/-- R280 to R284: loads, stores, atomics, AGU accesses and instruction-memory accesses. A scratch load lands two cycles later and a scratch
store is there at once; an access to stacked memory goes to its bank, a load or an atomic stays outstanding until its data arrives, and a
trigger that finds one outstanding waits (what a request meets on the tick on which another port writes its word is R318's); an address that is not aligned, or in neither space, traps. An AGU access is at its pointer, which
then steps by the mode. -/
def Obligations.EngineDataAndInstructionAccess : Prop :=
  ∀ (s : State) (e : Fin 8) (v : Word),
    let d := s.dev.modMe e (fun x => x.settle s.dev.tick)
    let m := (s.dev.me e).settle s.dev.tick
    let trap (c tv : Nat) : State := { s with dev := d.meTrap e c tv (s.dev.get (ME_PC_PC e))
                                                (m.word (s.dev.get (ME_STATUS_IMAGE e)) (s.dev.get (ME_PC_PC e))) }
    let gives (i : Instr) (x : Me) : Prop :=
      ∃ t, exec i s = .next t ∧ t.dev.me e = x ∧ (∀ k, k ≠ e.val → t.dev.me k = s.dev.me k) ∧ Frame [.mes] [] s t
    let asks (i : Instr) (x : Me) (r : MemReq) : Prop :=
      (s.dev.mc.touched.all (fun y => y.tick != s.dev.tick) = true) →
      ∃ t, exec i s = .next t ∧ t.dev.me e = x ∧ t.dev.mc.reqs = s.dev.mc.reqs ++ [r] ∧ t.dev.mc.results = s.dev.mc.results ∧
        (∀ k, k ≠ e.val → t.dev.me k = s.dev.me k) ∧ Frame [.mes, .mc] [] s t
    let waits (i : Instr) : Prop := ∃ t, exec i s = .next t ∧ t.dev.get (ME_STATUS_STATE e) = 3 ∧ Frame [.mes] [ME_STATUS_STATE e] s t
    let inMem (a : Nat) : Prop := 0x10000000 ≤ a ∧ a < 0x14000000
    let stores := (s.dev.mc.reqs.filter (fun r => r.who == .me e && r.kind == 1)).length
    let load (i : Instr) (a : Nat) : Prop :=
      (a % 4 ≠ 0 → exec i s = .next (trap 0x07 a)) ∧ (a % 4 = 0 → 0x8000 ≤ a → ¬ inMem a → exec i s = .next (trap 0x06 a))
    load (.lsuLd e v) v.toNat ∧ load (.lsuSt e v) (m.port 0x0A0) ∧
    (v.toNat % 4 = 0 → m.load.isSome = true → v.toNat < 0x8000 ∨ inMem v.toNat → waits (.lsuLd e v)) ∧
    (v.toNat % 4 = 0 → m.load = none → v.toNat < 0x8000 → gives (.lsuLd e v) { m with res := m.res ++
      [(s.dev.tick + 4, 0x0A2, m.load32 v.toNat), (s.dev.tick + 4, 0x1000, 0)] }) ∧
    (v.toNat % 4 = 0 → m.load = none → inMem v.toNat → asks (.lsuLd e v) { m with load := some (v.toNat, 0) }
      { who := .me e, word := (v.toNat - 0x10000000) / 16, at_ := s.dev.tick }) ∧
    (∀ r a, s.dev.mc.results.find? (fun r => r.who == .me e) = some r → (s.dev.me e).load = some (a, 0) →
      ∃ t, exec (.lsuLoadDataArrive e) s = .next t ∧ (t.dev.me e).load = none ∧ (t.dev.me e).port 0x0A2 = dwordAt r.data a ∧
        (t.dev.me e).port 0x1000 = (if r.err = true then a + 1 else 0) ∧ t.dev.mc.results = removeFirst r s.dev.mc.results ∧
        (∀ k, k ≠ e.val → t.dev.me k = s.dev.me k) ∧ Frame [.mes, .mc] [] s t) ∧
    ((s.dev.me e).load = none → exec (.lsuLoadDataArrive e) s = .next s) ∧
    (m.port 0x0A0 % 4 = 0 →
      (m.port 0x0A0 < 0x8000 → gives (.lsuSt e v) (m.store32 (m.port 0x0A0) v.toNat)) ∧
      (inMem (m.port 0x0A0) → stores < 8 → asks (.lsuSt e v) m
        { who := .me e, kind := 1, word := (m.port 0x0A0 - 0x10000000) / 16, mask := 0xF * 2 ^ ((m.port 0x0A0 - 0x10000000) % 16)
          data := v.toNat * 2 ^ (8 * ((m.port 0x0A0 - 0x10000000) % 16)), at_ := s.dev.tick }) ∧
      (inMem (m.port 0x0A0) → 8 ≤ stores → waits (.lsuSt e v))) ∧
    (inMem (m.port 0x0A0) → m.load = none →
      (m.port 0x0A0 % 4 = 0 →
        asks (.lsuFaa e v) { m with load := some (m.port 0x0A0, 1) }
          { who := .me e, kind := 2, word := (m.port 0x0A0 - 0x10000000) / 16, op := 0, lane := (m.port 0x0A0 - 0x10000000) % 16
            data := v.toNat, at_ := s.dev.tick } ∧
        asks (.lsuSwp e v) { m with load := some (m.port 0x0A0, 3) }
          { who := .me e, kind := 2, word := (m.port 0x0A0 - 0x10000000) / 16, op := 2, lane := (m.port 0x0A0 - 0x10000000) % 16
            data := v.toNat, at_ := s.dev.tick }) ∧
      (m.port 0x0A0 % 8 = 0 →
        asks (.lsuFaa64 e v) { m with load := some (m.port 0x0A0, 2) }
          { who := .me e, kind := 2, word := (m.port 0x0A0 - 0x10000000) / 16, op := 1, lane := (m.port 0x0A0 - 0x10000000) % 16
            data := (v.signExtend 64).toNat, at_ := s.dev.tick })) ∧
    (m.port 0x0A0 < 0x8000 → m.port 0x0A0 % 8 = 0 → exec (.lsuFaa e v) s = .next (trap 0x06 (m.port 0x0A0)) ∧
      exec (.lsuFaa64 e v) s = .next (trap 0x06 (m.port 0x0A0)) ∧ exec (.lsuSwp e v) s = .next (trap 0x06 (m.port 0x0A0))) ∧
    (16383 < v.toNat → exec (.lsuIrd e v) s = .next (trap 0x0A v.toNat)) ∧
    (v.toNat ≤ 16383 → let w := m.word (s.dev.get (ME_STATUS_IMAGE e)) v.toNat
      gives (.lsuIrd e v) { m with res := m.res ++ [(s.dev.tick + 4, 0x0AA, w % 2 ^ 32), (s.dev.tick + 4, 0x0AB, w / 2 ^ 32)] }) ∧
    (16383 < m.port 0x0A8 → exec (.lsuIwr e v) s = .next (trap 0x0A (m.port 0x0A8))) ∧
    (m.port 0x0A8 ≤ 16383 → s.dev.meLocked e = false → gives (.lsuIwr e v)
      (m.setImg (1 - s.dev.get (ME_STATUS_IMAGE e)) (m.port 0x0A8) (m.port 0x0AC * 2 ^ 32 + v.toNat))) ∧
    (m.port 0x0A8 ≤ 16383 → s.dev.meLocked e = true → exec (.lsuIwr e v) s = .next { s with dev := d.put (ME_STATUS_REFUSED e) 1 }) ∧
    (∀ (k : Fin 8) (n : Nat), let p := m.port (0x0B0 + k)
      (s.dev.aguStep e k p = none → exec (.aguLd e k v) s = .next (trap 0x0B v.toNat) ∧ exec (.aguSt e k v) s = .next (trap 0x0B v.toNat)) ∧
      (s.dev.aguStep e k p = some n → p % 4 = 0 → p < 0x8000 →
        (m.load = none → gives (.aguLd e k v) ({ m with res := m.res ++
          [(s.dev.tick + 4, 0x0A2, m.load32 p), (s.dev.tick + 4, 0x1000, 0)] }.setPort (0x0B0 + k) n)) ∧
        gives (.aguSt e k v) ((m.store32 p v.toNat).setPort (0x0B0 + k) n)) ∧
      (s.dev.get (AGU_CFG_MODE e k) = 0 → p < 2 ^ 32 →
        s.dev.aguStep e k p = some (BitVec.ofNat 32 p + 4 * (BitVec.ofNat 14 (s.dev.get (AGU_CFG_STEP e k))).signExtend 32 : Word).toNat) ∧
      (let b := s.dev.get (AGU_BASE_BASE e k) * 4
       let l := s.dev.get (AGU_LEN_LEN e k) * 4
       let st := sgn 14 (s.dev.get (AGU_CFG_STEP e k))
       (s.dev.get (AGU_CFG_MODE e k) = 1 → l = 0 → s.dev.aguStep e k p = none) ∧
       (s.dev.get (AGU_CFG_MODE e k) = 1 → l ≠ 0 → b + l ≤ 2 ^ 32 →
         s.dev.aguStep e k p = some ((b : Int) + ((p : Int) - b + 4 * st) % l).toNat) ∧
       (∀ j w : Nat, s.dev.get (AGU_CFG_MODE e k) = 2 → l = 4 * 2 ^ j → b % l = 0 → w < 2 ^ j → p = b + 4 * w → b + l ≤ 2 ^ 32 →
         s.dev.aguStep e k p = some (b + 4 * revBits j (((revBits j w : Int) + st) % (2 ^ j : Int)).toNat)))) ∧
    (∀ j w i : Nat, i < j → bitAt (revBits j w) i = bitAt w (j - 1 - i))

/-- R275, R291 to R298: jumps, calls, returns, repeats, waits, sleeps and traps. A jump sends PC to its target two cycles after the issue and
a return three; a call stores its return address below the stack pointer and a return takes it from there, each inside its limits; a repeat
sets the count of the next word; a wait ends at its tick and a sleep with a record or a selected event; a trap saves where and why and goes to
VEC, and a trap in a handler stops the engine. -/
def Obligations.EngineControlFlowAndTraps : Prop :=
  ∀ (s : State) (e : Fin 8) (v : Word),
    let d := s.dev.modMe e (fun x => x.settle s.dev.tick)
    let m := (s.dev.me e).settle s.dev.tick
    let pc := s.dev.get (ME_PC_PC e)
    let trap (c tv : Nat) : State := { s with dev := d.meTrap e c tv pc (m.word (s.dev.get (ME_STATUS_IMAGE e)) pc) }
    let sp := m.port 0x0DA
    let jumps (i : Instr) (x : Me) (a cost : Nat) (fs : List Fld) : Prop :=
      ∃ t, exec i s = .next t ∧ t.dev.get (ME_PC_PC e) = a ∧ t.dev.me e = { x with next := s.dev.tick + 2 * cost } ∧
        (∀ k, k ≠ e.val → t.dev.me k = s.dev.me k) ∧ Frame [.mes] (ME_PC_PC e :: fs) s t
    jumps (.brT e v) m (v.toNat % 16384) 2 [] ∧
    (∃ t, exec (.sysEret e v) s = .next t ∧ t.dev.get (ME_STATUS_INTRAP e) = 0) ∧ jumps (.sysEret e v) m (v.toNat % 16384) 2 [ME_STATUS_INTRAP e] ∧
    ((sp : Int) - 4 < m.port 0x0DB → exec (.callT e v) s = .next (trap 0x08 sp)) ∧
    (m.port 0x0DB + 4 ≤ sp → sp % 4 = 0 → sp - 4 < 0x8000 →
      jumps (.callT e v) ((m.setPort 0x0DA (sp - 4)).store32 (sp - 4) (pc + 1)) (v.toNat % 16384) 2 []) ∧
    (m.port 0x0DC ≤ sp → exec (.callRet e v) s = .next (trap 0x09 sp)) ∧
    (sp < m.port 0x0DC → sp % 4 = 0 → sp < 0x8000 →
      (16383 < m.load32 sp → exec (.callRet e v) s = .next (trap 0x0A (m.load32 sp))) ∧
      (m.load32 sp ≤ 16383 → jumps (.callRet e v) (m.setPort 0x0DA (sp + 4)) (m.load32 sp) 3 [])) ∧
    ((v = 0 ∨ 65536 < v.toNat) → exec (.repT e v) s = .next (trap 0x0B v.toNat)) ∧
    (v ≠ 0 → v.toNat ≤ 65536 → ∃ t, exec (.repT e v) s = .next t ∧
      t.dev.me e = (if m.rep = 0 then { m with rep := v.toNat } else m.setPort 0x0E2 v.toNat) ∧ Frame [.mes] [] s t) ∧
    (let came := (s.dev.now + 2 ^ 32 - v.toNat) % 2 ^ 32 < 2 ^ 31
     (came → exec (.timeWait e v) s = .next { s with dev := d }) ∧
     (¬ came → ∃ t, exec (.timeWait e v) s = .next t ∧ t.dev.get (ME_STATUS_STATE e) = 3 ∧ (t.dev.me e).waitFor = some v.toNat ∧
        Frame [.mes] [ME_STATUS_STATE e] s t)) ∧
    (∀ a : Word, (s.dev.me e).waitFor = some a.toNat → s.dev.meUp e = true → s.dev.get (ME_STATUS_STATE e) = 3 → s.dev.now % 2 = 0 →
      (s.dev.me e).next ≤ s.dev.tick →
      ((s.dev.now + 2 ^ 32 - a.toNat) % 2 ^ 32 < 2 ^ 31 → ∃ t, exec (.timeWaitExpire e) s = .next t ∧ t.dev.get (ME_STATUS_STATE e) = 1 ∧
        (t.dev.me e).next = s.dev.tick ∧ (t.dev.me e).waitFor = none ∧ Frame [.mes] [ME_STATUS_STATE e] s t) ∧
      (2 ^ 31 ≤ (s.dev.now + 2 ^ 32 - a.toNat) % 2 ^ 32 → exec (.timeWaitExpire e) s = .next s)) ∧
    (65536 ≤ v.toNat → exec (.timeSlp e v) s = .next (trap 0x0B v.toNat)) ∧
    (v.toNat < 65536 → (m.recs ≠ [] ∨ m.events &&& v.toNat ≠ 0) → exec (.timeSlp e v) s = .next { s with dev := d }) ∧
    (v.toNat < 65536 → m.recs = [] → m.events &&& v.toNat = 0 → ∃ t, exec (.timeSlp e v) s = .next t ∧
      t.dev.get (ME_STATUS_STATE e) = 2 ∧ (t.dev.me e).sleepFor = v.toNat ∧ Frame [.mes] [ME_STATUS_STATE e] s t) ∧
    (s.dev.meUp e = true → s.dev.get (ME_STATUS_STATE e) = 2 →
      (((s.dev.me e).recs ≠ [] ∨ (s.dev.me e).events &&& ((s.dev.me e).sleepFor % 65536) ≠ 0) →
        ∃ t, exec (.meSleepWake e) s = .next t ∧ t.dev.get (ME_STATUS_STATE e) = 1 ∧ (t.dev.me e).next = s.dev.evenTick (s.dev.tick + 2) ∧
          Frame [.mes] [ME_STATUS_STATE e] s t) ∧
      ((s.dev.me e).recs = [] → (s.dev.me e).events &&& ((s.dev.me e).sleepFor % 65536) = 0 → exec (.meSleepWake e) s = .next s)) ∧
    (∃ t, exec (.timeLoRead e) s = .next t ∧ t.dev.out = s.dev.out ++ [.ioData e 0x0F0 (BitVec.ofNat 32 s.dev.now)] ∧
      t.dev.me e = (s.dev.me e).setPort 0x0F1 (s.dev.now / 2 ^ 32) ∧ Frame [.mes, .out] [] s t) ∧
    exec (.sysTrap e v) s = .next (trap 0x11 v.toNat) ∧
    (∀ c tv : Nat, c < 256 → tv < 2 ^ 32 → let t := trap c tv
      t.dev.get (ME_EPC_EPC e) = pc ∧ t.dev.get (ME_STATUS_INTRAP e) = 1 ∧ t.dev.get (ME_STATUS_TRAPPED e) = 1 ∧
      t.dev.get (ME_CAUSE_TRAPCNT e) = min (s.dev.get (ME_CAUSE_TRAPCNT e) + 1) (2 ^ 16 - 1) ∧ (t.dev.me e).rep = 0 ∧
      (t.dev.me e).port 0x0E2 = 0 ∧
      (s.dev.flag (ME_STATUS_INTRAP e) = false → t.dev.get (ME_CAUSE_CAUSE e) = c ∧ t.dev.get (ME_TVAL_TVAL e) = tv ∧
        t.dev.get (ME_PC_PC e) = s.dev.get (ME_VEC_VEC e) ∧ t.dev.get (ME_STATUS_STATE e) = 1 ∧ (t.dev.me e).next = s.dev.tick + 4 ∧
        Frame [.mes, .quads] [ME_EPC_EPC e, whole (ME_CAUSE e), whole (ME_TVAL e), ME_STATUS_INTRAP e, ME_STATUS_TRAPPED e, ME_PC_PC e,
          ME_STATUS_STATE e] s t) ∧
      (s.dev.flag (ME_STATUS_INTRAP e) = true → t.dev.get (ME_CAUSE_CAUSE e) = 0x12 ∧ t.dev.get (ME_TVAL_TVAL e) = c ∧
        t.dev.get (ME_STATUS_STATE e) = 5 ∧ t.dev.get (ME_PC_PC e) = pc) ∧
      ((s.dev.quad (e / 2)).pend = [] → ∃ p, (t.dev.quad (e / 2)).pend = [p] ∧ p.source = 0x150 + e % 2 ∧ p.r.typ = 9 ∧ p.r.src = e ∧
        p.r.sub = t.dev.get (ME_CAUSE_CAUSE e) ∧ p.r.p0 = t.dev.get (ME_TVAL_TVAL e) ∧
        p.r.p1 = m.word (s.dev.get (ME_STATUS_IMAGE e)) pc % 2 ^ 32 ∧ p.r.p2 = m.word (s.dev.get (ME_STATUS_IMAGE e)) pc / 2 ^ 32 ∧
        p.r.p3 = pc * 2 ^ 17 + m.rep % 2 ^ 17))

/-- R285 to R290, R300: the I/O, Coach and record ports, the bit space and the transposer. An I/O access reaches its block four ticks after
the issue; a Coach request is offered to the slice and its result queued; REC.t takes the oldest record; a bit of a block changes two ticks
after the issue, a semaphore at the end of the issue's tick, a private bit at once, and test-and-set gives the old value; the transposer turns 32 rows into 32 columns; an
access that a rule forbids traps. -/
def Obligations.EnginePortsAndBitSpace : Prop :=
  ∀ (s : State) (e : Fin 8) (v : Word),
    let d := s.dev.modMe e (fun x => x.settle s.dev.tick)
    let m := (s.dev.me e).settle s.dev.tick
    let pc := s.dev.get (ME_PC_PC e)
    let trap (c tv : Nat) : State := { s with dev := d.meTrap e c tv pc (m.word (s.dev.get (ME_STATUS_IMAGE e)) pc) }
    let gives (i : Instr) (x : Me) : Prop :=
      ∃ t, exec i s = .next t ∧ t.dev.me e = x ∧ (∀ k, k ≠ e.val → t.dev.me k = s.dev.me k) ∧ Frame [.mes] [] s t
    let io (i : Instr) (a : Nat) (x : MeIo) : Prop :=
      ((a % 4 ≠ 0 ∨ 0x7FFC < a) → exec i s = .next (trap 0x0E a)) ∧
      (a % 4 = 0 → a ≤ 0x7FFC → gives i { m with io := m.io ++ [(s.dev.tick + 4, x)] })
    let a := v.toNat % 65536
    io (.ioWr e v) (m.port 0x100) (.wr (m.port 0x100) v) ∧ io (.ioRd e v) v.toNat (.rd v.toNat) ∧
    (4 ≤ m.coachOut → ∃ t, exec (.coachPortInsert e) s = .next t ∧ t.dev.get (ME_STATUS_STATE e) = 3 ∧ Frame [.mes] [ME_STATUS_STATE e] s t) ∧
    (m.coachOut < 4 → let en := Entry.of (m.port 0x111 * 2 ^ 32 + m.port 0x110) (m.port 0x113 * 2 ^ 32 + m.port 0x112)
      (en.bad false = false → ∃ t, exec (.coachPortInsert e) s = .next t ∧ (t.dev.me e).coachOut = m.coachOut + 1 ∧
        (t.dev.slice (e / 2)).offers = (s.dev.slice (e / 2)).offers ++ [{ who := .port e, e := en }] ∧ Frame [.mes, .slices] [] s t) ∧
      (en.bad false = true → gives (.coachPortInsert e) { m with coachOut := m.coachOut + 1, coachDone := m.coachDone ++ [(1, 0)] }) ∧
      (en.ktype ≤ 1 → exec (.coachPortCancel e) s = .next { s with
        dev := (d.modMe e (fun x => { x with coachOut := x.coachOut + 1 })).cancelStart (e / 2) (.port e) en.tag (en.ktype == 1) en.axis }) ∧
      (1 < en.ktype → gives (.coachPortCancel e) { m with coachOut := m.coachOut + 1, coachDone := m.coachDone ++ [(1, 0)] })) ∧
    (∀ r l, (s.dev.me e).coachDone = r :: l →
      ((s.dev.me e).coachRes.length < 4 → ∃ t, exec (.coachRequestDone e) s = .next t ∧ t.dev.me e = { s.dev.me e with
        coachDone := l, coachOut := (s.dev.me e).coachOut - 1, coachRes := (s.dev.me e).coachRes ++ [r] } ∧ Frame [.mes] [] s t) ∧
      (4 ≤ (s.dev.me e).coachRes.length → ∃ t, exec (.coachRequestDone e) s = .next t ∧ t.dev.me e = { s.dev.me e with
        coachDone := l, coachOut := (s.dev.me e).coachOut - 1, coachLost := true } ∧ t.dev.get (ME_STATUS_COACHLOST e) = 1 ∧
        Frame [.mes] [ME_STATUS_COACHLOST e] s t)) ∧
    ((s.dev.me e).coachDone = [] → exec (.coachRequestDone e) s = .next s) ∧
    (∀ r l, (s.dev.me e).coachRes = r :: l → ∃ t, exec (.coachStRead e) s = .next t ∧ (t.dev.me e).coachRes = l ∧
      t.dev.out = s.dev.out ++ [.ioData e 0x115 (BitVec.ofNat 32
        (2 ^ 31 + b2n (s.dev.me e).coachLost * 2 ^ 30 + (r.2 % 65536) * 2 ^ 8 + r.1))] ∧ Frame [.mes, .out] [] s t) ∧
    ((s.dev.me e).coachRes = [] → ∃ t, exec (.coachStRead e) s = .next t ∧ t.dev.out = s.dev.out ++ [.ioData e 0x115 0] ∧
      t.dev.me e = s.dev.me e ∧ Frame [.mes, .out] [] s t) ∧
    (∃ t, exec (.recT e v) s = .next t ∧
      (∀ k < 8, (s.dev.tick + 4, 0x120 + k, (m.recs.head?.getD []).getD k 0) ∈ (t.dev.me e).res) ∧
      ((Tab.get (0, 0, 0) s.dev.ru.meLost e).1 = 0 → (t.dev.me e).recs = m.recs.drop 1) ∧
      (∀ k, k ≠ e.val → t.dev.me k = s.dev.me k) ∧ Frame [.mes, .ru] [] s t) ∧
    gives (.bitMap e v) (m.setPort (0x2000 + bits v.toNat 16 5) a) ∧
    ((bitAccess a = .none ∨ bitAccess a = .ro) →
      exec (.bitSet e v) s = .next (trap 0x0D a) ∧ exec (.bitClr e v) s = .next (trap 0x0D a)) ∧
    (bitAccess a ≠ .none → bitAccess a ≠ .ro → a < 0x1000 →
      gives (.bitSet e v) { m with io := m.io ++ [(s.dev.tick + 2, .bit a true)] } ∧
      gives (.bitClr e v) { m with io := m.io ++ [(s.dev.tick + 2, .bit a false)] }) ∧
    (0x1000 ≤ a → a < 0x2000 →
      gives (.bitSet e v) { m with io := m.io ++ [(s.dev.tick, .sem a true)] } ∧
      gives (.bitClr e v) { m with io := m.io ++ [(s.dev.tick, .sem a false)] } ∧
      gives (.bitTas e v) { m with io := m.io ++ [(s.dev.tick, .tas a)] } ∧
      (∀ k, Tab.get false ((s.dev.ioAct e s.dev.tick (.tas a)).quad (e / 2)).sems k =
        (k == a - 0x1000 || Tab.get false (s.dev.quad (e / 2)).sems k)) ∧
      ((s.dev.ioAct e s.dev.tick (.tas a)).me e).port 0x066 = b2n (Tab.get false (s.dev.quad (e / 2)).sems (a - 0x1000)) ∧
      (∀ b k, Tab.get false ((s.dev.ioAct e s.dev.tick (.sem a b)).quad (e / 2)).sems k =
        if k = a - 0x1000 then b else Tab.get false (s.dev.quad (e / 2)).sems k)) ∧
    (0x8000 ≤ a → ∀ i b, (i = .bitSet e v ∧ b = true ∨ i = .bitClr e v ∧ b = false ∨ i = .bitTas e v ∧ b = true) →
      ∃ t, exec i s = .next t ∧ (∀ k, 0x8000 ≤ k → k < 0x10000 → t.dev.meBit e 0 k = if k = a then b else s.dev.meBit e 0 k) ∧
        (i = .bitTas e v → (t.dev.me e).port 0x066 = b2n (s.dev.meBit e 0 a)) ∧ Frame [.mes] [] s t) ∧
    (a < 0x1000 → exec (.bitTas e v) s = .next (trap 0x0D a)) ∧
    (32 ≤ m.fill.length → exec (.xpIn e v) s = .next (trap 0x10 m.xpSt)) ∧
    (m.fill.length < 31 → gives (.xpIn e v) { m with fill := m.fill ++ [v.toNat] }) ∧
    (m.fill.length = 31 → m.drain = [] → m.swapAt = none →
      gives (.xpIn e v) { m with fill := m.fill ++ [v.toNat], swapAt := some (s.dev.tick + 4) }) ∧
    (∀ c r, (s.dev.me e).drain = c :: r → (r ≠ [] ∨ (s.dev.me e).fill.length < 32) → ∃ t, exec (.xpOutRead e) s = .next t ∧
      t.dev.out = s.dev.out ++ [.ioData e 0x311 (BitVec.ofNat 32 c)] ∧ t.dev.me e = { s.dev.me e with drain := r } ∧ Frame [.mes, .out] [] s t) ∧
    ((s.dev.me e).drain = [] → exec (.xpOutRead e) s = .next { s with
      dev := s.dev.meTrap e 0x10 (s.dev.me e).xpSt pc ((s.dev.me e).word (s.dev.get (ME_STATUS_IMAGE e)) pc) }) ∧
    gives (.xpClr e v) { m with fill := [], drain := [], swapAt := none } ∧
    (∀ t0, (s.dev.me e).swapAt = some t0 → t0 ≤ s.dev.tick → (s.dev.me e).fill.length = 32 → ∃ t, exec (.xpBankSwap e) s = .next t ∧
      (t.dev.me e).fill = [] ∧ (t.dev.me e).drain.length = 32 ∧
      (∀ i < 32, ∀ j < 32, bitAt ((t.dev.me e).drain.getD j 0) i = bitAt ((s.dev.me e).fill.getD i 0) j) ∧ Frame [.mes] [] s t) ∧
    ((s.dev.me e).swapAt = none → ∃ t, exec (.xpBankSwap e) s = .next t ∧ (∀ k, t.dev.me k = s.dev.me k) ∧ Frame [.mes] [] s t)

/-- R266 to R275, R301: the words of a program. The word at PC issues where the engine runs on an even tick, in its format; it reads its
sources before it writes its destinations, register ports before triggers; a word that does not redirect moves PC on, and a compare-and-branch
goes to PC + DISP where its condition holds; a slot that moves G0 into G0 has no effect; a word that a rule of the formats or ports forbids traps with none of its effect. -/
def Obligations.EngineWordsIssueAndTrap : Prop :=
  (∀ (s : State) (e : Fin 8) (lanes : Lanes),
    let d := s.dev.modMe e (fun x => x.settle s.dev.tick)
    let m := (s.dev.me e).settle s.dev.tick
    let pc := s.dev.get (ME_PC_PC e)
    let w := m.word (s.dev.get (ME_STATUS_IMAGE e)) pc
    let trap (c tv : Nat) : State := { s with dev := d.meTrap e c tv pc w }
    (s.dev.meIssues e = false → exec (.meTwoMoveWord e lanes) s = .next s ∧ exec (.meCompareBranch e lanes) s = .next s ∧
      exec (.meLongImmediate e lanes) s = .next s) ∧
    (s.dev.meIssues e = true ↔ s.dev.meUp e = true ∧ (s.dev.me e).stopping = false ∧ (s.dev.me e).next ≤ s.dev.tick ∧ s.dev.now % 2 = 0 ∧
      (s.dev.get (ME_STATUS_STATE e) = 1 ∨ (s.dev.get (ME_STATUS_STATE e) = 3 ∧ (s.dev.me e).waitFor = none))) ∧
    (s.dev.meIssues e = true → s.dev.get (ME_STATUS_STATE e) = 1 → w < 2 ^ 64 →
      (w / 2 ^ 62 = 3 → exec (.meTwoMoveWord e lanes) s = .next (trap 0x01 (w / 2 ^ 32))) ∧
      (w / 2 ^ 62 = 0 → (slotOf (bits w 31 31) = none ∨ slotOf (bits w 0 31) = none) →
        exec (.meTwoMoveWord e lanes) s = .next (trap 0x01 (w / 2 ^ 32))) ∧
      (∀ a b, w / 2 ^ 62 = 0 → slotOf (bits w 31 31) = some a → slotOf (bits w 0 31) = some b →
        (∀ c tv, movesTrap [a, b] (decide (0 < m.rep)) = some (c, tv) → exec (.meTwoMoveWord e lanes) s = .next (trap c tv)) ∧
        (∀ ra rb, a.src = .inl ra → b.src = .inl rb → ra < 0x40 → rb < 0x40 → a.dst < 0x40 → b.dst < 0x40 → a.dst ≠ b.dst → a.noop = false → b.noop = false → m.rep = 0 →
          pc < 16383 →
          ∃ t, exec (.meTwoMoveWord e lanes) s = .next t ∧ (t.dev.me e).port a.dst = m.port ra % 2 ^ 32 ∧
            (t.dev.me e).port b.dst = m.port rb % 2 ^ 32 ∧ (∀ p, p ≠ a.dst → p ≠ b.dst → (t.dev.me e).port p = m.port p) ∧
            t.dev.get (ME_PC_PC e) = pc + 1 ∧ (t.dev.me e).next = s.dev.tick + 2 ∧ Frame [.mes] [ME_PC_PC e] s t) ∧
        (∀ ra, a.src = .inl ra → ra < 0x40 → a.dst < 0x40 → a.noop = false → b = ⟨0, .inl 0⟩ → m.rep = 0 → pc < 16383 →
          ∃ t, exec (.meTwoMoveWord e lanes) s = .next t ∧ (t.dev.me e).port a.dst = m.port ra % 2 ^ 32 ∧
            (∀ p, p ≠ a.dst → (t.dev.me e).port p = m.port p) ∧ t.dev.get (ME_PC_PC e) = pc + 1 ∧ Frame [.mes] [ME_PC_PC e] s t) ∧
        (∀ ra, a = ⟨0x080, .inl ra⟩ → ra < 0x40 → ∀ k, b = ⟨0x083, .inr k⟩ → m.rep = 0 → pc < 16383 →
          ∃ t, exec (.meTwoMoveWord e lanes) s = .next t ∧ (t.dev.me e).port 0x081 = (m.port ra % 2 ^ 32 + k) % 2 ^ 32 ∧
            (t.dev.me e).port 0x080 = m.port ra % 2 ^ 32 ∧ t.dev.get (ME_PC_PC e) = pc + 1 ∧ Frame [.mes] [ME_PC_PC e] s t)) ∧
      (w / 2 ^ 62 = 2 → bits w 32 20 ≠ 0 → exec (.meLongImmediate e lanes) s = .next (trap 0x01 (w / 2 ^ 32))) ∧
      (w / 2 ^ 62 = 2 → bits w 32 20 = 0 → bits w 52 10 < 0x40 → m.rep = 0 → pc < 16383 →
        ∃ t, exec (.meLongImmediate e lanes) s = .next t ∧ (t.dev.me e).port (bits w 52 10) = bits w 0 32 ∧
          (∀ p, p ≠ bits w 52 10 → (t.dev.me e).port p = m.port p) ∧ t.dev.get (ME_PC_PC e) = pc + 1 ∧ Frame [.mes] [ME_PC_PC e] s t) ∧
      (w / 2 ^ 62 = 2 → bits w 32 20 = 0 → bits w 52 10 < 0x40 → m.rep = 0 → pc = 16383 →
        exec (.meLongImmediate e lanes) s = .next (trap 0x0A 16384)) ∧
      (w / 2 ^ 62 = 1 →
        ((8 < bits w 58 4 ∨ (bitAt w 47 = false ∧ bits w 27 10 ≠ 0) ∨ bits w 20 7 ≠ 0) →
          exec (.meCompareBranch e lanes) s = .next (trap 0x01 (w / 2 ^ 32))) ∧
        (bits w 58 4 ≤ 8 → bitAt w 47 = true → bits w 20 7 = 0 → bits w 48 10 < 0x40 → 0 < m.rep →
          exec (.meCompareBranch e lanes) s = .next (trap 0x0C 0)) ∧
        (bits w 58 4 ≤ 8 → bitAt w 47 = true → bits w 20 7 = 0 → bits w 48 10 < 0x40 → m.rep = 0 →
          let va := m.port (bits w 48 10)
          let vb := uns 32 (sgn 20 (bits w 27 20))
          let tgt : Int := (pc : Int) + sgn 20 (bits w 0 20)
          (meCond (bits w 58 4) va vb = some true → 0 ≤ tgt → tgt ≤ 16383 → ∃ t, exec (.meCompareBranch e lanes) s = .next t ∧
            (t.dev.get (ME_PC_PC e) : Int) = tgt ∧ (t.dev.me e).next = s.dev.tick + 4 ∧ Frame [.mes] [ME_PC_PC e] s t) ∧
          (meCond (bits w 58 4) va vb = some true → (tgt < 0 ∨ 16383 < tgt) →
            exec (.meCompareBranch e lanes) s = .next (trap 0x0A (uns 32 tgt))) ∧
          (meCond (bits w 58 4) va vb = some false → pc < 16383 → ∃ t, exec (.meCompareBranch e lanes) s = .next t ∧
            t.dev.get (ME_PC_PC e) = pc + 1 ∧ (t.dev.me e).next = s.dev.tick + 2 ∧ Frame [.mes] [ME_PC_PC e] s t))))) ∧
  (∀ a b : Word, meCond 0 a.toNat b.toNat = some (a == b) ∧ meCond 1 a.toNat b.toNat = some (a != b) ∧ meCond 2 a.toNat b.toNat = some (a.slt b) ∧
    meCond 3 a.toNat b.toNat = some (!a.slt b) ∧ meCond 4 a.toNat b.toNat = some (a.ult b) ∧ meCond 5 a.toNat b.toNat = some (!a.ult b) ∧
    meCond 6 a.toNat b.toNat = some (a &&& b != 0) ∧ meCond 7 a.toNat b.toNat = some (a &&& b == 0) ∧ meCond 8 a.toNat b.toNat = some true) ∧
  (∀ (p q : Nat) (v w : Nat ⊕ Nat) (inside : Bool),
    (portKind p = .absent → movesTrap [⟨p, v⟩, ⟨0, .inl 0⟩] inside = some (0x03, p)) ∧
    ((portKind p = .undefined ∨ portKind p = .result) → movesTrap [⟨p, v⟩, ⟨0, .inl 0⟩] inside = some (0x02, p)) ∧
    (p < 0x40 → p ≠ 0 → srcTrap v = none → srcTrap w = none → movesTrap [⟨p, v⟩, ⟨p, w⟩] inside = some (0x04, p)) ∧
    (portKind p = .trigger → portKind q = .trigger → p ≠ q → portUnit p = portUnit q → srcTrap v = none → srcTrap w = none →
      movesTrap [⟨p, v⟩, ⟨q, w⟩] inside = some (0x05, q)) ∧
    (portRedirects p = true → srcTrap v = none → movesTrap [⟨p, v⟩, ⟨0, .inl 0⟩] true = some (0x0C, 0)) ∧
    ((portKind p = .undefined ∨ portKind p = .trigger) → srcTrap (.inl p) = some (0x02, p)) ∧ (0x380 ≤ p → portKind p = .absent))

/-- R302 to R304: a start, a stop, a reset, an image word, the cycle count, a debug halt and a resume. A start issues ENTRY on the first even
tick from the next one with the call registers from CALLRST; a stop waits for the word boundary that is under way; a reset stops the engine and clears its registers and result ports but keeps both images, its
scratch, its records and its event bits; a word written through IMDATA_LO goes to IMADDR, which advances, unless its bank is the active one of
an engine that is not stopped, or is locked; a halted engine goes on from where it was. -/
def Obligations.EngineStartResetImageAndHalt : Prop :=
  ∀ (s : State) (w : Sender) (e : Fin 8),
    (∀ v : Word, s.dev.takesLate (writerOf w) (ME_CTL e) = true → (v = 0 ∨ v = 0x80000000) →
      (s.dev.flag (ME_CTL_EN e) = false → s.dev.get (ME_STATUS_STATE e) = 0 → ∃ u t, exec (.meStart w e v) s = .next u ∧ lands s u t ∧
        t.dev.get (ME_CTL_EN e) = 1 ∧ t.dev.get (ME_STATUS_STATE e) = 1 ∧ t.dev.get (ME_STATUS_INTRAP e) = 0 ∧
        t.dev.get (ME_PC_PC e) = s.dev.get (ME_ENTRY_ENTRY e) ∧ (t.dev.me e).port 0x0DA = s.dev.get (ME_CALLRST_BASE e) ∧
        (t.dev.me e).port 0x0DC = s.dev.get (ME_CALLRST_BASE e) ∧ (t.dev.me e).port 0x0DB = s.dev.get (ME_CALLRST_LIM e) ∧
        (t.dev.me e).next = s.dev.evenTick (s.dev.tick + 1) ∧ (t.dev.me e).started = some (s.dev.evenTick (s.dev.tick + 1)) ∧
        (t.dev.me e).img = (s.dev.me e).img ∧ (t.dev.me e).scratch = (s.dev.me e).scratch ∧
        Frame [.mes] [ME_CTL_EN e, ME_STATUS_STATE e, ME_STATUS_INTRAP e, ME_PC_PC e] s t) ∧
      (s.dev.flag (ME_CTL_EN e) = true → ∃ u t, exec (.meStop w e v) s = .next u ∧ lands s u t ∧ t.dev.get (ME_CTL_EN e) = 0 ∧
        (s.dev.get (ME_STATUS_STATE e) = 1 → s.dev.tick + 1 < (s.dev.me e).next → t.dev.get (ME_STATUS_STATE e) = 1 ∧
          (t.dev.me e).stopping = true ∧ (∀ k, k ≠ e.val → t.dev.me k = s.dev.me k) ∧ Frame [.mes] [ME_CTL_EN e] s t) ∧
        ((s.dev.get (ME_STATUS_STATE e) ≠ 1 ∨ (s.dev.me e).next ≤ s.dev.tick + 1) → t.dev.get (ME_STATUS_STATE e) = 0) ∧
        (s.dev.get (ME_STATUS_STATE e) ≠ 4 → Frame [.mes] [ME_CTL_EN e, ME_STATUS_STATE e] s t)) ∧
      (∃ u t, exec (.meEreset w e v) s = .next u ∧ lands s u t ∧ t.dev.get (ME_CTL_EN e) = 0 ∧ t.dev.get (ME_STATUS_STATE e) = 0 ∧
        t.dev.get (ME_STATUS_INTRAP e) = 0 ∧ t.dev.get (ME_EPC_EPC e) = 0 ∧ t.dev.get (ME_CAUSE_CAUSE e) = 0 ∧ t.dev.get (ME_TVAL_TVAL e) = 0 ∧
        (t.dev.me e).started = none ∧ (∀ k < 64, (t.dev.me e).port k = 0) ∧ (∀ k < 8, (t.dev.me e).port (0x0B0 + k) = 0) ∧
        (t.dev.me e).port 0x081 = 0 ∧ (t.dev.me e).port 0x0A2 = 0 ∧ (t.dev.me e).rep = 0 ∧ (t.dev.me e).coachRes = [] ∧
        (t.dev.me e).port 0x0DA = 0x7000 ∧ (t.dev.me e).port 0x0DB = 0x6C00 ∧ (t.dev.me e).port 0x0DC = 0x7000 ∧
        (t.dev.me e).img = (s.dev.me e).img ∧ (t.dev.me e).scratch = (s.dev.me e).scratch ∧ (t.dev.me e).recs = (s.dev.me e).recs ∧
        (t.dev.me e).events = (s.dev.me e).events ∧
        (s.dev.get (ME_STATUS_STATE e) ≠ 4 → (∀ k, k ≠ e.val → t.dev.me k = s.dev.me k) ∧
          Frame [.mes] [ME_CTL_EN e, ME_STATUS_STATE e, ME_STATUS_INTRAP e, ME_EPC_EPC e, ME_CAUSE_CAUSE e, ME_TVAL_TVAL e] s t))) ∧
    (∀ d : Dev, (d.me e).stopping = true → (d.me e).next ≤ d.tick → d.get (ME_STATUS_STATE e) = 1 → (d.meBoundary e).get (ME_STATUS_STATE e) = 0) ∧
    (∀ v : Word, s.dev.takes (writerOf w) (ME_IMDATA_LO e) = true →
      let b := s.dev.get (ME_IMADDR_BANK e)
      let a := s.dev.get (ME_IMADDR_WORD e)
      let open_ := (b = s.dev.get (ME_STATUS_IMAGE e) ∧ s.dev.get (ME_STATUS_STATE e) = 0) ∨ (b ≠ s.dev.get (ME_STATUS_IMAGE e) ∧ s.dev.meLocked e = false)
      (open_ → ∃ t, exec (.meImdataWrite w e v) s = .next t ∧
        (t.dev.me e).word b a = (s.dev.word (ME_IMDATA_HI e)).toNat * 2 ^ 32 + v.toNat ∧
        (∀ x, x ≠ b * 16384 + a → Tab.get 0 (t.dev.me e).img x = Tab.get 0 (s.dev.me e).img x) ∧
        t.dev.get (ME_IMADDR_WORD e) = (a + 1) % 16384 ∧ (∀ k, k ≠ e.val → t.dev.me k = s.dev.me k) ∧
        Frame [.mes] [ME_IMADDR_WORD e, whole (ME_IMDATA_LO e)] s t) ∧
      (¬ open_ → exec (.meImdataWrite w e v) s = .next { s with dev := s.dev.put (ME_STATUS_REFUSED e) 1 })) ∧
    (s.dev.reads w (e / 2) = true → ∃ t, exec (.meCycLoRead w e) s = .next t ∧
      t.dev.out = s.dev.out ++ [answer w (ME_CYC_LO e) (BitVec.ofNat 32 (s.dev.meCycles e))] ∧
      t.dev.word (ME_CYC_HI e) = BitVec.ofNat 32 (s.dev.meCycles e / 2 ^ 32) ∧ Frame [.out] [whole (ME_CYC_HI e)] s t) ∧
    (∀ st, s.dev.get (ME_STATUS_STATE e) = st → (st = 1 ∨ st = 2 ∨ st = 3) → ∃ t, exec (.meDebugHalt e) s = .next t ∧
      t.dev.get (ME_STATUS_STATE e) = 4 ∧ (t.dev.me e).before = st ∧ (t.dev.me e).ports = (s.dev.me e).ports ∧ (t.dev.me e).res = (s.dev.me e).res ∧
      t.dev.get (ME_PC_PC e) = s.dev.get (ME_PC_PC e)) ∧
    (s.dev.get (ME_STATUS_STATE e) = 4 → (s.dev.me e).before ≠ 4 → (s.dev.me e).before < 8 → ∃ t, exec (.meDebugResume e) s = .next t ∧
      t.dev.get (ME_STATUS_STATE e) = (s.dev.me e).before ∧ (t.dev.me e).next = s.dev.evenTick (s.dev.tick + 2) ∧
      t.dev.get (ME_PC_PC e) = s.dev.get (ME_PC_PC e)) ∧
    (s.dev.get (ME_STATUS_STATE e) ≠ 4 → exec (.meDebugResume e) s = .next s)

/-- R34, R35, R36, R57: the reference monitor. A lost input is no longer OK; if it was the one in use and the other is OK the timebase
switches to that one and says so by REF_SWITCHED, a record and a fault-log entry; if neither is OK it holds over. An input that comes back
ends a holdover and is taken in use then; otherwise the switch is not undone, unless REVERT is set and the primary has been good for 1 s. A PRIMARY
that has been written comes into use at the next decision of the monitor, where it is good (the moment is the model's choice, log 50). -/
def Obligations.ReferencesFailOverAndReturn : Prop :=
  ∀ (s : State) (x : Fin 2),
    let ok := s.dev.get TB_STATUS_REF_ACTIVE
    (s.dev.get TB_REFCFG_PRIMARY = s.dev.tb.refPrim →
    (s.dev.flag (refOk x) = false → s.dev.flag (refOk (1 - x.val)) = false ∨ ok ≠ x.val → ∃ t, exec (.refLost x) s = .next t ∧ Frame [.tb] [] s t) ∧
    (s.dev.flag (refOk (1 - x.val)) = true → ok = x.val →
      ∃ t, exec (.refLost x) s = .next t ∧ t.dev.get (refOk x) = 0 ∧ t.dev.get (refOk (1 - x.val)) = 1 ∧
        t.dev.get TB_STATUS_REF_ACTIVE = 1 - x.val ∧ t.dev.get TB_STATUS_REF_SWITCHED = 1 ∧
        s.dev.ru.raised ++ [{ typ := 0x10, sub := 1, orig := 4, at_ := s.dev.stampNow, p0 := 1 - x.val }] <+: t.dev.ru.raised ∧
        (s.dev.flogMerge 0x20 0 = none → s.dev.svc.flBuf.length < 32 → ∃ e, t.dev.svc.flBuf = s.dev.svc.flBuf ++ [e] ∧ e.code = 0x20 ∧
          e.orig = 4 ∧ e.time = s.dev.now ∧ e.d0 = 0 ∧ e.d1 = 1 - x.val) ∧
        Frame [.tb, .ru, .svc] [refOk x, TB_STATUS_REF_ACTIVE, TB_STATUS_REF_SWITCHED, SVC_FLOG_SEQ_SEQ, SVC_FLOG_LOST_CNT] s t) ∧
    (s.dev.flag (refOk x) = true → s.dev.flag (refOk (1 - x.val)) = true → ok ≠ x.val →
      ∃ t, exec (.refLost x) s = .next t ∧ t.dev.get (refOk x) = 0 ∧ Frame [.tb] [refOk x] s t) ∧
    (s.dev.flag (refOk x) = true → s.dev.flag (refOk (1 - x.val)) = false →
      ∃ t, exec (.refLost x) s = .next t ∧ t.dev.get (refOk x) = 0 ∧ t.dev.get TB_STATUS_HOLDOVER = 1 ∧ t.dev.get TB_STATUS_REF_ACTIVE = ok ∧
        s.dev.ru.raised ++ [{ typ := 0x10, sub := 2, orig := 4, at_ := s.dev.stampNow }] <+: t.dev.ru.raised ∧
        Frame [.tb, .ru, .svc] [refOk x, TB_STATUS_HOLDOVER, SVC_FLOG_SEQ_SEQ, SVC_FLOG_LOST_CNT] s t) ∧
    (s.dev.flag (refOk x) = true → exec (.referenceReturn x) s = .next s) ∧
    (s.dev.flag (refOk x) = false → ∃ t, exec (.referenceReturn x) s = .next t ∧ t.dev.get (refOk x) = 1 ∧ t.dev.get TB_STATUS_HOLDOVER = 0 ∧
      Tab.get none t.dev.tb.refGood x = some s.dev.tick ∧
      ((ok = x.val ∨ s.dev.flag (refOk ok) = true) → t.dev.get TB_STATUS_REF_ACTIVE = ok ∧ t.dev.ru = s.dev.ru ∧ t.dev.svc = s.dev.svc) ∧
      (ok ≠ x.val → s.dev.flag (refOk ok) = false → t.dev.get TB_STATUS_REF_ACTIVE = x.val ∧ t.dev.get TB_STATUS_REF_SWITCHED = 1) ∧
      Frame [.tb, .ru, .svc] [refOk x, TB_STATUS_HOLDOVER, TB_STATUS_REF_ACTIVE, TB_STATUS_REF_SWITCHED, SVC_FLOG_SEQ_SEQ, SVC_FLOG_LOST_CNT] s t) ∧
    (∀ n, Tab.get none s.dev.tb.refGood (s.dev.get TB_REFCFG_PRIMARY) = some n →
      ((s.dev.flag TB_REFCFG_REVERT = false ∨ ok = s.dev.get TB_REFCFG_PRIMARY ∨ s.dev.tick < n + msTicks 1000) → exec .refRevert s = .next s) ∧
      (s.dev.flag TB_REFCFG_REVERT = true → ok ≠ s.dev.get TB_REFCFG_PRIMARY → s.dev.flag (refOk (s.dev.get TB_REFCFG_PRIMARY)) = true →
        n + msTicks 1000 ≤ s.dev.tick → ∃ t, exec .refRevert s = .next t ∧ t.dev.get TB_STATUS_REF_ACTIVE = s.dev.get TB_REFCFG_PRIMARY ∧
          t.dev.get TB_STATUS_REF_SWITCHED = 1 ∧
          s.dev.ru.raised ++ [{ typ := 0x10, sub := 1, orig := 4, at_ := s.dev.stampNow, p0 := s.dev.get TB_REFCFG_PRIMARY }] <+: t.dev.ru.raised ∧
          Frame [.ru, .svc] [TB_STATUS_REF_ACTIVE, TB_STATUS_REF_SWITCHED, SVC_FLOG_SEQ_SEQ, SVC_FLOG_LOST_CNT] s t))) ∧
    (let p := s.dev.get TB_REFCFG_PRIMARY
    p ≠ s.dev.tb.refPrim → s.dev.flag (refOk p) = true → ok ≠ p →
      ∃ t, exec .refRevert s = .next t ∧ t.dev.tb.refPrim = p ∧ t.dev.get TB_STATUS_REF_ACTIVE = p ∧ t.dev.get TB_STATUS_REF_SWITCHED = 1 ∧
        s.dev.ru.raised ++ [{ typ := 0x10, sub := 1, orig := 4, at_ := s.dev.stampNow, p0 := p }] <+: t.dev.ru.raised ∧
        Frame [.tb, .ru, .svc] [TB_STATUS_REF_ACTIVE, TB_STATUS_REF_SWITCHED, SVC_FLOG_SEQ_SEQ, SVC_FLOG_LOST_CNT] s t) ∧
    (∀ (f : Fin 4) (v : Word), s.dev.takes (.fn f) TB_REFCFG = true → v &&& 0xF = v →
      ∃ t, exec (.refcfgWrite f v) s = .next t ∧ t.dev.get TB_REFCFG_REVERT = bits v.toNat 3 1 ∧ t.dev.get TB_REFCFG_PRIMARY = bits v.toNat 2 1 ∧
        t.dev.get TB_REFCFG_FREQ = bits v.toNat 0 2 ∧ Frame [] [TB_REFCFG_REVERT, TB_REFCFG_PRIMARY, TB_REFCFG_FREQ] s t)

/-- R30, R37, R39, R49, R516, R222: the two TCLK PLLs. A fault of the driving one, or TB.CTL.SWITCH, opens the switchover window; the changeover
holds TCLK high for one tick, across which STIME advances by one, with STEP, STEPCNT and a STIME_STEP record, changes PLL_ACTIVE and triggers a
recalibration, and what generators have put off for it is done; the failed PLL is the standby again after 10 ms of lock, and without lock for 100 ms the timebase runs on one PLL, which RETRY
can mend; TCLK stops on the failure of that one. -/
def Obligations.PllsSwitchOverRestoreAndStop : Prop :=
  ∀ (s : State),
    let ready : Prop := s.dev.tb.running = true ∧ s.dev.flag TB_STATUS_PLL_SINGLE = false ∧ s.dev.tb.pllDown = none ∧ s.dev.tb.window = none
    (ready ∨ s.dev.tb.window = some true → exec .pllFault s = .next { s with dev := { s.dev with tb := { s.dev.tb with window := some false } } }) ∧
    (¬ ready → s.dev.tb.window ≠ some true → exec .pllFault s = .next s) ∧
    (s.dev.tb.window = none → exec .pllSwitchover s = .next s) ∧
    (∀ c, s.dev.tb.window = some c → ∃ t, exec .pllSwitchover s = .next t ∧ t.dev.tick = s.dev.tick + 1 ∧ t.dev.stime = s.dev.stime + 1 ∧
      t.dev.get TB_STATUS_STEP = 1 ∧ t.dev.get TB_STEPCNT_CNT = (s.dev.get TB_STEPCNT_CNT + 1) % 2 ^ 32 ∧
      t.dev.get TB_STATUS_PLL_ACTIVE = 1 - s.dev.get TB_STATUS_PLL_ACTIVE ∧ t.dev.get TB_STATUS_PLL_SWITCHED = 1 ∧
      (∀ n, n < 256 → (t.dev.fe n).lateCopy = false ∧ (t.dev.fe n).lateImm = false ∧ (t.dev.fe n).lateStarts = []) ∧
      ((∀ n, n < 256 → (s.dev.fe n).lateCopy = false ∧ (s.dev.fe n).lateImm = false ∧ (s.dev.fe n).lateStarts = []) →
      t.dev.tb = { s.dev.tb with window := none, pllDown := if c then none else some s.dev.tick, recals := s.dev.tb.recals ++ [s.dev.tick + 1] } ∧
      (let at_ : Stamp := { time := (s.dev.stime + 1).toNat }
      s.dev.ru.raised ++ [{ typ := 0x10, sub := 0, orig := 4, at_, p0 := s.dev.now % 2 ^ 32, p1 := s.dev.now >>> 32 },
        { typ := 0x10, sub := 3, orig := 4, at_, p0 := 1 - s.dev.get TB_STATUS_PLL_ACTIVE }] <+: t.dev.ru.raised) ∧
      Frame [.tick, .stime, .tb, .ru, .svc, .cmt, .slices]
        [TB_STATUS_STEP, TB_STEPCNT_CNT, TB_STATUS_PLL_ACTIVE, TB_STATUS_PLL_SWITCHED, SVC_FLOG_SEQ_SEQ, SVC_FLOG_LOST_CNT] s t)) ∧
    (s.dev.tb.pllDown = none → exec .pllRestored s = .next s ∧ exec .pllSingle s = .next s) ∧
    (∀ n, s.dev.tb.pllDown = some n →
      (s.dev.tick < n + 8000000 → exec .pllRestored s = .next s) ∧ (s.dev.tick < n + 80000000 → exec .pllSingle s = .next s) ∧
      (n + 8000000 ≤ s.dev.tick → ∃ t, exec .pllRestored s = .next t ∧ t.dev.tb = { s.dev.tb with pllDown := none } ∧
        t.dev.get TB_STATUS_PLL_SINGLE = 0 ∧ Frame [.tb] [TB_STATUS_PLL_SINGLE] s t) ∧
      (n + 80000000 ≤ s.dev.tick → ∃ t, exec .pllSingle s = .next t ∧ t.dev.tb = { s.dev.tb with pllDown := none } ∧
        t.dev.get TB_STATUS_PLL_SINGLE = 1 ∧
        (s.dev.flag TB_STATUS_PLL_SINGLE = false → s.dev.ru.raised ++ [{ typ := 0x10, sub := 4, orig := 4, at_ := s.dev.stampNow }] <+: t.dev.ru.raised) ∧
        (s.dev.flogMerge 0x21 0 = none → s.dev.svc.flBuf.length < 32 → ∃ e, t.dev.svc.flBuf = s.dev.svc.flBuf ++ [e] ∧ e.code = 0x21 ∧
          e.d0 = 1 ∧ e.d1 = s.dev.get TB_STATUS_PLL_ACTIVE) ∧
        Frame [.tb, .ru, .svc] [TB_STATUS_PLL_SINGLE, SVC_FLOG_SEQ_SEQ, SVC_FLOG_LOST_CNT] s t)) ∧
    (let last : Prop := s.dev.tb.running = true ∧ (s.dev.flag TB_STATUS_PLL_SINGLE = true ∨ s.dev.tb.pllDown ≠ none)
    (¬ last → exec .tclkStop s = .next s) ∧
    (last → ∃ t, exec .tclkStop s = .next t ∧ t.dev.tb = { s.dev.tb with running := false } ∧ t.dev.get TB_STATUS_TCLK_LOCK = 0 ∧
      t.dev.get SVC_CLKSTAT_TCLK_LOST = 1 ∧ t.dev.stime = s.dev.stime ∧
      (∃ r ∈ t.dev.ru.raised, r.typ = 0x14 ∧ r.sub = 0x06 ∧ r.orig = 4) ∧
      Frame [.tb, .ru, .svc] [TB_STATUS_TCLK_LOCK, SVC_CLKSTAT_TCLK_LOST, SVC_FLOG_SEQ_SEQ, SVC_FLOG_LOST_CNT] s t)) ∧
    (∀ f : Fin 4, s.dev.takesLate (.fn f) TB_CTL = true →
      (ready → (∃ u, exec (.tbSwitch f) s = .next u ∧ lands s u { s with dev := { s.dev with tb := { s.dev.tb with window := some true } } })) ∧
      (¬ ready → (∃ u, exec (.tbSwitch f) s = .next u ∧ lands s u s)) ∧
      (s.dev.flag TB_STATUS_PLL_SINGLE = true → s.dev.tb.pllDown = none →
        (∃ u, exec (.tbRetry f) s = .next u ∧ lands s u { s with dev := { s.dev with tb := { s.dev.tb with pllDown := some s.dev.tick } } })) ∧
      (s.dev.flag TB_STATUS_PLL_SINGLE = false ∨ s.dev.tb.pllDown ≠ none → (∃ u, exec (.tbRetry f) s = .next u ∧ lands s u s)) ∧
      (∃ u, exec (.tbRecal f) s = .next u ∧ lands s u { s with dev := { s.dev with tb := { s.dev.tb with recals := s.dev.tb.recals ++ [s.dev.tick] } } })) ∧
    (∀ f : Fin 4, s.dev.tb.running = false → s.dev.takes (.fn f) TB_CTL = true →
      exec (.tbSwitch f) s = .next s ∧
      (s.dev.flag TB_STATUS_PLL_SINGLE = true → s.dev.tb.pllDown = none →
        exec (.tbRetry f) s = .next { s with dev := { s.dev with tb := { s.dev.tb with pllDown := some s.dev.tick } } }) ∧
      (s.dev.flag TB_STATUS_PLL_SINGLE = false ∨ s.dev.tb.pllDown ≠ none → exec (.tbRetry f) s = .next s) ∧
      exec (.tbRecal f) s = .next { s with dev := { s.dev with tb := { s.dev.tb with recals := s.dev.tb.recals ++ [s.dev.tick] } } })

/-- R29, R30, R32, R40 to R42, R52: STIME starts at 0 on TCLK lock; a read of STIME_LO latches the high half; a master or relay sends the frame
of the next epoch boundary; a slave or relay measures the error of a frame, shows it, steps STIME by the whole ticks of it while it is not
locked and the error exceeds 64 fine steps, locks on the sixteenth consecutive epoch within two, and drops the lock on the third
consecutive one beyond 64, consecutive meaning that each frame announces the epoch after the last one; without a frame for three epochs the lock
is lost and the steering held; TB.ACLK_RATIO takes a measurement in RUN. -/
def Obligations.StimeStartsAlignsAndIsRead : Prop :=
  ∀ (s : State),
    (s.dev.tb.running = true → exec .tclkLock s = .next s) ∧
    (s.dev.pw.released = true → s.dev.pw.fuses = true → s.dev.tb.running = false → s.dev.flag TB_STATUS_TCLK_LOCK = false →
      s.dev.flag SVC_CLKSTAT_TCLK_LOST = false → s.dev.get PWR_STATUS_STATE = 0 → ∃ t, exec .tclkLock s = .next t ∧
        t.dev.stime = 0 ∧ t.dev.tick = 0 ∧ t.dev.tb = { s.dev.tb with running := true } ∧ t.dev.get TB_STATUS_TCLK_LOCK = 1 ∧
        t.dev.pw = { s.dev.pw with sealLatched := 0 } ∧ (s.dev.pw.sealLatched = 0 → t.dev.svc = s.dev.svc ∧ t.dev.ru = s.dev.ru) ∧
        Frame [.tick, .stime, .tb, .pw, .svc, .ru] [TB_STATUS_TCLK_LOCK, SVC_FLOG_SEQ_SEQ, SVC_FLOG_LOST_CNT] s t) ∧
    (∀ f : Fin 4, ∃ t, exec (.stimeLoRead f) s = .next t ∧ t.dev.out = s.dev.out ++ [.readData TB_STIME_LO (s.dev.stime.truncate 32)] ∧
      t.dev.word TB_STIME_HI = (s.dev.stime >>> 32).truncate 32 ∧ Frame [.out] [whole TB_STIME_HI] s t) ∧
    (let b := (s.dev.now / 2 ^ 20 + 1) * 2 ^ 20
    (s.dev.get TB_SYNCCFG_ROLE = 1 ∨ s.dev.get TB_SYNCCFG_ROLE = 3) → s.dev.flag TB_SYNCCFG_OUT_EN = true →
      (s.dev.tb.syncOut ≠ some b → b ≤ s.dev.now + 2048 → exec .syncOutFrame s = .next { s with
        dev := { s.dev with tb := { s.dev.tb with syncOut := some b }, out := s.dev.out ++ [.syncFrame b] } }) ∧
      (s.dev.tb.syncOut = some b ∨ s.dev.now + 2048 < b → exec .syncOutFrame s = .next s)) ∧
    (∀ b, s.dev.tb.syncOut = some b → s.dev.flag TB_SYNCCFG_OUT_EN = true →
      (s.dev.now + 2048 < b → s.dev.syncOutLevel = false) ∧ (b ≤ s.dev.now + 2048 → s.dev.now + 2033 ≤ b → s.dev.syncOutLevel = true) ∧
      (∀ j, j < 64 → s.dev.now + 1009 + 16 * j ≤ b → b ≤ s.dev.now + 1024 + 16 * j → s.dev.syncOutLevel = bitAt b j) ∧
      (s.dev.now < b → b < s.dev.now + 1009 → s.dev.syncOutLevel = false) ∧ (b ≤ s.dev.now → s.dev.now < b + 64 → s.dev.syncOutLevel = true) ∧
      (b + 64 ≤ s.dev.now → s.dev.syncOutLevel = false)) ∧
    (s.dev.get TB_SYNCCFG_ROLE < 2 → (∀ b k f, exec (.syncFrame b k f) s = .next s) ∧ exec .syncLost s = .next s) ∧
    (2 ≤ s.dev.get TB_SYNCCFG_ROLE → (∀ (b k : DWord) (f : Fin 64),
      let fine := if s.dev.get TB_STATUS_CAL_DONE = 0 then 0 else f.val
      let on : Bool := s.dev.tb.syncLast == some (b.toNat - 2 ^ 20) && decide (2 ^ 20 ≤ b.toNat)
      let good := if on = true then s.dev.tb.syncGood else 0
      let bad := if on = true then s.dev.tb.syncBad else 0
      let err : Int := ((k.toNat * 64 + fine : Int) - sgn 16 (s.dev.get TB_SYNC_DELAY_DELAY)) - (b.toNat * 64 : Int)
      ∃ t, exec (.syncFrame b k f) s = .next t ∧ t.dev.tb.syncLast = some b.toNat ∧ t.dev.tb.syncTick = s.dev.tick ∧
        (-32768 ≤ err → err ≤ 32767 → sgn 16 (t.dev.get TB_SYNC_ERR_ERR) = err) ∧
        (s.dev.flag TB_STATUS_SYNC_LOCK = true → 64 < err.natAbs → t.dev.stime = s.dev.stime ∧
          t.dev.get TB_SYNC_ERR_COUNT = min (s.dev.get TB_SYNC_ERR_COUNT + 1) 65535 ∧
          t.dev.tb.syncBad = (if 2 ≤ bad then 0 else bad + 1) ∧
          t.dev.flag TB_STATUS_SYNC_LOCK = decide (bad < 2) ∧
          Frame [.tb, .free] [whole TB_SYNC_ERR, TB_STATUS_SYNC_LOCK] s t) ∧
        (s.dev.flag TB_STATUS_SYNC_LOCK = true → err.natAbs ≤ 64 → t.dev.tb.syncBad = 0 ∧ Frame [.tb, .free] [TB_SYNC_ERR_ERR] s t) ∧
        (s.dev.flag TB_STATUS_SYNC_LOCK = false → 64 < err.natAbs → t.dev.stime = BitVec.ofInt 64 ((s.dev.now : Int) - err.tdiv 64) ∧
          t.dev.tb.syncGood = 0 ∧ t.dev.get TB_STATUS_STEP = 1 ∧ t.dev.get TB_STEPCNT_CNT = (s.dev.get TB_STEPCNT_CNT + 1) % 2 ^ 32 ∧
          t.dev.ru.raised = s.dev.ru.raised ++ [{ typ := 0x10, sub := 0, orig := 4, at_ := t.dev.stampNow, p0 := s.dev.now % 2 ^ 32,
                                                   p1 := s.dev.now >>> 32 }] ∧
          Frame [.tb, .free, .stime, .ru, .cmt, .slices] [TB_SYNC_ERR_ERR, TB_STATUS_STEP, TB_STEPCNT_CNT] s t) ∧
        (s.dev.flag TB_STATUS_SYNC_LOCK = false → 2 < err.natAbs → err.natAbs ≤ 64 → t.dev.tb.syncGood = 0 ∧
          Frame [.tb, .free] [TB_SYNC_ERR_ERR] s t) ∧
        (s.dev.flag TB_STATUS_SYNC_LOCK = false → err.natAbs ≤ 2 → good < 15 → t.dev.tb.syncGood = good + 1 ∧
          Frame [.tb, .free] [TB_SYNC_ERR_ERR] s t) ∧
        (s.dev.flag TB_STATUS_SYNC_LOCK = false → err.natAbs ≤ 2 → 15 ≤ good → t.dev.get TB_STATUS_SYNC_LOCK = 1 ∧
          t.dev.ru.raised = s.dev.ru.raised ++ [{ typ := 0x10, sub := 6, orig := 4, at_ := s.dev.stampNow }] ∧
          Frame [.tb, .free, .ru] [TB_SYNC_ERR_ERR, TB_STATUS_SYNC_LOCK] s t)) ∧
      (s.dev.tick < s.dev.tb.syncTick + 3 * 2 ^ 20 → exec .syncLost s = .next s) ∧
      (s.dev.tb.syncGone = false → s.dev.tb.syncTick + 3 * 2 ^ 20 ≤ s.dev.tick → ∃ t, exec .syncLost s = .next t ∧ t.dev.get TB_STATUS_SYNC_LOCK = 0 ∧ t.dev.get TB_STATUS_SYNC_LOST = 1 ∧
        t.dev.tb = { s.dev.tb with syncGood := 0, syncBad := 0, syncGone := true } ∧
        t.dev.ru.raised = s.dev.ru.raised ++ [{ typ := 0x10, sub := 5, orig := 4, at_ := s.dev.stampNow }] ∧
        Frame [.tb, .ru] [TB_STATUS_SYNC_LOCK, TB_STATUS_SYNC_LOST] s t)) ∧
    (∀ n : Nat, (s.dev.tb.running = true → s.dev.get PWR_STATUS_STATE = 0 → ∃ t, exec (.aclkRatioMeasure n) s = .next t ∧
        t.dev.word TB_ACLK_RATIO = BitVec.ofNat 32 n ∧ Frame [] [whole TB_ACLK_RATIO] s t) ∧
      (s.dev.tb.running = false ∨ s.dev.get PWR_STATUS_STATE ≠ 0 → exec (.aclkRatioMeasure n) s = .next s))

/-- R44, R46, R48 to R50: twin lines. The tap chosen for fine step k is the one whose D(i) lies nearest k × 19.531 25 ps, the lower one on a
tie; the first calibration builds line A and then line B of each owner and ends with CAL_DONE when those of all are done; later the standby line is rebuilt on a trigger and its owner
swaps to it at a pulse boundary, a sampler on a tick on which it latches nothing; without a boundary in SWAP_WAIT the swap waits for the next trigger, and after 1 s the bound is stale. Counts
that are not those of 65,536 samples over 192 taps are no command (the model's choice, log 3). -/
def Obligations.LinesCalibrateAndSwap : Prop :=
  ∀ (s : State),
    (∀ hits : List Nat, hits.length = 192 → hits.sum = 65536 → (tapTable hits).length = 64 ∧ ∀ k : Nat, k < 64 → ∃ i, (tapTable hits)[k]? = some i ∧ i < 192 ∧
      let dist (j : Nat) : Nat := (((hits.take j).sum : Int) - (k * 1024 : Int)).natAbs
      ∀ j < 192, dist i ≤ dist j ∧ (j < i → dist i < dist j)) ∧
    (∀ (x : LineOwner) (hits : List Nat), hits.length ≠ 192 ∨ hits.sum ≠ 65536 → exec (.lineCalibrationDone x hits) s = .fault .badCommand) ∧
    (∀ (x : LineOwner) (hits : List Nat), hits.length = 192 → hits.sum = 65536 →
      let l := s.dev.line (lineNo x)
      (s.dev.calDone (lineQuad x) = true → l.own = false → s.dev.tb.recals.length ≤ l.seen → exec (.lineCalibrationDone x hits) s = .next s) ∧
      (s.dev.calDone (lineQuad x) = true → (l.own = true ∨ l.seen < s.dev.tb.recals.length) → ∃ t, exec (.lineCalibrationDone x hits) s = .next t ∧
        (t.dev.line (lineNo x)).ready = some s.dev.tick ∧ (t.dev.line (lineNo x)).activeB = l.activeB ∧
        (l.activeB = true → (t.dev.line (lineNo x)).tapsA = tapTable hits ∧ (t.dev.line (lineNo x)).tapsB = l.tapsB) ∧
        (l.activeB = false → (t.dev.line (lineNo x)).tapsB = tapTable hits ∧ (t.dev.line (lineNo x)).tapsA = l.tapsA) ∧
        (∀ m, m ≠ lineNo x → t.dev.line m = s.dev.line m) ∧ Frame [.lines] [] s t) ∧
      (s.dev.calDone (lineQuad x) = false → (s.dev.quad (lineQuad x)).calStart = none → exec (.lineCalibrationDone x hits) s = .next s) ∧
      (∀ n, s.dev.calDone (lineQuad x) = false → (s.dev.quad (lineQuad x)).calStart = some n → lineQuad x < 4 →
        ((l.tapsB ≠ [] ∨ s.dev.tick < n + 76800 ∨ (l.tapsA ≠ [] ∧ s.dev.tick < n + 153600)) → exec (.lineCalibrationDone x hits) s = .next s) ∧
        (l.tapsB = [] → n + (if l.tapsA = [] then 76800 else 153600) ≤ s.dev.tick → ∃ t, exec (.lineCalibrationDone x hits) s = .next t ∧
          (l.tapsA = [] → (t.dev.line (lineNo x)).tapsA = tapTable hits ∧ (t.dev.line (lineNo x)).tapsB = []) ∧
          (l.tapsA ≠ [] → (t.dev.line (lineNo x)).tapsB = tapTable hits ∧ (t.dev.line (lineNo x)).tapsA = l.tapsA) ∧
          (t.dev.calDone (lineQuad x) = true ↔ ∀ k ∈ lineOwners (lineQuad x), (t.dev.line k).tapsB ≠ []) ∧
          (∀ m, m ≠ lineNo x → t.dev.line m = s.dev.line m) ∧ (∀ q, q ≠ lineQuad x → t.dev.quad q = s.dev.quad q) ∧
          Frame [.lines, .quads] [TB_STATUS_CAL_DONE] s t))) ∧
    (∀ q : Fin 4, (s.dev.calDone q = true → exec (.firstCalibrationStart q) s = .next s) ∧
      (s.dev.tb.running = true → s.dev.quadDown q = false → s.dev.calDone q = false → (s.dev.quad q).calStart = none →
        ∃ t, exec (.firstCalibrationStart q) s = .next t ∧ (t.dev.quad q).calStart = some s.dev.tick ∧
          (∀ k, (k ∈ lineOwners q → t.dev.line k = {}) ∧ (k ∉ lineOwners q → t.dev.line k = s.dev.line k)) ∧
          (∀ m, m ≠ q.val → t.dev.quad m = s.dev.quad m) ∧ Frame [.lines, .quads] [] s t)) ∧
    (∀ x : LineOwner, (∀ g, x ≠ .generator g) → let l := s.dev.line (lineNo x)
      ((l.ready = none ∨ l.latched = s.dev.tick + 1) → exec (.lineSwap x) s = .next s) ∧
      (l.ready.isSome = true → l.latched ≠ s.dev.tick + 1 → ∃ t, exec (.lineSwap x) s = .next t ∧
        t.dev.line (lineNo x) = { l with activeB := !l.activeB, ready := none, lastSwap := s.dev.tick, deferred := false } ∧
        (∀ m, m ≠ lineNo x → t.dev.line m = s.dev.line m) ∧ Frame [.lines, .tb] [] s t)) ∧
    (∀ g : Fin 256, let l := s.dev.line g
      (l.ready = none → exec (.lineSwap (.generator g)) s = .next s ∧ exec (.calDefer g) s = .next s) ∧
      (l.ready.isSome = true → s.dev.fePaired g = false → s.dev.fePair g = false →
        (s.dev.feBoundary g = false → exec (.lineSwap (.generator g)) s = .next s) ∧
        (s.dev.feBoundary g = true → ∃ t, exec (.lineSwap (.generator g)) s = .next t ∧
          t.dev.line g = { l with activeB := !l.activeB, ready := none, lastSwap := s.dev.tick, deferred := false } ∧
          t.dev.flag (FE_STATUS_LINE g) = !l.activeB ∧ t.dev.get (FE_STATUS_CAL_STALE g) = 0 ∧
          (∀ m, m ≠ g.val → t.dev.line m = s.dev.line m) ∧
          Frame [.lines, .tb] [FE_STATUS_LINE g, FE_STATUS_CAL_STALE g] s t)) ∧
      (∀ n, l.ready = some n → n + 800000 * max 1 (s.dev.get TB_CALCFG_SWAP_WAIT) ≤ s.dev.tick →
        ∃ t, exec (.calDefer g) s = .next t ∧ t.dev.get (FE_STATUS_CAL_DEFER g) = 1 ∧ t.dev.line g = { l with ready := none, deferred := true } ∧
          Frame [.lines] [FE_STATUS_CAL_DEFER g] s t) ∧
      (l.deferred = true → l.lastSwap + 800000000 ≤ s.dev.tick → ∃ t, exec (.calStale g) s = .next t ∧ t.dev.get (FE_STATUS_CAL_STALE g) = 1 ∧
        Frame [] [FE_STATUS_CAL_STALE g] s t) ∧
      (l.deferred = false → exec (.calStale g) s = .next s)) ∧
    (let i := max 1 (min 1000 (s.dev.get TB_CALCFG_INTERVAL))
    (s.dev.tick < s.dev.tb.lastInterval + 800000 * i → exec .recalInterval s = .next s) ∧
    (s.dev.tb.running = true → s.dev.tb.lastInterval + 800000 * i ≤ s.dev.tick → exec .recalInterval s = .next { s with
      dev := { s.dev with tb := { s.dev.tb with lastInterval := s.dev.tick, recals := s.dev.tb.recals ++ [s.dev.tick] } } })) ∧
    (∀ x : Int, let n := s.dev.get TB_CALCFG_TSTEP
      (n = 0 ∨ (x - s.dev.tb.swapTemp).natAbs < 16 * n → exec (.recalTemperature x) s = .next s) ∧
      (n ≠ 0 → s.dev.tb.running = true → 16 * n ≤ (x - s.dev.tb.swapTemp).natAbs → exec (.recalTemperature x) s = .next { s with
        dev := { s.dev with tb := { s.dev.tb with recals := s.dev.tb.recals ++ [s.dev.tick] } } }))

/-- R51, R54, R55, R60: a housekeeping timer counts one per PRE + 1 ticks; a count equal to CMP writes the TIMER record, sets the timer's bit for
every microengine and, in PERIODIC mode, adds PER to CMP, in ONE-SHOT mode clears EN; MODE 0 matches nothing; a read of CNT_LO latches the
high half. The timer's bit reaches the microengines on an even tick. -/
def Obligations.HousekeepingTimersCountAndMatch : Prop :=
  ∀ (s : State) (n : Fin 32),
    let cnt := (s.dev.pair (HK_CNT_LO n) (HK_CNT_HI n) + 1) % 2 ^ 64
    let cmp := s.dev.pair (HK_CMP_LO n) (HK_CMP_HI n)
    let mode := s.dev.get (HK_CTL_MODE n)
    (s.dev.tb.running = false ∨ s.dev.flag (HK_CTL_EN n) = false ∨ s.dev.tick < (s.dev.hk n).next → exec (.hkCount n) s = .next s) ∧
    (s.dev.tb.running = true → s.dev.flag (HK_CTL_EN n) = true → (s.dev.hk n).next ≤ s.dev.tick → ∃ t, exec (.hkCount n) s = .next t ∧
      t.dev.pair (HK_CNT_LO n) (HK_CNT_HI n) = cnt ∧ t.dev.hk n = { s.dev.hk n with
        next := (s.dev.hk n).next + s.dev.get (HK_CTL_PRE n) + 1, cur := s.dev.get (HK_CTL_PRE n) + 1 } ∧
      (∀ m, m ≠ n.val → t.dev.hk m = s.dev.hk m) ∧
      (cnt ≠ cmp ∨ mode = 0 → Frame [.hks] [whole (HK_CNT_LO n), whole (HK_CNT_HI n)] s t) ∧
      (cnt = cmp → mode ≠ 0 →
        t.dev.ru.raised = s.dev.ru.raised ++ [{ typ := 0x11, sub := 0, src := n, orig := 4, at_ := s.dev.stampNow, p0 := 0,
                                                 p1 := cnt % 2 ^ 32, p2 := cnt >>> 32 }] ∧
        (∀ e < 8, bitAt (t.dev.me e).hkNext n = true ∧ (t.dev.me e).ports = (s.dev.me e).ports ∧ (t.dev.me e).hk = (s.dev.me e).hk ∧
          ∀ k, k ≠ n.val → bitAt (t.dev.me e).hkNext k = bitAt (s.dev.me e).hkNext k) ∧
        (mode = 1 → t.dev.pair (HK_CMP_LO n) (HK_CMP_HI n) = (cmp + s.dev.pair (HK_PER_LO n) (HK_PER_HI n)) % 2 ^ 64 ∧
          Frame [.hks, .ru, .mes] [whole (HK_CNT_LO n), whole (HK_CNT_HI n), whole (HK_CMP_LO n), whole (HK_CMP_HI n)] s t) ∧
        (mode ≠ 1 → t.dev.get (HK_CTL_EN n) = 0 ∧
          Frame [.hks, .ru, .mes] [whole (HK_CNT_LO n), whole (HK_CNT_HI n), HK_CTL_EN n] s t))) ∧
    (∀ e : Fin 8, (s.dev.now % 2 = 1 → s.dev.meHkCopy e = s.dev) ∧
      (s.dev.now % 2 = 0 → ∀ k, bitAt ((s.dev.meHkCopy e).me e).hk k = (bitAt (s.dev.me e).hk k || bitAt (s.dev.me e).hkNext k))) ∧
    (∀ f : Fin 4, ∃ t, exec (.hkCntLoRead f n) s = .next t ∧ t.dev.out = s.dev.out ++ [.readData (HK_CNT_LO n) (s.dev.word (HK_CNT_LO n))] ∧
      Tab.get 0 t.dev.latched (HK_CNT_HI n) = s.dev.word (HK_CNT_HI n) ∧ Frame [.out, .latched] [] s t)

/-- R61, R63 to R66, R71, R92: an axis's inputs. A lost pair that is in use sets LOSS and faults with INPUT_LOSS; out of the band again, its next
accepted level is a reference and the next latch carries BREAK; a sampled level waits in the filter with the stamp of its raw transition, one
that reverts is discarded and counted (one that waits to be a reference waits again), one that has held for FILT ticks is accepted and handed to the decoder; a read of LPOS_LO freezes the
latch set; writing 1 to FAULT clears the fault and the run and consecutive counters. -/
def Obligations.AxisInputsAreFilteredAndWatched : Prop :=
  ∀ (s : State) (a : Fin 8),
    (∀ p : Fin 3, let i := (s.dev.axis a).input p
      (s.dev.axInUse a p = true → i.lost = false → s.dev.tb.running = true → ∃ t, exec (.inputLoss a p) s = .next t ∧
        ((t.dev.axis a).input p).lost = true ∧ ((t.dev.axis a).input p).pend = false ∧ bitAt (t.dev.axStatus a) 18 = true ∧
        (t.dev.axis a).t16 = (s.dev.axis a).t16 ∧ t.dev.get (AXIS_STATUS_FAULT a) = 1 ∧
        t.dev.get (AXIS_STATUS_FAULT_CAUSE a) = (if s.dev.flag (AXIS_STATUS_FAULT a) then s.dev.get (AXIS_STATUS_FAULT_CAUSE a) else 6) ∧
        (∀ m, m ≠ a.val → t.dev.axis m = s.dev.axis m) ∧
        Frame [.axes, .quads, .xev] [AXIS_STATUS_FAULT a, AXIS_STATUS_FAULT_CAUSE a] s t) ∧
      (s.dev.axInUse a p = false ∨ i.lost = true → exec (.inputLoss a p) s = .next s) ∧
      (∀ lvl : Bool, (i.lost = false → exec (.inputRestored a p lvl) s = .next s) ∧
        (i.lost = true → ∃ t, exec (.inputRestored a p lvl) s = .next t ∧ ((t.dev.axis a).input p).lost = false ∧
          ((t.dev.axis a).input p).ref = true ∧ ((t.dev.axis a).input p).raw = lvl ∧ ((t.dev.axis a).input p).pend = true ∧
          (t.dev.axis a).brkNext = true ∧ (∀ m, m ≠ a.val → t.dev.axis m = s.dev.axis m) ∧ Frame [.axes] [] s t)) ∧
      (∀ (lvl : Bool) (fine : Fin 64), i.lost = false → s.dev.tb.running = true → (i.pend = false ∨ s.dev.tick < i.rawTick + s.dev.get (AXIS_CFG_FILT a)) →
        (∃ t, exec (.axisInputTransition a p lvl fine) s = .next t ∧ (t.dev.line (256 + 3 * a + p)).latched = s.dev.tick + 1 ∧
          (∀ k, k ≠ 256 + 3 * a.val + p.val → t.dev.line k = s.dev.line k) ∧ (i.raw = lvl → Frame [.lines] [] s t)) ∧
        (i.raw ≠ lvl → i.pend = false → ∃ t, exec (.axisInputTransition a p lvl fine) s = .next t ∧
          (t.dev.axis a).input p = { i with raw := lvl, pend := true, rawTick := s.dev.tick, at_ := s.dev.stamp (a / 2) s.dev.tick fine } ∧
          (∀ m, m ≠ a.val → t.dev.axis m = s.dev.axis m) ∧ Frame [.axes, .lines] [] s t) ∧
        (i.raw ≠ lvl → i.pend = true → i.rawTick ≠ s.dev.tick → s.dev.axInUse a p = true →
          ∃ t, exec (.axisInputTransition a p lvl fine) s = .next t ∧ ((t.dev.axis a).input p).raw = lvl ∧ ((t.dev.axis a).input p).pend = i.ref ∧
            ((t.dev.axis a).input p).acc = i.acc ∧ (i.ref = true → ((t.dev.axis a).input p).rawTick = s.dev.tick) ∧ t.dev.get (AXIS_GLITCHCNT_CNT a) = min (s.dev.get (AXIS_GLITCHCNT_CNT a) + 1) (2 ^ 32 - 1) ∧
            Frame [.axes, .lines] [AXIS_GLITCHCNT_CNT a] s t)) ∧
      (let at_ := max (i.rawTick + s.dev.get (AXIS_CFG_FILT a)) (s.dev.axis a).filtFrom
      (i.pend = false ∨ i.lost = true ∨ s.dev.tick < at_ ∨ s.dev.tick ≤ i.rawTick → exec (.filterAccept a p) s = .next s) ∧
      (i.pend = true → i.lost = false → at_ ≤ s.dev.tick → i.rawTick < s.dev.tick → s.dev.tb.running = true →
        ∃ t, exec (.filterAccept a p) s = .next t ∧ ((t.dev.axis a).input p).acc = i.raw ∧ ((t.dev.axis a).input p).pend = false ∧
          ((t.dev.axis a).input p).hist = ((i.rawTick, i.raw) :: i.hist).take 8 ∧ (t.dev.axis a).t16 = (s.dev.axis a).t16 ∧
          (i.ref = false → s.dev.get (AXIS_CFG_MODE a) = 1 → p.val < 2 → (t.dev.axis a).changes = (s.dev.axis a).changes ++
            [{ pair := p, lvl := i.raw, raw := i.rawTick, at_ := i.at_, acc := at_ }]) ∧
          (i.ref = true → (t.dev.axis a).changes = (s.dev.axis a).changes) ∧
          (i.ref = true → s.dev.get (AXIS_CFG_MODE a) = 1 → p.val < 2 →
            (t.dev.axis a).dec = setBitAt (s.dev.axis a).dec (s.dev.decBit a p) i.raw) ∧
          (∀ m, m ≠ a.val → t.dev.axis m = s.dev.axis m) ∧ Frame [.axes] [] s t))) ∧
    (∀ w : Sender, s.dev.reads w (a / 2) = true → ∃ t, exec (.lposLoRead w a) s = .next t ∧
      t.dev.out = s.dev.out ++ [answer w (AXIS_LPOS_LO a) (BitVec.ofNat 32 (uns 64 (s.dev.axis a).latch.pos))] ∧
      t.dev.axShown a = (s.dev.axis a).latch ∧ (t.dev.axis a).latch = (s.dev.axis a).latch ∧ Frame [.axes, .out] [] s t) ∧
    (∀ w : Sender, s.dev.takesLate (writerOf w) (AXIS_STATUS a) = true → ∃ u t, exec (.axisFaultClear w a) s = .next u ∧ lands s u t ∧
      t.dev.get (AXIS_STATUS_FAULT a) = 0 ∧ t.dev.get (AXIS_STATUS_FAULT_CAUSE a) = 0 ∧ t.dev.get (AXIS_SERERR_BADCNT a) = 0 ∧
      (t.dev.axis a).illRun = 0 ∧ (t.dev.axis a).idxRun = 0 ∧ (t.dev.axis a).serBad = 0 ∧ (t.dev.axis a).t16 = (s.dev.axis a).t16 ∧
      (s.dev.flag (AXIS_STATUS_FAULT a) = true → (t.dev.axis a).serPrev = none ∧ (t.dev.axis a).tPrev = none ∧ (t.dev.axis a).learning = true ∧
        (t.dev.axis a).runNext = true) ∧
      (∀ m, m ≠ a.val → t.dev.axis m = s.dev.axis m) ∧
      Frame [.axes] [AXIS_STATUS_FAULT a, AXIS_STATUS_FAULT_CAUSE a, AXIS_SERERR_BADCNT a] s t)

/-- R66 to R70, R72, R76 to R78, R101: the quadrature decoder. The table of R67; a counting transition moves T by one count and writes the
edge latch with the stamp of the raw transition, three ticks after its acceptance, from which the estimator, the slices and the emulators
learn; a legal one that MULT does not count only changes the decoder state; a double change is illegal: T stays, ILLCNT advances, the next latch carries BREAK;
an index on the transition is judged against the expected position nearest the true one, a tie taking the lower. -/
def Obligations.QuadratureIsDecoded : Prop :=
  (quadDir 0 1 = some 1 ∧ quadDir 1 3 = some 1 ∧ quadDir 3 2 = some 1 ∧ quadDir 2 0 = some 1 ∧
    quadDir 1 0 = some (-1) ∧ quadDir 0 2 = some (-1) ∧ quadDir 2 3 = some (-1) ∧ quadDir 3 1 = some (-1) ∧
    quadDir 0 3 = none ∧ quadDir 3 0 = none ∧ quadDir 1 2 = none ∧ quadDir 2 1 = none ∧
    ∀ m u v, u < 4 → v < 4 → quadCounts m u v = (decide (m = 0) || (decide (m = 1) && decide (u % 2 ≠ v % 2)) ||
      (decide (2 ≤ m) && (decide (u = 0 ∧ v = 1) || decide (u = 1 ∧ v = 0))))) ∧
  ∀ (s : State) (a : Fin 8),
    let x := s.dev.axis a
    (x.changes = [] ∨ s.dev.get (AXIS_CFG_MODE a) ≠ 1 → exec (.quadratureDecode a) s = .next s) ∧
    (∀ c rest, x.changes = c :: rest → s.dev.get (AXIS_CFG_MODE a) = 1 → s.dev.tb.running = true → c.acc + 2 ≤ s.dev.tick →
      (x.input (1 - c.pair)).pend = false →
      (∀ e, rest = [e] → e.pair ≠ c.pair → e.raw < c.acc + 2 → e.acc ≤ s.dev.tick →
        let st := setBitAt (setBitAt x.dec (s.dev.decBit a c.pair) c.lvl) (s.dev.decBit a e.pair) e.lvl
        st ≠ x.dec → quadDir x.dec st = none → ∃ t, exec (.quadratureDecode a) s = .next t ∧ (t.dev.axis a).dec = st ∧ (t.dev.axis a).changes = [] ∧
          (t.dev.axis a).t16 = x.t16 ∧ (t.dev.axis a).brkNext = true ∧ (t.dev.axis a).illRun = x.illRun + 1 ∧
          t.dev.get (AXIS_STATUS_ILLEGAL a) = 1 ∧ t.dev.get (AXIS_ILLCNT_CNT a) = min (s.dev.get (AXIS_ILLCNT_CNT a) + 1) (2 ^ 32 - 1) ∧
          (s.dev.get (AXIS_CFG_ILLMAX a) = x.illRun + 1 → t.dev.get (AXIS_STATUS_FAULT a) = 1) ∧
          Frame [.axes, .quads, .xev] [AXIS_STATUS_ILLEGAL a, AXIS_STATUS_FAULT a, AXIS_STATUS_FAULT_CAUSE a, AXIS_ILLCNT_CNT a] s t) ∧
      (rest.find? (fun e => e.pair != c.pair && decide (e.raw < c.acc + 2)) = none →
        let st := setBitAt x.dec (s.dev.decBit a c.pair) c.lvl
        let n := (if c.acc + 2 < (x.input (1 - c.pair)).discard ∧ (x.input (1 - c.pair)).discRaw < c.acc + 2
          then (x.input (1 - c.pair)).discard else c.acc + 2) + 1
        (∀ g, st ≠ x.dec → quadDir x.dec st = some g → quadCounts (s.dev.get (AXIS_CFG_MULT a)) x.dec st = false →
          ∃ t, exec (.quadratureDecode a) s = .next t ∧ t.dev.axis a = { x with dec := st, changes := rest } ∧ Frame [.axes] [] s t) ∧
        (∀ g, st ≠ x.dec → quadDir x.dec st = some g → quadCounts (s.dev.get (AXIS_CFG_MULT a)) x.dec st = true →
          s.dev.flag (AXIS_CFG_LIM_EN a) = false →
          let hit := (if 0 < g then st else x.dec) = s.dev.get (AXIS_IDXCFG_GATE a) ∧ s.dev.axZActive a c.raw = true
          let tg := x.t16 + g * 65536 + (if 0 < g then 0 else 65536)
          let e := s.dev.axExpected a tg
          let good := (tg - e).natAbs ≤ s.dev.get (AXIS_IDXCFG_TOL a) * 65536
          let snap : Int := if hit ∧ ¬ good ∧ s.dev.get (AXIS_IDXCFG_POLICY a) = 0 then e - tg else 0
          ∃ t, exec (.quadratureDecode a) s = .next t ∧
            (t.dev.axis a).dec = st ∧ (t.dev.axis a).changes = rest ∧ (t.dev.axis a).t16 = sgn 64 (uns 64 (x.t16 + g * 65536 + snap)) ∧
            t.dev.axPos a = (t.dev.axis a).t16 ∧ t.dev.get (AXIS_EXCESS_EXCESS a) = 0 ∧ t.dev.flag (AXIS_STATUS_DIR a) = decide (g < 0) ∧
            (t.dev.axis a).latch.pos = (t.dev.axis a).t16 ∧ (t.dev.axis a).latch.at_ = c.at_ ∧ (t.dev.axis a).latch.inc = g ∧
            (t.dev.axis a).latch.rev = (x.moved && decide (g < 0) != s.dev.flag (AXIS_STATUS_DIR a)) ∧
            (t.dev.axis a).latch.brk = x.brkNext ∧ (t.dev.axis a).brkNext = false ∧ (t.dev.axis a).lastLatch = n ∧
            (t.dev.axis a).hist.head? = some ((t.dev.axis a).t16, c.at_.time * 64 + c.at_.fine) ∧
            ((t.dev.axis a).latch.rev = true ∨ x.brkNext = true → (t.dev.axis a).run = 1 ∧ (t.dev.axis a).vel = 0) ∧
            (t.dev.msgs.drop s.dev.msgs.length).map (fun m => (m.q, m.a, m.due)) =
              [0, 1, 2, 3].map (fun q => (q, a.val, if q = a.val / 2 then n + 2 else n + 6)) ∧
            (hit → t.dev.get (AXIS_IDX_DEV_D a) = uns 32 ((tg - e) / 65536) ∧
              (good → t.dev.get (AXIS_IDXCNT_GOOD a) = min (s.dev.get (AXIS_IDXCNT_GOOD a) + 1) 65535 ∧ t.dev.get (AXIS_STATUS_IDX_SEEN a) = 1 ∧
                (t.dev.axis a).idxRun = 0) ∧
              (¬ good → t.dev.get (AXIS_IDXCNT_MISMATCH a) = min (s.dev.get (AXIS_IDXCNT_MISMATCH a) + 1) 65535 ∧
                t.dev.get (AXIS_STATUS_IDX_FLAG a) = 1 ∧ (t.dev.axis a).idxRun = x.idxRun + 1 ∧
                (t.dev.axis a).latch.snap = (x.snapNext || decide (s.dev.get (AXIS_IDXCFG_POLICY a) = 0)) ∧
                (s.dev.get (AXIS_IDXCFG_POLICY a) = 2 → t.dev.get (AXIS_STATUS_FAULT a) = 1))) ∧
            (¬ hit → Frame latchParts (latchFields a) s t) ∧
            Frame latchParts (latchFields a ++ [whole (AXIS_IDX_DEV a), whole (AXIS_IDXCNT a), AXIS_STATUS_IDX_SEEN a, AXIS_STATUS_IDX_FLAG a]) s t))) ∧
    (∀ tg : Int, s.dev.flag (AXIS_IDXCFG_PERIODIC a) = true → s.dev.get (AXIS_IDX_PERIOD_PERIOD a) ≠ 0 →
      let p : Int := s.dev.get (AXIS_IDX_PERIOD_PERIOD a) * 65536
      (∃ k : Int, s.dev.axExpected a tg = sgn 48 (s.dev.pair (AXIS_IDX_BASE_LO a) (AXIS_IDX_BASE_HI a)) * 65536 + k * p) ∧
        -p < 2 * (tg - s.dev.axExpected a tg) ∧ 2 * (tg - s.dev.axExpected a tg) ≤ p)

/-- R73 to R75: a tooth wheel. The first tooth only sets t_prev; while it learns every tooth counts one and its period enters the average; a long
period spans m positions, or more than MAXGAP missing ones make TW_STOP and a new learning; a short one is a pulse between teeth; any other
period is normal. A reference of the kind that REFTYPE does not name sets TW_ERR. -/
def Obligations.ToothWheelCountsTeeth : Prop :=
  ∀ (s : State) (a : Fin 8) (c : AxChange) (rest : List AxChange),
    let x := s.dev.axis a
    let ft := c.at_.time * 64 + c.at_.fine
    let dir : Int := if s.dev.get (AXIS_TWCFG_DIRSRC a) = 0 then 1 else if s.dev.get (AXIS_TWCFG_DIRSRC a) = 1 then -1
      else if x.inB.levelAt c.raw then -1 else 1
    x.changes = c :: rest →
    (s.dev.get (AXIS_CFG_MODE a) ≠ 2 ∨ s.dev.tick < c.acc + 2 → exec (.toothEdge a) s = .next s) ∧
    (s.dev.get (AXIS_CFG_MODE a) = 2 → c.acc + 2 ≤ s.dev.tick → s.dev.tb.running = true → s.dev.flag (AXIS_CFG_LIM_EN a) = false →
      (x.tPrev = none → ∃ t, exec (.toothEdge a) s = .next t ∧ t.dev.axis a = { x with changes := rest, tPrev := some ft } ∧ Frame [.axes] [] s t) ∧
      (∀ tp, x.tPrev = some tp →
        let per := ft - tp
        let avg := s.dev.twAvg a
        let r := per * 64 / avg
        let m := (per + avg / 2) / avg
        let gapMax := max 1 (s.dev.get (AXIS_TWCFG_MAXGAP a))
        let counts (t : State) (k : Int) : Prop := (t.dev.axis a).t16 = sgn 64 (uns 64 (x.t16 + k * 65536)) ∧ t.dev.axPos a = (t.dev.axis a).t16 ∧
          (t.dev.axis a).latch.inc = k ∧ (t.dev.axis a).latch.at_ = c.at_ ∧ (t.dev.axis a).lastLatch = c.acc + 3 ∧ (t.dev.axis a).changes = rest
        (x.learning = true → ∃ t, exec (.toothEdge a) s = .next t ∧ counts t dir ∧ (t.dev.axis a).tPrev = some ft ∧
          (t.dev.axis a).periods = (per :: x.periods).take 32 ∧
          (t.dev.axis a).learning = decide (((per :: x.periods).take 32).length < 4 * 2 ^ s.dev.get (AXIS_TWCFG_AVG_N a)) ∧
          Frame latchParts (latchFields a) s t) ∧
        (x.learning = false → s.dev.get (AXIS_TWCFG_GAP_RATIO a) < r → gapMax < m - 1 → ∃ t, exec (.toothEdge a) s = .next t ∧ counts t dir ∧
          t.dev.get (AXIS_STATUS_TW_STOP a) = 1 ∧ (t.dev.axis a).latch.brk = true ∧ (t.dev.axis a).run = 1 ∧ (t.dev.axis a).learning = true ∧
          (t.dev.axis a).tPrev = some ft ∧ (t.dev.axis a).periods = [] ∧
          Frame latchParts (AXIS_STATUS_TW_STOP a :: latchFields a) s t) ∧
        (x.learning = false → s.dev.get (AXIS_TWCFG_GAP_RATIO a) < r → m - 1 ≤ gapMax → s.dev.flag (AXIS_TWCFG_REFTYPE a) = true →
          ∃ t, exec (.toothEdge a) s = .next t ∧ counts t (dir * m) ∧ (t.dev.axis a).latch.gap = true ∧ t.dev.get (AXIS_STATUS_TW_ERR a) = 1 ∧
            (t.dev.axis a).tPrev = some ft ∧ (t.dev.axis a).periods = x.periods ∧
            Frame latchParts (AXIS_STATUS_TW_ERR a :: latchFields a) s t) ∧
        (x.learning = false → s.dev.get (AXIS_TWCFG_GAP_RATIO a) < r → m - 1 ≤ gapMax → s.dev.flag (AXIS_TWCFG_REFTYPE a) = false →
          s.dev.flag (AXIS_IDXCFG_IDX_EN a) = false → ∃ t, exec (.toothEdge a) s = .next t ∧ counts t (dir * m) ∧
            (t.dev.axis a).latch.gap = true ∧ (t.dev.axis a).tPrev = some ft ∧ Frame latchParts (latchFields a) s t) ∧
        (x.learning = false → r ≤ s.dev.get (AXIS_TWCFG_GAP_RATIO a) → r < s.dev.get (AXIS_TWCFG_EXTRA_RATIO a) →
          s.dev.flag (AXIS_TWCFG_REFTYPE a) = false → ∃ t, exec (.toothEdge a) s = .next t ∧ t.dev.axis a = { x with changes := rest } ∧
            t.dev.get (AXIS_STATUS_TW_ERR a) = 1 ∧ Frame [.axes] [AXIS_STATUS_TW_ERR a] s t) ∧
        (x.learning = false → r ≤ s.dev.get (AXIS_TWCFG_GAP_RATIO a) → s.dev.get (AXIS_TWCFG_EXTRA_RATIO a) ≤ r →
          ∃ t, exec (.toothEdge a) s = .next t ∧ counts t dir ∧ (t.dev.axis a).tPrev = some ft ∧ (t.dev.axis a).learning = false ∧
            (t.dev.axis a).periods = (per :: x.periods).take 32 ∧ (t.dev.axis a).latch.gap = false ∧ Frame latchParts (latchFields a) s t)))

/-- R62, R80 to R82, R90, R91, R106: writes of CFG, POS and the limits. A change of MODE, MULT or INVERT keeps POS and EXCESS, clears the history and
loads the decoder from the levels that the filters hold; T is held within the limits while LIM_EN is 1, with the excess beside it; LIM_EN is not
set, and no limit loaded while it is set, where LIMIT_LO would exceed LIMIT_HI; a write of POS_LO loads {held HI, LO} as T, shifts the history
by the size of the jump and writes no latch. Each acts on the tick after the write; a level that a filter has held for the old FILT by then is
accepted first. -/
def Obligations.AxisSettingsAndLimits : Prop :=
  ∀ (s : State) (w : Sender) (a : Fin 8),
    let x := s.dev.axis a
    let lo := s.dev.axLimitLo a
    let hi := s.dev.axLimitHi a
    let c := x.t16 / 65536
    let limited (t : State) (lo hi : Int) : Prop :=
      (hi < c → c - hi ≤ 2147483647 → t.dev.axPos a = hi * 65536 ∧ (t.dev.axis a).excess = c - hi ∧ t.dev.get (AXIS_STATUS_SAT_HI a) = 1) ∧
      (lo ≤ hi → c < lo → lo - c ≤ 2147483648 → t.dev.axPos a = lo * 65536 ∧ (t.dev.axis a).excess = c - lo ∧ t.dev.get (AXIS_STATUS_SAT_LO a) = 1) ∧
      (lo ≤ c → c ≤ hi → -(2 ^ 63) ≤ x.t16 → x.t16 < 2 ^ 63 → t.dev.axPos a = x.t16 ∧ (t.dev.axis a).excess = 0 ∧
        t.dev.get (AXIS_STATUS_SAT_HI a) = 0 ∧ t.dev.get (AXIS_STATUS_SAT_LO a) = 0)
    let calm : Prop := ∀ p < 3, (x.input p).pend = false ∨ s.dev.tick < (x.input p).rawTick + s.dev.get (AXIS_CFG_FILT a)
    let sat : List Fld := [whole (AXIS_POS_LO a), whole (AXIS_POS_HI a), whole (AXIS_EXCESS a), AXIS_STATUS_SAT_HI a, AXIS_STATUS_SAT_LO a,
      AXIS_STATUS_FAULT a, AXIS_STATUS_FAULT_CAUSE a]
    (∀ v : Word, s.dev.takesLate (writerOf w) (AXIS_CFG a) = true → v &&& 0xFFFF0F07 = v → bits v.toNat 0 3 ≤ 4 → bits v.toNat 8 2 ≠ 3 →
      (bitAt v.toNat 11 = s.dev.flag (AXIS_CFG_LIM_EN a) → ∃ u t, exec (.axisCfgWrite w a v) s = .next u ∧ lands s u t ∧ t.dev.word (AXIS_CFG a) = v ∧
        (t.dev.axis a).t16 = x.t16 ∧ (t.dev.axis a).excess = x.excess ∧
        (calm → bits v.toNat 0 3 = s.dev.get (AXIS_CFG_MODE a) → bits v.toNat 8 2 = s.dev.get (AXIS_CFG_MULT a) →
          bitAt v.toNat 10 = s.dev.flag (AXIS_CFG_INVERT a) →
          (t.dev.axis a).hist = x.hist ∧ (t.dev.axis a).run = x.run ∧ (t.dev.axis a).dec = x.dec ∧ (t.dev.axis a).changes = x.changes ∧ t.dev.msgs = s.dev.msgs) ∧
        (calm → bits v.toNat 0 3 ≠ s.dev.get (AXIS_CFG_MODE a) ∨ bits v.toNat 8 2 ≠ s.dev.get (AXIS_CFG_MULT a) ∨
            bitAt v.toNat 10 ≠ s.dev.flag (AXIS_CFG_INVERT a) →
          (t.dev.axis a).hist = [] ∧ (t.dev.axis a).run = 0 ∧ (t.dev.axis a).vel = 0 ∧ (t.dev.axis a).serPrev = none ∧ (t.dev.axis a).tPrev = none ∧
          (t.dev.axis a).periods = [] ∧ (t.dev.axis a).changes = [] ∧
          bitAt (t.dev.axis a).dec (if bitAt v.toNat 10 then 1 else 0) = x.inA.acc ∧ bitAt (t.dev.axis a).dec (if bitAt v.toNat 10 then 0 else 1) = x.inB.acc) ∧
        (∀ m, m ≠ a.val → t.dev.axis m = s.dev.axis m) ∧ Frame [.axes, .msgs] [whole (AXIS_CFG a)] s t) ∧
      (bitAt v.toNat 11 = true → s.dev.flag (AXIS_CFG_LIM_EN a) = false → hi < lo → ∃ u t, exec (.axisCfgWrite w a v) s = .next u ∧ lands s u t ∧
        t.dev.get (AXIS_CFG_LIM_EN a) = 0 ∧ t.dev.get (AXIS_CFG_MODE a) = bits v.toNat 0 3 ∧ t.dev.get (AXIS_CFG_FILT a) = bits v.toNat 24 8 ∧
        t.dev.get (AXIS_STATUS_LIM_ERR a) = 1 ∧ (t.dev.axis a).t16 = x.t16 ∧ (t.dev.axis a).excess = x.excess) ∧
      (bitAt v.toNat 11 = true → s.dev.flag (AXIS_CFG_LIM_EN a) = false → lo ≤ hi → ∃ u t, exec (.axisCfgWrite w a v) s = .next u ∧ lands s u t ∧
        t.dev.word (AXIS_CFG a) = v ∧ limited t lo hi ∧ Frame [.axes, .msgs, .quads, .xev] (whole (AXIS_CFG a) :: sat) s t) ∧
      (bitAt v.toNat 11 = false → s.dev.flag (AXIS_CFG_LIM_EN a) = true → -(2 ^ 63) ≤ x.t16 → x.t16 < 2 ^ 63 →
        ∃ u t, exec (.axisCfgWrite w a v) s = .next u ∧ lands s u t ∧ t.dev.word (AXIS_CFG a) = v ∧ t.dev.axPos a = x.t16 ∧ (t.dev.axis a).excess = 0 ∧
          (t.dev.axis a).t16 = x.t16 ∧ Frame [.axes, .msgs, .quads, .xev] (whole (AXIS_CFG a) :: sat) s t)) ∧
    (∀ v : Word, s.dev.takesLate (writerOf w) (AXIS_POS_LO a) = true → s.dev.flag (AXIS_CFG_LIM_EN a) = false → ∃ u t, exec (.posLoWrite w a v) s = .next u ∧ lands s u t ∧
      let new := sgn 64 (v.toNat + 2 ^ 32 * (Tab.get 0 s.dev.heldHi (AXIS_POS_HI a)).toNat)
      (t.dev.axis a).t16 = new ∧ t.dev.axPos a = new ∧ (t.dev.axis a).latch = x.latch ∧ (t.dev.axis a).snapNext = true ∧
      (t.dev.axis a).hist = x.hist.map (fun p => (p.1 + (new - x.t16), p.2)) ∧ (t.dev.axis a).run = x.run ∧ (t.dev.axis a).vel = x.vel ∧
      Frame latchParts (latchFields a) s t) ∧
    (∀ (up : Bool) (v : Word), s.dev.takesLate (writerOf w) (if up then AXIS_LIMIT_HI_LO a else AXIS_LIMIT_LO_LO a) = true →
      let rHi := if up then AXIS_LIMIT_HI_HI a else AXIS_LIMIT_LO_HI a
      let new := sgn 48 (v.toNat + 2 ^ 32 * ((Tab.get 0 s.dev.heldHi rHi).toNat % 65536))
      let loN := if up then lo else new
      let hiN := if up then new else hi
      let halves : List Fld := [whole (if up then AXIS_LIMIT_HI_LO a else AXIS_LIMIT_LO_LO a), whole rHi]
      (s.dev.flag (AXIS_CFG_LIM_EN a) = true → hiN < loN → ∃ u t, exec (.limitLoWrite w a up v) s = .next u ∧ lands s u t ∧
        t.dev.get (AXIS_STATUS_LIM_ERR a) = 1 ∧ Frame [] [AXIS_STATUS_LIM_ERR a] s t) ∧
      (s.dev.flag (AXIS_CFG_LIM_EN a) = true → loN ≤ hiN → ∃ u t, exec (.limitLoWrite w a up v) s = .next u ∧ lands s u t ∧
        t.dev.axLimitLo a = loN ∧ t.dev.axLimitHi a = hiN ∧ limited t loN hiN ∧ Frame [.axes, .msgs, .quads, .xev] (halves ++ sat) s t) ∧
      (s.dev.flag (AXIS_CFG_LIM_EN a) = false → ∃ u t, exec (.limitLoWrite w a up v) s = .next u ∧ lands s u t ∧
        t.dev.axLimitLo a = loN ∧ t.dev.axLimitHi a = hiN ∧ Frame [] halves s t))

/-- R83 to R89, R94, R95: serial position. A trigger starts a frame unless one, its timeout or its recovery is running, which drops it with
OVERRUN; a frame that has ended is checked in the order LINE, TIMEOUT, CRC, LEN, SENSOR, SEQ, JUMP, the first failing check discards it and
counts it, and FAULTN in a row fault the axis; the first good frame sets T, every later one moves T the shortest way round, with a latch stamped
with the latching edge plus SENSOR_LAT. Bit k is
the level of the data line DATA_DELAY, at most HALF - 1, after the k-th falling clock edge. -/
def Obligations.SerialFramesAreCheckedInOrder : Prop :=
  crc16 [0x31, 0x32, 0x33, 0x34, 0x35, 0x36, 0x37, 0x38, 0x39] = 0x29B1 ∧
  (∀ n v : Nat, v < 2 ^ n → ofGray n (v ^^^ (v >>> 1)) = v) ∧
  (∀ w u v : Nat, 0 < w → -(2 ^ (w - 1) : Int) ≤ serDelta w u v ∧ serDelta w u v < (2 ^ (w - 1) : Int) ∧
    (serDelta w u v - ((v : Int) - u)) % (2 ^ w : Int) = 0) ∧
  ∀ (s : State) (a : Fin 8),
    let x := s.dev.axis a
    let mode := s.dev.get (AXIS_CFG_MODE a)
    (∀ conv : Bool, (mode < 3 → exec (.serialFrameStart a conv) s = .next s) ∧
      (3 ≤ mode → s.dev.tb.running = true → s.dev.quadDown (a / 2) = false →
        (conv = true → s.dev.get (AXIS_SERCFG_START a) = 2 ∧
          (Tab.get {} s.dev.convs (4 * (a / 2) + s.dev.get (AXIS_SERCFG_CONVSEL a))).high = true) →
        (conv = false → s.dev.get (AXIS_SERCFG_START a) = 1 ∧ x.lastPeriodic + max 1 (s.dev.get (AXIS_SERPER_PER a)) ≤ s.dev.tick) →
        (x.frameStart = none → x.busyUntil ≤ s.dev.tick → ∃ t, exec (.serialFrameStart a conv) s = .next t ∧
          t.dev.axis a = { x with frameStart := some s.dev.tick, frameAt := s.dev.stamp (a / 2) s.dev.tick 0,
                                  lastPeriodic := if conv then x.lastPeriodic else s.dev.tick } ∧ Frame [.axes] [] s t) ∧
        (x.frameStart ≠ none ∨ s.dev.tick < x.busyUntil → ∃ t, exec (.serialFrameStart a conv) s = .next t ∧
          t.dev.get (AXIS_SERERR_OVERRUN a) = 1 ∧ t.dev.get (AXIS_STATUS_SER_ERR a) = 1 ∧ (t.dev.axis a).frameStart = x.frameStart ∧
          (t.dev.axis a).busyUntil = x.busyUntil ∧ Frame [.axes] [AXIS_SERERR_OVERRUN a, AXIS_STATUS_SER_ERR a] s t))) ∧
    (∀ f : SerialFrame,
      let limit := s.dev.serTicks a + 800 * clampN 1 1000 (s.dev.get (AXIS_SERTIME_TIMEOUT a))
      (∀ k, s.dev.serBit a f k = dataLevel f (2 * s.dev.serHalf a * k + min (s.dev.get (AXIS_SERDLY_DATA_DELAY a)) (s.dev.serHalf a - 1))) ∧
      (f.changes.Pairwise (fun c e => c.1 < e.1) → ∀ h, (s.dev.serHigh a f = some h ↔ s.dev.serTicks a ≤ h ∧ h ≤ limit ∧ dataLevel f h = true ∧
        ∀ k, s.dev.serTicks a ≤ k → k < h → dataLevel f k = false)) ∧
      (x.frameStart = none → exec (.serialFrameCheck a f) s = .next s) ∧
      (∀ b, x.frameStart = some b →
        let due := b + (s.dev.serHigh a f).getD limit
        let done (t : State) : Prop := (t.dev.axis a).frameStart = none ∧
          (t.dev.axis a).busyUntil = s.dev.tick + 800 * clampN 1 1000 (s.dev.get (AXIS_SERTIME_RECOVERY a))
        let bad (g : Fld) : Prop := ∃ t, exec (.serialFrameCheck a f) s = .next t ∧ done t ∧ t.dev.get g = 1 ∧ t.dev.get (AXIS_STATUS_SER_ERR a) = 1 ∧
          t.dev.get (AXIS_SERERR_BADCNT a) = min (s.dev.get (AXIS_SERERR_BADCNT a) + 1) 65535 ∧ (t.dev.axis a).serBad = x.serBad + 1 ∧
          (t.dev.axis a).t16 = x.t16 ∧ (t.dev.axis a).latch = x.latch ∧
          (s.dev.get (AXIS_SERCFG_FAULTN a) = x.serBad + 1 → t.dev.get (AXIS_STATUS_FAULT a) = 1) ∧
          Frame [.axes, .quads, .xev] [g, AXIS_STATUS_SER_ERR a, AXIS_SERERR_BADCNT a, AXIS_STATUS_FAULT a, AXIS_STATUS_FAULT_CAUSE a,
            whole (AXIS_SERRAW_LO a), whole (AXIS_SERRAW_HI a)] s t
        let moved (v : Nat) (extra : List Fld) (mv : Int) : Prop := ∃ t, exec (.serialFrameCheck a f) s = .next t ∧ done t ∧
          t.dev.pair (AXIS_SERRAW_LO a) (AXIS_SERRAW_HI a) = v ∧ (t.dev.axis a).t16 = sgn 64 (uns 64 mv) ∧ (t.dev.axis a).serPrev = some v ∧ (t.dev.axis a).serOk = true ∧
          (t.dev.axis a).serBad = 0 ∧ (t.dev.axis a).latch.inc = 0 ∧
          (t.dev.axis a).latch.at_ = { x.frameAt with time := x.frameAt.time + s.dev.get (AXIS_SERDLY_SENSOR_LAT a) } ∧
          (t.dev.axis a).lastLatch = s.dev.tick ∧ (∀ g ∈ extra, t.dev.get g = 1) ∧
          Frame latchParts (latchFields a ++ extra ++ [whole (AXIS_SERRAW_LO a), whole (AXIS_SERRAW_HI a)]) s t
        let good (w v : Nat) (extra : List Fld) : Prop := s.dev.flag (AXIS_CFG_LIM_EN a) = false →
          (x.serPrev = none → moved v extra ((if s.dev.flag (AXIS_SERCFG_SIGNED a) then sgn w v else v) * 65536)) ∧
          (∀ u, x.serPrev = some u →
            (s.dev.get (AXIS_SERMAX_MAX a) ≠ 0 → s.dev.get (AXIS_SERMAX_MAX a) < (serDelta w u v).natAbs → bad (AXIS_SERERR_JUMP a)) ∧
            (s.dev.get (AXIS_SERMAX_MAX a) = 0 ∨ (serDelta w u v).natAbs ≤ s.dev.get (AXIS_SERMAX_MAX a) →
              moved v extra (x.t16 + serDelta w u v * 65536)))
        (s.dev.tick < due → exec (.serialFrameCheck a f) s = .next s) ∧
        (due ≤ s.dev.tick →
          (dataLevel f 0 = false → bad (AXIS_SERERR_LINE a)) ∧
          (mode = 3 → dataLevel f 0 = true → (s.dev.serHigh a f).isNone = true → bad (AXIS_SERERR_TIMEOUT a)) ∧
          (mode = 3 → dataLevel f 0 = true → (s.dev.serHigh a f).isSome = true →
            let n := clampN 8 48 (s.dev.get (AXIS_SERCFG_NBITS a))
            ∀ v e, v < 2 ^ n → (∀ i < n, s.dev.serBit a f (i + 1) = bitAt v (n - 1 - i)) → s.dev.serBit a f (n + 1) = e →
              ((s.dev.get (AXIS_SERCFG_ERRBIT a) = 1 ∧ e = true ∨ s.dev.get (AXIS_SERCFG_ERRBIT a) = 2 ∧ e = false) → bad (AXIS_SERERR_SENSOR a)) ∧
              ((s.dev.get (AXIS_SERCFG_ERRBIT a) = 0 ∨ s.dev.get (AXIS_SERCFG_ERRBIT a) = 1 ∧ e = false ∨
                  s.dev.get (AXIS_SERCFG_ERRBIT a) = 2 ∧ e = true) →
                good n (if s.dev.flag (AXIS_SERCFG_GRAY a) then ofGray n v else v) [])) ∧
          (mode ≠ 3 → dataLevel f 0 = true →
            let code := s.dev.get (AXIS_SERCFG_SPFLEN a)
            let l := spfLen code
            ∀ sync hdr p st crc : Nat, sync < 64 → hdr < 256 → p < 2 ^ l → st < 256 → crc < 65536 →
              (∀ i < 38 + l, some (s.dev.serBit a f (s.dev.get (AXIS_SERCFG_SPFWAIT a) + 1 + i)) =
                (bitsOf 6 sync ++ bitsOf 8 hdr ++ bitsOf l p ++ bitsOf 8 st ++ bitsOf 16 crc)[i]?) →
              let sum := crc16 ([hdr] ++ bytesOf (l / 8) p ++ [st])
              let seqOk : Prop := s.dev.flag (AXIS_SERCFG_SEQCHK a) = false ∨ x.serSeq = none ∨ ∃ k, x.serSeq = some k ∧ hdr % 16 = (k + 1) % 16
              (sync ≠ 0x2C → bad (AXIS_SERERR_LINE a)) ∧
              (sync = 0x2C → (s.dev.serHigh a f).isNone = true → bad (AXIS_SERERR_TIMEOUT a)) ∧
              (sync = 0x2C → (s.dev.serHigh a f).isSome = true → (crc ≠ sum → bad (AXIS_SERERR_CRC a)) ∧
                (crc = sum → (hdr / 64 ≠ code ∨ code = 3 → bad (AXIS_SERERR_LEN a)) ∧
                  (hdr / 64 = code → code ≠ 3 → (bitAt st 7 = true → bad (AXIS_SERERR_SENSOR a)) ∧
                    (bitAt st 7 = false → (¬ seqOk → bad (AXIS_SERERR_SEQ a)) ∧
                      (seqOk → good l p (if bitAt st 6 then [AXIS_SERERR_WARN a] else []))))))))))

/-- R97 to R105, R108: the estimator. From the second latch of a run on, the velocity is the movement over the window of WIN intervals, rounded to
2⁻⁴⁰ count per tick; extrapolation clamps short of the span; a prediction is made for a key that lies ahead; the HOLD that is due is counted,
shown and sent to every slice; after STOP µs without a latch the axis is stopped, its velocity 0, and a HOLD goes out where none has. -/
def Obligations.EstimatorPredictsHoldsAndStops : Prop :=
  (∀ (d : Dev) (a t ft : Nat) (rev brk : Bool),
    let x := d.axis a
    let n := if x.run = 0 ∨ x.runNext = true ∨ rev = true ∨ brk = true ∨ x.stopped = true ∨
        x.hist.head?.any (fun p => decide (p.2 + 51200 * max 1 (d.get (AXIS_ESTSTOP_STOP a)) < ft)) = true then 1 else min 64 (x.run + 1)
    ((d.estLatch a t ft rev brk).axis a).run = n ∧ ((d.estLatch a t ft rev brk).axis a).hist = ((x.t16, ft) :: x.hist).take 64 ∧
    (n = 1 → ((d.estLatch a t ft rev brk).axis a).vel = 0 ∧ (d.estLatch a t ft rev brk).get (AXIS_ESTSTAT_REBUILD a) = 1) ∧
    (∀ p, 2 ≤ n → (((x.t16, ft) :: x.hist).take 64)[min (max 1 (d.get (AXIS_ESTCFG_WIN a))) (n - 1)]? = some p → p.2 < ft →
      let v := ((d.estLatch a t ft rev brk).axis a).vel
      let dt : Int := (ft : Int) - p.2
      2 * ((x.t16 - p.1) * 2 ^ 30 - v * dt) < dt ∧ -dt ≤ 2 * ((x.t16 - p.1) * 2 ^ 30 - v * dt))) ∧
  (∀ (v : AxView) (ft : Nat), (v.ext = false → v.extrapolate ft = (v.t16, false)) ∧
    (v.ext = true → 0 < v.span → v.ft ≤ ft →
      ((v.extrapolate ft).2 = true ↔ (v.span - 1) * 2 ^ 30 ≤ v.vel.natAbs * ((ft : Int) - v.ft)) ∧
      ((v.extrapolate ft).2 = true → (v.extrapolate ft).1 = v.t16 + v.vel.sign * (v.span - 1)) ∧
      v.t16 - v.span < (v.extrapolate ft).1 ∧ (v.extrapolate ft).1 < v.t16 + v.span)) ∧
  (∀ (v : AxView) (k : Int), (v.predict k).isSome = true → v.ext = true ∧ v.vel ≠ 0 ∧ (0 < v.vel → v.t16 < k) ∧ (v.vel < 0 → k < v.t16)) ∧
  ∀ (s : State) (a : Fin 8),
    let x := s.dev.axis a
    let told (t : State) (hold : Bool) : Prop := (t.dev.msgs.drop s.dev.msgs.length).map (fun m => (m.q, m.a, m.due, m.hold)) =
      [0, 1, 2, 3].map (fun q => (q, a.val, (if q = a.val / 2 then s.dev.tick + 2 else s.dev.tick + 6), hold))
    (x.hist = [] ∨ x.run < 2 ∨ x.vel = 0 ∨ x.holdDone = true ∨ x.stopped = true → exec (.axisHold a) s = .next s) ∧
    (∀ p rest, x.hist = p :: rest → s.dev.tb.running = true → 2 ≤ x.run → x.vel ≠ 0 → x.holdDone = false → x.stopped = false →
      (max 16 (s.dev.get (AXIS_ESTCFG_HOLDF a)) : Int) * s.dev.axSpan a * 2 ^ 30 < 16 * (x.vel.natAbs : Int) * (((s.dev.now + 1) * 64 : Int) - p.2) →
        ∃ t, exec (.axisHold a) s = .next t ∧ t.dev.get (AXIS_ESTSTAT_HOLD_ISSUED a) = 1 ∧
          t.dev.get (AXIS_HOLDCNT_CNT a) = min (s.dev.get (AXIS_HOLDCNT_CNT a) + 1) (2 ^ 32 - 1) ∧ t.dev.axis a = { x with holdDone := true } ∧
          told t true ∧ Frame [.axes, .msgs] [AXIS_ESTSTAT_HOLD_ISSUED a, AXIS_HOLDCNT_CNT a] s t) ∧
    (x.hist = [] ∨ x.stopped = true ∨ s.dev.tick < x.lastLatch + 800 * max 1 (s.dev.get (AXIS_ESTSTOP_STOP a)) → exec (.axisStopped a) s = .next s) ∧
    (s.dev.tb.running = true → x.hist ≠ [] → x.run ≠ 0 → x.stopped = false →
      x.lastLatch + 800 * max 1 (s.dev.get (AXIS_ESTSTOP_STOP a)) ≤ s.dev.tick → ∃ t, exec (.axisStopped a) s = .next t ∧
        (t.dev.axis a).stopped = true ∧ (t.dev.axis a).vel = 0 ∧ (t.dev.axis a).holdDone = true ∧ t.dev.axExt a = false ∧
        (t.dev.axis a).hist = x.hist ∧ (t.dev.axis a).t16 = x.t16 ∧ bitAt (t.dev.estStat a) 3 = true ∧ told t (!x.holdDone) ∧
        (x.holdDone = false → t.dev.get (AXIS_HOLDCNT_CNT a) = min (s.dev.get (AXIS_HOLDCNT_CNT a) + 1) (2 ^ 32 - 1) ∧
          t.dev.get (AXIS_ESTSTAT_HOLD_ISSUED a) = 1) ∧
        (x.holdDone = true → Frame [.axes, .msgs] [] s t) ∧
        Frame [.axes, .msgs] [AXIS_ESTSTAT_HOLD_ISSUED a, AXIS_HOLDCNT_CNT a] s t)

/-- R110, R111, R114, R115, R118 to R123: emulators. The divider brings at most one output count per source count and keeps its accumulator
below N; EN is set only for 1 ≤ M ≤ N and records C0, P0 and the phase; a ratio written while EN is 1 waits for the next source count; a
waiting count goes out once it is due and 32 ticks after the last change, as one step of the quadrature; a slave answers a falling clock edge
with a frame, one level for each rising edge, low after the last, and is idle again after TM µs, counting the answer or the abort. -/
def Obligations.EmulatorsDivideAndAnswer : Prop :=
  (∀ (m n : Nat) (acc : Int) (up : Bool), m ≤ n → 0 ≤ acc → acc < n → 0 ≤ (divStep m n acc up).1 ∧ (divStep m n acc up).1 < n ∧
    (up = true → (divStep m n acc up).1 + n * b2n (divStep m n acc up).2 = acc + m) ∧
    (up = false → (divStep m n acc up).1 - n * b2n (divStep m n acc up).2 = acc - m)) ∧
  ∀ (s : State) (w : Sender) (a : Fin 8),
    let x := s.dev.emu a
    let on := s.dev.flag (AXIS_EMU_CFG_EN a)
    let m := s.dev.get (AXIS_EMU_RATIO_M_M a)
    let n := s.dev.get (AXIS_EMU_RATIO_N_N a)
    (∀ v : Word, s.dev.takesLate (writerOf w) (AXIS_EMU_CFG a) = true → v &&& 0xFF7F0FF3 = v → bits v.toNat 6 2 ≠ 3 →
      (on = true → ∃ u t, exec (.emuEnable w a v) s = .next u ∧ lands s u t ∧ t.dev.word (AXIS_EMU_CFG a) = v ||| 1 ∧ Frame [] [whole (AXIS_EMU_CFG a)] s t) ∧
      (on = false → 1 ≤ m → m ≤ n → ∃ u t, exec (.emuEnable w a v) s = .next u ∧ lands s u t ∧ t.dev.word (AXIS_EMU_CFG a) = v ||| 1 ∧
        (t.dev.emu a).acc = min (s.dev.get (AXIS_EMU_PHASE_PHASE a)) (n - 1) ∧ (t.dev.emu a).c0 = x.c ∧ (t.dev.emu a).c = x.c ∧
        (t.dev.emu a).p0 = (s.dev.axis (bits v.toNat 9 3)).t16 / 65536 ∧ (t.dev.emu a).m = m ∧ (t.dev.emu a).n = n ∧
        (∀ k, k ≠ a.val → t.dev.emu k = s.dev.emu k) ∧ Frame [.emus, .heldHi] [whole (AXIS_EMU_CFG a)] s t) ∧
      (on = false → m = 0 ∨ n < m → ∃ u t, exec (.emuEnable w a v) s = .next u ∧ lands s u t ∧ t.dev.get (AXIS_EMU_CFG_EN a) = 0 ∧
        t.dev.get (AXIS_EMU_STATUS_RATIO_ERR a) = 1 ∧ t.dev.word (AXIS_EMU_CFG a) = v &&& 0xFFFFFFFE ∧
        Frame [.heldHi] [whole (AXIS_EMU_CFG a), AXIS_EMU_STATUS_RATIO_ERR a] s t)) ∧
    (let p := s.dev.get (AXIS_EMU_ZCFG_ZPERIOD a)
     s.dev.emuZ a = (decide (p ≠ 0) && s.dev.flag (AXIS_EMU_CFG_ZEN a) && decide (x.c % (p : Int) = s.dev.get (AXIS_EMU_ZCFG_ZPOS a)))) ∧
    (∀ v : Word, s.dev.takes (writerOf w) (AXIS_EMU_RATIO_N a) = true → v &&& 0xFFFFFF = v →
      let held := (Tab.get 0 s.dev.heldHi (AXIS_EMU_RATIO_M a)).toNat
      let mN := if held = 0 then m else held % 2 ^ 24
      (on = false → ∃ t, exec (.emuRatioNWrite w a v) s = .next t ∧ t.dev.get (AXIS_EMU_RATIO_N_N a) = v.toNat ∧
        Frame [] [AXIS_EMU_RATIO_N_N a] s t) ∧
      (on = true → 1 ≤ mN → mN ≤ v.toNat → ∃ t, exec (.emuRatioNWrite w a v) s = .next t ∧ t.dev.get (AXIS_EMU_RATIO_M_M a) = mN ∧
        t.dev.get (AXIS_EMU_RATIO_N_N a) = v.toNat ∧ t.dev.emu a = { x with newRatio := some (mN, v.toNat) } ∧
        (t.dev.emu a).takeRatio.m = mN ∧ (t.dev.emu a).takeRatio.n = v.toNat ∧ (t.dev.emu a).takeRatio.acc = x.acc * v.toNat / x.n ∧
        Frame [.emus, .heldHi] [AXIS_EMU_RATIO_M_M a, AXIS_EMU_RATIO_N_N a] s t) ∧
      (on = true → mN = 0 ∨ v.toNat < mN → ∃ t, exec (.emuRatioNWrite w a v) s = .next t ∧ t.dev.get (AXIS_EMU_STATUS_RATIO_ERR a) = 1 ∧
        Frame [.heldHi] [AXIS_EMU_STATUS_RATIO_ERR a] s t)) ∧
    (x.backlog = [] → exec (.emuOutputEdge a) s = .next s) ∧
    (∀ e r, x.backlog = e :: r →
      (s.dev.tick < e.due ∨ (∃ l, x.lastOut = some l ∧ s.dev.tick < l + 32) → exec (.emuOutputEdge a) s = .next s) ∧
      (s.dev.tb.running = true → e.due ≤ s.dev.tick → (∀ l, x.lastOut = some l → l + 32 ≤ s.dev.tick) →
        ∃ t, exec (.emuOutputEdge a) s = .next t ∧ (t.dev.emu a).out = quadNext x.out e.up ∧ (t.dev.emu a).shown = e.c ∧
          (t.dev.emu a).lastOut = some s.dev.tick ∧ (t.dev.emu a).backlog = r ∧ (t.dev.emu a).c = x.c ∧ (t.dev.emu a).acc = x.acc ∧
          (∀ k, k ≠ a.val → t.dev.emu k = s.dev.emu k) ∧ Frame [.emus] [] s t)) ∧
    (let mode := s.dev.get (AXIS_EMU_CFG_SLAVE a)
    (mode = 0 → exec (.slaveFrameStart a) s = .next s ∧ ∀ r, exec (.slaveClockEdge a r) s = .next s) ∧
    (mode ≠ 0 → x.frame = none → x.data = true → x.clk = true → s.dev.tb.running = true → ∃ t, exec (.slaveFrameStart a) s = .next t ∧
      (∃ l, (t.dev.emu a).frame = some l ∧
        (mode = 1 → s.dev.flag (AXIS_EMU_CFG_SMOOTH a) = false → x.recent = [] → s.dev.flag (AXIS_EMU_SLVCFG_ERR_EN a) = false →
          s.dev.flag (AXIS_EMU_SLVCFG_GRAY a) = false →
          l = bitsOf (clampN 8 48 (s.dev.get (AXIS_EMU_SLVCFG_NBITS a))) (uns (clampN 8 48 (s.dev.get (AXIS_EMU_SLVCFG_NBITS a))) x.c)) ∧
        (mode ≠ 1 → l.length = 40 + spfLen (s.dev.get (AXIS_EMU_SLVCFG_SPFLEN a)) ∧ l.take 8 = [true, true, true, false, true, true, false, false])) ∧
      (t.dev.emu a).clk = false ∧ (t.dev.emu a).data = decide (mode ≠ 1) ∧
      (t.dev.emu a).seq = (if mode = 2 then (x.seq + 1) % 16 else x.seq) ∧ (t.dev.emu a).c = x.c ∧ Frame [.emus] [] s t) ∧
    (mode ≠ 0 → ∀ l, x.frame = some l → exec (.slaveFrameStart a) s = .next s ∧
      (∃ t, exec (.slaveClockEdge a true) s = .next t ∧ (t.dev.emu a).clk = true ∧ (t.dev.emu a).clkHigh = s.dev.tick ∧
        (t.dev.emu a).data = (l.head?.getD false) ∧ (t.dev.emu a).frame = some (l.drop 1) ∧ Frame [.emus] [] s t) ∧
      (∃ t, exec (.slaveClockEdge a false) s = .next t ∧ t.dev.emu a = { x with clk := false } ∧ Frame [.emus] [] s t))) ∧
    (x.frame = none → exec (.slaveIdleTimeout a) s = .next s) ∧
    (∀ l, x.frame = some l → let tm := 800 * clampN 1 1000 (s.dev.get (AXIS_EMU_SLVCFG_TM a))
      (x.clk = false ∨ s.dev.tick < x.clkHigh + tm → exec (.slaveIdleTimeout a) s = .next s) ∧
      (x.clk = true → x.clkHigh + tm ≤ s.dev.tick → ∃ t, exec (.slaveIdleTimeout a) s = .next t ∧
        t.dev.emu a = { x with frame := none, data := true } ∧
        t.dev.get (AXIS_EMU_SLVCNT_ANSWERED a) = min (s.dev.get (AXIS_EMU_SLVCNT_ANSWERED a) + b2n (decide (l = []))) 65535 ∧
        t.dev.get (AXIS_EMU_SLVCNT_ABORTED a) = min (s.dev.get (AXIS_EMU_SLVCNT_ABORTED a) + b2n (decide (l ≠ []))) 65535 ∧
        Frame [.emus] [AXIS_EMU_SLVCNT_ANSWERED a, AXIS_EMU_SLVCNT_ABORTED a] s t))

/-- R128, R130, R133 to R138: how a slice stores entries. A TIME key is resolved to the one STIME value within 2⁵⁷ ticks that it names; an
accepted entry goes to the insertion stage or into its calendar bucket, or completes with CAL_FULL; the insertion stage serves the earliest
request of the least class and takes 10 ticks for each; the horizon draws from its lists in turn, an entry
160 ticks after the load of its bucket began, and the entry stays in the calendar until it is inserted; L2 buckets, far lists and position
wheels move their entries, one in a tick, as time and position go on. -/
def Obligations.CoachAcceptsInsertsAndDraws : Prop :=
  (∀ now key : Nat, let K := timeKey now key
    (now : Int) - 2 ^ 57 ≤ K / 64 ∧ K / 64 < (now : Int) + 2 ^ 57 ∧ (K / 64 - (key / 64 : Nat)) % 2 ^ 58 = 0 ∧ K % 64 = (key % 64 : Nat)) ∧
  (∀ (n : Nat) (l : List InsReq) (r : InsReq), insFirst n l = some r → r ∈ l ∧ r.from_ ≤ n ∧ r.cls < 4 ∧ ∀ x ∈ l, x.from_ ≤ n → r.cls ≤ x.cls) ∧
  ∀ (s : State) (q : Fin 4),
    let z := s.dev.slice q
    let others (t : State) : Prop := ∀ m, m ≠ q.val → t.dev.slice m = s.dev.slice m
    (z.offers = [] ∨ s.dev.quadDown q = true → exec (.coachAccept q) s = .next s) ∧
    (∀ o rest, z.offers = o :: rest → s.dev.quadDown q = false → z.insq.all (fun r => r.who.all (fun p => p.1 != o.who)) = true →
      let e := { o.e with key := if o.e.ktype = 0 then timeKey s.dev.now o.e.key.toNat else o.e.key, acc := z.nextAcc, accTick := s.dev.tick }
      let fits := (z.cal.filter (fun p => p.1 == s.dev.bucketOf q e)).length % 4 ≠ 0 ∨ blocksUsed z.cal < s.dev.calBlocks q
      (s.dev.inLoaded q e = true → ∃ t, exec (.coachAccept q) s = .next t ∧
        t.dev.slice q = { z with offers := rest, nextAcc := z.nextAcc + 1,
                                 insq := z.insq ++ [{ cls := 3, e, from_ := s.dev.tick, who := some (o.who, o.last) }] } ∧
        others t ∧ Frame [.slices] [] s t) ∧
      (s.dev.inLoaded q e = false → fits → ∃ t, exec (.coachAccept q) s = .next t ∧
        t.dev.slice q = { z with offers := rest, nextAcc := z.nextAcc + 1, cal := z.cal ++ [(s.dev.bucketOf q e, e)] } ∧ others t ∧
        (∀ m, o.who = .port m → (t.dev.me m).coachDone = (s.dev.me m).coachDone ++ [(0, 0)]) ∧
        Frame [.slices, .cmt, .host, .mes] (if e.arming = 0 then [] else groupFields) s t) ∧
      (s.dev.inLoaded q e = false → ¬ fits → ∃ t, exec (.coachAccept q) s = .next t ∧
        (t.dev.slice q).cal = z.cal ∧ (t.dev.slice q).insq = z.insq ∧ (t.dev.slice q).nextAcc = z.nextAcc + 1 ∧ others t ∧
        t.dev.get (COACH_CALFULL_CNT q) = min (s.dev.get (COACH_CALFULL_CNT q) + 1) (2 ^ 32 - 1) ∧ t.dev.get (COACH_STATUS_CAL_EXHAUSTED q) = 1 ∧
        (∀ m, o.who = .port m → (t.dev.me m).coachDone = (s.dev.me m).coachDone ++ [(2, 0)]) ∧
        Frame [.slices, .cmt, .host, .mes, .tpls] (COACH_CALFULL_CNT q :: COACH_STATUS_CAL_EXHAUSTED q :: groupFields) s t)) ∧
    (z.insq = [] → exec (.insertion q) s = .next s) ∧
    (∀ r, z.insq = [r] → r.cls < 4 → (let b := max z.insFree r.from_
      (s.dev.tick < b + 10 → exec (.insertion q) s = .next s) ∧
      (b + 10 ≤ s.dev.tick → r.cls ≠ 2 → r.drawn = false → z.cancels = [] → z.hor.length < 4096 → r.e.arming = 0 → ∃ t, exec (.insertion q) s = .next t ∧
        t.dev.slice q = { z with insq := [], insFree := b + 10, hor := z.hor ++ [r.e] } ∧ others t ∧
        t.dev.get (COACH_HOCC_HIGH q) = max (s.dev.get (COACH_HOCC_HIGH q)) (z.hor.length + 1) ∧
        (∀ m last, r.who = some (.port m, last) → (t.dev.me m).coachDone = (s.dev.me m).coachDone ++ [(0, 0)]) ∧
        Frame [.slices, .host, .mes] [COACH_HOCC_HIGH q] s t) ∧
      (b + 10 ≤ s.dev.tick → r.cls ≠ 2 → r.drawn = true → r.who = none → z.cancels = [] → z.hor.length < 4096 → ∃ t, exec (.insertion q) s = .next t ∧
        (z.cal.any (fun p => p.2 == r.e) = true → t.dev.slice q = { z with
          insq := [], insFree := b + 10, hor := z.hor ++ [r.e], cal := z.cal.eraseP (fun p => p.2 == r.e) }) ∧
        (z.cal.any (fun p => p.2 == r.e) = false → t.dev.slice q = { z with insq := [], insFree := b + 10 }) ∧
        others t ∧ Frame [.slices] [COACH_HOCC_HIGH q] s t) ∧
      (∀ c, b + 10 ≤ s.dev.tick → r.cls = 2 → r.e.car = some c → ∃ t, exec (.insertion q) s = .next t ∧
        t.dev.slice q = { z with insq := [], insFree := b + 10 } ∧ (t.dev.car c).buf = (s.dev.car c).buf ++ [r.e] ∧
        (∀ m, m ≠ c → t.dev.car m = s.dev.car m) ∧ Frame [.slices, .cars] [] s t))) ∧
    (let turn := (List.range 9).map (fun k => (z.drawTurn + k) % 9)
    (∀ ue, s.dev.quadDown q = true ∨ 4096 ≤ z.hor.length + (z.insq.filter (fun r => r.cls != 2)).length ∨
        turn.find? (fun l => (s.dev.drawFrom q l).isSome) = none → exec (.horizonDraw q ue) s = .next s) ∧
    (∀ l b e, s.dev.quadDown q = false → z.hor.length + (z.insq.filter (fun r => r.cls != 2)).length < 4096 →
      turn.find? (fun l => (s.dev.drawFrom q l).isSome) = some l → s.dev.drawFrom q l = some (b, e) →
      (∃ t, exec (.horizonDraw q none) s = .next t ∧ (b, e) ∈ z.cal ∧
        t.dev.slice q = { z with drawTurn := (l + 1) % 9, loads := (t.dev.slice q).loads,
                                 insq := z.insq ++ [{ cls := 3, e, from_ := z.loadTick b s.dev.tick, drawn := true }] } ∧
        (z.loads.any (fun p => p.1 == b) = false → z.loadTick b s.dev.tick = s.dev.tick + 160 ∧ (b, s.dev.tick + 160) ∈ (t.dev.slice q).loads) ∧
        (∀ p, z.loads.find? (fun p => p.1 == b) = some p → z.loadTick b s.dev.tick = max s.dev.tick p.2 ∧ p ∈ (t.dev.slice q).loads) ∧
        others t ∧ Frame [.slices] [] s t) ∧
      (∀ x : CalLoss, ∃ t, exec (.horizonDraw q (some x)) s = .next t ∧
        ((synRead x.syn.toNat).kind = 1 → t.dev.get MEM_STATUS_CE = 1) ∧
        ((synRead x.syn.toNat).kind ≠ 1 → t.dev.get MEM_STATUS_UE = 1 ∧ ∀ p ∈ (t.dev.slice q).cal, p ∈ (bucketCut b (4 * x.block) z.cal).1)))) ∧
    (let c := s.dev.now / 2 ^ 22
    let due (p : Bucket × Entry) : Prop := ∃ n, p.1 = .time2 n ∧ n ≤ c
    (∀ ue, s.dev.quadDown q = true ∨ c = z.cur2 ∨ z.moved = s.dev.tick + 1 → exec (.calendarL2Move q ue) s = .next s) ∧
    (s.dev.quadDown q = false → c ≠ z.cur2 → z.moved ≠ s.dev.tick + 1 → ∃ t, exec (.calendarL2Move q none) s = .next t ∧
      ((∀ p ∈ z.cal, ¬ due p) → t.dev.slice q = { z with cur2 := c }) ∧
      (∀ (i : Nat) (p : Bucket × Entry), z.cal[i]? = some p → due p → (∀ j < i, ∀ y, z.cal[j]? = some y → ¬ due y) →
        t.dev.slice q = { z with moved := s.dev.tick + 1, cal := z.cal.set i (.time1 ((p.2.key / 64).toNat / 4096), p.2) }) ∧
      others t ∧ Frame [.slices] [] s t)) ∧
    (let scan (i : Instr) (b : Bucket) (n : Nat) (ends on : State → Prop) : Prop := ∃ t, exec i s = .next t ∧
      ((z.cal.filter (fun p => p.1 == b))[n]? = none → ends t) ∧
      (∀ p, (z.cal.filter (fun p => p.1 == b))[n]? = some p → (t.dev.slice q).moved = s.dev.tick + 1 ∧
        (s.dev.bucketOf q p.2 = b → (t.dev.slice q).cal = z.cal ∧ on t) ∧
        (s.dev.bucketOf q p.2 ≠ b → ∃ i : Nat, z.cal[i]? = some p ∧
          t.dev.slice q = { z with moved := s.dev.tick + 1, cal := z.cal.set i (s.dev.bucketOf q p.2, p.2) })) ∧ others t ∧ Frame [.slices] [] s t
    (let c := s.dev.now / 2 ^ 32
    (∀ ue, s.dev.quadDown q = true ∨ c = z.scanned ∨ z.moved = s.dev.tick + 1 → exec (.farListScan q ue) s = .next s) ∧
    (s.dev.quadDown q = false → c ≠ z.scanned → z.moved ≠ s.dev.tick + 1 → scan (.farListScan q none) .timeFar z.farSeen
      (fun t => t.dev.slice q = { z with scanned := c, farSeen := 0 }) (fun t => (t.dev.slice q).farSeen = z.farSeen + 1))) ∧
    (∀ a : Fin 8, let c := s.dev.posBucket q a (s.dev.view q a).t16
      (∀ ue, s.dev.quadDown q = true ∨ (c - Tab.get 0 z.centre a).natAbs < 256 ∨ z.moved = s.dev.tick + 1 →
        exec (.positionWheelRescan q a ue) s = .next s) ∧
      (s.dev.quadDown q = false → 256 ≤ (c - Tab.get 0 z.centre a).natAbs → z.moved ≠ s.dev.tick + 1 →
        scan (.positionWheelRescan q a none) (.posFar a) (Tab.get 0 z.posSeen a)
          (fun t => t.dev.slice q = { z with centre := Tab.set 0 z.centre a c, posSeen := Tab.set 0 z.posSeen a 0 })
          (fun t => Tab.get 0 (t.dev.slice q).posSeen a = Tab.get 0 z.posSeen a + 1)))) ∧
    (let first := firstIdx (fun a => Tab.get none z.loaded a != some (s.dev.posBucket q a (s.dev.view q a).t16)) 0 8
    (s.dev.quadDown q = true ∨ first = none → exec (.bucketLoad q) s = .next s) ∧
    (∀ a, s.dev.quadDown q = false → first = some a → ∃ t, exec (.bucketLoad q) s = .next t ∧
      let c := s.dev.posBucket q a (s.dev.view q a).t16
      let old := s.dev.loadedAt q a
      let left (n : Int) : Prop := (old ≤ c ∧ old - 1 ≤ n ∧ n < c - 1) ∨ (c < old ∧ c + 1 < n ∧ n ≤ old + 1)
      Tab.get none (t.dev.slice q).loaded a = some c ∧ (t.dev.slice q).cal.length = z.cal.length ∧
      (∀ (i : Nat) (n : Int) (e : Entry), z.cal[i]? = some (.pos1 a n, e) → left n → (t.dev.slice q).cal[i]? = some (.posPast a, e)) ∧
      (∀ (i : Nat) (p : Bucket × Entry), z.cal[i]? = some p → (∀ n, p.1 = .pos1 a n → ¬ left n) → (t.dev.slice q).cal[i]? = some p) ∧ others t ∧ Frame [.slices] [] s t))

/-- R139, R140, R144, R145, R148, R149: the arm stage. A TIME entry is eligible 1,280 ticks ahead; the entry with the least fire estimate, then the
least PRIO, then the earliest acceptance is taken, if a slot is free; it fires at its estimate but not before a + 256, and is LATE where that is
later; a passed one fires at a + 256 or, under LATEPOL, is discarded and counted; a taken slot is live from a + 256; the copy of a
repeating entry goes to the insertion stage with its key moved on by REPINT. -/
def Obligations.ArmStageTakesInFireOrder : Prop :=
  (∀ l x, armBest l = some x → x ∈ l ∧ ∀ y ∈ l, armBefore y x = false) ∧ (∀ l, armBest l = none → l = []) ∧
  (∀ (d : Dev) (q : Nat) (e : Entry), e.ktype = 0 → ((d.armEstimate q e).isSome = true ↔ e.key / 64 ≤ (d.now : Int) + 1280)) ∧
  (∀ (e : Entry) (rev : Bool) (n tick : Nat), let y := e.copy rev n tick
    y.repcnt = e.repcnt - 1 ∧ y.acc = n ∧ y.accTick = tick ∧ y.target = e.target ∧ y.action = e.action ∧ y.dir = e.dir ∧
    (e.ktype = 0 → y.key = e.key + (if e.repsh then e.repint * 64 else e.repint)) ∧
    (e.ktype ≠ 0 → let step : Int := if e.repsh then e.repint * 65536 else e.repint * 256
      y.key = sgn 64 (uns 64 (if e.dir = 1 ∨ (e.dir = 2 ∧ rev = true) then e.key - step else e.key + step)))) ∧
  ∀ (s : State) (q : Fin 4),
    let z := s.dev.slice q
    let sees := (s.dev.armSees q).filterMap (fun p => (s.dev.armEstimate q p.2).map (fun f => (f, p.1, p.2)))
    let ready : Prop := s.dev.quadDown q = false ∧ s.dev.napping = false ∧ s.dev.flag (COACH_CTL_EN q) = true ∧ z.took ≠ s.dev.tick + 1 ∧
      s.dev.slotsHeld q < 1024
    let lead : Int := (s.dev.now + 256 : Nat) * 64
    (¬ ready → exec (.armTake q) s = .next s) ∧
    (ready → z.cancels = [] → armBest sees = none → exec (.armTake q) s = .next s) ∧
    (∀ f how e, ready → z.cancels = [] → armBest sees = some ((f, how), .horizon, e) → e.car = none →
      (how = 0 → e.latepol = true → e.repcnt = 0 → e.recmode = 0 → e.arming = 0 → ∃ t, exec (.armTake q) s = .next t ∧
        t.dev.slice q = { z with hor := removeFirst e z.hor, took := s.dev.tick + 1 } ∧
        t.dev.get (COACH_DISCCNT_CNT q) = min (s.dev.get (COACH_DISCCNT_CNT q) + 1) (2 ^ 32 - 1) ∧ Frame [.slices] [COACH_DISCCNT_CNT q] s t) ∧
      (¬ (how = 0 ∧ e.latepol = true) → ∃ t, exec (.armTake q) s = .next t ∧ ∃ x, (t.dev.slice q).slots = z.slots ++ [x] ∧
        t.dev.slice q = { z with
          hor := removeFirst e z.hor, took := s.dev.tick + 1, slots := z.slots ++ [x], nextSlot := z.nextSlot + 1
          nextAcc := if e.repcnt = 0 then z.nextAcc else z.nextAcc + 1
          insq := if e.repcnt = 0 then z.insq else z.insq ++
            [{ cls := 1, e := e.copy (s.dev.view q e.axis).rev z.nextAcc s.dev.tick, from_ := s.dev.tick, origin := some z.nextSlot }] } ∧
        x.id = z.nextSlot ∧ x.e = e ∧ x.a = s.dev.tick ∧ x.live = false ∧ x.unext = e.unext ∧
        (how = 0 → x.kind = 0 ∧ x.f = lead ∧ x.late = true) ∧
        (how = 1 → x.f = max f lead ∧ x.late = decide (f < lead) ∧ x.ideal = some f ∧ x.kind = (if e.ktype = 0 then 0 else 1)) ∧
        (2 ≤ how → x.kind = 2 ∧ x.late = false) ∧
        t.dev.get (COACH_AOCC_HIGH q) = max (s.dev.get (COACH_AOCC_HIGH q)) (t.dev.slotsHeld q) ∧
        (∀ m, m ≠ q.val → t.dev.slice m = s.dev.slice m) ∧ Frame [.slices] [COACH_AOCC_HIGH q] s t)) ∧
    (∀ k : Nat, ∃ t, exec (.slotLive q k) s = .next t ∧
      t.dev.slice q = { z with slots := z.slots.map (fun x => if x.id = k ∧ x.a + 256 ≤ s.dev.tick then { x with live := true } else x) } ∧
      (∀ m, m ≠ q.val → t.dev.slice m = s.dev.slice m) ∧ Frame [.slices] [] s t)
/-- R101 to R104, R141 to R143, R147, R161: re-aims, HOLDs and firing. A re-aim that arrives at least 4 ticks ahead moves a timed slot to the new
prediction, not before a + 256, or fires it at once where that lies at or before now; a HOLD withdraws the timed slots beyond the span that
it reaches in time and marks the others CLAMP; a live slot fires once when it is due, acts unless an entry of lower PRIO has its target, counts
LATE and COLLIDE, and is gone. -/
def Obligations.SlotsAreAimedAndFire : Prop :=
  (∀ (x : Slot) (m : AxMsg) (t0 : Int) (now : Nat) (lead : Int), m.rev = false → m.edge = false → m.jump = false →
    let v := m.view
    let beyond : Prop := if v.rev then x.e.key < v.t16 - v.span else v.t16 + v.span < x.e.key
    (m.hold = true → x.kind = 1 → x.crossed = none → (m.all = true ∨ beyond) → x.told m t0 now lead =
      some (if (now : Int) + 4 ≤ x.f / 64 then { x with kind := 2, late := false, ideal := none } else { x with clamp := true })) ∧
    (m.hold = false → x.kind = 1 → v.ext = true → (now : Int) + 4 ≤ x.f / 64 → x.e.passed v now = false → ∀ p, v.predict x.e.key = some p →
      ((now : Int) < p / 64 → ∃ y, x.told m t0 now lead = some y ∧ y.kind = 1 ∧ y.f = max p lead ∧ y.late = decide (p < lead)) ∧
      (p / 64 ≤ now → ∃ y, x.told m t0 now lead = some y ∧ y.kind = 0 ∧ y.f = max ((now * 64 : Nat) : Int) lead ∧ y.late = true)) ∧
    (m.hold = false → x.kind = 1 → v.ext = true → x.f / 64 < (now : Int) + 4 → x.told m t0 now lead = some x) ∧
    (x.kind = 0 → x.told m t0 now lead = some x)) ∧
  ∀ (s : State) (q : Fin 4),
    let z := s.dev.slice q
    (∀ (a : Fin 8), let first := s.dev.msgs.find? (fun m => m.q == q.val && m.a == a.val)
      (first = none → exec (.reaimArrive q a) s = .next s ∧ exec (.holdArrive q a) s = .next s) ∧
      (∀ m, first = some m → (s.dev.tick < m.due ∨ m.hold = true → exec (.reaimArrive q a) s = .next s) ∧
        (s.dev.tick < m.due ∨ m.hold = false → exec (.holdArrive q a) s = .next s) ∧
        (m.due ≤ s.dev.tick → ∃ t, exec (if m.hold then .holdArrive q a else .reaimArrive q a) s = .next t ∧
          t.dev.msgs = removeFirst m s.dev.msgs ∧ t.dev.view q a = m.view ∧ (∀ b, b ≠ a.val → t.dev.view q b = s.dev.view q b) ∧
          (t.dev.slice q).slots = z.slots.filterMap (fun x => if x.e.ktype = 1 ∧ x.e.axis = a.val
            then x.told m (s.dev.view q a).t16 s.dev.now ((s.dev.stimeAt (x.a + 256) * 64 : Nat) : Int) else some x) ∧
          (t.dev.slice q).hor = z.hor ∧ (m.jump = false → (t.dev.slice q).cal = z.cal) ∧
          (m.rev = false → (t.dev.slice q).insq = z.insq) ∧
          (∀ k, k ≠ q.val → t.dev.slice k = s.dev.slice k) ∧ Frame [.slices, .msgs] [] s t))) ∧
    (∀ k : Nat, z.cancels = [] →
      (z.slots.find? (fun x => x.id == k) = none → exec (.slotFire q k) s = .next s) ∧
      (∀ x, z.slots.find? (fun x => x.id == k) = some x →
        (x.isDue s.dev.now = false ∨ s.dev.quadDown q = true ∨ s.dev.pw.waking = true → exec (.slotFire q k) s = .next s) ∧
        (∀ f, x.isDue s.dev.now = true → s.dev.quadDown q = false → s.dev.pw.waking = false → x.due = some f → f / 64 = s.dev.now →
          x.e.recmode = 0 → x.e.car = none → x.e.arming = 0 → x.e.action ≤ 5 → (z.fired.1 = s.dev.tick + 1 → z.fired.2 = []) →
          let rivals := z.slots.filter (fun y => y.id != k && y.isDue s.dev.now && y.e.goal == x.e.goal)
          let d1 := s.dev.modSlice q (fun w => { w with slots := w.slots.filter (fun y => y.id != k), fired := (s.dev.tick + 1, [(x.e.goal).getD (0, 0)]) })
          let wins := x.e.action = 0 ∨ ∀ y ∈ rivals, x.e.prio < y.e.prio ∨ (x.e.prio = y.e.prio ∧ x.e.acc ≤ y.e.acc)
          ∃ t, exec (.slotFire q k) s = .next t ∧ (t.dev.slice q).slots = z.slots.filter (fun y => y.id != k) ∧
            (t.dev.slice q).hor = z.hor ∧ (t.dev.slice q).cal = z.cal ∧ (t.dev.slice q).insq = z.insq ∧
            (∀ m, m ≠ q.val → t.dev.slice m = s.dev.slice m) ∧
            (x.late = true → t.dev.get (COACH_LATECNT_CNT q) = min (s.dev.get (COACH_LATECNT_CNT q) + 1) (2 ^ 32 - 1) ∧
              t.dev.get (COACH_STATUS_LATE_SEEN q) = 1) ∧
            (x.late = false → t.dev.get (COACH_LATECNT_CNT q) = s.dev.get (COACH_LATECNT_CNT q)) ∧
            (¬ wins → x.e.action ≠ 5 → t.dev.get (COACH_COLLCNT_CNT q) = min (s.dev.get (COACH_COLLCNT_CNT q) + 1) (2 ^ 32 - 1) ∧
              Frame [.slices] [COACH_COLLCNT_CNT q, COACH_LATECNT_CNT q, COACH_STATUS_LATE_SEEN q] s t) ∧
            (wins → t.dev.get (COACH_COLLCNT_CNT q) = s.dev.get (COACH_COLLCNT_CNT q) ∧
              (x.e.action = 0 → Frame [.slices] [COACH_LATECNT_CNT q, COACH_STATUS_LATE_SEEN q] s t) ∧
              (x.e.action = 5 → t.dev.xev = (d1.raiseEventAt q (0x440 + x.e.target) s.dev.tick (d1.tickStamp q s.dev.tick)).xev ∧
                Frame [.slices, .xev] [COACH_LATECNT_CNT q, COACH_STATUS_LATE_SEEN q] s t) ∧
              (x.e.action = 1 → t.dev.fes = (d1.feStart (64 * q + x.e.target) (s.dev.tick * 64 + (f % 64).toNat) s.dev.tick 0).fes) ∧
              (x.e.action = 2 → t.dev.fes = (d1.feStop (64 * q + x.e.target) s.dev.tick).fes) ∧
              (x.e.action = 3 → t.dev.tcs = (d1.tcTrigger (256 * q + x.e.target) s.dev.tick).tcs) ∧
              (x.e.action = 4 → t.dev.tcs = (d1.tcCapture (256 * q + x.e.target) s.dev.tick 5 (d1.tickStamp q s.dev.tick)).tcs)))))

/-- R133, R151, R164, R165: the Coach's control. EN is refused where the region passes the end of stacked memory; a FLUSH while EN is 0 discards
every entry and closes every carriage without records; the search of a cancel leaves template entries and later entries, goes through the
calendar at one entry per tick, removes the others that match, those that were moving among them, and reports how many. -/
def Obligations.CoachIsControlledAndCancels : Prop :=
  (∀ (c : Cancel) (e : Entry), c.hits e = true ↔ e.car = none ∧ e.reject = false ∧ e.tag = c.tag ∧ e.acc < c.accNo ∧
    (c.pos = true → e.ktype = 1 ∧ e.axis = c.axis) ∧ (c.pos = false → e.ktype = 0)) ∧
  ∀ (s : State) (q : Fin 4),
    let z := s.dev.slice q
    (z.cancels = [] → exec (.cancelComplete q) s = .next s) ∧
    (∀ c rest, z.cancels = c :: rest → (c.swept = true ∨ s.dev.tick < c.start + 64) → s.dev.tick < c.ends → exec (.cancelComplete q) s = .next s) ∧
    (∀ c rest, z.cancels = c :: rest → c.swept = true → c.ends ≤ s.dev.tick →
      let moving := z.insq.filter (fun x => c.hits x.e && !x.drawn)
      let n := c.removed + (z.cal.filter (fun p => c.hits p.2)).length + moving.length
      ∃ t, exec (.cancelComplete q) s = .next t ∧ (t.dev.slice q).cal = z.cal.filter (fun p => !c.hits p.2) ∧
        (t.dev.slice q).hor = z.hor ∧ (t.dev.slice q).slots = z.slots ∧ (t.dev.slice q).insq = z.insq.filter (fun x => !c.hits x.e) ∧
        (rest = [] → (t.dev.slice q).cancels = []) ∧
        (∀ x y, rest = x :: y → ∃ x', (t.dev.slice q).cancels = x' :: y ∧ x'.tag = x.tag ∧ x'.start = s.dev.tick ∧ x'.accNo = z.nextAcc) ∧
        (∀ m, c.who = .port m → ∃ l, (t.dev.me m).coachDone = l ++ [(0, min n 65535)] ∧ (moving = [] → l = (s.dev.me m).coachDone)) ∧
        (∀ m, m ≠ q.val → t.dev.slice m = s.dev.slice m) ∧
        ((∀ p ∈ z.cal, c.hits p.2 = true → p.2.arming = 0) → moving = [] → Frame [.slices, .host, .mes] [] s t) ∧
        Frame [.slices, .host, .mes, .cmt, .tpls] groupFields s t) ∧
    (∀ c rest, z.cancels = c :: rest → c.swept = true → s.dev.tick < c.ends → ∀ p, z.cal[c.seen]? = some p →
      let u := (s.dev.cancelTick q).slice q
      (c.hits p.2 = true → u.cal = removeFirst p z.cal ∧ ∃ c', u.cancels = c' :: rest ∧ c'.removed = c.removed + 1 ∧ c'.seen = c.seen) ∧
      (c.hits p.2 = false → u = { z with cancels := { c with seen := c.seen + 1 } :: rest })) ∧
    (∀ c rest, z.cancels = c :: rest → c.swept = false → c.start + 64 ≤ s.dev.tick → s.dev.tick < c.ends →
      ∃ t, exec (.cancelComplete q) s = .next t ∧ (t.dev.slice q).hor = z.hor.filter (fun e => !c.hits e) ∧
        (∀ x ∈ z.slots, c.hits x.e = false → x ∈ (t.dev.slice q).slots) ∧
        (∀ x ∈ (t.dev.slice q).slots, x ∈ z.slots ∧ (c.hits x.e = true → x.live = true)) ∧
        (∃ c', (t.dev.slice q).cancels = c' :: rest ∧ c'.swept = true ∧ c'.ends = c.ends) ∧ (t.dev.slice q).cal = z.cal ∧
        Frame [.slices, .cmt, .tpls] groupFields s t) ∧
    (∀ w : Sender, s.dev.takes (writerOf w) (COACH_CTL q) = true →
      let fits : Prop := s.dev.get (COACH_REGBASE_BASE q) + min 128 (s.dev.get (COACH_REGSIZE_SIZE q)) ≤ 1024
      (∃ t, exec (.coachEnable w q 0) s = .next t ∧ t.dev.get (COACH_CTL_EN q) = 0 ∧ Frame [] [COACH_CTL_EN q] s t) ∧
      (fits → ∃ t, exec (.coachEnable w q 1) s = .next t ∧ t.dev.get (COACH_CTL_EN q) = 1 ∧ Frame [] [COACH_CTL_EN q] s t) ∧
      (¬ fits → ∃ t, exec (.coachEnable w q 1) s = .next t ∧ t.dev.get (COACH_CTL_EN q) = 0 ∧ t.dev.get (COACH_STATUS_CFG_REFUSED q) = 1 ∧
        Frame [] [COACH_CTL_EN q, COACH_STATUS_CFG_REFUSED q] s t) ∧
      (s.dev.flag (COACH_CTL_EN q) = true → fits → ∃ t, exec (.coachFlush w q) s = .next t ∧ Frame [] [] s t) ∧
      (s.dev.flag (COACH_CTL_EN q) = false → ∃ t, exec (.coachFlush w q) s = .next t ∧ t.dev.get (COACH_CTL_EN q) = 0 ∧
        (t.dev.slice q).cal = [] ∧ (t.dev.slice q).hor = [] ∧ (t.dev.slice q).slots = [] ∧ (t.dev.slice q).insq = [] ∧ (t.dev.slice q).rejq = [] ∧
        (∀ c, c / 512 = q.val → (t.dev.car c).isOpen = false) ∧ (∀ c, c / 512 ≠ q.val → t.dev.car c = s.dev.car c) ∧
        t.dev.get (COACH_HOCC_HIGH q) = 0 ∧ t.dev.get (COACH_AOCC_HIGH q) = 0 ∧ (∀ m, m ≠ q.val → t.dev.slice m = s.dev.slice m) ∧
        Frame [.slices, .cars, .host, .mes, .cmt, .tpls] (COACH_CTL_EN q :: COACH_HOCC_HIGH q :: COACH_AOCC_HIGH q :: groupFields) s t))
/-- R155 to R158, R166 to R168: templates and carriages. A swap checks the inactive page, one entry per tick, and is refused while carriages
still use it; a page that passes becomes active, one that fails sets BAD and BADIDX; the entry a carriage has read enters the insertion
stage with the absolute key base + offset; flags are set and cleared by FLAGSET; a close drops the entries that are not due within 4 ticks and
frees the index from the next tick; a read of VBASE_LO latches the selected carriage. -/
def Obligations.TemplatesAndCarriagesRun : Prop :=
  (∀ (s : State) (n p N : Nat), (∀ i < N, (s.mem.read (s.dev.memLoc (s.dev.tplWord n p i))).kind = 0) →
    s.dev.mc.touched.all (fun y => y.tick != s.dev.tick) = true →
    let e (i : Nat) : Entry := Entry.of ((s.mem.read (s.dev.memLoc (s.dev.tplWord n p i))).data % 2 ^ 64) ((s.mem.read (s.dev.memLoc (s.dev.tplWord n p i))).data / 2 ^ 64)
    let ok (i : Nat) : Prop := (e i).bad true = false ∧ (0 < i → (e (i - 1)).key ≤ (e i).key)
    ((∀ i < N, ok i) → State.tplScan n p 0 N (- 2 ^ 63) s = (none, s)) ∧
    (∀ k < N, (∀ i < k, ok i) → ¬ ok k → State.tplScan n p 0 N (- 2 ^ 63) s = (some k, s))) ∧
  ∀ (s : State),
    (∀ (w : Sender) (n : Fin 256), s.dev.takes (writerOf w) (TPL_CMD n) = true →
      ((s.dev.tpl n).check ≠ none → exec (.tplSwap w n) s = .next s) ∧
      ((s.dev.tpl n).check = none → s.dev.tplUsers n (1 - s.dev.tplPage n) ≠ 0 → ∃ t, exec (.tplSwap w n) s = .next t ∧
        t.dev.get (TPL_STATUS_BAD n) = 1 ∧ Frame [] [TPL_STATUS_BAD n] s t) ∧
      ((s.dev.tpl n).check = none → s.dev.tplUsers n (1 - s.dev.tplPage n) = 0 → ∃ t, exec (.tplSwap w n) s = .next t ∧
        t.dev.tpl n = { s.dev.tpl n with check := some s.dev.tick } ∧ bitAt (t.dev.tplStatus n) 14 = true ∧
        (∀ m, m ≠ n.val → t.dev.tpl m = s.dev.tpl m) ∧ Frame [.tpls] [] s t)) ∧
    (∀ n : Fin 256, let p := 1 - s.dev.tplPage n
      let r := State.tplScan n p 0 (s.dev.tplLen n p) (- 2 ^ 63) s
      ((s.dev.tpl n).check = none → exec (.tplCheckDone n) s = .next s) ∧
      (∀ k, (s.dev.tpl n).check = some k →
        (s.dev.tick < k + s.dev.tplLen n p ∨ s.dev.memUp = false ∨ s.dev.memClear (s.dev.tplWord n p 0) (s.dev.tplLen n p) = false →
          exec (.tplCheckDone n) s = .next s) ∧
        (k + s.dev.tplLen n p ≤ s.dev.tick → s.dev.memUp = true → s.dev.memClear (s.dev.tplWord n p 0) (s.dev.tplLen n p) = true →
          (s.dev.tpl n).group = none → ∃ t, exec (.tplCheckDone n) s = .next t ∧
          (t.dev.tpl n).check = none ∧ (∀ m, m ≠ n.val → t.dev.tpl m = s.dev.tpl m) ∧
          (r.1 = none → t.dev.get (TPL_STATUS_ACTIVE n) = p ∧ Frame [.tpls] [TPL_STATUS_ACTIVE n] r.2 t) ∧
          (∀ i, r.1 = some i → i < 4096 → t.dev.get (TPL_STATUS_BAD n) = 1 ∧ t.dev.get (TPL_STATUS_BADIDX n) = i ∧ t.dev.tplPage n = s.dev.tplPage n ∧
            Frame [.tpls] [TPL_STATUS_BAD n, TPL_STATUS_BADIDX n] r.2 t)))) ∧
    (∀ c : Fin 2048, let x := s.dev.car c
      let z := s.dev.slice (c / 512)
      let w := s.dev.tplWord x.tpl x.page (x.cursor - x.reads.length)
      let r := s.mem.read (s.dev.memLoc w)
      let free : Prop := s.dev.memUp = true ∧ s.dev.memClear w 1 = true ∧ s.dev.mc.touched.all (fun y => y.tick != s.dev.tick) = true
      (x.isOpen = false ∨ x.reads = [] ∨ s.dev.memUp = false ∨ s.dev.memClear w 1 = false → exec (.templateReadDone c) s = .next s) ∧
      (x.isOpen = true → x.reads ≠ [] → free → r.kind = 0 → ∃ t, exec (.templateReadDone c) s = .next t ∧
        t.dev.car c = { x with reads := x.reads.drop 1, live := x.live + 1 } ∧
        t.dev.slice (c / 512) = { z with
          nextAcc := z.nextAcc + 1
          insq := z.insq ++ [{ cls := 2, from_ := s.dev.tick, e := { Entry.of (r.data % 2 ^ 64) (r.data / 2 ^ 64) with
            ktype := 1, axis := c / 256, key := sgn 64 (uns 64 (x.base + sgn 64 (r.data % 2 ^ 64))), car := some c, unext := x.unext, acc := z.nextAcc
            accTick := s.dev.tick } }] } ∧
        Frame [.cars, .slices] [] s t) ∧
      (x.isOpen = true → x.reads ≠ [] → free → r.kind ≠ 0 → r.kind ≠ 1 → ∃ t, exec (.templateReadDone c) s = .next t ∧ t.dev.get MEM_STATUS_UE = 1 ∧
        (t.dev.slice (c / 512)).nextAcc = z.nextAcc)) ∧
    (∀ (w : Sender) (a : Fin 8) (v : Word), s.dev.takesLate (writerOf w) (CAR_FLAGSET a) = true → v &&& 0xFFFFFF = v →
      let c := 256 * a.val + bits v.toNat 16 8
      ((s.dev.car c).isOpen = false → ∃ u, exec (.carFlagset w a v) s = .next u ∧ lands s u s) ∧
      ((s.dev.car c).isOpen = true → ∃ u t, exec (.carFlagset w a v) s = .next u ∧ lands s u t ∧ (t.dev.car c).base = (s.dev.car c).base ∧
        (∀ k < 8, bitAt (t.dev.car c).flags k = (bitAt v.toNat (8 + k) || (bitAt (s.dev.car c).flags k && !bitAt v.toNat k))) ∧
        (∀ m, m ≠ c → t.dev.car m = s.dev.car m) ∧ Frame [.cars] [] s t)) ∧
    (∀ (w : Sender) (a : Fin 8) (v : Word), s.dev.takes (writerOf w) (CAR_CLOSE a) = true → v &&& 0xFF = v →
      let c := 256 * a.val + bits v.toNat 0 8
      ((s.dev.car c).isOpen = false → exec (.carCloseCommand w a v) s = .next s) ∧
      ((s.dev.car c).isOpen = true → ∃ t, exec (.carCloseCommand w a v) s = .next t ∧ t.dev.car c = { freeFrom := s.dev.tick + 1 } ∧
        (let z := t.dev.slice (a / 2)
        (∀ e ∈ z.hor, e.car ≠ some c) ∧ (∀ p ∈ z.cal, p.2.car ≠ some c) ∧ (∀ r ∈ z.insq, r.e.car ≠ some c) ∧
          (∀ x ∈ z.slots, x.e.car = some c → x.orphan = true) ∧
          (∀ x ∈ (s.dev.slice (a / 2)).slots, x.e.car = some c → s.dev.slotDueSoon x = true → { x with orphan := true } ∈ z.slots) ∧
          (∀ x ∈ (s.dev.slice (a / 2)).slots, x.e.car ≠ some c → x ∈ z.slots)) ∧
        (∀ m, m ≠ c → t.dev.car m = s.dev.car m) ∧ Frame [.cars, .slices, .quads, .xev] [] s t)) ∧
    (∀ (w : Sender) (a : Fin 8), (∀ e, w = .me e → e.val / 2 = a.val / 2) →
      let x := s.dev.car (256 * a.val + s.dev.get (CAR_CARSEL_CAR a))
      ∃ t, exec (.carVbaseRead w a) s = .next t ∧ t.dev.out = s.dev.out ++ [answer w (CAR_VBASE_LO a) (BitVec.ofInt 32 x.base)] ∧
        t.dev.word (CAR_VBASE_HI a) = BitVec.ofNat 32 (uns 64 x.base / 2 ^ 32) ∧
        (x.flags < 256 → x.cursor < 8192 → t.dev.get (CAR_VSTAT_OPEN a) = b2n x.isOpen ∧ t.dev.get (CAR_VSTAT_UNEXTRAP a) = b2n x.unext ∧
          t.dev.get (CAR_VSTAT_FLAGS a) = x.flags ∧ t.dev.get (CAR_VSTAT_CURSOR a) = x.cursor) ∧
        Frame [.out] [whole (CAR_VBASE_HI a), whole (CAR_VSTAT a)] s t)

/-- R339 to R342, R347, R370, R371, R382 to R384: doorbells, and rings that are enabled and disabled. A doorbell outside a ring's offset, of a
ring that is another function's or disabled, or of an index beyond the ring is dropped and counted; one that would move the index backward
sets DBERR too; any other moves the tail of a submission ring, or the head of a return ring, which is armed then, reports what it lost as soon
as a slot is free and starts its timer while records remain. A ring is enabled empty; a submission ring only onto an enabled completion ring
of its own function; a disabled one completes what it holds in its buffer with ABORTED. -/
def Obligations.RingsAreEnabledAndRung : Prop :=
  (∀ (s : State) (f : Fin 4) (off : Fin 1024) (v : Word),
    exec (.submissionDoorbell f off v) s = exec (.returnDoorbell f off v) s ∧
    (off.val % 16 ≠ 0 → ∃ t, exec (.submissionDoorbell f off v) s = .next t ∧
      t.dev.get HIF_DBDROP_CNT = min (s.dev.get HIF_DBDROP_CNT + 1) (2 ^ 32 - 1) ∧ Frame [] [HIF_DBDROP_CNT] s t)) ∧
  ∀ (s : State) (f : Fin 4) (k : Fin 32) (off : Fin 1024) (v : Word),
    let i := v.toNat % 65536
    (off.val = 16 * k.val → (let n := s.dev.srSize k
      let h := s.dev.get (SR_HEAD_HEAD k)
      let go := ringDist n h i
      let old := ringDist n h (s.dev.get (SR_TAIL_TAIL k))
      (s.dev.srOwner k ≠ f ∨ s.dev.get (SR_CFG_EN k) = 0 ∨ n ≤ i → ∃ t, exec (.submissionDoorbell f off v) s = .next t ∧
        t.dev.get HIF_DBDROP_CNT = min (s.dev.get HIF_DBDROP_CNT + 1) (2 ^ 32 - 1) ∧ Frame [] [HIF_DBDROP_CNT] s t) ∧
      (s.dev.srOwner k = f → s.dev.get (SR_CFG_EN k) = 1 → i < n → go < old → ∃ t, exec (.submissionDoorbell f off v) s = .next t ∧
        t.dev.get HIF_DBDROP_CNT = min (s.dev.get HIF_DBDROP_CNT + 1) (2 ^ 32 - 1) ∧ t.dev.get (SR_STATUS_DBERR k) = 1 ∧
        Frame [] [HIF_DBDROP_CNT, SR_STATUS_DBERR k] s t) ∧
      (s.dev.srOwner k = f → s.dev.get (SR_CFG_EN k) = 1 → i < n → old ≤ go → ∃ t, exec (.submissionDoorbell f off v) s = .next t ∧
        t.dev.get (SR_TAIL_TAIL k) = i ∧ Frame [] [SR_TAIL_TAIL k] s t))) ∧
    (off.val = 512 + 16 * k.val → (let n := s.dev.rrSize k
      let h := s.dev.get (RR_HEAD_HEAD k)
      let tl := s.dev.get (RR_TAIL_TAIL k)
      let lost := Tab.get (0, 0, 0) s.dev.ru.ringLost k
      let resv := if s.dev.get (RR_CFG_TYPE k) = 1 then 0 else s.dev.rrResv k
      let stop := s.dev.tick + 800 * min 1000 (s.dev.get (RR_IRQ_MOD k))
      (s.dev.rrOwner k ≠ f ∨ s.dev.get (RR_CFG_EN k) = 0 ∨ n ≤ i → ∃ t, exec (.returnDoorbell f off v) s = .next t ∧
        t.dev.get HIF_DBDROP_CNT = min (s.dev.get HIF_DBDROP_CNT + 1) (2 ^ 32 - 1) ∧ Frame [] [HIF_DBDROP_CNT] s t) ∧
      (s.dev.rrOwner k = f → s.dev.get (RR_CFG_EN k) = 1 → i < n → ringDist n h tl < ringDist n h i →
        ∃ t, exec (.returnDoorbell f off v) s = .next t ∧ t.dev.get HIF_DBDROP_CNT = min (s.dev.get HIF_DBDROP_CNT + 1) (2 ^ 32 - 1) ∧
          t.dev.get (RR_STATUS_DBERR k) = 1 ∧ Frame [] [HIF_DBDROP_CNT, RR_STATUS_DBERR k] s t) ∧
      (s.dev.rrOwner k = f → s.dev.get (RR_CFG_EN k) = 1 → i < n → ringDist n h i ≤ ringDist n h tl →
        (lost.1 = 0 ∨ n - 1 - ringDist n i tl - resv = 0 → ringDist n i tl + s.dev.heldFor k = 0 →
          ∃ t, exec (.returnDoorbell f off v) s = .next t ∧ t.dev.get (RR_HEAD_HEAD k) = i ∧ t.dev.get (RR_IRQ_ARMED k) = 1 ∧
            Tab.get 0 t.dev.ru.sent k = 0 ∧ t.dev.out = s.dev.out ∧ Frame [.ru] [RR_HEAD_HEAD k, RR_IRQ_ARMED k] s t) ∧
        (lost.1 = 0 ∨ n - 1 - ringDist n i tl - resv = 0 → ringDist n i tl + s.dev.heldFor k ≠ 0 →
          ∃ t, exec (.returnDoorbell f off v) s = .next t ∧ t.dev.get (RR_HEAD_HEAD k) = i ∧ t.dev.get (RR_IRQ_ARMED k) = 0 ∧
            t.dev.get (RR_IRQ_TIMING k) = 1 ∧ Tab.get 0 t.dev.ru.modEnd k = stop ∧ Tab.get 0 t.dev.ru.sent k = 0 ∧
            Frame [.ru] [RR_HEAD_HEAD k, RR_IRQ_ARMED k, RR_IRQ_TIMING k] s t) ∧
        (lost.1 ≠ 0 → n - 1 - ringDist n i tl - resv ≠ 0 → ∃ t, exec (.returnDoorbell f off v) s = .next t ∧
          t.dev.get (RR_HEAD_HEAD k) = i ∧
          (∃ r : Rec, t.dev.out = s.dev.out ++ [.event k tl (r.dwords lost.2.1 (s.dev.get (RR_STATUS_P k)))] ∧ r.typ = 0x16 ∧ r.sub = 0 ∧
            r.orig = 4 ∧ r.src = k.val ∧ r.p0 = lost.1 ∧ r.p1 = lost.2.2 % 2 ^ 32 ∧ r.p2 = lost.2.2 / 2 ^ 32 ∧ r.at_.time = s.dev.now) ∧
          t.dev.get (RR_TAIL_TAIL k) = (if tl + 1 = n then 0 else (tl + 1) % 65536) ∧
          t.dev.get (RR_STATUS_P k) = (if tl + 1 = n then 1 - s.dev.get (RR_STATUS_P k) else s.dev.get (RR_STATUS_P k)) ∧
          Tab.get (0, 0, 0) t.dev.ru.ringLost k = (0, 0, 0) ∧ t.dev.get (RR_LOST_PEND k) = 0 ∧ t.dev.get (RR_IRQ_ARMED k) = 0 ∧
          t.dev.get (RR_IRQ_TIMING k) = 1 ∧ Tab.get 0 t.dev.ru.modEnd k = stop ∧
          Frame [.ru, .out] [RR_HEAD_HEAD k, RR_IRQ_ARMED k, RR_IRQ_TIMING k, RR_TAIL_TAIL k, RR_STATUS_P k, RR_LOST_PEND k] s t)))) ∧
    (s.dev.takes (.fn f) (SR_CFG k) = true → v &&& 0x9F1F00F0 = v → (let c := bits v.toNat 24 5
      let x := s.dev.sring k
      let setup := [SR_CFG_CQ k, SR_CFG_LOG2SZ k, SR_CFG_FETCH k]
      let stored (t : State) : Prop := t.dev.get (SR_CFG_CQ k) = c ∧ t.dev.get (SR_CFG_LOG2SZ k) = bits v.toNat 16 5 ∧
        t.dev.get (SR_CFG_FETCH k) = bits v.toNat 4 4
      let named := s.dev.rrOwner c = s.dev.srOwner k ∧ s.dev.get (RR_CFG_EN c) = 1 ∧ s.dev.get (RR_CFG_TYPE c) = 0
      let moved := c ≠ s.dev.get (SR_CFG_CQ k) ∨ bits v.toNat 16 5 ≠ s.dev.get (SR_CFG_LOG2SZ k) ∨ bits v.toNat 4 4 ≠ s.dev.get (SR_CFG_FETCH k)
      (s.dev.get (SR_CFG_EN k) = 0 → named → ∃ t, exec (.sqEnable f k v) s = .next t ∧ stored t ∧ t.dev.get (SR_CFG_EN k) = 1 ∧
        t.dev.get (SR_HEAD_HEAD k) = 0 ∧ t.dev.get (SR_TAIL_TAIL k) = 0 ∧
        Frame [] (SR_CFG_EN k :: SR_HEAD_HEAD k :: SR_TAIL_TAIL k :: setup) s t) ∧
      (s.dev.get (SR_CFG_EN k) = 0 → ¬ named → ∃ t, exec (.sqEnable f k v) s = .next t ∧ stored t ∧ t.dev.get (SR_STATUS_CFG_ERR k) = 1 ∧
        Frame [] (SR_STATUS_CFG_ERR k :: setup) s t) ∧
      (s.dev.get (SR_CFG_EN k) = 1 → moved → ∃ t, exec (.sqEnable f k v) s = .next t ∧ t.dev.get (SR_STATUS_CFG_ERR k) = 1 ∧
        Frame [] [SR_STATUS_CFG_ERR k] s t) ∧
      (s.dev.get (SR_CFG_EN k) = 1 → ¬ moved → exec (.sqEnable f k v) s = .next s) ∧
      (s.dev.get (SR_CFG_EN k) = 0 → ∃ t, exec (.sqDisable f k v) s = .next t ∧ stored t ∧ Frame [] setup s t) ∧
      (s.dev.get (SR_CFG_EN k) = 1 → ∃ t, exec (.sqDisable f k v) s = .next t ∧ t.dev.get (SR_CFG_EN k) = 0 ∧
        (moved → t.dev.get (SR_STATUS_CFG_ERR k) = 1) ∧ (¬ moved → t.dev.get (SR_STATUS_CFG_ERR k) = s.dev.get (SR_STATUS_CFG_ERR k)) ∧
        t.dev.sring k = {} ∧ (∀ m, m ≠ k.val → t.dev.sring m = s.dev.sring m) ∧
        t.dev.host.flights.length = s.dev.host.flights.length + x.buf.length ∧
        t.dev.host.flights.take s.dev.host.flights.length = s.dev.host.flights ∧
        (∀ (j : Nat) (y : Desc), x.buf[j]? = some y → t.dev.host.flights[s.dev.host.flights.length + j]? =
          some { id := s.dev.host.nextId + j, sr := k, f := s.dev.srOwner k, cq := s.dev.get (SR_CFG_CQ k), target := 5, desc := y, stage := 2,
                 status := 9, stime := s.dev.now }) ∧
        t.dev.host.nextId = s.dev.host.nextId + x.buf.length ∧ Frame [.host] [SR_CFG_EN k, SR_STATUS_CFG_ERR k] s t))) ∧
    (s.dev.takes (.fn f) (RR_CFG k) = true → v &&& 0xC01F0000 = v → (let ty := bits v.toNat 30 1
      let lg := bits v.toNat 16 5
      let moved := ty ≠ s.dev.get (RR_CFG_TYPE k) ∨ lg ≠ s.dev.get (RR_CFG_LOG2SZ k)
      let used := ∃ j, j < 32 ∧ s.dev.get (SR_CFG_EN j) = 1 ∧ s.dev.get (SR_CFG_CQ j) = k
      let fresh (t : State) : Prop := t.dev.get (RR_CFG_EN k) = 1 ∧ t.dev.get (RR_CFG_TYPE k) = ty ∧ t.dev.get (RR_CFG_LOG2SZ k) = lg ∧
        t.dev.get (RR_HEAD_HEAD k) = 0 ∧ t.dev.get (RR_LOST_PEND k) = 0 ∧ Tab.get 0 t.dev.ru.ringSeq k = 0 ∧
        Tab.get (0, 0, 0) t.dev.ru.ringLost k = (0, 0, 0) ∧ t.dev.get (RR_STATUS_P k) = 1
      let touched := [RR_CFG_EN k, RR_CFG_TYPE k, RR_CFG_LOG2SZ k, RR_HEAD_HEAD k, RR_TAIL_TAIL k, RR_STATUS_P k, RR_LOST_PEND k, RR_IRQ_ARMED k]
      (s.dev.get (RR_CFG_EN k) = 0 → s.dev.ru.detachFirst = none ∨ ty = 0 ∨ s.dev.ru.detachReported = s.dev.get HIF_GEN_GEN →
        ∃ t, exec (.rrEnable f k v) s = .next t ∧ fresh t ∧ t.dev.get (RR_TAIL_TAIL k) = 0 ∧ t.dev.get (RR_IRQ_ARMED k) = 1 ∧
          Tab.get 0 t.dev.ru.sent k = 0 ∧ Frame [.ru] touched s t) ∧
      (∀ first, s.dev.get (RR_CFG_EN k) = 0 → s.dev.ru.detachFirst = some first → ty = 1 → s.dev.ru.detachReported ≠ s.dev.get HIF_GEN_GEN →
        ∃ t, exec (.rrEnable f k v) s = .next t ∧ fresh t ∧ t.dev.get (RR_TAIL_TAIL k) = 1 ∧ t.dev.get (RR_IRQ_ARMED k) = 0 ∧
          t.dev.get (RR_IRQ_TIMING k) = 1 ∧
          (∃ r : Rec, t.dev.out = s.dev.out ++ [.event k 0 (r.dwords 0 1)] ∧ r.typ = 0x16 ∧ r.sub = 2 ∧ r.orig = 4 ∧ r.src = k ∧
            r.p0 = s.dev.get HIF_DETACH_DROP_CNT ∧ r.p1 = first % 2 ^ 32 ∧ r.p2 = first / 2 ^ 32) ∧
          t.dev.ru.detachFirst = none ∧ t.dev.ru.detachReported = s.dev.get HIF_GEN_GEN ∧
          Frame [.ru, .out] (RR_IRQ_TIMING k :: touched) s t) ∧
      (s.dev.get (RR_CFG_EN k) = 1 → moved → ∃ t, exec (.rrEnable f k v) s = .next t ∧ t.dev.get (RR_STATUS_CFG_ERR k) = 1 ∧
        Frame [] [RR_STATUS_CFG_ERR k] s t) ∧
      (s.dev.get (RR_CFG_EN k) = 1 → ¬ moved → exec (.rrEnable f k v) s = .next s) ∧
      (s.dev.get (RR_CFG_EN k) = 0 → ∃ t, exec (.rrDisable f k v) s = .next t ∧ t.dev.get (RR_CFG_TYPE k) = ty ∧
        t.dev.get (RR_CFG_LOG2SZ k) = lg ∧ Frame [] [RR_CFG_TYPE k, RR_CFG_LOG2SZ k] s t) ∧
      (s.dev.get (RR_CFG_EN k) = 1 → s.dev.get (RR_CFG_TYPE k) = 0 → used → ∃ t, exec (.rrDisable f k v) s = .next t ∧
        t.dev.get (RR_STATUS_CFG_ERR k) = 1 ∧ Frame [] [RR_STATUS_CFG_ERR k] s t) ∧
      (s.dev.get (RR_CFG_EN k) = 1 → s.dev.get (RR_CFG_TYPE k) = 1 ∨ ¬ used → ∃ t, exec (.rrDisable f k v) s = .next t ∧
        t.dev.get (RR_CFG_EN k) = 0 ∧ (moved → t.dev.get (RR_STATUS_CFG_ERR k) = 1) ∧
        (¬ moved → t.dev.get (RR_STATUS_CFG_ERR k) = s.dev.get (RR_STATUS_CFG_ERR k)) ∧
        Frame [] [RR_CFG_EN k, RR_STATUS_CFG_ERR k] s t)))

/-- R12, R13, R342 to R347, R359, R362, R384: from the ring to the completion. The fetch engine asks for the descriptors of the next ring in turn that
may be read, and of none while an earlier bulk write of its function waits; a read that fails stops its ring and reports the slot; the next descriptor of a ring leaves for its target where credits and a
completion slot are free and no fence holds it; a credit comes back four FCLK cycles after its item left; a descriptor whose last effect has
taken place, not one whose last effect comes on the next tick, writes one record at the tail of its completion ring, which frees its slot and its credit. -/
def Obligations.DescriptorsAreFetchedForwardedAndCompleted : Prop :=
  (∀ s : State,
    let turn (i : Nat) := (s.dev.host.lastRing + 1 + i) % 32
    let may (k : Nat) : Prop := let x := s.dev.fn (s.dev.srOwner k)
      s.dev.get (SR_CFG_EN k) = 1 ∧ s.dev.host.linkUp = true ∧ s.dev.host.detached = false ∧ x.bme = true ∧ x.d3 = false ∧
      s.dev.get PWR_BOOTSTAT_READY = 1 ∧ s.dev.get PWR_STATUS_STATE < 2 ∧ (s.dev.sring k).reading = none ∧ (s.dev.sring k).buf.length < 8 ∧
      s.dev.get (SR_HEAD_HEAD k) ≠ s.dev.get (SR_TAIL_TAIL k) ∧
      ∀ b ∈ s.dev.host.bulkq, b.isWrite = true → b.span.1 ≠ s.dev.srOwner k
    ((∀ i, i < 32 → ¬ may (turn i)) → exec .descriptorFetchIssue s = .next s) ∧
    (∀ i, i < 32 → may (turn i) → (∀ j, j < i → ¬ may (turn j)) → ∃ t, exec .descriptorFetchIssue s = .next t ∧ (let k := turn i
      let h := s.dev.get (SR_HEAD_HEAD k)
      let size := s.dev.srSize k
      let n := min (min (max 1 (min 8 (s.dev.get (SR_CFG_FETCH k)))) (8 - (s.dev.sring k).buf.length))
        (min (ringDist size h (s.dev.get (SR_TAIL_TAIL k))) (size - h))
      t.dev.out = s.dev.out ++ [.fetch k h n] ∧ t.dev.sring k = { s.dev.sring k with reading := some (h, n) } ∧ t.dev.host.lastRing = k ∧
      (∀ m, m ≠ k → t.dev.sring m = s.dev.sring m) ∧ t.dev.host.flights = s.dev.host.flights ∧ t.dev.host.fns = s.dev.host.fns ∧
      Frame [.host, .out] [] s t))) ∧
  (∀ (s : State) (k : Fin 32),
    let x := s.dev.sring k
    let cq := s.dev.get (SR_CFG_CQ k)
    let l := s.dev.host.flights
    let room := if s.dev.get (RR_CFG_TYPE cq) = 1 then 0 < s.dev.rrFree cq else x.buf.length < s.dev.rrFree cq
    let stopped (slot : Nat) (t : State) : Prop := t.dev.get (SR_CFG_EN k) = 0 ∧ t.dev.get (SR_STATUS_HOST_ERR k) = 1 ∧ t.dev.sring k = {} ∧
      (∀ m, m ≠ k.val → t.dev.sring m = s.dev.sring m) ∧ t.dev.host.flights.take l.length = l ∧
      (∀ (j : Nat) (y : Desc), x.buf[j]? = some y → t.dev.host.flights[l.length + j]? =
        some { id := s.dev.host.nextId + j, sr := k, f := s.dev.srOwner k, cq, target := 5, desc := y, stage := 2, status := 9, stime := s.dev.now }) ∧
      (¬ room → t.dev.host.flights.length = l.length + x.buf.length) ∧
      (room → t.dev.host.flights.length = l.length + x.buf.length + 1 ∧ t.dev.host.flights[l.length + x.buf.length]? =
        some { id := s.dev.host.nextId + x.buf.length, sr := k, f := s.dev.srOwner k, cq, target := 5, desc := ⟨0xFFFF00FF, 0, 0, 0, 0, 0, 0, 0⟩,
               stage := 2, status := 7, stime := s.dev.now, sqhead := some slot }) ∧
      Frame [.host] [SR_CFG_EN k, SR_STATUS_HOST_ERR k] s t
    (x.reading = none → exec (.descriptorFetchDone k .error) s = .next s ∧ exec (.completionTimeout k) s = .next s ∧
      ∀ ds, exec (.descriptorFetchDone k (.ok ds)) s = .next s) ∧
    (∀ slot n, x.reading = some (slot, n) →
      (∃ t, exec (.descriptorFetchDone k .error) s = .next t ∧ stopped slot t) ∧ (∃ t, exec (.completionTimeout k) s = .next t ∧ stopped slot t) ∧
      (∀ ds, ds.length ≠ n → exec (.descriptorFetchDone k (.ok ds)) s = .fault .badCommand) ∧
      (∀ ds, ds.length = n → ∃ t, exec (.descriptorFetchDone k (.ok ds)) s = .next t ∧ t.dev.sring k = { buf := x.buf ++ ds } ∧
        (∀ m, m ≠ k.val → t.dev.sring m = s.dev.sring m) ∧ t.dev.get (SR_HEAD_HEAD k) = (slot + n) % s.dev.srSize k ∧
        t.dev.host.flights = l ∧ Frame [.host] [SR_HEAD_HEAD k] s t)) ∧
    (x.buf = [] → exec (.descriptorForward k) s = .next s) ∧
    (∀ y rest, x.buf = y :: rest →
      let target := if [0x01, 0x10, 0x11, 0x12, 0x30, 0x31, 0x32].contains y.op then y.hdr 8 2 else 4
      let held := (y.hdr 11 1 = 1 ∧ ∃ z ∈ l, z.sr = k ∧ z.orphan = false) ∨ s.dev.compCredits target = 0 ∨ s.dev.descCredits target = 0 ∨
        s.dev.rrFree cq = 0
      (held → exec (.descriptorForward k) s = .next s) ∧
      (¬ held → ∃ t, exec (.descriptorForward k) s = .next t ∧ t.dev.sring k = { x with buf := rest } ∧
        (∀ m, m ≠ k.val → t.dev.sring m = s.dev.sring m) ∧ t.dev.host.nextId = s.dev.host.nextId + 1 ∧
        t.dev.host.flights = l ++ [{ id := s.dev.host.nextId, sr := k, f := s.dev.srOwner k, cq, target, desc := y }] ∧ Frame [.host] [] s t))) ∧
  (∀ (s : State) (x : FabricQueue),
    ((∀ c ∈ s.dev.host.credits, c.x = x → s.dev.tick < c.due) → exec (.creditReturn x) s = .next s) ∧
    (∀ l c r, s.dev.host.credits = l ++ c :: r → (∀ y ∈ l, y.x = x → s.dev.tick < y.due) → c.x = x → c.due ≤ s.dev.tick →
      ∃ t, exec (.creditReturn x) s = .next t ∧ t.dev.host = { s.dev.host with credits := l ++ r } ∧ Frame [.host] [] s t)) ∧
  ∀ (s : State) (i : Nat),
    (s.dev.host.flights[i]? = none → exec (.completionWrite i) s = .next s) ∧
    (∀ x, s.dev.host.flights[i]? = some x →
      let size := s.dev.rrSize x.cq
      let tl := s.dev.get (RR_TAIL_TAIL x.cq)
      let p := s.dev.get (RR_STATUS_P x.cq)
      let back := if x.target < 4 then [{ x := .completion (Fin.ofNat 4 x.target), due := s.dev.tick + 4 : CreditBack }]
        else if x.target = 4 then [{ x := .spineCompletion, due := s.dev.tick + 4 }] else []
      let gone (t : State) : Prop := (∃ l r, s.dev.host.flights = l ++ x :: r ∧ t.dev.host.flights = l ++ r) ∧
        t.dev.host.credits = s.dev.host.credits ++ back ∧ t.dev.host.srs = s.dev.host.srs ∧ t.dev.host.fns = s.dev.host.fns
      (x.stage ≠ 2 → exec (.completionWrite i) s = .next s) ∧
      (x.stage = 2 → x.stime = s.dev.now + 1 → exec (.completionWrite i) s = .next s) ∧
      (x.stage = 2 → x.stime ≠ s.dev.now + 1 → x.orphan = true → ∃ t, exec (.completionWrite i) s = .next t ∧ gone t ∧
        t.dev.get HIF_DETACH_DROP_CNT = min (s.dev.get HIF_DETACH_DROP_CNT + 1) (2 ^ 32 - 1) ∧ Frame [.host] [HIF_DETACH_DROP_CNT] s t) ∧
      (x.stage = 2 → x.stime ≠ s.dev.now + 1 → x.orphan = false → (s.dev.fn x.f).d3 = true ∨ s.dev.get (RR_CFG_EN x.cq) = 0 ∨ size ≤ s.dev.rrUsed x.cq + 1 →
        exec (.completionWrite i) s = .next s) ∧
      (x.stage = 2 → x.stime ≠ s.dev.now + 1 → x.orphan = false → (s.dev.fn x.f).d3 = false → s.dev.get (RR_CFG_EN x.cq) = 1 → s.dev.rrUsed x.cq + 1 < size →
        ∃ t, exec (.completionWrite i) s = .next t ∧ gone t ∧
          (∃ r : BitVec 128, t.dev.out = s.dev.out ++ [.completion x.cq tl r] ∧ bits r.toNat 127 1 = p ∧ bits r.toNat 121 6 = 0 ∧
            bits r.toNat 85 36 = x.stime % 2 ^ 36 ∧ bits r.toNat 80 5 = x.sr % 32 ∧
            bits r.toNat 64 16 = (x.sqhead.getD (s.dev.get (SR_HEAD_HEAD x.sr))) % 65536 ∧ bits r.toNat 32 32 = x.value % 2 ^ 32 ∧
            bits r.toNat 24 8 = x.desc.op ∧ bits r.toNat 16 8 = x.status % 256 ∧ bits r.toNat 0 16 = x.desc.hdr 16 16) ∧
          t.dev.get (RR_TAIL_TAIL x.cq) = (if tl + 1 = size then 0 else (tl + 1) % 65536) ∧
          t.dev.get (RR_STATUS_P x.cq) = (if tl + 1 = size then 1 - p else p) ∧ t.dev.get (RR_IRQ_ARMED x.cq) = 0 ∧
          (s.dev.get (RR_IRQ_ARMED x.cq) = 0 → t.dev.ru = s.dev.ru ∧ t.dev.get (RR_IRQ_TIMING x.cq) = s.dev.get (RR_IRQ_TIMING x.cq)) ∧
          (s.dev.get (RR_IRQ_ARMED x.cq) = 1 → t.dev.get (RR_IRQ_TIMING x.cq) = 1 ∧
            Tab.get 0 t.dev.ru.modEnd x.cq = s.dev.tick + 800 * min 1000 (s.dev.get (RR_IRQ_MOD x.cq))) ∧
          Frame [.host, .out, .ru] [RR_TAIL_TAIL x.cq, RR_STATUS_P x.cq, RR_IRQ_ARMED x.cq, RR_IRQ_TIMING x.cq] s t))

/-- R346, R349, R357, R451, R469, R470: how a target takes a descriptor, whatever its opcode. It takes the oldest that waits there, in the order of
its ring; none while it stands still; in IDLE the access ends the state first. The checks come in the order of R349: the first that fails ends
the descriptor with its status, and does nothing else but that a privileged operation refused is logged. -/
def Obligations.DescriptorsAreCheckedInOrder : Prop :=
  (∀ (s : State) (q : Fin 4) (i : Nat) (h : HostData) (e : Option Nat) (v : Bool) (c : Instr) (o : Option Flight),
    (c, o) ∈ s.dev.descRows q i h e v →
      (o = none → exec c s = .next s) ∧
      ∀ x, o = some x →
        x ∈ s.dev.host.flights ∧ x.stage = 0 ∧ (s.dev.descStopped x = true → exec c s = .next s) ∧
        (s.dev.descStopped x = false → s.dev.get PWR_STATUS_STATE = 1 → x.touches = true → ∃ t, exec c s = .next t ∧
          t.dev.pw = { s.dev.pw with idleEnd := some (s.dev.pw.idleEnd.getD (s.dev.tick + 1600)) } ∧ Frame [.pw] [] s t) ∧
        (s.dev.descStopped x = false → ¬ (s.dev.get PWR_STATUS_STATE = 1 ∧ x.touches = true) →
          (∀ st, s.dev.descRefuse x = some st → ∃ t, exec c s = .next t ∧ t.dev.host = s.dev.done x st 0 ∧
            Frame (if x.desc.privileged then [.host, .svc, .ru] else [.host]) (if x.desc.privileged then flogFields else []) s t) ∧
          (s.dev.descRefuse x = none → s.dev.descHolds x.desc = true → exec c s = .next s))) ∧
  (∀ (d : Dev) (t op : Nat) (x : Flight), d.descOf t op = some x →
    x.target = t ∧ x.stage = 0 ∧ x.desc.op = op ∧ ∃ l r, d.host.flights = l ++ x :: r ∧
      ∀ y ∈ l, y.sr = x.sr → y.target = t → isDma y.desc.op = false → 2 ≤ y.stage) ∧
  (∀ (d : Dev) (i op : Nat) (x : Flight), d.dmaOf i op = some x → i < 4 ∧ x.stage = 0 ∧ x.desc.op = op ∧
    ∀ y ∈ d.host.flights, y.sr = x.sr → y.target = 4 → isDma y.desc.op = false → y.id < x.id → y.stage = 2) ∧
  ∀ (d : Dev) (x : Flight),
    let op := x.desc.op
    let known := [0x00, 0x01, 0x02, 0x03, 0x04, 0x05, 0x06, 0x07, 0x10, 0x11, 0x12, 0x20, 0x21, 0x30, 0x31, 0x32, 0x40, 0x41, 0x42, 0x48, 0x50,
      0x51, 0x52, 0x53, 0x54, 0x55, 0x56, 0x57]
    let down := x.target < 4 ∧ d.quadDown x.target = true
    (down → d.descRefuse x = some 9) ∧
    (¬ down → op ∉ known ∨ x.desc.hdr 12 4 ≠ 0 ∨ x.desc.hdr 10 1 ≠ 0 ∨ descBadField x.desc = true → d.descRefuse x = some 1) ∧
    (¬ down → descBad x.desc = false →
      (x.desc.target < 4 → d.qOwner x.desc.target ≠ x.f → d.descRefuse x = some 5) ∧
      (op = 0x02 ∨ 0x50 ≤ op → d.manager ≠ x.f → d.descRefuse x = some 5) ∧
      (op = 0x48 → d.manager ≠ x.f → d.qOwner (x.desc.par 0 2) ≠ x.f → d.descRefuse x = some 5) ∧
      (op = 0x20 ∨ op = 0x21 → d.qOwner (x.desc.par 0 2) ≠ x.f ∨ d.qOwner (x.desc.par 2 2) ≠ x.f → d.descRefuse x = some 5) ∧
      (op ∈ [0x53, 0x54, 0x55, 0x56] ∨ (op = 0x51 ∧ x.desc.d2.toNat % 2 ^ 23 < 0x100000) → d.descDenied x.f x.desc = false →
        d.svc.presOpen = none → d.descRefuse x = some 6) ∧
      (d.descDenied x.f x.desc = false → d.descDown x = false → d.svc.presOpen ≠ none → d.descRefuse x = none))

/-- R350 to R352, R393 to R397, R403 to R406, R410: the spine's plain descriptors. NOP does nothing; register writes act in payload order, each
as a BAR0 write does, and after BAR0's where it takes effect on the next tick, which is then the tick of the completion; reads are made in order and go out to the host address; STAGE_WRITE places its writes in its group, each place once;
COMMIT_ARM settles when an open group fires; COMMIT_ABORT empties a group that has not been strobed; SNAPSHOT triggers its set for 16 ticks
later. -/
def Obligations.SpineDescriptorsAct : Prop :=
  (∀ (s : State) (x : Flight), s.dev.descNext 4 = some x → x.desc.op = 0 → s.dev.passes x = true →
    ∃ t, exec .nop s = .next t ∧ t.dev.host = s.dev.done x 0 0 ∧ Frame [.host] [] s t) ∧
  (∀ (s : State) (q f : Fin 4) (x : Flight) (c : Instr), s.dev.passes x = true → x.f = f.val →
    (c = .qregWrite q ∧ s.dev.descOf q 0x01 = some x) ∨ (c = .sregWrite ∧ s.dev.descOf 4 0x02 = some x) →
    let n := x.desc.par 0 3
    let now (o : Nat) : Prop := ∀ l, locate o = some l → lateReg l = false ∧ ¬ (l.gid = .tb ∧ l.info.off = 0) ∧ ¬ (l.gid = .axis ∧ l.info.off = 4) ∧
      ¬ (l.gid = .pwr ∧ l.info.off = 0)
    1 ≤ n ∧
    ((∀ p ∈ x.desc.pairs n, now p.1) → ∃ u, execAll ((x.desc.pairs n).map (fun p => .registerWrite (.fn f) (Fin.ofNat 65536 (p.1 / 4)) 15 ⟨p.2, none⟩))
        { s with dev := { s.dev with host := s.dev.begun x } } = .next u ∧
      exec c s = .next { u with dev := u.dev.flightEnd x.id 0 n }) ∧
    (∀ p l, x.desc.pairs n = [p] → locate p.1 = some l → lateReg l = true → l.gid ≠ .sinksel ∨ sinkExists (l.i % 452) = true →
      s.dev.takes (.desc f) p.1 = true → badValue l.info p.2.toNat = false → refusedValue l p.2.toNat = false →
      p.2 &&& w32 (l.info.rw ||| l.info.w1c ||| l.info.wo) = p.2 → rsvBits l.info p.2 = 0 →
      ∃ t, exec c s = .next t ∧ t.dev.host = { s.dev.done x 0 1 with
          flights := (s.dev.done x 0 1).flights.map (fun y => if y.id = x.id then { y with stime := s.dev.now + 1 } else y) } ∧
        t.dev.late = s.dev.late ++ [{ due := s.dev.tick, rank := 1, code := f, off := p.1, v := p.2 }] ∧ Frame [.host, .late] [] s t)) ∧
  (∀ (s : State) (x : Flight), s.dev.descOf 4 0x03 = some x → s.dev.passes x = true →
    let n := x.desc.par 0 4
    let r := Dev.descReads x.f (x.desc.offsets n) { s.dev with host := s.dev.begun x }
    ∃ t, exec .regRead s = .next t ∧ r.1.length = n ∧ 1 ≤ n ∧
      (x.orphan = false → t.dev.out = r.2.out ++ [.hostWrite x.desc.d1.toNat (dwordBytes r.1)] ∧ Frame [.host, .out] [] { s with dev := r.2 } t) ∧
      (x.orphan = true → t.dev.get HIF_DETACH_DROP_CNT = min (r.2.get HIF_DETACH_DROP_CNT + 1) (2 ^ 32 - 1) ∧
        Frame [.host] [HIF_DETACH_DROP_CNT] { s with dev := r.2 } t) ∧
      ∀ y ∈ t.dev.host.flights, y.id = x.id → y.stage = 2 ∧ y.status = 0 ∧ y.value = n) ∧
  (∀ (s : State) (x : Flight), s.dev.descOf 4 0x04 = some x → s.dev.passes x = true →
    let g := x.desc.par 0 5
    let n := x.desc.par 8 3
    let ws : List Staged := (x.desc.pairs n).map (fun p => { off := p.1, v := p.2, q := (stageQuad p.1).getD 0, flight := some x.id })
    let swaps (p : Nat × Word) : Option Nat := (locate p.1).bind (fun l => if l.gid == .tpl && l.info.off == 0x010 && p.2.getLsbD 0 then some l.i else none)
    (2 ≤ s.dev.grpState g ∨ s.dev.stageFits g ws = false → ∃ t, exec .stageWrite s = .next t ∧ t.dev.host = s.dev.done x 4 0 ∧
      Frame [.host] [] s t) ∧
    (s.dev.grpState g < 2 → s.dev.stageFits g ws = true → (∀ p ∈ x.desc.pairs n, swaps p = none) → ∃ t, exec .stageWrite s = .next t ∧
      (t.dev.grp g).writes = stagedAfter (s.dev.grp g).writes ws ∧ t.dev.grpState g = 1 ∧
      t.dev.get (CMTG_STATE_OWNER g) = (if s.dev.grpState g = 0 then x.f % 8 else s.dev.get (CMTG_STATE_OWNER g)) ∧
      (∀ m, m ≠ g → t.dev.grp m = s.dev.grp m) ∧ (∀ y ∈ t.dev.host.flights, y.id = x.id → y.stage = 1) ∧
      Frame [.host, .cmt] [CMTG_STATE_STATE g, CMTG_STATE_OWNER g] s t) ∧
    (∀ a p, s.dev.grpState g < 2 → s.dev.stageFits g ws = true → x.desc.pairs n = [p] → swaps p = some a →
      ((s.dev.tpl a).check = none → ∃ t, exec .stageWrite s = .next t ∧
        (t.dev.grp g).writes = stagedAfter (s.dev.grp g).writes (ws.map (fun w => { w with check := some a })) ∧ t.dev.grpState g = 1 ∧
        t.dev.tpl a = { check := some s.dev.tick, group := some g } ∧ (∀ m, m ≠ a → t.dev.tpl m = s.dev.tpl m) ∧
        (∀ m, m ≠ g → t.dev.grp m = s.dev.grp m) ∧ (∀ y ∈ t.dev.host.flights, y.id = x.id → y.stage = 1) ∧
        Frame [.host, .cmt, .tpls] [CMTG_STATE_STATE g, CMTG_STATE_OWNER g] s t) ∧
      ((s.dev.tpl a).check ≠ none → (∀ y ∈ s.dev.host.flights, y.id = x.id → y = x) →
        (∀ p ∈ s.dev.cmt.groups, ∀ w ∈ p.2.writes, w.flight ≠ some x.id) → ∃ t, exec .stageWrite s = .next t ∧
        t.dev.host = s.dev.done x 0 (s.dev.grp g).writes.length ∧ Frame [.host] [] s t))) ∧
  (∀ (s : State) (x : Flight), s.dev.descOf 4 0x05 = some x → s.dev.passes x = true →
    let g := x.desc.par 0 5
    let a := s.dev.grp g
    let k := timeKey s.dev.now x.desc.d1.toNat / 64
    let others (t : State) : Prop := ∀ m, m ≠ g → t.dev.grp m = s.dev.grp m
    (s.dev.grpState g ≠ 1 ∨ a.arming ≠ 0 → ∃ t, exec .commitArm s = .next t ∧ t.dev.host = s.dev.done x 4 0 ∧ Frame [.host, .cmt] [] s t) ∧
    (s.dev.grpState g = 1 → a.arming = 0 →
      (x.desc.par 8 2 = 0 → ∃ t, exec .commitArm s = .next t ∧ t.dev.host = s.dev.done x 0 0 ∧ t.dev.grpState g = 2 ∧
        t.dev.get (CMTG_STATE_ARM g) = 1 ∧ t.dev.pair (CMTG_KEY_LO g) (CMTG_KEY_HI g) = x.desc.d1.toNat ∧ (t.dev.grp g).writes = a.writes ∧
        (k < (s.dev.now : Int) + 16 → (t.dev.grp g).fire =
          some { c := s.dev.tick + 16, late := true, lateness := (min ((s.dev.now : Int) + 16 - k) 0xFFFFFF).toNat }) ∧
        ((s.dev.now : Int) + 16 ≤ k → ((t.dev.grp g).key.map (fun n => (n : Int))) = some k ∧ (a.key = none → (t.dev.grp g).fire = a.fire)) ∧
        others t ∧ Frame [.host, .cmt] [CMTG_STATE_STATE g, CMTG_STATE_ARM g, whole (CMTG_KEY_LO g), whole (CMTG_KEY_HI g)] s t) ∧
      (x.desc.par 8 2 = 2 → ∃ t, exec .commitArm s = .next t ∧ t.dev.host = s.dev.done x 0 0 ∧ t.dev.grpState g = 2 ∧
        t.dev.get (CMTG_STATE_ARM g) = 3 ∧ (t.dev.grp g).fire = some { c := s.dev.tick + 16 } ∧ (t.dev.grp g).writes = a.writes ∧ others t ∧
        Frame [.host, .cmt] [CMTG_STATE_STATE g, CMTG_STATE_ARM g] s t) ∧
      (x.desc.par 8 2 = 1 → ∃ t, exec .commitArm s = .next t ∧ t.dev.host = s.dev.begun x ∧
        t.dev.cmt.armNo = s.dev.cmt.armNo + 1 ∧ (t.dev.grp g).arming = s.dev.cmt.armNo + 1 ∧ (t.dev.grp g).writes = a.writes ∧
        (let z := s.dev.slice (x.desc.par 12 3 / 2)
        t.dev.slice (x.desc.par 12 3 / 2) = { z with offers := z.offers ++ [{ who := .flight x.id, last := true, e :=
          { ktype := 1, dir := x.desc.par 10 2, axis := x.desc.par 12 3, action := 6, target := g, key := sgn 64 x.desc.d1.toNat,
            arming := s.dev.cmt.armNo + 1 } }] }) ∧
        (∀ m, m ≠ x.desc.par 12 3 / 2 → t.dev.slice m = s.dev.slice m) ∧ others t ∧ Frame [.host, .cmt, .slices] [] s t))) ∧
  (∀ (s : State) (x : Flight), s.dev.descOf 4 0x06 = some x → s.dev.passes x = true →
    let g := x.desc.par 0 5
    let a := s.dev.grp g
    (s.dev.grpStrobed g = true → ∃ t, exec .commitAbort s = .next t ∧ t.dev.host = s.dev.done x 4 0 ∧ Frame [.host, .cmt] [] s t) ∧
    (s.dev.grpStrobed g = false → s.dev.grpState g = 0 ∨ s.dev.grpState g = 3 → ∃ t, exec .commitAbort s = .next t ∧
      t.dev.host = s.dev.done x 0 0 ∧ Frame [.host, .cmt] [] s t) ∧
    (s.dev.grpStrobed g = false → s.dev.grpState g = 1 ∨ s.dev.grpState g = 2 → ∃ t, exec .commitAbort s = .next t ∧
      (∃ r : Rec, t.dev.ru.raised = s.dev.ru.raised ++ [r] ∧ r.typ = 0x13 ∧ r.sub = 2 ∧ r.orig = 4 ∧ r.src = g ∧ r.p0 = a.writes.length ∧
        r.at_.time = s.dev.now) ∧
      (a.arming = 0 → t.dev.word (CMTG_STATE g) = 0 ∧ t.dev.grp g = {}) ∧
      (a.arming ≠ 0 → t.dev.grpState g = 3 ∧ t.dev.get (CMTG_STATE_OWNER g) = s.dev.get (CMTG_STATE_OWNER g) ∧
        t.dev.grp g = { arming := a.arming }) ∧
      (∀ m, m ≠ g → t.dev.grp m = s.dev.grp m) ∧
      (∀ y ∈ t.dev.host.flights, y.id = x.id → y.stage = 2 ∧ y.status = 0 ∧ y.value = a.writes.length) ∧
      Frame [.host, .cmt, .tpls, .ru] [whole (CMTG_STATE g), whole (CMTG_KEY_LO g), whole (CMTG_KEY_HI g)] s t)) ∧
  ∀ (s : State) (x : Flight), s.dev.descOf 4 0x07 = some x → s.dev.passes x = true →
    let k := x.desc.par 0 5
    (s.dev.get (SNAP_CFG_EN k) = 1 → ∃ t, exec .snapshot s = .next t ∧ t.dev.host = s.dev.begun x ∧
      t.dev.cmt = { s.dev.cmt with trigs := s.dev.cmt.trigs ++ [{ s := k, trig := 0, due := s.dev.tick + 16, flight := some x.id }] } ∧
      Frame [.host, .cmt] [] s t) ∧
    (s.dev.get (SNAP_CFG_EN k) = 0 → ∃ t, exec .snapshot s = .next t ∧ t.dev.host = s.dev.done x 0 0 ∧ Frame [.host] [] s t)

/-- R26, R151, R194, R204, R353 to R355, R416: routes, Coach descriptors, programs and images. A route is set once, in the first free selector and
over the export line that carries its source or the lowest free one, and cleared with a line that no sink selects any longer; entries are
offered in order; a cancel starts, or waits; a program enters a stopped engine on one tick; an image enters a bank that is inactive and not
locked, or the active one of a stopped engine; a swap is staged. -/
def Obligations.QuadrantDescriptorsAct : Prop :=
  (∀ (s : State) (x : Flight) (c : Instr), s.dev.passes x = true →
    (c = .routeSet ∧ s.dev.descOf 4 0x20 = some x) ∨ (c = .routeClear ∧ s.dev.descOf 4 0x21 = some x) →
    let q := x.desc.par 0 2
    let r := x.desc.par 2 2
    let n := x.desc.d1.toNat % 4096
    let z := x.desc.d1.toNat / 65536 % 4096
    let seen := if q = r then [n] else (s.dev.exportsOf q n).map (fun l => 0x500 + 64 * q + l)
    let sel (k : Nat) := s.dev.selector r z k
    let hit (k : Nat) : Prop := (sel k).1 = true ∧ (sel k).2 ∈ seen
    let place (k : Nat) : Fld := ⟨0x15000 + 0x8000 * r + 8 * z + 4 * (k / 2), 16 * (k % 2), 16⟩
    let line (m : Nat) := if m < 0x500 then 0xFF else m % 64
    let full (t : State) : Prop := t.dev.host = s.dev.done x 3 0 ∧ Frame [.host] [] s t
    (c = .routeSet →
      (∀ k, k < 4 → hit k → (∀ j, j < k → ¬ hit j) → ∃ t, exec c s = .next t ∧
        t.dev.host = s.dev.done x 0 (256 * k + line (sel k).2) ∧ Frame [.host] [] s t) ∧
      ((∀ k, k < 4 → ¬ hit k) → (∀ k, k < 4 → (sel k).1 = true) → ∃ t, exec c s = .next t ∧ full t) ∧
      (∀ k, k < 4 → (∀ k, k < 4 → ¬ hit k) → (sel k).1 = false → (∀ j, j < k → (sel j).1 = true) →
        (∀ m rest, seen = m :: rest → ∃ t, exec c s = .next t ∧ t.dev.host = s.dev.done x 0 (256 * k + line m) ∧
          t.dev.selector r z k = (true, m) ∧ Frame [.host] [place k] s t) ∧
        (seen = [] → (∀ l, l < 64 → s.dev.get (XLINE_EXPORT_EN (64 * q + l)) = 1) → ∃ t, exec c s = .next t ∧ full t) ∧
        (∀ l, l < 64 → seen = [] → s.dev.get (XLINE_EXPORT_EN (64 * q + l)) = 0 →
          (∀ j, j < l → s.dev.get (XLINE_EXPORT_EN (64 * q + j)) = 1) → ∃ t, exec c s = .next t ∧ t.dev.host = s.dev.done x 0 (256 * k + l) ∧
          t.dev.selector r z k = (true, 0x500 + 64 * q + l) ∧ t.dev.get (XLINE_EXPORT_EN (64 * q + l)) = 1 ∧
          t.dev.get (XLINE_EXPORT_SRC (64 * q + l)) = n ∧ Frame [.host] [place k, whole (XLINE_EXPORT (64 * q + l))] s t))) ∧
    (c = .routeClear →
      ((∀ k, k < 4 → ¬ hit k) → ∃ t, exec c s = .next t ∧ t.dev.host = s.dev.done x 0 0 ∧ Frame [.host] [] s t) ∧
      (∀ k, k < 4 → hit k → (∀ j, j < k → ¬ hit j) → (let m := (sel k).2
        ∃ t, exec c s = .next t ∧ t.dev.host = s.dev.done x 0 1 ∧ t.dev.selector r z k = (false, 0) ∧
          (m < 0x500 → Frame [.host] [place k] s t) ∧
          (0x500 ≤ m → (∃ a b i, a < 4 ∧ b < 452 ∧ i < 4 ∧ t.dev.selector a b i = (true, m)) → Frame [.host] [place k] s t) ∧
          (0x500 ≤ m → (∀ a b i, a < 4 → b < 452 → i < 4 → t.dev.selector a b i ≠ (true, m)) →
            t.dev.word (XLINE_EXPORT (64 * q + m % 64)) = 0 ∧ Frame [.host] [place k, whole (XLINE_EXPORT (64 * q + m % 64))] s t))))) ∧
  (∀ (s : State) (q : Fin 4) (x : Flight), s.dev.passes x = true →
    let y := s.dev.slice q
    let others (t : State) : Prop := ∀ m, m ≠ q.val → t.dev.slice m = s.dev.slice m
    let asks (es : List Entry) : List Offer :=
      (List.range es.length).map (fun k => { who := .flight x.id, e := es.getD k {}, last := decide (k + 1 = es.length) })
    let offered (es : List Entry) (t : State) : Prop := t.dev.slice q = { y with offers := y.offers ++ asks es } ∧ others t
    (s.dev.descOf q 0x10 = some x → ∃ t, exec (.coachInsert q) s = .next t ∧ t.dev.host = s.dev.begun x ∧
      offered ((List.range (x.desc.par 0 2)).map (fun k => x.desc.entry (k + 1))) t ∧ Frame [.host, .slices] [] s t) ∧
    (s.dev.descOf q 0x11 = some x → ∃ t, exec (.coachCancel q) s = .next t ∧ t.dev.host = s.dev.begun x ∧ others t ∧
      (let c : Cancel := { who := .flight x.id, tag := x.desc.par 0 5, pos := x.desc.param.testBit 8, axis := x.desc.par 9 3 }
      (y.cancels = [] → t.dev.slice q = { y with cancels := [{ c with start := s.dev.tick, accNo := y.nextAcc, ends := s.dev.tick + 64 + y.cal.length }] }) ∧
      (y.cancels ≠ [] → t.dev.slice q = { y with cancels := y.cancels ++ [c] })) ∧ Frame [.host, .slices] [] s t) ∧
    (s.dev.descOf q 0x12 = some x → s.dev.mc.touched.all (fun y => y.tick != s.dev.tick) = true → (let n := x.desc.par 0 13
      let cell (k : Nat) := s.mem.read (s.dev.memLoc (x.desc.d1.toNat / 16 % 2 ^ 22 + k))
      let entry (k : Nat) : Entry := Entry.of ((cell k).data % 2 ^ 64) ((cell k).data / 2 ^ 64)
      let fails (k : Nat) : Prop := (cell k).kind = 2 ∨ (entry k).bad false = true
      ((∀ k, k < n → ¬ fails k) → ∃ t, exec (.coachLoad q) s = .next t ∧ t.dev.host = s.dev.begun x ∧ offered ((List.range n).map entry) t ∧
        Frame [.host, .slices, .mc, .ru, .svc] memErrFields s t) ∧
      (∀ k, k < n → fails k → (∀ j, j < k → ¬ fails j) → ∃ t, exec (.coachLoad q) s = .next t ∧
        t.dev.host = s.dev.done x (if (cell k).kind = 2 then 8 else 1) k ∧ Frame [.host, .mc, .ru, .svc] memErrFields s t)))) ∧
  ∀ (s : State) (q : Fin 4) (x : Flight) (h : HostData), s.dev.passes x = true →
    (s.dev.descOf q 0x30 = some x → (let e := 16 * q.val + x.desc.par 0 4
      let n := x.desc.par 10 7
      let d := s.dev.ibxSettle e
      let w (j : Nat) := (h.getD (4 * j) 0).toNat + 256 * (h.getD (4 * j + 1) 0).toNat + 65536 * (h.getD (4 * j + 2) 0).toNat +
        16777216 * (h.getD (4 * j + 3) 0).toNat
      (x.orphan = true ∨ h.length < 4 * n → ∃ t, exec (.ibexLoad q h) s = .next t ∧ t.dev.host = s.dev.done x 7 0 ∧ Frame [.host] [] s t) ∧
      (x.orphan = false → 4 * n ≤ h.length →
        ((∃ j, j < n ∧ 2 ^ 24 ≤ w j) → ∃ t, exec (.ibexLoad q h) s = .next t ∧ t.dev.host = s.dev.done x 1 0 ∧
          Frame [.host] [] { s with dev := d } t) ∧
        ((∀ j, j < n → w j < 2 ^ 24) → d.ibxIdle e = false → ∃ t, exec (.ibexLoad q h) s = .next t ∧ t.dev.host = s.dev.done x 4 0 ∧
          Frame [.host] [] { s with dev := d } t) ∧
        ((∀ j, j < n → w j < 2 ^ 24) → d.ibxIdle e = true → ∃ t, exec (.ibexLoad q h) s = .next t ∧ t.dev.host = s.dev.done x 0 n ∧
          (∀ j, j < n → Tab.get 0x900000 (t.dev.ibx e).prog (x.desc.par 4 6 + j) = w j) ∧
          (∀ a, a < x.desc.par 4 6 ∨ x.desc.par 4 6 + n ≤ a → Tab.get 0x900000 (t.dev.ibx e).prog a = Tab.get 0x900000 (d.ibx e).prog a) ∧
          (∀ m, m ≠ e → t.dev.ibx m = d.ibx m) ∧ Frame [.host, .ibxs] [] { s with dev := d } t)))) ∧
    (s.dev.descOf q 0x31 = some x → (let e := 2 * q.val + x.desc.par 0 1
      let b := x.desc.par 1 1
      let a := x.desc.par 2 14
      let n := x.desc.d2.toNat % 2 ^ 15
      let active := b = s.dev.get (ME_STATUS_IMAGE e)
      (x.orphan = true ∨ h.length < 8 * n → ∃ t, exec (.meImage q h) s = .next t ∧ t.dev.host = s.dev.done x 7 0 ∧ Frame [.host] [] s t) ∧
      (x.orphan = false → 8 * n ≤ h.length →
        (active → s.dev.get (ME_STATUS_STATE e) ≠ 0 → ∃ t, exec (.meImage q h) s = .next t ∧ t.dev.host = s.dev.done x 4 0 ∧ Frame [.host] [] s t) ∧
        (¬ active → s.dev.meLocked e = true → ∃ t, exec (.meImage q h) s = .next t ∧ t.dev.host = s.dev.done x 0 0 ∧
          t.dev.get (ME_STATUS_REFUSED e) = 1 ∧ Frame [.host] [ME_STATUS_REFUSED e] s t) ∧
        ((active ∧ s.dev.get (ME_STATUS_STATE e) = 0) ∨ (¬ active ∧ s.dev.meLocked e = false) → ∃ t, exec (.meImage q h) s = .next t ∧
          t.dev.host = s.dev.done x 0 n ∧
          (∀ j, j < n → Tab.get 0 (t.dev.me e).img (16384 * b + (a + j) % 16384) = bytesNat ((h.drop (8 * j)).take 8)) ∧
          (∀ i, (∀ j, j < n → i ≠ 16384 * b + (a + j) % 16384) → Tab.get 0 (t.dev.me e).img i = Tab.get 0 (s.dev.me e).img i) ∧
          (t.dev.me e).scratch = (s.dev.me e).scratch ∧ (∀ m, m ≠ e → t.dev.me m = s.dev.me m) ∧ Frame [.host, .mes] [] s t)))) ∧
    (s.dev.descOf q 0x32 = some x → (let g := x.desc.par 1 5
      let w : Staged := { q := q.val, flight := some x.id, swap := some (2 * q.val + x.desc.par 0 1) }
      (2 ≤ s.dev.grpState g ∨ s.dev.stageFits g [w] = false → ∃ t, exec (.meSwap q) s = .next t ∧ t.dev.host = s.dev.done x 4 0 ∧
        Frame [.host] [] s t) ∧
      (s.dev.grpState g < 2 → s.dev.stageFits g [w] = true → ∃ t, exec (.meSwap q) s = .next t ∧
        (t.dev.grp g).writes = stagedAfter (s.dev.grp g).writes [w] ∧ t.dev.grpState g = 1 ∧ (∀ m, m ≠ g → t.dev.grp m = s.dev.grp m) ∧
        (∀ y ∈ t.dev.host.flights, y.id = x.id → y.stage = 1) ∧ Frame [.host, .cmt] [CMTG_STATE_STATE g, CMTG_STATE_OWNER g] s t)))

/-- R12, R18, R312, R313, R318, R322, R356, R361, R362: bulk data. A DMA descriptor whose range passes the end or meets a Coach region ends with BAD_FIELD; MEM_WRITE
and MEM_FILL store their words and no other; MEM_READ sends the words that it finds, an uncorrectable one as zeros; an error of the host stops
either at a 16-byte boundary. An access to the bulk port waits behind those that wait and while stacked memory cannot take it; the oldest
acts on the first tick on which it may. The port reads and writes at PTR, which advances in STREAM mode; closed it returns zeros and drops writes. -/
def Obligations.BulkDataMoves : Prop :=
  (∀ (s : State) (x : Flight) (i : Nat) (c : Instr), s.dev.passes x = true →
    (∃ h, c = .memWrite i h ∧ s.dev.dmaOf i 0x40 = some x) ∨ (∃ e, c = .memRead i e ∧ s.dev.dmaOf i 0x41 = some x) ∨
      (c = .memFill i ∧ s.dev.dmaOf i 0x42 = some x) → s.dev.mc.touched.all (fun y => y.tick != s.dev.tick) = true →
    let w := x.desc.d2.toNat / 16 % 2 ^ 22
    let n := x.desc.d3.toNat % 2 ^ 25 / 16
    let closed := 2 ^ 22 < w + n ∨ s.dev.regionMeets w n = true
    let stored (m : Nat) (v : Nat → Nat) (t : State) : Prop :=
      (∀ j, j < m → t.mem.read (s.dev.memLoc (w + j)) = { data := v j, kind := 0 }) ∧
      (∀ k, (∀ j, j < m → k ≠ s.dev.memLoc (w + j)) → t.mem.read k = s.mem.read k) ∧ Frame [.host, .mem, .mc] [MEM_COLLCNT_CNT] s t
    (closed → ∃ t, exec c s = .next t ∧ t.dev.host = s.dev.done x 1 0 ∧ Frame [.host] [] s t) ∧
    (¬ closed →
      (∀ h, c = .memWrite i h → (let m := if x.orphan then 0 else min n (h.length / 16)
        ∃ t, exec c s = .next t ∧ t.dev.host = s.dev.done x (if m < n then 7 else 0) (16 * m) ∧
          stored m (fun j => bytesNat ((h.drop (16 * j)).take 16)) t)) ∧
      (c = .memFill i → ∃ t, exec c s = .next t ∧ t.dev.host = s.dev.done x 0 (16 * n) ∧
        stored n (fun _ => (x.desc.d4.toNat % 2 ^ 32) * (1 + 2 ^ 32 + 2 ^ 64 + 2 ^ 96)) t) ∧
      (∀ e, c = .memRead i e → (let m := min n ((e.map (fun b => b / 16)).getD n)
        let cell (j : Nat) := s.mem.read (s.dev.memLoc (w + j))
        ∃ t, exec c s = .next t ∧ t.mem = s.mem ∧
          (x.orphan = false → m = 0 → t.dev.out = s.dev.out) ∧
          (x.orphan = false → 0 < m → ∃ bs : List Byte, t.dev.out = s.dev.out ++ [.hostWrite x.desc.d1.toNat bs] ∧ bs.length = 16 * m ∧
            ∀ j, j < m → bytesNat ((bs.drop (16 * j)).take 16) = if (cell j).kind = 2 then 0 else (cell j).data % 2 ^ 128) ∧
          (x.orphan = true → t.dev.out = s.dev.out ∧ t.dev.get HIF_DETACH_DROP_CNT = min (s.dev.get HIF_DETACH_DROP_CNT + 1) (2 ^ 32 - 1)) ∧
          (m < n → t.dev.host = s.dev.done x 7 (16 * m)) ∧
          (m = n → (∀ j, j < n → (cell j).kind ≠ 2) → t.dev.host = s.dev.done x 0 (16 * n)) ∧
          (∀ k, m = n → k < n → (cell k).kind = 2 → (∀ j, j < k → (cell j).kind ≠ 2) → t.dev.host = s.dev.done x 8 (16 * k)) ∧
          Frame [.host, .out, .mc, .ru, .svc] (HIF_DETACH_DROP_CNT :: memErrFields) s t)))) ∧
  ∀ (s : State) (f : Fin 4) (off : Fin 16384), s.dev.mc.touched.all (fun y => y.tick != s.dev.tick) = true →
    let inc := s.dev.get (BULK_CTL_INC f) = 1
    let a := 4 * s.dev.get (BULK_PTR_PTR f) + (if inc then 0 else 4 * off.val)
    let cell (j : Nat) := s.mem.read (s.dev.memLoc (a / 16 + j))
    let may (n : Nat) : Prop := s.dev.host.bulkq = [] ∧ (s.dev.get (BULK_CTL_EN f) = 1 →
      s.dev.memUp = true ∧ s.dev.memClear (a / 16) ((a + 4 * n + 15) / 16 - a / 16) = true)
    let held (x : BulkOp) (t : State) : Prop := t.dev.host = { s.dev.host with bulkq := s.dev.host.bulkq ++ [x] } ∧ Frame [.host] [] s t
    (∀ n : Fin 1025, wfBulk off n = true → ¬ may n → ∃ t, exec (.bulkRead f off n) s = .next t ∧ held (.read f off n) t) ∧
    (∀ data : List MaskedDword, wfBulk off data.length = true → ¬ may data.length → ∃ t, exec (.bulkWrite f off data) s = .next t ∧
      held (.write f off data) t) ∧
    (∀ n : Fin 1025, wfBulk off n = true → may n →
      exec (.bulkRead f off n) s = .next ({ s with dev := { s.dev with host := { s.dev.host with bulkq := [.read f off n] } } } : State).bulkTick) ∧
    (∀ data : List MaskedDword, wfBulk off data.length = true → may data.length →
      exec (.bulkWrite f off data) s = .next ({ s with dev := { s.dev with host := { s.dev.host with bulkq := [.write f off data] } } } : State).bulkTick) ∧
    (∀ n : Fin 1025, wfBulk off n = false → exec (.bulkRead f off n) s = .fault .badCommand) ∧
    (∀ data : List MaskedDword, wfBulk off data.length = false → exec (.bulkWrite f off data) s = .fault .badCommand) ∧
    (s.dev.get (BULK_CTL_EN f) = 0 →
      (∀ n : Fin 1025, wfBulk off n = true → may n → ∃ t, exec (.bulkRead f off n) s = .next t ∧
        t.dev.out = s.dev.out ++ [.bulkData f (List.replicate n 0) false] ∧ Frame [.out] [] s t) ∧
      (∀ data : List MaskedDword, wfBulk off data.length = true → may data.length → exec (.bulkWrite f off data) s = .next s)) ∧
    (s.dev.get (BULK_CTL_EN f) = 1 →
      (∀ n : Fin 1025, wfBulk off n = true → may n → 2 ^ 26 < a + 4 * n.val → ∃ t, exec (.bulkRead f off n) s = .next t ∧
        t.dev.out = s.dev.out ++ [.unsupported f] ∧ t.dev.get (BULK_STATUS_RANGE f) = 1 ∧ Frame [.out] [BULK_STATUS_RANGE f] s t) ∧
      (∀ n : Fin 1025, wfBulk off n = true → may n → a + 4 * n.val ≤ 2 ^ 26 → (let m := (a + 4 * n.val + 15) / 16 - a / 16
        ∃ t vs, exec (.bulkRead f off n) s = .next t ∧ t.mem = s.mem ∧ vs.length = n.val ∧
          (∀ j, j < n.val → (vs.getD j 0).toNat = (cell ((a + 4 * j) / 16 - a / 16)).data / 2 ^ (8 * ((a + 4 * j) % 16)) % 2 ^ 32) ∧
          (if inc then t.dev.get (BULK_PTR_PTR f) = (s.dev.get (BULK_PTR_PTR f) + n.val) % 2 ^ 24
            else t.dev.get (BULK_PTR_PTR f) = s.dev.get (BULK_PTR_PTR f)) ∧
          ((∀ j, j < m → (cell j).kind ≠ 2) → t.dev.out = s.dev.out ++ [.bulkData f vs false]) ∧
          ((∀ j, j < m → (cell j).kind = 0) → Frame [.out] [BULK_PTR_PTR f] s t) ∧
          ((∃ j, j < m ∧ (cell j).kind = 2) → t.dev.out = s.dev.out ++ [.bulkData f vs true] ∧ t.dev.get (BULK_STATUS_POISON f) = 1) ∧
          Frame [.out, .mc, .ru, .svc] (BULK_PTR_PTR f :: BULK_STATUS_POISON f :: memErrFields) s t)) ∧
      (∀ data : List MaskedDword, wfBulk off data.length = true → may data.length → (let room := (2 ^ 26 - a) / 4
        ∃ t, exec (.bulkWrite f off data) s = .next t ∧
          (room < data.length → t.dev.get (BULK_STATUS_RANGE f) = 1 ∧ t.dev.get (BULK_PTR_PTR f) = s.dev.get (BULK_PTR_PTR f)) ∧
          (data.length ≤ room → t.dev.get (BULK_PTR_PTR f) =
            (s.dev.get (BULK_PTR_PTR f) + (if inc then data.length else 0)) % 2 ^ 24) ∧
          (∀ k, (∀ j, j < min room data.length → k ≠ s.dev.memLoc ((a + 4 * j) / 16)) → t.mem.read k = s.mem.read k) ∧
          (∀ x : MaskedDword, data = [x] → 1 ≤ room → x.be = 15 → s.dev.regionDrop (a / 16) = none → (cell 0).kind = 0 →
            (let v := (t.mem.read (s.dev.memLoc (a / 16))).data
            v / 2 ^ (8 * (a % 16)) % 2 ^ 32 = x.v.toNat ∧ v % 2 ^ (8 * (a % 16)) = (cell 0).data % 2 ^ (8 * (a % 16)) ∧
            v / 2 ^ (8 * (a % 16) + 32) = (cell 0).data % 2 ^ 128 / 2 ^ (8 * (a % 16) + 32))) ∧
          (∀ x : MaskedDword, data = [x] → 1 ≤ room → x.be ≠ 0 → s.dev.regionDrop (a / 16) ≠ none →
            t.mem = s.mem ∧ t.dev.get (BULK_STATUS_REGION f) = 1) ∧
          Frame [.mem, .mc, .ru, .svc] (BULK_PTR_PTR f :: BULK_STATUS_RANGE f :: BULK_STATUS_REGION f :: memErrFields ++ memDropFields) s t)))

/-- R421, R434 to R439, R446 to R448, R451 to R453: the service descriptors, the fuse programmer and the fault log. The store's bytes go out and
come in; the log is read from FLOG_RDIDX on and cleared to one Cleared entry; a fuse image passes its checks in their order before its first
word is programmed, and a word only sets bits; the debug level is set; a test enters the queue of 16. A privileged operation that is done is
logged and recorded. An event like the last entry within a second is merged, any other enters the buffer of 32 or is lost and counted; an
entry of the buffer goes to the keep area, then to the ring, which overwrites its oldest. -/
def Obligations.ServiceDescriptorsAndFaultLog : Prop :=
  (∀ (s : State) (x : Flight), s.dev.passes x = true →
    let off := x.desc.d2.toNat % 2 ^ 23
    let n := x.desc.d3.toNat % 2 ^ 17
    let told (v : Nat) (t : State) : Prop := ∃ l r, t.dev.ru.raised = s.dev.ru.raised ++ l ++ [r] ∧ r.typ = 0x14 ∧ r.sub = 0x24 ∧ r.orig = 4 ∧
      r.p0 = x.desc.op ∧ r.p1 = x.f ∧ r.p2 = v
    let sent (bs : List Byte) (t : State) : Prop :=
      (x.orphan = true → t.dev.out = s.dev.out ∧ t.dev.get HIF_DETACH_DROP_CNT = min (s.dev.get HIF_DETACH_DROP_CNT + 1) (2 ^ 32 - 1)) ∧
      (x.orphan = false → t.dev.out = s.dev.out ++ (if bs = [] then [] else [.hostWrite x.desc.d1.toNat bs]) ∧
        t.dev.get HIF_DETACH_DROP_CNT = s.dev.get HIF_DETACH_DROP_CNT)
    (∀ e : Option Nat, s.dev.descOf 4 0x50 = some x → (let bytes := (List.range n).map (fun j => Tab.get 0 s.nvs.data (off + j))
      ((∀ b, e = some b → n ≤ b) → ∃ t, exec (.nvsRead e) s = .next t ∧ t.dev.host = s.dev.done x 0 n ∧ sent bytes t ∧
        Frame [.host, .out] [HIF_DETACH_DROP_CNT] s t) ∧
      (∀ b, e = some b → b < n → ∃ t, exec (.nvsRead e) s = .next t ∧ t.dev.host = s.dev.done x 7 0 ∧ sent (bytes.take b) t ∧
        Frame [.host, .out] [HIF_DETACH_DROP_CNT] s t))) ∧
    (∀ (h : HostData) (c : Instr) (a : Nat), (c = .nvsWrite h ∧ s.dev.descOf 4 0x51 = some x ∧ a = off) ∨
        (c = .calWrite h ∧ s.dev.descOf 4 0x56 = some x ∧ a = 0x780000) →
      (x.orphan = true ∨ h.length < n → ∃ t, exec c s = .next t ∧ t.dev.host = s.dev.done x 7 0 ∧ Frame [.host] [] s t) ∧
      (x.orphan = false → n ≤ h.length → ∃ t, exec c s = .next t ∧ t.dev.host = s.dev.done x 0 n ∧
        (∀ j, j < n → Tab.get 0 t.nvs.data (a + j) = h.getD j 0) ∧
        (∀ i, i < a ∨ a + n ≤ i → Tab.get 0 t.nvs.data i = Tab.get 0 s.nvs.data i) ∧ t.nvs = { s.nvs with data := t.nvs.data } ∧
        (x.desc.privileged = true → told n t ∧ Frame [.host, .nvs, .svc, .ru] flogFields s t) ∧
        (x.desc.privileged = false → Frame [.host, .nvs] [] s t))) ∧
    (∀ e : Option Nat, s.dev.descOf 4 0x52 = some x → (let i := s.dev.get SVC_FLOG_RDIDX_IDX
      let es := ((s.nvs.keep ++ s.nvs.ring).drop i).take (n / 32)
      let bytes := dwordBytes (es.flatMap FlEntry.dwords)
      bytes.length = 32 * es.length ∧
      ((∀ b, e = some b → bytes.length ≤ b) → ∃ t, exec (.faultlogRead e) s = .next t ∧ t.dev.host = s.dev.done x 0 (32 * es.length) ∧ sent bytes t ∧
        t.dev.get SVC_FLOG_RDIDX_IDX = (i + es.length) % 2 ^ 14 ∧ Frame [.host, .out] [HIF_DETACH_DROP_CNT, SVC_FLOG_RDIDX_IDX] s t) ∧
      (∀ b, e = some b → b < bytes.length → ∃ t, exec (.faultlogRead e) s = .next t ∧ t.dev.host = s.dev.done x 7 0 ∧ sent (bytes.take b) t ∧
        Frame [.host, .out] [HIF_DETACH_DROP_CNT] s t))) ∧
    (s.dev.descOf 4 0x53 = some x → (let k := s.nvs.keep.length + s.nvs.ring.length
      ∃ t, exec .faultlogClear s = .next t ∧ t.dev.host = s.dev.done x 0 k ∧ told k t ∧ t.nvs.ring = [] ∧
        (∃ e : FlEntry, t.nvs.keep = [e] ∧ e.time = s.dev.now ∧ e.code = 1 ∧ e.orig = 4 ∧ e.seq = s.dev.get SVC_FLOG_SEQ_SEQ ∧ e.d0 = k) ∧
        t.nvs.seq = (s.dev.get SVC_FLOG_SEQ_SEQ + 1) % 2 ^ 32 ∧ t.nvs.data = s.nvs.data ∧ t.nvs.spare = s.nvs.spare ∧
        t.dev.get SVC_FLOG_KEEP = 1 ∧ t.dev.get SVC_FLOG_RING = 0 ∧
        Frame [.host, .nvs, .svc, .ru] (SVC_FLOG_KEEP :: SVC_FLOG_RING :: flogFields) s t)) ∧
    (∀ (h : HostData) (v : Bool), s.dev.descOf 4 0x54 = some x → (let ps := fusePairs (bytesWords 4 (n / 4) (h.take n))
      let st : Option Nat := if (s.dev.fw 4).testBit 31 then some 5 else if n % 8 ≠ 0 ∨ n < 8 ∨ 512 < n then some 1
        else if x.orphan ∨ h.length < n then some 7 else if ps.any (fun p => decide (p.1 < 4)) then some 5
        else if ps.any s.fuse.refuses then some 1 else if v then none else some 10
      ∃ t, exec (.fuseProg h v) s = .next t ∧ t.dev.get FUSEST_STATUS_VFUSE_OK = b2n v ∧
        (∀ k, st = some k → t.dev.host = s.dev.done x k 0) ∧
        (st = none → s.fuse.todo ps = [] → t.dev.host = s.dev.done x 0 0 ∧ t.dev.get FUSEST_STATUS_PROGBUSY = 0 ∧ t.dev.svc.fuseJob = none ∧ told 0 t) ∧
        (st = none → s.fuse.todo ps ≠ [] → t.dev.host = s.dev.begun x ∧ t.dev.get FUSEST_STATUS_PROGBUSY = 1 ∧
          t.dev.svc.fuseJob = some (x.id, s.fuse.todo ps) ∧ t.dev.svc.fuseDone = 0) ∧
        Frame [.host, .svc, .ru] (FUSEST_STATUS_VFUSE_OK :: FUSEST_STATUS_PROGBUSY :: flogFields) s t)) ∧
    (s.dev.descOf 4 0x55 = some x → ∃ t, exec .debugUnlock s = .next t ∧ t.dev.host = s.dev.done x 0 (x.desc.par 0 2) ∧
      t.dev.svc.dbgLevel = x.desc.par 0 2 ∧ told (x.desc.par 0 2) t ∧ Frame [.host, .svc, .ru] flogFields s t) ∧
    (s.dev.descOf 4 0x57 = some x → (let q := s.dev.svc.queue
      let r : TestReq := { kind := x.desc.par 0 8, index := x.desc.par 8 16 }
      (16 ≤ q.length → ∃ t, exec .selftest s = .next t ∧ t.dev.host = s.dev.done x 4 0 ∧ Frame [.host] [] s t) ∧
      (q.length < 16 → ∃ t, exec .selftest s = .next t ∧ t.dev.host = s.dev.done x 0 0 ∧
        (s.dev.svc.running ≠ none → t.dev.svc = { s.dev.svc with queue := q ++ [r] }) ∧
        (s.dev.svc.running = none → q = [] → t.dev.svc = { s.dev.svc with queue := [{ r with head := some s.dev.tick }] }) ∧
        (∀ y rest, s.dev.svc.running = none → q = y :: rest →
          t.dev.svc = { s.dev.svc with queue := { y with head := some (y.head.getD s.dev.tick) } :: rest ++ [r] }) ∧ Frame [.host, .svc] [] s t)))) ∧
  (∀ (s : State) (v : Bool),
    let job := s.dev.svc.fuseJob
    (job = none → exec (.fuseWordProgram v) s = .next s) ∧
    (∀ id ps, job = some (id, ps) → ps = [] ∨ s.dev.flight id = none → ∃ t, exec (.fuseWordProgram v) s = .next t ∧
      t.dev.svc = { s.dev.svc with fuseJob := none, fuseDone := 0 } ∧ t.dev.get FUSEST_STATUS_PROGBUSY = 0 ∧
      Frame [.svc] [FUSEST_STATUS_PROGBUSY] s t) ∧
    (∀ id p r x, job = some (id, p :: r) → s.dev.flight id = some x → (let m := s.dev.svc.fuseDone + 1
      let ended (st : Nat) (t : State) : Prop := t.dev.svc.fuseJob = none ∧ t.dev.get FUSEST_STATUS_PROGBUSY = 0 ∧
        ∀ y ∈ t.dev.host.flights, y.id = id → y.stage = 2 ∧ y.status = st ∧ y.value = m
      ∃ t, exec (.fuseWordProgram v) s = .next t ∧ t.fuse.word p.1 = (s.fuse.word p.1 ||| p.2) % 2 ^ 32 ∧
        (∀ k, k ≠ p.1 → t.fuse.word k = s.fuse.word k) ∧ t.dev.get FUSEST_STATUS_VFUSE_OK = b2n v ∧
        (t.dev.get FUSEST_STATUS_PEND = 1 ↔ ∃ k, k < 64 ∧ t.fuse.word k ≠ s.dev.fw k) ∧
        (v = false → ended 10 t) ∧ (v = true → t.fuse.todo r = [] → ended 0 t) ∧
        (v = true → t.fuse.todo r ≠ [] → t.dev.svc.fuseJob = some (id, t.fuse.todo r) ∧ t.dev.svc.fuseDone = m ∧
          t.dev.get FUSEST_STATUS_PROGBUSY = 1 ∧ t.dev.host = s.dev.host) ∧
        Frame [.fuse, .host, .svc, .ru] (FUSEST_STATUS_VFUSE_OK :: FUSEST_STATUS_PEND :: FUSEST_STATUS_PROGBUSY :: flogFields) s t))) ∧
  (∀ s : State,
    let v := s.dev.svc
    let due := v.flRewrite = 0 ∨ v.flRewrite + 800000000 ≤ s.dev.now
    let more (e : FlEntry) : FlEntry := { e with rep := min (e.rep + v.flRep) 65535 }
    let keep := if v.flRep ≠ 0 ∧ s.nvs.ring = [] then modLast more s.nvs.keep else s.nvs.keep
    let ring := if v.flRep ≠ 0 then modLast more s.nvs.ring else s.nvs.ring
    (v.flBuf = [] → v.flRep = 0 ∨ ¬ due → exec .faultLogStoreWrite s = .next s) ∧
    (v.flBuf = [] → v.flRep ≠ 0 → due → ∃ t, exec .faultLogStoreWrite s = .next t ∧ t.nvs = { s.nvs with keep, ring } ∧
      t.dev.svc = { v with flRep := 0, flRewrite := s.dev.now } ∧ Frame [.nvs, .svc] [] s t) ∧
    (∀ e rest, v.flBuf = e :: rest → ∃ t, exec .faultLogStoreWrite s = .next t ∧ t.dev.svc.flBuf = rest ∧ t.dev.svc.flRep = 0 ∧
      (keep.length < 256 → t.nvs = { s.nvs with keep := keep ++ [e], ring, seq := (e.seq + 1) % 2 ^ 32 }) ∧
      (256 ≤ keep.length → t.nvs = { s.nvs with keep, ring := (if ring.length < 16128 then ring else ring.drop 1) ++ [e], seq := (e.seq + 1) % 2 ^ 32 }) ∧
      t.dev.get SVC_FLOG_KEEP = t.nvs.keep.length % 512 ∧ t.dev.get SVC_FLOG_RING = t.nvs.ring.length % 2 ^ 14 ∧
      (rest ≠ [] → t.dev.svc.flLast = v.flLast) ∧ (∀ c r z b, rest = [] → v.flLast = some (c, r, z, b) → t.dev.svc.flLast = some (c, r, z, true)) ∧
      Frame [.nvs, .svc] [SVC_FLOG_KEEP, SVC_FLOG_RING] s t)) ∧
  ∀ (s : State) (code orig src d0 d1 : Nat),
    let d := s.dev
    let e := d.flog code orig src d0 d1
    let like := ∃ t b, d.svc.flLast = some (code, src, t, b) ∧ d.now < t + 800000000
    let stored := ∃ t, d.svc.flLast = some (code, src, t, true)
    (like → stored → e.svc = { d.svc with flRep := d.svc.flRep + 1 } ∧ Frame [.svc] [] s { s with dev := e }) ∧
    (∀ l y, like → ¬ stored → d.svc.flBuf = l ++ [y] → e.svc = { d.svc with flBuf := l ++ [{ y with rep := min (y.rep + 1) 65535 }] } ∧
      Frame [.svc] [] s { s with dev := e }) ∧
    (¬ like → d.svc.flBuf.length < 32 → (∃ y : FlEntry, e.svc.flBuf = d.svc.flBuf ++ [y] ∧ y.time = d.now ∧ y.code = code ∧ y.orig = orig ∧
        y.src = src ∧ y.lost = d.svc.flLostNext ∧ y.seq = d.get SVC_FLOG_SEQ_SEQ ∧ y.cold = d.svc.cold % 65536 ∧ y.rep = 0 ∧ y.d0 = d0 ∧ y.d1 = d1) ∧
      e.svc.flLostNext = false ∧ e.svc.flLast = some (code, src, d.now, false) ∧ e.get SVC_FLOG_SEQ_SEQ = (d.get SVC_FLOG_SEQ_SEQ + 1) % 2 ^ 32 ∧
      Frame [.svc] [SVC_FLOG_SEQ_SEQ] s { s with dev := e }) ∧
    (¬ like → 32 ≤ d.svc.flBuf.length → e.svc = { d.svc with flLostNext := true } ∧
      e.get SVC_FLOG_LOST_CNT = min (d.get SVC_FLOG_LOST_CNT + 1) (2 ^ 32 - 1) ∧
      (∃ r : Rec, e.ru = { d.ru with raised := d.ru.raised ++ [r] } ∧ r.typ = 0x14 ∧ r.sub = 7 ∧ r.p0 = e.get SVC_FLOG_LOST_CNT) ∧
      Frame [.svc, .ru] [SVC_FLOG_LOST_CNT] s { s with dev := e })

/-- R338, R363 to R368, R385, R386, R389, R470, R477: the link and the functions. A loss of the link discards what is buffered, leaves what is forwarded
without a path, empties the hold buffers and counts them, returns the interface's registers to their Reset values and raises a LINK_STATE
record; a link that trains advances GEN; bus master enable ends the detached state and, like a return to D0, writes the held records and sends
the messages that are due; a function-level reset does to one function what a loss does, without counting what was held, and stops its
quadrants where the fuses say so; a return of the manager refuses a pending request for SLEEP. The configuration space shows what a function
owns. -/
def Obligations.LinkAndFunctionStates : Prop :=
  (∀ (d : Dev) (f : Fin 4),
    let x (i : Nat) := d.vsec f i
    classCode.toNat = 0x118000 ∧ (x 0).toNat % 2 ^ 20 = 0x1000B ∧ (x 1).toNat = 0x02010001 ∧ (x 2).toNat = 0x4E444353 ∧
    (x 3).toNat / 2 ^ 8 = f ∧ ((x 3).toNat.testBit 4 = true ↔ d.manager = f) ∧ (∀ q, q < 4 → ((x 3).toNat.testBit q = true ↔ d.qOwner q = f)) ∧
    (∀ k, k < 32 → ((x 4).toNat.testBit k = true ↔ d.srOwner k = f) ∧ ((x 5).toNat.testBit k = true ↔ d.rrOwner k = f)) ∧
    (x 3).toNat / 32 % 8 = 0 ∧ x 6 = 0 ∧ x 7 = 0) ∧
  (∀ s : State,
    (s.dev.host.linkUp = false → exec .linkDown s = .next s) ∧
    (s.dev.host.linkUp = true → ∃ t, exec .linkDown s = .next t ∧ t.dev.host.linkUp = false ∧ t.dev.host.detached = true ∧
      (∀ k, t.dev.sring k = {}) ∧ (∀ f, f < 4 → t.dev.fn f = {} ∧ Tab.get [] t.dev.ru.held f = []) ∧
      t.dev.host.flights = s.dev.host.flights.map (fun x => if x.f < 4 then { x with orphan := true } else x) ∧
      (∀ o, (0x4000 ≤ o ∧ o < 0x4080) ∨ (0x4100 ≤ o ∧ o < 0x4900) → o ≠ HIF_GEN → o ≠ HIF_DETACH_DROP → t.dev.word o = resetWord o) ∧
      t.dev.word HIF_GEN = s.dev.word HIF_GEN ∧
      t.dev.get HIF_DETACH_DROP_CNT = min (s.dev.get HIF_DETACH_DROP_CNT + (Tab.get [] s.dev.ru.held 0).length + (Tab.get [] s.dev.ru.held 1).length +
        (Tab.get [] s.dev.ru.held 2).length + (Tab.get [] s.dev.ru.held 3).length) (2 ^ 32 - 1) ∧
      (∀ b ∈ t.dev.host.bulkq, 4 ≤ b.span.1) ∧ t.dev.ru.detachFirst = s.dev.ru.detachFirst.or s.dev.firstHeld ∧
      (∃ r : Rec, t.dev.ru.raised = s.dev.ru.raised ++ [r] ∧ r.typ = 0x15 ∧ r.sub = 0 ∧ r.orig = 4 ∧ r.src = 0 ∧ r.at_.time = s.dev.now ∧
        r.p0 = s.dev.get HIF_GEN_GEN ∧ r.p1 = t.dev.get HIF_DETACH_DROP_CNT) ∧
      Frame [.host, .ru] hostFields s t)) ∧
  (∀ (s : State) (w : LinkWidth) (r : LinkRate),
    (s.dev.host.linkUp = true ∨ s.dev.pw.released = false → exec (.linkUp w r) s = .next s) ∧
    (s.dev.host.linkUp = false → s.dev.pw.released = true → ∃ t, exec (.linkUp w r) s = .next t ∧
      t.dev.host = { s.dev.host with linkUp := true } ∧ t.dev.get HIF_GEN_GEN = (s.dev.get HIF_GEN_GEN + 1) % 2 ^ 32 ∧
      t.dev.get HIF_LINK_WIDTH = (if w = .x1 then 1 else if w = .x4 then 4 else 8) ∧
      t.dev.get HIF_LINK_RATE = (if r = .gt2_5 then 1 else if r = .gt5 then 2 else if r = .gt8 then 3 else 4) ∧
      (s.dev.host.detached = false → t.dev.ru = s.dev.ru) ∧
      (s.dev.host.detached = true → ∃ x : Rec, t.dev.ru = { s.dev.ru with raised := s.dev.ru.raised ++ [x] } ∧ x.typ = 0x15 ∧ x.sub = 1 ∧
        x.p0 = t.dev.get HIF_GEN_GEN ∧ x.p1 = s.dev.get HIF_DETACH_DROP_CNT) ∧
      Frame [.host, .ru] [HIF_GEN_GEN, HIF_LINK_WIDTH, HIF_LINK_RATE] s t)) ∧
  (∀ (s : State) (f : Fin 4) (msixEn fmask pmeEn : Bool),
    let x := s.dev.fn f
    let sends (t : State) : Prop := Tab.get [] t.dev.ru.held f = [] ∧
      ∀ k, k < 32 → s.dev.rrOwner k = f → s.dev.get (RR_CFG_EN k) = 1 → s.dev.get (RR_IRQ_EN k) = 1 → s.dev.get (RR_IRQ_DUE k) = 1 →
        (t.dev.fn f).msixEn = true → (t.dev.fn f).fmask = false →
        (Tab.get (1 : Word) x.table (4 * s.dev.get (RR_IRQ_VEC k) + 3)).toNat % 2 = 0 →
        t.dev.get (RR_IRQ_DUE k) = 0 ∧ Output.msix f (s.dev.get (RR_IRQ_VEC k)) ∈ t.dev.out
    let quiet := Tab.get [] s.dev.ru.held f = [] ∧ ∀ k, k < 32 → s.dev.rrOwner k = f → s.dev.get (RR_IRQ_DUE k) = 0
    let c := Instr.busMasterEnable f msixEn fmask pmeEn
    (s.dev.host.linkUp = false → exec c s = .next s ∧ exec (.d3hotEntry f) s = .next s ∧ exec (.functionLevelReset f) s = .next s) ∧
    (s.dev.host.linkUp = true →
      (∃ t, exec (.d3hotEntry f) s = .next t ∧ t.dev.fn f = { x with d3 := true } ∧ (∀ m, m ≠ f.val → t.dev.fn m = s.dev.fn m) ∧
        t.dev.host = { s.dev.host with fns := t.dev.host.fns } ∧ Frame [.host] [] s t) ∧
      (∃ t, exec c s = .next t ∧ t.dev.host.detached = false ∧ (t.dev.fn f).bme = true ∧ (t.dev.fn f).msixEn = msixEn ∧
        (t.dev.fn f).fmask = fmask ∧ (t.dev.fn f).pmeEn = pmeEn ∧ (t.dev.fn f).d3 = x.d3 ∧ (∀ m, m ≠ f.val → t.dev.fn m = s.dev.fn m) ∧
        t.dev.host.flights = s.dev.host.flights ∧ t.dev.host.srs = s.dev.host.srs ∧ (x.d3 = false → sends t) ∧
        (x.d3 = true ∨ quiet → Frame [.host] [] s t) ∧
        ((∀ e ∈ Tab.get [] s.dev.ru.held f, e.1 < 32) → Frame [.host, .ru, .out] ringFields s t)) ∧
      (∃ t, exec (.functionLevelReset f) s = .next t ∧ t.dev.fn f = {} ∧ Tab.get [] t.dev.ru.held f = [] ∧
        (∀ k, t.dev.sring k = if s.dev.srOwner k = f then {} else s.dev.sring k) ∧ (∀ m, m ≠ f.val → t.dev.fn m = s.dev.fn m) ∧
        (∀ g ∈ s.dev.fnFields f, t.dev.word g.off = resetWord g.off) ∧
        t.dev.get HIF_DETACH_DROP_CNT = s.dev.get HIF_DETACH_DROP_CNT ∧
        t.dev.host.bulkq = s.dev.host.bulkq.filter (fun b => b.span.1 != f.val) ∧
        ((s.dev.fw 4).testBit 11 = true → ∀ q, q < 4 → s.dev.qOwner q = f → (t.dev.quad q).inReset = true) ∧
        ((s.dev.fw 4).testBit 11 = false →
          t.dev.host.flights = s.dev.host.flights.map (fun y => if y.f = f.val then { y with orphan := true } else y) ∧
          Frame [.host, .ru] (s.dev.fnFields f) s t))) ∧
    (x.d3 = false → exec (.d0Return f) s = .next s) ∧
    (x.d3 = true → ∃ t, exec (.d0Return f) s = .next t ∧ (t.dev.fn f).d3 = false ∧ (t.dev.fn f).bme = x.bme ∧ (t.dev.fn f).msixEn = x.msixEn ∧
      (t.dev.fn f).fmask = x.fmask ∧ (t.dev.fn f).pmeEn = x.pmeEn ∧ (∀ m, m ≠ f.val → t.dev.fn m = s.dev.fn m) ∧
      t.dev.host.flights = s.dev.host.flights ∧ t.dev.host.srs = s.dev.host.srs ∧
      (let refused := s.dev.get PWR_STATUS_SLPPEND = 1 ∧ s.dev.manager = f ∧ s.dev.get PWR_STATUS_STATE < 2
      let shown := [PWR_STATUS_SLPPEND, PWR_CTL_REQ, PWR_STATUS_REFUSED, PWR_STATUS_REFCAUSE, PWR_STATUS_WAKEREF]
      (refused → t.dev.get PWR_STATUS_SLPPEND = 0 ∧ t.dev.get PWR_CTL_REQ = 0 ∧ t.dev.get PWR_STATUS_REFUSED = 1 ∧
        t.dev.get PWR_STATUS_REFCAUSE = 2 ∧ t.dev.get PWR_STATUS_WAKEREF = 0) ∧
      (x.bme = true → sends t) ∧ (x.bme = false ∨ quiet → Frame [.host] (if refused then shown else []) s t) ∧
      ((∀ e ∈ Tab.get [] s.dev.ru.held f, e.1 < 32) → Frame [.host, .ru, .out] ((if refused then shown else []) ++ ringFields) s t))))

/-- R14 to R16, R373, R375, R377 to R382, R384 to R386, R390: event records on their way. The collector takes the due record that is next in
turn and puts it into the record queue, or drops and counts it; the record unit takes from the quadrants in turn, with a turn of the spine
buffer between two of theirs, and sends what it takes where its route says: into an event ring with the ring's SEQ and phase, held in D3hot,
lost where no slot is free, dropped where the ring is none; to the engine that ranks lowest among those that may take it, or to every named
one. The moderation timer of a ring sends its message or leaves it due; a pending message goes out once nothing masks it. -/
def Obligations.RecordsTravelAndInterrupt : Prop :=
  (∀ (s : State) (q : Fin 4),
    let x : Quad := s.dev.quad q
    let rank (p : PendRec) : Nat := ((p.source + 0x190 - x.lastSource - 1) % 0x190) * 2 ^ 24 + p.r.sub * 2 ^ 16 +
      (if p.r.typ = 4 then p.r.p0 % 256 else p.r.src)
    (s.dev.tb.running = false ∨ s.dev.quadDown q = true ∨ x.collected = s.dev.tick + 1 ∨ (∀ p ∈ x.pend, s.dev.tick < p.due) → exec (.recordCollect q) s = .next s) ∧
    (∀ l p r, s.dev.tb.running = true → s.dev.quadDown q = false → x.collected ≠ s.dev.tick + 1 → x.pend = l ++ p :: r → p.due ≤ s.dev.tick →
      (∀ y ∈ l, y.due ≤ s.dev.tick → rank p < rank y) → (∀ y ∈ r, y.due ≤ s.dev.tick → rank p ≤ rank y) →
      (0 < s.dev.recCredits q → ∃ t, exec (.recordCollect q) s = .next t ∧
        t.dev.quad q = { x with pend := l ++ r, lastSource := p.source, collected := s.dev.tick + 1,
                                recq := x.recq ++ [{ avail := s.dev.tick + 3, r := p.r }] } ∧
        (∀ m, m ≠ q.val → t.dev.quad m = s.dev.quad m) ∧ Frame [.quads] [] s t) ∧
      (s.dev.recCredits q = 0 → ∃ t, exec (.recordCollect q) s = .next t ∧ t.dev.quad q = { x with pend := l ++ r, lastSource := p.source, collected := s.dev.tick + 1 } ∧
        t.dev.get (RECQ_DROP_CNT q) = min (s.dev.get (RECQ_DROP_CNT q) + 1) (2 ^ 32 - 1) ∧
        (∀ m, m ≠ q.val → t.dev.quad m = s.dev.quad m) ∧ Frame [.quads] [RECQ_DROP_CNT q] s t))) ∧
  (∀ s : State,
    (s.dev.ru.raised = [] → exec .spineRecordBuffer s = .next s) ∧
    (∀ r rest, s.dev.ru.raised = r :: rest →
      (s.dev.ru.spine.length < 64 → ∃ t, exec .spineRecordBuffer s = .next t ∧
        t.dev.ru = { s.dev.ru with raised := rest, spine := s.dev.ru.spine ++ [r] } ∧ Frame [.ru] [] s t) ∧
      (64 ≤ s.dev.ru.spine.length → ∃ t, exec .spineRecordBuffer s = .next t ∧ t.dev.ru = { s.dev.ru with raised := rest } ∧
        t.dev.get RECU_SPDROP_CNT = min (s.dev.get RECU_SPDROP_CNT + 1) (2 ^ 32 - 1) ∧ Frame [.ru] [RECU_SPDROP_CNT] s t))) ∧
  (∀ s : State,
    let ready (q : Nat) : Option Rec := (s.dev.quad q).recq.head?.bind (fun x => if x.avail ≤ s.dev.tick then some x.r else none)
    let turn := [1, 2, 3, 4].map (fun i => (s.dev.ru.lastQuad + i) % 4)
    let none_ := ∀ q ∈ turn, ready q = none
    let goes (d : Dev) (r : Rec) := ∃ t e, exec .recordAccept s = .next t ∧
      (let w := d.routeWord r.orig r.typ
      let k := w / 2 ^ 24 % 32
      let mask := w % 256
      let seq := Tab.get 0 d.ru.ringSeq k
      let tl := d.get (RR_TAIL_TAIL k)
      let f := d.rrOwner k
      let h := Tab.get [] d.ru.held f
      let lost := Tab.get (0, 0, 0) d.ru.ringLost k
      let disarmed (e : Dev) : Prop := e.get (RR_IRQ_ARMED k) = 0 ∧ (d.get (RR_IRQ_ARMED k) = 1 → e.get (RR_IRQ_TIMING k) = 1 ∧
        Tab.get 0 e.ru.modEnd k = d.tick + 800 * min 1000 (d.get (RR_IRQ_MOD k)))
      let loses (e : Dev) : Prop := e.get (RR_LOST_DROPPED k) = min (d.get (RR_LOST_DROPPED k) + 1) (2 ^ 31 - 1) ∧ e.get (RR_LOST_PEND k) = 1 ∧
        Tab.get (0, 0, 0) e.ru.ringLost k = (if lost.1 = 0 then (1, seq, r.at_.time) else (lost.1 + 1, lost.2)) ∧
        Frame [.ru] [RR_LOST_DROPPED k, RR_LOST_PEND k] { s with dev := d } { s with dev := e }
      (w.testBit 31 = false → e = d) ∧
      (w.testBit 31 = true → d.host.detached = true → e.get HIF_DETACH_DROP_CNT = min (d.get HIF_DETACH_DROP_CNT + 1) (2 ^ 32 - 1) ∧
        e.ru.detachFirst = some (d.ru.detachFirst.getD r.at_.time) ∧ Frame [.ru] [HIF_DETACH_DROP_CNT] { s with dev := d } { s with dev := e }) ∧
      (w.testBit 31 = true → d.host.detached = false → d.get (RR_CFG_EN k) = 0 ∨ d.get (RR_CFG_TYPE k) = 0 →
        e.get RECU_OFFDROP_CNT = min (d.get RECU_OFFDROP_CNT + 1) (2 ^ 32 - 1) ∧ Frame [] [RECU_OFFDROP_CNT] { s with dev := d } { s with dev := e }) ∧
      (w.testBit 31 = true → d.host.detached = false → d.get (RR_CFG_EN k) = 1 → d.get (RR_CFG_TYPE k) = 1 →
        Tab.get 0 e.ru.ringSeq k = (seq + 1) % 65536 ∧
        ((d.fn f).d3 = true → h.length < 256 → Tab.get [] e.ru.held f = h ++ [(k, seq, r)] ∧ disarmed e ∧
          Frame [.ru] [RR_IRQ_ARMED k, RR_IRQ_TIMING k] { s with dev := d } { s with dev := e }) ∧
        ((d.fn f).d3 = true → 256 ≤ h.length → loses e) ∧
        ((d.fn f).d3 = false → d.rrFree k = 0 → loses e) ∧
        ((d.fn f).d3 = false → d.rrFree k ≠ 0 → lost.1 = 0 → e.out = d.out ++ [.event k tl (r.dwords seq (d.get (RR_STATUS_P k)))] ∧
          e.get (RR_TAIL_TAIL k) = (if tl + 1 = d.rrSize k then 0 else (tl + 1) % 65536) ∧
          e.get (RR_STATUS_P k) = (if tl + 1 = d.rrSize k then 1 - d.get (RR_STATUS_P k) else d.get (RR_STATUS_P k)) ∧ disarmed e ∧
          Frame [.ru, .out] [RR_TAIL_TAIL k, RR_STATUS_P k, RR_IRQ_ARMED k, RR_IRQ_TIMING k] { s with dev := d } { s with dev := e }) ∧
        ((d.fn f).d3 = false → d.rrFree k ≠ 0 → lost.1 ≠ 0 → ∃ r', Output.event k tl (Rec.dwords r' lost.2.1 (d.get (RR_STATUS_P k))) ∈ e.out ∧
          r'.typ = 0x16 ∧ r'.sub = 0 ∧ r'.p0 = lost.1)) ∧
      (mask = 0 → t = { s with dev := e }) ∧
      (mask ≠ 0 → w.testBit 30 = true → ∀ m, m < 8 →
        (mask.testBit m = false → t.dev.me m = e.me m) ∧
        (mask.testBit m = true → Tab.get (0, 0, 0) e.ru.meLost m = (0, 0, 0) → (let n := Tab.get 0 e.ru.meSeq m
          Tab.get 0 t.dev.ru.meSeq m = (n + 1) % 65536 ∧
          ((e.me m).recs.length < 64 → t.dev.me m = { e.me m with recs := (e.me m).recs ++ [r.dwords n 0] }) ∧
          (64 ≤ (e.me m).recs.length → t.dev.me m = e.me m ∧ Tab.get (0, 0, 0) t.dev.ru.meLost m = (1, n, r.at_.time) ∧
            t.dev.get (MEDROP_MEDROP_CNT m) = min (e.get (MEDROP_MEDROP_CNT m) + 1) (2 ^ 32 - 1))))) ∧
      (mask ≠ 0 → w.testBit 30 = false →
        (let was (m : Nat) : Nat × Nat := e.meAt m (e.tick - 4)
        let may (m : Nat) : Prop := mask.testBit m = true ∧ e.get (ME_CTL_EN m) = 1 ∧ ((was m).1 = 1 ∨ (was m).1 = 2 ∨ (was m).1 = 3) ∧
          (e.me m).recs.length < 64
        let below (a b : Nat) : Prop := ((was a).1 = 2 ∧ (was b).1 ≠ 2) ∨ ((was a).1 = 2 ∧ (was b).1 = 2 ∧ a < b) ∨
          ((was a).1 ≠ 2 ∧ (was b).1 ≠ 2 ∧ ((was a).2 < (was b).2 ∨ ((was a).2 = (was b).2 ∧ a < b)))
        ((∀ m, m < 8 → ¬ may m) → t.dev.get RECU_NOENG_CNT = min (e.get RECU_NOENG_CNT + 1) (2 ^ 32 - 1) ∧
          Frame [] [RECU_NOENG_CNT] { s with dev := e } t) ∧
        (∀ m, m < 8 → may m → (∀ y, y < 8 → may y → y ≠ m → below m y) → Tab.get (0, 0, 0) e.ru.meLost m = (0, 0, 0) →
          t.dev.me m = { e.me m with recs := (e.me m).recs ++ [r.dwords (Tab.get 0 e.ru.meSeq m) 0] } ∧
          Tab.get 0 t.dev.ru.meSeq m = (Tab.get 0 e.ru.meSeq m + 1) % 65536 ∧ (∀ y, y ≠ m → t.dev.me y = e.me y) ∧
          Frame [.mes, .ru] [] { s with dev := e } t))) ∧
      Frame [.mes, .ru] (RECU_NOENG_CNT :: (List.range 8).map (fun m => MEDROP_MEDROP_CNT m)) { s with dev := e } t)
    (s.dev.ru.spine = [] → none_ → exec .recordAccept s = .next s) ∧
    (∀ r rest, s.dev.ru.spine = r :: rest → s.dev.ru.spineTurn = true ∨ none_ →
      goes { s.dev with ru := { s.dev.ru with spine := rest, spineTurn := false } } r) ∧
    (∀ (i q : Nat) (r : Rec), turn[i]? = some q → ready q = some r → (∀ j p : Nat, j < i → turn[j]? = some p → ready p = none) →
      s.dev.ru.spine = [] ∨ s.dev.ru.spineTurn = false → ∃ d : Dev, goes d r ∧ d.quad q = { s.dev.quad q with recq := (s.dev.quad q).recq.tail } ∧
        (∀ m, m ≠ q → d.quad m = s.dev.quad m) ∧ d.ru = { s.dev.ru with lastQuad := q, spineTurn := true } ∧
        d.host = { s.dev.host with credits := s.dev.host.credits ++ [{ x := .record (Fin.ofNat 4 q), due := s.dev.tick + 4 }] } ∧
        Frame [.quads, .ru, .host] [] s { s with dev := d })) ∧
  (∀ (s : State) (k : Fin 32),
    let f := s.dev.rrOwner k
    let vec := s.dev.get (RR_IRQ_VEC k)
    let x := s.dev.fn f
    let open_ := x.msixEn = true ∧ x.fmask = false ∧ x.bme = true ∧ (Tab.get (1 : Word) x.table (4 * vec + 3)).toNat % 2 = 0
    let fired := s.dev.get (RR_IRQ_TIMING k) = 1 ∧ Tab.get 0 s.dev.ru.modEnd k ≤ s.dev.tick
    let quiet := s.dev.get (RR_IRQ_EN k) = 0 ∨ s.dev.rrUsed k + s.dev.heldFor k = 0
    let ended (t : State) : Prop := t.dev.get (RR_IRQ_TIMING k) = 0 ∧ Tab.get 0 t.dev.ru.modEnd k = 0
    (¬ fired → exec (.irqModerationExpire k) s = .next s) ∧
    (fired → quiet → ∃ t, exec (.irqModerationExpire k) s = .next t ∧ ended t ∧ t.dev.ru.sent = s.dev.ru.sent ∧ Frame [.ru] [RR_IRQ_TIMING k] s t) ∧
    (fired → ¬ quiet → x.d3 = true → ∃ t, exec (.irqModerationExpire k) s = .next t ∧ ended t ∧ t.dev.get (RR_IRQ_DUE k) = 1 ∧
      t.dev.fn f = { x with pmeStatus := true } ∧ (∀ m, m ≠ f → t.dev.fn m = s.dev.fn m) ∧
      t.dev.out = s.dev.out ++ (if x.pmeEn then [.pme f] else []) ∧ Frame [.ru, .host, .out] [RR_IRQ_TIMING k, RR_IRQ_DUE k] s t) ∧
    (fired → ¬ quiet → x.d3 = false → ∃ t, exec (.irqModerationExpire k) s = .next t ∧ ended t ∧ Tab.get 0 t.dev.ru.sent k = 1 ∧
      (open_ → t.dev.out = s.dev.out ++ [.msix f vec] ∧ t.dev.get (RR_IRQ_DUE k) = 0 ∧ t.dev.host = s.dev.host) ∧
      (¬ open_ → t.dev.out = s.dev.out ∧ t.dev.get (RR_IRQ_DUE k) = 1 ∧ vec ∈ (t.dev.fn f).pba ∧
        ∀ m, m ≠ f → t.dev.fn m = s.dev.fn m) ∧ Frame [.ru, .host, .out] [RR_IRQ_TIMING k, RR_IRQ_DUE k] s t)) ∧
  (∀ (s : State) (f : Fin 4) (vec : Fin 64),
    let x := s.dev.fn f
    let open_ := x.msixEn = true ∧ x.fmask = false ∧ x.bme = true ∧ (Tab.get (1 : Word) x.table (4 * vec.val + 3)).toNat % 2 = 0
    (vec.val ∉ x.pba ∨ ¬ open_ → exec (.msixPendingSend f vec) s = .next s) ∧
    (vec.val ∈ x.pba → open_ → ∃ t, exec (.msixPendingSend f vec) s = .next t ∧ t.dev.out = s.dev.out ++ [.msix f vec] ∧
      t.dev.fn f = { x with pba := x.pba.filter (fun v => v != vec.val) } ∧ (∀ m, m ≠ f.val → t.dev.fn m = s.dev.fn m) ∧
      (∀ k, k < 32 → t.dev.get (RR_IRQ_DUE k) = if s.dev.rrOwner k = f ∧ s.dev.get (RR_IRQ_VEC k) = vec then 0 else s.dev.get (RR_IRQ_DUE k)) ∧
      Frame [.host, .out] ((List.range 32).map (fun k => RR_IRQ_DUE k)) s t)) ∧
  ∀ (s : State) (f : Fin 4) (o : Fin 5) (n : Fin 32) (v : Word), s.dev.takes (.fn f) (ROUTE_ROUTE o n) = true → v &&& 0xDF0000FF = v →
    let bad := (v.toNat.testBit 31 = true ∧ s.dev.rrOwner (v.toNat / 2 ^ 24 % 32) ≠ f) ∨
      (s.dev.manager ≠ f ∧ ∃ e, e < 8 ∧ v.toNat.testBit e = true ∧ s.dev.qOwner (e / 2) ≠ f)
    (bad → ∃ t, exec (.routeWrite f o n v) s = .next t ∧ t.dev.get HIF_OWNVIOL_CNT = min (s.dev.get HIF_OWNVIOL_CNT + 1) (2 ^ 32 - 1) ∧
      Frame [] [HIF_OWNVIOL_CNT] s t) ∧
    (¬ bad → ∃ t, exec (.routeWrite f o n v) s = .next t ∧ t.dev.word (ROUTE_ROUTE o n) = v ∧ t.dev.routeWord o n = s.dev.routeWord o n ∧
      (∀ later, t.dev.tick + 4 ≤ later → ({ t.dev with tick := later } : Dev).routeWord o n = v.toNat) ∧ Frame [.ru] [whole (ROUTE_ROUTE o n)] s t)

/-- R20, R307, R308, R310 to R314, R316, R318: a bank serves the oldest request of the class it grants: the highest that waits, unless another has had
none of the last 15 grants. A read brings the word back as the code corrects it, or its error, or what stood there before a spine write of the
tick; an error is counted. A masked write or an atomic takes two slots. A full write stores good data, a masked one merges into the corrected word or leaves it poisoned; a write into a
Coach region is dropped; bytes that both sides write on one tick hold the engine's data. An atomic returns what it read and stores its result, or changes nothing on an uncorrectable word. A corrected word is
written back where nothing has stored it since. -/
def Obligations.BanksServeRequests : Prop :=
  (∀ (d : Dev) (b : Nat) (r : MemReq), d.memNext b = some r → r.word % 16 = b ∧
    (∃ l m, d.mc.reqs = l ++ r :: m ∧ ∀ y ∈ l, y.word % 16 = b → y.who.cls ≠ r.who.cls) ∧
    (let past := Tab.get [] d.mc.slots b
    (∀ y ∈ d.mc.reqs, y.word % 16 = b → r.who.cls ≤ y.who.cls) ∨ (15 ≤ past.length ∧ r.who.cls ∉ past))) ∧
  (∀ (s : State) (b : Fin 16) (flip : BitVec 152),
    let acts (k : Nat) : Prop := s.dev.memUp = true ∧ ∃ r, s.dev.memNext b = some r ∧ s.dev.copyAt ≠ some r.word ∧ r.kind = k
    (¬ acts 0 → exec (.bankRead b flip) s = .next s) ∧ (¬ acts 1 → exec (.bankWrite b) s = .next s) ∧
    (¬ acts 2 → exec (.bankAtomic b flip) s = .next s) ∧
    (∀ r, s.dev.memUp = true → s.dev.memNext b = some r → s.dev.copyAt ≠ some r.word → r.word < 2 ^ 22 →
      let k := s.dev.memLoc r.word
      let p := s.dev.memCell r.word / 2 ^ 18
      let m := s.mem.disturb k flip
      let x := m.read k
      let left := removeFirst r s.dev.mc.reqs
      let slots := Tab.set [] s.dev.mc.slots b ((List.replicate (if r.kind = 2 ∨ (r.kind = 1 ∧ r.mask ≠ 0xFFFF) then 2 else 1) r.who.cls ++
        Tab.get [] s.dev.mc.slots b).take 15)
      let spine := s.dev.touches true r.word
      let counted (t : State) : Prop :=
        (x.kind = 1 → t.dev.get MEM_STATUS_CE = 1 ∧
          t.dev.get (CECNT_CECNT_CNT p) = min (s.dev.get (CECNT_CECNT_CNT p) + 1) (2 ^ 32 - 1)) ∧
        (x.kind = 2 → t.dev.get MEM_STATUS_UE = 1 ∧ t.dev.get MEM_UECNT_CNT = min (s.dev.get MEM_UECNT_CNT + 1) (2 ^ 32 - 1))
      let others (t : State) : Prop := ∀ j, j ≠ k → t.mem.read j = s.mem.read j
      (r.kind = 0 → ∀ v, r.snap = some v → ∃ t, exec (.bankRead b flip) s = .next t ∧
        t.dev.mc = { s.dev.mc with reqs := left, slots, results := s.dev.mc.results ++ [{ who := r.who, data := v }] } ∧ Frame [.mc] [] s t) ∧
      (∀ l y, r.kind = 0 → r.snap = none → spine = l ++ [y] → ∃ t, exec (.bankRead b flip) s = .next t ∧ t.mem = m ∧
        t.dev.mc = { s.dev.mc with reqs := left, slots, results := s.dev.mc.results ++ [{ who := r.who, data := y.old.1, err := y.old.2 }] } ∧
        Frame [.mem, .mc] [] s t) ∧
      (r.kind = 0 → r.snap = none → spine = [] → ∃ t, exec (.bankRead b flip) s = .next t ∧ t.mem = m ∧ (flip = 0 → t.mem = s.mem) ∧
        t.dev.mc.reqs = left ∧ t.dev.mc.slots = slots ∧
        t.dev.mc.results = s.dev.mc.results ++ [{ who := r.who, data := x.data, err := x.kind == 2 }] ∧ counted t ∧
        t.dev.mc.wback = s.dev.mc.wback ++ (if x.kind = 1 ∧ s.dev.get MEM_CTL_WBACK = 1 then [k] else []) ∧
        (x.kind = 0 → Frame [.mem, .mc] [] s t) ∧ Frame [.mem, .mc, .ru, .svc] memErrFields s t) ∧
      (r.kind = 1 → s.dev.regionDrop r.word ≠ none → ∃ t, exec (.bankWrite b) s = .next t ∧
        t.dev.mc = { s.dev.mc with reqs := left, slots } ∧ Frame [.mc] memDropFields s t) ∧
      (r.kind = 1 → s.dev.regionDrop r.word = none → ∃ t, exec (.bankWrite b) s = .next t ∧ t.dev.mc.reqs = left ∧ t.dev.mc.slots = slots ∧ others t ∧
        t.dev.get MEM_COLLCNT_CNT = (if r.at_ ≠ s.dev.tick ∧ ∃ y ∈ spine, clashes r.mask r.data y.mask y.data then
          min (s.dev.get MEM_COLLCNT_CNT + 1) (2 ^ 32 - 1) else s.dev.get MEM_COLLCNT_CNT) ∧
        (s.dev.touches false r.word = [] → ∀ v i, i < 16 →
          byteOf ((t.memSpineStore r.word 0xFFFF v).mem.read k).data i = if r.mask.testBit i then byteOf r.data i else byteOf v i) ∧
        (let y := s.mem.read k
        (r.mask = 0 → t.mem = s.mem) ∧
        (r.mask = 0xFFFF → t.mem.read k = { data := r.data % 2 ^ 128, kind := 0 } ∧ k ∉ t.dev.mc.wback) ∧
        (r.mask ≠ 0 → r.mask ≠ 0xFFFF → y.kind = 2 → (t.mem.read k).kind = 2 ∧ t.dev.get MEM_STATUS_UE = 1) ∧
        (r.mask ≠ 0 → r.mask ≠ 0xFFFF → y.kind ≠ 2 → (t.mem.read k).kind = 0 ∧
          ∀ i, i < 16 → byteOf (t.mem.read k).data i = if r.mask.testBit i then byteOf r.data i else byteOf y.data i) ∧
        (r.mask = 0 ∨ r.mask = 0xFFFF ∨ y.kind = 0 → Frame [.mem, .mc] [MEM_COLLCNT_CNT] s t)) ∧
        Frame [.mem, .mc, .ru, .svc] (MEM_COLLCNT_CNT :: memErrFields) s t) ∧
      (r.kind = 2 → r.op < 3 → r.lane + (if r.op = 1 then 8 else 4) ≤ 16 → (let w := if r.op = 1 then 8 else 4
        let old := x.data / 2 ^ (8 * r.lane) % 2 ^ (8 * w)
        let new := if r.op = 2 then r.data % 2 ^ 32 else (old + r.data) % 2 ^ (8 * w)
        ∃ t, exec (.bankAtomic b flip) s = .next t ∧ t.dev.mc.reqs = left ∧ t.dev.mc.slots = slots ∧ counted t ∧ others t ∧
          t.dev.mc.results = s.dev.mc.results ++ [{ who := r.who, data := if x.kind = 2 then 0 else old, err := x.kind == 2 }] ∧
          (x.kind = 2 ∨ s.dev.regionDrop r.word ≠ none → t.mem = m) ∧
          (x.kind ≠ 2 → s.dev.regionDrop r.word = none → (t.mem.read k).kind = 0 ∧ ∀ i, i < 16 →
            byteOf (t.mem.read k).data i = if r.lane ≤ i ∧ i < r.lane + w then byteOf new (i - r.lane) else byteOf x.data i) ∧
          Frame [.mem, .mc, .ru, .svc] (memErrFields ++ memDropFields) s t)))) ∧
  ∀ s : State,
    (s.dev.memUp = false ∨ s.dev.mc.wback = [] → exec .ceWriteback s = .next s) ∧
    (∀ k rest, s.dev.memUp = true → s.dev.mc.wback = k :: rest → ∃ t, exec .ceWriteback s = .next t ∧
      t.dev.mc = { s.dev.mc with wback := rest } ∧
      ((s.mem.read k).kind ≠ 1 → t.mem = s.mem) ∧
      ((s.mem.read k).kind = 1 → t.mem.read k = { data := (s.mem.read k).data % 2 ^ 128, kind := 0 }) ∧
      (∀ j, j ≠ k → t.mem.read j = s.mem.read j) ∧ Frame [.mem, .mc] [] s t)

/-- R312, R315, R319, R320, R322 to R328, R332, R334: scrub, sparing, slice borrowing, the wake and the move units. The scrub reads the next physical
word once its turn has come; a sparing trigger starts the one copy there is, waits for a borrowed slice, or is refused; the copy moves one word
and with the last one switches the map; a slice is borrowed alone and copied to the mirror, a word
of every bank a tick, and once that has held all of it, it is copied back and its result shown; a move starts when it is enabled, free and in
range, moves one word at a time and ends with its last word, a stop or an uncorrectable source. -/
def Obligations.MemoryKeepsAndMoves : Prop :=
  (∀ (s : State) (flip : BitVec 152),
    let h := s.dev.get MEM_CTL_SCRUBH
    let k := s.dev.mc.scrub
    let turn := s.dev.memUp = true ∧ h ≠ 0 ∧ s.dev.mc.scrubLast + h * 2880000000000 / 4456448 ≤ s.dev.tick
    (¬ turn → exec (.scrubRead flip) s = .next s) ∧
    (turn → k < 4456448 → ∃ t, exec (.scrubRead flip) s = .next t ∧ t.mem = s.mem.disturb k flip ∧ t.dev.mc.scrub = (k + 1) % 4456448 ∧
      t.dev.mc.scrubLast = s.dev.tick ∧ t.dev.mc.wback = s.dev.mc.wback ++ (if (t.mem.read k).kind = 1 then [k] else []) ∧
      ((t.mem.read k).kind = 1 → t.dev.get MEM_STATUS_CE = 1 ∧
        t.dev.get (CECNT_CECNT_CNT (k / 2 ^ 18)) = min (s.dev.get (CECNT_CECNT_CNT (k / 2 ^ 18)) + 1) (2 ^ 32 - 1)) ∧
      ((t.mem.read k).kind = 2 → t.dev.get MEM_STATUS_UE = 1 ∧ t.dev.get MEM_UECNT_CNT = min (s.dev.get MEM_UECNT_CNT + 1) (2 ^ 32 - 1)) ∧
      ((t.mem.read k).kind = 0 → Frame [.mem, .mc] [] s t) ∧ Frame [.mem, .mc, .ru, .svc] memErrFields s t)) ∧
  (∀ (s : State) (f : Fin 4) (v : Word), s.dev.takes (.fn f) MEM_SPARECFG = true → v &&& 0xFFFFFF8F = v →
    let b := v.toNat % 16
    let c := s.dev.mc
    ∃ t, exec (.spareGo f v) s = .next t ∧ t.dev.word MEM_SPARECFG = v &&& 0xFFFFFF7F ∧
      (c.borrow ≠ none → t.dev.mc = { c with waiting := c.waiting ++ [b] } ∧ Frame [.mc] [whole MEM_SPARECFG] s t) ∧
      (c.borrow = none → s.dev.get MEM_STATUS_SPARE_USED = 0 → c.copy = none → c.spareBad = false → t.dev.mc = { c with copy := some b } ∧
        t.dev.get MEM_STATUS_COPYING = 1 ∧ t.dev.get MEM_SPAREPTR_P = 0 ∧
        Frame [.mc] [whole MEM_SPARECFG, MEM_STATUS_COPYING, MEM_SPAREPTR_P] s t) ∧
      (c.borrow = none → s.dev.get MEM_STATUS_SPARE_USED = 1 ∨ c.copy ≠ none ∨ c.spareBad = true → t.dev.get MEM_STATUS_NOSPARE = 1 ∧
        (∃ l r m, t.dev.ru.raised = s.dev.ru.raised ++ l ++ r :: m ∧ r.typ = 0x12 ∧ r.sub = 2 ∧ r.p0 = 256 + b) ∧
        Frame [.ru, .svc] (whole MEM_SPARECFG :: MEM_STATUS_NOSPARE :: flogFields) s t)) ∧
  (∀ (s : State) (flip : BitVec 152),
    (s.dev.memUp = false ∨ s.dev.mc.copy = none → exec (.spareCopyWord flip) s = .next s) ∧
    (∀ b, s.dev.memUp = true → s.dev.mc.copy = some b → b < 16 → (let i := s.dev.get MEM_SPAREPTR_P
      let k := b * 2 ^ 18 + i
      let x := (s.mem.disturb k flip).read k
      ∃ t, exec (.spareCopyWord flip) s = .next t ∧
        (x.kind = 2 → (t.mem.read (16 * 2 ^ 18 + i)).kind = 2) ∧
        (x.kind ≠ 2 → t.mem.read (16 * 2 ^ 18 + i) = { data := x.data % 2 ^ 128, kind := 0 }) ∧
        (∀ j, j ≠ k → j ≠ 16 * 2 ^ 18 + i → t.mem.read j = s.mem.read j) ∧
        (i + 1 < 2 ^ 18 → t.dev.get MEM_SPAREPTR_P = i + 1 ∧ t.dev.mc.copy = some b ∧ t.nvs = s.nvs) ∧
        (i + 1 = 2 ^ 18 → t.dev.mc.copy = none ∧ t.dev.get MEM_STATUS_COPYING = 0 ∧ t.dev.get MEM_STATUS_SPARE_USED = 1 ∧
          t.dev.get MEM_STATUS_SPAREFOR = b ∧ t.nvs = { s.nvs with spare := some b } ∧
          (∃ l r m, t.dev.ru.raised = s.dev.ru.raised ++ l ++ r :: m ∧ r.typ = 0x12 ∧ r.sub = 2 ∧ r.p0 = b)) ∧
        Frame [.mem, .mc, .ru, .svc, .nvs] memErrFields s t))) ∧
  (∀ (s : State) (f : Fin 4) (v : Word), s.dev.takes (.fn f) MEM_TESTCTL = true → v &&& 0x03FF0001 = v →
    (s.dev.mc.borrow ≠ none ∨ s.dev.mc.copy ≠ none ∨ s.dev.memUp = false → exec (.sliceBorrow f v) s = .next s) ∧
    (s.dev.mc.borrow = none → s.dev.mc.copy = none → s.dev.memUp = true → ∃ t, exec (.sliceBorrow f v) s = .next t ∧
      t.dev.mc = { s.dev.mc with borrow := some (v.toNat / 2 ^ 16 % 1024), mirrored := 0 } ∧ t.dev.get MEM_STATUS_TESTBUSY = 1 ∧
      Frame [.mc] [MEM_STATUS_TESTBUSY] s t)) ∧
  (∀ (s : State) (sl : Nat), s.dev.mc.borrow = some sl → (let n := s.dev.mc.mirrored
    (4096 ≤ n ∨ s.dev.memUp = false → s.mirrorTick = s) ∧
    (n + 16 ≤ 4096 → s.dev.memUp = true → sl < 1024 → (let t := s.mirrorTick
      t.dev.mc.mirrored = n + 16 ∧ t.dev.mc.borrow = some sl ∧
      (∀ i, i < 16 → (let x := s.mem.read (s.dev.memCell (4096 * sl + n + i))
        let y := t.mem.read (17 * 2 ^ 18 + n + i)
        (x.kind = 2 → y.kind = 2) ∧ (x.kind ≠ 2 → y = { data := x.data % 2 ^ 128, kind := 0 }))) ∧
      (∀ k, (∀ i, i < 16 → k ≠ 17 * 2 ^ 18 + n + i) → t.mem.read k = s.mem.read k) ∧ Frame [.mem, .mc, .ru, .svc] memErrFields s t)))) ∧
  (∀ (s : State) (fails : BitVec 16),
    let c := s.dev.mc
    let free := s.dev.get MEM_STATUS_SPARE_USED = 0 ∧ c.copy = none ∧ c.spareBad = false
    let shown := [MEM_STATUS_TESTBUSY, MEM_TESTSTAT_DONE, MEM_TESTSTAT_SLICE, MEM_TESTSTAT_BANKS, MEM_TESTSTAT_FAIL]
    let clean := ∀ i, i < 4096 → (s.mem.read (17 * 2 ^ 18 + i)).kind = 0
    (c.borrow = none ∨ c.mirrored < 4096 ∨ s.dev.memUp = false → exec (.sliceTestDone fails) s = .next s) ∧
    (∀ sl, c.borrow = some sl → 4096 ≤ c.mirrored → s.dev.memUp = true → ∃ t, exec (.sliceTestDone fails) s = .next t ∧ t.dev.mc.borrow = none ∧ t.dev.mc.waiting = [] ∧
      t.dev.get MEM_STATUS_TESTBUSY = 0 ∧ t.dev.get MEM_TESTSTAT_DONE = 1 ∧ t.dev.get MEM_TESTSTAT_SLICE = sl % 1024 ∧
      t.dev.get MEM_TESTSTAT_BANKS = fails.toNat ∧ (fails ≠ 0 → t.dev.get MEM_TESTSTAT_FAIL = 1) ∧
      (sl < 1024 → (∀ i, i < 4096 → (let x := s.mem.read (17 * 2 ^ 18 + i)
        let y := t.mem.read (s.dev.memCell (4096 * sl + i))
        (x.kind = 2 → y.kind = 2) ∧ (x.kind ≠ 2 → y = { data := x.data % 2 ^ 128, kind := 0 }))) ∧
        ∀ k, (∀ i, i < 4096 → k ≠ s.dev.memCell (4096 * sl + i)) → t.mem.read k = s.mem.read k) ∧
      (clean → c.waiting = [] → fails = 0 ∨ s.dev.get MEM_CTL_AUTO = 0 →
        t.dev.mc = { c with borrow := none, mirrored := 0, waiting := [], wback := c.wback.filter (fun k => decide (k < 17 * 2 ^ 18)) } ∧
        Frame [.mem, .mc] shown s t) ∧
      (∀ b rest, c.waiting = b :: rest → free → t.dev.mc.copy = some b) ∧
      (∀ b, clean → c.waiting = [] → s.dev.get MEM_CTL_AUTO = 1 → b < 16 → fails.toNat.testBit b = true → (∀ j, j < b → fails.toNat.testBit j = false) → free →
        t.dev.mc.copy = some b) ∧
      Frame [.mem, .mc, .ru, .svc] (shown ++ memErrFields) s t)) ∧
  (∀ s : State,
    ((∀ n, s.dev.mc.wakeAt = some n → s.dev.tick < n) → exec .memWakeReady s = .next s) ∧
    (∀ n, s.dev.mc.wakeAt = some n → n ≤ s.dev.tick → ∃ t, exec .memWakeReady s = .next t ∧ t.dev.mc = { s.dev.mc with wakeAt := none } ∧
      t.dev.get MEM_STATUS_WAKING = 0 ∧ Frame [.mc] [MEM_STATUS_WAKING] s t)) ∧
  ∀ (s : State) (w : Sender) (m : Fin 64),
    let busy := s.dev.get (MV_STATUS_BUSY m) = 1
    let off := s.dev.get (MV_CTL_EN m) = 0 ∨ s.dev.quadDown (m.val / 16) = true
    let n := s.dev.get (MV_LEN_WORDS m)
    let src := s.dev.get (MV_SRC_ADDR m)
    let dst := s.dev.get (MV_DST_ADDR m)
    let out := n = 0 ∨ 2 ^ 22 < dst + n ∨ 2 ^ 22 < src + n
    let x := s.dev.move m
    let may := s.dev.memUp && s.dev.memClear x.dst 1 && (s.dev.get (MV_CTL_FILL m) == 1 || s.dev.memClear x.src 1)
    (s.dev.takesLate (writerOf w) (MV_CMD m) = true →
      (off → ∃ u, exec (.moveCmdStart w m) s = .next u ∧ lands s u s) ∧
      (¬ off → busy → ∃ u t, exec (.moveCmdStart w m) s = .next u ∧ lands s u t ∧ t.dev.get (MV_STATUS_MISSED m) = 1 ∧
        t.dev.get (MV_STATUS_MISSCNT m) = min (s.dev.get (MV_STATUS_MISSCNT m) + 1) 255 ∧ Frame [] [MV_STATUS_MISSED m, MV_STATUS_MISSCNT m] s t) ∧
      (¬ off → ¬ busy → out → ∃ u t, exec (.moveCmdStart w m) s = .next u ∧ lands s u t ∧ t.dev.get (MV_STATUS_RANGE m) = 1 ∧ Frame [] [MV_STATUS_RANGE m] s t) ∧
      (¬ off → ¬ busy → ¬ out → ∃ u t, exec (.moveCmdStart w m) s = .next u ∧ lands s u t ∧ t.dev.get (MV_STATUS_BUSY m) = 1 ∧ t.dev.get (MV_LEFT_WORDS m) = n ∧
        t.dev.move m = { src, dst } ∧ (∀ j, j ≠ m.val → t.dev.move j = s.dev.move j) ∧ Frame [.mc] [MV_STATUS_BUSY m, MV_LEFT_WORDS m] s t) ∧
      (¬ busy → ∃ u, exec (.moveCmdStop w m) s = .next u ∧ lands s u s) ∧
      (busy → ∃ u t, exec (.moveCmdStop w m) s = .next u ∧ lands s u t ∧ t.dev.move m = { x with stopping := true } ∧
        (∀ j, j ≠ m.val → t.dev.move j = s.dev.move j) ∧ Frame [.mc] [] s t)) ∧
    (¬ busy ∨ may = false ∨ s.dev.quadDown (m.val / 16) = true → exec (.moveWord m) s = .next s) ∧
    (busy → may = true → s.dev.mc.touched.all (fun y => y.tick != s.dev.tick) = true → s.dev.quadDown (m.val / 16) = false → x.dst < 2 ^ 22 → x.src < 2 ^ 22 →
      let fill := s.dev.get (MV_CTL_FILL m) = 1
      let y := s.mem.read (s.dev.memLoc x.src)
      let k := s.dev.memLoc x.dst
      let left := s.dev.get (MV_LEFT_WORDS m) - 1
      let fields := MV_STATUS_BUSY m :: MV_STATUS_DONE m :: MV_STATUS_ERR m :: MV_LEFT_WORDS m :: memErrFields ++ memDropFields
      let ended (err stopped count : Nat) (t : State) : Prop := t.dev.get (MV_STATUS_BUSY m) = 0 ∧ t.dev.get (MV_STATUS_DONE m) = 1 ∧
        (err = 1 → t.dev.get (MV_STATUS_ERR m) = 1) ∧ t.dev.move m = {} ∧
        (s.dev.get (MV_CTL_REC m) = 0 → t.dev.quads = s.dev.quads) ∧
        (s.dev.get (MV_CTL_REC m) = 1 → (∀ p ∈ (s.dev.quad (m.val / 16)).pend, p.source ≠ 0x180 + m.val % 16) → ∃ r : PendRec,
          (t.dev.quad (m.val / 16)).pend = (s.dev.quad (m.val / 16)).pend ++ [r] ∧ r.source = 0x180 + m.val % 16 ∧ r.r.typ = 0x0A ∧
          r.r.sub = err + 2 * stopped ∧ r.r.src = m.val ∧ r.r.p0 = count)
      (¬ fill → y.kind = 2 → ∃ t, exec (.moveWord m) s = .next t ∧ t.mem = s.mem ∧ t.dev.get MEM_STATUS_UE = 1 ∧ ended 1 0 x.done t ∧
        Frame [.mc, .ru, .svc, .quads] fields s t) ∧
      (fill ∨ y.kind ≠ 2 → ∃ t, exec (.moveWord m) s = .next t ∧
        (let v := if fill then s.dev.get (MV_PATTERN_PATTERN m) * (1 + 2 ^ 32 + 2 ^ 64 + 2 ^ 96) else y.data % 2 ^ 128
        (s.dev.regionDrop x.dst = none → t.mem.read k = { data := v, kind := 0 })) ∧
        (s.dev.regionDrop x.dst ≠ none → t.mem = s.mem) ∧ (∀ j, j ≠ k → t.mem.read j = s.mem.read j) ∧
        t.dev.get (MV_LEFT_WORDS m) = left ∧
        (left ≠ 0 → x.stopping = false → t.dev.get (MV_STATUS_BUSY m) = 1 ∧ t.dev.move m = { x with src := x.src + 1, dst := x.dst + 1, done := x.done + 1 }) ∧
        (left = 0 → ended 0 0 (x.done + 1) t) ∧ (left ≠ 0 → x.stopping = true → ended 0 1 (x.done + 1) t) ∧
        (∀ j, j ≠ m.val → t.dev.move j = s.dev.move j) ∧ Frame [.mem, .mc, .ru, .svc, .quads] fields s t))

/-- R23, R25, R27, R153 to R156, R177, R184, R193, R243, R289, R319, R462, R483 to R486, R490: the events that reach a sink on one tick act there once,
and all but one are counted in MERGE. A sink starts, stops or disables its channel or generator, counts for an await condition, opens the lowest
free carriage at the event's position, starts a move, sets an engine's event bit, or pulses a CONV pin. A lane's register names one owner, and the
lane is driven at that owner's level, at its fused idle level, or not at all. -/
def Obligations.SinksActAndLanesHaveOneOwner : Prop :=
  (∀ (s : State) (q : Fin 4) (sink : Fin 452),
    let here (y : XEvent) : Bool := y.q == q.val && y.sink == sink.val
    let n := sink.val
    let down := s.dev.quadDown q = true
    ((∀ y ∈ s.dev.xev, here y = true → s.dev.tick < y.due) ∨ s.dev.tb.running = false → exec (.xbarSinkAct q sink) s = .next s) ∧
    (∀ x ∈ s.dev.xev, here x = true → x.due ≤ s.dev.tick → (∀ y ∈ s.dev.xev, here y = true → x.due ≤ y.due) → s.dev.tb.running = true →
      let now (y : XEvent) : Bool := here y && y.due == x.due
      let left := s.dev.xev.filter (fun y => !now y)
      let met := (s.dev.xev.filter now).length
      let merge := XBAR_MERGE_CNT q
      let merged (k : Nat) (t : State) : Prop := t.dev.get merge = min (s.dev.get merge + k + (if 2 ≤ met then 1 else 0)) (2 ^ 32 - 1)
      let acts (k : Nat) (ps : List Part) (fs : List Fld) (t : State) : Prop := exec (.xbarSinkAct q sink) s = .next t ∧ merged k t ∧
        t.dev.xev = left ∧ Frame (.xev :: ps) (merge :: fs) s t
      (down → ∃ t, exec (.xbarSinkAct q sink) s = .next t ∧ t.dev.xev = left ∧ Frame [.xev] [] s t) ∧
      (¬ down → n < 256 → (let c := 256 * q.val + n
        let f := s.dev.get (TC_CLK_TRIGFN c)
        let off := s.dev.tcUpper c = true ∨ s.dev.get (TC_CTL_EN c) = 0
        let run := TC_STATUS_RUN c
        (off → ∃ t, acts 0 [.tcs] [] t) ∧ (¬ off → (s.dev.tc c).trigTick = some x.due →
          ∃ t, acts (if 2 ≤ met ∨ (s.dev.tc c).mergeTick = some x.due then 0 else 1) [.tcs] [] t) ∧
        (¬ off → (s.dev.tc c).trigTick ≠ some x.due →
          (f = 0 ∨ 4 < f → ∃ t, acts 0 [.tcs] [] t ∧ (t.dev.tc c).trigTick = some x.due ∧
            (t.dev.tc c).pend = (s.dev.tc c).pend ++ (if s.dev.get (TC_CLK_SRC c) = 5 then [(x.due, 1)] else [])) ∧
          (f = 1 → s.dev.get run = 0 → (s.dev.tc c).stopTick ≠ some x.due →
            ∃ t, acts 0 [.tcs] ((List.range 4).flatMap (fun k => [TC_CNT_CNT (c + k), TC_STATUS_RUN (c + k)])) t ∧ t.dev.get run = 1) ∧
          (f = 2 → ∃ t, acts 0 [.tcs] ((List.range 4).map (fun k => TC_STATUS_RUN (c + k))) t ∧ t.dev.get run = 0) ∧
          (f = 3 → (s.dev.tc c).stopTick ≠ some x.due →
            ∃ t, acts 0 [.tcs] ((List.range 4).flatMap (fun k => [TC_CNT_CNT (c + k), TC_STATUS_RUN (c + k)])) t ∧ t.dev.get run = 1 ∧
              t.dev.get (TC_CNT_CNT c) = 0)))) ∧
      (¬ down → 0x100 ≤ n → n < 0x140 → (let g := 64 * q.val + (n - 0x100)
        let f := s.dev.get (FE_CTL_TRIGFN g)
        let y := s.dev.fe g
        (s.dev.get (FE_CTL_EN g) = 0 ∨ f = 0 → ∃ t, acts 0 [] [] t) ∧
        (s.dev.get (FE_CTL_EN g) = 1 → f = 3 → ∃ t, exec (.xbarSinkAct q sink) s = .next t ∧ t.dev.get (FE_CTL_EN g) = 0 ∧
          t.dev.get (FE_STATUS_RUN g) = 0) ∧
        (s.dev.get (FE_CTL_EN g) = 1 → f = 1 → s.dev.fePaired g = false → y.frozenAt = none → y.stopTick ≠ some x.due → y.startTick ≠ some x.due →
          s.dev.get (FE_STATUS_RUN g) = 0 → ∃ t, exec (.xbarSinkAct q sink) s = .next t ∧ t.dev.get (FE_STATUS_RUN g) = 1))) ∧
      (¬ down → 0x140 ≤ n → n < 0x180 → (let e := 16 * q.val + (n - 0x140) / 4
        let k := (n - 0x140) % 4
        let p := s.dev.get (IBX_SHCNT_PEND e)
        (p / 16 ^ k % 16 = 15 → ∃ t, acts 0 [] [IBX_STATUS_CONDOVF e] t ∧ t.dev.get (IBX_STATUS_CONDOVF e) = 1) ∧
        (p / 16 ^ k % 16 ≠ 15 → ∃ t, acts 0 [] [IBX_SHCNT_PEND e] t ∧ t.dev.get (IBX_SHCNT_PEND e) = p + 16 ^ k))) ∧
      (¬ down → n = 0x180 ∨ n = 0x181 → (let a := 2 * q.val + (n - 0x180)
        let v := s.dev.axView a x.due
        let on := s.dev.get (CAR_CFG_EN a) = 1 ∧ s.dev.get (COACH_CTL_EN q) = 1
        (¬ on → ∃ t, acts 0 [] [] t) ∧
        (on → met = 1 → ∀ p, v.posAt (x.at_.time * 64 + x.at_.fine) = some p →
          let b := sgn 64 (uns 64 (p + sgn 64 (s.dev.pair (CAR_OFFSET_LO a) (CAR_OFFSET_HI a))))
          let last := Tab.get none (s.dev.slice q).lastOpen (a % 2)
          let near := ∃ p0, last = some p0 ∧ (b - p0).natAbs < s.dev.get (CAR_CFG_MINGAP a) * 65536
          let free (c : Nat) : Prop := (s.dev.car c).isOpen = false ∧ (s.dev.car c).freeFrom ≤ x.due
          let tpl := 64 * q.val + s.dev.get (CAR_CFG_TEMPLATE a)
          let page := s.dev.tplPage tpl
          let len := s.dev.tplLen tpl page
          (near → ∃ t, acts 0 [] [CAR_BOUNCECNT_CNT a] t ∧
            t.dev.get (CAR_BOUNCECNT_CNT a) = min (s.dev.get (CAR_BOUNCECNT_CNT a) + 1) (2 ^ 32 - 1)) ∧
          (¬ near → ∀ c, 256 * a ≤ c → c < 256 * a + 256 → free c → (∀ j, 256 * a ≤ j → j < c → ¬ free j) → len ≠ 0 →
            ∃ t, acts 0 [.cars, .slices] [CAR_OPENCNT_CNT a, CAR_STATUS_UNEXTRAP_OPEN a] t ∧
              t.dev.get (CAR_OPENCNT_CNT a) = min (s.dev.get (CAR_OPENCNT_CNT a) + 1) (2 ^ 32 - 1) ∧
              (v.ext = false → t.dev.get (CAR_STATUS_UNEXTRAP_OPEN a) = 1) ∧
              t.dev.car c = { isOpen := true, base := b, unext := !v.ext, cursor := min 4 len, tpl, page, len,
                              reads := List.replicate (min 4 len) (x.due + 160) } ∧
              (∀ j, j ≠ c → t.dev.car j = s.dev.car j) ∧ Tab.get none (t.dev.slice q).lastOpen (a % 2) = some b) ∧
          (¬ near → (∀ c, 256 * a ≤ c → c < 256 * a + 256 → ¬ free c) → ∃ t, exec (.xbarSinkAct q sink) s = .next t ∧
            t.dev.get (CAR_NOSLOTCNT_CNT a) = min (s.dev.get (CAR_NOSLOTCNT_CNT a) + 1) (2 ^ 32 - 1) ∧ t.dev.get (CAR_STATUS_NOSLOT a) = 1 ∧
            Frame [.xev, .slices, .quads] [merge, CAR_NOSLOTCNT_CNT a, CAR_STATUS_NOSLOT a, CAR_REJLOSTCNT_CNT a, CAR_STATUS_REJLOST a] s t)))) ∧
      (¬ down → 0x182 ≤ n → n < 0x190 → ∃ t, acts 0 [] [] t) ∧
      (¬ down → 0x190 ≤ n → n < 0x1A0 → (let m := 16 * q.val + (n - 0x190)
        let k := s.dev.get (MV_LEN_WORDS m)
        let src := s.dev.get (MV_SRC_ADDR m)
        let dst := s.dev.get (MV_DST_ADDR m)
        let out := k = 0 ∨ 2 ^ 22 < dst + k ∨ 2 ^ 22 < src + k
        (s.dev.get (MV_CTL_EN m) = 0 → ∃ t, acts 0 [] [] t) ∧
        (s.dev.get (MV_CTL_EN m) = 1 → s.dev.get (MV_STATUS_BUSY m) = 1 → ∃ t, acts 0 [] [MV_STATUS_MISSED m, MV_STATUS_MISSCNT m] t ∧
          t.dev.get (MV_STATUS_MISSED m) = 1 ∧ t.dev.get (MV_STATUS_MISSCNT m) = min (s.dev.get (MV_STATUS_MISSCNT m) + 1) 255) ∧
        (s.dev.get (MV_CTL_EN m) = 1 → s.dev.get (MV_STATUS_BUSY m) = 0 → out → ∃ t, acts 0 [] [MV_STATUS_RANGE m] t ∧
          t.dev.get (MV_STATUS_RANGE m) = 1) ∧
        (s.dev.get (MV_CTL_EN m) = 1 → s.dev.get (MV_STATUS_BUSY m) = 0 → ¬ out → ∃ t, acts 0 [.mc] [MV_STATUS_BUSY m, MV_LEFT_WORDS m] t ∧
          t.dev.get (MV_STATUS_BUSY m) = 1 ∧ t.dev.get (MV_LEFT_WORDS m) = k ∧ t.dev.move m = { src, dst } ∧
          (∀ j, j ≠ m → t.dev.move j = s.dev.move j)))) ∧
      (¬ down → 0x1A0 ≤ n → n < 0x1C0 → (let e := 2 * q.val + (n - 0x1A0) / 16
        ∃ t, acts 0 [.mes] [] t ∧ t.dev.me e = { s.dev.me e with events := setBitAt (s.dev.me e).events ((n - 0x1A0) % 16) true } ∧
          ∀ j, j ≠ e → t.dev.me j = s.dev.me j)) ∧
      (¬ down → 0x1C0 ≤ n → (let c := 4 * q.val + (n - 0x1C0)
        let y := Tab.get {} s.dev.convs c
        (y.high = true → x.due < y.until_ → ∃ t, acts 1 [] [] t) ∧
        (y.high = false ∨ y.until_ ≤ x.due → ∃ t, acts 0 [.convs] [] t ∧
          Tab.get {} t.dev.convs c = { high := true, until_ := x.due + s.dev.get (CONVW_CONVW_W c) + 1 } ∧
          ∀ j, j ≠ c → Tab.get {} t.dev.convs j = Tab.get {} s.dev.convs j))))) ∧
  (∀ (s : State) (c : Fin 16),
    let y := Tab.get {} s.dev.convs c
    (y.high = false ∨ s.dev.tick < y.until_ ∨ s.dev.tb.running = false → exec (.convPulseEnd c) s = .next s) ∧
    (y.high = true → y.until_ ≤ s.dev.tick → s.dev.tb.running = true → ∃ t, exec (.convPulseEnd c) s = .next t ∧
      (Tab.get {} t.dev.convs c).high = false ∧ (∀ j, j ≠ c.val → Tab.get {} t.dev.convs j = Tab.get {} s.dev.convs j) ∧ Frame [.convs] [] s t)) ∧
  (∀ (s : State) (w : Sender) (n : Fin 512) (v : Word), s.dev.takesLate (writerOf w) (LANE_CFG n) = true → v &&& 0x0007FF3F = v →
    let kind := v.toNat / 2 ^ 16 % 8
    let index := v.toNat / 2 ^ 8 % 256
    let refused := ¬ (kind ≤ 1 ∨ (kind = 2 ∧ index < 16) ∨ ((kind = 3 ∨ kind = 4) ∧ index < 2)) ∨ v.toNat / 2 ^ 4 % 4 = 3 ∨ v.toNat % 4 = 3
    let same := s.dev.get (LANE_CFG_KIND n) = 4 ∧ kind = 4 ∧ s.dev.get (LANE_CFG_INDEX n) = index
    (refused → ∃ t, exec (.laneCfgWrite w n v) s = .next t ∧ t.dev.get GLB_RSVW_FLAG = 1 ∧
      (s.dev.get GLB_RSVW_FLAG = 0 → t.dev.get GLB_RSVW_ORIGIN = (writerOf w).code ∧ t.dev.get GLB_RSVW_OFFSET = LANE_CFG n) ∧
      t.dev.get GLB_RSVWCNT_CNT = min (s.dev.get GLB_RSVWCNT_CNT + 1) (2 ^ 32 - 1) ∧
      Frame [] [GLB_RSVW_FLAG, GLB_RSVW_ORIGIN, GLB_RSVW_OFFSET, GLB_RSVWCNT_CNT] s t) ∧
    (¬ refused → ∃ u t, exec (.laneCfgWrite w n v) s = .next u ∧ lands s u t ∧ t.dev.word (LANE_CFG n) = v ∧
      (kind ≠ 4 ∨ same → t.dev.quads = s.dev.quads ∧ t.dev.free = s.dev.free) ∧
      (kind = 4 → ¬ same → ∀ b, s.dev.laneLevel n = some b →
        Tab.get false (t.dev.quad (n.val / 128)).drive (n.val % 128) = b ∧ t.dev.free = s.dev.free) ∧
      (∀ l, l ≠ n.val % 128 → Tab.get false (t.dev.quad (n.val / 128)).drive l = Tab.get false (s.dev.quad (n.val / 128)).drive l) ∧
      (∀ p, p ≠ n.val / 128 → t.dev.quad p = s.dev.quad p) ∧
      (∀ i : Fin 256, let c := 256 * (n.val / 128) + i.val
        s.dev.get (TC_CTL_LANE c) = n.val % 128 → s.dev.get (TC_CTL_EN (s.dev.tcLow c)) = 1 → s.dev.get (TC_CTL_OUTEN c) = 1 →
        ¬ (kind = 1 ∧ index = i.val) → t.dev.get (TC_STATUS_CFG_ERR c) = 1) ∧
      Frame [.quads, .free] (whole (LANE_CFG n) :: (List.range 256).map (fun i => TC_STATUS_CFG_ERR (256 * (n.val / 128) + i))) s t)) ∧
  ∀ (d : Dev) (n : Fin 512) (c : Fin 16),
    let drain (b : Option Bool) : Option Bool := if b = some true ∧ d.get (LANE_CFG_OD n) = 1 then none else b
    let down := d.quadDown (n.val / 128) = true
    let kind := d.get (LANE_CFG_KIND n)
    let ch := 256 * (n.val / 128) + d.get (LANE_CFG_INDEX n)
    (down ∨ kind = 0 → d.laneLevel n = drain (idleLevel (d.laneIdle n))) ∧
    (¬ down → kind = 1 → d.get (TC_CTL_LANE ch) = n.val % 128 → d.get (TC_CTL_EN (d.tcLow ch)) = 1 → d.get (TC_CTL_OUTEN ch) = 1 →
      d.laneLevel n = drain (some (if (d.tc ch).outWas.1 = d.tick + 1 then (d.tc ch).outWas.2 else d.flag (TC_STATUS_OUT ch)))) ∧
    (¬ down → kind = 4 → d.laneLevel n = drain (some (Tab.get false (d.quad (n.val / 128)).drive (n.val % 128)))) ∧
    (d.pw.vaon = false ∨ d.pw.fuses = false ∨ bitAt d.pw.railGood (n.val / 32) = false → d.lanePin n = none) ∧
    ((Tab.get {} d.convs c).high = false → d.convPin c ≠ some true)

/-- R392 to R403, R405 to R412: a write to a staging port claims its group and takes a place in it, or is refused; it lands, and with the last one
its descriptor completes. An abort discards the writes of a group. A group fires on the tick before its commit tick: landed writes reach their
registers at its end, after every other write, and an image swap acts on C; the others are counted. A snapshot takes a free buffer on its tick or is dropped, and its image goes to the host or to stacked memory. -/
def Obligations.GroupsFireAndSnapshotsAreTaken : Prop :=
  (∀ (s : State) (w : Sender) (q : Fin 4) (v : Word), s.dev.takes (writerOf w) (QSTAGE_VAL q) = true →
    let g := s.dev.get (QSTAGE_GROUP_GROUP q)
    let off := 0x10000 + q.val * 0x8000 + 4 * s.dev.get (QSTAGE_OFF_OFF q)
    let x := s.dev.grp g
    let held := ∃ y ∈ x.writes, y.place = off
    let no (t : State) : Prop := exec (.qstageWrite w q v) s = .next t ∧ t.dev.get (QSTAGE_STATUS_REFUSED q) = 1 ∧ Frame [] [QSTAGE_STATUS_REFUSED q] s t
    (stageQuad off = none → ∃ t, no t) ∧
    (∀ b l, stageQuad off = some b → locate off = some l →
      let room := (held ∨ x.writes.length < 256) ∧ (held ∨ s.dev.storeUsed < 1024) ∧ (held ∨ s.dev.bufferUsed b < 512)
      let swap := l.gid = .tpl ∧ l.info.off = 0x010 ∧ v.toNat % 2 = 1
      let mine := s.dev.grpState g = 0 ∨ (s.dev.grpState g = 1 ∧ s.dev.get (CMTG_STATE_OWNER g) = 4 + q.val)
      (¬ mine → ∃ t, no t) ∧ (¬ held → x.writes.length = 256 ∨ s.dev.storeUsed = 1024 ∨ s.dev.bufferUsed b = 512 → ∃ t, no t) ∧
      (mine → room → (∀ r, r < 4 → s.dev.bufferUsed r ≤ 512) → x.writes.length ≤ 256 → s.dev.storeUsed ≤ 1024 →
        (swap → (s.dev.tpl l.i).check ≠ none → exec (.qstageWrite w q v) s = .next s) ∧
        (¬ swap ∨ (s.dev.tpl l.i).check = none → ∃ t, ∃ c, exec (.qstageWrite w q v) s = .next t ∧ (¬ swap → c = none ∧ t.dev.tpls = s.dev.tpls) ∧
          (swap → c = some l.i ∧ t.dev.tpl l.i = { check := some s.dev.tick, group := some g } ∧ ∀ i, i ≠ l.i → t.dev.tpl i = s.dev.tpl i) ∧
          (let new : Staged := { off, v, q := b, check := c }
          t.dev.grp g = { x with writes := stagedAfter x.writes [new] }) ∧ (∀ h, h ≠ g → t.dev.grp h = s.dev.grp h) ∧
          t.dev.get (CMTG_STATE_STATE g) = 1 ∧ t.dev.get (CMTG_STATE_OWNER g) = 4 + q.val ∧ (¬ held → t.dev.host = s.dev.host) ∧
          Frame [.cmt, .tpls, .host] [CMTG_STATE_STATE g, CMTG_STATE_OWNER g] s t)))) ∧
  (∀ (s : State) (w : Sender) (q : Fin 4), s.dev.takes (writerOf w) (QSTAGE_CMD q) = true →
    let g := s.dev.get (QSTAGE_GROUP_GROUP q)
    let x := s.dev.grp g
    let st := s.dev.grpState g
    let own := s.dev.get (CMTG_STATE_OWNER g) = 4 + q.val
    (st = 0 ∨ (own ∧ (st = 3 ∨ s.dev.grpStrobed g = true)) → exec (.qstageAbort w q) s = .next s) ∧
    (st ≠ 0 → ¬ own → ∃ t, exec (.qstageAbort w q) s = .next t ∧ t.dev.get (QSTAGE_STATUS_REFUSED q) = 1 ∧ Frame [] [QSTAGE_STATUS_REFUSED q] s t) ∧
    (st = 1 ∨ st = 2 → own → s.dev.grpStrobed g = false → ∃ t, exec (.qstageAbort w q) s = .next t ∧
      (x.arming = 0 → t.dev.grpState g = 0 ∧ t.dev.grp g = {}) ∧
      (x.arming ≠ 0 → t.dev.grpState g = 3 ∧ t.dev.get (CMTG_STATE_OWNER g) = 4 + q.val ∧ t.dev.grp g = { arming := x.arming }) ∧
      (∀ h, h ≠ g → t.dev.grp h = s.dev.grp h) ∧ (∀ i, (t.dev.tpl i).group ≠ some g) ∧
      (∃ r, t.dev.ru = { s.dev.ru with raised := s.dev.ru.raised ++ [r] } ∧ r.typ = 0x13 ∧ r.sub = 2 ∧ r.src = g ∧ r.p0 = x.writes.length) ∧
      Frame [.cmt, .ru, .host, .tpls] [whole (CMTG_STATE g), whole (CMTG_KEY_LO g), whole (CMTG_KEY_HI g)] s t)) ∧
  (∀ (s : State) (i : Nat),
    (s.dev.unlanded[i]? = none → exec (.stagedWriteLand i) s = .next s) ∧
    (∀ g w, s.dev.unlanded[i]? = some (g, w) →
      let x := s.dev.grp g
      let ws := if s.dev.quadDown w.q then x.writes.filter (fun y => y.place != w.place)
        else x.writes.map (fun y => if y.place = w.place then { y with landed := true } else y)
      let done (t : State) : Prop := t.dev.grp g = { x with writes := ws } ∧ ∀ h, h ≠ g → t.dev.grp h = s.dev.grp h
      (w.flight = none → ∃ t, exec (.stagedWriteLand i) s = .next t ∧ done t ∧ Frame [.cmt] [] s t) ∧
      (∀ id, w.flight = some id → ∃ t, exec (.stagedWriteLand i) s = .next t ∧ done t ∧
        t.dev.host.credits = s.dev.host.credits ++ [{ x := .stagedWrite, due := s.dev.tick + 4 }] ∧
        (∀ f, s.dev.flight id = some f → f.stage = 1 → (let open_ := ∃ p ∈ t.dev.cmt.groups, ∃ y ∈ p.2.writes, y.flight = some id ∧ y.landed = false
          (open_ → t.dev.flight id = some f) ∧
          (¬ open_ → f.desc.op = 0x04 → t.dev.flight id =
            some { f with stage := 2, status := 0, value := (t.dev.grp (f.desc.d0.toNat / 2 ^ 32 % 32)).writes.length, stime := s.dev.now }))) ∧
        Frame [.cmt, .host] [] s t))) ∧
  (∀ (s : State) (g : Fin 32),
    let e := s.dev.grpSettle g
    let x := s.dev.grp g
    (∀ k, x.key = some k → x.fire = none → s.dev.pw.waking = false → k ≤ s.dev.now + 4 →
      (e.grp g).fire = some { c := s.dev.tick + (k - s.dev.now) }) ∧
    ((e.grp g).fire = none → exec (.commitFire g) s = .next s) ∧
    (∀ f, (e.grp g).fire = some f →
      let early := s.dev.tick + 1 < f.c ∨ (∃ k, k < g.val ∧ ∃ y, ((s.dev.grpSettle k).grp k).fire = some y ∧ y.c = f.c) ∨ s.dev.tb.running = false
      let on := x.writes.filter (fun w => w.landed)
      let offs := on.map (fun w => w.off)
      let shot := s.dev.get (SNAP_CFG_ONCMT g) = 1 ∧ s.dev.get (SNAP_CFG_EN g) = 1
      let plain := s.dev.get PWR_STATUS_STATE ≠ 1 ∧ (x.writes.map (fun w => w.off)).Nodup ∧
        ∀ w ∈ x.writes, w.swap = none ∧ ∃ n : Fin 1024, w.off = TC_CMP0 n ∧ s.dev.quadDown (n.val / 256) = false
      let hits (l : List Nat) : Nat := (offs.filter (fun o => l.contains o && !l.contains (o + 2 ^ 20))).length
      (early → ∃ t, exec (.commitFire g) s = .next t ∧ t.dev.grp g = { x with fire := some f } ∧ (∀ h, h ≠ g.val → t.dev.grp h = s.dev.grp h) ∧
        Frame [.cmt] [] s t) ∧
      (¬ early → plain → ∃ t, exec (.commitFire g) s = .next t ∧ t.dev.grp g = {} ∧ t.dev.grpState g = 0 ∧ (∀ h, h ≠ g.val → t.dev.grp h = s.dev.grp h) ∧
        t.dev.late = s.dev.late ++ on.map (fun w => { due := s.dev.tick, rank := 10, code := 5, off := w.off, v := w.v }) ∧
        (s.dev.late = [] → ∀ w ∈ x.writes, w.landed = true → t.landed.dev.word w.off = w.v) ∧
        (∀ l, s.dev.cmt.lastC = some (f.c, l) → t.dev.get CMT_GCOLL_CNT = min (s.dev.get CMT_GCOLL_CNT + hits l) (2 ^ 32 - 1)) ∧
        ((∀ l, s.dev.cmt.lastC ≠ some (f.c, l)) → t.dev.get CMT_GCOLL_CNT = s.dev.get CMT_GCOLL_CNT) ∧
        (∃ l r, t.dev.ru = { s.dev.ru with raised := s.dev.ru.raised ++ l ++ [r] } ∧ (¬ shot → l = []) ∧ r.typ = 0x13 ∧ r.src = g.val ∧
          r.at_.time = s.dev.stimeAt f.c ∧ r.p2 = f.status ∧
          (x.writes = [] → r.sub = 3 ∧ t.dev.get CMT_EMPTYFIRE_CNT = min (s.dev.get CMT_EMPTYFIRE_CNT + 1) (2 ^ 32 - 1)) ∧
          (x.writes ≠ [] → r.sub = (if f.late then 1 else 0) ∧ r.p0 = on.length ∧ r.p1 = x.writes.length - on.length ∧ r.p3 = f.lateness)) ∧
        (¬ shot → t.dev.cmt.bufs = s.dev.cmt.bufs) ∧
        (shot → s.dev.cmt.bufs.length < 2 → (let y : Snap := { s := g, trig := 2, due := f.c - 1 }
          ∃ b, t.dev.cmt.bufs = s.dev.cmt.bufs ++ [b] ∧ b.s = g.val ∧ b.time = s.dev.stimeAt (f.c - 1) ∧
            b.image = e.snapImage y b.time (Tab.get 0 s.dev.cmt.seq g))) ∧
        Frame [.cmt, .ru, .host, .tpls, .late] [whole (CMTG_STATE g), whole (CMTG_KEY_LO g), whole (CMTG_KEY_HI g), CMT_EMPTYFIRE_CNT, CMT_GCOLL_CNT,
          CMT_SNAPDROP_CNT] s t) ∧
      (∀ w k, ¬ early → ¬ shot → x.writes = [w] → w.landed = true → w.swap = some k → ∃ t, exec (.commitFire g) s = .next t ∧ t.dev.grp g = {} ∧
        t.dev.late = s.dev.late ++ [{ due := s.dev.tick, rank := 12, code := 0, off := k, v := 0 }] ∧
        Frame [.cmt, .ru, .host, .tpls, .late] [whole (CMTG_STATE g), whole (CMTG_KEY_LO g), whole (CMTG_KEY_HI g), CMT_GCOLL_CNT] s t))) ∧
  (∀ (s : State) (k : Fin 32),
    let c := s.dev.cmt
    let mine (x : Snap) : Prop := x.s = k.val ∧ x.due ≤ s.dev.tick
    ((∀ x ∈ c.trigs, ¬ mine x) → exec (.snapshotTake k) s = .next s) ∧
    (∀ l x m, c.trigs = l ++ x :: m → mine x → (∀ y ∈ l, ¬ mine y) →
      let time := s.dev.stimeAt x.due
      let ws := s.dev.snapEntries k (s.dev.word (SNAP_CFG k)).toNat
      (c.bufs.length < 2 → ∃ t, ∃ vs : List Nat, exec (.snapshotTake k) s = .next t ∧
        (let fresh := [time % 2 ^ 32, time / 2 ^ 32, k.val * 2 ^ 24 + ws.length * 2 ^ 16 + vs.length,
          Tab.get 0 c.seq k % 65536 * 2 ^ 16 + (if s.dev.inWindow then 2 else 0) + (if s.dev.snapUncal ws then 1 else 0), x.trig, 0, 0, 0]
        t.dev.cmt = { c with trigs := l ++ m, bufs := c.bufs ++ [{ x with time, cfg := s.dev.word (SNAP_CFG k), image := fresh ++ vs }],
                             seq := Tab.set 0 c.seq k ((Tab.get 0 c.seq k + 1) % 65536) }) ∧
        (∀ n : Fin 1024, ws = [TC_CMP0 n] → vs = [(s.dev.word (TC_CMP0 n)).toNat]) ∧ Frame [.cmt] [] s t) ∧
      (2 ≤ c.bufs.length → ∃ t, exec (.snapshotTake k) s = .next t ∧ t.dev.cmt = { c with trigs := l ++ m } ∧
        t.dev.get CMT_SNAPDROP_CNT = min (s.dev.get CMT_SNAPDROP_CNT + 1) (2 ^ 32 - 1) ∧
        (s.dev.get (SNAP_CFG_REC k) = 0 → t.dev.ru = s.dev.ru) ∧
        (s.dev.get (SNAP_CFG_REC k) = 1 → ∃ r, t.dev.ru = { s.dev.ru with raised := s.dev.ru.raised ++ [r] } ∧ r.typ = 0x13 ∧ r.sub = 5 ∧ r.src = k.val) ∧
        (x.flight = none → t.dev.host = s.dev.host) ∧
        (∀ id f, x.flight = some id → s.dev.flight id = some f → t.dev.flight id = some { f with stage := 2, status := 4, value := 0, stime := s.dev.now }) ∧
        Frame [.cmt, .ru, .host] [CMT_SNAPDROP_CNT] s t))) ∧
  ∀ (s : State) (i : Nat) (hostErr : Bool),
    let c := s.dev.cmt
    (c.bufs[i]? = none → exec (.snapshotWriteDone i hostErr) s = .next s) ∧
    (∀ x, c.bufs[i]? = some x →
      let freed (t : State) : Prop := t.dev.cmt = { c with bufs := c.bufs.eraseIdx i }
      (∀ id, x.flight = some id → s.dev.flight id = none → ∃ t, exec (.snapshotWriteDone i hostErr) s = .next t ∧ freed t ∧ Frame [.cmt] [] s t) ∧
      (∀ id f, x.flight = some id → s.dev.flight id = some f → ∃ t, exec (.snapshotWriteDone i hostErr) s = .next t ∧ freed t ∧
        t.dev.flight id = some { f with stage := 2, status := if hostErr then 7 else 0, value := if hostErr then 0 else 4 * x.image.length,
                                        stime := s.dev.now } ∧
        (hostErr = true → t.dev.out = s.dev.out) ∧
        (hostErr = false → f.orphan = false → x.image ≠ [] → t.dev.out = s.dev.out ++ [.hostWrite f.desc.d1.toNat (dwordBytes x.image)]) ∧
        Frame [.cmt, .host, .out] [HIF_DETACH_DROP_CNT] s t) ∧
      (let next := s.dev.get (SNAP_CFG_NEXT x.s)
      let a := 1024 * (s.dev.get (SNAP_DST_BASE x.s) + next) % 2 ^ 26
      let may := s.dev.memUp && s.dev.memClear (a / 16) ((x.image.length + 3) / 4)
      (x.flight = none → may = false → exec (.snapshotWriteDone i hostErr) s = .next s) ∧
      (x.flight = none → may = true → x.s < 32 →
        let slots := x.cfg.toNat / 2 ^ 8 % 256
        ∃ t, exec (.snapshotWriteDone i hostErr) s = .next t ∧ t.dev.cmt = { c with bufs := c.bufs.eraseIdx i } ∧
          t.dev.get (SNAP_CFG_NEXT x.s) = (next + 1) % (if slots = 0 then 1 else slots) ∧
          ((∀ w, s.dev.regionDrop w = none) → x.image.length ≤ 136 → x.image.length % 4 = 0 → (∀ v ∈ x.image, v < 2 ^ 32) → ∀ j : Fin x.image.length,
            (t.mem.read (s.dev.memLoc (a / 16 + j.val / 4))).kind = 0 ∧
            (t.mem.read (s.dev.memLoc (a / 16 + j.val / 4))).data / 2 ^ (32 * (j.val % 4)) % 2 ^ 32 = x.image[j]) ∧
          (x.cfg.toNat.testBit 30 = true → ∃ l r, t.dev.ru.raised = s.dev.ru.raised ++ l ++ [r] ∧ r.typ = 0x13 ∧ r.sub = 4 ∧ r.src = x.s ∧
            r.at_.time = x.time ∧ r.p0 = 4 * x.image.length ∧ r.p1 = a) ∧
          Frame [.mem, .mc, .cmt, .ru, .svc] (SNAP_CFG_NEXT x.s :: memErrFields ++ memDropFields) s t)))

/-- R421 to R425, R328, R39: background tests. The request at the head of the queue starts when its unit's condition holds and takes its kind's
duration; its result is shown and recorded, and a failure is logged. A request whose condition does not come ends NOT_IDLE after IDLEWAIT ms, and a
unit that leaves its condition ends its test ABANDONED. With PATROL set the next item of the patrol enters an empty queue once a PERIOD. -/
def Obligations.BackgroundTestsRun : Prop :=
  ([1, 2, 3, 4, 5, 6, 7, 8, 9, 10, 11, 12, 16].map testTicks =
    [3072, 76800, 3200, 16000, 8000, 196608, 160000, 8000000, 8000000, 2624000, 1600000000, 800000, 32000000]) ∧
  ∀ s : State,
    let v := s.dev.svc
    let ready (start : Prop) (r : TestReq) : Prop := (let n := r.index
      (r.kind = 1 → start → s.dev.mc.copy = none ∧ s.dev.mc.borrow = none ∧ s.dev.memUp = true) ∧
      (r.kind = 2 → s.dev.calDone (n / 64) = true) ∧
      (r.kind = 3 → s.dev.get (TC_CTL_EN n) = 0 ∧ s.dev.tcUpper n = false ∧ ((n + 1) % 256 = 0 ∨ s.dev.tcUpper (n + 1) = false)) ∧
      (r.kind = 4 → s.dev.get (FE_CTL_EN n) = 0 ∧ (s.dev.fePair n = true → s.dev.get (FE_CTL_EN (n + 1)) = 0) ∧
        (s.dev.fePaired n = true → s.dev.get (FE_CTL_EN (n - 1)) = 0)) ∧
      (r.kind = 5 → s.dev.ibxState n = 0) ∧
      (r.kind = 6 → ∀ p ∈ s.dev.cmt.groups, ∀ w ∈ p.2.writes, w.swap ≠ some n) ∧
      (r.kind = 7 → s.dev.get (ME_STATUS_STATE n) = 0) ∧
      (r.kind = 8 → s.dev.get TB_STATUS_PLL_SINGLE = 0) ∧
      (r.kind = 9 → s.dev.get (if s.dev.get TB_REFCFG_PRIMARY = 1 then TB_STATUS_REFA_OK else TB_STATUS_REFB_OK) = 1) ∧
      (r.kind = 10 → s.dev.get MEM_STATUS_SPARE_USED = 0 ∧ s.dev.mc.copy = none) ∧
      (r.kind = 16 → (s.dev.get SVC_QSTAT_HELD).testBit n = true))
    let shown := [SVC_TESTRES_KIND, SVC_TESTRES_RESULT, SVC_TESTRES_INDEX, whole SVC_TESTDET]
    let ended (r : TestReq) (result detail : Nat) (t : State) : Prop := t.dev.svc.running = none ∧
      t.dev.get SVC_TESTRES_KIND = r.kind % 2 ^ 8 ∧ t.dev.get SVC_TESTRES_RESULT = result ∧ t.dev.get SVC_TESTRES_INDEX = r.index % 2 ^ 16 ∧
      t.dev.get SVC_TESTDET_DETAIL = detail ∧ s.dev.serviced t.dev 1 r.index (r.kind + result * 256) detail
    let heads (q : List TestReq) (t : State) : Prop := (q = [] → t.dev.svc.queue = []) ∧
      ∀ r rest, q = r :: rest → t.dev.svc.queue = { r with head := some (r.head.getD s.dev.tick) } :: rest
    (v.running ≠ none ∨ v.queue = [] ∨ s.dev.napping = true → exec .testStart s = .next s) ∧
    (∀ r rest, v.running = none → v.queue = r :: rest → s.dev.napping = false →
      (¬ ready True r → exec .testStart s = .next s) ∧
      (ready True r → ∃ t, exec .testStart s = .next t ∧ t.dev.svc = { v with queue := rest, running := some (r, s.dev.tick) } ∧
        (r.kind ≠ 1 → Frame [.svc] [] s t) ∧
        (r.kind = 1 → t.dev.mc = { s.dev.mc with borrow := some r.index, mirrored := 0 } ∧ t.dev.get MEM_STATUS_TESTBUSY = 1 ∧
          Frame [.svc, .mc] [MEM_STATUS_TESTBUSY] s t))) ∧
    (∀ (pass : Bool) (detail : Word),
      (v.running = none → exec (.testDone pass detail) s = .next s) ∧
      (∀ r k, v.running = some (r, k) →
        (s.dev.tick < k + testTicks r.kind ∨ ¬ ready False r ∨ (r.kind = 1 ∧ s.dev.mc.borrow ≠ none) → exec (.testDone pass detail) s = .next s) ∧
        (k + testTicks r.kind ≤ s.dev.tick → ready False r → r.kind ≠ 1 ∨ s.dev.mc.borrow = none →
          let banks := s.dev.get MEM_TESTSTAT_BANKS
          let fails := if r.kind = 1 then banks ≠ 0 else pass = false
          let det := if r.kind = 1 then banks else detail.toNat
          ∃ t, exec (.testDone pass detail) s = .next t ∧ heads v.queue t ∧
            (¬ fails → ended r 0 det t ∧ Frame [.svc, .ru] shown s t) ∧
            (fails → ended r 1 det t ∧ (r.kind ≠ 16 → s.dev.logged t.dev 0x32 r.index r.kind det) ∧
              (r.kind = 16 → s.dev.logged t.dev 0x12 r.index det 0) ∧
              (r.kind = 2 → (t.dev.line r.index).ready = none) ∧ (r.kind = 8 → t.dev.get TB_STATUS_PLL_SINGLE = 1) ∧
              (r.kind = 10 → t.dev.mc = { s.dev.mc with spareBad := true }) ∧ (r.kind ≠ 2 → t.dev.lines = s.dev.lines) ∧
              (r.kind ≠ 10 → t.dev.mc = s.dev.mc) ∧
              Frame [.svc, .ru, .lines, .mc] (TB_STATUS_PLL_SINGLE :: shown ++ flogFields) s t)))) ∧
    (v.running ≠ none ∨ v.queue = [] → exec .testNotIdle s = .next s) ∧
    (∀ r rest, v.running = none → v.queue = r :: rest →
      let k := r.head.getD 0 + s.dev.get SVC_TESTCFG_IDLEWAIT * 800000
      (ready True r ∨ r.head = none ∨ s.dev.tick < k → exec .testNotIdle s = .next s) ∧
      (¬ ready True r → r.head ≠ none → k ≤ s.dev.tick → ∃ t, exec .testNotIdle s = .next t ∧ ended r 2 0 t ∧ heads rest t ∧
        Frame [.svc, .ru] shown s t)) ∧
    (v.running = none → exec .testAbandon s = .next s) ∧
    (∀ r k, v.running = some (r, k) → (ready False r → exec .testAbandon s = .next s) ∧
      (¬ ready False r → ∃ t, exec .testAbandon s = .next t ∧ ended r 3 0 t ∧ heads v.queue t ∧ Frame [.svc, .ru] shown s t)) ∧
    (let p := s.dev.get SVC_TESTCFG_PERIOD
    let due := v.patrolLast + (if p = 0 then 1 else p) * 800000
    let item (n : Nat) : Nat × Nat := if n < 1024 then (1, n) else if n = 1024 then (0x0A, 0) else if n = 1025 then (0x0B, 0)
      else if n = 1026 then (0x0C, 0) else if n = 1027 then (0x08, 0) else (0x09, 0)
    (s.dev.get SVC_TESTCFG_PATROL = 0 ∨ s.dev.tick < due → exec .patrolTick s = .next s) ∧
    (s.dev.get SVC_TESTCFG_PATROL = 1 → due ≤ s.dev.tick → v.queue ≠ [] → ∃ t, exec .patrolTick s = .next t ∧
      t.dev.svc = { v with patrolLast := s.dev.tick } ∧ Frame [.svc] [] s t) ∧
    (s.dev.get SVC_TESTCFG_PATROL = 1 → due ≤ s.dev.tick → v.queue = [] → v.patrolNext < 1029 → ∃ t, exec .patrolTick s = .next t ∧
      (let x := item v.patrolNext
      let r : TestReq := { kind := x.1, index := x.2, patrol := true, head := if v.running = none then some s.dev.tick else none }
      t.dev.svc = { v with patrolLast := s.dev.tick, patrolNext := (v.patrolNext + 1) % 1029, queue := [r] }) ∧ Frame [.svc] [] s t))

/-- R39, R220, R358, R426 to R433, R436, R440, R445, R476, R478: a quadrant is reset by its descriptor, by QHOLD, which also holds it, and by a monitor
that trips, which isolates it, reports it, and the third time locks its release. A reset that nothing holds ends after 1 µs; a held one ends on its
release; an isolated one when both monitors have read good for 1 ms. A PLL that loses lock makes its clock fall back; a parity error restarts a
spine block and loses what the block holds. -/
def Obligations.QuadrantsAreResetHeldIsolatedAndReleased : Prop :=
  (∀ (s : State) (x : Flight), s.dev.descOf 4 0x48 = some x → s.dev.passes x = true →
    let q := x.desc.par 0 2
    ∃ t, exec .quadReset s = .next t ∧ s.dev.wiped t.dev q ∧ (t.dev.quad q).resetFlight = (s.dev.quad q).resetFlight ++ [x.id] ∧
      t.dev.host.credits = s.dev.host.credits ++ [s.dev.queueCredit x] ∧ Frame quadParts (quadFields q) s t) ∧
  (∀ (s : State) (f q : Fin 4), s.dev.takes (.fn f) SVC_QHOLD = true →
    let bit (g : Fld) (t : State) : Bool := (t.dev.get g).testBit q.val
    let kept (g : Fld) (t : State) : Prop := ∀ i, i ≠ q.val → (t.dev.get g).testBit i = (s.dev.get g).testBit i
    let iso := (s.dev.get SVC_QSTAT_ISO).testBit q.val = true
    (bit SVC_QHOLD_HOLD s = true ∨ (s.dev.fw 9).testBit 7 = true → exec (.qholdSet f q) s = .next s) ∧
    (bit SVC_QHOLD_HOLD s = false → (s.dev.fw 9).testBit 7 = false → ∃ t, exec (.qholdSet f q) s = .next t ∧ s.dev.wiped t.dev q ∧
      bit SVC_QHOLD_HOLD t = true ∧ bit SVC_QSTAT_HELD t = true ∧ kept SVC_QHOLD_HOLD t ∧ kept SVC_QSTAT_HELD t ∧
      Frame quadParts (SVC_QHOLD_HOLD :: SVC_QSTAT_HELD :: quadFields q) s t) ∧
    (bit SVC_QHOLD_HOLD s = false → exec (.qholdRelease f q) s = .next s) ∧
    (bit SVC_QHOLD_HOLD s = true → ∃ t, exec (.qholdRelease f q) s = .next t ∧
      bit SVC_QHOLD_HOLD t = false ∧ bit SVC_QSTAT_HELD t = false ∧ kept SVC_QHOLD_HOLD t ∧ kept SVC_QSTAT_HELD t ∧
      (iso → Frame [] [SVC_QHOLD_HOLD, SVC_QSTAT_HELD] s t) ∧
      (¬ iso → t.dev.quad q = { s.dev.quad q with inReset := false, resetFlight := [] } ∧ t.dev.quadDown q = false ∧
        (∀ k, k ≠ q.val → t.dev.quad k = s.dev.quad k) ∧ Frame [.quads, .host] [SVC_QHOLD_HOLD, SVC_QSTAT_HELD] s t))) ∧
  (∀ (s : State) (q : Fin 4) (supply : Bool),
    let z := s.dev.quad q
    let trip := if supply then SVC_QSTAT_SUPPLY_TRIP else SVC_QSTAT_CLOCK_TRIP
    let n := z.isolations + 1
    let d0 := if supply then 2 else 1
    (s.dev.pw.released = false → exec (.quadrantMonitorTrip q supply) s = .next s) ∧
    (s.dev.pw.released = true → ∃ t, exec (.quadrantMonitorTrip q supply) s = .next t ∧ (t.dev.get trip).testBit q.val = true ∧
      (t.dev.quad q).goodSince = none ∧
      ((s.dev.get SVC_QSTAT_ISO).testBit q.val = true → Frame [.quads] [trip] s t) ∧
      ((s.dev.get SVC_QSTAT_ISO).testBit q.val = false → s.dev.wiped t.dev q ∧ s.dev.heldAll t.dev q ∧
        (t.dev.get SVC_QSTAT_ISO).testBit q.val = true ∧ (t.dev.quad q).isolations = n ∧
        (3 ≤ n → (t.dev.get SVC_QSTAT_RELEASE_LOCK).testBit q.val = true) ∧
        (n < 3 → t.dev.get SVC_QSTAT_RELEASE_LOCK = s.dev.get SVC_QSTAT_RELEASE_LOCK) ∧
        s.dev.logged t.dev 0x10 q d0 (n + z.heatIsolations) ∧ s.dev.serviced t.dev 2 q d0 0 ∧
        Frame (.svc :: quadParts) (trip :: SVC_QSTAT_ISO :: SVC_QSTAT_RELEASE_LOCK :: quadFields q ++ flogFields) s t)) ∧
    (z.goodSince ≠ none → exec (.quadrantMonitorGood q) s = .next s) ∧
    (z.goodSince = none → ∃ t, exec (.quadrantMonitorGood q) s = .next t ∧ t.dev.quad q = { z with goodSince := some s.dev.tick } ∧
      (∀ g ∈ [SVC_QSTAT_SUPPLY_TRIP, SVC_QSTAT_CLOCK_TRIP], (t.dev.get g).testBit q.val = false ∧
        ∀ i, i ≠ q.val → (t.dev.get g).testBit i = (s.dev.get g).testBit i) ∧
      (∀ k, k ≠ q.val → t.dev.quad k = s.dev.quad k) ∧ Frame [.quads] [SVC_QSTAT_SUPPLY_TRIP, SVC_QSTAT_CLOCK_TRIP] s t)) ∧
  (∀ (s : State) (f : Fin 4) (v : Word), s.dev.takes (.fn f) SVC_QRELEASE = true → v &&& 0x80000003 = v →
    let q := v.toNat % 4
    let limit : Int := if (s.dev.fw 2) % 4 = 1 then 95 * 16 else 110 * 16
    let cool := s.dev.pw.heatIso.testBit q = false ∨ sgn 16 (s.dev.get PWR_TEMP_TEMP) < limit - 10 * 16
    let may := (s.dev.get SVC_QSTAT_ISO).testBit q = true ∧ (s.dev.get SVC_QSTAT_RELEASE_LOCK).testBit q = false ∧ cool ∧
      ∃ k, (s.dev.quad q).goodSince = some k ∧ k + 800000 ≤ s.dev.tick
    (¬ may → exec (.quadrantRelease f v) s = .next s) ∧
    (may → ∃ t, exec (.quadrantRelease f v) s = .next t ∧ (t.dev.get SVC_QSTAT_ISO).testBit q = false ∧
      (∀ i, i ≠ q → (t.dev.get SVC_QSTAT_ISO).testBit i = (s.dev.get SVC_QSTAT_ISO).testBit i) ∧
      t.dev.pw = { s.dev.pw with heatIso := setBitAt s.dev.pw.heatIso q false } ∧
      ((s.dev.get SVC_QSTAT_HELD).testBit q = false → (t.dev.quad q).inReset = false ∧ t.dev.quadDown q = false) ∧
      ((s.dev.get SVC_QSTAT_HELD).testBit q = true → t.dev.quads = s.dev.quads) ∧
      s.dev.logged t.dev 0x11 q 0 0 ∧ s.dev.serviced t.dev 3 q 0 0 ∧
      Frame [.pw, .quads, .host, .svc, .ru] (SVC_QSTAT_ISO :: flogFields) s t)) ∧
  (∀ (s : State) (q : Fin 4),
    let z := s.dev.quad q
    let over_ := z.inReset = true ∧ (s.dev.get SVC_QSTAT_ISO).testBit q.val = false ∧ (s.dev.get SVC_QSTAT_HELD).testBit q.val = false ∧
      (z.resetEnd ≤ s.dev.tick ∨ s.dev.tb.running = false)
    (¬ over_ → exec (.quadrantResetEnd q) s = .next s) ∧
    (over_ → ∃ t, exec (.quadrantResetEnd q) s = .next t ∧ t.dev.quad q = { z with inReset := false, resetFlight := [] } ∧ t.dev.quadDown q = false ∧
      (∀ x ∈ s.dev.host.flights, x.id ∈ z.resetFlight → ({ x with stage := 2, status := 0, value := 0, stime := s.dev.now } : Flight) ∈ t.dev.host.flights) ∧
      (∀ x ∈ s.dev.host.flights, x.id ∉ z.resetFlight → x ∈ t.dev.host.flights) ∧
      (∀ k, k ≠ q.val → t.dev.quad k = s.dev.quad k) ∧ Frame [.quads, .host] [] s t)) ∧
  (∀ (s : State) (c : Instr) (g : Fld) (b : Nat), (c = .dclkPllLoss ∧ g = SVC_CLKSTAT_DCLK_FB ∧ b = 1) ∨ (c = .fclkPllLoss ∧ g = SVC_CLKSTAT_FCLK_FB ∧ b = 2) →
    (s.dev.get g = 1 → exec c s = .next s) ∧
    (s.dev.get g = 0 → ∃ t, exec c s = .next t ∧ t.dev.get g = 1 ∧ s.dev.logged t.dev 0x23 0 b 0 ∧ s.dev.serviced t.dev 5 0 b 0 ∧
      Frame [.svc, .ru] (g :: flogFields) s t)) ∧
  ∀ (s : State) (b : SpineBlock),
    let lost := s.dev.ru.spine.length + (s.dev.ru.held.map (fun p => p.2.length)).sum
    ∃ t, exec (.spineParityError b) s = .next t ∧ t.dev.get SVC_RESTARTCNT_CNT = min (s.dev.get SVC_RESTARTCNT_CNT + 1) (2 ^ 32 - 1) ∧
      s.dev.serviced t.dev 4 (blockCode b) 0 0 ∧
      (b = .hostInterface → t.dev.host.linkUp = false) ∧
      (b = .recordUnit → t.dev.ru.spine = [] ∧ t.dev.ru.held = [] ∧
        t.dev.get RECU_SPDROP_CNT = min (s.dev.get RECU_SPDROP_CNT + lost) (2 ^ 32 - 1) ∧
        Frame [.ru, .svc] (RECU_SPDROP_CNT :: SVC_RESTARTCNT_CNT :: flogFields) s t) ∧
      (b = .commitUnit → (∀ g : Fin 32, t.dev.grpState g = 0 ∧ (s.dev.grpState g ≠ 0 → t.dev.grp g = {})) ∧ t.dev.cmt.bufs = [] ∧
        (∀ g : Fin 32, s.dev.grpState g ≠ 0 → ∃ r ∈ t.dev.ru.raised, r.typ = 0x13 ∧ r.sub = 2 ∧ r.src = g.val ∧ r.p0 = (s.dev.grp g).writes.length) ∧
        Frame [.cmt, .ru, .svc, .host, .tpls] (SVC_RESTARTCNT_CNT :: groupFields ++ flogFields) s t) ∧
      (b = .memoryController → Frame [.ru, .svc] (SVC_RESTARTCNT_CNT :: flogFields) s t) ∧
      (b = .serviceUnit → t.dev.svc.running = none ∧ (∀ x ∈ s.dev.svc.flBuf, ∃ y ∈ t.dev.svc.flBuf, y.seq = x.seq ∧ y.code = x.code) ∧
        (∀ r k, s.dev.svc.running = some (r, k) → t.dev.get SVC_TESTRES_RESULT = 3 ∧ t.dev.get SVC_TESTRES_INDEX = r.index % 2 ^ 16))

/-- R449 to R451, R454 to R457: presence and the seal loop. An assertion of SERVICE_N after start-up opens the presence window, logged and recorded; a
release does not close it; it closes 60 s later or when the manager says so. Each opening of the seal loop sets OPEN, advances SEALCNT and is
reported, at once or, with the tick clock stopped, later. OPEN is cleared inside the window alone; a clear outside it sets CLRREF. -/
def Obligations.PresenceWindowAndSealLoop : Prop :=
  ∀ s : State,
    let pw := s.dev.pw
    let v := s.dev.svc
    let closed (why : Nat) (t : State) : Prop := t.dev.svc = { v with presOpen := none } ∧ t.dev.get SVCPRES_PRES_OPEN = 0 ∧
      s.dev.serviced t.dev 0x21 0 why 0 ∧ Frame [.svc, .ru] [SVCPRES_PRES_OPEN] s t
    (pw.serviceLow = true ∨ pw.vaon = false → exec .presenceAssert s = .next s) ∧
    (pw.serviceLow = false → pw.vaon = true → ∃ t, exec .presenceAssert s = .next t ∧ t.dev.pw = { pw with serviceLow := true } ∧
      t.dev.get SVCPRES_PRES_ASSERTED = 1 ∧
      (s.dev.get PWR_BOOTSTAT_READY = 0 → Frame [.pw] [SVCPRES_PRES_ASSERTED] s t) ∧
      (s.dev.get PWR_BOOTSTAT_READY = 1 → t.dev.svc.presOpen = some s.dev.tick ∧ t.dev.get SVCPRES_PRES_OPEN = 1 ∧
        s.dev.logged t.dev 0x40 0 0 0 ∧ s.dev.serviced t.dev 0x20 0 0 0 ∧
        Frame [.pw, .svc, .ru] (SVCPRES_PRES_ASSERTED :: SVCPRES_PRES_OPEN :: flogFields) s t)) ∧
    (pw.serviceLow = false → exec .presenceRelease s = .next s) ∧
    (pw.serviceLow = true → ∃ t, exec .presenceRelease s = .next t ∧ t.dev.pw = { pw with serviceLow := false } ∧
      t.dev.get SVCPRES_PRES_ASSERTED = 0 ∧ t.dev.get SVCPRES_PRES_STUCK = 0 ∧ Frame [.pw] [SVCPRES_PRES_ASSERTED, SVCPRES_PRES_STUCK] s t) ∧
    (v.presOpen = none → exec .presenceTimeout s = .next s) ∧
    (∀ k, v.presOpen = some k → (s.dev.tick < k + 60 * 800000000 → exec .presenceTimeout s = .next s) ∧
      (k + 60 * 800000000 ≤ s.dev.tick → ∃ t, exec .presenceTimeout s = .next t ∧ closed 0 t)) ∧
    (∀ f : Fin 4, s.dev.takes (.fn f) SVCPRES_PRES = true → (v.presOpen = none → exec (.presenceClose f) s = .next s) ∧
      (v.presOpen ≠ none → ∃ t, exec (.presenceClose f) s = .next t ∧ closed 1 t)) ∧
    (pw.vaon = false → exec .sealOpen s = .next s) ∧
    (pw.vaon = true → (let n := min (s.dev.get SVCPRES_SEALCNT_CNT + 1) (2 ^ 32 - 1)
      let fields := [SVCPRES_SEAL_OPEN, SVCPRES_SEAL_LOOP, SVCPRES_SEALCNT_CNT]
      ∃ t, exec .sealOpen s = .next t ∧ t.dev.get SVCPRES_SEAL_OPEN = 1 ∧ t.dev.get SVCPRES_SEAL_LOOP = 1 ∧ t.dev.get SVCPRES_SEALCNT_CNT = n ∧
        (s.dev.tb.running = true → s.dev.logged t.dev 0x42 0 0 n ∧ s.dev.serviced t.dev 0x22 0 n 0 ∧ Frame [.svc, .ru] (fields ++ flogFields) s t) ∧
        (s.dev.tb.running = false → t.dev.pw = { pw with sealLatched := pw.sealLatched + 1 } ∧ Frame [.pw] fields s t))) ∧
    (∀ f : Fin 4, s.dev.takes (.fn f) SVCPRES_SEAL = true →
      (v.presOpen = none → ∃ t, exec (.sealClear f) s = .next t ∧ t.dev.get SVCPRES_SEAL_CLRREF = 1 ∧ Frame [] [SVCPRES_SEAL_CLRREF] s t) ∧
      (v.presOpen ≠ none → s.dev.get SVCPRES_SEAL_OPEN = 0 → exec (.sealClear f) s = .next s) ∧
      (v.presOpen ≠ none → s.dev.get SVCPRES_SEAL_OPEN = 1 → (let n := s.dev.get SVCPRES_SEALCNT_CNT
        ∃ t, exec (.sealClear f) s = .next t ∧ t.dev.get SVCPRES_SEAL_OPEN = 0 ∧ s.dev.logged t.dev 0x43 0 n 0 ∧ s.dev.serviced t.dev 0x23 0 n 0 ∧
          Frame [.svc, .ru] (SVCPRES_SEAL_OPEN :: flogFields) s t)))

/-- R329, R443, R450, R458, R461 to R467, R477, R478, R486: the ways into a cold start and the steps of start-up. A cold reset returns everything but the
always-on domain to its state after reset and names its cause; without VAON no pin is driven; an I/O rail that is lost leaves its pins undriven. Fuse
load puts the array in force and logs the cold start; the scrub clears stacked memory and applies the sparing map; the boot image is checked and
its records are applied in order up to the first that fails, and in every case the device becomes READY. -/
def Obligations.ColdStartsAndStartUp : Prop :=
  (∀ s : State,
    let pw := s.dev.pw
    let after (released vaon : Bool) (cause : Nat) : Power :=
      { released, vaon, cause, railGood := pw.railGood, railV33 := pw.railV33, serviceLow := pw.serviceLow, sealLatched := pw.sealLatched }
    (pw.released = true → exec .powerGoodRelease s = .next s) ∧
    (pw.released = false → ∃ t, exec .powerGoodRelease s = .next t ∧ s.coldStart [] t ∧ s.dev.sealKept t.dev ∧
      t.dev.pw = after true true (if pw.cause = 3 then 3 else 0)) ∧
    (pw.released = false → exec .rstNAssert s = .next s ∧ exec .coreSupplyLoss s = .next s) ∧
    (pw.released = true → ∃ t, exec .rstNAssert s = .next t ∧ s.coldStart [] t ∧ s.dev.sealKept t.dev ∧ t.dev.pw = after true pw.vaon 1) ∧
    (∀ f : Fin 4, s.dev.takes (.fn f) PWR_CTL = true → pw.released = true → s.dev.tb.running = false →
      ∃ t, exec (.pwrCold f) s = .next t ∧ s.coldStart [] t ∧ s.dev.sealKept t.dev ∧ t.dev.pw = after true pw.vaon 2) ∧
    (∀ f : Fin 4, s.dev.takesLate (.fn f) PWR_CTL = true → pw.released = true →
      ∃ t, exec (.pwrCold f) s = .next t ∧ Frame [.late] [] s t ∧
        s.coldStart [] t.landed ∧ s.dev.sealKept t.landed.dev ∧ t.landed.dev.pw = after true pw.vaon 2) ∧
    (pw.released = true → (s.dev.regs.map (fun p => p.1)).Nodup → ∃ t, exec .coreSupplyLoss s = .next t ∧
      s.coldStart (SVC_QSTAT :: (List.range 256).map (fun i => FUSE_W 0 + i)) t ∧ s.dev.sealKept t.dev ∧
      t.dev.pw = { after false pw.vaon 3 with fuses := pw.fuses } ∧ t.dev.get SVC_QSTAT_ISO = 15 ∧
      ∀ k, k < 64 → t.dev.word (FUSE_W k) = s.dev.word (FUSE_W k)) ∧
    (pw.vaon = false → exec .vaonLoss s = .next s) ∧
    (pw.vaon = true → ∃ t, exec .vaonLoss s = .next t ∧ s.coldStart [] t ∧ t.dev.free = s.dev.free + 1 ∧
      t.dev.pw = { railGood := pw.railGood, railV33 := pw.railV33, vaon := false } ∧
      (∀ n, t.dev.lanePin n = none ∧ t.dev.fePin n = none ∧ t.dev.convPin n = none)) ∧
    (∀ (r : IoRail) (v33 : Bool),
      (∃ t, exec (.ioRailGood r v33) s = .next t ∧ Frame [.pw] [] s t ∧
        t.dev.pw = { pw with railGood := setBitAt pw.railGood (railNo r) true, railV33 := setBitAt pw.railV33 (railNo r) v33 }) ∧
      (∃ t, exec (.ioRailLost r) s = .next t ∧ Frame [.pw] [] s t ∧
        t.dev.pw = { pw with railGood := setBitAt pw.railGood (railNo r) false, railV33 := setBitAt pw.railV33 (railNo r) false } ∧
        ∀ n, (n / 32 = railNo r → t.dev.lanePin n = none) ∧ (16 + n / 64 = railNo r → t.dev.fePin n = none) ∧
          (16 + n / 4 = railNo r → t.dev.convPin n = none)))) ∧
  (∀ s : State,
    let pw := s.dev.pw
    let n := s.nvs
    (pw.released = false ∨ pw.fuses = true → exec .fuseLoadDone s = .next s) ∧
    (pw.released = true → pw.fuses = false → ∃ t, exec .fuseLoadDone s = .next t ∧
      (∀ k, k < 64 → t.dev.word (FUSE_W k) = Tab.get 0 s.fuse.data k) ∧ t.dev.pw = { pw with fuses := true } ∧ t.nvs = { n with cold := n.cold + 1 } ∧
      t.dev.svc.dbgLevel = (Tab.get 0 s.fuse.data 9).toNat / 2 ^ 16 % 4 ∧ t.dev.svc.cold = n.cold + 1 ∧
      t.dev.get SVC_FLOG_KEEP = n.keep.length % 2 ^ 9 ∧ t.dev.get SVC_FLOG_RING = n.ring.length % 2 ^ 14 ∧
      (s.dev.svc.flBuf.length < 32 → t.dev.get SVC_FLOG_SEQ_SEQ = (n.seq + 1) % 2 ^ 32 ∧ ∃ e : FlEntry, t.dev.svc.flBuf = s.dev.svc.flBuf ++ [e] ∧
        e.code = 2 ∧ e.src = 0 ∧ e.d0 = pw.cause ∧ e.d1 = 0 ∧ e.seq = n.seq % 2 ^ 32 ∧ e.cold = (n.cold + 1) % 65536 ∧ e.time = s.dev.now) ∧
      Frame [.pw, .svc, .nvs, .ru] ((List.range 64).map (fun k => whole (FUSE_W k)) ++ SVC_FLOG_KEEP :: SVC_FLOG_RING :: flogFields) s t) ∧
    (pw.fuses = false → exec .bootReadDone s = .next s ∧ exec .startupScrubDone s = .next s) ∧
    (pw.fuses = true → ∃ t, exec .bootReadDone s = .next t ∧ t.dev.get PWR_BOOTSTAT_READ = 1 ∧ Frame [] [PWR_BOOTSTAT_READ] s t) ∧
    (s.dev.get MEM_STATUS_READY = 1 → exec .startupScrubDone s = .next s) ∧
    (pw.fuses = true → s.dev.get MEM_STATUS_READY = 0 → ∃ t, exec .startupScrubDone s = .next t ∧ t.mem = {} ∧ (∀ k, t.mem.read k = { data := 0, kind := 0 }) ∧
      t.dev.get MEM_STATUS_READY = 1 ∧ (n.spare = none → Frame [.mem] [MEM_STATUS_READY] s t) ∧
      (∀ b, n.spare = some b → t.dev.get MEM_STATUS_SPARE_USED = 1 ∧ t.dev.get MEM_STATUS_SPAREFOR = b % 32 ∧
        Frame [.mem] [MEM_STATUS_READY, MEM_STATUS_SPARE_USED, MEM_STATUS_SPAREFOR] s t))) ∧
  ∀ s : State,
    let n := s.nvs
    let dw (a : Nat) : Nat := n.dword a
    let crc (bs : List Byte) : Nat := crc16 (bs.map BitVec.toNat)
    let met := s.dev.get PWR_BOOTSTAT_READY = 0 ∧ s.dev.get PWR_BOOTSTAT_READ = 1 ∧ s.dev.get MEM_STATUS_READY = 1 ∧ s.dev.get TB_STATUS_CAL_DONE = 15
    let shown := [PWR_BOOTSTAT_RESULT, PWR_BOOTSTAT_READY, PWR_STATUS_READY, SVCPRES_PRES_STUCK]
    let goes (result : Nat) (t : State) : Prop := exec .bootApply s = .next t ∧ t.dev.get PWR_BOOTSTAT_RESULT = result ∧
      t.dev.get PWR_BOOTSTAT_READY = 1 ∧ t.dev.get PWR_STATUS_READY = 1 ∧ (s.dev.pw.serviceLow = true → t.dev.get SVCPRES_PRES_STUCK = 1)
    let header := dw 12 % 2 ^ 16 = crc (n.bytes 0 12) ∧ dw 4 / 2 ^ 16 = 1 ∧ 32 ≤ dw 8 ∧ dw 8 ≤ 1048576
    let count := dw 4 % 2 ^ 16
    let size := dw 32 % 2 ^ 24
    let padded := (size + 15) / 16 * 16
    let typ := dw 32 / 2 ^ 24
    let target := dw 36
    let arg := dw 40
    let fits := 48 + padded ≤ dw 8 ∧ dw 44 % 2 ^ 16 = crc (n.bytes 32 12 ++ n.bytes 48 padded) ∧ 1 ≤ typ ∧ typ ≤ 5
    (¬ met → exec .bootApply s = .next s) ∧
    (met → dw 0 ≠ 0x54424353 → ∃ t, goes 2 t ∧ Frame [] shown s t) ∧
    (met → dw 0 = 0x54424353 → ¬ header → ∃ t, goes 3 t ∧ (∃ d1, s.dev.logged t.dev 0x52 0 0xFFFF d1) ∧ Frame [.free, .svc, .ru] (shown ++ flogFields) s t) ∧
    (met → dw 0 = 0x54424353 → header →
      (count = 0 ∨ (fits ∧ typ = 5) → ∃ t, goes 1 t ∧ Frame [] shown s t) ∧
      (count ≠ 0 → ¬ fits → ∃ t, goes 4 t ∧ t.dev.get PWR_BOOTSTAT_IDX = 0 ∧ (∃ d1, s.dev.logged t.dev 0x52 0 0 d1) ∧
        Frame [.free, .svc, .ru] (PWR_BOOTSTAT_IDX :: shown ++ flogFields) s t) ∧
      (count = 1 → fits → typ = 1 → size = 8 → ∀ k : Fin 1024, dw 48 = TC_CMP0 k → s.dev.get PWR_STATUS_STATE ≠ 1 →
        s.dev.quadDown (k.val / 256) = false → ∃ t, goes 1 t ∧
        t.dev.late = s.dev.late ++ [{ due := s.dev.tick, rank := 0, code := 4, off := TC_CMP0 k, v := BitVec.ofNat 32 (dw 52) }] ∧
        Frame [.late] shown s t) ∧
      (count = 1 → fits → typ = 2 → size % 16 = 0 → s.dev.mc.reqs = [] → s.dev.mc.touched = [] → (∀ w, s.dev.regionDrop w = none) →
        let a := target / 16 % 2 ^ 22
        a + size / 16 ≤ 2 ^ 22 → ∃ t, goes 1 t ∧
          (∀ j, j < size / 16 → t.mem.read (s.dev.memLoc (a + j)) = { data := bytesNat (n.bytes (48 + 16 * j) 16), kind := 0 }) ∧
          (∀ k, (∀ j, j < size / 16 → k ≠ s.dev.memLoc (a + j)) → t.mem.read k = s.mem.read k) ∧ Frame [.mem, .mc] shown s t) ∧
      (count = 1 → fits → typ = 3 → (let e := target % 8
        let b := target / 8 % 2
        s.dev.get (ME_STATUS_STATE e) = 0 → s.dev.meLocked e = false → size ≤ 8 * 16384 → ∃ t, goes 1 t ∧
          (∀ i, i < size / 8 → Tab.get 0 (t.dev.me e).img (b * 16384 + (arg + i) % 16384) = dw (48 + 8 * i) + 2 ^ 32 * dw (52 + 8 * i)) ∧
          (∀ k, k ≠ e → t.dev.me k = s.dev.me k) ∧ Frame [.mes] shown s t)) ∧
      (count = 1 → fits → typ = 4 → (let e := target % 64
        s.dev.ibxIdle e = true → size ≤ 4 * 64 → ∃ t, goes 1 t ∧
          (∀ i, i < size / 4 → Tab.get 0x900000 (t.dev.ibx e).prog ((arg + i) % 64) = dw (48 + 4 * i) % 2 ^ 24) ∧
          (∀ k, k ≠ e → t.dev.ibx k = s.dev.ibx k) ∧ Frame [.ibxs] shown s t)))

/-- R53, R54, R321, R322, R403, R404, R468 to R474, R476, R481: the power states. IDLE is refused while a unit is enabled, and ends 2 µs after an
access to a gated block, whose write then acts. SLEEP is entered once the host is away, refused while a job that cannot be left runs, and closes
the presence window once the requests queued at stacked memory are completed; a wake source ends the entry or starts the wake; STIME and the housekeeping timers are made up, and every active axis takes
its next state as a reference; at RUN what waits goes on. The sensor's sample sets HOT at U and after 1 ms at U + 15 °C isolates all quadrants. -/
def Obligations.PowerStatesAndHeat : Prop :=
  (∀ (s : State) (f : Fin 4), s.dev.mayWrite (.fn f) PWR_CTL = true →
    let active := (∃ n : Fin 1024, s.dev.get (TC_CTL_EN n) = 1) ∨ (∃ n : Fin 256, s.dev.get (FE_CTL_EN n) = 1) ∨
      (∃ n : Fin 64, s.dev.get (IBX_CTL_EN n) = 1 ∨ s.dev.get (MV_CTL_EN n) = 1) ∨ (∃ n : Fin 8, s.dev.get (ME_CTL_EN n) = 1) ∨
      (∃ n : Fin 4, s.dev.get (COACH_CTL_EN n) = 1)
    let st := s.dev.get PWR_STATUS_STATE
    (st ≠ 0 → exec (.pwrReqIdle f) s = .next s) ∧
    (st = 0 → active → ∃ t, exec (.pwrReqIdle f) s = .next t ∧ t.dev.get PWR_STATUS_REFUSED = 1 ∧ t.dev.get PWR_STATUS_REFCAUSE = 1 ∧
      t.dev.get PWR_STATUS_WAKEREF = 0 ∧ Frame [] [PWR_STATUS_REFUSED, PWR_STATUS_REFCAUSE, PWR_STATUS_WAKEREF] s t) ∧
    (st = 0 → ¬ active → ∃ t, exec (.pwrReqIdle f) s = .next t ∧ t.dev.get PWR_STATUS_STATE = 1 ∧ t.dev.get PWR_CTL_REQ = 1 ∧
      t.dev.get PWR_STATUS_SLPPEND = 0 ∧ Frame [] [PWR_STATUS_STATE, PWR_CTL_REQ, PWR_STATUS_SLPPEND] s t) ∧
    (2 ≤ st → exec (.pwrReqSleep f) s = .next s ∧ exec (.pwrReqRun f) s = .next s) ∧
    (st < 2 → (∃ t, exec (.pwrReqSleep f) s = .next t ∧ t.dev.get PWR_CTL_REQ = 2 ∧ t.dev.get PWR_STATUS_SLPPEND = 1 ∧
        Frame [] [PWR_CTL_REQ, PWR_STATUS_SLPPEND] s t) ∧
      ∃ t, exec (.pwrReqRun f) s = .next t ∧ t.dev.get PWR_CTL_REQ = 0 ∧ t.dev.get PWR_STATUS_SLPPEND = 0 ∧
        Frame [] [PWR_CTL_REQ, PWR_STATUS_SLPPEND] s t)) ∧
  (∀ s : State,
    let pw := s.dev.pw
    let st := s.dev.get PWR_STATUS_STATE
    ((∀ k, pw.idleEnd = some k → s.dev.tick < k) → exec .idleExit s = .next s) ∧
    (∀ k, pw.idleEnd = some k → k ≤ s.dev.tick →
      (pw.held = [] → ∃ t, exec .idleExit s = .next t ∧ t.dev.pw = { pw with idleEnd := none } ∧ (st ≠ 1 → Frame [.pw] [] s t) ∧
        (st = 1 → t.dev.get PWR_STATUS_STATE = 0 ∧ t.dev.get PWR_CTL_REQ = 0 ∧ Frame [.pw] [PWR_STATUS_STATE, PWR_CTL_REQ] s t)) ∧
      (∀ (f : Fin 4) (n : Fin 1024) (v : Word), pw.held = [((Writer.fn f).code, TC_CMP0 n, v)] → s.dev.mayWrite (.fn f) (TC_CMP0 n) = true →
        s.dev.quadDown (n.val / 256) = false → ∃ t, exec .idleExit s = .next t ∧
          t.dev.late = s.dev.late ++ [{ due := s.dev.tick, rank := 0, code := f, off := TC_CMP0 n, v }] ∧
          (s.dev.late = [] → s.dev.tb.running = true → t.landed.dev.word (TC_CMP0 n) = v) ∧
          t.dev.pw = { pw with idleEnd := none, held := [] } ∧ (st = 1 → t.dev.get PWR_STATUS_STATE = 0) ∧
          Frame [.pw, .late] [PWR_STATUS_STATE, PWR_CTL_REQ] s t)) ∧
    (let away := s.dev.host.linkUp = false ∨ ∀ f, f < 4 → (s.dev.fn f).d3 = true
    let busy := s.dev.svc.fuseJob ≠ none ∨ s.dev.mc.copy ≠ none ∨ ∃ r k, s.dev.svc.running = some (r, k) ∧ r.kind = 0x10
    let go := s.dev.tb.running = true ∧ pw.entering = false ∧ s.dev.get PWR_STATUS_SLPPEND = 1 ∧ st < 2 ∧ away
    (s.dev.tb.running = false ∨ (pw.entering = false ∧ ¬ go) → exec .sleepEntry s = .next s) ∧
    (go → busy → ∃ t, exec .sleepEntry s = .next t ∧ t.dev.get PWR_STATUS_SLPPEND = 0 ∧ t.dev.get PWR_CTL_REQ = 0 ∧
      t.dev.get PWR_STATUS_REFUSED = 1 ∧ t.dev.get PWR_STATUS_REFCAUSE = 3 ∧ t.dev.get PWR_STATUS_WAKEREF = 0 ∧
      Frame [] [PWR_STATUS_SLPPEND, PWR_CTL_REQ, PWR_STATUS_REFUSED, PWR_STATUS_REFCAUSE, PWR_STATUS_WAKEREF] s t) ∧
    (go → ¬ busy → ∃ t, exec .sleepEntry s = .next t ∧ t.dev.get PWR_STATUS_SLPPEND = 0 ∧ t.dev.get PWR_STATUS_STATE = 3 ∧
      t.dev.pw = { pw with entering := true } ∧ t.dev.svc.presOpen = none ∧ t.dev.mc.reqs = [] ∧
      (s.dev.svc.presOpen = none → s.dev.mc.reqs = [] → t.dev.ru = s.dev.ru) ∧
      (s.dev.svc.presOpen ≠ none → s.dev.serviced t.dev 0x21 0 2 0 ∧ t.dev.get SVCPRES_PRES_OPEN = 0) ∧
      (s.dev.mc.reqs = [] → Frame [.pw, .svc, .ru] [PWR_STATUS_SLPPEND, PWR_STATUS_STATE, SVCPRES_PRES_OPEN] s t) ∧
      Frame [.pw, .svc, .ru, .mem, .mc] (PWR_STATUS_SLPPEND :: PWR_STATUS_STATE :: SVCPRES_PRES_OPEN :: memErrFields ++ memDropFields) s t) ∧
    (s.dev.tb.running = true → pw.entering = true → ∃ t, exec .sleepEntry s = .next t ∧ t.dev.get PWR_STATUS_STATE = 2 ∧
      t.dev.get MEM_STATUS_RET = 1 ∧ t.dev.pw = { pw with entering := false, s0 := some s.dev.now } ∧ t.dev.tb = { s.dev.tb with running := false } ∧
      (∀ g, g < 32 → t.dev.grp g = (s.dev.grpSettle g).grp g) ∧ Frame [.pw, .tb, .cmt] [PWR_STATUS_STATE, MEM_STATUS_RET] s t)) ∧
    (∀ x : WakeSource,
      let on := (x = .timer → s.dev.get PWR_WAKEEN_TIMER = 1) ∧ (x = .seal → s.dev.get PWR_WAKEEN_SEAL = 1)
      (¬ on ∨ (pw.entering = false ∧ st ≠ 2) → exec (.wake x) s = .next s) ∧
      (on → pw.entering = true → ∃ t, exec (.wake x) s = .next t ∧ t.dev.get PWR_STATUS_STATE = 0 ∧ t.dev.get PWR_CTL_REQ = 0 ∧
        t.dev.get PWR_STATUS_REFUSED = 1 ∧ t.dev.get PWR_STATUS_REFCAUSE = 3 ∧ t.dev.get PWR_STATUS_WAKEREF = 1 ∧
        t.dev.pw = { pw with entering := false } ∧
        Frame [.pw] [PWR_STATUS_STATE, PWR_CTL_REQ, PWR_STATUS_REFUSED, PWR_STATUS_REFCAUSE, PWR_STATUS_WAKEREF] s t) ∧
      (on → pw.entering = false → st = 2 → ∃ t, exec (.wake x) s = .next t ∧ t.dev.get PWR_STATUS_STATE = 3 ∧ t.dev.get MEM_STATUS_RET = 0 ∧
        t.dev.get MEM_STATUS_WAKING = 1 ∧ t.dev.pw = { pw with waking := true } ∧
        Frame [.pw] [PWR_STATUS_STATE, MEM_STATUS_RET, MEM_STATUS_WAKING] s t)) ∧
    (∀ (n : Nat) (levels : BitVec 24),
      (pw.s0 = none ∨ pw.waking = false → exec (.stimeResume n levels) s = .next s) ∧
      (∀ k, pw.s0 = some k → pw.waking = true → (let ratio := s.dev.get TB_ACLK_RATIO_RATIO
        let e := (n * ratio + 2048) / 4096
        let p := (ratio + 2048) / 4096
        ∃ t, exec (.stimeResume n levels) s = .next t ∧ t.dev.stime.toNat = (k + e) % 2 ^ 64 ∧ t.dev.tb.running = true ∧
          t.dev.pw = { pw with s0 := none, runAt := some (s.dev.tick + 96000 - p), sealLatched := 0 } ∧
          t.dev.mc = { s.dev.mc with wakeAt := some (s.dev.tick + 34400 - p) } ∧ t.dev.tick = s.dev.tick ∧
          t.dev.get TB_STATUS_STEP = 1 ∧ t.dev.get TB_STEPCNT_CNT = (s.dev.get TB_STEPCNT_CNT + 1) % 2 ^ 32 ∧
          (∀ a : Fin 8, (s.dev.get (AXIS_CFG_MODE a) = 0 → t.dev.axis a = s.dev.axis a) ∧
            (s.dev.get (AXIS_CFG_MODE a) ≠ 0 → (t.dev.axis a).stale = true ∧ (t.dev.axis a).runNext = true ∧ (t.dev.axis a).serPrev = none)) ∧
          (∀ g : Fin 256, s.dev.get (FE_CTL_EN g) = 1 → t.dev.get (FE_STATUS_RUN g) = 0 ∧ t.dev.get (FE_STATUS_OUT g) = 0 ∧
            t.dev.get (FE_STATUS_CLKSTOP g) = 1) ∧
          (∀ h : Fin 32, (s.dev.get (HK_CTL_EN h) = 0 → t.dev.word (HK_CNT_LO h) = s.dev.word (HK_CNT_LO h) ∧ t.dev.hk h = s.dev.hk h) ∧
            (s.dev.get (HK_CTL_EN h) = 1 → s.dev.get (HK_CTL_PRE h) = 0 → (s.dev.hk h).next = s.dev.tick + 1 → (s.dev.hk h).cur = 1 →
              t.dev.pair (HK_CNT_LO h) (HK_CNT_HI h) = (s.dev.pair (HK_CNT_LO h) (HK_CNT_HI h) + e) % 2 ^ 64)) ∧
          ∀ q ∈ [Part.mem, .nvs, .fuse, .pending, .host, .tcs, .ibxs, .cars, .tpls, .emus, .out, .free], q.same s t))) ∧
    ((∀ k, pw.runAt = some k → s.dev.tick < k) → exec .wakeRun s = .next s) ∧
    (∀ k, pw.runAt = some k → k ≤ s.dev.tick → (s.dev.lines.map (fun p => p.1)).Nodup → ∃ t, exec .wakeRun s = .next t ∧
      t.dev.get PWR_STATUS_STATE = 0 ∧ t.dev.get PWR_CTL_REQ = 0 ∧ t.dev.pw = { pw with waking := false, runAt := none } ∧
      (∀ j, ((s.dev.line j).ready = none → t.dev.line j = s.dev.line j) ∧
        ((s.dev.line j).ready ≠ none → (t.dev.line j).ready = none ∧ (t.dev.line j).activeB = !(s.dev.line j).activeB)) ∧
      (∀ g, g < 32 → (let x := s.dev.grp g
        let late : GroupFire := { c := s.dev.tick + 4, late := true, lateness := min (s.dev.now + 4 - x.key.getD 0) 0xFFFFFF }
        t.dev.grp g = if x.fire = none ∧ (∃ y, x.key = some y ∧ y < s.dev.now + 4) then { x with fire := some late } else x)) ∧
      Frame [.pw, .lines, .tb, .cmt] (PWR_STATUS_STATE :: PWR_CTL_REQ :: (List.range 256).flatMap (fun n => [FE_STATUS_LINE n, FE_STATUS_CAL_STALE n])) s t)) ∧
  ∀ (s : State) (x : Int),
    let pw := s.dev.pw
    let u : Int := if s.dev.fw 2 % 4 = 1 then 95 * 16 else 110 * 16
    let crossing := u ≤ x ∧ pw.hot = false
    let since := pw.hotSince.getD s.dev.tick
    let burns := u + 15 * 16 ≤ x ∧ pw.hotSince ≠ none ∧ since + 800000 ≤ s.dev.tick ∧ pw.heatIso ≠ 15
    (pw.released = false → exec (.thermalSample x) s = .next s) ∧
    (pw.released = true → ∃ t, exec (.thermalSample x) s = .next t ∧ (t.dev.get PWR_TEMP_TEMP : Int) = x % 2 ^ 16 ∧
      t.dev.pw = { pw with hot := decide (u ≤ x), hotSince := if x < u + 15 * 16 then none else some since, heatIso := if burns then 15 else pw.heatIso } ∧
      (crossing → t.dev.get PWR_STATUS_HOT = 1 ∧ ∃ d0 d1, s.dev.logged t.dev 0x50 0 d0 d1) ∧
      (¬ crossing → t.dev.get PWR_STATUS_HOT = s.dev.get PWR_STATUS_HOT) ∧
      (¬ burns → ¬ crossing → Frame [.pw] [PWR_TEMP_TEMP] s t) ∧
      (¬ burns → Frame [.pw, .free, .svc, .ru] (PWR_TEMP_TEMP :: PWR_STATUS_HOT :: flogFields) s t) ∧
      (burns → t.dev.get SVC_QSTAT_ISO = 15 ∧
        (∀ q : Fin 4, t.dev.quadDown q = true ∧ ((s.dev.get SVC_QSTAT_ISO).testBit q.val = false →
          (t.dev.quad q).inReset = true ∧ (t.dev.quad q).heatIsolations = (s.dev.quad q).heatIsolations + 1 ∧
          (t.dev.quad q).isolations = (s.dev.quad q).isolations)) ∧
        ((∀ q : Fin 4, (s.dev.quad q).isolations < 3) → t.dev.get SVC_QSTAT_RELEASE_LOCK = s.dev.get SVC_QSTAT_RELEASE_LOCK) ∧
        (s.dev.flogMerge 0x51 0 = none → s.dev.svc.flBuf.length + 6 ≤ 32 → ∃ e ∈ t.dev.svc.flBuf, e.code = 0x51 ∧ e.src = 0) ∧
        t.dev.stime = s.dev.stime ∧ t.dev.tb = s.dev.tb))

/-- R302, R337, R453, R469, R504 to R506, R507, R509, R510, R511, R519: register writes and the debug port. A write that its writer may not make is
dropped, one by a function is counted; a partial dword, a value other than 0 at a hole and a reserved encoding are dropped and set the reserved-write
flag, reserved bits set it and leave the rest of the write; in the MSI-X window each function writes its own table; a
write that takes effect on the next tick waits for the end of its tick; two dwords are written in address order but for the pairs of an axis whose HI
half goes first; in IDLE a write of a gated block
waits. A request to the debug port that the lock level does not reach is answered with an error and changes nothing;
that level 1 may read a status register is the model's choice (log 41). -/
def Obligations.RegisterAccessAndTheDebugPort : Prop :=
  (∀ (s : State) (w : Sender) (n : Fin 65536) (be : BitVec 4) (v : Word),
    let d := s.dev
    let off := 4 * n.val
    let may := d.mayWrite (writerOf w) off = true
    (¬ may → (∀ e, w = .me e → exec (.registerWrite w n be ⟨v, none⟩) s = .next s) ∧
      ∀ f, w = .fn f → ∃ t, exec (.registerWrite w n be ⟨v, none⟩) s = .next t ∧
        t.dev.get HIF_OWNVIOL_CNT = min (d.get HIF_OWNVIOL_CNT + 1) (2 ^ 32 - 1) ∧ Frame [] [HIF_OWNVIOL_CNT] s t) ∧
    (may → be ≠ 15 → ∃ t, exec (.registerWrite w n be ⟨v, none⟩) s = .next t ∧ d.flagged t.dev (writerOf w) off ∧
      t.dev.get GLB_ACCERR_CNT = min (d.get GLB_ACCERR_CNT + 1) (2 ^ 32 - 1) ∧ Frame [] (GLB_ACCERR_CNT :: flagFields) s t) ∧
    (d.takes (writerOf w) off = true → be = 15 → locate off = none →
      (v = 0 → exec (.registerWrite w n be ⟨v, none⟩) s = .next s) ∧
      (v ≠ 0 → ∃ t, exec (.registerWrite w n be ⟨v, none⟩) s = .next t ∧ d.flagged t.dev (writerOf w) off ∧ Frame [] flagFields s t)) ∧
    (may → d.get PWR_STATUS_STATE = 1 → gated off = true → be = 15 → ∃ t, exec (.registerWrite w n be ⟨v, none⟩) s = .next t ∧
      t.dev.pw = { d.pw with idleEnd := some (d.pw.idleEnd.getD (d.tick + 1600)), held := d.pw.held ++ [((writerOf w).code, off, v)] } ∧
      Frame [.pw] [] s t) ∧
    (∀ l, locate off = some l → lateReg l = true → l.gid ≠ .sinksel ∨ sinkExists (l.i % 452) = true → d.takes (writerOf w) off = true → be = 15 →
      badValue l.info v.toNat = false → refusedValue l v.toNat = false → ∃ t, exec (.registerWrite w n be ⟨v, none⟩) s = .next t ∧
        t.dev.late = d.late ++ [{ due := d.tick, rank := (writerOf w).rank, code := (writerOf w).code, off,
                                  v := v &&& w32 (l.info.rw ||| l.info.w1c ||| l.info.wo) }] ∧
        (rsvBits l.info v = 0 → Frame [.late] [] s t) ∧ (rsvBits l.info v ≠ 0 → d.flagged t.dev (writerOf w) off ∧ Frame [.late] flagFields s t)) ∧
    (∀ x : SecondDword, (n.val = 65535 → exec (.registerWrite w n be ⟨v, some x⟩) s = .fault .badCommand) ∧
      (n.val ≠ 65535 → (let lo : Instr := .registerWrite w n be ⟨v, none⟩
        let hi : Instr := .registerWrite w (Fin.ofNat 65536 (n.val + 1)) x.be ⟨x.v, none⟩
        let pair := ∃ a : Fin 8, off = AXIS_POS_LO a ∨ off = AXIS_LIMIT_LO_LO a ∨ off = AXIS_LIMIT_HI_LO a
        (pair → exec (.registerWrite w n be ⟨v, some x⟩) s = execAll [hi, lo] s) ∧
        (¬ pair → exec (.registerWrite w n be ⟨v, some x⟩) s = execAll [lo, hi] s)))) ∧
    (∀ m : Fin 64, off = MV_SRC m → d.takes (writerOf w) off = true → be = 15 → ∃ t, exec (.registerWrite w n be ⟨v, none⟩) s = .next t ∧
      t.dev.get (MV_SRC_ADDR m) = v.toNat / 16 % 2 ^ 22 ∧ (v &&& 0xFC00000F#32 = 0 → Frame [] [MV_SRC_ADDR m] s t) ∧
      (v &&& 0xFC00000F#32 ≠ 0 → d.flagged t.dev (writerOf w) off ∧ Frame [] (MV_SRC_ADDR m :: flagFields) s t)) ∧
    (∀ h : Fin 32, off = HK_CTL h → may → be = 15 → v.toNat / 4 % 4 = 3 → ∃ t, exec (.registerWrite w n be ⟨v, none⟩) s = .next t ∧
      d.flagged t.dev (writerOf w) off ∧ Frame [] flagFields s t) ∧
    (∀ f : Fin 4, w = .fn f → be = 15 →
      (0x6000 ≤ off → off < 0x6400 → ∃ t, exec (.registerWrite w n be ⟨v, none⟩) s = .next t ∧
        t.dev.fn f = { d.fn f with
          table := Tab.set (if off % 16 = 12 then 1#32 else 0#32) (d.fn f).table ((off - 0x6000) / 4) (if off % 16 = 12 then v &&& 1#32 else v) } ∧
        (∀ g, g ≠ f.val → t.dev.fn g = d.fn g) ∧ Frame [.host] [] s t) ∧
      (0x6400 ≤ off → off < 0x6408 → exec (.registerWrite w n be ⟨v, none⟩) s = .next s) ∧
      (0x6408 ≤ off → off < 0x8000 → (v = 0 → exec (.registerWrite w n be ⟨v, none⟩) s = .next s) ∧
        (v ≠ 0 → ∃ t, exec (.registerWrite w n be ⟨v, none⟩) s = .next t ∧ d.flagged t.dev (writerOf w) off ∧ Frame [] flagFields s t)))) ∧
  (∀ (s : State) (f : Fin 4), s.dev.mayWrite (.fn f) GLB_RSVW = true →
    (s.dev.get GLB_RSVW_FLAG = 0 → exec (.rsvwFlagClear f) s = .next s) ∧
    (s.dev.get GLB_RSVW_FLAG = 1 → ∃ t, exec (.rsvwFlagClear f) s = .next t ∧ t.dev.get GLB_RSVW_FLAG = 0 ∧ t.dev.get GLB_RSVWCNT_CNT = 0 ∧
      Frame [] [GLB_RSVW_FLAG, GLB_RSVWCNT_CNT] s t)) ∧
  ∀ s : State,
    let level := s.dev.svc.dbgLevel
    let tells (t : State) (a : Option Nat) : Prop := t.dev.out = s.dev.out ++ [.jtag a]
    let refused (r : DebugRequest) : Prop := ∃ t, exec (.debugPortAccess r) s = .next t ∧ tells t none ∧ Frame [.out] [] s t
    (3 ≤ level → ∀ r, refused r) ∧ (level = 2 → ∀ r, (∀ off, r ≠ .readRegister off) → refused r) ∧
    (∀ off : Fin 65536, (level < 1 ∨ ∃ a : Fin 8, level < 3 ∧ 4 * off.val = ME_STATUS a) → ∃ t, exec (.debugPortAccess (.readRegister off)) s = .next t ∧
      tells t (some (s.dev.peek (4 * off.val)).toNat) ∧ Frame [.out] [] s t) ∧
    (0 < level → ∀ off v w e p b a x u y, refused (.writeRegister off v) ∧ refused (.readMemory w) ∧ refused (.writeMemory w x) ∧
      refused (.writeEngine e p v) ∧ refused (.readImage e b u) ∧ refused (.writeImage e b u y) ∧ refused (.readScratch e a) ∧
      refused (.writeScratch e a v)) ∧
    (level < 2 → ∀ e : Fin 8,
      (∀ u, exec (.meDebugHalt e) s = .next u → ∃ t, exec (.debugPortAccess (.halt e)) s = .next t ∧ t.dev.out = u.dev.out ++ [.jtag (some 0)] ∧
        Frame [.out] [] u t) ∧
      (∀ u, exec (.meDebugResume e) s = .next u → ∃ t, exec (.debugPortAccess (.resume e)) s = .next t ∧ t.dev.out = u.dev.out ++ [.jtag (some 0)] ∧
        Frame [.out] [] u t) ∧
      (∀ lanes, s.dev.get (ME_STATUS_STATE e) ≠ 4 → ∃ t, exec (.debugPortAccess (.step e lanes)) s = .next t ∧ tells t (some 0) ∧
        Frame [.out] [] s t) ∧
      ∀ (lanes : Lanes) (p : Fin 1024), p.val < 0x20 → (s.dev.me e).res = [] →
        ∃ t, exec (.debugPortAccess (.readEngine e lanes p)) s = .next t ∧ tells t (some ((s.dev.me e).port p)) ∧ Frame [.out] [] s t) ∧
    (level = 0 →
      (∀ (off : Fin 65536) (v : Word) (n : Fin 1024), 4 * off.val = TC_CMP0 n → s.dev.takes .debug (TC_CMP0 n) = true →
        ∃ t, exec (.debugPortAccess (.writeRegister off v)) s = .next t ∧ tells t (some 0) ∧
          t.dev.late = s.dev.late ++ [{ due := s.dev.tick, rank := 0, code := 7, off := TC_CMP0 n, v }] ∧ Frame [.out, .late] [] s t) ∧
      (∀ (e : Fin 8) (b : Fin 2) (u : Fin 16384) (y : DWord) (a : Fin 8192) (v : Word),
        (∃ t, exec (.debugPortAccess (.readImage e b u)) s = .next t ∧ tells t (some ((s.dev.me e).word b u)) ∧ Frame [.out] [] s t) ∧
        (∃ t, exec (.debugPortAccess (.writeImage e b u y)) s = .next t ∧ tells t (some 0) ∧
          (∀ k, Tab.get 0 (t.dev.me e).img k = if k = b.val * 16384 + u.val then y.toNat else Tab.get 0 (s.dev.me e).img k) ∧
          (∀ k, k ≠ e.val → t.dev.me k = s.dev.me k) ∧ Frame [.out, .mes] [] s t) ∧
        (∃ t, exec (.debugPortAccess (.readScratch e a)) s = .next t ∧ tells t (some (Tab.get 0 (s.dev.me e).scratch a)) ∧ Frame [.out] [] s t) ∧
        (∃ t, exec (.debugPortAccess (.writeScratch e a v)) s = .next t ∧ tells t (some 0) ∧
          (∀ k, Tab.get 0 (t.dev.me e).scratch k = if k = a.val then v.toNat else Tab.get 0 (s.dev.me e).scratch k) ∧
          (∀ k, k ≠ e.val → t.dev.me k = s.dev.me k) ∧ Frame [.out, .mes] [] s t)) ∧
      (∀ (w : Fin 4194304) (x : BitVec 128),
        (s.dev.memUp = false → refused (.readMemory w) ∧ refused (.writeMemory w x)) ∧
        (s.dev.memUp = true → (∃ t, exec (.debugPortAccess (.readMemory w)) s = .next t ∧ tells t (some (s.mem.read (s.dev.memLoc w)).data) ∧
            t.mem = s.mem ∧ ((s.mem.read (s.dev.memLoc w)).kind = 0 → Frame [.out] [] s t)) ∧
          ∃ t, exec (.debugPortAccess (.writeMemory w x)) s = .next t ∧ tells t (some 0) ∧
            t.mem.read (s.dev.memLoc w) = { data := x.toNat, kind := 0 } ∧
            (∀ j, j ≠ s.dev.memLoc w → t.mem.read j = s.mem.read j) ∧ Frame [.out, .mem, .mc] [MEM_COLLCNT_CNT] s t)))

/-- R29, R285, R508: a step runs the command at the front of the queue with the queue's rest behind it; with nothing waiting, a tick of TCLK passes while
TCLK runs: what engines have sent for it acts after every other write, the writes that take effect on the next tick land in the order of their
writers, and then stacked memory has its tick. That a tick is what an empty queue brings is the model's choice (log 1). -/
def Obligations.StepRunsTheFrontCommandOrATick : Prop :=
  (∀ (c : Instr) (s : State), step { s with pending := c :: s.pending } = exec c s) ∧
  ∀ s : State, s.pending = [] →
    let calm := (∀ p ∈ s.dev.ibxs, p.2.ending = none) ∧ (∀ q, q < 4 → (s.dev.slice q).cancels = []) ∧
      ∀ e, e < 8 → (s.dev.me e).hkNext = 0 ∧ (s.dev.me e).stopping = false
    let still := s.dev.host.bulkq = [] ∧ s.dev.mc.borrow = none
    let silent := ∀ e, e < 8 → (s.dev.me e).io = [] ∨ s.dev.quadDown (e / 2) = true
    let next : State := { s with dev := { s.dev with tick := s.dev.tick + 1, stime := s.dev.stime + 1 } }
    (s.dev.tb.running = false → step s = .next s) ∧
    (s.dev.tb.running = true → calm →
      (silent → (∀ x ∈ s.dev.late, s.dev.tick < x.due) → step s = .next next.mirrorTick.bulkTick ∧ (still → step s = .next next)) ∧
      (∀ (x y : LateWrite) (n : Fin 1024), silent → still → s.dev.late = [x, y] → x.due ≤ s.dev.tick → y.due ≤ s.dev.tick → x.rank ≤ 10 → y.rank ≤ 10 →
        x.off = TC_CMP0 n → y.off = TC_CMP0 n → s.dev.quadDown (n.val / 256) = false → ∃ t, step s = .next t ∧
          t.dev.word (TC_CMP0 n) = (if y.rank < x.rank then x.v else y.v) ∧ t.dev.late = [] ∧ t.dev.tick = s.dev.tick + 1 ∧
          t.dev.stime = s.dev.stime + 1 ∧ Frame [.tick, .stime, .late] [whole (TC_CMP0 n)] s t) ∧
      (∀ (e : Fin 8) (k : Nat) (n : Fin 1024) (v : Word), (∀ j, j < 8 → j ≠ e.val → (s.dev.me j).io = []) → still → s.dev.late = [] →
        n.val / 256 = e.val / 2 → (s.dev.me e).io = [(k, .wr (TC_CMP0 n - 0x10000 - 0x8000 * (e.val / 2)) v)] → k ≤ s.dev.tick →
        s.dev.takes (.me e) (TC_CMP0 n) = true → ∃ t, step s = .next t ∧ t.dev.word (TC_CMP0 n) = v ∧ (t.dev.me e).io = [] ∧
          t.dev.tick = s.dev.tick + 1 ∧ t.dev.stime = s.dev.stime + 1 ∧ Frame [.tick, .stime, .mes] [whole (TC_CMP0 n)] s t))

/-- R3, R29, R31, R329, R477: the machine right after reset: nothing waits, every register holds its Reset value, STIME is 0 and TCLK does not run
yet, no unit has left its state after reset, and the memories list nothing, in canonical form. Values that the specification does not give are the
model's choice (log 2). -/
def Obligations.ResetState : Prop :=
  State.reset.pending = [] ∧ (∀ off, State.reset.dev.word off = resetWord off) ∧ State.reset.dev.stime = 0 ∧ State.reset.dev.tick = 0 ∧
  State.reset.dev.tb.running = false ∧ State.reset.memWf = true ∧ (∀ k, (State.reset.mem.read k).kind = 0 ∧ (State.reset.mem.read k).data = 0) ∧
  (∀ n, State.reset.dev.axis n = {} ∧ State.reset.dev.tc n = {} ∧ State.reset.dev.fe n = {} ∧ State.reset.dev.ibx n = {} ∧
    State.reset.dev.me n = {} ∧ State.reset.dev.grp n = {} ∧ State.reset.dev.slice n = {}) ∧
  State.reset.dev.get PWR_STATUS_STATE = 0 ∧ State.reset.dev.get TB_STATUS_CAL_DONE = 0 ∧ State.reset.dev.get MEM_STATUS_READY = 0

/-- R306, R309, R443, R452: every step keeps the memories in their canonical form: stacked memory with its check symbols and its poisoned words, the
non-volatile store, the fuse array list rising addresses and nothing that equals what an unlisted place holds. -/
def Obligations.EveryStepKeepsTheMemoriesCanonical : Prop :=
  ∀ s t : State, s.memWf = true → step s = .next t → t.memWf = true

/-- R443: a fuse that is programmed stays programmed: no command, from any state, returns a fuse bit to 0. No command touches the queue: a step takes one
command from it and adds none. -/
def Obligations.FusesStayProgrammed : Prop :=
  (∀ (c : Instr) (s t : State), exec c s = .next t → t.pending = s.pending ∧
    ∀ k b : Nat, (Tab.get 0#32 s.fuse.data k).toNat.testBit b = true → (Tab.get 0#32 t.fuse.data k).toNat.testBit b = true) ∧
  ∀ s t : State, step s = .next t → t.pending = s.pending.tail ∧
    ∀ k b : Nat, (Tab.get 0#32 s.fuse.data k).toNat.testBit b = true → (Tab.get 0#32 t.fuse.data k).toNat.testBit b = true

/-- R509: a register write that its writer may not make is dropped, is counted in HIF.OWNVIOL, and never sets the reserved-write flag, whatever its
value, its byte enables and its offset; only a write that its writer may make is examined for reserved values. -/
def Obligations.ForbiddenWritesAreDroppedAndCounted : Prop :=
  ∀ (s : State) (f : Fin 4) (n : Fin 65536) (be : BitVec 4) (v : Word), s.dev.mayWrite (.fn f) (4 * n.val) = false →
    ∃ t, exec (.registerWrite (.fn f) n be ⟨v, none⟩) s = .next t ∧ t.dev.get HIF_OWNVIOL_CNT = min (s.dev.get HIF_OWNVIOL_CNT + 1) (2 ^ 32 - 1) ∧
      t.dev.get GLB_RSVW_FLAG = s.dev.get GLB_RSVW_FLAG ∧ t.dev.get GLB_ACCERR_CNT = s.dev.get GLB_ACCERR_CNT ∧ Frame [] [HIF_OWNVIOL_CNT] s t
end

