-- ==== Sys2Proof/Laws/Tab.lean ====
section
/-! SUPPORT. Sparse tables: reading after writing, and the canonical form kept. -/

namespace Sys2Proof.Machine

theorem Tab.get_filter_same {α : Type} (d : α) (t : Tab α) (i : Nat) : Tab.get d (t.filter (fun p => p.1 != i)) i = d := by
  induction t with
  | nil => rfl
  | cons p t ih =>
    obtain ⟨k, v⟩ := p
    by_cases h : k = i
    · simp [h, ih]
    · simp [h, Tab.get, ih, Ne.symm h]

theorem Tab.get_filter_ne {α : Type} (d : α) (t : Tab α) {i j : Nat} (h : j ≠ i) :
    Tab.get d (t.filter (fun p => p.1 != i)) j = Tab.get d t j := by
  induction t with
  | nil => rfl
  | cons p t ih =>
    obtain ⟨k, v⟩ := p
    by_cases hk : k = i
    · subst hk; simp [Tab.get, ih, h]
    · simp [hk, Tab.get, ih]

theorem Tab.get_insert_same {α : Type} (d : α) (t : Tab α) (i : Nat) (v : α) : Tab.get d (Tab.insert i v t) i = v := by
  induction t with
  | nil => simp [Tab.insert, Tab.get]
  | cons p t ih =>
    obtain ⟨k, w⟩ := p
    simp only [Tab.insert]
    split
    · simp [Tab.get]
    · split
      · simp [Tab.get]
      · simp_all [Tab.get]

theorem Tab.get_insert_ne {α : Type} (d : α) (t : Tab α) {i j : Nat} (v : α) (h : j ≠ i) : Tab.get d (Tab.insert i v t) j = Tab.get d t j := by
  induction t with
  | nil => simp [Tab.insert, Tab.get, h]
  | cons p t ih =>
    obtain ⟨k, w⟩ := p
    simp only [Tab.insert]
    split
    · simp [Tab.get, h]
    · split
      · rename_i hk; subst hk; simp [Tab.get, h]
      · simp [Tab.get, ih]

/-- Reading what was written. -/
@[simp] theorem Tab.get_set_same {α : Type} [DecidableEq α] (d : α) (t : Tab α) (i : Nat) (v : α) : Tab.get d (Tab.set d t i v) i = v := by
  unfold Tab.set
  split
  · rename_i h; rw [Tab.get_filter_same, h]
  · exact Tab.get_insert_same d t i v

/-- Every other index reads as before, whatever an unlisted one reads as. -/
theorem Tab.get_set_ne' {α : Type} [DecidableEq α] (c d : α) (t : Tab α) {i j : Nat} (v : α) (h : j ≠ i) :
    Tab.get c (Tab.set d t i v) j = Tab.get c t j := by
  unfold Tab.set
  split
  · exact Tab.get_filter_ne c t h
  · exact Tab.get_insert_ne c t v h

/-- Every other index reads as before. -/
theorem Tab.get_set_ne {α : Type} [DecidableEq α] (d : α) (t : Tab α) {i j : Nat} (v : α) (h : j ≠ i) :
    Tab.get d (Tab.set d t i v) j = Tab.get d t j := Tab.get_set_ne' d d t v h

theorem Tab.get_set {α : Type} [DecidableEq α] (d : α) (t : Tab α) (i j : Nat) (v : α) :
    Tab.get d (Tab.set d t i v) j = if j = i then v else Tab.get d t j := by
  split
  · rename_i h; rw [h, Tab.get_set_same]
  · rename_i h; exact Tab.get_set_ne d t v h

@[simp] theorem Tab.get_mod_same {α : Type} [DecidableEq α] (d : α) (t : Tab α) (i : Nat) (f : α → α) :
    Tab.get d (Tab.mod d t i f) i = f (Tab.get d t i) := Tab.get_set_same d t i _

theorem Tab.get_mod_ne {α : Type} [DecidableEq α] (d : α) (t : Tab α) {i j : Nat} (f : α → α) (h : j ≠ i) :
    Tab.get d (Tab.mod d t i f) j = Tab.get d t j := Tab.get_set_ne d t _ h

theorem Tab.get_mod {α : Type} [DecidableEq α] (d : α) (t : Tab α) (i j : Nat) (f : α → α) :
    Tab.get d (Tab.mod d t i f) j = if j = i then f (Tab.get d t i) else Tab.get d t j := Tab.get_set d t i j _

/-! ## The canonical form -/

theorem Tab.wfFrom_mono {α : Type} [DecidableEq α] (d : α) (t : Tab α) {a b : Nat} (h : a ≤ b) (w : Tab.wfFrom d b t = true) :
    Tab.wfFrom d a t = true := by
  cases t with
  | nil => rfl
  | cons p t =>
    obtain ⟨k, v⟩ := p
    simp only [Tab.wfFrom, Bool.and_eq_true, decide_eq_true_eq] at w ⊢
    exact ⟨⟨by omega, w.1.2⟩, w.2⟩

theorem Tab.wfFrom_filter {α : Type} [DecidableEq α] (d : α) (p : Nat × α → Bool) (t : Tab α) (a : Nat) (w : Tab.wfFrom d a t = true) :
    Tab.wfFrom d a (t.filter p) = true := by
  induction t generalizing a with
  | nil => rfl
  | cons x t ih =>
    obtain ⟨k, v⟩ := x
    simp only [Tab.wfFrom, Bool.and_eq_true, decide_eq_true_eq] at w
    have h := ih (k + 1) w.2
    by_cases hp : p (k, v) = true
    · simp only [List.filter_cons_of_pos hp, Tab.wfFrom, Bool.and_eq_true, decide_eq_true_eq]; exact ⟨w.1, h⟩
    · rw [List.filter_cons_of_neg hp]; exact Tab.wfFrom_mono d _ (by omega) h

theorem Tab.wfFrom_insert {α : Type} [DecidableEq α] (d : α) (t : Tab α) (a i : Nat) (v : α) (hv : v ≠ d) (hi : a ≤ i)
    (w : Tab.wfFrom d a t = true) : Tab.wfFrom d a (Tab.insert i v t) = true := by
  induction t generalizing a with
  | nil => simp [Tab.insert, Tab.wfFrom, hv, hi]
  | cons x t ih =>
    obtain ⟨k, u⟩ := x
    simp only [Tab.wfFrom, Bool.and_eq_true, decide_eq_true_eq] at w
    simp only [Tab.insert]
    split
    · simp only [Tab.wfFrom, Bool.and_eq_true, decide_eq_true_eq]; exact ⟨⟨hi, hv⟩, ⟨⟨by omega, w.1.2⟩, w.2⟩⟩
    · split
      · rename_i h; subst h
        simp only [Tab.wfFrom, Bool.and_eq_true, decide_eq_true_eq]; exact ⟨⟨hi, hv⟩, w.2⟩
      · simp only [Tab.wfFrom, Bool.and_eq_true, decide_eq_true_eq]; exact ⟨w.1, ih (k + 1) (by omega) w.2⟩

/-- A write keeps the canonical form. -/
theorem Tab.wf_set {α : Type} [DecidableEq α] (d : α) (t : Tab α) (i : Nat) (v : α) (w : Tab.wf d t = true) : Tab.wf d (Tab.set d t i v) = true := by
  unfold Tab.set Tab.wf at *
  split
  · exact Tab.wfFrom_filter d _ t 0 w
  · rename_i h; exact Tab.wfFrom_insert d t 0 i v h (Nat.zero_le i) w

end Sys2Proof.Machine
end

