-- ==== Sys2Proof/Laws/State.lean ====
section
/-! SUPPORT. The state behind the queue: one lemma for each field and each named update (what the update leaves alone), and reading a
register field after a write. -/

namespace Sys2Proof.Machine

/-! ## Derived updates are field writes -/

@[simp] theorem Dev.raise_eq (d : Dev) (f : Fld) : d.raise f = d.put f 1 := rfl
@[simp] theorem Dev.putB_eq (d : Dev) (f : Fld) (b : Bool) : d.putB f b = d.put f (b2n b) := rfl
@[simp] theorem Dev.incSat_eq (d : Dev) (f : Fld) : d.incSat f = d.put f (min (d.get f + 1) (2 ^ f.w - 1)) := rfl
@[simp] theorem Dev.addSat_eq (d : Dev) (f : Fld) (n : Nat) : d.addSat f n = d.put f (min (d.get f + n) (2 ^ f.w - 1)) := rfl
@[simp] theorem Dev.incWrap_eq (d : Dev) (f : Fld) : d.incWrap f = d.put f (d.get f + 1) := rfl
@[simp] theorem onDev_eq (s : State) (f : Dev → Dev) : onDev s f = .next { s with dev := f s.dev } := rfl

/-! ## Words and fields of the registers -/

theorem Dev.word_setWord (d : Dev) (o p : Nat) (v : Word) : (d.setWord o v).word p = if p = o then v else d.word p := by
  unfold Dev.word Dev.setWord
  by_cases h : p = o
  · subst h; simp
  · rw [if_neg h]
    have (x y : Word) : Tab.get x (Tab.set y d.regs o v) p = Tab.get x d.regs p := Tab.get_set_ne' x y _ v h
    exact this _ _

@[simp] theorem Dev.word_setWord_same (d : Dev) (o : Nat) (v : Word) : (d.setWord o v).word o = v := by simp [Dev.word_setWord]

theorem Dev.word_setWord_ne (d : Dev) {o p : Nat} (v : Word) (h : p ≠ o) : (d.setWord o v).word p = d.word p := by
  simp [Dev.word_setWord, h]

theorem Dev.word_put_ne (d : Dev) {f : Fld} {p : Nat} (v : Nat) (h : p ≠ f.off) : (d.put f v).word p = d.word p :=
  Dev.word_setWord_ne d _ h

theorem Dev.word_put_same (d : Dev) (f : Fld) (v : Nat) :
    (d.put f v).word f.off = BitVec.ofNat 32 (putBits (d.word f.off).toNat f.lo f.w v) := Dev.word_setWord_same d _ _

/-- A number is its high part, a field and its low part. -/
theorem bits_split (n lo w : Nat) : n = n % 2 ^ lo + bits n lo w * 2 ^ lo + n / 2 ^ (lo + w) * 2 ^ (lo + w) := by
  unfold bits
  rw [Nat.shiftRight_eq_div_pow]
  have h1 := Nat.mod_add_div n (2 ^ lo)
  have h2 := Nat.mod_add_div (n / 2 ^ lo) (2 ^ w)
  rw [Nat.div_div_eq_div_mul, ← Nat.pow_add] at h2
  have h3 : 2 ^ (lo + w) = 2 ^ lo * 2 ^ w := Nat.pow_add 2 lo w
  calc n = n % 2 ^ lo + 2 ^ lo * (n / 2 ^ lo) := h1.symm
    _ = n % 2 ^ lo + 2 ^ lo * (n / 2 ^ lo % 2 ^ w + 2 ^ w * (n / 2 ^ (lo + w))) := by rw [h2]
    _ = _ := by rw [h3, Nat.mul_add, ← Nat.mul_assoc]; ring

theorem putBits_eq (n lo w v : Nat) : putBits n lo w v = n % 2 ^ lo + (v % 2 ^ w) * 2 ^ lo + n / 2 ^ (lo + w) * 2 ^ (lo + w) := by
  have h := bits_split n lo w
  unfold putBits
  generalize bits n lo w * 2 ^ lo = a at *
  generalize v % 2 ^ w * 2 ^ lo = b at *
  generalize n / 2 ^ (lo + w) * 2 ^ (lo + w) = c at *
  generalize n % 2 ^ lo = e at *
  omega

/-- A field written keeps the number within 32 bits. -/
theorem putBits_lt (n lo w v : Nat) (h : lo + w ≤ 32) (hn : n < 2 ^ 32) : putBits n lo w v < 2 ^ 32 := by
  rw [putBits_eq]
  have hb : v % 2 ^ w < 2 ^ w := Nat.mod_lt _ (Nat.two_pow_pos w)
  have hl : n % 2 ^ lo < 2 ^ lo := Nat.mod_lt _ (Nat.two_pow_pos lo)
  have hp : 2 ^ (lo + w) = 2 ^ w * 2 ^ lo := by rw [Nat.pow_add, Nat.mul_comm]
  have h1 : n % 2 ^ lo + v % 2 ^ w * 2 ^ lo < 2 ^ (lo + w) := by
    rw [hp]
    have : (v % 2 ^ w + 1) * 2 ^ lo ≤ 2 ^ w * 2 ^ lo := Nat.mul_le_mul_right _ hb
    rw [Nat.add_mul, Nat.one_mul] at this
    omega
  have hq : n / 2 ^ (lo + w) < 2 ^ (32 - (lo + w)) := by
    rw [Nat.div_lt_iff_lt_mul (Nat.two_pow_pos _), ← Nat.pow_add]
    rwa [Nat.sub_add_cancel h]
  have h2 : (n / 2 ^ (lo + w) + 1) * 2 ^ (lo + w) ≤ 2 ^ (32 - (lo + w)) * 2 ^ (lo + w) := Nat.mul_le_mul_right _ hq
  rw [← Nat.pow_add, Nat.sub_add_cancel h, Nat.add_mul, Nat.one_mul] at h2
  omega

theorem bits_putBits_same (n lo w v : Nat) : bits (putBits n lo w v) lo w = v % 2 ^ w := by
  rw [putBits_eq]
  unfold bits
  rw [Nat.shiftRight_eq_div_pow]
  have h3 : 2 ^ (lo + w) = 2 ^ lo * 2 ^ w := Nat.pow_add 2 lo w
  have : n % 2 ^ lo + v % 2 ^ w * 2 ^ lo + n / 2 ^ (lo + w) * 2 ^ (lo + w)
      = n % 2 ^ lo + 2 ^ lo * (v % 2 ^ w + 2 ^ w * (n / 2 ^ (lo + w))) := by rw [h3]; ring
  rw [this, Nat.add_mul_div_left _ _ (Nat.two_pow_pos lo), Nat.mod_div_self, Nat.zero_add, Nat.add_mul_mod_self_left,
    Nat.mod_mod]

theorem bits_putBits_above (n lo w v a b : Nat) (h : lo + w ≤ a) : bits (putBits n lo w v) a b = bits n a b := by
  have hd : ∀ m, m / 2 ^ a = m / 2 ^ (lo + w) / 2 ^ (a - (lo + w)) := fun m => by
    rw [Nat.div_div_eq_div_mul, ← Nat.pow_add, Nat.add_sub_cancel' h]
  have hp : putBits n lo w v / 2 ^ (lo + w) = n / 2 ^ (lo + w) := by
    rw [putBits_eq]
    have hb : v % 2 ^ w < 2 ^ w := Nat.mod_lt _ (Nat.two_pow_pos w)
    have hl : n % 2 ^ lo < 2 ^ lo := Nat.mod_lt _ (Nat.two_pow_pos lo)
    have hq : 2 ^ (lo + w) = 2 ^ w * 2 ^ lo := by rw [Nat.pow_add, Nat.mul_comm]
    have h1 : n % 2 ^ lo + v % 2 ^ w * 2 ^ lo < 2 ^ (lo + w) := by
      rw [hq]
      have : (v % 2 ^ w + 1) * 2 ^ lo ≤ 2 ^ w * 2 ^ lo := Nat.mul_le_mul_right _ hb
      rw [Nat.add_mul, Nat.one_mul] at this
      omega
    rw [Nat.add_mul_div_right _ _ (Nat.two_pow_pos _), Nat.div_eq_of_lt h1, Nat.zero_add]
  unfold bits
  rw [Nat.shiftRight_eq_div_pow, Nat.shiftRight_eq_div_pow, hd, hp, ← hd]

theorem bits_putBits_below (n lo w v a b : Nat) (h : a + b ≤ lo) : bits (putBits n lo w v) a b = bits n a b := by
  have hm : ∀ m, bits m a b = bits (m % 2 ^ lo) a b := fun m => by
    unfold bits
    rw [Nat.shiftRight_eq_div_pow, Nat.shiftRight_eq_div_pow]
    have : lo = a + (lo - a) := by omega
    rw [this, Nat.pow_add, Nat.mod_mul_right_div_self, Nat.mod_mod_of_dvd]
    exact Nat.pow_dvd_pow 2 (by omega)
  have hp : putBits n lo w v % 2 ^ lo = n % 2 ^ lo := by
    rw [putBits_eq]
    have : n % 2 ^ lo + v % 2 ^ w * 2 ^ lo + n / 2 ^ (lo + w) * 2 ^ (lo + w)
        = n % 2 ^ lo + (v % 2 ^ w + n / 2 ^ (lo + w) * 2 ^ w) * 2 ^ lo := by rw [Nat.pow_add]; ring
    rw [this, Nat.add_mul_mod_self_right, Nat.mod_mod]
  rw [hm, hp, ← hm]

theorem Dev.word_put_toNat (d : Dev) (f : Fld) (v : Nat) (h : f.lo + f.w ≤ 32) :
    ((d.put f v).word f.off).toNat = putBits (d.word f.off).toNat f.lo f.w v := by
  rw [Dev.word_put_same, BitVec.toNat_ofNat, Nat.mod_eq_of_lt (putBits_lt _ _ _ _ h (d.word f.off).isLt)]

/-- A field's place is a pair of numbers: that it lies within 32 bits is a computation. -/
theorem fit {a : Nat} (h : Nat.ble a 32 = true) : a ≤ 32 := Nat.le_of_ble_eq_true h

/-- A field reads what was written to it, modulo its width. -/
theorem Dev.get_put_same (d : Dev) (f : Fld) (v : Nat) (h : f.lo + f.w ≤ 32) : (d.put f v).get f = v % 2 ^ f.w := by
  unfold Dev.get
  rw [Dev.word_put_toNat d f v h, bits_putBits_same]

/-- A write of one field leaves a field apart from it as it was. -/
theorem Dev.get_put_ne (d : Dev) {f g : Fld} (v : Nat) (h : f.lo + f.w ≤ 32) (hg : f.apart g) : (d.put f v).get g = d.get g := by
  unfold Dev.get
  by_cases ho : g.off = f.off
  · rw [ho, Dev.word_put_toNat d f v h]
    rcases hg with hg | hg | hg
    · exact absurd ho.symm hg
    · exact bits_putBits_above _ _ _ _ _ _ hg
    · exact bits_putBits_below _ _ _ _ _ _ hg
  · rw [Dev.word_put_ne d v ho]

theorem Dev.get_setWord_ne (d : Dev) {o : Nat} {g : Fld} (v : Word) (h : g.off ≠ o) : (d.setWord o v).get g = d.get g := by
  unfold Dev.get; rw [Dev.word_setWord_ne d v h]

/-- A field that lies in no register's 32 bits reads 0; so a word written leaves every field apart from it as it was. -/
theorem Dev.get_setWord_apart (d : Dev) {o : Nat} {g : Fld} (v : Word) (h : (whole o).apart g) :
    (d.setWord o v).get g = d.get g := by
  by_cases hw : g.w = 0
  · simp [Dev.get, bits, hw, Nat.mod_one]
  by_cases ho : g.off = o
  · have hl : 32 ≤ g.lo := by
      rcases h with h | h | h
      · exact absurd ho.symm h
      · simpa [whole] using h
      · simp only [whole] at h; omega
    have z : ∀ v : Word, bits v.toNat g.lo g.w = 0 := fun v => by
      unfold bits
      rw [Nat.shiftRight_eq_div_pow, Nat.div_eq_of_lt (Nat.lt_of_lt_of_le v.isLt (Nat.pow_le_pow_right (by decide) hl)), Nat.zero_mod]
    simp [Dev.get, z]
  · exact Dev.get_setWord_ne d v ho

theorem Dev.get_setWord_same (d : Dev) (g : Fld) (v : Word) : (d.setWord g.off v).get g = bits v.toNat g.lo g.w := by
  unfold Dev.get; rw [Dev.word_setWord_same]

theorem Dev.get_lt (d : Dev) (f : Fld) : d.get f < 2 ^ f.w := Nat.mod_lt _ (Nat.two_pow_pos _)

theorem Dev.flag_iff (d : Dev) (f : Fld) : d.flag f = true ↔ d.get f ≠ 0 := by simp [Dev.flag]
theorem Dev.flag_eq (d : Dev) (f : Fld) : d.flag f = (d.get f != 0) := rfl

/-! ## What each update leaves alone -/

@[simp] theorem Dev.setWord_tick (d : Dev) (o : Nat) (v : Word) : (d.setWord o v).tick = d.tick := rfl
@[simp] theorem Dev.setWord_stime (d : Dev) (o : Nat) (v : Word) : (d.setWord o v).stime = d.stime := rfl
@[simp] theorem Dev.setWord_heldHi (d : Dev) (o : Nat) (v : Word) : (d.setWord o v).heldHi = d.heldHi := rfl
@[simp] theorem Dev.setWord_late (d : Dev) (o : Nat) (v : Word) : (d.setWord o v).late = d.late := rfl
@[simp] theorem Dev.setWord_latched (d : Dev) (o : Nat) (v : Word) : (d.setWord o v).latched = d.latched := rfl
@[simp] theorem Dev.setWord_quads (d : Dev) (o : Nat) (v : Word) : (d.setWord o v).quads = d.quads := rfl
@[simp] theorem Dev.setWord_convs (d : Dev) (o : Nat) (v : Word) : (d.setWord o v).convs = d.convs := rfl
@[simp] theorem Dev.setWord_xev (d : Dev) (o : Nat) (v : Word) : (d.setWord o v).xev = d.xev := rfl
@[simp] theorem Dev.setWord_ru (d : Dev) (o : Nat) (v : Word) : (d.setWord o v).ru = d.ru := rfl
@[simp] theorem Dev.setWord_host (d : Dev) (o : Nat) (v : Word) : (d.setWord o v).host = d.host := rfl
@[simp] theorem Dev.setWord_tb (d : Dev) (o : Nat) (v : Word) : (d.setWord o v).tb = d.tb := rfl
@[simp] theorem Dev.setWord_lines (d : Dev) (o : Nat) (v : Word) : (d.setWord o v).lines = d.lines := rfl
@[simp] theorem Dev.setWord_hks (d : Dev) (o : Nat) (v : Word) : (d.setWord o v).hks = d.hks := rfl
@[simp] theorem Dev.setWord_axes (d : Dev) (o : Nat) (v : Word) : (d.setWord o v).axes = d.axes := rfl
@[simp] theorem Dev.setWord_msgs (d : Dev) (o : Nat) (v : Word) : (d.setWord o v).msgs = d.msgs := rfl
@[simp] theorem Dev.setWord_emus (d : Dev) (o : Nat) (v : Word) : (d.setWord o v).emus = d.emus := rfl
@[simp] theorem Dev.setWord_slices (d : Dev) (o : Nat) (v : Word) : (d.setWord o v).slices = d.slices := rfl
@[simp] theorem Dev.setWord_cars (d : Dev) (o : Nat) (v : Word) : (d.setWord o v).cars = d.cars := rfl
@[simp] theorem Dev.setWord_tpls (d : Dev) (o : Nat) (v : Word) : (d.setWord o v).tpls = d.tpls := rfl
@[simp] theorem Dev.setWord_tcs (d : Dev) (o : Nat) (v : Word) : (d.setWord o v).tcs = d.tcs := rfl
@[simp] theorem Dev.setWord_fes (d : Dev) (o : Nat) (v : Word) : (d.setWord o v).fes = d.fes := rfl
@[simp] theorem Dev.setWord_ibxs (d : Dev) (o : Nat) (v : Word) : (d.setWord o v).ibxs = d.ibxs := rfl
@[simp] theorem Dev.setWord_out (d : Dev) (o : Nat) (v : Word) : (d.setWord o v).out = d.out := rfl
@[simp] theorem Dev.setWord_free (d : Dev) (o : Nat) (v : Word) : (d.setWord o v).free = d.free := rfl
@[simp] theorem Dev.setWord_svc (d : Dev) (o : Nat) (v : Word) : (d.setWord o v).svc = d.svc := rfl
@[simp] theorem Dev.setWord_mc (d : Dev) (o : Nat) (v : Word) : (d.setWord o v).mc = d.mc := rfl
@[simp] theorem Dev.setWord_cmt (d : Dev) (o : Nat) (v : Word) : (d.setWord o v).cmt = d.cmt := rfl
@[simp] theorem Dev.setWord_mes (d : Dev) (o : Nat) (v : Word) : (d.setWord o v).mes = d.mes := rfl
@[simp] theorem Dev.setWord_pw (d : Dev) (o : Nat) (v : Word) : (d.setWord o v).pw = d.pw := rfl

@[simp] theorem Dev.put_tick (d : Dev) (f : Fld) (v : Nat) : (d.put f v).tick = d.tick := rfl
@[simp] theorem Dev.put_stime (d : Dev) (f : Fld) (v : Nat) : (d.put f v).stime = d.stime := rfl
@[simp] theorem Dev.put_heldHi (d : Dev) (f : Fld) (v : Nat) : (d.put f v).heldHi = d.heldHi := rfl
@[simp] theorem Dev.put_late (d : Dev) (f : Fld) (v : Nat) : (d.put f v).late = d.late := rfl
@[simp] theorem Dev.put_latched (d : Dev) (f : Fld) (v : Nat) : (d.put f v).latched = d.latched := rfl
@[simp] theorem Dev.put_quads (d : Dev) (f : Fld) (v : Nat) : (d.put f v).quads = d.quads := rfl
@[simp] theorem Dev.put_convs (d : Dev) (f : Fld) (v : Nat) : (d.put f v).convs = d.convs := rfl
@[simp] theorem Dev.put_xev (d : Dev) (f : Fld) (v : Nat) : (d.put f v).xev = d.xev := rfl
@[simp] theorem Dev.put_ru (d : Dev) (f : Fld) (v : Nat) : (d.put f v).ru = d.ru := rfl
@[simp] theorem Dev.put_host (d : Dev) (f : Fld) (v : Nat) : (d.put f v).host = d.host := rfl
@[simp] theorem Dev.put_tb (d : Dev) (f : Fld) (v : Nat) : (d.put f v).tb = d.tb := rfl
@[simp] theorem Dev.put_lines (d : Dev) (f : Fld) (v : Nat) : (d.put f v).lines = d.lines := rfl
@[simp] theorem Dev.put_hks (d : Dev) (f : Fld) (v : Nat) : (d.put f v).hks = d.hks := rfl
@[simp] theorem Dev.put_axes (d : Dev) (f : Fld) (v : Nat) : (d.put f v).axes = d.axes := rfl
@[simp] theorem Dev.put_msgs (d : Dev) (f : Fld) (v : Nat) : (d.put f v).msgs = d.msgs := rfl
@[simp] theorem Dev.put_emus (d : Dev) (f : Fld) (v : Nat) : (d.put f v).emus = d.emus := rfl
@[simp] theorem Dev.put_slices (d : Dev) (f : Fld) (v : Nat) : (d.put f v).slices = d.slices := rfl
@[simp] theorem Dev.put_cars (d : Dev) (f : Fld) (v : Nat) : (d.put f v).cars = d.cars := rfl
@[simp] theorem Dev.put_tpls (d : Dev) (f : Fld) (v : Nat) : (d.put f v).tpls = d.tpls := rfl
@[simp] theorem Dev.put_tcs (d : Dev) (f : Fld) (v : Nat) : (d.put f v).tcs = d.tcs := rfl
@[simp] theorem Dev.put_fes (d : Dev) (f : Fld) (v : Nat) : (d.put f v).fes = d.fes := rfl
@[simp] theorem Dev.put_ibxs (d : Dev) (f : Fld) (v : Nat) : (d.put f v).ibxs = d.ibxs := rfl
@[simp] theorem Dev.put_out (d : Dev) (f : Fld) (v : Nat) : (d.put f v).out = d.out := rfl
@[simp] theorem Dev.put_free (d : Dev) (f : Fld) (v : Nat) : (d.put f v).free = d.free := rfl
@[simp] theorem Dev.put_svc (d : Dev) (f : Fld) (v : Nat) : (d.put f v).svc = d.svc := rfl
@[simp] theorem Dev.put_mc (d : Dev) (f : Fld) (v : Nat) : (d.put f v).mc = d.mc := rfl
@[simp] theorem Dev.put_cmt (d : Dev) (f : Fld) (v : Nat) : (d.put f v).cmt = d.cmt := rfl
@[simp] theorem Dev.put_mes (d : Dev) (f : Fld) (v : Nat) : (d.put f v).mes = d.mes := rfl
@[simp] theorem Dev.put_pw (d : Dev) (f : Fld) (v : Nat) : (d.put f v).pw = d.pw := rfl

@[simp] theorem Dev.modQuad_tick (d : Dev) (n : Nat) (f : Quad → Quad) : (d.modQuad n f).tick = d.tick := rfl
@[simp] theorem Dev.modQuad_stime (d : Dev) (n : Nat) (f : Quad → Quad) : (d.modQuad n f).stime = d.stime := rfl
@[simp] theorem Dev.modQuad_regs (d : Dev) (n : Nat) (f : Quad → Quad) : (d.modQuad n f).regs = d.regs := rfl
@[simp] theorem Dev.modQuad_heldHi (d : Dev) (n : Nat) (f : Quad → Quad) : (d.modQuad n f).heldHi = d.heldHi := rfl
@[simp] theorem Dev.modQuad_late (d : Dev) (n : Nat) (f : Quad → Quad) : (d.modQuad n f).late = d.late := rfl
@[simp] theorem Dev.modQuad_latched (d : Dev) (n : Nat) (f : Quad → Quad) : (d.modQuad n f).latched = d.latched := rfl
@[simp] theorem Dev.modQuad_convs (d : Dev) (n : Nat) (f : Quad → Quad) : (d.modQuad n f).convs = d.convs := rfl
@[simp] theorem Dev.modQuad_xev (d : Dev) (n : Nat) (f : Quad → Quad) : (d.modQuad n f).xev = d.xev := rfl
@[simp] theorem Dev.modQuad_ru (d : Dev) (n : Nat) (f : Quad → Quad) : (d.modQuad n f).ru = d.ru := rfl
@[simp] theorem Dev.modQuad_host (d : Dev) (n : Nat) (f : Quad → Quad) : (d.modQuad n f).host = d.host := rfl
@[simp] theorem Dev.modQuad_tb (d : Dev) (n : Nat) (f : Quad → Quad) : (d.modQuad n f).tb = d.tb := rfl
@[simp] theorem Dev.modQuad_lines (d : Dev) (n : Nat) (f : Quad → Quad) : (d.modQuad n f).lines = d.lines := rfl
@[simp] theorem Dev.modQuad_hks (d : Dev) (n : Nat) (f : Quad → Quad) : (d.modQuad n f).hks = d.hks := rfl
@[simp] theorem Dev.modQuad_axes (d : Dev) (n : Nat) (f : Quad → Quad) : (d.modQuad n f).axes = d.axes := rfl
@[simp] theorem Dev.modQuad_msgs (d : Dev) (n : Nat) (f : Quad → Quad) : (d.modQuad n f).msgs = d.msgs := rfl
@[simp] theorem Dev.modQuad_emus (d : Dev) (n : Nat) (f : Quad → Quad) : (d.modQuad n f).emus = d.emus := rfl
@[simp] theorem Dev.modQuad_slices (d : Dev) (n : Nat) (f : Quad → Quad) : (d.modQuad n f).slices = d.slices := rfl
@[simp] theorem Dev.modQuad_cars (d : Dev) (n : Nat) (f : Quad → Quad) : (d.modQuad n f).cars = d.cars := rfl
@[simp] theorem Dev.modQuad_tpls (d : Dev) (n : Nat) (f : Quad → Quad) : (d.modQuad n f).tpls = d.tpls := rfl
@[simp] theorem Dev.modQuad_tcs (d : Dev) (n : Nat) (f : Quad → Quad) : (d.modQuad n f).tcs = d.tcs := rfl
@[simp] theorem Dev.modQuad_fes (d : Dev) (n : Nat) (f : Quad → Quad) : (d.modQuad n f).fes = d.fes := rfl
@[simp] theorem Dev.modQuad_ibxs (d : Dev) (n : Nat) (f : Quad → Quad) : (d.modQuad n f).ibxs = d.ibxs := rfl
@[simp] theorem Dev.modQuad_out (d : Dev) (n : Nat) (f : Quad → Quad) : (d.modQuad n f).out = d.out := rfl
@[simp] theorem Dev.modQuad_free (d : Dev) (n : Nat) (f : Quad → Quad) : (d.modQuad n f).free = d.free := rfl
@[simp] theorem Dev.modQuad_svc (d : Dev) (n : Nat) (f : Quad → Quad) : (d.modQuad n f).svc = d.svc := rfl
@[simp] theorem Dev.modQuad_mc (d : Dev) (n : Nat) (f : Quad → Quad) : (d.modQuad n f).mc = d.mc := rfl
@[simp] theorem Dev.modQuad_cmt (d : Dev) (n : Nat) (f : Quad → Quad) : (d.modQuad n f).cmt = d.cmt := rfl
@[simp] theorem Dev.modQuad_mes (d : Dev) (n : Nat) (f : Quad → Quad) : (d.modQuad n f).mes = d.mes := rfl
@[simp] theorem Dev.modQuad_pw (d : Dev) (n : Nat) (f : Quad → Quad) : (d.modQuad n f).pw = d.pw := rfl
@[simp] theorem Dev.modQuad_word (d : Dev) (n : Nat) (f : Quad → Quad) (p : Nat) : (d.modQuad n f).word p = d.word p := rfl
@[simp] theorem Dev.modQuad_get (d : Dev) (n : Nat) (f : Quad → Quad) (g : Fld) : (d.modQuad n f).get g = d.get g := rfl

@[simp] theorem Dev.modAxis_tick (d : Dev) (n : Nat) (f : Axis → Axis) : (d.modAxis n f).tick = d.tick := rfl
@[simp] theorem Dev.modAxis_stime (d : Dev) (n : Nat) (f : Axis → Axis) : (d.modAxis n f).stime = d.stime := rfl
@[simp] theorem Dev.modAxis_regs (d : Dev) (n : Nat) (f : Axis → Axis) : (d.modAxis n f).regs = d.regs := rfl
@[simp] theorem Dev.modAxis_heldHi (d : Dev) (n : Nat) (f : Axis → Axis) : (d.modAxis n f).heldHi = d.heldHi := rfl
@[simp] theorem Dev.modAxis_late (d : Dev) (n : Nat) (f : Axis → Axis) : (d.modAxis n f).late = d.late := rfl
@[simp] theorem Dev.modAxis_latched (d : Dev) (n : Nat) (f : Axis → Axis) : (d.modAxis n f).latched = d.latched := rfl
@[simp] theorem Dev.modAxis_quads (d : Dev) (n : Nat) (f : Axis → Axis) : (d.modAxis n f).quads = d.quads := rfl
@[simp] theorem Dev.modAxis_convs (d : Dev) (n : Nat) (f : Axis → Axis) : (d.modAxis n f).convs = d.convs := rfl
@[simp] theorem Dev.modAxis_xev (d : Dev) (n : Nat) (f : Axis → Axis) : (d.modAxis n f).xev = d.xev := rfl
@[simp] theorem Dev.modAxis_ru (d : Dev) (n : Nat) (f : Axis → Axis) : (d.modAxis n f).ru = d.ru := rfl
@[simp] theorem Dev.modAxis_host (d : Dev) (n : Nat) (f : Axis → Axis) : (d.modAxis n f).host = d.host := rfl
@[simp] theorem Dev.modAxis_tb (d : Dev) (n : Nat) (f : Axis → Axis) : (d.modAxis n f).tb = d.tb := rfl
@[simp] theorem Dev.modAxis_lines (d : Dev) (n : Nat) (f : Axis → Axis) : (d.modAxis n f).lines = d.lines := rfl
@[simp] theorem Dev.modAxis_hks (d : Dev) (n : Nat) (f : Axis → Axis) : (d.modAxis n f).hks = d.hks := rfl
@[simp] theorem Dev.modAxis_msgs (d : Dev) (n : Nat) (f : Axis → Axis) : (d.modAxis n f).msgs = d.msgs := rfl
@[simp] theorem Dev.modAxis_emus (d : Dev) (n : Nat) (f : Axis → Axis) : (d.modAxis n f).emus = d.emus := rfl
@[simp] theorem Dev.modAxis_slices (d : Dev) (n : Nat) (f : Axis → Axis) : (d.modAxis n f).slices = d.slices := rfl
@[simp] theorem Dev.modAxis_cars (d : Dev) (n : Nat) (f : Axis → Axis) : (d.modAxis n f).cars = d.cars := rfl
@[simp] theorem Dev.modAxis_tpls (d : Dev) (n : Nat) (f : Axis → Axis) : (d.modAxis n f).tpls = d.tpls := rfl
@[simp] theorem Dev.modAxis_tcs (d : Dev) (n : Nat) (f : Axis → Axis) : (d.modAxis n f).tcs = d.tcs := rfl
@[simp] theorem Dev.modAxis_fes (d : Dev) (n : Nat) (f : Axis → Axis) : (d.modAxis n f).fes = d.fes := rfl
@[simp] theorem Dev.modAxis_ibxs (d : Dev) (n : Nat) (f : Axis → Axis) : (d.modAxis n f).ibxs = d.ibxs := rfl
@[simp] theorem Dev.modAxis_out (d : Dev) (n : Nat) (f : Axis → Axis) : (d.modAxis n f).out = d.out := rfl
@[simp] theorem Dev.modAxis_free (d : Dev) (n : Nat) (f : Axis → Axis) : (d.modAxis n f).free = d.free := rfl
@[simp] theorem Dev.modAxis_svc (d : Dev) (n : Nat) (f : Axis → Axis) : (d.modAxis n f).svc = d.svc := rfl
@[simp] theorem Dev.modAxis_mc (d : Dev) (n : Nat) (f : Axis → Axis) : (d.modAxis n f).mc = d.mc := rfl
@[simp] theorem Dev.modAxis_cmt (d : Dev) (n : Nat) (f : Axis → Axis) : (d.modAxis n f).cmt = d.cmt := rfl
@[simp] theorem Dev.modAxis_mes (d : Dev) (n : Nat) (f : Axis → Axis) : (d.modAxis n f).mes = d.mes := rfl
@[simp] theorem Dev.modAxis_pw (d : Dev) (n : Nat) (f : Axis → Axis) : (d.modAxis n f).pw = d.pw := rfl
@[simp] theorem Dev.modAxis_word (d : Dev) (n : Nat) (f : Axis → Axis) (p : Nat) : (d.modAxis n f).word p = d.word p := rfl
@[simp] theorem Dev.modAxis_get (d : Dev) (n : Nat) (f : Axis → Axis) (g : Fld) : (d.modAxis n f).get g = d.get g := rfl

@[simp] theorem Dev.modEmu_tick (d : Dev) (n : Nat) (f : Emu → Emu) : (d.modEmu n f).tick = d.tick := rfl
@[simp] theorem Dev.modEmu_stime (d : Dev) (n : Nat) (f : Emu → Emu) : (d.modEmu n f).stime = d.stime := rfl
@[simp] theorem Dev.modEmu_regs (d : Dev) (n : Nat) (f : Emu → Emu) : (d.modEmu n f).regs = d.regs := rfl
@[simp] theorem Dev.modEmu_heldHi (d : Dev) (n : Nat) (f : Emu → Emu) : (d.modEmu n f).heldHi = d.heldHi := rfl
@[simp] theorem Dev.modEmu_late (d : Dev) (n : Nat) (f : Emu → Emu) : (d.modEmu n f).late = d.late := rfl
@[simp] theorem Dev.modEmu_latched (d : Dev) (n : Nat) (f : Emu → Emu) : (d.modEmu n f).latched = d.latched := rfl
@[simp] theorem Dev.modEmu_quads (d : Dev) (n : Nat) (f : Emu → Emu) : (d.modEmu n f).quads = d.quads := rfl
@[simp] theorem Dev.modEmu_convs (d : Dev) (n : Nat) (f : Emu → Emu) : (d.modEmu n f).convs = d.convs := rfl
@[simp] theorem Dev.modEmu_xev (d : Dev) (n : Nat) (f : Emu → Emu) : (d.modEmu n f).xev = d.xev := rfl
@[simp] theorem Dev.modEmu_ru (d : Dev) (n : Nat) (f : Emu → Emu) : (d.modEmu n f).ru = d.ru := rfl
@[simp] theorem Dev.modEmu_host (d : Dev) (n : Nat) (f : Emu → Emu) : (d.modEmu n f).host = d.host := rfl
@[simp] theorem Dev.modEmu_tb (d : Dev) (n : Nat) (f : Emu → Emu) : (d.modEmu n f).tb = d.tb := rfl
@[simp] theorem Dev.modEmu_lines (d : Dev) (n : Nat) (f : Emu → Emu) : (d.modEmu n f).lines = d.lines := rfl
@[simp] theorem Dev.modEmu_hks (d : Dev) (n : Nat) (f : Emu → Emu) : (d.modEmu n f).hks = d.hks := rfl
@[simp] theorem Dev.modEmu_axes (d : Dev) (n : Nat) (f : Emu → Emu) : (d.modEmu n f).axes = d.axes := rfl
@[simp] theorem Dev.modEmu_msgs (d : Dev) (n : Nat) (f : Emu → Emu) : (d.modEmu n f).msgs = d.msgs := rfl
@[simp] theorem Dev.modEmu_slices (d : Dev) (n : Nat) (f : Emu → Emu) : (d.modEmu n f).slices = d.slices := rfl
@[simp] theorem Dev.modEmu_cars (d : Dev) (n : Nat) (f : Emu → Emu) : (d.modEmu n f).cars = d.cars := rfl
@[simp] theorem Dev.modEmu_tpls (d : Dev) (n : Nat) (f : Emu → Emu) : (d.modEmu n f).tpls = d.tpls := rfl
@[simp] theorem Dev.modEmu_tcs (d : Dev) (n : Nat) (f : Emu → Emu) : (d.modEmu n f).tcs = d.tcs := rfl
@[simp] theorem Dev.modEmu_fes (d : Dev) (n : Nat) (f : Emu → Emu) : (d.modEmu n f).fes = d.fes := rfl
@[simp] theorem Dev.modEmu_ibxs (d : Dev) (n : Nat) (f : Emu → Emu) : (d.modEmu n f).ibxs = d.ibxs := rfl
@[simp] theorem Dev.modEmu_out (d : Dev) (n : Nat) (f : Emu → Emu) : (d.modEmu n f).out = d.out := rfl
@[simp] theorem Dev.modEmu_free (d : Dev) (n : Nat) (f : Emu → Emu) : (d.modEmu n f).free = d.free := rfl
@[simp] theorem Dev.modEmu_svc (d : Dev) (n : Nat) (f : Emu → Emu) : (d.modEmu n f).svc = d.svc := rfl
@[simp] theorem Dev.modEmu_mc (d : Dev) (n : Nat) (f : Emu → Emu) : (d.modEmu n f).mc = d.mc := rfl
@[simp] theorem Dev.modEmu_cmt (d : Dev) (n : Nat) (f : Emu → Emu) : (d.modEmu n f).cmt = d.cmt := rfl
@[simp] theorem Dev.modEmu_mes (d : Dev) (n : Nat) (f : Emu → Emu) : (d.modEmu n f).mes = d.mes := rfl
@[simp] theorem Dev.modEmu_pw (d : Dev) (n : Nat) (f : Emu → Emu) : (d.modEmu n f).pw = d.pw := rfl
@[simp] theorem Dev.modEmu_word (d : Dev) (n : Nat) (f : Emu → Emu) (p : Nat) : (d.modEmu n f).word p = d.word p := rfl
@[simp] theorem Dev.modEmu_get (d : Dev) (n : Nat) (f : Emu → Emu) (g : Fld) : (d.modEmu n f).get g = d.get g := rfl

@[simp] theorem Dev.modSlice_tick (d : Dev) (n : Nat) (f : Slice → Slice) : (d.modSlice n f).tick = d.tick := rfl
@[simp] theorem Dev.modSlice_stime (d : Dev) (n : Nat) (f : Slice → Slice) : (d.modSlice n f).stime = d.stime := rfl
@[simp] theorem Dev.modSlice_regs (d : Dev) (n : Nat) (f : Slice → Slice) : (d.modSlice n f).regs = d.regs := rfl
@[simp] theorem Dev.modSlice_heldHi (d : Dev) (n : Nat) (f : Slice → Slice) : (d.modSlice n f).heldHi = d.heldHi := rfl
@[simp] theorem Dev.modSlice_late (d : Dev) (n : Nat) (f : Slice → Slice) : (d.modSlice n f).late = d.late := rfl
@[simp] theorem Dev.modSlice_latched (d : Dev) (n : Nat) (f : Slice → Slice) : (d.modSlice n f).latched = d.latched := rfl
@[simp] theorem Dev.modSlice_quads (d : Dev) (n : Nat) (f : Slice → Slice) : (d.modSlice n f).quads = d.quads := rfl
@[simp] theorem Dev.modSlice_convs (d : Dev) (n : Nat) (f : Slice → Slice) : (d.modSlice n f).convs = d.convs := rfl
@[simp] theorem Dev.modSlice_xev (d : Dev) (n : Nat) (f : Slice → Slice) : (d.modSlice n f).xev = d.xev := rfl
@[simp] theorem Dev.modSlice_ru (d : Dev) (n : Nat) (f : Slice → Slice) : (d.modSlice n f).ru = d.ru := rfl
@[simp] theorem Dev.modSlice_host (d : Dev) (n : Nat) (f : Slice → Slice) : (d.modSlice n f).host = d.host := rfl
@[simp] theorem Dev.modSlice_tb (d : Dev) (n : Nat) (f : Slice → Slice) : (d.modSlice n f).tb = d.tb := rfl
@[simp] theorem Dev.modSlice_lines (d : Dev) (n : Nat) (f : Slice → Slice) : (d.modSlice n f).lines = d.lines := rfl
@[simp] theorem Dev.modSlice_hks (d : Dev) (n : Nat) (f : Slice → Slice) : (d.modSlice n f).hks = d.hks := rfl
@[simp] theorem Dev.modSlice_axes (d : Dev) (n : Nat) (f : Slice → Slice) : (d.modSlice n f).axes = d.axes := rfl
@[simp] theorem Dev.modSlice_msgs (d : Dev) (n : Nat) (f : Slice → Slice) : (d.modSlice n f).msgs = d.msgs := rfl
@[simp] theorem Dev.modSlice_emus (d : Dev) (n : Nat) (f : Slice → Slice) : (d.modSlice n f).emus = d.emus := rfl
@[simp] theorem Dev.modSlice_cars (d : Dev) (n : Nat) (f : Slice → Slice) : (d.modSlice n f).cars = d.cars := rfl
@[simp] theorem Dev.modSlice_tpls (d : Dev) (n : Nat) (f : Slice → Slice) : (d.modSlice n f).tpls = d.tpls := rfl
@[simp] theorem Dev.modSlice_tcs (d : Dev) (n : Nat) (f : Slice → Slice) : (d.modSlice n f).tcs = d.tcs := rfl
@[simp] theorem Dev.modSlice_fes (d : Dev) (n : Nat) (f : Slice → Slice) : (d.modSlice n f).fes = d.fes := rfl
@[simp] theorem Dev.modSlice_ibxs (d : Dev) (n : Nat) (f : Slice → Slice) : (d.modSlice n f).ibxs = d.ibxs := rfl
@[simp] theorem Dev.modSlice_out (d : Dev) (n : Nat) (f : Slice → Slice) : (d.modSlice n f).out = d.out := rfl
@[simp] theorem Dev.modSlice_free (d : Dev) (n : Nat) (f : Slice → Slice) : (d.modSlice n f).free = d.free := rfl
@[simp] theorem Dev.modSlice_svc (d : Dev) (n : Nat) (f : Slice → Slice) : (d.modSlice n f).svc = d.svc := rfl
@[simp] theorem Dev.modSlice_mc (d : Dev) (n : Nat) (f : Slice → Slice) : (d.modSlice n f).mc = d.mc := rfl
@[simp] theorem Dev.modSlice_cmt (d : Dev) (n : Nat) (f : Slice → Slice) : (d.modSlice n f).cmt = d.cmt := rfl
@[simp] theorem Dev.modSlice_mes (d : Dev) (n : Nat) (f : Slice → Slice) : (d.modSlice n f).mes = d.mes := rfl
@[simp] theorem Dev.modSlice_pw (d : Dev) (n : Nat) (f : Slice → Slice) : (d.modSlice n f).pw = d.pw := rfl
@[simp] theorem Dev.modSlice_word (d : Dev) (n : Nat) (f : Slice → Slice) (p : Nat) : (d.modSlice n f).word p = d.word p := rfl
@[simp] theorem Dev.modSlice_get (d : Dev) (n : Nat) (f : Slice → Slice) (g : Fld) : (d.modSlice n f).get g = d.get g := rfl

@[simp] theorem Dev.modCar_tick (d : Dev) (n : Nat) (f : Carriage → Carriage) : (d.modCar n f).tick = d.tick := rfl
@[simp] theorem Dev.modCar_stime (d : Dev) (n : Nat) (f : Carriage → Carriage) : (d.modCar n f).stime = d.stime := rfl
@[simp] theorem Dev.modCar_regs (d : Dev) (n : Nat) (f : Carriage → Carriage) : (d.modCar n f).regs = d.regs := rfl
@[simp] theorem Dev.modCar_heldHi (d : Dev) (n : Nat) (f : Carriage → Carriage) : (d.modCar n f).heldHi = d.heldHi := rfl
@[simp] theorem Dev.modCar_late (d : Dev) (n : Nat) (f : Carriage → Carriage) : (d.modCar n f).late = d.late := rfl
@[simp] theorem Dev.modCar_latched (d : Dev) (n : Nat) (f : Carriage → Carriage) : (d.modCar n f).latched = d.latched := rfl
@[simp] theorem Dev.modCar_quads (d : Dev) (n : Nat) (f : Carriage → Carriage) : (d.modCar n f).quads = d.quads := rfl
@[simp] theorem Dev.modCar_convs (d : Dev) (n : Nat) (f : Carriage → Carriage) : (d.modCar n f).convs = d.convs := rfl
@[simp] theorem Dev.modCar_xev (d : Dev) (n : Nat) (f : Carriage → Carriage) : (d.modCar n f).xev = d.xev := rfl
@[simp] theorem Dev.modCar_ru (d : Dev) (n : Nat) (f : Carriage → Carriage) : (d.modCar n f).ru = d.ru := rfl
@[simp] theorem Dev.modCar_host (d : Dev) (n : Nat) (f : Carriage → Carriage) : (d.modCar n f).host = d.host := rfl
@[simp] theorem Dev.modCar_tb (d : Dev) (n : Nat) (f : Carriage → Carriage) : (d.modCar n f).tb = d.tb := rfl
@[simp] theorem Dev.modCar_lines (d : Dev) (n : Nat) (f : Carriage → Carriage) : (d.modCar n f).lines = d.lines := rfl
@[simp] theorem Dev.modCar_hks (d : Dev) (n : Nat) (f : Carriage → Carriage) : (d.modCar n f).hks = d.hks := rfl
@[simp] theorem Dev.modCar_axes (d : Dev) (n : Nat) (f : Carriage → Carriage) : (d.modCar n f).axes = d.axes := rfl
@[simp] theorem Dev.modCar_msgs (d : Dev) (n : Nat) (f : Carriage → Carriage) : (d.modCar n f).msgs = d.msgs := rfl
@[simp] theorem Dev.modCar_emus (d : Dev) (n : Nat) (f : Carriage → Carriage) : (d.modCar n f).emus = d.emus := rfl
@[simp] theorem Dev.modCar_slices (d : Dev) (n : Nat) (f : Carriage → Carriage) : (d.modCar n f).slices = d.slices := rfl
@[simp] theorem Dev.modCar_tpls (d : Dev) (n : Nat) (f : Carriage → Carriage) : (d.modCar n f).tpls = d.tpls := rfl
@[simp] theorem Dev.modCar_tcs (d : Dev) (n : Nat) (f : Carriage → Carriage) : (d.modCar n f).tcs = d.tcs := rfl
@[simp] theorem Dev.modCar_fes (d : Dev) (n : Nat) (f : Carriage → Carriage) : (d.modCar n f).fes = d.fes := rfl
@[simp] theorem Dev.modCar_ibxs (d : Dev) (n : Nat) (f : Carriage → Carriage) : (d.modCar n f).ibxs = d.ibxs := rfl
@[simp] theorem Dev.modCar_out (d : Dev) (n : Nat) (f : Carriage → Carriage) : (d.modCar n f).out = d.out := rfl
@[simp] theorem Dev.modCar_free (d : Dev) (n : Nat) (f : Carriage → Carriage) : (d.modCar n f).free = d.free := rfl
@[simp] theorem Dev.modCar_svc (d : Dev) (n : Nat) (f : Carriage → Carriage) : (d.modCar n f).svc = d.svc := rfl
@[simp] theorem Dev.modCar_mc (d : Dev) (n : Nat) (f : Carriage → Carriage) : (d.modCar n f).mc = d.mc := rfl
@[simp] theorem Dev.modCar_cmt (d : Dev) (n : Nat) (f : Carriage → Carriage) : (d.modCar n f).cmt = d.cmt := rfl
@[simp] theorem Dev.modCar_mes (d : Dev) (n : Nat) (f : Carriage → Carriage) : (d.modCar n f).mes = d.mes := rfl
@[simp] theorem Dev.modCar_pw (d : Dev) (n : Nat) (f : Carriage → Carriage) : (d.modCar n f).pw = d.pw := rfl
@[simp] theorem Dev.modCar_word (d : Dev) (n : Nat) (f : Carriage → Carriage) (p : Nat) : (d.modCar n f).word p = d.word p := rfl
@[simp] theorem Dev.modCar_get (d : Dev) (n : Nat) (f : Carriage → Carriage) (g : Fld) : (d.modCar n f).get g = d.get g := rfl

@[simp] theorem Dev.modTpl_tick (d : Dev) (n : Nat) (f : Tpl → Tpl) : (d.modTpl n f).tick = d.tick := rfl
@[simp] theorem Dev.modTpl_stime (d : Dev) (n : Nat) (f : Tpl → Tpl) : (d.modTpl n f).stime = d.stime := rfl
@[simp] theorem Dev.modTpl_regs (d : Dev) (n : Nat) (f : Tpl → Tpl) : (d.modTpl n f).regs = d.regs := rfl
@[simp] theorem Dev.modTpl_heldHi (d : Dev) (n : Nat) (f : Tpl → Tpl) : (d.modTpl n f).heldHi = d.heldHi := rfl
@[simp] theorem Dev.modTpl_late (d : Dev) (n : Nat) (f : Tpl → Tpl) : (d.modTpl n f).late = d.late := rfl
@[simp] theorem Dev.modTpl_latched (d : Dev) (n : Nat) (f : Tpl → Tpl) : (d.modTpl n f).latched = d.latched := rfl
@[simp] theorem Dev.modTpl_quads (d : Dev) (n : Nat) (f : Tpl → Tpl) : (d.modTpl n f).quads = d.quads := rfl
@[simp] theorem Dev.modTpl_convs (d : Dev) (n : Nat) (f : Tpl → Tpl) : (d.modTpl n f).convs = d.convs := rfl
@[simp] theorem Dev.modTpl_xev (d : Dev) (n : Nat) (f : Tpl → Tpl) : (d.modTpl n f).xev = d.xev := rfl
@[simp] theorem Dev.modTpl_ru (d : Dev) (n : Nat) (f : Tpl → Tpl) : (d.modTpl n f).ru = d.ru := rfl
@[simp] theorem Dev.modTpl_host (d : Dev) (n : Nat) (f : Tpl → Tpl) : (d.modTpl n f).host = d.host := rfl
@[simp] theorem Dev.modTpl_tb (d : Dev) (n : Nat) (f : Tpl → Tpl) : (d.modTpl n f).tb = d.tb := rfl
@[simp] theorem Dev.modTpl_lines (d : Dev) (n : Nat) (f : Tpl → Tpl) : (d.modTpl n f).lines = d.lines := rfl
@[simp] theorem Dev.modTpl_hks (d : Dev) (n : Nat) (f : Tpl → Tpl) : (d.modTpl n f).hks = d.hks := rfl
@[simp] theorem Dev.modTpl_axes (d : Dev) (n : Nat) (f : Tpl → Tpl) : (d.modTpl n f).axes = d.axes := rfl
@[simp] theorem Dev.modTpl_msgs (d : Dev) (n : Nat) (f : Tpl → Tpl) : (d.modTpl n f).msgs = d.msgs := rfl
@[simp] theorem Dev.modTpl_emus (d : Dev) (n : Nat) (f : Tpl → Tpl) : (d.modTpl n f).emus = d.emus := rfl
@[simp] theorem Dev.modTpl_slices (d : Dev) (n : Nat) (f : Tpl → Tpl) : (d.modTpl n f).slices = d.slices := rfl
@[simp] theorem Dev.modTpl_cars (d : Dev) (n : Nat) (f : Tpl → Tpl) : (d.modTpl n f).cars = d.cars := rfl
@[simp] theorem Dev.modTpl_tcs (d : Dev) (n : Nat) (f : Tpl → Tpl) : (d.modTpl n f).tcs = d.tcs := rfl
@[simp] theorem Dev.modTpl_fes (d : Dev) (n : Nat) (f : Tpl → Tpl) : (d.modTpl n f).fes = d.fes := rfl
@[simp] theorem Dev.modTpl_ibxs (d : Dev) (n : Nat) (f : Tpl → Tpl) : (d.modTpl n f).ibxs = d.ibxs := rfl
@[simp] theorem Dev.modTpl_out (d : Dev) (n : Nat) (f : Tpl → Tpl) : (d.modTpl n f).out = d.out := rfl
@[simp] theorem Dev.modTpl_free (d : Dev) (n : Nat) (f : Tpl → Tpl) : (d.modTpl n f).free = d.free := rfl
@[simp] theorem Dev.modTpl_svc (d : Dev) (n : Nat) (f : Tpl → Tpl) : (d.modTpl n f).svc = d.svc := rfl
@[simp] theorem Dev.modTpl_mc (d : Dev) (n : Nat) (f : Tpl → Tpl) : (d.modTpl n f).mc = d.mc := rfl
@[simp] theorem Dev.modTpl_cmt (d : Dev) (n : Nat) (f : Tpl → Tpl) : (d.modTpl n f).cmt = d.cmt := rfl
@[simp] theorem Dev.modTpl_mes (d : Dev) (n : Nat) (f : Tpl → Tpl) : (d.modTpl n f).mes = d.mes := rfl
@[simp] theorem Dev.modTpl_pw (d : Dev) (n : Nat) (f : Tpl → Tpl) : (d.modTpl n f).pw = d.pw := rfl
@[simp] theorem Dev.modTpl_word (d : Dev) (n : Nat) (f : Tpl → Tpl) (p : Nat) : (d.modTpl n f).word p = d.word p := rfl
@[simp] theorem Dev.modTpl_get (d : Dev) (n : Nat) (f : Tpl → Tpl) (g : Fld) : (d.modTpl n f).get g = d.get g := rfl

@[simp] theorem Dev.modTc_tick (d : Dev) (n : Nat) (f : Tc → Tc) : (d.modTc n f).tick = d.tick := rfl
@[simp] theorem Dev.modTc_stime (d : Dev) (n : Nat) (f : Tc → Tc) : (d.modTc n f).stime = d.stime := rfl
@[simp] theorem Dev.modTc_regs (d : Dev) (n : Nat) (f : Tc → Tc) : (d.modTc n f).regs = d.regs := rfl
@[simp] theorem Dev.modTc_heldHi (d : Dev) (n : Nat) (f : Tc → Tc) : (d.modTc n f).heldHi = d.heldHi := rfl
@[simp] theorem Dev.modTc_late (d : Dev) (n : Nat) (f : Tc → Tc) : (d.modTc n f).late = d.late := rfl
@[simp] theorem Dev.modTc_latched (d : Dev) (n : Nat) (f : Tc → Tc) : (d.modTc n f).latched = d.latched := rfl
@[simp] theorem Dev.modTc_quads (d : Dev) (n : Nat) (f : Tc → Tc) : (d.modTc n f).quads = d.quads := rfl
@[simp] theorem Dev.modTc_convs (d : Dev) (n : Nat) (f : Tc → Tc) : (d.modTc n f).convs = d.convs := rfl
@[simp] theorem Dev.modTc_xev (d : Dev) (n : Nat) (f : Tc → Tc) : (d.modTc n f).xev = d.xev := rfl
@[simp] theorem Dev.modTc_ru (d : Dev) (n : Nat) (f : Tc → Tc) : (d.modTc n f).ru = d.ru := rfl
@[simp] theorem Dev.modTc_host (d : Dev) (n : Nat) (f : Tc → Tc) : (d.modTc n f).host = d.host := rfl
@[simp] theorem Dev.modTc_tb (d : Dev) (n : Nat) (f : Tc → Tc) : (d.modTc n f).tb = d.tb := rfl
@[simp] theorem Dev.modTc_lines (d : Dev) (n : Nat) (f : Tc → Tc) : (d.modTc n f).lines = d.lines := rfl
@[simp] theorem Dev.modTc_hks (d : Dev) (n : Nat) (f : Tc → Tc) : (d.modTc n f).hks = d.hks := rfl
@[simp] theorem Dev.modTc_axes (d : Dev) (n : Nat) (f : Tc → Tc) : (d.modTc n f).axes = d.axes := rfl
@[simp] theorem Dev.modTc_msgs (d : Dev) (n : Nat) (f : Tc → Tc) : (d.modTc n f).msgs = d.msgs := rfl
@[simp] theorem Dev.modTc_emus (d : Dev) (n : Nat) (f : Tc → Tc) : (d.modTc n f).emus = d.emus := rfl
@[simp] theorem Dev.modTc_slices (d : Dev) (n : Nat) (f : Tc → Tc) : (d.modTc n f).slices = d.slices := rfl
@[simp] theorem Dev.modTc_cars (d : Dev) (n : Nat) (f : Tc → Tc) : (d.modTc n f).cars = d.cars := rfl
@[simp] theorem Dev.modTc_tpls (d : Dev) (n : Nat) (f : Tc → Tc) : (d.modTc n f).tpls = d.tpls := rfl
@[simp] theorem Dev.modTc_fes (d : Dev) (n : Nat) (f : Tc → Tc) : (d.modTc n f).fes = d.fes := rfl
@[simp] theorem Dev.modTc_ibxs (d : Dev) (n : Nat) (f : Tc → Tc) : (d.modTc n f).ibxs = d.ibxs := rfl
@[simp] theorem Dev.modTc_out (d : Dev) (n : Nat) (f : Tc → Tc) : (d.modTc n f).out = d.out := rfl
@[simp] theorem Dev.modTc_free (d : Dev) (n : Nat) (f : Tc → Tc) : (d.modTc n f).free = d.free := rfl
@[simp] theorem Dev.modTc_svc (d : Dev) (n : Nat) (f : Tc → Tc) : (d.modTc n f).svc = d.svc := rfl
@[simp] theorem Dev.modTc_mc (d : Dev) (n : Nat) (f : Tc → Tc) : (d.modTc n f).mc = d.mc := rfl
@[simp] theorem Dev.modTc_cmt (d : Dev) (n : Nat) (f : Tc → Tc) : (d.modTc n f).cmt = d.cmt := rfl
@[simp] theorem Dev.modTc_mes (d : Dev) (n : Nat) (f : Tc → Tc) : (d.modTc n f).mes = d.mes := rfl
@[simp] theorem Dev.modTc_pw (d : Dev) (n : Nat) (f : Tc → Tc) : (d.modTc n f).pw = d.pw := rfl
@[simp] theorem Dev.modTc_word (d : Dev) (n : Nat) (f : Tc → Tc) (p : Nat) : (d.modTc n f).word p = d.word p := rfl
@[simp] theorem Dev.modTc_get (d : Dev) (n : Nat) (f : Tc → Tc) (g : Fld) : (d.modTc n f).get g = d.get g := rfl

@[simp] theorem Dev.modFe_tick (d : Dev) (n : Nat) (f : Fe → Fe) : (d.modFe n f).tick = d.tick := rfl
@[simp] theorem Dev.modFe_stime (d : Dev) (n : Nat) (f : Fe → Fe) : (d.modFe n f).stime = d.stime := rfl
@[simp] theorem Dev.modFe_regs (d : Dev) (n : Nat) (f : Fe → Fe) : (d.modFe n f).regs = d.regs := rfl
@[simp] theorem Dev.modFe_heldHi (d : Dev) (n : Nat) (f : Fe → Fe) : (d.modFe n f).heldHi = d.heldHi := rfl
@[simp] theorem Dev.modFe_late (d : Dev) (n : Nat) (f : Fe → Fe) : (d.modFe n f).late = d.late := rfl
@[simp] theorem Dev.modFe_latched (d : Dev) (n : Nat) (f : Fe → Fe) : (d.modFe n f).latched = d.latched := rfl
@[simp] theorem Dev.modFe_quads (d : Dev) (n : Nat) (f : Fe → Fe) : (d.modFe n f).quads = d.quads := rfl
@[simp] theorem Dev.modFe_convs (d : Dev) (n : Nat) (f : Fe → Fe) : (d.modFe n f).convs = d.convs := rfl
@[simp] theorem Dev.modFe_xev (d : Dev) (n : Nat) (f : Fe → Fe) : (d.modFe n f).xev = d.xev := rfl
@[simp] theorem Dev.modFe_ru (d : Dev) (n : Nat) (f : Fe → Fe) : (d.modFe n f).ru = d.ru := rfl
@[simp] theorem Dev.modFe_host (d : Dev) (n : Nat) (f : Fe → Fe) : (d.modFe n f).host = d.host := rfl
@[simp] theorem Dev.modFe_tb (d : Dev) (n : Nat) (f : Fe → Fe) : (d.modFe n f).tb = d.tb := rfl
@[simp] theorem Dev.modFe_lines (d : Dev) (n : Nat) (f : Fe → Fe) : (d.modFe n f).lines = d.lines := rfl
@[simp] theorem Dev.modFe_hks (d : Dev) (n : Nat) (f : Fe → Fe) : (d.modFe n f).hks = d.hks := rfl
@[simp] theorem Dev.modFe_axes (d : Dev) (n : Nat) (f : Fe → Fe) : (d.modFe n f).axes = d.axes := rfl
@[simp] theorem Dev.modFe_msgs (d : Dev) (n : Nat) (f : Fe → Fe) : (d.modFe n f).msgs = d.msgs := rfl
@[simp] theorem Dev.modFe_emus (d : Dev) (n : Nat) (f : Fe → Fe) : (d.modFe n f).emus = d.emus := rfl
@[simp] theorem Dev.modFe_slices (d : Dev) (n : Nat) (f : Fe → Fe) : (d.modFe n f).slices = d.slices := rfl
@[simp] theorem Dev.modFe_cars (d : Dev) (n : Nat) (f : Fe → Fe) : (d.modFe n f).cars = d.cars := rfl
@[simp] theorem Dev.modFe_tpls (d : Dev) (n : Nat) (f : Fe → Fe) : (d.modFe n f).tpls = d.tpls := rfl
@[simp] theorem Dev.modFe_tcs (d : Dev) (n : Nat) (f : Fe → Fe) : (d.modFe n f).tcs = d.tcs := rfl
@[simp] theorem Dev.modFe_ibxs (d : Dev) (n : Nat) (f : Fe → Fe) : (d.modFe n f).ibxs = d.ibxs := rfl
@[simp] theorem Dev.modFe_out (d : Dev) (n : Nat) (f : Fe → Fe) : (d.modFe n f).out = d.out := rfl
@[simp] theorem Dev.modFe_free (d : Dev) (n : Nat) (f : Fe → Fe) : (d.modFe n f).free = d.free := rfl
@[simp] theorem Dev.modFe_svc (d : Dev) (n : Nat) (f : Fe → Fe) : (d.modFe n f).svc = d.svc := rfl
@[simp] theorem Dev.modFe_mc (d : Dev) (n : Nat) (f : Fe → Fe) : (d.modFe n f).mc = d.mc := rfl
@[simp] theorem Dev.modFe_cmt (d : Dev) (n : Nat) (f : Fe → Fe) : (d.modFe n f).cmt = d.cmt := rfl
@[simp] theorem Dev.modFe_mes (d : Dev) (n : Nat) (f : Fe → Fe) : (d.modFe n f).mes = d.mes := rfl
@[simp] theorem Dev.modFe_pw (d : Dev) (n : Nat) (f : Fe → Fe) : (d.modFe n f).pw = d.pw := rfl
@[simp] theorem Dev.modFe_word (d : Dev) (n : Nat) (f : Fe → Fe) (p : Nat) : (d.modFe n f).word p = d.word p := rfl
@[simp] theorem Dev.modFe_get (d : Dev) (n : Nat) (f : Fe → Fe) (g : Fld) : (d.modFe n f).get g = d.get g := rfl

@[simp] theorem Dev.modMe_tick (d : Dev) (n : Nat) (f : Me → Me) : (d.modMe n f).tick = d.tick := rfl
@[simp] theorem Dev.modMe_stime (d : Dev) (n : Nat) (f : Me → Me) : (d.modMe n f).stime = d.stime := rfl
@[simp] theorem Dev.modMe_regs (d : Dev) (n : Nat) (f : Me → Me) : (d.modMe n f).regs = d.regs := rfl
@[simp] theorem Dev.modMe_heldHi (d : Dev) (n : Nat) (f : Me → Me) : (d.modMe n f).heldHi = d.heldHi := rfl
@[simp] theorem Dev.modMe_late (d : Dev) (n : Nat) (f : Me → Me) : (d.modMe n f).late = d.late := rfl
@[simp] theorem Dev.modMe_latched (d : Dev) (n : Nat) (f : Me → Me) : (d.modMe n f).latched = d.latched := rfl
@[simp] theorem Dev.modMe_quads (d : Dev) (n : Nat) (f : Me → Me) : (d.modMe n f).quads = d.quads := rfl
@[simp] theorem Dev.modMe_convs (d : Dev) (n : Nat) (f : Me → Me) : (d.modMe n f).convs = d.convs := rfl
@[simp] theorem Dev.modMe_xev (d : Dev) (n : Nat) (f : Me → Me) : (d.modMe n f).xev = d.xev := rfl
@[simp] theorem Dev.modMe_ru (d : Dev) (n : Nat) (f : Me → Me) : (d.modMe n f).ru = d.ru := rfl
@[simp] theorem Dev.modMe_host (d : Dev) (n : Nat) (f : Me → Me) : (d.modMe n f).host = d.host := rfl
@[simp] theorem Dev.modMe_tb (d : Dev) (n : Nat) (f : Me → Me) : (d.modMe n f).tb = d.tb := rfl
@[simp] theorem Dev.modMe_lines (d : Dev) (n : Nat) (f : Me → Me) : (d.modMe n f).lines = d.lines := rfl
@[simp] theorem Dev.modMe_hks (d : Dev) (n : Nat) (f : Me → Me) : (d.modMe n f).hks = d.hks := rfl
@[simp] theorem Dev.modMe_axes (d : Dev) (n : Nat) (f : Me → Me) : (d.modMe n f).axes = d.axes := rfl
@[simp] theorem Dev.modMe_msgs (d : Dev) (n : Nat) (f : Me → Me) : (d.modMe n f).msgs = d.msgs := rfl
@[simp] theorem Dev.modMe_emus (d : Dev) (n : Nat) (f : Me → Me) : (d.modMe n f).emus = d.emus := rfl
@[simp] theorem Dev.modMe_slices (d : Dev) (n : Nat) (f : Me → Me) : (d.modMe n f).slices = d.slices := rfl
@[simp] theorem Dev.modMe_cars (d : Dev) (n : Nat) (f : Me → Me) : (d.modMe n f).cars = d.cars := rfl
@[simp] theorem Dev.modMe_tpls (d : Dev) (n : Nat) (f : Me → Me) : (d.modMe n f).tpls = d.tpls := rfl
@[simp] theorem Dev.modMe_tcs (d : Dev) (n : Nat) (f : Me → Me) : (d.modMe n f).tcs = d.tcs := rfl
@[simp] theorem Dev.modMe_fes (d : Dev) (n : Nat) (f : Me → Me) : (d.modMe n f).fes = d.fes := rfl
@[simp] theorem Dev.modMe_ibxs (d : Dev) (n : Nat) (f : Me → Me) : (d.modMe n f).ibxs = d.ibxs := rfl
@[simp] theorem Dev.modMe_out (d : Dev) (n : Nat) (f : Me → Me) : (d.modMe n f).out = d.out := rfl
@[simp] theorem Dev.modMe_free (d : Dev) (n : Nat) (f : Me → Me) : (d.modMe n f).free = d.free := rfl
@[simp] theorem Dev.modMe_svc (d : Dev) (n : Nat) (f : Me → Me) : (d.modMe n f).svc = d.svc := rfl
@[simp] theorem Dev.modMe_mc (d : Dev) (n : Nat) (f : Me → Me) : (d.modMe n f).mc = d.mc := rfl
@[simp] theorem Dev.modMe_cmt (d : Dev) (n : Nat) (f : Me → Me) : (d.modMe n f).cmt = d.cmt := rfl
@[simp] theorem Dev.modMe_pw (d : Dev) (n : Nat) (f : Me → Me) : (d.modMe n f).pw = d.pw := rfl
@[simp] theorem Dev.modMe_word (d : Dev) (n : Nat) (f : Me → Me) (p : Nat) : (d.modMe n f).word p = d.word p := rfl
@[simp] theorem Dev.modMe_get (d : Dev) (n : Nat) (f : Me → Me) (g : Fld) : (d.modMe n f).get g = d.get g := rfl

@[simp] theorem Dev.modIbx_tick (d : Dev) (n : Nat) (f : Ibex → Ibex) : (d.modIbx n f).tick = d.tick := rfl
@[simp] theorem Dev.modIbx_stime (d : Dev) (n : Nat) (f : Ibex → Ibex) : (d.modIbx n f).stime = d.stime := rfl
@[simp] theorem Dev.modIbx_regs (d : Dev) (n : Nat) (f : Ibex → Ibex) : (d.modIbx n f).regs = d.regs := rfl
@[simp] theorem Dev.modIbx_heldHi (d : Dev) (n : Nat) (f : Ibex → Ibex) : (d.modIbx n f).heldHi = d.heldHi := rfl
@[simp] theorem Dev.modIbx_late (d : Dev) (n : Nat) (f : Ibex → Ibex) : (d.modIbx n f).late = d.late := rfl
@[simp] theorem Dev.modIbx_latched (d : Dev) (n : Nat) (f : Ibex → Ibex) : (d.modIbx n f).latched = d.latched := rfl
@[simp] theorem Dev.modIbx_quads (d : Dev) (n : Nat) (f : Ibex → Ibex) : (d.modIbx n f).quads = d.quads := rfl
@[simp] theorem Dev.modIbx_convs (d : Dev) (n : Nat) (f : Ibex → Ibex) : (d.modIbx n f).convs = d.convs := rfl
@[simp] theorem Dev.modIbx_xev (d : Dev) (n : Nat) (f : Ibex → Ibex) : (d.modIbx n f).xev = d.xev := rfl
@[simp] theorem Dev.modIbx_ru (d : Dev) (n : Nat) (f : Ibex → Ibex) : (d.modIbx n f).ru = d.ru := rfl
@[simp] theorem Dev.modIbx_host (d : Dev) (n : Nat) (f : Ibex → Ibex) : (d.modIbx n f).host = d.host := rfl
@[simp] theorem Dev.modIbx_tb (d : Dev) (n : Nat) (f : Ibex → Ibex) : (d.modIbx n f).tb = d.tb := rfl
@[simp] theorem Dev.modIbx_lines (d : Dev) (n : Nat) (f : Ibex → Ibex) : (d.modIbx n f).lines = d.lines := rfl
@[simp] theorem Dev.modIbx_hks (d : Dev) (n : Nat) (f : Ibex → Ibex) : (d.modIbx n f).hks = d.hks := rfl
@[simp] theorem Dev.modIbx_axes (d : Dev) (n : Nat) (f : Ibex → Ibex) : (d.modIbx n f).axes = d.axes := rfl
@[simp] theorem Dev.modIbx_msgs (d : Dev) (n : Nat) (f : Ibex → Ibex) : (d.modIbx n f).msgs = d.msgs := rfl
@[simp] theorem Dev.modIbx_emus (d : Dev) (n : Nat) (f : Ibex → Ibex) : (d.modIbx n f).emus = d.emus := rfl
@[simp] theorem Dev.modIbx_slices (d : Dev) (n : Nat) (f : Ibex → Ibex) : (d.modIbx n f).slices = d.slices := rfl
@[simp] theorem Dev.modIbx_cars (d : Dev) (n : Nat) (f : Ibex → Ibex) : (d.modIbx n f).cars = d.cars := rfl
@[simp] theorem Dev.modIbx_tpls (d : Dev) (n : Nat) (f : Ibex → Ibex) : (d.modIbx n f).tpls = d.tpls := rfl
@[simp] theorem Dev.modIbx_tcs (d : Dev) (n : Nat) (f : Ibex → Ibex) : (d.modIbx n f).tcs = d.tcs := rfl
@[simp] theorem Dev.modIbx_fes (d : Dev) (n : Nat) (f : Ibex → Ibex) : (d.modIbx n f).fes = d.fes := rfl
@[simp] theorem Dev.modIbx_out (d : Dev) (n : Nat) (f : Ibex → Ibex) : (d.modIbx n f).out = d.out := rfl
@[simp] theorem Dev.modIbx_free (d : Dev) (n : Nat) (f : Ibex → Ibex) : (d.modIbx n f).free = d.free := rfl
@[simp] theorem Dev.modIbx_svc (d : Dev) (n : Nat) (f : Ibex → Ibex) : (d.modIbx n f).svc = d.svc := rfl
@[simp] theorem Dev.modIbx_mc (d : Dev) (n : Nat) (f : Ibex → Ibex) : (d.modIbx n f).mc = d.mc := rfl
@[simp] theorem Dev.modIbx_cmt (d : Dev) (n : Nat) (f : Ibex → Ibex) : (d.modIbx n f).cmt = d.cmt := rfl
@[simp] theorem Dev.modIbx_mes (d : Dev) (n : Nat) (f : Ibex → Ibex) : (d.modIbx n f).mes = d.mes := rfl
@[simp] theorem Dev.modIbx_pw (d : Dev) (n : Nat) (f : Ibex → Ibex) : (d.modIbx n f).pw = d.pw := rfl
@[simp] theorem Dev.modIbx_word (d : Dev) (n : Nat) (f : Ibex → Ibex) (p : Nat) : (d.modIbx n f).word p = d.word p := rfl
@[simp] theorem Dev.modIbx_get (d : Dev) (n : Nat) (f : Ibex → Ibex) (g : Fld) : (d.modIbx n f).get g = d.get g := rfl

@[simp] theorem Dev.modLine_tick (d : Dev) (n : Nat) (f : Lines → Lines) : (d.modLine n f).tick = d.tick := rfl
@[simp] theorem Dev.modLine_stime (d : Dev) (n : Nat) (f : Lines → Lines) : (d.modLine n f).stime = d.stime := rfl
@[simp] theorem Dev.modLine_regs (d : Dev) (n : Nat) (f : Lines → Lines) : (d.modLine n f).regs = d.regs := rfl
@[simp] theorem Dev.modLine_heldHi (d : Dev) (n : Nat) (f : Lines → Lines) : (d.modLine n f).heldHi = d.heldHi := rfl
@[simp] theorem Dev.modLine_late (d : Dev) (n : Nat) (f : Lines → Lines) : (d.modLine n f).late = d.late := rfl
@[simp] theorem Dev.modLine_latched (d : Dev) (n : Nat) (f : Lines → Lines) : (d.modLine n f).latched = d.latched := rfl
@[simp] theorem Dev.modLine_quads (d : Dev) (n : Nat) (f : Lines → Lines) : (d.modLine n f).quads = d.quads := rfl
@[simp] theorem Dev.modLine_convs (d : Dev) (n : Nat) (f : Lines → Lines) : (d.modLine n f).convs = d.convs := rfl
@[simp] theorem Dev.modLine_xev (d : Dev) (n : Nat) (f : Lines → Lines) : (d.modLine n f).xev = d.xev := rfl
@[simp] theorem Dev.modLine_ru (d : Dev) (n : Nat) (f : Lines → Lines) : (d.modLine n f).ru = d.ru := rfl
@[simp] theorem Dev.modLine_host (d : Dev) (n : Nat) (f : Lines → Lines) : (d.modLine n f).host = d.host := rfl
@[simp] theorem Dev.modLine_tb (d : Dev) (n : Nat) (f : Lines → Lines) : (d.modLine n f).tb = d.tb := rfl
@[simp] theorem Dev.modLine_hks (d : Dev) (n : Nat) (f : Lines → Lines) : (d.modLine n f).hks = d.hks := rfl
@[simp] theorem Dev.modLine_axes (d : Dev) (n : Nat) (f : Lines → Lines) : (d.modLine n f).axes = d.axes := rfl
@[simp] theorem Dev.modLine_msgs (d : Dev) (n : Nat) (f : Lines → Lines) : (d.modLine n f).msgs = d.msgs := rfl
@[simp] theorem Dev.modLine_emus (d : Dev) (n : Nat) (f : Lines → Lines) : (d.modLine n f).emus = d.emus := rfl
@[simp] theorem Dev.modLine_slices (d : Dev) (n : Nat) (f : Lines → Lines) : (d.modLine n f).slices = d.slices := rfl
@[simp] theorem Dev.modLine_cars (d : Dev) (n : Nat) (f : Lines → Lines) : (d.modLine n f).cars = d.cars := rfl
@[simp] theorem Dev.modLine_tpls (d : Dev) (n : Nat) (f : Lines → Lines) : (d.modLine n f).tpls = d.tpls := rfl
@[simp] theorem Dev.modLine_tcs (d : Dev) (n : Nat) (f : Lines → Lines) : (d.modLine n f).tcs = d.tcs := rfl
@[simp] theorem Dev.modLine_fes (d : Dev) (n : Nat) (f : Lines → Lines) : (d.modLine n f).fes = d.fes := rfl
@[simp] theorem Dev.modLine_ibxs (d : Dev) (n : Nat) (f : Lines → Lines) : (d.modLine n f).ibxs = d.ibxs := rfl
@[simp] theorem Dev.modLine_out (d : Dev) (n : Nat) (f : Lines → Lines) : (d.modLine n f).out = d.out := rfl
@[simp] theorem Dev.modLine_free (d : Dev) (n : Nat) (f : Lines → Lines) : (d.modLine n f).free = d.free := rfl
@[simp] theorem Dev.modLine_svc (d : Dev) (n : Nat) (f : Lines → Lines) : (d.modLine n f).svc = d.svc := rfl
@[simp] theorem Dev.modLine_mc (d : Dev) (n : Nat) (f : Lines → Lines) : (d.modLine n f).mc = d.mc := rfl
@[simp] theorem Dev.modLine_cmt (d : Dev) (n : Nat) (f : Lines → Lines) : (d.modLine n f).cmt = d.cmt := rfl
@[simp] theorem Dev.modLine_mes (d : Dev) (n : Nat) (f : Lines → Lines) : (d.modLine n f).mes = d.mes := rfl
@[simp] theorem Dev.modLine_pw (d : Dev) (n : Nat) (f : Lines → Lines) : (d.modLine n f).pw = d.pw := rfl
@[simp] theorem Dev.modLine_word (d : Dev) (n : Nat) (f : Lines → Lines) (p : Nat) : (d.modLine n f).word p = d.word p := rfl
@[simp] theorem Dev.modLine_get (d : Dev) (n : Nat) (f : Lines → Lines) (g : Fld) : (d.modLine n f).get g = d.get g := rfl

@[simp] theorem Dev.modGrp_tick (d : Dev) (n : Nat) (f : Group → Group) : (d.modGrp n f).tick = d.tick := rfl
@[simp] theorem Dev.modGrp_stime (d : Dev) (n : Nat) (f : Group → Group) : (d.modGrp n f).stime = d.stime := rfl
@[simp] theorem Dev.modGrp_regs (d : Dev) (n : Nat) (f : Group → Group) : (d.modGrp n f).regs = d.regs := rfl
@[simp] theorem Dev.modGrp_heldHi (d : Dev) (n : Nat) (f : Group → Group) : (d.modGrp n f).heldHi = d.heldHi := rfl
@[simp] theorem Dev.modGrp_late (d : Dev) (n : Nat) (f : Group → Group) : (d.modGrp n f).late = d.late := rfl
@[simp] theorem Dev.modGrp_latched (d : Dev) (n : Nat) (f : Group → Group) : (d.modGrp n f).latched = d.latched := rfl
@[simp] theorem Dev.modGrp_quads (d : Dev) (n : Nat) (f : Group → Group) : (d.modGrp n f).quads = d.quads := rfl
@[simp] theorem Dev.modGrp_convs (d : Dev) (n : Nat) (f : Group → Group) : (d.modGrp n f).convs = d.convs := rfl
@[simp] theorem Dev.modGrp_xev (d : Dev) (n : Nat) (f : Group → Group) : (d.modGrp n f).xev = d.xev := rfl
@[simp] theorem Dev.modGrp_ru (d : Dev) (n : Nat) (f : Group → Group) : (d.modGrp n f).ru = d.ru := rfl
@[simp] theorem Dev.modGrp_host (d : Dev) (n : Nat) (f : Group → Group) : (d.modGrp n f).host = d.host := rfl
@[simp] theorem Dev.modGrp_tb (d : Dev) (n : Nat) (f : Group → Group) : (d.modGrp n f).tb = d.tb := rfl
@[simp] theorem Dev.modGrp_lines (d : Dev) (n : Nat) (f : Group → Group) : (d.modGrp n f).lines = d.lines := rfl
@[simp] theorem Dev.modGrp_hks (d : Dev) (n : Nat) (f : Group → Group) : (d.modGrp n f).hks = d.hks := rfl
@[simp] theorem Dev.modGrp_axes (d : Dev) (n : Nat) (f : Group → Group) : (d.modGrp n f).axes = d.axes := rfl
@[simp] theorem Dev.modGrp_msgs (d : Dev) (n : Nat) (f : Group → Group) : (d.modGrp n f).msgs = d.msgs := rfl
@[simp] theorem Dev.modGrp_emus (d : Dev) (n : Nat) (f : Group → Group) : (d.modGrp n f).emus = d.emus := rfl
@[simp] theorem Dev.modGrp_slices (d : Dev) (n : Nat) (f : Group → Group) : (d.modGrp n f).slices = d.slices := rfl
@[simp] theorem Dev.modGrp_cars (d : Dev) (n : Nat) (f : Group → Group) : (d.modGrp n f).cars = d.cars := rfl
@[simp] theorem Dev.modGrp_tpls (d : Dev) (n : Nat) (f : Group → Group) : (d.modGrp n f).tpls = d.tpls := rfl
@[simp] theorem Dev.modGrp_tcs (d : Dev) (n : Nat) (f : Group → Group) : (d.modGrp n f).tcs = d.tcs := rfl
@[simp] theorem Dev.modGrp_fes (d : Dev) (n : Nat) (f : Group → Group) : (d.modGrp n f).fes = d.fes := rfl
@[simp] theorem Dev.modGrp_ibxs (d : Dev) (n : Nat) (f : Group → Group) : (d.modGrp n f).ibxs = d.ibxs := rfl
@[simp] theorem Dev.modGrp_out (d : Dev) (n : Nat) (f : Group → Group) : (d.modGrp n f).out = d.out := rfl
@[simp] theorem Dev.modGrp_free (d : Dev) (n : Nat) (f : Group → Group) : (d.modGrp n f).free = d.free := rfl
@[simp] theorem Dev.modGrp_svc (d : Dev) (n : Nat) (f : Group → Group) : (d.modGrp n f).svc = d.svc := rfl
@[simp] theorem Dev.modGrp_mc (d : Dev) (n : Nat) (f : Group → Group) : (d.modGrp n f).mc = d.mc := rfl
@[simp] theorem Dev.modGrp_mes (d : Dev) (n : Nat) (f : Group → Group) : (d.modGrp n f).mes = d.mes := rfl
@[simp] theorem Dev.modGrp_pw (d : Dev) (n : Nat) (f : Group → Group) : (d.modGrp n f).pw = d.pw := rfl
@[simp] theorem Dev.modGrp_word (d : Dev) (n : Nat) (f : Group → Group) (p : Nat) : (d.modGrp n f).word p = d.word p := rfl
@[simp] theorem Dev.modGrp_get (d : Dev) (n : Nat) (f : Group → Group) (g : Fld) : (d.modGrp n f).get g = d.get g := rfl

@[simp] theorem Dev.modFn_tick (d : Dev) (n : Nat) (f : Func → Func) : (d.modFn n f).tick = d.tick := rfl
@[simp] theorem Dev.modFn_stime (d : Dev) (n : Nat) (f : Func → Func) : (d.modFn n f).stime = d.stime := rfl
@[simp] theorem Dev.modFn_regs (d : Dev) (n : Nat) (f : Func → Func) : (d.modFn n f).regs = d.regs := rfl
@[simp] theorem Dev.modFn_heldHi (d : Dev) (n : Nat) (f : Func → Func) : (d.modFn n f).heldHi = d.heldHi := rfl
@[simp] theorem Dev.modFn_late (d : Dev) (n : Nat) (f : Func → Func) : (d.modFn n f).late = d.late := rfl
@[simp] theorem Dev.modFn_latched (d : Dev) (n : Nat) (f : Func → Func) : (d.modFn n f).latched = d.latched := rfl
@[simp] theorem Dev.modFn_quads (d : Dev) (n : Nat) (f : Func → Func) : (d.modFn n f).quads = d.quads := rfl
@[simp] theorem Dev.modFn_convs (d : Dev) (n : Nat) (f : Func → Func) : (d.modFn n f).convs = d.convs := rfl
@[simp] theorem Dev.modFn_xev (d : Dev) (n : Nat) (f : Func → Func) : (d.modFn n f).xev = d.xev := rfl
@[simp] theorem Dev.modFn_ru (d : Dev) (n : Nat) (f : Func → Func) : (d.modFn n f).ru = d.ru := rfl
@[simp] theorem Dev.modFn_tb (d : Dev) (n : Nat) (f : Func → Func) : (d.modFn n f).tb = d.tb := rfl
@[simp] theorem Dev.modFn_lines (d : Dev) (n : Nat) (f : Func → Func) : (d.modFn n f).lines = d.lines := rfl
@[simp] theorem Dev.modFn_hks (d : Dev) (n : Nat) (f : Func → Func) : (d.modFn n f).hks = d.hks := rfl
@[simp] theorem Dev.modFn_axes (d : Dev) (n : Nat) (f : Func → Func) : (d.modFn n f).axes = d.axes := rfl
@[simp] theorem Dev.modFn_msgs (d : Dev) (n : Nat) (f : Func → Func) : (d.modFn n f).msgs = d.msgs := rfl
@[simp] theorem Dev.modFn_emus (d : Dev) (n : Nat) (f : Func → Func) : (d.modFn n f).emus = d.emus := rfl
@[simp] theorem Dev.modFn_slices (d : Dev) (n : Nat) (f : Func → Func) : (d.modFn n f).slices = d.slices := rfl
@[simp] theorem Dev.modFn_cars (d : Dev) (n : Nat) (f : Func → Func) : (d.modFn n f).cars = d.cars := rfl
@[simp] theorem Dev.modFn_tpls (d : Dev) (n : Nat) (f : Func → Func) : (d.modFn n f).tpls = d.tpls := rfl
@[simp] theorem Dev.modFn_tcs (d : Dev) (n : Nat) (f : Func → Func) : (d.modFn n f).tcs = d.tcs := rfl
@[simp] theorem Dev.modFn_fes (d : Dev) (n : Nat) (f : Func → Func) : (d.modFn n f).fes = d.fes := rfl
@[simp] theorem Dev.modFn_ibxs (d : Dev) (n : Nat) (f : Func → Func) : (d.modFn n f).ibxs = d.ibxs := rfl
@[simp] theorem Dev.modFn_out (d : Dev) (n : Nat) (f : Func → Func) : (d.modFn n f).out = d.out := rfl
@[simp] theorem Dev.modFn_free (d : Dev) (n : Nat) (f : Func → Func) : (d.modFn n f).free = d.free := rfl
@[simp] theorem Dev.modFn_svc (d : Dev) (n : Nat) (f : Func → Func) : (d.modFn n f).svc = d.svc := rfl
@[simp] theorem Dev.modFn_mc (d : Dev) (n : Nat) (f : Func → Func) : (d.modFn n f).mc = d.mc := rfl
@[simp] theorem Dev.modFn_cmt (d : Dev) (n : Nat) (f : Func → Func) : (d.modFn n f).cmt = d.cmt := rfl
@[simp] theorem Dev.modFn_mes (d : Dev) (n : Nat) (f : Func → Func) : (d.modFn n f).mes = d.mes := rfl
@[simp] theorem Dev.modFn_pw (d : Dev) (n : Nat) (f : Func → Func) : (d.modFn n f).pw = d.pw := rfl
@[simp] theorem Dev.modFn_word (d : Dev) (n : Nat) (f : Func → Func) (p : Nat) : (d.modFn n f).word p = d.word p := rfl
@[simp] theorem Dev.modFn_get (d : Dev) (n : Nat) (f : Func → Func) (g : Fld) : (d.modFn n f).get g = d.get g := rfl

@[simp] theorem Dev.modSring_tick (d : Dev) (n : Nat) (f : SRing → SRing) : (d.modSring n f).tick = d.tick := rfl
@[simp] theorem Dev.modSring_stime (d : Dev) (n : Nat) (f : SRing → SRing) : (d.modSring n f).stime = d.stime := rfl
@[simp] theorem Dev.modSring_regs (d : Dev) (n : Nat) (f : SRing → SRing) : (d.modSring n f).regs = d.regs := rfl
@[simp] theorem Dev.modSring_heldHi (d : Dev) (n : Nat) (f : SRing → SRing) : (d.modSring n f).heldHi = d.heldHi := rfl
@[simp] theorem Dev.modSring_late (d : Dev) (n : Nat) (f : SRing → SRing) : (d.modSring n f).late = d.late := rfl
@[simp] theorem Dev.modSring_latched (d : Dev) (n : Nat) (f : SRing → SRing) : (d.modSring n f).latched = d.latched := rfl
@[simp] theorem Dev.modSring_quads (d : Dev) (n : Nat) (f : SRing → SRing) : (d.modSring n f).quads = d.quads := rfl
@[simp] theorem Dev.modSring_convs (d : Dev) (n : Nat) (f : SRing → SRing) : (d.modSring n f).convs = d.convs := rfl
@[simp] theorem Dev.modSring_xev (d : Dev) (n : Nat) (f : SRing → SRing) : (d.modSring n f).xev = d.xev := rfl
@[simp] theorem Dev.modSring_ru (d : Dev) (n : Nat) (f : SRing → SRing) : (d.modSring n f).ru = d.ru := rfl
@[simp] theorem Dev.modSring_tb (d : Dev) (n : Nat) (f : SRing → SRing) : (d.modSring n f).tb = d.tb := rfl
@[simp] theorem Dev.modSring_lines (d : Dev) (n : Nat) (f : SRing → SRing) : (d.modSring n f).lines = d.lines := rfl
@[simp] theorem Dev.modSring_hks (d : Dev) (n : Nat) (f : SRing → SRing) : (d.modSring n f).hks = d.hks := rfl
@[simp] theorem Dev.modSring_axes (d : Dev) (n : Nat) (f : SRing → SRing) : (d.modSring n f).axes = d.axes := rfl
@[simp] theorem Dev.modSring_msgs (d : Dev) (n : Nat) (f : SRing → SRing) : (d.modSring n f).msgs = d.msgs := rfl
@[simp] theorem Dev.modSring_emus (d : Dev) (n : Nat) (f : SRing → SRing) : (d.modSring n f).emus = d.emus := rfl
@[simp] theorem Dev.modSring_slices (d : Dev) (n : Nat) (f : SRing → SRing) : (d.modSring n f).slices = d.slices := rfl
@[simp] theorem Dev.modSring_cars (d : Dev) (n : Nat) (f : SRing → SRing) : (d.modSring n f).cars = d.cars := rfl
@[simp] theorem Dev.modSring_tpls (d : Dev) (n : Nat) (f : SRing → SRing) : (d.modSring n f).tpls = d.tpls := rfl
@[simp] theorem Dev.modSring_tcs (d : Dev) (n : Nat) (f : SRing → SRing) : (d.modSring n f).tcs = d.tcs := rfl
@[simp] theorem Dev.modSring_fes (d : Dev) (n : Nat) (f : SRing → SRing) : (d.modSring n f).fes = d.fes := rfl
@[simp] theorem Dev.modSring_ibxs (d : Dev) (n : Nat) (f : SRing → SRing) : (d.modSring n f).ibxs = d.ibxs := rfl
@[simp] theorem Dev.modSring_out (d : Dev) (n : Nat) (f : SRing → SRing) : (d.modSring n f).out = d.out := rfl
@[simp] theorem Dev.modSring_free (d : Dev) (n : Nat) (f : SRing → SRing) : (d.modSring n f).free = d.free := rfl
@[simp] theorem Dev.modSring_svc (d : Dev) (n : Nat) (f : SRing → SRing) : (d.modSring n f).svc = d.svc := rfl
@[simp] theorem Dev.modSring_mc (d : Dev) (n : Nat) (f : SRing → SRing) : (d.modSring n f).mc = d.mc := rfl
@[simp] theorem Dev.modSring_cmt (d : Dev) (n : Nat) (f : SRing → SRing) : (d.modSring n f).cmt = d.cmt := rfl
@[simp] theorem Dev.modSring_mes (d : Dev) (n : Nat) (f : SRing → SRing) : (d.modSring n f).mes = d.mes := rfl
@[simp] theorem Dev.modSring_pw (d : Dev) (n : Nat) (f : SRing → SRing) : (d.modSring n f).pw = d.pw := rfl
@[simp] theorem Dev.modSring_word (d : Dev) (n : Nat) (f : SRing → SRing) (p : Nat) : (d.modSring n f).word p = d.word p := rfl
@[simp] theorem Dev.modSring_get (d : Dev) (n : Nat) (f : SRing → SRing) (g : Fld) : (d.modSring n f).get g = d.get g := rfl

@[simp] theorem Dev.emit_tick (d : Dev) (x : Output) : (d.emit x).tick = d.tick := rfl
@[simp] theorem Dev.emit_stime (d : Dev) (x : Output) : (d.emit x).stime = d.stime := rfl
@[simp] theorem Dev.emit_regs (d : Dev) (x : Output) : (d.emit x).regs = d.regs := rfl
@[simp] theorem Dev.emit_heldHi (d : Dev) (x : Output) : (d.emit x).heldHi = d.heldHi := rfl
@[simp] theorem Dev.emit_late (d : Dev) (x : Output) : (d.emit x).late = d.late := rfl
@[simp] theorem Dev.emit_latched (d : Dev) (x : Output) : (d.emit x).latched = d.latched := rfl
@[simp] theorem Dev.emit_quads (d : Dev) (x : Output) : (d.emit x).quads = d.quads := rfl
@[simp] theorem Dev.emit_convs (d : Dev) (x : Output) : (d.emit x).convs = d.convs := rfl
@[simp] theorem Dev.emit_xev (d : Dev) (x : Output) : (d.emit x).xev = d.xev := rfl
@[simp] theorem Dev.emit_ru (d : Dev) (x : Output) : (d.emit x).ru = d.ru := rfl
@[simp] theorem Dev.emit_host (d : Dev) (x : Output) : (d.emit x).host = d.host := rfl
@[simp] theorem Dev.emit_tb (d : Dev) (x : Output) : (d.emit x).tb = d.tb := rfl
@[simp] theorem Dev.emit_lines (d : Dev) (x : Output) : (d.emit x).lines = d.lines := rfl
@[simp] theorem Dev.emit_hks (d : Dev) (x : Output) : (d.emit x).hks = d.hks := rfl
@[simp] theorem Dev.emit_axes (d : Dev) (x : Output) : (d.emit x).axes = d.axes := rfl
@[simp] theorem Dev.emit_msgs (d : Dev) (x : Output) : (d.emit x).msgs = d.msgs := rfl
@[simp] theorem Dev.emit_emus (d : Dev) (x : Output) : (d.emit x).emus = d.emus := rfl
@[simp] theorem Dev.emit_slices (d : Dev) (x : Output) : (d.emit x).slices = d.slices := rfl
@[simp] theorem Dev.emit_cars (d : Dev) (x : Output) : (d.emit x).cars = d.cars := rfl
@[simp] theorem Dev.emit_tpls (d : Dev) (x : Output) : (d.emit x).tpls = d.tpls := rfl
@[simp] theorem Dev.emit_tcs (d : Dev) (x : Output) : (d.emit x).tcs = d.tcs := rfl
@[simp] theorem Dev.emit_fes (d : Dev) (x : Output) : (d.emit x).fes = d.fes := rfl
@[simp] theorem Dev.emit_ibxs (d : Dev) (x : Output) : (d.emit x).ibxs = d.ibxs := rfl
@[simp] theorem Dev.emit_free (d : Dev) (x : Output) : (d.emit x).free = d.free := rfl
@[simp] theorem Dev.emit_svc (d : Dev) (x : Output) : (d.emit x).svc = d.svc := rfl
@[simp] theorem Dev.emit_mc (d : Dev) (x : Output) : (d.emit x).mc = d.mc := rfl
@[simp] theorem Dev.emit_cmt (d : Dev) (x : Output) : (d.emit x).cmt = d.cmt := rfl
@[simp] theorem Dev.emit_mes (d : Dev) (x : Output) : (d.emit x).mes = d.mes := rfl
@[simp] theorem Dev.emit_pw (d : Dev) (x : Output) : (d.emit x).pw = d.pw := rfl
@[simp] theorem Dev.emit_word (d : Dev) (x : Output) (p : Nat) : (d.emit x).word p = d.word p := rfl
@[simp] theorem Dev.emit_get (d : Dev) (x : Output) (g : Fld) : (d.emit x).get g = d.get g := rfl

@[simp] theorem Dev.spineRec_tick (d : Dev) (r : Rec) : (d.spineRec r).tick = d.tick := rfl
@[simp] theorem Dev.spineRec_stime (d : Dev) (r : Rec) : (d.spineRec r).stime = d.stime := rfl
@[simp] theorem Dev.spineRec_regs (d : Dev) (r : Rec) : (d.spineRec r).regs = d.regs := rfl
@[simp] theorem Dev.spineRec_heldHi (d : Dev) (r : Rec) : (d.spineRec r).heldHi = d.heldHi := rfl
@[simp] theorem Dev.spineRec_late (d : Dev) (r : Rec) : (d.spineRec r).late = d.late := rfl
@[simp] theorem Dev.spineRec_latched (d : Dev) (r : Rec) : (d.spineRec r).latched = d.latched := rfl
@[simp] theorem Dev.spineRec_quads (d : Dev) (r : Rec) : (d.spineRec r).quads = d.quads := rfl
@[simp] theorem Dev.spineRec_convs (d : Dev) (r : Rec) : (d.spineRec r).convs = d.convs := rfl
@[simp] theorem Dev.spineRec_xev (d : Dev) (r : Rec) : (d.spineRec r).xev = d.xev := rfl
@[simp] theorem Dev.spineRec_host (d : Dev) (r : Rec) : (d.spineRec r).host = d.host := rfl
@[simp] theorem Dev.spineRec_tb (d : Dev) (r : Rec) : (d.spineRec r).tb = d.tb := rfl
@[simp] theorem Dev.spineRec_lines (d : Dev) (r : Rec) : (d.spineRec r).lines = d.lines := rfl
@[simp] theorem Dev.spineRec_hks (d : Dev) (r : Rec) : (d.spineRec r).hks = d.hks := rfl
@[simp] theorem Dev.spineRec_axes (d : Dev) (r : Rec) : (d.spineRec r).axes = d.axes := rfl
@[simp] theorem Dev.spineRec_msgs (d : Dev) (r : Rec) : (d.spineRec r).msgs = d.msgs := rfl
@[simp] theorem Dev.spineRec_emus (d : Dev) (r : Rec) : (d.spineRec r).emus = d.emus := rfl
@[simp] theorem Dev.spineRec_slices (d : Dev) (r : Rec) : (d.spineRec r).slices = d.slices := rfl
@[simp] theorem Dev.spineRec_cars (d : Dev) (r : Rec) : (d.spineRec r).cars = d.cars := rfl
@[simp] theorem Dev.spineRec_tpls (d : Dev) (r : Rec) : (d.spineRec r).tpls = d.tpls := rfl
@[simp] theorem Dev.spineRec_tcs (d : Dev) (r : Rec) : (d.spineRec r).tcs = d.tcs := rfl
@[simp] theorem Dev.spineRec_fes (d : Dev) (r : Rec) : (d.spineRec r).fes = d.fes := rfl
@[simp] theorem Dev.spineRec_ibxs (d : Dev) (r : Rec) : (d.spineRec r).ibxs = d.ibxs := rfl
@[simp] theorem Dev.spineRec_out (d : Dev) (r : Rec) : (d.spineRec r).out = d.out := rfl
@[simp] theorem Dev.spineRec_free (d : Dev) (r : Rec) : (d.spineRec r).free = d.free := rfl
@[simp] theorem Dev.spineRec_svc (d : Dev) (r : Rec) : (d.spineRec r).svc = d.svc := rfl
@[simp] theorem Dev.spineRec_mc (d : Dev) (r : Rec) : (d.spineRec r).mc = d.mc := rfl
@[simp] theorem Dev.spineRec_cmt (d : Dev) (r : Rec) : (d.spineRec r).cmt = d.cmt := rfl
@[simp] theorem Dev.spineRec_mes (d : Dev) (r : Rec) : (d.spineRec r).mes = d.mes := rfl
@[simp] theorem Dev.spineRec_pw (d : Dev) (r : Rec) : (d.spineRec r).pw = d.pw := rfl
@[simp] theorem Dev.spineRec_word (d : Dev) (r : Rec) (p : Nat) : (d.spineRec r).word p = d.word p := rfl
@[simp] theorem Dev.spineRec_get (d : Dev) (r : Rec) (g : Fld) : (d.spineRec r).get g = d.get g := rfl

/-- What a field write leaves alone, a reserved write's record leaves alone. -/
theorem Dev.reserved_keeps {α : Type} (g : Dev → α) (h : ∀ d f v, g (Dev.put d f v) = g d) (d : Dev) (o p : Nat) : g (d.reserved o p) = g d := by
  unfold Dev.reserved Dev.incSat Dev.addSat Dev.raise
  simp only [h]
  split
  · rfl
  · rw [h, h, h]

/-- What a field write, a change of the service unit and a spine record leave alone, an entry for the fault log leaves alone. -/
theorem Dev.flog_keeps {α : Type} (g : Dev → α) (h : ∀ d f v, g (Dev.put d f v) = g d) (hs : ∀ (d : Dev) x, g { d with svc := x } = g d)
    (hr : ∀ d r, g (Dev.spineRec d r) = g d) (d : Dev) (a b c e f : Nat) : g (d.flog a b c e f) = g d := by
  unfold Dev.flog
  split
  · exact hs _ _
  · exact hs _ _
  · split
    · unfold Dev.incWrap; rw [h, hs]
    · unfold Dev.spineRecNow Dev.incSat Dev.addSat; rw [hr, h, hs]

@[simp] theorem Dev.raiseRecAt_tick (d : Dev) (q s t : Nat) (r : Rec) : (d.raiseRecAt q s t r).tick = d.tick := by
  unfold Dev.raiseRecAt; split <;> rfl
@[simp] theorem Dev.raiseRec_tick (d : Dev) (q s : Nat) (r : Rec) : (d.raiseRec q s r).tick = d.tick := Dev.raiseRecAt_tick _ _ _ _ _
@[simp] theorem Dev.raiseRecAt_stime (d : Dev) (q s t : Nat) (r : Rec) : (d.raiseRecAt q s t r).stime = d.stime := by
  unfold Dev.raiseRecAt; split <;> rfl
@[simp] theorem Dev.raiseRec_stime (d : Dev) (q s : Nat) (r : Rec) : (d.raiseRec q s r).stime = d.stime := Dev.raiseRecAt_stime _ _ _ _ _
@[simp] theorem Dev.raiseRecAt_regs (d : Dev) (q s t : Nat) (r : Rec) : (d.raiseRecAt q s t r).regs = d.regs := by
  unfold Dev.raiseRecAt; split <;> rfl
@[simp] theorem Dev.raiseRec_regs (d : Dev) (q s : Nat) (r : Rec) : (d.raiseRec q s r).regs = d.regs := Dev.raiseRecAt_regs _ _ _ _ _
@[simp] theorem Dev.raiseRecAt_heldHi (d : Dev) (q s t : Nat) (r : Rec) : (d.raiseRecAt q s t r).heldHi = d.heldHi := by
  unfold Dev.raiseRecAt; split <;> rfl
@[simp] theorem Dev.raiseRec_heldHi (d : Dev) (q s : Nat) (r : Rec) : (d.raiseRec q s r).heldHi = d.heldHi := Dev.raiseRecAt_heldHi _ _ _ _ _
@[simp] theorem Dev.raiseRecAt_late (d : Dev) (q s t : Nat) (r : Rec) : (d.raiseRecAt q s t r).late = d.late := by
  unfold Dev.raiseRecAt; split <;> rfl
@[simp] theorem Dev.raiseRec_late (d : Dev) (q s : Nat) (r : Rec) : (d.raiseRec q s r).late = d.late := Dev.raiseRecAt_late _ _ _ _ _
@[simp] theorem Dev.raiseRecAt_latched (d : Dev) (q s t : Nat) (r : Rec) : (d.raiseRecAt q s t r).latched = d.latched := by
  unfold Dev.raiseRecAt; split <;> rfl
@[simp] theorem Dev.raiseRec_latched (d : Dev) (q s : Nat) (r : Rec) : (d.raiseRec q s r).latched = d.latched := Dev.raiseRecAt_latched _ _ _ _ _
@[simp] theorem Dev.raiseRecAt_convs (d : Dev) (q s t : Nat) (r : Rec) : (d.raiseRecAt q s t r).convs = d.convs := by
  unfold Dev.raiseRecAt; split <;> rfl
@[simp] theorem Dev.raiseRec_convs (d : Dev) (q s : Nat) (r : Rec) : (d.raiseRec q s r).convs = d.convs := Dev.raiseRecAt_convs _ _ _ _ _
@[simp] theorem Dev.raiseRecAt_xev (d : Dev) (q s t : Nat) (r : Rec) : (d.raiseRecAt q s t r).xev = d.xev := by
  unfold Dev.raiseRecAt; split <;> rfl
@[simp] theorem Dev.raiseRec_xev (d : Dev) (q s : Nat) (r : Rec) : (d.raiseRec q s r).xev = d.xev := Dev.raiseRecAt_xev _ _ _ _ _
@[simp] theorem Dev.raiseRecAt_ru (d : Dev) (q s t : Nat) (r : Rec) : (d.raiseRecAt q s t r).ru = d.ru := by
  unfold Dev.raiseRecAt; split <;> rfl
@[simp] theorem Dev.raiseRec_ru (d : Dev) (q s : Nat) (r : Rec) : (d.raiseRec q s r).ru = d.ru := Dev.raiseRecAt_ru _ _ _ _ _
@[simp] theorem Dev.raiseRecAt_host (d : Dev) (q s t : Nat) (r : Rec) : (d.raiseRecAt q s t r).host = d.host := by
  unfold Dev.raiseRecAt; split <;> rfl
@[simp] theorem Dev.raiseRec_host (d : Dev) (q s : Nat) (r : Rec) : (d.raiseRec q s r).host = d.host := Dev.raiseRecAt_host _ _ _ _ _
@[simp] theorem Dev.raiseRecAt_tb (d : Dev) (q s t : Nat) (r : Rec) : (d.raiseRecAt q s t r).tb = d.tb := by
  unfold Dev.raiseRecAt; split <;> rfl
@[simp] theorem Dev.raiseRec_tb (d : Dev) (q s : Nat) (r : Rec) : (d.raiseRec q s r).tb = d.tb := Dev.raiseRecAt_tb _ _ _ _ _
@[simp] theorem Dev.raiseRecAt_lines (d : Dev) (q s t : Nat) (r : Rec) : (d.raiseRecAt q s t r).lines = d.lines := by
  unfold Dev.raiseRecAt; split <;> rfl
@[simp] theorem Dev.raiseRec_lines (d : Dev) (q s : Nat) (r : Rec) : (d.raiseRec q s r).lines = d.lines := Dev.raiseRecAt_lines _ _ _ _ _
@[simp] theorem Dev.raiseRecAt_hks (d : Dev) (q s t : Nat) (r : Rec) : (d.raiseRecAt q s t r).hks = d.hks := by
  unfold Dev.raiseRecAt; split <;> rfl
@[simp] theorem Dev.raiseRec_hks (d : Dev) (q s : Nat) (r : Rec) : (d.raiseRec q s r).hks = d.hks := Dev.raiseRecAt_hks _ _ _ _ _
@[simp] theorem Dev.raiseRecAt_axes (d : Dev) (q s t : Nat) (r : Rec) : (d.raiseRecAt q s t r).axes = d.axes := by
  unfold Dev.raiseRecAt; split <;> rfl
@[simp] theorem Dev.raiseRec_axes (d : Dev) (q s : Nat) (r : Rec) : (d.raiseRec q s r).axes = d.axes := Dev.raiseRecAt_axes _ _ _ _ _
@[simp] theorem Dev.raiseRecAt_msgs (d : Dev) (q s t : Nat) (r : Rec) : (d.raiseRecAt q s t r).msgs = d.msgs := by
  unfold Dev.raiseRecAt; split <;> rfl
@[simp] theorem Dev.raiseRec_msgs (d : Dev) (q s : Nat) (r : Rec) : (d.raiseRec q s r).msgs = d.msgs := Dev.raiseRecAt_msgs _ _ _ _ _
@[simp] theorem Dev.raiseRecAt_emus (d : Dev) (q s t : Nat) (r : Rec) : (d.raiseRecAt q s t r).emus = d.emus := by
  unfold Dev.raiseRecAt; split <;> rfl
@[simp] theorem Dev.raiseRec_emus (d : Dev) (q s : Nat) (r : Rec) : (d.raiseRec q s r).emus = d.emus := Dev.raiseRecAt_emus _ _ _ _ _
@[simp] theorem Dev.raiseRecAt_slices (d : Dev) (q s t : Nat) (r : Rec) : (d.raiseRecAt q s t r).slices = d.slices := by
  unfold Dev.raiseRecAt; split <;> rfl
@[simp] theorem Dev.raiseRec_slices (d : Dev) (q s : Nat) (r : Rec) : (d.raiseRec q s r).slices = d.slices := Dev.raiseRecAt_slices _ _ _ _ _
@[simp] theorem Dev.raiseRecAt_cars (d : Dev) (q s t : Nat) (r : Rec) : (d.raiseRecAt q s t r).cars = d.cars := by
  unfold Dev.raiseRecAt; split <;> rfl
@[simp] theorem Dev.raiseRec_cars (d : Dev) (q s : Nat) (r : Rec) : (d.raiseRec q s r).cars = d.cars := Dev.raiseRecAt_cars _ _ _ _ _
@[simp] theorem Dev.raiseRecAt_tpls (d : Dev) (q s t : Nat) (r : Rec) : (d.raiseRecAt q s t r).tpls = d.tpls := by
  unfold Dev.raiseRecAt; split <;> rfl
@[simp] theorem Dev.raiseRec_tpls (d : Dev) (q s : Nat) (r : Rec) : (d.raiseRec q s r).tpls = d.tpls := Dev.raiseRecAt_tpls _ _ _ _ _
@[simp] theorem Dev.raiseRecAt_tcs (d : Dev) (q s t : Nat) (r : Rec) : (d.raiseRecAt q s t r).tcs = d.tcs := by
  unfold Dev.raiseRecAt; split <;> rfl
@[simp] theorem Dev.raiseRec_tcs (d : Dev) (q s : Nat) (r : Rec) : (d.raiseRec q s r).tcs = d.tcs := Dev.raiseRecAt_tcs _ _ _ _ _
@[simp] theorem Dev.raiseRecAt_fes (d : Dev) (q s t : Nat) (r : Rec) : (d.raiseRecAt q s t r).fes = d.fes := by
  unfold Dev.raiseRecAt; split <;> rfl
@[simp] theorem Dev.raiseRec_fes (d : Dev) (q s : Nat) (r : Rec) : (d.raiseRec q s r).fes = d.fes := Dev.raiseRecAt_fes _ _ _ _ _
@[simp] theorem Dev.raiseRecAt_ibxs (d : Dev) (q s t : Nat) (r : Rec) : (d.raiseRecAt q s t r).ibxs = d.ibxs := by
  unfold Dev.raiseRecAt; split <;> rfl
@[simp] theorem Dev.raiseRec_ibxs (d : Dev) (q s : Nat) (r : Rec) : (d.raiseRec q s r).ibxs = d.ibxs := Dev.raiseRecAt_ibxs _ _ _ _ _
@[simp] theorem Dev.raiseRecAt_out (d : Dev) (q s t : Nat) (r : Rec) : (d.raiseRecAt q s t r).out = d.out := by
  unfold Dev.raiseRecAt; split <;> rfl
@[simp] theorem Dev.raiseRec_out (d : Dev) (q s : Nat) (r : Rec) : (d.raiseRec q s r).out = d.out := Dev.raiseRecAt_out _ _ _ _ _
@[simp] theorem Dev.raiseRecAt_free (d : Dev) (q s t : Nat) (r : Rec) : (d.raiseRecAt q s t r).free = d.free := by
  unfold Dev.raiseRecAt; split <;> rfl
@[simp] theorem Dev.raiseRec_free (d : Dev) (q s : Nat) (r : Rec) : (d.raiseRec q s r).free = d.free := Dev.raiseRecAt_free _ _ _ _ _
@[simp] theorem Dev.raiseRecAt_svc (d : Dev) (q s t : Nat) (r : Rec) : (d.raiseRecAt q s t r).svc = d.svc := by
  unfold Dev.raiseRecAt; split <;> rfl
@[simp] theorem Dev.raiseRec_svc (d : Dev) (q s : Nat) (r : Rec) : (d.raiseRec q s r).svc = d.svc := Dev.raiseRecAt_svc _ _ _ _ _
@[simp] theorem Dev.raiseRecAt_mc (d : Dev) (q s t : Nat) (r : Rec) : (d.raiseRecAt q s t r).mc = d.mc := by
  unfold Dev.raiseRecAt; split <;> rfl
@[simp] theorem Dev.raiseRec_mc (d : Dev) (q s : Nat) (r : Rec) : (d.raiseRec q s r).mc = d.mc := Dev.raiseRecAt_mc _ _ _ _ _
@[simp] theorem Dev.raiseRecAt_cmt (d : Dev) (q s t : Nat) (r : Rec) : (d.raiseRecAt q s t r).cmt = d.cmt := by
  unfold Dev.raiseRecAt; split <;> rfl
@[simp] theorem Dev.raiseRec_cmt (d : Dev) (q s : Nat) (r : Rec) : (d.raiseRec q s r).cmt = d.cmt := Dev.raiseRecAt_cmt _ _ _ _ _
@[simp] theorem Dev.raiseRecAt_mes (d : Dev) (q s t : Nat) (r : Rec) : (d.raiseRecAt q s t r).mes = d.mes := by
  unfold Dev.raiseRecAt; split <;> rfl
@[simp] theorem Dev.raiseRec_mes (d : Dev) (q s : Nat) (r : Rec) : (d.raiseRec q s r).mes = d.mes := Dev.raiseRecAt_mes _ _ _ _ _
@[simp] theorem Dev.raiseRecAt_pw (d : Dev) (q s t : Nat) (r : Rec) : (d.raiseRecAt q s t r).pw = d.pw := by
  unfold Dev.raiseRecAt; split <;> rfl
@[simp] theorem Dev.raiseRec_pw (d : Dev) (q s : Nat) (r : Rec) : (d.raiseRec q s r).pw = d.pw := Dev.raiseRecAt_pw _ _ _ _ _
@[simp] theorem Dev.raiseRecAt_word (d : Dev) (q s t : Nat) (r : Rec) (x : Nat) : (d.raiseRecAt q s t r).word x = d.word x := by
  unfold Dev.raiseRecAt; split <;> rfl
@[simp] theorem Dev.raiseRec_word (d : Dev) (q s : Nat) (r : Rec) (x : Nat) : (d.raiseRec q s r).word x = d.word x := Dev.raiseRecAt_word _ _ _ _ _ _
@[simp] theorem Dev.raiseRecAt_get (d : Dev) (q s t : Nat) (r : Rec) (x : Fld) : (d.raiseRecAt q s t r).get x = d.get x := by
  unfold Dev.raiseRecAt; split <;> rfl
@[simp] theorem Dev.raiseRec_get (d : Dev) (q s : Nat) (r : Rec) (x : Fld) : (d.raiseRec q s r).get x = d.get x := Dev.raiseRecAt_get _ _ _ _ _ _

@[simp] theorem Dev.raiseEventAt_tick (d : Dev) (q s t : Nat) (a : Stamp) : (d.raiseEventAt q s t a).tick = d.tick := by unfold Dev.raiseEventAt; split <;> rfl
@[simp] theorem Dev.raiseEventAt_stime (d : Dev) (q s t : Nat) (a : Stamp) : (d.raiseEventAt q s t a).stime = d.stime := by unfold Dev.raiseEventAt; split <;> rfl
@[simp] theorem Dev.raiseEventAt_regs (d : Dev) (q s t : Nat) (a : Stamp) : (d.raiseEventAt q s t a).regs = d.regs := by unfold Dev.raiseEventAt; split <;> rfl
@[simp] theorem Dev.raiseEventAt_heldHi (d : Dev) (q s t : Nat) (a : Stamp) : (d.raiseEventAt q s t a).heldHi = d.heldHi := by unfold Dev.raiseEventAt; split <;> rfl
@[simp] theorem Dev.raiseEventAt_late (d : Dev) (q s t : Nat) (a : Stamp) : (d.raiseEventAt q s t a).late = d.late := by unfold Dev.raiseEventAt; split <;> rfl
@[simp] theorem Dev.raiseEventAt_latched (d : Dev) (q s t : Nat) (a : Stamp) : (d.raiseEventAt q s t a).latched = d.latched := by unfold Dev.raiseEventAt; split <;> rfl
@[simp] theorem Dev.raiseEventAt_quads (d : Dev) (q s t : Nat) (a : Stamp) : (d.raiseEventAt q s t a).quads = d.quads := by unfold Dev.raiseEventAt; split <;> rfl
@[simp] theorem Dev.raiseEventAt_convs (d : Dev) (q s t : Nat) (a : Stamp) : (d.raiseEventAt q s t a).convs = d.convs := by unfold Dev.raiseEventAt; split <;> rfl
@[simp] theorem Dev.raiseEventAt_ru (d : Dev) (q s t : Nat) (a : Stamp) : (d.raiseEventAt q s t a).ru = d.ru := by unfold Dev.raiseEventAt; split <;> rfl
@[simp] theorem Dev.raiseEventAt_host (d : Dev) (q s t : Nat) (a : Stamp) : (d.raiseEventAt q s t a).host = d.host := by unfold Dev.raiseEventAt; split <;> rfl
@[simp] theorem Dev.raiseEventAt_tb (d : Dev) (q s t : Nat) (a : Stamp) : (d.raiseEventAt q s t a).tb = d.tb := by unfold Dev.raiseEventAt; split <;> rfl
@[simp] theorem Dev.raiseEventAt_lines (d : Dev) (q s t : Nat) (a : Stamp) : (d.raiseEventAt q s t a).lines = d.lines := by unfold Dev.raiseEventAt; split <;> rfl
@[simp] theorem Dev.raiseEventAt_hks (d : Dev) (q s t : Nat) (a : Stamp) : (d.raiseEventAt q s t a).hks = d.hks := by unfold Dev.raiseEventAt; split <;> rfl
@[simp] theorem Dev.raiseEventAt_axes (d : Dev) (q s t : Nat) (a : Stamp) : (d.raiseEventAt q s t a).axes = d.axes := by unfold Dev.raiseEventAt; split <;> rfl
@[simp] theorem Dev.raiseEventAt_msgs (d : Dev) (q s t : Nat) (a : Stamp) : (d.raiseEventAt q s t a).msgs = d.msgs := by unfold Dev.raiseEventAt; split <;> rfl
@[simp] theorem Dev.raiseEventAt_emus (d : Dev) (q s t : Nat) (a : Stamp) : (d.raiseEventAt q s t a).emus = d.emus := by unfold Dev.raiseEventAt; split <;> rfl
@[simp] theorem Dev.raiseEventAt_slices (d : Dev) (q s t : Nat) (a : Stamp) : (d.raiseEventAt q s t a).slices = d.slices := by unfold Dev.raiseEventAt; split <;> rfl
@[simp] theorem Dev.raiseEventAt_cars (d : Dev) (q s t : Nat) (a : Stamp) : (d.raiseEventAt q s t a).cars = d.cars := by unfold Dev.raiseEventAt; split <;> rfl
@[simp] theorem Dev.raiseEventAt_tpls (d : Dev) (q s t : Nat) (a : Stamp) : (d.raiseEventAt q s t a).tpls = d.tpls := by unfold Dev.raiseEventAt; split <;> rfl
@[simp] theorem Dev.raiseEventAt_tcs (d : Dev) (q s t : Nat) (a : Stamp) : (d.raiseEventAt q s t a).tcs = d.tcs := by unfold Dev.raiseEventAt; split <;> rfl
@[simp] theorem Dev.raiseEventAt_fes (d : Dev) (q s t : Nat) (a : Stamp) : (d.raiseEventAt q s t a).fes = d.fes := by unfold Dev.raiseEventAt; split <;> rfl
@[simp] theorem Dev.raiseEventAt_ibxs (d : Dev) (q s t : Nat) (a : Stamp) : (d.raiseEventAt q s t a).ibxs = d.ibxs := by unfold Dev.raiseEventAt; split <;> rfl
@[simp] theorem Dev.raiseEventAt_out (d : Dev) (q s t : Nat) (a : Stamp) : (d.raiseEventAt q s t a).out = d.out := by unfold Dev.raiseEventAt; split <;> rfl
@[simp] theorem Dev.raiseEventAt_free (d : Dev) (q s t : Nat) (a : Stamp) : (d.raiseEventAt q s t a).free = d.free := by unfold Dev.raiseEventAt; split <;> rfl
@[simp] theorem Dev.raiseEventAt_svc (d : Dev) (q s t : Nat) (a : Stamp) : (d.raiseEventAt q s t a).svc = d.svc := by unfold Dev.raiseEventAt; split <;> rfl
@[simp] theorem Dev.raiseEventAt_mc (d : Dev) (q s t : Nat) (a : Stamp) : (d.raiseEventAt q s t a).mc = d.mc := by unfold Dev.raiseEventAt; split <;> rfl
@[simp] theorem Dev.raiseEventAt_cmt (d : Dev) (q s t : Nat) (a : Stamp) : (d.raiseEventAt q s t a).cmt = d.cmt := by unfold Dev.raiseEventAt; split <;> rfl
@[simp] theorem Dev.raiseEventAt_mes (d : Dev) (q s t : Nat) (a : Stamp) : (d.raiseEventAt q s t a).mes = d.mes := by unfold Dev.raiseEventAt; split <;> rfl
@[simp] theorem Dev.raiseEventAt_pw (d : Dev) (q s t : Nat) (a : Stamp) : (d.raiseEventAt q s t a).pw = d.pw := by unfold Dev.raiseEventAt; split <;> rfl
@[simp] theorem Dev.raiseEventAt_word (d : Dev) (q s t : Nat) (a : Stamp) (x : Nat) : (d.raiseEventAt q s t a).word x = d.word x := by unfold Dev.raiseEventAt; split <;> rfl
@[simp] theorem Dev.raiseEventAt_get (d : Dev) (q s t : Nat) (a : Stamp) (x : Fld) : (d.raiseEventAt q s t a).get x = d.get x := by unfold Dev.raiseEventAt; split <;> rfl

@[simp] theorem Dev.raiseEvent_tick (d : Dev) (q s : Nat) : (d.raiseEvent q s).tick = d.tick := by unfold Dev.raiseEvent; simp
@[simp] theorem Dev.raiseEvent_stime (d : Dev) (q s : Nat) : (d.raiseEvent q s).stime = d.stime := by unfold Dev.raiseEvent; simp
@[simp] theorem Dev.raiseEvent_regs (d : Dev) (q s : Nat) : (d.raiseEvent q s).regs = d.regs := by unfold Dev.raiseEvent; simp
@[simp] theorem Dev.raiseEvent_heldHi (d : Dev) (q s : Nat) : (d.raiseEvent q s).heldHi = d.heldHi := by unfold Dev.raiseEvent; simp
@[simp] theorem Dev.raiseEvent_late (d : Dev) (q s : Nat) : (d.raiseEvent q s).late = d.late := by unfold Dev.raiseEvent; simp
@[simp] theorem Dev.raiseEvent_latched (d : Dev) (q s : Nat) : (d.raiseEvent q s).latched = d.latched := by unfold Dev.raiseEvent; simp
@[simp] theorem Dev.raiseEvent_quads (d : Dev) (q s : Nat) : (d.raiseEvent q s).quads = d.quads := by unfold Dev.raiseEvent; simp
@[simp] theorem Dev.raiseEvent_convs (d : Dev) (q s : Nat) : (d.raiseEvent q s).convs = d.convs := by unfold Dev.raiseEvent; simp
@[simp] theorem Dev.raiseEvent_ru (d : Dev) (q s : Nat) : (d.raiseEvent q s).ru = d.ru := by unfold Dev.raiseEvent; simp
@[simp] theorem Dev.raiseEvent_host (d : Dev) (q s : Nat) : (d.raiseEvent q s).host = d.host := by unfold Dev.raiseEvent; simp
@[simp] theorem Dev.raiseEvent_tb (d : Dev) (q s : Nat) : (d.raiseEvent q s).tb = d.tb := by unfold Dev.raiseEvent; simp
@[simp] theorem Dev.raiseEvent_lines (d : Dev) (q s : Nat) : (d.raiseEvent q s).lines = d.lines := by unfold Dev.raiseEvent; simp
@[simp] theorem Dev.raiseEvent_hks (d : Dev) (q s : Nat) : (d.raiseEvent q s).hks = d.hks := by unfold Dev.raiseEvent; simp
@[simp] theorem Dev.raiseEvent_axes (d : Dev) (q s : Nat) : (d.raiseEvent q s).axes = d.axes := by unfold Dev.raiseEvent; simp
@[simp] theorem Dev.raiseEvent_msgs (d : Dev) (q s : Nat) : (d.raiseEvent q s).msgs = d.msgs := by unfold Dev.raiseEvent; simp
@[simp] theorem Dev.raiseEvent_emus (d : Dev) (q s : Nat) : (d.raiseEvent q s).emus = d.emus := by unfold Dev.raiseEvent; simp
@[simp] theorem Dev.raiseEvent_slices (d : Dev) (q s : Nat) : (d.raiseEvent q s).slices = d.slices := by unfold Dev.raiseEvent; simp
@[simp] theorem Dev.raiseEvent_cars (d : Dev) (q s : Nat) : (d.raiseEvent q s).cars = d.cars := by unfold Dev.raiseEvent; simp
@[simp] theorem Dev.raiseEvent_tpls (d : Dev) (q s : Nat) : (d.raiseEvent q s).tpls = d.tpls := by unfold Dev.raiseEvent; simp
@[simp] theorem Dev.raiseEvent_tcs (d : Dev) (q s : Nat) : (d.raiseEvent q s).tcs = d.tcs := by unfold Dev.raiseEvent; simp
@[simp] theorem Dev.raiseEvent_fes (d : Dev) (q s : Nat) : (d.raiseEvent q s).fes = d.fes := by unfold Dev.raiseEvent; simp
@[simp] theorem Dev.raiseEvent_ibxs (d : Dev) (q s : Nat) : (d.raiseEvent q s).ibxs = d.ibxs := by unfold Dev.raiseEvent; simp
@[simp] theorem Dev.raiseEvent_out (d : Dev) (q s : Nat) : (d.raiseEvent q s).out = d.out := by unfold Dev.raiseEvent; simp
@[simp] theorem Dev.raiseEvent_free (d : Dev) (q s : Nat) : (d.raiseEvent q s).free = d.free := by unfold Dev.raiseEvent; simp
@[simp] theorem Dev.raiseEvent_svc (d : Dev) (q s : Nat) : (d.raiseEvent q s).svc = d.svc := by unfold Dev.raiseEvent; simp
@[simp] theorem Dev.raiseEvent_mc (d : Dev) (q s : Nat) : (d.raiseEvent q s).mc = d.mc := by unfold Dev.raiseEvent; simp
@[simp] theorem Dev.raiseEvent_cmt (d : Dev) (q s : Nat) : (d.raiseEvent q s).cmt = d.cmt := by unfold Dev.raiseEvent; simp
@[simp] theorem Dev.raiseEvent_mes (d : Dev) (q s : Nat) : (d.raiseEvent q s).mes = d.mes := by unfold Dev.raiseEvent; simp
@[simp] theorem Dev.raiseEvent_pw (d : Dev) (q s : Nat) : (d.raiseEvent q s).pw = d.pw := by unfold Dev.raiseEvent; simp
@[simp] theorem Dev.raiseEvent_word (d : Dev) (q s : Nat) (x : Nat) : (d.raiseEvent q s).word x = d.word x := by unfold Dev.raiseEvent; simp
@[simp] theorem Dev.raiseEvent_get (d : Dev) (q s : Nat) (x : Fld) : (d.raiseEvent q s).get x = d.get x := by unfold Dev.raiseEvent; simp

@[simp] theorem Dev.spineRecNow_tick (d : Dev) (a b c e f g : Nat) : (d.spineRecNow a b c e f g).tick = d.tick := rfl
@[simp] theorem Dev.spineRecNow_stime (d : Dev) (a b c e f g : Nat) : (d.spineRecNow a b c e f g).stime = d.stime := rfl
@[simp] theorem Dev.spineRecNow_regs (d : Dev) (a b c e f g : Nat) : (d.spineRecNow a b c e f g).regs = d.regs := rfl
@[simp] theorem Dev.spineRecNow_heldHi (d : Dev) (a b c e f g : Nat) : (d.spineRecNow a b c e f g).heldHi = d.heldHi := rfl
@[simp] theorem Dev.spineRecNow_late (d : Dev) (a b c e f g : Nat) : (d.spineRecNow a b c e f g).late = d.late := rfl
@[simp] theorem Dev.spineRecNow_latched (d : Dev) (a b c e f g : Nat) : (d.spineRecNow a b c e f g).latched = d.latched := rfl
@[simp] theorem Dev.spineRecNow_quads (d : Dev) (a b c e f g : Nat) : (d.spineRecNow a b c e f g).quads = d.quads := rfl
@[simp] theorem Dev.spineRecNow_convs (d : Dev) (a b c e f g : Nat) : (d.spineRecNow a b c e f g).convs = d.convs := rfl
@[simp] theorem Dev.spineRecNow_xev (d : Dev) (a b c e f g : Nat) : (d.spineRecNow a b c e f g).xev = d.xev := rfl
@[simp] theorem Dev.spineRecNow_host (d : Dev) (a b c e f g : Nat) : (d.spineRecNow a b c e f g).host = d.host := rfl
@[simp] theorem Dev.spineRecNow_tb (d : Dev) (a b c e f g : Nat) : (d.spineRecNow a b c e f g).tb = d.tb := rfl
@[simp] theorem Dev.spineRecNow_lines (d : Dev) (a b c e f g : Nat) : (d.spineRecNow a b c e f g).lines = d.lines := rfl
@[simp] theorem Dev.spineRecNow_hks (d : Dev) (a b c e f g : Nat) : (d.spineRecNow a b c e f g).hks = d.hks := rfl
@[simp] theorem Dev.spineRecNow_axes (d : Dev) (a b c e f g : Nat) : (d.spineRecNow a b c e f g).axes = d.axes := rfl
@[simp] theorem Dev.spineRecNow_msgs (d : Dev) (a b c e f g : Nat) : (d.spineRecNow a b c e f g).msgs = d.msgs := rfl
@[simp] theorem Dev.spineRecNow_emus (d : Dev) (a b c e f g : Nat) : (d.spineRecNow a b c e f g).emus = d.emus := rfl
@[simp] theorem Dev.spineRecNow_slices (d : Dev) (a b c e f g : Nat) : (d.spineRecNow a b c e f g).slices = d.slices := rfl
@[simp] theorem Dev.spineRecNow_cars (d : Dev) (a b c e f g : Nat) : (d.spineRecNow a b c e f g).cars = d.cars := rfl
@[simp] theorem Dev.spineRecNow_tpls (d : Dev) (a b c e f g : Nat) : (d.spineRecNow a b c e f g).tpls = d.tpls := rfl
@[simp] theorem Dev.spineRecNow_tcs (d : Dev) (a b c e f g : Nat) : (d.spineRecNow a b c e f g).tcs = d.tcs := rfl
@[simp] theorem Dev.spineRecNow_fes (d : Dev) (a b c e f g : Nat) : (d.spineRecNow a b c e f g).fes = d.fes := rfl
@[simp] theorem Dev.spineRecNow_ibxs (d : Dev) (a b c e f g : Nat) : (d.spineRecNow a b c e f g).ibxs = d.ibxs := rfl
@[simp] theorem Dev.spineRecNow_out (d : Dev) (a b c e f g : Nat) : (d.spineRecNow a b c e f g).out = d.out := rfl
@[simp] theorem Dev.spineRecNow_free (d : Dev) (a b c e f g : Nat) : (d.spineRecNow a b c e f g).free = d.free := rfl
@[simp] theorem Dev.spineRecNow_svc (d : Dev) (a b c e f g : Nat) : (d.spineRecNow a b c e f g).svc = d.svc := rfl
@[simp] theorem Dev.spineRecNow_mc (d : Dev) (a b c e f g : Nat) : (d.spineRecNow a b c e f g).mc = d.mc := rfl
@[simp] theorem Dev.spineRecNow_cmt (d : Dev) (a b c e f g : Nat) : (d.spineRecNow a b c e f g).cmt = d.cmt := rfl
@[simp] theorem Dev.spineRecNow_mes (d : Dev) (a b c e f g : Nat) : (d.spineRecNow a b c e f g).mes = d.mes := rfl
@[simp] theorem Dev.spineRecNow_pw (d : Dev) (a b c e f g : Nat) : (d.spineRecNow a b c e f g).pw = d.pw := rfl
@[simp] theorem Dev.spineRecNow_word (d : Dev) (a b c e f g : Nat) (x : Nat) : (d.spineRecNow a b c e f g).word x = d.word x := rfl
@[simp] theorem Dev.spineRecNow_get (d : Dev) (a b c e f g : Nat) (x : Fld) : (d.spineRecNow a b c e f g).get x = d.get x := rfl

@[simp] theorem Dev.reserved_tick (d : Dev) (o p : Nat) : (d.reserved o p).tick = d.tick := Dev.reserved_keeps (fun x => x.tick) (fun _ _ _ => rfl) d o p
@[simp] theorem Dev.reserved_stime (d : Dev) (o p : Nat) : (d.reserved o p).stime = d.stime := Dev.reserved_keeps (fun x => x.stime) (fun _ _ _ => rfl) d o p
@[simp] theorem Dev.reserved_heldHi (d : Dev) (o p : Nat) : (d.reserved o p).heldHi = d.heldHi := Dev.reserved_keeps (fun x => x.heldHi) (fun _ _ _ => rfl) d o p
@[simp] theorem Dev.reserved_late (d : Dev) (o p : Nat) : (d.reserved o p).late = d.late := Dev.reserved_keeps (fun x => x.late) (fun _ _ _ => rfl) d o p
@[simp] theorem Dev.reserved_latched (d : Dev) (o p : Nat) : (d.reserved o p).latched = d.latched := Dev.reserved_keeps (fun x => x.latched) (fun _ _ _ => rfl) d o p
@[simp] theorem Dev.reserved_quads (d : Dev) (o p : Nat) : (d.reserved o p).quads = d.quads := Dev.reserved_keeps (fun x => x.quads) (fun _ _ _ => rfl) d o p
@[simp] theorem Dev.reserved_convs (d : Dev) (o p : Nat) : (d.reserved o p).convs = d.convs := Dev.reserved_keeps (fun x => x.convs) (fun _ _ _ => rfl) d o p
@[simp] theorem Dev.reserved_xev (d : Dev) (o p : Nat) : (d.reserved o p).xev = d.xev := Dev.reserved_keeps (fun x => x.xev) (fun _ _ _ => rfl) d o p
@[simp] theorem Dev.reserved_ru (d : Dev) (o p : Nat) : (d.reserved o p).ru = d.ru := Dev.reserved_keeps (fun x => x.ru) (fun _ _ _ => rfl) d o p
@[simp] theorem Dev.reserved_host (d : Dev) (o p : Nat) : (d.reserved o p).host = d.host := Dev.reserved_keeps (fun x => x.host) (fun _ _ _ => rfl) d o p
@[simp] theorem Dev.reserved_tb (d : Dev) (o p : Nat) : (d.reserved o p).tb = d.tb := Dev.reserved_keeps (fun x => x.tb) (fun _ _ _ => rfl) d o p
@[simp] theorem Dev.reserved_lines (d : Dev) (o p : Nat) : (d.reserved o p).lines = d.lines := Dev.reserved_keeps (fun x => x.lines) (fun _ _ _ => rfl) d o p
@[simp] theorem Dev.reserved_hks (d : Dev) (o p : Nat) : (d.reserved o p).hks = d.hks := Dev.reserved_keeps (fun x => x.hks) (fun _ _ _ => rfl) d o p
@[simp] theorem Dev.reserved_axes (d : Dev) (o p : Nat) : (d.reserved o p).axes = d.axes := Dev.reserved_keeps (fun x => x.axes) (fun _ _ _ => rfl) d o p
@[simp] theorem Dev.reserved_msgs (d : Dev) (o p : Nat) : (d.reserved o p).msgs = d.msgs := Dev.reserved_keeps (fun x => x.msgs) (fun _ _ _ => rfl) d o p
@[simp] theorem Dev.reserved_emus (d : Dev) (o p : Nat) : (d.reserved o p).emus = d.emus := Dev.reserved_keeps (fun x => x.emus) (fun _ _ _ => rfl) d o p
@[simp] theorem Dev.reserved_slices (d : Dev) (o p : Nat) : (d.reserved o p).slices = d.slices := Dev.reserved_keeps (fun x => x.slices) (fun _ _ _ => rfl) d o p
@[simp] theorem Dev.reserved_cars (d : Dev) (o p : Nat) : (d.reserved o p).cars = d.cars := Dev.reserved_keeps (fun x => x.cars) (fun _ _ _ => rfl) d o p
@[simp] theorem Dev.reserved_tpls (d : Dev) (o p : Nat) : (d.reserved o p).tpls = d.tpls := Dev.reserved_keeps (fun x => x.tpls) (fun _ _ _ => rfl) d o p
@[simp] theorem Dev.reserved_tcs (d : Dev) (o p : Nat) : (d.reserved o p).tcs = d.tcs := Dev.reserved_keeps (fun x => x.tcs) (fun _ _ _ => rfl) d o p
@[simp] theorem Dev.reserved_fes (d : Dev) (o p : Nat) : (d.reserved o p).fes = d.fes := Dev.reserved_keeps (fun x => x.fes) (fun _ _ _ => rfl) d o p
@[simp] theorem Dev.reserved_ibxs (d : Dev) (o p : Nat) : (d.reserved o p).ibxs = d.ibxs := Dev.reserved_keeps (fun x => x.ibxs) (fun _ _ _ => rfl) d o p
@[simp] theorem Dev.reserved_out (d : Dev) (o p : Nat) : (d.reserved o p).out = d.out := Dev.reserved_keeps (fun x => x.out) (fun _ _ _ => rfl) d o p
@[simp] theorem Dev.reserved_free (d : Dev) (o p : Nat) : (d.reserved o p).free = d.free := Dev.reserved_keeps (fun x => x.free) (fun _ _ _ => rfl) d o p
@[simp] theorem Dev.reserved_svc (d : Dev) (o p : Nat) : (d.reserved o p).svc = d.svc := Dev.reserved_keeps (fun x => x.svc) (fun _ _ _ => rfl) d o p
@[simp] theorem Dev.reserved_mc (d : Dev) (o p : Nat) : (d.reserved o p).mc = d.mc := Dev.reserved_keeps (fun x => x.mc) (fun _ _ _ => rfl) d o p
@[simp] theorem Dev.reserved_cmt (d : Dev) (o p : Nat) : (d.reserved o p).cmt = d.cmt := Dev.reserved_keeps (fun x => x.cmt) (fun _ _ _ => rfl) d o p
@[simp] theorem Dev.reserved_mes (d : Dev) (o p : Nat) : (d.reserved o p).mes = d.mes := Dev.reserved_keeps (fun x => x.mes) (fun _ _ _ => rfl) d o p
@[simp] theorem Dev.reserved_pw (d : Dev) (o p : Nat) : (d.reserved o p).pw = d.pw := Dev.reserved_keeps (fun x => x.pw) (fun _ _ _ => rfl) d o p

@[simp] theorem Dev.flog_tick (d : Dev) (a b c e f : Nat) : (d.flog a b c e f).tick = d.tick := Dev.flog_keeps (fun x => x.tick) (fun _ _ _ => rfl) (fun _ _ => rfl) (fun _ _ => rfl) d a b c e f
@[simp] theorem Dev.flog_stime (d : Dev) (a b c e f : Nat) : (d.flog a b c e f).stime = d.stime := Dev.flog_keeps (fun x => x.stime) (fun _ _ _ => rfl) (fun _ _ => rfl) (fun _ _ => rfl) d a b c e f
@[simp] theorem Dev.flog_heldHi (d : Dev) (a b c e f : Nat) : (d.flog a b c e f).heldHi = d.heldHi := Dev.flog_keeps (fun x => x.heldHi) (fun _ _ _ => rfl) (fun _ _ => rfl) (fun _ _ => rfl) d a b c e f
@[simp] theorem Dev.flog_late (d : Dev) (a b c e f : Nat) : (d.flog a b c e f).late = d.late := Dev.flog_keeps (fun x => x.late) (fun _ _ _ => rfl) (fun _ _ => rfl) (fun _ _ => rfl) d a b c e f
@[simp] theorem Dev.flog_latched (d : Dev) (a b c e f : Nat) : (d.flog a b c e f).latched = d.latched := Dev.flog_keeps (fun x => x.latched) (fun _ _ _ => rfl) (fun _ _ => rfl) (fun _ _ => rfl) d a b c e f
@[simp] theorem Dev.flog_quads (d : Dev) (a b c e f : Nat) : (d.flog a b c e f).quads = d.quads := Dev.flog_keeps (fun x => x.quads) (fun _ _ _ => rfl) (fun _ _ => rfl) (fun _ _ => rfl) d a b c e f
@[simp] theorem Dev.flog_convs (d : Dev) (a b c e f : Nat) : (d.flog a b c e f).convs = d.convs := Dev.flog_keeps (fun x => x.convs) (fun _ _ _ => rfl) (fun _ _ => rfl) (fun _ _ => rfl) d a b c e f
@[simp] theorem Dev.flog_xev (d : Dev) (a b c e f : Nat) : (d.flog a b c e f).xev = d.xev := Dev.flog_keeps (fun x => x.xev) (fun _ _ _ => rfl) (fun _ _ => rfl) (fun _ _ => rfl) d a b c e f
@[simp] theorem Dev.flog_host (d : Dev) (a b c e f : Nat) : (d.flog a b c e f).host = d.host := Dev.flog_keeps (fun x => x.host) (fun _ _ _ => rfl) (fun _ _ => rfl) (fun _ _ => rfl) d a b c e f
@[simp] theorem Dev.flog_tb (d : Dev) (a b c e f : Nat) : (d.flog a b c e f).tb = d.tb := Dev.flog_keeps (fun x => x.tb) (fun _ _ _ => rfl) (fun _ _ => rfl) (fun _ _ => rfl) d a b c e f
@[simp] theorem Dev.flog_lines (d : Dev) (a b c e f : Nat) : (d.flog a b c e f).lines = d.lines := Dev.flog_keeps (fun x => x.lines) (fun _ _ _ => rfl) (fun _ _ => rfl) (fun _ _ => rfl) d a b c e f
@[simp] theorem Dev.flog_hks (d : Dev) (a b c e f : Nat) : (d.flog a b c e f).hks = d.hks := Dev.flog_keeps (fun x => x.hks) (fun _ _ _ => rfl) (fun _ _ => rfl) (fun _ _ => rfl) d a b c e f
@[simp] theorem Dev.flog_axes (d : Dev) (a b c e f : Nat) : (d.flog a b c e f).axes = d.axes := Dev.flog_keeps (fun x => x.axes) (fun _ _ _ => rfl) (fun _ _ => rfl) (fun _ _ => rfl) d a b c e f
@[simp] theorem Dev.flog_msgs (d : Dev) (a b c e f : Nat) : (d.flog a b c e f).msgs = d.msgs := Dev.flog_keeps (fun x => x.msgs) (fun _ _ _ => rfl) (fun _ _ => rfl) (fun _ _ => rfl) d a b c e f
@[simp] theorem Dev.flog_emus (d : Dev) (a b c e f : Nat) : (d.flog a b c e f).emus = d.emus := Dev.flog_keeps (fun x => x.emus) (fun _ _ _ => rfl) (fun _ _ => rfl) (fun _ _ => rfl) d a b c e f
@[simp] theorem Dev.flog_slices (d : Dev) (a b c e f : Nat) : (d.flog a b c e f).slices = d.slices := Dev.flog_keeps (fun x => x.slices) (fun _ _ _ => rfl) (fun _ _ => rfl) (fun _ _ => rfl) d a b c e f
@[simp] theorem Dev.flog_cars (d : Dev) (a b c e f : Nat) : (d.flog a b c e f).cars = d.cars := Dev.flog_keeps (fun x => x.cars) (fun _ _ _ => rfl) (fun _ _ => rfl) (fun _ _ => rfl) d a b c e f
@[simp] theorem Dev.flog_tpls (d : Dev) (a b c e f : Nat) : (d.flog a b c e f).tpls = d.tpls := Dev.flog_keeps (fun x => x.tpls) (fun _ _ _ => rfl) (fun _ _ => rfl) (fun _ _ => rfl) d a b c e f
@[simp] theorem Dev.flog_tcs (d : Dev) (a b c e f : Nat) : (d.flog a b c e f).tcs = d.tcs := Dev.flog_keeps (fun x => x.tcs) (fun _ _ _ => rfl) (fun _ _ => rfl) (fun _ _ => rfl) d a b c e f
@[simp] theorem Dev.flog_fes (d : Dev) (a b c e f : Nat) : (d.flog a b c e f).fes = d.fes := Dev.flog_keeps (fun x => x.fes) (fun _ _ _ => rfl) (fun _ _ => rfl) (fun _ _ => rfl) d a b c e f
@[simp] theorem Dev.flog_ibxs (d : Dev) (a b c e f : Nat) : (d.flog a b c e f).ibxs = d.ibxs := Dev.flog_keeps (fun x => x.ibxs) (fun _ _ _ => rfl) (fun _ _ => rfl) (fun _ _ => rfl) d a b c e f
@[simp] theorem Dev.flog_out (d : Dev) (a b c e f : Nat) : (d.flog a b c e f).out = d.out := Dev.flog_keeps (fun x => x.out) (fun _ _ _ => rfl) (fun _ _ => rfl) (fun _ _ => rfl) d a b c e f
@[simp] theorem Dev.flog_free (d : Dev) (a b c e f : Nat) : (d.flog a b c e f).free = d.free := Dev.flog_keeps (fun x => x.free) (fun _ _ _ => rfl) (fun _ _ => rfl) (fun _ _ => rfl) d a b c e f
@[simp] theorem Dev.flog_mc (d : Dev) (a b c e f : Nat) : (d.flog a b c e f).mc = d.mc := Dev.flog_keeps (fun x => x.mc) (fun _ _ _ => rfl) (fun _ _ => rfl) (fun _ _ => rfl) d a b c e f
@[simp] theorem Dev.flog_cmt (d : Dev) (a b c e f : Nat) : (d.flog a b c e f).cmt = d.cmt := Dev.flog_keeps (fun x => x.cmt) (fun _ _ _ => rfl) (fun _ _ => rfl) (fun _ _ => rfl) d a b c e f
@[simp] theorem Dev.flog_mes (d : Dev) (a b c e f : Nat) : (d.flog a b c e f).mes = d.mes := Dev.flog_keeps (fun x => x.mes) (fun _ _ _ => rfl) (fun _ _ => rfl) (fun _ _ => rfl) d a b c e f
@[simp] theorem Dev.flog_pw (d : Dev) (a b c e f : Nat) : (d.flog a b c e f).pw = d.pw := Dev.flog_keeps (fun x => x.pw) (fun _ _ _ => rfl) (fun _ _ => rfl) (fun _ _ => rfl) d a b c e f

theorem Dev.flog_word (d : Dev) (a b c e f : Nat) {p : Nat} (h1 : p ≠ SVC_FLOG_SEQ) (h2 : p ≠ SVC_FLOG_LOST) :
    (d.flog a b c e f).word p = d.word p := by
  unfold Dev.flog
  split
  · rfl
  · rfl
  · split
    · unfold Dev.incWrap
      exact (Dev.word_put_ne (f := SVC_FLOG_SEQ_SEQ) _ _ h1).trans rfl
    · unfold Dev.spineRecNow Dev.incSat Dev.addSat
      rw [Dev.spineRec_word]
      exact (Dev.word_put_ne (f := SVC_FLOG_LOST_CNT) _ _ h2).trans rfl

theorem Dev.reserved_word (d : Dev) (o p : Nat) {x : Nat} (h1 : x ≠ GLB_RSVW) (h2 : x ≠ GLB_RSVWCNT) :
    (d.reserved o p).word x = d.word x := by
  unfold Dev.reserved Dev.incSat Dev.addSat Dev.raise
  refine (Dev.word_put_ne _ _ h2).trans ?_
  split
  · rfl
  · exact (Dev.word_put_ne _ _ h1).trans ((Dev.word_put_ne _ _ h1).trans (Dev.word_put_ne _ _ h1))

/-- What every step of a walk over a list leaves alone, the walk leaves alone. -/
theorem Dev.forList_keeps {α : Type} (g : Dev → α) (f : Nat → Dev → Dev) (h : ∀ n d, g (f n d) = g d) (l : List Nat) (d : Dev) :
    g (Dev.forList f l d) = g d := by
  induction l generalizing d with
  | nil => rfl
  | cons n l ih => exact (ih (f n d)).trans (h n d)

/-- A walk that sets each item of the list to a value of its own and leaves the others alone. -/
theorem Dev.forList_sets {α : Type} (G : Nat → Dev → α) (v : α) (f : Nat → Dev → Dev) (hf : ∀ n d, G n (f n d) = v)
    (hk : ∀ n m d, m ≠ n → G m (f n d) = G m d) (l : List Nat) (d : Dev) (m : Nat) (h : m ∈ l) : G m (Dev.forList f l d) = v := by
  have stay : ∀ (l : List Nat) (d : Dev), G m d = v → G m (Dev.forList f l d) = v := by
    intro l
    induction l with
    | nil => exact fun _ h => h
    | cons n l ih =>
      intro d h
      by_cases hn : m = n
      · subst hn; exact ih _ (hf m d)
      · exact ih _ ((hk n m d hn).trans h)
  induction l generalizing d with
  | nil => cases h
  | cons n l ih =>
    rcases List.mem_cons.mp h with h | h
    · subst h; exact stay l _ (hf m d)
    · exact ih _ h

/-- What is not in the list stays. -/
theorem Dev.forList_skips {α : Type} (G : Nat → Dev → α) (f : Nat → Dev → Dev) (hk : ∀ n m d, m ≠ n → G m (f n d) = G m d) (l : List Nat)
    (d : Dev) (m : Nat) (h : m ∉ l) : G m (Dev.forList f l d) = G m d := by
  induction l generalizing d with
  | nil => rfl
  | cons n l ih =>
    exact (ih (f n d) (fun c => h (List.mem_cons_of_mem _ c))).trans (hk n m d (fun c => h (c ▸ List.mem_cons_self)))

theorem forRange_keeps {σ α : Type} (g : σ → α) (f : Nat → σ → σ) (h : ∀ n d, g (f n d) = g d) (i n : Nat) (d : σ) :
    g (forRange f i n d) = g d := by
  induction n generalizing i d with
  | zero => rfl
  | succ n ih => exact (ih (i + 1) (f i d)).trans (h i d)

theorem foldl_keeps {σ α β : Type} (g : σ → α) (f : σ → β → σ) (h : ∀ d x, g (f d x) = g d) (l : List β) (d : σ) :
    g (l.foldl f d) = g d := by
  induction l generalizing d with
  | nil => rfl
  | cons x l ih => exact (ih (f d x)).trans (h d x)

/-! ## A block read after an update -/

@[simp] theorem Dev.quad_modQuad_same (d : Dev) (n : Nat) (f : Quad → Quad) : (d.modQuad n f).quad n = f (d.quad n) := Tab.get_mod_same _ _ _ _
theorem Dev.quad_modQuad_ne (d : Dev) {n m : Nat} (f : Quad → Quad) (h : m ≠ n) : (d.modQuad n f).quad m = d.quad m := Tab.get_mod_ne _ _ _ h
@[simp] theorem Dev.axis_modAxis_same (d : Dev) (n : Nat) (f : Axis → Axis) : (d.modAxis n f).axis n = f (d.axis n) := Tab.get_mod_same _ _ _ _
theorem Dev.axis_modAxis_ne (d : Dev) {n m : Nat} (f : Axis → Axis) (h : m ≠ n) : (d.modAxis n f).axis m = d.axis m := Tab.get_mod_ne _ _ _ h
@[simp] theorem Dev.emu_modEmu_same (d : Dev) (n : Nat) (f : Emu → Emu) : (d.modEmu n f).emu n = f (d.emu n) := Tab.get_mod_same _ _ _ _
theorem Dev.emu_modEmu_ne (d : Dev) {n m : Nat} (f : Emu → Emu) (h : m ≠ n) : (d.modEmu n f).emu m = d.emu m := Tab.get_mod_ne _ _ _ h
@[simp] theorem Dev.slice_modSlice_same (d : Dev) (n : Nat) (f : Slice → Slice) : (d.modSlice n f).slice n = f (d.slice n) := Tab.get_mod_same _ _ _ _
theorem Dev.slice_modSlice_ne (d : Dev) {n m : Nat} (f : Slice → Slice) (h : m ≠ n) : (d.modSlice n f).slice m = d.slice m := Tab.get_mod_ne _ _ _ h
@[simp] theorem Dev.car_modCar_same (d : Dev) (n : Nat) (f : Carriage → Carriage) : (d.modCar n f).car n = f (d.car n) := Tab.get_mod_same _ _ _ _
theorem Dev.car_modCar_ne (d : Dev) {n m : Nat} (f : Carriage → Carriage) (h : m ≠ n) : (d.modCar n f).car m = d.car m := Tab.get_mod_ne _ _ _ h
@[simp] theorem Dev.tpl_modTpl_same (d : Dev) (n : Nat) (f : Tpl → Tpl) : (d.modTpl n f).tpl n = f (d.tpl n) := Tab.get_mod_same _ _ _ _
theorem Dev.tpl_modTpl_ne (d : Dev) {n m : Nat} (f : Tpl → Tpl) (h : m ≠ n) : (d.modTpl n f).tpl m = d.tpl m := Tab.get_mod_ne _ _ _ h
@[simp] theorem Dev.tc_modTc_same (d : Dev) (n : Nat) (f : Tc → Tc) : (d.modTc n f).tc n = f (d.tc n) := Tab.get_mod_same _ _ _ _
theorem Dev.tc_modTc_ne (d : Dev) {n m : Nat} (f : Tc → Tc) (h : m ≠ n) : (d.modTc n f).tc m = d.tc m := Tab.get_mod_ne _ _ _ h
@[simp] theorem Dev.fe_modFe_same (d : Dev) (n : Nat) (f : Fe → Fe) : (d.modFe n f).fe n = f (d.fe n) := Tab.get_mod_same _ _ _ _
theorem Dev.fe_modFe_ne (d : Dev) {n m : Nat} (f : Fe → Fe) (h : m ≠ n) : (d.modFe n f).fe m = d.fe m := Tab.get_mod_ne _ _ _ h
@[simp] theorem Dev.me_modMe_same (d : Dev) (n : Nat) (f : Me → Me) : (d.modMe n f).me n = f (d.me n) := Tab.get_mod_same _ _ _ _
theorem Dev.me_modMe_ne (d : Dev) {n m : Nat} (f : Me → Me) (h : m ≠ n) : (d.modMe n f).me m = d.me m := Tab.get_mod_ne _ _ _ h
@[simp] theorem Dev.ibx_modIbx_same (d : Dev) (n : Nat) (f : Ibex → Ibex) : (d.modIbx n f).ibx n = f (d.ibx n) := Tab.get_mod_same _ _ _ _
theorem Dev.ibx_modIbx_ne (d : Dev) {n m : Nat} (f : Ibex → Ibex) (h : m ≠ n) : (d.modIbx n f).ibx m = d.ibx m := Tab.get_mod_ne _ _ _ h
@[simp] theorem Dev.line_modLine_same (d : Dev) (n : Nat) (f : Lines → Lines) : (d.modLine n f).line n = f (d.line n) := Tab.get_mod_same _ _ _ _
theorem Dev.line_modLine_ne (d : Dev) {n m : Nat} (f : Lines → Lines) (h : m ≠ n) : (d.modLine n f).line m = d.line m := Tab.get_mod_ne _ _ _ h
@[simp] theorem Dev.grp_modGrp_same (d : Dev) (n : Nat) (f : Group → Group) : (d.modGrp n f).grp n = f (d.grp n) := Tab.get_mod_same _ _ _ _
theorem Dev.grp_modGrp_ne (d : Dev) {n m : Nat} (f : Group → Group) (h : m ≠ n) : (d.modGrp n f).grp m = d.grp m := Tab.get_mod_ne _ _ _ h
@[simp] theorem Dev.fn_modFn_same (d : Dev) (n : Nat) (f : Func → Func) : (d.modFn n f).fn n = f (d.fn n) := Tab.get_mod_same _ _ _ _
theorem Dev.fn_modFn_ne (d : Dev) {n m : Nat} (f : Func → Func) (h : m ≠ n) : (d.modFn n f).fn m = d.fn m := Tab.get_mod_ne _ _ _ h
@[simp] theorem Dev.sring_modSring_same (d : Dev) (n : Nat) (f : SRing → SRing) : (d.modSring n f).sring n = f (d.sring n) := Tab.get_mod_same _ _ _ _
theorem Dev.sring_modSring_ne (d : Dev) {n m : Nat} (f : SRing → SRing) (h : m ≠ n) : (d.modSring n f).sring m = d.sring m := Tab.get_mod_ne _ _ _ h

@[simp] theorem Dev.quad_setWord (d : Dev) (o : Nat) (v : Word) (m : Nat) : (d.setWord o v).quad m = d.quad m := rfl
@[simp] theorem Dev.axis_setWord (d : Dev) (o : Nat) (v : Word) (m : Nat) : (d.setWord o v).axis m = d.axis m := rfl
@[simp] theorem Dev.emu_setWord (d : Dev) (o : Nat) (v : Word) (m : Nat) : (d.setWord o v).emu m = d.emu m := rfl
@[simp] theorem Dev.slice_setWord (d : Dev) (o : Nat) (v : Word) (m : Nat) : (d.setWord o v).slice m = d.slice m := rfl
@[simp] theorem Dev.car_setWord (d : Dev) (o : Nat) (v : Word) (m : Nat) : (d.setWord o v).car m = d.car m := rfl
@[simp] theorem Dev.tpl_setWord (d : Dev) (o : Nat) (v : Word) (m : Nat) : (d.setWord o v).tpl m = d.tpl m := rfl
@[simp] theorem Dev.tc_setWord (d : Dev) (o : Nat) (v : Word) (m : Nat) : (d.setWord o v).tc m = d.tc m := rfl
@[simp] theorem Dev.fe_setWord (d : Dev) (o : Nat) (v : Word) (m : Nat) : (d.setWord o v).fe m = d.fe m := rfl
@[simp] theorem Dev.me_setWord (d : Dev) (o : Nat) (v : Word) (m : Nat) : (d.setWord o v).me m = d.me m := rfl
@[simp] theorem Dev.ibx_setWord (d : Dev) (o : Nat) (v : Word) (m : Nat) : (d.setWord o v).ibx m = d.ibx m := rfl
@[simp] theorem Dev.line_setWord (d : Dev) (o : Nat) (v : Word) (m : Nat) : (d.setWord o v).line m = d.line m := rfl
@[simp] theorem Dev.grp_setWord (d : Dev) (o : Nat) (v : Word) (m : Nat) : (d.setWord o v).grp m = d.grp m := rfl
@[simp] theorem Dev.fn_setWord (d : Dev) (o : Nat) (v : Word) (m : Nat) : (d.setWord o v).fn m = d.fn m := rfl
@[simp] theorem Dev.sring_setWord (d : Dev) (o : Nat) (v : Word) (m : Nat) : (d.setWord o v).sring m = d.sring m := rfl
@[simp] theorem Dev.quad_put (d : Dev) (f : Fld) (v : Nat) (m : Nat) : (d.put f v).quad m = d.quad m := rfl
@[simp] theorem Dev.axis_put (d : Dev) (f : Fld) (v : Nat) (m : Nat) : (d.put f v).axis m = d.axis m := rfl
@[simp] theorem Dev.emu_put (d : Dev) (f : Fld) (v : Nat) (m : Nat) : (d.put f v).emu m = d.emu m := rfl
@[simp] theorem Dev.slice_put (d : Dev) (f : Fld) (v : Nat) (m : Nat) : (d.put f v).slice m = d.slice m := rfl
@[simp] theorem Dev.car_put (d : Dev) (f : Fld) (v : Nat) (m : Nat) : (d.put f v).car m = d.car m := rfl
@[simp] theorem Dev.tpl_put (d : Dev) (f : Fld) (v : Nat) (m : Nat) : (d.put f v).tpl m = d.tpl m := rfl
@[simp] theorem Dev.tc_put (d : Dev) (f : Fld) (v : Nat) (m : Nat) : (d.put f v).tc m = d.tc m := rfl
@[simp] theorem Dev.fe_put (d : Dev) (f : Fld) (v : Nat) (m : Nat) : (d.put f v).fe m = d.fe m := rfl
@[simp] theorem Dev.me_put (d : Dev) (f : Fld) (v : Nat) (m : Nat) : (d.put f v).me m = d.me m := rfl
@[simp] theorem Dev.ibx_put (d : Dev) (f : Fld) (v : Nat) (m : Nat) : (d.put f v).ibx m = d.ibx m := rfl
@[simp] theorem Dev.line_put (d : Dev) (f : Fld) (v : Nat) (m : Nat) : (d.put f v).line m = d.line m := rfl
@[simp] theorem Dev.grp_put (d : Dev) (f : Fld) (v : Nat) (m : Nat) : (d.put f v).grp m = d.grp m := rfl
@[simp] theorem Dev.fn_put (d : Dev) (f : Fld) (v : Nat) (m : Nat) : (d.put f v).fn m = d.fn m := rfl
@[simp] theorem Dev.sring_put (d : Dev) (f : Fld) (v : Nat) (m : Nat) : (d.put f v).sring m = d.sring m := rfl
@[simp] theorem Dev.axis_modQuad (d : Dev) (n : Nat) (f : Quad → Quad) (m : Nat) : (d.modQuad n f).axis m = d.axis m := rfl
@[simp] theorem Dev.emu_modQuad (d : Dev) (n : Nat) (f : Quad → Quad) (m : Nat) : (d.modQuad n f).emu m = d.emu m := rfl
@[simp] theorem Dev.slice_modQuad (d : Dev) (n : Nat) (f : Quad → Quad) (m : Nat) : (d.modQuad n f).slice m = d.slice m := rfl
@[simp] theorem Dev.car_modQuad (d : Dev) (n : Nat) (f : Quad → Quad) (m : Nat) : (d.modQuad n f).car m = d.car m := rfl
@[simp] theorem Dev.tpl_modQuad (d : Dev) (n : Nat) (f : Quad → Quad) (m : Nat) : (d.modQuad n f).tpl m = d.tpl m := rfl
@[simp] theorem Dev.tc_modQuad (d : Dev) (n : Nat) (f : Quad → Quad) (m : Nat) : (d.modQuad n f).tc m = d.tc m := rfl
@[simp] theorem Dev.fe_modQuad (d : Dev) (n : Nat) (f : Quad → Quad) (m : Nat) : (d.modQuad n f).fe m = d.fe m := rfl
@[simp] theorem Dev.me_modQuad (d : Dev) (n : Nat) (f : Quad → Quad) (m : Nat) : (d.modQuad n f).me m = d.me m := rfl
@[simp] theorem Dev.ibx_modQuad (d : Dev) (n : Nat) (f : Quad → Quad) (m : Nat) : (d.modQuad n f).ibx m = d.ibx m := rfl
@[simp] theorem Dev.line_modQuad (d : Dev) (n : Nat) (f : Quad → Quad) (m : Nat) : (d.modQuad n f).line m = d.line m := rfl
@[simp] theorem Dev.grp_modQuad (d : Dev) (n : Nat) (f : Quad → Quad) (m : Nat) : (d.modQuad n f).grp m = d.grp m := rfl
@[simp] theorem Dev.fn_modQuad (d : Dev) (n : Nat) (f : Quad → Quad) (m : Nat) : (d.modQuad n f).fn m = d.fn m := rfl
@[simp] theorem Dev.sring_modQuad (d : Dev) (n : Nat) (f : Quad → Quad) (m : Nat) : (d.modQuad n f).sring m = d.sring m := rfl
@[simp] theorem Dev.quad_modAxis (d : Dev) (n : Nat) (f : Axis → Axis) (m : Nat) : (d.modAxis n f).quad m = d.quad m := rfl
@[simp] theorem Dev.emu_modAxis (d : Dev) (n : Nat) (f : Axis → Axis) (m : Nat) : (d.modAxis n f).emu m = d.emu m := rfl
@[simp] theorem Dev.slice_modAxis (d : Dev) (n : Nat) (f : Axis → Axis) (m : Nat) : (d.modAxis n f).slice m = d.slice m := rfl
@[simp] theorem Dev.car_modAxis (d : Dev) (n : Nat) (f : Axis → Axis) (m : Nat) : (d.modAxis n f).car m = d.car m := rfl
@[simp] theorem Dev.tpl_modAxis (d : Dev) (n : Nat) (f : Axis → Axis) (m : Nat) : (d.modAxis n f).tpl m = d.tpl m := rfl
@[simp] theorem Dev.tc_modAxis (d : Dev) (n : Nat) (f : Axis → Axis) (m : Nat) : (d.modAxis n f).tc m = d.tc m := rfl
@[simp] theorem Dev.fe_modAxis (d : Dev) (n : Nat) (f : Axis → Axis) (m : Nat) : (d.modAxis n f).fe m = d.fe m := rfl
@[simp] theorem Dev.me_modAxis (d : Dev) (n : Nat) (f : Axis → Axis) (m : Nat) : (d.modAxis n f).me m = d.me m := rfl
@[simp] theorem Dev.ibx_modAxis (d : Dev) (n : Nat) (f : Axis → Axis) (m : Nat) : (d.modAxis n f).ibx m = d.ibx m := rfl
@[simp] theorem Dev.line_modAxis (d : Dev) (n : Nat) (f : Axis → Axis) (m : Nat) : (d.modAxis n f).line m = d.line m := rfl
@[simp] theorem Dev.grp_modAxis (d : Dev) (n : Nat) (f : Axis → Axis) (m : Nat) : (d.modAxis n f).grp m = d.grp m := rfl
@[simp] theorem Dev.fn_modAxis (d : Dev) (n : Nat) (f : Axis → Axis) (m : Nat) : (d.modAxis n f).fn m = d.fn m := rfl
@[simp] theorem Dev.sring_modAxis (d : Dev) (n : Nat) (f : Axis → Axis) (m : Nat) : (d.modAxis n f).sring m = d.sring m := rfl
@[simp] theorem Dev.quad_modEmu (d : Dev) (n : Nat) (f : Emu → Emu) (m : Nat) : (d.modEmu n f).quad m = d.quad m := rfl
@[simp] theorem Dev.axis_modEmu (d : Dev) (n : Nat) (f : Emu → Emu) (m : Nat) : (d.modEmu n f).axis m = d.axis m := rfl
@[simp] theorem Dev.slice_modEmu (d : Dev) (n : Nat) (f : Emu → Emu) (m : Nat) : (d.modEmu n f).slice m = d.slice m := rfl
@[simp] theorem Dev.car_modEmu (d : Dev) (n : Nat) (f : Emu → Emu) (m : Nat) : (d.modEmu n f).car m = d.car m := rfl
@[simp] theorem Dev.tpl_modEmu (d : Dev) (n : Nat) (f : Emu → Emu) (m : Nat) : (d.modEmu n f).tpl m = d.tpl m := rfl
@[simp] theorem Dev.tc_modEmu (d : Dev) (n : Nat) (f : Emu → Emu) (m : Nat) : (d.modEmu n f).tc m = d.tc m := rfl
@[simp] theorem Dev.fe_modEmu (d : Dev) (n : Nat) (f : Emu → Emu) (m : Nat) : (d.modEmu n f).fe m = d.fe m := rfl
@[simp] theorem Dev.me_modEmu (d : Dev) (n : Nat) (f : Emu → Emu) (m : Nat) : (d.modEmu n f).me m = d.me m := rfl
@[simp] theorem Dev.ibx_modEmu (d : Dev) (n : Nat) (f : Emu → Emu) (m : Nat) : (d.modEmu n f).ibx m = d.ibx m := rfl
@[simp] theorem Dev.line_modEmu (d : Dev) (n : Nat) (f : Emu → Emu) (m : Nat) : (d.modEmu n f).line m = d.line m := rfl
@[simp] theorem Dev.grp_modEmu (d : Dev) (n : Nat) (f : Emu → Emu) (m : Nat) : (d.modEmu n f).grp m = d.grp m := rfl
@[simp] theorem Dev.fn_modEmu (d : Dev) (n : Nat) (f : Emu → Emu) (m : Nat) : (d.modEmu n f).fn m = d.fn m := rfl
@[simp] theorem Dev.sring_modEmu (d : Dev) (n : Nat) (f : Emu → Emu) (m : Nat) : (d.modEmu n f).sring m = d.sring m := rfl
@[simp] theorem Dev.quad_modSlice (d : Dev) (n : Nat) (f : Slice → Slice) (m : Nat) : (d.modSlice n f).quad m = d.quad m := rfl
@[simp] theorem Dev.axis_modSlice (d : Dev) (n : Nat) (f : Slice → Slice) (m : Nat) : (d.modSlice n f).axis m = d.axis m := rfl
@[simp] theorem Dev.emu_modSlice (d : Dev) (n : Nat) (f : Slice → Slice) (m : Nat) : (d.modSlice n f).emu m = d.emu m := rfl
@[simp] theorem Dev.car_modSlice (d : Dev) (n : Nat) (f : Slice → Slice) (m : Nat) : (d.modSlice n f).car m = d.car m := rfl
@[simp] theorem Dev.tpl_modSlice (d : Dev) (n : Nat) (f : Slice → Slice) (m : Nat) : (d.modSlice n f).tpl m = d.tpl m := rfl
@[simp] theorem Dev.tc_modSlice (d : Dev) (n : Nat) (f : Slice → Slice) (m : Nat) : (d.modSlice n f).tc m = d.tc m := rfl
@[simp] theorem Dev.fe_modSlice (d : Dev) (n : Nat) (f : Slice → Slice) (m : Nat) : (d.modSlice n f).fe m = d.fe m := rfl
@[simp] theorem Dev.me_modSlice (d : Dev) (n : Nat) (f : Slice → Slice) (m : Nat) : (d.modSlice n f).me m = d.me m := rfl
@[simp] theorem Dev.ibx_modSlice (d : Dev) (n : Nat) (f : Slice → Slice) (m : Nat) : (d.modSlice n f).ibx m = d.ibx m := rfl
@[simp] theorem Dev.line_modSlice (d : Dev) (n : Nat) (f : Slice → Slice) (m : Nat) : (d.modSlice n f).line m = d.line m := rfl
@[simp] theorem Dev.grp_modSlice (d : Dev) (n : Nat) (f : Slice → Slice) (m : Nat) : (d.modSlice n f).grp m = d.grp m := rfl
@[simp] theorem Dev.fn_modSlice (d : Dev) (n : Nat) (f : Slice → Slice) (m : Nat) : (d.modSlice n f).fn m = d.fn m := rfl
@[simp] theorem Dev.sring_modSlice (d : Dev) (n : Nat) (f : Slice → Slice) (m : Nat) : (d.modSlice n f).sring m = d.sring m := rfl
@[simp] theorem Dev.quad_modCar (d : Dev) (n : Nat) (f : Carriage → Carriage) (m : Nat) : (d.modCar n f).quad m = d.quad m := rfl
@[simp] theorem Dev.axis_modCar (d : Dev) (n : Nat) (f : Carriage → Carriage) (m : Nat) : (d.modCar n f).axis m = d.axis m := rfl
@[simp] theorem Dev.emu_modCar (d : Dev) (n : Nat) (f : Carriage → Carriage) (m : Nat) : (d.modCar n f).emu m = d.emu m := rfl
@[simp] theorem Dev.slice_modCar (d : Dev) (n : Nat) (f : Carriage → Carriage) (m : Nat) : (d.modCar n f).slice m = d.slice m := rfl
@[simp] theorem Dev.tpl_modCar (d : Dev) (n : Nat) (f : Carriage → Carriage) (m : Nat) : (d.modCar n f).tpl m = d.tpl m := rfl
@[simp] theorem Dev.tc_modCar (d : Dev) (n : Nat) (f : Carriage → Carriage) (m : Nat) : (d.modCar n f).tc m = d.tc m := rfl
@[simp] theorem Dev.fe_modCar (d : Dev) (n : Nat) (f : Carriage → Carriage) (m : Nat) : (d.modCar n f).fe m = d.fe m := rfl
@[simp] theorem Dev.me_modCar (d : Dev) (n : Nat) (f : Carriage → Carriage) (m : Nat) : (d.modCar n f).me m = d.me m := rfl
@[simp] theorem Dev.ibx_modCar (d : Dev) (n : Nat) (f : Carriage → Carriage) (m : Nat) : (d.modCar n f).ibx m = d.ibx m := rfl
@[simp] theorem Dev.line_modCar (d : Dev) (n : Nat) (f : Carriage → Carriage) (m : Nat) : (d.modCar n f).line m = d.line m := rfl
@[simp] theorem Dev.grp_modCar (d : Dev) (n : Nat) (f : Carriage → Carriage) (m : Nat) : (d.modCar n f).grp m = d.grp m := rfl
@[simp] theorem Dev.fn_modCar (d : Dev) (n : Nat) (f : Carriage → Carriage) (m : Nat) : (d.modCar n f).fn m = d.fn m := rfl
@[simp] theorem Dev.sring_modCar (d : Dev) (n : Nat) (f : Carriage → Carriage) (m : Nat) : (d.modCar n f).sring m = d.sring m := rfl
@[simp] theorem Dev.quad_modTpl (d : Dev) (n : Nat) (f : Tpl → Tpl) (m : Nat) : (d.modTpl n f).quad m = d.quad m := rfl
@[simp] theorem Dev.axis_modTpl (d : Dev) (n : Nat) (f : Tpl → Tpl) (m : Nat) : (d.modTpl n f).axis m = d.axis m := rfl
@[simp] theorem Dev.emu_modTpl (d : Dev) (n : Nat) (f : Tpl → Tpl) (m : Nat) : (d.modTpl n f).emu m = d.emu m := rfl
@[simp] theorem Dev.slice_modTpl (d : Dev) (n : Nat) (f : Tpl → Tpl) (m : Nat) : (d.modTpl n f).slice m = d.slice m := rfl
@[simp] theorem Dev.car_modTpl (d : Dev) (n : Nat) (f : Tpl → Tpl) (m : Nat) : (d.modTpl n f).car m = d.car m := rfl
@[simp] theorem Dev.tc_modTpl (d : Dev) (n : Nat) (f : Tpl → Tpl) (m : Nat) : (d.modTpl n f).tc m = d.tc m := rfl
@[simp] theorem Dev.fe_modTpl (d : Dev) (n : Nat) (f : Tpl → Tpl) (m : Nat) : (d.modTpl n f).fe m = d.fe m := rfl
@[simp] theorem Dev.me_modTpl (d : Dev) (n : Nat) (f : Tpl → Tpl) (m : Nat) : (d.modTpl n f).me m = d.me m := rfl
@[simp] theorem Dev.ibx_modTpl (d : Dev) (n : Nat) (f : Tpl → Tpl) (m : Nat) : (d.modTpl n f).ibx m = d.ibx m := rfl
@[simp] theorem Dev.line_modTpl (d : Dev) (n : Nat) (f : Tpl → Tpl) (m : Nat) : (d.modTpl n f).line m = d.line m := rfl
@[simp] theorem Dev.grp_modTpl (d : Dev) (n : Nat) (f : Tpl → Tpl) (m : Nat) : (d.modTpl n f).grp m = d.grp m := rfl
@[simp] theorem Dev.fn_modTpl (d : Dev) (n : Nat) (f : Tpl → Tpl) (m : Nat) : (d.modTpl n f).fn m = d.fn m := rfl
@[simp] theorem Dev.sring_modTpl (d : Dev) (n : Nat) (f : Tpl → Tpl) (m : Nat) : (d.modTpl n f).sring m = d.sring m := rfl
@[simp] theorem Dev.quad_modTc (d : Dev) (n : Nat) (f : Tc → Tc) (m : Nat) : (d.modTc n f).quad m = d.quad m := rfl
@[simp] theorem Dev.axis_modTc (d : Dev) (n : Nat) (f : Tc → Tc) (m : Nat) : (d.modTc n f).axis m = d.axis m := rfl
@[simp] theorem Dev.emu_modTc (d : Dev) (n : Nat) (f : Tc → Tc) (m : Nat) : (d.modTc n f).emu m = d.emu m := rfl
@[simp] theorem Dev.slice_modTc (d : Dev) (n : Nat) (f : Tc → Tc) (m : Nat) : (d.modTc n f).slice m = d.slice m := rfl
@[simp] theorem Dev.car_modTc (d : Dev) (n : Nat) (f : Tc → Tc) (m : Nat) : (d.modTc n f).car m = d.car m := rfl
@[simp] theorem Dev.tpl_modTc (d : Dev) (n : Nat) (f : Tc → Tc) (m : Nat) : (d.modTc n f).tpl m = d.tpl m := rfl
@[simp] theorem Dev.fe_modTc (d : Dev) (n : Nat) (f : Tc → Tc) (m : Nat) : (d.modTc n f).fe m = d.fe m := rfl
@[simp] theorem Dev.me_modTc (d : Dev) (n : Nat) (f : Tc → Tc) (m : Nat) : (d.modTc n f).me m = d.me m := rfl
@[simp] theorem Dev.ibx_modTc (d : Dev) (n : Nat) (f : Tc → Tc) (m : Nat) : (d.modTc n f).ibx m = d.ibx m := rfl
@[simp] theorem Dev.line_modTc (d : Dev) (n : Nat) (f : Tc → Tc) (m : Nat) : (d.modTc n f).line m = d.line m := rfl
@[simp] theorem Dev.grp_modTc (d : Dev) (n : Nat) (f : Tc → Tc) (m : Nat) : (d.modTc n f).grp m = d.grp m := rfl
@[simp] theorem Dev.fn_modTc (d : Dev) (n : Nat) (f : Tc → Tc) (m : Nat) : (d.modTc n f).fn m = d.fn m := rfl
@[simp] theorem Dev.sring_modTc (d : Dev) (n : Nat) (f : Tc → Tc) (m : Nat) : (d.modTc n f).sring m = d.sring m := rfl
@[simp] theorem Dev.quad_modFe (d : Dev) (n : Nat) (f : Fe → Fe) (m : Nat) : (d.modFe n f).quad m = d.quad m := rfl
@[simp] theorem Dev.axis_modFe (d : Dev) (n : Nat) (f : Fe → Fe) (m : Nat) : (d.modFe n f).axis m = d.axis m := rfl
@[simp] theorem Dev.emu_modFe (d : Dev) (n : Nat) (f : Fe → Fe) (m : Nat) : (d.modFe n f).emu m = d.emu m := rfl
@[simp] theorem Dev.slice_modFe (d : Dev) (n : Nat) (f : Fe → Fe) (m : Nat) : (d.modFe n f).slice m = d.slice m := rfl
@[simp] theorem Dev.car_modFe (d : Dev) (n : Nat) (f : Fe → Fe) (m : Nat) : (d.modFe n f).car m = d.car m := rfl
@[simp] theorem Dev.tpl_modFe (d : Dev) (n : Nat) (f : Fe → Fe) (m : Nat) : (d.modFe n f).tpl m = d.tpl m := rfl
@[simp] theorem Dev.tc_modFe (d : Dev) (n : Nat) (f : Fe → Fe) (m : Nat) : (d.modFe n f).tc m = d.tc m := rfl
@[simp] theorem Dev.me_modFe (d : Dev) (n : Nat) (f : Fe → Fe) (m : Nat) : (d.modFe n f).me m = d.me m := rfl
@[simp] theorem Dev.ibx_modFe (d : Dev) (n : Nat) (f : Fe → Fe) (m : Nat) : (d.modFe n f).ibx m = d.ibx m := rfl
@[simp] theorem Dev.line_modFe (d : Dev) (n : Nat) (f : Fe → Fe) (m : Nat) : (d.modFe n f).line m = d.line m := rfl
@[simp] theorem Dev.grp_modFe (d : Dev) (n : Nat) (f : Fe → Fe) (m : Nat) : (d.modFe n f).grp m = d.grp m := rfl
@[simp] theorem Dev.fn_modFe (d : Dev) (n : Nat) (f : Fe → Fe) (m : Nat) : (d.modFe n f).fn m = d.fn m := rfl
@[simp] theorem Dev.sring_modFe (d : Dev) (n : Nat) (f : Fe → Fe) (m : Nat) : (d.modFe n f).sring m = d.sring m := rfl
@[simp] theorem Dev.quad_modMe (d : Dev) (n : Nat) (f : Me → Me) (m : Nat) : (d.modMe n f).quad m = d.quad m := rfl
@[simp] theorem Dev.axis_modMe (d : Dev) (n : Nat) (f : Me → Me) (m : Nat) : (d.modMe n f).axis m = d.axis m := rfl
@[simp] theorem Dev.emu_modMe (d : Dev) (n : Nat) (f : Me → Me) (m : Nat) : (d.modMe n f).emu m = d.emu m := rfl
@[simp] theorem Dev.slice_modMe (d : Dev) (n : Nat) (f : Me → Me) (m : Nat) : (d.modMe n f).slice m = d.slice m := rfl
@[simp] theorem Dev.car_modMe (d : Dev) (n : Nat) (f : Me → Me) (m : Nat) : (d.modMe n f).car m = d.car m := rfl
@[simp] theorem Dev.tpl_modMe (d : Dev) (n : Nat) (f : Me → Me) (m : Nat) : (d.modMe n f).tpl m = d.tpl m := rfl
@[simp] theorem Dev.tc_modMe (d : Dev) (n : Nat) (f : Me → Me) (m : Nat) : (d.modMe n f).tc m = d.tc m := rfl
@[simp] theorem Dev.fe_modMe (d : Dev) (n : Nat) (f : Me → Me) (m : Nat) : (d.modMe n f).fe m = d.fe m := rfl
@[simp] theorem Dev.ibx_modMe (d : Dev) (n : Nat) (f : Me → Me) (m : Nat) : (d.modMe n f).ibx m = d.ibx m := rfl
@[simp] theorem Dev.line_modMe (d : Dev) (n : Nat) (f : Me → Me) (m : Nat) : (d.modMe n f).line m = d.line m := rfl
@[simp] theorem Dev.grp_modMe (d : Dev) (n : Nat) (f : Me → Me) (m : Nat) : (d.modMe n f).grp m = d.grp m := rfl
@[simp] theorem Dev.fn_modMe (d : Dev) (n : Nat) (f : Me → Me) (m : Nat) : (d.modMe n f).fn m = d.fn m := rfl
@[simp] theorem Dev.sring_modMe (d : Dev) (n : Nat) (f : Me → Me) (m : Nat) : (d.modMe n f).sring m = d.sring m := rfl
@[simp] theorem Dev.quad_modIbx (d : Dev) (n : Nat) (f : Ibex → Ibex) (m : Nat) : (d.modIbx n f).quad m = d.quad m := rfl
@[simp] theorem Dev.axis_modIbx (d : Dev) (n : Nat) (f : Ibex → Ibex) (m : Nat) : (d.modIbx n f).axis m = d.axis m := rfl
@[simp] theorem Dev.emu_modIbx (d : Dev) (n : Nat) (f : Ibex → Ibex) (m : Nat) : (d.modIbx n f).emu m = d.emu m := rfl
@[simp] theorem Dev.slice_modIbx (d : Dev) (n : Nat) (f : Ibex → Ibex) (m : Nat) : (d.modIbx n f).slice m = d.slice m := rfl
@[simp] theorem Dev.car_modIbx (d : Dev) (n : Nat) (f : Ibex → Ibex) (m : Nat) : (d.modIbx n f).car m = d.car m := rfl
@[simp] theorem Dev.tpl_modIbx (d : Dev) (n : Nat) (f : Ibex → Ibex) (m : Nat) : (d.modIbx n f).tpl m = d.tpl m := rfl
@[simp] theorem Dev.tc_modIbx (d : Dev) (n : Nat) (f : Ibex → Ibex) (m : Nat) : (d.modIbx n f).tc m = d.tc m := rfl
@[simp] theorem Dev.fe_modIbx (d : Dev) (n : Nat) (f : Ibex → Ibex) (m : Nat) : (d.modIbx n f).fe m = d.fe m := rfl
@[simp] theorem Dev.me_modIbx (d : Dev) (n : Nat) (f : Ibex → Ibex) (m : Nat) : (d.modIbx n f).me m = d.me m := rfl
@[simp] theorem Dev.line_modIbx (d : Dev) (n : Nat) (f : Ibex → Ibex) (m : Nat) : (d.modIbx n f).line m = d.line m := rfl
@[simp] theorem Dev.grp_modIbx (d : Dev) (n : Nat) (f : Ibex → Ibex) (m : Nat) : (d.modIbx n f).grp m = d.grp m := rfl
@[simp] theorem Dev.fn_modIbx (d : Dev) (n : Nat) (f : Ibex → Ibex) (m : Nat) : (d.modIbx n f).fn m = d.fn m := rfl
@[simp] theorem Dev.sring_modIbx (d : Dev) (n : Nat) (f : Ibex → Ibex) (m : Nat) : (d.modIbx n f).sring m = d.sring m := rfl
@[simp] theorem Dev.quad_modLine (d : Dev) (n : Nat) (f : Lines → Lines) (m : Nat) : (d.modLine n f).quad m = d.quad m := rfl
@[simp] theorem Dev.axis_modLine (d : Dev) (n : Nat) (f : Lines → Lines) (m : Nat) : (d.modLine n f).axis m = d.axis m := rfl
@[simp] theorem Dev.emu_modLine (d : Dev) (n : Nat) (f : Lines → Lines) (m : Nat) : (d.modLine n f).emu m = d.emu m := rfl
@[simp] theorem Dev.slice_modLine (d : Dev) (n : Nat) (f : Lines → Lines) (m : Nat) : (d.modLine n f).slice m = d.slice m := rfl
@[simp] theorem Dev.car_modLine (d : Dev) (n : Nat) (f : Lines → Lines) (m : Nat) : (d.modLine n f).car m = d.car m := rfl
@[simp] theorem Dev.tpl_modLine (d : Dev) (n : Nat) (f : Lines → Lines) (m : Nat) : (d.modLine n f).tpl m = d.tpl m := rfl
@[simp] theorem Dev.tc_modLine (d : Dev) (n : Nat) (f : Lines → Lines) (m : Nat) : (d.modLine n f).tc m = d.tc m := rfl
@[simp] theorem Dev.fe_modLine (d : Dev) (n : Nat) (f : Lines → Lines) (m : Nat) : (d.modLine n f).fe m = d.fe m := rfl
@[simp] theorem Dev.me_modLine (d : Dev) (n : Nat) (f : Lines → Lines) (m : Nat) : (d.modLine n f).me m = d.me m := rfl
@[simp] theorem Dev.ibx_modLine (d : Dev) (n : Nat) (f : Lines → Lines) (m : Nat) : (d.modLine n f).ibx m = d.ibx m := rfl
@[simp] theorem Dev.grp_modLine (d : Dev) (n : Nat) (f : Lines → Lines) (m : Nat) : (d.modLine n f).grp m = d.grp m := rfl
@[simp] theorem Dev.fn_modLine (d : Dev) (n : Nat) (f : Lines → Lines) (m : Nat) : (d.modLine n f).fn m = d.fn m := rfl
@[simp] theorem Dev.sring_modLine (d : Dev) (n : Nat) (f : Lines → Lines) (m : Nat) : (d.modLine n f).sring m = d.sring m := rfl
@[simp] theorem Dev.quad_modGrp (d : Dev) (n : Nat) (f : Group → Group) (m : Nat) : (d.modGrp n f).quad m = d.quad m := rfl
@[simp] theorem Dev.axis_modGrp (d : Dev) (n : Nat) (f : Group → Group) (m : Nat) : (d.modGrp n f).axis m = d.axis m := rfl
@[simp] theorem Dev.emu_modGrp (d : Dev) (n : Nat) (f : Group → Group) (m : Nat) : (d.modGrp n f).emu m = d.emu m := rfl
@[simp] theorem Dev.slice_modGrp (d : Dev) (n : Nat) (f : Group → Group) (m : Nat) : (d.modGrp n f).slice m = d.slice m := rfl
@[simp] theorem Dev.car_modGrp (d : Dev) (n : Nat) (f : Group → Group) (m : Nat) : (d.modGrp n f).car m = d.car m := rfl
@[simp] theorem Dev.tpl_modGrp (d : Dev) (n : Nat) (f : Group → Group) (m : Nat) : (d.modGrp n f).tpl m = d.tpl m := rfl
@[simp] theorem Dev.tc_modGrp (d : Dev) (n : Nat) (f : Group → Group) (m : Nat) : (d.modGrp n f).tc m = d.tc m := rfl
@[simp] theorem Dev.fe_modGrp (d : Dev) (n : Nat) (f : Group → Group) (m : Nat) : (d.modGrp n f).fe m = d.fe m := rfl
@[simp] theorem Dev.me_modGrp (d : Dev) (n : Nat) (f : Group → Group) (m : Nat) : (d.modGrp n f).me m = d.me m := rfl
@[simp] theorem Dev.ibx_modGrp (d : Dev) (n : Nat) (f : Group → Group) (m : Nat) : (d.modGrp n f).ibx m = d.ibx m := rfl
@[simp] theorem Dev.line_modGrp (d : Dev) (n : Nat) (f : Group → Group) (m : Nat) : (d.modGrp n f).line m = d.line m := rfl
@[simp] theorem Dev.fn_modGrp (d : Dev) (n : Nat) (f : Group → Group) (m : Nat) : (d.modGrp n f).fn m = d.fn m := rfl
@[simp] theorem Dev.sring_modGrp (d : Dev) (n : Nat) (f : Group → Group) (m : Nat) : (d.modGrp n f).sring m = d.sring m := rfl
@[simp] theorem Dev.quad_modFn (d : Dev) (n : Nat) (f : Func → Func) (m : Nat) : (d.modFn n f).quad m = d.quad m := rfl
@[simp] theorem Dev.axis_modFn (d : Dev) (n : Nat) (f : Func → Func) (m : Nat) : (d.modFn n f).axis m = d.axis m := rfl
@[simp] theorem Dev.emu_modFn (d : Dev) (n : Nat) (f : Func → Func) (m : Nat) : (d.modFn n f).emu m = d.emu m := rfl
@[simp] theorem Dev.slice_modFn (d : Dev) (n : Nat) (f : Func → Func) (m : Nat) : (d.modFn n f).slice m = d.slice m := rfl
@[simp] theorem Dev.car_modFn (d : Dev) (n : Nat) (f : Func → Func) (m : Nat) : (d.modFn n f).car m = d.car m := rfl
@[simp] theorem Dev.tpl_modFn (d : Dev) (n : Nat) (f : Func → Func) (m : Nat) : (d.modFn n f).tpl m = d.tpl m := rfl
@[simp] theorem Dev.tc_modFn (d : Dev) (n : Nat) (f : Func → Func) (m : Nat) : (d.modFn n f).tc m = d.tc m := rfl
@[simp] theorem Dev.fe_modFn (d : Dev) (n : Nat) (f : Func → Func) (m : Nat) : (d.modFn n f).fe m = d.fe m := rfl
@[simp] theorem Dev.me_modFn (d : Dev) (n : Nat) (f : Func → Func) (m : Nat) : (d.modFn n f).me m = d.me m := rfl
@[simp] theorem Dev.ibx_modFn (d : Dev) (n : Nat) (f : Func → Func) (m : Nat) : (d.modFn n f).ibx m = d.ibx m := rfl
@[simp] theorem Dev.line_modFn (d : Dev) (n : Nat) (f : Func → Func) (m : Nat) : (d.modFn n f).line m = d.line m := rfl
@[simp] theorem Dev.grp_modFn (d : Dev) (n : Nat) (f : Func → Func) (m : Nat) : (d.modFn n f).grp m = d.grp m := rfl
@[simp] theorem Dev.sring_modFn (d : Dev) (n : Nat) (f : Func → Func) (m : Nat) : (d.modFn n f).sring m = d.sring m := rfl
@[simp] theorem Dev.quad_modSring (d : Dev) (n : Nat) (f : SRing → SRing) (m : Nat) : (d.modSring n f).quad m = d.quad m := rfl
@[simp] theorem Dev.axis_modSring (d : Dev) (n : Nat) (f : SRing → SRing) (m : Nat) : (d.modSring n f).axis m = d.axis m := rfl
@[simp] theorem Dev.emu_modSring (d : Dev) (n : Nat) (f : SRing → SRing) (m : Nat) : (d.modSring n f).emu m = d.emu m := rfl
@[simp] theorem Dev.slice_modSring (d : Dev) (n : Nat) (f : SRing → SRing) (m : Nat) : (d.modSring n f).slice m = d.slice m := rfl
@[simp] theorem Dev.car_modSring (d : Dev) (n : Nat) (f : SRing → SRing) (m : Nat) : (d.modSring n f).car m = d.car m := rfl
@[simp] theorem Dev.tpl_modSring (d : Dev) (n : Nat) (f : SRing → SRing) (m : Nat) : (d.modSring n f).tpl m = d.tpl m := rfl
@[simp] theorem Dev.tc_modSring (d : Dev) (n : Nat) (f : SRing → SRing) (m : Nat) : (d.modSring n f).tc m = d.tc m := rfl
@[simp] theorem Dev.fe_modSring (d : Dev) (n : Nat) (f : SRing → SRing) (m : Nat) : (d.modSring n f).fe m = d.fe m := rfl
@[simp] theorem Dev.me_modSring (d : Dev) (n : Nat) (f : SRing → SRing) (m : Nat) : (d.modSring n f).me m = d.me m := rfl
@[simp] theorem Dev.ibx_modSring (d : Dev) (n : Nat) (f : SRing → SRing) (m : Nat) : (d.modSring n f).ibx m = d.ibx m := rfl
@[simp] theorem Dev.line_modSring (d : Dev) (n : Nat) (f : SRing → SRing) (m : Nat) : (d.modSring n f).line m = d.line m := rfl
@[simp] theorem Dev.grp_modSring (d : Dev) (n : Nat) (f : SRing → SRing) (m : Nat) : (d.modSring n f).grp m = d.grp m := rfl
@[simp] theorem Dev.fn_modSring (d : Dev) (n : Nat) (f : SRing → SRing) (m : Nat) : (d.modSring n f).fn m = d.fn m := rfl
@[simp] theorem Dev.quad_emit (d : Dev) (x : Output) (m : Nat) : (d.emit x).quad m = d.quad m := rfl
@[simp] theorem Dev.axis_emit (d : Dev) (x : Output) (m : Nat) : (d.emit x).axis m = d.axis m := rfl
@[simp] theorem Dev.emu_emit (d : Dev) (x : Output) (m : Nat) : (d.emit x).emu m = d.emu m := rfl
@[simp] theorem Dev.slice_emit (d : Dev) (x : Output) (m : Nat) : (d.emit x).slice m = d.slice m := rfl
@[simp] theorem Dev.car_emit (d : Dev) (x : Output) (m : Nat) : (d.emit x).car m = d.car m := rfl
@[simp] theorem Dev.tpl_emit (d : Dev) (x : Output) (m : Nat) : (d.emit x).tpl m = d.tpl m := rfl
@[simp] theorem Dev.tc_emit (d : Dev) (x : Output) (m : Nat) : (d.emit x).tc m = d.tc m := rfl
@[simp] theorem Dev.fe_emit (d : Dev) (x : Output) (m : Nat) : (d.emit x).fe m = d.fe m := rfl
@[simp] theorem Dev.me_emit (d : Dev) (x : Output) (m : Nat) : (d.emit x).me m = d.me m := rfl
@[simp] theorem Dev.ibx_emit (d : Dev) (x : Output) (m : Nat) : (d.emit x).ibx m = d.ibx m := rfl
@[simp] theorem Dev.line_emit (d : Dev) (x : Output) (m : Nat) : (d.emit x).line m = d.line m := rfl
@[simp] theorem Dev.grp_emit (d : Dev) (x : Output) (m : Nat) : (d.emit x).grp m = d.grp m := rfl
@[simp] theorem Dev.fn_emit (d : Dev) (x : Output) (m : Nat) : (d.emit x).fn m = d.fn m := rfl
@[simp] theorem Dev.sring_emit (d : Dev) (x : Output) (m : Nat) : (d.emit x).sring m = d.sring m := rfl
@[simp] theorem Dev.quad_spineRec (d : Dev) (r : Rec) (m : Nat) : (d.spineRec r).quad m = d.quad m := rfl
@[simp] theorem Dev.axis_spineRec (d : Dev) (r : Rec) (m : Nat) : (d.spineRec r).axis m = d.axis m := rfl
@[simp] theorem Dev.emu_spineRec (d : Dev) (r : Rec) (m : Nat) : (d.spineRec r).emu m = d.emu m := rfl
@[simp] theorem Dev.slice_spineRec (d : Dev) (r : Rec) (m : Nat) : (d.spineRec r).slice m = d.slice m := rfl
@[simp] theorem Dev.car_spineRec (d : Dev) (r : Rec) (m : Nat) : (d.spineRec r).car m = d.car m := rfl
@[simp] theorem Dev.tpl_spineRec (d : Dev) (r : Rec) (m : Nat) : (d.spineRec r).tpl m = d.tpl m := rfl
@[simp] theorem Dev.tc_spineRec (d : Dev) (r : Rec) (m : Nat) : (d.spineRec r).tc m = d.tc m := rfl
@[simp] theorem Dev.fe_spineRec (d : Dev) (r : Rec) (m : Nat) : (d.spineRec r).fe m = d.fe m := rfl
@[simp] theorem Dev.me_spineRec (d : Dev) (r : Rec) (m : Nat) : (d.spineRec r).me m = d.me m := rfl
@[simp] theorem Dev.ibx_spineRec (d : Dev) (r : Rec) (m : Nat) : (d.spineRec r).ibx m = d.ibx m := rfl
@[simp] theorem Dev.line_spineRec (d : Dev) (r : Rec) (m : Nat) : (d.spineRec r).line m = d.line m := rfl
@[simp] theorem Dev.grp_spineRec (d : Dev) (r : Rec) (m : Nat) : (d.spineRec r).grp m = d.grp m := rfl
@[simp] theorem Dev.fn_spineRec (d : Dev) (r : Rec) (m : Nat) : (d.spineRec r).fn m = d.fn m := rfl
@[simp] theorem Dev.sring_spineRec (d : Dev) (r : Rec) (m : Nat) : (d.spineRec r).sring m = d.sring m := rfl

end Sys2Proof.Machine
end

