-- ==== Sys2Proof/Laws/Frame.lean ====
section
/-! SUPPORT. Frames: how they compose, and the frames of the named updates. -/

namespace Sys2Proof.Machine

theorem Fld.apart_symm {f g : Fld} (h : f.apart g) : g.apart f := by
  rcases h with h | h | h
  · exact .inl (Ne.symm h)
  · exact .inr (.inr h)
  · exact .inr (.inl h)

theorem Frame.refl (ps : List Part) (fs : List Fld) (s : State) : Frame ps fs s s := ⟨fun p _ => by cases p <;> rfl, fun _ _ => rfl⟩

theorem Part.same_trans {p : Part} {s t u : State} (h : p.same s t) (k : p.same t u) : p.same s u := by
  cases p <;> exact Eq.trans k h

theorem Frame.trans {ps : List Part} {fs : List Fld} {s t u : State} (h : Frame ps fs s t) (k : Frame ps fs t u) : Frame ps fs s u :=
  ⟨fun p hp => Part.same_trans (h.1 p hp) (k.1 p hp), fun g hg => (k.2 g hg).trans (h.2 g hg)⟩

theorem Frame.mono {ps qs : List Part} {fs gs : List Fld} {s t : State} (h : Frame ps fs s t) (hp : ∀ p ∈ ps, p ∈ qs) (hf : ∀ f ∈ fs, f ∈ gs) :
    Frame qs gs s t := ⟨fun p hq => h.1 p (fun c => hq (hp p c)), fun g hg => h.2 g (fun f hf' => hg f (hf f hf'))⟩

/-- The frame between two states that differ behind the queue only. -/
def Dev.Frame (ps : List Part) (fs : List Fld) (d e : Dev) : Prop :=
  ∀ s : State, Sys2Proof.Machine.Frame ps fs { s with dev := d } { s with dev := e }

theorem Dev.Frame.lift {ps : List Part} {fs : List Fld} {s : State} {e : Dev} (h : Dev.Frame ps fs s.dev e) :
    Sys2Proof.Machine.Frame ps fs s { s with dev := e } := h s

theorem Dev.Frame.refl (ps : List Part) (fs : List Fld) (d : Dev) : Dev.Frame ps fs d d := fun _ => Sys2Proof.Machine.Frame.refl _ _ _

theorem Dev.Frame.trans {ps : List Part} {fs : List Fld} {d e f : Dev} (h : Dev.Frame ps fs d e) (k : Dev.Frame ps fs e f) : Dev.Frame ps fs d f :=
  fun s => (h s).trans (k s)

theorem Dev.Frame.mono {ps qs : List Part} {fs gs : List Fld} {d e : Dev} (h : Dev.Frame ps fs d e) (hp : ∀ p ∈ ps, p ∈ qs)
    (hf : ∀ f ∈ fs, f ∈ gs) : Dev.Frame qs gs d e := fun s => (h s).mono hp hf

theorem Dev.Frame.get {ps : List Part} {fs : List Fld} {d e : Dev} (h : Dev.Frame ps fs d e) (g : Fld) (hg : ∀ f ∈ fs, f.apart g) :
    e.get g = d.get g := (h {}).2 g hg

/-- A field write touches its field only. -/
theorem Dev.put_frame (ps : List Part) {fs : List Fld} (d : Dev) (f : Fld) (v : Nat) (hw : f.lo + f.w ≤ 32) (hf : f ∈ fs) :
    Dev.Frame ps fs d (d.put f v) :=
  fun _ => ⟨fun p _ => by cases p <;> rfl, fun g hg => Dev.get_put_ne d v hw (hg f hf)⟩

theorem Dev.modTc_frame {ps : List Part} (fs : List Fld) (d : Dev) (n : Nat) (f : Tc → Tc) (hp : Part.tcs ∈ ps) : Dev.Frame ps fs d (d.modTc n f) :=
  fun _ => ⟨fun p h => by cases p <;> first | rfl | exact absurd hp h, fun _ _ => rfl⟩

/-- A field of a register lies in the whole of it. -/
theorem whole_apart {f g : Fld} (h : (whole f.off).apart g) (hf : f.lo + f.w ≤ 32) : f.apart g := by
  rcases h with h | h | h
  · exact .inl h
  · simp only [whole] at h; exact .inr (.inl (by omega))
  · simp only [whole] at h
    by_cases hg : g.w = 0
    · by_cases hx : f.lo + f.w ≤ g.lo
      · exact .inr (.inl hx)
      · exact .inr (.inr (by omega))
    · exact .inr (.inr (by omega))

/-- A field write lies within the whole of its register. -/
theorem Dev.put_whole (ps : List Part) {fs : List Fld} (d : Dev) (f : Fld) (v : Nat) (hw : f.lo + f.w ≤ 32) (hf : whole f.off ∈ fs) :
    Dev.Frame ps fs d (d.put f v) :=
  fun _ => ⟨fun p _ => by cases p <;> rfl, fun _ hg => Dev.get_put_ne d v hw (whole_apart (hg _ hf) hw)⟩

theorem Dev.addSat_frame (ps : List Part) {fs : List Fld} (d : Dev) (f : Fld) (n : Nat) (hw : f.lo + f.w ≤ 32) (hf : f ∈ fs) :
    Dev.Frame ps fs d (d.addSat f n) := Dev.put_frame ps d f _ hw hf

theorem Dev.incSat_frame (ps : List Part) {fs : List Fld} (d : Dev) (f : Fld) (hw : f.lo + f.w ≤ 32) (hf : f ∈ fs) :
    Dev.Frame ps fs d (d.incSat f) := Dev.put_frame ps d f _ hw hf

theorem Dev.incWrap_frame (ps : List Part) {fs : List Fld} (d : Dev) (f : Fld) (hw : f.lo + f.w ≤ 32) (hf : f ∈ fs) :
    Dev.Frame ps fs d (d.incWrap f) := Dev.put_frame ps d f _ hw hf

theorem Dev.raise_frame (ps : List Part) {fs : List Fld} (d : Dev) (f : Fld) (hw : f.lo + f.w ≤ 32) (hf : f ∈ fs) :
    Dev.Frame ps fs d (d.raise f) := Dev.put_frame ps d f _ hw hf

theorem Dev.setWord_frame (ps : List Part) {fs : List Fld} (d : Dev) (o : Nat) (v : Word) (hf : whole o ∈ fs) :
    Dev.Frame ps fs d (d.setWord o v) :=
  fun _ => ⟨fun p _ => by cases p <;> rfl, fun _ hg => Dev.get_setWord_apart d v (hg _ hf)⟩

theorem Dev.raiseRec_frame {ps : List Part} (fs : List Fld) (d : Dev) (q s : Nat) (r : Rec) (hp : Part.quads ∈ ps) :
    Dev.Frame ps fs d (d.raiseRec q s r) :=
  fun _ => ⟨fun p h => by cases p <;> first | exact absurd hp h | simp [Part.same], fun _ _ => by simp⟩

theorem Dev.raiseEventAt_frame {ps : List Part} (fs : List Fld) (d : Dev) (q s t : Nat) (a : Stamp) (hp : Part.xev ∈ ps) :
    Dev.Frame ps fs d (d.raiseEventAt q s t a) :=
  fun _ => ⟨fun p h => by cases p <;> first | exact absurd hp h | simp [Part.same], fun _ _ => by simp⟩

theorem Dev.emit_frame {ps : List Part} (fs : List Fld) (d : Dev) (x : Output) (hp : Part.out ∈ ps) : Dev.Frame ps fs d (d.emit x) :=
  fun _ => ⟨fun p h => by cases p <;> first | rfl | exact absurd hp h, fun _ _ => rfl⟩

theorem Dev.foldl_frame {β : Type} (ps : List Part) (fs : List Fld) (f : Dev → β → Dev) (l : List β) (h : ∀ x ∈ l, ∀ d, Dev.Frame ps fs d (f d x))
    (d : Dev) : Dev.Frame ps fs d (l.foldl f d) := by
  induction l generalizing d with
  | nil => exact Dev.Frame.refl _ _ _
  | cons x l ih => exact (h x List.mem_cons_self d).trans (ih (fun y hy => h y (List.mem_cons_of_mem _ hy)) (f d x))

theorem Dev.Frame.ite {ps : List Part} {fs : List Fld} {d a b : Dev} {c : Prop} [Decidable c] (ha : c → Dev.Frame ps fs d a)
    (hb : ¬ c → Dev.Frame ps fs d b) : Dev.Frame ps fs d (if c then a else b) := by
  split
  · exact ha ‹_›
  · exact hb ‹_›

/-- A step that is taken or not. -/
theorem Dev.Frame.then_ite {ps : List Part} {fs : List Fld} {d e a : Dev} {c : Prop} [Decidable c] (h : Dev.Frame ps fs d e)
    (ha : Dev.Frame ps fs e a) : Dev.Frame ps fs d (if c then a else e) := by
  split
  · exact h.trans ha
  · exact h

theorem Dev.forList_frame (ps : List Part) (fs : List Fld) (f : Nat → Dev → Dev) (l : List Nat) (h : ∀ n ∈ l, ∀ d, Dev.Frame ps fs d (f n d))
    (d : Dev) : Dev.Frame ps fs d (Dev.forList f l d) := by
  induction l generalizing d with
  | nil => exact Dev.Frame.refl _ _ _
  | cons n l ih =>
    exact (h n List.mem_cons_self d).trans (ih (fun m hm => h m (List.mem_cons_of_mem _ hm)) (f n d))

end Sys2Proof.Machine
end

