-- ==== Sys2Proof/Laws/FineEdge.lean ====
section
/-! SUPPORT. Fine-edge generators: what each shared operation can change. -/

namespace Sys2Proof.Machine

variable {ps : List Part} {fs : List Fld}

theorem Dev.modFe_frame (fs : List Fld) (d : Dev) (n : Nat) (f : Fe → Fe) (hp : Part.fes ∈ ps) : Dev.Frame ps fs d (d.modFe n f) :=
  fun _ => ⟨fun p h => by cases p <;> first | rfl | exact absurd hp h, fun _ _ => rfl⟩

theorem Dev.feRec_frame (fs : List Fld) (d : Dev) (n k e : Nat) (hp : Part.quads ∈ ps) : Dev.Frame ps fs d (d.feRec n k e) :=
  Dev.raiseRec_frame _ _ _ _ _ hp

/-- Counting suppressions and stretches touches STATUS, SUPCNT and STRCNT, and pending records. -/
theorem Dev.feCount_frame (d : Dev) (n : Nat) (a b : List Nat) (hp : Part.quads ∈ ps) (h1 : whole (FE_STATUS n) ∈ fs)
    (h2 : FE_SUPCNT_CNT n ∈ fs) (h3 : FE_STRCNT_CNT n ∈ fs) : Dev.Frame ps fs d (d.feCount n a b) := by
  unfold Dev.feCount
  refine .trans (Dev.foldl_frame _ _ _ a (fun x _ e => ?_) d) (Dev.foldl_frame _ _ _ b (fun x _ e => ?_) _)
  · refine .then_ite ?_ (Dev.feRec_frame _ _ _ _ _ hp)
    exact .trans (Dev.put_whole _ _ _ _ (fit rfl) h1) (Dev.put_frame _ _ _ _ (fit rfl) h2)
  · refine .then_ite ?_ (Dev.feRec_frame _ _ _ _ _ hp)
    exact .trans (Dev.put_whole _ _ _ _ (fit rfl) h1) (Dev.put_frame _ _ _ _ (fit rfl) h3)

/-- A copy of the shadow set touches STATUS. -/
theorem Dev.feCopy_frame (d : Dev) (n r : Nat) (hp : Part.fes ∈ ps) (h1 : whole (FE_STATUS n) ∈ fs) : Dev.Frame ps fs d (d.feCopy n r) := by
  unfold Dev.feCopy
  refine .trans ?_ (Dev.modFe_frame _ _ _ _ hp)
  refine .then_ite ?_ (Dev.put_whole _ _ _ _ (fit rfl) h1)
  exact .ite (fun _ => .refl _ _ _) (fun _ => Dev.put_whole _ _ _ _ (fit rfl) h1)

theorem Dev.fePlan_frame (d : Dev) (n x : Nat) (b : Bool) (hp : Part.fes ∈ ps) (hq : Part.quads ∈ ps) (h1 : whole (FE_STATUS n) ∈ fs)
    (h2 : FE_SUPCNT_CNT n ∈ fs) (h3 : FE_STRCNT_CNT n ∈ fs) (g1 : whole (FE_STATUS (n + 1)) ∈ fs)
    (g2 : FE_SUPCNT_CNT (n + 1) ∈ fs) (g3 : FE_STRCNT_CNT (n + 1) ∈ fs) : Dev.Frame ps fs d (d.fePlan n x b) := by
  unfold Dev.fePlan
  exact .ite (fun _ => .trans (.trans (Dev.modFe_frame _ _ _ _ hp) (Dev.feCount_frame _ _ _ _ hq h1 h2 h3)) (Dev.feCount_frame _ _ _ _ hq g1 g2 g3))
    (fun _ => .trans (Dev.modFe_frame _ _ _ _ hp) (Dev.feCount_frame _ _ _ _ hq h1 h2 h3))

theorem Dev.feFinish_frame (d : Dev) (n : Nat) (hp : Part.fes ∈ ps) (hq : Part.quads ∈ ps) (h1 : whole (FE_STATUS n) ∈ fs) :
    Dev.Frame ps fs d (d.feFinish n) := by
  unfold Dev.feFinish
  refine .then_ite (Dev.modFe_frame _ _ _ _ hp) (.ite (fun _ => Dev.put_whole _ _ _ _ (fit rfl) h1) (fun _ => .ite (fun _ => ?_) (fun _ => .refl _ _ _)))
  refine .then_ite ?_ (Dev.feRec_frame _ _ _ _ _ hq)
  exact .trans (Dev.put_whole _ _ _ _ (fit rfl) h1) (Dev.put_whole _ _ _ _ (fit rfl) h1)

theorem Dev.feReload_frame (d : Dev) (n : Nat) (hp : Part.fes ∈ ps) (hq : Part.quads ∈ ps) (h1 : whole (FE_STATUS n) ∈ fs)
    (h2 : FE_SUPCNT_CNT n ∈ fs) (h3 : FE_STRCNT_CNT n ∈ fs) (g1 : whole (FE_STATUS (n + 1)) ∈ fs)
    (g2 : FE_SUPCNT_CNT (n + 1) ∈ fs) (g3 : FE_STRCNT_CNT (n + 1) ∈ fs) : Dev.Frame ps fs d (d.feReload n) := by
  have m : ∀ (e : Dev) f, Dev.Frame ps fs e (e.modFe n f) := fun e f => Dev.modFe_frame _ _ _ _ hp
  have pl : ∀ (e : Dev) x b, Dev.Frame ps fs e (e.fePlan n x b) := fun e x b => Dev.fePlan_frame _ _ _ _ hp hq h1 h2 h3 g1 g2 g3
  have nx : ∀ e : Dev, Dev.Frame ps fs e (e.feNextPeriod n) := fun e => by
    have cp : ∀ ns, Dev.Frame ps fs e (e.feCopyNext n ns) := fun ns => by
      unfold Dev.feCopyNext
      exact .ite (fun _ => m _ _) (fun _ => Dev.feCopy_frame _ _ _ hp h1)
    unfold Dev.feNextPeriod
    exact .ite (fun _ => .trans (.trans (cp _) (m _ _)) (pl _ _ _)) (fun _ => .refl _ _ _)
  have now : ∀ e : Dev, Dev.Frame ps fs e (e.feReloadNow n) := fun e => by
    unfold Dev.feReloadNow
    dsimp only
    split
    · refine .ite (fun _ => .ite (fun _ => ?_) (fun _ => .refl _ _ _)) (fun _ => nx e)
      unfold Dev.feTakeOver
      exact .trans (m _ _) (pl _ _ _)
    · exact nx e
  unfold Dev.feReload
  exact .ite (fun _ => .refl _ _ _) (fun _ => .trans (m _ _) (now _))

/-- The pins' edges touch STATUS of the generator, OUT of its partner where the odd pin moves, the counters and pending records. -/
theorem Dev.fePlace_frame (d : Dev) (n : Nat) (b : Bool) (hp : Part.fes ∈ ps) (hq : Part.quads ∈ ps) (h1 : whole (FE_STATUS n) ∈ fs)
    (h2 : FE_SUPCNT_CNT n ∈ fs) (h3 : FE_STRCNT_CNT n ∈ fs)
    (g : b = true → whole (FE_STATUS (n + 1)) ∈ fs ∧ FE_STRCNT_CNT (n + 1) ∈ fs ∧ FE_SUPCNT_CNT (n + 1) ∈ fs) : Dev.Frame ps fs d (d.fePlace n b) := by
  have m : ∀ (e : Dev) f, Dev.Frame ps fs e (e.modFe n f) := fun e f => Dev.modFe_frame _ _ _ _ hp
  have c : ∀ (e : Dev) a b, Dev.Frame ps fs e (e.feCount n a b) := fun e a b => Dev.feCount_frame _ _ _ _ hq h1 h2 h3
  have o : ∀ (e : Dev) v, Dev.Frame ps fs e (e.put (FE_STATUS_OUT (if b = true then n + 1 else n)) v) := fun e v => by
    cases b
    · exact Dev.put_whole _ _ (FE_STATUS_OUT n) _ (fit rfl) h1
    · exact Dev.put_whole _ _ (FE_STATUS_OUT (n + 1)) _ (fit rfl) (g rfl).1
  have k : ∀ (e : Dev) a, Dev.Frame ps fs e (e.feCount (if b = true then n + 1 else n) [] a) := fun e a => by
    cases b
    · exact c e [] a
    · exact Dev.feCount_frame _ _ _ _ hq (g rfl).1 (g rfl).2.2 (g rfl).2.1
  unfold Dev.fePlace
  dsimp only
  split
  · exact .refl _ _ _
  · refine .ite (fun _ => .ite (fun _ => .trans (m _ _) (k _ _)) (fun _ => ?_)) (fun _ => .trans (m _ _) (o _ _))
    split
    · exact .trans (.trans (m _ _) (m _ _)) (c _ _ _)
    · exact .trans (m _ _) (o _ _)

/-- A start touches STATUS and the three counters. -/
theorem Dev.feStart_frame (d : Dev) (n a t b : Nat) (hp : Part.fes ∈ ps) (hq : Part.quads ∈ ps) (h1 : whole (FE_STATUS n) ∈ fs)
    (h2 : FE_SUPCNT_CNT n ∈ fs) (h3 : FE_STRCNT_CNT n ∈ fs) (g1 : whole (FE_STATUS (n + 1)) ∈ fs)
    (g2 : FE_SUPCNT_CNT (n + 1) ∈ fs) (g3 : FE_STRCNT_CNT (n + 1) ∈ fs) (h4 : FE_IGNCNT_CNT n ∈ fs) : Dev.Frame ps fs d (d.feStart n a t b) := by
  have m : ∀ (e : Dev) f, Dev.Frame ps fs e (e.modFe n f) := fun e f => Dev.modFe_frame _ _ _ _ hp
  have ig : ∀ e : Dev, Dev.Frame ps fs e (e.incSat (FE_IGNCNT_CNT n)) := fun e => Dev.put_frame _ _ _ _ (fit rfl) h4
  have first : ∀ (e : Dev) r, Dev.Frame ps fs e (e.feFirst n a t b r) := fun e r => by
    unfold Dev.feFirst
    exact .trans (.trans (.trans (Dev.put_whole _ _ _ _ (fit rfl) h1) (Dev.feCopy_frame _ _ _ hp h1)) (m _ _)) (Dev.fePlan_frame _ _ _ _ hp hq h1 h2 h3 g1 g2 g3)
  have again : ∀ (e : Dev) r, Dev.Frame ps fs e (e.feRestart n a t b r) := fun e r => by
    unfold Dev.feRestart
    exact .trans (Dev.feCopy_frame _ _ _ hp h1) (m _ _)
  have now : ∀ (e : Dev) r, Dev.Frame ps fs e (e.feStartNow n a t b r) := fun e r => by
    unfold Dev.feStartNow
    have base : ∀ c : Bool, Dev.Frame ps fs e (if c = true then e.incSat (FE_IGNCNT_CNT n) else e) := fun c =>
      .ite (fun _ => ig _) (fun _ => .refl _ _ _)
    refine .ite (fun _ => base _) (fun _ => .ite (fun _ => .ite (fun _ => base _) (fun _ => .ite (fun _ => ?_) (fun _ => ?_)))
      (fun _ => .ite (fun _ => .ite (fun _ => ?_) (fun _ => base _)) (fun _ => ?_)))
    · exact (base _).trans (again _ _)
    · exact (base _).trans (first _ _)
    · exact (base _).trans (again _ _)
    · exact (base _).trans (first _ _)
  unfold Dev.feStart
  exact .ite (fun _ => .refl _ _ _) (fun _ => .ite (fun _ => ig _) (fun _ => .ite (fun _ => m _ _) (fun _ => now _ _)))

/-- A stop touches STATUS and the three counters. -/
theorem Dev.feStop_frame (d : Dev) (n t : Nat) (hp : Part.fes ∈ ps) (hq : Part.quads ∈ ps) (h1 : whole (FE_STATUS n) ∈ fs)
    (h2 : FE_SUPCNT_CNT n ∈ fs) (h3 : FE_STRCNT_CNT n ∈ fs) (g1 : whole (FE_STATUS (n + 1)) ∈ fs)
    (g2 : FE_SUPCNT_CNT (n + 1) ∈ fs) (g3 : FE_STRCNT_CNT (n + 1) ∈ fs) (h4 : FE_IGNCNT_CNT n ∈ fs) : Dev.Frame ps fs d (d.feStop n t) := by
  have m : ∀ (e : Dev) f, Dev.Frame ps fs e (e.modFe n f) := fun e f => Dev.modFe_frame _ _ _ _ hp
  have fin : ∀ e : Dev, Dev.Frame ps fs e (e.feFinish n) := fun e => Dev.feFinish_frame _ _ hp hq h1
  unfold Dev.feStop
  refine .ite (fun _ => .refl _ _ _) (fun _ => .ite (fun _ => Dev.put_frame _ _ _ _ (fit rfl) h4) (fun _ => .ite (fun _ => m _ _) (fun _ =>
    .ite (fun _ => .trans (.trans (m _ _) (m _ _)) (fin _)) (fun _ => .trans ?_ (fin _)))))
  dsimp only
  have rl : ∀ e : Dev, Dev.Frame ps fs e (e.feReload n) := fun e => Dev.feReload_frame _ _ hp hq h1 h2 h3 g1 g2 g3
  split
  · exact .trans (.trans (.trans (.trans (m _ _) (rl _)) (m _ _)) (m _ _)) (Dev.feCount_frame _ _ _ _ hq h1 h2 h3)
  · exact .trans (.trans (m _ _) (rl _)) (m _ _)

/-- A disable touches EN and RUN of the generator. -/
theorem Dev.feOff_frame (d : Dev) (t n : Nat) (hp : Part.fes ∈ ps) (h1 : FE_CTL_EN n ∈ fs) (h2 : FE_STATUS_RUN n ∈ fs) :
    Dev.Frame ps fs d (d.feOff t n) := by
  unfold Dev.feOff
  exact .ite (fun _ => .trans (.trans (Dev.put_frame _ _ _ _ (fit rfl) h1) (Dev.put_frame _ _ _ _ (fit rfl) h2)) (Dev.modFe_frame _ _ _ _ hp))
    (fun _ => .refl _ _ _)

end Sys2Proof.Machine
end

