-- ==== Sys2Proof/Laws/Ibex.lean ====
section
/-! SUPPORT. Ibex pin engines: what each shared operation can change. -/

namespace Sys2Proof.Machine

variable {ps : List Part} {fs : List Fld}

theorem Dev.modIbx_frame (fs : List Fld) (d : Dev) (n : Nat) (f : Ibex → Ibex) (hp : Part.ibxs ∈ ps) : Dev.Frame ps fs d (d.modIbx n f) :=
  fun _ => ⟨fun p h => by cases p <;> first | rfl | exact absurd hp h, fun _ _ => rfl⟩

theorem Dev.modMc_frame (fs : List Fld) (d : Dev) (m : MemCtl) (hp : Part.mc ∈ ps) : Dev.Frame ps fs d { d with mc := m } :=
  fun _ => ⟨fun p h => by cases p <;> first | rfl | exact absurd hp h, fun _ _ => rfl⟩

/-- A request touches the requests, a write among them COLLCNT too (R318). -/
theorem Dev.memAsk_frame (d : Dev) (r : MemReq) (hp : Part.mc ∈ ps) (hc : r.kind = 1 → MEM_COLLCNT_CNT ∈ fs) : Dev.Frame ps fs d (d.memAsk r) := by
  unfold Dev.memAsk
  refine .trans ?_ (Dev.modMc_frame _ _ _ hp)
  refine .ite (fun h => ?_) (fun _ => .refl _ _ _)
  unfold Dev.memMeets
  exact .ite (fun _ => Dev.incSat_frame _ _ _ (fit rfl) (hc h)) (fun _ => .refl _ _ _)

theorem Dev.ibxRec_frame (fs : List Fld) (d : Dev) (e a b c t : Nat) (hp : Part.quads ∈ ps) : Dev.Frame ps fs d (d.ibxRec e a b c t) :=
  Dev.raiseRec_frame _ _ _ _ _ hp

theorem Dev.ibxToggle_frame (fs : List Fld) (d : Dev) (e : Nat) (hp : Part.ibxs ∈ ps) : Dev.Frame ps fs d (d.ibxToggle e) := by
  unfold Dev.ibxToggle
  split
  · exact .ite (fun _ => Dev.modIbx_frame _ _ _ _ hp) (fun _ => .refl _ _ _)
  · exact .refl _ _ _

theorem Dev.ibxStallCount_frame (d : Dev) (e : Nat) (hp : Part.ibxs ∈ ps) (h : IBX_STALLCNT_CNT e ∈ fs) : Dev.Frame ps fs d (d.ibxStallCount e) := by
  unfold Dev.ibxStallCount
  exact .ite (fun _ => .trans (Dev.addSat_frame _ _ _ _ (fit rfl) h) (Dev.modIbx_frame _ _ _ _ hp)) (fun _ => .refl _ _ _)

/-- What the time that has passed does to an engine at no END: the toggle of a boundary, stalled cycles, a freeze. -/
theorem Dev.ibxSettle_frame (d : Dev) (e : Nat) (hp : Part.ibxs ∈ ps) (h1 : IBX_STALLCNT_CNT e ∈ fs) (h2 : IBX_STATUS_STATE e ∈ fs)
    (he : (((d.ibxToggle e).ibxStallCount e).ibx e).ending = none) : Dev.Frame ps fs d (d.ibxSettle e) := by
  unfold Dev.ibxSettle
  have b := (Dev.ibxToggle_frame fs d e hp).trans (Dev.ibxStallCount_frame (fs := fs) (d.ibxToggle e) e hp h1)
  have n : ((d.ibxToggle e).ibxStallCount e).ibxEnded e = (d.ibxToggle e).ibxStallCount e := by unfold Dev.ibxEnded; rw [he]
  rw [n]
  dsimp only
  split
  · unfold Dev.ibxFreeze
    exact .ite (fun _ => b.trans (.trans (Dev.put_frame _ _ _ _ (fit rfl) h2) (Dev.modIbx_frame _ _ _ _ hp))) (fun _ => b)
  · exact b

theorem IBX_STALLCNT_ne_STATUS (e : Nat) : IBX_STALLCNT e ≠ IBX_STATUS e := by unfold IBX_STALLCNT IBX_STATUS; omega

/-- A halt touches STATUS, STALLCNT and a record. -/
theorem Dev.ibxHalt_frame (d : Dev) (e c t : Nat) (hp : Part.ibxs ∈ ps) (hq : Part.quads ∈ ps) (h1 : IBX_STALLCNT_CNT e ∈ fs)
    (h2 : IBX_STATUS_STATE e ∈ fs) (h3 : IBX_STATUS_CAUSE e ∈ fs) (h4 : IBX_STATUS_STALLON e ∈ fs) : Dev.Frame ps fs d (d.ibxHalt e c t) := by
  unfold Dev.ibxHalt
  refine .then_ite ?_ (Dev.ibxRec_frame _ _ _ _ _ _ _ hq)
  exact .trans (.trans (.trans (.trans (Dev.ibxStallCount_frame _ _ hp h1) (Dev.put_frame _ _ _ _ (fit rfl) h2)) (Dev.put_frame _ _ _ _ (fit rfl) h3))
    (Dev.put_frame _ _ _ _ (fit rfl) h4)) (Dev.modIbx_frame _ _ _ _ hp)

/-- The end of an instruction touches PC, STATE and STALLON. -/
theorem Dev.ibxDone_frame (d : Dev) (e a b c : Nat) (t : Bool) (hp : Part.ibxs ∈ ps) (h1 : IBX_PC_PC e ∈ fs)
    (h2 : IBX_STATUS_STATE e ∈ fs) (h4 : IBX_STATUS_STALLON e ∈ fs) : Dev.Frame ps fs d (d.ibxDone e a b c t) := by
  unfold Dev.ibxDone
  exact .trans (.trans (.trans (Dev.put_frame _ _ _ _ (fit rfl) h1) (Dev.put_frame _ _ _ _ (fit rfl) h2)) (Dev.put_frame _ _ _ _ (fit rfl) h4))
    (Dev.modIbx_frame _ _ _ _ hp)

theorem Dev.ibxDone_eq (d : Dev) (e pc b ext : Nat) (t : Bool) : d.ibxDone e pc b ext t =
    (((d.put (IBX_PC_PC e) pc).put (IBX_STATUS_STATE e) 2).put (IBX_STATUS_STALLON e) 0).modIbx e (fun x =>
      { x with next := b + 2 * (1 + ext)
               toggle := if (t && d.flag (IBX_CTL_CKEN e) && (d.ibx e).gate) = true then some (b + 2 * (1 + ext)) else none
               moved := none }) := rfl

/-- What the end of an instruction leaves: PC, RUNNING, the next boundary. -/
theorem Dev.ibxDone_spec (d : Dev) (e a b c : Nat) (t : Bool) :
    (d.ibxDone e a b c t).get (IBX_PC_PC e) = a % 64 ∧ (d.ibxDone e a b c t).get (IBX_STATUS_STATE e) = 2 ∧
      (d.ibxDone e a b c t).get (IBX_STATUS_STALLON e) = 0 ∧ ((d.ibxDone e a b c t).ibx e).next = b + 2 * (1 + c) ∧
      ((d.ibxDone e a b c t).ibx e).pins = (d.ibx e).pins ∧ ((d.ibxDone e a b c t).ibx e).dirs = (d.ibx e).dirs := by
  have np : IBX_STATUS e ≠ IBX_PC e := by unfold IBX_PC IBX_STATUS; omega
  have h1 : (((d.put (IBX_PC_PC e) a).put (IBX_STATUS_STATE e) 2).put (IBX_STATUS_STALLON e) 0).get (IBX_PC_PC e) = a % 2 ^ 6 :=
    (Dev.get_put_ne _ _ (fit rfl) (.inl np)).trans ((Dev.get_put_ne _ _ (fit rfl) (.inl np)).trans (Dev.get_put_same _ _ _ (fit rfl)))
  have h2 : (((d.put (IBX_PC_PC e) a).put (IBX_STATUS_STATE e) 2).put (IBX_STATUS_STALLON e) 0).get (IBX_STATUS_STATE e) = 2 % 2 ^ 3 :=
    (Dev.get_put_ne _ _ (fit rfl) (.inr (.inl (Nat.le_of_ble_eq_true rfl)))).trans (Dev.get_put_same _ _ _ (fit rfl))
  have h3 : (((d.put (IBX_PC_PC e) a).put (IBX_STATUS_STATE e) 2).put (IBX_STATUS_STALLON e) 0).get (IBX_STATUS_STALLON e) = 0 % 2 ^ 2 :=
    Dev.get_put_same _ _ _ (fit rfl)
  rw [Dev.ibxDone_eq]
  refine ⟨?_, ?_, ?_, ?_, ?_, ?_⟩
  · rw [Dev.modIbx_get, h1]; rfl
  · rw [Dev.modIbx_get, h2]; rfl
  · rw [Dev.modIbx_get, h3]; rfl
  · rw [Dev.ibx_modIbx_same]
  all_goals rw [Dev.ibx_modIbx_same, Dev.ibx_put, Dev.ibx_put, Dev.ibx_put]

/-- A stall touches STATUS and a record. -/
theorem Dev.ibxStall_frame (d : Dev) (e o b : Nat) (hp : Part.ibxs ∈ ps) (hq : Part.quads ∈ ps) (h2 : IBX_STATUS_STATE e ∈ fs)
    (h3 : IBX_STATUS_STALL_SEEN e ∈ fs) (h4 : IBX_STATUS_STALLON e ∈ fs) : Dev.Frame ps fs d (d.ibxStall e o b) := by
  unfold Dev.ibxStall
  refine .then_ite ?_ (Dev.ibxRec_frame _ _ _ _ _ _ _ hq)
  exact .trans (.trans (.trans (Dev.put_frame _ _ _ _ (fit rfl) h2) (Dev.put_frame _ _ _ _ (fit rfl) h4)) (Dev.put_frame _ _ _ _ (fit rfl) h3))
    (Dev.modIbx_frame _ _ _ _ hp)

theorem Dev.ibxPinWrite_frame (fs : List Fld) (d : Dev) (e k v b : Nat) (dir : Bool) (hp : Part.ibxs ∈ ps) :
    Dev.Frame ps fs d (d.ibxPinWrite e dir k v b) := Dev.modIbx_frame _ _ _ _ hp

/-- The TX stream's reads touch the engine and the memory's requests. -/
theorem Dev.txIssue_frame (fs : List Fld) (d : Dev) (e : Nat) (hp : Part.ibxs ∈ ps) (hm : Part.mc ∈ ps) : Dev.Frame ps fs d (d.txIssue e) := by
  have one : ∀ x : Dev, Dev.Frame ps fs x (x.txIssue1 e) := fun x => by
    unfold Dev.txIssue1
    exact .ite (fun _ => .trans (Dev.modIbx_frame _ _ _ _ hp) (Dev.memAsk_frame _ _ hm (fun h => absurd (show (0 : Nat) = 1 from h) (by decide)))) (fun _ => .refl _ _ _)
  exact .trans (one _) (one _)

theorem Dev.ibxMoved_frame (fs : List Fld) (d : Dev) (e o : Nat) (hp : Part.ibxs ∈ ps) : Dev.Frame ps fs d (d.ibxMoved e o) := by
  unfold Dev.ibxMoved
  exact .ite (fun _ => Dev.modIbx_frame _ _ _ _ hp) (fun _ => .refl _ _ _)

theorem Dev.txPush_frame (fs : List Fld) (d : Dev) (e : Nat) (l : List Nat) (hp : Part.ibxs ∈ ps) : Dev.Frame ps fs d (d.txPush e l) := by
  unfold Dev.txPush
  have b : Dev.Frame ps fs d (d.modIbx e (fun x => { x with tx := x.tx ++ l })) := Dev.modIbx_frame _ _ _ _ hp
  exact .ite (fun _ => b) (fun _ => b.trans (Dev.ibxMoved_frame _ _ _ _ hp))

theorem Dev.txRoom_frame (fs : List Fld) (d : Dev) (e : Nat) (hp : Part.ibxs ∈ ps) (hm : Part.mc ∈ ps) : Dev.Frame ps fs d (d.txRoom e) := by
  unfold Dev.txRoom
  exact .trans (.trans (Dev.txPush_frame _ _ _ _ hp) (Dev.modIbx_frame _ _ _ _ hp)) (Dev.txIssue_frame _ _ _ hp hm)

theorem Dev.txPop_frame (fs : List Fld) (d : Dev) (e : Nat) (hp : Part.ibxs ∈ ps) (hm : Part.mc ∈ ps) : Dev.Frame ps fs d (d.txPop e).2 := by
  unfold Dev.txPop
  dsimp only
  exact .trans (Dev.modIbx_frame _ _ _ _ hp) (Dev.txRoom_frame _ _ _ hp hm)

/-- A group of the RX stream touches the engine, the memory's requests and COLLCNT. -/
theorem Dev.rxFlush_frame (d : Dev) (e : Nat) (hp : Part.ibxs ∈ ps) (hm : Part.mc ∈ ps) (hc : MEM_COLLCNT_CNT ∈ fs) :
    Dev.Frame ps fs d (d.rxFlush e) := by
  unfold Dev.rxFlush
  exact .ite (fun _ => .refl _ _ _) (fun _ => .trans (Dev.memAsk_frame _ _ hm (fun _ => hc)) (Dev.modIbx_frame _ _ _ _ hp))

theorem strFld_eq (e : Nat) (rx : Bool) : (strRun e rx).off = strCtl e rx ∧ (strLeft e rx).off = strCtl e rx ∧ (strDone e rx).off = strCtl e rx ∧
    (strRing e rx).off = strCtl e rx ∧ (strRec e rx).off = strCtl e rx := by cases rx <;> exact ⟨rfl, rfl, rfl, rfl, rfl⟩

/-- The end of a pass touches the stream's control register, STR_ERR and a record. -/
theorem Dev.strOver_frame (d : Dev) (e : Nat) (rx : Bool) (a : Nat) (hp : Part.ibxs ∈ ps) (hq : Part.quads ∈ ps)
    (h1 : whole (strCtl e rx) ∈ fs) (h2 : IBX_STATUS_STR_ERR e ∈ fs) : Dev.Frame ps fs d (d.strOver e rx a) := by
  obtain ⟨r, l, dn, -, -⟩ := strFld_eq e rx
  have run : ∀ (x : Dev) v, Dev.Frame ps fs x (x.put (strRun e rx) v) := fun x v => Dev.put_whole _ _ _ _ (by cases rx <;> exact fit rfl) (r ▸ h1)
  have left : ∀ (x : Dev) v, Dev.Frame ps fs x (x.put (strLeft e rx) v) := fun x v => Dev.put_whole _ _ _ _ (by cases rx <;> exact fit rfl) (l ▸ h1)
  have done : ∀ (x : Dev) v, Dev.Frame ps fs x (x.put (strDone e rx) v) := fun x v => Dev.put_whole _ _ _ _ (by cases rx <;> exact fit rfl) (dn ▸ h1)
  unfold Dev.strOver
  refine .ite (fun _ => .ite (fun _ => ?_) (fun _ => ?_)) (fun _ => ?_)
  · exact .trans (left _ _) (Dev.modIbx_frame _ _ _ _ hp)
  · unfold Dev.strError
    exact .trans (.trans (.trans (run _ _) (Dev.put_frame _ _ _ _ (fit rfl) h2)) (Dev.modIbx_frame _ _ _ _ hp)) (Dev.ibxRec_frame _ _ _ _ _ _ _ hq)
  · exact .then_ite (.trans (run _ _) (done _ _)) (Dev.ibxRec_frame _ _ _ _ _ _ _ hq)

theorem Dev.strError_frame (d : Dev) (e : Nat) (rx : Bool) (a : Nat) (hp : Part.ibxs ∈ ps) (hq : Part.quads ∈ ps)
    (h1 : whole (strCtl e rx) ∈ fs) (h2 : IBX_STATUS_STR_ERR e ∈ fs) : Dev.Frame ps fs d (d.strError e rx a) := by
  obtain ⟨r, -, -, -, -⟩ := strFld_eq e rx
  unfold Dev.strError
  exact .trans (.trans (.trans (Dev.put_whole _ _ _ _ (by cases rx <;> exact fit rfl) (r ▸ h1)) (Dev.put_frame _ _ _ _ (fit rfl) h2))
    (Dev.modIbx_frame _ _ _ _ hp)) (Dev.ibxRec_frame _ _ _ _ _ _ _ hq)

/-- A refused command sets REFUSED; any other start or stop touches STATUS and STALLCNT. -/
theorem Dev.ibxStart_frame (d : Dev) (e t : Nat) (hp : Part.ibxs ∈ ps) (h1 : IBX_STATUS_STATE e ∈ fs) (h2 : IBX_STATUS_REFUSED e ∈ fs) :
    Dev.Frame ps fs d (d.ibxStart e t) := by
  unfold Dev.ibxStart
  split
  · exact .trans (Dev.put_frame _ _ _ _ (fit rfl) h1) (Dev.modIbx_frame _ _ _ _ hp)
  · exact Dev.put_frame _ _ _ _ (fit rfl) h2
  · exact .refl _ _ _

theorem Dev.ibxStop_frame (d : Dev) (e t : Nat) (hp : Part.ibxs ∈ ps) (hq : Part.quads ∈ ps) (h1 : IBX_STALLCNT_CNT e ∈ fs)
    (h2 : IBX_STATUS_STATE e ∈ fs) (h3 : IBX_STATUS_CAUSE e ∈ fs) (h4 : IBX_STATUS_STALLON e ∈ fs) : Dev.Frame ps fs d (d.ibxStop e t) := by
  have halt : Dev.Frame ps fs d (d.ibxHalt e 1 t) := Dev.ibxHalt_frame _ _ _ _ hp hq h1 h2 h3 h4
  unfold Dev.ibxStop
  split
  · exact Dev.modIbx_frame _ _ _ _ hp
  · exact halt
  · exact halt
  · exact .ite (fun _ => Dev.modIbx_frame _ _ _ _ hp) (fun _ => halt)
  · exact .refl _ _ _

end Sys2Proof.Machine
end

