-- ==== Sys2Proof/Laws/Memory.lean ====
section
/-! SUPPORT. Stacked memory: every operation keeps the canonical form (10 R309), and reading what was written. -/

namespace Sys2Proof.Machine

theorem MemArr.wf_iff (m : MemArr) : m.wf = true ↔ Tab.wf 0 m.data = true ∧ Tab.wf 0 m.chk = true ∧ Tab.wf false m.poison = true := by
  unfold MemArr.wf
  simp [and_assoc]

theorem Tab.wf_foldl_set {α β : Type} [DecidableEq α] (d : α) (i : β → Nat) (v : β → α) (l : List β) (t : Tab α) (w : Tab.wf d t = true) :
    Tab.wf d (l.foldl (fun t x => Tab.set d t (i x) (v x)) t) = true := by
  induction l generalizing t with
  | nil => exact w
  | cons x l ih => exact ih _ (Tab.wf_set d t _ _ w)

theorem MemArr.store_wf (m : MemArr) (k v : Nat) (diff : BitVec 24) (w : m.wf = true) : (m.store k v diff).wf = true := by
  rw [MemArr.wf_iff] at w ⊢
  exact ⟨Tab.wf_foldl_set 0 (fun i => 16 * k + i) (fun i => BitVec.ofNat 8 (byteOf v i)) _ _ w.1, Tab.wf_set 0 m.chk k diff w.2.1,
    Tab.wf_set false m.poison k false w.2.2⟩

theorem MemArr.setPoison_wf (m : MemArr) (k : Nat) (w : m.wf = true) : (m.setPoison k).wf = true := by
  rw [MemArr.wf_iff] at w ⊢
  exact ⟨w.1, w.2.1, Tab.wf_set false m.poison k true w.2.2⟩

theorem MemArr.disturb_wf (m : MemArr) (k : Nat) (flip : BitVec 152) (w : m.wf = true) : (m.disturb k flip).wf = true := by
  unfold MemArr.disturb
  dsimp only
  split
  · exact w
  · split
    · exact MemArr.setPoison_wf _ _ (MemArr.store_wf _ _ _ _ w)
    · exact MemArr.store_wf _ _ _ _ w

theorem State.memPut_wf (s : State) (w m v c p : Nat) (h : s.mem.wf = true) : (s.memPut w m v c p).mem.wf = true := by
  unfold State.memPut
  dsimp only
  split
  · exact MemArr.store_wf _ _ _ _ h
  · split
    · exact h
    · split
      · exact MemArr.setPoison_wf _ _ h
      · exact MemArr.store_wf _ _ _ _ h

@[simp] theorem State.memFetch_mem (s : State) (w c p : Nat) : (s.memFetch w c p).2.mem = s.mem := by
  unfold State.memFetch
  dsimp only
  split
  · rfl
  · split <;> rfl

@[simp] theorem State.memRead_mem (s : State) (w c p : Nat) : (s.memRead w c p).2.mem = s.mem := by
  unfold State.memRead
  split
  · rfl
  · exact State.memFetch_mem _ _ _ _

@[simp] theorem State.memCollide_mem (s : State) (w m v : Nat) : (s.memCollide w m v).mem = s.mem := rfl

theorem State.memSpineStore_wf (s : State) (w m v : Nat) (h : s.mem.wf = true) : (s.memSpineStore w m v).mem.wf = true :=
  State.memPut_wf _ _ _ _ _ _ h

theorem State.memEngineStore_wf (s : State) (w m v c : Nat) (b : Bool) (h : s.mem.wf = true) : (s.memEngineStore w m v c b).mem.wf = true := by
  unfold State.memEngineStore
  split
  · exact h
  · exact State.memPut_wf _ _ _ _ _ _ h

theorem State.memServe_wf (s : State) (r : MemReq) (flip : BitVec 152) (h : s.mem.wf = true) : (s.memServe r flip).mem.wf = true := by
  have dist : ((({ s with dev := s.dev.memTake r } : State).memDisturb r.word flip).mem).wf = true := MemArr.disturb_wf _ _ _ h
  unfold State.memServe
  split
  · unfold State.serveRead
    dsimp only
    split
    · exact h
    · simpa using dist
  · split
    · exact State.memEngineStore_wf _ _ _ _ _ _ h
    · unfold State.serveAtomic
      dsimp only
      split
      · simpa using dist
      · exact State.memEngineStore_wf _ _ _ _ _ _ (by simpa using dist)

/-- A bank that serves a request keeps the canonical form. -/
theorem State.bankServe_wf (s : State) (b k : Nat) (flip : BitVec 152) (h : s.mem.wf = true) : (s.bankServe b k flip).mem.wf = true := by
  unfold State.bankServe
  split
  · split
    · exact State.memServe_wf _ _ _ h
    · exact h
  · exact h

theorem State.memDrain_wf (s : State) (h : s.mem.wf = true) : s.memDrain.mem.wf = true := by
  unfold State.memDrain
  generalize s.dev.mc.reqs = l
  induction l generalizing s with
  | nil => exact h
  | cons r l ih => exact ih _ (State.memServe_wf _ _ _ h)

theorem State.ceWriteback_wf (s : State) (h : s.mem.wf = true) : s.ceWriteback.mem.wf = true := by
  unfold State.ceWriteback
  split
  · dsimp only
    split
    · exact MemArr.store_wf _ _ _ _ h
    · exact h
  · exact h

theorem State.scrubRead_wf (s : State) (flip : BitVec 152) (h : s.mem.wf = true) : (s.scrubRead flip).mem.wf = true := by
  unfold State.scrubRead
  dsimp only
  split
  · exact MemArr.disturb_wf _ _ _ h
  · exact h

/-- A copy of a decoded word into physical word `k`, poisoned where `c` says so. -/
theorem MemArr.copied_wf (m : MemArr) (k v : Nat) (c : Prop) [Decidable c] (w : m.wf = true) :
    (if c then (m.store k v 0).setPoison k else m.store k v 0).wf = true := by
  split
  · exact MemArr.setPoison_wf _ _ (MemArr.store_wf _ _ _ _ w)
  · exact MemArr.store_wf _ _ _ _ w

theorem State.spareCopy_wf (s : State) (flip : BitVec 152) (h : s.mem.wf = true) : (s.spareCopy flip).mem.wf = true := by
  unfold State.spareCopy
  split
  · dsimp only
    split
    · exact MemArr.copied_wf _ _ _ _ (MemArr.disturb_wf _ _ _ h)
    · exact MemArr.copied_wf _ _ _ _ (MemArr.disturb_wf _ _ _ h)
  · exact h

theorem State.copyWord_wf (s : State) (w a b p : Nat) (h : s.mem.wf = true) : (s.copyWord w a b p).mem.wf = true := by
  unfold State.copyWord
  dsimp only
  split
  · exact MemArr.store_wf _ _ _ _ h
  · split
    · exact MemArr.store_wf _ _ _ _ h
    · exact MemArr.setPoison_wf _ _ (MemArr.store_wf _ _ _ _ h)

theorem State.foldl_memWf {β : Type} (f : State → β → State) (hf : ∀ s x, s.mem.wf = true → (f s x).mem.wf = true) (l : List β) (s : State)
    (h : s.mem.wf = true) : (l.foldl f s).mem.wf = true := by
  induction l generalizing s with
  | nil => exact h
  | cons x l ih => exact ih _ (hf s x h)

theorem State.mirrorTick_wf (s : State) (h : s.mem.wf = true) : s.mirrorTick.mem.wf = true := by
  unfold State.mirrorTick
  split
  · exact h
  · dsimp only
    split
    · exact h
    · generalize List.range 16 = l
      refine State.foldl_memWf _ ?_ l s h
      exact fun s i h => State.copyWord_wf _ _ _ _ _ h

theorem State.mirrorBack_eq (s : State) (sl : Nat) : s.mirrorBack sl =
    (List.range 4096).foldl (fun s i => s.copyWord (4096 * sl + i) (mirrorCell i) (s.dev.memCell (4096 * sl + i)) 2) s := rfl

theorem State.mirrorBack_wf (s : State) (sl : Nat) (h : s.mem.wf = true) : (s.mirrorBack sl).mem.wf = true := by
  rw [State.mirrorBack_eq]
  exact State.foldl_memWf (fun s i => s.copyWord (4096 * sl + i) (mirrorCell i) (s.dev.memCell (4096 * sl + i)) 2)
    (fun s i h => State.copyWord_wf s _ _ _ _ h) _ s h

/-- The state with another device has the same memory. -/
theorem State.mem_withDev (s : State) (d : Dev) : ({ s with dev := d } : State).mem = s.mem := rfl

theorem State.sliceReturn_wf (s : State) (f : BitVec 16) (h : s.mem.wf = true) : (s.sliceReturn f).mem.wf = true := by
  have k := fun sl => State.mirrorBack_wf s sl h
  unfold State.sliceReturn
  split
  · exact h
  · rename_i sl _
    split
    · exact h
    · rw [State.mem_withDev]
      exact k sl

/-- The memory after reset has the canonical form. -/
theorem reset_memWf : State.reset.memWf = true := by decide

end Sys2Proof.Machine
end

