-- ==== Sys2Proof/Laws/RegMap.lean ====
section
/-! SUPPORT. The register map: what an offset inside each group of the quadrant blocks reaches, and that the rest of a group's registers
is found by its offset in the group. -/

set_option linter.unusedSimpArgs false
set_option linter.unnecessarySeqFocus false

namespace Sys2Proof.Machine

/-- A group does not hold an offset below it, beyond its last item, or, where it has one item, at none of its registers. -/
theorem Grp.locate_none (g : Grp) (q o : Nat)
    (h : o < g.base ∨ (g.s1 ≠ 0 ∧ g.s1 * g.c1 ≤ o - g.base) ∨ (g.s1 = 0 ∧ g.s2 = 0 ∧ ∀ x ∈ g.regs, x.off ≠ o - g.base)) :
    g.locate q o = none := by
  unfold Grp.locate strideSplit
  by_cases h0 : o < g.base
  · simp [h0]
  · rcases h with h | ⟨h1, h2⟩ | ⟨h1, h2, h3⟩
    · exact absurd h h0
    · have : ¬ (o - g.base) / g.s1 < g.c1 := by
        rw [Nat.not_lt, Nat.le_div_iff_mul_le (Nat.pos_of_ne_zero h1), Nat.mul_comm]; exact h2
      simp [h0, h1, this]
    · have : g.regs.find? (fun x => x.off = o - g.base) = none := by
        simpa [List.find?_eq_none] using h3
      simp [h0, h1, h2, this]

/-- An offset inside item `i` of a run of items. -/
theorem Grp.locate_run (g : Grp) (q o i r : Nat) (hs : g.s1 ≠ 0) (h2 : g.s2 = 0) (ho : o = g.base + i * g.s1 + r) (hi : i < g.c1)
    (hr : r < g.s1) : g.locate q o = (g.regs.find? (fun x => x.off = r)).map (fun x => ⟨g.gid, q * g.c1 + i, 0, q, x⟩) := by
  subst ho
  have h1 : (g.base + i * g.s1 + r - g.base) / g.s1 = i := by
    rw [Nat.add_assoc, Nat.add_sub_cancel_left, Nat.add_comm, Nat.add_mul_div_right _ _ (Nat.pos_of_ne_zero hs), Nat.div_eq_of_lt hr,
      Nat.zero_add]
  have h3 : (g.base + i * g.s1 + r - g.base) % g.s1 = r := by
    rw [Nat.add_assoc, Nat.add_sub_cancel_left, Nat.add_comm, Nat.add_mul_mod_self_right, Nat.mod_eq_of_lt hr]
  unfold Grp.locate strideSplit
  have : ¬ g.base + i * g.s1 + r < g.base := by omega
  simp only [this, if_false, hs, h1, h3, hi, if_true, h2]
  cases g.regs.find? (fun x => x.off = r) <;> rfl

/-- An offset inside a group of one item. -/
theorem Grp.locate_one (g : Grp) (q o r : Nat) (hs : g.s1 = 0) (h2 : g.s2 = 0) (ho : o = g.base + r) :
    g.locate q o = (g.regs.find? (fun x => x.off = r)).map (fun x => ⟨g.gid, q * g.c1, 0, q, x⟩) := by
  subst ho
  unfold Grp.locate strideSplit
  simp only [hs, h2, if_true, Nat.add_sub_cancel_left, show ¬ g.base + r < g.base by omega, if_false]
  cases g.regs.find? (fun x => x.off = r) <;> rfl

/-- Where one group alone holds an offset, the list of groups answers what that group answers. -/
theorem findSome_unique (l : List Grp) (g : Grp) (q o : Nat) (hg : g ∈ l) (h : ∀ x ∈ l, x ≠ g → x.locate q o = none) :
    l.findSome? (fun x => x.locate q o) = g.locate q o := by
  induction l with
  | nil => cases hg
  | cons a l ih =>
    rw [List.findSome?_cons]
    by_cases ha : a = g
    · subst ha
      cases hx : a.locate q o with
      | some y => rfl
      | none =>
        show List.findSome? _ l = none
        rw [List.findSome?_eq_none_iff]
        intro x hx'
        by_cases hxa : x = a
        · rw [hxa]; exact hx
        · exact h x (List.mem_cons_of_mem _ hx') hxa
    · rw [h a List.mem_cons_self ha]
      exact ih ((List.mem_cons.mp hg).resolve_left (Ne.symm ha)) (fun x hx => h x (List.mem_cons_of_mem _ hx))

theorem locate_quad (q o : Nat) (hq : q < 4) (ho : o < 0x8000) :
    locate (0x10000 + q * 0x8000 + o) = quadGroups.findSome? (fun g => g.locate q o) := by
  unfold locate
  have h1 : 0x10000 ≤ 0x10000 + q * 0x8000 + o ∧ 0x10000 + q * 0x8000 + o < 0x30000 := by omega
  have h2 : (0x10000 + q * 0x8000 + o - 0x10000) / 0x8000 = q := by omega
  have h3 : (0x10000 + q * 0x8000 + o) % 0x8000 = o := by omega
  rw [if_pos h1, h2, h3]

/-- Group AXIS: the register at offset `r` of item `n`. -/
theorem locate_axis (n r : Nat) (hn : n < 8) (hr : r < 0x200) : locate (0x10000 + n / 2 * 0x8000 + 0x400 + n % 2 * 0x200 + r) =
    (grp_axis.regs.find? (fun x => x.off = r)).map (fun x => ⟨.axis, n, 0, n / 2, x⟩) := by
  obtain ⟨q, hq⟩ : ∃ q, q = n / 2 := ⟨_, rfl⟩
  obtain ⟨o, ho⟩ : ∃ o, o = 0x400 + n % 2 * 0x200 + r := ⟨_, rfl⟩
  have hm : n % 2 < 2 := Nat.mod_lt _ (by decide)
  rw [show 0x10000 + n / 2 * 0x8000 + 0x400 + n % 2 * 0x200 + r = 0x10000 + q * 0x8000 + o by omega, locate_quad q o (by omega) (by omega)]
  have z : ∀ x ∈ quadGroups, x ≠ grp_axis → x.locate q o = none := by
    intro x hx hne
    apply Grp.locate_none
    simp only [quadGroups, List.cons_append, List.nil_append] at hx
    fin_cases hx <;> first | exact absurd rfl hne | (simp [grp_qstage, grp_qpwr, grp_axis, grp_me, grp_agu, grp_lane, grp_qio, grp_coach, grp_car, grp_tpl, grp_tc, grp_tcv, grp_sinksel, grp_xline, grp_xbar, grp_convw, grp_feq, grp_feqidle, grp_fe, grp_ibx] <;> omega)
  rw [findSome_unique quadGroups grp_axis q o (by simp [quadGroups]) z,
    Grp.locate_run grp_axis q o (n % 2) r (by decide) rfl ho hm (Nat.lt_of_lt_of_le hr (by decide)), hq]
  simp only [show grp_axis.c1 = 2 from rfl, show grp_axis.gid = .axis from rfl, show n / 2 * 2 + n % 2 = n by omega]

/-- Group CAR: the register at offset `r` of item `n`. -/
theorem locate_car (n r : Nat) (hn : n < 8) (hr : r < 0x100) : locate (0x10000 + n / 2 * 0x8000 + 0x1200 + n % 2 * 0x100 + r) =
    (grp_car.regs.find? (fun x => x.off = r)).map (fun x => ⟨.car, n, 0, n / 2, x⟩) := by
  obtain ⟨q, hq⟩ : ∃ q, q = n / 2 := ⟨_, rfl⟩
  obtain ⟨o, ho⟩ : ∃ o, o = 0x1200 + n % 2 * 0x100 + r := ⟨_, rfl⟩
  have hm : n % 2 < 2 := Nat.mod_lt _ (by decide)
  rw [show 0x10000 + n / 2 * 0x8000 + 0x1200 + n % 2 * 0x100 + r = 0x10000 + q * 0x8000 + o by omega, locate_quad q o (by omega) (by omega)]
  have z : ∀ x ∈ quadGroups, x ≠ grp_car → x.locate q o = none := by
    intro x hx hne
    apply Grp.locate_none
    simp only [quadGroups, List.cons_append, List.nil_append] at hx
    fin_cases hx <;> first | exact absurd rfl hne | (simp [grp_qstage, grp_qpwr, grp_axis, grp_me, grp_agu, grp_lane, grp_qio, grp_coach, grp_car, grp_tpl, grp_tc, grp_tcv, grp_sinksel, grp_xline, grp_xbar, grp_convw, grp_feq, grp_feqidle, grp_fe, grp_ibx] <;> omega)
  rw [findSome_unique quadGroups grp_car q o (by simp [quadGroups]) z,
    Grp.locate_run grp_car q o (n % 2) r (by decide) rfl ho hm (Nat.lt_of_lt_of_le hr (by decide)), hq]
  simp only [show grp_car.c1 = 2 from rfl, show grp_car.gid = .car from rfl, show n / 2 * 2 + n % 2 = n by omega]

/-- Group TPL: the register at offset `r` of item `n`. -/
theorem locate_tpl (n r : Nat) (hn : n < 256) (hr : r < 0x20) : locate (0x10000 + n / 64 * 0x8000 + 0x1800 + n % 64 * 0x20 + r) =
    (grp_tpl.regs.find? (fun x => x.off = r)).map (fun x => ⟨.tpl, n, 0, n / 64, x⟩) := by
  obtain ⟨q, hq⟩ : ∃ q, q = n / 64 := ⟨_, rfl⟩
  obtain ⟨o, ho⟩ : ∃ o, o = 0x1800 + n % 64 * 0x20 + r := ⟨_, rfl⟩
  have hm : n % 64 < 64 := Nat.mod_lt _ (by decide)
  rw [show 0x10000 + n / 64 * 0x8000 + 0x1800 + n % 64 * 0x20 + r = 0x10000 + q * 0x8000 + o by omega, locate_quad q o (by omega) (by omega)]
  have z : ∀ x ∈ quadGroups, x ≠ grp_tpl → x.locate q o = none := by
    intro x hx hne
    apply Grp.locate_none
    simp only [quadGroups, List.cons_append, List.nil_append] at hx
    fin_cases hx <;> first | exact absurd rfl hne | (simp [grp_qstage, grp_qpwr, grp_axis, grp_me, grp_agu, grp_lane, grp_qio, grp_coach, grp_car, grp_tpl, grp_tc, grp_tcv, grp_sinksel, grp_xline, grp_xbar, grp_convw, grp_feq, grp_feqidle, grp_fe, grp_ibx] <;> omega)
  rw [findSome_unique quadGroups grp_tpl q o (by simp [quadGroups]) z,
    Grp.locate_run grp_tpl q o (n % 64) r (by decide) rfl ho hm (Nat.lt_of_lt_of_le hr (by decide)), hq]
  simp only [show grp_tpl.c1 = 64 from rfl, show grp_tpl.gid = .tpl from rfl, show n / 64 * 64 + n % 64 = n by omega]

/-- Group TC: the register at offset `r` of item `n`. -/
theorem locate_tc (n r : Nat) (hn : n < 1024) (hr : r < 0x20) : locate (0x10000 + n / 256 * 0x8000 + 0x2000 + n % 256 * 0x20 + r) =
    (grp_tc.regs.find? (fun x => x.off = r)).map (fun x => ⟨.tc, n, 0, n / 256, x⟩) := by
  obtain ⟨q, hq⟩ : ∃ q, q = n / 256 := ⟨_, rfl⟩
  obtain ⟨o, ho⟩ : ∃ o, o = 0x2000 + n % 256 * 0x20 + r := ⟨_, rfl⟩
  have hm : n % 256 < 256 := Nat.mod_lt _ (by decide)
  rw [show 0x10000 + n / 256 * 0x8000 + 0x2000 + n % 256 * 0x20 + r = 0x10000 + q * 0x8000 + o by omega, locate_quad q o (by omega) (by omega)]
  have z : ∀ x ∈ quadGroups, x ≠ grp_tc → x.locate q o = none := by
    intro x hx hne
    apply Grp.locate_none
    simp only [quadGroups, List.cons_append, List.nil_append] at hx
    fin_cases hx <;> first | exact absurd rfl hne | (simp [grp_qstage, grp_qpwr, grp_axis, grp_me, grp_agu, grp_lane, grp_qio, grp_coach, grp_car, grp_tpl, grp_tc, grp_tcv, grp_sinksel, grp_xline, grp_xbar, grp_convw, grp_feq, grp_feqidle, grp_fe, grp_ibx] <;> omega)
  rw [findSome_unique quadGroups grp_tc q o (by simp [quadGroups]) z,
    Grp.locate_run grp_tc q o (n % 256) r (by decide) rfl ho hm (Nat.lt_of_lt_of_le hr (by decide)), hq]
  simp only [show grp_tc.c1 = 256 from rfl, show grp_tc.gid = .tc from rfl, show n / 256 * 256 + n % 256 = n by omega]

/-- Group TCV: the register at offset `r` of item `n`. -/
theorem locate_tcv (n r : Nat) (hn : n < 1024) (hr : r < 0x10) : locate (0x10000 + n / 256 * 0x8000 + 0x4000 + n % 256 * 0x10 + r) =
    (grp_tcv.regs.find? (fun x => x.off = r)).map (fun x => ⟨.tcv, n, 0, n / 256, x⟩) := by
  obtain ⟨q, hq⟩ : ∃ q, q = n / 256 := ⟨_, rfl⟩
  obtain ⟨o, ho⟩ : ∃ o, o = 0x4000 + n % 256 * 0x10 + r := ⟨_, rfl⟩
  have hm : n % 256 < 256 := Nat.mod_lt _ (by decide)
  rw [show 0x10000 + n / 256 * 0x8000 + 0x4000 + n % 256 * 0x10 + r = 0x10000 + q * 0x8000 + o by omega, locate_quad q o (by omega) (by omega)]
  have z : ∀ x ∈ quadGroups, x ≠ grp_tcv → x.locate q o = none := by
    intro x hx hne
    apply Grp.locate_none
    simp only [quadGroups, List.cons_append, List.nil_append] at hx
    fin_cases hx <;> first | exact absurd rfl hne | (simp [grp_qstage, grp_qpwr, grp_axis, grp_me, grp_agu, grp_lane, grp_qio, grp_coach, grp_car, grp_tpl, grp_tc, grp_tcv, grp_sinksel, grp_xline, grp_xbar, grp_convw, grp_feq, grp_feqidle, grp_fe, grp_ibx] <;> omega)
  rw [findSome_unique quadGroups grp_tcv q o (by simp [quadGroups]) z,
    Grp.locate_run grp_tcv q o (n % 256) r (by decide) rfl ho hm (Nat.lt_of_lt_of_le hr (by decide)), hq]
  simp only [show grp_tcv.c1 = 256 from rfl, show grp_tcv.gid = .tcv from rfl, show n / 256 * 256 + n % 256 = n by omega]

/-- Group SINKSEL: the register at offset `r` of item `n`. -/
theorem locate_sinksel (n r : Nat) (hn : n < 1808) (hr : r < 0x8) : locate (0x10000 + n / 452 * 0x8000 + 0x5000 + n % 452 * 0x8 + r) =
    (grp_sinksel.regs.find? (fun x => x.off = r)).map (fun x => ⟨.sinksel, n, 0, n / 452, x⟩) := by
  obtain ⟨q, hq⟩ : ∃ q, q = n / 452 := ⟨_, rfl⟩
  obtain ⟨o, ho⟩ : ∃ o, o = 0x5000 + n % 452 * 0x8 + r := ⟨_, rfl⟩
  have hm : n % 452 < 452 := Nat.mod_lt _ (by decide)
  rw [show 0x10000 + n / 452 * 0x8000 + 0x5000 + n % 452 * 0x8 + r = 0x10000 + q * 0x8000 + o by omega, locate_quad q o (by omega) (by omega)]
  have z : ∀ x ∈ quadGroups, x ≠ grp_sinksel → x.locate q o = none := by
    intro x hx hne
    apply Grp.locate_none
    simp only [quadGroups, List.cons_append, List.nil_append] at hx
    fin_cases hx <;> first | exact absurd rfl hne | (simp [grp_qstage, grp_qpwr, grp_axis, grp_me, grp_agu, grp_lane, grp_qio, grp_coach, grp_car, grp_tpl, grp_tc, grp_tcv, grp_sinksel, grp_xline, grp_xbar, grp_convw, grp_feq, grp_feqidle, grp_fe, grp_ibx] <;> omega)
  rw [findSome_unique quadGroups grp_sinksel q o (by simp [quadGroups]) z,
    Grp.locate_run grp_sinksel q o (n % 452) r (by decide) rfl ho hm (Nat.lt_of_lt_of_le hr (by decide)), hq]
  simp only [show grp_sinksel.c1 = 452 from rfl, show grp_sinksel.gid = .sinksel from rfl, show n / 452 * 452 + n % 452 = n by omega]

/-- Group FE: the register at offset `r` of item `n`. -/
theorem locate_fe (n r : Nat) (hn : n < 256) (hr : r < 0x40) : locate (0x10000 + n / 64 * 0x8000 + 0x6800 + n % 64 * 0x40 + r) =
    (grp_fe.regs.find? (fun x => x.off = r)).map (fun x => ⟨.fe, n, 0, n / 64, x⟩) := by
  obtain ⟨q, hq⟩ : ∃ q, q = n / 64 := ⟨_, rfl⟩
  obtain ⟨o, ho⟩ : ∃ o, o = 0x6800 + n % 64 * 0x40 + r := ⟨_, rfl⟩
  have hm : n % 64 < 64 := Nat.mod_lt _ (by decide)
  rw [show 0x10000 + n / 64 * 0x8000 + 0x6800 + n % 64 * 0x40 + r = 0x10000 + q * 0x8000 + o by omega, locate_quad q o (by omega) (by omega)]
  have z : ∀ x ∈ quadGroups, x ≠ grp_fe → x.locate q o = none := by
    intro x hx hne
    apply Grp.locate_none
    simp only [quadGroups, List.cons_append, List.nil_append] at hx
    fin_cases hx <;> first | exact absurd rfl hne | (simp [grp_qstage, grp_qpwr, grp_axis, grp_me, grp_agu, grp_lane, grp_qio, grp_coach, grp_car, grp_tpl, grp_tc, grp_tcv, grp_sinksel, grp_xline, grp_xbar, grp_convw, grp_feq, grp_feqidle, grp_fe, grp_ibx] <;> omega)
  rw [findSome_unique quadGroups grp_fe q o (by simp [quadGroups]) z,
    Grp.locate_run grp_fe q o (n % 64) r (by decide) rfl ho hm (Nat.lt_of_lt_of_le hr (by decide)), hq]
  simp only [show grp_fe.c1 = 64 from rfl, show grp_fe.gid = .fe from rfl, show n / 64 * 64 + n % 64 = n by omega]

/-- Group IBX: the register at offset `r` of item `n`. -/
theorem locate_ibx (n r : Nat) (hn : n < 64) (hr : r < 0x80) : locate (0x10000 + n / 16 * 0x8000 + 0x7800 + n % 16 * 0x80 + r) =
    (grp_ibx.regs.find? (fun x => x.off = r)).map (fun x => ⟨.ibx, n, 0, n / 16, x⟩) := by
  obtain ⟨q, hq⟩ : ∃ q, q = n / 16 := ⟨_, rfl⟩
  obtain ⟨o, ho⟩ : ∃ o, o = 0x7800 + n % 16 * 0x80 + r := ⟨_, rfl⟩
  have hm : n % 16 < 16 := Nat.mod_lt _ (by decide)
  rw [show 0x10000 + n / 16 * 0x8000 + 0x7800 + n % 16 * 0x80 + r = 0x10000 + q * 0x8000 + o by omega, locate_quad q o (by omega) (by omega)]
  have z : ∀ x ∈ quadGroups, x ≠ grp_ibx → x.locate q o = none := by
    intro x hx hne
    apply Grp.locate_none
    simp only [quadGroups, List.cons_append, List.nil_append] at hx
    fin_cases hx <;> first | exact absurd rfl hne | (simp [grp_qstage, grp_qpwr, grp_axis, grp_me, grp_agu, grp_lane, grp_qio, grp_coach, grp_car, grp_tpl, grp_tc, grp_tcv, grp_sinksel, grp_xline, grp_xbar, grp_convw, grp_feq, grp_feqidle, grp_fe, grp_ibx] <;> omega)
  rw [findSome_unique quadGroups grp_ibx q o (by simp [quadGroups]) z,
    Grp.locate_run grp_ibx q o (n % 16) r (by decide) rfl ho hm (Nat.lt_of_lt_of_le hr (by decide)), hq]
  simp only [show grp_ibx.c1 = 16 from rfl, show grp_ibx.gid = .ibx from rfl, show n / 16 * 16 + n % 16 = n by omega]

/-- Group QSTAGE: the register at offset `r`. -/
theorem locate_qstage (q r : Nat) (hq : q < 4) (hr : r < 0x14) : locate (0x10000 + q * 0x8000 + 0x0 + r) =
    (grp_qstage.regs.find? (fun x => x.off = r)).map (fun x => ⟨.qstage, q, 0, q, x⟩) := by
  obtain ⟨o, ho⟩ : ∃ o, o = 0x0 + r := ⟨_, rfl⟩
  rw [show 0x10000 + q * 0x8000 + 0x0 + r = 0x10000 + q * 0x8000 + o by omega, locate_quad q o hq (by omega)]
  have z : ∀ x ∈ quadGroups, x ≠ grp_qstage → x.locate q o = none := by
    intro x hx hne
    apply Grp.locate_none
    simp only [quadGroups, List.cons_append, List.nil_append] at hx
    fin_cases hx <;> first | exact absurd rfl hne | (simp [grp_qstage, grp_qpwr, grp_axis, grp_me, grp_agu, grp_lane, grp_qio, grp_coach, grp_car, grp_tpl, grp_tc, grp_tcv, grp_sinksel, grp_xline, grp_xbar, grp_convw, grp_feq, grp_feqidle, grp_fe, grp_ibx] <;> omega)
  rw [findSome_unique quadGroups grp_qstage q o (by simp [quadGroups]) z, Grp.locate_one grp_qstage q o r rfl rfl ho]
  simp only [show grp_qstage.c1 = 1 from rfl, show grp_qstage.gid = .qstage from rfl, Nat.mul_one]

/-- Group QPWR: the register at offset `r`. -/
theorem locate_qpwr (q r : Nat) (hq : q < 4) (hr : r < 0x4) : locate (0x10000 + q * 0x8000 + 0x100 + r) =
    (grp_qpwr.regs.find? (fun x => x.off = r)).map (fun x => ⟨.qpwr, q, 0, q, x⟩) := by
  obtain ⟨o, ho⟩ : ∃ o, o = 0x100 + r := ⟨_, rfl⟩
  rw [show 0x10000 + q * 0x8000 + 0x100 + r = 0x10000 + q * 0x8000 + o by omega, locate_quad q o hq (by omega)]
  have z : ∀ x ∈ quadGroups, x ≠ grp_qpwr → x.locate q o = none := by
    intro x hx hne
    apply Grp.locate_none
    simp only [quadGroups, List.cons_append, List.nil_append] at hx
    fin_cases hx <;> first | exact absurd rfl hne | (simp [grp_qstage, grp_qpwr, grp_axis, grp_me, grp_agu, grp_lane, grp_qio, grp_coach, grp_car, grp_tpl, grp_tc, grp_tcv, grp_sinksel, grp_xline, grp_xbar, grp_convw, grp_feq, grp_feqidle, grp_fe, grp_ibx] <;> omega)
  rw [findSome_unique quadGroups grp_qpwr q o (by simp [quadGroups]) z, Grp.locate_one grp_qpwr q o r rfl rfl ho]
  simp only [show grp_qpwr.c1 = 1 from rfl, show grp_qpwr.gid = .qpwr from rfl, Nat.mul_one]

/-- Group COACH: the register at offset `r`. -/
theorem locate_coach (q r : Nat) (hq : q < 4) (hr : r < 0x3C) : locate (0x10000 + q * 0x8000 + 0x1000 + r) =
    (grp_coach.regs.find? (fun x => x.off = r)).map (fun x => ⟨.coach, q, 0, q, x⟩) := by
  obtain ⟨o, ho⟩ : ∃ o, o = 0x1000 + r := ⟨_, rfl⟩
  rw [show 0x10000 + q * 0x8000 + 0x1000 + r = 0x10000 + q * 0x8000 + o by omega, locate_quad q o hq (by omega)]
  have z : ∀ x ∈ quadGroups, x ≠ grp_coach → x.locate q o = none := by
    intro x hx hne
    apply Grp.locate_none
    simp only [quadGroups, List.cons_append, List.nil_append] at hx
    fin_cases hx <;> first | exact absurd rfl hne | (simp [grp_qstage, grp_qpwr, grp_axis, grp_me, grp_agu, grp_lane, grp_qio, grp_coach, grp_car, grp_tpl, grp_tc, grp_tcv, grp_sinksel, grp_xline, grp_xbar, grp_convw, grp_feq, grp_feqidle, grp_fe, grp_ibx] <;> omega)
  rw [findSome_unique quadGroups grp_coach q o (by simp [quadGroups]) z, Grp.locate_one grp_coach q o r rfl rfl ho]
  simp only [show grp_coach.c1 = 1 from rfl, show grp_coach.gid = .coach from rfl, Nat.mul_one]

/-- Group FEQ: the register at offset `r`. -/
theorem locate_feq (q r : Nat) (hq : q < 4) (hr : r < 0x4) : locate (0x10000 + q * 0x8000 + 0x6400 + r) =
    (grp_feq.regs.find? (fun x => x.off = r)).map (fun x => ⟨.feq, q, 0, q, x⟩) := by
  obtain ⟨o, ho⟩ : ∃ o, o = 0x6400 + r := ⟨_, rfl⟩
  rw [show 0x10000 + q * 0x8000 + 0x6400 + r = 0x10000 + q * 0x8000 + o by omega, locate_quad q o hq (by omega)]
  have z : ∀ x ∈ quadGroups, x ≠ grp_feq → x.locate q o = none := by
    intro x hx hne
    apply Grp.locate_none
    simp only [quadGroups, List.cons_append, List.nil_append] at hx
    fin_cases hx <;> first | exact absurd rfl hne | (simp [grp_qstage, grp_qpwr, grp_axis, grp_me, grp_agu, grp_lane, grp_qio, grp_coach, grp_car, grp_tpl, grp_tc, grp_tcv, grp_sinksel, grp_xline, grp_xbar, grp_convw, grp_feq, grp_feqidle, grp_fe, grp_ibx] <;> omega)
  rw [findSome_unique quadGroups grp_feq q o (by simp [quadGroups]) z, Grp.locate_one grp_feq q o r rfl rfl ho]
  simp only [show grp_feq.c1 = 1 from rfl, show grp_feq.gid = .feq from rfl, Nat.mul_one]

/-- LANE[n].CFG. -/
theorem locate_LANE_CFG (n : Fin 512) : locate (0x10000 + n.val / 128 * 0x8000 + 0xC00 + n.val % 128 * 4) =
    some ⟨.lane, n, 0, n.val / 128, ⟨0x0, 0x10, 0x7FF3F, 0x0, 0x0, 0x0, [(4, 2, 3), (0, 2, 3)]⟩⟩ := by revert n; decide +kernel

end Sys2Proof.Machine
end

