-- ==== Sys2Proof/Laws/RegWrite.lean ====
section
/-! SUPPORT. A register write, once: where the register takes it, it is the register's own rule applied to the bits of its access classes; and
the rule of each register that a command of its own writes. -/

namespace Sys2Proof.Machine

theorem Dev.takes_iff (d : Dev) (w : Writer) (off : Nat) : d.takes w off = true ↔
    d.mayWrite w off = true ∧ d.get PWR_STATUS_STATE ≠ 1 ∧ ¬ (0x6000 ≤ off ∧ off < 0x8000) ∧
    ((0x10000 ≤ off ∧ off < 0x30000) → d.quadDown ((off - 0x10000) / 0x8000) = false) := by
  unfold Dev.takes
  by_cases a : 0x10000 ≤ off <;> by_cases b : off < 0x30000 <;> by_cases c : 0x6000 ≤ off <;> by_cases e : off < 0x8000 <;>
    simp [a, b, c, e, and_assoc]

/-- A write that the register takes goes to `writeAt`. -/
theorem Dev.regWrite_takes {d : Dev} {w : Writer} {off : Nat} (v : Word) (h : d.takes w off = true) :
    d.regWrite w off v = d.writeAt w off v := by
  obtain ⟨h1, h2, h3, -⟩ := (Dev.takes_iff d w off).mp h
  unfold Dev.regWrite
  simp [h1, h2, h3]

/-- A value within a mask has no bit outside it. -/
theorem rsvBits_zero {i : RegInfo} {v m : Word} (hm : w32 (i.rw ||| i.ro ||| i.w1c ||| i.wo) = m) (h : v &&& m = v) : rsvBits i v = 0 := by
  unfold rsvBits
  rw [hm, ← h, BitVec.and_assoc]
  simp

/-- A write without reserved bits or encodings, in a quadrant's block. -/
theorem Dev.regWrite_quad {d : Dev} {w : Writer} {off : Nat} {l : Loc} (v : Word) (h : d.takes w off = true) (hl : locate off = some l)
    (hq : 0x10000 ≤ off ∧ off < 0x30000) (hlq : l.q = (off - 0x10000) / 0x8000) (hs : l.gid ≠ .sinksel)
    (hb : badValue l.info v.toNat = false) (hr : refusedValue l v.toNat = false) (hv : rsvBits l.info v = 0)
    (hk : d.isLate w l (v &&& w32 (l.info.rw ||| l.info.w1c ||| l.info.wo)) = false) :
    d.regWrite w off v = d.quadWrite w l off (v &&& w32 (l.info.rw ||| l.info.w1c ||| l.info.wo)) := by
  rw [Dev.regWrite_takes v h]
  obtain ⟨-, -, -, h4⟩ := (Dev.takes_iff d w off).mp h
  unfold Dev.writeAt Dev.regAct
  simp [hl, hs, hb, hr, hv, hq, hlq, h4 hq, hk]

/-- A write without reserved bits or encodings, outside the quadrants' blocks. -/
theorem Dev.regWrite_spine {d : Dev} {w : Writer} {off : Nat} {l : Loc} (v : Word) (h : d.takes w off = true) (hl : locate off = some l)
    (hq : ¬ (0x10000 ≤ off ∧ off < 0x30000)) (hs : l.gid ≠ .sinksel)
    (hb : badValue l.info v.toNat = false) (hr : refusedValue l v.toNat = false) (hv : rsvBits l.info v = 0)
    (hk : d.isLate w l (v &&& w32 (l.info.rw ||| l.info.w1c ||| l.info.wo)) = false) :
    d.regWrite w off v = d.spineWrite w.func l off (v &&& w32 (l.info.rw ||| l.info.w1c ||| l.info.wo)) := by
  rw [Dev.regWrite_takes v h]
  unfold Dev.writeAt Dev.regAct
  simp [hl, hs, hb, hr, hv, hq, hk]

/-- A write without reserved bits or encodings to a register that takes effect on the next tick waits for the end of the tick. -/
theorem Dev.regWrite_late {d : Dev} {w : Writer} {off : Nat} {l : Loc} (v : Word) (h : d.takes w off = true) (hl : locate off = some l)
    (hs : l.gid ≠ .sinksel) (hb : badValue l.info v.toNat = false) (hr : refusedValue l v.toNat = false) (hv : rsvBits l.info v = 0)
    (hu : v &&& w32 (l.info.rw ||| l.info.w1c ||| l.info.wo) = v) (hk : d.isLate w l v = true) : d.regWrite w off v = d.awaiting w off v := by
  rw [Dev.regWrite_takes v h]
  unfold Dev.writeAt Dev.awaiting
  simp [hl, hs, hb, hr, hv, hu, hk]

/-- What waits alone lands alone. -/
theorem Dev.landed_one (d : Dev) (x : LateWrite) (hl : d.late = []) (hr : d.tb.running = true) (hd : x.due ≤ d.tick) (hx : x.rank ≤ 13) :
    ({ d with late := d.late ++ [x] } : Dev).landed = d.lateAct x := by
  have e : ({ d with late := [] } : Dev) = d := by cases d; simp_all
  have hc : x.rank = 0 ∨ x.rank = 1 ∨ x.rank = 2 ∨ x.rank = 3 ∨ x.rank = 4 ∨ x.rank = 5 ∨ x.rank = 6 ∨ x.rank = 7 ∨ x.rank = 8 ∨ x.rank = 9 ∨
      x.rank = 10 ∨ x.rank = 11 ∨ x.rank = 12 ∨ x.rank = 13 := by omega
  unfold Dev.landed
  simp only [hr, if_true, hl, List.nil_append, List.filter_cons, List.filter_nil, hd, decide_true, if_true, Bool.not_true, Bool.false_eq_true,
    if_false, e]
  rcases hc with h | h | h | h | h | h | h | h | h | h | h | h | h | h <;> simp [h]

theorem writerOf_rank (w : Sender) : (writerOf w).rank ≤ 10 := by
  cases w <;> simp only [writerOf, Writer.rank] <;> omega

theorem writerOf_ne (w : Sender) : writerOf w ≠ .commit := by
  cases w <;> simp [writerOf]

/-- Where a register takes a write that lands alone, it is waiting until then. -/
theorem Dev.takesLate_iff (d : Dev) (w : Writer) (off : Nat) :
    d.takesLate w off = true ↔ d.takes w off = true ∧ d.late = [] ∧ d.tb.running = true := by
  unfold Dev.takesLate
  simp [and_assoc]

/-- The landing of a write of a quadrant's register that waits alone. -/
theorem Dev.awaiting_landed_quad {d : Dev} {w : Writer} {off : Nat} {l : Loc} (v : Word) (hw : w.rank ≤ 10) (h : d.takesLate w off = true) (hl : locate off = some l)
    (hq : 0x10000 ≤ off ∧ off < 0x30000) (hlq : l.q = (off - 0x10000) / 0x8000) :
    (d.awaiting w off v).landed = d.quadWrite (Writer.ofCode w.code) l off v := by
  obtain ⟨ht, he, hr⟩ := (Dev.takesLate_iff d w off).mp h
  obtain ⟨-, -, -, h4⟩ := (Dev.takes_iff d w off).mp ht
  unfold Dev.awaiting
  rw [Dev.landed_one d _ he hr (Nat.le_refl _) (Nat.le_trans hw (by decide))]
  unfold Dev.lateAct Dev.regAct
  rw [if_neg (show ¬ w.rank = 13 by omega), if_neg (show ¬ w.rank = 12 by omega)]
  simp only [hl]
  rw [if_neg (show ¬ w.rank = 11 by omega), if_pos hq, hlq, h4 hq]
  rfl

/-- The landing of a write of another register that waits alone. -/
theorem Dev.awaiting_landed_spine {d : Dev} {w : Writer} {off : Nat} {l : Loc} (v : Word) (hw : w.rank ≤ 10) (h : d.takesLate w off = true) (hl : locate off = some l)
    (hq : ¬ (0x10000 ≤ off ∧ off < 0x30000)) :
    (d.awaiting w off v).landed = d.spineWrite (Writer.ofCode w.code).func l off v := by
  obtain ⟨-, he, hr⟩ := (Dev.takesLate_iff d w off).mp h
  unfold Dev.awaiting
  rw [Dev.landed_one d _ he hr (Nat.le_refl _) (Nat.le_trans hw (by decide))]
  unfold Dev.lateAct Dev.regAct
  rw [if_neg (show ¬ w.rank = 13 by omega), if_neg (show ¬ w.rank = 12 by omega)]
  simp only [hl]
  rw [if_neg (show ¬ w.rank = 11 by omega), if_neg hq]

/-! ## Where each register lies -/

theorem locate_AXIS_CFG (i : Fin 8) : locate (AXIS_CFG i) = some ⟨.axis, i, 0, i.val / 2, ⟨0x0, 0x0, 0xFFFF0F07, 0x0, 0x0, 0x0, [(8, 2, 3), (0, 3, 5)]⟩⟩ := by
  have h := locate_axis i 0x0 i.isLt (by decide)
  rw [show AXIS_CFG i = 0x10000 + i / 2 * 0x8000 + 0x400 + i % 2 * 0x200 + 0x0 by unfold AXIS_CFG; omega, h]; rfl
theorem locate_AXIS_STATUS (i : Fin 8) : locate (AXIS_STATUS i) = some ⟨.axis, i, 0, i.val / 2, ⟨0x4, 0x0, 0x0, 0x7B123, 0x4ED8, 0x0, []⟩⟩ := by
  have h := locate_axis i 0x4 i.isLt (by decide)
  rw [show AXIS_STATUS i = 0x10000 + i / 2 * 0x8000 + 0x400 + i % 2 * 0x200 + 0x4 by unfold AXIS_STATUS; omega, h]; rfl
theorem locate_AXIS_POS_LO (i : Fin 8) : locate (AXIS_POS_LO i) = some ⟨.axis, i, 0, i.val / 2, ⟨0x10, 0x0, 0xFFFFFFFF, 0x0, 0x0, 0x0, []⟩⟩ := by
  have h := locate_axis i 0x10 i.isLt (by decide)
  rw [show AXIS_POS_LO i = 0x10000 + i / 2 * 0x8000 + 0x400 + i % 2 * 0x200 + 0x10 by unfold AXIS_POS_LO; omega, h]; rfl
theorem locate_AXIS_LIMIT_LO_LO (i : Fin 8) : locate (AXIS_LIMIT_LO_LO i) = some ⟨.axis, i, 0, i.val / 2, ⟨0x20, 0x0, 0xFFFFFFFF, 0x0, 0x0, 0x0, []⟩⟩ := by
  have h := locate_axis i 0x20 i.isLt (by decide)
  rw [show AXIS_LIMIT_LO_LO i = 0x10000 + i / 2 * 0x8000 + 0x400 + i % 2 * 0x200 + 0x20 by unfold AXIS_LIMIT_LO_LO; omega, h]; rfl
theorem locate_AXIS_LIMIT_HI_LO (i : Fin 8) : locate (AXIS_LIMIT_HI_LO i) = some ⟨.axis, i, 0, i.val / 2, ⟨0x28, 0x0, 0xFFFFFFFF, 0x0, 0x0, 0x0, []⟩⟩ := by
  have h := locate_axis i 0x28 i.isLt (by decide)
  rw [show AXIS_LIMIT_HI_LO i = 0x10000 + i / 2 * 0x8000 + 0x400 + i % 2 * 0x200 + 0x28 by unfold AXIS_LIMIT_HI_LO; omega, h]; rfl
theorem locate_AXIS_EMU_CFG (i : Fin 8) : locate (AXIS_EMU_CFG i) = some ⟨.axis, i, 0, i.val / 2, ⟨0x100, 0x10000020, 0xFF7F0FF3, 0x0, 0x0, 0x0, [(6, 2, 3)]⟩⟩ := by
  have h := locate_axis i 0x100 i.isLt (by decide)
  rw [show AXIS_EMU_CFG i = 0x10000 + i / 2 * 0x8000 + 0x400 + i % 2 * 0x200 + 0x100 by unfold AXIS_EMU_CFG; omega, h]; rfl
theorem locate_AXIS_EMU_RATIO_N (i : Fin 8) : locate (AXIS_EMU_RATIO_N i) = some ⟨.axis, i, 0, i.val / 2, ⟨0x108, 0x1, 0xFFFFFF, 0x0, 0x0, 0x0, []⟩⟩ := by
  have h := locate_axis i 0x108 i.isLt (by decide)
  rw [show AXIS_EMU_RATIO_N i = 0x10000 + i / 2 * 0x8000 + 0x400 + i % 2 * 0x200 + 0x108 by unfold AXIS_EMU_RATIO_N; omega, h]; rfl
theorem locate_TPL_CMD (i : Fin 256) : locate (TPL_CMD i) = some ⟨.tpl, i, 0, i.val / 64, ⟨0x10, 0x0, 0x0, 0x0, 0x0, 0x1, []⟩⟩ := by
  have h := locate_tpl i 0x10 i.isLt (by decide)
  rw [show TPL_CMD i = 0x10000 + i / 64 * 0x8000 + 0x1800 + i % 64 * 0x20 + 0x10 by unfold TPL_CMD; omega, h]; rfl
theorem locate_CAR_FLAGSET (i : Fin 8) : locate (CAR_FLAGSET i) = some ⟨.car, i, 0, i.val / 2, ⟨0x34, 0x0, 0x0, 0x0, 0x0, 0xFFFFFF, []⟩⟩ := by
  have h := locate_car i 0x34 i.isLt (by decide)
  rw [show CAR_FLAGSET i = 0x10000 + i / 2 * 0x8000 + 0x1200 + i % 2 * 0x100 + 0x34 by unfold CAR_FLAGSET; omega, h]; rfl
theorem locate_CAR_CLOSE (i : Fin 8) : locate (CAR_CLOSE i) = some ⟨.car, i, 0, i.val / 2, ⟨0x38, 0x0, 0x0, 0x0, 0x0, 0xFF, []⟩⟩ := by
  have h := locate_car i 0x38 i.isLt (by decide)
  rw [show CAR_CLOSE i = 0x10000 + i / 2 * 0x8000 + 0x1200 + i % 2 * 0x100 + 0x38 by unfold CAR_CLOSE; omega, h]; rfl
theorem locate_COACH_CTL (i : Fin 4) : locate (COACH_CTL i) = some ⟨.coach, i, 0, i, ⟨0x0, 0x0, 0x1, 0x0, 0x0, 0x2, []⟩⟩ := by
  have h := locate_coach i 0x0 i.isLt (by decide)
  rw [show COACH_CTL i = 0x10000 + i * 0x8000 + 0x1000 + 0x0 by unfold COACH_CTL; omega, h]; rfl
theorem locate_TC_STATUS (i : Fin 1024) : locate (TC_STATUS i) = some ⟨.tc, i, 0, i.val / 256, ⟨0x18, 0x0, 0x0, 0xFF0F0850, 0x7AF, 0x0, []⟩⟩ := by
  have h := locate_tc i 0x18 i.isLt (by decide)
  rw [show TC_STATUS i = 0x10000 + i / 256 * 0x8000 + 0x2000 + i % 256 * 0x20 + 0x18 by unfold TC_STATUS; omega, h]; rfl
theorem locate_TC_CNT (i : Fin 1024) : locate (TC_CNT i) = some ⟨.tc, i, 0, i.val / 256, ⟨0x8, 0x0, 0xFFFFFFFF, 0x0, 0x0, 0x0, []⟩⟩ := by
  have h := locate_tc i 0x8 i.isLt (by decide)
  rw [show TC_CNT i = 0x10000 + i / 256 * 0x8000 + 0x2000 + i % 256 * 0x20 + 0x8 by unfold TC_CNT; omega, h]; rfl
theorem locate_TC_CMD (i : Fin 1024) : locate (TC_CMD i) = some ⟨.tc, i, 0, i.val / 256, ⟨0x1C, 0x0, 0x0, 0x0, 0x0, 0x1F, []⟩⟩ := by
  have h := locate_tc i 0x1C i.isLt (by decide)
  rw [show TC_CMD i = 0x10000 + i / 256 * 0x8000 + 0x2000 + i % 256 * 0x20 + 0x1C by unfold TC_CMD; omega, h]; rfl
theorem locate_FE_FINE (i : Fin 256) : locate (FE_FINE i) = some ⟨.fe, i, 0, i.val / 64, ⟨0xC, 0x0, 0x3F3F, 0x0, 0x0, 0x80000000, []⟩⟩ := by
  have h := locate_fe i 0xC i.isLt (by decide)
  rw [show FE_FINE i = 0x10000 + i / 64 * 0x8000 + 0x6800 + i % 64 * 0x40 + 0xC by unfold FE_FINE; omega, h]; rfl
theorem locate_FE_CMD (i : Fin 256) : locate (FE_CMD i) = some ⟨.fe, i, 0, i.val / 64, ⟨0x1C, 0x0, 0x0, 0x0, 0x0, 0xF, []⟩⟩ := by
  have h := locate_fe i 0x1C i.isLt (by decide)
  rw [show FE_CMD i = 0x10000 + i / 64 * 0x8000 + 0x6800 + i % 64 * 0x40 + 0x1C by unfold FE_CMD; omega, h]; rfl
theorem locate_FE_CTL (i : Fin 256) : locate (FE_CTL i) = some ⟨.fe, i, 0, i.val / 64, ⟨0x0, 0x0, 0xFEFC0000, 0x0, 0x0, 0x0, [(29, 2, 3)]⟩⟩ := by
  have h := locate_fe i 0x0 i.isLt (by decide)
  rw [show FE_CTL i = 0x10000 + i / 64 * 0x8000 + 0x6800 + i % 64 * 0x40 + 0x0 by unfold FE_CTL; omega, h]; rfl
theorem locate_FEQ_CTL (i : Fin 4) : locate (FEQ_CTL i) = some ⟨.feq, i, 0, i, ⟨0x0, 0x0, 0x0, 0x0, 0x0, 0x1, []⟩⟩ := by
  have h := locate_feq i 0x0 i.isLt (by decide)
  rw [show FEQ_CTL i = 0x10000 + i * 0x8000 + 0x6400 + 0x0 by unfold FEQ_CTL; omega, h]; rfl
theorem locate_IBX_CMD (i : Fin 64) : locate (IBX_CMD i) = some ⟨.ibx, i, 0, i.val / 16, ⟨0x8, 0x0, 0x0, 0x0, 0x0, 0x7B, []⟩⟩ := by
  have h := locate_ibx i 0x8 i.isLt (by decide)
  rw [show IBX_CMD i = 0x10000 + i / 16 * 0x8000 + 0x7800 + i % 16 * 0x80 + 0x8 by unfold IBX_CMD; omega, h]; rfl
theorem locate_IBX_CTL (i : Fin 64) : locate (IBX_CTL i) = some ⟨.ibx, i, 0, i.val / 16, ⟨0x0, 0x0, 0xFFFC0000, 0x0, 0x0, 0x0, []⟩⟩ := by
  have h := locate_ibx i 0x0 i.isLt (by decide)
  rw [show IBX_CTL i = 0x10000 + i / 16 * 0x8000 + 0x7800 + i % 16 * 0x80 + 0x0 by unfold IBX_CTL; omega, h]; rfl
theorem locate_IBX_PDATA (i : Fin 64) : locate (IBX_PDATA i) = some ⟨.ibx, i, 0, i.val / 16, ⟨0x18, 0x0, 0xFFFFFF, 0x0, 0x0, 0x0, []⟩⟩ := by
  have h := locate_ibx i 0x18 i.isLt (by decide)
  rw [show IBX_PDATA i = 0x10000 + i / 16 * 0x8000 + 0x7800 + i % 16 * 0x80 + 0x18 by unfold IBX_PDATA; omega, h]; rfl
theorem locate_IBX_TXDATA (i : Fin 64) : locate (IBX_TXDATA i) = some ⟨.ibx, i, 0, i.val / 16, ⟨0x24, 0x0, 0x0, 0x0, 0x0, 0xFFFFFFFF, []⟩⟩ := by
  have h := locate_ibx i 0x24 i.isLt (by decide)
  rw [show IBX_TXDATA i = 0x10000 + i / 16 * 0x8000 + 0x7800 + i % 16 * 0x80 + 0x24 by unfold IBX_TXDATA; omega, h]; rfl
theorem locate_IBX_TXS_CTL (i : Fin 64) : locate (IBX_TXS_CTL i) = some ⟨.ibx, i, 0, i.val / 16, ⟨0x54, 0x0, 0x7, 0xFFFFFF00, 0x8, 0x0, []⟩⟩ := by
  have h := locate_ibx i 0x54 i.isLt (by decide)
  rw [show IBX_TXS_CTL i = 0x10000 + i / 16 * 0x8000 + 0x7800 + i % 16 * 0x80 + 0x54 by unfold IBX_TXS_CTL; omega, h]; rfl
theorem locate_IBX_RXS_CTL (i : Fin 64) : locate (IBX_RXS_CTL i) = some ⟨.ibx, i, 0, i.val / 16, ⟨0x60, 0x0, 0x7, 0xFFFFFF00, 0x8, 0x0, []⟩⟩ := by
  have h := locate_ibx i 0x60 i.isLt (by decide)
  rw [show IBX_RXS_CTL i = 0x10000 + i / 16 * 0x8000 + 0x7800 + i % 16 * 0x80 + 0x60 by unfold IBX_RXS_CTL; omega, h]; rfl
theorem locate_IBX_HOCTL (i : Fin 64) : locate (IBX_HOCTL i) = some ⟨.ibx, i, 0, i.val / 16, ⟨0x48, 0x0, 0x3F, 0x0, 0x0, 0x80000000, []⟩⟩ := by
  have h := locate_ibx i 0x48 i.isLt (by decide)
  rw [show IBX_HOCTL i = 0x10000 + i / 16 * 0x8000 + 0x7800 + i % 16 * 0x80 + 0x48 by unfold IBX_HOCTL; omega, h]; rfl
theorem locate_QPWR_IBXRST (i : Fin 4) : locate (QPWR_IBXRST i) = some ⟨.qpwr, i, 0, i, ⟨0x0, 0x0, 0x0, 0x0, 0x0, 0xFFFF, []⟩⟩ := by
  have h := locate_qpwr i 0x0 i.isLt (by decide)
  rw [show QPWR_IBXRST i = 0x10000 + i * 0x8000 + 0x100 + 0x0 by unfold QPWR_IBXRST; omega, h]; rfl
theorem locate_ME_CTL (i : Fin 8) : locate (ME_CTL i) = some ⟨.me, i, 0, i.val / 2, ⟨0x0, 0x0, 0x80000000, 0x0, 0x0, 0x1, []⟩⟩ := by
  revert i; decide +kernel
theorem locate_ME_IMDATA_LO (i : Fin 8) : locate (ME_IMDATA_LO i) = some ⟨.me, i, 0, i.val / 2, ⟨0x34, 0x0, 0xFFFFFFFF, 0x0, 0x0, 0x0, []⟩⟩ := by
  revert i; decide +kernel
theorem locate_QSTAGE_VAL (i : Fin 4) : locate (QSTAGE_VAL i) = some ⟨.qstage, i, 0, i, ⟨0x8, 0x0, 0x0, 0x0, 0x0, 0xFFFFFFFF, []⟩⟩ := by
  have h := locate_qstage i 0x8 i.isLt (by decide)
  rw [show QSTAGE_VAL i = 0x10000 + i * 0x8000 + 0x0 + 0x8 by unfold QSTAGE_VAL; omega, h]; rfl
theorem locate_QSTAGE_CMD (i : Fin 4) : locate (QSTAGE_CMD i) = some ⟨.qstage, i, 0, i, ⟨0xC, 0x0, 0x0, 0x0, 0x0, 0x1, []⟩⟩ := by
  have h := locate_qstage i 0xC i.isLt (by decide)
  rw [show QSTAGE_CMD i = 0x10000 + i * 0x8000 + 0x0 + 0xC by unfold QSTAGE_CMD; omega, h]; rfl
theorem locate_SR_CFG (i : Fin 32) : locate (SR_CFG i) = some ⟨.sr, i, 0, 0, ⟨0x8, 0x40080, 0x9F1F00F0, 0x0, 0x0, 0x0, []⟩⟩ := by
  revert i; decide +kernel
theorem locate_RR_CFG (i : Fin 32) : locate (RR_CFG i) = some ⟨.rr, i, 0, 0, ⟨0x8, 0x40000, 0xC01F0000, 0x0, 0x0, 0x0, []⟩⟩ := by
  revert i; decide +kernel
theorem locate_TB_REFCFG  : locate (TB_REFCFG) = some ⟨.tb, 0, 0, 0, ⟨0x10, 0x2, 0xF, 0x0, 0x0, 0x0, []⟩⟩ := by
  decide +kernel
theorem locate_TB_CTL  : locate (TB_CTL) = some ⟨.tb, 0, 0, 0, ⟨0x0, 0x0, 0x0, 0x0, 0x0, 0x7, []⟩⟩ := by
  decide +kernel
theorem locate_MEM_SPARECFG  : locate (MEM_SPARECFG) = some ⟨.mem, 0, 0, 0, ⟨0x8, 0x400100, 0xFFFFFF0F, 0x0, 0x0, 0x80, []⟩⟩ := by
  decide +kernel
theorem locate_MEM_TESTCTL  : locate (MEM_TESTCTL) = some ⟨.mem, 0, 0, 0, ⟨0xA0, 0x0, 0x0, 0x0, 0x0, 0x3FF0001, []⟩⟩ := by
  decide +kernel
theorem locate_MV_CMD (i : Fin 64) : locate (MV_CMD i) = some ⟨.mv, i, 0, 0, ⟨0x14, 0x0, 0x0, 0x0, 0x0, 0x3, []⟩⟩ := by
  revert i; decide +kernel
theorem locate_SVCPRES_PRES  : locate (SVCPRES_PRES) = some ⟨.svcpres, 0, 0, 0, ⟨0x0, 0x0, 0x0, 0xE0FF003F, 0x0, 0x8000, []⟩⟩ := by
  decide +kernel
theorem locate_SVCPRES_SEAL  : locate (SVCPRES_SEAL) = some ⟨.svcpres, 0, 0, 0, ⟨0x4, 0x0, 0x0, 0x6, 0x9, 0x0, []⟩⟩ := by
  decide +kernel
theorem locate_SVC_QHOLD  : locate (SVC_QHOLD) = some ⟨.svc, 0, 0, 0, ⟨0x14, 0x0, 0xF, 0x0, 0x0, 0x0, []⟩⟩ := by
  decide +kernel
theorem locate_SVC_QRELEASE  : locate (SVC_QRELEASE) = some ⟨.svc, 0, 0, 0, ⟨0x18, 0x0, 0x0, 0x0, 0x0, 0x80000003, []⟩⟩ := by
  decide +kernel
theorem locate_PWR_CTL  : locate (PWR_CTL) = some ⟨.pwr, 0, 0, 0, ⟨0x0, 0x0, 0x3, 0x0, 0x0, 0x80000000, [(0, 2, 3)]⟩⟩ := by
  decide +kernel
theorem locate_GLB_RSVW  : locate (GLB_RSVW) = some ⟨.glb, 0, 0, 0, ⟨0xC, 0x0, 0x0, 0xF3FFFF, 0x80000000, 0x0, []⟩⟩ := by
  decide +kernel

/-! ## What each register does with a write -/

/-- A write of AXIS_CFG that it takes waits for the end of the tick. -/
theorem lands_AXIS_CFG {d : Dev} {w : Writer} (i : Fin 8) (v : Word) (hw : w.rank ≤ 10) (h : d.takesLate w (AXIS_CFG i) = true)
    (hv : v &&& 0xFFFF0F07 = v) (hb : badValue ⟨0x0, 0x0, 0xFFFF0F07, 0x0, 0x0, 0x0, [(8, 2, 3), (0, 3, 5)]⟩ v.toNat = false) : d.regWrite w (AXIS_CFG i) v = d.awaiting w (AXIS_CFG i) v ∧ (d.awaiting w (AXIS_CFG i) v).landed = d.axCfg i v.toNat := by
  have hn := i.isLt
  obtain ⟨ht, -, hr⟩ := (Dev.takesLate_iff _ _ _).mp h
  refine ⟨Dev.regWrite_late v ht (locate_AXIS_CFG i) (by show Gid.axis ≠ _; decide) hb rfl (rsvBits_zero (m := 0xFFFF0F07) (show w32 (0xFFFF0F07 ||| 0x0 ||| 0x0 ||| 0x0) = (0xFFFF0F07 : Word) from by decide) hv)
    ((congrArg (v &&& ·) (show w32 (0xFFFF0F07 ||| 0x0 ||| 0x0) = (0xFFFF0F07 : Word) from by decide)).trans hv) (by simp [Dev.isLate, lateReg]), ?_⟩
  refine (Dev.awaiting_landed_quad v hw h (locate_AXIS_CFG i) (by unfold AXIS_CFG; omega) (by simp only [AXIS_CFG]; omega)).trans ?_
  simp only [Dev.quadWrite, Dev.axisWrite]

/-- A write of AXIS_POS_LO that it takes waits for the end of the tick. -/
theorem lands_AXIS_POS_LO {d : Dev} {w : Writer} (i : Fin 8) (v : Word) (hw : w.rank ≤ 10) (h : d.takesLate w (AXIS_POS_LO i) = true)
    : d.regWrite w (AXIS_POS_LO i) v = d.awaiting w (AXIS_POS_LO i) v ∧ (d.awaiting w (AXIS_POS_LO i) v).landed = d.posWrite i v.toNat := by
  have hn := i.isLt
  have hv : v &&& 0xFFFFFFFF = v := by rw [show (0xFFFFFFFF : Word) = BitVec.allOnes 32 from rfl, BitVec.and_allOnes]
  obtain ⟨ht, -, hr⟩ := (Dev.takesLate_iff _ _ _).mp h
  refine ⟨Dev.regWrite_late v ht (locate_AXIS_POS_LO i) (by show Gid.axis ≠ _; decide) rfl rfl (rsvBits_zero (m := 0xFFFFFFFF) (show w32 (0xFFFFFFFF ||| 0x0 ||| 0x0 ||| 0x0) = (0xFFFFFFFF : Word) from by decide) hv)
    ((congrArg (v &&& ·) (show w32 (0xFFFFFFFF ||| 0x0 ||| 0x0) = (0xFFFFFFFF : Word) from by decide)).trans hv) (by simp [Dev.isLate, lateReg]), ?_⟩
  refine (Dev.awaiting_landed_quad v hw h (locate_AXIS_POS_LO i) (by unfold AXIS_POS_LO; omega) (by simp only [AXIS_POS_LO]; omega)).trans ?_
  simp only [Dev.quadWrite, Dev.axisWrite]

/-- A write of AXIS_LIMIT_LO_LO that it takes waits for the end of the tick. -/
theorem lands_AXIS_LIMIT_LO_LO {d : Dev} {w : Writer} (i : Fin 8) (v : Word) (hw : w.rank ≤ 10) (h : d.takesLate w (AXIS_LIMIT_LO_LO i) = true)
    : d.regWrite w (AXIS_LIMIT_LO_LO i) v = d.awaiting w (AXIS_LIMIT_LO_LO i) v ∧ (d.awaiting w (AXIS_LIMIT_LO_LO i) v).landed = d.limitWrite i false v.toNat := by
  have hn := i.isLt
  have hv : v &&& 0xFFFFFFFF = v := by rw [show (0xFFFFFFFF : Word) = BitVec.allOnes 32 from rfl, BitVec.and_allOnes]
  obtain ⟨ht, -, hr⟩ := (Dev.takesLate_iff _ _ _).mp h
  refine ⟨Dev.regWrite_late v ht (locate_AXIS_LIMIT_LO_LO i) (by show Gid.axis ≠ _; decide) rfl rfl (rsvBits_zero (m := 0xFFFFFFFF) (show w32 (0xFFFFFFFF ||| 0x0 ||| 0x0 ||| 0x0) = (0xFFFFFFFF : Word) from by decide) hv)
    ((congrArg (v &&& ·) (show w32 (0xFFFFFFFF ||| 0x0 ||| 0x0) = (0xFFFFFFFF : Word) from by decide)).trans hv) (by simp [Dev.isLate, lateReg]), ?_⟩
  refine (Dev.awaiting_landed_quad v hw h (locate_AXIS_LIMIT_LO_LO i) (by unfold AXIS_LIMIT_LO_LO; omega) (by simp only [AXIS_LIMIT_LO_LO]; omega)).trans ?_
  simp only [Dev.quadWrite, Dev.axisWrite]

/-- A write of AXIS_LIMIT_HI_LO that it takes waits for the end of the tick. -/
theorem lands_AXIS_LIMIT_HI_LO {d : Dev} {w : Writer} (i : Fin 8) (v : Word) (hw : w.rank ≤ 10) (h : d.takesLate w (AXIS_LIMIT_HI_LO i) = true)
    : d.regWrite w (AXIS_LIMIT_HI_LO i) v = d.awaiting w (AXIS_LIMIT_HI_LO i) v ∧ (d.awaiting w (AXIS_LIMIT_HI_LO i) v).landed = d.limitWrite i true v.toNat := by
  have hn := i.isLt
  have hv : v &&& 0xFFFFFFFF = v := by rw [show (0xFFFFFFFF : Word) = BitVec.allOnes 32 from rfl, BitVec.and_allOnes]
  obtain ⟨ht, -, hr⟩ := (Dev.takesLate_iff _ _ _).mp h
  refine ⟨Dev.regWrite_late v ht (locate_AXIS_LIMIT_HI_LO i) (by show Gid.axis ≠ _; decide) rfl rfl (rsvBits_zero (m := 0xFFFFFFFF) (show w32 (0xFFFFFFFF ||| 0x0 ||| 0x0 ||| 0x0) = (0xFFFFFFFF : Word) from by decide) hv)
    ((congrArg (v &&& ·) (show w32 (0xFFFFFFFF ||| 0x0 ||| 0x0) = (0xFFFFFFFF : Word) from by decide)).trans hv) (by simp [Dev.isLate, lateReg]), ?_⟩
  refine (Dev.awaiting_landed_quad v hw h (locate_AXIS_LIMIT_HI_LO i) (by unfold AXIS_LIMIT_HI_LO; omega) (by simp only [AXIS_LIMIT_HI_LO]; omega)).trans ?_
  simp only [Dev.quadWrite, Dev.axisWrite]

/-- A write of AXIS_EMU_CFG that it takes waits for the end of the tick. -/
theorem lands_AXIS_EMU_CFG {d : Dev} {w : Writer} (i : Fin 8) (v : Word) (hw : w.rank ≤ 10) (h : d.takesLate w (AXIS_EMU_CFG i) = true)
    (hv : v &&& 0xFF7F0FF3 = v) (hb : badValue ⟨0x100, 0x10000020, 0xFF7F0FF3, 0x0, 0x0, 0x0, [(6, 2, 3)]⟩ v.toNat = false) : d.regWrite w (AXIS_EMU_CFG i) v = d.awaiting w (AXIS_EMU_CFG i) v ∧ (d.awaiting w (AXIS_EMU_CFG i) v).landed = d.emuCfg i v.toNat := by
  have hn := i.isLt
  obtain ⟨ht, -, hr⟩ := (Dev.takesLate_iff _ _ _).mp h
  refine ⟨Dev.regWrite_late v ht (locate_AXIS_EMU_CFG i) (by show Gid.axis ≠ _; decide) hb rfl (rsvBits_zero (m := 0xFF7F0FF3) (show w32 (0xFF7F0FF3 ||| 0x0 ||| 0x0 ||| 0x0) = (0xFF7F0FF3 : Word) from by decide) hv)
    ((congrArg (v &&& ·) (show w32 (0xFF7F0FF3 ||| 0x0 ||| 0x0) = (0xFF7F0FF3 : Word) from by decide)).trans hv) (by simp [Dev.isLate, lateReg]), ?_⟩
  refine (Dev.awaiting_landed_quad v hw h (locate_AXIS_EMU_CFG i) (by unfold AXIS_EMU_CFG; omega) (by simp only [AXIS_EMU_CFG]; omega)).trans ?_
  simp only [Dev.quadWrite, Dev.axisWrite]

/-- A write of AXIS_EMU_RATIO_N that it takes. -/
theorem regWrite_AXIS_EMU_RATIO_N {d : Dev} {w : Writer} (i : Fin 8) (v : Word) (hw : w ≠ .commit) (h : d.takes w (AXIS_EMU_RATIO_N i) = true)
    (hv : v &&& 0xFFFFFF = v) : d.regWrite w (AXIS_EMU_RATIO_N i) v = d.emuRatioN i v.toNat := by
  have hn := i.isLt
  refine (Dev.regWrite_quad v h (locate_AXIS_EMU_RATIO_N i) (by unfold AXIS_EMU_RATIO_N; omega) (by simp only [AXIS_EMU_RATIO_N]; omega) (by show Gid.axis ≠ _; decide) rfl rfl
    (rsvBits_zero (m := 0xFFFFFF) (show w32 (0xFFFFFF ||| 0x0 ||| 0x0 ||| 0x0) = (0xFFFFFF : Word) from by decide) hv) (by simp [Dev.isLate, lateReg, hw])).trans ?_
  show d.quadWrite w ⟨.axis, i, 0, i.val / 2, ⟨0x108, 0x1, 0xFFFFFF, 0x0, 0x0, 0x0, []⟩⟩ _ (v &&& w32 (0xFFFFFF ||| 0x0 ||| 0x0)) = _
  rw [show w32 (0xFFFFFF ||| 0x0 ||| 0x0) = (0xFFFFFF : Word) from by decide, hv]
  simp only [Dev.quadWrite, Dev.axisWrite]

/-- A write of TPL_CMD that it takes. -/
theorem regWrite_TPL_CMD {d : Dev} {w : Writer} (i : Fin 256) (v : Word) (hw : w ≠ .commit) (h : d.takes w (TPL_CMD i) = true)
    (hv : v &&& 0x1 = v) : d.regWrite w (TPL_CMD i) v = if bitAt v.toNat 0 then d.tplSwap i (w == .commit) else d := by
  have hn := i.isLt
  refine (Dev.regWrite_quad v h (locate_TPL_CMD i) (by unfold TPL_CMD; omega) (by simp only [TPL_CMD]; omega) (by show Gid.tpl ≠ _; decide) rfl rfl
    (rsvBits_zero (m := 0x1) (show w32 (0x0 ||| 0x0 ||| 0x0 ||| 0x1) = (0x1 : Word) from by decide) hv) (by simp [Dev.isLate, lateReg, hw])).trans ?_
  show d.quadWrite w ⟨.tpl, i, 0, i.val / 64, ⟨0x10, 0x0, 0x0, 0x0, 0x0, 0x1, []⟩⟩ _ (v &&& w32 (0x0 ||| 0x0 ||| 0x1)) = _
  rw [show w32 (0x0 ||| 0x0 ||| 0x1) = (0x1 : Word) from by decide, hv]
  simp only [Dev.quadWrite]

/-- A write of CAR_FLAGSET that it takes waits for the end of the tick. -/
theorem lands_CAR_FLAGSET {d : Dev} {w : Writer} (i : Fin 8) (v : Word) (hw : w.rank ≤ 10) (h : d.takesLate w (CAR_FLAGSET i) = true)
    (hv : v &&& 0xFFFFFF = v) : d.regWrite w (CAR_FLAGSET i) v = d.awaiting w (CAR_FLAGSET i) v ∧ (d.awaiting w (CAR_FLAGSET i) v).landed = d.carFlags i v.toNat := by
  have hn := i.isLt
  obtain ⟨ht, -, hr⟩ := (Dev.takesLate_iff _ _ _).mp h
  refine ⟨Dev.regWrite_late v ht (locate_CAR_FLAGSET i) (by show Gid.car ≠ _; decide) rfl rfl (rsvBits_zero (m := 0xFFFFFF) (show w32 (0x0 ||| 0x0 ||| 0x0 ||| 0xFFFFFF) = (0xFFFFFF : Word) from by decide) hv)
    ((congrArg (v &&& ·) (show w32 (0x0 ||| 0x0 ||| 0xFFFFFF) = (0xFFFFFF : Word) from by decide)).trans hv) (by simp [Dev.isLate, lateReg]), ?_⟩
  refine (Dev.awaiting_landed_quad v hw h (locate_CAR_FLAGSET i) (by unfold CAR_FLAGSET; omega) (by simp only [CAR_FLAGSET]; omega)).trans ?_
  simp only [Dev.quadWrite]

/-- A write of CAR_CLOSE that it takes. -/
theorem regWrite_CAR_CLOSE {d : Dev} {w : Writer} (i : Fin 8) (v : Word) (hw : w ≠ .commit) (h : d.takes w (CAR_CLOSE i) = true)
    (hv : v &&& 0xFF = v) : d.regWrite w (CAR_CLOSE i) v = d.carCloseCmd i v.toNat := by
  have hn := i.isLt
  refine (Dev.regWrite_quad v h (locate_CAR_CLOSE i) (by unfold CAR_CLOSE; omega) (by simp only [CAR_CLOSE]; omega) (by show Gid.car ≠ _; decide) rfl rfl
    (rsvBits_zero (m := 0xFF) (show w32 (0x0 ||| 0x0 ||| 0x0 ||| 0xFF) = (0xFF : Word) from by decide) hv) (by simp [Dev.isLate, lateReg, hw])).trans ?_
  show d.quadWrite w ⟨.car, i, 0, i.val / 2, ⟨0x38, 0x0, 0x0, 0x0, 0x0, 0xFF, []⟩⟩ _ (v &&& w32 (0x0 ||| 0x0 ||| 0xFF)) = _
  rw [show w32 (0x0 ||| 0x0 ||| 0xFF) = (0xFF : Word) from by decide, hv]
  simp only [Dev.quadWrite]

/-- A write of COACH_CTL that it takes. -/
theorem regWrite_COACH_CTL {d : Dev} {w : Writer} (i : Fin 4) (v : Word) (hw : w ≠ .commit) (h : d.takes w (COACH_CTL i) = true)
    (hv : v &&& 0x3 = v) : d.regWrite w (COACH_CTL i) v = d.coachCtl i v.toNat := by
  have hn := i.isLt
  refine (Dev.regWrite_quad v h (locate_COACH_CTL i) (by unfold COACH_CTL; omega) (by simp only [COACH_CTL]; omega) (by show Gid.coach ≠ _; decide) rfl rfl
    (rsvBits_zero (m := 0x3) (show w32 (0x1 ||| 0x0 ||| 0x0 ||| 0x2) = (0x3 : Word) from by decide) hv) (by simp [Dev.isLate, lateReg, hw])).trans ?_
  show d.quadWrite w ⟨.coach, i, 0, i, ⟨0x0, 0x0, 0x1, 0x0, 0x0, 0x2, []⟩⟩ _ (v &&& w32 (0x1 ||| 0x0 ||| 0x2)) = _
  rw [show w32 (0x1 ||| 0x0 ||| 0x2) = (0x3 : Word) from by decide, hv]
  simp only [Dev.quadWrite]

/-- A write of TC_CNT that it takes waits for the end of the tick. -/
theorem lands_TC_CNT {d : Dev} {w : Writer} (i : Fin 1024) (v : Word) (hw : w.rank ≤ 10) (h : d.takesLate w (TC_CNT i) = true)
    : d.regWrite w (TC_CNT i) v = d.awaiting w (TC_CNT i) v ∧ (d.awaiting w (TC_CNT i) v).landed = d.tcCntWrite i v.toNat := by
  have hn := i.isLt
  have hv : v &&& 0xFFFFFFFF = v := by rw [show (0xFFFFFFFF : Word) = BitVec.allOnes 32 from rfl, BitVec.and_allOnes]
  obtain ⟨ht, -, hr⟩ := (Dev.takesLate_iff _ _ _).mp h
  refine ⟨Dev.regWrite_late v ht (locate_TC_CNT i) (by show Gid.tc ≠ _; decide) rfl rfl (rsvBits_zero (m := 0xFFFFFFFF) (show w32 (0xFFFFFFFF ||| 0x0 ||| 0x0 ||| 0x0) = (0xFFFFFFFF : Word) from by decide) hv)
    ((congrArg (v &&& ·) (show w32 (0xFFFFFFFF ||| 0x0 ||| 0x0) = (0xFFFFFFFF : Word) from by decide)).trans hv) (by simp [Dev.isLate, lateReg]), ?_⟩
  refine (Dev.awaiting_landed_quad v hw h (locate_TC_CNT i) (by unfold TC_CNT; omega) (by simp only [TC_CNT]; omega)).trans ?_
  simp only [Dev.quadWrite, Dev.tcWrite]

/-- A write of TC_CMD that it takes waits for the end of the tick. -/
theorem lands_TC_CMD {d : Dev} {w : Writer} (i : Fin 1024) (v : Word) (hw : w.rank ≤ 10) (h : d.takesLate w (TC_CMD i) = true)
    (hv : v &&& 0x1F = v) : d.regWrite w (TC_CMD i) v = d.awaiting w (TC_CMD i) v ∧ (d.awaiting w (TC_CMD i) v).landed = d.tcCmd i v.toNat := by
  have hn := i.isLt
  obtain ⟨ht, -, hr⟩ := (Dev.takesLate_iff _ _ _).mp h
  refine ⟨Dev.regWrite_late v ht (locate_TC_CMD i) (by show Gid.tc ≠ _; decide) rfl rfl (rsvBits_zero (m := 0x1F) (show w32 (0x0 ||| 0x0 ||| 0x0 ||| 0x1F) = (0x1F : Word) from by decide) hv)
    ((congrArg (v &&& ·) (show w32 (0x0 ||| 0x0 ||| 0x1F) = (0x1F : Word) from by decide)).trans hv) (by simp [Dev.isLate, lateReg]), ?_⟩
  refine (Dev.awaiting_landed_quad v hw h (locate_TC_CMD i) (by unfold TC_CMD; omega) (by simp only [TC_CMD]; omega)).trans ?_
  simp only [Dev.quadWrite, Dev.tcWrite]

/-- A write of FE_FINE that it takes. -/
theorem regWrite_FE_FINE {d : Dev} {w : Writer} (i : Fin 256) (v : Word) (hw : w ≠ .commit) (h : d.takes w (FE_FINE i) = true)
    (hv : v &&& 0x80003F3F = v) : d.regWrite w (FE_FINE i) v = d.feFineWrite i v.toNat := by
  have hn := i.isLt
  refine (Dev.regWrite_quad v h (locate_FE_FINE i) (by unfold FE_FINE; omega) (by simp only [FE_FINE]; omega) (by show Gid.fe ≠ _; decide) rfl rfl
    (rsvBits_zero (m := 0x80003F3F) (show w32 (0x3F3F ||| 0x0 ||| 0x0 ||| 0x80000000) = (0x80003F3F : Word) from by decide) hv) (by simp [Dev.isLate, lateReg, hw])).trans ?_
  show d.quadWrite w ⟨.fe, i, 0, i.val / 64, ⟨0xC, 0x0, 0x3F3F, 0x0, 0x0, 0x80000000, []⟩⟩ _ (v &&& w32 (0x3F3F ||| 0x0 ||| 0x80000000)) = _
  rw [show w32 (0x3F3F ||| 0x0 ||| 0x80000000) = (0x80003F3F : Word) from by decide, hv]
  simp only [Dev.quadWrite]

/-- A write of FE_CMD that it takes waits for the end of the tick. -/
theorem lands_FE_CMD {d : Dev} {w : Writer} (i : Fin 256) (v : Word) (hw : w.rank ≤ 10) (h : d.takesLate w (FE_CMD i) = true)
    (hv : v &&& 0xF = v) : d.regWrite w (FE_CMD i) v = d.awaiting w (FE_CMD i) v ∧ (d.awaiting w (FE_CMD i) v).landed = d.feCmd i v.toNat := by
  have hn := i.isLt
  obtain ⟨ht, -, hr⟩ := (Dev.takesLate_iff _ _ _).mp h
  refine ⟨Dev.regWrite_late v ht (locate_FE_CMD i) (by show Gid.fe ≠ _; decide) rfl rfl (rsvBits_zero (m := 0xF) (show w32 (0x0 ||| 0x0 ||| 0x0 ||| 0xF) = (0xF : Word) from by decide) hv)
    ((congrArg (v &&& ·) (show w32 (0x0 ||| 0x0 ||| 0xF) = (0xF : Word) from by decide)).trans hv) (by simp [Dev.isLate, lateReg]), ?_⟩
  refine (Dev.awaiting_landed_quad v hw h (locate_FE_CMD i) (by unfold FE_CMD; omega) (by simp only [FE_CMD]; omega)).trans ?_
  simp only [Dev.quadWrite]

/-- A write of FE_CTL that it takes waits for the end of the tick. -/
theorem lands_FE_CTL {d : Dev} {w : Writer} (i : Fin 256) (v : Word) (hw : w.rank ≤ 10) (h : d.takesLate w (FE_CTL i) = true)
    (hv : v &&& 0xFEFC0000 = v) (hb : badValue ⟨0x0, 0x0, 0xFEFC0000, 0x0, 0x0, 0x0, [(29, 2, 3)]⟩ v.toNat = false) : d.regWrite w (FE_CTL i) v = d.awaiting w (FE_CTL i) v ∧ (d.awaiting w (FE_CTL i) v).landed = d.feCtl i v.toNat := by
  have hn := i.isLt
  obtain ⟨ht, -, hr⟩ := (Dev.takesLate_iff _ _ _).mp h
  refine ⟨Dev.regWrite_late v ht (locate_FE_CTL i) (by show Gid.fe ≠ _; decide) hb rfl (rsvBits_zero (m := 0xFEFC0000) (show w32 (0xFEFC0000 ||| 0x0 ||| 0x0 ||| 0x0) = (0xFEFC0000 : Word) from by decide) hv)
    ((congrArg (v &&& ·) (show w32 (0xFEFC0000 ||| 0x0 ||| 0x0) = (0xFEFC0000 : Word) from by decide)).trans hv) (by simp [Dev.isLate, lateReg]), ?_⟩
  refine (Dev.awaiting_landed_quad v hw h (locate_FE_CTL i) (by unfold FE_CTL; omega) (by simp only [FE_CTL]; omega)).trans ?_
  simp only [Dev.quadWrite]

/-- A write of FEQ_CTL that it takes waits for the end of the tick. -/
theorem lands_FEQ_CTL {d : Dev} {w : Writer} (i : Fin 4) (v : Word) (hw : w.rank ≤ 10) (h : d.takesLate w (FEQ_CTL i) = true)
    (hv : v &&& 0x1 = v) : d.regWrite w (FEQ_CTL i) v = d.awaiting w (FEQ_CTL i) v ∧ (d.awaiting w (FEQ_CTL i) v).landed = if bitAt v.toNat 0 then d.feDisableAll i else d := by
  have hn := i.isLt
  obtain ⟨ht, -, hr⟩ := (Dev.takesLate_iff _ _ _).mp h
  refine ⟨Dev.regWrite_late v ht (locate_FEQ_CTL i) (by show Gid.feq ≠ _; decide) rfl rfl (rsvBits_zero (m := 0x1) (show w32 (0x0 ||| 0x0 ||| 0x0 ||| 0x1) = (0x1 : Word) from by decide) hv)
    ((congrArg (v &&& ·) (show w32 (0x0 ||| 0x0 ||| 0x1) = (0x1 : Word) from by decide)).trans hv) (by simp [Dev.isLate, lateReg]), ?_⟩
  refine (Dev.awaiting_landed_quad v hw h (locate_FEQ_CTL i) (by unfold FEQ_CTL; omega) (by simp only [FEQ_CTL]; omega)).trans ?_
  simp only [Dev.quadWrite]

/-- A write of IBX_CMD that it takes waits for the end of the tick. -/
theorem lands_IBX_CMD {d : Dev} {w : Writer} (i : Fin 64) (v : Word) (hw : w.rank ≤ 10) (h : d.takesLate w (IBX_CMD i) = true)
    (hv : v &&& 0x7B = v) : d.regWrite w (IBX_CMD i) v = d.awaiting w (IBX_CMD i) v ∧ (d.awaiting w (IBX_CMD i) v).landed = d.ibxCmd i v.toNat := by
  have hn := i.isLt
  obtain ⟨ht, -, hr⟩ := (Dev.takesLate_iff _ _ _).mp h
  refine ⟨Dev.regWrite_late v ht (locate_IBX_CMD i) (by show Gid.ibx ≠ _; decide) rfl rfl (rsvBits_zero (m := 0x7B) (show w32 (0x0 ||| 0x0 ||| 0x0 ||| 0x7B) = (0x7B : Word) from by decide) hv)
    ((congrArg (v &&& ·) (show w32 (0x0 ||| 0x0 ||| 0x7B) = (0x7B : Word) from by decide)).trans hv) (by simp [Dev.isLate, lateReg]), ?_⟩
  refine (Dev.awaiting_landed_quad v hw h (locate_IBX_CMD i) (by unfold IBX_CMD; omega) (by simp only [IBX_CMD]; omega)).trans ?_
  simp only [Dev.quadWrite, Dev.ibxWrite]

/-- A write of IBX_CTL that it takes waits for the end of the tick. -/
theorem lands_IBX_CTL {d : Dev} {w : Writer} (i : Fin 64) (v : Word) (hw : w.rank ≤ 10) (h : d.takesLate w (IBX_CTL i) = true)
    (hv : v &&& 0xFFFC0000 = v) : d.regWrite w (IBX_CTL i) v = d.awaiting w (IBX_CTL i) v ∧ (d.awaiting w (IBX_CTL i) v).landed = d.ibxCtl i v.toNat := by
  have hn := i.isLt
  obtain ⟨ht, -, hr⟩ := (Dev.takesLate_iff _ _ _).mp h
  refine ⟨Dev.regWrite_late v ht (locate_IBX_CTL i) (by show Gid.ibx ≠ _; decide) rfl rfl (rsvBits_zero (m := 0xFFFC0000) (show w32 (0xFFFC0000 ||| 0x0 ||| 0x0 ||| 0x0) = (0xFFFC0000 : Word) from by decide) hv)
    ((congrArg (v &&& ·) (show w32 (0xFFFC0000 ||| 0x0 ||| 0x0) = (0xFFFC0000 : Word) from by decide)).trans hv) (by simp [Dev.isLate, lateReg]), ?_⟩
  refine (Dev.awaiting_landed_quad v hw h (locate_IBX_CTL i) (by unfold IBX_CTL; omega) (by simp only [IBX_CTL]; omega)).trans ?_
  simp only [Dev.quadWrite, Dev.ibxWrite]

/-- A write of IBX_PDATA that it takes. -/
theorem regWrite_IBX_PDATA {d : Dev} {w : Writer} (i : Fin 64) (v : Word) (hw : w ≠ .commit) (h : d.takes w (IBX_PDATA i) = true)
    (hv : v &&& 0xFFFFFF = v) : d.regWrite w (IBX_PDATA i) v = d.ibxPdataWrite i v.toNat := by
  have hn := i.isLt
  refine (Dev.regWrite_quad v h (locate_IBX_PDATA i) (by unfold IBX_PDATA; omega) (by simp only [IBX_PDATA]; omega) (by show Gid.ibx ≠ _; decide) rfl rfl
    (rsvBits_zero (m := 0xFFFFFF) (show w32 (0xFFFFFF ||| 0x0 ||| 0x0 ||| 0x0) = (0xFFFFFF : Word) from by decide) hv) (by simp [Dev.isLate, lateReg, hw])).trans ?_
  show d.quadWrite w ⟨.ibx, i, 0, i.val / 16, ⟨0x18, 0x0, 0xFFFFFF, 0x0, 0x0, 0x0, []⟩⟩ _ (v &&& w32 (0xFFFFFF ||| 0x0 ||| 0x0)) = _
  rw [show w32 (0xFFFFFF ||| 0x0 ||| 0x0) = (0xFFFFFF : Word) from by decide, hv]
  simp only [Dev.quadWrite, Dev.ibxWrite]

/-- A write of IBX_TXDATA that it takes. -/
theorem regWrite_IBX_TXDATA {d : Dev} {w : Writer} (i : Fin 64) (v : Word) (hw : w ≠ .commit) (h : d.takes w (IBX_TXDATA i) = true)
    : d.regWrite w (IBX_TXDATA i) v = d.ibxTxWrite i v.toNat := by
  have hn := i.isLt
  have hv : v &&& 0xFFFFFFFF = v := by rw [show (0xFFFFFFFF : Word) = BitVec.allOnes 32 from rfl, BitVec.and_allOnes]
  refine (Dev.regWrite_quad v h (locate_IBX_TXDATA i) (by unfold IBX_TXDATA; omega) (by simp only [IBX_TXDATA]; omega) (by show Gid.ibx ≠ _; decide) rfl rfl
    (rsvBits_zero (m := 0xFFFFFFFF) (show w32 (0x0 ||| 0x0 ||| 0x0 ||| 0xFFFFFFFF) = (0xFFFFFFFF : Word) from by decide) hv) (by simp [Dev.isLate, lateReg, hw])).trans ?_
  show d.quadWrite w ⟨.ibx, i, 0, i.val / 16, ⟨0x24, 0x0, 0x0, 0x0, 0x0, 0xFFFFFFFF, []⟩⟩ _ (v &&& w32 (0x0 ||| 0x0 ||| 0xFFFFFFFF)) = _
  rw [show w32 (0x0 ||| 0x0 ||| 0xFFFFFFFF) = (0xFFFFFFFF : Word) from by decide, hv]
  simp only [Dev.quadWrite, Dev.ibxWrite]

/-- A write of IBX_TXS_CTL that it takes. -/
theorem regWrite_IBX_TXS_CTL {d : Dev} {w : Writer} (i : Fin 64) (v : Word) (hw : w ≠ .commit) (h : d.takes w (IBX_TXS_CTL i) = true)
    (hv : v &&& 0xF = v) : d.regWrite w (IBX_TXS_CTL i) v = d.strCtlWrite i false v.toNat := by
  have hn := i.isLt
  have hm : v &&& 0xFFFFFF0F = v := by rw [← hv, BitVec.and_assoc, show (0xF : Word) &&& 0xFFFFFF0F = 0xF from by decide]
  refine (Dev.regWrite_quad v h (locate_IBX_TXS_CTL i) (by unfold IBX_TXS_CTL; omega) (by simp only [IBX_TXS_CTL]; omega) (by show Gid.ibx ≠ _; decide) rfl rfl
    (rsvBits_zero (m := 0xFFFFFF0F) (show w32 (0x7 ||| 0xFFFFFF00 ||| 0x8 ||| 0x0) = (0xFFFFFF0F : Word) from by decide) hm) (by simp [Dev.isLate, lateReg, hw])).trans ?_
  show d.quadWrite w ⟨.ibx, i, 0, i.val / 16, ⟨0x54, 0x0, 0x7, 0xFFFFFF00, 0x8, 0x0, []⟩⟩ _ (v &&& w32 (0x7 ||| 0x8 ||| 0x0)) = _
  rw [show w32 (0x7 ||| 0x8 ||| 0x0) = (0xF : Word) from by decide, hv]
  simp only [Dev.quadWrite, Dev.ibxWrite]

/-- A write of IBX_RXS_CTL that it takes. -/
theorem regWrite_IBX_RXS_CTL {d : Dev} {w : Writer} (i : Fin 64) (v : Word) (hw : w ≠ .commit) (h : d.takes w (IBX_RXS_CTL i) = true)
    (hv : v &&& 0xF = v) : d.regWrite w (IBX_RXS_CTL i) v = d.strCtlWrite i true v.toNat := by
  have hn := i.isLt
  have hm : v &&& 0xFFFFFF0F = v := by rw [← hv, BitVec.and_assoc, show (0xF : Word) &&& 0xFFFFFF0F = 0xF from by decide]
  refine (Dev.regWrite_quad v h (locate_IBX_RXS_CTL i) (by unfold IBX_RXS_CTL; omega) (by simp only [IBX_RXS_CTL]; omega) (by show Gid.ibx ≠ _; decide) rfl rfl
    (rsvBits_zero (m := 0xFFFFFF0F) (show w32 (0x7 ||| 0xFFFFFF00 ||| 0x8 ||| 0x0) = (0xFFFFFF0F : Word) from by decide) hm) (by simp [Dev.isLate, lateReg, hw])).trans ?_
  show d.quadWrite w ⟨.ibx, i, 0, i.val / 16, ⟨0x60, 0x0, 0x7, 0xFFFFFF00, 0x8, 0x0, []⟩⟩ _ (v &&& w32 (0x7 ||| 0x8 ||| 0x0)) = _
  rw [show w32 (0x7 ||| 0x8 ||| 0x0) = (0xF : Word) from by decide, hv]
  simp only [Dev.quadWrite, Dev.ibxWrite]

/-- A write of IBX_HOCTL that it takes waits for the end of the tick. -/
theorem lands_IBX_HOCTL {d : Dev} {w : Writer} (i : Fin 64) (v : Word) (hw : w.rank ≤ 10) (h : d.takesLate w (IBX_HOCTL i) = true)
    (hv : v &&& 0x8000003F = v) : d.regWrite w (IBX_HOCTL i) v = d.awaiting w (IBX_HOCTL i) v ∧ (d.awaiting w (IBX_HOCTL i) v).landed = d.ibxHoctl i v.toNat := by
  have hn := i.isLt
  obtain ⟨ht, -, hr⟩ := (Dev.takesLate_iff _ _ _).mp h
  refine ⟨Dev.regWrite_late v ht (locate_IBX_HOCTL i) (by show Gid.ibx ≠ _; decide) rfl rfl (rsvBits_zero (m := 0x8000003F) (show w32 (0x3F ||| 0x0 ||| 0x0 ||| 0x80000000) = (0x8000003F : Word) from by decide) hv)
    ((congrArg (v &&& ·) (show w32 (0x3F ||| 0x0 ||| 0x80000000) = (0x8000003F : Word) from by decide)).trans hv) (by simp [Dev.isLate, lateReg]), ?_⟩
  refine (Dev.awaiting_landed_quad v hw h (locate_IBX_HOCTL i) (by unfold IBX_HOCTL; omega) (by simp only [IBX_HOCTL]; omega)).trans ?_
  simp only [Dev.quadWrite, Dev.ibxWrite]

/-- A write of QPWR_IBXRST that it takes waits for the end of the tick. -/
theorem lands_QPWR_IBXRST {d : Dev} {w : Writer} (i : Fin 4) (v : Word) (hw : w.rank ≤ 10) (h : d.takesLate w (QPWR_IBXRST i) = true)
    (hv : v &&& 0xFFFF = v) : d.regWrite w (QPWR_IBXRST i) v = d.awaiting w (QPWR_IBXRST i) v ∧ (d.awaiting w (QPWR_IBXRST i) v).landed = d.ibxResets i v.toNat := by
  have hn := i.isLt
  obtain ⟨ht, -, hr⟩ := (Dev.takesLate_iff _ _ _).mp h
  refine ⟨Dev.regWrite_late v ht (locate_QPWR_IBXRST i) (by show Gid.qpwr ≠ _; decide) rfl rfl (rsvBits_zero (m := 0xFFFF) (show w32 (0x0 ||| 0x0 ||| 0x0 ||| 0xFFFF) = (0xFFFF : Word) from by decide) hv)
    ((congrArg (v &&& ·) (show w32 (0x0 ||| 0x0 ||| 0xFFFF) = (0xFFFF : Word) from by decide)).trans hv) (by simp [Dev.isLate, lateReg]), ?_⟩
  refine (Dev.awaiting_landed_quad v hw h (locate_QPWR_IBXRST i) (by unfold QPWR_IBXRST; omega) (by simp only [QPWR_IBXRST]; omega)).trans ?_
  simp only [Dev.quadWrite]

/-- A write of ME_CTL that it takes waits for the end of the tick. -/
theorem lands_ME_CTL {d : Dev} {w : Writer} (i : Fin 8) (v : Word) (hw : w.rank ≤ 10) (h : d.takesLate w (ME_CTL i) = true)
    (hv : v &&& 0x80000001 = v) : d.regWrite w (ME_CTL i) v = d.awaiting w (ME_CTL i) v ∧ (d.awaiting w (ME_CTL i) v).landed = d.meCtl i v.toNat := by
  have hn := i.isLt
  obtain ⟨ht, -, hr⟩ := (Dev.takesLate_iff _ _ _).mp h
  refine ⟨Dev.regWrite_late v ht (locate_ME_CTL i) (by show Gid.me ≠ _; decide) rfl rfl (rsvBits_zero (m := 0x80000001) (show w32 (0x80000000 ||| 0x0 ||| 0x0 ||| 0x1) = (0x80000001 : Word) from by decide) hv)
    ((congrArg (v &&& ·) (show w32 (0x80000000 ||| 0x0 ||| 0x1) = (0x80000001 : Word) from by decide)).trans hv) (by simp [Dev.isLate, lateReg]), ?_⟩
  refine (Dev.awaiting_landed_quad v hw h (locate_ME_CTL i) (by unfold ME_CTL; omega) (by simp only [ME_CTL]; omega)).trans ?_
  simp only [Dev.quadWrite]

/-- A write of ME_IMDATA_LO that it takes. -/
theorem regWrite_ME_IMDATA_LO {d : Dev} {w : Writer} (i : Fin 8) (v : Word) (hw : w ≠ .commit) (h : d.takes w (ME_IMDATA_LO i) = true)
    : d.regWrite w (ME_IMDATA_LO i) v = d.meImdata i v := by
  have hn := i.isLt
  have hv : v &&& 0xFFFFFFFF = v := by rw [show (0xFFFFFFFF : Word) = BitVec.allOnes 32 from rfl, BitVec.and_allOnes]
  refine (Dev.regWrite_quad v h (locate_ME_IMDATA_LO i) (by unfold ME_IMDATA_LO; omega) (by simp only [ME_IMDATA_LO]; omega) (by show Gid.me ≠ _; decide) rfl rfl
    (rsvBits_zero (m := 0xFFFFFFFF) (show w32 (0xFFFFFFFF ||| 0x0 ||| 0x0 ||| 0x0) = (0xFFFFFFFF : Word) from by decide) hv) (by simp [Dev.isLate, lateReg, hw])).trans ?_
  show d.quadWrite w ⟨.me, i, 0, i.val / 2, ⟨0x34, 0x0, 0xFFFFFFFF, 0x0, 0x0, 0x0, []⟩⟩ _ (v &&& w32 (0xFFFFFFFF ||| 0x0 ||| 0x0)) = _
  rw [show w32 (0xFFFFFFFF ||| 0x0 ||| 0x0) = (0xFFFFFFFF : Word) from by decide, hv]
  simp only [Dev.quadWrite]

/-- A write of QSTAGE_VAL that it takes. -/
theorem regWrite_QSTAGE_VAL {d : Dev} {w : Writer} (i : Fin 4) (v : Word) (hw : w ≠ .commit) (h : d.takes w (QSTAGE_VAL i) = true)
    : d.regWrite w (QSTAGE_VAL i) v = d.portStage i v := by
  have hn := i.isLt
  have hv : v &&& 0xFFFFFFFF = v := by rw [show (0xFFFFFFFF : Word) = BitVec.allOnes 32 from rfl, BitVec.and_allOnes]
  refine (Dev.regWrite_quad v h (locate_QSTAGE_VAL i) (by unfold QSTAGE_VAL; omega) (by simp only [QSTAGE_VAL]; omega) (by show Gid.qstage ≠ _; decide) rfl rfl
    (rsvBits_zero (m := 0xFFFFFFFF) (show w32 (0x0 ||| 0x0 ||| 0x0 ||| 0xFFFFFFFF) = (0xFFFFFFFF : Word) from by decide) hv) (by simp [Dev.isLate, lateReg, hw])).trans ?_
  show d.quadWrite w ⟨.qstage, i, 0, i, ⟨0x8, 0x0, 0x0, 0x0, 0x0, 0xFFFFFFFF, []⟩⟩ _ (v &&& w32 (0x0 ||| 0x0 ||| 0xFFFFFFFF)) = _
  rw [show w32 (0x0 ||| 0x0 ||| 0xFFFFFFFF) = (0xFFFFFFFF : Word) from by decide, hv]
  simp only [Dev.quadWrite]

/-- A write of QSTAGE_CMD that it takes. -/
theorem regWrite_QSTAGE_CMD {d : Dev} {w : Writer} (i : Fin 4) (v : Word) (hw : w ≠ .commit) (h : d.takes w (QSTAGE_CMD i) = true)
    (hv : v &&& 0x1 = v) : d.regWrite w (QSTAGE_CMD i) v = if bitAt v.toNat 0 then d.portAbort i else d := by
  have hn := i.isLt
  refine (Dev.regWrite_quad v h (locate_QSTAGE_CMD i) (by unfold QSTAGE_CMD; omega) (by simp only [QSTAGE_CMD]; omega) (by show Gid.qstage ≠ _; decide) rfl rfl
    (rsvBits_zero (m := 0x1) (show w32 (0x0 ||| 0x0 ||| 0x0 ||| 0x1) = (0x1 : Word) from by decide) hv) (by simp [Dev.isLate, lateReg, hw])).trans ?_
  show d.quadWrite w ⟨.qstage, i, 0, i, ⟨0xC, 0x0, 0x0, 0x0, 0x0, 0x1, []⟩⟩ _ (v &&& w32 (0x0 ||| 0x0 ||| 0x1)) = _
  rw [show w32 (0x0 ||| 0x0 ||| 0x1) = (0x1 : Word) from by decide, hv]
  simp only [Dev.quadWrite]

/-- A write of SR_CFG that it takes. -/
theorem regWrite_SR_CFG {d : Dev} {w : Writer} (i : Fin 32) (v : Word) (hw : w ≠ .commit) (h : d.takes w (SR_CFG i) = true)
    (hv : v &&& 0x9F1F00F0 = v) : d.regWrite w (SR_CFG i) v = d.srCfgWrite i v.toNat := by
  have hn := i.isLt
  refine (Dev.regWrite_spine v h (locate_SR_CFG i) (by unfold SR_CFG; omega) (by show Gid.sr ≠ _; decide) rfl rfl
    (rsvBits_zero (m := 0x9F1F00F0) (show w32 (0x9F1F00F0 ||| 0x0 ||| 0x0 ||| 0x0) = (0x9F1F00F0 : Word) from by decide) hv) (by simp [Dev.isLate, lateReg, hw])).trans ?_
  show d.spineWrite w.func ⟨.sr, i, 0, 0, ⟨0x8, 0x40080, 0x9F1F00F0, 0x0, 0x0, 0x0, []⟩⟩ _ (v &&& w32 (0x9F1F00F0 ||| 0x0 ||| 0x0)) = _
  rw [show w32 (0x9F1F00F0 ||| 0x0 ||| 0x0) = (0x9F1F00F0 : Word) from by decide, hv]
  simp only [Dev.spineWrite]

/-- A write of RR_CFG that it takes. -/
theorem regWrite_RR_CFG {d : Dev} {w : Writer} (i : Fin 32) (v : Word) (hw : w ≠ .commit) (h : d.takes w (RR_CFG i) = true)
    (hv : v &&& 0xC01F0000 = v) : d.regWrite w (RR_CFG i) v = d.rrCfgWrite i v.toNat := by
  have hn := i.isLt
  refine (Dev.regWrite_spine v h (locate_RR_CFG i) (by unfold RR_CFG; omega) (by show Gid.rr ≠ _; decide) rfl rfl
    (rsvBits_zero (m := 0xC01F0000) (show w32 (0xC01F0000 ||| 0x0 ||| 0x0 ||| 0x0) = (0xC01F0000 : Word) from by decide) hv) (by simp [Dev.isLate, lateReg, hw])).trans ?_
  show d.spineWrite w.func ⟨.rr, i, 0, 0, ⟨0x8, 0x40000, 0xC01F0000, 0x0, 0x0, 0x0, []⟩⟩ _ (v &&& w32 (0xC01F0000 ||| 0x0 ||| 0x0)) = _
  rw [show w32 (0xC01F0000 ||| 0x0 ||| 0x0) = (0xC01F0000 : Word) from by decide, hv]
  simp only [Dev.spineWrite]

/-- A write of TB_REFCFG that it takes. -/
theorem regWrite_TB_REFCFG {d : Dev} {w : Writer}  (v : Word) (hw : w ≠ .commit) (h : d.takes w (TB_REFCFG) = true)
    (hv : v &&& 0xF = v) : d.regWrite w (TB_REFCFG) v = d.store ⟨0x10, 0x2, 0xF, 0x0, 0x0, 0x0, []⟩ TB_REFCFG v := by
  refine (Dev.regWrite_spine v h (locate_TB_REFCFG) (by decide) (by show Gid.tb ≠ _; decide) rfl rfl
    (rsvBits_zero (m := 0xF) (show w32 (0xF ||| 0x0 ||| 0x0 ||| 0x0) = (0xF : Word) from by decide) hv) (by simp [Dev.isLate, lateReg, hw])).trans ?_
  show d.spineWrite w.func ⟨.tb, 0, 0, 0, ⟨0x10, 0x2, 0xF, 0x0, 0x0, 0x0, []⟩⟩ _ (v &&& w32 (0xF ||| 0x0 ||| 0x0)) = _
  rw [show w32 (0xF ||| 0x0 ||| 0x0) = (0xF : Word) from by decide, hv]
  simp only [Dev.spineWrite]

/-- A write of TB_CTL that it takes waits for the end of the tick. -/
theorem lands_TB_CTL {d : Dev} {w : Writer}  (v : Word) (hw : w.rank ≤ 10) (h : d.takesLate w (TB_CTL) = true)
    (hv : v &&& 0x7 = v) : d.regWrite w (TB_CTL) v = d.awaiting w (TB_CTL) v ∧ (d.awaiting w (TB_CTL) v).landed = d.tbCtl v.toNat := by
  obtain ⟨ht, -, hr⟩ := (Dev.takesLate_iff _ _ _).mp h
  refine ⟨Dev.regWrite_late v ht (locate_TB_CTL) (by show Gid.tb ≠ _; decide) rfl rfl (rsvBits_zero (m := 0x7) (show w32 (0x0 ||| 0x0 ||| 0x0 ||| 0x7) = (0x7 : Word) from by decide) hv)
    ((congrArg (v &&& ·) (show w32 (0x0 ||| 0x0 ||| 0x7) = (0x7 : Word) from by decide)).trans hv) (by simp [Dev.isLate, lateReg, hr]), ?_⟩
  refine (Dev.awaiting_landed_spine v hw h (locate_TB_CTL) (by decide)).trans ?_
  simp only [Dev.spineWrite]

/-- A write of MEM_SPARECFG that it takes. -/
theorem regWrite_MEM_SPARECFG {d : Dev} {w : Writer}  (v : Word) (hw : w ≠ .commit) (h : d.takes w (MEM_SPARECFG) = true)
    (hv : v &&& 0xFFFFFF8F = v) : d.regWrite w (MEM_SPARECFG) v = d.spareCfg v.toNat := by
  refine (Dev.regWrite_spine v h (locate_MEM_SPARECFG) (by decide) (by show Gid.mem ≠ _; decide) rfl rfl
    (rsvBits_zero (m := 0xFFFFFF8F) (show w32 (0xFFFFFF0F ||| 0x0 ||| 0x0 ||| 0x80) = (0xFFFFFF8F : Word) from by decide) hv) (by simp [Dev.isLate, lateReg, hw])).trans ?_
  show d.spineWrite w.func ⟨.mem, 0, 0, 0, ⟨0x8, 0x400100, 0xFFFFFF0F, 0x0, 0x0, 0x80, []⟩⟩ _ (v &&& w32 (0xFFFFFF0F ||| 0x0 ||| 0x80)) = _
  rw [show w32 (0xFFFFFF0F ||| 0x0 ||| 0x80) = (0xFFFFFF8F : Word) from by decide, hv]
  simp only [Dev.spineWrite]

/-- A write of MEM_TESTCTL that it takes. -/
theorem regWrite_MEM_TESTCTL {d : Dev} {w : Writer}  (v : Word) (hw : w ≠ .commit) (h : d.takes w (MEM_TESTCTL) = true)
    (hv : v &&& 0x3FF0001 = v) : d.regWrite w (MEM_TESTCTL) v = if bitAt v.toNat 0 then d.sliceBorrow (bits v.toNat 16 10) else d := by
  refine (Dev.regWrite_spine v h (locate_MEM_TESTCTL) (by decide) (by show Gid.mem ≠ _; decide) rfl rfl
    (rsvBits_zero (m := 0x3FF0001) (show w32 (0x0 ||| 0x0 ||| 0x0 ||| 0x3FF0001) = (0x3FF0001 : Word) from by decide) hv) (by simp [Dev.isLate, lateReg, hw])).trans ?_
  show d.spineWrite w.func ⟨.mem, 0, 0, 0, ⟨0xA0, 0x0, 0x0, 0x0, 0x0, 0x3FF0001, []⟩⟩ _ (v &&& w32 (0x0 ||| 0x0 ||| 0x3FF0001)) = _
  rw [show w32 (0x0 ||| 0x0 ||| 0x3FF0001) = (0x3FF0001 : Word) from by decide, hv]
  simp only [Dev.spineWrite]

/-- A write of MV_CMD that it takes waits for the end of the tick. -/
theorem lands_MV_CMD {d : Dev} {w : Writer} (i : Fin 64) (v : Word) (hw : w.rank ≤ 10) (h : d.takesLate w (MV_CMD i) = true)
    (hv : v &&& 0x3 = v) : d.regWrite w (MV_CMD i) v = d.awaiting w (MV_CMD i) v ∧ (d.awaiting w (MV_CMD i) v).landed = d.moveCmd i v.toNat := by
  have hn := i.isLt
  obtain ⟨ht, -, hr⟩ := (Dev.takesLate_iff _ _ _).mp h
  refine ⟨Dev.regWrite_late v ht (locate_MV_CMD i) (by show Gid.mv ≠ _; decide) rfl rfl (rsvBits_zero (m := 0x3) (show w32 (0x0 ||| 0x0 ||| 0x0 ||| 0x3) = (0x3 : Word) from by decide) hv)
    ((congrArg (v &&& ·) (show w32 (0x0 ||| 0x0 ||| 0x3) = (0x3 : Word) from by decide)).trans hv) (by simp [Dev.isLate, lateReg]), ?_⟩
  refine (Dev.awaiting_landed_spine v hw h (locate_MV_CMD i) (by unfold MV_CMD; omega)).trans ?_
  simp only [Dev.spineWrite]

/-- A write of SVCPRES_PRES that it takes. -/
theorem regWrite_SVCPRES_PRES {d : Dev} {w : Writer}  (v : Word) (hw : w ≠ .commit) (h : d.takes w (SVCPRES_PRES) = true)
    (hv : v &&& 0x8000 = v) : d.regWrite w (SVCPRES_PRES) v = d.presWrite v.toNat := by
  have hm : v &&& 0xE0FF803F = v := by rw [← hv, BitVec.and_assoc, show (0x8000 : Word) &&& 0xE0FF803F = 0x8000 from by decide]
  refine (Dev.regWrite_spine v h (locate_SVCPRES_PRES) (by decide) (by show Gid.svcpres ≠ _; decide) rfl rfl
    (rsvBits_zero (m := 0xE0FF803F) (show w32 (0x0 ||| 0xE0FF003F ||| 0x0 ||| 0x8000) = (0xE0FF803F : Word) from by decide) hm) (by simp [Dev.isLate, lateReg, hw])).trans ?_
  show d.spineWrite w.func ⟨.svcpres, 0, 0, 0, ⟨0x0, 0x0, 0x0, 0xE0FF003F, 0x0, 0x8000, []⟩⟩ _ (v &&& w32 (0x0 ||| 0x0 ||| 0x8000)) = _
  rw [show w32 (0x0 ||| 0x0 ||| 0x8000) = (0x8000 : Word) from by decide, hv]
  simp only [Dev.spineWrite]

/-- A write of SVCPRES_SEAL that it takes. -/
theorem regWrite_SVCPRES_SEAL {d : Dev} {w : Writer}  (v : Word) (hw : w ≠ .commit) (h : d.takes w (SVCPRES_SEAL) = true)
    (hv : v &&& 0x9 = v) : d.regWrite w (SVCPRES_SEAL) v = d.sealWrite v.toNat := by
  have hm : v &&& 0xF = v := by rw [← hv, BitVec.and_assoc, show (0x9 : Word) &&& 0xF = 0x9 from by decide]
  refine (Dev.regWrite_spine v h (locate_SVCPRES_SEAL) (by decide) (by show Gid.svcpres ≠ _; decide) rfl rfl
    (rsvBits_zero (m := 0xF) (show w32 (0x0 ||| 0x6 ||| 0x9 ||| 0x0) = (0xF : Word) from by decide) hm) (by simp [Dev.isLate, lateReg, hw])).trans ?_
  show d.spineWrite w.func ⟨.svcpres, 0, 0, 0, ⟨0x4, 0x0, 0x0, 0x6, 0x9, 0x0, []⟩⟩ _ (v &&& w32 (0x0 ||| 0x9 ||| 0x0)) = _
  rw [show w32 (0x0 ||| 0x9 ||| 0x0) = (0x9 : Word) from by decide, hv]
  simp only [Dev.spineWrite]

/-- A write of SVC_QHOLD that it takes. -/
theorem regWrite_SVC_QHOLD {d : Dev} {w : Writer}  (v : Word) (hw : w ≠ .commit) (h : d.takes w (SVC_QHOLD) = true)
    (hv : v &&& 0xF = v) : d.regWrite w (SVC_QHOLD) v = d.qHoldWrite v.toNat := by
  refine (Dev.regWrite_spine v h (locate_SVC_QHOLD) (by decide) (by show Gid.svc ≠ _; decide) rfl rfl
    (rsvBits_zero (m := 0xF) (show w32 (0xF ||| 0x0 ||| 0x0 ||| 0x0) = (0xF : Word) from by decide) hv) (by simp [Dev.isLate, lateReg, hw])).trans ?_
  show d.spineWrite w.func ⟨.svc, 0, 0, 0, ⟨0x14, 0x0, 0xF, 0x0, 0x0, 0x0, []⟩⟩ _ (v &&& w32 (0xF ||| 0x0 ||| 0x0)) = _
  rw [show w32 (0xF ||| 0x0 ||| 0x0) = (0xF : Word) from by decide, hv]
  simp only [Dev.spineWrite]

/-- A write of SVC_QRELEASE that it takes. -/
theorem regWrite_SVC_QRELEASE {d : Dev} {w : Writer}  (v : Word) (hw : w ≠ .commit) (h : d.takes w (SVC_QRELEASE) = true)
    (hv : v &&& 0x80000003 = v) : d.regWrite w (SVC_QRELEASE) v = d.qReleaseWrite v.toNat := by
  refine (Dev.regWrite_spine v h (locate_SVC_QRELEASE) (by decide) (by show Gid.svc ≠ _; decide) rfl rfl
    (rsvBits_zero (m := 0x80000003) (show w32 (0x0 ||| 0x0 ||| 0x0 ||| 0x80000003) = (0x80000003 : Word) from by decide) hv) (by simp [Dev.isLate, lateReg, hw])).trans ?_
  show d.spineWrite w.func ⟨.svc, 0, 0, 0, ⟨0x18, 0x0, 0x0, 0x0, 0x0, 0x80000003, []⟩⟩ _ (v &&& w32 (0x0 ||| 0x0 ||| 0x80000003)) = _
  rw [show w32 (0x0 ||| 0x0 ||| 0x80000003) = (0x80000003 : Word) from by decide, hv]
  simp only [Dev.spineWrite]

/-- A write of PWR_CTL that it takes. -/
theorem regWrite_PWR_CTL {d : Dev} {w : Writer}  (v : Word) (hw : w ≠ .commit) (h : d.takes w (PWR_CTL) = true)
    (hv : v &&& 0x80000003 = v) (hb : badValue ⟨0x0, 0x0, 0x3, 0x0, 0x0, 0x80000000, [(0, 2, 3)]⟩ v.toNat = false) : d.regWrite w (PWR_CTL) v = d.pwrCtl v.toNat := by
  refine (Dev.regWrite_spine v h (locate_PWR_CTL) (by decide) (by show Gid.pwr ≠ _; decide) hb rfl
    (rsvBits_zero (m := 0x80000003) (show w32 (0x3 ||| 0x0 ||| 0x0 ||| 0x80000000) = (0x80000003 : Word) from by decide) hv) (by simp [Dev.isLate, lateReg, hw])).trans ?_
  show d.spineWrite w.func ⟨.pwr, 0, 0, 0, ⟨0x0, 0x0, 0x3, 0x0, 0x0, 0x80000000, [(0, 2, 3)]⟩⟩ _ (v &&& w32 (0x3 ||| 0x0 ||| 0x80000000)) = _
  rw [show w32 (0x3 ||| 0x0 ||| 0x80000000) = (0x80000003 : Word) from by decide, hv]
  simp only [Dev.spineWrite]

/-- A write of GLB_RSVW that it takes. -/
theorem regWrite_GLB_RSVW {d : Dev} {w : Writer}  (v : Word) (hw : w ≠ .commit) (h : d.takes w (GLB_RSVW) = true)
    (hv : v &&& 0x80000000 = v) : d.regWrite w (GLB_RSVW) v = if bitAt v.toNat 31 && d.flag GLB_RSVW_FLAG then (d.put GLB_RSVW_FLAG 0).put GLB_RSVWCNT_CNT 0 else d := by
  have hm : v &&& 0x80F3FFFF = v := by rw [← hv, BitVec.and_assoc, show (0x80000000 : Word) &&& 0x80F3FFFF = 0x80000000 from by decide]
  refine (Dev.regWrite_spine v h (locate_GLB_RSVW) (by decide) (by show Gid.glb ≠ _; decide) rfl rfl
    (rsvBits_zero (m := 0x80F3FFFF) (show w32 (0x0 ||| 0xF3FFFF ||| 0x80000000 ||| 0x0) = (0x80F3FFFF : Word) from by decide) hm) (by simp [Dev.isLate, lateReg, hw])).trans ?_
  show d.spineWrite w.func ⟨.glb, 0, 0, 0, ⟨0xC, 0x0, 0x0, 0xF3FFFF, 0x80000000, 0x0, []⟩⟩ _ (v &&& w32 (0x0 ||| 0x80000000 ||| 0x0)) = _
  rw [show w32 (0x0 ||| 0x80000000 ||| 0x0) = (0x80000000 : Word) from by decide, hv]
  simp only [Dev.spineWrite]

end Sys2Proof.Machine
end

