-- ==== Sys2Proof/Laws/Timer.lean ====
section
/-! SUPPORT. Timer channels: what starting, stopping, loading and emptying a chain do to its members and to nothing else. -/

namespace Sys2Proof.Machine

theorem TC_STATUS_inj {m n : Nat} (h : m ≠ n) : TC_STATUS m ≠ TC_STATUS n := by unfold TC_STATUS; omega
theorem TC_CNT_inj {m n : Nat} (h : m ≠ n) : TC_CNT m ≠ TC_CNT n := by unfold TC_CNT; omega
theorem TC_CNT_ne_STATUS (m n : Nat) : TC_CNT m ≠ TC_STATUS n := by unfold TC_CNT TC_STATUS; omega
theorem TC_CLK_ne_STATUS (m n : Nat) : TC_CLK m ≠ TC_STATUS n := by unfold TC_CLK TC_STATUS; omega
theorem TC_CLK_ne_CNT (m n : Nat) : TC_CLK m ≠ TC_CNT n := by unfold TC_CLK TC_CNT; omega

/-- Who is in a chain depends on the clock sources only (R186). -/
theorem Dev.tcMembers_congr {d e : Dev} (h : ∀ m, e.get (TC_CLK_SRC m) = d.get (TC_CLK_SRC m)) (n : Nat) : e.tcMembers n = d.tcMembers n := by
  have : ∀ k n, e.tcAbove k n = d.tcAbove k n := by
    intro k
    induction k with
    | zero => exact fun _ => rfl
    | succ k ih => intro n; unfold Dev.tcAbove; rw [ih, show e.tcUpper (n + 1) = d.tcUpper (n + 1) by unfold Dev.tcUpper; rw [h]]
  simp only [Dev.tcMembers, this]

theorem Dev.Frame.tcMembers {ps : List Part} {fs : List Fld} {d e : Dev} (h : Dev.Frame ps fs d e)
    (hf : ∀ f ∈ fs, ∀ m, f.apart (TC_CLK_SRC m)) (n : Nat) : e.tcMembers n = d.tcMembers n :=
  Dev.tcMembers_congr (fun m => h.get _ (fun f hf' => hf f hf' m)) n

@[simp] theorem Dev.tcMembers_modTc (d : Dev) (k n : Nat) (f : Tc → Tc) : (d.modTc k f).tcMembers n = d.tcMembers n :=
  Dev.tcMembers_congr (fun _ => rfl) n

theorem Dev.mem_tcMembers_self (d : Dev) (n : Nat) : n ∈ d.tcMembers n := List.mem_cons_self

/-! ## Starting and stopping -/

@[simp] theorem Dev.tcRunAll_tcs (d : Dev) (n : Nat) (b : Bool) : (d.tcRunAll n b).tcs = d.tcs := by
  unfold Dev.tcRunAll
  refine Dev.forList_keeps (fun x => x.tcs) _ ?_ _ _
  intros; rfl

@[simp] theorem Dev.tcRunAll_tc (d : Dev) (n m : Nat) (b : Bool) : (d.tcRunAll n b).tc m = d.tc m := by
  unfold Dev.tc; rw [Dev.tcRunAll_tcs]

/-- R187: RUN of every member of the chain takes the value. -/
theorem Dev.tcRunAll_run (d : Dev) (n m : Nat) (b : Bool) (h : m ∈ d.tcMembers n) : (d.tcRunAll n b).get (TC_STATUS_RUN m) = b2n b := by
  refine Dev.forList_sets (fun m d => d.get (TC_STATUS_RUN m)) (b2n b) _ (fun k d => ?_) (fun k m d hm => ?_) _ d m h
  · exact (Dev.get_put_same d _ _ (fit rfl)).trans (by cases b <;> rfl)
  · exact Dev.get_put_ne d _ (fit rfl) (.inl (TC_STATUS_inj hm.symm))

/-- R187: and nothing else. -/
theorem Dev.tcRunAll_frame (ps : List Part) (d : Dev) (n : Nat) (b : Bool) :
    Dev.Frame ps ((d.tcMembers n).map TC_STATUS_RUN) d (d.tcRunAll n b) :=
  Dev.forList_frame _ _ _ _ (fun _ hm _ => Dev.put_frame _ _ _ _ (fit rfl) (List.mem_map_of_mem hm)) d

/-! ## Loading -/

/-- R174: a load gives CNT the value. -/
theorem Dev.tcLoad_cnt (d : Dev) (n t v : Nat) : (d.tcLoad n t v).get (TC_CNT_CNT n) = v % 2 ^ 32 := Dev.get_put_same _ _ _ (fit rfl)

theorem Dev.tcLoad_cnt_ne (d : Dev) {m n : Nat} (t v : Nat) (h : m ≠ n) : (d.tcLoad n t v).get (TC_CNT_CNT m) = d.get (TC_CNT_CNT m) :=
  (Dev.get_put_ne _ _ (fit rfl) (.inl (TC_CNT_inj h.symm))).trans (Dev.modTc_get _ _ _ _)

theorem Dev.tcLoad_tc_ne (d : Dev) {m n : Nat} (t v : Nat) (h : m ≠ n) : (d.tcLoad n t v).tc m = d.tc m :=
  (Dev.tc_put _ _ _ _).trans (Dev.tc_modTc_ne _ _ h)

theorem Dev.tcLoad_carries (d : Dev) (n t v m : Nat) : ((d.tcLoad n t v).tc m).carries = (d.tc m).carries := by
  unfold Dev.tcLoad Dev.tcHist
  rw [Dev.tc_put]
  by_cases h : m = n
  · subst h; simp
  · rw [Dev.tc_modTc_ne _ _ h]

/-- A load touches CNT of its channel, and what the channel remembers. -/
theorem Dev.tcLoad_frame {ps : List Part} {fs : List Fld} (d : Dev) (n t v : Nat) (hp : Part.tcs ∈ ps) (hf : TC_CNT_CNT n ∈ fs) :
    Dev.Frame ps fs d (d.tcLoad n t v) :=
  (Dev.modTc_frame fs d n _ hp).trans (Dev.put_frame ps _ _ _ (fit rfl) hf)

theorem Dev.tcZeroAll_frame {ps : List Part} (d : Dev) (n t : Nat) (hp : Part.tcs ∈ ps) :
    Dev.Frame ps ((d.tcMembers n).map TC_CNT_CNT) d (d.tcZeroAll n t) :=
  Dev.forList_frame _ _ _ _ (fun _ hm d => (Dev.modTc_frame _ d _ _ hp).trans (Dev.tcLoad_frame _ _ _ _ hp (List.mem_map_of_mem hm))) d

/-- R187: a restart loads 0 into every member. -/
theorem Dev.tcZeroAll_cnt (d : Dev) (n t m : Nat) (h : m ∈ d.tcMembers n) : (d.tcZeroAll n t).get (TC_CNT_CNT m) = 0 := by
  refine Dev.forList_sets (fun m d => d.get (TC_CNT_CNT m)) 0 _ (fun k d => ?_) (fun k m d hm => ?_) _ d m h
  · exact Dev.tcLoad_cnt _ _ _ _
  · exact (Dev.tcLoad_cnt_ne _ _ _ hm).trans (Dev.modTc_get _ _ _ _)

theorem Dev.tcZeroAll_carries (d : Dev) (n t m : Nat) (h : m ∈ d.tcMembers n) : ((d.tcZeroAll n t).tc m).carries = [] := by
  refine Dev.forList_sets (fun m d => (d.tc m).carries) [] _ (fun k d => ?_) (fun k m d hm => ?_) _ d m h
  · simp only [Dev.tcLoad_carries, Dev.tc_modTc_same]
  · simp only [Dev.tcLoad_carries, Dev.tc_modTc_ne _ _ hm]

theorem Dev.tcZeroAll_tc_ne (d : Dev) (n t m : Nat) (h : m ∉ d.tcMembers n) : (d.tcZeroAll n t).tc m = d.tc m := by
  refine Dev.forList_skips (fun m d => d.tc m) _ (fun k m d hm => ?_) _ d m h
  exact (Dev.tcLoad_tc_ne _ _ _ hm).trans (Dev.tc_modTc_ne _ _ hm)

theorem Dev.tcZeroAll_members (d : Dev) (n t k : Nat) : (d.tcZeroAll n t).tcMembers k = d.tcMembers k := by
  refine (Dev.tcZeroAll_frame (ps := [.tcs]) d n t (by decide)).tcMembers ?_ k
  intro f hf m
  obtain ⟨x, -, rfl⟩ := List.mem_map.mp hf
  exact .inl (Ne.symm (TC_CLK_ne_CNT m x))

/-! ## Counting -/

theorem tcFlag_off (n k : Nat) : (tcFlag n k).off = TC_STATUS n ∧ (tcFlag n k).lo + (tcFlag n k).w ≤ 32 := by
  unfold tcFlag
  split
  · exact ⟨rfl, fit rfl⟩
  · split <;> exact ⟨rfl, fit rfl⟩

/-- An event of a channel touches STATUS of it, pending records and routed events. -/
theorem Dev.tcEvent_frame {ps : List Part} {fs : List Fld} (d : Dev) (n k t : Nat) (h1 : Part.tcs ∈ ps) (h2 : Part.quads ∈ ps)
    (h3 : Part.xev ∈ ps) (hf : whole (TC_STATUS n) ∈ fs) : Dev.Frame ps fs d (d.tcEvent n k t) := by
  have act : ∀ (d : Dev) a, Dev.Frame ps fs d (d.tcOutAct n t a) := fun d a => by
    unfold Dev.tcOutAct
    have b : Dev.Frame ps fs d (if (d.tc n).outWas.1 = t + 1 then d else d.modTc n (fun x => { x with outWas := (t + 1, d.flag (TC_STATUS_OUT n)) })) :=
      .ite (fun _ => .refl _ _ _) (fun _ => Dev.modTc_frame _ _ _ _ h1)
    refine .trans b ?_
    refine .ite (fun _ => Dev.put_whole _ _ _ _ (fit rfl) hf) (fun _ => .ite (fun _ => Dev.put_whole _ _ _ _ (fit rfl) hf) (fun _ =>
      .ite (fun _ => Dev.put_whole _ _ _ _ (fit rfl) hf) (fun _ => .refl _ _ _)))
  have flag : ∀ d : Dev, Dev.Frame ps fs d (d.tcFlagEvent n k t) := fun d => by
    have h := tcFlag_off n k
    unfold Dev.tcFlagEvent
    refine .trans (Dev.put_whole ps d (tcFlag n k) 1 h.2 (h.1.symm ▸ hf)) (.ite (fun _ => ?_) (fun _ => .refl _ _ _))
    refine .trans (Dev.modTc_frame _ _ _ _ h1) (.ite (fun _ => Dev.put_whole _ _ _ _ (fit rfl) hf) (fun _ => Dev.raiseRec_frame _ _ _ _ _ h2))
  unfold Dev.tcEvent
  refine .trans ?_ (Dev.raiseEventAt_frame _ _ _ _ _ _ h3)
  refine .then_ite ?_ (Dev.raiseRec_frame _ _ _ _ _ h2)
  refine .trans ?_ (flag _)
  refine .then_ite ?_ (Dev.put_whole _ _ _ _ (fit rfl) hf)
  exact .ite (fun _ => act _ _) (fun _ => .ite (fun _ => act _ _) (fun _ => .refl _ _ _))

theorem TC_CNT_apart_STATUS (n m : Nat) : (whole (TC_STATUS m)).apart (TC_CNT_CNT n) := .inl (Ne.symm (TC_CNT_ne_STATUS n m))

theorem countBy_lt (old top : Nat) (i : Int) (h : old < 2 ^ 32) (ht : top < 2 ^ 32) : (countBy old top i).1 < 2 ^ 32 := by
  have hm : ∀ x, x % (top + 1) < 2 ^ 32 := fun x => Nat.lt_of_lt_of_le (Nat.mod_lt _ (Nat.succ_pos _)) ht
  unfold countBy
  dsimp only
  split
  · exact hm _
  · split
    · exact Nat.lt_of_le_of_lt (Nat.sub_le _ _) h
    · exact hm _

/-- R175: below the top the new count is the sum modulo the cycle. -/
theorem countBy_mod (old top : Nat) (i : Int) (h : old ≤ top) : ((countBy old top i).1 : Int) = ((old : Int) + i) % ((top + 1 : Nat) : Int) := by
  unfold countBy
  dsimp only
  split
  · rename_i hi
    show (((min old top + i.toNat) % (top + 1) : Nat) : Int) = _
    rw [Nat.min_eq_left h, Int.natCast_emod, Int.natCast_add, Int.toNat_of_nonneg hi]
  · rename_i hi
    have hn : (i.natAbs : Int) = -i := by omega
    split
    · show ((old - i.natAbs : Nat) : Int) = _
      rw [Int.emod_eq_of_lt (by omega) (by omega)]
      omega
    · show (((top + 1 - (i.natAbs - old) % (top + 1)) % (top + 1) : Nat) : Int) = _
      obtain ⟨x, hx⟩ : ∃ x, x = i.natAbs - old := ⟨_, rfl⟩
      have hm : x % (top + 1) < top + 1 := Nat.mod_lt _ (Nat.succ_pos _)
      have hs : (old : Int) + i = -(x : Int) := by omega
      rw [← hx, Int.natCast_emod, Int.natCast_sub (Nat.le_of_lt hm), hs, Int.natCast_emod, Int.emod_eq_emod_iff_emod_sub_eq_zero]
      apply Int.emod_eq_zero_of_dvd
      refine ⟨1 + (x : Int) / ((top + 1 : Nat) : Int), ?_⟩
      have := Int.mul_ediv_add_emod (x : Int) ((top + 1 : Nat) : Int)
      rw [Int.mul_add, Int.mul_one]
      omega

/-- CNT after a count. -/
theorem Dev.tcApply_cnt (d : Dev) (n t : Nat) (i : Int) (ht : d.tcTop n < 2 ^ 32) :
    (d.tcApply n t i).get (TC_CNT_CNT n) = if i = 0 then d.get (TC_CNT_CNT n) else (countBy (d.get (TC_CNT_CNT n)) (d.tcTop n) i).1 := by
  have ev : ∀ (e : Dev) k, (e.tcEvent n k t).get (TC_CNT_CNT n) = e.get (TC_CNT_CNT n) := fun e k =>
    (Dev.tcEvent_frame (ps := [.tcs, .quads, .xev]) (fs := [whole (TC_STATUS n)]) e n k t (by decide) (by decide) (by decide) (by simp)).get _
      (fun f hf => by rw [List.mem_singleton] at hf; exact hf ▸ TC_CNT_apart_STATUS n n)
  have it : ∀ (c : Prop) [Decidable c] (a b : Dev), a.get (TC_CNT_CNT n) = b.get (TC_CNT_CNT n) →
      (if c then a else b).get (TC_CNT_CNT n) = b.get (TC_CNT_CNT n) := fun c _ a b h => by split <;> first | exact h | rfl
  unfold Dev.tcApply
  dsimp only
  split
  · rfl
  · rw [it _ _ _ (ev _ _), it _ _ _ (ev _ _), it _ _ _ (ev _ _), it _ _ _ (Dev.modTc_get _ _ _ _),
      Dev.raise_eq, it _ _ _ (Dev.get_put_ne (f := TC_STATUS_SHORTCYC n) _ _ (fit rfl) (.inl (Ne.symm (TC_CNT_ne_STATUS n n)))), Dev.get_put_same _ _ _ (fit rfl)]
    exact Nat.mod_eq_of_lt (countBy_lt _ _ _ (Dev.get_lt _ _) ht)

/-- A count touches CNT and STATUS of its channel, what the channels remember, pending records and routed events. -/
theorem Dev.tcApply_frame {ps : List Part} {fs : List Fld} (d : Dev) (n t : Nat) (i : Int) (h1 : Part.tcs ∈ ps) (h2 : Part.quads ∈ ps)
    (h3 : Part.xev ∈ ps) (hf : whole (TC_STATUS n) ∈ fs) (hc : TC_CNT_CNT n ∈ fs) : Dev.Frame ps fs d (d.tcApply n t i) := by
  have ev : ∀ (e : Dev) k, Dev.Frame ps fs e (e.tcEvent n k t) := fun e k => Dev.tcEvent_frame e n k t h1 h2 h3 hf
  unfold Dev.tcApply
  refine .ite (fun _ => .refl _ _ _) (fun _ => ?_)
  refine .then_ite ?_ (ev _ _)
  refine .then_ite ?_ (ev _ _)
  refine .then_ite ?_ (ev _ _)
  refine .then_ite ?_ (Dev.modTc_frame _ _ _ _ h1)
  refine .then_ite ?_ (Dev.put_whole _ _ _ _ (fit rfl) hf)
  exact .trans (Dev.modTc_frame _ _ _ _ h1) (Dev.put_frame _ _ _ _ (fit rfl) hc)

/-! ## Captures -/

/-- An entry touches CAPOVF and CAPOVFCNT of its member. -/
theorem Dev.tcEnqueue_frame {ps : List Part} {fs : List Fld} (d : Dev) (b : Bool) (n : Nat) (e : CapEntry) (h1 : Part.tcs ∈ ps)
    (hf : TC_STATUS_CAPOVF n ∈ fs) (hg : TC_STATUS_CAPOVFCNT n ∈ fs) : Dev.Frame ps fs d (d.tcEnqueue b n e) := by
  unfold Dev.tcEnqueue
  refine .ite (fun _ => Dev.modTc_frame _ _ _ _ h1) (fun _ => .then_ite ?_ (Dev.modTc_frame _ _ _ _ h1))
  exact .trans (Dev.put_frame _ _ _ _ (fit rfl) hf) (Dev.put_frame _ _ _ _ (fit rfl) hg)

theorem Dev.tcCorrected_members (d : Dev) (pre : Bool) (t : Nat) (l : List Nat) (c : Int) : (d.tcCorrected pre t l c).map Prod.fst = l := by
  induction l generalizing c with
  | nil => rfl
  | cons n l ih => simp [Dev.tcCorrected, ih]

/-- The corrected values are those of the chain's members. -/
theorem Dev.tcChainAt_members (d : Dev) (pre : Bool) (n t : Nat) : (d.tcChainAt pre n t).map Prod.fst = d.tcMembers n := by
  simp [Dev.tcChainAt, Dev.tcMembers, Dev.tcCorrected_members]

/-- A capture touches CAPOVF and CAPOVFCNT of the chain's members, the channels' queues, pending records and routed events. -/
theorem Dev.tcCapture_frame {ps : List Part} {fs : List Fld} (d : Dev) (n t c : Nat) (a : Stamp) (h1 : Part.tcs ∈ ps) (h2 : Part.quads ∈ ps)
    (h3 : Part.xev ∈ ps) (hf : ∀ m ∈ d.tcMembers n, TC_STATUS_CAPOVF m ∈ fs ∧ TC_STATUS_CAPOVFCNT m ∈ fs) :
    Dev.Frame ps fs d (d.tcCapture n t c a) := by
  unfold Dev.tcCapture
  refine .ite (fun _ => .refl _ _ _) (fun _ => .ite (fun _ => Dev.forList_frame _ _ _ _ (fun _ _ _ => Dev.modTc_frame _ _ _ _ h1) _) (fun _ => ?_))
  have q : Dev.Frame ps fs d ((d.tcChainAt true n t).foldl (fun e p => e.tcEnqueue (d.flag (TC_CTL_CQPOL n)) p.1
      { cnt := p.2, at_ := a, cause := c, chain := decide (1 < (d.tcMembers n).length), frozen := d.tcFrozen n, tick := t }) d) := by
    refine Dev.foldl_frame _ _ _ _ (fun p hp e => ?_) d
    have hm : p.1 ∈ d.tcMembers n := by
      rw [← Dev.tcChainAt_members d true n t]; exact List.mem_map_of_mem hp
    exact Dev.tcEnqueue_frame _ _ _ _ h1 (hf _ hm).1 (hf _ hm).2
  refine .ite (fun _ => q) (fun _ => ?_)
  refine .trans ?_ (Dev.raiseEventAt_frame _ _ _ _ _ _ h3)
  refine .then_ite ?_ (Dev.raiseRec_frame _ _ _ _ _ h2)
  exact .trans q (Dev.modTc_frame _ _ _ _ h1)

end Sys2Proof.Machine
end

