-- ==== Sys2Proof/Tests/Slice0.lean ====
section
/-! SUPPORT. Tests of the model and witnesses of the hypotheses of its statements. A theorem `meets_<statement>` shows, for each clause of that
statement in the order of its clauses, a state and operands that meet the clause's hypotheses; a theorem `test_<what>` holds the model to a
value that the specification gives. -/

namespace Sys2Proof.Tests

open Sys2Proof Sys2Proof.Machine

set_option Elab.async false

/-- A device in RUN at tick 1,000,000, no gap between STIME and the ticks but a fixed one, with the fields of `l` set. -/
def mk (l : List (Fld × Nat)) : State :=
  let d := State.reset.dev
  { State.reset with
    dev := l.foldl (fun d p => d.put p.1 p.2)
      { d with tick := 1000000, stime := 5000000, tb := { d.tb with running := true }, pw := { d.pw with released := true, fuses := true } } }

/-- A state with its device changed. -/
def on (s : State) (f : Dev → Dev) : State := { s with dev := f s.dev }

/-- Channel 0 with channel 1 as its upper member. -/
def chainOfTwo : State := mk [(TC_CTL_EN 0, 1), (TC_CNT_CNT 0, 7), (TC_CTL_EN 1, 1), (TC_CLK_SRC 1, 4), (TC_CNT_CNT 1, 9)]

/-! ## Timer channels (06) -/

theorem meets_TimerCommandsActOnTheChain :
    (chainOfTwo.dev.takesLate (.fn 0) (TC_CMD 1) = true ∧ chainOfTwo.dev.tcUpper 1 = true ∧ chainOfTwo.dev.flag (TC_CTL_EN 2) = false) ∧
    (let s := mk [(TC_CTL_EN 1023, 1), (TC_STATUS_RUN 1023, 1)]
     s.dev.takesLate (.fn 0) (TC_CMD 1023) = true ∧ s.dev.flag (TC_STATUS_RUN 1023) = true ∧ s.dev.tcUpper 1023 = false) ∧
    (let d := chainOfTwo.dev.modTc 0 (fun x => { x with stopCmd := some 1000001 })
     d.takesLate (.fn 0) (TC_CMD 0) = true ∧ d.tcStoppedAt 0 (d.tick + 1) = true) ∧
    (chainOfTwo.dev.takesLate (.me 1) (TC_CMD 0) = true ∧ chainOfTwo.dev.tcUpper 0 = false ∧ chainOfTwo.dev.flag (TC_CTL_EN 0) = true ∧
      chainOfTwo.dev.flag (TC_STATUS_RUN 0) = false ∧ chainOfTwo.dev.tcStoppedAt 0 (chainOfTwo.dev.tick + 1) = false) ∧
    (let s := on (mk [(TC_CTL_EN 1, 1), (TC_CNT_CNT 1, 77)])
       (fun d => { d with late := [{ due := 1000000, rank := 11, code := 0, off := TC_CMD 1, v := 8 }] })
     s.dev.late = [{ due := s.dev.tick, rank := 11, code := 0, off := TC_CMD 1, v := 8 }] ∧ s.dev.tb.running = true ∧
      s.dev.quadDown 0 = false ∧ s.dev.tcUpper 1 = false ∧ s.dev.flag (TC_CTL_EN 1) = true ∧ s.dev.tcMembers 1 = [1] ∧
      (s.dev.tc 1).queue.all (fun e => e.tick < s.dev.tick) = true ∧ (s.dev.tc 1).queue.length < 4) := by decide +kernel

def counting (l : List (Fld × Nat)) (f : Tc → Tc) : Dev :=
  ((mk ([(TC_CTL_EN 0, 1), (TC_CTL_MODE 0, 1), (TC_CMP1_CMP 0, 9), (TC_CNT_CNT 0, 9), (TC_STATUS_RUN 0, 1), (TC_CTL_EN 1, 1), (TC_CLK_SRC 1, 4),
    (TC_STATUS_RUN 1, 1)] ++ l)).dev).modTc 0 f

theorem meets_TimerCountsAndCarries :
    (let d := counting [] (fun x => { x with next := 999999 })
     d.get (TC_CLK_SRC 0) ≤ 1 ∧ d.tb.running = true ∧ (d.tc 0).next ≤ d.tick ∧ d.flag (TC_CTL_EN 0) = true ∧
      d.tcCounting 0 (d.tc 0).next = true ∧ (d.tc 0).loadTick ≠ some (d.tc 0).next ∧ d.tcTop 0 ≤ d.get (TC_CNT_CNT 0) ∧ d.tcUpper 1 = true) ∧
    (let d := counting [(TC_CNT_CNT 0, 10)] (fun x => { x with next := 1000000 })
     d.tcCounting 0 (d.tc 0).next = true ∧ (d.tc 0).next ≤ d.tick ∧ d.tcTop 0 < d.get (TC_CNT_CNT 0)) ∧
    (let d := counting [] (fun x => { x with next := 1000000, loadTick := some 1000000 })
     d.tcCounting 0 (d.tc 0).next = true ∧ (d.tc 0).next ≤ d.tick ∧ (d.tc 0).loadTick = some (d.tc 0).next) ∧
    (let d := counting [(TC_STATUS_RUN 0, 0)] (fun x => { x with next := 1000000 })
     d.flag (TC_CTL_EN 0) = true ∧ (d.tc 0).next ≤ d.tick ∧ d.tcCounting 0 (d.tc 0).next = false) ∧
    (let d := counting [] (fun x => { x with next := 1000001 })
     d.get (TC_CLK_SRC 0) ≤ 1 ∧ d.tick < (d.tc 0).next) ∧
    (let d := counting [(TC_CLK_SRC 0, 2)] (fun x => { x with pend := [(1000000, -7), (1000002, 5)] })
     d.get (TC_CLK_SRC 0) ≠ 4 ∧ 1 < d.get (TC_CLK_SRC 0) ∧ (d.tc 0).pend = (d.tick, -7) :: [(1000002, 5)] ∧
      d.tcCounting 0 d.tick = true ∧ (d.tc 0).loadTick ≠ some d.tick ∧ d.get (TC_CNT_CNT 0) ≤ d.tcTop 0) ∧
    (let d := (counting [] id).modTc 1 (fun x => { x with carries := [(999999, 1), (1000003, -1)] })
     (d.tc 1).carries = (999999, 1) :: [(1000003, -1)] ∧ 999999 ≤ d.tick ∧ d.tcFrozen 1 = false ∧ d.quadDown 0 = false ∧
      (d.tc 1).loadTick ≠ some 999999 ∧ d.get (TC_CNT_CNT 1) ≤ d.tcTop 1) ∧
    ((counting [] id).tc 0).carries = [] ∧
    (let d := counting [] (fun x => { x with next := 1000001 })
     d.takesLate (.fn 0) (TC_CNT 0) = true ∧ d.get (TC_CLK_SRC 0) ≤ 1 ∧ (d.tc 0).next = d.tick + 1 ∧ d.tcCounting 0 (d.tick + 1) = true) := by
  decide +kernel

def capturing (l : List (Fld × Nat)) (ticks : List Nat) (gate : Bool) : Dev :=
  ((mk ([(TC_CTL_EN 0, 1), (TC_CLK_CAPIN 0, 1), (TC_CLK_CEDGE 0, 2), (TC_CNT_CNT 0, 77), (TC_STATUS_RUN 0, 1), (TC_CLK_SRC 0, 3)] ++ l)).dev).modTc 0
    (fun x => { x with queue := ticks.map (fun t => { cnt := t, tick := t }), gate })

theorem meets_TimerCapturesAndReads :
    (let d := capturing [] [1, 2, 999996] false
     d.tcUpper 0 = false ∧ d.flag (TC_CTL_EN 0) = true ∧ d.quadDown 0 = false ∧ d.flag (TC_CLK_CAPIN 0) = true ∧ d.get (TC_CLK_CEDGE 0) = 2 ∧
      (d.tc 0).queue.all (fun e => e.tick < d.tick - 3) = true ∧ d.tcMembers 0 = [0] ∧ (d.tc 0).queue.length < 4 ∧ d.tcMode 0 ≠ 3 ∧
      d.get (TC_CLK_SRC 0) = 3) ∧
    (let d := capturing [(TC_CTL_CQPOL 0, 1), (TC_CLK_CEDGE 0, 1)] [1, 2, 3, 4] false
     d.get (TC_CLK_CEDGE 0) = b2n (!false) ∧ 4 ≤ (d.tc 0).queue.length) ∧
    (let d := capturing [(TC_CTL_MODE 0, 3), (TC_CLK_CEDGE 0, 0)] [] false
     d.tcMode 0 = 3 ∧ true = (d.get (TC_CLK_CEDGE 0) != 1)) ∧
    chainOfTwo.dev.tcUpper 1 = true ∧
    (let d := capturing [(TC_CTL_MODE 0, 3)] [] true
     d.tcMode 0 = 3 ∧ (d.tc 0).gate = true ∧ d.tcUpper 0 = false ∧ d.flag (TC_CTL_EN 0) = true ∧ d.quadDown 0 = false ∧
      (d.tc 0).queue.length < 4 ∧ (d.tc 0).queue.all (fun e => e.tick != d.tick) = true) ∧
    ((capturing [] [] false).tc 0).gate = false ∧
    (let d := capturing [] [1, 2] false
     d.reads (.fn 0) 0 = true ∧ d.reads (.me 1) 0 = true ∧ d.tcUpper 0 = false ∧ (d.tc 0).queue.head? = some { cnt := 1, tick := 1 }) ∧
    (chainOfTwo.dev.reads (.me 0) 0 = true ∧ chainOfTwo.dev.tcUpper 1 = true) := by decide +kernel

theorem meets_StrayAcknowledgesAreCounted :
    (let d := (mk [(TC_CTL_MODE 1023, 1)]).dev
     d.takes (.fn 0) (TC_STATUS 1023) = true ∧ d.tcMode 1023 ≠ 4 ∧ d.get (tcFlag 1023 (flagNo .ovf)) = 0) ∧
    (let d := (mk [(TC_CTL_MODE 0, 4), (TC_STATUS_MATCH1 0, 1)]).dev
     d.takes (.fn 0) (TC_STATUS 0) = true ∧ d.tcMode 0 = 4 ∧ d.flag (tcFlag 0 (flagNo .match1)) = true ∧
      (Tab.get (0, false, false) (d.tc 0).evTick (flagNo .match1)).1 ≠ d.tick + 1) ∧
    (let d := (mk [(TC_CTL_MODE 0, 4), (ACKSTRAY_ACK_STRAY_CNT 0, 0xFFFFFFFF)]).dev
     d.takes (.me 0) (TC_STATUS 0) = true ∧ d.tcMode 0 = 4 ∧ d.flag (tcFlag 0 (flagNo .match0)) = false ∧
      Tab.get 0 (d.tc 0).ackTick (flagNo .match0) ≠ d.tick + 1) := by decide +kernel

/-! ## Fine-edge generators (07) -/

/-- Generator 0 with EN and RUN at 1. -/
def running (l : List (Fld × Nat)) (f : Fe → Fe) : Dev := ((mk ([(FE_CTL_EN 0, 1), (FE_STATUS_RUN 0, 1)] ++ l)).dev).modFe 0 f

def inWindow (d : Dev) : Dev := { d with tb := { d.tb with window := some false } }

theorem meets_GeneratorEnableDisableAndShadow :
    ((mk []).dev.takesLate (.fn 0) (FE_CTL 255) = true ∧ (0x4C840000 : Word) &&& 0xFEFC0000 = 0x4C840000 ∧
      bits (0x4C840000 : Word).toNat 29 2 = 2 ∧ (mk []).dev.flag (FE_CTL_EN 255) = false) ∧
    ((running [] id).takesLate (.me 1) (FE_CTL 0) = true ∧ (running [] id).flag (FE_CTL_EN 0) = true) ∧
    (let d := { running [] id with tb := State.reset.dev.tb }
     d.takes (.fn 0) (FE_CTL 0) = true ∧ d.tb.running = false) ∧
    ((running [] id).takesLate (.fn 0) (FEQ_CTL 3) = true ∧ (running [] id).takesLate (.fn 0) (FEQ_CTL 0) = true ∧
      (running [] id).flag (FE_CTL_EN 0) = true) ∧
    ((running [] id).takes (.fn 0) (FE_FINE 0) = true ∧ (0x3F3F : Word) &&& 0x3F3F = 0x3F3F) ∧
    (running [] id).takesLate (.me 0) (FE_CMD 63) = true := by decide +kernel

theorem meets_GeneratorStartStopReloadAndEdge :
    ((mk []).dev.takesLate (.fn 0) (FE_CMD 0) = true ∧ (mk []).dev.fePaired 0 = false ∧ (mk []).dev.flag (FE_CTL_EN 0) = false) ∧
    (let d := inWindow (running [] id)
     d.takesLate (.fn 0) (FE_CMD 0) = true ∧ d.fePaired 0 = false ∧ d.flag (FE_CTL_EN 0) = true ∧ (d.fe 0).frozenAt = none ∧
      d.inWindow = true) ∧
    (let d := ((mk [(FE_CTL_EN 255, 1), (whole (FE_TDLY 255), 300)]).dev).modFe 255 (fun x => { x with shP := 1000, shW := 64 })
     d.takesLate (.fn 0) (FE_CMD 255) = true ∧ d.fePaired 255 = false ∧ d.flag (FE_CTL_EN 255) = true ∧ (d.fe 255).frozenAt = none ∧
      d.inWindow = false ∧ (d.fe 255).stopTick ≠ some (d.tick + 1) ∧ d.flag (FE_STATUS_RUN 255) = false ∧
      (d.fe 255).startTick ≠ some (d.tick + 1) ∧ (d.fe 255).shTick.all (· ≤ d.tick) = true ∧ d.fePair 255 = false ∧
      max 64 (d.get (FE_PULSE_MINPW 255)) ≤ (d.fe 255).shW ∧ (d.fe 255).pin.lf = none) ∧
    (let d := running [(FE_CTL_RETRIG 0, 1)] (fun x => { x with again := [{ s0 := 64000200 }], shTick := some 1000000 })
     d.takesLate (.fn 0) (FE_CMD 0) = true ∧ d.flag (FE_STATUS_RUN 0) = true ∧ d.flag (FE_CTL_RETRIG 0) = true ∧ d.inWindow = false ∧
      (d.fe 0).stopTick ≠ some (d.tick + 1) ∧ (d.fe 0).startTick ≠ some (d.tick + 1) ∧ (d.fe 0).shTick.all (· ≤ d.tick) = true) ∧
    (let d := running [] (fun x => { x with startBy := 2 })
     d.flag (FE_STATUS_RUN 0) = true ∧ d.flag (FE_CTL_RETRIG 0) = false ∧ (d.fe 0).startBy ≤ 2 ∧ (d.fe 0).frozenAt = none) ∧
    ((running [] (fun x => { x with frozenAt := some 1000 })).fe 0).frozenAt.isSome = true := by
  decide +kernel

theorem meets_GeneratorStartStopReloadAndEdge_runs :
    (let d := running [] id
     d.takes (.fn 0) (FE_FINE 0) = true ∧ d.flag (FE_STATUS_RUN 0) = true ∧ d.fePaired 0 = false ∧ (d.fe 0).frozenAt = none ∧
      d.inWindow = false ∧ d.feMoves 0 = true) ∧
    (let d := running [] (fun x => { x with s := 63999000, pCur := 1000, shP := 700, shW := 90, left := some 3 })
     d.flag (FE_STATUS_RUN 0) = true ∧ d.feMoves 0 = true ∧ d.inWindow = false ∧ (d.fe 0).again = [] ∧ (d.fe 0).reloaded = false ∧
      (d.fe 0).left ≠ some 0 ∧ (d.fe 0).stopAt = none ∧ ((d.fe 0).s + (d.fe 0).pCur) / 64 ≤ d.tick + 4 ∧ (d.fe 0).shTick = none) ∧
    ({ running [] id with tb := State.reset.dev.tb }).feMoves 0 = false ∧
    (let d := running [] (fun x => { x with pin := { pulses := [(63990000, 63999000), (64000000, 64000100)] }, s := 63990000 })
     d.feMoves 0 = true ∧ (d.fe 0).odd.pulses = [] ∧ (d.fe 0).pin.pulses = (63990000, 63999000) :: [(64000000, 64000100)] ∧
      d.flag (FE_STATUS_RUN 0) = true ∧ (d.fe 0).again = [] ∧ (d.fe 0).pin.out = false ∧ d.feEdgeTick 0 63990000 ≤ d.tick) ∧
    (let d := running [] (fun x => { x with pin := { out := true, lr := some 63990000, pulses := [(63990000, 63999000), (64000000, 64000100)] } })
     (d.fe 0).pin.out = true ∧ d.feMoves 0 = true ∧ d.feEdgeTick 0 63999000 ≤ d.tick ∧
      ((d.fe 0).pin.lr.getD 63990000) + (d.fe 0).minpw ≤ 63999000) := by
  decide +kernel

/-! ## Ibex pin engines (08) -/

/-- Engine 0 running, its program word 63 being `w`, at the boundary 999,998. -/
def ibexAt (w : Nat) (l : List (Fld × Nat)) (f : Ibex → Ibex) : Dev :=
  ((mk ([(IBX_CTL_EN 0, 1), (IBX_STATUS_STATE 0, 2), (IBX_GROUP_WIDTH 0, 7), (IBX_GROUP_BASE 0, 3), (IBX_PC_PC 0, 63), (IBX_LOOP_K0 0, 2)] ++ l)).dev).modIbx 0
    (fun x => f { x with prog := [(63, w)], next := 999998 })

theorem meets_IbexBranchesWaitsAndEnds :
    ((ibexAt 0x900001 [] id).ibxSettle 0).ibxTake 0 0 = none ∧
    ((ibexAt 0x011005 [(IBX_CTL_CKEN 0, 1)] id).ibxSettle 0).ibxTake 0 0 = some (999998, 1, 0x1005) ∧
    (let d := (ibexAt 0x102002 [(IBX_SHCNT_PEND 0, 0x0300)] id).ibxSettle 0
     d.ibxTake 0 1 = some (999998, 0, 0x2002) ∧ d.ibxHolds 0 0x2002 0 = true) ∧
    (let d := (ibexAt 0x142003 [] id).ibxSettle 0
     d.ibxTake 0 1 = some (999998, 4, 0x2003) ∧ d.ibxHolds 0 0x2003 0 = false) ∧
    (let d := (ibexAt 0x104003 [(IBX_STATUS_STATE 0, 3)] id).ibxSettle 0
     d.ibxUp 0 = true ∧ d.get (IBX_STATUS_STATE 0) = 3 ∧ (d.ibx 0).next ≤ d.tick ∧
      d.ibxHolds 0 (bits (d.ibxWord 0) 0 16) 0 = true) ∧
    (let d := (ibexAt 0x106003 [(IBX_STATUS_STATE 0, 3)] id).ibxSettle 0
     d.ibxUp 0 = true ∧ d.get (IBX_STATUS_STATE 0) = 3 ∧ d.ibxHolds 0 (bits (d.ibxWord 0) 0 16) 0 = false) ∧
    (let d := (ibexAt 0x80C000 [(IBX_CTL_CKEN 0, 1), (IBX_CTL_CKPH 0, 1)] id).ibxSettle 0
     d.ibxTake 0 8 = some (999998, 0, 0xC000) ∧ 2 ≤ bits 0xC000 14 2 ∧ d.flag (IBX_CTL_CKEN 0) = true) ∧
    ((ibexAt 0x9100A5 [] id).ibxSettle 0).ibxTake 0 9 = some (999998, 1, 0xA5) ∧
    (let d := ibexAt 0 [] (fun x => { x with ending := some 77 })
     (d.ibx 0).ending = some 77 ∧ (d.ibx 0).next ≤ d.tick ∧ d.flag (IBX_CTL_RECSTOP 0) = false) ∧
    (let d := (ibexAt 0xA00001 [] id).ibxSettle 0
     d.ibxIssues 0 = true ∧ 10 ≤ bits (d.ibxWord 0) 20 4 ∧ ibxLegal (d.ibxW 0) (d.ibxWord 0) = false) ∧
    (let d := (ibexAt 0x900001 [] id).ibxSettle 0
     d.ibxIssues 0 = true ∧ ibxLegal (d.ibxW 0) (d.ibxWord 0) = true) := by decide +kernel

theorem meets_IbexShiftsTransfersAndStalls :
    (((ibexAt 0x200003 [] id).ibxSettle 0).ibxTake 0 2 = some (999998, 0, 3) ∧ ((ibexAt 0x200003 [] id).ibxSettle 0).ibxTake 0 3 = none) ∧
    ((ibexAt 0x304000 [] id).ibxSettle 0).ibxTake 0 3 = some (999998, 0, 0x4000) ∧
    (let d := (ibexAt 0x200003 [(IBX_STATUS_STATE 0, 4)] (fun x => { x with moved := some 999990, tx := [9] })).ibxSettle 0
     (d.ibx 0).moved = some 999990 ∧ d.ibxUp 0 = true ∧ d.get (IBX_STATUS_STATE 0) = 4 ∧
      d.evenTick (max (999990 + 2) (d.ibx 0).next) ≤ d.tick ∧ bits (d.ibxWord 0) 20 4 = 2) ∧
    (let d := (ibexAt 0x300000 [(IBX_STATUS_STATE 0, 4)] (fun x => { x with moved := some 999990, tx := [9] })).ibxSettle 0
     (d.ibx 0).moved = some 999990 ∧ d.ibxUp 0 = true ∧ d.get (IBX_STATUS_STATE 0) = 4 ∧ bits (d.ibxWord 0) 20 4 = 3) ∧
    (((ibexAt 0 [] id).ibxSettle 0).ibx 0).moved = none ∧
    (let d := ibexAt 0 [(IBX_CTL_CONT0 0, 1)] (fun x => { x with tx := [5, 6] })
     bitAt 0x0C05 14 = false ∧ bitAt (d.ibxCont 0 (b2n (bitAt 0x0C05 15))) 0 = true ∧ (d.ibx 0).tx ≠ [] ∧
      d.get (ibxN 0 (b2n (bitAt 0x0C05 15))) < shiftCount 0x0C05) ∧
    (let d := ibexAt 0 [(IBX_CTL_CONT0 0, 2), (IBX_SHCNT_N0 0, 30)] (fun x => { x with rx := [1, 2] })
     bitAt 0x4C05 14 = true ∧ bitAt (d.ibxCont 0 0) 1 = true ∧ 32 < d.get (ibxN 0 0) + shiftCount 0x4C05 ∧ (d.ibx 0).rx.length < 8) ∧
    (let d := ibexAt 0 [(IBX_CTL_CONT0 0, 1)] id
     bitAt 5 14 = false ∧ (d.ibx 0).tx = [] ∧ bitAt (d.ibxCont 0 0) 0 = true ∧ d.get (ibxN 0 0) < shiftCount 5) ∧
    (let d := ibexAt 0 [(IBX_CTL_CONT0 0, 2), (IBX_SHCNT_N0 0, 30)] (fun x => { x with rx := [1, 2, 3, 4, 5, 6, 7, 8] })
     bitAt 0x4005 14 = true ∧ 8 ≤ (d.ibx 0).rx.length ∧ bitAt (d.ibxCont 0 0) 1 = true ∧ 32 < d.get (ibxN 0 0) + shiftCount 0x4005) := by
  decide +kernel

theorem meets_IbexMovesBitsAndSignals :
    ((2 ^ 32 - 1 < 2 ^ 32 ∧ 31 < 32) ∧ ((ibexAt 0x900001 [] id).ibxSettle 0).ibxTake 0 4 = none) ∧
    ((ibexAt 0x405280 [] id).ibxSettle 0).ibxTake 0 4 = some (999998, 0, 0x5280) ∧
    ((ibexAt 0x50A00F [] id).ibxSettle 0).ibxTake 0 5 = some (999998, 0, 0xA00F) ∧
    ((ibexAt 0x60A003 [] id).ibxSettle 0).ibxTake 0 6 = some (999998, 0, 0xA003) ∧
    (let d := ibexAt 0x70F800 [] id
     (d.ibxSettle 0).ibxTake 0 7 = some (999998, 0, 0xF800) ∧ bitAt 0xF800 11 = true ∧ (d.quad 0).pend.isEmpty = true) := by decide +kernel

theorem meets_IbexCommandsAndEnable :
    ((ibexAt 0 [] id).takesLate (.me 1) (IBX_CMD 0) = true ∧ ((ibexAt 0 [] id).ibxSettle 0).ibxIdle 0 = false) ∧
    (let d := (ibexAt 0 [(IBX_STATUS_STATE 0, 1)] id).ibxSettle 0
     d.takesLate (.fn 0) (IBX_CMD 0) = true ∧ d.ibxIdle 0 = true ∧ d.ibxState 0 = 1) ∧
    (let d := (mk []).dev
     d.takesLate (.fn 0) (IBX_CMD 63) = true ∧ (d.ibxSettle 63).ibxState 63 = 0) ∧
    (let d := ibexAt 0 [(IBX_STATUS_STATE 0, 5)] (fun x => { x with before := 2 })
     (d.ibxSettle 0).ibxState 0 = 5 ∧ ((d.ibxSettle 0).ibx 0).before = 2) ∧
    (let d := ibexAt 0 [(IBX_STATUS_STATE 0, 5)] (fun x => { x with before := 4 })
     (d.ibxSettle 0).ibxState 0 = 5 ∧ ((d.ibxSettle 0).ibx 0).before ≠ 2) ∧
    (let d := (ibexAt 0 [] (fun x => { x with stopping := some 999990 })).ibxSettle 0
     (d.ibx 0).stopping = some 999990 ∧ d.ibxUp 0 = true ∧ d.get (IBX_STATUS_STATE 0) = 2 ∧ 999990 ≤ d.ibxNext 0 ∧ d.ibxNext 0 ≤ d.tick ∧
      (d.ibx 0).ending = none) ∧
    (((ibexAt 0 [] id).ibxSettle 0).ibx 0).stopping = none ∧
    (let d := (mk [(IBX_GROUP_WIDTH 63, 7)]).dev
     d.takesLate (.fn 0) (IBX_CTL 63) = true ∧ (0x12340000 : Word) &&& 0xFFFC0000 = 0x12340000 ∧ (d.ibxSettle 63).flag (IBX_CTL_EN 63) = false ∧
      (d.ibxSettle 63).ibxIdle 63 = true) ∧
    (let d := ibexAt 0 [] id
     d.takesLate (.fn 0) (IBX_CTL 0) = true ∧ (d.ibxSettle 0).flag (IBX_CTL_EN 0) = true ∧ (d.ibxSettle 0).ibxIdle 0 = false) := by
  decide +kernel

theorem meets_IbexProgramAndFifoAccess :
    (let d := ibexAt 7 [(IBX_STATUS_STATE 0, 1), (IBX_PADDR_PADDR 0, 63)] id
     d.takes (.fn 0) (IBX_PDATA 0) = true ∧ (0xFFFFFF : Word) &&& 0xFFFFFF = 0xFFFFFF ∧ d.ibxIdle 0 = true ∧ d.reads (.me 1) 0 = true) ∧
    (ibexAt 7 [] id).ibxIdle 0 = false ∧
    (let d := ibexAt 7 [] (fun x => { x with tx := [1, 2, 3, 4, 5, 6, 7] })
     d.takes (.fn 0) (IBX_TXDATA 0) = true ∧ d.flag (IBX_CTL_TXSRC 0) = false ∧ (d.ibx 0).tx.length < 8) ∧
    (let d := ibexAt 7 [(IBX_DROPCNT_TXDROP 0, 65535)] (fun x => { x with tx := [1, 2, 3, 4, 5, 6, 7, 8] })
     d.takes (.fn 0) (IBX_TXDATA 0) = true ∧ 8 ≤ (d.ibx 0).tx.length) ∧
    (ibexAt 7 [(IBX_CTL_TXSRC 0, 1)] id).flag (IBX_CTL_TXSRC 0) = true ∧
    (let d := ibexAt 7 [] (fun x => { x with rx := [2, 3] })
     d.reads (.fn 0) 0 = true ∧ d.flag (IBX_CTL_RXSRC 0) = false ∧ (d.ibx 0).rx = 2 :: [3]) ∧
    ((ibexAt 7 [] id).ibx 0).rx = [] := by decide +kernel

/-- Engine 0 stopped, with streams. -/
def stream (l : List (Fld × Nat)) (f : Ibex → Ibex) : Dev := ((mk ([(IBX_CTL_EN 0, 1), (IBX_STATUS_STATE 0, 1)] ++ l)).dev).modIbx 0 f

/-- A read of the TX stream has come back. -/
def cameBack (d : Dev) (err : Bool) : Dev := { d with mc := { d.mc with results := [{ who := .txs 0, data := 5, err }] } }

theorem meets_IbexStreamsReadAndWriteMemory :
    ((1 : Word) &&& 0xF = 1 ∧ bitAt (1 : Word).toNat 0 = true ∧ bitAt (6 : Word).toNat 0 = false) ∧
    (let d := stream [(IBX_TXS_LEN_LEN 0, 4), (IBX_TXS_ADDR_ADDR 0, 0x3FFFFF), (IBX_CTL_TXSRC 0, 1)] id
     d.takes (.fn 0) (IBX_TXS_CTL 0) = true ∧ d.flag (IBX_TXS_CTL_RUN 0) = false ∧ d.get (IBX_TXS_LEN_LEN 0) ≠ 0 ∧
      16 * d.get (IBX_TXS_ADDR_ADDR 0) + 4 * d.get (IBX_TXS_LEN_LEN 0) ≤ 2 ^ 26 ∧ d.flag (IBX_CTL_TXSRC 0) = true ∧ (d.ibx 0).tx = [] ∧
      (d.ibx 0).txs.held = [] ∧ (d.ibx 0).txs.inflight = [] ∧ d.quadDown 0 = false ∧ d.mc.touched.all (fun x => x.tick != d.tick) = true) ∧
    (let d := stream [(IBX_TXS_LEN_LEN 0, 5), (IBX_TXS_ADDR_ADDR 0, 0x3FFFFF)] id
     d.takes (.fn 0) (IBX_TXS_CTL 0) = true ∧ 2 ^ 26 < 16 * d.get (IBX_TXS_ADDR_ADDR 0) + 4 * d.get (IBX_TXS_LEN_LEN 0)) ∧
    (let d := stream [(IBX_TXS_CTL_RUN 0, 1), (IBX_RXS_CTL_RUN 0, 1)] id
     d.takes (.me 0) (IBX_TXS_CTL 0) = true ∧ d.flag (IBX_TXS_CTL_RUN 0) = true ∧ d.takes (.me 0) (IBX_RXS_CTL 0) = true ∧
      d.flag (IBX_RXS_CTL_RUN 0) = true) ∧
    (let d := stream [(IBX_RXS_LEN_LEN 0, 4), (IBX_RXS_ADDR_ADDR 0, 0x3FFFFF)] id
     d.takes (.fn 0) (IBX_RXS_CTL 0) = true ∧ d.flag (IBX_RXS_CTL_RUN 0) = false ∧ d.get (IBX_RXS_LEN_LEN 0) ≠ 0 ∧
      16 * d.get (IBX_RXS_ADDR_ADDR 0) + 4 * d.get (IBX_RXS_LEN_LEN 0) ≤ 2 ^ 26) ∧
    (let d := stream [(IBX_RXS_LEN_LEN 0, 5), (IBX_RXS_ADDR_ADDR 0, 0x3FFFFF)] id
     2 ^ 26 < 16 * d.get (IBX_RXS_ADDR_ADDR 0) + 4 * d.get (IBX_RXS_LEN_LEN 0)) ∧
    (let d := cameBack (stream [(IBX_TXS_CTL_RUN 0, 1), (IBX_TXS_CTL_LEFT 0, 5)]
       (fun x => { x with tx := [1, 2, 3, 4], txs := { x.txs with inflight := [(48, 4)] } })) false
     d.mc.results.find? (fun x => decide (x.who = MemWho.txs 0)) = some { who := .txs 0, data := 5 } ∧ (d.ibx 0).txs.inflight = (48, 4) :: [] ∧
      (d.ibx 0).tx.length + 4 ≤ 8 ∧ (d.ibx 0).txs.old = 0 ∧ 4 < d.get (IBX_TXS_CTL_LEFT 0)) ∧
    (let d := cameBack (stream [(IBX_TXS_CTL_RUN 0, 1), (IBX_TXS_CTL_LEFT 0, 4)] (fun x => { x with txs := { x.txs with inflight := [(48, 4)] } })) false
     (d.ibx 0).txs.inflight = (48, 4) :: [] ∧ (d.ibx 0).txs.old = 0 ∧ d.get (IBX_TXS_CTL_LEFT 0) = 4 ∧ d.flag (IBX_TXS_CTL_RING 0) = false) ∧
    (let d := cameBack (stream [] (fun x => { x with txs := { x.txs with inflight := [(48, 4), (64, 1)] } })) true
     d.mc.results.find? (fun x => decide (x.who = MemWho.txs 0)) = some { who := .txs 0, data := 5, err := true } ∧
      (d.ibx 0).txs.inflight = (48, 4) :: [(64, 1)]) ∧
    (stream [] id).mc.results.find? (fun x => decide (x.who = MemWho.txs 0)) = none ∧
    (let d := stream [(IBX_RXS_CTL_RUN 0, 1), (IBX_CTL_RXSRC 0, 1), (IBX_RXS_CTL_LEFT 0, 5)]
       (fun x => { x with rx := [1, 2, 3, 4, 5], rxs := { x.rxs with addr := 0x40, toIssue := 5 } })
     d.flag (IBX_RXS_CTL_RUN 0) = true ∧ d.flag (IBX_CTL_RXSRC 0) = true ∧ d.quadDown 0 = false ∧ d.memRoom (.rxs 0) = true ∧
      (d.ibx 0).rx = 1 :: 2 :: 3 :: 4 :: [5] ∧ (d.ibx 0).rxs.addr % 16 = 0 ∧ (d.ibx 0).rxs.group = [] ∧ 4 < d.get (IBX_RXS_CTL_LEFT 0) ∧
      (d.ibx 0).rxs.toIssue = d.get (IBX_RXS_CTL_LEFT 0)) ∧
    (let d := stream [(IBX_RXS_CTL_RUN 0, 1), (IBX_CTL_RXSRC 0, 1), (IBX_RXS_CTL_LEFT 0, 2)]
       (fun x => { x with rx := [7], rxs := { x.rxs with addr := 0x40, toIssue := 2 } })
     (d.ibx 0).rx = [7] ∧ (d.ibx 0).rxs.addr % 16 = 0 ∧ 1 < d.get (IBX_RXS_CTL_LEFT 0) ∧ (d.ibx 0).rxs.toIssue = d.get (IBX_RXS_CTL_LEFT 0)) ∧
    (stream [] id).flag (IBX_RXS_CTL_RUN 0) = false ∧
    (let d := stream [(IBX_RXS_CTL_RUN 0, 1)] (fun x => { x with rxs := { x.rxs with group := [1, 2], since := 999744, addr := 0x40 } })
     (d.ibx 0).rxs.group ≠ [] ∧ (d.ibx 0).rxs.since + 256 ≤ d.tick ∧ d.flag (IBX_RXS_CTL_RUN 0) = true ∧ d.memRoom (.rxs 0) = true) ∧
    (let d := stream [] (fun x => { x with rxs := { x.rxs with group := [1], since := 999745 } })
     d.tick < (d.ibx 0).rxs.since + 256) := by decide +kernel

/-- Engine 15 as a spare of engine 0. -/
def spare (l : List (Fld × Nat)) : Dev :=
  ((mk ([(IBX_CTL_EN 0, 1), (IBX_STATUS_STATE 0, 2), (IBX_GROUP_WIDTH 0, 3), (IBX_GROUP_BASE 0, 5), (IBX_CTL_EN 15, 1), (IBX_STATUS_STATE 15, 1),
    (IBX_GROUP_WIDTH 15, 3), (IBX_GROUP_BASE 15, 5), (LANE_CFG_KIND 5, 2), (LANE_CFG_INDEX 5, 0)] ++ l)).dev).modIbx 0
    (fun x => { x with pins := 5, tx := [1], toggle := some 1000002 })

theorem meets_IbexHandoverAndReset :
    ((spare []).takesLate (.fn 0) (IBX_HOCTL 15) = true ∧ (0x80000030 : Word) &&& 0x8000003F = 0x80000030) ∧
    ((spare [(IBX_STATUS_STATE 15, 2)]).hoCheck 0 15 ≠ 0) ∧
    (let d := spare [(IBX_HOCTL_TAKESTATE 15, 1), (IBX_HOCTL_TAKEFIFO 15, 1)]
     d.hoCheck 0 15 = 0 ∧ (15 / 16) * 16 + d.get (IBX_HOCTL_FROM 15) = 0 ∧ (d.ibx 0).toggle = some 1000002 ∧ d.tick < 1000002 ∧ 0 < d.ibxW 0 ∧
      d.ibxOwns 0 (d.get (IBX_GROUP_BASE 0) + 0) = true ∧ d.flag (IBX_HOCTL_TAKESTATE 15) = true ∧ d.flag (IBX_HOCTL_TAKEFIFO 15) = true) ∧
    ((spare []).takesLate (.fn 0) (QPWR_IBXRST 3) = true ∧ (0x8001 : Word) &&& 0xFFFF = 0x8001 ∧ bitAt (0x8001 : Word).toNat 15 = true) := by
  decide +kernel

/-! ## Microengines (09) -/

/-- Engine 0 running a word on tick 1,000,000. -/
def engine (l : List (Fld × Nat)) (f : Me → Me) : Dev :=
  ((mk ([(ME_CTL_EN 0, 1), (ME_STATUS_STATE 0, 1), (ME_PC_PC 0, 100)] ++ l)).dev).modMe 0 (fun x => f { x with next := 1000000 })

theorem meets_EngineArithmeticUnits :
    (let m := ((engine [] (fun x => (x.setPort 0x080 0xFFFFFFFF).setPort 0x082 1)).me 0).settle 1000000
     m.port 0x080 < 2 ^ 32 ∧ m.port 0x080 = 0xFFFFFFFF ∧ m.port 0x082 = 1) ∧
    ((engine [] (fun x => x.setPort 0x090 0x80000000)).me 0).port 0x090 < 2 ^ 32 ∧
    (let m := ((engine [] (fun x => x.setPort 0x099 1)).me 0).settle 1000000
     m.port 0x099 < 2) ∧
    (let m := ((engine [] (fun x => (x.setPort 0x099 4096).setPort 0x098 0x4004)).me 0).settle 1000000
     2 ≤ m.port 0x099 ∧ m.port 0x099 ≤ 4096 ∧ 0x8000 < m.port 0x098 / 4 * 4 + 4 * m.port 0x099) ∧
    (let m := ((engine [] (fun x => (x.setPort 0x099 4).setPort 0x098 0x7FF0)).me 0).settle 1000000
     2 ≤ m.port 0x099 ∧ m.port 0x099 ≤ 4096 ∧ m.port 0x098 / 4 * 4 + 4 * m.port 0x099 ≤ 0x8000 ∧ (0xFFFFFFFF : Word).toInt < 0 ∧
      (m.port 0x099 : Int) - 1 ≤ (0x30000 : Word).toInt / 65536 ∧ (0x2FFFF : Word).toInt / 65536 = (2 : Nat) ∧ 2 + 1 < m.port 0x099) := by
  decide +kernel

theorem meets_EngineDataAndInstructionAccess :
    ((engine [] id).mc.touched.all (fun y => y.tick != (engine [] id).tick) = true) ∧
    ((0x7FFD : Word).toNat % 4 ≠ 0 ∧ (0x8000 : Word).toNat % 4 = 0 ∧ 0x8000 ≤ (0x8000 : Word).toNat ∧
      ¬ (0x10000000 ≤ (0x8000 : Word).toNat ∧ (0x8000 : Word).toNat < 0x14000000)) ∧
    (let m := ((engine [] (fun x => { x with load := some (4, 0) })).me 0).settle 1000000
     (0x7FFC : Word).toNat % 4 = 0 ∧ m.load.isSome = true ∧ (0x7FFC : Word).toNat < 0x8000) ∧
    ((((engine [] id).me 0).settle 1000000).load = none ∧ (0x13FFFFFC : Word).toNat % 4 = 0 ∧
      0x10000000 ≤ (0x13FFFFFC : Word).toNat ∧ (0x13FFFFFC : Word).toNat < 0x14000000) ∧
    (let d := { engine [] (fun x => { x with load := some (0x10000004, 0) }) with
       mc := { State.reset.dev.mc with results := [{ who := .me 0, data := 5, err := true }] } }
     d.mc.results.find? (fun r => r.who == .me 0) = some { who := .me 0, data := 5, err := true } ∧ (d.me 0).load = some (0x10000004, 0)) ∧
    (let m := ((engine [] (fun x => x.setPort 0x0A0 0x7FFC)).me 0).settle 1000000
     m.port 0x0A0 % 4 = 0 ∧ m.port 0x0A0 < 0x8000) ∧
    (let d := engine [] (fun x => x.setPort 0x0A0 0x13FFFFF8)
     let m := (d.me 0).settle 1000000
     m.port 0x0A0 % 8 = 0 ∧ 0x10000000 ≤ m.port 0x0A0 ∧ m.port 0x0A0 < 0x14000000 ∧ m.load = none ∧
      (d.mc.reqs.filter (fun r => r.who == .me 0 && r.kind == 1)).length < 8) ∧
    (let d := { engine [] (fun x => x.setPort 0x0A0 0x10000000) with
       mc := { State.reset.dev.mc with reqs := List.replicate 8 { who := .me 0, kind := 1, word := 0, at_ := 1000000 } } }
     8 ≤ (d.mc.reqs.filter (fun r => r.who == .me 0 && r.kind == 1)).length) ∧
    (let m := ((engine [] (fun x => x.setPort 0x0A0 0x7FF8)).me 0).settle 1000000
     m.port 0x0A0 < 0x8000 ∧ m.port 0x0A0 % 8 = 0) ∧
    (16383 < (16384 : Word).toNat ∧ (16383 : Word).toNat ≤ 16383) ∧
    (let m := ((engine [] (fun x => x.setPort 0x0A8 16384)).me 0).settle 1000000
     16383 < m.port 0x0A8) ∧
    (((engine [] id).me 0).port 0x0A8 ≤ 16383 ∧ (engine [] id).meLocked 0 = false) ∧
    ((let d := engine [] id
      { d with cmt := { d.cmt with groups := Tab.set {} d.cmt.groups 3 { writes := [{ off := 0, v := 0, q := 0, swap := some 0, landed := true }] } } }).meLocked 0 = true) ∧
    ((engine [(AGU_CFG_MODE 0 7, 1)] id).aguStep 0 7 0 = none ∧ (engine [(AGU_CFG_STEP 0 0, 1)] id).aguStep 0 0 0x7FFC = some 0x8000) ∧
    (let d := engine [(AGU_CFG_MODE 0 1, 1), (AGU_LEN_LEN 0 1, 3), (AGU_BASE_BASE 0 1, 2)] id
     d.get (AGU_CFG_MODE 0 1) = 1 ∧ d.get (AGU_LEN_LEN 0 1) * 4 ≠ 0 ∧ d.get (AGU_BASE_BASE 0 1) * 4 + d.get (AGU_LEN_LEN 0 1) * 4 ≤ 2 ^ 32) ∧
    (let d := engine [(AGU_CFG_MODE 0 2, 2), (AGU_LEN_LEN 0 2, 8), (AGU_BASE_BASE 0 2, 8)] id
     d.get (AGU_CFG_MODE 0 2) = 2 ∧ d.get (AGU_LEN_LEN 0 2) * 4 = 4 * 2 ^ 3 ∧ d.get (AGU_BASE_BASE 0 2) * 4 % (d.get (AGU_LEN_LEN 0 2) * 4) = 0 ∧
      5 < 2 ^ 3) := by decide +kernel

theorem meets_EngineControlFlowAndTraps :
    (let m := ((engine [] (fun x => (x.setPort 0x0DA 0x103).setPort 0x0DB 0x100)).me 0).settle 1000000
     (m.port 0x0DA : Int) - 4 < m.port 0x0DB) ∧
    (let m := ((engine [] (fun x => (x.setPort 0x0DA 0x104).setPort 0x0DB 0x100)).me 0).settle 1000000
     m.port 0x0DB + 4 ≤ m.port 0x0DA ∧ m.port 0x0DA % 4 = 0 ∧ m.port 0x0DA - 4 < 0x8000) ∧
    (let m := ((engine [] (fun x => (x.setPort 0x0DA 0x200).setPort 0x0DC 0x200)).me 0).settle 1000000
     m.port 0x0DC ≤ m.port 0x0DA) ∧
    (let m := ((engine [] (fun x => ((x.setPort 0x0DA 0x1FC).setPort 0x0DC 0x200).store32 0x1FC 16384)).me 0).settle 1000000
     m.port 0x0DA < m.port 0x0DC ∧ m.port 0x0DA % 4 = 0 ∧ m.port 0x0DA < 0x8000 ∧ 16383 < m.load32 (m.port 0x0DA)) ∧
    (let m := ((engine [] (fun x => ((x.setPort 0x0DA 0x1FC).setPort 0x0DC 0x200).store32 0x1FC 16383)).me 0).settle 1000000
     m.port 0x0DA < m.port 0x0DC ∧ m.load32 (m.port 0x0DA) ≤ 16383) ∧
    (65536 < (65537 : Word).toNat ∧ (65536 : Word) ≠ 0 ∧ (65536 : Word).toNat ≤ 65536) ∧
    (((engine [] id).now + 2 ^ 32 - (5000000 : Word).toNat) % 2 ^ 32 < 2 ^ 31 ∧
      ¬ ((engine [] id).now + 2 ^ 32 - (7000000 : Word).toNat) % 2 ^ 32 < 2 ^ 31) ∧
    (let d := engine [(ME_STATUS_STATE 0, 3)] (fun x => { x with waitFor := some 4999990 })
     (d.me 0).waitFor = some (4999990 : Word).toNat ∧ d.meUp 0 = true ∧ d.get (ME_STATUS_STATE 0) = 3 ∧ d.now % 2 = 0 ∧ (d.me 0).next ≤ d.tick ∧
      (d.now + 2 ^ 32 - (4999990 : Word).toNat) % 2 ^ 32 < 2 ^ 31) ∧
    (let d := engine [(ME_STATUS_STATE 0, 3)] (fun x => { x with waitFor := some 7000000 })
     (d.me 0).waitFor = some (7000000 : Word).toNat ∧ 2 ^ 31 ≤ (d.now + 2 ^ 32 - (7000000 : Word).toNat) % 2 ^ 32) ∧
    (65536 ≤ (65536 : Word).toNat ∧ (0x10 : Word).toNat < 65536 ∧ (((engine [] id).me 0).settle 1000000).recs.isEmpty = true ∧
      (((engine [] (fun x => { x with events := 0x10 })).me 0).settle 1000000).events &&& (0x10 : Word).toNat ≠ 0 ∧
      (((engine [] id).me 0).settle 1000000).events &&& (0x10 : Word).toNat = 0) ∧
    (let d := engine [(ME_STATUS_STATE 0, 2)] (fun x => { x with events := 0x10, sleepFor := 0x10 })
     d.meUp 0 = true ∧ d.get (ME_STATUS_STATE 0) = 2 ∧ (d.me 0).events &&& ((d.me 0).sleepFor % 65536) ≠ 0) ∧
    (let d := engine [(ME_STATUS_STATE 0, 2)] (fun x => { x with events := 0x20, sleepFor := 0x10 })
     (d.me 0).recs.isEmpty = true ∧ (d.me 0).events &&& ((d.me 0).sleepFor % 65536) = 0) ∧
    ((0x11 < 256 ∧ (engine [] id).flag (ME_STATUS_INTRAP 0) = false ∧ ((engine [] id).quad 0).pend.isEmpty = true) ∧
      (engine [(ME_STATUS_INTRAP 0, 1)] id).flag (ME_STATUS_INTRAP 0) = true) := by decide +kernel

theorem meets_EnginePortsAndBitSpace :
    (let m := ((engine [] (fun x => x.setPort 0x100 0x7FFD)).me 0).settle 1000000
     m.port 0x100 % 4 ≠ 0 ∧ 0x7FFC < m.port 0x100 ∧ (0x7FFC : Word).toNat % 4 = 0 ∧ (0x7FFC : Word).toNat ≤ 0x7FFC) ∧
    4 ≤ (((engine [] (fun x => { x with coachOut := 4 })).me 0).settle 1000000).coachOut ∧
    (let m := ((engine [] id).me 0).settle 1000000
     let en := Entry.of (m.port 0x111 * 2 ^ 32 + m.port 0x110) (m.port 0x113 * 2 ^ 32 + m.port 0x112)
     m.coachOut < 4 ∧ en.bad false = false ∧ en.ktype ≤ 1) ∧
    (let m := ((engine [] (fun x => (x.setPort 0x111 0xFFFFFFFF).setPort 0x113 0xFFFFFFFF)).me 0).settle 1000000
     let en := Entry.of (m.port 0x111 * 2 ^ 32 + m.port 0x110) (m.port 0x113 * 2 ^ 32 + m.port 0x112)
     en.bad false = true ∧ 1 < en.ktype) ∧
    (let m := (engine [] (fun x => { x with coachDone := [(1, 5)], coachRes := [(1, 1), (2, 2), (3, 3)] })).me 0
     m.coachDone = (1, 5) :: [] ∧ m.coachRes.length < 4 ∧ m.coachRes = (1, 1) :: [(2, 2), (3, 3)]) ∧
    4 ≤ ((engine [] (fun x => { x with coachRes := [(1, 1), (2, 2), (3, 3), (1, 4)] })).me 0).coachRes.length ∧
    (((engine [] id).me 0).coachDone = [] ∧ ((engine [] id).me 0).coachRes = [] ∧ (Tab.get (0, 0, 0) (engine [] id).ru.meLost 0).1 = 0) ∧
    (bitAccess 0x0FFF = .none ∨ bitAccess 0x0FFF = .ro) ∧ (bitAccess 0x480 ≠ .none ∧ bitAccess 0x480 ≠ .ro ∧ 0x480 < 0x1000) ∧
    (0x1000 ≤ (0x1FFF : Word).toNat % 65536 ∧ (0x1FFF : Word).toNat % 65536 < 0x2000 ∧ 0x8000 ≤ (0xFFFF : Word).toNat % 65536 ∧
      (0x0FFF : Word).toNat % 65536 < 0x1000) ∧
    32 ≤ (((engine [] (fun x => { x with fill := List.replicate 32 7 })).me 0).settle 1000000).fill.length ∧
    (let m := ((engine [] (fun x => { x with fill := List.replicate 31 7 })).me 0).settle 1000000
     m.fill.length = 31 ∧ m.drain = [] ∧ m.swapAt = none) ∧
    (let m := (engine [] (fun x => { x with drain := [3], fill := [1] })).me 0
     m.drain = 3 :: [] ∧ m.fill.length < 32) ∧
    ((engine [] id).me 0).drain = [] ∧
    (let d := engine [] (fun x => { x with fill := List.replicate 32 7, swapAt := some 1000000 })
     (d.me 0).swapAt = some 1000000 ∧ 1000000 ≤ d.tick ∧ (d.me 0).fill.length = 32) ∧
    ((engine [] id).me 0).swapAt = none := by decide +kernel

/-- Engine 0 with the word `w` at its PC. -/
def withWord (w : Nat) (l : List (Fld × Nat)) (f : Me → Me) : Dev := engine l (fun x => f { x with img := [(100, w), (16383, w)] })

/-- The word that engine 0 issues. -/
def issued (d : Dev) : Nat := ((d.me 0).settle d.tick).word (d.get (ME_STATUS_IMAGE 0)) (d.get (ME_PC_PC 0))

/-- A two-move word that moves ports into ports (R267, R268). -/
def movesWord (da sa db sb : Nat) : Nat := (da * 2 ^ 21 + sa * 2 ^ 10) * 2 ^ 31 + (db * 2 ^ 21 + sb * 2 ^ 10)

/-- A compare-and-branch word with an immediate (R269). -/
def branchWord (cond a imm disp : Nat) : Nat := 2 ^ 62 + cond * 2 ^ 58 + a * 2 ^ 48 + 2 ^ 47 + imm * 2 ^ 27 + disp

theorem meets_EngineWordsIssueAndTrap :
    (withWord 0 [(ME_STATUS_STATE 0, 0)] id).meIssues 0 = false ∧
    (let d := withWord (3 * 2 ^ 62) [] id
     d.meIssues 0 = true ∧ d.get (ME_STATUS_STATE 0) = 1 ∧ issued d < 2 ^ 64 ∧ issued d / 2 ^ 62 = 3) ∧
    (issued (withWord (5 * 2 ^ 31) [] id) / 2 ^ 62 = 0 ∧ slotOf (bits (issued (withWord (5 * 2 ^ 31) [] id)) 31 31) = none) ∧
    (let w := issued (withWord (movesWord 2 1 2 0) [] id)
     w / 2 ^ 62 = 0 ∧ slotOf (bits w 31 31) = some ⟨2, .inl 1⟩ ∧ slotOf (bits w 0 31) = some ⟨2, .inl 0⟩ ∧
      movesTrap [⟨2, .inl 1⟩, ⟨2, .inl 0⟩] false = some (0x04, 2)) ∧
    (let d := withWord (movesWord 2 1 3 0) [] id
     slotOf (bits (issued d) 31 31) = some ⟨2, .inl 1⟩ ∧ slotOf (bits (issued d) 0 31) = some ⟨3, .inl 0⟩ ∧
      MeMove.noop ⟨2, .inl 1⟩ = false ∧ MeMove.noop ⟨3, .inl 0⟩ = false ∧ ((d.me 0).settle d.tick).rep = 0 ∧ d.get (ME_PC_PC 0) < 16383) ∧
    (let d := withWord (movesWord 0 1 0 0) [] id
     slotOf (bits (issued d) 31 31) = some ⟨0, .inl 1⟩ ∧ MeMove.noop ⟨0, .inl 1⟩ = false ∧ slotOf (bits (issued d) 0 31) = some ⟨0, .inl 0⟩) ∧
    (let d := withWord (movesWord 0x080 1 0 0 + 0x083 * 2 ^ 21 + 2 ^ 20 + 7) [] id
     slotOf (bits (issued d) 31 31) = some ⟨0x080, .inl 1⟩ ∧ slotOf (bits (issued d) 0 31) = some ⟨0x083, .inr 7⟩) ∧
    (let w := issued (withWord (2 ^ 63 + 3 * 2 ^ 52 + 2 ^ 40) [] id)
     w / 2 ^ 62 = 2 ∧ bits w 32 20 ≠ 0) ∧
    (let d := withWord (2 ^ 63 + 3 * 2 ^ 52 + 77) [] id
     issued d / 2 ^ 62 = 2 ∧ bits (issued d) 32 20 = 0 ∧ bits (issued d) 52 10 < 0x40 ∧ ((d.me 0).settle d.tick).rep = 0) ∧
    (let d := withWord (2 ^ 63 + 3 * 2 ^ 52 + 77) [(ME_PC_PC 0, 16383)] id
     issued d / 2 ^ 62 = 2 ∧ bits (issued d) 32 20 = 0 ∧ d.get (ME_PC_PC 0) = 16383) ∧
    (let w := issued (withWord (branchWord 9 1 7 0) [] id)
     w / 2 ^ 62 = 1 ∧ 8 < bits w 58 4) ∧
    (let d := withWord (branchWord 8 1 0 3) [] (fun x => { x with rep := 2 })
     issued d / 2 ^ 62 = 1 ∧ bits (issued d) 58 4 ≤ 8 ∧ bitAt (issued d) 47 = true ∧ bits (issued d) 20 7 = 0 ∧
      bits (issued d) 48 10 < 0x40 ∧ 0 < ((d.me 0).settle d.tick).rep) ∧
    (let d := withWord (branchWord 8 1 0 3) [] id
     ((d.me 0).settle d.tick).rep = 0 ∧ meCond (bits (issued d) 58 4) 0 0 = some true ∧
      (d.get (ME_PC_PC 0) : Int) + sgn 20 (bits (issued d) 0 20) ≤ 16383) ∧
    (let d := withWord (branchWord 8 1 0 0xFFF00) [] id
     (d.get (ME_PC_PC 0) : Int) + sgn 20 (bits (issued d) 0 20) < 0) ∧
    (let d := withWord (branchWord 0 1 7 0) [] id
     issued d / 2 ^ 62 = 1 ∧ meCond (bits (issued d) 58 4) 0 7 = some false ∧ d.get (ME_PC_PC 0) < 16383) ∧
    (portKind 0x380 = .absent ∧ portKind 0x082 ≠ .trigger ∧ portKind 0x081 = .result ∧ srcTrap (.inl 1) = none) ∧
    (portKind 0x083 = .trigger ∧ portKind 0x084 = .trigger ∧ 0x083 ≠ 0x084 ∧ portUnit 0x083 = portUnit 0x084) ∧ portRedirects 0x0D0 = true := by
  decide +kernel

theorem meets_EngineStartResetImageAndHalt :
    (let d := engine [(ME_CTL_EN 0, 0), (ME_STATUS_STATE 0, 0)] id
     d.takesLate (.fn 0) (ME_CTL 0) = true ∧ d.flag (ME_CTL_EN 0) = false ∧ d.get (ME_STATUS_STATE 0) = 0) ∧
    (let d := engine [] (fun x => { x with next := 1000002 })
     d.takesLate (.me 1) (ME_CTL 0) = true ∧ d.flag (ME_CTL_EN 0) = true ∧ d.get (ME_STATUS_STATE 0) = 1) ∧
    (let d := (engine [] id).modMe 0 (fun x => { x with next := 1000008 })
     d.get (ME_STATUS_STATE 0) = 1 ∧ d.tick + 1 < (d.me 0).next) ∧
    (let d := engine [] (fun x => { x with stopping := true })
     (d.me 0).stopping = true ∧ (d.me 0).next ≤ d.tick ∧ d.get (ME_STATUS_STATE 0) = 1) ∧
    (let d := engine [(ME_STATUS_STATE 0, 0), (ME_IMADDR_WORD 0, 16383)] id
     d.takes (.fn 0) (ME_IMDATA_LO 0) = true ∧ d.get (ME_IMADDR_BANK 0) = d.get (ME_STATUS_IMAGE 0) ∧ d.get (ME_STATUS_STATE 0) = 0) ∧
    (let d := engine [(ME_IMADDR_BANK 0, 1)] id
     d.takes (.me 1) (ME_IMDATA_LO 0) = true ∧ d.get (ME_IMADDR_BANK 0) ≠ d.get (ME_STATUS_IMAGE 0) ∧ d.meLocked 0 = false) ∧
    (let d := engine [] id
     d.get (ME_IMADDR_BANK 0) = d.get (ME_STATUS_IMAGE 0) ∧ d.get (ME_STATUS_STATE 0) ≠ 0 ∧ d.reads (.me 1) 0 = true) ∧
    (let d := engine [(ME_STATUS_STATE 0, 4)] (fun x => { x with before := 2 })
     d.get (ME_STATUS_STATE 0) = 4 ∧ (d.me 0).before ≠ 4 ∧ (d.me 0).before < 8) ∧
    (engine [] id).get (ME_STATUS_STATE 0) ≠ 4 := by decide +kernel

/-! ## Timebase (02) -/

def refs (l : List (Fld × Nat)) : Dev := (mk l).dev

/-- A timebase with its second unit changed. -/
def tbOn (l : List (Fld × Nat)) (f : TbState → TbState) : Dev :=
  let d := (mk l).dev
  { d with tb := f d.tb }

theorem meets_ReferencesFailOverAndReturn :
    (let d := refs [(TB_STATUS_REF_ACTIVE, 1)]
     d.get TB_REFCFG_PRIMARY = d.tb.refPrim ∧ d.flag (refOk 0) = false ∧ d.get TB_STATUS_REF_ACTIVE ≠ 0 ∧ d.flag (refOk 1) = false) ∧
    (let d := refs [(TB_STATUS_REFB_OK, 1)]
     d.flag (refOk 1) = true ∧ d.get TB_STATUS_REF_ACTIVE = 0 ∧ d.flogMerge 0x20 0 = none ∧ d.svc.flBuf.length < 32) ∧
    (let d := refs [(TB_STATUS_REFA_OK, 1), (TB_STATUS_REFB_OK, 1)]
     d.flag (refOk 1) = true ∧ d.flag (refOk 0) = true ∧ d.get TB_STATUS_REF_ACTIVE ≠ 1) ∧
    (let d := refs [(TB_STATUS_REFA_OK, 1)]
     d.flag (refOk 0) = true ∧ d.flag (refOk 1) = false) ∧
    (let d := { tbOn [(TB_REFCFG_REVERT, 1), (TB_STATUS_REFA_OK, 1), (TB_STATUS_REF_ACTIVE, 1)] (fun t => { t with refGood := [(0, some 5)] }) with
       tick := 800000005 }
     Tab.get none d.tb.refGood (d.get TB_REFCFG_PRIMARY) = some 5 ∧ d.flag TB_REFCFG_REVERT = true ∧
      d.get TB_STATUS_REF_ACTIVE ≠ d.get TB_REFCFG_PRIMARY ∧ d.flag (refOk (d.get TB_REFCFG_PRIMARY)) = true ∧ 5 + msTicks 1000 ≤ d.tick) ∧
    (let d := tbOn [(TB_REFCFG_REVERT, 1)] (fun t => { t with refGood := [(0, some 999999)] })
     Tab.get none d.tb.refGood (d.get TB_REFCFG_PRIMARY) = some 999999 ∧ d.tick < 999999 + msTicks 1000) ∧
    (let d := refs [(TB_REFCFG_PRIMARY, 1), (TB_STATUS_REFB_OK, 1)]
     d.get TB_REFCFG_PRIMARY ≠ d.tb.refPrim ∧ d.flag (refOk (d.get TB_REFCFG_PRIMARY)) = true ∧ d.get TB_STATUS_REF_ACTIVE ≠ d.get TB_REFCFG_PRIMARY) ∧
    ((refs []).takes (.fn 0) TB_REFCFG = true ∧ (15 : Word) &&& 0xF = 15) := by decide +kernel

theorem meets_PllsSwitchOverRestoreAndStop :
    (let d := refs []
     d.tb.running = true ∧ d.flag TB_STATUS_PLL_SINGLE = false ∧ d.tb.pllDown = none ∧ d.tb.window = none ∧ d.takesLate (.fn 0) TB_CTL = true) ∧
    (let d := tbOn [(TB_STEPCNT_CNT, 2 ^ 32 - 1)] (fun t => { t with window := some true })
     d.tb.window = some true ∧ (List.range 256).all (fun n => !(d.fe n).lateCopy && !(d.fe n).lateImm && (d.fe n).lateStarts.isEmpty) = true) ∧
    (let d := tbOn [(TB_STATUS_PLL_SINGLE, 1)] id
     d.tb.window ≠ some true ∧ d.flag TB_STATUS_PLL_SINGLE = true ∧ d.tb.pllDown = none ∧ d.tb.running = true) ∧
    (let d := { tbOn [] (fun t => { t with pllDown := some 5000 }) with tick := 80005000 }
     d.tb.pllDown = some 5000 ∧ 5000 + 8000000 ≤ d.tick ∧ 5000 + 80000000 ≤ d.tick ∧ d.flag TB_STATUS_PLL_SINGLE = false ∧
      d.flogMerge 0x21 0 = none ∧ d.svc.flBuf.length < 32) ∧
    (let d := { tbOn [] (fun t => { t with pllDown := some 5000 }) with tick := 8004999 }
     d.tb.pllDown = some 5000 ∧ d.tick < 5000 + 8000000 ∧ d.tick < 5000 + 80000000) ∧
    (let d := tbOn [(TB_STATUS_PLL_SINGLE, 1)] (fun t => { t with running := false })
     d.tb.running = false ∧ d.takes (.fn 0) TB_CTL = true ∧ d.flag TB_STATUS_PLL_SINGLE = true ∧ d.tb.pllDown = none) := by decide +kernel

/-- A slave of the SYNC chain at the start of its fifth epoch. -/
def slave (l : List (Fld × Nat)) (f : TbState → TbState) : Dev :=
  { tbOn (l ++ [(TB_SYNCCFG_ROLE, 2)]) (fun t => f { t with syncLast := some (4 * 2 ^ 20) }) with stime := BitVec.ofNat 64 (5 * 2 ^ 20) }

/-- The error of the frame of the fifth epoch that came at fine step `x` after `k` as the slave `d` measures it. -/
def frameErr (d : Dev) (k : Nat) : Int := ((k * 64 : Int) - sgn 16 (d.get TB_SYNC_DELAY_DELAY)) - (5 * 2 ^ 20 * 64 : Int)

theorem meets_StimeStartsAlignsAndIsRead :
    (let d := tbOn [] (fun t => { t with running := false })
     d.pw.released = true ∧ d.pw.fuses = true ∧ d.tb.running = false ∧ d.flag TB_STATUS_TCLK_LOCK = false ∧
      d.flag SVC_CLKSTAT_TCLK_LOST = false ∧ d.get PWR_STATUS_STATE = 0 ∧ d.pw.sealLatched = 0) ∧
    (let d := { tbOn [(TB_SYNCCFG_ROLE, 1), (TB_SYNCCFG_OUT_EN, 1)] id with stime := BitVec.ofNat 64 (2 ^ 20 - 2048) }
     d.get TB_SYNCCFG_ROLE = 1 ∧ d.flag TB_SYNCCFG_OUT_EN = true ∧ d.tb.syncOut ≠ some ((d.now / 2 ^ 20 + 1) * 2 ^ 20) ∧
      (d.now / 2 ^ 20 + 1) * 2 ^ 20 ≤ d.now + 2048) ∧
    (let d := { tbOn [(TB_SYNCCFG_ROLE, 3), (TB_SYNCCFG_OUT_EN, 1)] (fun t => { t with syncOut := some (2 ^ 20) }) with
       stime := BitVec.ofNat 64 (2 ^ 20 - 1009) }
     d.get TB_SYNCCFG_ROLE = 3 ∧ d.tb.syncOut = some ((d.now / 2 ^ 20 + 1) * 2 ^ 20) ∧ d.now + 1009 + 16 * 0 ≤ 2 ^ 20 ∧
      2 ^ 20 ≤ d.now + 1024 + 16 * 0) ∧
    (let now := 2 ^ 20 - 2049
     now + 2048 < 2 ^ 20) ∧
    (let now := 2 ^ 20 - 2033
     2 ^ 20 ≤ now + 2048 ∧ now + 2033 ≤ 2 ^ 20) ∧
    (let now := 2 ^ 20 - 1
     now < 2 ^ 20 ∧ 2 ^ 20 < now + 1009) ∧
    (let now := 2 ^ 20 + 63
     2 ^ 20 ≤ now ∧ now < 2 ^ 20 + 64) ∧
    (let now := 2 ^ 20 + 64
     2 ^ 20 + 64 ≤ now) ∧
    (refs []).get TB_SYNCCFG_ROLE < 2 ∧
    (let d := slave [(TB_STATUS_SYNC_LOCK, 1)] (fun t => { t with syncBad := 2 })
     2 ≤ d.get TB_SYNCCFG_ROLE ∧ d.flag TB_STATUS_SYNC_LOCK = true ∧ 64 < (frameErr d (5 * 2 ^ 20 + 125)).natAbs ∧
      (frameErr d (5 * 2 ^ 20 + 1)).natAbs ≤ 64 ∧ -32768 ≤ frameErr d (5 * 2 ^ 20 + 125) ∧ frameErr d (5 * 2 ^ 20 + 125) ≤ 32767) ∧
    (let d := slave [(TB_SYNC_DELAY_DELAY, 3)] (fun t => { t with syncGood := 15 })
     d.flag TB_STATUS_SYNC_LOCK = false ∧ 64 < (frameErr d (5 * 2 ^ 20 + 125)).natAbs ∧ 2 < (frameErr d (5 * 2 ^ 20)).natAbs ∧
      (frameErr d (5 * 2 ^ 20)).natAbs ≤ 64) ∧
    (let d := slave [] (fun t => { t with syncGood := 15 })
     d.flag TB_STATUS_SYNC_LOCK = false ∧ (frameErr d (5 * 2 ^ 20)).natAbs ≤ 2 ∧ d.tb.syncLast = some (5 * 2 ^ 20 - 2 ^ 20) ∧ 15 ≤ d.tb.syncGood) ∧
    (slave [] (fun t => { t with syncGood := 14 })).tb.syncGood < 15 ∧
    (let d := slave [] (fun t => { t with syncTick := 1000000 })
     d.tick < d.tb.syncTick + 3 * 2 ^ 20 ∧ d.tb.running = true ∧ d.get PWR_STATUS_STATE = 0) ∧
    (let d := { slave [] id with tick := 3 * 2 ^ 20 }
     d.tb.syncGone = false ∧ d.tb.syncTick + 3 * 2 ^ 20 ≤ d.tick) := by decide +kernel

def flatHits : List Nat := List.replicate 64 1024 ++ List.replicate 128 0

/-- A device whose calibration of quadrant 0 began at tick `n`, with line A of every owner built, and line B of every owner but `but`. -/
def calibrating (n but : Nat) : Dev :=
  { (mk []).dev.modQuad 0 (fun x => { x with calStart := some n }) with
    lines := (lineOwners 0).map (fun k => (k, { tapsA := [0, 1], tapsB := if k = but then [] else [0, 1] })) }

theorem meets_LinesCalibrateAndSwap :
    (flatHits.length = 192 ∧ flatHits.sum = 65536 ∧ (List.replicate 192 341).length = 192 ∧ (List.replicate 192 341).sum ≠ 65536) ∧
    (let d := (mk [(TB_STATUS_CAL_DONE, 15)]).dev
     d.calDone (lineQuad (.generator 255)) = true ∧ (d.line (lineNo (.generator 255))).own = false ∧
      d.tb.recals.length ≤ (d.line (lineNo (.generator 255))).seen) ∧
    (let d := { tbOn [(TB_STATUS_CAL_DONE, 15)] (fun t => { t with recals := [5] }) with lines := [(0, { activeB := true })] }
     d.calDone (lineQuad (.generator 0)) = true ∧ (d.line (lineNo (.generator 0))).seen < d.tb.recals.length ∧ (d.line 0).activeB = true ∧
      (d.line (lineNo (.laneInput 511))).activeB = false) ∧
    (let d := (mk []).dev
     d.calDone (lineQuad (.axisInput 7 2)) = false ∧ (d.quad (lineQuad (.axisInput 7 2))).calStart = none ∧ d.tb.running = true ∧ d.quadDown 3 = false) ∧
    (let d := calibrating 846400 0
     d.calDone 0 = false ∧ (d.quad 0).calStart = some 846400 ∧ lineQuad (.generator 0) < 4 ∧ (d.line 0).tapsB = [] ∧ (d.line 0).tapsA ≠ [] ∧
      846400 + 153600 ≤ d.tick) ∧
    (let d := (mk []).dev.modQuad 0 (fun x => { x with calStart := some 923200 })
     (d.quad 0).calStart = some 923200 ∧ (d.line 0).tapsA = [] ∧ (d.line 0).tapsB = [] ∧ 923200 + 76800 ≤ d.tick) ∧
    ((calibrating 923201 0).line 1).tapsB ≠ [] ∧ (calibrating 923201 0).tick < 923201 + 76800 ∧
    (let d := { (mk []).dev with lines := [(0, { ready := some 5 }), (256, { ready := some 5 }), (257, { ready := some 5, latched := 1000001 })] }
     lineNo (.axisInput 0 0) = 256 ∧ lineNo (.axisInput 0 1) = 257 ∧ (d.line 257).latched = d.tick + 1 ∧ (d.line 256).ready.isSome = true ∧
      (d.line 256).latched ≠ d.tick + 1 ∧ (d.line 0).ready.isSome = true ∧ d.fePaired 0 = false ∧ d.fePair 0 = false ∧ d.feBoundary 0 = true ∧
      (d.line 1).ready = none) ∧
    (let d := { (mk [(FE_CTL_EN 0, 1), (FE_STATUS_RUN 0, 1)]).dev with lines := [(0, { ready := some 5 })] }
     d.feBoundary 0 = false) ∧
    (let d := { (mk []).dev with tick := 800000000, lines := [(0, { ready := some 5, deferred := true })], tb := { (mk []).dev.tb with swapTemp := 300 } }
     (d.line 0).ready = some 5 ∧ 5 + 800000 * max 1 (d.get TB_CALCFG_SWAP_WAIT) ≤ d.tick ∧ (d.line 0).deferred = true ∧
      (d.line 0).lastSwap + 800000000 ≤ d.tick ∧ (d.line 1).deferred = false ∧
      d.tb.lastInterval + 800000 * max 1 (min 1000 (d.get TB_CALCFG_INTERVAL)) ≤ d.tick) ∧
    (mk []).dev.tick < (mk []).dev.tb.lastInterval + 800000 * max 1 (min 1000 (2000)) ∧
    (let d := (mk [(TB_CALCFG_TSTEP, 2)]).dev
     d.get TB_CALCFG_TSTEP ≠ 0 ∧ d.tb.running = true ∧ 16 * d.get TB_CALCFG_TSTEP ≤ ((-32 : Int) - d.tb.swapTemp).natAbs ∧
      ((31 : Int) - d.tb.swapTemp).natAbs < 16 * d.get TB_CALCFG_TSTEP) := by decide +kernel

theorem meets_HousekeepingTimersCountAndMatch :
    (refs []).flag (HK_CTL_EN 31) = false ∧
    (let d := refs [(HK_CTL_EN 0, 1), (HK_CTL_MODE 0, 1), (whole (HK_CMP_LO 0), 1)]
     d.tb.running = true ∧ d.flag (HK_CTL_EN 0) = true ∧ (d.hk 0).next ≤ d.tick ∧
      (d.pair (HK_CNT_LO 0) (HK_CNT_HI 0) + 1) % 2 ^ 64 = d.pair (HK_CMP_LO 0) (HK_CMP_HI 0) ∧ d.get (HK_CTL_MODE 0) = 1) ∧
    (let d := refs [(HK_CTL_EN 31, 1), (HK_CTL_MODE 31, 2), (whole (HK_CMP_HI 31), 1), (whole (HK_CNT_LO 31), 2 ^ 32 - 1)]
     (d.pair (HK_CNT_LO 31) (HK_CNT_HI 31) + 1) % 2 ^ 64 = d.pair (HK_CMP_LO 31) (HK_CMP_HI 31) ∧ d.get (HK_CTL_MODE 31) ≠ 0 ∧
      d.get (HK_CTL_MODE 31) ≠ 1) ∧
    (let d := refs [(HK_CTL_EN 0, 1)]
     (d.pair (HK_CNT_LO 0) (HK_CNT_HI 0) + 1) % 2 ^ 64 ≠ d.pair (HK_CMP_LO 0) (HK_CMP_HI 0)) ∧
    ((refs []).now % 2 = 0 ∧ ({ refs [] with stime := 5000001 } : Dev).now % 2 = 1) := by decide +kernel

/-! ## Position inputs (03) -/

/-- Axis 0 in quadrature mode with FILT 8. -/
def axis (l : List (Fld × Nat)) (f : Axis → Axis) : Dev := ((mk ([(AXIS_CFG_MODE 0, 1), (AXIS_CFG_FILT 0, 8)] ++ l)).dev).modAxis 0 f

/-- A level of an input that waits in its filter since tick 999,992. -/
def waitingLevel : AxIn := { raw := true, pend := true, rawTick := 999992 }

/-- A level accepted on tick 999,988. -/
def change : AxChange := { pair := 0, lvl := true, raw := 999980, acc := 999988, at_ := { time := 999980, fine := 7 } }

theorem meets_AxisInputsAreFilteredAndWatched :
    (let d := axis [] id
     d.axInUse 0 0 = true ∧ ((d.axis 0).input 0).lost = false ∧ d.tb.running = true) ∧
    (let d := axis [] (fun x => { x with inA := { waitingLevel with lost := true } })
     ((d.axis 0).input 0).lost = true) ∧
    (axis [] id).axInUse 7 2 = false ∧
    (let d := axis [] (fun x => { x with inA := { waitingLevel with rawTick := 999993 } })
     let i := (d.axis 0).input 0
     i.lost = false ∧ d.tick < i.rawTick + d.get (AXIS_CFG_FILT 0) ∧ i.raw ≠ false ∧ i.pend = true ∧ i.rawTick ≠ d.tick ∧ d.axInUse 0 0 = true) ∧
    (let i := ((axis [] id).axis 0).input 1
     i.lost = false ∧ i.pend = false ∧ i.raw ≠ true) ∧
    (let d := axis [] (fun x => { x with inA := waitingLevel })
     let i := (d.axis 0).input 0
     i.pend = true ∧ i.lost = false ∧ max (i.rawTick + d.get (AXIS_CFG_FILT 0)) (d.axis 0).filtFrom ≤ d.tick ∧ i.rawTick < d.tick ∧
      i.ref = false ∧ d.get (AXIS_CFG_MODE 0) = 1) ∧
    (let d := axis [] (fun x => { x with inB := { waitingLevel with ref := true } })
     let i := (d.axis 0).input 1
     i.pend = true ∧ i.lost = false ∧ i.ref = true ∧ max (i.rawTick + d.get (AXIS_CFG_FILT 0)) (d.axis 0).filtFrom ≤ d.tick) ∧
    (let d := axis [] (fun x => { x with inA := waitingLevel, filtFrom := 1000001 })
     d.tick < max (((d.axis 0).input 0).rawTick + d.get (AXIS_CFG_FILT 0)) (d.axis 0).filtFrom) ∧
    ((axis [] id).reads (.me 0) 0 = true ∧ (axis [] id).takesLate (.fn 0) (AXIS_STATUS 7) = true ∧
      (axis [(AXIS_STATUS_FAULT 0, 1)] id).flag (AXIS_STATUS_FAULT 0) = true) := by decide +kernel

theorem meets_QuadratureIsDecoded :
    ((axis [] id).axis 0).changes = [] ∧
    (let d := axis [(AXIS_CFG_ILLMAX 0, 2)]
       (fun x => { x with changes := [change, { change with pair := 1, raw := 999983, acc := 999991 }], illRun := 1 })
     let x := d.axis 0
     d.get (AXIS_CFG_MODE 0) = 1 ∧ d.tb.running = true ∧ change.acc + 2 ≤ d.tick ∧ (x.input (1 - change.pair)).pend = false ∧
      x.changes = change :: [{ change with pair := 1, raw := 999983, acc := 999991 }] ∧ 999983 < change.acc + 2 ∧ 999991 ≤ d.tick ∧
      setBitAt (setBitAt x.dec (d.decBit 0 0) true) (d.decBit 0 1) true ≠ x.dec ∧
      quadDir x.dec (setBitAt (setBitAt x.dec (d.decBit 0 0) true) (d.decBit 0 1) true) = none ∧ d.get (AXIS_CFG_ILLMAX 0) = x.illRun + 1) ∧
    (let d := axis [(AXIS_CFG_MULT 0, 2)] (fun x => { x with changes := [change], dec := setBitAt 0 ((axis [] id).decBit 0 1) true })
     let x := d.axis 0
     let st := setBitAt x.dec (d.decBit 0 change.pair) change.lvl
     x.changes = change :: [] ∧ st ≠ x.dec ∧ (quadDir x.dec st).isSome = true ∧ quadCounts (d.get (AXIS_CFG_MULT 0)) x.dec st = false) ∧
    (let d := axis [(AXIS_IDXCFG_IDX_EN 0, 1), (AXIS_IDXCFG_GATE 0, setBitAt 0 ((axis [] id).decBit 0 0) true)]
       (fun x => { x with changes := [change], t16 := 65536 * 5, moved := true, brkNext := true, inZ := { hist := [(5, true)] } })
     let x := d.axis 0
     let st := setBitAt x.dec (d.decBit 0 change.pair) change.lvl
     x.changes = change :: [] ∧ st ≠ x.dec ∧ (quadDir x.dec st).isSome = true ∧ quadCounts (d.get (AXIS_CFG_MULT 0)) x.dec st = true ∧
      d.flag (AXIS_CFG_LIM_EN 0) = false ∧ st = d.get (AXIS_IDXCFG_GATE 0) ∧ d.axZActive 0 change.raw = true ∧
      ¬ ((6 * 65536 : Int) - d.axExpected 0 (6 * 65536)).natAbs ≤ d.get (AXIS_IDXCFG_TOL 0) * 65536) ∧
    (let d := axis [(AXIS_IDXCFG_TOL 0, 9)] id
     ((6 * 65536 : Int) - d.axExpected 0 (6 * 65536)).natAbs ≤ d.get (AXIS_IDXCFG_TOL 0) * 65536) ∧
    (let d := axis [(AXIS_IDXCFG_PERIODIC 0, 1), (AXIS_IDX_PERIOD_PERIOD 0, 10)] id
     d.flag (AXIS_IDXCFG_PERIODIC 0) = true ∧ d.get (AXIS_IDX_PERIOD_PERIOD 0) ≠ 0) := by decide +kernel

/-- Axis 0 in tooth-wheel mode with a tooth waiting, after a tooth `p` fine steps before it and a mean of 6,400. -/
def wheel (l : List (Fld × Nat)) (p : Nat) (learning : Bool) : Dev :=
  axis ([(AXIS_CFG_MODE 0, 2), (AXIS_TWCFG_GAP_RATIO 0, 96), (AXIS_TWCFG_EXTRA_RATIO 0, 32)] ++ l)
    (fun x => { x with changes := [change], tPrev := some (999980 * 64 + 7 - p), learning, periods := [6400, 6400, 6400, 6400] })

/-- A period of the wheel of `d` against its mean, in 1/64 (R73). -/
def ratio (d : Dev) (p : Nat) : Nat := p * 64 / d.twAvg 0

/-- The positions that a period of the wheel of `d` spans (R73). -/
def spans (d : Dev) (p : Nat) : Nat := (p + d.twAvg 0 / 2) / d.twAvg 0

theorem meets_ToothWheelCountsTeeth :
    (let d := axis [] (fun x => { x with changes := [change] })
     (d.axis 0).changes = change :: [] ∧ d.get (AXIS_CFG_MODE 0) ≠ 2) ∧
    (let d := axis [(AXIS_CFG_MODE 0, 2)] (fun x => { x with changes := [change] })
     d.get (AXIS_CFG_MODE 0) = 2 ∧ change.acc + 2 ≤ d.tick ∧ d.tb.running = true ∧ d.flag (AXIS_CFG_LIM_EN 0) = false ∧ (d.axis 0).tPrev = none) ∧
    (let d := wheel [] 6400 true
     (d.axis 0).tPrev = some (999980 * 64 + 7 - 6400) ∧ (d.axis 0).learning = true) ∧
    (let d := wheel [(AXIS_TWCFG_MAXGAP 0, 2)] 25600 false
     (d.axis 0).learning = false ∧ d.get (AXIS_TWCFG_GAP_RATIO 0) < ratio d 25600 ∧ max 1 (d.get (AXIS_TWCFG_MAXGAP 0)) < spans d 25600 - 1) ∧
    (let d := wheel [(AXIS_TWCFG_REFTYPE 0, 1)] 12800 false
     d.get (AXIS_TWCFG_GAP_RATIO 0) < ratio d 12800 ∧ spans d 12800 - 1 ≤ max 1 (d.get (AXIS_TWCFG_MAXGAP 0)) ∧ d.flag (AXIS_TWCFG_REFTYPE 0) = true) ∧
    (let d := wheel [] 12800 false
     d.get (AXIS_TWCFG_GAP_RATIO 0) < ratio d 12800 ∧ spans d 12800 - 1 ≤ max 1 (d.get (AXIS_TWCFG_MAXGAP 0)) ∧
      d.flag (AXIS_TWCFG_REFTYPE 0) = false ∧ d.flag (AXIS_IDXCFG_IDX_EN 0) = false) ∧
    (let d := wheel [] 3100 false
     ratio d 3100 ≤ d.get (AXIS_TWCFG_GAP_RATIO 0) ∧ ratio d 3100 < d.get (AXIS_TWCFG_EXTRA_RATIO 0) ∧ d.flag (AXIS_TWCFG_REFTYPE 0) = false) ∧
    (let d := wheel [] 3200 false
     ratio d 3200 ≤ d.get (AXIS_TWCFG_GAP_RATIO 0) ∧ d.get (AXIS_TWCFG_EXTRA_RATIO 0) ≤ ratio d 3200 ∧ (d.axis 0).learning = false) := by
  decide +kernel

theorem meets_AxisSettingsAndLimits :
    (let d := axis [] id
     d.takesLate (.fn 0) (AXIS_CFG 0) = true ∧ (0x08000401 : Word) &&& 0xFFFF0F07 = 0x08000401 ∧ bits (0x08000401 : Word).toNat 0 3 ≤ 4 ∧
      bits (0x08000401 : Word).toNat 8 2 ≠ 3 ∧ bitAt (0x08000401 : Word).toNat 11 = d.flag (AXIS_CFG_LIM_EN 0) ∧
      (∀ p < 3, ((d.axis 0).input p).pend = false) ∧ bitAt (0x08000401 : Word).toNat 10 ≠ d.flag (AXIS_CFG_INVERT 0) ∧
      bits (0x05000001 : Word).toNat 0 3 = d.get (AXIS_CFG_MODE 0) ∧ bits (0x05000001 : Word).toNat 8 2 = d.get (AXIS_CFG_MULT 0) ∧
      bitAt (0x05000001 : Word).toNat 10 = d.flag (AXIS_CFG_INVERT 0)) ∧
    (let d := axis [(whole (AXIS_LIMIT_LO_LO 0), 10)] id
     bitAt (0x08000801 : Word).toNat 11 = true ∧ d.flag (AXIS_CFG_LIM_EN 0) = false ∧ d.axLimitHi 0 < d.axLimitLo 0) ∧
    (let d := axis [(whole (AXIS_LIMIT_LO_LO 0), 10), (whole (AXIS_LIMIT_HI_LO 0), 10)] (fun x => { x with t16 := 65536 * 11 })
     d.flag (AXIS_CFG_LIM_EN 0) = false ∧ d.axLimitLo 0 ≤ d.axLimitHi 0 ∧ d.axLimitHi 0 < (d.axis 0).t16 / 65536 ∧
      (d.axis 0).t16 / 65536 - d.axLimitHi 0 ≤ 2147483647) ∧
    (let d := axis [(whole (AXIS_LIMIT_LO_LO 0), 10), (whole (AXIS_LIMIT_HI_LO 0), 10)] (fun x => { x with t16 := -65536 })
     d.axLimitLo 0 ≤ d.axLimitHi 0 ∧ (d.axis 0).t16 / 65536 < d.axLimitLo 0 ∧ d.axLimitLo 0 - (d.axis 0).t16 / 65536 ≤ 2147483648) ∧
    (let d := axis [(whole (AXIS_LIMIT_LO_LO 0), 10), (whole (AXIS_LIMIT_HI_LO 0), 10), (AXIS_CFG_LIM_EN 0, 1)] (fun x => { x with t16 := 655360 })
     d.axLimitLo 0 ≤ (d.axis 0).t16 / 65536 ∧ (d.axis 0).t16 / 65536 ≤ d.axLimitHi 0 ∧ -(2 ^ 63) ≤ (d.axis 0).t16 ∧ (d.axis 0).t16 < 2 ^ 63 ∧
      bitAt (0x08000001 : Word).toNat 11 = false ∧ d.flag (AXIS_CFG_LIM_EN 0) = true) ∧
    ((axis [] id).takesLate (.me 0) (AXIS_POS_LO 0) = true ∧ (axis [] id).takesLate (.me 0) (AXIS_LIMIT_HI_LO 0) = true ∧
      (axis [] id).takesLate (.me 0) (AXIS_LIMIT_LO_LO 0) = true) ∧
    (let d := axis [(AXIS_CFG_LIM_EN 0, 1), (whole (AXIS_LIMIT_LO_LO 0), 10)] id
     d.flag (AXIS_CFG_LIM_EN 0) = true ∧
      sgn 48 ((9 : Word).toNat + 2 ^ 32 * ((Tab.get 0 d.heldHi (AXIS_LIMIT_HI_HI 0)).toNat % 65536)) < d.axLimitLo 0 ∧
      d.axLimitLo 0 ≤ sgn 48 ((10 : Word).toNat + 2 ^ 32 * ((Tab.get 0 d.heldHi (AXIS_LIMIT_HI_HI 0)).toNat % 65536))) := by decide +kernel

/-- Axis 0 in the serial mode `mode` with a frame that started on tick 700,000, half a clock period of 40 ticks. -/
def serial (mode : Nat) (l : List (Fld × Nat)) (f : Axis → Axis) : Dev :=
  axis ([(AXIS_CFG_MODE 0, mode), (AXIS_SERTIME_HALF 0, 40), (AXIS_SERCFG_NBITS 0, 8), (AXIS_SERCFG_SPFWAIT 0, 3), (AXIS_SERCFG_SPFLEN 0, 0)] ++ l)
    (fun x => f { x with frameStart := some 700000 })

/-- The data line of a sensor that shows the bits `l` after `wait` clocks, and is then high. -/
def line (wait : Nat) (l : List Bool) : SerialFrame :=
  { first := true
    changes := l.zipIdx.map (fun p => (80 * (p.2 + 1 + wait) - 40, p.1)) ++ [(80 * (l.length + 1 + wait) - 40, true)] }

/-- The bits of an SPF frame of 24 position bits (R85), with the CRC changed by `d`. -/
def spf (sync hdr p st d : Nat) : List Bool :=
  bitsOf 6 sync ++ bitsOf 8 hdr ++ bitsOf 24 p ++ bitsOf 8 st ++ bitsOf 16 (crc16 ([hdr] ++ bytesOf 3 p ++ [st]) ^^^ d)

/-- The SPF frame of `d` shows the fields given, ended in time (R85, R87). -/
def shows (d : Dev) (f : SerialFrame) (sync hdr p st crc : Nat) : Bool :=
  dataLevel f 0 && (d.serHigh 0 f).isSome && decide (700000 + (d.serHigh 0 f).getD 0 ≤ d.tick) &&
  (List.range 62).all (fun i => some (d.serBit 0 f (3 + 1 + i)) == (bitsOf 6 sync ++ bitsOf 8 hdr ++ bitsOf 24 p ++ bitsOf 8 st ++ bitsOf 16 crc)[i]?)

theorem meets_SerialFramesAreCheckedInOrder :
    (0xA5 < 2 ^ 8 ∧ 0 < 8 ∧ (axis [] id).get (AXIS_CFG_MODE 0) < 3) ∧
    (let d := axis [(AXIS_CFG_MODE 0, 3), (AXIS_SERCFG_START 0, 1)] id
     3 ≤ d.get (AXIS_CFG_MODE 0) ∧ d.tb.running = true ∧ d.quadDown 0 = false ∧ d.get (AXIS_SERCFG_START 0) = 1 ∧
      (d.axis 0).lastPeriodic + max 1 (d.get (AXIS_SERPER_PER 0)) ≤ d.tick ∧ (d.axis 0).frameStart = none ∧ (d.axis 0).busyUntil ≤ d.tick) ∧
    (let d := { axis [(AXIS_CFG_MODE 0, 4), (AXIS_SERCFG_START 0, 2)] (fun x => { x with busyUntil := 1000001 }) with convs := [(0, { high := true })] }
     d.get (AXIS_SERCFG_START 0) = 2 ∧ (Tab.get ({} : Conv) d.convs (4 * 0 + d.get (AXIS_SERCFG_CONVSEL 0))).high = true ∧ d.tick < (d.axis 0).busyUntil) ∧
    ((serial 3 [] id).axis 0).frameStart ≠ none ∧
    (let d := serial 3 [] (fun x => { x with frameStart := some 999999 })
     d.tick < 999999 + (d.serHigh 0 (line 0 (bitsOf 8 0x5A))).getD 0) ∧
    (let d := serial 3 [] id
     dataLevel { first := false, changes := [(5, true)] } 0 = false ∧ (d.serHigh 0 { first := true, changes := [(41, false)] }).isNone = true ∧
      700000 + (d.serTicks 0 + 800 * clampN 1 1000 (d.get (AXIS_SERTIME_TIMEOUT 0))) ≤ d.tick) ∧
    (let d := serial 3 [] id
     let f := line 0 (bitsOf 8 0x5A)
     dataLevel f 0 = true ∧ (d.serHigh 0 f).isSome = true ∧ clampN 8 48 (d.get (AXIS_SERCFG_NBITS 0)) = 8 ∧ 0x5A < 2 ^ 8 ∧
      (∀ i < 8, d.serBit 0 f (i + 1) = bitAt 0x5A (8 - 1 - i)) ∧ d.serBit 0 f (8 + 1) = true ∧ d.get (AXIS_SERCFG_ERRBIT 0) = 0 ∧
      (d.axis 0).serPrev = none ∧ d.flag (AXIS_CFG_LIM_EN 0) = false) ∧
    ((serial 3 [(AXIS_SERCFG_ERRBIT 0, 1)] id).get (AXIS_SERCFG_ERRBIT 0) = 1 ∧ (serial 3 [(AXIS_SERCFG_ERRBIT 0, 2)] id).get (AXIS_SERCFG_ERRBIT 0) = 2) ∧
    (shows (serial 4 [] id) (line 3 (spf 0x1C 5 0x123456 0 0)) 0x1C 5 0x123456 0 (crc16 ([5] ++ bytesOf 3 0x123456 ++ [0])) = true) ∧
    (shows (serial 4 [] id) (line 3 (spf 0x2C 5 0x123456 0 1)) 0x2C 5 0x123456 0 (crc16 ([5] ++ bytesOf 3 0x123456 ++ [0]) ^^^ 1) = true) ∧
    (shows (serial 4 [] id) (line 3 (spf 0x2C 0x45 0x123456 0 0)) 0x2C 0x45 0x123456 0 (crc16 ([0x45] ++ bytesOf 3 0x123456 ++ [0])) = true ∧
      0x45 / 64 ≠ (serial 4 [] id).get (AXIS_SERCFG_SPFLEN 0) ∧ spfLen 0 = 24) ∧
    (shows (serial 4 [] id) (line 3 (spf 0x2C 5 0x123456 0x80 0)) 0x2C 5 0x123456 0x80 (crc16 ([5] ++ bytesOf 3 0x123456 ++ [0x80])) = true ∧
      5 / 64 = (serial 4 [] id).get (AXIS_SERCFG_SPFLEN 0) ∧ bitAt 0x80 7 = true) ∧
    (let d := serial 4 [(AXIS_SERCFG_SEQCHK 0, 1), (AXIS_SERMAX_MAX 0, 1)] (fun x => { x with serSeq := some 4, serPrev := some 0x123457 })
     shows d (line 3 (spf 0x2C 5 0x123456 0x40 0)) 0x2C 5 0x123456 0x40 (crc16 ([5] ++ bytesOf 3 0x123456 ++ [0x40])) = true ∧
      5 % 16 = (4 + 1) % 16 ∧ 6 % 16 ≠ (4 + 1) % 16 ∧ d.flag (AXIS_SERCFG_SEQCHK 0) = true ∧
      (serDelta 24 0x123457 0x123456).natAbs ≤ d.get (AXIS_SERMAX_MAX 0) ∧ d.get (AXIS_SERMAX_MAX 0) < (serDelta 24 0x123457 0x123455).natAbs) := by
  decide +kernel

/-- Axis 0 with a run of three latches and a velocity. -/
def running3 (f : Axis → Axis) : Dev :=
  axis [(AXIS_ESTCFG_HOLDF 0, 16)] (fun x => f { x with
    t16 := 65536 * 5, hist := [(65536 * 5, 319990000), (65536 * 4, 319980000), (65536 * 3, 319970000)], run := 3
    vel := 7036874417, lastLatch := 999900, holdDone := false })

def axisView (vel : Int) (ext : Bool) : AxView := { t16 := 5, ft := 100, vel, ext, span := 65536, tick := 0, stime := 0, rev := false, hist := [] }

theorem meets_EstimatorPredictsHoldsAndStops :
    (let x := (running3 id).axis 0
     ¬ (x.run = 0 ∨ x.runNext = true ∨ x.stopped = true) ∧ 2 ≤ min 64 (x.run + 1) ∧
      (((x.t16, 320000000) :: x.hist).take 64)[min (max 1 ((running3 id).get (AXIS_ESTCFG_WIN 0))) (min 64 (x.run + 1) - 1)]? = some (65536 * 3, 319970000) ∧
      319970000 < 320000000) ∧
    ((axisView (2 ^ 40) false).ext = false ∧ (axisView (2 ^ 40) true).ext = true ∧ 0 < (axisView (2 ^ 40) true).span ∧ (axisView (2 ^ 40) true).ft ≤ 100 ∧
      ((axisView (2 ^ 40) true).span - 1) * 2 ^ 30 ≤ (axisView (2 ^ 40) true).vel.natAbs * ((164 : Int) - 100)) ∧
    (((axisView (2 ^ 40) true).predict 6).isSome = true ∧ ((axisView (-2 ^ 40) true).predict 4).isSome = true) ∧
    ((axis [] id).axis 0).hist = [] ∧
    (let d := running3 (fun x => { x with vel := 7036874417 * 3 })
     let x := d.axis 0
     x.hist.head? = some (65536 * 5, 319990000) ∧ d.tb.running = true ∧ 2 ≤ x.run ∧ x.vel ≠ 0 ∧ x.holdDone = false ∧ x.stopped = false ∧
      (max 16 (d.get (AXIS_ESTCFG_HOLDF 0)) : Int) * d.axSpan 0 * 2 ^ 30 < 16 * (x.vel.natAbs : Int) * (((d.now + 1) * 64 : Int) - 319990000)) ∧
    (let d := running3 id
     d.tick < (d.axis 0).lastLatch + 800 * max 1 (d.get (AXIS_ESTSTOP_STOP 0))) ∧
    (let d := { running3 (fun x => { x with lastLatch := 0, holdDone := true }) with tick := 1000000000 }
     (d.axis 0).hist ≠ [] ∧ (d.axis 0).run ≠ 0 ∧ (d.axis 0).stopped = false ∧ (d.axis 0).holdDone = true ∧
      (d.axis 0).lastLatch + 800 * max 1 (d.get (AXIS_ESTSTOP_STOP 0)) ≤ d.tick) := by decide +kernel

/-- The emulator of axis 0 with the ratio 2/3. -/
def emulator (l : List (Fld × Nat)) (f : Emu → Emu) : Dev :=
  ((mk ([(AXIS_EMU_RATIO_M_M 0, 2), (AXIS_EMU_RATIO_N_N 0, 3)] ++ l)).dev).modEmu 0 f

theorem meets_EmulatorsDivideAndAnswer :
    ((3 : Nat) ≤ 3 ∧ (0 : Int) ≤ 2 ∧ (2 : Int) < 3) ∧
    (let d := emulator [(AXIS_EMU_CFG_EN 0, 1)] id
     d.takesLate (.me 0) (AXIS_EMU_CFG 0) = true ∧ (0xFF7F0C73 : Word) &&& 0xFF7F0FF3 = 0xFF7F0C73 ∧ bits (0xFF7F0C73 : Word).toNat 6 2 ≠ 3 ∧
      d.flag (AXIS_EMU_CFG_EN 0) = true) ∧
    (let d := emulator [] id
     d.flag (AXIS_EMU_CFG_EN 0) = false ∧ 1 ≤ d.get (AXIS_EMU_RATIO_M_M 0) ∧ d.get (AXIS_EMU_RATIO_M_M 0) ≤ d.get (AXIS_EMU_RATIO_N_N 0)) ∧
    (let d := emulator [(AXIS_EMU_RATIO_M_M 0, 4)] id
     d.get (AXIS_EMU_RATIO_N_N 0) < d.get (AXIS_EMU_RATIO_M_M 0)) ∧
    ((emulator [] id).takes (.fn 0) (AXIS_EMU_RATIO_N 0) = true ∧ (0xFFFFFF : Word) &&& 0xFFFFFF = 0xFFFFFF) ∧
    (let d := { emulator [(AXIS_EMU_CFG_EN 0, 1)] id with heldHi := [(AXIS_EMU_RATIO_M 0, 0x80000004)] }
     d.flag (AXIS_EMU_CFG_EN 0) = true ∧ (Tab.get 0 d.heldHi (AXIS_EMU_RATIO_M 0)).toNat % 2 ^ 24 = 4 ∧ 4 ≤ (4 : Word).toNat ∧ (3 : Word).toNat < 4) ∧
    ((emulator [] id).emu 0).backlog = [] ∧
    (let d := emulator [] (fun x => { x with lastOut := some 999968, backlog := [{ due := 1000000, up := true, c := 4 }] })
     (d.emu 0).backlog = { due := 1000000, up := true, c := 4 } :: [] ∧ d.tb.running = true ∧ 1000000 ≤ d.tick ∧ (d.emu 0).lastOut = some 999968 ∧
      999968 + 32 ≤ d.tick) ∧
    (let d := emulator [] (fun x => { x with lastOut := some 999969, backlog := [{ due := 999999, up := true, c := 4 }] })
     (d.emu 0).lastOut = some 999969 ∧ d.tick < 999969 + 32) ∧
    (emulator [] id).get (AXIS_EMU_CFG_SLAVE 0) = 0 ∧
    (let d := emulator [(AXIS_EMU_CFG_SLAVE 0, 1), (AXIS_EMU_CFG_SMOOTH 0, 0)] (fun x => { x with data := true, clk := true })
     d.get (AXIS_EMU_CFG_SLAVE 0) = 1 ∧ (d.emu 0).frame = none ∧ (d.emu 0).data = true ∧ (d.emu 0).clk = true ∧ d.tb.running = true ∧
      d.flag (AXIS_EMU_CFG_SMOOTH 0) = false ∧ (d.emu 0).recent = [] ∧ d.flag (AXIS_EMU_SLVCFG_ERR_EN 0) = false ∧
      d.flag (AXIS_EMU_SLVCFG_GRAY 0) = false) ∧
    (let d := emulator [(AXIS_EMU_CFG_SLAVE 0, 2)] (fun x => { x with frame := some [true], clk := true })
     d.get (AXIS_EMU_CFG_SLAVE 0) ≠ 0 ∧ (d.emu 0).frame = some [true] ∧ (d.emu 0).clk = true ∧
      (d.emu 0).clkHigh + 800 * clampN 1 1000 (d.get (AXIS_EMU_SLVCFG_TM 0)) ≤ d.tick) ∧
    ((emulator [] (fun x => { x with frame := some [], clk := false })).emu 0).clk = false := by decide +kernel

/-! ## The Coach (05) -/

/-- Slice 0 with a region of stacked memory. -/
def slice (l : List (Fld × Nat)) (f : Slice → Slice) : Dev :=
  ((mk ([(COACH_REGSIZE_SIZE 0, 1), (COACH_CTL_EN 0, 1), (MEM_STATUS_READY, 1)] ++ l)).dev).modSlice 0 f

/-- A TIME entry for tick `k`. -/
def timeEntry (k : Nat) : Entry := { Entry.of (k * 64) 0 with acc := 3 }

/-- A POS entry of axis 0 for count `k`. -/
def posEntry (k : Int) : Entry := { Entry.of 0 (2 ^ 62) with key := k * 65536, acc := 4 }

/-- The request of an entry at the insertion stage since tick 999,990. -/
def waitingEntry : InsReq := { cls := 3, e := timeEntry 5000300, from_ := 999990, who := some (.port 1, true) }

/-- What an acceptance makes of the first offer of slice 0 (R127, R130). -/
def accepted (d : Dev) (o : Offer) : Entry :=
  { o.e with key := if o.e.ktype = 0 then timeKey d.now o.e.key.toNat else o.e.key, acc := (d.slice 0).nextAcc, accTick := d.tick }

theorem meets_CoachAcceptsInsertsAndDraws :
    ((insFirst 1000000 [waitingEntry, { waitingEntry with cls := 1 }]).isSome = true ∧ ((slice [] id).slice 0).offers = [] ∧ ((slice [] id).slice 0).insq = []) ∧
    (let o : Offer := { who := .port 1, e := timeEntry 5000400 }
     let d := slice [] (fun z => { z with offers := [o] })
     (d.slice 0).offers = o :: [] ∧ d.quadDown 0 = false ∧ (d.slice 0).insq.all (fun r => r.who.all (fun p => p.1 != o.who)) = true ∧
      d.inLoaded 0 (accepted d o) = true) ∧
    (let o : Offer := { who := .port 1, e := timeEntry 90000000 }
     let d := slice [] (fun z => { z with offers := [o] })
     d.inLoaded 0 (accepted d o) = false ∧ blocksUsed (d.slice 0).cal < d.calBlocks 0) ∧
    (let o : Offer := { who := .port 1, e := timeEntry 90000000 }
     let d := slice [(COACH_REGSIZE_SIZE 0, 0)] (fun z => { z with offers := [o], cal := [(.time1 2, timeEntry 8200)] })
     d.inLoaded 0 (accepted d o) = false ∧
      ¬ (((d.slice 0).cal.filter (fun p => p.1 == d.bucketOf 0 (accepted d o))).length % 4 ≠ 0 ∨ blocksUsed (d.slice 0).cal < d.calBlocks 0)) ∧
    (let d := slice [] (fun z => { z with insq := [waitingEntry] })
     (d.slice 0).insq = [waitingEntry] ∧ max (d.slice 0).insFree waitingEntry.from_ + 10 ≤ d.tick ∧ waitingEntry.cls ≠ 2 ∧ waitingEntry.drawn = false ∧
      (d.slice 0).cancels = [] ∧ (d.slice 0).hor.length < 4096 ∧ waitingEntry.e.arming = 0) ∧
    (let d := slice [] (fun z => { z with insq := [{ waitingEntry with cls := 1, from_ := 999991 }] })
     d.tick < max (d.slice 0).insFree 999991 + 10) ∧
    (let r : InsReq := { waitingEntry with drawn := true, who := none }
     let d := slice [] (fun z => { z with insq := [r], cal := [(.time1 1220, timeEntry 5000300)] })
     (d.slice 0).insq = [r] ∧ r.cls ≠ 2 ∧ r.drawn = true ∧ r.who = none ∧ (d.slice 0).cal.any (fun p => p.2 == r.e) = true) ∧
    (let r : InsReq := { waitingEntry with cls := 2, e := { posEntry 5 with car := some 3 } }
     r.cls = 2 ∧ r.cls < 4 ∧ r.e.car = some 3) ∧
    (let d := slice [] (fun z => { z with loads := [(.time1 1220, 1000100)], cal := [(.time1 1220, timeEntry 4997130), (.time1 1220, timeEntry 4997129)] })
     d.quadDown 0 = false ∧ (d.slice 0).hor.length + ((d.slice 0).insq.filter (fun r => r.cls != 2)).length < 4096 ∧
      ((List.range 9).map (fun k => ((d.slice 0).drawTurn + k) % 9)).find? (fun l => (d.drawFrom 0 l).isSome) = some 0 ∧
      (d.drawFrom 0 0).isSome = true ∧ (d.slice 0).loads.find? (fun p => p.1 == .time1 1220) = some (.time1 1220, 1000100)) := by
  decide +kernel

theorem meets_CoachAcceptsInsertsAndDraws_draws :
    (let d := slice [] id
     ((List.range 9).map (fun k => ((d.slice 0).drawTurn + k) % 9)).find? (fun l => (d.drawFrom 0 l).isSome) = none) ∧
    ((synRead (0x010101 : BitVec 24).toNat).kind ≠ 1 ∨ (synRead (1 : BitVec 24).toNat).kind ≠ 1) ∧
    (let d := slice [] (fun z => { z with cal := [(.time2 4, timeEntry 20000300), (.time2 1, timeEntry 5000300)], cur2 := 0 })
     d.quadDown 0 = false ∧ d.now / 2 ^ 22 ≠ (d.slice 0).cur2 ∧ (d.slice 0).moved ≠ d.tick + 1 ∧ 1 ≤ d.now / 2 ^ 22 ∧ d.now / 2 ^ 22 < 4 ∧
      (d.slice 0).cal[1]? = some (.time2 1, timeEntry 5000300)) ∧
    ((slice [] (fun z => { z with moved := 1000001 })).slice 0).moved = 1000000 + 1 ∧
    (let d := { slice [] (fun z => { z with cal := [(.timeFar, timeEntry 5000300), (.timeFar, timeEntry (2 ^ 46))], farSeen := 1 }) with
       stime := BitVec.ofNat 64 (2 ^ 33 + 5) }
     d.now / 2 ^ 32 ≠ (d.slice 0).scanned ∧ (d.slice 0).moved ≠ d.tick + 1 ∧
      ((d.slice 0).cal.filter (fun p => p.1 == .timeFar))[1]? = some (.timeFar, timeEntry (2 ^ 46)) ∧
      d.bucketOf 0 (timeEntry (2 ^ 46)) = .timeFar ∧ d.bucketOf 0 (timeEntry 5000300) ≠ .timeFar ∧
      ((d.slice 0).cal.filter (fun p => p.1 == .timeFar))[2]? = none) ∧
    (let d := slice [] (fun z => { z with cal := [(.posFar 0, posEntry 40)], centre := [(0, 300)] })
     256 ≤ (d.posBucket 0 0 (d.view 0 0).t16 - Tab.get 0 (d.slice 0).centre 0).natAbs ∧ (d.slice 0).moved ≠ d.tick + 1 ∧
      ((d.slice 0).cal.filter (fun p => p.1 == .posFar 0))[Tab.get 0 (d.slice 0).posSeen 0]? = some (.posFar 0, posEntry 40)) ∧
    ((slice [] id).posBucket 0 7 ((slice [] id).view 0 7).t16 - Tab.get 0 ((slice [] id).slice 0).centre 7).natAbs < 256 ∧
    (let d := slice [] (fun z => { z with loaded := [(0, some 4)], cal := [(.pos1 0 5, posEntry 90)] })
     firstIdx (fun a => Tab.get none (d.slice 0).loaded a != some (d.posBucket 0 a (d.view 0 a).t16)) 0 8 = some 0 ∧
      d.posBucket 0 0 (d.view 0 0).t16 < d.loadedAt 0 0 ∧ d.posBucket 0 0 (d.view 0 0).t16 + 1 < 5 ∧ 5 ≤ d.loadedAt 0 0 + 1) := by
  decide +kernel

/-- What the arm stage of slice 0 of `d` takes (R139). -/
def takes (d : Dev) : Option ((Int × Nat) × ArmSource × Entry) :=
  armBest ((d.armSees 0).filterMap (fun p => (d.armEstimate 0 p.2).map (fun f => (f, p.1, p.2))))

/-- The arm stage of slice 0 of `d` takes an entry, if it sees one (R139, R140). -/
def armReady (d : Dev) : Bool :=
  !d.quadDown 0 && !d.napping && d.flag (COACH_CTL_EN 0) && (d.slice 0).took != d.tick + 1 && decide (d.slotsHeld 0 < 1024) && (d.slice 0).cancels.isEmpty

theorem meets_ArmStageTakesInFireOrder :
    ((timeEntry 5).ktype = 0 ∧ (posEntry 1).ktype ≠ 0 ∧ armBest [] = none ∧ (armBest [((5, 0), .horizon, timeEntry 5)]).isSome = true) ∧
    (armReady (slice [(COACH_CTL_EN 0, 0)] id) = false ∧ armReady (slice [] (fun z => { z with took := 1000001 })) = false) ∧
    (armReady (slice [] (fun z => { z with hor := [timeEntry 5001281] })) = true ∧ takes (slice [] (fun z => { z with hor := [timeEntry 5001281] })) = none) ∧
    (let e := { timeEntry 4000000 with latepol := true }
     let d := slice [] (fun z => { z with hor := [e] })
     armReady d = true ∧ takes d = some ((5000000 * 64, 0), .horizon, e) ∧ e.car = none ∧ e.latepol = true ∧ e.repcnt = 0 ∧ e.recmode = 0 ∧
      e.arming = 0) ∧
    ((takes (slice [] (fun z => { z with hor := [timeEntry 5000300, timeEntry 5000200] }))).map (fun x => (x.1, x.2.2)) =
      some ((5000200 * 64, 1), timeEntry 5000200)) ∧
    ((takes (slice [(COACH_EDGEWIN_COUNTS 0, 4)] (fun z => { z with hor := [posEntry 1] }))).any (fun x => decide (2 ≤ x.1.2)) = true) ∧
    ((takes (slice [] (fun z => { z with hor := [{ timeEntry 5001000 with repcnt := 3, repint := 100 }] }))).any (fun x => x.2.2.repcnt != 0) = true) := by
  decide +kernel

/-- A live slot that is due now, for action `a` on target 2. -/
def dueSlot (a prio i : Nat) : Slot :=
  { id := i, e := { timeEntry 5000000 with action := a, target := 2, prio, acc := i }, a := 999000, live := true, kind := 0, f := 5000000 * 64 + 5 }

/-- A timed slot of axis 0 that fires in 100 ticks. -/
def timedSlot : Slot := { id := 1, e := posEntry 4, a := 990000, live := true, kind := 1, f := 5000100 * 64 }

def reaim (l : AxMsg → AxMsg) (v : AxView) : AxMsg := l { q := 0, a := 0, due := 5, view := v }

theorem meets_SlotsAreAimedAndFire :
    (let m := reaim (fun m => { m with hold := true, all := true }) {}
     m.rev = false ∧ m.edge = false ∧ m.jump = false ∧ m.hold = true ∧ timedSlot.kind = 1 ∧ timedSlot.crossed = none ∧ m.all = true ∧
      (5000096 : Int) + 4 ≤ timedSlot.f / 64 ∧ ¬ (5000097 : Int) + 4 ≤ timedSlot.f / 64) ∧
    (let m := reaim id { t16 := 65536, ext := true, vel := 2 ^ 30, span := 65536 * 8 }
     m.hold = false ∧ m.view.ext = true ∧ timedSlot.e.passed m.view 5000000 = false ∧
      m.view.predict timedSlot.e.key = some 196608 ∧ (196608 : Int) / 64 ≤ 5000000 ∧ timedSlot.e.passed m.view 3071 = false ∧
      (3071 : Int) < 196608 / 64) ∧
    ((dueSlot 0 0 1).kind = 0 ∧ ((slice [] id).msgs.find? (fun m => m.q == 0 && m.a == 0)) = none) ∧
    (let d := { slice [] (fun z => { z with slots := [timedSlot] }) with msgs := [reaim id {}, reaim (fun m => { m with hold := true }) {}] }
     d.msgs.find? (fun m => m.q == 0 && m.a == 0) = some (reaim id {}) ∧ (reaim id {}).due ≤ d.tick ∧ (reaim id {}).hold = false) ∧
    ((slice [] id).tick < (reaim (fun m => { m with due := 1000001 }) {}).due) ∧
    (let d := slice [] (fun z => { z with slots := [dueSlot 3 0 1, dueSlot 4 1 2] })
     (d.slice 0).cancels = [] ∧ (d.slice 0).slots.find? (fun x => x.id == 1) = some (dueSlot 3 0 1) ∧ (dueSlot 3 0 1).isDue d.now = true ∧
      d.quadDown 0 = false ∧ d.pw.waking = false ∧ (dueSlot 3 0 1).due = some (5000000 * 64 + 5) ∧ (5000000 * 64 + 5 : Int) / 64 = d.now ∧
      (dueSlot 3 0 1).e.recmode = 0 ∧ (dueSlot 3 0 1).e.car = none ∧ (dueSlot 3 0 1).e.arming = 0 ∧ (d.slice 0).fired.1 ≠ d.tick + 1 ∧
      (d.slice 0).slots.find? (fun x => x.id == 3) = none) ∧
    (let d := slice [] (fun z => { z with slots := [dueSlot 1 1 1, dueSlot 2 0 2] })
     ((d.slice 0).slots.filter (fun y => y.id != 1 && y.isDue d.now && y.e.goal == (dueSlot 1 1 1).e.goal)) = [dueSlot 2 0 2] ∧
      ¬ ((dueSlot 1 1 1).e.prio < (dueSlot 2 0 2).e.prio ∨
        ((dueSlot 1 1 1).e.prio = (dueSlot 2 0 2).e.prio ∧ (dueSlot 1 1 1).e.acc ≤ (dueSlot 2 0 2).e.acc))) ∧
    ({ dueSlot 0 0 1 with live := false }.isDue 5000000 = false) := by decide +kernel

/-- A cancel of the TIME entries with tag 0 that were accepted before number 9. -/
def cancel (f : Cancel → Cancel) : Cancel :=
  f { who := .port 1, tag := 0, pos := false, axis := 0, start := 5, accNo := 9, swept := true, ends := 1000000 }

theorem meets_CoachIsControlledAndCancels :
    ((slice [] id).slice 0).cancels = [] ∧
    ((cancel id).hits (timeEntry 7) = true ∧ (cancel id).hits (posEntry 7) = false) ∧
    (let c := cancel (fun c => { c with ends := 1000001 })
     let d := slice [] (fun z => { z with cancels := [c], cal := [(.time1 0, timeEntry 7)] })
     (d.slice 0).cancels = c :: [] ∧ c.swept = true ∧ d.tick < c.ends ∧ (d.slice 0).cal[c.seen]? = some (.time1 0, timeEntry 7)) ∧
    (let d := slice [] (fun z => { z with cancels := [cancel id, cancel id], cal := [(.time1 0, timeEntry 7)], insq := [waitingEntry] })
     (d.slice 0).cancels = cancel id :: [cancel id] ∧ (cancel id).swept = true ∧ (cancel id).ends ≤ d.tick ∧ (cancel id).who = .port 1) ∧
    (let c := cancel (fun c => { c with swept := false, start := 999936, ends := 1000001 })
     let d := slice [] (fun z => { z with cancels := [c], hor := [timeEntry 5] })
     (d.slice 0).cancels = c :: [] ∧ c.swept = false ∧ c.start + 64 ≤ d.tick ∧ d.tick < c.ends) ∧
    (let d := slice [(COACH_REGBASE_BASE 0, 1023)] id
     d.takes (.fn 0) (COACH_CTL 0) = true ∧ d.get (COACH_REGBASE_BASE 0) + min 128 (d.get (COACH_REGSIZE_SIZE 0)) ≤ 1024 ∧
      d.flag (COACH_CTL_EN 0) = true) ∧
    (let d := slice [(COACH_REGBASE_BASE 0, 1023), (COACH_REGSIZE_SIZE 0, 2), (COACH_CTL_EN 0, 0)] id
     ¬ d.get (COACH_REGBASE_BASE 0) + min 128 (d.get (COACH_REGSIZE_SIZE 0)) ≤ 1024 ∧ d.flag (COACH_CTL_EN 0) = false) := by decide +kernel

/-- Template 0 with two entries on either page, at words 4 and 5 of stacked memory. -/
def template (f : Dev → Dev) : State :=
  let s := on (mk [(MEM_STATUS_READY, 1), (TPL_PAGE0_BASE 0, 1), (TPL_LEN_LEN0 0, 2), (TPL_PAGE1_BASE 0, 1), (TPL_LEN_LEN1 0, 2)]) f
  { s with mem := (s.mem.store (s.dev.memLoc 4) (5 + 2 ^ 127) 0).store (s.dev.memLoc 5) (6 + 2 ^ 127) 0 }

/-- A carriage of axis 0 with a read of its template's first entry under way. -/
def carriage : Carriage := { isOpen := true, reads := [5], cursor := 1, base := 65536, flags := 3 }

theorem meets_TemplatesAndCarriagesRun :
    (let s := template id
     (∀ i < 2, (s.mem.read (s.dev.memLoc (s.dev.tplWord 0 1 i))).kind = 0) ∧ s.dev.mc.touched.all (fun y => y.tick != s.dev.tick) = true) ∧
    (let d := (template id).dev
     d.takes (.fn 0) (TPL_CMD 0) = true ∧ (d.tpl 0).check = none ∧ d.tplUsers 0 (1 - d.tplPage 0) = 0) ∧
    (let d := (template (fun d => d.modCar 0 (fun _ => { carriage with page := 1 }))).dev
     (d.tpl 0).check = none ∧ d.tplUsers 0 (1 - d.tplPage 0) ≠ 0) ∧
    (let d := (template (fun d => d.modTpl 0 (fun x => { x with check := some 999998 }))).dev
     (d.tpl 0).check = some 999998 ∧ 999998 + d.tplLen 0 1 ≤ d.tick ∧ d.memUp = true ∧ d.memClear (d.tplWord 0 1 0) (d.tplLen 0 1) = true ∧
      (d.tpl 0).group = none) ∧
    (let d := (template id).dev.modTpl 0 (fun x => { x with check := some 999999 })
     d.tick < 999999 + d.tplLen 0 1) ∧
    (let s := template (fun d => d.modCar 0 (fun _ => carriage))
     (s.dev.car 0).isOpen = true ∧ (s.dev.car 0).reads ≠ [] ∧ s.dev.memUp = true ∧
      s.dev.memClear (s.dev.tplWord (s.dev.car 0).tpl (s.dev.car 0).page ((s.dev.car 0).cursor - (s.dev.car 0).reads.length)) 1 = true ∧
      (s.mem.read (s.dev.memLoc (s.dev.tplWord 0 0 0))).kind = 0) ∧
    (let s := template id
     ((s.mem.setPoison (s.dev.memLoc 4)).read (s.dev.memLoc (s.dev.tplWord 0 0 0))).kind ≠ 0 ∧
      ((s.mem.setPoison (s.dev.memLoc 4)).read (s.dev.memLoc (s.dev.tplWord 0 0 0))).kind ≠ 1) ∧
    (let d := (template (fun d => (d.modCar 0 (fun _ => carriage)).modSlice 0
       (fun z => { z with slots := [{ dueSlot 1 0 1 with e := { timeEntry 9 with car := some 0 } }], hor := [{ timeEntry 9 with car := some 0 }] }))).dev
     d.takesLate (.me 0) (CAR_FLAGSET 0) = true ∧ d.takes (.me 0) (CAR_CLOSE 0) = true ∧ (0x000501 : Word) &&& 0xFFFFFF = 0x000501 ∧
      (0 : Word) &&& 0xFF = 0 ∧ (d.car (256 * 0 + bits (0x000501 : Word).toNat 16 8)).isOpen = true ∧
      (d.car (256 * 0 + bits (0xFF0000 : Word).toNat 16 8)).isOpen = false ∧ (d.slice 0).slots.any (fun x => d.slotDueSoon x) = true) ∧
    (let x := (template (fun d => d.modCar 0 (fun _ => carriage))).dev.car (256 * 0 + (template id).dev.get (CAR_CARSEL_CAR 0))
     x.flags < 256 ∧ x.cursor < 8192 ∧ (3 : Fin 8).val / 2 = (2 : Fin 8).val / 2) := by decide +kernel

/-! ## Host interface (11) -/

/-- The device in RUN, its start-up over and the link up, function 0 a bus master. -/
def host (l : List (Fld × Nat)) (f : Dev → Dev) : State :=
  let s := mk ((PWR_BOOTSTAT_READY, 1) :: l)
  { s with dev := f (({ s.dev with host := { s.dev.host with linkUp := true } } : Dev).modFn 0 (fun x => { x with bme := true })) }

/-- An empty descriptor. -/
def nop : Desc := ⟨0, 0, 0, 0, 0, 0, 0, 0⟩

/-- Ring 1 with four slots beyond its head, and completion ring 0. -/
def ringOne (l : List (Fld × Nat)) : State :=
  host ([(SR_CFG_EN 1, 1), (SR_CFG_LOG2SZ 1, 4), (SR_CFG_CQ 1, 0), (SR_CFG_FETCH 1, 0), (SR_HEAD_HEAD 1, 2), (SR_TAIL_TAIL 1, 4), (RR_CFG_EN 0, 1),
    (RR_CFG_TYPE 0, 0), (RR_CFG_LOG2SZ 0, 4)] ++ l) id

/-- Event ring 3 with five records. -/
def eventRing (l : List (Fld × Nat)) (f : RecUnit → RecUnit) : State :=
  host ([(RR_CFG_EN 3, 1), (RR_CFG_TYPE 3, 1), (RR_CFG_LOG2SZ 3, 4), (RR_HEAD_HEAD 3, 0), (RR_TAIL_TAIL 3, 5)] ++ l)
    (fun d => { d with ru := f d.ru })

theorem meets_RingsAreEnabledAndRung :
    (1 : Fin 1024).val % 16 ≠ 0 ∧
    (let d := (ringOne []).dev
     (16 : Fin 1024).val = 16 * (1 : Fin 32).val ∧ d.srOwner 1 ≠ (1 : Fin 4).val ∧ d.srOwner 1 = (0 : Fin 4).val ∧ d.get (SR_CFG_EN 1) = 1 ∧
      d.srSize 1 ≤ 16 ∧ 15 < d.srSize 1 ∧ 3 < d.srSize 1 ∧ ringDist 16 2 3 < ringDist 16 2 4 ∧ 1 < d.srSize 1 ∧
      ringDist 16 2 4 ≤ ringDist 16 2 1 ∧ d.get (SR_HEAD_HEAD 1) = 2 ∧ d.get (SR_TAIL_TAIL 1) = 4) ∧
    (let d := (eventRing [] id).dev
     (560 : Fin 1024).val = 512 + 16 * (3 : Fin 32).val ∧ d.rrOwner 3 ≠ (1 : Fin 4).val ∧ d.rrOwner 3 = (0 : Fin 4).val ∧ d.get (RR_CFG_EN 3) = 1 ∧
      d.rrSize 3 = 16 ∧ d.get (RR_HEAD_HEAD 3) = 0 ∧ d.get (RR_TAIL_TAIL 3) = 5 ∧ ringDist 16 0 5 < ringDist 16 0 6 ∧
      ringDist 16 0 5 ≤ ringDist 16 0 5 ∧ (Tab.get (0, 0, 0) d.ru.ringLost 3).1 = 0 ∧ ringDist 16 5 5 + d.heldFor 3 = 0 ∧
      ringDist 16 4 5 + d.heldFor 3 ≠ 0) ∧
    (let d := (eventRing [(RR_TAIL_TAIL 3, 15)] (fun r => { r with ringLost := Tab.set (0, 0, 0) r.ringLost 3 (2, 5, 9) })).dev
     ringDist 16 0 1 ≤ ringDist 16 0 15 ∧ (Tab.get (0, 0, 0) d.ru.ringLost 3).1 ≠ 0 ∧ 16 - 1 - ringDist 16 1 15 - 0 ≠ 0 ∧
      16 - 1 - ringDist 16 0 15 - 0 = 0) := by
  decide +kernel

theorem meets_RingsAreEnabledAndRung_config :
    (let d := (ringOne [(SR_CFG_EN 1, 0)]).dev
     d.takes (.fn 0) (SR_CFG 1) = true ∧ (0x80040000 : Word) &&& 0x9F1F00F0 = 0x80040000 ∧ d.get (SR_CFG_EN 1) = 0 ∧ d.rrOwner 0 = d.srOwner 1 ∧
      d.get (RR_CFG_EN 0) = 1 ∧ d.get (RR_CFG_TYPE 0) = 0 ∧ d.get (RR_CFG_EN 2) ≠ 1) ∧
    (let d := ((ringOne []).dev).modSring 1 (fun x => { x with buf := [nop, nop] })
     d.takes (.fn 0) (SR_CFG 1) = true ∧ d.get (SR_CFG_EN 1) = 1 ∧ bits (0x80050000 : Word).toNat 16 5 ≠ d.get (SR_CFG_LOG2SZ 1) ∧
      bits (0x80040000 : Word).toNat 24 5 = d.get (SR_CFG_CQ 1) ∧ bits (0x80040000 : Word).toNat 16 5 = d.get (SR_CFG_LOG2SZ 1) ∧
      bits (0x80040000 : Word).toNat 4 4 = d.get (SR_CFG_FETCH 1) ∧ (d.sring 1).buf[1]? = some nop) ∧
    (let d := (ringOne []).dev
     d.takes (.fn 0) (RR_CFG 2) = true ∧ (0xC0040000 : Word) &&& 0xC01F0000 = 0xC0040000 ∧ d.get (RR_CFG_EN 2) = 0 ∧ d.ru.detachFirst = none ∧
      d.get (RR_CFG_EN 0) = 1 ∧ d.get (RR_CFG_TYPE 0) = 0 ∧ d.get (SR_CFG_EN 1) = 1 ∧ d.get (SR_CFG_CQ 1) = 0) ∧
    (let d := (host [(HIF_GEN_GEN, 4)] (fun d => { d with ru := { d.ru with detachFirst := some 77 } })).dev
     d.get (RR_CFG_EN 3) = 0 ∧ d.ru.detachFirst = some 77 ∧ bits (0xC0040000 : Word).toNat 30 1 = 1 ∧ d.ru.detachReported ≠ d.get HIF_GEN_GEN) ∧
    (let d := (eventRing [] id).dev
     d.get (RR_CFG_EN 3) = 1 ∧ d.get (RR_CFG_TYPE 3) = 1 ∧ bits (0xC0050000 : Word).toNat 16 5 ≠ d.get (RR_CFG_LOG2SZ 3) ∧
      bits (0xC0040000 : Word).toNat 30 1 = d.get (RR_CFG_TYPE 3) ∧ bits (0xC0040000 : Word).toNat 16 5 = d.get (RR_CFG_LOG2SZ 3)) := by
  decide +kernel

/-- A descriptor with opcode `op`, header bits `hd` beside it, PARAM `p` and two payload words. -/
def desc (op hd p a b : Nat) : Desc := ⟨BitVec.ofNat 64 (op + hd + p * 2 ^ 32), BitVec.ofNat 64 a, BitVec.ofNat 64 b, 0, 0, 0, 0, 0⟩

/-- A descriptor of ring 1 at its target. -/
def flight (x : Desc) : Flight := { id := 3, sr := 1, f := 0, cq := 0, target := x.target, desc := x }

/-- Ring 1 running, with the descriptors `l` at their targets. -/
def flying (l : List Flight) (s : State) : State := on s (fun d => { d with host := { d.host with flights := l } })

theorem meets_DescriptorsAreFetchedForwardedAndCompleted :
    (let d := (host [] id).dev
     ∀ i, i < 32 → d.get (SR_CFG_EN ((d.host.lastRing + 1 + i) % 32)) ≠ 1) ∧
    (let d := (ringOne []).dev
     let x := d.fn (d.srOwner 1)
     d.host.lastRing = 31 ∧ d.get (SR_CFG_EN 1) = 1 ∧ d.host.linkUp = true ∧ d.host.detached = false ∧ x.bme = true ∧ x.d3 = false ∧
      d.get PWR_BOOTSTAT_READY = 1 ∧ d.get PWR_STATUS_STATE < 2 ∧ (d.sring 1).reading = none ∧ (d.sring 1).buf.length < 8 ∧
      d.get (SR_HEAD_HEAD 1) ≠ d.get (SR_TAIL_TAIL 1) ∧ d.host.bulkq = [] ∧ d.get (SR_CFG_EN 0) ≠ 1) ∧
    (let d := ((ringOne []).dev).modSring 1 (fun x => { x with buf := [nop, nop], reading := some (2, 1) })
     ((ringOne []).dev.sring 1).reading = none ∧ (d.sring 1).reading = some (2, 1) ∧ ([] : List Desc).length ≠ 1 ∧ [nop].length = 1 ∧
      d.get (RR_CFG_TYPE 0) ≠ 1 ∧ (d.sring 1).buf.length < d.rrFree 0 ∧ (d.sring 1).buf[1]? = some nop ∧
      ¬ (d.sring 1).buf.length < (((d.put (RR_TAIL_TAIL 0) 13)).rrFree 0)) ∧
    ((ringOne []).dev.sring 1).buf = [] ∧
    (let d := ((ringOne []).dev).modSring 1 (fun x => { x with buf := [nop] })
     (d.sring 1).buf = nop :: [] ∧ nop.hdr 11 1 ≠ 1 ∧ d.compCredits 4 ≠ 0 ∧ d.descCredits 4 ≠ 0 ∧ d.rrFree 0 ≠ 0) ∧
    (let d := ((flying [flight nop] (ringOne [])).dev).modSring 1 (fun x => { x with buf := [desc 0 0x800 0 0 0] })
     (desc 0 0x800 0 0 0).hdr 11 1 = 1 ∧ (∃ z ∈ d.host.flights, z.sr = 1 ∧ z.orphan = false)) ∧
    (let d := (host [] (fun d => { d with host := { d.host with credits := [{ x := .spine, due := 9999999 }, { x := .spine, due := 5 }] } })).dev
     (∀ c ∈ d.host.credits, c.x = .stagedWrite → d.tick < c.due) ∧ d.host.credits = [{ x := .spine, due := 9999999 }] ++ { x := .spine, due := 5 } :: [] ∧
      (∀ y ∈ [({ x := .spine, due := 9999999 } : CreditBack)], y.x = .spine → d.tick < y.due) ∧ 5 ≤ d.tick) ∧
    (let d := (flying [flight nop, { flight nop with stage := 2, orphan := true }, { flight nop with stage := 2 }] (ringOne [])).dev
     d.host.flights[7]? = none ∧ d.host.flights[0]? = some (flight nop) ∧ (flight nop).stage ≠ 2 ∧
      d.host.flights[1]? = some { flight nop with stage := 2, orphan := true } ∧ d.host.flights[2]? = some { flight nop with stage := 2 } ∧
      (flight nop).stime ≠ d.now + 1 ∧ ({ flight nop with stage := 2, stime := d.now + 1 } : Flight).stime = d.now + 1 ∧
      (d.fn 0).d3 = false ∧ d.get (RR_CFG_EN 0) = 1 ∧ d.rrUsed 0 + 1 < d.rrSize 0 ∧
      (d.put (RR_CFG_EN 0) 0).get (RR_CFG_EN 0) = 0 ∧ d.get (RR_IRQ_ARMED 0) = 0 ∧ (d.put (RR_IRQ_ARMED 0) 1).get (RR_IRQ_ARMED 0) = 1) := by
  decide +kernel

/-- A QREG_WRITE of 5 at offset 0x4000 of quadrant 0. -/
def qreg : Desc := desc 0x01 0 1 (0x10000 + 0x4000 + 5 * 2 ^ 32) 0

theorem meets_DescriptorsAreCheckedInOrder :
    (let d := (flying [flight nop] (host [] id)).dev
     ((.selftest, none) : Instr × Option Flight) ∈ d.descRows 0 0 [] none false ∧
      ((.nop, some (flight nop)) : Instr × Option Flight) ∈ d.descRows 0 0 [] none false ∧ d.descStopped (flight nop) = false ∧
      ¬ (d.get PWR_STATUS_STATE = 1 ∧ (flight nop).touches = true) ∧ d.descRefuse (flight (desc 0xEE 0 0 0 0)) = some 1 ∧
      (d.put PWR_STATUS_STATE 2).descStopped (flight nop) = true) ∧
    (let x := flight qreg
     let d := (flying [x] (host [(PWR_STATUS_STATE, 1)] id)).dev
     ((.qregWrite 0, some x) : Instr × Option Flight) ∈ d.descRows 0 0 [] none false ∧ d.descStopped x = false ∧ d.get PWR_STATUS_STATE = 1 ∧
      x.touches = true ∧ d.descOf 0 1 = some x) ∧
    (let x := flight (desc 0x40 0 0 0 0x1000)
     let x := { x with desc := { x.desc with d3 := 16 } }
     let d := (flying [x] (host [(MEM_STATUS_READY, 0)] id)).dev
     ((.memWrite 0 [], some x) : Instr × Option Flight) ∈ d.descRows 0 0 [] none false ∧ d.descRefuse x = none ∧ d.descHolds x.desc = true ∧
      d.dmaOf 0 0x40 = some x) := by
  decide +kernel

theorem meets_DescriptorsAreCheckedInOrder_refusals :
    (let d := (host [] id).dev
     (flight qreg).target < 4 ∧ (d.put SVC_QSTAT_HELD 1).quadDown 0 = true ∧ d.quadDown 0 = false ∧
      (flight (desc 1 0x1000 0 0 0)).desc.hdr 12 4 ≠ 0 ∧ (flight (desc 1 0x400 0 0 0)).desc.hdr 10 1 ≠ 0 ∧ descBadField (desc 1 0 0 0 0) = true ∧
      descBad qreg = false ∧ qreg.target < 4 ∧ d.qOwner qreg.target ≠ 1) ∧
    (let d := (host [] id).dev
     let sreg := desc 0x02 0 1 0x30000 0
     let reset := desc 0x48 0 1 0 0
     let route := desc 0x20 0 1 (0x003 + 0x100 * 2 ^ 16) 0
     descBad sreg = false ∧ sreg.op = 2 ∧ d.manager ≠ 1 ∧ descBad reset = false ∧ reset.op = 0x48 ∧ d.qOwner (reset.par 0 2) ≠ 1 ∧
      descBad route = false ∧ route.op = 0x20 ∧ d.qOwner (route.par 0 2) ≠ 1) ∧
    (let d := (host [] id).dev
     let clear := desc 0x53 0 0 0 0
     descBad clear = false ∧ clear.op ∈ [0x53, 0x54, 0x55, 0x56] ∧ d.descDenied 0 clear = false ∧ d.svc.presOpen = none ∧
      d.descDown (flight clear) = false ∧ ({ d with svc := { d.svc with presOpen := some 5 } } : Dev).svc.presOpen ≠ none) ∧
    (let boot : Desc := { desc 0x51 0 0 0 0x1000 with d3 := 16 }
     descBad boot = false ∧ boot.op = 0x51 ∧ boot.d2.toNat % 2 ^ 23 < 0x100000 ∧ ((host [] id).dev).descDenied 0 boot = false) := by
  decide +kernel

/-- A descriptor of function 0 with opcode `op` for quadrant `q` (a quadrant's opcodes) or the spine, with PARAM `p` and three payload words. -/
def descr (op q p a b c : Nat) : Flight :=
  flight { desc op (q * 256 + 0x12340000) p a b with d3 := BitVec.ofNat 64 c }

/-- A payload word that holds a BAR0 offset and a value. -/
def pairOf (off v : Nat) : Nat := off + v * 2 ^ 32

/-- Descriptor `x` at its target, stacked memory up. -/
def serving (x : Flight) (l : List (Fld × Nat)) (f : Dev → Dev) : Dev := f (flying [x] (host ((MEM_STATUS_READY, 1) :: l) id)).dev

/-- Group 3 holds one write, in state `k`. -/
def groupThree (k : Nat) (d : Dev) : Dev :=
  (d.put (CMTG_STATE_STATE 3) k).modGrp 3 (fun g => { g with writes := [{ off := 0x15008, v := 7, q := 0 }] })

/-- A TPL_STATUS write that swaps template 2. -/
def swapOff : Nat := 0x10000 + 0x1800 + 0x20 * 2 + 0x10

theorem meets_SpineDescriptorsAct :
    (let x := descr 0 0 0 0 0 0
     (serving x [] id).descNext 4 = some x ∧ x.desc.op = 0 ∧ (serving x [] id).passes x = true) ∧
    (let x := descr 1 0 1 (pairOf 0x10008 5) 0 0
     let d := serving x [] id
     d.passes x = true ∧ x.f = (0 : Fin 4).val ∧ d.descOf 0 0x01 = some x ∧ x.desc.pairs 1 = [(0x10008, 5)] ∧
      (locate 0x10008).any (fun l => !lateReg l && decide (¬ (l.gid = .tb ∧ l.info.off = 0)) && decide (¬ (l.gid = .axis ∧ l.info.off = 4)) &&
        decide (¬ (l.gid = .pwr ∧ l.info.off = 0))) = true) ∧
    (let x := descr 2 0 1 (pairOf 0x801C 3) 0 0
     let d := serving x [] id
     d.passes x = true ∧ d.descOf 4 0x02 = some x ∧ x.desc.pairs 1 = [(0x801C, 3)] ∧
      (locate 0x801C).any (fun l => !lateReg l && decide (¬ (l.gid = .tb ∧ l.info.off = 0)) && decide (¬ (l.gid = .axis ∧ l.info.off = 4)) &&
        decide (¬ (l.gid = .pwr ∧ l.info.off = 0))) = true) ∧
    (let x := descr 1 0 1 (pairOf 0x15000 0x8007) 0 0
     let d := serving x [] id
     d.descOf 0 0x01 = some x ∧ d.passes x = true ∧ x.desc.pairs (x.desc.par 0 3) = [(0x15000, 0x8007)] ∧ d.takes (.desc 0) 0x15000 = true ∧
      (locate 0x15000).any (fun l => lateReg l && sinkExists (l.i % 452) && !badValue l.info 0x8007 && !refusedValue l 0x8007 &&
        decide ((0x8007 : Word) &&& w32 (l.info.rw ||| l.info.w1c ||| l.info.wo) = 0x8007) && decide (rsvBits l.info 0x8007 = 0)) = true) ∧
    (let x := descr 3 0 3 0x2000 (pairOf 0x8000 0x8004) 0x10000
     let y := { x with orphan := true }
     (serving x [] id).descOf 4 0x03 = some x ∧ (serving x [] id).passes x = true ∧ x.orphan = false ∧
      (serving y [] id).descOf 4 0x03 = some y ∧ (serving y [] id).passes y = true) ∧
    (let x := descr 4 0 0x103 (pairOf 0x15000 5) 0 0
     let w : Staged := { off := 0x15000, v := 5, q := 0, flight := some 3 }
     (serving x [] id).descOf 4 0x04 = some x ∧ (serving x [] id).passes x = true ∧ x.desc.par 0 5 = 3 ∧ (serving x [] id).grpState 3 < 2 ∧
      (serving x [] id).stageFits 3 [w] = true ∧ (locate 0x15000).all (fun l => l.gid != .tpl) = true ∧
      (serving x [] (groupThree 2)).passes x = true ∧ 2 ≤ (serving x [] (groupThree 2)).grpState 3) ∧
    (let x := descr 4 0 0x103 (pairOf swapOff 1) 0 0
     let d := serving x [] id
     let w : Staged := { off := swapOff, v := 1, q := 0, flight := some 3 }
     let e := serving x [] (fun d => d.modTpl 2 (fun t => { t with check := some 4 }))
     d.descOf 4 0x04 = some x ∧ d.passes x = true ∧ d.grpState 3 < 2 ∧ d.stageFits 3 [w] = true ∧ x.desc.pairs 1 = [(swapOff, 1)] ∧
      (locate swapOff).any (fun l => l.gid == .tpl && l.info.off == 0x010 && (1 : Word).getLsbD 0 && l.i == 2) = true ∧
      (d.tpl 2).check = none ∧ e.passes x = true ∧ (e.tpl 2).check ≠ none ∧ (∀ y ∈ e.host.flights, y.id = x.id → y = x) ∧
      (∀ p ∈ e.cmt.groups, ∀ w ∈ p.2.writes, w.flight ≠ some x.id)) := by
  decide +kernel

theorem meets_SpineDescriptorsAct_groups :
    (let x := descr 5 0 3 (5000100 * 64) 0 0
     let d := serving x [] (groupThree 1)
     let y := descr 5 0 3 (4000000 * 64) 0 0
     d.descOf 4 0x05 = some x ∧ d.passes x = true ∧ d.grpState 3 = 1 ∧ (d.grp 3).arming = 0 ∧ x.desc.par 8 2 = 0 ∧
      (d.now : Int) + 16 ≤ timeKey d.now x.desc.d1.toNat / 64 ∧ (d.grp 3).key = none ∧
      (serving y [] (groupThree 1)).passes y = true ∧ timeKey d.now y.desc.d1.toNat / 64 < (d.now : Int) + 16 ∧
      (serving x [] id).passes x = true ∧ (serving x [] id).grpState 3 ≠ 1) ∧
    (let x := descr 5 0 0x203 0 0 0
     let d := serving x [] (groupThree 1)
     let y := descr 5 0 (0x103 + 0x1000) 77 0 0
     let e := serving y [] (groupThree 1)
     d.descOf 4 0x05 = some x ∧ d.passes x = true ∧ d.grpState 3 = 1 ∧ x.desc.par 8 2 = 2 ∧ e.descOf 4 0x05 = some y ∧ e.passes y = true ∧
      e.grpState 3 = 1 ∧ (e.grp 3).arming = 0 ∧ y.desc.par 8 2 = 1) ∧
    (let x := descr 6 0 3 0 0 0
     let d := serving x [] (groupThree 1)
     let e := serving x [] (fun d => (groupThree 1 d).modGrp 3 (fun g => { g with arming := 4 }))
     let f := serving x [] (fun d => (groupThree 2 d).modGrp 3 (fun g => { g with fire := some { c := 1000003 } }))
     d.descOf 4 0x06 = some x ∧ d.passes x = true ∧ d.grpStrobed 3 = false ∧ d.grpState 3 = 1 ∧ (d.grp 3).arming = 0 ∧
      e.passes x = true ∧ e.grpStrobed 3 = false ∧ e.grpState 3 = 1 ∧ (e.grp 3).arming ≠ 0 ∧
      f.passes x = true ∧ f.grpStrobed 3 = true ∧ (serving x [] id).grpStrobed 3 = false ∧ (serving x [] id).grpState 3 = 0) ∧
    (let x := descr 7 0 4 0 0 0
     let d := serving x [(SNAP_CFG_EN 4, 1)] id
     d.descOf 4 0x07 = some x ∧ d.passes x = true ∧ d.get (SNAP_CFG_EN 4) = 1 ∧ x.desc.par 0 5 = 4 ∧
      (serving x [] id).passes x = true ∧ (serving x [] id).get (SNAP_CFG_EN 4) = 0) := by
  decide +kernel

/-- A route of source 7 of quadrant 0 to sink 5, set (0x20) or cleared (0x21), in the same quadrant or quadrant 1. -/
def route (op far : Nat) : Flight := descr op 0 (4 * far) (0x10000 * 5 + 7) 0 0

/-- The selectors 0 and 1, and 2 and 3, of sink 5 of quadrant 0. -/
def selLow : Fld := ⟨0x15000 + 8 * 5, 0, 32⟩
def selHigh : Fld := ⟨0x15004 + 8 * 5, 0, 32⟩

/-- Selector 0 of sink 5 of quadrant 1. -/
def selFar : Fld := ⟨0x1D000 + 8 * 5, 0, 16⟩

theorem meets_QuadrantDescriptorsAct :
    (let x := route 0x20 0
     let d := serving x [(selLow, 0x8007)] id
     d.passes x = true ∧ d.descOf 4 0x20 = some x ∧ d.selector 0 5 0 = (true, 7) ∧
      (serving x [(selLow, 0x80048003), (selHigh, 0x80058006)] id).passes x = true ∧
      (∀ k, k < 4 → ((serving x [(selLow, 0x80048003), (selHigh, 0x80058006)] id).selector 0 5 k).1 = true) ∧
      (∀ k, k < 4 → ((serving x [(selLow, 0x80048003), (selHigh, 0x80058006)] id).selector 0 5 k).2 ≠ 7) ∧
      (serving x [] id).passes x = true ∧ ((serving x [] id).selector 0 5 0).1 = false) ∧
    (let x := route 0x20 1
     let d := serving x [] id
     let e := serving x [] (fun d => (List.range 64).foldl (fun d l => (d.putB (XLINE_EXPORT_EN l) true).put (XLINE_EXPORT_SRC l) 9) d)
     d.passes x = true ∧ d.exportsOf 0 7 = [] ∧ (d.selector 1 5 0).1 = false ∧ d.get (XLINE_EXPORT_EN 0) = 0 ∧ e.passes x = true ∧ e.exportsOf 0 7 = [] ∧
      (∀ l, l < 64 → e.get (XLINE_EXPORT_EN l) = 1)) ∧
    (let x := route 0x21 0
     (serving x [] id).passes x = true ∧ (serving x [] id).descOf 4 0x21 = some x ∧ (∀ k, k < 4 → ((serving x [] id).selector 0 5 k).1 = false) ∧
      (serving x [(selHigh, 0x80070000)] id).passes x = true ∧ (serving x [(selHigh, 0x80070000)] id).selector 0 5 3 = (true, 7)) ∧
    (let x := route 0x21 1
     let d := serving x [(whole (XLINE_EXPORT 3), 0x8007), (selFar, 0x8503)] id
     d.passes x = true ∧ d.exportsOf 0 7 = [3] ∧ d.selector 1 5 0 = (true, 0x503) ∧
      d.word 0x15000 = 0 ∧ (serving x [(whole (XLINE_EXPORT 3), 0x8007), (selFar, 0x8503), (⟨0x1D000 + 8 * 9, 0, 16⟩, 0x8503)] id).selector 1 9 0 = (true, 0x503)) ∧
    (let x := descr 0x10 0 2 0 (64 * 64) 5
     (serving x [] id).passes x = true ∧ (serving x [] id).descOf 0 0x10 = some x) ∧
    (let x := descr 0x11 0 0x103 0 0 0
     let d := serving x [] id
     let e := serving x [] (fun d => d.modSlice 0 (fun z => { z with cancels := [{ who := .port 1, tag := 3 }] }))
     d.passes x = true ∧ d.descOf 0 0x11 = some x ∧ (d.slice 0).cancels = [] ∧ e.passes x = true ∧ (e.slice 0).cancels ≠ []) := by
  decide +kernel

theorem meets_QuadrantDescriptorsAct_loads :
    (let x := descr 0x12 0 2 0 0 0
     let d := serving x [] id
     let m := State.reset.mem
     let m2 := m.setPoison 0
     d.passes x = true ∧ d.descOf 0 0x12 = some x ∧ d.mc.touched.all (fun y => y.tick != d.tick) = true ∧ x.desc.par 0 13 = 2 ∧
      (∀ k, k < 2 → (m.read (d.memLoc k)).kind ≠ 2 ∧ (Entry.of ((m.read (d.memLoc k)).data % 2 ^ 64) ((m.read (d.memLoc k)).data / 2 ^ 64)).bad false = false) ∧
      (m2.read (d.memLoc 0)).kind = 2) ∧
    (let x := descr 0x30 0 (0x800 + 0x20) 0 0 0
     let d := serving x [] id
     let h : HostData := [1, 2, 3, 0, 5, 6, 7, 0]
     d.passes x = true ∧ d.descOf 0 0x30 = some x ∧ x.desc.par 0 4 = 0 ∧ x.desc.par 10 7 = 2 ∧ ([] : HostData).length < 4 * 2 ∧ x.orphan = false ∧
      4 * 2 ≤ h.length ∧ (h.getD 3 0).toNat = 0 ∧ (h.getD 7 0).toNat = 0 ∧ (([1, 2, 3, 4] : HostData).getD 3 0).toNat = 4 ∧
      (d.ibxSettle 0).ibxIdle 0 = true ∧
      (serving x [] (fun d => (d.putB (IBX_CTL_EN 0) true).put (IBX_STATUS_STATE 0) 2)).passes x = true ∧
      ((serving x [] (fun d => (d.putB (IBX_CTL_EN 0) true).put (IBX_STATUS_STATE 0) 2)).ibxSettle 0).ibxIdle 0 = false) ∧
    (let x := descr 0x31 0 (2 + 4 * 16382) 0 3 0
     let y := descr 0x31 0 0 0 2 0
     let z := descr 0x31 0 2 0 2 0
     let d := serving x [] id
     let e := serving y [(ME_STATUS_STATE 0, 1)] id
     let f := serving z [] (fun d => d.modGrp 3 (fun g => { g with writes := [{ swap := some 0, landed := true }] }))
     d.passes x = true ∧ d.descOf 0 0x31 = some x ∧ x.desc.par 1 1 ≠ d.get (ME_STATUS_IMAGE 0) ∧ d.meLocked 0 = false ∧ x.desc.d2.toNat % 2 ^ 15 = 3 ∧
      e.passes y = true ∧ y.desc.par 1 1 = e.get (ME_STATUS_IMAGE 0) ∧ e.get (ME_STATUS_STATE 0) ≠ 0 ∧
      f.passes z = true ∧ z.desc.par 1 1 ≠ f.get (ME_STATUS_IMAGE 0) ∧ f.meLocked 0 = true ∧
      (serving y [] id).get (ME_STATUS_STATE 0) = 0 ∧ ([] : HostData).length < 8 * 3 ∧ 8 * 3 ≤ (List.replicate 24 (1 : Byte)).length) ∧
    (let x := descr 0x32 0 6 0 0 0
     let d := serving x [] id
     let w : Staged := { q := 0, flight := some 3, swap := some 0 }
     d.passes x = true ∧ d.descOf 0 0x32 = some x ∧ x.desc.par 1 5 = 3 ∧ d.grpState 3 < 2 ∧ d.stageFits 3 [w] = true ∧
      (serving x [] (groupThree 2)).passes x = true ∧ 2 ≤ (serving x [] (groupThree 2)).grpState 3) := by
  decide +kernel

/-- A DMA descriptor of function 0 over `n` bytes of stacked memory from `a` on. -/
def dma (op a n : Nat) : Flight := descr op 0 0 0x1000 a n

/-- BAR4 of function 0 open. -/
def bulkOpen (l : List (Fld × Nat)) : Dev := (host ([(MEM_STATUS_READY, 1), (BULK_CTL_EN 0, 1)] ++ l) id).dev

theorem meets_BulkDataMoves :
    (let x := dma 0x40 0x100 0x30
     let y := dma 0x40 0x3FFFFF0 0x30
     let d := serving x [] id
     d.passes x = true ∧ d.dmaOf 0 0x40 = some x ∧ d.mc.touched.all (fun y => y.tick != d.tick) = true ∧
      ¬ (2 ^ 22 < x.desc.d2.toNat / 16 % 2 ^ 22 + x.desc.d3.toNat % 2 ^ 25 / 16 ∨ d.regionMeets 16 3 = true) ∧ x.orphan = false ∧
      ([] : HostData).length / 16 < 3 ∧ 3 ≤ (List.replicate 48 (1 : Byte)).length / 16 ∧
      (serving y [] id).passes y = true ∧ 2 ^ 22 < y.desc.d2.toNat / 16 % 2 ^ 22 + y.desc.d3.toNat % 2 ^ 25 / 16) ∧
    (let x := dma 0x42 0 0x40
     (serving x [] id).passes x = true ∧ (serving x [] id).dmaOf 0 0x42 = some x ∧ (serving x [] id).regionMeets 0 4 = false) ∧
    (let x := dma 0x41 0 0x30
     let y := { x with orphan := true }
     let d := serving x [] id
     let m := State.reset.mem
     d.passes x = true ∧ d.dmaOf 0 0x41 = some x ∧ d.regionMeets 0 3 = false ∧ (serving y [] id).passes y = true ∧
      min 3 (((some 17 : Option Nat).map (fun b => b / 16)).getD 3) < 3 ∧ (∀ j, j < 3 → (m.read (d.memLoc j)).kind ≠ 2) ∧
      ((m.setPoison (d.memLoc 0)).read (d.memLoc 0)).kind = 2) := by
  decide +kernel

theorem meets_BulkDataMoves_port :
    (let d := bulkOpen []
     d.mc.touched.all (fun y => y.tick != d.tick) = true ∧ wfBulk 0 1 = true ∧ d.host.bulkq = [] ∧ d.get (BULK_CTL_EN 0) = 1 ∧ d.memUp = true ∧
      d.memClear 0 ((4 * 1 + 15) / 16) = true ∧ 4 * d.get (BULK_PTR_PTR 0) + 4 * 1 ≤ 2 ^ 26 ∧ d.get (BULK_CTL_INC 0) ≠ 1 ∧
      d.regionDrop 0 = none ∧ (State.reset.mem.read (d.memLoc 0)).kind = 0 ∧ ((State.reset.mem.setPoison (d.memLoc 0)).read (d.memLoc 0)).kind = 2) ∧
    ((bulkOpen [(BULK_CTL_INC 0, 1)]).get (BULK_CTL_INC 0) = 1 ∧ wfBulk 16383 2 = false ∧ wfBulk 0 0 = false ∧ wfBulk 16383 1 = true) ∧
    (let d := bulkOpen [(BULK_PTR_PTR 0, 2 ^ 24 - 1)]
     4 * d.get (BULK_PTR_PTR 0) = 2 ^ 26 - 4 ∧ d.memClear ((2 ^ 26 - 4) / 16) 2 = true ∧ 2 ^ 26 < 4 * d.get (BULK_PTR_PTR 0) + 4 * 2 ∧
      (2 ^ 26 - 4 * d.get (BULK_PTR_PTR 0)) / 4 < 2) ∧
    ((bulkOpen [(COACH_REGSIZE_SIZE 0, 1)]).regionDrop 0 ≠ none ∧ (host [] id).dev.get (BULK_CTL_EN 0) = 0 ∧
      (bulkOpen [(MEM_STATUS_READY, 0)]).memUp = false) := by
  decide +kernel

/-- A service descriptor at the spine, in the presence window. -/
def windowed (x : Flight) (f : Dev → Dev) : Dev :=
  f (serving x [] (fun d => { d with svc := { d.svc with presOpen := some 999999 } }))

/-- A fault-log entry of code `c`. -/
def entryOf (c : Nat) : FlEntry := { time := 5, code := c }

/-- A fuse image of two pairs. -/
def fuseImage : HostData := [5, 0, 0, 0, 1, 0, 0, 0, 6, 0, 0, 0, 1, 0, 0, 0]

theorem meets_ServiceDescriptorsAndFaultLog :
    (let x := descr 0x50 0 0 0x1000 0x200000 5
     let y := descr 0x51 0 0 0 0x200000 5
     let z := descr 0x51 0 0 0 0x100 5
     let c := descr 0x56 0 0 0 0 5
     (windowed x id).passes x = true ∧ (windowed x id).descOf 4 0x50 = some x ∧ (windowed y id).passes y = true ∧
      (windowed y id).descOf 4 0x51 = some y ∧ y.desc.privileged = false ∧ (windowed z id).passes z = true ∧ z.desc.privileged = true ∧
      (windowed c id).passes c = true ∧ (windowed c id).descOf 4 0x56 = some c ∧ c.orphan = false ∧ ([] : HostData).length < 5 ∧
      5 ≤ ([1, 2, 3, 4, 5] : HostData).length) ∧
    (let x := descr 0x52 0 0 0x1000 0 64
     let n : NvStore := { keep := [entryOf 1], ring := [entryOf 2] }
     let bytes := dwordBytes (((n.keep ++ n.ring).take 2).flatMap FlEntry.dwords)
     (windowed x id).passes x = true ∧ (windowed x id).descOf 4 0x52 = some x ∧ bytes.length = 64 ∧ bytes.length ≤ 64 ∧ 17 < bytes.length) ∧
    (let x := descr 0x53 0 0 0 0 0
     (windowed x id).passes x = true ∧ (windowed x id).descOf 4 0x53 = some x) ∧
    (let x := descr 0x54 0 0 0 0 16
     let ps := fusePairs (bytesWords 4 4 (fuseImage.take 16))
     (windowed x id).passes x = true ∧ (windowed x id).descOf 4 0x54 = some x ∧ ((windowed x id).fw 4).testBit 31 = false ∧ fuseImage.length = 16 ∧
      ps.any (fun p => decide (p.1 < 4)) = false ∧ ps.any State.reset.fuse.refuses = false ∧ State.reset.fuse.todo ps ≠ [] ∧
      ({ data := [(5, 1), (6, 1)] } : FuseArr).todo ps = [] ∧ ([] : HostData).length < 16) ∧
    (let x := descr 0x55 0 2 0 0 0
     (windowed x id).passes x = true ∧ (windowed x id).descOf 4 0x55 = some x) ∧
    (let x := descr 0x57 0 0x501 0 0 0
     let r : TestReq := { kind := 5, index := 1 }
     let d := windowed x (fun d => { d with svc := { d.svc with queue := [r] } })
     let e := windowed x (fun d => { d with svc := { d.svc with queue := List.replicate 16 r } })
     let f := windowed x (fun d => { d with svc := { d.svc with running := some (r, 5) } })
     d.passes x = true ∧ d.descOf 4 0x57 = some x ∧ d.svc.running = none ∧ d.svc.queue = r :: [] ∧ d.svc.queue.length < 16 ∧
      e.passes x = true ∧ 16 ≤ e.svc.queue.length ∧ f.passes x = true ∧ f.svc.running ≠ none ∧ (windowed x id).svc.queue = []) := by
  decide +kernel

theorem meets_ServiceDescriptorsAndFaultLog_store :
    (let x := descr 0x54 0 0 0 0 16
     let job (ps : List (Nat × Nat)) := windowed x (fun d => { d with svc := { d.svc with fuseJob := some (3, ps) } })
     (windowed x id).svc.fuseJob = none ∧ (job []).svc.fuseJob = some (3, []) ∧ (job [(9, 5), (10, 6)]).svc.fuseJob = some (3, (9, 5) :: [(10, 6)]) ∧
      (job [(9, 5)]).flight 3 = some x ∧ State.reset.fuse.todo [] = [] ∧ State.reset.fuse.todo [(10, 6)] ≠ []) ∧
    (let d := (host [] (fun d => { d with svc := { d.svc with flRep := 2 } })).dev
     d.svc.flBuf = [] ∧ d.svc.flRep ≠ 0 ∧ (d.svc.flRewrite = 0 ∨ d.svc.flRewrite + 800000000 ≤ d.now) ∧ (host [] id).dev.svc.flRep = 0 ∧
      ¬ ((1 : Nat) = 0 ∨ 1 + 800000000 ≤ d.now)) ∧
    (let d := (host [] (fun d => { d with svc := { d.svc with flBuf := [entryOf 0x50, entryOf 3], flLast := some (3, 0, 5, false) } })).dev
     d.svc.flBuf = entryOf 0x50 :: [entryOf 3] ∧ [entryOf 3] ≠ [] ∧ ([] : List FlEntry).length < 256 ∧ 256 ≤ (List.replicate 256 (entryOf 1)).length) := by
  decide +kernel

theorem meets_ServiceDescriptorsAndFaultLog_store_steps :
    (let d := (host [] (fun d => { d with svc := { d.svc with flBuf := [entryOf 3], flLast := some (3, 0, 4999000, false) } })).dev
     d.svc.flLast = some (3, 0, 4999000, false) ∧ d.now < 4999000 + 800000000 ∧ d.svc.flBuf = [] ++ [entryOf 3] ∧ d.svc.flBuf.length < 32 ∧
      (host [] (fun d => { d with svc := { d.svc with flLast := some (3, 0, 4999000, true) } })).dev.svc.flLast = some (3, 0, 4999000, true) ∧
      32 ≤ (host [] (fun d => { d with svc := { d.svc with flBuf := List.replicate 32 (entryOf 1) } })).dev.svc.flBuf.length) := by
  decide +kernel

/-- The device with a linked function 0, in D3hot where `d3` says so, and one record held for it where `held` says so. -/
def linked (l : List (Fld × Nat)) (d3 held : Bool) : Dev :=
  let d := (host ([(RR_CFG_EN 3, 1), (RR_CFG_TYPE 3, 1), (RR_IRQ_EN 3, 1), (RR_TAIL_TAIL 3, 4)] ++ l) (fun d =>
    d.modFn 0 (fun x => { x with d3, msixEn := true, table := Tab.set (1 : Word) x.table 3 0 }))).dev
  if held then { d with ru := { d.ru with held := Tab.set [] d.ru.held 0 [(3, 7, {})] } } else d

theorem meets_LinkAndFunctionStates :
    ((mk []).dev.host.linkUp = false ∧ (linked [] false true).host.linkUp = true ∧ (mk []).dev.pw.released = true ∧ (mk []).dev.host.detached = false ∧
      State.reset.dev.pw.released = false ∧
      ({ (mk []).dev.host with detached := true } : HostIf).detached = true ∧ 0x4000 ≤ 0x4008 ∧ (0x4010 : Nat) ≠ HIF_GEN) ∧
    (let d := linked [(RR_IRQ_DUE 3, 1)] false false
     (d.fn 0).d3 = false ∧ d.rrOwner 3 = 0 ∧ d.get (RR_CFG_EN 3) = 1 ∧ d.get (RR_IRQ_EN 3) = 1 ∧ d.get (RR_IRQ_DUE 3) = 1 ∧
      (Tab.get (1 : Word) (d.fn 0).table (4 * d.get (RR_IRQ_VEC 3) + 3)).toNat % 2 = 0 ∧ (∀ e ∈ Tab.get [] d.ru.held 0, e.1 < 32)) ∧
    (let d := linked [] false false
     Tab.get [] d.ru.held 0 = [] ∧ (∀ k, k < 32 → d.rrOwner k = 0 → d.get (RR_IRQ_DUE k) = 0)) ∧
    (let d := linked [(PWR_STATUS_SLPPEND, 1)] true true
     (d.fn 0).d3 = true ∧ d.get PWR_STATUS_SLPPEND = 1 ∧ d.manager = 0 ∧ d.get PWR_STATUS_STATE < 2 ∧ (d.fn 0).bme = true ∧
      (∀ e ∈ Tab.get [] d.ru.held 0, e.1 < 32)) ∧
    (((linked [] false false).fw 4).testBit 11 = false ∧ ((linked [(FUSE_W_W 4, 2 ^ 11)] false false).fw 4).testBit 11 = true ∧
      (linked [] false false).qOwner 1 = 0) := by
  decide +kernel

/-! ## Records and interrupts (01, 12) -/

/-- A record of type 6. -/
def recSix : Rec := { typ := 6, sub := 1, src := 4, p0 := 2 }

/-- Event ring 3 and engines 0 and 1 take records: type 6 of quadrant 0 goes to the ring, of the spine to the engines. -/
def routed (l : List (Fld × Nat)) (f : Dev → Dev) : Dev :=
  (host ([(whole (ROUTE_ROUTE 0 6), 0x83000000), (whole (ROUTE_ROUTE 4 6), 3), (RR_CFG_EN 3, 1), (RR_CFG_TYPE 3, 1), (RR_CFG_LOG2SZ 3, 4),
    (RR_HEAD_HEAD 3, 0), (RR_TAIL_TAIL 3, 0), (ME_CTL_EN 0, 1), (ME_CTL_EN 1, 1), (ME_STATUS_STATE 0, 1), (ME_STATUS_STATE 1, 1)] ++ l) f).dev

/-- Three records pend in quadrant 0. -/
def pending (f : Quad → Quad) : Dev :=
  routed [] (fun d => d.modQuad 0 (fun x => f { x with pend := [{ source := 7, due := 5, r := recSix }, { source := 3, due := 5, r := recSix },
    { source := 2, due := 9999999, r := recSix }] }))

/-- A record of the spine waits in its buffer. -/
def spineRec (l : List (Fld × Nat)) (f : Dev → Dev) : Dev :=
  routed l (fun d => f { d with ru := { d.ru with spine := [{ recSix with orig := 4 }], spineTurn := true } })

theorem meets_RecordsTravelAndInterrupt :
    (let d := pending id
     let x := d.quad 0
     d.tb.running = true ∧ d.quadDown 0 = false ∧ x.collected ≠ d.tick + 1 ∧ x.lastSource < 0x190 ∧
      x.pend = [{ source := 7, due := 5, r := recSix }] ++ { source := 3, due := 5, r := recSix } :: [{ source := 2, due := 9999999, r := recSix }] ∧
      0 < d.recCredits 0 ∧ (3 + 0x190 - x.lastSource - 1) % 0x190 < (7 + 0x190 - x.lastSource - 1) % 0x190 ∧ ¬ 9999999 ≤ d.tick ∧
      (pending (fun x => { x with recq := List.replicate 1024 { avail := 4, r := recSix } })).recCredits 0 = 0 ∧
      ((pending (fun x => { x with collected := 1000001 })).quad 0).collected = 1000000 + 1) ∧
    ((routed [] id).ru.raised = [] ∧
      (routed [] (fun d => { d with ru := { d.ru with raised := [recSix] } })).ru.raised = recSix :: [] ∧ ([] : List Rec).length < 64 ∧
      64 ≤ (List.replicate 64 recSix).length) ∧
    (let d := spineRec [] id
     d.ru.spine = { recSix with orig := 4 } :: [] ∧ d.ru.spineTurn = true ∧ d.routeWord 4 6 = 3 ∧ (3 : Nat).testBit 30 = false ∧
      ((d.meAt 0 (d.tick - 4)).1 = 1) ∧ (d.meAt 1 (d.tick - 4)).1 = 1 ∧ (d.meAt 0 (d.tick - 4)).2 ≤ (d.meAt 1 (d.tick - 4)).2 ∧
      (d.me 0).recs.length < 64 ∧ Tab.get (0, 0, 0) d.ru.meLost 0 = (0, 0, 0) ∧ (routed [] id).ru.spine = [] ∧
      (spineRec [(ME_CTL_EN 0, 0), (ME_CTL_EN 1, 0)] id).get (ME_CTL_EN 1) = 0 ∧
      (spineRec [(whole (ROUTE_ROUTE 4 6), 0x40000003)] id).routeWord 4 6 = 0x40000003 ∧ (0x40000003 : Nat).testBit 30 = true ∧
      64 ≤ ((spineRec [] (fun d => d.modMe 0 (fun m => { m with recs := List.replicate 64 [] }))).me 0).recs.length) := by
  decide +kernel

theorem meets_RecordsTravelAndInterrupt_rings :
    (let d := routed [] (fun d => d.modQuad 0 (fun x => { x with recq := [{ avail := 4, r := recSix }] }))
     ((d.ru.lastQuad + 1) % 4 = 0 ∨ (d.ru.lastQuad + 4) % 4 = 0 ∨ (d.ru.lastQuad + 2) % 4 = 0 ∨ (d.ru.lastQuad + 3) % 4 = 0) ∧ d.ru.spine = [] ∧
      (∀ q, q < 4 → q ≠ 0 → (d.quad q).recq = []) ∧ (d.quad 0).recq.head? = some { avail := 4, r := recSix } ∧ d.routeWord 0 6 = 0x83000000 ∧
      (0x83000000 : Nat).testBit 31 = true ∧ 0x83000000 / 2 ^ 24 % 32 = 3 ∧ 0x83000000 % 256 = 0 ∧ d.host.detached = false ∧ d.get (RR_CFG_EN 3) = 1 ∧
      d.get (RR_CFG_TYPE 3) = 1 ∧ (d.fn (d.rrOwner 3)).d3 = false ∧ d.rrFree 3 ≠ 0 ∧ (Tab.get (0, 0, 0) d.ru.ringLost 3).1 = 0 ∧
      ((d.put (RR_TAIL_TAIL 3) 15)).rrFree 3 = 0 ∧ (d.put (RR_CFG_EN 3) 0).get (RR_CFG_EN 3) = 0 ∧
      ({ d.host with detached := true } : HostIf).detached = true ∧ ((d.modFn 0 (fun f => { f with d3 := true })).fn (d.rrOwner 3)).d3 = true ∧
      (Tab.get [] d.ru.held 0).length < 256 ∧ 256 ≤ (List.replicate 256 (3, 7, recSix)).length) ∧
    (let d := routed [(RR_IRQ_TIMING 3, 1), (RR_IRQ_EN 3, 1), (RR_TAIL_TAIL 3, 4)] (fun d => { d with ru := { d.ru with modEnd := Tab.set 0 d.ru.modEnd 3 5 } })
     let e := d.modFn 0 (fun f => { f with msixEn := true, bme := true, table := Tab.set (1 : Word) f.table 3 0, pba := [0] })
     d.get (RR_IRQ_TIMING 3) = 1 ∧ Tab.get 0 d.ru.modEnd 3 ≤ d.tick ∧ ¬ (d.get (RR_IRQ_EN 3) = 0 ∨ d.rrUsed 3 + d.heldFor 3 = 0) ∧
      (routed [] id).get (RR_IRQ_TIMING 3) ≠ 1 ∧ (routed [] id).rrUsed 3 + (routed [] id).heldFor 3 = 0 ∧ (d.fn (d.rrOwner 3)).d3 = false ∧
      (d.fn (d.rrOwner 3)).msixEn ≠ true ∧ (e.fn 0).msixEn = true ∧ (e.fn 0).fmask = false ∧ (e.fn 0).bme = true ∧
      (Tab.get (1 : Word) (e.fn 0).table (4 * e.get (RR_IRQ_VEC 3) + 3)).toNat % 2 = 0 ∧ (0 : Fin 64).val ∈ (e.fn 0).pba ∧ (1 : Fin 64).val ∉ (e.fn 0).pba) ∧
    (let d := routed [] id
     d.takes (.fn 0) (ROUTE_ROUTE 1 6) = true ∧ (0x83000001 : Word) &&& 0xDF0000FF = 0x83000001 ∧ d.rrOwner (0x83000001 / 2 ^ 24 % 32) = (0 : Fin 4).val ∧
      d.manager = (0 : Fin 4).val ∧ (routed [(FUSE_W_W 7, 0x40)] id).rrOwner 3 ≠ (0 : Fin 4).val ∧
      (routed [(FUSE_W_W 7, 0x40)] id).takes (.fn 0) (ROUTE_ROUTE 1 6) = true) := by
  decide +kernel

/-! ## Stacked memory (10) -/

/-- One request of engine 1 for word 16, that reached bank 0 on an earlier tick. -/
def request (kind mask : Nat) (f : MemReq → MemReq) : MemReq := f { who := .me 1, kind, word := 16, at_ := 5, mask, data := 0x1234 }

/-- Stacked memory up, with the requests `r` and the fields of `l`. -/
def banks (r : List MemReq) (l : List (Fld × Nat)) (f : MemCtl → MemCtl) : Dev :=
  (host ((MEM_STATUS_READY, 1) :: l) (fun d => { d with mc := f { d.mc with reqs := r } })).dev

/-- The access of the spine to word 16 on this tick. -/
def spineTouch : Touch := { tick := 1000000, word := 16, spine := true, old := (5, false), mask := 0xFFFF, data := 8 }

/-- A stored word 1 with a check code that is off by `v`. -/
def storedWord (v : BitVec 24) : MemArr := ({} : MemArr).store 1 0x112233445566778899AABBCCDDEEFF00 v

theorem meets_BanksServeRequests :
    (let r := request 0 0 id
     let d := banks [r] [] id
     d.memNext 0 = some r ∧ d.memUp = true ∧ d.copyAt ≠ some r.word ∧ r.word < 2 ^ 22 ∧ r.kind = 0 ∧ r.snap = none ∧ d.touches true r.word = [] ∧
      d.memLoc 16 = 1 ∧ ((storedWord 0).read 1).kind = 0 ∧ (((storedWord 0).disturb 1 0x30).read 1).kind = 1 ∧ ((storedWord 5).read 1).kind ≠ 0 ∧
      (((storedWord 0).setPoison 1).read 1).kind = 2 ∧ (banks [r] [] (fun m => { m with touched := [spineTouch] })).touches true 16 = [] ++ [spineTouch] ∧
      (request 0 0 (fun r => { r with snap := some 77 })).snap = some 77 ∧ (banks [] [] id).memNext 0 = none) ∧
    (let r := request 1 0xFFFF id
     let q := request 1 0xF0F id
     let d := banks [r] [] id
     d.memNext 0 = some r ∧ r.kind = 1 ∧ d.regionDrop r.word = none ∧ d.touches false r.word = [] ∧ q.mask ≠ 0 ∧ q.mask ≠ 0xFFFF ∧
      (banks [q] [] id).memNext 0 = some q ∧ (request 1 0 id).mask = 0 ∧ (banks [request 1 0 id] [] id).memNext 0 = some (request 1 0 id) ∧
      (banks [r] [(COACH_REGSIZE_SIZE 0, 1)] id).memNext 0 = some r ∧ (banks [r] [(COACH_REGSIZE_SIZE 0, 1)] id).regionDrop r.word ≠ none ∧
      clashes r.mask r.data spineTouch.mask spineTouch.data = true ∧ r.at_ ≠ d.tick) ∧
    (let r := request 2 0 (fun r => { r with op := 1, lane := 8 })
     (banks [r] [] id).memNext 0 = some r ∧ r.kind = 2 ∧ r.op < 3 ∧ r.lane + (if r.op = 1 then 8 else 4) ≤ 16) ∧
    ((banks [] [] id).mc.wback = [] ∧ (banks [] [(MEM_STATUS_READY, 0)] id).memUp = false ∧
      (banks [] [] (fun m => { m with wback := [1, 2] })).mc.wback = 1 :: [2] ∧ (banks [] [] (fun m => { m with wback := [1, 2] })).memUp = true) := by
  decide +kernel

/-- Move unit 1 enabled, from word 16 to word 32. -/
def moving (l : List (Fld × Nat)) (f : Move → Move) : Dev :=
  (banks [] ([(MV_CTL_EN 1, 1), (MV_LEN_WORDS 1, 2), (MV_SRC_ADDR 1, 16), (MV_DST_ADDR 1, 32)] ++ l) id).modMove 1 (fun _ => f { src := 16, dst := 32 })

theorem meets_MemoryKeepsAndMoves :
    (let d := banks [] [(MEM_CTL_SCRUBH, 1)] id
     d.memUp = true ∧ d.get MEM_CTL_SCRUBH ≠ 0 ∧ (banks [] [(MEM_CTL_SCRUBH, 0)] id).get MEM_CTL_SCRUBH = 0 ∧ d.mc.scrub < 4456448 ∧
      d.mc.scrubLast + 1 * 2880000000000 / 4456448 ≤ d.tick) ∧
    (let d := banks [] [] id
     d.takes (.fn 0) MEM_SPARECFG = true ∧ (0x85 : Word) &&& 0xFFFFFF8F = 0x85 ∧ d.mc.borrow = none ∧ d.get MEM_STATUS_SPARE_USED = 0 ∧
      d.mc.copy = none ∧ d.mc.spareBad = false ∧ (banks [] [(MEM_STATUS_SPARE_USED, 1)] id).get MEM_STATUS_SPARE_USED = 1 ∧
      (banks [] [] (fun m => { m with borrow := some 3 })).mc.borrow ≠ none ∧ (banks [] [] (fun m => { m with borrow := some 3 })).takes (.fn 0) MEM_SPARECFG = true) ∧
    (let d := banks [] [] (fun m => { m with copy := some 1 })
     (banks [] [] id).mc.copy = none ∧ d.memUp = true ∧ d.mc.copy = some 1 ∧ d.get MEM_SPAREPTR_P + 1 < 2 ^ 18 ∧
      (banks [] [(MEM_SPAREPTR_P, 2 ^ 18 - 1)] id).get MEM_SPAREPTR_P + 1 = 2 ^ 18 ∧ ((storedWord 0).read (1 * 2 ^ 18)).kind ≠ 2 ∧
      ((({} : MemArr).setPoison (1 * 2 ^ 18)).read (1 * 2 ^ 18)).kind = 2) ∧
    (let d := banks [] [] id
     d.takes (.fn 0) MEM_TESTCTL = true ∧ (0x30001 : Word) &&& 0x03FF0001 = 0x30001 ∧ d.mc.borrow = none ∧ d.mc.copy = none ∧ d.memUp = true ∧
      (banks [] [(MEM_STATUS_READY, 0)] id).memUp = false ∧ (banks [] [(MEM_STATUS_READY, 0)] id).takes (.fn 0) MEM_TESTCTL = true) ∧
    (let d := banks [] [] (fun m => { m with borrow := some 3, mirrored := 16 })
     d.mc.borrow = some 3 ∧ d.mc.mirrored + 16 ≤ 4096 ∧ d.memUp = true ∧ (3 : Nat) < 1024 ∧
      ((({} : MemArr)).read (d.memCell (4096 * 3 + 16))).kind ≠ 2) := by
  decide +kernel

theorem meets_MemoryKeepsAndMoves_ends :
    (let d := banks [] [] (fun m => { m with borrow := some 0, mirrored := 4096, waiting := [2, 3] })
     let e := banks [] [(MEM_CTL_AUTO, 1)] (fun m => { m with borrow := some 0, mirrored := 4096 })
     d.mc.borrow = some 0 ∧ 4096 ≤ d.mc.mirrored ∧ d.memUp = true ∧ d.mc.waiting = 2 :: [3] ∧ d.get MEM_STATUS_SPARE_USED = 0 ∧ d.mc.copy = none ∧
      d.mc.spareBad = false ∧ e.mc.waiting = [] ∧ e.get MEM_CTL_AUTO = 1 ∧ (0x30 : BitVec 16).toNat.testBit 4 = true ∧
      (∀ j, j < 4 → (0x30 : BitVec 16).toNat.testBit j = false) ∧ ({} : MemArr).chk = [] ∧ ({} : MemArr).poison = [] ∧ ({} : MemArr).data = []) ∧
    ((∀ n, (banks [] [] id).mc.wakeAt = some n → (banks [] [] id).tick < n) ∧
      (banks [] [] (fun m => { m with wakeAt := some 5 })).mc.wakeAt = some 5 ∧ 5 ≤ (banks [] [] id).tick) ∧
    (let d := moving [] id
     d.takesLate (writerOf (.fn 0)) (MV_CMD 1) = true ∧ d.get (MV_CTL_EN 1) = 1 ∧ d.quadDown 0 = false ∧ d.get (MV_STATUS_BUSY 1) ≠ 1 ∧
      d.get (MV_LEN_WORDS 1) = 2 ∧ 32 + 2 ≤ 2 ^ 22 ∧ (moving [(MV_SRC_ADDR 1, 2 ^ 22 - 1)] id).get (MV_SRC_ADDR 1) + 2 > 2 ^ 22 ∧
      (moving [(MV_STATUS_BUSY 1, 1)] id).takesLate (writerOf (.fn 0)) (MV_CMD 1) = true ∧
      (banks [] [] id).takesLate (writerOf (.fn 0)) (MV_CMD 1) = true ∧ (banks [] [] id).get (MV_CTL_EN 1) = 0) ∧
    (let d := moving [(MV_STATUS_BUSY 1, 1), (MV_LEFT_WORDS 1, 3), (MV_CTL_REC 1, 1)] id
     let x := d.move 1
     d.get (MV_STATUS_BUSY 1) = 1 ∧ (d.memUp && d.memClear x.dst 1 && (d.get (MV_CTL_FILL 1) == 1 || d.memClear x.src 1)) = true ∧
      d.mc.touched.all (fun y => y.tick != d.tick) = true ∧ d.quadDown ((1 : Fin 64).val / 16) = false ∧ x.dst < 2 ^ 22 ∧ x.src < 2 ^ 22 ∧
      d.get (MV_LEFT_WORDS 1) - 1 ≠ 0 ∧ x.stopping = false ∧ d.regionDrop x.dst = none ∧ d.get (MV_CTL_FILL 1) ≠ 1 ∧
      (∀ p ∈ (d.quad 0).pend, p.source ≠ 0x181) ∧ ((({} : MemArr).setPoison (d.memLoc x.src)).read (d.memLoc x.src)).kind = 2 ∧
      (({} : MemArr).read (d.memLoc x.src)).kind ≠ 2 ∧ (moving [(MV_LEFT_WORDS 1, 1)] id).get (MV_LEFT_WORDS 1) - 1 = 0 ∧
      ((moving [] (fun m => { m with stopping := true })).move 1).stopping = true ∧
      (moving [(COACH_REGSIZE_SIZE 0, 1)] id).regionDrop 32 ≠ none) := by
  decide +kernel

/-! ## Sinks and lanes (01, 17) -/

/-- `m` events at sink `k` of quadrant 0, due two ticks ago. -/
def atSink (k m : Nat) (l : List (Fld × Nat)) (f : Dev → Dev) : Dev :=
  f { (mk l).dev with xev := List.replicate m { q := 0, sink := k, due := 999998, at_ := { time := 4999998 } } }

/-- The hypotheses that every sink shares. -/
def due (k : Nat) (d : Dev) : Bool :=
  d.tb.running && !d.quadDown 0 && d.xev.all (fun y => y.sink == k && y.q == 0 && decide (y.due ≤ d.tick)) && !d.xev.isEmpty

theorem meets_SinksActAndLanesHaveOneOwner :
    ((mk []).dev.xev = [] ∧ due 3 (atSink 3 1 [] id) = true ∧ (atSink 3 1 [(SVC_QSTAT_HELD, 1)] id).quadDown 0 = true ∧ (mk []).dev.tcUpper 3 = false) ∧
    (let ch (f : Nat) := atSink 3 2 [(TC_CTL_EN 3, 1), (TC_CLK_TRIGFN 3, f)] id
     due 3 (ch 1) = true ∧ (ch 1).get (TC_CTL_EN 3) = 1 ∧ (ch 1).tcUpper 3 = false ∧ ((ch 1).tc 3).trigTick ≠ some 999998 ∧ (ch 0).get (TC_CLK_TRIGFN 3) = 0 ∧
      (ch 1).get (TC_CLK_TRIGFN 3) = 1 ∧ (ch 1).get (TC_STATUS_RUN 3) = 0 ∧ ((ch 1).tc 3).stopTick ≠ some 999998 ∧ (ch 2).get (TC_CLK_TRIGFN 3) = 2 ∧
      (ch 3).get (TC_CLK_TRIGFN 3) = 3 ∧ (((ch 1).modTc 3 (fun x => { x with trigTick := some 999998 })).tc 3).trigTick = some 999998) ∧
    (let g (f : Nat) := atSink 0x103 1 [(FE_CTL_EN 3, 1), (FE_CTL_TRIGFN 3, f)] id
     due 0x103 (g 3) = true ∧ (g 3).get (FE_CTL_EN 3) = 1 ∧ (g 3).get (FE_CTL_TRIGFN 3) = 3 ∧ (g 1).fePaired 3 = false ∧ ((g 1).fe 3).frozenAt = none ∧
      ((g 1).fe 3).stopTick ≠ some 999998 ∧ ((g 1).fe 3).startTick ≠ some 999998 ∧ (g 1).get (FE_STATUS_RUN 3) = 0 ∧ (g 0).get (FE_CTL_TRIGFN 3) = 0) ∧
    (let e := atSink 0x145 1 [] id
     due 0x145 e = true ∧ e.get (IBX_SHCNT_PEND 1) / 16 ^ 1 % 16 ≠ 15 ∧ (e.put (IBX_SHCNT_PEND 1) 0xFF).get (IBX_SHCNT_PEND 1) / 16 ^ 1 % 16 = 15) ∧
    (let a := atSink 0x180 1 [(CAR_CFG_EN 0, 1), (COACH_CTL_EN 0, 1), (TPL_LEN_LEN0 0, 3)] id
     let v := a.axView 0 999998
     due 0x180 a = true ∧ a.get (CAR_CFG_EN 0) = 1 ∧ a.get (COACH_CTL_EN 0) = 1 ∧ (v.posAt (4999998 * 64)).isSome = true ∧
      Tab.get none (a.slice 0).lastOpen 0 = none ∧ (a.car 0).isOpen = false ∧ (a.car 0).freeFrom ≤ 999998 ∧ a.tplLen 0 (a.tplPage 0) ≠ 0 ∧
      (atSink 0x180 1 [] id).get (CAR_CFG_EN 0) ≠ 1 ∧
      (let b := (a.put (CAR_CFG_MINGAP 0) 10).modSlice 0 (fun z => { z with lastOpen := Tab.set none z.lastOpen 0 (some 0) })
       Tab.get none (b.slice 0).lastOpen 0 = some 0 ∧ 0 < b.get (CAR_CFG_MINGAP 0) * 65536) ∧
      (∀ c, c < 256 → ¬ (((forRange (fun i d => d.modCar i (fun x => { x with isOpen := true })) 0 256 a).car c).isOpen = false))) ∧
    due 0x185 (atSink 0x185 1 [] id) = true ∧
    (let m (l : List (Fld × Nat)) := atSink 0x193 1 ([(MV_CTL_EN 3, 1), (MV_LEN_WORDS 3, 5)] ++ l) id
     due 0x193 (m []) = true ∧ (m []).get (MV_CTL_EN 3) = 1 ∧ (m []).get (MV_STATUS_BUSY 3) = 0 ∧ (m []).get (MV_LEN_WORDS 3) = 5 ∧
      (m []).get (MV_DST_ADDR 3) + 5 ≤ 2 ^ 22 ∧ (m []).get (MV_SRC_ADDR 3) + 5 ≤ 2 ^ 22 ∧ (m [(MV_LEN_WORDS 3, 0)]).get (MV_LEN_WORDS 3) = 0 ∧
      (m [(MV_STATUS_BUSY 3, 1)]).get (MV_STATUS_BUSY 3) = 1 ∧ (m [(MV_CTL_EN 3, 0)]).get (MV_CTL_EN 3) = 0) := by
  decide +kernel

theorem meets_SinksActAndLanesHaveOneOwner_lanes :
    (let c := atSink 0x1C1 1 [] id
     let h := atSink 0x1C1 1 [] (fun d => { d with convs := Tab.set {} d.convs 1 { high := true, until_ := 9999999 } })
     due 0x1A5 (atSink 0x1A5 1 [] id) = true ∧ due 0x1C1 c = true ∧ (Tab.get {} c.convs 1 : Conv).high = false ∧ due 0x1C1 h = true ∧
      (Tab.get {} h.convs 1 : Conv).high = true ∧ 999998 < (Tab.get {} h.convs 1 : Conv).until_ ∧
      (Tab.get {} (Tab.set {} c.convs 1 { high := true, until_ := 5 }) 1 : Conv).until_ ≤ c.tick ∧ h.tick < 9999999) ∧
    (let d := (mk []).dev
     d.takesLate (writerOf (.fn 0)) (LANE_CFG 7) = true ∧ (0x10300 : Word) &&& 0x0007FF3F = 0x10300 ∧ (0x50000 : Word).toNat / 2 ^ 16 % 8 = 5 ∧
      (0x30 : Word).toNat / 2 ^ 4 % 4 = 3 ∧ (0x40100 : Word).toNat / 2 ^ 16 % 8 = 4 ∧ d.get (LANE_CFG_KIND 7) ≠ 4) ∧
    (let e := (mk [(LANE_CFG_KIND 7, 4), (LANE_CFG_INDEX 7, 1)]).dev
     e.get (LANE_CFG_KIND 7) = 4 ∧ e.get (LANE_CFG_INDEX 7) = 1 ∧ e.quadDown 0 = false) ∧
    (let d := (mk [(LANE_CFG_KIND 7, 1), (LANE_CFG_INDEX 7, 3), (TC_CTL_LANE 3, 7), (TC_CTL_EN 3, 1), (TC_CTL_OUTEN 3, 1), (TC_STATUS_OUT 3, 1)]).dev
     d.laneLevel 7 = some true ∧ d.get (TC_CTL_LANE 3) = (7 : Fin 512).val % 128 ∧ d.get (TC_CTL_EN (d.tcLow 3)) = 1 ∧ d.get (TC_CTL_OUTEN 3) = 1 ∧
      d.get (LANE_CFG_KIND 7) = 1 ∧ d.quadDown 0 = false ∧ bitAt d.pw.railGood 0 = false ∧ (Tab.get {} d.convs 1 : Conv).high = false) := by
  decide +kernel

/-! ## Commit groups and snapshots (13) -/

/-- A landed write of channel 1's CMP0. -/
def landedWrite : Staged := { off := TC_CMP0 1, v := 5, q := 0, landed := true }

/-- Group 3 in state `k` with the writes `ws`, as the staging port of quadrant 0 sees it. -/
def group (k : Nat) (ws : List Staged) (f : Option GroupFire) (l : List (Fld × Nat)) : Dev :=
  (host ([(CMTG_STATE_STATE 3, k), (CMTG_STATE_OWNER 3, 4), (QSTAGE_GROUP_GROUP 0, 3), (QSTAGE_OFF_OFF 0, 0x5008 / 4), (MEM_STATUS_READY, 1)] ++ l)
    (fun d => d.modGrp 3 (fun g => { g with writes := ws, fire := f }))).dev

/-- The word offset of template 2's STATUS in quadrant 0. -/
def swapWord : Nat := (0x1800 + 0x10 + 0x20 * 2) / 4

/-- An image of set 4 that waits in a buffer. -/
def image4 : Snap := { s := 4, trig := 1, due := 5, cfg := 0x40000200, image := [1, 2, 3, 4, 5, 6, 7, 8] }

theorem meets_GroupsFireAndSnapshotsAreTaken :
    (let d := group 0 [] none []
     d.takes (writerOf (.fn 0)) (QSTAGE_VAL 0) = true ∧ d.get (QSTAGE_GROUP_GROUP 0) = 3 ∧ stageQuad 0x15008 = some 0 ∧ (locate 0x15008).isSome = true ∧
      (locate 0x15008).any (fun l => l.gid != .tpl) = true ∧ d.grpState 3 = 0 ∧ (d.grp 3).writes = [] ∧ d.storeUsed < 1024 ∧ d.bufferUsed 0 < 512 ∧
      (∀ r, r < 4 → d.bufferUsed r ≤ 512) ∧ stageQuad (0x10000 + 4 * (group 0 [] none [(QSTAGE_OFF_OFF 0, 8191)]).get (QSTAGE_OFF_OFF 0)) = none ∧
      (group 1 [] none [(CMTG_STATE_OWNER 3, 0)]).get (CMTG_STATE_OWNER 3) ≠ 4 ∧ (group 2 [] none []).grpState 3 = 2) ∧
    (let d := group 1 (List.replicate 256 landedWrite) none []
     (¬ ∃ y ∈ (d.grp 3).writes, y.place = 0x15008) ∧ (d.grp 3).writes.length = 256) ∧
    (let d := group 0 [] none [(QSTAGE_OFF_OFF 0, swapWord)]
     let l := locate (0x10000 + 4 * d.get (QSTAGE_OFF_OFF 0))
     l.any (fun l => l.gid == .tpl && l.info.off == 0x010 && l.i == 2) = true ∧ (d.tpl 2).check = none ∧
      ((d.modTpl 2 (fun x => { x with check := some 5 })).tpl 2).check ≠ none) ∧
    (let d := group 1 [landedWrite] none []
     d.takes (writerOf (.fn 0)) (QSTAGE_CMD 0) = true ∧ d.grpState 3 = 1 ∧ d.get (CMTG_STATE_OWNER 3) = 4 ∧ d.grpStrobed 3 = false ∧ (d.grp 3).arming = 0 ∧
      ((d.modGrp 3 (fun g => { g with arming := 5 })).grp 3).arming ≠ 0 ∧ (group 0 [] none []).grpState 3 = 0 ∧
      (group 2 [landedWrite] (some { c := 1000003 }) []).grpStrobed 3 = true ∧ (group 1 [] none [(CMTG_STATE_OWNER 3, 0)]).grpState 3 ≠ 0) ∧
    (let w : Staged := { landedWrite with landed := false }
     let y : Staged := { w with flight := some 3 }
     let f : Flight := { id := 3, sr := 1, f := 0, cq := 2, target := 4, stage := 1, desc := ⟨4 + 3 * 2 ^ 32, 0x1000, 0, 0, 0, 0, 0, 0⟩ }
     let d := group 1 [y] none []
     let e : Dev := { d with host := { d.host with flights := [f] } }
     (group 1 [w] none []).unlanded[0]? = some (3, w) ∧ w.flight = none ∧ d.unlanded[0]? = some (3, y) ∧ e.flight 3 = some f ∧ f.stage = 1 ∧ f.desc.op = 0x04 ∧
      (group 1 [landedWrite] none []).unlanded[0]? = none) := by
  decide +kernel

theorem meets_GroupsFireAndSnapshotsAreTaken_firing :
    (let d := (group 2 [landedWrite] none []).modGrp 3 (fun g => { g with key := some 5000002 })
     (d.grp 3).key = some 5000002 ∧ (d.grp 3).fire = none ∧ d.pw.waking = false ∧ 5000002 ≤ d.now + 4 ∧
      (((group 1 [] none []).grpSettle 3).grp 3).fire = none) ∧
    (let d := group 2 [landedWrite] (some { c := 1000001 }) []
     ((d.grpSettle 3).grp 3).fire = some { c := 1000001 } ∧
      ¬ (d.tick + 1 < 1000001) ∧ (∀ k, k < 3 → ((d.grpSettle k).grp k).fire = none) ∧ d.tb.running = true ∧ d.get PWR_STATUS_STATE ≠ 1 ∧
      ((d.grp 3).writes.map (fun w => w.off)).Nodup ∧ landedWrite.swap = none ∧ landedWrite.off = TC_CMP0 (1 : Fin 1024) ∧
      d.quadDown ((1 : Fin 1024).val / 256) = false ∧ d.late = [] ∧ d.get (SNAP_CFG_ONCMT 3) ≠ 1 ∧ d.cmt.lastC = none ∧
      ({ d.cmt with lastC := some (1000001, [TC_CMP0 1]) } : Cmt).lastC = some (1000001, [TC_CMP0 1])) ∧
    (let d := group 2 [landedWrite] (some { c := 1000003 }) []
     ((d.grpSettle 3).grp 3).fire = some { c := 1000003 } ∧ d.tick + 1 < 1000003) ∧
    (let d := group 2 [landedWrite] (some { c := 1000001 }) [(SNAP_CFG_ONCMT 3, 1), (SNAP_CFG_EN 3, 1)]
     d.get (SNAP_CFG_ONCMT 3) = 1 ∧ d.get (SNAP_CFG_EN 3) = 1 ∧ d.cmt.bufs.length < 2 ∧ ((d.grpSettle 3).grp 3).fire = some { c := 1000001 }) ∧
    (let w : Staged := { q := 0, landed := true, swap := some 1 }
     let d := group 2 [w] (some { c := 1000001 }) []
     (d.grp 3).writes = [w] ∧ w.landed = true ∧ w.swap = some 1 ∧ ((d.grpSettle 3).grp 3).fire = some { c := 1000001 }) := by
  decide +kernel

theorem meets_GroupsFireAndSnapshotsAreTaken_snapshots :
    (let x : Snap := { s := 4, trig := 1, due := 5 }
     let d := (host [(SNAP_CFG_EN 4, 1), (SNAP_CFG_NENT 4, 1), (whole (SNAPLIST_LIST 4 0), TC_CMP0 1)] (fun d => { d with cmt := { d.cmt with trigs := [x] } })).dev
     d.cmt.trigs = [] ++ x :: [] ∧ x.due ≤ d.tick ∧ d.cmt.bufs.length < 2 ∧ d.snapEntries 4 (d.word (SNAP_CFG 4)).toNat = [TC_CMP0 (1 : Fin 1024)] ∧
      (host [] id).dev.cmt.trigs = [] ∧ 2 ≤ [image4, image4].length ∧ d.get (SNAP_CFG_REC 4) = 0 ∧ (d.put (SNAP_CFG_REC 4) 1).get (SNAP_CFG_REC 4) = 1) ∧
    (let d := (host [(MEM_STATUS_READY, 1)] (fun d => { d with cmt := { d.cmt with bufs := [image4, { image4 with flight := some 3 }] } })).dev
     let a := 1024 * (d.get (SNAP_DST_BASE 4) + d.get (SNAP_CFG_NEXT 4)) % 2 ^ 26
     d.cmt.bufs[0]? = some image4 ∧ image4.flight = none ∧ (d.memUp && d.memClear (a / 16) ((image4.image.length + 3) / 4)) = true ∧ image4.s < 32 ∧
      d.calendarOf 0 = none ∧ (List.range 4).all (fun q => d.get (COACH_REGSIZE_SIZE q) == 0) = true ∧ image4.image.length ≤ 136 ∧
      image4.image.length % 4 = 0 ∧ (∀ v ∈ image4.image, v < 2 ^ 32) ∧ image4.cfg.toNat.testBit 30 = true ∧
      d.cmt.bufs[1]? = some { image4 with flight := some 3 } ∧ d.flight 3 = none ∧ d.cmt.bufs[2]? = none ∧ image4.image ≠ []) := by
  decide +kernel

/-! ## Live service (14, 15) -/

/-- The service unit changed. -/
def service (l : List (Fld × Nat)) (f : Svc → Svc) : Dev := (host ((MEM_STATUS_READY, 1) :: l) (fun d => { d with svc := f d.svc })).dev

/-- A test of kind `k` of unit 1. -/
def testOf (k : Nat) : TestReq := { kind := k, index := 1 }

theorem meets_BackgroundTestsRun :
    (let d := service [] (fun v => { v with queue := [testOf 5, testOf 1] })
     d.svc.running = none ∧ d.svc.queue = testOf 5 :: [testOf 1] ∧ d.napping = false ∧ d.ibxState 1 = 0 ∧ (service [] id).svc.queue = []) ∧
    (let d := service [(TB_STATUS_CAL_DONE, 0)] (fun v => { v with queue := [{ testOf 2 with head := some 5 }] })
     d.svc.queue = { testOf 2 with head := some 5 } :: [] ∧ d.calDone (1 / 64) = false ∧ d.napping = false ∧
      5 + (service [(SVC_TESTCFG_IDLEWAIT, 1)] id).get SVC_TESTCFG_IDLEWAIT * 800000 ≤ d.tick ∧
      (({ testOf 2 with head := some 5 } : TestReq)).head ≠ none) ∧
    (let d := service [] (fun v => { v with queue := [testOf 1] })
     d.svc.queue = [testOf 1] ∧ d.mc.copy = none ∧ d.mc.borrow = none ∧ d.memUp = true) ∧
    (let d := service [(MEM_TESTSTAT_BANKS, 3)] (fun v => { v with running := some (testOf 1, 5) })
     d.svc.running = some (testOf 1, 5) ∧ 5 + testTicks (testOf 1).kind ≤ d.tick ∧ d.mc.borrow = none ∧ d.get MEM_TESTSTAT_BANKS ≠ 0) ∧
    (let d := service [(SVC_QSTAT_HELD, 2)] (fun v => { v with running := some (testOf 5, 5) })
     d.svc.running = some (testOf 5, 5) ∧ d.ibxState 1 = 0 ∧ 5 + testTicks (testOf 5).kind ≤ d.tick ∧ (testOf 5).kind ≠ 1 ∧
      (d.get SVC_QSTAT_HELD).testBit 1 = true) ∧
    (let d := service [(TB_STATUS_CAL_DONE, 0)] (fun v => { v with running := some (testOf 2, 5) })
     d.svc.running = some (testOf 2, 5) ∧ d.calDone (1 / 64) = false ∧ d.tick < 999999 + testTicks 2) ∧
    (let d := service [(SVC_TESTCFG_PATROL, 1), (SVC_TESTCFG_PERIOD, 1)] (fun v => { v with patrolLast := 5 })
     d.get SVC_TESTCFG_PATROL = 1 ∧ d.svc.patrolLast + 1 * 800000 ≤ d.tick ∧ d.svc.queue = [] ∧ d.svc.patrolNext < 1029 ∧ [testOf 1] ≠ [] ∧
      (service [(SVC_TESTCFG_PATROL, 0)] id).get SVC_TESTCFG_PATROL = 0) := by
  decide +kernel

/-- Quadrant 0 changed. -/
def quad0 (l : List (Fld × Nat)) (f : Quad → Quad) : Dev := (host l (fun d => d.modQuad 0 f)).dev

theorem meets_QuadrantsAreResetHeldIsolatedAndReleased :
    (let x := descr 0x48 0 0 0 0 0
     (serving x [] id).descOf 4 0x48 = some x ∧ (serving x [] id).passes x = true) ∧
    (let d := quad0 [] id
     let e := quad0 [(SVC_QHOLD_HOLD, 1), (SVC_QSTAT_HELD, 1), (SVC_QSTAT_ISO, 1)] id
     d.takes (.fn 0) SVC_QHOLD = true ∧ (d.get SVC_QHOLD_HOLD).testBit 0 = false ∧ (d.fw 9).testBit 7 = false ∧ e.takes (.fn 0) SVC_QHOLD = true ∧
      (e.get SVC_QHOLD_HOLD).testBit 0 = true ∧ (e.get SVC_QSTAT_ISO).testBit 0 = true ∧ (d.get SVC_QSTAT_ISO).testBit 0 = false ∧
      ((quad0 [(FUSE_W_W 9, 0x80)] id).fw 9).testBit 7 = true) ∧
    (let d := quad0 [] (fun x => { x with isolations := 2, goodSince := some 5 })
     d.pw.released = true ∧ State.reset.dev.pw.released = false ∧ (d.get SVC_QSTAT_ISO).testBit 0 = false ∧
      ((quad0 [(SVC_QSTAT_ISO, 1)] id).get SVC_QSTAT_ISO).testBit 0 = true ∧ 3 ≤ (d.quad 0).isolations + 1 ∧ (quad0 [] id).quad 0 = {} ∧
      (d.quad 0).goodSince ≠ none ∧ ((quad0 [] (fun x => { x with goodSince := none })).quad 0).goodSince = none) ∧
    (let d := quad0 [(SVC_QSTAT_ISO, 1)] (fun x => { x with inReset := true, goodSince := some 5 })
     d.takes (.fn 0) SVC_QRELEASE = true ∧ (0x80000000 : Word) &&& 0x80000003 = 0x80000000 ∧ (d.get SVC_QSTAT_ISO).testBit 0 = true ∧
      (d.get SVC_QSTAT_RELEASE_LOCK).testBit 0 = false ∧ d.pw.heatIso.testBit 0 = false ∧ (d.quad 0).goodSince = some 5 ∧ 5 + 800000 ≤ d.tick ∧
      (d.get SVC_QSTAT_HELD).testBit 0 = false ∧ (quad0 [] id).takes (.fn 0) SVC_QRELEASE = true ∧
      ((quad0 [(SVC_QSTAT_ISO, 1), (SVC_QSTAT_HELD, 1)] id).get SVC_QSTAT_HELD).testBit 0 = true) ∧
    (let d := quad0 [] (fun x => { x with inReset := true, resetFlight := [3], resetEnd := 5 })
     (d.quad 0).inReset = true ∧ (d.get SVC_QSTAT_ISO).testBit 0 = false ∧ (d.get SVC_QSTAT_HELD).testBit 0 = false ∧ (d.quad 0).resetEnd ≤ d.tick ∧
      ((quad0 [] id).quad 0).inReset = false ∧ (3 : Nat) ∈ (d.quad 0).resetFlight) ∧
    ((quad0 [] id).get SVC_CLKSTAT_DCLK_FB = 0 ∧ (quad0 [(SVC_CLKSTAT_DCLK_FB, 1)] id).get SVC_CLKSTAT_DCLK_FB = 1 ∧
      (quad0 [] id).get SVC_CLKSTAT_FCLK_FB = 0) ∧
    ((quad0 [(CMTG_STATE_STATE 3, 1)] id).grpState 3 ≠ 0 ∧ (service [] (fun v => { v with running := some (testOf 5, 5), flBuf := [entryOf 3] })).svc.running =
      some (testOf 5, 5)) := by
  decide +kernel

theorem meets_PresenceWindowAndSealLoop :
    (let d := service [] id
     let low : Dev := { d with pw := { d.pw with serviceLow := true } }
     d.pw.serviceLow = false ∧ d.pw.vaon = true ∧ low.pw.serviceLow = true ∧ d.get PWR_BOOTSTAT_READY = 1 ∧ (mk []).dev.get PWR_BOOTSTAT_READY = 0 ∧
      d.svc.presOpen = none ∧ ({ d.pw with vaon := false } : Power).vaon = false ∧ d.tb.running = true ∧ State.reset.dev.tb.running = false) ∧
    (let d := service [(SVCPRES_SEAL_OPEN, 1)] (fun v => { v with presOpen := some 5 })
     d.svc.presOpen = some 5 ∧ d.tick < 5 + 60 * 800000000 ∧ d.takes (.fn 0) SVCPRES_PRES = true ∧ d.takes (.fn 0) SVCPRES_SEAL = true ∧
      d.get SVCPRES_SEAL_OPEN = 1 ∧ (service [] (fun v => { v with presOpen := some 5 })).get SVCPRES_SEAL_OPEN = 0 ∧
      (service [] id).takes (.fn 0) SVCPRES_SEAL = true ∧ (service [] id).takes (.fn 0) SVCPRES_PRES = true ∧
      5 + 60 * 800000000 ≤ ({ d with tick := 48000000005 } : Dev).tick) := by
  decide +kernel

/-! ## Power and start-up (16) -/

/-- The power block of the device in RUN changed. -/
def powered (l : List (Fld × Nat)) (f : Power → Power) : Dev := (host l (fun d => { d with pw := f d.pw })).dev

/-- The bytes of a dword, the least significant first. -/
def leBytes (v : Nat) : List Byte := (List.range 4).map (fun k => BitVec.ofNat 8 (v / 2 ^ (8 * k)))

/-- A non-volatile store whose boot image has the magic word `m`, `n` records by its header, and one record of type `y` for `target` with `arg` and
the 16 bytes of payload `p`, the first `size` of which count; `bad` is added to the record's CRC. -/
def bootImage (m n y size target arg bad : Nat) (p : List Nat) : NvStore :=
  let head := leBytes m ++ leBytes (n + 2 ^ 16) ++ leBytes 64
  let crc (b : List Byte) : Nat := crc16 (b.map BitVec.toNat)
  let r := leBytes (size + 2 ^ 24 * y) ++ leBytes target ++ leBytes arg
  let body := p.flatMap leBytes
  ({} : NvStore).put 0 (head ++ leBytes (crc head) ++ List.replicate 16 0 ++ r ++ leBytes (crc (r ++ body) + bad) ++ body)

/-- Start-up at the point where the boot image is applied. -/
def booting (m n y size target arg bad : Nat) (p : List Nat) : State :=
  let s := host [(PWR_BOOTSTAT_READY, 0), (PWR_BOOTSTAT_READ, 1), (MEM_STATUS_READY, 1), (TB_STATUS_CAL_DONE, 15)] id
  { s with nvs := bootImage m n y size target arg bad p }

/-- The hypotheses under which the boot image is applied. -/
def atBoot (s : State) : Bool :=
  s.dev.get PWR_BOOTSTAT_READY = 0 ∧ s.dev.get PWR_BOOTSTAT_READ = 1 ∧ s.dev.get MEM_STATUS_READY = 1 ∧ s.dev.get TB_STATUS_CAL_DONE = 15

/-- The hypothesis that the header is good. -/
def headerGood (n : NvStore) : Bool :=
  n.dword 12 % 2 ^ 16 = crc16 ((n.bytes 0 12).map BitVec.toNat) ∧ n.dword 4 / 2 ^ 16 = 1 ∧ 32 ≤ n.dword 8 ∧ n.dword 8 ≤ 1048576

/-- The hypothesis that the first record is whole and of a known type. -/
def recordFits (n : NvStore) : Bool :=
  let padded := (n.dword 32 % 2 ^ 24 + 15) / 16 * 16
  let typ := n.dword 32 / 2 ^ 24
  48 + padded ≤ n.dword 8 ∧ n.dword 44 % 2 ^ 16 = crc16 ((n.bytes 32 12 ++ n.bytes 48 padded).map BitVec.toNat) ∧ 1 ≤ typ ∧ typ ≤ 5

theorem meets_ColdStartsAndStartUp :
    (let d := powered [] id
     d.pw.released = true ∧ State.reset.dev.pw.released = false ∧ d.takes (.fn 0) PWR_CTL = true ∧ d.takesLate (.fn 0) PWR_CTL = true ∧
      ({ d with tb := { d.tb with running := false } } : Dev).takes (.fn 0) PWR_CTL = true ∧ (d.regs.map (fun p => p.1)).Nodup ∧
      d.pw.vaon = true ∧ (powered [] (fun p => { p with vaon := false })).pw.vaon = false) ∧
    (let d := powered [] (fun p => { p with fuses := false })
     d.pw.fuses = false ∧ d.pw.released = true ∧ (powered [] id).pw.fuses = true ∧ d.svc.flBuf.length < 32 ∧ d.get MEM_STATUS_READY = 0 ∧
      (powered [(MEM_STATUS_READY, 1)] id).get MEM_STATUS_READY = 1 ∧ State.reset.nvs.spare = none ∧ ({ spare := some 5 } : NvStore).spare = some 5) := by
  decide +kernel

theorem meets_ColdStartsAndStartUp_boot :
    (let s := booting 0 1 1 8 0 0 0 [0, 0, 0, 0]
     atBoot s = true ∧ s.nvs.dword 0 ≠ 0x54424353 ∧ atBoot State.reset = false) ∧
    (let s := booting 0x54424353 1 1 8 0 0 0 [0, 0, 0, 0]
     let n := { s.nvs with data := Tab.set 0 s.nvs.data 12 (Tab.get 0 s.nvs.data 12 + 1) }
     atBoot s = true ∧ n.dword 0 = 0x54424353 ∧ headerGood n = false) ∧
    (let s := booting 0x54424353 0 1 8 0 0 0 [0, 0, 0, 0]
     atBoot s = true ∧ s.nvs.dword 0 = 0x54424353 ∧ headerGood s.nvs = true ∧ s.nvs.dword 4 % 2 ^ 16 = 0) ∧
    (let s := booting 0x54424353 1 5 8 0 0 0 [0, 0, 0, 0]
     atBoot s = true ∧ s.nvs.dword 0 = 0x54424353 ∧ headerGood s.nvs = true ∧ recordFits s.nvs = true ∧ s.nvs.dword 32 / 2 ^ 24 = 5) ∧
    (let s := booting 0x54424353 1 1 8 0 0 1 [0, 0, 0, 0]
     atBoot s = true ∧ s.nvs.dword 0 = 0x54424353 ∧ headerGood s.nvs = true ∧ s.nvs.dword 4 % 2 ^ 16 ≠ 0 ∧ recordFits s.nvs = false) := by
  decide +kernel

theorem meets_ColdStartsAndStartUp_records :
    (let s := booting 0x54424353 1 1 8 0 0 0 [TC_CMP0 5, 7, 0, 0]
     atBoot s = true ∧ s.nvs.dword 0 = 0x54424353 ∧ headerGood s.nvs = true ∧ s.nvs.dword 4 % 2 ^ 16 = 1 ∧ recordFits s.nvs = true ∧
      s.nvs.dword 32 / 2 ^ 24 = 1 ∧ s.nvs.dword 32 % 2 ^ 24 = 8 ∧ s.nvs.dword 48 = TC_CMP0 (5 : Fin 1024) ∧ s.dev.get PWR_STATUS_STATE ≠ 1 ∧
      s.dev.quadDown ((5 : Fin 1024).val / 256) = false) ∧
    (let s := booting 0x54424353 1 2 16 0x40 0 0 [1, 2, 3, 4]
     let a := s.nvs.dword 36 / 16 % 2 ^ 22
     atBoot s = true ∧ s.nvs.dword 0 = 0x54424353 ∧ headerGood s.nvs = true ∧ s.nvs.dword 4 % 2 ^ 16 = 1 ∧ recordFits s.nvs = true ∧
      s.nvs.dword 32 / 2 ^ 24 = 2 ∧ s.nvs.dword 32 % 2 ^ 24 % 16 = 0 ∧ s.dev.mc.reqs = [] ∧ s.dev.mc.touched = [] ∧ a + 1 ≤ 2 ^ 22 ∧
      s.dev.tpls = [] ∧ (List.range 4).all (fun q => s.dev.get (COACH_REGSIZE_SIZE q) == 0) = true) ∧
    (let s := booting 0x54424353 1 3 16 (3 + 8) 0x100 0 [1, 2, 3, 4]
     atBoot s = true ∧ s.nvs.dword 0 = 0x54424353 ∧ headerGood s.nvs = true ∧ s.nvs.dword 4 % 2 ^ 16 = 1 ∧ recordFits s.nvs = true ∧
      s.nvs.dword 32 / 2 ^ 24 = 3 ∧ s.dev.get (ME_STATUS_STATE (s.nvs.dword 36 % 8)) = 0 ∧ s.dev.meLocked (s.nvs.dword 36 % 8) = false ∧
      s.nvs.dword 32 % 2 ^ 24 ≤ 8 * 16384) ∧
    (let s := booting 0x54424353 1 4 16 5 60 0 [1, 2, 3, 4]
     atBoot s = true ∧ s.nvs.dword 0 = 0x54424353 ∧ headerGood s.nvs = true ∧ s.nvs.dword 4 % 2 ^ 16 = 1 ∧ recordFits s.nvs = true ∧
      s.nvs.dword 32 / 2 ^ 24 = 4 ∧ s.dev.ibxIdle (s.nvs.dword 36 % 64) = true ∧ s.nvs.dword 32 % 2 ^ 24 ≤ 4 * 64) := by
  decide +kernel

theorem meets_ColdStartsAndStartUp_clear : ∀ w, (booting 0x54424353 1 2 16 0x40 0 0 [1, 2, 3, 4]).dev.regionDrop w = none := by
  intro w
  have hp : (booting 0x54424353 1 2 16 0x40 0 0 [1, 2, 3, 4]).dev.tplPages = [] := by decide +kernel
  have hs : ∀ q, q < 4 → (booting 0x54424353 1 2 16 0x40 0 0 [1, 2, 3, 4]).dev.get (COACH_REGSIZE_SIZE q) = 0 := by decide +kernel
  generalize (booting 0x54424353 1 2 16 0x40 0 0 [1, 2, 3, 4]).dev = d at hp hs
  have none_of (b : Nat) : ¬ (b ≤ w / 4096 ∧ w / 4096 < b + min 128 0) := by omega
  have hc : d.calendarOf w = none := by
    simp only [Dev.calendarOf, firstIdx, hs 0 (by decide), hs 1 (by decide), hs 2 (by decide), hs 3 (by decide), none_of, decide_false]
    rfl
  simp [Dev.regionDrop, hp, hc]

/-- STIME at the entry of SLEEP, and the wake timeline begun. -/
def wakingUp (l : List (Fld × Nat)) : Dev :=
  powered ([(PWR_STATUS_STATE, 3), (TB_ACLK_RATIO_RATIO, 4096 * 12)] ++ l) (fun p => { p with s0 := some 5000, waking := true })

theorem meets_PowerStatesAndHeat :
    (let d := powered [] id
     d.mayWrite (.fn 0) PWR_CTL = true ∧ d.get PWR_STATUS_STATE = 0 ∧ d.get PWR_STATUS_STATE < 2 ∧
      (powered [(PWR_STATUS_STATE, 1)] id).get PWR_STATUS_STATE ≠ 0 ∧ 2 ≤ (powered [(PWR_STATUS_STATE, 2)] id).get PWR_STATUS_STATE ∧
      (powered [(TC_CTL_EN 5, 1)] id).get (TC_CTL_EN (5 : Fin 1024)) = 1 ∧ (∀ n : Fin 4, d.get (COACH_CTL_EN n) ≠ 1)) ∧
    (let d := powered [(PWR_STATUS_STATE, 1)] (fun p => { p with idleEnd := some 5 })
     d.pw.idleEnd = some 5 ∧ 5 ≤ d.tick ∧ d.pw.held = [] ∧ d.get PWR_STATUS_STATE = 1 ∧ (powered [] id).pw.idleEnd = none) ∧
    (let d := powered [(PWR_STATUS_STATE, 1)] (fun p => { p with idleEnd := some 5, held := [(0, TC_CMP0 5, 0x1234)] })
     d.pw.held = [((Writer.fn (0 : Fin 4)).code, TC_CMP0 (5 : Fin 1024), 0x1234)] ∧ d.mayWrite (.fn (0 : Fin 4)) (TC_CMP0 (5 : Fin 1024)) = true ∧
      d.quadDown ((5 : Fin 1024).val / 256) = false ∧ d.late = [] ∧ d.tb.running = true) := by
  decide +kernel

theorem meets_PowerStatesAndHeat_idle :
    let d := powered [] id
    (∀ n : Fin 1024, d.get (TC_CTL_EN n) ≠ 1) ∧ (∀ n : Fin 256, d.get (FE_CTL_EN n) ≠ 1) ∧
      (∀ n : Fin 64, d.get (IBX_CTL_EN n) ≠ 1 ∧ d.get (MV_CTL_EN n) ≠ 1) ∧ (∀ n : Fin 8, d.get (ME_CTL_EN n) ≠ 1) := by
  decide +kernel

theorem meets_PowerStatesAndHeat_sleep :
    (let d := { powered [(PWR_STATUS_SLPPEND, 1)] id with host := { (powered [] id).host with linkUp := false } }
     let e : Dev := { d with svc := { d.svc with presOpen := some 5 } }
     d.tb.running = true ∧ d.pw.entering = false ∧ d.get PWR_STATUS_SLPPEND = 1 ∧ d.get PWR_STATUS_STATE < 2 ∧ d.host.linkUp = false ∧
      d.svc.fuseJob = none ∧ d.mc.copy = none ∧ d.svc.running = none ∧ d.svc.presOpen = none ∧ d.mc.reqs = [] ∧ e.svc.presOpen ≠ none ∧
      ({ d with mc := { d.mc with copy := some 3 } } : Dev).mc.copy ≠ none ∧ ({ d with tb := { d.tb with running := false } } : Dev).tb.running = false) ∧
    ((powered [] (fun p => { p with entering := true })).pw.entering = true ∧ (powered [] (fun p => { p with entering := true })).tb.running = true) ∧
    (let d := powered [(PWR_WAKEEN_TIMER, 1)] (fun p => { p with entering := true })
     d.get PWR_WAKEEN_TIMER = 1 ∧ d.pw.entering = true ∧ (powered [(PWR_WAKEEN_SEAL, 1)] id).get PWR_WAKEEN_SEAL = 1 ∧
      (powered [(PWR_STATUS_STATE, 2)] id).get PWR_STATUS_STATE = 2 ∧ (powered [(PWR_WAKEEN_TIMER, 0)] id).get PWR_WAKEEN_TIMER ≠ 1) := by
  decide +kernel

theorem meets_PowerStatesAndHeat_wake :
    (let d := wakingUp [(AXIS_CFG_MODE 1, 1), (FE_CTL_EN 5, 1), (HK_CTL_EN 3, 1), (HK_CTL_PRE 3, 0)]
     let e : Dev := { d with hks := Tab.set ({ } : HkState) d.hks 3 { next := 1000001, cur := 1 } }
     d.pw.s0 = some 5000 ∧ d.pw.waking = true ∧ (powered [] id).pw.s0 = none ∧ d.get (AXIS_CFG_MODE 0) = 0 ∧ d.get (AXIS_CFG_MODE 1) ≠ 0 ∧
      d.get (FE_CTL_EN 5) = 1 ∧ d.get (HK_CTL_EN 0) = 0 ∧ e.get (HK_CTL_EN 3) = 1 ∧ e.get (HK_CTL_PRE 3) = 0 ∧ (e.hk 3).next = e.tick + 1 ∧
      (e.hk 3).cur = 1) ∧
    (let d := powered [(PWR_STATUS_STATE, 3)] (fun p => { p with runAt := some 5, waking := true })
     let e : Dev := { d with lines := [(3, { ready := some 9 })] }
     d.pw.runAt = some 5 ∧ 5 ≤ d.tick ∧ (e.lines.map (fun p => p.1)).Nodup ∧ (e.line 3).ready ≠ none ∧ (e.line 2).ready = none ∧
      (powered [] id).pw.runAt = none ∧ ((d.modGrp 3 (fun g => { g with key := some 4000 })).grp 3).key = some 4000 ∧ 4000 < d.now + 4 ∧
      ((d.modGrp 3 (fun g => { g with key := some 4000 })).grp 3).fire = none) := by
  decide +kernel

theorem meets_PowerStatesAndHeat_heat :
    (let d := powered [] (fun p => { p with hotSince := some 5, hot := true })
     let u : Int := 110 * 16
     d.fw 2 % 4 ≠ 1 ∧ (powered [(FUSE_W_W 2, 1)] id).fw 2 % 4 = 1 ∧ d.pw.released = true ∧ State.reset.dev.pw.released = false ∧
      u + 15 * 16 ≤ 2000 ∧ d.pw.hotSince ≠ none ∧ d.pw.hotSince.getD d.tick + 800000 ≤ d.tick ∧ d.pw.heatIso ≠ 15 ∧ (powered [] id).pw.hot = false ∧
      ¬ (u ≤ 1759) ∧ (d.get SVC_QSTAT_ISO).testBit 1 = false ∧ (∀ q : Fin 4, (d.quad q).isolations < 3) ∧ d.flogMerge 0x51 0 = none ∧
      d.svc.flBuf.length + 6 ≤ 32) := by
  decide +kernel

/-! ## Register access (18) and the engine of steps -/

/-- A command or a step answers a next state. -/
def goesOn (o : Host.Outcome State Fault Refusal) : Bool :=
  match o with
  | .next _ => true
  | _ => false

/-- The device in RUN, stacked memory up, with the fields of `l`. -/
def registers (l : List (Fld × Nat)) : Dev := (host ((MEM_STATUS_READY, 1) :: l) id).dev

/-- The register at `off`, with what a write of `v` to it must meet to take effect on the next tick. -/
def landsLate (off : Nat) (v : Word) : Bool :=
  (locate off).any (fun l => lateReg l && (l.gid != .sinksel || sinkExists (l.i % 452)) && !badValue l.info v.toNat && !refusedValue l v.toNat)

theorem meets_RegisterAccessAndTheDebugPort :
    (let d := registers []
     let off := TC_CMP0 (5 : Fin 1024)
     off = 4 * (off / 4) ∧ off / 4 < 65536 ∧ d.mayWrite (writerOf (.fn 0)) off = true ∧ d.mayWrite (writerOf (.fn 1)) off = false ∧
      d.mayWrite (writerOf (.me 3)) off = false ∧ d.takes (writerOf (.fn 0)) off = true ∧ landsLate off 0x1234 = true ∧
      (locate off).any (fun l => rsvBits l.info 0x1234 == 0) = true ∧ (3 : BitVec 4) ≠ 15) ∧
    (let d := registers []
     let off := TC_CTL (5 : Fin 1024)
     landsLate off 0x8000000F = true ∧ d.takes (writerOf (.fn 0)) off = true ∧ (locate off).any (fun l => rsvBits l.info 0x8000000F != 0) = true) ∧
    (let d := registers []
     let off := 4 * 0x3FFF
     locate off = none ∧ d.takes (writerOf (.fn 0)) off = true) ∧
    (let d := registers [(PWR_STATUS_STATE, 1)]
     let off := TC_CMP0 (5 : Fin 1024)
     d.mayWrite (writerOf (.fn 0)) off = true ∧ d.get PWR_STATUS_STATE = 1 ∧ gated off = true) ∧
    (let off := AXIS_POS_LO (3 : Fin 8)
     off / 4 ≠ 65535 ∧ off = 4 * (off / 4) ∧ ¬ (∃ a : Fin 8, TC_CMP0 (5 : Fin 1024) = AXIS_POS_LO a ∨ TC_CMP0 (5 : Fin 1024) = AXIS_LIMIT_LO_LO a ∨
      TC_CMP0 (5 : Fin 1024) = AXIS_LIMIT_HI_LO a)) ∧
    (let d := registers []
     let off := MV_SRC (6 : Fin 64)
     d.takes (writerOf (.fn 0)) off = true ∧ (0x120 : Word) &&& 0xFC00000F#32 = 0 ∧ (0x121 : Word) &&& 0xFC00000F#32 ≠ 0) ∧
    (let d := registers []
     d.mayWrite (writerOf (.fn 0)) (HK_CTL (4 : Fin 32)) = true ∧ (0xC : Word).toNat / 4 % 4 = 3) ∧
    (0x6000 ≤ 4 * 0x1803 ∧ 4 * 0x1803 < 0x6400 ∧ 4 * 0x1803 % 16 = 12 ∧ 4 * 0x1800 % 16 ≠ 12 ∧ 0x6400 ≤ 4 * 0x1901 ∧ 4 * 0x1901 < 0x6408 ∧
      0x6408 ≤ 4 * 0x1902 ∧ 4 * 0x1FFF < 0x8000) := by
  decide +kernel

theorem meets_RegisterAccessAndTheDebugPort_debug :
    (let d := registers []
     d.mayWrite (.fn 0) GLB_RSVW = true ∧ d.get GLB_RSVW_FLAG = 0 ∧ (registers [(GLB_RSVW_FLAG, 1)]).get GLB_RSVW_FLAG = 1) ∧
    (let d : Nat → Dev := fun k => service [] (fun v => { v with dbgLevel := k })
     3 ≤ (d 3).svc.dbgLevel ∧ (d 2).svc.dbgLevel = 2 ∧ (d 0).svc.dbgLevel < 1 ∧ (d 1).svc.dbgLevel < 2 ∧ (d 0).svc.dbgLevel = 0 ∧
      (∃ a : Fin 8, 4 * (ME_STATUS 3 / 4) = ME_STATUS a) ∧ ME_STATUS 3 / 4 < 65536 ∧ (d 0).get (ME_STATUS_STATE 3) ≠ 4 ∧ ((d 0).me 3).res = [] ∧
      4 * (TC_CMP0 5 / 4) = TC_CMP0 (5 : Fin 1024) ∧ (d 0).takes .debug (TC_CMP0 (5 : Fin 1024)) = true ∧ (d 0).memUp = true ∧
      (registers [(MEM_STATUS_READY, 0)]).memUp = false ∧ (storedWord 0).read ((d 0).memLoc 16) = (storedWord 0).read 1 ∧ ((storedWord 0).read 1).kind = 0) ∧
    (∀ e : Fin 8, goesOn (exec (.meDebugHalt e) (host [] id)) = true ∧ goesOn (exec (.meDebugResume e) (host [] id)) = true) := by
  decide +kernel

/-- A write of channel 5's CMP0 that lands on this tick, from a writer of rank `r`. -/
def landing (r : Nat) (v : Word) : LateWrite := { due := 1000000, rank := r, code := 0, off := TC_CMP0 5, v }

theorem meets_StepRunsTheFrontCommandOrATick :
    (let s := host [] id
     let e := s.dev.modMe 1 (fun m => { m with io := [(1000000, .wr (TC_CMP0 5 - 0x10000) 0x77)] })
     s.pending = [] ∧ s.dev.tb.running = true ∧ State.reset.dev.tb.running = false ∧ s.dev.ibxs = [] ∧
      (∀ q, q < 4 → (s.dev.slice q).cancels = []) ∧ (∀ k, k < 8 → (s.dev.me k).hkNext = 0 ∧ (s.dev.me k).stopping = false ∧ (s.dev.me k).io = []) ∧
      s.dev.late = [] ∧ s.dev.host.bulkq = [] ∧ s.dev.mc.borrow = none ∧
      (landing 3 5).due ≤ s.dev.tick ∧ (landing 3 5).rank ≤ 10 ∧ (landing 4 7).rank ≤ 10 ∧ (landing 3 5).rank < (landing 4 7).rank ∧
      (landing 3 5).off = TC_CMP0 (5 : Fin 1024) ∧ s.dev.quadDown ((5 : Fin 1024).val / 256) = false ∧
      (5 : Fin 1024).val / 256 = (1 : Fin 8).val / 2 ∧ (∀ j, j < 8 → j ≠ 1 → (e.me j).io = []) ∧
      (e.me 1).io = [(1000000, .wr (TC_CMP0 (5 : Fin 1024) - 0x10000 - 0x8000 * (1 / 2)) 0x77)] ∧ (1000000 : Nat) ≤ e.tick ∧
      e.takes (.me 1) (TC_CMP0 (5 : Fin 1024)) = true ∧ (∀ p ∈ e.ibxs, p.2.ending = none) ∧
      (∀ k, k < 8 → (e.me k).hkNext = 0 ∧ (e.me k).stopping = false)) := by
  decide +kernel

/-- A fuse word blown, and the memories with one entry each. -/
def listed : State :=
  { host [] id with mem := storedWord 0, nvs := ({} : NvStore).put 5 [7], fuse := { data := [(3, 5)] }, pending := [.coreSupplyLoss] }

theorem meets_EveryStepKeepsTheMemoriesCanonical : listed.memWf = true ∧ goesOn (step listed) = true ∧ State.reset.memWf = true := by
  decide +kernel

theorem meets_FusesStayProgrammed :
    (Tab.get 0#32 listed.fuse.data 3).toNat.testBit 2 = true ∧ goesOn (exec .coreSupplyLoss listed) = true ∧ goesOn (step listed) = true := by
  decide +kernel

theorem meets_ForbiddenWritesAreDroppedAndCounted :
    (registers []).mayWrite (.fn (1 : Fin 4)) (4 * (⟨0x15008 / 4, by decide⟩ : Fin 65536).val) = false := by
  decide +kernel

/-! ## Ill-formed commands -/

theorem test_wf_hits : Instr.wf (.lineCalibrationDone (.generator 0) []) = false := by decide

theorem test_wf_bulk : Instr.wf (.bulkWrite 0 5 []) = false ∧ Instr.wf (.bulkRead 0 16383 2) = false ∧ Instr.wf (.bulkRead 0 16383 1) = true := by decide

theorem test_wf_fetch : Instr.wf (.descriptorFetchDone 1 (.ok (List.replicate 9 nop))) = false ∧
    Instr.wf (.descriptorFetchDone 1 (.ok (List.replicate 8 nop))) = true := by decide

theorem test_wf_frame : Instr.wf (.serialFrameCheck 0 { first := true, changes := [(9, true), (9, false)] }) = false ∧
    Instr.wf (.serialFrameCheck 0 { first := true, changes := [(8, true), (9, false)] }) = true := by decide

theorem test_wf_pair : Instr.wf (.registerWrite (.fn 0) 65535 15 ⟨0, some ⟨15, 0⟩⟩) = false ∧ Instr.wf (.registerWrite (.fn 0) 65535 15 ⟨0, none⟩) = true := by
  decide

/-! ## Values that the specification gives -/

/-- R86: a conforming implementation returns 0x29B1 for the nine bytes 0x31 to 0x39. -/
theorem test_crc16_check_value : crc16 ((List.range 9).map (fun k => 0x31 + k)) = 0x29B1 := by decide +kernel

/-- The hits of a line of a uniform 12.0 ps per tap: 65,536 samples over 1,250 ps. -/
def uniformLine : List Nat := (List.range 192).map (fun i => min 65536 (12 * (i + 1) * 65536 / 1250) - min 65536 (12 * i * 65536 / 1250))

/-- R44: the table of a line of 12.0 ps per tap selects taps 2, 60 and 103 for the fine steps 1, 37 and 63. -/
theorem test_tap_table : wfHits uniformLine = true ∧ (tapTable uniformLine)[1]? = some 2 ∧ (tapTable uniformLine)[37]? = some 60 ∧
    (tapTable uniformLine)[63]? = some 103 := by decide +kernel

/-- R101's worked example: the latch at 12,000 counts on 1,000,000 + 10, of velocity 4 / 16,019.5. -/
def latchK : AxView := { t16 := 12000 * 65536, ft := 64000010, vel := roundDiv (4 * 2 ^ 46) 1025248, ext := true }

/-- R101: the predictions for 12,000.25 and 12,003.5 are 1,001,001 + 24 and 1,014,017 + 14. -/
theorem test_predictions : latchK.predict (12000 * 65536 + 16384) = some (1001001 * 64 + 24) ∧
    latchK.predict (12003 * 65536 + 32768) = some (1014017 * 64 + 14) := by decide +kernel

/-- R100: X is 12,000.749 05 at tick 1,003,000, and 12,000.999 98, at the clamp, at tick 1,004,008; it is not yet at the clamp on tick 1,004,004. -/
theorem test_extrapolation : latchK.extrapolate (1003000 * 64) = (12000 * 65536 + 49090, false) ∧
    latchK.extrapolate (1004008 * 64) = (12001 * 65536 - 1, true) ∧ (latchK.extrapolate (1004004 * 64)).2 = false := by decide +kernel

end Sys2Proof.Tests
end

