-- ==== Sys2Proof/Proofs/ResetState.lean ====
section
/-! PROOF. The state after reset (R3, R29, R31, R329, R477): tables that list nothing read as their unlisted value, and a word of
stacked memory whose check symbols match decodes clean. -/

namespace Sys2Proof.Machine

/-! ## Registers -/

/-- R3: a register that is not listed holds its Reset value. -/
theorem Dev.word_of_regs_nil {d : Dev} (h : d.regs = []) (off : Nat) : d.word off = resetWord off := by
  rw [Dev.word, h, Tab.get]

/-- A field of a register that is not listed, whose Reset value is 0, reads 0. -/
theorem Dev.get_eq_zero_of_regs_nil {d : Dev} {f : Fld} (h : d.regs = []) (hz : resetWord f.off = 0) : d.get f = 0 := by
  simp [Dev.get, Dev.word_of_regs_nil h, hz, bits]

theorem resetWord_PWR_STATUS : resetWord PWR_STATUS = 0 := by decide +kernel

theorem resetWord_TB_STATUS : resetWord TB_STATUS = 0 := by decide +kernel

theorem resetWord_MEM_STATUS : resetWord MEM_STATUS = 0 := by decide +kernel

/-! ## Stacked memory -/

@[simp] theorem gfShift_zero_right (k : Nat) : gfShift k 0 = 0 := by
  induction k with
  | zero => rfl
  | succ k ih => exact ih

/-- R310: check symbols that match give the syndromes 0. -/
@[simp] theorem syndrome_zero (i : Nat) : syndrome 0#24 i = 0 := by
  simp [syndrome, bits]

/-- R310: a word whose check symbols match decodes clean, to the data stored. -/
theorem decodeWord_zero (v : Nat) : decodeWord v 0#24 = { data := v, kind := 0 } := by
  simp [decodeWord]

/-- R310, R313: a read of a word that is not poisoned and whose check symbols match is clean. -/
theorem MemArr.read_of_clean {m : MemArr} {k : Nat} (hp : Tab.get false m.poison k = false) (hc : Tab.get 0#24 m.chk k = 0#24) :
    m.read k = { data := m.raw k, kind := 0 } := by
  simp [MemArr.read, hp, hc, decodeWord_zero]

/-- R329: where no data symbol is listed, every word is 0. -/
theorem MemArr.raw_of_data_nil {m : MemArr} (h : m.data = []) (k : Nat) : m.raw k = 0 := by
  simp [MemArr.raw, h, Tab.get, List.foldr_const]

/-- R329: every word of the empty memory reads clean, as 0. -/
theorem MemArr.read_empty (k : Nat) : ({} : MemArr).read k = { data := 0, kind := 0 } := by
  rw [MemArr.read_of_clean rfl rfl, MemArr.raw_of_data_nil rfl]

/-! ## The state after reset -/

theorem reset_word (off : Nat) : State.reset.dev.word off = resetWord off := Dev.word_of_regs_nil rfl off

theorem reset_memRead (k : Nat) : (State.reset.mem.read k).kind = 0 ∧ (State.reset.mem.read k).data = 0 := by
  rw [show State.reset.mem.read k = { data := 0, kind := 0 } from MemArr.read_empty k]
  exact ⟨rfl, rfl⟩

/-- No block is listed after reset, so each one is in its own state after reset. -/
theorem reset_blocks (n : Nat) : State.reset.dev.axis n = {} ∧ State.reset.dev.tc n = {} ∧ State.reset.dev.fe n = {} ∧
    State.reset.dev.ibx n = {} ∧ State.reset.dev.me n = {} ∧ State.reset.dev.grp n = {} ∧ State.reset.dev.slice n = {} :=
  ⟨rfl, rfl, rfl, rfl, rfl, rfl, rfl⟩

/-- Settles O57: the registers, memories and blocks list nothing after reset, so each reads its unlisted value. -/
theorem resetState : Obligations.ResetState := by
  have hPower : State.reset.dev.get PWR_STATUS_STATE = 0 := Dev.get_eq_zero_of_regs_nil rfl resetWord_PWR_STATUS
  have hCal : State.reset.dev.get TB_STATUS_CAL_DONE = 0 := Dev.get_eq_zero_of_regs_nil rfl resetWord_TB_STATUS
  have hReady : State.reset.dev.get MEM_STATUS_READY = 0 := Dev.get_eq_zero_of_regs_nil rfl resetWord_MEM_STATUS
  exact ⟨rfl, reset_word, rfl, rfl, rfl, reset_memWf, reset_memRead, reset_blocks, hPower, hCal, hReady⟩

end Sys2Proof.Machine
end

section
/-! PROOF. The sink of a timer channel after a STOP of the same tick (R184, R185). -/

namespace Sys2Proof.Machine

/-- Channel 0 of quadrant 0, enabled with trigger function 1 (START) and at rest, acted on by a STOP on tick 4 while it was not running;
an event is due at its sink on that tick. -/
def stoppedAtRest : State :=
  let d := (State.reset.dev.put (TC_CTL_EN 0) 1).put (TC_CLK_TRIGFN 0) 1
  let d := { d with tick := 4, tb := { d.tb with running := true }, xev := [{ q := 0, sink := 0, due := 4 }] }
  { State.reset with dev := d.tcStop 0 4 }

/-- The STOP left the tick of the last stop of a running channel as it was. -/
theorem stoppedAtRest_stopTick : (stoppedAtRest.dev.tc 0).stopTick = none := by decide +kernel

/-- The STOP of the tick holds the START of the event back. -/
theorem stoppedAtRest_sinkAct : (stoppedAtRest.dev.xbarAct 0 0).get (TC_STATUS_RUN 0) = 0 := by decide +kernel

/-- Refutes O48: a STOP that meets a channel at rest is not held in `stopTick`, but it too wins over a START of its tick (R185). The statement asks
for `stopTick` alone, and for RUN = 1. -/
theorem not_sinksActAndLanesHaveOneOwner : ¬ Obligations.SinksActAndLanesHaveOneOwner := by
  unfold Obligations.SinksActAndLanesHaveOneOwner
  rintro ⟨sinks, -⟩
  obtain ⟨-, acts⟩ := sinks stoppedAtRest 0 0
  obtain ⟨-, timer, -⟩ := acts { q := 0, sink := 0, due := 4 } (by decide +kernel) (by decide +kernel) (by decide +kernel)
    (by decide +kernel) (by decide +kernel)
  obtain ⟨-, -, fresh⟩ := timer (by decide +kernel) (by decide +kernel)
  obtain ⟨-, start, -⟩ := fresh (by decide +kernel) (by decide +kernel)
  obtain ⟨t, ⟨hexec, -⟩, hrun⟩ := start (by decide +kernel) (by decide +kernel) (by rw [show 256 * (0 : Fin 4).val + (0 : Fin 452).val = 0 from rfl, stoppedAtRest_stopTick]; simp)
  have ht : t.dev = stoppedAtRest.dev.xbarAct 0 0 := by
    injection hexec with ht
    exact ht ▸ rfl
  rw [ht] at hrun
  exact absurd (stoppedAtRest_sinkAct.symm.trans hrun) (by decide)

end Sys2Proof.Machine
end

section
/-! PROOF. Frames of the parts that hold one block each, and of an entry for the fault log. -/

namespace Sys2Proof.Machine

theorem Dev.host_frame {ps : List Part} (fs : List Fld) (d : Dev) (h : HostIf) (hp : Part.host ∈ ps) : Dev.Frame ps fs d { d with host := h } :=
  fun _ => ⟨fun p hn => by cases p <;> first | rfl | exact absurd hp hn, fun _ _ => rfl⟩

theorem Dev.svc_frame {ps : List Part} (fs : List Fld) (d : Dev) (v : Svc) (hp : Part.svc ∈ ps) : Dev.Frame ps fs d { d with svc := v } :=
  fun _ => ⟨fun p hn => by cases p <;> first | rfl | exact absurd hp hn, fun _ _ => rfl⟩

theorem Dev.ru_frame {ps : List Part} (fs : List Fld) (d : Dev) (r : RecUnit) (hp : Part.ru ∈ ps) : Dev.Frame ps fs d { d with ru := r } :=
  fun _ => ⟨fun p hn => by cases p <;> first | rfl | exact absurd hp hn, fun _ _ => rfl⟩

theorem Dev.pw_frame {ps : List Part} (fs : List Fld) (d : Dev) (w : Power) (hp : Part.pw ∈ ps) : Dev.Frame ps fs d { d with pw := w } :=
  fun _ => ⟨fun p hn => by cases p <;> first | rfl | exact absurd hp hn, fun _ _ => rfl⟩

theorem Dev.spineRecNow_frame {ps : List Part} (fs : List Fld) (d : Dev) (a b c e f g : Nat) (hp : Part.ru ∈ ps) :
    Dev.Frame ps fs d (d.spineRecNow a b c e f g) := Dev.ru_frame fs d _ hp

/-- R434, R435: an event for the fault log reaches its buffer and, where it is lost, the record unit. -/
theorem Dev.flog_frame {ps : List Part} {fs : List Fld} (d : Dev) (a b c e f : Nat) (hs : Part.svc ∈ ps) (hr : Part.ru ∈ ps)
    (hf : ∀ g ∈ flogFields, g ∈ fs) : Dev.Frame ps fs d (d.flog a b c e f) := by
  unfold Dev.flog
  split
  · exact Dev.svc_frame _ _ _ hs
  · exact Dev.svc_frame _ _ _ hs
  · split
    · exact (Dev.svc_frame _ _ _ hs).trans (Dev.incWrap_frame _ _ _ (by decide) (hf _ (by simp [flogFields])))
    · exact (Dev.svc_frame _ _ _ hs).trans
        ((Dev.incSat_frame _ _ _ (by decide) (hf _ (by simp [flogFields]))).trans (Dev.spineRecNow_frame _ _ _ _ _ _ _ _ hr))

end Sys2Proof.Machine
end

section
/-! PROOF. The descriptors at their targets (R346, R349): which one a target takes, the checks in their order, and what a refused one leaves. -/

namespace Sys2Proof.Machine

/-! ## Which descriptor is next (R346) -/

/-- The descriptor that is next waits at its target, and an earlier one of its ring there has had its last effect. -/
theorem descNext_spec {d : Dev} {t : Nat} {x : Flight} (h : d.descNext t = some x) :
    x.target = t ∧ x.stage = 0 ∧ ∃ l r, d.host.flights = l ++ x :: r ∧
      ∀ y ∈ l, y.sr = x.sr → y.target = t → isDma y.desc.op = false → 2 ≤ y.stage := by
  unfold Dev.descNext at h
  rw [List.find?_filter, List.find?_eq_some_iff_append] at h
  obtain ⟨hx, l, r, hsplit, hl⟩ := h
  simp only [Bool.and_eq_true, beq_iff_eq, Bool.not_eq_eq_eq_not, Bool.not_true, decide_eq_true_eq] at hx
  obtain ⟨⟨⟨htarget, hstage⟩, -⟩, hfree⟩ := hx
  refine ⟨htarget, hstage, l, r, hsplit, fun y hy hsr hyt hdma => ?_⟩
  have hy' := hl y hy
  rw [hsr, hfree] at hy'
  have hne0 : y.stage ≠ 0 := fun h0 => by simp [hyt, hdma, h0] at hy'
  have hne1 : y.stage ≠ 1 := fun h1 => by
    rw [List.any_eq_false] at hfree
    have := hfree y (by simp [hsplit, hy])
    simp [hyt, hdma, hsr, h1] at this
  omega

theorem descOf_eq_some {d : Dev} {t op : Nat} {x : Flight} (h : d.descOf t op = some x) : d.descNext t = some x ∧ x.desc.op = op := by
  unfold Dev.descOf at h
  split at h
  · split at h
    · cases h; exact ⟨‹_›, ‹_›⟩
    · cases h
  · cases h

theorem descNext_waits {d : Dev} {t : Nat} {x : Flight} (h : d.descNext t = some x) : x ∈ d.host.flights ∧ x.stage = 0 := by
  obtain ⟨-, hstage, l, r, hsplit, -⟩ := descNext_spec h
  exact ⟨by simp [hsplit], hstage⟩

theorem descOf_waits {d : Dev} {t op : Nat} {x : Flight} (h : d.descOf t op = some x) : x ∈ d.host.flights ∧ x.stage = 0 :=
  descNext_waits (descOf_eq_some h).1

/-- A DMA descriptor begins as one of the four oldest, after every earlier one of its ring for the spine. -/
theorem dmaOf_spec {d : Dev} {i op : Nat} {x : Flight} (h : d.dmaOf i op = some x) :
    x ∈ d.host.flights ∧ i < 4 ∧ x.stage = 0 ∧ x.desc.op = op ∧
      ∀ y ∈ d.host.flights, y.sr = x.sr → y.target = 4 → isDma y.desc.op = false → y.id < x.id → y.stage = 2 := by
  unfold Dev.dmaOf at h
  split at h
  · rename_i z hz
    split at h
    · rename_i hfound
      obtain ⟨hop, hfree⟩ := hfound
      cases h
      rw [List.getElem?_take] at hz
      split at hz
      · rename_i hi
        have hmem := List.mem_of_getElem? hz
        simp only [List.mem_filter, Bool.and_eq_true, beq_iff_eq] at hmem
        obtain ⟨hmem, -, hstage⟩ := hmem
        refine ⟨hmem, hi, hstage, hop, fun y hy hsr hyt hdma hid => ?_⟩
        rw [Bool.not_eq_true, List.any_eq_false] at hfree
        have := hfree y hy
        simpa [hsr, hyt, hdma, hid] using this
      · cases hz
    · cases h
  · cases h

theorem dmaOf_waits {d : Dev} {i op : Nat} {x : Flight} (h : d.dmaOf i op = some x) : x ∈ d.host.flights ∧ x.stage = 0 := by
  obtain ⟨hmem, -, hstage, -, -⟩ := dmaOf_spec h
  exact ⟨hmem, hstage⟩

/-! ## The rows of the opcodes -/

/-- The row `p` runs the descriptor that it has found, which waits, with an effect of its own. -/
def State.Serves (s : State) (p : Instr × Option Flight) : Prop :=
  (∃ body, exec p.1 s = .next (s.descRun p.2 body)) ∧ ∀ x, p.2 = some x → x ∈ s.dev.host.flights ∧ x.stage = 0

theorem serves_descOf {s : State} {c : Instr} {t op : Nat} (body : Flight → State → State)
    (h : exec c s = .next (s.descRun (s.dev.descOf t op) body)) : s.Serves (c, s.dev.descOf t op) := ⟨⟨body, h⟩, fun _ => descOf_waits⟩

theorem serves_dmaOf {s : State} {c : Instr} {i op : Nat} (body : Flight → State → State)
    (h : exec c s = .next (s.descRun (s.dev.dmaOf i op) body)) : s.Serves (c, s.dev.dmaOf i op) := ⟨⟨body, h⟩, fun _ => dmaOf_waits⟩

/-- NOP also takes a descriptor with a reserved opcode. -/
theorem serves_nop (s : State) : s.Serves (.nop, (s.dev.descNext 4).filter (fun x => x.desc.op == 0 || (paramMask x.desc.op).isNone)) := by
  refine ⟨⟨fun x s => { s with dev := s.dev.descEnd x 0 0 }, ?_⟩, fun x h => descNext_waits (Option.filter_eq_some_iff.1 h).1⟩
  show execNop s = _
  unfold execNop
  cases s.dev.descNext 4 with
  | none => rfl
  | some x => simp [Option.filter_some]

theorem descRows_serve (s : State) (q : Fin 4) (i : Nat) (h : HostData) (e : Option Nat) (v : Bool) :
    ∀ p ∈ s.dev.descRows q i h e v, s.Serves p := by
  simp only [Dev.descRows, List.forall_mem_cons, List.not_mem_nil, false_implies, implies_true, and_true]
  exact ⟨serves_nop s, serves_descOf _ rfl, serves_descOf _ rfl, serves_descOf _ rfl, serves_descOf _ rfl, serves_descOf _ rfl, serves_descOf _ rfl,
    serves_descOf _ rfl, serves_descOf _ rfl, serves_descOf _ rfl, serves_descOf _ rfl, serves_descOf _ rfl, serves_descOf _ rfl, serves_descOf _ rfl,
    serves_descOf _ rfl, serves_descOf _ rfl, serves_dmaOf _ rfl, serves_dmaOf _ rfl, serves_dmaOf _ rfl, serves_descOf _ rfl, serves_descOf _ rfl,
    serves_descOf _ rfl, serves_descOf _ rfl, serves_descOf _ rfl, serves_descOf _ rfl, serves_descOf _ rfl, serves_descOf _ rfl, serves_descOf _ rfl⟩

/-! ## How a descriptor that has been taken goes on (R349, R469) -/

section
variable {s : State} {x : Flight} (body : Flight → State → State)

theorem descRun_stopped (h : s.dev.descStopped x = true) : s.descRun (some x) body = s := by simp [State.descRun, h]

theorem descRun_idle (hs : s.dev.descStopped x = false) (hp : s.dev.get PWR_STATUS_STATE = 1) (ht : x.touches = true) :
    s.descRun (some x) body = { s with dev := s.dev.idleTouch } := by simp [State.descRun, hs, hp, ht]

theorem descRun_refused {st : Nat} (hs : s.dev.descStopped x = false) (hi : ¬ (s.dev.get PWR_STATUS_STATE = 1 ∧ x.touches = true))
    (hr : s.dev.descRefuse x = some st) : s.descRun (some x) body = { s with dev := (s.dev.descBegin x).descEnd x st 0 } := by
  simp [State.descRun, hs, hi, hr]

theorem descRun_holds (hs : s.dev.descStopped x = false) (hi : ¬ (s.dev.get PWR_STATUS_STATE = 1 ∧ x.touches = true))
    (hr : s.dev.descRefuse x = none) (hh : s.dev.descHolds x.desc = true) : s.descRun (some x) body = s := by
  simp [State.descRun, hs, hi, hr, hh]

/-- A descriptor that passes the checks begins and takes its effect. -/
theorem descRun_passes (h : s.dev.passes x = true) : s.descRun (some x) body = body x { s with dev := s.dev.descBegin x } := by
  simp only [Dev.passes, Bool.and_eq_true, Bool.not_eq_eq_eq_not, Bool.not_true, Option.isNone_iff_eq_none] at h
  obtain ⟨⟨⟨hs, hi⟩, hr⟩, hh⟩ := h
  have hi : ¬ (s.dev.get PWR_STATUS_STATE = 1 ∧ x.touches = true) := by simpa using hi
  simp [State.descRun, hs, hi, hr, hh]

end

/-- R469: an access ends IDLE 2 µs after the first one. -/
theorem idleTouch_pw (d : Dev) : d.idleTouch.pw = { d.pw with idleEnd := some (d.pw.idleEnd.getD (d.tick + 1600)) } := by
  unfold Dev.idleTouch
  split
  · rename_i hsome
    obtain ⟨t, ht⟩ := Option.isSome_iff_exists.1 hsome
    rw [ht, Option.getD_some, ← ht]
  · rename_i hnone
    rw [Option.not_isSome_iff_eq_none.1 hnone]
    rfl

theorem idleTouch_frame (d : Dev) : Dev.Frame [.pw] [] d d.idleTouch :=
  Dev.Frame.ite (fun _ => Dev.Frame.refl _ _ _) (fun _ => Dev.pw_frame _ _ _ List.mem_cons_self)

/-! ## Beginning and ending (R345, R359, R451) -/

theorem descBegin_eq (d : Dev) (x : Flight) : d.descBegin x = { d with host := d.begun x } := rfl

theorem descBegin_frame (d : Dev) (x : Flight) : Dev.Frame [.host] [] d (d.descBegin x) := Dev.host_frame _ _ _ List.mem_cons_self

/-- What the host interface holds at the end of a descriptor does not depend on the fault log. -/
theorem descEnd_host (d : Dev) (x : Flight) (st v : Nat) : (d.descEnd x st v).host = (d.flightEnd x.id st v).host := by
  unfold Dev.descEnd
  simp only
  split
  · rfl
  · split
    · rw [Dev.spineRecNow_host, Dev.flog_host]
    · split
      · rw [Dev.flog_host]
      · rfl

theorem now_of_host (d : Dev) (h : HostIf) : ({ d with host := h } : Dev).now = d.now := rfl

/-- A descriptor that begins and ends on one tick. -/
theorem descBegin_descEnd_host (d : Dev) (x : Flight) (st v : Nat) : ((d.descBegin x).descEnd x st v).host = d.done x st v := by
  rw [descEnd_host, descBegin_eq]
  simp only [Dev.flightEnd, Dev.modFlight, Dev.begun, Dev.done, List.map_map, now_of_host]
  congr 1
  refine List.map_congr_left fun y _ => ?_
  by_cases h : y.id = x.id <;> simp [h]

/-- R451: a descriptor that ends unsuccessfully changes nothing else, but a privileged one may be logged. -/
theorem descEnd_frame (d : Dev) (x : Flight) {st : Nat} (v : Nat) (hst : st ≠ 0) :
    Dev.Frame (if x.desc.privileged then [.host, .svc, .ru] else [.host]) (if x.desc.privileged then flogFields else []) d (d.descEnd x st v) := by
  have hend (ps : List Part) (fs : List Fld) (hp : Part.host ∈ ps) : Dev.Frame ps fs d (d.flightEnd x.id st v) := Dev.host_frame _ _ _ hp
  unfold Dev.descEnd
  cases x.desc.privileged with
  | false => exact hend _ _ (by simp)
  | true =>
    simp only [not_true_eq_false, if_false, hst, if_true]
    exact Dev.Frame.ite (fun _ => (hend _ _ (by simp)).trans (Dev.flog_frame _ _ _ _ _ _ (by simp) (by simp) (fun _ h => h)))
      (fun _ => hend _ _ (by simp))

theorem descBegin_descEnd_frame (d : Dev) (x : Flight) {st : Nat} (v : Nat) (hst : st ≠ 0) :
    Dev.Frame (if x.desc.privileged then [.host, .svc, .ru] else [.host]) (if x.desc.privileged then flogFields else []) d
      ((d.descBegin x).descEnd x st v) := by
  refine Dev.Frame.trans ?_ (descEnd_frame _ _ _ hst)
  exact (descBegin_frame d x).mono (by intro p hp; split <;> simp_all) (by simp)

/-! ## The checks (R349) -/

/-- A check that fails gives one of the error statuses. -/
theorem descRefuse_ne_zero {d : Dev} {x : Flight} {st : Nat} (h : d.descRefuse x = some st) : st ≠ 0 := by
  unfold Dev.descRefuse at h
  repeat' split at h
  all_goals first | cases h; decide | cases h

theorem descRefuse_down {d : Dev} {x : Flight} (h : x.target < 4 ∧ d.quadDown x.target = true) : d.descRefuse x = some 9 := by
  simp [Dev.descRefuse, h]

section
variable {d : Dev} {x : Flight} (hdown : ¬ (x.target < 4 ∧ d.quadDown x.target = true))
include hdown

theorem descRefuse_bad (h : descBad x.desc = true) : d.descRefuse x = some 1 := by
  simp only [Dev.descRefuse, if_neg hdown, h, if_true]

theorem descRefuse_denied (hb : descBad x.desc = false) (h : d.descDenied x.f x.desc = true) : d.descRefuse x = some 5 := by
  simp only [Dev.descRefuse, if_neg hdown, hb, h, if_true, Bool.false_eq_true, if_false]

theorem descRefuse_absent (hb : descBad x.desc = false) (hd : d.descDenied x.f x.desc = false) (hn : d.descDown x = false)
    (hp : x.desc.privileged = true) (h : d.svc.presOpen = none) : d.descRefuse x = some 6 := by
  simp [Dev.descRefuse, hdown, hb, hd, hn, hp, h]

theorem descRefuse_passed (hb : descBad x.desc = false) (hd : d.descDenied x.f x.desc = false) (hn : d.descDown x = false)
    (h : d.svc.presOpen ≠ none) : d.descRefuse x = none := by
  simp [Dev.descRefuse, hdown, hb, hd, hn, h]

end

/-- R350: the opcodes that are defined. -/
def knownOps : List Nat :=
  [0x00, 0x01, 0x02, 0x03, 0x04, 0x05, 0x06, 0x07, 0x10, 0x11, 0x12, 0x20, 0x21, 0x30, 0x31, 0x32, 0x40, 0x41, 0x42, 0x48, 0x50,
    0x51, 0x52, 0x53, 0x54, 0x55, 0x56, 0x57]

theorem paramMask_isSome {op : Nat} (h : (paramMask op).isSome = true) : op ∈ knownOps := by
  rw [paramMask, Option.isSome_map, List.find?_isSome] at h
  obtain ⟨p, hp, hop⟩ := h
  rw [beq_iff_eq] at hop
  subst hop
  revert p
  decide

/-- R349 step 1. -/
theorem descBad_of {x : Desc} (h : x.op ∉ knownOps ∨ x.hdr 12 4 ≠ 0 ∨ x.hdr 10 1 ≠ 0 ∨ descBadField x = true) : descBad x = true := by
  unfold descBad
  split
  · rfl
  · rename_i m hm
    rcases h with h | h | h | h
    · exact absurd (paramMask_isSome (by rw [hm]; rfl)) h
    all_goals simp [h]

theorem op_known_of_descBad {x : Desc} (h : descBad x = false) : x.op ∈ knownOps := by
  by_contra hn
  rw [descBad_of (.inl hn)] at h
  cases h

/-- The target of an opcode that does not name a quadrant is the spine. -/
theorem target_eq_spine {x : Desc} (h : x.op ∉ quadOps) : x.target = 4 := by simp [Desc.target, h]

/-- R349 step 2 for an opcode that goes to the spine. -/
theorem descDenied_quad {d : Dev} {f : Nat} {x : Desc} (h : x.target < 4) (ho : d.qOwner x.target ≠ f) : d.descDenied f x = true := by
  simp [Dev.descDenied, h, ho]

/-- R349 step 2: the service opcodes and SREG_WRITE are the manager's. -/
theorem descDenied_manager {d : Dev} {f : Nat} {x : Desc} (hk : x.op ∈ knownOps) (hop : x.op = 0x02 ∨ 0x50 ≤ x.op) (hm : d.manager ≠ f) :
    d.descDenied f x = true := by
  have hm : (d.manager == f) = false := by simpa using hm
  have hops : x.op ∈ [0x02, 0x50, 0x51, 0x52, 0x53, 0x54, 0x55, 0x56, 0x57] := by
    revert hop
    generalize x.op = op at hk
    revert op
    decide
  have ht : x.target = 4 := target_eq_spine (by
    generalize x.op = op at hops
    revert op
    decide)
  simp only [List.mem_cons, List.not_mem_nil, or_false] at hops
  rcases hops with h | h | h | h | h | h | h | h | h <;> simp [Dev.descDenied, ht, h, hm]

/-- R349 step 2: QUAD_RESET is the manager's or its quadrant's owner's. -/
theorem descDenied_quadReset {d : Dev} {f : Nat} {x : Desc} (hop : x.op = 0x48) (hm : d.manager ≠ f) (ho : d.qOwner (x.par 0 2) ≠ f) :
    d.descDenied f x = true := by
  have ht : x.target = 4 := target_eq_spine (by rw [hop]; decide)
  simp [Dev.descDenied, ht, hop, hm, ho]

/-- R349 step 2: a route is for who owns both of its quadrants. -/
theorem descDenied_route {d : Dev} {f : Nat} {x : Desc} (hop : x.op = 0x20 ∨ x.op = 0x21)
    (ho : d.qOwner (x.par 0 2) ≠ f ∨ d.qOwner (x.par 2 2) ≠ f) : d.descDenied f x = true := by
  have ht : x.target = 4 := target_eq_spine (by rcases hop with h | h <;> rw [h] <;> decide)
  rcases hop with h | h <;> rcases ho with ho | ho <;> simp [Dev.descDenied, ht, h, ho]

/-- R357: the privileged operations. -/
theorem privileged_of {x : Desc} (h : x.op ∈ [0x53, 0x54, 0x55, 0x56] ∨ (x.op = 0x51 ∧ x.d2.toNat % 2 ^ 23 < 0x100000)) : x.privileged = true := by
  rcases h with h | ⟨h, hb⟩
  · simp only [List.mem_cons, List.not_mem_nil, or_false] at h
    rcases h with h | h | h | h <;> simp [Desc.privileged, h]
  · have hb : bits x.d2.toNat 0 23 < 0x100000 := by simpa only [bits, Nat.shiftRight_zero] using hb
    simp [Desc.privileged, h, hb]

/-- R426: no privileged operation is for a quadrant; one that waits at a quadrant that is down has ended before. -/
theorem descDown_of_privileged {d : Dev} {x : Flight} (hdown : ¬ (x.target < 4 ∧ d.quadDown x.target = true)) (hp : 0x50 ≤ x.desc.op) :
    d.descDown x = false := by
  unfold Dev.descDown
  split
  · rename_i ht
    simpa [ht] using hdown
  · split
    · omega
    · omega
    · omega
    · rfl

/-- R349: the order of the checks, for every descriptor. -/
theorem descRefuse_order (d : Dev) (x : Flight) :
    let op := x.desc.op
    let down := x.target < 4 ∧ d.quadDown x.target = true
    (down → d.descRefuse x = some 9) ∧
    (¬ down → op ∉ knownOps ∨ x.desc.hdr 12 4 ≠ 0 ∨ x.desc.hdr 10 1 ≠ 0 ∨ descBadField x.desc = true → d.descRefuse x = some 1) ∧
    (¬ down → descBad x.desc = false →
      (x.desc.target < 4 → d.qOwner x.desc.target ≠ x.f → d.descRefuse x = some 5) ∧
      (op = 0x02 ∨ 0x50 ≤ op → d.manager ≠ x.f → d.descRefuse x = some 5) ∧
      (op = 0x48 → d.manager ≠ x.f → d.qOwner (x.desc.par 0 2) ≠ x.f → d.descRefuse x = some 5) ∧
      (op = 0x20 ∨ op = 0x21 → d.qOwner (x.desc.par 0 2) ≠ x.f ∨ d.qOwner (x.desc.par 2 2) ≠ x.f → d.descRefuse x = some 5) ∧
      (op ∈ [0x53, 0x54, 0x55, 0x56] ∨ (op = 0x51 ∧ x.desc.d2.toNat % 2 ^ 23 < 0x100000) → d.descDenied x.f x.desc = false →
        d.svc.presOpen = none → d.descRefuse x = some 6) ∧
      (d.descDenied x.f x.desc = false → d.descDown x = false → d.svc.presOpen ≠ none → d.descRefuse x = none)) := by
  refine ⟨descRefuse_down, fun hn h => descRefuse_bad hn (descBad_of h), fun hn hb => ?_⟩
  have denied := descRefuse_denied hn hb
  refine ⟨fun ht ho => denied (descDenied_quad ht ho), fun hop hm => denied (descDenied_manager (op_known_of_descBad hb) hop hm),
    fun hop hm ho => denied (descDenied_quadReset hop hm ho), fun hop ho => denied (descDenied_route hop ho), fun hop hd hw => ?_,
    fun hd hdn hw => descRefuse_passed hn hb hd hdn hw⟩
  have hservice : 0x50 ≤ x.desc.op := by
    rcases hop with hop | ⟨hop, -⟩
    · simp only [List.mem_cons, List.not_mem_nil, or_false] at hop; omega
    · omega
  exact descRefuse_absent hn hb hd (descDown_of_privileged hn hservice) (privileged_of hop) hw

/-- Settles O39: every row serves what it finds through `descRun`, whose branches are the cases of the statement. -/
theorem descriptorsAreCheckedInOrder : Obligations.DescriptorsAreCheckedInOrder := by
  unfold Obligations.DescriptorsAreCheckedInOrder
  refine ⟨fun s q i h e v c o hrow => ?_, fun d t op x h => ?_, fun d i op x h => ?_, descRefuse_order⟩
  · obtain ⟨⟨body, hexec⟩, hwaits⟩ := descRows_serve s q i h e v (c, o) hrow
    simp only at hexec hwaits
    refine ⟨fun ho => by rw [hexec, ho]; rfl, fun x ho => ?_⟩
    obtain ⟨hmem, hstage⟩ := hwaits x ho
    subst ho
    rw [hexec]
    refine ⟨hmem, hstage, fun hs => by rw [descRun_stopped body hs], fun hs hp ht => ⟨_, by rw [descRun_idle body hs hp ht], idleTouch_pw s.dev,
      (idleTouch_frame s.dev).lift⟩, fun hs hi => ⟨fun st hr => ⟨_, by rw [descRun_refused body hs hi hr], descBegin_descEnd_host s.dev x st 0,
        (descBegin_descEnd_frame s.dev x 0 (descRefuse_ne_zero hr)).lift⟩, fun hr hh => by rw [descRun_holds body hs hi hr hh]⟩⟩
  · obtain ⟨hnext, hop⟩ := descOf_eq_some h
    obtain ⟨ht, hstage, hsplit⟩ := descNext_spec hnext
    exact ⟨ht, hstage, hop, hsplit⟩
  · obtain ⟨-, hi, hstage, hop, horder⟩ := dmaOf_spec h
    exact ⟨hi, hstage, hop, horder⟩

end Sys2Proof.Machine
end

section
/-! PROOF. Reading stacked memory after a store, a poisoning or a disturbance (R309, R310, R313), byte by byte. -/

namespace Sys2Proof.Machine

/-! ## Bytes of a word -/

theorem byteOf_eq (v i : Nat) : byteOf v i = v / 256 ^ i % 256 := by
  rw [byteOf, bits, Nat.shiftRight_eq_div_pow, Nat.pow_mul]
  rfl

theorem byteOf_lt (v i : Nat) : byteOf v i < 256 := Nat.mod_lt _ (by decide)

theorem bitAt_eq_testBit (n i : Nat) : bitAt n i = n.testBit i := by
  rw [bitAt, Nat.testBit_eq_decide_div_mod_eq, Nat.shiftRight_eq_div_pow]
  rfl

/-- The number whose bytes from index `k` on are given by `f`, the lowest first. -/
def packFrom (f : Nat → Nat) (k n : Nat) : Nat := (List.range' k n).foldr (fun i a => a * 256 + f i) 0

theorem packFrom_succ (f : Nat → Nat) (k n : Nat) : packFrom f k (n + 1) = packFrom f (k + 1) n * 256 + f k := by
  rw [packFrom, List.range'_succ, List.foldr_cons, packFrom]

/-- A packed number has the bytes that it was packed from. -/
theorem byteOf_packFrom (f : Nat → Nat) (hf : ∀ i, f i < 256) (n k i : Nat) (h : i < n) : byteOf (packFrom f k n) i = f (k + i) := by
  induction n generalizing k i with
  | zero => omega
  | succ n ih =>
    have hk := hf k
    rw [byteOf_eq, packFrom_succ]
    cases i with
    | zero => simp only [pow_zero, Nat.div_one, Nat.add_zero]; omega
    | succ i =>
      have hq : (packFrom f (k + 1) n * 256 + f k) / 256 ^ (i + 1) = packFrom f (k + 1) n / 256 ^ i := by
        rw [Nat.pow_succ, Nat.mul_comm (256 ^ i), ← Nat.div_div_eq_div_mul]
        congr 1
        omega
      rw [hq, ← byteOf_eq, ih _ _ (by omega)]
      congr 1
      omega

/-- Packing the bytes of a number gives the number back, up to its length. -/
theorem packFrom_bytes (v n k : Nat) : packFrom (byteOf v) k n = v / 256 ^ k % 256 ^ n := by
  induction n generalizing k with
  | zero => simp [packFrom, Nat.mod_one]
  | succ n ih =>
    rw [packFrom_succ, ih, byteOf_eq, pow_succ' 256 n, Nat.mod_mul, Nat.div_div_eq_div_mul, ← pow_succ]
    ring

theorem packFrom_congr {f g : Nat → Nat} (k n : Nat) (h : ∀ i, k ≤ i → i < k + n → f i = g i) : packFrom f k n = packFrom g k n := by
  induction n generalizing k with
  | zero => rfl
  | succ n ih => rw [packFrom_succ, packFrom_succ, ih (k + 1) (fun i h1 h2 => h i (by omega) (by omega)), h k (by omega) (by omega)]

theorem byteOf_mod {i : Nat} (v : Nat) (h : i < 16) : byteOf (v % 2 ^ 128) i = byteOf v i := by
  have := packFrom_bytes v 16 0
  rw [pow_zero, Nat.div_one, show (256 : Nat) ^ 16 = 2 ^ 128 by norm_num] at this
  rw [← this, byteOf_packFrom _ (byteOf_lt v) 16 0 i h, Nat.zero_add]

theorem mergeBytes_eq (mask old new : Nat) :
    mergeBytes mask old new = packFrom (fun i => if bitAt mask i then byteOf new i else byteOf old i) 0 16 := by
  rw [mergeBytes, packFrom, List.range_eq_range']

/-- A merged word holds the bytes of the new word where the mask has its bit, else of the old one. -/
theorem byteOf_mergeBytes (mask old new : Nat) {i : Nat} (h : i < 16) :
    byteOf (mergeBytes mask old new) i = if mask.testBit i then byteOf new i else byteOf old i := by
  rw [mergeBytes_eq, byteOf_packFrom _ (fun j => by split <;> exact byteOf_lt _ _) 16 0 i h, Nat.zero_add, bitAt_eq_testBit]

/-! ## Cells -/

theorem raw_eq (m : MemArr) (k : Nat) : m.raw k = packFrom (fun i => (Tab.get 0 m.data (16 * k + i)).toNat) 0 16 := by
  rw [MemArr.raw, packFrom, List.range_eq_range']

/-- A run of cells after each of them has been set. -/
theorem Tab.get_foldl_set (t : Tab Byte) (a : Nat) (g : Nat → Byte) (n j : Nat) :
    Tab.get 0 ((List.range n).foldl (fun t i => Tab.set 0 t (a + i) (g i)) t) j = if a ≤ j ∧ j < a + n then g (j - a) else Tab.get 0 t j := by
  induction n with
  | zero => rw [if_neg (by omega)]; rfl
  | succ n ih =>
    rw [List.range_succ, List.foldl_append, List.foldl_cons, List.foldl_nil, Tab.get_set, ih]
    by_cases h : j = a + n
    · subst h
      rw [if_pos rfl, if_pos (by omega), Nat.add_sub_cancel_left]
    · rw [if_neg h]
      exact if_congr (by omega) rfl rfl

/-- The data symbols of a word that was stored. -/
theorem raw_store_same (m : MemArr) (k v : Nat) (e : BitVec 24) : (m.store k v e).raw k = v % 2 ^ 128 := by
  have hcell : ∀ i, 0 ≤ i → i < 0 + 16 → (Tab.get 0 (m.store k v e).data (16 * k + i)).toNat = byteOf v i := by
    intro i _ hi
    rw [MemArr.store, Tab.get_foldl_set, if_pos (by omega), Nat.add_sub_cancel_left, BitVec.toNat_ofNat,
      Nat.mod_eq_of_lt (byteOf_lt v i)]
  rw [raw_eq, packFrom_congr 0 16 hcell, packFrom_bytes, pow_zero, Nat.div_one, show (256 : Nat) ^ 16 = 2 ^ 128 by norm_num]

theorem raw_store_ne (m : MemArr) {k j : Nat} (v : Nat) (e : BitVec 24) (h : j ≠ k) : (m.store k v e).raw j = m.raw j := by
  rw [raw_eq, raw_eq]
  refine packFrom_congr 0 16 fun i _ hi => ?_
  rw [MemArr.store, Tab.get_foldl_set, if_neg (by omega)]

theorem chk_store (m : MemArr) (k v : Nat) (e : BitVec 24) (j : Nat) :
    Tab.get 0 (m.store k v e).chk j = if j = k then e else Tab.get 0 m.chk j := by
  rw [MemArr.store, Tab.get_set]

theorem poison_store (m : MemArr) (k v : Nat) (e : BitVec 24) (j : Nat) :
    Tab.get false (m.store k v e).poison j = if j = k then false else Tab.get false m.poison j := by
  rw [MemArr.store, Tab.get_set]

theorem poison_setPoison (m : MemArr) (k j : Nat) :
    Tab.get false (m.setPoison k).poison j = if j = k then true else Tab.get false m.poison j := by
  rw [MemArr.setPoison, Tab.get_set]

/-- R310: what a read finds depends on the cells of its word alone. -/
theorem read_congr {m n : MemArr} {k : Nat} (hraw : n.raw k = m.raw k) (hchk : Tab.get 0 n.chk k = Tab.get 0 m.chk k)
    (hpoison : Tab.get false n.poison k = Tab.get false m.poison k) : n.read k = m.read k := by
  rw [MemArr.read, MemArr.read, hraw, hchk, hpoison]

/-- R307: a word stored with its own check symbols reads back. -/
@[simp] theorem read_store_same (m : MemArr) (k v : Nat) : (m.store k v 0).read k = { data := v % 2 ^ 128, kind := 0 } := by
  rw [MemArr.read_of_clean (by rw [poison_store, if_pos rfl]) ((chk_store m k v 0 k).trans (if_pos rfl)), raw_store_same]

theorem read_store_ne (m : MemArr) {k j : Nat} (v : Nat) (e : BitVec 24) (h : j ≠ k) : (m.store k v e).read j = m.read j :=
  read_congr (raw_store_ne m v e h) (by rw [chk_store, if_neg h]) (by rw [poison_store, if_neg h])

/-- R313: a poisoned word cannot be corrected. -/
@[simp] theorem read_setPoison_same (m : MemArr) (k : Nat) : ((m.setPoison k).read k).kind = 2 := by
  rw [MemArr.read, poison_setPoison, if_pos rfl, if_pos rfl]
  rfl

theorem read_setPoison_ne (m : MemArr) {k j : Nat} (h : j ≠ k) : (m.setPoison k).read j = m.read j :=
  read_congr rfl rfl (by rw [poison_setPoison, if_neg h])

@[simp] theorem disturb_zero (m : MemArr) (k : Nat) : m.disturb k 0 = m := if_pos rfl

theorem read_disturb_ne (m : MemArr) {k j : Nat} (flip : BitVec 152) (h : j ≠ k) : (m.disturb k flip).read j = m.read j := by
  unfold MemArr.disturb
  dsimp only
  split
  · rfl
  · split
    · rw [read_setPoison_ne _ h, read_store_ne _ _ _ h]
    · exact read_store_ne _ _ _ h

/-- R310: a read finds a word clean, corrected or uncorrectable. -/
theorem read_kind_le (m : MemArr) (k : Nat) : (m.read k).kind ≤ 2 := by
  unfold MemArr.read
  split
  · exact Nat.le_refl 2
  · unfold decodeWord
    dsimp only
    split
    · exact Nat.zero_le 2
    · split
      · exact (by decide : 1 ≤ 2)
      · exact Nat.le_refl 2

end Sys2Proof.Machine
end

section
/-! PROOF. What an error report, a spare trigger and a dropped write of stacked memory leave as it was (R133, R314, R323). -/

namespace Sys2Proof.Machine

/-- That two fields at known places share no bit is a computation. -/
def Fld.isApart (f g : Fld) : Bool := !Nat.beq f.off g.off || Nat.ble (f.lo + f.w) g.lo || Nat.ble (g.lo + g.w) f.lo

theorem apart_of {f g : Fld} (h : f.isApart g = true) : f.apart g := by
  simp only [Fld.isApart, Bool.or_eq_true, Bool.not_eq_eq_eq_not, Bool.not_true, Nat.ble_eq] at h
  rcases h with (h | h) | h
  · exact .inl (Nat.ne_of_beq_eq_false h)
  · exact .inr (.inl h)
  · exact .inr (.inr h)

theorem apart_all {fs : List Fld} {g : Fld} (h : fs.all (fun f => f.isApart g) = true) : ∀ f ∈ fs, f.apart g :=
  fun f hf => apart_of (List.all_eq_true.1 h f hf)

/-- A frame widened to fields that cover those of a narrower one. -/
theorem Dev.Frame.widen {ps qs : List Part} {fs gs : List Fld} {d e : Dev} (h : Dev.Frame ps fs d e) (hp : ∀ p ∈ ps, p ∈ qs)
    (hf : ∀ f ∈ fs, f ∈ gs ∨ whole f.off ∈ gs ∧ f.lo + f.w ≤ 32) : Dev.Frame qs gs d e := by
  refine fun s => ⟨fun p hq => (h s).1 p (fun c => hq (hp p c)), fun g hg => (h s).2 g fun f hfs => ?_⟩
  rcases hf f hfs with hm | ⟨hm, hw⟩
  · exact hg f hm
  · exact whole_apart (hg _ hm) hw

theorem Dev.mc_frame {ps : List Part} (fs : List Fld) (d : Dev) (m : MemCtl) (hp : Part.mc ∈ ps) : Dev.Frame ps fs d { d with mc := m } :=
  fun _ => ⟨fun p hn => by cases p <;> first | rfl | exact absurd hp hn, fun _ _ => rfl⟩

/-! ## The registers of templates that are listed -/

theorem filterMap_insert {α β : Type} (g : Nat → Option β) (t : Tab α) (i : Nat) (v : α) (h : g i = none) :
    (Tab.insert i v t).filterMap (fun p => g p.1) = t.filterMap (fun p => g p.1) := by
  induction t with
  | nil => simp [Tab.insert, h]
  | cons p t ih =>
    obtain ⟨k, w⟩ := p
    unfold Tab.insert
    split
    · simp [h]
    · split
      · rename_i hk; subst hk; simp [h]
      · simp only [List.filterMap_cons, ih]

theorem filterMap_filter_ne {α β : Type} (g : Nat → Option β) (t : Tab α) (i : Nat) (h : g i = none) :
    (t.filter (fun p => p.1 != i)).filterMap (fun p => g p.1) = t.filterMap (fun p => g p.1) := by
  induction t with
  | nil => rfl
  | cons p t ih =>
    obtain ⟨k, w⟩ := p
    by_cases hk : k = i
    · subst hk; simp [h, ih]
    · simp [hk, List.filterMap_cons, ih]

/-- A word set at a place that `g` does not name leaves the places that it names as they were listed. -/
theorem filterMap_set {α β : Type} [DecidableEq α] (g : Nat → Option β) (u : α) (t : Tab α) (i : Nat) (v : α) (h : g i = none) :
    (Tab.set u t i v).filterMap (fun p => g p.1) = t.filterMap (fun p => g p.1) := by
  unfold Tab.set
  split
  · exact filterMap_filter_ne g t i h
  · exact filterMap_insert g t i v h

/-- The templates whose LEN register is listed (log 17). -/
def Dev.tplListed (d : Dev) : List Nat := d.regs.filterMap (fun p => tplOfLen p.1)

theorem tplListed_setWord (d : Dev) {o : Nat} (v : Word) (h : tplOfLen o = none) : (d.setWord o v).tplListed = d.tplListed :=
  filterMap_set tplOfLen _ _ _ _ h

theorem tplListed_put (d : Dev) {f : Fld} (v : Nat) (h : tplOfLen f.off = none) : (d.put f v).tplListed = d.tplListed := tplListed_setWord d _ h

theorem tplOfLen_high {o : Nat} (h : 0x30000 ≤ o) : tplOfLen o = none := if_neg (by omega)

theorem tplOfLen_lt {o t : Nat} (h : tplOfLen o = some t) : t < 256 := by
  unfold tplOfLen at h
  split at h
  · cases h; omega
  · cases h

theorem tplListed_lt {d : Dev} {t : Nat} (h : t ∈ d.tplListed) : t < 256 := by
  obtain ⟨p, -, hp⟩ := List.mem_filterMap.1 h
  exact tplOfLen_lt hp

/-! ## Regions closed to writes (R133, R155) -/

/-- The calendars and pages are those of two devices whose registers of the quadrants agree. -/
theorem tplPages_congr {d e : Dev} (hl : e.tplListed = d.tplListed) (hg : ∀ g : Fld, g.off < 0x30000 → e.get g = d.get g) : e.tplPages = d.tplPages := by
  show e.tplListed.flatMap _ = d.tplListed.flatMap _
  rw [hl]
  refine List.flatMap_congr fun t ht => ?_
  have ht := tplListed_lt ht
  have h0 : (TPL_PAGE0_BASE t).off < 0x30000 := by simp only [TPL_PAGE0_BASE, TPL_PAGE0]; omega
  have h1 : (TPL_PAGE1_BASE t).off < 0x30000 := by simp only [TPL_PAGE1_BASE, TPL_PAGE1]; omega
  have h2 : TPL_LEN t < 0x30000 := by simp only [TPL_LEN]; omega
  rw [hg _ h0, hg _ h1, hg (TPL_LEN_LEN0 t) h2, hg (TPL_LEN_LEN1 t) h2]

theorem firstIdx_congr {p p' : Nat → Bool} (n : Nat) : ∀ i, (∀ k, i ≤ k → k < i + n → p k = p' k) → firstIdx p i n = firstIdx p' i n := by
  induction n with
  | zero => intro i _; rfl
  | succ n ih =>
    intro i h
    unfold firstIdx
    rw [h i (by omega) (by omega), ih (i + 1) (fun k h1 h2 => h k (by omega) (by omega))]

theorem calendarOf_congr {d e : Dev} (hg : ∀ g : Fld, g.off < 0x30000 → e.get g = d.get g) (w : Nat) : e.calendarOf w = d.calendarOf w := by
  unfold Dev.calendarOf
  refine firstIdx_congr 4 0 fun q _ hq => ?_
  have h0 : (COACH_REGBASE_BASE q).off < 0x30000 := by simp only [COACH_REGBASE_BASE, COACH_REGBASE]; omega
  have h1 : (COACH_REGSIZE_SIZE q).off < 0x30000 := by simp only [COACH_REGSIZE_SIZE, COACH_REGSIZE]; omega
  rw [hg _ h0, hg _ h1]

/-- The pages that hold word `w`. -/
def Dev.pagesAt (d : Dev) (w : Nat) : List (Nat × Nat × Nat × Nat) :=
  d.tplPages.filter (fun x => decide (x.2.2.1 ≤ w ∧ w < x.2.2.1 + x.2.2.2))

theorem regionDrop_eq_none_iff (d : Dev) (w : Nat) : d.regionDrop w = none ↔ d.calendarOf w = none ∧ d.pagesAt w = [] := by
  unfold Dev.regionDrop
  cases d.calendarOf w with
  | some q => simp
  | none =>
    simp only [Dev.pagesAt, true_and]
    split
    · rename_i h; simpa using h
    · rename_i h; simpa using h

theorem regionDrop_none_congr {d e : Dev} (hl : e.tplListed = d.tplListed) (hg : ∀ g : Fld, g.off < 0x30000 → e.get g = d.get g) (w : Nat) :
    e.regionDrop w = none ↔ d.regionDrop w = none := by
  rw [regionDrop_eq_none_iff, regionDrop_eq_none_iff, calendarOf_congr hg, Dev.pagesAt, tplPages_congr hl hg, Dev.pagesAt]

theorem region_wr_mem {q : Nat} (h : q < 4) : COACH_REGION_WR_CNT q ∈ memDropFields := by
  simp only [memDropFields, List.mem_append, List.mem_cons, List.mem_map, List.mem_range]
  exact .inl (.inr ⟨q, h, rfl⟩)

theorem wr_drop_mem {t : Nat} (h : t < 256) : TPL_STATUS_WR_DROP t ∈ memDropFields := by
  simp only [memDropFields, List.mem_append, List.mem_map, List.mem_range]
  exact .inr ⟨t, h, rfl⟩

theorem calendarOf_lt {d : Dev} {w q : Nat} (h : d.calendarOf w = some q) : q < 4 := by
  have go : ∀ (p : Nat → Bool) (n i : Nat), firstIdx p i n = some q → q < i + n := by
    intro p n
    induction n with
    | zero => intro i h; cases h
    | succ n ih =>
      intro i h
      unfold firstIdx at h
      split at h
      · cases h; omega
      · have := ih (i + 1) h; omega
  have := go _ _ _ h
  omega

theorem tplPages_template_lt {d : Dev} {x : Nat × Nat × Nat × Nat} (h : x ∈ d.tplPages) : x.1 < 256 := by
  obtain ⟨t, ht, hx⟩ := List.mem_flatMap.1 h
  have := tplListed_lt ht
  simp only [List.mem_cons, List.not_mem_nil, or_false] at hx
  rcases hx with rfl | rfl <;> exact this

theorem forRange_frame (ps : List Part) (fs : List Fld) (f : Nat → Dev → Dev) (n i : Nat)
    (h : ∀ k, i ≤ k → k < i + n → ∀ d, Dev.Frame ps fs d (f k d)) (d : Dev) : Dev.Frame ps fs d (forRange f i n d) := by
  induction n generalizing i d with
  | zero => exact Dev.Frame.refl _ _ _
  | succ n ih => exact (h i (by omega) (by omega) d).trans (ih (i + 1) (fun k h1 h2 => h k (by omega) (by omega)) _)

/-- R133, R155: a write that is dropped is counted by its regions and nowhere else. -/
theorem regionDrop_frame {d e : Dev} {w : Nat} (h : d.regionDrop w = some e) : Dev.Frame [] memDropFields d e := by
  unfold Dev.regionDrop at h
  split at h
  · rename_i q hq
    cases h
    exact Dev.incSat_frame _ _ _ (fit rfl) (region_wr_mem (calendarOf_lt hq))
  · dsimp only at h
    split at h
    · cases h
    · cases h
      refine Dev.Frame.trans (forRange_frame _ _ _ 4 0 (fun q _ hq d => ?_) d) (Dev.foldl_frame _ _ _ _ (fun x hx d => ?_) _)
      · exact Dev.Frame.ite (fun _ => Dev.incSat_frame _ _ _ (fit rfl) (region_wr_mem (by omega))) (fun _ => Dev.Frame.refl _ _ _)
      · exact Dev.Frame.ite (fun _ => Dev.Frame.refl _ _ _)
          (fun _ => Dev.raise_frame _ _ _ (fit rfl) (wr_drop_mem (tplPages_template_lt (List.mem_of_mem_filter hx))))

/-- A part that a frame leaves alone. -/
theorem Dev.Frame.part {ps : List Part} {fs : List Fld} {d e : Dev} (h : Dev.Frame ps fs d e) (p : Part) (hp : p ∉ ps) :
    p.same { State.reset with dev := d } { State.reset with dev := e } := (h State.reset).1 p hp

theorem regionDrop_mc {d e : Dev} {w : Nat} (h : d.regionDrop w = some e) : e.mc = d.mc := (regionDrop_frame h).part .mc (by decide)

/-! ## Where a word lies (R306, R324, R326) -/

/-- Every word lies where it did. -/
def Dev.sameCells (d e : Dev) : Prop := (∀ w, e.memCell w = d.memCell w) ∧ ∀ w, e.memMirror w = d.memMirror w

theorem Dev.sameCells.memLoc {d e : Dev} (h : d.sameCells e) (w : Nat) : e.memLoc w = d.memLoc w := by
  rw [Dev.memLoc, Dev.memLoc, h.1, h.2]

theorem Dev.sameCells.memSide {d e : Dev} (h : d.sameCells e) (w side : Nat) : e.memSide w side = d.memSide w side := by
  rw [Dev.memSide, Dev.memSide, h.2]

/-- The map depends on the sparing registers and on the state of a copy and of a borrowing. -/
theorem sameCells_of {d e : Dev} (hu : e.get MEM_STATUS_SPARE_USED = d.get MEM_STATUS_SPARE_USED)
    (hf : e.get MEM_STATUS_SPAREFOR = d.get MEM_STATUS_SPAREFOR) (hp : e.get MEM_SPAREPTR_P = d.get MEM_SPAREPTR_P) (hc : e.mc.copy = d.mc.copy)
    (hb : e.mc.borrow = d.mc.borrow) (hm : e.mc.mirrored = d.mc.mirrored) : d.sameCells e :=
  ⟨fun w => by rw [Dev.memCell, Dev.memCell, Dev.flag, Dev.flag, hu, hf, hp, hc], fun w => by rw [Dev.memMirror, Dev.memMirror, hb, hm]⟩

theorem Dev.sameCells.refl (d : Dev) : d.sameCells d := ⟨fun _ => rfl, fun _ => rfl⟩

theorem Dev.sameCells.trans {d e f : Dev} (h : d.sameCells e) (k : e.sameCells f) : d.sameCells f :=
  ⟨fun w => (k.1 w).trans (h.1 w), fun w => (k.2 w).trans (h.2 w)⟩

/-- R306: a bank word lies in one of the 17 banks. -/
theorem memCell_bank (d : Dev) (w : Nat) : d.memCell w / 2 ^ 18 ≤ 16 := by
  have key : ∀ b i : Nat, b ≤ 16 → i < 2 ^ 18 → (b * 2 ^ 18 + i) / 2 ^ 18 ≤ 16 := fun b i hb hi => by omega
  have hi : w / 16 % 2 ^ 18 < 2 ^ 18 := Nat.mod_lt _ (by decide)
  unfold Dev.memCell
  dsimp only
  exact key _ _ (by split_ifs <;> omega) hi

/-! ## Reports of an error -/

/-- What a report of an error in stacked memory leaves alone: beside the registers `fs`, the record unit and the service unit, it touches only
what sparing needs; no word moves, and no region opens or closes. -/
structure Dev.Reports (fs : List Fld) (d e : Dev) : Prop where
  frame : Dev.Frame [.mc, .ru, .svc] fs d e
  listed : e.tplListed = d.tplListed
  cells : d.sameCells e
  reqs : e.mc.reqs = d.mc.reqs
  slots : e.mc.slots = d.mc.slots
  results : e.mc.results = d.mc.results
  wback : e.mc.wback = d.mc.wback
  touched : e.mc.touched = d.mc.touched

namespace Dev.Reports

theorem refl (fs : List Fld) (d : Dev) : Dev.Reports fs d d := ⟨Dev.Frame.refl _ _ _, rfl, Dev.sameCells.refl d, rfl, rfl, rfl, rfl, rfl⟩

theorem trans {fs : List Fld} {d e f : Dev} (h : Dev.Reports fs d e) (k : Dev.Reports fs e f) : Dev.Reports fs d f :=
  ⟨h.frame.trans k.frame, k.listed.trans h.listed, h.cells.trans k.cells, k.reqs.trans h.reqs, k.slots.trans h.slots, k.results.trans h.results,
    k.wback.trans h.wback, k.touched.trans h.touched⟩

theorem widen {fs gs : List Fld} {d e : Dev} (h : Dev.Reports fs d e) (hf : ∀ f ∈ fs, f ∈ gs ∨ whole f.off ∈ gs ∧ f.lo + f.w ≤ 32) :
    Dev.Reports gs d e := { h with frame := h.frame.widen (fun _ hp => hp) hf }

/-- A field of a register that takes no part in sparing. -/
theorem put {fs : List Fld} (d : Dev) {f : Fld} (v : Nat) (hw : f.lo + f.w ≤ 32) (hf : f ∈ fs) (hl : tplOfLen f.off = none)
    (hu : f.apart MEM_STATUS_SPARE_USED) (hs : f.apart MEM_STATUS_SPAREFOR) (hp : f.apart MEM_SPAREPTR_P) : Dev.Reports fs d (d.put f v) :=
  ⟨Dev.put_frame _ d f v hw hf, tplListed_put d v hl,
    sameCells_of (Dev.get_put_ne d v hw hu) (Dev.get_put_ne d v hw hs) (Dev.get_put_ne d v hw hp) rfl rfl rfl, rfl, rfl, rfl, rfl, rfl⟩

/-- A field that lies in another register than those of sparing. -/
theorem put_elsewhere {fs : List Fld} (d : Dev) {f : Fld} (v : Nat) (hw : f.lo + f.w ≤ 32) (hf : whole f.off ∈ fs) (hl : 0x30000 ≤ f.off)
    (hs : f.off ≠ MEM_STATUS) (hp : f.off ≠ MEM_SPAREPTR) : Dev.Reports fs d (d.put f v) :=
  ⟨Dev.put_whole _ d f v hw hf, tplListed_put d v (tplOfLen_high hl), sameCells_of (Dev.get_put_ne d v hw (.inl hs)) (Dev.get_put_ne d v hw (.inl hs))
    (Dev.get_put_ne d v hw (.inl hp)) rfl rfl rfl, rfl, rfl, rfl, rfl, rfl⟩

theorem setWord_elsewhere {fs : List Fld} (d : Dev) {o : Nat} (v : Word) (hf : whole o ∈ fs) (hl : 0x30000 ≤ o) (hs : o ≠ MEM_STATUS)
    (hp : o ≠ MEM_SPAREPTR) : Dev.Reports fs d (d.setWord o v) :=
  ⟨Dev.setWord_frame _ d o v hf, tplListed_setWord d v (tplOfLen_high hl), sameCells_of (Dev.get_setWord_ne d v hs.symm) (Dev.get_setWord_ne d v hs.symm)
    (Dev.get_setWord_ne d v hp.symm) rfl rfl rfl, rfl, rfl, rfl, rfl, rfl⟩

theorem svc (fs : List Fld) (d : Dev) (x : Svc) : Dev.Reports fs d { d with svc := x } :=
  ⟨Dev.svc_frame _ d x (by decide), rfl, sameCells_of rfl rfl rfl rfl rfl rfl, rfl, rfl, rfl, rfl, rfl⟩

theorem spineRecNow (fs : List Fld) (d : Dev) (a b c e f g : Nat) : Dev.Reports fs d (d.spineRecNow a b c e f g) :=
  ⟨Dev.spineRecNow_frame _ d a b c e f g (by decide), rfl, sameCells_of rfl rfl rfl rfl rfl rfl, rfl, rfl, rfl, rfl, rfl⟩

theorem flog {fs : List Fld} (d : Dev) (a b c e f : Nat) (hs : whole SVC_FLOG_SEQ ∈ fs) (hl : whole SVC_FLOG_LOST ∈ fs) :
    Dev.Reports fs d (d.flog a b c e f) := by
  unfold Dev.flog
  split
  · exact svc _ _ _
  · exact svc _ _ _
  · split
    · exact (svc _ _ _).trans (put_elsewhere (f := SVC_FLOG_SEQ_SEQ) _ _ (fit rfl) hs (by decide) (by decide) (by decide))
    · exact ((svc _ _ _).trans (put_elsewhere (f := SVC_FLOG_LOST_CNT) _ _ (fit rfl) hl (by decide) (by decide) (by decide))).trans
        (spineRecNow _ _ _ _ _ _ _ _)

/-- The counts that a report keeps for itself. -/
theorem ceRec (fs : List Fld) (d : Dev) (x : Tab Nat) : Dev.Reports fs d { d with mc := { d.mc with ceRec := x } } :=
  ⟨Dev.mc_frame _ d _ (by decide), rfl, sameCells_of rfl rfl rfl rfl rfl rfl, rfl, rfl, rfl, rfl, rfl⟩

theorem ceWin (fs : List Fld) (d : Dev) (x : Tab (List Nat)) : Dev.Reports fs d { d with mc := { d.mc with ceWin := x } } :=
  ⟨Dev.mc_frame _ d _ (by decide), rfl, sameCells_of rfl rfl rfl rfl rfl rfl, rfl, rfl, rfl, rfl, rfl⟩

theorem waiting (fs : List Fld) (d : Dev) (x : List Nat) : Dev.Reports fs d { d with mc := { d.mc with waiting := x } } :=
  ⟨Dev.mc_frame _ d _ (by decide), rfl, sameCells_of rfl rfl rfl rfl rfl rfl, rfl, rfl, rfl, rfl, rfl⟩

end Dev.Reports

/-- The registers that a report writes beside the count of its error (R314, R323). -/
def memNoteFields : List Fld :=
  [MEM_STATUS_NOSPARE, MEM_STATUS_COPYING, whole MEM_SPAREPTR, whole MEM_ERRADDR, whole MEM_ERRINFO, whole MEM_ERRSYN, whole MEM_ERRTIME_LO,
   whole MEM_ERRTIME_HI] ++ flogFields

/-- A copy that starts has its pointer at 0: no word lies on the spare yet (R324). -/
theorem startCopy_cells (d : Dev) (b : Nat) (hu : d.flag MEM_STATUS_SPARE_USED = false) (hc : d.mc.copy = none) :
    d.sameCells ((({ d with mc := { d.mc with copy := some b } }).raise MEM_STATUS_COPYING).put MEM_SPAREPTR_P 0) := by
  refine ⟨fun w => ?_, fun w => by rw [Dev.memMirror, Dev.raise_eq, Dev.put_mc, Dev.put_mc, Dev.memMirror]⟩
  have hused : ((({ d with mc := { d.mc with copy := some b } } : Dev).raise MEM_STATUS_COPYING).put MEM_SPAREPTR_P 0).flag MEM_STATUS_SPARE_USED = false := by
    rw [Dev.flag, Dev.get_put_ne _ _ (fit rfl) (apart_of rfl), Dev.raise_eq, Dev.get_put_ne _ _ (fit rfl) (apart_of rfl)]
    exact hu
  have hptr : ((({ d with mc := { d.mc with copy := some b } } : Dev).raise MEM_STATUS_COPYING).put MEM_SPAREPTR_P 0).get MEM_SPAREPTR_P = 0 := by
    rw [Dev.get_put_same _ _ _ (fit rfl)]
    rfl
  rw [Dev.memCell, Dev.memCell, hused, hptr, hu, hc]
  simp

/-- R323, R325: a spare trigger. -/
theorem spareTrigger_reports (d : Dev) (b : Nat) : Dev.Reports memNoteFields d (d.spareTrigger b) := by
  have seq : whole SVC_FLOG_SEQ ∈ memNoteFields := by decide
  have lost : whole SVC_FLOG_LOST ∈ memNoteFields := by decide
  unfold Dev.spareTrigger
  split
  · exact Dev.Reports.waiting _ _ _
  · split
    · refine Dev.Reports.trans (Dev.Reports.trans ?_ (Dev.Reports.spineRecNow _ _ _ _ _ _ _ _)) (Dev.Reports.flog _ _ _ _ _ _ seq lost)
      exact Dev.Reports.put _ _ (fit rfl) (by decide) (by decide) (apart_of rfl) (apart_of rfl) (apart_of rfl)
    · rename_i h
      rw [not_or, not_or, Bool.not_eq_true, Bool.not_eq_true, Option.isSome_eq_false_iff, Option.isNone_iff_eq_none] at h
      obtain ⟨hused, hcopy, -⟩ := h
      exact ⟨(Dev.mc_frame _ _ _ (by decide)).trans ((Dev.raise_frame _ _ _ (fit rfl) (by decide)).trans (Dev.put_whole _ _ _ _ (fit rfl) (by decide))),
        (tplListed_put _ _ (by decide)).trans (tplListed_put _ _ (by decide)), startCopy_cells d b hused hcopy, rfl, rfl, rfl, rfl, rfl⟩

/-- R314: the error log takes an error. -/
theorem memLog_reports (d : Dev) (ue : Bool) (w p cls side : Nat) (r : Decoded) : Dev.Reports memNoteFields d (d.memLog ue w p cls side r) := by
  have log {d e : Dev} (h : Dev.Reports memNoteFields d e) (f : Fld) (v : Nat) (hw : Nat.ble (f.lo + f.w) 32 = true)
      (hf : f.off ∈ [MEM_ERRADDR, MEM_ERRINFO, MEM_ERRSYN]) : Dev.Reports memNoteFields d (e.put f v) := by
    refine h.trans (Dev.Reports.put_elsewhere _ _ (fit hw) ?_ ?_ ?_ ?_) <;>
      (revert hf; generalize f.off = o; revert o; decide)
  unfold Dev.memLog
  split
  · exact Dev.Reports.refl _ _
  · refine Dev.Reports.trans ?_ (Dev.Reports.trans (Dev.Reports.setWord_elsewhere _ _ (by decide) (by decide) (by decide) (by decide))
      (Dev.Reports.setWord_elsewhere _ _ (by decide) (by decide) (by decide) (by decide)))
    exact log (log (log (log (log (log (log (log (log (log (Dev.Reports.refl _ d) MEM_ERRADDR_ADDR _ rfl (by decide)) MEM_ERRINFO_VALID _ rfl (by decide))
      MEM_ERRINFO_UE _ rfl (by decide)) MEM_ERRINFO_CLASS _ rfl (by decide)) MEM_ERRINFO_PBANK _ rfl (by decide)) MEM_ERRINFO_SIDE _ rfl (by decide))
      MEM_ERRINFO_SYMBOL _ rfl (by decide)) MEM_ERRSYN_S2 _ rfl (by decide)) MEM_ERRSYN_S1 _ rfl (by decide)) MEM_ERRSYN_S0 _ rfl (by decide)

/-- R314: a corrected error of physical bank `p` is recorded, at most once per CEREC ms. -/
def Dev.ceRecorded (d : Dev) (p : Nat) (pay : Nat × Nat × Nat) : Dev :=
  if Tab.get 0 d.mc.ceRec p = 0 ∨ Tab.get 0 d.mc.ceRec p - 1 + msTicks (d.get MEM_CTL_CEREC) ≤ d.tick then
    ({ d with mc := { d.mc with ceRec := Tab.set 0 d.mc.ceRec p (d.tick + 1) } }).spineRecNow 0x12 0 p pay.1 pay.2.1 pay.2.2
  else d

/-- R323: the corrected errors of physical bank `p` within the window, with the one of now. -/
def Dev.ceWindow (d : Dev) (p : Nat) : List Nat :=
  (Tab.get [] d.mc.ceWin p).filter (fun t => d.tick < t + max 1 (d.get MEM_SPARECFG_WINDOW) * 800000000) ++ [d.tick]

/-- R323: the threshold for sparing is met. -/
def Dev.ceHit (d : Dev) (p : Nat) : Bool :=
  decide (0 < d.get MEM_SPARECFG_THR ∧ d.get MEM_SPARECFG_THR ≤ (d.ceWindow p).length) && d.flag MEM_CTL_AUTO

/-- The state with the window of physical bank `p` set. -/
def Dev.setWindow (d : Dev) (p : Nat) (l : List Nat) : Dev := { d with mc := { d.mc with ceWin := Tab.set [] d.mc.ceWin p l } }

/-- R323: a corrected error of physical bank `p` is measured against the threshold for sparing. -/
def Dev.ceMeasured (d : Dev) (p : Nat) : Dev :=
  let e := d.setWindow p (if d.ceHit p then [] else d.ceWindow p)
  match d.ceHit p, e.memServes p with
  | true, some b => e.spareTrigger b
  | _, _ => e

theorem memCe_eq (d : Dev) (w p cls side : Nat) (r : Decoded) : d.memCe w p cls side r =
    ((((d.raise MEM_STATUS_CE).incSat (CECNT_CECNT_CNT p)).memLog false w p cls side r).ceRecorded p (memPay w cls side r none)).ceMeasured p := rfl

theorem ceRecorded_reports (d : Dev) (p : Nat) (pay : Nat × Nat × Nat) : Dev.Reports memNoteFields d (d.ceRecorded p pay) := by
  unfold Dev.ceRecorded
  split
  · exact (Dev.Reports.ceRec _ _ _).trans (Dev.Reports.spineRecNow _ _ _ _ _ _ _ _)
  · exact Dev.Reports.refl _ _

theorem ceMeasured_reports (d : Dev) (p : Nat) : Dev.Reports memNoteFields d (d.ceMeasured p) := by
  have window := fun l => Dev.Reports.ceWin memNoteFields d (Tab.set [] d.mc.ceWin p l)
  unfold Dev.ceMeasured
  dsimp only
  split
  · exact (window _).trans (spareTrigger_reports _ _)
  · exact window _

/-- R314: what a corrected error does after it has been counted. -/
theorem memCe_note (d : Dev) (w p cls side : Nat) (r : Decoded) :
    Dev.Reports memNoteFields ((d.raise MEM_STATUS_CE).incSat (CECNT_CECNT_CNT p)) (d.memCe w p cls side r) := by
  rw [memCe_eq]
  exact ((memLog_reports _ _ _ _ _ _ _).trans (ceRecorded_reports _ _ _)).trans (ceMeasured_reports _ _)

/-- R312, R314: what an uncorrectable error does after it has been counted. -/
theorem memUe_note (d : Dev) (w p cls side : Nat) (r : Decoded) (quad : Option Nat) :
    Dev.Reports memNoteFields ((d.raise MEM_STATUS_UE).incSat MEM_UECNT_CNT) (d.memUe w p cls side r quad) := by
  unfold Dev.memUe
  dsimp only
  have told := ((memLog_reports ((d.raise MEM_STATUS_UE).incSat MEM_UECNT_CNT) true w p cls side r).trans
    (Dev.Reports.spineRecNow _ _ 0x12 1 p (memPay w cls side r quad).1 (memPay w cls side r quad).2.1 (memPay w cls side r quad).2.2)).trans
    (Dev.Reports.flog _ 0x30 4 p (memPay w cls side r quad).1 (memPay w cls side r quad).2.1 (by decide) (by decide))
  split
  · exact told.trans (spareTrigger_reports _ _)
  · exact told

theorem memNoteFields_covered : ∀ f ∈ memNoteFields, f ∈ memErrFields ∨ whole f.off ∈ memErrFields ∧ f.lo + f.w ≤ 32 := by decide

theorem ceCount_mem {p : Nat} (hp : p ≤ 16) : CECNT_CECNT_CNT p ∈ memErrFields := by
  simp only [memErrFields, List.mem_append, List.mem_map, List.mem_range]
  exact .inl (.inr ⟨p, by omega, rfl⟩)

theorem memCe_reports (d : Dev) (w cls side : Nat) {p : Nat} (r : Decoded) (hp : p ≤ 16) : Dev.Reports memErrFields d (d.memCe w p cls side r) := by
  have hoff : (CECNT_CECNT_CNT p).off = 0x30040 + p * 4 := rfl
  refine Dev.Reports.trans (Dev.Reports.trans (e := d.raise MEM_STATUS_CE) ?_ ?_) ((memCe_note d w p cls side r).widen memNoteFields_covered)
  · exact (Dev.Reports.put (fs := [MEM_STATUS_CE]) d (f := MEM_STATUS_CE) 1 (fit rfl) (by decide) (by decide) (apart_of rfl) (apart_of rfl) (apart_of rfl)).widen (by decide)
  · exact Dev.Reports.put_elsewhere _ _ (fit rfl) (ceCount_mem hp) (by omega) (by simp only [hoff, MEM_STATUS]; omega)
      (by simp only [hoff, MEM_SPAREPTR]; omega)

theorem memUe_reports (d : Dev) (w p cls side : Nat) (r : Decoded) (quad : Option Nat) :
    Dev.Reports memErrFields d (d.memUe w p cls side r quad) := by
  refine Dev.Reports.trans (Dev.Reports.trans (e := d.raise MEM_STATUS_UE) ?_ ?_) ((memUe_note d w p cls side r quad).widen memNoteFields_covered)
  · exact (Dev.Reports.put (fs := [MEM_STATUS_UE]) d (f := MEM_STATUS_UE) 1 (fit rfl) (by decide) (by decide) (apart_of rfl) (apart_of rfl) (apart_of rfl)).widen (by decide)
  · exact Dev.Reports.put_elsewhere _ _ (fit rfl) (by decide) (by decide) (by decide) (by decide)

/-- R314: a corrected error is shown and counted. -/
theorem memCe_counted (d : Dev) (w cls side : Nat) {p : Nat} (r : Decoded) (hp : p ≤ 16) : (d.memCe w p cls side r).get MEM_STATUS_CE = 1 ∧
    (d.memCe w p cls side r).get (CECNT_CECNT_CNT p) = min (d.get (CECNT_CECNT_CNT p) + 1) (2 ^ 32 - 1) := by
  have hoff : (CECNT_CECNT_CNT p).off = 0x30040 + p * 4 := rfl
  have hapart : ∀ f ∈ memNoteFields, f.apart (CECNT_CECNT_CNT p) := by
    have hout : ∀ f ∈ memNoteFields, f.off < 0x30040 ∨ 0x30084 ≤ f.off := by decide
    intro f hf
    refine .inl ?_
    have := hout f hf
    omega
  have hcnt : Fld.apart MEM_STATUS_CE (CECNT_CECNT_CNT p) := .inl (by rw [hoff]; simp only [MEM_STATUS_CE, MEM_STATUS]; omega)
  rw [(memCe_note d w p cls side r).frame.get _ (apart_all rfl), (memCe_note d w p cls side r).frame.get _ hapart, Dev.incSat_eq,
    Dev.get_put_ne _ _ (fit rfl) (Fld.apart_symm hcnt), Dev.get_put_same _ _ _ (fit rfl), Dev.raise_eq, Dev.get_put_same _ _ _ (fit rfl),
    Dev.get_put_ne _ _ (fit rfl) hcnt]
  exact ⟨rfl, Nat.mod_eq_of_lt (lt_of_le_of_lt (Nat.min_le_right _ _) (Nat.sub_lt (Nat.two_pow_pos _) Nat.one_pos))⟩

/-- R314: an uncorrectable error is shown and counted. -/
theorem memUe_counted (d : Dev) (w p cls side : Nat) (r : Decoded) (quad : Option Nat) : (d.memUe w p cls side r quad).get MEM_STATUS_UE = 1 ∧
    (d.memUe w p cls side r quad).get MEM_UECNT_CNT = min (d.get MEM_UECNT_CNT + 1) (2 ^ 32 - 1) := by
  rw [(memUe_note d w p cls side r quad).frame.get _ (apart_all rfl), (memUe_note d w p cls side r quad).frame.get _ (apart_all rfl), Dev.incSat_eq,
    Dev.get_put_ne _ _ (fit rfl) (apart_of rfl), Dev.get_put_same _ _ _ (fit rfl), Dev.raise_eq, Dev.get_put_same _ _ _ (fit rfl),
    Dev.get_put_ne _ _ (fit rfl) (apart_of rfl)]
  exact ⟨rfl, Nat.mod_eq_of_lt (lt_of_le_of_lt (Nat.min_le_right _ _) (Nat.sub_lt (Nat.two_pow_pos _) Nat.one_pos))⟩

end Sys2Proof.Machine
end

section
/-! PROOF. What an access to stacked memory finds, stores and reports (R307, R310 to R314, R318), and which request a bank serves (R20, R308). -/

namespace Sys2Proof.Machine

/-! ## The request that is next (R20, R308) -/

theorem firstIdx_eq_some {p : Nat → Bool} {n i c : Nat} (h : firstIdx p i n = some c) :
    p c = true ∧ i ≤ c ∧ c < i + n ∧ ∀ j, i ≤ j → j < c → p j = false := by
  induction n generalizing i with
  | zero => cases h
  | succ n ih =>
    unfold firstIdx at h
    split at h
    · rename_i hp
      cases h
      exact ⟨hp, Nat.le_refl _, by omega, fun j h1 h2 => by omega⟩
    · rename_i hp
      obtain ⟨h1, h2, h3, h4⟩ := ih h
      refine ⟨h1, by omega, by omega, fun j hj hjc => ?_⟩
      by_cases hji : j = i
      · rw [hji]; exact Bool.not_eq_true _ ▸ hp
      · exact h4 j (by omega) hjc

/-- R20: the class granted is the highest that waits, or one that has had none of the last 15 grants. -/
theorem memGrant_spec {d : Dev} {b c : Nat} (h : d.memGrant b = some c) :
    (∀ y ∈ d.mc.reqs, y.word % 16 = b → c ≤ y.who.cls) ∨ (15 ≤ (Tab.get [] d.mc.slots b).length ∧ c ∉ Tab.get [] d.mc.slots b) := by
  unfold Dev.memGrant at h
  dsimp only at h
  split at h
  · rename_i c' hc
    cases h
    obtain ⟨hp, -⟩ := firstIdx_eq_some hc
    simp only [Bool.and_eq_true, decide_eq_true_eq, Bool.not_eq_eq_eq_not, Bool.not_true, List.contains_eq_mem, decide_eq_false_iff_not] at hp
    exact .inr ⟨hp.1.2, hp.2⟩
  · refine .inl fun y hy hb => ?_
    obtain ⟨-, -, -, hleast⟩ := firstIdx_eq_some h
    by_contra hlt
    have := hleast y.who.cls (Nat.zero_le _) (by omega)
    rw [List.contains_eq_mem, decide_eq_false_iff_not] at this
    exact this (List.mem_map.2 ⟨y, List.mem_filter.2 ⟨hy, by simp [hb]⟩, rfl⟩)

/-- R308: the request served is the oldest of the class granted. -/
theorem memNext_spec {d : Dev} {b : Nat} {r : MemReq} (h : d.memNext b = some r) : r.word % 16 = b ∧
    (∃ l m, d.mc.reqs = l ++ r :: m ∧ ∀ y ∈ l, y.word % 16 = b → y.who.cls ≠ r.who.cls) ∧
    ((∀ y ∈ d.mc.reqs, y.word % 16 = b → r.who.cls ≤ y.who.cls) ∨
      (15 ≤ (Tab.get [] d.mc.slots b).length ∧ r.who.cls ∉ Tab.get [] d.mc.slots b)) := by
  unfold Dev.memNext at h
  split at h
  · rename_i c hc
    obtain ⟨hr, l, m, hsplit, hl⟩ := List.find?_eq_some_iff_append.1 h
    simp only [Bool.and_eq_true, beq_iff_eq] at hr
    obtain ⟨hb, hcls⟩ := hr
    refine ⟨hb, ⟨l, m, hsplit, fun y hy hyb hyc => ?_⟩, by rw [hcls]; exact memGrant_spec hc⟩
    have := hl y hy
    simp [hyb, hyc, hcls] at this
  · cases h

/-! ## A request that is taken -/

/-- The memory controller once `r` has left the queue of its bank (R20, R307). -/
def MemCtl.took (m : MemCtl) (r : MemReq) : MemCtl :=
  { m with
    reqs := removeFirst r m.reqs
    slots := Tab.set [] m.slots (r.word % 16) ((List.replicate r.slots r.who.cls ++ Tab.get [] m.slots (r.word % 16)).take 15) }

@[simp] theorem memTake_mc (d : Dev) (r : MemReq) : (d.memTake r).mc = d.mc.took r := rfl
@[simp] theorem memTake_get (d : Dev) (r : MemReq) (f : Fld) : (d.memTake r).get f = d.get f := rfl
@[simp] theorem memTake_tick (d : Dev) (r : MemReq) : (d.memTake r).tick = d.tick := rfl
@[simp] theorem memTake_memLoc (d : Dev) (r : MemReq) (w : Nat) : (d.memTake r).memLoc w = d.memLoc w := rfl
@[simp] theorem memTake_memCell (d : Dev) (r : MemReq) (w : Nat) : (d.memTake r).memCell w = d.memCell w := rfl
@[simp] theorem memTake_touches (d : Dev) (r : MemReq) (b : Bool) (w : Nat) : (d.memTake r).touches b w = d.touches b w := rfl

theorem memTake_frame {ps : List Part} (fs : List Fld) (d : Dev) (r : MemReq) (hp : Part.mc ∈ ps) : Dev.Frame ps fs d (d.memTake r) :=
  Dev.mc_frame fs d _ hp

theorem memTake_region (d : Dev) (r : MemReq) (w : Nat) : (d.memTake r).regionDrop w = none ↔ d.regionDrop w = none :=
  regionDrop_none_congr (d := d) (e := d.memTake r) rfl (fun _ _ => rfl) w

theorem memAnswer_frame {ps : List Part} (fs : List Fld) (d : Dev) (who : MemWho) (v : Nat) (err : Bool) (hp : Part.mc ∈ ps) :
    Dev.Frame ps fs d (d.memAnswer who v err) := Dev.mc_frame fs d _ hp

/-! ## Which rows act (R308, R324) -/

/-- Logical bank `b` serves a request of kind `k` now. -/
def State.bankActs (s : State) (b k : Nat) : Prop :=
  s.dev.memUp = true ∧ ∃ r, s.dev.memNext b = some r ∧ s.dev.copyAt ≠ some r.word ∧ r.kind = k

theorem bankServe_idle {s : State} {b k : Nat} (flip : BitVec 152) (h : ¬ s.bankActs b k) : s.bankServe b k flip = s := by
  unfold State.bankServe
  split
  · rename_i r hup hnext
    exact if_neg fun ⟨hk, hc⟩ => h ⟨hup, r, hnext, hc, hk⟩
  · rfl

theorem bankServe_acts {s : State} {b : Nat} {r : MemReq} (flip : BitVec 152) (hup : s.dev.memUp = true) (hnext : s.dev.memNext b = some r)
    (hc : s.dev.copyAt ≠ some r.word) : s.bankServe b r.kind flip = s.memServe r flip := by
  unfold State.bankServe
  rw [hup, hnext]
  exact if_pos ⟨rfl, hc⟩

/-! ## A read (R310, R312, R314) -/

/-- The state with physical words that wait to be written back. -/
def Dev.addWback (d : Dev) (l : List Nat) : Dev := { d with mc := { d.mc with wback := d.mc.wback ++ l } }

theorem addWback_nil (d : Dev) : d.addWback [] = d := by rw [Dev.addWback, List.append_nil]

theorem addWback_frame {ps : List Part} (fs : List Fld) (d : Dev) (l : List Nat) (hp : Part.mc ∈ ps) : Dev.Frame ps fs d (d.addWback l) :=
  Dev.mc_frame fs d _ hp

/-- What a read of word `w` that has found `x` reports. -/
def Dev.reported (d : Dev) (w cls side : Nat) (x : Decoded) : Dev :=
  if x.kind = 0 then d
  else if x.kind = 1 then d.memCe w (d.memCell w / 2 ^ 18) cls (d.memSide w side) x
  else d.memUe w (d.memCell w / 2 ^ 18) cls (d.memSide w side) x none

/-- The physical word that a read which has found `x` leaves to be written back (R311). -/
def Dev.corrected (d : Dev) (k : Nat) (x : Decoded) : List Nat := if x.kind = 1 ∧ d.get MEM_CTL_WBACK = 1 then [k] else []

theorem reported_reports (d : Dev) (w cls side : Nat) (x : Decoded) : Dev.Reports memErrFields d (d.reported w cls side x) := by
  unfold Dev.reported
  split
  · exact Dev.Reports.refl _ _
  · split
    · exact memCe_reports _ _ _ _ _ (memCell_bank d w)
    · exact memUe_reports _ _ _ _ _ _ _

theorem reported_corrected (d : Dev) (w cls side : Nat) {x : Decoded} (h : x.kind = 1) :
    d.reported w cls side x = d.memCe w (d.memCell w / 2 ^ 18) cls (d.memSide w side) x := by
  rw [Dev.reported, if_neg (by omega), if_pos h]

theorem reported_uncorrectable (d : Dev) (w cls side : Nat) {x : Decoded} (h : x.kind = 2) :
    d.reported w cls side x = d.memUe w (d.memCell w / 2 ^ 18) cls (d.memSide w side) x none := by
  rw [Dev.reported, if_neg (by omega), if_neg (by omega)]

/-- A clean word is not reported. -/
theorem reported_clean (d : Dev) (w cls side : Nat) {x : Decoded} (h : x.kind = 0) : d.reported w cls side x = d := if_pos h

/-- R314: the error that a read has found is counted. -/
theorem reported_counted (d : Dev) (w cls side : Nat) (x : Decoded) :
    (x.kind = 1 → (d.reported w cls side x).get MEM_STATUS_CE = 1 ∧ (d.reported w cls side x).get (CECNT_CECNT_CNT (d.memCell w / 2 ^ 18)) =
      min (d.get (CECNT_CECNT_CNT (d.memCell w / 2 ^ 18)) + 1) (2 ^ 32 - 1)) ∧
    (x.kind = 2 → (d.reported w cls side x).get MEM_STATUS_UE = 1 ∧ (d.reported w cls side x).get MEM_UECNT_CNT =
      min (d.get MEM_UECNT_CNT + 1) (2 ^ 32 - 1)) := by
  constructor <;> intro h
  · rw [reported_corrected d w cls side h]
    exact memCe_counted d w cls (d.memSide w side) x (memCell_bank d w)
  · rw [reported_uncorrectable d w cls side h]
    exact memUe_counted d w (d.memCell w / 2 ^ 18) cls (d.memSide w side) x none

theorem flag_iff_one {d : Dev} {f : Fld} (h : f.w = 1) : d.flag f = true ↔ d.get f = 1 := by
  have := Dev.get_lt d f
  rw [h] at this
  rw [Dev.flag_iff]
  omega

/-- R310 to R312: what a read brings back. -/
theorem memFetch_value (s : State) (w cls side : Nat) :
    (s.memFetch w cls side).1 = ((s.mem.read (s.dev.memLoc w)).data, (s.mem.read (s.dev.memLoc w)).kind == 2) := by
  have hle := read_kind_le s.mem (s.dev.memLoc w)
  unfold State.memFetch
  dsimp only
  split
  · rename_i h; simp [h]
  · split
    · rename_i h; simp [h]
    · rename_i h0 h1
      rw [show (s.mem.read (s.dev.memLoc w)).kind = 2 by omega]
      rfl

/-- R311, R312, R314: what a read leaves behind. -/
theorem memFetch_state (s : State) (w cls side : Nat) :
    (s.memFetch w cls side).2 = { s with
      dev := (s.dev.reported w cls side (s.mem.read (s.dev.memLoc w))).addWback
        (s.dev.corrected (s.dev.memLoc w) (s.mem.read (s.dev.memLoc w))) } := by
  unfold State.memFetch Dev.reported Dev.corrected
  dsimp only
  generalize s.mem.read (s.dev.memLoc w) = x
  by_cases h0 : x.kind = 0
  · rw [if_pos h0, if_pos h0, if_neg (by omega), addWback_nil]
  · rw [if_neg h0, if_neg h0]
    by_cases h1 : x.kind = 1
    · rw [if_pos h1, if_pos h1]
      have hwb : (s.dev.memCe w (s.dev.memCell w / 2 ^ 18) cls (s.dev.memSide w side) x).flag MEM_CTL_WBACK = true ↔
          x.kind = 1 ∧ s.dev.get MEM_CTL_WBACK = 1 := by
        rw [flag_iff_one rfl, (memCe_reports s.dev w cls _ x (memCell_bank s.dev w)).frame.get _ (apart_all rfl)]
        simp [h1]
      by_cases hw : x.kind = 1 ∧ s.dev.get MEM_CTL_WBACK = 1
      · rw [if_pos hw, if_pos (hwb.2 hw)]; rfl
      · rw [if_neg hw, if_neg (fun c => hw (hwb.1 c)), addWback_nil]
    · rw [if_neg h1, if_neg h1, if_neg (fun c => h1 c.1), addWback_nil]

/-! ## A write (R307, R311 to R313, R318) -/

/-- The cells after the bytes of the mask have been written to physical word `k`. -/
def MemArr.put (m : MemArr) (k mask v : Nat) : MemArr :=
  if mask = 0xFFFF then m.store k v 0
  else if mask = 0 then m
  else if (m.read k).kind = 2 then m.setPoison k
  else m.store k (mergeBytes mask (m.read k).data v) 0

theorem read_put_ne (m : MemArr) {k j : Nat} (mask v : Nat) (h : j ≠ k) : (m.put k mask v).read j = m.read j := by
  unfold MemArr.put
  split
  · exact read_store_ne _ _ _ h
  · split
    · rfl
    · split
      · exact read_setPoison_ne _ h
      · exact read_store_ne _ _ _ h

theorem read_put_full (m : MemArr) (k v : Nat) : (m.put k 0xFFFF v).read k = { data := v % 2 ^ 128, kind := 0 } := by
  rw [MemArr.put, if_pos rfl, read_store_same]

theorem put_none (m : MemArr) (k v : Nat) : m.put k 0 v = m := rfl

theorem read_put_poisoned (m : MemArr) {k mask : Nat} (v : Nat) (h0 : mask ≠ 0) (hf : mask ≠ 0xFFFF) (hk : (m.read k).kind = 2) :
    ((m.put k mask v).read k).kind = 2 := by
  rw [MemArr.put, if_neg hf, if_neg h0, if_pos hk, read_setPoison_same]

theorem read_put_masked (m : MemArr) {k mask : Nat} (v : Nat) (h0 : mask ≠ 0) (hf : mask ≠ 0xFFFF) (hk : (m.read k).kind ≠ 2) :
    (m.put k mask v).read k = { data := mergeBytes mask (m.read k).data v % 2 ^ 128, kind := 0 } := by
  rw [MemArr.put, if_neg hf, if_neg h0, if_neg hk, read_store_same]

/-- The state once word `k` has been stored: the write is remembered for its tick, and no correction of it waits. -/
def Dev.stored (d : Dev) (k : Nat) (t : Touch) : Dev :=
  { d with mc := { d.mc with wback := d.mc.wback.filter (· != k), touched := t :: d.mc.touched.filter (fun y => y.tick == d.tick) } }

/-- What a write that has found `y` reports before it stores. -/
def Dev.putReported (d : Dev) (w mask cls side : Nat) (y : Decoded) : Dev := if mask = 0xFFFF ∨ mask = 0 then d else d.reported w cls side y

theorem putReported_reports (d : Dev) (w mask cls side : Nat) (y : Decoded) : Dev.Reports memErrFields d (d.putReported w mask cls side y) := by
  unfold Dev.putReported
  split
  · exact Dev.Reports.refl _ _
  · exact reported_reports _ _ _ _ _

theorem stored_frame {ps : List Part} (fs : List Fld) (d : Dev) (k : Nat) (t : Touch) (hp : Part.mc ∈ ps) : Dev.Frame ps fs d (d.stored k t) :=
  Dev.mc_frame fs d _ hp

/-- The write that is remembered. -/
def State.touchOf (s : State) (w mask v side : Nat) : Touch :=
  let y := s.mem.read (s.dev.memLoc w)
  { tick := s.dev.tick, word := w, spine := side == 1, old := (y.data, y.kind == 2), mask, data := v }

theorem Dev.Reports.tick {fs : List Fld} {d e : Dev} (h : Dev.Reports fs d e) : e.tick = d.tick := h.frame.part .tick (by decide)

/-- R307, R311 to R313: a write to word `w`. -/
theorem memPut_eq (s : State) (w mask v cls side : Nat) :
    s.memPut w mask v cls side = { s with
      mem := s.mem.put (s.dev.memLoc w) mask v
      dev := if mask = 0 then s.dev else
        (s.dev.putReported w mask cls side (s.mem.read (s.dev.memLoc w))).stored (s.dev.memLoc w) (s.touchOf w mask v side) } := by
  have hle := read_kind_le s.mem (s.dev.memLoc w)
  have htick := (reported_reports s.dev w cls side (s.mem.read (s.dev.memLoc w))).tick
  unfold State.memPut MemArr.put Dev.putReported State.touchOf
  dsimp only
  by_cases hf : mask = 0xFFFF
  · subst hf
    rfl
  · rw [if_neg hf, if_neg hf]
    by_cases h0 : mask = 0
    · subst h0
      rfl
    · rw [if_neg h0, if_neg h0, if_neg h0, if_neg (not_or.2 ⟨hf, h0⟩)]
      rw [← htick]
      unfold Dev.reported
      by_cases h2 : (s.mem.read (s.dev.memLoc w)).kind = 2
      · rw [if_pos h2, if_pos h2, if_neg (by omega), if_neg (by omega)]
        rfl
      · rw [if_neg h2, if_neg h2]
        by_cases h1 : (s.mem.read (s.dev.memLoc w)).kind = 1
        · rw [if_pos h1, if_neg (by omega), if_pos h1]
          rfl
        · rw [if_neg h1, if_pos (by omega)]
          rfl

end Sys2Proof.Machine
end

section
/-! PROOF. What a bank does for a read, a write and an atomic, and the write-back of a corrected word (R307, R310 to R316, R318). -/

namespace Sys2Proof.Machine

theorem took_eq {m : MemCtl} {r : MemReq} {b : Nat} (hb : r.word % 16 = b) : m.took r = { m with
    reqs := removeFirst r m.reqs
    slots := Tab.set [] m.slots b ((List.replicate (if r.kind = 2 ∨ (r.kind = 1 ∧ r.mask ≠ 0xFFFF) then 2 else 1) r.who.cls ++
      Tab.get [] m.slots b).take 15) } := by
  rw [MemCtl.took, hb]
  rfl

/-! ## Reads -/

theorem serveRead_snap (s : State) {r : MemReq} (flip : BitVec 152) {v : Nat} (h : r.snap = some v) :
    s.serveRead r flip = { s with dev := (s.dev.memTake r).memAnswer r.who v false } := by
  rw [State.serveRead, h]

/-- R318: the value from before a spine-side write of the tick. -/
theorem serveRead_before (s : State) {r : MemReq} (flip : BitVec 152) {l : List Touch} {y : Touch} (h : r.snap = none)
    (ht : s.dev.touches true r.word = l ++ [y]) : s.serveRead r flip =
      { s with mem := s.mem.disturb (s.dev.memLoc r.word) flip, dev := (s.dev.memTake r).memAnswer r.who y.old.1 y.old.2 } := by
  have hfirst : (s.dev.memTake r).readFirst false r.word = some y.old := by
    rw [Dev.readFirst, Bool.not_false, memTake_touches, ht, List.getLast?_concat]
    rfl
  rw [State.serveRead, h]
  dsimp only [State.memDisturb, memTake_memLoc]
  rw [State.memRead]
  dsimp only
  rw [show ((0 : Nat) == 1) = false from rfl, hfirst]

/-- R310: the word as it stands now. -/
theorem serveRead_now (s : State) {r : MemReq} (flip : BitVec 152) (h : r.snap = none) (ht : s.dev.touches true r.word = []) :
    let k := s.dev.memLoc r.word
    let x := (s.mem.disturb k flip).read k
    s.serveRead r flip = { s with
      mem := s.mem.disturb k flip
      dev := (((s.dev.memTake r).reported r.word r.who.cls 0 x).addWback (s.dev.corrected k x)).memAnswer r.who x.data (x.kind == 2) } := by
  have hfirst : (s.dev.memTake r).readFirst false r.word = none := by
    rw [Dev.readFirst, Bool.not_false, memTake_touches, ht]
    rfl
  rw [State.serveRead, h]
  dsimp only [State.memDisturb, memTake_memLoc]
  rw [State.memRead]
  dsimp only
  rw [show ((0 : Nat) == 1) = false from rfl, hfirst]
  dsimp only
  rw [memFetch_value, memFetch_state]
  rfl

/-! ## Writes -/

/-- The device after an engine-side write has met the spine-side writes of its tick (R318). -/
def Dev.metWrite (d : Dev) (r : MemReq) : Dev := if r.at_ == d.tick then d else d.memMeets r.word r.mask r.data

theorem metWrite_reports (d : Dev) (r : MemReq) : Dev.Reports [MEM_COLLCNT_CNT] d (d.metWrite r) := by
  have refl := Dev.Reports.refl [MEM_COLLCNT_CNT] d
  unfold Dev.metWrite Dev.memMeets
  split
  · exact refl
  · split
    · exact Dev.Reports.put_elsewhere d _ (fit rfl) (by decide) (by decide) (by decide) (by decide)
    · exact refl

theorem metWrite_frame (ps : List Part) {fs : List Fld} (d : Dev) (r : MemReq) (hf : MEM_COLLCNT_CNT ∈ fs) : Dev.Frame ps fs d (d.metWrite r) := by
  unfold Dev.metWrite Dev.memMeets
  exact Dev.Frame.ite (fun _ => Dev.Frame.refl _ _ _) (fun _ => Dev.Frame.ite (fun _ => Dev.incSat_frame _ _ _ (fit rfl) hf) (fun _ => Dev.Frame.refl _ _ _))

/-- R318: a collision counts once. -/
theorem metWrite_collisions (d : Dev) (r : MemReq) :
    (d.metWrite r).get MEM_COLLCNT_CNT = if r.at_ ≠ d.tick ∧ ∃ y ∈ d.touches true r.word, clashes r.mask r.data y.mask y.data = true then
      min (d.get MEM_COLLCNT_CNT + 1) (2 ^ 32 - 1) else d.get MEM_COLLCNT_CNT := by
  unfold Dev.metWrite Dev.memMeets
  by_cases ht : r.at_ = d.tick
  · rw [if_pos (by simpa using ht), if_neg (fun c => c.1 ht)]
  · rw [if_neg (by simpa using ht)]
    by_cases hc : ∃ y ∈ d.touches true r.word, clashes r.mask r.data y.mask y.data = true
    · rw [if_pos (List.any_eq_true.2 hc), if_pos ⟨ht, hc⟩, Dev.incSat_eq, Dev.get_put_same _ _ _ (fit rfl)]
      exact Nat.mod_eq_of_lt (lt_of_le_of_lt (Nat.min_le_right _ _) (Nat.sub_lt (Nat.two_pow_pos _) Nat.one_pos))
    · rw [if_neg (fun c => hc (List.any_eq_true.1 c)), if_neg (fun c => hc c.2)]

/-- The write of request `r`, as it is remembered for its tick. -/
def State.touchBy (s : State) (r : MemReq) : Touch :=
  let y := s.mem.read (s.dev.memLoc r.word)
  { tick := s.dev.tick, word := r.word, spine := false, old := (y.data, y.kind == 2), mask := r.mask, data := r.data }

/-- The device after the write of request `r` has passed. -/
def State.wrote (s : State) (r : MemReq) : Dev :=
  let k := s.dev.memLoc r.word
  let d := (s.dev.memTake r).metWrite r
  if r.mask = 0 then d else (d.putReported r.word r.mask r.who.cls 0 (s.mem.read k)).stored k (s.touchBy r)

theorem serveWrite_dropped (s : State) {r : MemReq} {e : Dev} (h : (s.dev.memTake r).regionDrop r.word = some e) :
    s.serveWrite r = { s with dev := e } := by
  rw [State.serveWrite, State.memEngineStore, h]

theorem serveWrite_passed (s : State) {r : MemReq} (h : s.dev.regionDrop r.word = none) :
    s.serveWrite r = { s with mem := s.mem.put (s.dev.memLoc r.word) r.mask r.data, dev := s.wrote r } := by
  have hmet : (if r.at_ == s.dev.tick then s.dev.memTake r else (s.dev.memTake r).memMeets r.word r.mask r.data) = (s.dev.memTake r).metWrite r := rfl
  have hloc : ((s.dev.memTake r).metWrite r).memLoc r.word = s.dev.memLoc r.word := (metWrite_reports _ r).cells.memLoc _
  have htick : ((s.dev.memTake r).metWrite r).tick = s.dev.tick := (metWrite_frame [] (fs := [MEM_COLLCNT_CNT]) _ r (by simp)).part .tick (by decide)
  rw [State.serveWrite, State.memEngineStore, (memTake_region s.dev r r.word).2 h]
  dsimp only
  rw [hmet, memPut_eq, State.touchOf]
  dsimp only
  rw [hloc, htick]
  rfl

section
variable (s : State) (r : MemReq)

/-- What a write reports on its way, before it is remembered. -/
def State.wroteReported (s : State) (r : MemReq) : Dev :=
  ((s.dev.memTake r).metWrite r).putReported r.word r.mask r.who.cls 0 (s.mem.read (s.dev.memLoc r.word))

theorem wrote_none (h : r.mask = 0) : s.wrote r = (s.dev.memTake r).metWrite r := if_pos h

theorem wrote_some (h : r.mask ≠ 0) : s.wrote r = (s.wroteReported r).stored (s.dev.memLoc r.word) (s.touchBy r) := if_neg h

/-- A write, up to what it reports. -/
theorem wroteReported_reports : Dev.Reports (MEM_COLLCNT_CNT :: memErrFields) (s.dev.memTake r) (s.wroteReported r) :=
  ((metWrite_reports _ r).widen (by intro f hf; exact .inl (by simp only [List.mem_singleton] at hf; simp [hf]))).trans
    ((putReported_reports _ _ _ _ _ _).widen (fun f hf => .inl (List.mem_cons_of_mem _ hf)))

theorem wrote_frame : Dev.Frame [.mc, .ru, .svc] (MEM_COLLCNT_CNT :: memErrFields) s.dev (s.wrote r) := by
  refine Dev.Frame.trans (memTake_frame _ _ r (by simp)) ?_
  by_cases h : r.mask = 0
  · rw [wrote_none s r h]
    exact metWrite_frame _ _ _ (by simp)
  · rw [wrote_some s r h]
    exact (wroteReported_reports s r).frame.trans (stored_frame _ _ _ _ (by simp))

/-- A write that meets no error reports none. -/
theorem wrote_frame_clean (h : r.mask = 0 ∨ r.mask = 0xFFFF ∨ (s.mem.read (s.dev.memLoc r.word)).kind = 0) :
    Dev.Frame [.mc] [MEM_COLLCNT_CNT] s.dev (s.wrote r) := by
  refine Dev.Frame.trans (memTake_frame _ _ r (by simp)) ?_
  by_cases h0 : r.mask = 0
  · rw [wrote_none s r h0]
    exact metWrite_frame _ _ _ (by simp)
  · have hrep : s.wroteReported r = (s.dev.memTake r).metWrite r := by
      unfold State.wroteReported Dev.putReported
      split
      · rfl
      · exact reported_clean _ _ _ _ (by tauto)
    rw [wrote_some s r h0, hrep]
    exact (metWrite_frame _ _ _ (by simp)).trans (stored_frame _ _ _ _ (by simp))

theorem wrote_queues : (s.wrote r).mc.reqs = (s.dev.mc.took r).reqs ∧ (s.wrote r).mc.slots = (s.dev.mc.took r).slots := by
  by_cases h : r.mask = 0
  · rw [wrote_none s r h]
    exact ⟨(metWrite_reports _ r).reqs, (metWrite_reports _ r).slots⟩
  · rw [wrote_some s r h]
    exact ⟨(wroteReported_reports s r).reqs, (wroteReported_reports s r).slots⟩

theorem wrote_cells : s.dev.sameCells (s.wrote r) := by
  by_cases h : r.mask = 0
  · rw [wrote_none s r h]
    exact (metWrite_reports _ r).cells
  · rw [wrote_some s r h]
    exact (wroteReported_reports s r).cells

theorem wrote_collisions : (s.wrote r).get MEM_COLLCNT_CNT = ((s.dev.memTake r).metWrite r).get MEM_COLLCNT_CNT := by
  by_cases h : r.mask = 0
  · rw [wrote_none s r h]
  · rw [wrote_some s r h]
    exact (putReported_reports _ _ _ _ _ _).frame.get _ (apart_all rfl)

/-- The only write of the tick from the engine side is the one just made. -/
theorem wrote_touches (h : s.dev.touches false r.word = []) :
    (s.wrote r).touches false r.word = if r.mask = 0 then [] else [s.touchBy r] := by
  by_cases hm : r.mask = 0
  · rw [wrote_none s r hm, if_pos hm, Dev.touches, (metWrite_reports _ r).touched, (metWrite_reports _ r).tick]
    exact h
  · have htick : (s.wroteReported r).tick = s.dev.tick := (wroteReported_reports s r).tick
    have htouched : (s.wroteReported r).mc.touched = s.dev.mc.touched := (wroteReported_reports s r).touched
    rw [wrote_some s r hm, if_neg hm, Dev.touches]
    simp only [Dev.stored, htick, htouched]
    rw [List.filter_cons_of_pos (by simp [State.touchBy]), List.filter_filter]
    congr 1
    rw [← h, Dev.touches]
    refine List.filter_congr fun t _ => ?_
    cases t.tick == s.dev.tick <;> simp

end

/-- A spine-side write of a word meets requests that wait, and counts. -/
theorem memCollide_cells (s : State) (w mask v : Nat) : s.dev.sameCells (s.memCollide w mask v).dev := by
  unfold State.memCollide
  dsimp only
  split
  · exact sameCells_of (Dev.get_put_ne _ _ (fit rfl) (apart_of rfl)) (Dev.get_put_ne _ _ (fit rfl) (apart_of rfl))
      (Dev.get_put_ne _ _ (fit rfl) (apart_of rfl)) rfl rfl rfl
  · exact sameCells_of rfl rfl rfl rfl rfl rfl

/-- R317, R318: the cells after a full spine-side write. -/
theorem memSpineStore_mem (s : State) (w v : Nat) : (s.memSpineStore w 0xFFFF v).mem =
    s.mem.put (s.dev.memLoc w) 0xFFFF ((s.dev.touches false w).foldr (fun t v => mergeBytes t.mask v t.data) v) := by
  rw [State.memSpineStore, memPut_eq, State.memCollide_mem, (memCollide_cells s w 0xFFFF v).memLoc]

/-- R318: bytes that both sides write on one tick hold the engine's data. -/
theorem spineStore_keeps_engine_bytes {s t : State} {r : MemReq} (h : s.dev.touches false r.word = []) (hd : t.dev = s.wrote r) (v : Nat) {i : Nat}
    (hi : i < 16) : byteOf ((t.memSpineStore r.word 0xFFFF v).mem.read (s.dev.memLoc r.word)).data i =
      if r.mask.testBit i then byteOf r.data i else byteOf v i := by
  rw [memSpineStore_mem, hd, (wrote_cells s r).memLoc, wrote_touches s r h, read_put_full, byteOf_mod _ hi]
  by_cases hm : r.mask = 0
  · simp [hm]
  · rw [if_neg hm]
    exact byteOf_mergeBytes _ _ _ hi

end Sys2Proof.Machine
end

section
/-! PROOF. Atomics, and what the banks do (R282, R311, R312, R316). -/

namespace Sys2Proof.Machine

/-! ## Atomics -/

/-- R310 to R312, R314: a read brings back what it finds, and reports it. -/
theorem memFetch_eq (s : State) (w cls side : Nat) :
    let k := s.dev.memLoc w
    let x := s.mem.read k
    s.memFetch w cls side = ((x.data, x.kind == 2), { s with dev := (s.dev.reported w cls side x).addWback (s.dev.corrected k x) }) :=
  Prod.ext (memFetch_value s w cls side) (memFetch_state s w cls side)

/-- The device after an atomic has read its word, with what it found. -/
def State.atomicRead (s : State) (r : MemReq) (x : Decoded) : Dev :=
  ((s.dev.memTake r).reported r.word r.who.cls 0 x).addWback (s.dev.corrected (s.dev.memLoc r.word) x)

/-- R282: what an atomic returns from the word that it reads. -/
def MemReq.oldOf (r : MemReq) (v : Nat) : Nat := bits v (8 * r.lane) (8 * atomicWidth r.op)

/-- R282: the word that an atomic stores. -/
def MemReq.newWord (r : MemReq) (v : Nat) : Nat :=
  mergeBytes ((2 ^ atomicWidth r.op - 1) * 2 ^ r.lane) v (atomicNew r.op (r.oldOf v) r.data * 256 ^ r.lane)

/-- The write that an atomic makes, as it is remembered for its tick. -/
def State.atomicTouch (s : State) (r : MemReq) (x : Decoded) : Touch :=
  { tick := s.dev.tick, word := r.word, spine := false, old := (x.data, x.kind == 2), mask := 0xFFFF, data := r.newWord x.data }

theorem atomicRead_reports (s : State) (r : MemReq) (x : Decoded) :
    Dev.Reports memErrFields (s.dev.memTake r) ((s.dev.memTake r).reported r.word r.who.cls 0 x) := reported_reports _ _ _ _ _

theorem atomicRead_cells (s : State) (r : MemReq) (x : Decoded) : s.dev.sameCells (s.atomicRead r x) := (atomicRead_reports s r x).cells

theorem atomicRead_tick (s : State) (r : MemReq) (x : Decoded) : (s.atomicRead r x).tick = s.dev.tick := (atomicRead_reports s r x).tick

theorem memErrFields_high : ∀ f ∈ memErrFields, 0x30000 ≤ f.off := by decide

/-- An error report opens and closes no region. -/
theorem atomicRead_region (s : State) (r : MemReq) (x : Decoded) (w : Nat) :
    (s.atomicRead r x).regionDrop w = none ↔ s.dev.regionDrop w = none := by
  have h := atomicRead_reports s r x
  refine regionDrop_none_congr (d := s.dev) (e := s.atomicRead r x) h.listed (fun g hg => h.frame.get g fun f hf => .inl ?_) w
  have := memErrFields_high f hf
  omega

theorem atomicRead_frame (s : State) (r : MemReq) (x : Decoded) {fs : List Fld} (hf : ∀ f ∈ memErrFields, f ∈ fs) :
    Dev.Frame [.mc, .ru, .svc] fs s.dev (s.atomicRead r x) :=
  ((memTake_frame _ _ r (by simp)).trans ((atomicRead_reports s r x).frame.mono (fun _ h => h) hf)).trans (addWback_frame _ _ _ (by simp))

section
variable (s : State) (r : MemReq) (flip : BitVec 152)

/-- R312: an atomic that meets an uncorrectable word changes nothing. -/
theorem serveAtomic_uncorrectable (h : ((s.mem.disturb (s.dev.memLoc r.word) flip).read (s.dev.memLoc r.word)).kind = 2) :
    let k := s.dev.memLoc r.word
    let m := s.mem.disturb k flip
    s.serveAtomic r flip = { s with mem := m, dev := (s.atomicRead r (m.read k)).memAnswer r.who 0 true } := by
  have hc : (((s.mem.disturb (s.dev.memLoc r.word) flip).read (s.dev.memLoc r.word)).kind == 2) = true := by rw [h]; rfl
  unfold State.serveAtomic
  dsimp only
  rw [memFetch_eq]
  exact if_pos hc

/-- R282, R316: an atomic otherwise stores its result. -/
theorem serveAtomic_stores (h : ((s.mem.disturb (s.dev.memLoc r.word) flip).read (s.dev.memLoc r.word)).kind ≠ 2) :
    let k := s.dev.memLoc r.word
    let m := s.mem.disturb k flip
    let x := m.read k
    let t := ({ s with mem := m, dev := s.atomicRead r x } : State).memEngineStore r.word 0xFFFF (r.newWord x.data) r.who.cls true
    s.serveAtomic r flip = { t with dev := t.dev.memAnswer r.who (r.oldOf x.data) false } := by
  have hc : ¬ (((s.mem.disturb (s.dev.memLoc r.word) flip).read (s.dev.memLoc r.word)).kind == 2) = true := by simpa using h
  unfold State.serveAtomic
  dsimp only
  rw [memFetch_eq]
  exact if_neg hc

/-- The store of an atomic that passes. -/
theorem atomicStore_passed (m : MemArr) (h : s.dev.regionDrop r.word = none) :
    let k := s.dev.memLoc r.word
    let x := m.read k
    ({ s with mem := m, dev := s.atomicRead r x } : State).memEngineStore r.word 0xFFFF (r.newWord x.data) r.who.cls true =
      { s with mem := m.put k 0xFFFF (r.newWord x.data), dev := (s.atomicRead r x).stored k (s.atomicTouch r x) } := by
  dsimp only
  rw [State.memEngineStore, (atomicRead_region s r _ r.word).2 h]
  dsimp only
  rw [if_pos rfl, memPut_eq]
  dsimp only [State.touchOf]
  rw [(atomicRead_cells s r _).memLoc, atomicRead_tick]
  rfl

/-- R133: the store of an atomic that is dropped. -/
theorem atomicStore_dropped (m : MemArr) (x : Decoded) (v : Nat) {e : Dev} (h : (s.atomicRead r x).regionDrop r.word = some e) :
    ({ s with mem := m, dev := s.atomicRead r x } : State).memEngineStore r.word 0xFFFF v r.who.cls true = { s with mem := m, dev := e } := by
  rw [State.memEngineStore]
  dsimp only
  rw [h]

end

/-- The device once an atomic has read and, where it may, stored: what it read is counted, its request is gone. -/
structure State.AtomicDone (s : State) (r : MemReq) (x : Decoded) (e : Dev) : Prop where
  frame : Dev.Frame [.mc, .ru, .svc] (memErrFields ++ memDropFields) (s.atomicRead r x) e
  kept : ∀ g, (∀ f ∈ memDropFields, f.apart g) → e.get g = (s.atomicRead r x).get g
  reqs : e.mc.reqs = (s.atomicRead r x).mc.reqs
  slots : e.mc.slots = (s.atomicRead r x).mc.slots
  results : e.mc.results = (s.atomicRead r x).mc.results

theorem atomicDone_same (s : State) (r : MemReq) (x : Decoded) : s.AtomicDone r x (s.atomicRead r x) :=
  ⟨Dev.Frame.refl _ _ _, fun _ _ => rfl, rfl, rfl, rfl⟩

theorem atomicDone_stored (s : State) (r : MemReq) (x : Decoded) (k : Nat) (t : Touch) : s.AtomicDone r x ((s.atomicRead r x).stored k t) :=
  ⟨stored_frame _ _ _ _ (by simp), fun _ _ => rfl, rfl, rfl, rfl⟩

theorem atomicDone_dropped {s : State} {r : MemReq} {x : Decoded} {e : Dev} {w : Nat} (h : (s.atomicRead r x).regionDrop w = some e) :
    s.AtomicDone r x e :=
  ⟨(regionDrop_frame h).mono (by simp) (fun f hf => List.mem_append_right _ hf), fun g hg => (regionDrop_frame h).get g hg,
    by rw [regionDrop_mc h], by rw [regionDrop_mc h], by rw [regionDrop_mc h]⟩

/-- The count registers of errors are none of a dropped write. -/
theorem memDropFields_apart {g : Fld} (h : g.off ∉ [MEM_COLLCNT] ∧ 0x30000 ≤ g.off) : ∀ f ∈ memDropFields, f.apart g := by
  intro f hf
  refine .inl fun hoff => ?_
  simp only [memDropFields, List.cons_append, List.mem_cons, List.mem_append, List.mem_map, List.mem_range] at hf
  rcases hf with rfl | ⟨q, hq, rfl⟩ | ⟨t, ht, rfl⟩
  · exact h.1 (by rw [← hoff]; exact List.mem_cons_self)
  · have := h.2
    rw [← hoff] at this
    simp only [COACH_REGION_WR_CNT, COACH_REGION_WR] at this
    omega
  · have := h.2
    rw [← hoff] at this
    simp only [TPL_STATUS_WR_DROP, TPL_STATUS] at this
    omega

/-- R314: the error that an atomic has found is counted. -/
theorem atomicDone_counted {s : State} {r : MemReq} {x : Decoded} {e : Dev} (h : s.AtomicDone r x e) :
    (x.kind = 1 → e.get MEM_STATUS_CE = 1 ∧ e.get (CECNT_CECNT_CNT (s.dev.memCell r.word / 2 ^ 18)) =
      min (s.dev.get (CECNT_CECNT_CNT (s.dev.memCell r.word / 2 ^ 18)) + 1) (2 ^ 32 - 1)) ∧
    (x.kind = 2 → e.get MEM_STATUS_UE = 1 ∧ e.get MEM_UECNT_CNT = min (s.dev.get MEM_UECNT_CNT + 1) (2 ^ 32 - 1)) := by
  have hcnt (p : Nat) : (CECNT_CECNT_CNT p).off = 0x30040 + p * 4 := rfl
  rw [h.kept _ (memDropFields_apart (by decide)), h.kept (CECNT_CECNT_CNT _) (memDropFields_apart (by
      rw [hcnt]; simp only [MEM_COLLCNT, List.mem_cons, List.not_mem_nil, or_false]; omega)),
    h.kept _ (memDropFields_apart (by decide)), h.kept _ (memDropFields_apart (by decide))]
  exact reported_counted (s.dev.memTake r) r.word r.who.cls 0 x

theorem atomicDone_frame {s : State} {r : MemReq} {x : Decoded} {e : Dev} (h : s.AtomicDone r x e) :
    Dev.Frame [.mc, .ru, .svc] (memErrFields ++ memDropFields) s.dev e :=
  (atomicRead_frame s r x (fun _ hf => List.mem_append_left _ hf)).trans h.frame

/-- The bytes that an atomic writes are those of its lane. -/
theorem byteOf_newWord (r : MemReq) (v : Nat) {i : Nat} (hi : i < 16) :
    byteOf (r.newWord v) i = if r.lane ≤ i ∧ i < r.lane + atomicWidth r.op then byteOf (atomicNew r.op (r.oldOf v) r.data) (i - r.lane) else byteOf v i := by
  rw [MemReq.newWord, byteOf_mergeBytes _ _ _ hi, Nat.testBit_mul_two_pow, Nat.testBit_two_pow_sub_one]
  by_cases h : r.lane ≤ i ∧ i < r.lane + atomicWidth r.op
  · have hin : (decide (r.lane ≤ i) && decide (i - r.lane < atomicWidth r.op)) = true := by
      rw [Bool.and_eq_true, decide_eq_true_eq, decide_eq_true_eq]; omega
    rw [if_pos hin, if_pos h, byteOf_eq, byteOf_eq]
    conv_lhs => rw [show i = r.lane + (i - r.lane) by omega, Nat.pow_add, ← Nat.div_div_eq_div_mul, Nat.mul_div_cancel _ (Nat.pow_pos (by decide))]
  · have hout : ¬ (decide (r.lane ≤ i) && decide (i - r.lane < atomicWidth r.op)) = true := by
      rw [Bool.and_eq_true, decide_eq_true_eq, decide_eq_true_eq]; omega
    rw [if_neg hout, if_neg h]

/-- R316: an atomic, whatever it finds. -/
theorem serveAtomic_spec (s : State) (r : MemReq) (flip : BitVec 152) :
    let k := s.dev.memLoc r.word
    let m := s.mem.disturb k flip
    let x := m.read k
    ∃ (n : MemArr) (e : Dev), s.serveAtomic r flip =
        { s with mem := n, dev := e.memAnswer r.who (if x.kind = 2 then 0 else r.oldOf x.data) (x.kind == 2) } ∧
      s.AtomicDone r x e ∧ (∀ j, j ≠ k → n.read j = s.mem.read j) ∧
      (x.kind = 2 ∨ s.dev.regionDrop r.word ≠ none → n = m) ∧
      (x.kind ≠ 2 → s.dev.regionDrop r.word = none → n = m.put k 0xFFFF (r.newWord x.data)) := by
  intro k m x
  by_cases h2 : x.kind = 2
  · refine ⟨m, s.atomicRead r x, ?_, atomicDone_same s r x, fun j hj => read_disturb_ne _ _ hj, fun _ => rfl, fun h => absurd h2 h⟩
    rw [serveAtomic_uncorrectable s r flip h2, if_pos h2, h2]
    rfl
  · have hbeq : (x.kind == 2) = false := by simpa using h2
    rw [hbeq, if_neg h2, serveAtomic_stores s r flip h2]
    cases hr : (s.atomicRead r x).regionDrop r.word with
    | none =>
      have hs := (atomicRead_region s r x r.word).1 hr
      refine ⟨m.put k 0xFFFF (r.newWord x.data), (s.atomicRead r x).stored k (s.atomicTouch r x), ?_, atomicDone_stored _ _ _ _ _,
        fun j hj => (read_put_ne _ _ _ hj).trans (read_disturb_ne _ _ hj), fun h => absurd hs (h.resolve_left h2), fun _ _ => rfl⟩
      rw [atomicStore_passed s r m hs]
    | some e =>
      refine ⟨m, e, ?_, atomicDone_dropped hr, fun j hj => read_disturb_ne _ _ hj, fun _ => rfl, fun _ hs => ?_⟩
      · rw [atomicStore_dropped s r m x _ hr]
      · rw [(atomicRead_region s r x r.word).2 hs] at hr
        cases hr

/-! ## Write-back (R311) -/

theorem ceWriteback_idle {s : State} (h : s.dev.memUp = false ∨ s.dev.mc.wback = []) : s.ceWriteback = s := by
  unfold State.ceWriteback
  split
  · rename_i hup hw
    rcases h with h | h
    · rw [h] at hup; cases hup
    · rw [h] at hw; cases hw
  · rfl

theorem ceWriteback_acts {s : State} {k : Nat} {rest : List Nat} (hup : s.dev.memUp = true) (hw : s.dev.mc.wback = k :: rest) :
    s.ceWriteback = { s with
      dev := { s.dev with mc := { s.dev.mc with wback := rest } }
      mem := if (s.mem.read k).kind = 1 then s.mem.store k (s.mem.read k).data 0 else s.mem } := by
  unfold State.ceWriteback
  rw [hup, hw]

/-- A frame of a device under a change of stacked memory. -/
theorem frame_with_mem {ps : List Part} {fs : List Fld} {s : State} {e : Dev} (m : MemArr) (h : Dev.Frame ps fs s.dev e) :
    Frame (.mem :: ps) fs s { s with mem := m, dev := e } := by
  have hd := h.lift (s := s)
  refine ⟨fun p hp => ?_, hd.2⟩
  have hp' : p ∉ ps := fun c => hp (List.mem_cons_of_mem _ c)
  have hm : p ≠ .mem := fun c => hp (c ▸ List.mem_cons_self)
  have := hd.1 p hp'
  cases p <;> first | exact this | exact absurd rfl hm

/-! ## The rows of the banks -/

section
variable {s : State} {b : Fin 16} {r : MemReq} (hup : s.dev.memUp = true) (hnext : s.dev.memNext b = some r) (hcopy : s.dev.copyAt ≠ some r.word)
include hup hnext hcopy

theorem exec_bankRead (flip : BitVec 152) (hk : r.kind = 0) : exec (.bankRead b flip) s = .next (s.serveRead r flip) := by
  have h := bankServe_acts flip hup hnext hcopy
  rw [hk, State.memServe, if_pos hk] at h
  exact congrArg Host.Outcome.next h

theorem exec_bankWrite (hk : r.kind = 1) : exec (.bankWrite b) s = .next (s.serveWrite r) := by
  have h := bankServe_acts 0 hup hnext hcopy
  rw [hk, State.memServe, if_neg (by omega), if_pos hk] at h
  exact congrArg Host.Outcome.next h

theorem exec_bankAtomic (flip : BitVec 152) (hk : r.kind = 2) : exec (.bankAtomic b flip) s = .next (s.serveAtomic r flip) := by
  have h := bankServe_acts flip hup hnext hcopy
  rw [hk, State.memServe, if_neg (by omega), if_neg (by omega)] at h
  exact congrArg Host.Outcome.next h

end

end Sys2Proof.Machine
end

section
/-! PROOF. The banks of stacked memory (R20, R307 to R318). -/

namespace Sys2Proof.Machine

/-- Settles O46: each request that a bank serves is one of the cases above; what it leaves follows from the laws of reads and writes. -/
theorem banksServeRequests : Obligations.BanksServeRequests := by
  unfold Obligations.BanksServeRequests
  refine ⟨fun d b r h => memNext_spec h, fun s b flip => ?_, fun s => ⟨fun h => ?_, fun k rest hup hw => ?_⟩⟩
  · have idle (k : Nat) (f : BitVec 152) (h : ¬ s.bankActs b k) : (Host.Outcome.next (s.bankServe b k f) : Host.Outcome State Fault Refusal) = .next s := by
      rw [bankServe_idle f h]
    refine ⟨idle 0 flip, idle 1 0, idle 2 flip, fun r hup hnext hcopy hword => ?_⟩
    obtain ⟨hb, -, -⟩ := memNext_spec hnext
    intro k p m x left slots spine counted others
    have hslots : (s.dev.mc.took r).slots = slots := by rw [took_eq hb]
    refine ⟨fun hk v hv => ?_, fun l y hk hs ht => ?_, fun hk hs ht => ?_, fun hk hd => ?_, fun hk hd => ?_, fun hk hop hlane => ?_⟩
    · refine ⟨_, (exec_bankRead hup hnext hcopy flip hk).trans (congrArg Host.Outcome.next (serveRead_snap s flip hv)), by rw [← hslots]; rfl, ?_⟩
      exact ((memTake_frame _ _ r (by simp)).trans (memAnswer_frame _ _ _ _ _ (by simp))).lift
    · refine ⟨_, (exec_bankRead hup hnext hcopy flip hk).trans (congrArg Host.Outcome.next (serveRead_before s flip hs ht)), rfl, by rw [← hslots]; rfl, ?_⟩
      exact frame_with_mem _ ((memTake_frame _ _ r (by simp)).trans (memAnswer_frame _ _ _ _ _ (by simp)))
    · have hrep := reported_reports (s.dev.memTake r) r.word r.who.cls 0 x
      refine ⟨_, (exec_bankRead hup hnext hcopy flip hk).trans (congrArg Host.Outcome.next (serveRead_now s flip hs ht)), rfl, fun hf => ?_,
        hrep.reqs, hrep.slots.trans hslots, ?_, ?_, ?_, fun hclean => ?_, ?_⟩
      · show s.mem.disturb k flip = s.mem
        rw [hf, disturb_zero]
      · exact congrArg (· ++ _) hrep.results
      · have hcounted := atomicDone_counted (atomicDone_same s r x)
        exact hcounted
      · exact congrArg (· ++ _) hrep.wback
      · refine frame_with_mem _ (Dev.Frame.trans ?_ (memAnswer_frame _ _ _ _ _ (by simp)))
        rw [reported_clean _ _ _ _ hclean]
        exact (memTake_frame _ _ r (by simp)).trans (addWback_frame _ _ _ (by simp))
      · exact frame_with_mem _ ((atomicRead_frame s r x (fun _ h => h)).trans (memAnswer_frame _ _ _ _ _ (by simp)))
    · have hd' : (s.dev.memTake r).regionDrop r.word ≠ none := fun c => hd ((memTake_region s.dev r r.word).1 c)
      obtain ⟨e, he⟩ := Option.ne_none_iff_exists'.1 hd'
      refine ⟨_, (exec_bankWrite hup hnext hcopy hk).trans (congrArg Host.Outcome.next (serveWrite_dropped s he)), ?_, ?_⟩
      · rw [← hslots]; exact regionDrop_mc he
      · exact ((memTake_frame _ _ r (by simp)).trans ((regionDrop_frame he).mono (by simp) (fun _ h => h))).lift
    · refine ⟨_, (exec_bankWrite hup hnext hcopy hk).trans (congrArg Host.Outcome.next (serveWrite_passed s hd)), (wrote_queues s r).1, (wrote_queues s r).2.trans hslots,
        fun j hj => ?_, (wrote_collisions s r).trans (metWrite_collisions _ r), fun ht v i hi => spineStore_keeps_engine_bytes ht rfl v hi,
        ⟨fun h0 => ?_, fun hf => ?_, fun h0 hf h2 => ?_, fun h0 hf h2 => ?_, fun hclean => frame_with_mem _ (wrote_frame_clean s r hclean)⟩,
        frame_with_mem _ (wrote_frame s r)⟩
      · exact read_put_ne s.mem r.mask r.data hj
      · show s.mem.put k r.mask r.data = s.mem
        rw [h0, put_none]
      · show (s.mem.put k r.mask r.data).read k = _ ∧ k ∉ (s.wrote r).mc.wback
        rw [hf, read_put_full, wrote_some s r (by omega)]
        exact ⟨rfl, by simp [Dev.stored, k]⟩
      · refine ⟨read_put_poisoned _ _ h0 hf h2, ?_⟩
        show (s.wrote r).get MEM_STATUS_UE = 1
        rw [wrote_some s r h0]
        show (Dev.putReported _ _ _ _ _ _).get MEM_STATUS_UE = 1
        rw [Dev.putReported, if_neg (not_or.2 ⟨hf, h0⟩)]
        exact ((reported_counted _ _ _ _ _).2 h2).1
      · show ((s.mem.put k r.mask r.data).read k).kind = 0 ∧ ∀ i, i < 16 → byteOf ((s.mem.put k r.mask r.data).read k).data i = _
        rw [read_put_masked _ _ h0 hf h2]
        exact ⟨rfl, fun i hi => by rw [byteOf_mod _ hi, byteOf_mergeBytes _ _ _ hi]⟩
    · obtain ⟨n, e, hserve, hdone, hothers, hdropped, hstored⟩ := serveAtomic_spec s r flip
      intro w old new
      have hold : r.oldOf x.data = old := by rw [MemReq.oldOf, bits, Nat.shiftRight_eq_div_pow]; rfl
      have hnew : atomicNew r.op (r.oldOf x.data) r.data = new := by rw [hold]; rfl
      refine ⟨_, (exec_bankAtomic hup hnext hcopy flip hk).trans (congrArg Host.Outcome.next hserve), ?_, ?_, ?_, hothers, ?_, hdropped,
        fun h2 hreg => ?_, ?_⟩
      · exact hdone.reqs.trans (atomicRead_reports s r x).reqs
      · exact hdone.slots.trans ((atomicRead_reports s r x).slots.trans hslots)
      · have hcounted := atomicDone_counted hdone
        exact hcounted
      · show e.mc.results ++ [_] = _
        rw [hdone.results, ← hold]
        exact congrArg (· ++ _) (atomicRead_reports s r x).results
      · show (n.read k).kind = 0 ∧ ∀ i, i < 16 → byteOf (n.read k).data i = _
        rw [hstored h2 hreg, read_put_full]
        refine ⟨rfl, fun i hi => ?_⟩
        rw [byteOf_mod _ hi, byteOf_newWord _ _ hi, hnew]
        rfl
      · exact frame_with_mem _ ((atomicDone_frame hdone).trans (memAnswer_frame _ _ _ _ _ (by simp)))
  · show Host.Outcome.next s.ceWriteback = _
    rw [ceWriteback_idle h]
  · refine ⟨_, congrArg Host.Outcome.next (ceWriteback_acts hup hw), rfl, fun hk => if_neg hk, fun hk => ?_, fun j hj => ?_,
      frame_with_mem _ (Dev.mc_frame _ _ _ (by simp))⟩
    · show (if _ then _ else _ : MemArr).read k = _
      rw [if_pos hk, read_store_same]
    · show (if _ then _ else _ : MemArr).read j = _
      split
      · exact read_store_ne _ _ _ hj
      · rfl

end Sys2Proof.Machine
end

section
/-! PROOF. Bulk data: the spine-side writes and reads of a run of words (R307, R312, R317, R318, R356, R361). -/

namespace Sys2Proof.Machine

/-! ## Distinct words lie in distinct cells (R306, R324, R326) -/

theorem memCell_lt (d : Dev) (w : Nat) : d.memCell w < 17 * 2 ^ 18 := by
  have := memCell_bank d w
  omega

/-- Which physical bank serves logical bank `b` at index `i`. -/
def Dev.bankOf (d : Dev) (b i : Nat) : Nat :=
  if (if d.flag MEM_STATUS_SPARE_USED then d.get MEM_STATUS_SPAREFOR == b else d.mc.copy == some b && decide (i < d.get MEM_SPAREPTR_P)) then 16 else b

theorem memCell_eq (d : Dev) (w : Nat) : d.memCell w = d.bankOf (w % 16) (w / 16 % 2 ^ 18) * 2 ^ 18 + w / 16 % 2 ^ 18 := rfl

/-- Only one logical bank is on the spare. -/
theorem bankOf_inj {d : Dev} {b c i : Nat} (hb : b < 16) (hc : c < 16) (h : d.bankOf b i = d.bankOf c i) : b = c := by
  unfold Dev.bankOf at h
  by_cases hu : d.flag MEM_STATUS_SPARE_USED = true
  · simp only [hu, if_true, beq_iff_eq] at h
    split at h <;> split at h <;> omega
  · simp only [hu, if_false, Bool.false_eq_true, Bool.and_eq_true, beq_iff_eq, decide_eq_true_eq] at h
    split at h <;> split at h
    · rename_i h1 h2
      exact Option.some.inj (h1.1.symm.trans h2.1)
    all_goals omega

theorem memCell_inj {d : Dev} {v w : Nat} (hv : v < 2 ^ 22) (hw : w < 2 ^ 22) (h : d.memCell v = d.memCell w) : v = w := by
  rw [memCell_eq, memCell_eq] at h
  have hi : v / 16 % 2 ^ 18 = w / 16 % 2 ^ 18 := by omega
  rw [hi] at h
  have hb : v % 16 = w % 16 := bankOf_inj (d := d) (i := w / 16 % 2 ^ 18) (Nat.mod_lt _ (by decide)) (Nat.mod_lt _ (by decide)) (by omega)
  omega

theorem memLoc_inj {d : Dev} {v w : Nat} (hv : v < 2 ^ 22) (hw : w < 2 ^ 22) (h : d.memLoc v = d.memLoc w) : v = w := by
  have hcv := memCell_lt d v
  have hcw := memCell_lt d w
  unfold Dev.memLoc at h
  by_cases mv : d.memMirror v = true <;> by_cases mw : d.memMirror w = true
  · simp only [mv, mw, if_true, mirrorCell] at h
    simp only [Dev.memMirror, Bool.and_eq_true, beq_iff_eq] at mv mw
    have hs : v / 4096 = w / 4096 := Option.some.inj (mv.1.symm.trans mw.1)
    omega
  · simp only [mv, mw, if_true, if_false, Bool.false_eq_true, mirrorCell] at h
    omega
  · simp only [mv, mw, if_true, if_false, Bool.false_eq_true, mirrorCell] at h
    omega
  · simp only [mv, mw, if_false, Bool.false_eq_true] at h
    exact memCell_inj hv hw h

/-! ## What a bulk access leaves alone -/

/-- From `d` to `e` no word has moved, no region has opened or closed, and the engine side has written nothing. -/
structure Dev.Steady (ps : List Part) (fs : List Fld) (d e : Dev) : Prop where
  frame : Dev.Frame ps fs d e
  listed : e.tplListed = d.tplListed
  cells : d.sameCells e
  engine : ∀ w, e.touches false w = d.touches false w

namespace Dev.Steady

theorem refl (ps : List Part) (fs : List Fld) (d : Dev) : Dev.Steady ps fs d d := ⟨Dev.Frame.refl _ _ _, rfl, Dev.sameCells.refl d, fun _ => rfl⟩

theorem trans {ps : List Part} {fs : List Fld} {d e f : Dev} (h : Dev.Steady ps fs d e) (k : Dev.Steady ps fs e f) : Dev.Steady ps fs d f :=
  ⟨h.frame.trans k.frame, k.listed.trans h.listed, h.cells.trans k.cells, fun w => (k.engine w).trans (h.engine w)⟩

theorem mono {ps qs : List Part} {fs gs : List Fld} {d e : Dev} (h : Dev.Steady ps fs d e) (hp : ∀ p ∈ ps, p ∈ qs) (hf : ∀ f ∈ fs, f ∈ gs) :
    Dev.Steady qs gs d e := { h with frame := h.frame.mono hp hf }

end Dev.Steady

theorem Dev.Reports.steady {fs : List Fld} {d e : Dev} (h : Dev.Reports fs d e) : Dev.Steady [.mc, .ru, .svc] fs d e :=
  ⟨h.frame, h.listed, h.cells, fun w => by rw [Dev.touches, Dev.touches, h.touched, h.tick]⟩

/-- Regions stay as they are where the registers of the quadrants do. -/
theorem Dev.Steady.region {ps : List Part} {fs : List Fld} {d e : Dev} (h : Dev.Steady ps fs d e) (hf : ∀ f ∈ fs, 0x30000 ≤ f.off) (w : Nat) :
    e.regionDrop w = none ↔ d.regionDrop w = none :=
  regionDrop_none_congr h.listed (fun g hg => h.frame.get g fun f hm => .inl (by have := hf f hm; omega)) w

theorem addWback_steady (fs : List Fld) (d : Dev) (l : List Nat) : Dev.Steady [.mc, .ru, .svc] fs d (d.addWback l) :=
  ⟨addWback_frame _ _ _ (by simp), rfl, Dev.sameCells.refl _, fun _ => rfl⟩

theorem memCollide_steady (s : State) (w mask v : Nat) : Dev.Steady [.mc] [MEM_COLLCNT_CNT] s.dev (s.memCollide w mask v).dev := by
  have hreqs (l : List MemReq) : Dev.Steady [.mc] [MEM_COLLCNT_CNT] s.dev { s.dev with mc := { s.dev.mc with reqs := l } } :=
    ⟨Dev.mc_frame _ _ _ (by simp), rfl, Dev.sameCells.refl _, fun _ => rfl⟩
  have hcount (d : Dev) : Dev.Steady [.mc] [MEM_COLLCNT_CNT] d (d.incSat MEM_COLLCNT_CNT) :=
    ⟨Dev.incSat_frame _ _ _ (fit rfl) (by simp), tplListed_put _ _ (by decide), sameCells_of (Dev.get_put_ne _ _ (fit rfl) (apart_of rfl))
      (Dev.get_put_ne _ _ (fit rfl) (apart_of rfl)) (Dev.get_put_ne _ _ (fit rfl) (apart_of rfl)) rfl rfl rfl, fun _ => rfl⟩
  unfold State.memCollide
  dsimp only
  split
  · exact (hreqs _).trans (hcount _)
  · exact hreqs _

/-- A write that the spine side makes is none of the engine side. -/
theorem stored_steady (fs : List Fld) (d : Dev) (k : Nat) (t : Touch) (ht : t.spine = true) : Dev.Steady [.mc] fs d (d.stored k t) := by
  refine ⟨stored_frame _ _ _ _ (by simp), rfl, Dev.sameCells.refl _, fun w => ?_⟩
  rw [Dev.touches, Dev.touches]
  simp only [Dev.stored]
  rw [List.filter_cons_of_neg (by simp [ht]), List.filter_filter]
  refine List.filter_congr fun y _ => ?_
  cases y.tick == d.tick <;> simp

/-- The data that a spine-side write of word `w` stores: bytes of the engine side come first (R318). -/
def Dev.underEngine (d : Dev) (w v : Nat) : Nat := (d.touches false w).foldr (fun t v => mergeBytes t.mask v t.data) v

theorem underEngine_none {d : Dev} {w : Nat} (h : d.touches false w = []) (v : Nat) : d.underEngine w v = v := by rw [Dev.underEngine, h]; rfl

/-- R317: what a spine-side write of word `w` leaves. -/
theorem memSpineStore_eq (s : State) (w mask v : Nat) :
    s.memSpineStore w mask v = { s with
      mem := s.mem.put (s.dev.memLoc w) mask (s.dev.underEngine w v)
      dev := (s.memSpineStore w mask v).dev } := by
  rw [State.memSpineStore, memPut_eq, State.memCollide_mem, (memCollide_cells s w mask v).memLoc]
  rfl

theorem memSpineStore_dev (s : State) (w mask v : Nat) : ∃ t, t.spine = true ∧ (s.memSpineStore w mask v).dev =
    let d := (s.memCollide w mask v).dev
    if mask = 0 then d else (d.putReported w mask 3 1 (s.mem.read (s.dev.memLoc w))).stored (s.dev.memLoc w) t := by
  rw [State.memSpineStore, memPut_eq, State.memCollide_mem, (memCollide_cells s w mask v).memLoc]
  exact ⟨_, rfl, rfl⟩

theorem memSpineStore_steady (s : State) (w mask v : Nat) :
    Dev.Steady [.mc, .ru, .svc] (MEM_COLLCNT_CNT :: memErrFields) s.dev (s.memSpineStore w mask v).dev := by
  obtain ⟨t, ht, hdev⟩ := memSpineStore_dev s w mask v
  rw [hdev]
  refine ((memCollide_steady s w mask v).mono (by simp) (by simp)).trans ?_
  dsimp only
  split
  · exact Dev.Steady.refl _ _ _
  · exact ((putReported_reports _ _ _ _ _ _).steady.mono (fun _ h => h) (fun _ h => List.mem_cons_of_mem _ h)).trans
      ((stored_steady _ _ _ t ht).mono (by simp) (fun _ h => h))

/-- A full write reports nothing. -/
theorem memSpineStore_full_steady (s : State) (w v : Nat) : Dev.Steady [.mc] [MEM_COLLCNT_CNT] s.dev (s.memSpineStore w 0xFFFF v).dev := by
  obtain ⟨t, ht, hdev⟩ := memSpineStore_dev s w 0xFFFF v
  rw [hdev]
  exact (memCollide_steady s w 0xFFFF v).trans (stored_steady _ _ _ t ht)

/-! ## A run of words that is written -/

/-- The cells after the words `vs` have been written from word `w` on, each where `loc` says. -/
def MemArr.putAll (loc : Nat → Nat) : Nat → List Nat → MemArr → MemArr
  | _, [], m => m
  | w, v :: r, m => MemArr.putAll loc (w + 1) r (m.put (loc w) 0xFFFF v)

theorem read_putAll_ne (loc : Nat → Nat) (vs : List Nat) (w : Nat) (m : MemArr) (k : Nat) (h : ∀ j, j < vs.length → k ≠ loc (w + j)) :
    (MemArr.putAll loc w vs m).read k = m.read k := by
  induction vs generalizing w m with
  | nil => rfl
  | cons v r ih =>
    rw [MemArr.putAll, ih _ _ (fun j hj => ?_), read_put_ne _ _ _ (by simpa using h 0 (by simp))]
    have := h (j + 1) (by simpa using hj)
    rwa [show w + (j + 1) = w + 1 + j by omega] at this

/-- Each word reads as it was written, where no two of them share a cell. -/
theorem read_putAll (loc : Nat → Nat) (vs : List Nat) (w : Nat) (m : MemArr)
    (hinj : ∀ i j, i < vs.length → j < vs.length → loc (w + i) = loc (w + j) → i = j) (j : Nat) (hj : j < vs.length) :
    (MemArr.putAll loc w vs m).read (loc (w + j)) = { data := vs.getD j 0 % 2 ^ 128, kind := 0 } := by
  induction vs generalizing w m j with
  | nil => simp at hj
  | cons v r ih =>
    rw [MemArr.putAll]
    cases j with
    | zero =>
      rw [read_putAll_ne, Nat.add_zero, read_put_full]
      · rfl
      · intro i hi heq
        have := hinj 0 (i + 1) (by simp) (by simpa using hi) (by rw [heq]; congr 1; omega)
        omega
    | succ j =>
      rw [show w + (j + 1) = w + 1 + j by omega, ih (w + 1) _ (fun i k hi hk h => ?_) j (by simpa using hj)]
      · rfl
      · have := hinj (i + 1) (k + 1) (by simpa using hi) (by simpa using hk)
          (by rw [show w + (i + 1) = w + 1 + i by omega, show w + (k + 1) = w + 1 + k by omega, h])
        omega

/-- R356: a run of words outside every region goes to stacked memory. -/
theorem dmaStore_spec (vs : List Nat) (w : Nat) (s : State) (hregion : ∀ j, j < vs.length → s.dev.regionDrop (w + j) = none)
    (hengine : ∀ v, s.dev.touches false v = []) : ∃ e, State.dmaStore w vs s = { s with mem := MemArr.putAll s.dev.memLoc w vs s.mem, dev := e } ∧
      Dev.Steady [.mc] [MEM_COLLCNT_CNT] s.dev e := by
  induction vs generalizing w s with
  | nil => exact ⟨s.dev, rfl, Dev.Steady.refl _ _ _⟩
  | cons v r ih =>
    have hsteady := memSpineStore_full_steady s w v
    obtain ⟨e, he, hse⟩ := ih (w + 1) (s.memSpineStore w 0xFFFF v) (fun j hj => (hsteady.region (by decide) _).2 (by
        have := hregion (j + 1) (by simpa using hj)
        rwa [show w + (j + 1) = w + 1 + j by omega] at this)) (fun u => (hsteady.engine u).trans (hengine u))
    refine ⟨e, ?_, hsteady.trans hse⟩
    have hloc : (s.memSpineStore w 0xFFFF v).dev.memLoc = s.dev.memLoc := funext fun u => hsteady.cells.memLoc u
    rw [State.dmaStore, show s.dev.regionDrop w = none from hregion 0 (by simp)]
    dsimp only
    rw [he, hloc, memSpineStore_eq, underEngine_none (hengine w), MemArr.putAll]

/-- R356: a range that meets no region has no word in one. -/
theorem regionDrop_of_not_meets {d : Dev} {w n : Nat} (h : d.regionMeets w n = false) {v : Nat} (hv : w ≤ v) (hn : v < w + n) : d.regionDrop v = none := by
  rw [Dev.regionMeets, Bool.or_eq_false_iff, List.any_eq_false, List.any_eq_false] at h
  obtain ⟨hcal, hpage⟩ := h
  rw [regionDrop_eq_none_iff]
  constructor
  · cases hc : d.calendarOf v with
    | none => rfl
    | some q =>
      obtain ⟨hq, -, hq4, -⟩ := firstIdx_eq_some hc
      have := hcal q (List.mem_range.2 (by omega))
      rw [decide_eq_true_eq] at this hq
      exact absurd ⟨by omega, by omega, by omega⟩ this
  · rw [Dev.pagesAt, List.filter_eq_nil_iff]
    intro x hx hin
    have := hpage x hx
    rw [decide_eq_true_eq] at this hin
    exact this ⟨by omega, by omega, by omega⟩

/-! ## A run of words that is read -/

/-- What the `n` words from word `w` on hold, each with whether it is uncorrectable. -/
def State.wordsAt (s : State) (w n : Nat) : List (Nat × Bool) :=
  (List.range n).map (fun j => ((s.mem.read (s.dev.memLoc (w + j))).data, (s.mem.read (s.dev.memLoc (w + j))).kind == 2))

theorem wordsAt_succ (s : State) (w n : Nat) : s.wordsAt w (n + 1) =
    ((s.mem.read (s.dev.memLoc w)).data, (s.mem.read (s.dev.memLoc w)).kind == 2) :: s.wordsAt (w + 1) n := by
  rw [State.wordsAt, List.range_succ_eq_map, List.map_cons, List.map_map, State.wordsAt]
  refine congrArg _ (List.map_congr_left fun j _ => ?_)
  rw [Function.comp_apply, show w + Nat.succ j = w + 1 + j by omega]

/-- R310, R312: the spine side reads the words as they stand where the engine side has written none of them on this tick. -/
theorem wordsRead_spec (cls n : Nat) (w : Nat) (s : State) (hw : w + n ≤ 2 ^ 22) (hengine : ∀ v, s.dev.touches false v = []) :
    ∃ e, State.wordsRead cls 1 w n s = (s.wordsAt w n, { s with dev := e }) ∧ Dev.Steady [.mc, .ru, .svc] memErrFields s.dev e ∧
      ((∀ j, j < n → (s.mem.read (s.dev.memLoc (w + j))).kind = 0) → e = s.dev) := by
  induction n generalizing w s with
  | zero => exact ⟨s.dev, rfl, Dev.Steady.refl _ _ _, fun _ => rfl⟩
  | succ n ih =>
    have hfirst : s.dev.readFirst true w = none := by rw [Dev.readFirst, Bool.not_true, hengine]; rfl
    let d := (s.dev.reported w cls 1 (s.mem.read (s.dev.memLoc w))).addWback (s.dev.corrected (s.dev.memLoc w) (s.mem.read (s.dev.memLoc w)))
    have hread : s.memRead (w % 2 ^ 22) cls 1 =
        (((s.mem.read (s.dev.memLoc w)).data, (s.mem.read (s.dev.memLoc w)).kind == 2), { s with dev := d }) := by
      rw [Nat.mod_eq_of_lt (by omega), State.memRead, show ((1 : Nat) == 1) = true from rfl, hfirst]
      exact memFetch_eq s w cls 1
    have hd : Dev.Steady [.mc, .ru, .svc] memErrFields s.dev d := (reported_reports _ _ _ _ _).steady.trans (addWback_steady _ _ _)
    obtain ⟨e, he, hse, hclean⟩ := ih (w + 1) { s with dev := d } (by omega) (fun v => (hd.engine v).trans (hengine v))
    have hat : State.wordsAt { s with dev := d } (w + 1) n = s.wordsAt (w + 1) n :=
      List.map_congr_left fun j _ => by rw [hd.cells.memLoc]
    refine ⟨e, ?_, hd.trans hse, fun hk => ?_⟩
    · rw [State.wordsRead, hread, wordsAt_succ]
      dsimp only
      rw [he, hat]
    · have h0 : (s.mem.read (s.dev.memLoc w)).kind = 0 := hk 0 (by omega)
      have hds : d = s.dev := by
        show (s.dev.reported _ _ _ _).addWback (s.dev.corrected _ _) = s.dev
        rw [reported_clean _ _ _ _ h0, Dev.corrected, if_neg (by omega), addWback_nil]
      rw [hclean fun j hj => ?_, hds]
      have := hk (j + 1) (by omega)
      rw [show w + (j + 1) = w + 1 + j by omega] at this
      show (s.mem.read (d.memLoc (w + 1 + j))).kind = 0
      rwa [hds]

end Sys2Proof.Machine
end

section
/-! PROOF. The DMA descriptors (R312, R356). -/

namespace Sys2Proof.Machine

theorem firstIdx_eq_of_first {p : Nat → Bool} {k : Nat} (n i : Nat) (hk : p k = true) (hlt : ∀ j, i ≤ j → j < k → p j = false) (hi : i ≤ k)
    (hn : k < i + n) : firstIdx p i n = some k := by
  induction n generalizing i with
  | zero => omega
  | succ n ih =>
    unfold firstIdx
    by_cases h : i = k
    · rw [h, if_pos hk]
    · rw [hlt i (Nat.le_refl _) (by omega)]
      exact ih (i + 1) (fun j h1 h2 => hlt j (by omega) h2) (by omega) (by omega)

theorem firstIdx_eq_none {p : Nat → Bool} (n i : Nat) (h : ∀ j, i ≤ j → j < i + n → p j = false) : firstIdx p i n = none := by
  induction n generalizing i with
  | zero => rfl
  | succ n ih =>
    unfold firstIdx
    rw [h i (Nat.le_refl _) (by omega)]
    exact ih (i + 1) (fun j h1 h2 => h j (by omega) (by omega))

/-! ## Bytes of the host -/

theorem bytesNat_lt (bs : List Byte) : bytesNat bs < 256 ^ bs.length := by
  induction bs with
  | nil => exact Nat.one_pos
  | cons b bs ih =>
    have hb : b.toNat < 256 := b.isLt
    show b.toNat + 256 * bytesNat bs < 256 ^ (bs.length + 1)
    rw [Nat.pow_succ]
    omega

theorem bytesNat_word_lt (bs : List Byte) : bytesNat (bs.take 16) < 2 ^ 128 := by
  refine lt_of_lt_of_le (bytesNat_lt _) ?_
  rw [show (2 : Nat) ^ 128 = 256 ^ 16 by norm_num]
  exact Nat.pow_le_pow_right (by decide) (List.length_take_le _ _)

theorem bytesNat_ofNat (g : Nat → Nat) (hg : ∀ i, g i < 256) (n k : Nat) :
    bytesNat ((List.range' k n).map (fun i => BitVec.ofNat 8 (g i))) = packFrom g k n := by
  induction n generalizing k with
  | zero => rfl
  | succ n ih =>
    rw [List.range'_succ, List.map_cons, packFrom_succ, ← ih (k + 1)]
    show (BitVec.ofNat 8 (g k)).toNat + 256 * bytesNat _ = _
    rw [BitVec.toNat_ofNat, Nat.mod_eq_of_lt (hg k)]
    ring

/-- The 16 bytes that MEM_READ sends for a word (R356). -/
def sentBytes (p : Nat × Bool) : List Byte := (List.range 16).map (fun k => if p.2 then (0 : Byte) else BitVec.ofNat 8 (byteOf p.1 k))

theorem sentBytes_length (p : Nat × Bool) : (sentBytes p).length = 16 := by rw [sentBytes, List.length_map, List.length_range]

theorem bytesNat_sentBytes (v : Nat) (bad : Bool) : bytesNat (sentBytes (v, bad)) = if bad = true then 0 else v % 2 ^ 128 := by
  cases bad with
  | true =>
    have h := bytesNat_ofNat (fun _ => 0) (fun _ => by decide) 16 0
    rw [← List.range_eq_range'] at h
    simp only [sentBytes, if_true]
    exact h
  | false =>
    have h := bytesNat_ofNat (byteOf v) (byteOf_lt v) 16 0
    rw [packFrom_bytes, pow_zero, Nat.div_one, show (256 : Nat) ^ 16 = 2 ^ 128 by norm_num, ← List.range_eq_range'] at h
    simp only [sentBytes, Bool.false_eq_true, if_false]
    exact h

theorem flatMap_sentBytes_length (ws : List (Nat × Bool)) : (ws.flatMap sentBytes).length = 16 * ws.length := by
  induction ws with
  | nil => rfl
  | cons p ws ih => rw [List.flatMap_cons, List.length_append, sentBytes_length, ih, List.length_cons]; ring

/-- The bytes of word `j` among those of a run of words. -/
theorem flatMap_sentBytes_chunk (ws : List (Nat × Bool)) (j : Nat) (hj : j < ws.length) :
    ((ws.flatMap sentBytes).drop (16 * j)).take 16 = sentBytes (ws.getD j (0, false)) := by
  induction ws generalizing j with
  | nil => simp at hj
  | cons p ws ih =>
    rw [List.flatMap_cons]
    cases j with
    | zero =>
      rw [Nat.mul_zero, List.drop_zero, List.take_append_of_le_length (by rw [sentBytes_length]),
        List.take_of_length_le (by rw [sentBytes_length])]
      rfl
    | succ j =>
      have hdrop : (sentBytes p ++ ws.flatMap sentBytes).drop (16 * (j + 1)) = (ws.flatMap sentBytes).drop (16 * j) := by
        rw [show 16 * (j + 1) = (sentBytes p).length + 16 * j by rw [sentBytes_length]; ring, List.drop_length_add_append]
      rw [hdrop, ih j (by simpa using hj)]
      rfl

/-! ## The end of a plain descriptor -/

theorem descEnd_plain {d : Dev} {x : Flight} (st v : Nat) (h : x.desc.privileged = false) : d.descEnd x st v = d.flightEnd x.id st v := by
  rw [Dev.descEnd, h]
  rfl

theorem flightEnd_frame {ps : List Part} (fs : List Fld) (d : Dev) (id st v : Nat) (hp : Part.host ∈ ps) :
    Dev.Frame ps fs d (d.flightEnd id st v) := Dev.host_frame _ _ _ hp

theorem now_of_stime {d e : Dev} (h : e.stime = d.stime) : e.now = d.now := by rw [Dev.now, Dev.now, h]

/-- A descriptor ends after effects that leave the host interface alone. -/
theorem descEnd_host_of {d e : Dev} {x : Flight} (st v : Nat) (hh : e.host = (d.descBegin x).host) (hn : e.stime = d.stime) :
    (e.descEnd x st v).host = d.done x st v := by
  rw [← descBegin_descEnd_host, descEnd_host, descEnd_host]
  simp only [Dev.flightEnd, Dev.modFlight, hh, now_of_stime hn]
  rfl

theorem dma_plain {x : Desc} (h : x.op = 0x40 ∨ x.op = 0x41 ∨ x.op = 0x42) : x.privileged = false := by
  rcases h with h | h | h <;> simp [Desc.privileged, h]

/-! ## A DMA descriptor that stores -/

section
variable {s : State} {x : Flight}

/-- The first word of a DMA descriptor's range, and its length in words (R356). -/
theorem dmaRange_eq (x : Desc) : dmaRange x = (x.d2.toNat / 16 % 2 ^ 22, x.d3.toNat % 2 ^ 25 / 16) := by
  rw [dmaRange, bits, bits, Nat.shiftRight_eq_div_pow, Nat.shiftRight_zero]

/-- R356: a DMA descriptor whose range passes the end or meets a region. -/
def Dev.dmaClosed (d : Dev) (x : Desc) : Prop :=
  2 ^ 22 < x.d2.toNat / 16 % 2 ^ 22 + x.d3.toNat % 2 ^ 25 / 16 ∨ d.regionMeets (x.d2.toNat / 16 % 2 ^ 22) (x.d3.toNat % 2 ^ 25 / 16) = true

theorem dmaBad_iff (d : Dev) (x : Desc) : d.dmaBad x = true ↔ d.dmaClosed x := by
  rw [Dev.dmaBad, dmaRange_eq, Bool.or_eq_true, decide_eq_true_eq, Dev.dmaClosed]

theorem dmaBad_descBegin (d : Dev) (y : Flight) (x : Desc) : (d.descBegin y).dmaBad x = d.dmaBad x := rfl

theorem descBegin_steady (d : Dev) (x : Flight) : Dev.Steady [.host] [] d (d.descBegin x) :=
  ⟨descBegin_frame d x, rfl, Dev.sameCells.refl _, fun _ => rfl⟩

/-- R356: the words `vs` have been stored from word `w` on, and nothing else. -/
def State.storedRun (s : State) (w : Nat) (vs : List Nat) (t : State) : Prop :=
  (∀ j, j < vs.length → t.mem.read (s.dev.memLoc (w + j)) = { data := vs.getD j 0 % 2 ^ 128, kind := 0 }) ∧
  (∀ k, (∀ j, j < vs.length → k ≠ s.dev.memLoc (w + j)) → t.mem.read k = s.mem.read k) ∧ Frame [.host, .mem, .mc] [MEM_COLLCNT_CNT] s t

/-- R356: a run that is stored for a descriptor, which then ends. -/
theorem dmaStore_ends {w : Nat} {vs : List Nat} (st v : Nat) (hplain : x.desc.privileged = false) (hend : w + vs.length ≤ 2 ^ 22)
    (hregion : ∀ j, j < vs.length → s.dev.regionDrop (w + j) = none) (hengine : ∀ v, s.dev.touches false v = []) :
    let r := State.dmaStore w vs { s with dev := s.dev.descBegin x }
    let t : State := { r with dev := r.dev.descEnd x st v }
    t.dev.host = s.dev.done x st v ∧ s.storedRun w vs t := by
  obtain ⟨e, he, hsteady⟩ := dmaStore_spec vs w { s with dev := s.dev.descBegin x }
    (fun j hj => ((descBegin_steady s.dev x).region (by simp) _).2 (hregion j hj)) hengine
  intro r t
  have hr : r = { s with mem := MemArr.putAll s.dev.memLoc w vs s.mem, dev := e } := he
  have ht : t = { s with mem := MemArr.putAll s.dev.memLoc w vs s.mem, dev := e.descEnd x st v } := by
    show ({ r with dev := r.dev.descEnd x st v } : State) = _
    rw [hr]
  have hinj : ∀ i j, i < vs.length → j < vs.length → s.dev.memLoc (w + i) = s.dev.memLoc (w + j) → i = j := fun i j hi hj h => by
    have := memLoc_inj (by omega) (by omega) h
    omega
  rw [ht]
  refine ⟨descEnd_host_of st v (hsteady.frame.part .host (by decide)) (hsteady.frame.part .stime (by decide)),
    fun j hj => read_putAll _ _ _ _ hinj j hj, fun k hk => read_putAll_ne _ _ _ _ _ hk, ?_⟩
  refine (frame_with_mem (ps := [.host, .mc]) _ ?_).mono (by simp) (fun _ h => h)
  rw [descEnd_plain st v hplain]
  exact ((descBegin_frame s.dev x).mono (by simp) (by simp)).trans
    ((hsteady.frame.mono (by simp) (fun _ h => h)).trans (flightEnd_frame _ _ _ _ _ (by simp)))

/-- R356: a descriptor whose range is closed ends with BAD_FIELD. -/
theorem descEnd_badField (hplain : x.desc.privileged = false) :
    ((s.dev.descBegin x).descEnd x 1 0).host = s.dev.done x 1 0 ∧ Dev.Frame [.host] [] s.dev ((s.dev.descBegin x).descEnd x 1 0) := by
  refine ⟨descBegin_descEnd_host _ _ _ _, (descBegin_frame s.dev x).trans ?_⟩
  rw [descEnd_plain _ _ hplain]
  exact flightEnd_frame _ _ _ _ _ (by simp)

end

/-! ## MEM_READ -/

section
variable {s : State} {x : Flight}

/-- What MEM_READ leaves once it has read `m` of its words (R356). -/
def State.readEnds (s : State) (x : Flight) (m : Nat) (e : Dev) : Dev :=
  let n := x.desc.d3.toNat % 2 ^ 25 / 16
  let ws := s.wordsAt (x.desc.d2.toNat / 16 % 2 ^ 22) m
  let d := e.hostOut x (ws.flatMap sentBytes)
  if m < n then d.descEnd x 7 (16 * m)
  else match firstIdx (fun k => (ws.getD k (0, false)).2) 0 n with
  | some k => d.descEnd x 8 (16 * k)
  | none => d.descEnd x 0 (16 * n)

/-- R310, R312: MEM_READ in the open range. -/
theorem descMemRead_spec (errAt : Option Nat) (hopen : ¬ s.dev.dmaClosed x.desc) (hengine : ∀ v, s.dev.touches false v = []) :
    let n := x.desc.d3.toNat % 2 ^ 25 / 16
    let m := min n ((errAt.map (fun b => b / 16)).getD n)
    ∃ e, State.descMemRead errAt x { s with dev := s.dev.descBegin x } = { s with dev := s.readEnds x m e } ∧
      Dev.Steady [.mc, .ru, .svc] memErrFields (s.dev.descBegin x) e := by
  intro n m
  have hend : x.desc.d2.toNat / 16 % 2 ^ 22 + m ≤ 2 ^ 22 := by
    have : m ≤ n := Nat.min_le_left _ _
    have := not_or.1 hopen
    omega
  obtain ⟨e, he, hsteady, -⟩ := wordsRead_spec 3 m _ { s with dev := s.dev.descBegin x } hend hengine
  refine ⟨e, ?_, hsteady⟩
  have hbad : (s.dev.descBegin x).dmaBad x.desc = false := by
    rw [dmaBad_descBegin, Bool.eq_false_iff]
    exact fun h => hopen ((dmaBad_iff _ _).1 h)
  rw [State.descMemRead]
  dsimp only
  rw [hbad, if_neg (by decide), dmaRange_eq]
  dsimp only
  rw [he]
  rfl

theorem hostOut_frame (d : Dev) (x : Flight) (bs : List Byte) : Dev.Frame [.out] [HIF_DETACH_DROP_CNT] d (d.hostOut x bs) :=
  Dev.Frame.ite (fun _ => Dev.incSat_frame _ _ _ (fit rfl) (by simp))
    (fun _ => Dev.Frame.ite (fun _ => Dev.Frame.refl _ _ _) (fun _ => Dev.emit_frame _ _ _ (by simp)))

/-- Whatever its status, MEM_READ ends after what it sends. -/
theorem readEnds_eq (s : State) (x : Flight) (m : Nat) (e : Dev) : ∃ st v, s.readEnds x m e =
    (e.hostOut x ((s.wordsAt (x.desc.d2.toNat / 16 % 2 ^ 22) m).flatMap sentBytes)).descEnd x st v := by
  unfold State.readEnds
  dsimp only
  split
  · exact ⟨_, _, rfl⟩
  · split <;> exact ⟨_, _, rfl⟩

/-- What MEM_READ leaves alone. -/
theorem readEnds_frame {m : Nat} {e : Dev} (hplain : x.desc.privileged = false) (h : Dev.Steady [.mc, .ru, .svc] memErrFields (s.dev.descBegin x) e) :
    Dev.Frame [.host, .out, .mc, .ru, .svc] (HIF_DETACH_DROP_CNT :: memErrFields) s.dev (s.readEnds x m e) := by
  obtain ⟨st, v, heq⟩ := readEnds_eq s x m e
  rw [heq, descEnd_plain _ _ hplain]
  refine ((descBegin_frame s.dev x).mono (by simp) (by simp)).trans ((h.frame.mono (by simp) (fun f hf => List.mem_cons_of_mem _ hf)).trans ?_)
  exact ((hostOut_frame _ _ _).mono (by simp) (by simp)).trans (flightEnd_frame _ _ _ _ _ (by simp))

/-- The bytes of MEM_READ leave in one write, none where there are none (R356). -/
theorem readEnds_out {m : Nat} {e : Dev} (hplain : x.desc.privileged = false) (h : Dev.Steady [.mc, .ru, .svc] memErrFields (s.dev.descBegin x) e) :
    (x.orphan = false → m = 0 → (s.readEnds x m e).out = s.dev.out) ∧
    (x.orphan = false → 0 < m → (s.readEnds x m e).out =
      s.dev.out ++ [.hostWrite x.desc.d1.toNat ((s.wordsAt (x.desc.d2.toNat / 16 % 2 ^ 22) m).flatMap sentBytes)]) ∧
    (x.orphan = true → (s.readEnds x m e).out = s.dev.out ∧
      (s.readEnds x m e).get HIF_DETACH_DROP_CNT = min (s.dev.get HIF_DETACH_DROP_CNT + 1) (2 ^ 32 - 1)) := by
  obtain ⟨st, v, heq⟩ := readEnds_eq s x m e
  have hout : e.out = s.dev.out := h.frame.part .out (by decide)
  have hlen := flatMap_sentBytes_length (s.wordsAt (x.desc.d2.toNat / 16 % 2 ^ 22) m)
  rw [State.wordsAt, List.length_map, List.length_range, ← State.wordsAt] at hlen
  rw [heq, descEnd_plain _ _ hplain]
  show (x.orphan = false → m = 0 → (e.hostOut x _).out = _) ∧ (x.orphan = false → 0 < m → (e.hostOut x _).out = _) ∧
    (x.orphan = true → (e.hostOut x _).out = _ ∧ (e.hostOut x _).get HIF_DETACH_DROP_CNT = _)
  refine ⟨fun ho hm => ?_, fun ho hm => ?_, fun ho => ?_⟩
  · rw [Dev.hostOut, if_neg (by simp [ho]), if_pos (by rw [List.isEmpty_iff_length_eq_zero, hlen, hm]), hout]
  · rw [Dev.hostOut, if_neg (by simp [ho]), if_neg (by rw [List.isEmpty_iff_length_eq_zero, hlen]; omega), ← hout]
    rfl
  · rw [Dev.hostOut, if_pos ho, Dev.hostDrop, Dev.incSat_eq, Dev.put_out, hout, Dev.get_put_same _ _ _ (fit rfl), h.frame.get _ (apart_all rfl)]
    exact ⟨rfl, Nat.mod_eq_of_lt (lt_of_le_of_lt (Nat.min_le_right _ _) (Nat.sub_lt (Nat.two_pow_pos _) Nat.one_pos))⟩

theorem wordsAt_getD (s : State) (w : Nat) {n k : Nat} (h : k < n) :
    (s.wordsAt w n).getD k (0, false) = ((s.mem.read (s.dev.memLoc (w + k))).data, (s.mem.read (s.dev.memLoc (w + k))).kind == 2) := by
  rw [State.wordsAt, List.getD_eq_getElem?_getD, List.getElem?_map, List.getElem?_range h]
  rfl

/-- R356: the status of MEM_READ names the first word that could not be corrected. -/
theorem readEnds_host {m : Nat} {e : Dev} (h : Dev.Steady [.mc, .ru, .svc] memErrFields (s.dev.descBegin x) e) :
    let n := x.desc.d3.toNat % 2 ^ 25 / 16
    let cell (j : Nat) := s.mem.read (s.dev.memLoc (x.desc.d2.toNat / 16 % 2 ^ 22 + j))
    (m < n → (s.readEnds x m e).host = s.dev.done x 7 (16 * m)) ∧
    (m = n → (∀ j, j < n → (cell j).kind ≠ 2) → (s.readEnds x m e).host = s.dev.done x 0 (16 * n)) ∧
    (∀ k, m = n → k < n → (cell k).kind = 2 → (∀ j, j < k → (cell j).kind ≠ 2) → (s.readEnds x m e).host = s.dev.done x 8 (16 * k)) := by
  intro n cell
  have ends (bs : List Byte) (st v : Nat) : ((e.hostOut x bs).descEnd x st v).host = s.dev.done x st v := by
    have hf := hostOut_frame e x bs
    exact descEnd_host_of st v ((hf.part .host (by decide)).trans (h.frame.part .host (by decide)))
      ((hf.part .stime (by decide)).trans (h.frame.part .stime (by decide)))
  have hbad (j : Nat) (hj : j < n) : ((s.wordsAt (x.desc.d2.toNat / 16 % 2 ^ 22) n).getD j (0, false)).2 = ((cell j).kind == 2) := by
    rw [wordsAt_getD _ _ hj]
  unfold State.readEnds
  dsimp only
  refine ⟨fun hm => ?_, fun hm hk => ?_, fun k hm hkn hk hlt => ?_⟩
  · rw [if_pos hm, ends]
  · rw [if_neg (by omega), hm, firstIdx_eq_none n 0 fun j _ hj => by rw [hbad j (by omega)]; simpa using hk j (by omega)]
    exact ends _ _ _
  · rw [if_neg (by omega), hm, firstIdx_eq_of_first (k := k) n 0 (by rw [hbad k hkn, hk]; rfl)
      (fun j _ hj => by rw [hbad j (by omega)]; simpa using hlt j hj) (Nat.zero_le _) (by omega)]
    exact ends _ _ _

end

/-- No engine-side write of the tick is remembered where no write of it is. -/
theorem touches_of_stale {d : Dev} (h : d.mc.touched.all (fun y => y.tick != d.tick) = true) (b : Bool) (w : Nat) : d.touches b w = [] := by
  rw [Dev.touches, List.filter_eq_nil_iff]
  intro y hy
  have := List.all_eq_true.1 h y hy
  simp only [bne_iff_ne, ne_eq] at this
  simp [this]

end Sys2Proof.Machine
end

section
/-! PROOF. The bulk port (R12, R18, R361, R362). -/

namespace Sys2Proof.Machine

/-- R361: the stacked byte address of an access, in terms of the registers. -/
theorem bulkAt_eq (d : Dev) (f off : Nat) :
    d.bulkAt f off = 4 * d.get (BULK_PTR_PTR f) + (if d.get (BULK_CTL_INC f) = 1 then 0 else 4 * off) := by
  rw [Dev.bulkAt]
  by_cases h : d.get (BULK_CTL_INC f) = 1
  · rw [if_pos ((flag_iff_one rfl).2 h), if_pos h]
  · rw [if_neg (fun c => h ((flag_iff_one rfl).1 c)), if_neg h]

theorem bulkStep_frame (ps : List Part) {fs : List Fld} (d : Dev) (f n : Nat) (hf : BULK_PTR_PTR f ∈ fs) : Dev.Frame ps fs d (d.bulkStep f n) :=
  Dev.Frame.ite (fun _ => Dev.put_frame _ _ _ _ (fit rfl) hf) (fun _ => Dev.Frame.refl _ _ _)

/-- R361: PTR advances in STREAM mode, modulo the size of stacked memory. -/
theorem bulkStep_ptr (d : Dev) (f n : Nat) : (d.bulkStep f n).get (BULK_PTR_PTR f) =
    (d.get (BULK_PTR_PTR f) + (if d.get (BULK_CTL_INC f) = 1 then n else 0)) % 2 ^ 24 := by
  rw [Dev.bulkStep]
  by_cases h : d.get (BULK_CTL_INC f) = 1
  · rw [if_pos ((flag_iff_one rfl).2 h), if_pos h, Dev.get_put_same _ _ _ (fit rfl)]
    rfl
  · rw [if_neg (fun c => h ((flag_iff_one rfl).1 c)), if_neg h, Nat.add_zero]
    exact (Nat.mod_eq_of_lt (Dev.get_lt d (BULK_PTR_PTR f))).symm

/-! ## Arrival (R12, R18) -/

/-- R322, R308: an access of `n` dwords by function `f` at dword `off` finds stacked memory ready. -/
def Dev.bulkReady (d : Dev) (f off n : Nat) : Prop :=
  d.get (BULK_CTL_EN f) = 1 → d.memUp = true ∧ d.memClear (d.bulkAt f off / 16) ((d.bulkAt f off + 4 * n + 15) / 16 - d.bulkAt f off / 16) = true

theorem bulkMay_iff (d : Dev) (x : BulkOp) : d.bulkMay x = true ↔ d.bulkReady x.span.1 x.span.2.1 x.span.2.2 := by
  rw [Dev.bulkMay, Dev.bulkReady, ← flag_iff_one (f := BULK_CTL_EN x.span.1) rfl]
  cases d.flag (BULK_CTL_EN x.span.1) <;> simp

/-- An access waits behind those that wait, and while it may not act. -/
theorem bulkArrive_waits {s : State} {x : BulkOp} (h : ¬ (s.dev.host.bulkq = [] ∧ s.dev.bulkMay x = true)) :
    s.bulkArrive x = { s with dev := { s.dev with host := { s.dev.host with bulkq := s.dev.host.bulkq ++ [x] } } } := by
  rw [State.bulkArrive, if_neg]
  rwa [Bool.and_eq_true, List.isEmpty_iff]

theorem bulkArrive_acts {s : State} {x : BulkOp} (hq : s.dev.host.bulkq = []) (hm : s.dev.bulkMay x = true) : s.bulkArrive x = s.bulkAct x := by
  rw [State.bulkArrive, if_pos (by rw [hq, hm]; rfl)]

/-- An access that acts at once does as one that has waited alone. -/
theorem bulkTick_alone {s : State} {x : BulkOp} (hq : s.dev.host.bulkq = []) (hm : s.dev.bulkMay x = true) :
    ({ s with dev := { s.dev with host := { s.dev.host with bulkq := [x] } } } : State).bulkTick = s.bulkAct x := by
  have hm' : ({ s.dev with host := { s.dev.host with bulkq := [x] } } : Dev).bulkMay x = true := hm
  rw [State.bulkTick]
  dsimp only
  rw [if_pos hm', ← hq]

/-! ## Reads (R361, R362) -/

theorem bulkRead_closed {s : State} {f : Nat} (off n : Nat) (h : s.dev.get (BULK_CTL_EN f) = 0) :
    s.bulkRead f off n = { s with dev := s.dev.emit (.bulkData f (List.replicate n 0) false) } := by
  rw [State.bulkRead, Dev.flag, h]
  rfl

theorem bulkRead_beyond {s : State} {f off n : Nat} (h : s.dev.get (BULK_CTL_EN f) = 1) (hb : 2 ^ 26 < s.dev.bulkAt f off + 4 * n) :
    s.bulkRead f off n = { s with dev := (s.dev.raise (BULK_STATUS_RANGE f)).emit (.unsupported f) } := by
  rw [State.bulkRead, Dev.flag, h]
  exact if_pos hb

/-- The device after a read that has found `ws`, and left `e` (R361, R362). -/
def Dev.bulkDone (e : Dev) (f a n : Nat) (ws : List (Nat × Bool)) : Dev :=
  let bad := ws.any (fun x => x.2)
  ((if bad then e.raise (BULK_STATUS_POISON f) else e).bulkStep f n).emit (.bulkData f (bulkDwords a n ws) bad)

theorem bulkRead_within {s : State} {f off n : Nat} (h : s.dev.get (BULK_CTL_EN f) = 1) (hb : s.dev.bulkAt f off + 4 * n ≤ 2 ^ 26)
    (hengine : ∀ v, s.dev.touches false v = []) :
    let a := s.dev.bulkAt f off
    let m := (a + 4 * n + 15) / 16 - a / 16
    ∃ e, s.bulkRead f off n = { s with dev := e.bulkDone f a n (s.wordsAt (a / 16) m) } ∧ Dev.Steady [.mc, .ru, .svc] memErrFields s.dev e ∧
      ((∀ j, j < m → (s.mem.read (s.dev.memLoc (a / 16 + j))).kind = 0) → e = s.dev) := by
  intro a m
  obtain ⟨e, he, hsteady, hclean⟩ := wordsRead_spec 3 m (a / 16) s (by omega) hengine
  refine ⟨e, ?_, hsteady, hclean⟩
  have hflag : s.dev.flag (BULK_CTL_EN f) = true := (flag_iff_one rfl).2 h
  rw [State.bulkRead]
  dsimp only
  rw [if_neg (by simp [hflag]), if_neg (Nat.not_lt.2 hb), he]
  rfl

theorem bulkDwords_getD (a n : Nat) (ws : List (Nat × Bool)) {j : Nat} (h : j < n) : ((bulkDwords a n ws).getD j 0).toNat =
    (ws.getD ((a + 4 * j) / 16 - a / 16) (0, false)).1 / 2 ^ (8 * ((a + 4 * j) % 16)) % 2 ^ 32 := by
  rw [bulkDwords, List.getD_eq_getElem?_getD, List.getElem?_map, List.getElem?_range h]
  show (BitVec.ofNat 32 (dwordAt _ _)).toNat = _
  rw [BitVec.toNat_ofNat, dwordAt, bits, Nat.shiftRight_eq_div_pow, Nat.mod_mod]

/-- The fields of the other blocks are none of those of an error report. -/
theorem apart_memErr {y : Fld} (ho : y.off < 0x30000) : ∀ g ∈ memErrFields, g.apart y := by
  intro g hg
  have := memErrFields_high g hg
  exact .inl (by omega)

section
variable {d e : Dev} {f a n : Nat} {ws : List (Nat × Bool)} (h : Dev.Steady [.mc, .ru, .svc] memErrFields d e)
include h

theorem bulkDone_frame : Dev.Frame [.out, .mc, .ru, .svc] (BULK_PTR_PTR f :: BULK_STATUS_POISON f :: memErrFields) d (e.bulkDone f a n ws) := by
  refine (h.frame.mono (by simp) (fun g hg => List.mem_cons_of_mem _ (List.mem_cons_of_mem _ hg))).trans ?_
  have hraise : Dev.Frame [.out, .mc, .ru, .svc] (BULK_PTR_PTR f :: BULK_STATUS_POISON f :: memErrFields) e
      (if ws.any (fun x => x.2) then e.raise (BULK_STATUS_POISON f) else e) :=
    Dev.Frame.ite (fun _ => Dev.raise_frame _ _ _ (fit rfl) (by simp)) (fun _ => Dev.Frame.refl _ _ _)
  exact hraise.trans ((bulkStep_frame _ _ _ _ (by simp)).trans (Dev.emit_frame _ _ _ (by simp)))

theorem bulkDone_ptr (hf : f < 4) : (e.bulkDone f a n ws).get (BULK_PTR_PTR f) =
    (d.get (BULK_PTR_PTR f) + (if d.get (BULK_CTL_INC f) = 1 then n else 0)) % 2 ^ 24 := by
  have hp : (BULK_PTR_PTR f).off < 0x30000 := by simp only [BULK_PTR_PTR, BULK_PTR]; omega
  have hc : (BULK_CTL_INC f).off < 0x30000 := by simp only [BULK_CTL_INC, BULK_CTL]; omega
  have hraise (g : Fld) (hg : (BULK_STATUS_POISON f).apart g) :
      (if ws.any (fun x => x.2) then e.raise (BULK_STATUS_POISON f) else e).get g = e.get g := by
    split
    · rw [Dev.raise_eq, Dev.get_put_ne _ _ (fit rfl) hg]
    · rfl
  show (Dev.bulkStep _ f n).get (BULK_PTR_PTR f) = _
  have hsp : (BULK_STATUS_POISON f).apart (BULK_PTR_PTR f) := .inl (by simp only [BULK_STATUS_POISON, BULK_STATUS, BULK_PTR_PTR, BULK_PTR]; omega)
  have hsc : (BULK_STATUS_POISON f).apart (BULK_CTL_INC f) := .inl (by simp only [BULK_STATUS_POISON, BULK_STATUS, BULK_CTL_INC, BULK_CTL]; omega)
  rw [bulkStep_ptr, hraise _ hsp, hraise _ hsc, h.frame.get _ (apart_memErr hp), h.frame.get _ (apart_memErr hc)]

theorem bulkDone_out : (e.bulkDone f a n ws).out = d.out ++ [.bulkData f (bulkDwords a n ws) (ws.any (fun x => x.2))] := by
  have hraise : (if ws.any (fun x => x.2) then e.raise (BULK_STATUS_POISON f) else e).out = e.out := by split <;> rfl
  have hstep : (Dev.bulkStep (if ws.any (fun x => x.2) then e.raise (BULK_STATUS_POISON f) else e) f n).out = e.out :=
    ((bulkStep_frame [] (fs := [BULK_PTR_PTR f]) _ f n (by simp)).part .out (by simp)).trans hraise
  show (Dev.bulkStep _ f n).out ++ _ = _
  rw [hstep, h.frame.part .out (by decide)]

omit h in
theorem bulkDone_poison (hbad : ws.any (fun x => x.2) = true) : (e.bulkDone f a n ws).get (BULK_STATUS_POISON f) = 1 := by
  have hsp : (BULK_PTR_PTR f).apart (BULK_STATUS_POISON f) := .inl (by simp only [BULK_STATUS_POISON, BULK_STATUS, BULK_PTR_PTR, BULK_PTR]; omega)
  show (Dev.bulkStep (if ws.any (fun x => x.2) = true then _ else _) f n).get _ = 1
  rw [if_pos hbad, (bulkStep_frame [] (fs := [BULK_PTR_PTR f]) _ f n (by simp)).get _ (by
    intro g hg; rw [List.mem_singleton] at hg; rw [hg]; exact hsp), Dev.raise_eq, Dev.get_put_same _ _ _ (fit rfl)]
  rfl

end

/-- The first read of a clean run changes PTR alone. -/
theorem bulkDone_frame_clean (d : Dev) (f a n : Nat) {ws : List (Nat × Bool)} (hws : ws.any (fun x => x.2) = false) :
    Dev.Frame [.out] [BULK_PTR_PTR f] d (d.bulkDone f a n ws) := by
  unfold Dev.bulkDone
  dsimp only
  rw [hws]
  exact (bulkStep_frame _ _ _ _ (by simp)).trans (Dev.emit_frame _ _ _ (by simp))

theorem wordsAt_any (s : State) (w m : Nat) : (s.wordsAt w m).any (fun x => x.2) = true ↔ ∃ j, j < m ∧ (s.mem.read (s.dev.memLoc (w + j))).kind = 2 := by
  simp [State.wordsAt]

/-! ## Writes (R361, R362, R133) -/

/-- The words that a write stores lie among those that its dwords lie in. -/
theorem bulkWords_mem (data : List MaskedDword) (a : Nat) : ∀ p ∈ bulkWords a data, ∃ j, j < data.length ∧ p.1 = (a + 4 * j) / 16 := by
  induction data generalizing a with
  | nil => intro p hp; cases hp
  | cons x r ih =>
    have tail : ∀ p ∈ bulkWords (a + 4) r, ∃ j, j < (x :: r).length ∧ p.1 = (a + 4 * j) / 16 := fun p hp => by
      obtain ⟨j, hj, hpj⟩ := ih (a + 4) p hp
      exact ⟨j + 1, by simpa using hj, by rw [hpj]; congr 1; omega⟩
    have head : ∀ m v : Nat, ∃ j, j < (x :: r).length ∧ (a / 16, m, v).1 = (a + 4 * j) / 16 := fun m v => ⟨0, by simp, rfl⟩
    intro p hp
    rw [bulkWords] at hp
    split at hp
    · rename_i y t hyt
      split at hp
      · rename_i hy
        rcases List.mem_cons.1 hp with rfl | hp
        · exact ⟨0, by simp, hy⟩
        · exact tail p (by rw [hyt]; exact List.mem_cons_of_mem _ hp)
      · rcases List.mem_cons.1 hp with rfl | hp
        · exact head _ _
        · exact tail p hp
    · rw [List.mem_singleton] at hp
      rw [hp]
      exact head _ _

/-- What a bulk write changes beside the words that it stores. -/
structure Dev.Stores (f : Nat) (d e : Dev) : Prop where
  frame : Dev.Frame [.mc, .ru, .svc] (BULK_STATUS_REGION f :: memErrFields ++ memDropFields) d e
  cells : d.sameCells e

theorem Dev.Stores.trans {f : Nat} {d e g : Dev} (h : Dev.Stores f d e) (k : Dev.Stores f e g) : Dev.Stores f d g :=
  ⟨h.frame.trans k.frame, h.cells.trans k.cells⟩

theorem memDropFields_apart_sparing (g : Fld) (h : g.off = MEM_STATUS ∨ g.off = MEM_SPAREPTR) : ∀ f ∈ memDropFields, f.apart g :=
  memDropFields_apart (by rcases h with h | h <;> rw [h] <;> decide)

/-- A dropped write moves no word. -/
theorem regionDrop_cells {d e : Dev} {w : Nat} (h : d.regionDrop w = some e) : d.sameCells e :=
  sameCells_of ((regionDrop_frame h).get _ (memDropFields_apart_sparing _ (.inl rfl))) ((regionDrop_frame h).get _ (memDropFields_apart_sparing _ (.inl rfl)))
    ((regionDrop_frame h).get _ (memDropFields_apart_sparing _ (.inr rfl))) (by rw [regionDrop_mc h]) (by rw [regionDrop_mc h]) (by rw [regionDrop_mc h])

/-- R361, R133: one word of a bulk write is skipped, dropped, or stored. -/
theorem bulkStore_cases {f : Nat} (s : State) (x : Nat × Nat × Nat) :
    (x.2.1 = 0 ∧ State.bulkStore f s x = s) ∨
    (x.2.1 ≠ 0 ∧ ∃ e, s.dev.regionDrop x.1 = some e ∧ State.bulkStore f s x = { s with dev := e.raise (BULK_STATUS_REGION f) }) ∨
    (x.2.1 ≠ 0 ∧ s.dev.regionDrop x.1 = none ∧ State.bulkStore f s x = s.memSpineStore x.1 x.2.1 x.2.2) := by
  unfold State.bulkStore
  by_cases h : x.2.1 = 0
  · exact .inl ⟨h, if_pos h⟩
  · rw [if_neg h]
    cases hr : s.dev.regionDrop x.1 with
    | none => exact .inr (.inr ⟨h, rfl, rfl⟩)
    | some e => exact .inr (.inl ⟨h, e, rfl, rfl⟩)

theorem bulkStore_spec {f : Nat} (hf : f < 4) (s : State) (x : Nat × Nat × Nat) : ∃ (n : MemArr) (e : Dev), State.bulkStore f s x = { s with mem := n, dev := e } ∧
    Dev.Stores f s.dev e ∧ ∀ k, k ≠ s.dev.memLoc x.1 → n.read k = s.mem.read k := by
  have hstatus (g : Fld) (hg : 0x30000 ≤ g.off) : (BULK_STATUS_REGION f).apart g := .inl (by
    simp only [BULK_STATUS_REGION, BULK_STATUS]; omega)
  rcases bulkStore_cases (f := f) s x with ⟨-, h⟩ | ⟨-, e, he, h⟩ | ⟨-, -, h⟩
  · exact ⟨s.mem, s.dev, h, ⟨Dev.Frame.refl _ _ _, Dev.sameCells.refl _⟩, fun _ _ => rfl⟩
  · refine ⟨s.mem, _, h, ⟨?_, (regionDrop_cells he).trans ?_⟩, fun _ _ => rfl⟩
    · exact ((regionDrop_frame he).mono (by simp) (fun g hg => List.mem_append_right _ hg)).trans (Dev.raise_frame _ _ _ (fit rfl) (by simp))
    · exact sameCells_of (Dev.get_put_ne _ _ (fit rfl) (hstatus _ (by decide))) (Dev.get_put_ne _ _ (fit rfl) (hstatus _ (by decide)))
        (Dev.get_put_ne _ _ (fit rfl) (hstatus _ (by decide))) rfl rfl rfl
  · have hs := memSpineStore_steady s x.1 x.2.1 x.2.2
    refine ⟨_, _, h.trans (memSpineStore_eq s x.1 x.2.1 x.2.2), ⟨hs.frame.mono (fun _ hp => hp) ?_, hs.cells⟩, fun k hk => read_put_ne _ _ _ hk⟩
    intro g hg
    rcases List.mem_cons.1 hg with rfl | hg
    · exact List.mem_append_right _ List.mem_cons_self
    · exact List.mem_append_left _ (List.mem_cons_of_mem _ hg)

/-- R361: the words of a bulk write, one after another. -/
theorem bulkStores_spec {f : Nat} (hf : f < 4) (l : List (Nat × Nat × Nat)) (s : State) : ∃ (n : MemArr) (e : Dev),
    l.foldl (State.bulkStore f) s = { s with mem := n, dev := e } ∧ Dev.Stores f s.dev e ∧
      ∀ k, (∀ x ∈ l, k ≠ s.dev.memLoc x.1) → n.read k = s.mem.read k := by
  induction l generalizing s with
  | nil => exact ⟨s.mem, s.dev, rfl, ⟨Dev.Frame.refl _ _ _, Dev.sameCells.refl _⟩, fun _ _ => rfl⟩
  | cons x l ih =>
    obtain ⟨n, e, hx, hstores, hread⟩ := bulkStore_spec hf s x
    obtain ⟨n', e', hl, hstores', hread'⟩ := ih { s with mem := n, dev := e }
    refine ⟨n', e', by rw [List.foldl_cons, hx, hl], hstores.trans hstores', fun k hk => ?_⟩
    rw [hread' k (fun y hy => by
      show k ≠ e.memLoc y.1
      rw [hstores.cells.memLoc]
      exact hk y (List.mem_cons_of_mem _ hy))]
    exact hread k (hk x List.mem_cons_self)

theorem bulkWrite_closed {s : State} {f : Nat} (off : Nat) (data : List MaskedDword) (h : s.dev.get (BULK_CTL_EN f) = 0) :
    s.bulkWrite f off data = s := by
  rw [State.bulkWrite, Dev.flag, h]
  rfl

/-- The device after the words of a write have been stored and left `e`, `room` dwords up to the end of stacked memory (R361). -/
def Dev.bulkWrote (e : Dev) (f room n : Nat) : Dev := if room < n then e.raise (BULK_STATUS_RANGE f) else e.bulkStep f n

theorem bulkWrite_open {s : State} {f : Nat} (off : Nat) (data : List MaskedDword) (h : s.dev.get (BULK_CTL_EN f) = 1) :
    let a := s.dev.bulkAt f off
    let room := (2 ^ 26 - a) / 4
    let t := (bulkWords a (data.take room)).foldl (State.bulkStore f) s
    s.bulkWrite f off data = { t with dev := t.dev.bulkWrote f room data.length } := by
  have hflag : s.dev.flag (BULK_CTL_EN f) = true := (flag_iff_one rfl).2 h
  rw [State.bulkWrite]
  dsimp only
  rw [if_neg (by simp [hflag])]
  rfl

theorem bulkWrote_frame (e : Dev) (f room n : Nat) :
    Dev.Frame [] [BULK_PTR_PTR f, BULK_STATUS_RANGE f] e (e.bulkWrote f room n) :=
  Dev.Frame.ite (fun _ => Dev.raise_frame _ _ _ (fit rfl) (by simp)) (fun _ => bulkStep_frame _ _ _ _ (by simp))

/-- The registers of a port are none of those that its stores write. -/
theorem stores_get {f : Nat} {d e : Dev} (h : Dev.Stores f d e) {g : Fld} (hg : g.off < 0x10000) (hs : (BULK_STATUS_REGION f).apart g) :
    e.get g = d.get g := by
  refine h.frame.get _ fun y hy => ?_
  simp only [List.cons_append, List.mem_cons, List.mem_append] at hy
  rcases hy with rfl | hy | hy
  · exact hs
  · have := memErrFields_high y hy
    exact .inl (by omega)
  · have hlow : 0x10000 ≤ y.off := by
      simp only [memDropFields, List.cons_append, List.mem_cons, List.mem_append, List.mem_map, List.mem_range] at hy
      rcases hy with rfl | ⟨q, hq, rfl⟩ | ⟨t, ht, rfl⟩
      · decide
      · simp only [COACH_REGION_WR_CNT, COACH_REGION_WR]; omega
      · simp only [TPL_STATUS_WR_DROP, TPL_STATUS]; omega
    exact .inl (by omega)

end Sys2Proof.Machine
end

section
/-! PROOF. Bulk data (R12, R18, R356, R361, R362). -/

namespace Sys2Proof.Machine

/-! ## One dword of a word -/

/-- Four bytes of a word from byte `r` on are replaced; the rest stays. -/
theorem mergeBytes_dword (old v r : Nat) (hr : r + 4 ≤ 16) (hv : v < 2 ^ 32) :
    let d := mergeBytes (15 * 2 ^ r) old (v * 2 ^ (8 * r)) % 2 ^ 128
    d / 2 ^ (8 * r) % 2 ^ 32 = v ∧ d % 2 ^ (8 * r) = old % 2 ^ (8 * r) ∧ d / 2 ^ (8 * r + 32) = old % 2 ^ 128 / 2 ^ (8 * r + 32) := by
  intro d
  have hpow (k : Nat) : 2 ^ (8 * k) = 256 ^ k := Nat.pow_mul 2 8 k
  have hbyte (i : Nat) (hi : i < 16) : byteOf d i = if r ≤ i ∧ i < r + 4 then byteOf (v * 256 ^ r) i else byteOf old i := by
    have hbit : (15 * 2 ^ r).testBit i = (decide (r ≤ i) && decide (i - r < 4)) := by
      rw [Nat.testBit_mul_two_pow, show (15 : Nat) = 2 ^ 4 - 1 from rfl, Nat.testBit_two_pow_sub_one]
    rw [byteOf_mod _ hi, byteOf_mergeBytes _ _ _ hi, hbit, ← hpow]
    exact if_congr (by rw [Bool.and_eq_true, decide_eq_true_eq, decide_eq_true_eq]; omega) rfl rfl
  have hlt (k : Nat) (hk : k ≤ 16) (z : Nat) (hz : z < 2 ^ 128) : z / 256 ^ k < 256 ^ (16 - k) := by
    rw [Nat.div_lt_iff_lt_mul (Nat.pow_pos (by decide)), ← Nat.pow_add, Nat.sub_add_cancel hk]
    exact lt_of_lt_of_eq hz (by norm_num)
  refine ⟨?_, ?_, ?_⟩
  · rw [hpow, show (2 : Nat) ^ 32 = 256 ^ 4 by norm_num, ← packFrom_bytes, packFrom_congr r 4 (g := byteOf (v * 256 ^ r)) fun i h1 h2 => by
      rw [hbyte i (by omega), if_pos ⟨h1, h2⟩], packFrom_bytes, Nat.mul_div_cancel _ (Nat.pow_pos (by decide))]
    exact Nat.mod_eq_of_lt (lt_of_lt_of_eq hv (by norm_num))
  · have key := packFrom_congr 0 r (f := byteOf d) (g := byteOf old) fun i h1 h2 => by rw [hbyte i (by omega), if_neg (by omega)]
    rwa [packFrom_bytes, packFrom_bytes, pow_zero, Nat.div_one, Nat.div_one, ← hpow] at key
  · have key := packFrom_congr (r + 4) (16 - (r + 4)) (f := byteOf d) (g := byteOf (old % 2 ^ 128)) fun i h1 h2 => by
      rw [hbyte i (by omega), if_neg (by omega), byteOf_mod _ (by omega)]
    rw [packFrom_bytes, packFrom_bytes, Nat.mod_eq_of_lt (hlt _ hr _ (Nat.mod_lt _ (by decide))),
      Nat.mod_eq_of_lt (hlt _ hr _ (Nat.mod_lt _ (by decide)))] at key
    rwa [show 8 * r + 32 = 8 * (r + 4) by ring, hpow]

theorem bulkWords_single (a : Nat) (x : MaskedDword) : bulkWords a [x] = [(a / 16, x.be.toNat * 2 ^ (a % 16), x.v.toNat * 2 ^ (8 * (a % 16)))] := rfl

/-- R361: one whole dword reaches a clean word of stacked memory. -/
theorem bulkStore_dword {s : State} {a f : Nat} {x : MaskedDword} (ha : a % 4 = 0) (hbe : x.be = 15) (hregion : s.dev.regionDrop (a / 16) = none)
    (hengine : ∀ v, s.dev.touches false v = []) (hclean : (s.mem.read (s.dev.memLoc (a / 16))).kind = 0) :
    let old := (s.mem.read (s.dev.memLoc (a / 16))).data
    let v := (((bulkWords a [x]).foldl (State.bulkStore f) s).mem.read (s.dev.memLoc (a / 16))).data
    v / 2 ^ (8 * (a % 16)) % 2 ^ 32 = x.v.toNat ∧ v % 2 ^ (8 * (a % 16)) = old % 2 ^ (8 * (a % 16)) ∧
      v / 2 ^ (8 * (a % 16) + 32) = old % 2 ^ 128 / 2 ^ (8 * (a % 16) + 32) := by
  have hr : a % 16 + 4 ≤ 16 := by omega
  have hmask0 : 15 * 2 ^ (a % 16) ≠ 0 := Nat.mul_ne_zero (by decide) (Nat.pos_iff_ne_zero.1 (Nat.two_pow_pos _))
  have hmaskf : 15 * 2 ^ (a % 16) ≠ 0xFFFF := by
    have : 2 ^ (a % 16) ≤ 2 ^ 12 := Nat.pow_le_pow_right (by decide) (by omega)
    omega
  intro old v
  have hv : v = mergeBytes (15 * 2 ^ (a % 16)) old (x.v.toNat * 2 ^ (8 * (a % 16))) % 2 ^ 128 := by
    show (((bulkWords a [x]).foldl (State.bulkStore f) s).mem.read (s.dev.memLoc (a / 16))).data = _
    rw [bulkWords_single, List.foldl_cons, List.foldl_nil, hbe, State.bulkStore]
    show (((if 15 * 2 ^ (a % 16) = 0 then s else match s.dev.regionDrop (a / 16) with
      | some d => { s with dev := d.raise (BULK_STATUS_REGION f) }
      | none => s.memSpineStore (a / 16) (15 * 2 ^ (a % 16)) (x.v.toNat * 2 ^ (8 * (a % 16))) : State)).mem.read _).data = _
    rw [if_neg hmask0, hregion]
    dsimp only
    rw [memSpineStore_eq, underEngine_none (hengine _)]
    show ((s.mem.put _ _ _).read _).data = _
    rw [read_put_masked _ _ hmask0 hmaskf (by omega)]
  rw [hv]
  exact mergeBytes_dword old x.v.toNat (a % 16) hr x.v.isLt

/-- R133, R361: a dword for a closed region is dropped, and REGION shows it. -/
theorem bulkStore_dropped {s : State} {a f : Nat} {x : MaskedDword} (hbe : x.be ≠ 0) (hregion : s.dev.regionDrop (a / 16) ≠ none) :
    let t := (bulkWords a [x]).foldl (State.bulkStore f) s
    t.mem = s.mem ∧ t.dev.get (BULK_STATUS_REGION f) = 1 := by
  obtain ⟨e, he⟩ := Option.ne_none_iff_exists'.1 hregion
  have hmask0 : x.be.toNat * 2 ^ (a % 16) ≠ 0 :=
    Nat.mul_ne_zero (fun h => hbe (BitVec.eq_of_toNat_eq h)) (Nat.pos_iff_ne_zero.1 (Nat.two_pow_pos _))
  rw [bulkWords_single, List.foldl_cons, List.foldl_nil]
  rcases bulkStore_cases (f := f) s (a / 16, x.be.toNat * 2 ^ (a % 16), x.v.toNat * 2 ^ (8 * (a % 16))) with ⟨h0, -⟩ | ⟨-, e, -, h⟩ | ⟨-, hn, -⟩
  · exact absurd h0 hmask0
  · rw [h]
    refine ⟨rfl, ?_⟩
    show (e.put _ 1).get _ = 1
    rw [Dev.get_put_same _ _ _ (fit rfl)]
    rfl
  · exact absurd hn hregion

/-! ## The three DMA descriptors -/

/-- A row of a DMA descriptor, and what it does once the descriptor has begun (R356). -/
theorem dma_rows {s : State} {x : Flight} {i : Nat} {c : Instr} (hpass : s.dev.passes x = true)
    (hc : (∃ h, c = .memWrite i h ∧ s.dev.dmaOf i 0x40 = some x) ∨ (∃ e, c = .memRead i e ∧ s.dev.dmaOf i 0x41 = some x) ∨
      (c = .memFill i ∧ s.dev.dmaOf i 0x42 = some x)) : x.desc.privileged = false ∧
    ((∃ h, c = .memWrite i h ∧ exec c s = .next (State.descMemWrite h x { s with dev := s.dev.descBegin x })) ∨
     (∃ e, c = .memRead i e ∧ exec c s = .next (State.descMemRead e x { s with dev := s.dev.descBegin x })) ∨
     (c = .memFill i ∧ exec c s = .next (State.descMemFill x { s with dev := s.dev.descBegin x }))) := by
  rcases hc with ⟨h, rfl, hx⟩ | ⟨e, rfl, hx⟩ | ⟨rfl, hx⟩
  · obtain ⟨-, -, -, hop, -⟩ := dmaOf_spec hx
    refine ⟨dma_plain (.inl hop), .inl ⟨h, rfl, ?_⟩⟩
    show Host.Outcome.next (s.descRun (s.dev.dmaOf i 0x40) (State.descMemWrite h)) = _
    rw [hx, descRun_passes _ hpass]
  · obtain ⟨-, -, -, hop, -⟩ := dmaOf_spec hx
    refine ⟨dma_plain (.inr (.inl hop)), .inr (.inl ⟨e, rfl, ?_⟩)⟩
    show Host.Outcome.next (s.descRun (s.dev.dmaOf i 0x41) (State.descMemRead e)) = _
    rw [hx, descRun_passes _ hpass]
  · obtain ⟨-, -, -, hop, -⟩ := dmaOf_spec hx
    refine ⟨dma_plain (.inr (.inr hop)), .inr (.inr ⟨rfl, ?_⟩)⟩
    show Host.Outcome.next (s.descRun (s.dev.dmaOf i 0x42) State.descMemFill) = _
    rw [hx, descRun_passes _ hpass]

section
variable {s : State} {x : Flight}

/-- R356: a closed range ends every DMA descriptor. -/
theorem descMem_closed (h : HostData) (e : Option Nat) (hc : s.dev.dmaClosed x.desc) :
    let b : State := { s with dev := s.dev.descBegin x }
    let t : State := { s with dev := (s.dev.descBegin x).descEnd x 1 0 }
    State.descMemWrite h x b = t ∧ State.descMemRead e x b = t ∧ State.descMemFill x b = t := by
  have hbad : (s.dev.descBegin x).dmaBad x.desc = true := (dmaBad_iff s.dev x.desc).2 hc
  exact ⟨if_pos hbad, if_pos hbad, if_pos hbad⟩

variable (ho : ¬ s.dev.dmaClosed x.desc)
include ho

theorem dmaBad_open : ¬ (s.dev.descBegin x).dmaBad x.desc = true := fun h => ho ((dmaBad_iff s.dev x.desc).1 h)

theorem dma_region {m : Nat} (hm : m ≤ x.desc.d3.toNat % 2 ^ 25 / 16) : x.desc.d2.toNat / 16 % 2 ^ 22 + m ≤ 2 ^ 22 ∧
    ∀ j, j < m → s.dev.regionDrop (x.desc.d2.toNat / 16 % 2 ^ 22 + j) = none := by
  obtain ⟨hend, hmeets⟩ := not_or.1 ho
  rw [Bool.not_eq_true] at hmeets
  exact ⟨by omega, fun j hj => regionDrop_of_not_meets hmeets (by omega) (by omega)⟩

/-- R356: MEM_WRITE in an open range stores what the host has brought. -/
theorem descMemWrite_open (h : HostData) : let n := x.desc.d3.toNat % 2 ^ 25 / 16
    let m := if x.orphan then 0 else min n (h.length / 16)
    let r := State.dmaStore (x.desc.d2.toNat / 16 % 2 ^ 22) (bytesWords 16 m h) { s with dev := s.dev.descBegin x }
    State.descMemWrite h x { s with dev := s.dev.descBegin x } = { r with dev := r.dev.descEnd x (if m < n then 7 else 0) (16 * m) } := by
  rw [State.descMemWrite]
  dsimp only
  rw [if_neg (dmaBad_open ho), dmaRange_eq]

/-- R356: MEM_FILL in an open range. -/
theorem descMemFill_open : let n := x.desc.d3.toNat % 2 ^ 25 / 16
    let r := State.dmaStore (x.desc.d2.toNat / 16 % 2 ^ 22) (List.replicate n (fillWord (bits x.desc.d4.toNat 0 32))) { s with dev := s.dev.descBegin x }
    State.descMemFill x { s with dev := s.dev.descBegin x } = { r with dev := r.dev.descEnd x 0 (16 * n) } := by
  rw [State.descMemFill]
  dsimp only
  rw [if_neg (dmaBad_open ho), dmaRange_eq]

end

theorem bytesWords_length (m : Nat) (h : HostData) : (bytesWords 16 m h).length = m := by rw [bytesWords, List.length_map, List.length_range]

theorem bytesWords_getD (h : HostData) {m j : Nat} (hj : j < m) : (bytesWords 16 m h).getD j 0 = bytesNat ((h.drop (16 * j)).take 16) := by
  rw [bytesWords, List.getD_eq_getElem?_getD, List.getElem?_map, List.getElem?_range hj]
  rfl

theorem fillWord_lt {v : Nat} (h : v < 2 ^ 32) : fillWord v < 2 ^ 128 := by rw [fillWord]; omega

end Sys2Proof.Machine
end

section
/-! PROOF. The statement about bulk data, assembled. -/

namespace Sys2Proof.Machine

theorem wordsAt_length (s : State) (w n : Nat) : (s.wordsAt w n).length = n := by rw [State.wordsAt, List.length_map, List.length_range]

theorem stored_of_run {s t : State} {w m : Nat} {vs : List Nat} {v : Nat → Nat} (h : s.storedRun w vs t) (hl : vs.length = m)
    (hv : ∀ j, j < m → vs.getD j 0 % 2 ^ 128 = v j) : (∀ j, j < m → t.mem.read (s.dev.memLoc (w + j)) = { data := v j, kind := 0 }) ∧
      (∀ k, (∀ j, j < m → k ≠ s.dev.memLoc (w + j)) → t.mem.read k = s.mem.read k) ∧ Frame [.host, .mem, .mc] [MEM_COLLCNT_CNT] s t := by
  subst hl
  obtain ⟨hin, hout, hframe⟩ := h
  exact ⟨fun j hj => by rw [hin j hj, hv j hj], hout, hframe⟩

/-- A bulk access that is well formed arrives. -/
theorem exec_bulkRead {s : State} {f : Fin 4} {off : Fin 16384} {n : Fin 1025} (h : wfBulk off n = true) :
    exec (.bulkRead f off n) s = .next (s.bulkArrive (.read f off n)) := if_pos h

theorem exec_bulkWrite {s : State} {f : Fin 4} {off : Fin 16384} {data : List MaskedDword} (h : wfBulk off data.length = true) :
    exec (.bulkWrite f off data) s = .next (s.bulkArrive (.write f off data)) := if_pos h

/-- Settles O42: the DMA descriptors by the run of words that they store or read, the bulk port by what its one access does. -/
theorem bulkDataMoves : Obligations.BulkDataMoves := by
  unfold Obligations.BulkDataMoves
  refine ⟨fun s x i c hpass hc hstale => ?_, fun s f off hstale => ?_⟩
  · obtain ⟨hplain, hrow⟩ := dma_rows hpass hc
    have hengine := touches_of_stale hstale false
    intro w n closed stored
    refine ⟨fun hclosed => ?_, fun hopen => ⟨fun h hch => ?_, fun hcf => ?_, fun e hce => ?_⟩⟩
    · obtain ⟨hhost, hframe⟩ := descEnd_badField (s := s) hplain
      refine ⟨{ s with dev := (s.dev.descBegin x).descEnd x 1 0 }, ?_, hhost, hframe.lift⟩
      rcases hrow with ⟨h, -, hexec⟩ | ⟨e, -, hexec⟩ | ⟨-, hexec⟩
      · rw [hexec, (descMem_closed h none hclosed).1]
      · rw [hexec, (descMem_closed [] e hclosed).2.1]
      · rw [hexec, (descMem_closed [] none hclosed).2.2]
    · intro m
      have hmn : m ≤ n := by
        show (if x.orphan = true then 0 else min n (h.length / 16)) ≤ n
        split <;> omega
      obtain ⟨hend, hregion⟩ := dma_region hopen hmn
      have hlen := bytesWords_length m h
      have hends := dmaStore_ends (s := s) (x := x) (vs := bytesWords 16 m h) (if m < n then 7 else 0) (16 * m) hplain (by rw [hlen]; exact hend)
        (by rw [hlen]; exact hregion) hengine
      rcases hrow with ⟨h', hc', hexec⟩ | ⟨e, hc', -⟩ | ⟨hc', -⟩
      · obtain ⟨-, rfl⟩ := Instr.memWrite.inj (hch.symm.trans hc')
        rw [descMemWrite_open hopen h] at hexec
        exact ⟨_, hexec, hends.1, stored_of_run hends.2 hlen fun j hj => by
          rw [bytesWords_getD h hj, Nat.mod_eq_of_lt (bytesNat_word_lt _)]⟩
      · cases hch.symm.trans hc'
      · cases hch.symm.trans hc'
    · obtain ⟨hend, hregion⟩ := dma_region hopen (Nat.le_refl n)
      have hlen : (List.replicate n (fillWord (bits x.desc.d4.toNat 0 32))).length = n := List.length_replicate
      have hends := dmaStore_ends (s := s) (x := x) (vs := List.replicate n (fillWord (bits x.desc.d4.toNat 0 32))) 0 (16 * n) hplain
        (by rw [hlen]; exact hend) (by rw [hlen]; exact hregion) hengine
      rcases hrow with ⟨h', hc', -⟩ | ⟨e, hc', -⟩ | ⟨-, hexec⟩
      · cases hcf.symm.trans hc'
      · cases hcf.symm.trans hc'
      · rw [descMemFill_open hopen] at hexec
        refine ⟨_, hexec, hends.1, stored_of_run hends.2 hlen fun j hj => ?_⟩
        rw [List.getD_replicate _ hj, bits, Nat.shiftRight_zero, Nat.mod_eq_of_lt (fillWord_lt (Nat.mod_lt _ (by decide)))]
        rfl
    · intro m cell
      rcases hrow with ⟨h', hc', -⟩ | ⟨e', hc', hexec⟩ | ⟨hc', -⟩
      · cases hce.symm.trans hc'
      · obtain ⟨-, rfl⟩ := Instr.memRead.inj (hce.symm.trans hc')
        obtain ⟨d, hd, hsteady⟩ := descMemRead_spec e hopen hengine
        rw [hd] at hexec
        obtain ⟨hempty, hsent, hlost⟩ := readEnds_out (m := m) hplain hsteady
        obtain ⟨hshort, hwhole, hbad⟩ := readEnds_host (m := m) hsteady
        refine ⟨_, hexec, rfl, hempty, fun ho hm => ⟨_, hsent ho hm, ?_, fun j hj => ?_⟩, hlost, hshort, hwhole, hbad, (readEnds_frame hplain hsteady).lift⟩
        · rw [flatMap_sentBytes_length, wordsAt_length]
        · rw [flatMap_sentBytes_chunk _ _ (by rw [wordsAt_length]; exact hj), wordsAt_getD _ _ hj, bytesNat_sentBytes]
          exact if_congr beq_iff_eq rfl rfl
      · cases hce.symm.trans hc'
  · have hengine := touches_of_stale hstale false
    intro inc a cell may held
    have ha : s.dev.bulkAt f off = a := bulkAt_eq s.dev f off
    have hmay (x : BulkOp) (n : Nat) (hx : x.span = (f.val, off.val, n)) : may n ↔ s.dev.host.bulkq = [] ∧ s.dev.bulkMay x = true := by
      rw [bulkMay_iff, Dev.bulkReady, hx, ha]
    have arrives (x : BulkOp) (n : Nat) (hx : x.span = (f.val, off.val, n)) (hm : may n) : s.bulkArrive x = s.bulkAct x :=
      bulkArrive_acts ((hmay x n hx).1 hm).1 ((hmay x n hx).1 hm).2
    have waits (x : BulkOp) (n : Nat) (hx : x.span = (f.val, off.val, n)) (hm : ¬ may n) :
        ∃ t, (Host.Outcome.next (s.bulkArrive x) : Host.Outcome State Fault Refusal) = .next t ∧ held x t :=
      ⟨_, rfl, by rw [bulkArrive_waits (fun c => hm ((hmay x n hx).2 c))], by
        rw [bulkArrive_waits (fun c => hm ((hmay x n hx).2 c))]
        exact (Dev.host_frame _ _ _ (by simp)).lift⟩
    have ticks (x : BulkOp) (n : Nat) (hx : x.span = (f.val, off.val, n)) (hm : may n) :
        s.bulkArrive x = ({ s with dev := { s.dev with host := { s.dev.host with bulkq := [x] } } } : State).bulkTick := by
      rw [arrives x n hx hm, bulkTick_alone ((hmay x n hx).1 hm).1 ((hmay x n hx).1 hm).2]
    have reads (n : Fin 1025) (hwf : wfBulk off n = true) (hm : may n) : exec (.bulkRead f off n) s = .next (s.bulkRead f off n) := by
      rw [exec_bulkRead hwf, arrives (.read f off n) n rfl hm, State.bulkAct]
    have writes (data : List MaskedDword) (hwf : wfBulk off data.length = true) (hm : may data.length) :
        exec (.bulkWrite f off data) s = .next (s.bulkWrite f off data) := by
      rw [exec_bulkWrite hwf, arrives (.write f off data) data.length rfl hm, State.bulkAct]
    refine ⟨fun n hwf hm => by rw [exec_bulkRead hwf]; exact waits _ n rfl hm, fun data hwf hm => by rw [exec_bulkWrite hwf]; exact waits _ _ rfl hm,
      fun n hwf hm => by rw [exec_bulkRead hwf, ticks _ n rfl hm], fun data hwf hm => by rw [exec_bulkWrite hwf, ticks _ _ rfl hm],
      fun n hwf => if_neg (by rw [hwf]; decide), fun data hwf => if_neg (by rw [hwf]; decide), fun hen => ⟨fun n hwf hm => ?_, fun data hwf hm => ?_⟩,
      fun hen => ⟨fun n hwf hm hb => ?_, fun n hwf hm hb => ?_, fun data hwf hm => ?_⟩⟩
    · refine ⟨_, (reads n hwf hm).trans (congrArg _ (bulkRead_closed off n hen)), rfl, (Dev.emit_frame _ _ _ (by simp)).lift⟩
    · rw [writes data hwf hm, bulkWrite_closed off data hen]
    · rw [← ha] at hb
      have hstatus : (s.dev.raise (BULK_STATUS_RANGE f)).get (BULK_STATUS_RANGE f) = 1 := by
        rw [Dev.raise_eq, Dev.get_put_same _ _ _ (fit rfl)]
        rfl
      exact ⟨_, (reads n hwf hm).trans (congrArg _ (bulkRead_beyond hen hb)), rfl, hstatus,
        ((Dev.raise_frame _ _ _ (fit rfl) (by simp)).trans (Dev.emit_frame _ _ _ (by simp))).lift⟩
    · intro m
      obtain ⟨e, he, hsteady, hclean⟩ := bulkRead_within (n := n) hen (by rw [ha]; exact hb) hengine
      rw [ha] at he hclean
      have hout := bulkDone_out (f := f) (a := a) (n := n) (ws := s.wordsAt (a / 16) m) hsteady
      have hptr := bulkDone_ptr (f := f) (a := a) (n := n) (ws := s.wordsAt (a / 16) m) hsteady f.isLt
      refine ⟨_, bulkDwords a n (s.wordsAt (a / 16) m), (reads n hwf hm).trans (congrArg _ he), rfl, by rw [bulkDwords, List.length_map, List.length_range],
        fun j hj => ?_, ?_, fun hgood => ?_, fun hgood => ?_, fun hbad => ?_, (bulkDone_frame hsteady).lift⟩
      · rw [bulkDwords_getD _ _ _ hj, wordsAt_getD _ _ (by omega)]
      · show if inc then (e.bulkDone f a n _).get _ = _ else (e.bulkDone f a n _).get _ = _
        split
        · rename_i hinc
          rw [hptr, if_pos hinc]
        · rename_i hinc
          rw [hptr, if_neg hinc, Nat.add_zero]
          exact Nat.mod_eq_of_lt (Dev.get_lt s.dev (BULK_PTR_PTR f))
      · have hany : (s.wordsAt (a / 16) m).any (fun x => x.2) = false := by
          rw [Bool.eq_false_iff]
          intro c
          obtain ⟨j, hj, hk⟩ := (wordsAt_any _ _ _).1 c
          exact hgood j hj hk
        rw [hany] at hout
        exact hout
      · have hany : (s.wordsAt (a / 16) m).any (fun x => x.2) = false := by
          rw [Bool.eq_false_iff]
          intro c
          obtain ⟨j, hj, hk⟩ := (wordsAt_any _ _ _).1 c
          rw [hgood j hj] at hk
          cases hk
        rw [hclean hgood]
        exact (bulkDone_frame_clean s.dev f a n hany).lift
      · have hany := (wordsAt_any s (a / 16) m).2 hbad
        rw [hany] at hout
        exact ⟨hout, bulkDone_poison hany⟩
    · intro room
      obtain ⟨k, e, he, hstores, hread⟩ := bulkStores_spec f.isLt (bulkWords a (data.take room)) s
      have hopen := bulkWrite_open off data hen
      dsimp only at hopen
      rw [ha] at hopen
      change s.bulkWrite f off data = { ((bulkWords a (data.take room)).foldl (State.bulkStore f) s) with
        dev := ((bulkWords a (data.take room)).foldl (State.bulkStore f) s).dev.bulkWrote f room data.length } at hopen
      rw [he] at hopen
      have hregion (g : Fld) (h : g = BULK_PTR_PTR f ∨ g = BULK_CTL_INC f) : e.get g = s.dev.get g := by
        refine stores_get hstores ?_ (.inl ?_) <;> rcases h with rfl | rfl <;>
          simp only [BULK_PTR_PTR, BULK_PTR, BULK_CTL_INC, BULK_CTL, BULK_STATUS_REGION, BULK_STATUS] <;> omega
      have hptr := hregion _ (.inl rfl)
      have hinc := hregion _ (.inr rfl)
      refine ⟨_, (writes data hwf hm).trans (congrArg _ hopen), fun hlt => ?_, fun hle => ?_, fun c hc => hread c fun p hp => ?_,
        fun x hx hroom hbe hreg hk => ?_, fun x hx hroom hbe hreg => ?_, ?_⟩
      · show (if room < data.length then _ else _ : Dev).get _ = 1 ∧ (if room < data.length then _ else _ : Dev).get _ = _
        rw [if_pos hlt, Dev.raise_eq, Dev.get_put_same _ _ _ (fit rfl), Dev.get_put_ne _ _ (fit rfl) (.inl (by
          simp only [BULK_PTR_PTR, BULK_PTR, BULK_STATUS_RANGE, BULK_STATUS]; omega)), hptr]
        exact ⟨rfl, rfl⟩
      · show (if room < data.length then _ else _ : Dev).get _ = _
        rw [if_neg (Nat.not_lt.2 hle), bulkStep_ptr, hptr, hinc]
      · obtain ⟨j, hj, hpj⟩ := bulkWords_mem _ _ p hp
        rw [hpj]
        exact hc j (by rwa [List.length_take] at hj)
      · subst hx
        have ha4 : a % 4 = 0 := by
          refine Nat.mod_eq_zero_of_dvd (dvd_add (dvd_mul_right 4 _) ?_)
          split
          · exact dvd_zero 4
          · exact dvd_mul_right 4 _
        have hone := bulkStore_dword (f := f) ha4 hbe hreg hengine hk
        rw [List.take_of_length_le (by simpa using hroom)] at he
        dsimp only at hone
        rw [he] at hone
        exact hone
      · subst hx
        have hdrop := bulkStore_dropped (f := f) (a := a) hbe hreg
        rw [List.take_of_length_le (by simpa using hroom)] at he
        dsimp only at hdrop
        rw [he] at hdrop
        refine ⟨hdrop.1, ((bulkWrote_frame e f room 1).get _ ?_).trans hdrop.2⟩
        intro g hg
        simp only [List.mem_cons, List.not_mem_nil, or_false] at hg
        rcases hg with rfl | rfl
        · exact .inl (by simp only [BULK_PTR_PTR, BULK_PTR, BULK_STATUS_REGION, BULK_STATUS]; omega)
        · exact .inr (.inl (Nat.le_refl 1))
      · refine frame_with_mem _ ((hstores.frame.mono (fun _ h => h) ?_).trans ((bulkWrote_frame e f room data.length).mono (by simp) (by simp)))
        intro g hg
        rcases List.mem_cons.1 hg with rfl | hg
        · simp
        · exact List.mem_cons_of_mem _ (List.mem_cons_of_mem _ (List.mem_cons_of_mem _ hg))

end Sys2Proof.Machine
end

section
/-! PROOF. Rings of records: what one record placed at the tail of a return ring changes, and lists without one element (R342, R384). -/

namespace Sys2Proof.Machine

/-! ## Lists without one element -/

theorem removeFirst_eq_erase {α : Type} [DecidableEq α] (x : α) (l : List α) : removeFirst x l = l.erase x := by
  induction l with
  | nil => rfl
  | cons y t ih =>
    rw [removeFirst, List.erase_cons, ih]
    simp only [beq_iff_eq]

theorem removeFirst_split {α : Type} [DecidableEq α] {x : α} {l : List α} (r : List α) (h : x ∉ l) : removeFirst x (l ++ x :: r) = l ++ r := by
  rw [removeFirst_eq_erase, List.erase_append_right _ h, List.erase_cons_head]

theorem exists_removeFirst {α : Type} [DecidableEq α] {x : α} {l : List α} (h : x ∈ l) : ∃ a b, l = a ++ x :: b ∧ removeFirst x l = a ++ b := by
  obtain ⟨a, b, -, hl, he⟩ := List.exists_erase_eq h
  exact ⟨a, b, hl, (removeFirst_eq_erase x l).trans he⟩

/-! ## Fields of a return ring -/

theorem RR_TAIL_apart_STATUS (k : Nat) : (RR_TAIL_TAIL k).apart (RR_STATUS_P k) := .inl (by simp only [RR_TAIL_TAIL, RR_TAIL, RR_STATUS_P, RR_STATUS]; omega)

theorem RR_IRQ_apart_ring {o : Nat} {k : Nat} {g : Fld} (hg : g = RR_TAIL_TAIL k ∨ g = RR_STATUS_P k) (ho : o = RR_IRQ k) (lo w : Nat) :
    (⟨o, lo, w⟩ : Fld).apart g := .inl (by
  subst ho
  rcases hg with rfl | rfl <;> simp only [RR_TAIL_TAIL, RR_TAIL, RR_STATUS_P, RR_STATUS, RR_IRQ] <;> omega)

/-! ## The tail (R342) -/

/-- The state after the tail of ring `k` has advanced: P changes where it wraps. -/
def Dev.ringAdvance (d : Dev) (k : Nat) : Dev :=
  let t := d.get (RR_TAIL_TAIL k)
  if t + 1 = d.rrSize k then (d.put (RR_TAIL_TAIL k) 0).put (RR_STATUS_P k) (1 - d.get (RR_STATUS_P k)) else d.put (RR_TAIL_TAIL k) (t + 1)

theorem ringAdvance_frame (ps : List Part) (d : Dev) (k : Nat) : Dev.Frame ps [RR_TAIL_TAIL k, RR_STATUS_P k] d (d.ringAdvance k) :=
  Dev.Frame.ite (fun _ => (Dev.put_frame _ _ _ _ (fit rfl) (by simp)).trans (Dev.put_frame _ _ _ _ (fit rfl) (by simp)))
    (fun _ => Dev.put_frame _ _ _ _ (fit rfl) (by simp))

theorem ringAdvance_tail (d : Dev) (k : Nat) : (d.ringAdvance k).get (RR_TAIL_TAIL k) =
    if d.get (RR_TAIL_TAIL k) + 1 = d.rrSize k then 0 else (d.get (RR_TAIL_TAIL k) + 1) % 65536 := by
  unfold Dev.ringAdvance
  dsimp only
  split
  · rw [Dev.get_put_ne _ _ (fit rfl) (Fld.apart_symm (RR_TAIL_apart_STATUS k)), Dev.get_put_same _ _ _ (fit rfl)]
    rfl
  · rw [Dev.get_put_same _ _ _ (fit rfl)]
    rfl

theorem ringAdvance_phase (d : Dev) (k : Nat) : (d.ringAdvance k).get (RR_STATUS_P k) =
    if d.get (RR_TAIL_TAIL k) + 1 = d.rrSize k then 1 - d.get (RR_STATUS_P k) else d.get (RR_STATUS_P k) := by
  unfold Dev.ringAdvance
  dsimp only
  split
  · rw [Dev.get_put_same _ _ _ (fit rfl)]
    exact Nat.mod_eq_of_lt (show 1 - _ < 2 by omega)
  · exact Dev.get_put_ne _ _ (fit rfl) (RR_TAIL_apart_STATUS k)

/-! ## The moderation timer (R384) -/

/-- The registers do not depend on the record unit. -/
theorem Dev.get_with_ru (d : Dev) (x : RecUnit) (f : Fld) : ({ d with ru := x } : Dev).get f = d.get f := rfl

theorem ringTimer_frame {ps : List Part} (d : Dev) (k : Nat) (hp : Part.ru ∈ ps) : Dev.Frame ps [RR_IRQ_ARMED k, RR_IRQ_TIMING k] d (d.ringTimer k) :=
  (Dev.ru_frame _ d _ hp).trans (Dev.raise_frame _ _ _ (fit rfl) (by simp))

theorem ringWrote_frame {ps : List Part} (d : Dev) (k : Nat) (hp : Part.ru ∈ ps) : Dev.Frame ps [RR_IRQ_ARMED k, RR_IRQ_TIMING k] d (d.ringWrote k) :=
  Dev.Frame.ite (fun _ => (Dev.put_frame _ _ _ _ (fit rfl) (by simp)).trans (ringTimer_frame _ k hp)) (fun _ => Dev.Frame.refl _ _ _)

/-- A ring that is not armed stays as it is. -/
theorem ringWrote_idle {d : Dev} {k : Nat} (h : d.get (RR_IRQ_ARMED k) = 0) : d.ringWrote k = d :=
  if_neg (by rw [flag_iff_one rfl, h]; decide)

theorem ringWrote_armed {d : Dev} {k : Nat} (h : d.get (RR_IRQ_ARMED k) = 1) : d.ringWrote k = (d.put (RR_IRQ_ARMED k) 0).ringTimer k :=
  if_pos ((flag_iff_one rfl).2 h)

theorem armed_zero_or_one (d : Dev) (k : Nat) : d.get (RR_IRQ_ARMED k) = 0 ∨ d.get (RR_IRQ_ARMED k) = 1 := by
  have : d.get (RR_IRQ_ARMED k) < 2 := Dev.get_lt d (RR_IRQ_ARMED k)
  omega

theorem ringWrote_disarms (d : Dev) (k : Nat) : (d.ringWrote k).get (RR_IRQ_ARMED k) = 0 := by
  rcases armed_zero_or_one d k with h | h
  · rw [ringWrote_idle h, h]
  · have hapart : (RR_IRQ_TIMING k).apart (RR_IRQ_ARMED k) := .inr (.inl (by decide : (28 : Nat) + 1 ≤ 29))
    rw [ringWrote_armed h, Dev.ringTimer, Dev.raise_eq, Dev.get_put_ne _ _ (fit rfl) hapart, Dev.get_with_ru, Dev.get_put_same _ _ _ (fit rfl)]
    rfl

/-- An armed ring starts its timer. -/
theorem ringWrote_timing {d : Dev} {k : Nat} (h : d.get (RR_IRQ_ARMED k) = 1) : (d.ringWrote k).get (RR_IRQ_TIMING k) = 1 ∧
    Tab.get 0 (d.ringWrote k).ru.modEnd k = d.tick + 800 * min 1000 (d.get (RR_IRQ_MOD k)) := by
  rw [ringWrote_armed h, Dev.ringTimer, Dev.raise_eq]
  refine ⟨(Dev.get_put_same _ _ _ (fit rfl)).trans rfl, ?_⟩
  refine (Tab.get_set_same _ _ _ _).trans ?_
  rw [Dev.get_put_ne d (f := RR_IRQ_ARMED k) (g := RR_IRQ_MOD k) 0 (fit rfl) (.inr (.inr (by decide : (16 : Nat) + 10 ≤ 29))), usTicks, Nat.mul_comm]
  rw [Dev.put_tick]

/-! ## One record at the tail -/

/-- The state once a record stands in the slot at the tail of ring `k`. -/
def Dev.ringStep (d : Dev) (k : Nat) : Dev := (d.ringAdvance k).ringWrote k

/-- The fields that a record placed at the tail of ring `k` changes. -/
def ringStepFields (k : Nat) : List Fld := [RR_TAIL_TAIL k, RR_STATUS_P k, RR_IRQ_ARMED k, RR_IRQ_TIMING k]

theorem ringPut_eq (d : Dev) (k : Nat) (r : Rec) (seq : Nat) :
    d.ringPut k r seq = (d.emit (.event k (d.get (RR_TAIL_TAIL k)) (r.dwords seq (d.get (RR_STATUS_P k))))).ringStep k := rfl

theorem ringStep_frame {ps : List Part} (d : Dev) (k : Nat) (hp : Part.ru ∈ ps) : Dev.Frame ps (ringStepFields k) d (d.ringStep k) :=
  ((ringAdvance_frame ps d k).mono (fun _ h => h) (by simp [ringStepFields])).trans ((ringWrote_frame _ k hp).mono (fun _ h => h) (by simp [ringStepFields]))

theorem ringStep_tail (d : Dev) (k : Nat) : (d.ringStep k).get (RR_TAIL_TAIL k) =
    if d.get (RR_TAIL_TAIL k) + 1 = d.rrSize k then 0 else (d.get (RR_TAIL_TAIL k) + 1) % 65536 := by
  refine ((ringWrote_frame (ps := [.ru]) (d.ringAdvance k) k (by simp)).get _ ?_).trans (ringAdvance_tail d k)
  simp only [List.mem_cons, List.not_mem_nil, or_false, forall_eq_or_imp, forall_eq]
  exact ⟨RR_IRQ_apart_ring (.inl rfl) rfl _ _, RR_IRQ_apart_ring (.inl rfl) rfl _ _⟩

theorem ringStep_phase (d : Dev) (k : Nat) : (d.ringStep k).get (RR_STATUS_P k) =
    if d.get (RR_TAIL_TAIL k) + 1 = d.rrSize k then 1 - d.get (RR_STATUS_P k) else d.get (RR_STATUS_P k) := by
  refine ((ringWrote_frame (ps := [.ru]) (d.ringAdvance k) k (by simp)).get _ ?_).trans (ringAdvance_phase d k)
  simp only [List.mem_cons, List.not_mem_nil, or_false, forall_eq_or_imp, forall_eq]
  exact ⟨RR_IRQ_apart_ring (.inr rfl) rfl _ _, RR_IRQ_apart_ring (.inr rfl) rfl _ _⟩

theorem ringStep_disarms (d : Dev) (k : Nat) : (d.ringStep k).get (RR_IRQ_ARMED k) = 0 := ringWrote_disarms _ k

theorem ringAdvance_irq (d : Dev) (k lo w : Nat) : (d.ringAdvance k).get ⟨RR_IRQ k, lo, w⟩ = d.get ⟨RR_IRQ k, lo, w⟩ := by
  refine (ringAdvance_frame [] d k).get _ ?_
  simp only [List.mem_cons, List.not_mem_nil, or_false, forall_eq_or_imp, forall_eq]
  exact ⟨Fld.apart_symm (RR_IRQ_apart_ring (.inl rfl) rfl _ _), Fld.apart_symm (RR_IRQ_apart_ring (.inr rfl) rfl _ _)⟩

/-- A ring that is not armed has no timer started. -/
theorem ringStep_idle {d : Dev} {k : Nat} (h : d.get (RR_IRQ_ARMED k) = 0) : d.ringStep k = d.ringAdvance k :=
  ringWrote_idle ((ringAdvance_irq d k 29 1).trans h)

theorem ringStep_timing {d : Dev} {k : Nat} (h : d.get (RR_IRQ_ARMED k) = 1) : (d.ringStep k).get (RR_IRQ_TIMING k) = 1 ∧
    Tab.get 0 (d.ringStep k).ru.modEnd k = d.tick + 800 * min 1000 (d.get (RR_IRQ_MOD k)) := by
  have hframe := ringAdvance_frame [] d k
  obtain ⟨ht, hm⟩ := ringWrote_timing (d := d.ringAdvance k) ((ringAdvance_irq d k 29 1).trans h)
  refine ⟨ht, hm.trans ?_⟩
  rw [show (d.ringAdvance k).tick = d.tick from hframe.part .tick (by simp), show (d.ringAdvance k).get (RR_IRQ_MOD k) = d.get (RR_IRQ_MOD k) from
    ringAdvance_irq d k 16 10]

end Sys2Proof.Machine
end

section
/-! PROOF. Descriptors on their way from the ring to the completion (R12, R13, R342 to R347, R359). -/

namespace Sys2Proof.Machine

/-! ## The fetch engine (R344) -/

theorem bulkBehind_eq_false_iff (d : Dev) (f : Nat) : d.bulkBehind f = false ↔ ∀ b ∈ d.host.bulkq, b.isWrite = true → b.span.1 ≠ f := by
  rw [Dev.bulkBehind, List.any_eq_false]
  simp

theorem mayFetch_iff (d : Dev) (k : Nat) : d.mayFetch k = true ↔
    d.get (SR_CFG_EN k) = 1 ∧ d.host.linkUp = true ∧ d.host.detached = false ∧ (d.fn (d.srOwner k)).bme = true ∧ (d.fn (d.srOwner k)).d3 = false ∧
      d.get PWR_BOOTSTAT_READY = 1 ∧ d.get PWR_STATUS_STATE < 2 ∧ (d.sring k).reading = none ∧ (d.sring k).buf.length < 8 ∧
      d.get (SR_HEAD_HEAD k) ≠ d.get (SR_TAIL_TAIL k) ∧ ∀ b ∈ d.host.bulkq, b.isWrite = true → b.span.1 ≠ d.srOwner k := by
  rw [← bulkBehind_eq_false_iff, ← flag_iff_one (f := SR_CFG_EN k) rfl, ← flag_iff_one (f := PWR_BOOTSTAT_READY) rfl]
  simp only [Dev.mayFetch, Bool.and_eq_true, Bool.not_eq_true', decide_eq_true_eq, Option.isNone_iff_eq_none, bne_iff_ne]
  tauto

theorem fetchIssue_idle {d : Dev} (h : ∀ i, i < 32 → ¬ d.mayFetch ((d.host.lastRing + 1 + i) % 32) = true) : d.fetchIssue = d := by
  unfold Dev.fetchIssue
  rw [firstIdx_eq_none 32 0 fun c _ hc => ?_]
  exact Bool.eq_false_iff.2 (h c (by omega))

/-- The state once ring `k` has asked for its next descriptors. -/
def Dev.fetchAsk (d : Dev) (k : Nat) : Dev :=
  ((({ d with host := { d.host with lastRing := k } }).modSring k (fun s => { s with reading := some (d.get (SR_HEAD_HEAD k), d.fetchCount k) })).emit
    (.fetch k (d.get (SR_HEAD_HEAD k)) (d.fetchCount k)))

theorem fetchIssue_first {d : Dev} {i : Nat} (hi : i < 32) (h : d.mayFetch ((d.host.lastRing + 1 + i) % 32) = true)
    (hmin : ∀ j, j < i → ¬ d.mayFetch ((d.host.lastRing + 1 + j) % 32) = true) : d.fetchIssue = d.fetchAsk ((d.host.lastRing + 1 + i) % 32) := by
  unfold Dev.fetchIssue
  rw [firstIdx_eq_of_first (k := i) 32 0 h (fun j _ hj => Bool.eq_false_iff.2 (hmin j hj)) (by omega) (by omega)]
  rfl

/-! ## A read that fails (R347) -/

/-- The state with further descriptors in flight. -/
def Dev.withFlights (d : Dev) (l : List Flight) : Dev :=
  { d with host := { d.host with flights := d.host.flights ++ l, nextId := d.host.nextId + l.length } }

/-- A descriptor of ring `k` that reaches no target, the `j`-th that the ring gives up now. -/
def Dev.unsent (d : Dev) (k j : Nat) (y : Desc) (status : Nat) (sqhead : Option Nat) : Flight :=
  { id := d.host.nextId + j, sr := k, f := d.srOwner k, cq := d.get (SR_CFG_CQ k), target := 5, desc := y, stage := 2, status, stime := d.now, sqhead }

/-- The buffered descriptors of ring `k` as it gives them up. -/
def Dev.aborted (d : Dev) (k : Nat) (l : List Desc) : List Flight := l.mapIdx (fun j y => d.unsent k j y 9 none)

@[simp] theorem withFlights_get (d : Dev) (l : List Flight) (g : Fld) : (d.withFlights l).get g = d.get g := rfl
@[simp] theorem withFlights_word (d : Dev) (l : List Flight) (o : Nat) : (d.withFlights l).word o = d.word o := rfl
@[simp] theorem withFlights_now (d : Dev) (l : List Flight) : (d.withFlights l).now = d.now := rfl
theorem withFlights_flights (d : Dev) (l : List Flight) : (d.withFlights l).host.flights = d.host.flights ++ l := rfl
theorem withFlights_sring (d : Dev) (l : List Flight) (m : Nat) : (d.withFlights l).sring m = d.sring m := rfl
theorem raise_withFlights (d : Dev) (l : List Flight) (g : Fld) : (d.withFlights l).raise g = (d.raise g).withFlights l := rfl

/-- A device that agrees on the ring's owner and completion ring gives its descriptors up alike. -/
theorem unsent_congr {d e : Dev} {k : Nat} (hid : e.host.nextId = d.host.nextId) (hnow : e.now = d.now)
    (hcq : e.get (SR_CFG_CQ k) = d.get (SR_CFG_CQ k)) (hfw : e.word (FUSE_W (5 + k / 16)) = d.word (FUSE_W (5 + k / 16))) :
    e.unsent k = d.unsent k := by
  funext j y status sqhead
  rw [Dev.unsent, Dev.unsent, Dev.srOwner, Dev.srOwner, Dev.fw, Dev.fw, hid, hnow, hcq, hfw]

theorem flightNone_eq (d : Dev) (k : Nat) (y : Desc) (status : Nat) (sqhead : Option Nat) :
    d.flightNone k y status sqhead = d.withFlights [d.unsent k 0 y status sqhead] := rfl

theorem withFlights_append (d : Dev) (a b : List Flight) : (d.withFlights a).withFlights b = d.withFlights (a ++ b) := by
  simp [Dev.withFlights, List.append_assoc, Nat.add_assoc]

theorem unsent_withFlights (d : Dev) (l : List Flight) (k j : Nat) (y : Desc) (status : Nat) (sqhead : Option Nat) :
    (d.withFlights l).unsent k j y status sqhead = d.unsent k (l.length + j) y status sqhead := by
  simp [Dev.withFlights, Dev.unsent, Nat.add_assoc, Dev.srOwner, Dev.fw, Dev.word, Dev.get, Dev.now]

theorem foldl_flightNone (k : Nat) (l : List Desc) (d : Dev) : l.foldl (fun d y => d.flightNone k y 9 none) d = d.withFlights (d.aborted k l) := by
  induction l generalizing d with
  | nil => simp [Dev.aborted, Dev.withFlights]
  | cons y l ih =>
    rw [List.foldl_cons, ih, flightNone_eq, withFlights_append]
    simp only [Dev.aborted, unsent_withFlights, List.mapIdx_cons, List.length_singleton, List.singleton_append, Nat.add_comm 1]

/-- The state once ring `k` fetches no more, because of a failed read. -/
def Dev.fetchOff (d : Dev) (k : Nat) : Dev :=
  ((d.put (SR_CFG_EN k) 0).raise (SR_STATUS_HOST_ERR k)).modSring k (fun s => { s with buf := [], reading := none })

theorem Dev.modSring_frame {ps : List Part} (fs : List Fld) (d : Dev) (k : Nat) (f : SRing → SRing) (hp : Part.host ∈ ps) :
    Dev.Frame ps fs d (d.modSring k f) := Dev.host_frame _ _ _ hp

theorem fetchOff_frame (d : Dev) (k : Nat) : Dev.Frame [.host] [SR_CFG_EN k, SR_STATUS_HOST_ERR k] d (d.fetchOff k) :=
  ((Dev.put_frame _ _ _ _ (fit rfl) (by simp)).trans (Dev.raise_frame _ _ _ (fit rfl) (by simp))).trans (Dev.modSring_frame _ _ _ _ (by simp))

theorem SR_CFG_apart_STATUS (k lo w lo' w' : Nat) : (⟨SR_STATUS k, lo, w⟩ : Fld).apart ⟨SR_CFG k, lo', w'⟩ := .inl (by
  simp only [SR_CFG, SR_STATUS]
  omega)

theorem fetchOff_enable (d : Dev) (k : Nat) : (d.fetchOff k).get (SR_CFG_EN k) = 0 := by
  have hapart : (SR_STATUS_HOST_ERR k).apart (SR_CFG_EN k) := SR_CFG_apart_STATUS k _ _ _ _
  rw [Dev.fetchOff, Dev.modSring_get, Dev.raise_eq, Dev.get_put_ne _ _ (fit rfl) hapart, Dev.get_put_same _ _ _ (fit rfl)]
  rfl

theorem fetchOff_error (d : Dev) (k : Nat) : (d.fetchOff k).get (SR_STATUS_HOST_ERR k) = 1 := by
  rw [Dev.fetchOff, Dev.modSring_get, Dev.raise_eq, Dev.get_put_same _ _ _ (fit rfl)]
  rfl

theorem fetchOff_cq (d : Dev) (k : Nat) : (d.fetchOff k).get (SR_CFG_CQ k) = d.get (SR_CFG_CQ k) := by
  refine (fetchOff_frame d k).get _ ?_
  simp only [List.mem_cons, List.not_mem_nil, or_false, forall_eq_or_imp, forall_eq]
  exact ⟨.inr (.inr (by decide : (24 : Nat) + 5 ≤ 31)), SR_CFG_apart_STATUS k 2 1 24 5⟩

/-- The fields that ring `k` stopping changes lie below the return rings. -/
theorem fetchOff_get {d : Dev} {k : Nat} (hk : k < 32) {g : Fld} (hg : 0x4508 ≤ g.off) : (d.fetchOff k).get g = d.get g := by
  refine (fetchOff_frame d k).get _ ?_
  simp only [List.mem_cons, List.not_mem_nil, or_false, forall_eq_or_imp, forall_eq]
  constructor <;> refine .inl ?_ <;> simp only [SR_CFG_EN, SR_CFG, SR_STATUS_HOST_ERR, SR_STATUS] <;> omega

theorem get_CQ_put_EN (d : Dev) (k : Nat) : (d.put (SR_CFG_EN k) 0).get (SR_CFG_CQ k) = d.get (SR_CFG_CQ k) :=
  Dev.get_put_ne _ _ (fit rfl) (.inr (.inr (by decide : (24 : Nat) + 5 ≤ 31)))

theorem modSring_host_congr {d e : Dev} (h : e.host = d.host) (k : Nat) (f : SRing → SRing) : (e.modSring k f).host = (d.modSring k f).host := by
  unfold Dev.modSring
  rw [h]

theorem fetchOff_host (d : Dev) (k : Nat) : (d.fetchOff k).host = (d.modSring k (fun s => { s with buf := [], reading := none })).host :=
  modSring_host_congr (by rw [Dev.raise_eq, Dev.put_host, Dev.put_host]) k _

theorem modSring_flights (d : Dev) (k : Nat) (f : SRing → SRing) : (d.modSring k f).host.flights = d.host.flights := rfl
theorem modSring_nextId (d : Dev) (k : Nat) (f : SRing → SRing) : (d.modSring k f).host.nextId = d.host.nextId := rfl

theorem fetchOff_unsent {d : Dev} {k : Nat} (hk : k < 32) : (d.fetchOff k).unsent k = d.unsent k := by
  refine unsent_congr (by rw [fetchOff_host, modSring_nextId])
    (by rw [Dev.now, Dev.now, Dev.fetchOff, Dev.modSring_stime, Dev.raise_eq, Dev.put_stime, Dev.put_stime])
    (fetchOff_cq d k) ?_
  rw [Dev.fetchOff, Dev.modSring_word, Dev.raise_eq, Dev.word_put_ne _ _ (by simp only [FUSE_W, SR_STATUS_HOST_ERR, SR_STATUS]; omega),
    Dev.word_put_ne _ _ (by simp only [FUSE_W, SR_CFG_EN, SR_CFG]; omega)]

theorem srStop_eq {d : Dev} {k : Nat} (hk : k < 32) : d.srStop k =
    ((d.put (SR_CFG_EN k) 0).modSring k (fun s => { s with buf := [], reading := none })).withFlights (d.aborted k (d.sring k).buf) := by
  have hunsent : ((d.put (SR_CFG_EN k) 0).modSring k (fun s => { s with buf := [], reading := none })).unsent k = d.unsent k := by
    refine unsent_congr (by rw [modSring_nextId, Dev.put_host]) (by rw [Dev.now, Dev.now, Dev.modSring_stime, Dev.put_stime]) ?_ ?_
    · rw [Dev.modSring_get, get_CQ_put_EN]
    · rw [Dev.modSring_word, Dev.word_put_ne _ _ (by simp only [FUSE_W, SR_CFG_EN, SR_CFG]; omega)]
  unfold Dev.srStop
  dsimp only
  rw [foldl_flightNone, Dev.aborted, hunsent, Dev.aborted]

theorem modSring_raise (d : Dev) (k : Nat) (f : SRing → SRing) (g : Fld) : (d.modSring k f).raise g = (d.raise g).modSring k f := rfl

theorem srStop_raise_eq {d : Dev} {k : Nat} (hk : k < 32) :
    (d.srStop k).raise (SR_STATUS_HOST_ERR k) = (d.fetchOff k).withFlights (d.aborted k (d.sring k).buf) := by
  rw [srStop_eq hk, raise_withFlights, modSring_raise, Dev.fetchOff]

theorem rrSpace_fetchOff {d : Dev} {k : Nat} (hk : k < 32) (c : Nat) : (d.fetchOff k).rrSize c - 1 - (d.fetchOff k).rrUsed c = d.rrSize c - 1 - d.rrUsed c := by
  simp only [Dev.rrUsed, Dev.rrSize]
  rw [fetchOff_get hk (by simp only [RR_CFG_LOG2SZ, RR_CFG]; omega), fetchOff_get hk (by simp only [RR_HEAD_HEAD, RR_HEAD]; omega),
    fetchOff_get hk (by simp only [RR_TAIL_TAIL, RR_TAIL]; omega)]

theorem withFlights_rrSpace (d : Dev) (l : List Flight) (c : Nat) :
    (d.withFlights l).rrSize c - 1 - (d.withFlights l).rrUsed c = d.rrSize c - 1 - d.rrUsed c := rfl

/-- A completion ring holds a slot for every descriptor that its ring gives up. -/
theorem rrResv_aborted (d e : Dev) (k : Nat) (l : List Desc) (h : e.host.flights = d.host.flights) :
    (e.withFlights (d.aborted k l)).rrResv (d.get (SR_CFG_CQ k)) = d.rrResv (d.get (SR_CFG_CQ k)) + l.length := by
  have hall : (d.aborted k l).filter (fun x => x.cq == d.get (SR_CFG_CQ k) && !x.orphan) = d.aborted k l := by
    refine List.filter_eq_self.2 fun x hx => ?_
    obtain ⟨j, hj, rfl⟩ := List.mem_mapIdx.1 hx
    simp [Dev.unsent]
  rw [Dev.rrResv, withFlights_flights, h, List.filter_append, hall, List.length_append, Dev.aborted, List.length_mapIdx, Dev.rrResv]

/-- R343: the room that is left in the completion ring of a stopped ring. -/
theorem rrFree_stopped {d : Dev} {k : Nat} (hk : k < 32) (l : List Desc) :
    ((d.fetchOff k).withFlights (d.aborted k l)).rrFree (d.get (SR_CFG_CQ k)) =
      if d.get (RR_CFG_TYPE (d.get (SR_CFG_CQ k))) = 1 then d.rrFree (d.get (SR_CFG_CQ k)) else d.rrFree (d.get (SR_CFG_CQ k)) - l.length := by
  have htype : ((d.fetchOff k).withFlights (d.aborted k l)).flag (RR_CFG_TYPE (d.get (SR_CFG_CQ k))) = d.flag (RR_CFG_TYPE (d.get (SR_CFG_CQ k))) := by
    rw [Dev.flag, Dev.flag, withFlights_get, fetchOff_get hk (by simp only [RR_CFG_TYPE, RR_CFG]; omega)]
  rw [Dev.rrFree, Dev.rrFree, rrResv_aborted d _ k l (by rw [fetchOff_host, modSring_flights]), htype, withFlights_rrSpace, rrSpace_fetchOff hk]
  by_cases ht : d.flag (RR_CFG_TYPE (d.get (SR_CFG_CQ k))) = true
  · rw [if_pos ht, if_pos ht, if_pos ((flag_iff_one rfl).1 ht)]
  · rw [if_neg ht, if_neg ht, if_neg (fun h => ht ((flag_iff_one rfl).2 h)), Nat.sub_sub _ (d.rrResv _)]

/-- R347: the completion ring of ring `k` has room for the report, beside the descriptors that the ring gives up. -/
def Dev.reportRoom (d : Dev) (k : Nat) : Prop :=
  if d.get (RR_CFG_TYPE (d.get (SR_CFG_CQ k))) = 1 then 0 < d.rrFree (d.get (SR_CFG_CQ k)) else (d.sring k).buf.length < d.rrFree (d.get (SR_CFG_CQ k))

/-- The report of a failed read of ring `k` at `slot`. -/
def Dev.readReport (d : Dev) (k slot : Nat) : Flight := d.unsent k (d.sring k).buf.length ⟨0xFFFF00FF, 0, 0, 0, 0, 0, 0, 0⟩ 7 (some slot)

theorem fetchFail_idle {d : Dev} {k : Nat} (h : (d.sring k).reading = none) : d.fetchFail k = d := by rw [Dev.fetchFail, h]

theorem fetchFail_full {d : Dev} {k slot n : Nat} (hk : k < 32) (h : (d.sring k).reading = some (slot, n)) (hroom : ¬ d.reportRoom k) :
    d.fetchFail k = (d.fetchOff k).withFlights (d.aborted k (d.sring k).buf) := by
  rw [Dev.fetchFail, h]
  dsimp only
  rw [srStop_raise_eq hk, withFlights_get, fetchOff_cq,
    rrFree_stopped hk]
  refine if_pos ?_
  unfold Dev.reportRoom at hroom
  split_ifs at hroom ⊢ <;> omega

theorem fetchFail_reported {d : Dev} {k slot n : Nat} (hk : k < 32) (h : (d.sring k).reading = some (slot, n)) (hroom : d.reportRoom k) :
    d.fetchFail k = (d.fetchOff k).withFlights (d.aborted k (d.sring k).buf ++ [d.readReport k slot]) := by
  rw [Dev.fetchFail, h]
  dsimp only
  rw [srStop_raise_eq hk, withFlights_get, fetchOff_cq,
    rrFree_stopped hk, flightNone_eq, unsent_withFlights, withFlights_append, fetchOff_unsent hk, Dev.aborted, List.length_mapIdx]
  refine if_neg ?_
  unfold Dev.reportRoom at hroom
  split_ifs at hroom ⊢ <;> omega

theorem withFlights_frame {ps : List Part} (fs : List Fld) (d : Dev) (l : List Flight) (hp : Part.host ∈ ps) : Dev.Frame ps fs d (d.withFlights l) :=
  Dev.host_frame _ _ _ hp

/-- What a read that fails leaves of ring `k`, whatever it gives up. -/
theorem fetchOff_ring (d : Dev) (k : Nat) : (d.fetchOff k).sring k = {} ∧ ∀ m, m ≠ k → (d.fetchOff k).sring m = d.sring m := by
  have hring : ∀ m, (d.fetchOff k).sring m = (d.modSring k (fun s => { s with buf := [], reading := none })).sring m := fun m => by
    rw [Dev.sring, fetchOff_host, Dev.sring]
  exact ⟨(hring k).trans (Dev.sring_modSring_same _ _ _), fun m hm => (hring m).trans (Dev.sring_modSring_ne _ _ hm)⟩

/-! ## A read that brings descriptors, and forwarding (R340, R344 to R346) -/

theorem fetchDone_some {d : Dev} {k slot n : Nat} (ds : List Desc) (h : (d.sring k).reading = some (slot, n)) : d.fetchDone k ds =
    (d.modSring k (fun s => { s with buf := s.buf ++ ds, reading := none })).put (SR_HEAD_HEAD k) ((slot + ds.length) % d.srSize k) := by
  rw [Dev.fetchDone, h]

theorem ringSize_le (n : Nat) : 0 < ringSize n ∧ ringSize n ≤ 2 ^ 16 :=
  ⟨Nat.two_pow_pos _, Nat.pow_le_pow_right (by decide) (by simp only [clampN]; omega)⟩

theorem fetchDone_head (d : Dev) (k a : Nat) (d' : Dev) : (d'.put (SR_HEAD_HEAD k) (a % d.srSize k)).get (SR_HEAD_HEAD k) = a % d.srSize k := by
  rw [Dev.get_put_same _ _ _ (fit rfl)]
  obtain ⟨h0, h1⟩ := ringSize_le (d.get (SR_CFG_LOG2SZ k))
  exact Nat.mod_eq_of_lt (lt_of_lt_of_le (Nat.mod_lt _ h0) h1)

/-- R13, R345, R346: the next descriptor `y` of ring `k` may not leave the buffer. -/
def Dev.forwardHeld (d : Dev) (k : Nat) (y : Desc) : Prop :=
  (y.hdr 11 1 = 1 ∧ ∃ z ∈ d.host.flights, z.sr = k ∧ z.orphan = false) ∨ d.compCredits y.target = 0 ∨ d.descCredits y.target = 0 ∨
    d.rrFree (d.get (SR_CFG_CQ k)) = 0

theorem srFenced_iff {d : Dev} {k : Nat} {y : Desc} {rest : List Desc} (h : (d.sring k).buf = y :: rest) :
    d.srFenced k = true ↔ y.hdr 11 1 = 1 ∧ ∃ z ∈ d.host.flights, z.sr = k ∧ z.orphan = false := by
  rw [Dev.srFenced, h]
  simp only [Desc.fence, Dev.srFlights, Bool.and_eq_true, beq_iff_eq, Bool.not_eq_true', List.isEmpty_eq_false_iff_exists_mem, List.mem_filter]

theorem srRoom_iff {d : Dev} {k : Nat} {y : Desc} {rest : List Desc} (h : (d.sring k).buf = y :: rest) :
    d.srRoom k = true ↔ d.compCredits y.target ≠ 0 ∧ d.descCredits y.target ≠ 0 ∧ d.rrFree (d.get (SR_CFG_CQ k)) ≠ 0 := by
  rw [Dev.srRoom, h]
  simp only [Bool.and_eq_true, decide_eq_true_eq, Nat.pos_iff_ne_zero, and_assoc]

theorem forward_held_iff {d : Dev} {k : Nat} {y : Desc} {rest : List Desc} (h : (d.sring k).buf = y :: rest) :
    (d.srFenced k = true ∨ ¬ d.srRoom k = true) ↔ d.forwardHeld k y := by
  rw [srFenced_iff h, srRoom_iff h, Dev.forwardHeld, not_and_or, not_and_or, not_not, not_not, not_not]

theorem forward_empty {d : Dev} {k : Nat} (h : (d.sring k).buf = []) : d.forward k = d := by rw [Dev.forward, h]

theorem forward_held {d : Dev} {k : Nat} {y : Desc} {rest : List Desc} (h : (d.sring k).buf = y :: rest) (hh : d.forwardHeld k y) : d.forward k = d := by
  rw [Dev.forward, h]
  exact if_pos ((forward_held_iff h).2 hh)

theorem forward_goes {d : Dev} {k : Nat} {y : Desc} {rest : List Desc} (h : (d.sring k).buf = y :: rest) (hh : ¬ d.forwardHeld k y) :
    d.forward k = (d.modSring k (fun s => { s with buf := rest })).withFlights
      [{ id := d.host.nextId, sr := k, f := d.srOwner k, cq := d.get (SR_CFG_CQ k), target := y.target, desc := y }] := by
  rw [Dev.forward, h]
  exact if_neg (fun c => hh ((forward_held_iff h).1 c))

/-! ## Credits (R12) -/

theorem creditArrive_none {d : Dev} {x : FabricQueue} (h : ∀ c ∈ d.host.credits, c.x = x → d.tick < c.due) : d.creditArrive x = d := by
  unfold Dev.creditArrive
  rw [List.find?_eq_none.2 fun c hc => ?_]
  simp only [Bool.and_eq_true, beq_iff_eq, decide_eq_true_eq, not_and, not_le]
  exact h c hc

theorem creditArrive_first {d : Dev} {x : FabricQueue} {l r : List CreditBack} {c : CreditBack} (hl : d.host.credits = l ++ c :: r)
    (hlate : ∀ y ∈ l, y.x = x → d.tick < y.due) (hx : c.x = x) (hdue : c.due ≤ d.tick) :
    d.creditArrive x = { d with host := { d.host with credits := l ++ r } } := by
  have hbefore : ∀ y ∈ l, ¬ (y.x == x && decide (y.due ≤ d.tick)) = true := fun y hy => by
    simp only [Bool.and_eq_true, beq_iff_eq, decide_eq_true_eq, not_and, not_le]
    exact hlate y hy
  have hfind : d.host.credits.find? (fun c => c.x == x && decide (c.due ≤ d.tick)) = some c := by
    rw [hl, List.find?_append, List.find?_eq_none.2 hbefore, List.find?_cons_of_pos (by simp [hx, hdue])]
    rfl
  unfold Dev.creditArrive
  rw [hfind, hl]
  dsimp only
  rw [removeFirst_split r fun hc => absurd hdue (Nat.not_le.2 (hlate c hc hx))]

/-! ## Completions (R13, R359) -/

/-- The credit that the completion of `x` at tick `t` gives back. -/
def Flight.creditsBack (x : Flight) (t : Nat) : List CreditBack :=
  if x.target < 4 then [{ x := .completion (Fin.ofNat 4 x.target), due := t + 4 }]
  else if x.target = 4 then [{ x := .spineCompletion, due := t + 4 }] else []

theorem compBack_eq (d : Dev) (x : Flight) :
    d.compBack x = { d with host := { d.host with credits := d.host.credits ++ x.creditsBack d.tick } } := by
  unfold Dev.compBack Flight.creditsBack
  split_ifs
  · rfl
  · rfl
  · rw [List.append_nil]

/-- The state without descriptor `x`, whose credit travels back. -/
def Dev.settled (d : Dev) (x : Flight) : Dev :=
  { d with host := { d.host with flights := removeFirst x d.host.flights, credits := d.host.credits ++ x.creditsBack d.tick } }

/-- R13, R359: what one `COMPLETION_WRITE` does with the descriptor `x` that it names. -/
theorem completionWrite_some {d : Dev} {i : Nat} {x : Flight} (h : d.host.flights[i]? = some x) : d.completionWrite i =
    if x.stage ≠ 2 ∨ x.stime = d.now + 1 then d
    else if x.orphan then (d.settled x).hostDrop
    else if (d.fn x.f).d3 ∨ ¬ d.flag (RR_CFG_EN x.cq) ∨ d.rrSize x.cq ≤ d.rrUsed x.cq + 1 then d
    else (d.settled x).completionPut x := by
  rw [Dev.completionWrite, h]
  dsimp only
  rw [compBack_eq]
  rfl

/-- R359: what a completion record holds. -/
theorem completionRecord_fields (x : Flight) {p : Nat} (h : Nat) (hp : p < 2) :
    let r := (completionRecord x p h).toNat
    bits r 127 1 = p ∧ bits r 121 6 = 0 ∧ bits r 85 36 = x.stime % 2 ^ 36 ∧ bits r 80 5 = x.sr % 32 ∧ bits r 64 16 = h % 65536 ∧
      bits r 32 32 = x.value % 2 ^ 32 ∧ bits r 24 8 = x.desc.op ∧ bits r 16 8 = x.status % 256 ∧ bits r 0 16 = x.desc.hdr 16 16 := by
  have hop : x.desc.op < 2 ^ 8 := Nat.mod_lt _ (by decide)
  have hhdr : x.desc.hdr 16 16 < 2 ^ 16 := Nat.mod_lt _ (by decide)
  simp only [completionRecord, BitVec.toNat_ofNat, bits, Nat.shiftRight_eq_div_pow]
  generalize x.desc.op = op at *
  generalize x.desc.hdr 16 16 = hdr at *
  omega

theorem settled_frame {ps : List Part} (fs : List Fld) (d : Dev) (x : Flight) (hp : Part.host ∈ ps) : Dev.Frame ps fs d (d.settled x) :=
  Dev.host_frame _ _ _ hp

end Sys2Proof.Machine
end

section
/-! PROOF. What the commands of the fetch engine, of forwarding, of credits and of completions do, and O38. -/

namespace Sys2Proof.Machine

theorem onDev_of {s : State} {f : Dev → Dev} {e : Dev} (h : f s.dev = e) : onDev s f = .next { s with dev := e } := by rw [onDev, h]

theorem onDev_idle {s : State} {f : Dev → Dev} (h : f s.dev = s.dev) : onDev s f = .next s := onDev_of h

theorem fetchAsk_frame (d : Dev) (k : Nat) : Dev.Frame [.host, .out] [] d (d.fetchAsk k) :=
  (Dev.host_frame _ _ _ (by simp)).trans (Dev.emit_frame _ _ _ (by simp))

/-- What a failed read of ring `k` at `slot` leaves, with the report where there is room for it. -/
theorem fetchFail_some {d : Dev} {k slot n : Nat} (hk : k < 32) (h : (d.sring k).reading = some (slot, n)) : ∃ extra,
    d.fetchFail k = (d.fetchOff k).withFlights (d.aborted k (d.sring k).buf ++ extra) ∧ (¬ d.reportRoom k → extra = []) ∧
      (d.reportRoom k → extra = [d.readReport k slot]) := by
  by_cases hroom : d.reportRoom k
  · exact ⟨_, fetchFail_reported hk h hroom, fun c => absurd hroom c, fun _ => rfl⟩
  · exact ⟨[], by rw [fetchFail_full hk h hroom, List.append_nil], fun _ => rfl, fun c => absurd c hroom⟩

theorem aborted_length (d : Dev) (k : Nat) (l : List Desc) : (d.aborted k l).length = l.length := by rw [Dev.aborted, List.length_mapIdx]

theorem aborted_getElem? {d : Dev} {k j : Nat} {l : List Desc} {y : Desc} (h : l[j]? = some y) :
    (d.aborted k l)[j]? = some (d.unsent k j y 9 none) := by rw [Dev.aborted, List.getElem?_mapIdx, h]; rfl

/-- R347: the state after a failed read of ring `k` at `slot`. -/
structure Dev.ReadFailed (d : Dev) (k slot : Nat) (e : Dev) : Prop where
  enable : e.get (SR_CFG_EN k) = 0
  error : e.get (SR_STATUS_HOST_ERR k) = 1
  ring : e.sring k = {}
  others : ∀ m, m ≠ k → e.sring m = d.sring m
  kept : e.host.flights.take d.host.flights.length = d.host.flights
  aborts : ∀ (j : Nat) (y : Desc), (d.sring k).buf[j]? = some y → e.host.flights[d.host.flights.length + j]? = some (d.unsent k j y 9 none)
  silent : ¬ d.reportRoom k → e.host.flights.length = d.host.flights.length + (d.sring k).buf.length
  reports : d.reportRoom k → e.host.flights.length = d.host.flights.length + (d.sring k).buf.length + 1 ∧
    e.host.flights[d.host.flights.length + (d.sring k).buf.length]? = some (d.readReport k slot)
  frame : Dev.Frame [.host] [SR_CFG_EN k, SR_STATUS_HOST_ERR k] d e

theorem fetchFail_readFailed {d : Dev} {k slot n : Nat} (hk : k < 32) (h : (d.sring k).reading = some (slot, n)) :
    d.ReadFailed k slot (d.fetchFail k) := by
  obtain ⟨extra, heq, hfull, hreport⟩ := fetchFail_some hk h
  have hflights : (d.fetchFail k).host.flights = d.host.flights ++ (d.aborted k (d.sring k).buf ++ extra) := by
    rw [heq, withFlights_flights, fetchOff_host, modSring_flights]
  have hring (m : Nat) : (d.fetchFail k).sring m = (d.fetchOff k).sring m := by rw [heq, withFlights_sring]
  refine ⟨by rw [heq, withFlights_get, fetchOff_enable], by rw [heq, withFlights_get, fetchOff_error], (hring k).trans (fetchOff_ring d k).1,
    fun m hm => (hring m).trans ((fetchOff_ring d k).2 m hm), by rw [hflights, List.take_left], fun j y hy => ?_, fun hr => ?_, fun hr => ⟨?_, ?_⟩, ?_⟩
  · have hj : j < (d.sring k).buf.length := (List.getElem?_eq_some_iff.1 hy).1
    rw [hflights, List.getElem?_append_right (by omega), Nat.add_sub_cancel_left, List.getElem?_append_left (by rw [aborted_length]; exact hj),
      aborted_getElem? hy]
  · rw [hflights, hfull hr, List.append_nil, List.length_append, aborted_length]
  · rw [hflights, hreport hr, List.length_append, List.length_append, aborted_length, List.length_singleton, Nat.add_assoc]
  · rw [hflights, hreport hr, List.getElem?_append_right (by omega), Nat.add_sub_cancel_left, List.getElem?_append_right (by rw [aborted_length]),
      aborted_length, Nat.sub_self]
    rfl
  · rw [heq]
    exact (fetchOff_frame d k).trans (withFlights_frame _ _ _ (by simp))

theorem fetchDone_frame (d : Dev) (k v : Nat) (f : SRing → SRing) : Dev.Frame [.host] [SR_HEAD_HEAD k] d ((d.modSring k f).put (SR_HEAD_HEAD k) v) :=
  (Dev.modSring_frame _ _ _ _ (by simp)).trans (Dev.put_frame _ _ _ _ (fit rfl) (by simp))

/-- R12, R13, R359: the parts of a state from which descriptor `x` has gone. -/
structure Dev.Gone (d : Dev) (x : Flight) (e : Dev) : Prop where
  flights : ∃ l r, d.host.flights = l ++ x :: r ∧ e.host.flights = l ++ r
  credits : e.host.credits = d.host.credits ++ x.creditsBack d.tick
  srs : e.host.srs = d.host.srs
  fns : e.host.fns = d.host.fns

theorem gone_of_host {d e : Dev} {x : Flight} (hx : x ∈ d.host.flights) (h : e.host = (d.settled x).host) : d.Gone x e := by
  obtain ⟨l, r, hl, hr⟩ := exists_removeFirst hx
  exact ⟨⟨l, r, hl, by rw [h]; exact hr⟩, by rw [h]; rfl, by rw [h]; rfl, by rw [h]; rfl⟩

theorem ringStep_host (d : Dev) (k : Nat) : (d.ringStep k).host = d.host := (ringStep_frame (ps := [.ru]) d k (by simp)).part .host (by simp)
theorem ringStep_out (d : Dev) (k : Nat) : (d.ringStep k).out = d.out := (ringStep_frame (ps := [.ru]) d k (by simp)).part .out (by simp)
theorem ringAdvance_ru (d : Dev) (k : Nat) : (d.ringAdvance k).ru = d.ru := (ringAdvance_frame [] d k).part .ru (by simp)

theorem ringStep_unarmed {d : Dev} {k : Nat} (h : d.get (RR_IRQ_ARMED k) = 0) :
    (d.ringStep k).ru = d.ru ∧ (d.ringStep k).get (RR_IRQ_TIMING k) = d.get (RR_IRQ_TIMING k) := by
  rw [ringStep_idle h]
  exact ⟨ringAdvance_ru d k, ringAdvance_irq d k 28 1⟩

/-- The completion of `x` waits: its effect is not over, or its ring cannot take the record. -/
def Dev.completionWaits (d : Dev) (x : Flight) : Prop :=
  (d.fn x.f).d3 = true ∨ d.get (RR_CFG_EN x.cq) = 0 ∨ d.rrSize x.cq ≤ d.rrUsed x.cq + 1

theorem completionWaits_iff (d : Dev) (x : Flight) :
    ((d.fn x.f).d3 = true ∨ ¬ d.flag (RR_CFG_EN x.cq) = true ∨ d.rrSize x.cq ≤ d.rrUsed x.cq + 1) ↔ d.completionWaits x := by
  rw [Dev.completionWaits, Dev.flag_iff, not_not]

theorem completionWrite_drops {d : Dev} {i : Nat} {x : Flight} (h : d.host.flights[i]? = some x) (h2 : x.stage = 2) (ht : x.stime ≠ d.now + 1)
    (ho : x.orphan = true) : d.completionWrite i = (d.settled x).hostDrop := by
  rw [completionWrite_some h, if_neg (by tauto), if_pos ho]

theorem completionWrite_waits {d : Dev} {i : Nat} {x : Flight} (h : d.host.flights[i]? = some x) (ho : x.orphan = false) (hw : d.completionWaits x) :
    d.completionWrite i = d := by
  rw [completionWrite_some h]
  split_ifs with h1 h2 h3
  · rfl
  · rw [ho] at h2; cases h2
  · rfl
  · exact absurd ((completionWaits_iff d x).2 hw) h3

theorem completionWrite_puts {d : Dev} {i : Nat} {x : Flight} (h : d.host.flights[i]? = some x) (h2 : x.stage = 2) (ht : x.stime ≠ d.now + 1)
    (ho : x.orphan = false) (hw : ¬ d.completionWaits x) : d.completionWrite i = (d.settled x).completionPut x := by
  rw [completionWrite_some h, if_neg (by tauto), if_neg (by simp [ho]), if_neg (fun c => hw ((completionWaits_iff d x).1 c))]

/-- The record written for `x`, and what it moves. -/
theorem completionPut_writes (d : Dev) (x : Flight) :
    (d.settled x).completionPut x = ((d.settled x).emit (.completion x.cq (d.get (RR_TAIL_TAIL x.cq))
      (completionRecord x (d.get (RR_STATUS_P x.cq)) (x.sqhead.getD (d.get (SR_HEAD_HEAD x.sr)))))).ringStep x.cq := rfl

/-- Settles O38: the fetch engine, forwarding, credits and completions, each from the equation of its command per case. -/
theorem descriptorsAreFetchedForwardedAndCompleted : Obligations.DescriptorsAreFetchedForwardedAndCompleted := by
  unfold Obligations.DescriptorsAreFetchedForwardedAndCompleted
  refine ⟨fun s => ?_, fun s k => ?_, fun s x => ?_, fun s i => ?_⟩
  · refine ⟨fun h => ?_, fun i hi hmay hmin => ?_⟩
    · exact onDev_idle (f := Dev.fetchIssue) (fetchIssue_idle fun i hi c => h i hi ((mayFetch_iff _ _).1 c))
    · have heq := fetchIssue_first hi ((mayFetch_iff _ _).2 hmay) (fun j hj c => hmin j hj ((mayFetch_iff _ _).1 c))
      refine ⟨_, onDev_of (f := Dev.fetchIssue) heq, rfl, ?_, rfl, fun m hm => ?_, rfl, rfl,
        (fetchAsk_frame _ _).lift⟩
      · exact Dev.sring_modSring_same _ _ _
      · exact Dev.sring_modSring_ne _ _ hm
  · refine ⟨fun hr => ⟨?_, ?_, fun ds => ?_⟩, fun slot n hr => ⟨⟨_, rfl, ?_⟩, ⟨_, rfl, ?_⟩, fun ds hn => ?_, fun ds hn => ?_⟩, fun hb => ?_,
      fun y rest hb => ⟨fun hh => ?_, fun hh => ?_⟩⟩
    · exact onDev_idle (f := fun d => d.fetchFail k) (fetchFail_idle hr)
    · exact onDev_idle (f := fun d => d.fetchFail k) (fetchFail_idle hr)
    · show execDescriptorFetchDone k (.ok ds) s = _
      simp only [execDescriptorFetchDone, hr]
    · have hf := fetchFail_readFailed k.isLt hr
      exact ⟨hf.enable, hf.error, hf.ring, hf.others, hf.kept, hf.aborts, hf.silent, hf.reports, hf.frame.lift⟩
    · have hf := fetchFail_readFailed k.isLt hr
      exact ⟨hf.enable, hf.error, hf.ring, hf.others, hf.kept, hf.aborts, hf.silent, hf.reports, hf.frame.lift⟩
    · show execDescriptorFetchDone k (.ok ds) s = _
      simp only [execDescriptorFetchDone, hr]
      exact if_neg hn
    · have hexec : execDescriptorFetchDone k (.ok ds) s = onDev s (fun d => d.fetchDone k ds) := by
        simp only [execDescriptorFetchDone, hr]
        exact if_pos hn
      refine ⟨_, hexec.trans (onDev_of (f := fun d => d.fetchDone k ds) (fetchDone_some ds hr)), ?_, fun m hm => ?_, ?_, rfl,
        (fetchDone_frame _ _ _ _).lift⟩
      · exact Dev.sring_modSring_same _ _ _
      · exact Dev.sring_modSring_ne _ _ hm
      · rw [hn]
        exact fetchDone_head _ _ _ _
    · exact onDev_idle (f := fun d => d.forward k) (forward_empty hb)
    · exact onDev_idle (f := fun d => d.forward k) (forward_held hb hh)
    · refine ⟨_, onDev_of (f := fun d => d.forward k) (forward_goes hb hh), ?_, fun m hm => ?_, rfl, rfl,
        ((Dev.modSring_frame _ _ _ _ (by simp)).trans (withFlights_frame _ _ _ (by simp))).lift⟩
      · exact (withFlights_sring _ _ _).trans (Dev.sring_modSring_same _ _ _)
      · exact (withFlights_sring _ _ _).trans (Dev.sring_modSring_ne _ _ hm)
  · refine ⟨fun h => ?_, fun l c r hl hlate hx hdue => ?_⟩
    · exact onDev_idle (f := fun d => d.creditArrive x) (creditArrive_none h)
    · exact ⟨_, onDev_of (f := fun d => d.creditArrive x) (creditArrive_first hl hlate hx hdue), rfl,
        (Dev.host_frame _ _ _ (by simp)).lift⟩
  · refine ⟨fun h => ?_, fun x h => ⟨fun h2 => ?_, fun h2 ht => ?_, fun h2 ht ho => ?_, fun h2 ht ho hw => ?_, fun h2 ht ho hd hen hroom => ?_⟩⟩
    · refine onDev_idle (f := fun d => d.completionWrite i) ?_
      rw [Dev.completionWrite, h]
    · exact onDev_idle (f := fun d => d.completionWrite i) ((completionWrite_some h).trans (if_pos (.inl h2)))
    · exact onDev_idle (f := fun d => d.completionWrite i) ((completionWrite_some h).trans (if_pos (.inr ht)))
    · have hgone : s.dev.Gone x ((s.dev.settled x).hostDrop) := gone_of_host (List.mem_of_getElem? h) rfl
      refine ⟨_, onDev_of (f := fun d => d.completionWrite i) (completionWrite_drops h h2 ht ho),
        ⟨hgone.flights, hgone.credits, hgone.srs, hgone.fns⟩, ?_, ((settled_frame _ _ _ (by simp)).trans (Dev.incSat_frame _ _ _ (fit rfl) (by simp))).lift⟩
      rw [Dev.hostDrop, Dev.incSat_eq, Dev.get_put_same _ _ _ (fit rfl)]
      exact Nat.mod_eq_of_lt (lt_of_le_of_lt (Nat.min_le_right _ _) (Nat.sub_lt (Nat.two_pow_pos _) Nat.one_pos))
    · exact onDev_idle (f := fun d => d.completionWrite i) (completionWrite_waits h ho hw)
    · have hwaits : ¬ s.dev.completionWaits x := by
        rintro (c | c | c)
        · rw [hd] at c; cases c
        · omega
        · omega
      have hrecord := completionRecord_fields x (x.sqhead.getD (s.dev.get (SR_HEAD_HEAD x.sr))) (Dev.get_lt s.dev (RR_STATUS_P x.cq))
      refine ⟨_, onDev_of (f := fun d => d.completionWrite i)
        ((completionWrite_puts h h2 ht ho hwaits).trans (completionPut_writes _ _)), ?_, ⟨_, ringStep_out _ _, hrecord⟩, ringStep_tail _ _, ringStep_phase _ _,
        ringStep_disarms _ _, fun ha => ringStep_unarmed ha, fun ha => ringStep_timing ha, ?_⟩
      · have hgone := gone_of_host (List.mem_of_getElem? h) (ringStep_host ((s.dev.settled x).emit (.completion x.cq (s.dev.get (RR_TAIL_TAIL x.cq))
          (completionRecord x (s.dev.get (RR_STATUS_P x.cq)) (x.sqhead.getD (s.dev.get (SR_HEAD_HEAD x.sr)))))) x.cq)
        exact ⟨hgone.flights, hgone.credits, hgone.srs, hgone.fns⟩
      · exact ((settled_frame _ _ _ (by simp)).trans ((Dev.emit_frame _ _ _ (by simp)).trans (ringStep_frame _ _ (by simp)))).lift

end Sys2Proof.Machine
end

section
/-! PROOF. Which record goes next: the collector's turn, the spine buffer, and the turn of the record unit (R14 to R16, R375). -/

namespace Sys2Proof.Machine

/-! ## The lowest of a list -/

/-- The better of the best so far and `p`: the one of lower rank, the earlier where they rank alike. -/
def pickLow {α : Type} (rank : α → Nat) (best : Option α) (p : α) : Option α :=
  match best with
  | none => some p
  | some b => if rank p < rank b then some p else some b

/-- A fold that picks alike picks the same. -/
theorem foldl_pickLow_of {α : Type} {rank : α → Nat} {f : Option α → α → Option α} {l : List α} {o : Option α}
    (hf : ∀ best p, f best p = pickLow rank best p) (h : l.foldl f none = o) : l.foldl (pickLow rank) none = o := by
  rwa [show pickLow rank = f from funext fun best => funext fun p => (hf best p).symm]

theorem foldl_pickLow_keeps {α : Type} {rank : α → Nat} {p : α} (l : List α) (h : ∀ y ∈ l, rank p ≤ rank y) :
    l.foldl (pickLow rank) (some p) = some p := by
  induction l with
  | nil => rfl
  | cons y l ih =>
    have hstep : pickLow rank (some p) y = some p := if_neg (Nat.not_lt.2 (h y List.mem_cons_self))
    rw [List.foldl_cons, hstep]
    exact ih fun z hz => h z (List.mem_cons_of_mem _ hz)

/-- No best so far, or one that ranks above `p`. -/
def beatenBy {α : Type} (rank : α → Nat) (p : α) (best : Option α) : Prop := ∀ b, best = some b → rank p < rank b

theorem foldl_pickLow_beaten {α : Type} {rank : α → Nat} {p : α} (l : List α) (h : ∀ y ∈ l, rank p < rank y) (best : Option α)
    (hb : beatenBy rank p best) : beatenBy rank p (l.foldl (pickLow rank) best) := by
  induction l generalizing best with
  | nil => exact hb
  | cons y l ih =>
    refine ih (fun z hz => h z (List.mem_cons_of_mem _ hz)) _ fun b hb' => ?_
    have hy := h y List.mem_cons_self
    cases best with
    | none => cases hb'; exact hy
    | some c =>
      simp only [pickLow] at hb'
      split_ifs at hb' <;> cases hb'
      · exact hy
      · exact hb b rfl

/-- The first element of least rank is the one that the fold picks. -/
theorem foldl_pickLow_eq {α : Type} {rank : α → Nat} {p : α} (l r : List α) (hl : ∀ y ∈ l, rank p < rank y) (hr : ∀ y ∈ r, rank p ≤ rank y) :
    (l ++ p :: r).foldl (pickLow rank) none = some p := by
  have hbeaten := foldl_pickLow_beaten l hl none (fun b hb => by cases hb)
  rw [List.foldl_append, List.foldl_cons]
  generalize l.foldl (pickLow rank) none = best at hbeaten
  have hstep : pickLow rank best p = some p := by
    cases best with
    | none => rfl
    | some b => exact if_pos (hbeaten b rfl)
  rw [hstep]
  exact foldl_pickLow_keeps r hr

/-- What the fold picks stands in the list. -/
theorem foldl_pickLow_mem {α : Type} {rank : α → Nat} {p : α} (l : List α) (h : l.foldl (pickLow rank) none = some p) : p ∈ l := by
  have hgo : ∀ (l : List α) (best : Option α), l.foldl (pickLow rank) best = some p → best = some p ∨ p ∈ l := by
    intro l
    induction l with
    | nil => exact fun _ h => .inl h
    | cons y l ih =>
      intro best h
      rcases ih _ h with hb | hb
      · cases best with
        | none => cases hb; exact .inr List.mem_cons_self
        | some c =>
          simp only [pickLow] at hb
          split_ifs at hb
          · cases hb; exact .inr List.mem_cons_self
          · exact .inl hb
      · exact .inr (List.mem_cons_of_mem _ hb)
  exact (hgo l none h).resolve_left (by simp)

/-! ## The collector (R15) -/

/-- R15: how a pending record of quadrant `q` ranks at its collector. -/
def Dev.collectRank (d : Dev) (q : Nat) (p : PendRec) : Nat :=
  ((p.source + 0x190 - (d.quad q).lastSource - 1) % 0x190) * 2 ^ 24 + p.r.sub * 2 ^ 16 + p.r.block

theorem collectNext_eq (d : Dev) (q : Nat) :
    d.collectNext q = ((d.quad q).pend.filter (fun p => decide (p.due ≤ d.tick))).foldl (pickLow (d.collectRank q)) none := by
  unfold Dev.collectNext
  exact (foldl_pickLow_of (fun best _ => by cases best <;> rfl) rfl).symm

theorem collectNext_none {d : Dev} {q : Nat} (h : ∀ p ∈ (d.quad q).pend, d.tick < p.due) : d.collectNext q = none := by
  rw [collectNext_eq, List.filter_eq_nil_iff.2 fun p hp => by simpa using h p hp]
  rfl

theorem collectNext_some {d : Dev} {q : Nat} {l r : List PendRec} {p : PendRec} (hpend : (d.quad q).pend = l ++ p :: r) (hdue : p.due ≤ d.tick)
    (hl : ∀ y ∈ l, y.due ≤ d.tick → d.collectRank q p < d.collectRank q y) (hr : ∀ y ∈ r, y.due ≤ d.tick → d.collectRank q p ≤ d.collectRank q y) :
    d.collectNext q = some p := by
  rw [collectNext_eq, hpend, List.filter_append, List.filter_cons_of_pos (by simpa using hdue)]
  refine foldl_pickLow_eq _ _ (fun y hy => ?_) (fun y hy => ?_) <;> rw [List.mem_filter, decide_eq_true_eq] at hy
  · exact hl y hy.1 hy.2
  · exact hr y hy.1 hy.2

/-- The collector of quadrant `q` has nothing to do on this tick, or has done it. -/
def Dev.collectIdle (d : Dev) (q : Nat) : Prop := ¬ d.tb.running ∨ d.quadDown q ∨ (d.quad q).collected = d.tick + 1

theorem recordCollect_idle {d : Dev} {q : Nat} (h : d.collectIdle q) : d.recordCollect q = d := if_pos h

theorem recordCollect_none {d : Dev} {q : Nat} (h : d.collectNext q = none) : d.recordCollect q = d := by
  unfold Dev.recordCollect
  rw [h, ite_self]

/-- The state once the collector of quadrant `q` has taken `p`, with `l` in the record queue behind those that wait. -/
def Dev.collected (d : Dev) (q : Nat) (p : PendRec) (l : List QueuedRec) : Dev :=
  d.modQuad q (fun x => { x with pend := removeFirst p x.pend, lastSource := p.source, collected := d.tick + 1, recq := x.recq ++ l })

theorem recordCollect_takes {d : Dev} {q : Nat} {p : PendRec} (hi : ¬ d.collectIdle q) (h : d.collectNext q = some p) :
    (0 < d.recCredits q → d.recordCollect q = d.collected q p [{ avail := d.tick + 3, r := p.r }]) ∧
    (d.recCredits q = 0 → d.recordCollect q = (d.collected q p []).incSat (RECQ_DROP_CNT q)) := by
  have heq : d.recordCollect q = _ := if_neg hi
  rw [heq, h]
  dsimp only [Dev.collected]
  constructor <;> intro hc
  · simp only [hc, decide_true, if_true]
  · simp only [hc, Nat.lt_irrefl, decide_false, Bool.false_eq_true, if_false, List.append_nil]

theorem Dev.modQuad_frame {ps : List Part} (fs : List Fld) (d : Dev) (q : Nat) (f : Quad → Quad) (hp : Part.quads ∈ ps) :
    Dev.Frame ps fs d (d.modQuad q f) :=
  fun _ => ⟨fun p hn => by cases p <;> first | rfl | exact absurd hp hn, fun _ _ => rfl⟩

/-! ## The spine buffer (R375) -/

theorem spineBuffer_empty {d : Dev} (h : d.ru.raised = []) : d.spineBuffer = d := by rw [Dev.spineBuffer, h]

theorem spineBuffer_takes {d : Dev} {r : Rec} {rest : List Rec} (h : d.ru.raised = r :: rest) (hl : d.ru.spine.length < 64) :
    d.spineBuffer = { d with ru := { d.ru with raised := rest, spine := d.ru.spine ++ [r] } } := by
  rw [Dev.spineBuffer, h]
  exact if_pos hl

theorem spineBuffer_drops {d : Dev} {r : Rec} {rest : List Rec} (h : d.ru.raised = r :: rest) (hl : 64 ≤ d.ru.spine.length) :
    d.spineBuffer = ({ d with ru := { d.ru with raised := rest } } : Dev).incSat RECU_SPDROP_CNT := by
  rw [Dev.spineBuffer, h]
  exact if_neg (Nat.not_lt.2 hl)

/-! ## The turn of the record unit (R16, R375) -/

/-- The quadrants in the order of their turns. -/
def Dev.quadTurns (d : Dev) : List Nat := [1, 2, 3, 4].map (fun i => (d.ru.lastQuad + i) % 4)

theorem recReady_eq (d : Dev) (q : Nat) :
    d.recReady q = (d.quad q).recq.head?.bind (fun x => if x.avail ≤ d.tick then some x.r else none) := by
  unfold Dev.recReady
  cases (d.quad q).recq <;> rfl

/-- The quadrant whose turn it is. -/
def Dev.quadNext (d : Dev) : Option Nat := d.quadTurns.find? (fun q => (d.recReady q).isSome)

theorem quadNext_none {d : Dev} (h : ∀ q ∈ d.quadTurns, d.recReady q = none) : d.quadNext = none :=
  List.find?_eq_none.2 fun q hq => by rw [h q hq]; simp

theorem quadNext_some {d : Dev} {i q : Nat} {r : Rec} (hi : d.quadTurns[i]? = some q) (hq : d.recReady q = some r)
    (hmin : ∀ j p : Nat, j < i → d.quadTurns[j]? = some p → d.recReady p = none) : d.quadNext = some q := by
  obtain ⟨hlt, hget⟩ := List.getElem?_eq_some_iff.1 hi
  refine List.find?_eq_some_iff_getElem.2 ⟨by rw [hq]; rfl, i, hlt, hget, fun j hj => ?_⟩
  rw [hmin j _ hj (List.getElem?_eq_getElem (hj.trans hlt))]
  rfl

theorem recordAccept_eq (d : Dev) : d.recordAccept = match d.ru.spine, d.quadNext, d.ru.spineTurn with
    | r :: rest, some _, true => ({ d with ru := { d.ru with spine := rest, spineTurn := false } }).accept r
    | r :: rest, none, _ => ({ d with ru := { d.ru with spine := rest, spineTurn := false } }).accept r
    | _, some q, _ =>
      match d.recReady q with
      | some r =>
        let d := (d.modQuad q (fun x => { x with recq := x.recq.drop 1 })).creditBack (fqRec q)
        ({ d with ru := { d.ru with lastQuad := q, spineTurn := true } }).accept r
      | none => d
    | [], none, _ => d := by unfold Dev.recordAccept; rfl

theorem recordAccept_none {d : Dev} (hs : d.ru.spine = []) (hq : d.quadNext = none) : d.recordAccept = d := by rw [recordAccept_eq, hs, hq]

theorem recordAccept_spine {d : Dev} {r : Rec} {rest : List Rec} (hs : d.ru.spine = r :: rest) (ht : d.ru.spineTurn = true ∨ d.quadNext = none) :
    d.recordAccept = ({ d with ru := { d.ru with spine := rest, spineTurn := false } } : Dev).accept r := by
  rw [recordAccept_eq, hs]
  cases hq : d.quadNext with
  | none => rfl
  | some q =>
    rw [hq] at ht
    rw [ht.resolve_right (by simp)]

/-- The state once the record unit has taken the record at the head of the queue of quadrant `q`. -/
def Dev.quadTaken (d : Dev) (q : Nat) : Dev :=
  let d := (d.modQuad q (fun x => { x with recq := x.recq.drop 1 })).creditBack (fqRec q)
  { d with ru := { d.ru with lastQuad := q, spineTurn := true } }

theorem quadTaken_quad (d : Dev) (q m : Nat) :
    (d.quadTaken q).quad m = (d.modQuad q (fun x => { x with recq := x.recq.drop 1 })).quad m := rfl

theorem recordAccept_quad {d : Dev} {q : Nat} {r : Rec} (hq : d.quadNext = some q) (hr : d.recReady q = some r)
    (hs : d.ru.spine = [] ∨ d.ru.spineTurn = false) : d.recordAccept = (d.quadTaken q).accept r := by
  rw [recordAccept_eq, hq]
  cases hsp : d.ru.spine with
  | nil => dsimp only; rw [hr]; rfl
  | cons x rest =>
    rw [hs.resolve_left (by rw [hsp]; simp)]
    dsimp only
    rw [hr]
    rfl

theorem quadTaken_frame (d : Dev) (q : Nat) : Dev.Frame [.quads, .ru, .host] [] d (d.quadTaken q) :=
  ((Dev.modQuad_frame _ _ _ _ (by simp)).trans (Dev.host_frame _ _ _ (by simp))).trans (Dev.ru_frame _ _ _ (by simp))

end Sys2Proof.Machine
end

section
/-! PROOF. A record on its way into an event ring (R378, R382 to R384, R386). -/

namespace Sys2Proof.Machine

theorem get_incSat (d : Dev) {f : Fld} (h : f.lo + f.w ≤ 32) : (d.incSat f).get f = min (d.get f + 1) (2 ^ f.w - 1) := by
  rw [Dev.incSat_eq, Dev.get_put_same _ _ _ h]
  exact Nat.mod_eq_of_lt (lt_of_le_of_lt (Nat.min_le_right _ _) (Nat.sub_lt (Nat.two_pow_pos _) Nat.one_pos))

/-! ## What stays in the record unit -/

theorem ringTimer_ru (d : Dev) (k : Nat) : ∃ m, (d.ringTimer k).ru = { d.ru with modEnd := m } := ⟨_, Dev.put_ru _ _ _⟩

theorem ringWrote_ru (d : Dev) (k : Nat) : ∃ m, (d.ringWrote k).ru = { d.ru with modEnd := m } := by
  rcases armed_zero_or_one d k with h | h
  · exact ⟨_, by rw [ringWrote_idle h]⟩
  · obtain ⟨m, hm⟩ := ringTimer_ru (d.put (RR_IRQ_ARMED k) 0) k
    exact ⟨m, by rw [ringWrote_armed h, hm, Dev.put_ru]⟩

theorem ringStep_ru (d : Dev) (k : Nat) : ∃ m, (d.ringStep k).ru = { d.ru with modEnd := m } := by
  obtain ⟨m, hm⟩ := ringWrote_ru (d.ringAdvance k) k
  exact ⟨m, hm.trans (by rw [show (d.ringAdvance k).ru = d.ru from (ringAdvance_frame [] d k).part .ru (by simp)])⟩

theorem ringPut_ringSeq (d : Dev) (k : Nat) (r : Rec) (seq : Nat) : (d.ringPut k r seq).ru.ringSeq = d.ru.ringSeq := by
  rw [ringPut_eq]
  obtain ⟨m, hm⟩ := ringStep_ru (d.emit (.event k (d.get (RR_TAIL_TAIL k)) (r.dwords seq (d.get (RR_STATUS_P k))))) k
  rw [hm, Dev.emit_ru]

/-! ## A record that is lost (R382) -/

/-- The count of the records lost at a ring, with SEQ and time of the first, after one more. -/
def lostMore (x : Nat × Nat × Nat) (seq : Nat) (r : Rec) : Nat × Nat × Nat := if x.1 = 0 then (1, seq, r.at_.time) else (x.1 + 1, x.2)

/-- The record unit with that count for ring `k`. -/
def RecUnit.loses (x : RecUnit) (k seq : Nat) (r : Rec) : RecUnit :=
  { x with ringLost := Tab.set (0, 0, 0) x.ringLost k (lostMore (Tab.get (0, 0, 0) x.ringLost k) seq r) }

theorem ringLose_eq (d : Dev) (k : Nat) (r : Rec) (seq : Nat) :
    d.ringLose k r seq = (({ d with ru := d.ru.loses k seq r } : Dev).incSat (RR_LOST_DROPPED k)).raise (RR_LOST_PEND k) := rfl

theorem ringLose_ru (d : Dev) (k : Nat) (r : Rec) (seq : Nat) : (d.ringLose k r seq).ru = d.ru.loses k seq r := rfl

theorem ringLose_frame (d : Dev) (k : Nat) (r : Rec) (seq : Nat) : Dev.Frame [.ru] [RR_LOST_DROPPED k, RR_LOST_PEND k] d (d.ringLose k r seq) :=
  ((Dev.ru_frame _ _ _ (by simp)).trans (Dev.incSat_frame _ _ _ (fit rfl) (by simp))).trans (Dev.raise_frame _ _ _ (fit rfl) (by simp))

theorem ringLose_pending (d : Dev) (k : Nat) (r : Rec) (seq : Nat) : (d.ringLose k r seq).get (RR_LOST_PEND k) = 1 := by
  rw [ringLose_eq, Dev.raise_eq, Dev.get_put_same _ _ _ (fit rfl)]
  rfl

theorem ringLose_dropped (d : Dev) (k : Nat) (r : Rec) (seq : Nat) :
    (d.ringLose k r seq).get (RR_LOST_DROPPED k) = min (d.get (RR_LOST_DROPPED k) + 1) (2 ^ 31 - 1) := by
  have hapart : (RR_LOST_PEND k).apart (RR_LOST_DROPPED k) := .inr (.inr (by decide : (0 : Nat) + 31 ≤ 31))
  rw [ringLose_eq, Dev.raise_eq, Dev.get_put_ne _ _ (fit rfl) hapart, get_incSat _ (fit rfl), Dev.get_with_ru]
  rfl

/-- R382: the ring `k` has lost the record `r`, which carried the number `seq`. -/
structure Dev.Lost (d : Dev) (k seq : Nat) (r : Rec) (e : Dev) : Prop where
  dropped : e.get (RR_LOST_DROPPED k) = min (d.get (RR_LOST_DROPPED k) + 1) (2 ^ 31 - 1)
  pending : e.get (RR_LOST_PEND k) = 1
  count : Tab.get (0, 0, 0) e.ru.ringLost k = lostMore (Tab.get (0, 0, 0) d.ru.ringLost k) seq r
  frame : Dev.Frame [.ru] [RR_LOST_DROPPED k, RR_LOST_PEND k] d e

theorem ringLose_lost (d : Dev) (k : Nat) (r : Rec) (seq : Nat) : d.Lost k seq r (d.ringLose k r seq) :=
  ⟨ringLose_dropped d k r seq, ringLose_pending d k r seq, by rw [ringLose_ru]; exact Tab.get_set_same _ _ _ _, ringLose_frame d k r seq⟩

/-! ## The report of lost records (R382) -/

/-- A report of lost records waits at ring `k` and cannot be written, or none waits. -/
def Dev.noReport (d : Dev) (k : Nat) : Prop := (Tab.get (0, 0, 0) d.ru.ringLost k).1 = 0 ∨ d.rrFree k = 0 ∨ ¬ d.flag (RR_CFG_EN k) = true

theorem ringLostPlace_none {d : Dev} {k : Nat} (h : d.noReport k) : d.ringLostPlace k = d := if_pos h

/-- The state as the report of ring `k` is about to be written. -/
def Dev.reportTaken (d : Dev) (k : Nat) : Dev :=
  ({ d with ru := { d.ru with ringLost := Tab.set (0, 0, 0) d.ru.ringLost k (0, 0, 0) } } : Dev).put (RR_LOST_PEND k) 0

theorem lostRec_form (d : Dev) (sub src count time : Nat) :
    (d.lostRec sub src count time).typ = 0x16 ∧ (d.lostRec sub src count time).sub = sub ∧ (d.lostRec sub src count time).p0 = count := ⟨rfl, rfl, rfl⟩

theorem ringLostPlace_writes {d : Dev} {k : Nat} (h : ¬ d.noReport k) : ∃ r : Rec, r.typ = 0x16 ∧ r.sub = 0 ∧
    r.p0 = (Tab.get (0, 0, 0) d.ru.ringLost k).1 ∧
    d.ringLostPlace k = (d.reportTaken k).ringPut k r (Tab.get (0, 0, 0) d.ru.ringLost k).2.1 := by
  obtain ⟨htyp, hsub, hp0⟩ := lostRec_form { d with ru := { d.ru with ringLost := Tab.set (0, 0, 0) d.ru.ringLost k (0, 0, 0) } } 0 k
    (Tab.get (0, 0, 0) d.ru.ringLost k).1 (Tab.get (0, 0, 0) d.ru.ringLost k).2.2
  refine ⟨_, htyp, hsub, hp0, ?_⟩
  unfold Dev.noReport at h
  unfold Dev.ringLostPlace Dev.reportTaken
  dsimp only
  rw [if_neg h]

theorem ringLostPlace_ringSeq (d : Dev) (k : Nat) : (d.ringLostPlace k).ru.ringSeq = d.ru.ringSeq := by
  by_cases h : d.noReport k
  · rw [ringLostPlace_none h]
  · obtain ⟨r, -, -, -, heq⟩ := ringLostPlace_writes h
    rw [heq, ringPut_ringSeq, Dev.reportTaken, Dev.put_ru]

theorem ringWrite_ringSeq (d : Dev) (k : Nat) (r : Rec) (seq : Nat) : (d.ringWrite k r seq).ru.ringSeq = d.ru.ringSeq := by
  unfold Dev.ringWrite
  dsimp only
  split
  · rw [ringLose_ru]
    exact ringLostPlace_ringSeq d k
  · rw [ringPut_ringSeq]
    exact ringLostPlace_ringSeq d k

theorem ringWrite_full {d : Dev} {k : Nat} (r : Rec) (seq : Nat) (h : d.rrFree k = 0) : d.ringWrite k r seq = d.ringLose k r seq := by
  unfold Dev.ringWrite
  rw [ringLostPlace_none (.inr (.inl h))]
  exact if_pos h

theorem ringWrite_free {d : Dev} {k : Nat} (r : Rec) (seq : Nat) (h : d.rrFree k ≠ 0) (hl : (Tab.get (0, 0, 0) d.ru.ringLost k).1 = 0) :
    d.ringWrite k r seq = d.ringPut k r seq := by
  unfold Dev.ringWrite
  rw [ringLostPlace_none (.inl hl)]
  exact if_neg h

theorem ringPut_out (d : Dev) (k : Nat) (r : Rec) (seq : Nat) :
    (d.ringPut k r seq).out = d.out ++ [.event k (d.get (RR_TAIL_TAIL k)) (r.dwords seq (d.get (RR_STATUS_P k)))] := by
  rw [ringPut_eq]
  exact (ringStep_frame (ps := [.ru]) _ k (by simp)).part .out (by simp)

/-- What has gone out stays out, whatever becomes of the next record. -/
theorem mem_out_of_ringLostPlace {d : Dev} {k : Nat} (r : Rec) (seq : Nat) {x : Output} (h : x ∈ (d.ringLostPlace k).out) :
    x ∈ (d.ringWrite k r seq).out := by
  unfold Dev.ringWrite
  dsimp only
  split
  · rwa [show ((d.ringLostPlace k).ringLose k r seq).out = (d.ringLostPlace k).out from (ringLose_frame _ k r seq).part .out (by simp)]
  · rw [ringPut_out]
    exact List.mem_append_left _ h

/-- R382: a report that waits is written before the record. -/
theorem ringWrite_reports {d : Dev} {k : Nat} (r : Rec) (seq : Nat) (h : ¬ d.noReport k) : ∃ r' : Rec,
    .event k (d.get (RR_TAIL_TAIL k)) (r'.dwords (Tab.get (0, 0, 0) d.ru.ringLost k).2.1 (d.get (RR_STATUS_P k))) ∈ (d.ringWrite k r seq).out ∧
    r'.typ = 0x16 ∧ r'.sub = 0 ∧ r'.p0 = (Tab.get (0, 0, 0) d.ru.ringLost k).1 := by
  obtain ⟨r', htyp, hsub, hp0, heq⟩ := ringLostPlace_writes h
  refine ⟨r', mem_out_of_ringLostPlace r seq ?_, htyp, hsub, hp0⟩
  have htail : (RR_LOST_PEND k).apart (RR_TAIL_TAIL k) := .inl (by simp only [RR_LOST_PEND, RR_LOST, RR_TAIL_TAIL, RR_TAIL]; omega)
  have hphase : (RR_LOST_PEND k).apart (RR_STATUS_P k) := .inl (by simp only [RR_LOST_PEND, RR_LOST, RR_STATUS_P, RR_STATUS]; omega)
  rw [heq, ringPut_out, Dev.reportTaken, Dev.get_put_ne _ _ (fit rfl) htail, Dev.get_put_ne _ _ (fit rfl) hphase, Dev.get_with_ru, Dev.get_with_ru]
  exact List.mem_append_right _ (List.mem_singleton.2 rfl)

/-! ## The route to an event ring (R378, R383, R386) -/

theorem toRing_detached {d : Dev} {k : Nat} {r : Rec} (h : d.host.detached = true) :
    (d.toRing k r).get HIF_DETACH_DROP_CNT = min (d.get HIF_DETACH_DROP_CNT + 1) (2 ^ 32 - 1) ∧
    (d.toRing k r).ru.detachFirst = some (d.ru.detachFirst.getD r.at_.time) ∧ Dev.Frame [.ru] [HIF_DETACH_DROP_CNT] d (d.toRing k r) := by
  have hdrop : Dev.Frame [.ru] [HIF_DETACH_DROP_CNT] d d.hostDrop := Dev.incSat_frame _ _ _ (fit rfl) (by simp)
  have heq : d.toRing k r = if d.ru.detachFirst = none then { d.hostDrop with ru := { d.ru with detachFirst := some r.at_.time } } else d.hostDrop :=
    if_pos h
  cases hf : d.ru.detachFirst with
  | none =>
    rw [heq, if_pos hf]
    exact ⟨(Dev.get_with_ru _ _ _).trans (get_incSat d (fit rfl)), rfl, hdrop.trans (Dev.ru_frame _ _ _ (by simp))⟩
  | some t =>
    rw [heq, if_neg (by rw [hf]; simp)]
    exact ⟨get_incSat d (fit rfl), hf, hdrop⟩

theorem toRing_off {d : Dev} {k : Nat} {r : Rec} (h : d.host.detached = false) (hoff : d.get (RR_CFG_EN k) = 0 ∨ d.get (RR_CFG_TYPE k) = 0) :
    d.toRing k r = d.incSat RECU_OFFDROP_CNT := by
  have hc : ¬ d.flag (RR_CFG_EN k) = true ∨ ¬ d.flag (RR_CFG_TYPE k) = true := by
    rw [Dev.flag_iff, Dev.flag_iff, not_not, not_not]
    exact hoff
  unfold Dev.toRing
  rw [if_neg (by rw [h]; simp), if_pos hc]

/-- The state once the record has its number in ring `k`. -/
def Dev.numbered (d : Dev) (k : Nat) : Dev :=
  { d with ru := { d.ru with ringSeq := Tab.set 0 d.ru.ringSeq k ((Tab.get 0 d.ru.ringSeq k + 1) % 65536) } }

theorem numbered_frame {ps : List Part} (fs : List Fld) (d : Dev) (k : Nat) (hp : Part.ru ∈ ps) : Dev.Frame ps fs d (d.numbered k) := Dev.ru_frame _ _ _ hp

theorem numbered_rrFree (d : Dev) (k : Nat) : (d.numbered k).rrFree k = d.rrFree k := rfl

theorem numbered_ringSeq (d : Dev) (k : Nat) : Tab.get 0 (d.numbered k).ru.ringSeq k = (Tab.get 0 d.ru.ringSeq k + 1) % 65536 := Tab.get_set_same _ _ _ _

/-- R386: the state with a record of ring `k` in the hold buffer of its owner. -/
def Dev.holding (d : Dev) (k seq : Nat) (r : Rec) : Dev :=
  { d with ru := { d.ru with held := Tab.set [] d.ru.held (d.rrOwner k) (Tab.get [] d.ru.held (d.rrOwner k) ++ [(k, seq, r)]) } }

theorem toRing_on {d : Dev} {k : Nat} {r : Rec} (h : d.host.detached = false) (hen : d.get (RR_CFG_EN k) = 1) (hty : d.get (RR_CFG_TYPE k) = 1) :
    d.toRing k r =
      if (d.fn (d.rrOwner k)).d3 then
        if (Tab.get [] d.ru.held (d.rrOwner k)).length < 256 then ((d.numbered k).holding k (Tab.get 0 d.ru.ringSeq k) r).ringWrote k
        else (d.numbered k).ringLose k r (Tab.get 0 d.ru.ringSeq k)
      else (d.numbered k).ringWrite k r (Tab.get 0 d.ru.ringSeq k) := by
  have hc : ¬ (¬ d.flag (RR_CFG_EN k) = true ∨ ¬ d.flag (RR_CFG_TYPE k) = true) := by
    rw [(flag_iff_one rfl).2 hen, (flag_iff_one rfl).2 hty]
    simp
  unfold Dev.toRing
  rw [if_neg (by rw [h]; simp), if_neg hc]
  rfl

/-- R384: after a write to ring `k` the ring is not armed, and its timer runs where it was. -/
structure Dev.Disarmed (d : Dev) (k : Nat) (e : Dev) : Prop where
  off : e.get (RR_IRQ_ARMED k) = 0
  timer : d.get (RR_IRQ_ARMED k) = 1 → e.get (RR_IRQ_TIMING k) = 1 ∧
    Tab.get 0 e.ru.modEnd k = d.tick + 800 * min 1000 (d.get (RR_IRQ_MOD k))

section
variable {d : Dev} {k : Nat} {r : Rec} (h : d.host.detached = false) (hen : d.get (RR_CFG_EN k) = 1) (hty : d.get (RR_CFG_TYPE k) = 1)
include h hen hty

theorem toRing_numbers : Tab.get 0 (d.toRing k r).ru.ringSeq k = (Tab.get 0 d.ru.ringSeq k + 1) % 65536 := by
  rw [toRing_on h hen hty, ← numbered_ringSeq]
  refine congrArg (fun t => Tab.get 0 t k) ?_
  split_ifs
  · obtain ⟨m, hm⟩ := ringWrote_ru ((d.numbered k).holding k (Tab.get 0 d.ru.ringSeq k) r) k
    rw [hm]
    rfl
  · rfl
  · exact ringWrite_ringSeq _ _ _ _

theorem toRing_held (hd3 : (d.fn (d.rrOwner k)).d3 = true) (hroom : (Tab.get [] d.ru.held (d.rrOwner k)).length < 256) :
    Tab.get [] (d.toRing k r).ru.held (d.rrOwner k) = Tab.get [] d.ru.held (d.rrOwner k) ++ [(k, Tab.get 0 d.ru.ringSeq k, r)] ∧
    d.Disarmed k (d.toRing k r) ∧ Dev.Frame [.ru] [RR_IRQ_ARMED k, RR_IRQ_TIMING k] d (d.toRing k r) := by
  rw [toRing_on h hen hty, if_pos hd3, if_pos hroom]
  obtain ⟨m, hm⟩ := ringWrote_ru ((d.numbered k).holding k (Tab.get 0 d.ru.ringSeq k) r) k
  refine ⟨?_, ⟨ringWrote_disarms _ k, fun ha => ringWrote_timing (d := (d.numbered k).holding k _ r) ha⟩,
    (numbered_frame _ _ _ (by simp)).trans ((Dev.ru_frame _ _ _ (by simp)).trans (ringWrote_frame _ k (by simp)))⟩
  rw [hm]
  exact Tab.get_set_same _ _ _ _

theorem toRing_lost (hfull : (d.fn (d.rrOwner k)).d3 = true ∧ 256 ≤ (Tab.get [] d.ru.held (d.rrOwner k)).length ∨
      (d.fn (d.rrOwner k)).d3 = false ∧ d.rrFree k = 0) : d.Lost k (Tab.get 0 d.ru.ringSeq k) r (d.toRing k r) := by
  have heq : d.toRing k r = (d.numbered k).ringLose k r (Tab.get 0 d.ru.ringSeq k) := by
    rw [toRing_on h hen hty]
    rcases hfull with ⟨hd3, hlen⟩ | ⟨hd3, hfree⟩
    · rw [if_pos hd3, if_neg (Nat.not_lt.2 hlen)]
    · rw [if_neg (by rw [hd3]; simp), ringWrite_full _ _ ((numbered_rrFree d k).trans hfree)]
  rw [heq]
  have hlost := ringLose_lost (d.numbered k) k r (Tab.get 0 d.ru.ringSeq k)
  exact ⟨hlost.dropped, hlost.pending, hlost.count, (numbered_frame _ _ _ (by simp)).trans hlost.frame⟩

theorem toRing_writes (hd3 : (d.fn (d.rrOwner k)).d3 = false) (hfree : d.rrFree k ≠ 0) (hlost : (Tab.get (0, 0, 0) d.ru.ringLost k).1 = 0) :
    d.toRing k r = ((d.numbered k).emit (.event k (d.get (RR_TAIL_TAIL k)) (r.dwords (Tab.get 0 d.ru.ringSeq k) (d.get (RR_STATUS_P k))))).ringStep k := by
  rw [toRing_on h hen hty, if_neg (by rw [hd3]; simp), ringWrite_free _ _ ((numbered_rrFree d k).trans_ne hfree) hlost, ringPut_eq]
  rfl

theorem toRing_reports (hd3 : (d.fn (d.rrOwner k)).d3 = false) (hfree : d.rrFree k ≠ 0) (hlost : (Tab.get (0, 0, 0) d.ru.ringLost k).1 ≠ 0) :
    ∃ r' : Rec, .event k (d.get (RR_TAIL_TAIL k)) (r'.dwords (Tab.get (0, 0, 0) d.ru.ringLost k).2.1 (d.get (RR_STATUS_P k))) ∈ (d.toRing k r).out ∧
      r'.typ = 0x16 ∧ r'.sub = 0 ∧ r'.p0 = (Tab.get (0, 0, 0) d.ru.ringLost k).1 := by
  rw [toRing_on h hen hty, if_neg (by rw [hd3]; simp)]
  refine ringWrite_reports (d := d.numbered k) r _ ?_
  rintro (c | c | c)
  · exact hlost c
  · exact hfree c
  · exact c ((flag_iff_one (d := d.numbered k) rfl).2 hen)

end

end Sys2Proof.Machine
end

section
/-! PROOF. A record on its way into the queues of the engines (R379 to R381). -/

namespace Sys2Proof.Machine

theorem Dev.modMe_frame {ps : List Part} (fs : List Fld) (d : Dev) (m : Nat) (f : Me → Me) (hp : Part.mes ∈ ps) : Dev.Frame ps fs d (d.modMe m f) :=
  fun _ => ⟨fun p hn => by cases p <;> first | rfl | exact absurd hp hn, fun _ _ => rfl⟩

/-! ## One engine (R381) -/

theorem meLostPlace_frame (fs : List Fld) (d : Dev) (m : Nat) : Dev.Frame [.mes, .ru] fs d (d.meLostPlace m) :=
  Dev.Frame.ite (fun _ => Dev.Frame.refl _ _ _) (fun _ => (Dev.modMe_frame _ _ _ _ (by simp)).trans (Dev.ru_frame _ _ _ (by simp)))

/-- The state once engine `m` has its next number. -/
def Dev.meNumbered (d : Dev) (m : Nat) : Dev :=
  { d with ru := { d.ru with meSeq := Tab.set 0 d.ru.meSeq m ((Tab.get 0 d.ru.meSeq m + 1) % 65536) } }

/-- The record unit with one more record lost at engine `m`. -/
def RecUnit.meLoses (x : RecUnit) (m seq : Nat) (r : Rec) : RecUnit :=
  { x with meLost := Tab.set (0, 0, 0) x.meLost m (lostMore (Tab.get (0, 0, 0) x.meLost m) seq r) }

/-- The state once engine `m` has lost one more record. -/
def Dev.meLosing (d : Dev) (m seq : Nat) (r : Rec) : Dev := { d with ru := d.ru.meLoses m seq r }

theorem toEngine_eq (d : Dev) (r : Rec) (m : Nat) : d.toEngine r m =
    let d := d.meLostPlace m
    if (d.me m).recs.length < 64 then (d.meNumbered m).modMe m (fun x => { x with recs := x.recs ++ [r.dwords (Tab.get 0 d.ru.meSeq m) 0] })
    else ((d.meNumbered m).meLosing m (Tab.get 0 d.ru.meSeq m) r).incSat (MEDROP_MEDROP_CNT m) := rfl

theorem toEngine_frame (d : Dev) (r : Rec) (m : Nat) : Dev.Frame [.mes, .ru] [MEDROP_MEDROP_CNT m] d (d.toEngine r m) := by
  rw [toEngine_eq]
  refine (meLostPlace_frame _ d m).trans (Dev.Frame.ite (fun _ => ?_) (fun _ => ?_))
  · exact (Dev.ru_frame _ _ _ (by simp)).trans (Dev.modMe_frame _ _ _ _ (by simp))
  · exact ((Dev.ru_frame _ _ _ (by simp)).trans (Dev.ru_frame _ _ _ (by simp))).trans (Dev.incSat_frame _ _ _ (fit rfl) (by simp))

/-- What the record unit knows of engine `m`, and its queue, are those of another state. -/
structure Dev.SameEngine (m : Nat) (d e : Dev) : Prop where
  queue : e.me m = d.me m
  seq : Tab.get 0 e.ru.meSeq m = Tab.get 0 d.ru.meSeq m
  lost : Tab.get (0, 0, 0) e.ru.meLost m = Tab.get (0, 0, 0) d.ru.meLost m
  drops : e.get (MEDROP_MEDROP_CNT m) = d.get (MEDROP_MEDROP_CNT m)

namespace Dev.SameEngine

theorem refl (m : Nat) (d : Dev) : Dev.SameEngine m d d := ⟨rfl, rfl, rfl, rfl⟩

theorem trans {m : Nat} {d e f : Dev} (h : Dev.SameEngine m d e) (k : Dev.SameEngine m e f) : Dev.SameEngine m d f :=
  ⟨k.queue.trans h.queue, k.seq.trans h.seq, k.lost.trans h.lost, k.drops.trans h.drops⟩

theorem modMe {m y : Nat} (d : Dev) (f : Me → Me) (h : m ≠ y) : Dev.SameEngine m d (d.modMe y f) := ⟨Dev.me_modMe_ne d f h, rfl, rfl, rfl⟩

theorem with_ru {m : Nat} (d : Dev) {x : RecUnit} (hs : Tab.get 0 x.meSeq m = Tab.get 0 d.ru.meSeq m)
    (hl : Tab.get (0, 0, 0) x.meLost m = Tab.get (0, 0, 0) d.ru.meLost m) : Dev.SameEngine m d { d with ru := x } := ⟨rfl, hs, hl, rfl⟩

theorem incSat {m : Nat} (d : Dev) {f : Fld} (hw : f.lo + f.w ≤ 32) (h : f.apart (MEDROP_MEDROP_CNT m)) : Dev.SameEngine m d (d.incSat f) :=
  ⟨rfl, rfl, rfl, Dev.get_put_ne d _ hw h⟩

end Dev.SameEngine

theorem meLostPlace_other {y m : Nat} (d : Dev) (h : m ≠ y) : Dev.SameEngine m d (d.meLostPlace y) := by
  unfold Dev.meLostPlace
  dsimp only
  split
  · exact .refl m d
  · exact (Dev.SameEngine.modMe d _ h).trans (.with_ru _ rfl (Tab.get_set_ne (0, 0, 0) d.ru.meLost (0, 0, 0) h))

theorem toEngine_other {y m : Nat} (d : Dev) (r : Rec) (h : m ≠ y) : Dev.SameEngine m d (d.toEngine r y) := by
  refine (meLostPlace_other d h).trans ?_
  rw [toEngine_eq]
  dsimp only
  generalize d.meLostPlace y = d
  have hnum : Dev.SameEngine m d (d.meNumbered y) := .with_ru d (Tab.get_set_ne _ _ _ h) rfl
  split
  · exact hnum.trans (.modMe _ _ h)
  · have hapart : (MEDROP_MEDROP_CNT y).apart (MEDROP_MEDROP_CNT m) := .inl (by simp only [MEDROP_MEDROP_CNT, MEDROP_MEDROP]; omega)
    have hlosing : Dev.SameEngine m (d.meNumbered y) ((d.meNumbered y).meLosing y (Tab.get 0 d.ru.meSeq y) r) :=
      .with_ru _ rfl (Tab.get_set_ne _ _ _ h)
    exact (hnum.trans hlosing).trans (.incSat _ (fit rfl) hapart)

/-- R381: the record `r` has been offered to engine `m`, at which none was lost. -/
structure Dev.Offered (d : Dev) (r : Rec) (m : Nat) (e : Dev) : Prop where
  seq : Tab.get 0 e.ru.meSeq m = (Tab.get 0 d.ru.meSeq m + 1) % 65536
  queued : (d.me m).recs.length < 64 → e.me m = { d.me m with recs := (d.me m).recs ++ [r.dwords (Tab.get 0 d.ru.meSeq m) 0] }
  lost : 64 ≤ (d.me m).recs.length → e.me m = d.me m ∧ Tab.get (0, 0, 0) e.ru.meLost m = (1, Tab.get 0 d.ru.meSeq m, r.at_.time) ∧
    e.get (MEDROP_MEDROP_CNT m) = min (d.get (MEDROP_MEDROP_CNT m) + 1) (2 ^ 32 - 1)

theorem meLostPlace_none {d : Dev} {m : Nat} (h : Tab.get (0, 0, 0) d.ru.meLost m = (0, 0, 0)) : d.meLostPlace m = d :=
  if_pos (.inl (by rw [h]))

theorem toEngine_queues {d : Dev} (r : Rec) {m : Nat} (h : Tab.get (0, 0, 0) d.ru.meLost m = (0, 0, 0)) (hroom : (d.me m).recs.length < 64) :
    d.toEngine r m = (d.meNumbered m).modMe m (fun x => { x with recs := x.recs ++ [r.dwords (Tab.get 0 d.ru.meSeq m) 0] }) := by
  rw [toEngine_eq, meLostPlace_none h]
  exact if_pos hroom

theorem toEngine_loses {d : Dev} (r : Rec) {m : Nat} (h : Tab.get (0, 0, 0) d.ru.meLost m = (0, 0, 0)) (hfull : 64 ≤ (d.me m).recs.length) :
    d.toEngine r m = ((d.meNumbered m).meLosing m (Tab.get 0 d.ru.meSeq m) r).incSat (MEDROP_MEDROP_CNT m) := by
  rw [toEngine_eq, meLostPlace_none h]
  exact if_neg (Nat.not_lt.2 hfull)

theorem meLosing_lost {d : Dev} {m seq : Nat} {r : Rec} (h : Tab.get (0, 0, 0) d.ru.meLost m = (0, 0, 0)) :
    Tab.get (0, 0, 0) (d.meLosing m seq r).ru.meLost m = (1, seq, r.at_.time) := by
  refine (Tab.get_set_same _ _ _ _).trans ?_
  rw [h]
  rfl

theorem toEngine_offered {d : Dev} (r : Rec) {m : Nat} (h : Tab.get (0, 0, 0) d.ru.meLost m = (0, 0, 0)) : d.Offered r m (d.toEngine r m) := by
  by_cases hroom : (d.me m).recs.length < 64
  · rw [toEngine_queues r h hroom]
    exact ⟨Tab.get_set_same _ _ _ _, fun _ => Dev.me_modMe_same _ _ _, fun c => absurd hroom (Nat.not_lt.2 c)⟩
  · rw [toEngine_loses r h (Nat.not_lt.1 hroom)]
    exact ⟨Tab.get_set_same _ _ _ _, fun c => absurd c hroom, fun _ => ⟨rfl, meLosing_lost (d := d.meNumbered m) h, get_incSat _ (fit rfl)⟩⟩

/-! ## Every named engine -/

/-- The engines that a mask names. -/
def namedEngines (mask : Nat) : List Nat := (List.range 8).filter (fun e => bitAt mask e)

theorem mem_namedEngines {mask m : Nat} : m ∈ namedEngines mask ↔ m < 8 ∧ mask.testBit m = true := by
  rw [namedEngines, List.mem_filter, List.mem_range, bitAt_eq_testBit]

theorem toEngine_foldl_other {m : Nat} (r : Rec) (l : List Nat) (d : Dev) (h : m ∉ l) :
    Dev.SameEngine m d (l.foldl (fun d y => d.toEngine r y) d) := by
  induction l generalizing d with
  | nil => exact .refl m d
  | cons y l ih =>
    obtain ⟨hy, hl⟩ := not_or.1 fun c => h (List.mem_cons.2 c)
    exact (toEngine_other d r hy).trans (ih _ hl)

theorem Dev.Offered.congr {d d' e e' : Dev} {r : Rec} {m : Nat} (hd : Dev.SameEngine m d d') (h : d'.Offered r m e) (he : Dev.SameEngine m e e') :
    d.Offered r m e' := by
  obtain ⟨hs, hq, hl⟩ := h
  rw [hd.queue, hd.seq] at hq
  rw [hd.queue, hd.seq, hd.drops] at hl
  exact ⟨by rw [he.seq, hs, hd.seq], fun c => he.queue.trans (hq c), fun c => ⟨he.queue.trans (hl c).1, he.lost.trans (hl c).2.1, he.drops.trans (hl c).2.2⟩⟩

/-- R381: under ALL every named engine is offered the record once. -/
theorem toEngine_foldl_offered {m : Nat} {d : Dev} (r : Rec) {l : List Nat} (hl : l.Nodup) (hm : m ∈ l)
    (hlost : Tab.get (0, 0, 0) d.ru.meLost m = (0, 0, 0)) : d.Offered r m (l.foldl (fun d y => d.toEngine r y) d) := by
  obtain ⟨a, b, rfl, ha⟩ := List.eq_append_cons_of_mem hm
  have hb : m ∉ b := (List.nodup_cons.1 (List.nodup_append.1 hl).2.1).1
  rw [List.foldl_append, List.foldl_cons]
  have hbefore := toEngine_foldl_other r a d ha
  exact .congr hbefore (toEngine_offered r (hbefore.lost.trans hlost)) (toEngine_foldl_other r b _ hb)

theorem namedEngines_ne_nil {mask : Nat} (h : mask ≠ 0) (hlt : mask < 256) : namedEngines mask ≠ [] := by
  intro hnil
  have hbits : ∀ i, mask.testBit i = false := fun i => by
    by_cases hi : i < 8
    · by_contra hc
      have := mem_namedEngines.2 ⟨hi, Bool.not_eq_false _ ▸ hc⟩
      rw [hnil] at this
      cases this
    · exact Nat.testBit_lt_two_pow (lt_of_lt_of_le hlt (show 2 ^ 8 ≤ 2 ^ i from Nat.pow_le_pow_right (by decide) (by omega)))
  exact h (Nat.eq_of_testBit_eq fun i => by rw [hbits, Nat.zero_testBit])

/-! ## The engine that ranks lowest (R379, R380) -/

/-- The engine that takes a record that goes to one engine. -/
def Dev.engineNext (d : Dev) (mask : Nat) : Option Nat := ((namedEngines mask).filter (fun e => d.eligible e)).foldl (pickLow d.engineRank) none

/-- R379: the record goes to the engine found, or is counted where there is none. -/
def Dev.toFound (d : Dev) (r : Rec) : Option Nat → Dev
  | some m => d.toEngine r m
  | none => d.incSat RECU_NOENG_CNT

theorem toEngines_eq (d : Dev) (mask : Nat) (all : Bool) (r : Rec) : d.toEngines mask all r =
    if (namedEngines mask).isEmpty then d else if all then (namedEngines mask).foldl (fun d y => d.toEngine r y) d
    else d.toFound r (d.engineNext mask) := by
  unfold Dev.toEngines
  refine ite_congr rfl (fun _ => rfl) fun _ => ite_congr rfl (fun _ => rfl) fun _ => ?_
  split <;> rename_i h
  · rw [show d.engineNext mask = some _ from foldl_pickLow_of (fun best _ => by cases best <;> rfl) h, Dev.toFound]
  · rw [show d.engineNext mask = none from foldl_pickLow_of (fun best _ => by cases best <;> rfl) h, Dev.toFound]

theorem toEngines_none {d : Dev} {mask : Nat} (all : Bool) (r : Rec) (h : mask = 0) : d.toEngines mask all r = d := by
  subst h
  rw [toEngines_eq]
  exact if_pos (by decide)

theorem toEngines_some {d : Dev} {mask : Nat} (all : Bool) (r : Rec) (h : mask ≠ 0) (hlt : mask < 256) : d.toEngines mask all r =
    if all then (namedEngines mask).foldl (fun d y => d.toEngine r y) d else d.toFound r (d.engineNext mask) := by
  rw [toEngines_eq]
  exact if_neg (by rw [List.isEmpty_iff]; exact namedEngines_ne_nil h hlt)

/-- R379, R380: engine `m` is named and may take a record. -/
def Dev.mayTake (d : Dev) (mask m : Nat) : Prop :=
  mask.testBit m = true ∧ d.get (ME_CTL_EN m) = 1 ∧
    ((d.meAt m (d.tick - 4)).1 = 1 ∨ (d.meAt m (d.tick - 4)).1 = 2 ∨ (d.meAt m (d.tick - 4)).1 = 3) ∧ (d.me m).recs.length < 64

theorem mem_eligible {d : Dev} {mask m : Nat} : m ∈ (namedEngines mask).filter (fun e => d.eligible e) ↔ m < 8 ∧ d.mayTake mask m := by
  rw [List.mem_filter, mem_namedEngines, Dev.eligible, Dev.mayTake, ← flag_iff_one (f := ME_CTL_EN m) rfl]
  simp only [Bool.and_eq_true, Bool.or_eq_true, beq_iff_eq, decide_eq_true_eq, and_assoc, or_assoc]

theorem engineNext_none {d : Dev} {mask : Nat} (h : ∀ m, m < 8 → ¬ d.mayTake mask m) : d.engineNext mask = none := by
  rw [Dev.engineNext, List.eq_nil_iff_forall_not_mem.2 fun m hm => h m (mem_eligible.1 hm).1 (mem_eligible.1 hm).2]
  rfl

/-- R379: engine `a` ranks below engine `b`. -/
def Dev.ranksBelow (d : Dev) (a b : Nat) : Prop :=
  let was (m : Nat) : Nat × Nat := d.meAt m (d.tick - 4)
  ((was a).1 = 2 ∧ (was b).1 ≠ 2) ∨ ((was a).1 = 2 ∧ (was b).1 = 2 ∧ a < b) ∨
    ((was a).1 ≠ 2 ∧ (was b).1 ≠ 2 ∧ ((was a).2 < (was b).2 ∨ ((was a).2 = (was b).2 ∧ a < b)))

theorem engineRank_lt {d : Dev} {a b : Nat} (ha : a < 8) (h : d.ranksBelow a b) : d.engineRank a < d.engineRank b := by
  simp only [Dev.ranksBelow] at h
  unfold Dev.engineRank
  dsimp only
  rcases h with ⟨h1, h2⟩ | ⟨h1, h2, h3⟩ | ⟨h1, h2, h3⟩
  · rw [if_pos h1, if_neg h2]
    omega
  · rw [if_pos h1, if_pos h2]
    omega
  · rw [if_neg h1, if_neg h2]
    omega

theorem engineNext_some {d : Dev} {mask m : Nat} (hm : m < 8) (hmay : d.mayTake mask m)
    (hbelow : ∀ y, y < 8 → d.mayTake mask y → y ≠ m → d.ranksBelow m y) : d.engineNext mask = some m := by
  obtain ⟨a, b, hl, ha⟩ := List.eq_append_cons_of_mem (mem_eligible.2 ⟨hm, hmay⟩)
  have hlt : ∀ y ∈ a ++ m :: b, y ≠ m → d.engineRank m < d.engineRank y := fun y hy hne => by
    rw [← hl] at hy
    obtain ⟨h8, hmy⟩ := mem_eligible.1 hy
    exact engineRank_lt hm (hbelow y h8 hmy hne)
  rw [Dev.engineNext, hl]
  refine foldl_pickLow_eq a b (fun y hy => hlt y (List.mem_append_left _ hy) fun c => ha (c ▸ hy)) fun y hy => ?_
  by_cases hne : y = m
  · rw [hne]
  · exact (hlt y (List.mem_append_right _ (List.mem_cons_of_mem _ hy)) hne).le

/-! ## Every route to the engines -/

/-- The fields that a record changes on its way to the engines. -/
def engineFields : List Fld := RECU_NOENG_CNT :: (List.range 8).map (fun m => MEDROP_MEDROP_CNT m)

theorem toEngine_named_frame {d : Dev} {r : Rec} {m : Nat} (h : m < 8) : Dev.Frame [.mes, .ru] engineFields d (d.toEngine r m) :=
  (toEngine_frame d r m).mono (fun _ h => h) fun f hf => by
    rw [List.mem_singleton] at hf
    rw [hf]
    exact List.mem_cons_of_mem _ (List.mem_map_of_mem (List.mem_range.2 h))

theorem engineNext_mem {d : Dev} {mask m : Nat} (h : d.engineNext mask = some m) : m < 8 ∧ d.mayTake mask m := mem_eligible.1 (foldl_pickLow_mem _ h)

theorem toFound_frame (d : Dev) (mask : Nat) (r : Rec) : Dev.Frame [.mes, .ru] engineFields d (d.toFound r (d.engineNext mask)) := by
  cases h : d.engineNext mask with
  | some m => exact toEngine_named_frame (engineNext_mem h).1
  | none => exact Dev.incSat_frame _ _ _ (fit rfl) (by simp [engineFields])

theorem toEngines_frame (d : Dev) (mask : Nat) (all : Bool) (r : Rec) : Dev.Frame [.mes, .ru] engineFields d (d.toEngines mask all r) := by
  rw [toEngines_eq]
  exact Dev.Frame.ite (fun _ => Dev.Frame.refl _ _ _) (fun _ => Dev.Frame.ite
    (fun _ => Dev.foldl_frame _ _ _ _ (fun m hm e => toEngine_named_frame (mem_namedEngines.1 hm).1) _) (fun _ => toFound_frame d mask r))

end Sys2Proof.Machine
end

section
/-! PROOF. The moderation timer, pending messages, and the route registers (R377, R384 to R386, R390). -/

namespace Sys2Proof.Machine

theorem Dev.modFn_frame {ps : List Part} (fs : List Fld) (d : Dev) (f : Nat) (g : Func → Func) (hp : Part.host ∈ ps) :
    Dev.Frame ps fs d (d.modFn f g) := Dev.host_frame _ _ _ hp

theorem bitAt_zero_iff (n : Nat) : bitAt n 0 = true ↔ n % 2 = 1 := by simp [bitAt]

theorem fn_of_host {d e : Dev} (h : e.host = d.host) (m : Nat) : e.fn m = d.fn m := by rw [Dev.fn, Dev.fn, h]

/-! ## Messages (R385) -/

/-- R385: nothing masks a message of vector `vec` of function `f`. -/
def Dev.unmasked (d : Dev) (f vec : Nat) : Prop :=
  (d.fn f).msixEn = true ∧ (d.fn f).fmask = false ∧ (d.fn f).bme = true ∧ (Tab.get (1 : Word) (d.fn f).table (4 * vec + 3)).toNat % 2 = 0

theorem msixOk_iff (d : Dev) (f vec : Nat) : d.msixOk f vec = true ↔ d.unmasked f vec := by
  have hbit : ∀ n, bitAt n 0 = false ↔ n % 2 = 0 := fun n => by
    rw [← Bool.not_eq_true, bitAt_zero_iff]
    omega
  simp only [Dev.msixOk, Dev.unmasked, Bool.and_eq_true, Bool.not_eq_true', hbit, and_assoc]

/-! ## The moderation timer (R384, R386) -/

/-- R384: the timer of ring `k` has run out. -/
def Dev.timerOver (d : Dev) (k : Nat) : Prop := d.get (RR_IRQ_TIMING k) = 1 ∧ Tab.get 0 d.ru.modEnd k ≤ d.tick

/-- The state once the timer of ring `k` has stopped. -/
def Dev.timerOff (d : Dev) (k : Nat) : Dev :=
  ({ d with ru := { d.ru with modEnd := Tab.set 0 d.ru.modEnd k 0 } } : Dev).put (RR_IRQ_TIMING k) 0

theorem timerOff_frame (d : Dev) (k : Nat) : Dev.Frame [.ru] [RR_IRQ_TIMING k] d (d.timerOff k) :=
  (Dev.ru_frame _ _ _ (by simp)).trans (Dev.put_frame _ _ _ _ (fit rfl) (by simp))

theorem timerOff_ended (d : Dev) (k : Nat) : (d.timerOff k).get (RR_IRQ_TIMING k) = 0 ∧ Tab.get 0 (d.timerOff k).ru.modEnd k = 0 := by
  refine ⟨?_, ?_⟩ <;> rw [Dev.timerOff]
  · rw [Dev.get_put_same _ _ _ (fit rfl)]
    rfl
  · rw [Dev.put_ru]
    exact Tab.get_set_same 0 d.ru.modEnd k 0

theorem timerOff_sent (d : Dev) (k : Nat) : (d.timerOff k).ru.sent = d.ru.sent := by rw [Dev.timerOff, Dev.put_ru]

theorem timerOff_get {d : Dev} {k : Nat} {g : Fld} (hg : (RR_IRQ_TIMING k).apart g) : (d.timerOff k).get g = d.get g :=
  (timerOff_frame d k).get g (by simpa using hg)

theorem timerOff_host (d : Dev) (k : Nat) : (d.timerOff k).host = d.host := (timerOff_frame d k).part .host (by simp)
theorem timerOff_out (d : Dev) (k : Nat) : (d.timerOff k).out = d.out := (timerOff_frame d k).part .out (by simp)

theorem timerOff_owner {d : Dev} {k : Nat} (hk : k < 32) : (d.timerOff k).rrOwner k = d.rrOwner k := by
  rw [Dev.rrOwner, Dev.rrOwner, Dev.fw, Dev.fw, Dev.timerOff, Dev.word_put_ne _ _ (by simp only [FUSE_W, RR_IRQ_TIMING, RR_IRQ]; omega)]
  rfl

/-- R384: no message is due when the timer of ring `k` runs out. -/
def Dev.irqQuiet (d : Dev) (k : Nat) : Prop := d.get (RR_IRQ_EN k) = 0 ∨ d.rrUsed k + d.heldFor k = 0

theorem timerOff_quiet {d : Dev} {k : Nat} (hk : k < 32) : (d.timerOff k).irqQuiet k ↔ d.irqQuiet k := by
  have hen : (d.timerOff k).get (RR_IRQ_EN k) = d.get (RR_IRQ_EN k) := timerOff_get (.inr (.inl (by decide : (28 : Nat) + 1 ≤ 31)))
  have hused : (d.timerOff k).rrUsed k = d.rrUsed k := by
    rw [Dev.rrUsed, Dev.rrUsed, Dev.rrSize, Dev.rrSize, timerOff_get (.inl (by simp only [RR_IRQ_TIMING, RR_IRQ, RR_CFG_LOG2SZ, RR_CFG]; omega)),
      timerOff_get (.inl (by simp only [RR_IRQ_TIMING, RR_IRQ, RR_HEAD_HEAD, RR_HEAD]; omega)),
      timerOff_get (.inl (by simp only [RR_IRQ_TIMING, RR_IRQ, RR_TAIL_TAIL, RR_TAIL]; omega))]
  have hheld : (d.timerOff k).heldFor k = d.heldFor k := by
    rw [Dev.heldFor, Dev.heldFor, timerOff_owner hk, Dev.timerOff, Dev.put_ru]
  rw [Dev.irqQuiet, Dev.irqQuiet, hen, hused, hheld]

theorem irqExpire_idle {d : Dev} {k : Nat} (h : ¬ d.timerOver k) : d.irqExpire k = d :=
  if_pos (by rwa [flag_iff_one rfl])

theorem irqExpire_over {d : Dev} {k : Nat} (h : d.timerOver k) : d.irqExpire k =
    if ¬ (d.timerOff k).flag (RR_IRQ_EN k) ∨ (d.timerOff k).rrUsed k + (d.timerOff k).heldFor k = 0 then d.timerOff k
    else if ((d.timerOff k).fn (d.rrOwner k)).d3 then
      let e := ((d.timerOff k).raise (RR_IRQ_DUE k)).modFn (d.rrOwner k) (fun x => { x with pmeStatus := true })
      if (e.fn (d.rrOwner k)).pmeEn then e.emit (.pme (d.rrOwner k)) else e
    else (d.timerOff k).ringMessage k :=
  if_neg (by rwa [flag_iff_one rfl, not_not])

/-- The state with further messages sent. -/
def Dev.emits (d : Dev) (l : List Output) : Dev := { d with out := d.out ++ l }

theorem emits_nil (d : Dev) : d.emits [] = d := by rw [Dev.emits, List.append_nil]
theorem emits_get (d : Dev) (l : List Output) (g : Fld) : (d.emits l).get g = d.get g := rfl
theorem emits_ru (d : Dev) (l : List Output) : (d.emits l).ru = d.ru := rfl
theorem emits_fn (d : Dev) (l : List Output) (m : Nat) : (d.emits l).fn m = d.fn m := rfl
theorem emits_frame {ps : List Part} (fs : List Fld) (d : Dev) (l : List Output) (hp : Part.out ∈ ps) : Dev.Frame ps fs d (d.emits l) :=
  fun _ => ⟨fun p hn => by cases p <;> first | rfl | exact absurd hp hn, fun _ _ => rfl⟩

/-- R386: the state once function `f` is to wake for ring `k`. -/
def Dev.waking (d : Dev) (k f : Nat) : Dev := (d.raise (RR_IRQ_DUE k)).modFn f (fun x => { x with pmeStatus := true })

theorem waking_get {d : Dev} {k f : Nat} {g : Fld} (h : (RR_IRQ_DUE k).apart g) : (d.waking k f).get g = d.get g := by
  rw [Dev.waking, Dev.modFn_get, Dev.raise_eq, Dev.get_put_ne _ _ (fit rfl) h]

theorem waking_due (d : Dev) (k f : Nat) : (d.waking k f).get (RR_IRQ_DUE k) = 1 := by
  rw [Dev.waking, Dev.modFn_get, Dev.raise_eq, Dev.get_put_same _ _ _ (fit rfl)]
  rfl

theorem waking_ru (d : Dev) (k f : Nat) : (d.waking k f).ru = d.ru := by rw [Dev.waking, Dev.modFn_ru, Dev.raise_eq, Dev.put_ru]
theorem waking_out (d : Dev) (k f : Nat) : (d.waking k f).out = d.out := by rw [Dev.waking, Dev.modFn_out, Dev.raise_eq, Dev.put_out]

theorem waking_fn_same (d : Dev) (k f : Nat) : (d.waking k f).fn f = { d.fn f with pmeStatus := true } := by
  rw [Dev.waking, Dev.fn_modFn_same, Dev.raise_eq, Dev.fn_put]

theorem waking_fn_ne (d : Dev) (k : Nat) {f m : Nat} (h : m ≠ f) : (d.waking k f).fn m = d.fn m := by
  rw [Dev.waking, Dev.fn_modFn_ne _ _ h, Dev.raise_eq, Dev.fn_put]

theorem waking_frame (d : Dev) (k f : Nat) : Dev.Frame [.host] [RR_IRQ_DUE k] d (d.waking k f) :=
  (Dev.raise_frame _ _ _ (fit rfl) (by simp)).trans (Dev.modFn_frame _ _ _ _ (by simp))

theorem irqQuiet_iff (d : Dev) (k : Nat) : (¬ d.flag (RR_IRQ_EN k) = true ∨ d.rrUsed k + d.heldFor k = 0) ↔ d.irqQuiet k := by
  rw [Dev.irqQuiet, Dev.flag_iff, not_not]

section
variable {d : Dev} {k : Nat} (hk : k < 32) (h : d.timerOver k)
include hk h

theorem irqExpire_quiet (hq : d.irqQuiet k) : d.irqExpire k = d.timerOff k := by
  rw [irqExpire_over h]
  exact if_pos ((irqQuiet_iff _ _).2 ((timerOff_quiet hk).2 hq))

/-- R386: in D3hot the timer wakes the function. -/
theorem irqExpire_wakes (hq : ¬ d.irqQuiet k) (hd3 : (d.fn (d.rrOwner k)).d3 = true) :
    d.irqExpire k = ((d.timerOff k).waking k (d.rrOwner k)).emits (if (d.fn (d.rrOwner k)).pmeEn then [.pme (d.rrOwner k)] else []) := by
  have hfn : (d.timerOff k).fn (d.rrOwner k) = d.fn (d.rrOwner k) := fn_of_host (timerOff_host d k) _
  rw [irqExpire_over h, if_neg (fun c => hq ((timerOff_quiet hk).1 ((irqQuiet_iff _ _).1 c))), hfn, if_pos hd3]
  dsimp only
  rw [Dev.fn_modFn_same, Dev.raise_eq, Dev.fn_put, hfn]
  by_cases hp : (d.fn (d.rrOwner k)).pmeEn = true
  · rw [if_pos hp, if_pos hp]
    rfl
  · rw [if_neg hp, if_neg hp, emits_nil, Dev.waking, Dev.raise_eq]

theorem irqExpire_messages (hq : ¬ d.irqQuiet k) (hd3 : (d.fn (d.rrOwner k)).d3 = false) : d.irqExpire k = (d.timerOff k).ringMessage k := by
  have hfn : ((d.timerOff k).fn (d.rrOwner k)).d3 = false := by rw [Dev.fn, timerOff_host]; exact hd3
  rw [irqExpire_over h, if_neg (fun c => hq ((timerOff_quiet hk).1 ((irqQuiet_iff _ _).1 c))), if_neg (by rw [hfn]; simp)]

end

/-- The state once the message of ring `k` has been made. -/
def Dev.messageMade (d : Dev) (k : Nat) : Dev := { d with ru := { d.ru with sent := Tab.set 0 d.ru.sent k 1 } }

/-- The pending vectors of a function with `vec` among them. -/
def pend (vec : Nat) (x : Func) : Func := { x with pba := if x.pba.contains vec then x.pba else x.pba ++ [vec] }

theorem mem_pend (vec : Nat) (x : Func) : vec ∈ (pend vec x).pba := by
  unfold pend
  dsimp only
  split
  · rename_i h
    exact List.contains_iff_mem.1 h
  · exact List.mem_append_right _ (List.mem_singleton.2 rfl)

theorem ringMessage_eq (d : Dev) (k : Nat) : d.ringMessage k =
    if d.msixOk (d.rrOwner k) (d.get (RR_IRQ_VEC k)) then ((d.messageMade k).put (RR_IRQ_DUE k) 0).emit (.msix (d.rrOwner k) (d.get (RR_IRQ_VEC k)))
    else ((d.messageMade k).raise (RR_IRQ_DUE k)).modFn (d.rrOwner k) (pend (d.get (RR_IRQ_VEC k))) := rfl

theorem ringMessage_sends {d : Dev} {k : Nat} (h : d.unmasked (d.rrOwner k) (d.get (RR_IRQ_VEC k))) :
    d.ringMessage k = ((d.messageMade k).put (RR_IRQ_DUE k) 0).emit (.msix (d.rrOwner k) (d.get (RR_IRQ_VEC k))) := by
  rw [ringMessage_eq]
  exact if_pos ((msixOk_iff _ _ _).2 h)

theorem ringMessage_waits {d : Dev} {k : Nat} (h : ¬ d.unmasked (d.rrOwner k) (d.get (RR_IRQ_VEC k))) :
    d.ringMessage k = ((d.messageMade k).raise (RR_IRQ_DUE k)).modFn (d.rrOwner k) (pend (d.get (RR_IRQ_VEC k))) := by
  rw [ringMessage_eq]
  exact if_neg fun c => h ((msixOk_iff _ _ _).1 c)

theorem ringMessage_frame (d : Dev) (k : Nat) : Dev.Frame [.ru, .host, .out] [RR_IRQ_DUE k] d (d.ringMessage k) := by
  rw [ringMessage_eq]
  have hmade : Dev.Frame [.ru, .host, .out] [RR_IRQ_DUE k] d (d.messageMade k) := Dev.ru_frame _ _ _ (by simp)
  exact Dev.Frame.ite (fun _ => (hmade.trans (Dev.put_frame _ _ _ _ (fit rfl) (by simp))).trans (Dev.emit_frame _ _ _ (by simp)))
    (fun _ => (hmade.trans (Dev.raise_frame _ _ _ (fit rfl) (by simp))).trans (Dev.modFn_frame _ _ _ _ (by simp)))

theorem RR_IRQ_DUE_apart_TIMING (k : Nat) : (RR_IRQ_DUE k).apart (RR_IRQ_TIMING k) := .inr (.inr (by decide : (28 : Nat) + 1 ≤ 30))

theorem ringMessage_timing (d : Dev) (k : Nat) : (d.ringMessage k).get (RR_IRQ_TIMING k) = d.get (RR_IRQ_TIMING k) :=
  (ringMessage_frame d k).get _ (by simpa using RR_IRQ_DUE_apart_TIMING k)

theorem ringMessage_ru (d : Dev) (k : Nat) : (d.ringMessage k).ru = { d.ru with sent := Tab.set 0 d.ru.sent k 1 } := by
  rw [ringMessage_eq]
  split <;> rfl

theorem ringMessage_modEnd (d : Dev) (k : Nat) : (d.ringMessage k).ru.modEnd = d.ru.modEnd := by rw [ringMessage_ru]
theorem ringMessage_sent (d : Dev) (k : Nat) : Tab.get 0 (d.ringMessage k).ru.sent k = 1 := by
  rw [ringMessage_ru]
  exact Tab.get_set_same 0 d.ru.sent k 1

theorem messageMade_fn (d : Dev) (k m : Nat) : (d.messageMade k).fn m = d.fn m := rfl
theorem messageMade_out (d : Dev) (k : Nat) : (d.messageMade k).out = d.out := rfl
theorem messageMade_host (d : Dev) (k : Nat) : (d.messageMade k).host = d.host := rfl
theorem out_emit (d : Dev) (x : Output) : (d.emit x).out = d.out ++ [x] := rfl

/-- R385: a message that nothing masks goes out, and one that is masked is pending. -/
theorem ringMessage_cases (d : Dev) (k : Nat) :
    (d.unmasked (d.rrOwner k) (d.get (RR_IRQ_VEC k)) → (d.ringMessage k).out = d.out ++ [.msix (d.rrOwner k) (d.get (RR_IRQ_VEC k))] ∧
      (d.ringMessage k).get (RR_IRQ_DUE k) = 0 ∧ (d.ringMessage k).host = d.host) ∧
    (¬ d.unmasked (d.rrOwner k) (d.get (RR_IRQ_VEC k)) → (d.ringMessage k).out = d.out ∧ (d.ringMessage k).get (RR_IRQ_DUE k) = 1 ∧
      d.get (RR_IRQ_VEC k) ∈ ((d.ringMessage k).fn (d.rrOwner k)).pba ∧ ∀ m, m ≠ d.rrOwner k → (d.ringMessage k).fn m = d.fn m) := by
  constructor <;> intro ho
  · rw [ringMessage_sends ho]
    refine ⟨by rw [out_emit, Dev.put_out, messageMade_out], ?_, by rw [Dev.emit_host, Dev.put_host, messageMade_host]⟩
    rw [Dev.emit_get, Dev.get_put_same _ _ _ (fit rfl)]
    rfl
  · rw [ringMessage_waits ho]
    refine ⟨by rw [Dev.modFn_out, Dev.raise_eq, Dev.put_out, messageMade_out], ?_, ?_, fun m hm => ?_⟩
    · rw [Dev.modFn_get, Dev.raise_eq, Dev.get_put_same _ _ _ (fit rfl)]
      rfl
    · rw [Dev.fn_modFn_same]
      exact mem_pend _ _
    · rw [Dev.fn_modFn_ne _ _ hm, Dev.raise_eq, Dev.fn_put, messageMade_fn]

/-! ## A pending message (R385) -/

/-- DUE of ring `k` cleared where the ring has the vector `vec` of function `f`. -/
def clearDue (f vec k : Nat) (d : Dev) : Dev := if d.rrOwner k = f ∧ d.get (RR_IRQ_VEC k) = vec then d.put (RR_IRQ_DUE k) 0 else d

theorem clearDue_frame (f vec k : Nat) (d : Dev) : Dev.Frame [] [RR_IRQ_DUE k] d (clearDue f vec k d) :=
  Dev.Frame.ite (fun _ => Dev.put_frame _ _ _ _ (fit rfl) (by simp)) (fun _ => Dev.Frame.refl _ _ _)

theorem RR_IRQ_DUE_apart_ne {i j : Nat} (h : i ≠ j) : (RR_IRQ_DUE i).apart (RR_IRQ_DUE j) := .inl (by simp only [RR_IRQ_DUE, RR_IRQ]; omega)

theorem RR_IRQ_DUE_apart_VEC (i j : Nat) : (RR_IRQ_DUE i).apart (RR_IRQ_VEC j) := by
  by_cases h : i = j
  · subst h
    exact .inr (.inr (by decide : (0 : Nat) + 6 ≤ 30))
  · exact .inl (by simp only [RR_IRQ_DUE, RR_IRQ_VEC, RR_IRQ]; omega)

theorem get_singleton {d e : Dev} {f g : Fld} (h : Dev.Frame [] [f] d e) (hg : f.apart g) : e.get g = d.get g := h.get g (by simpa using hg)

theorem clearDue_owner {f vec k j : Nat} (d : Dev) (hk : k < 32) : (clearDue f vec k d).rrOwner j = d.rrOwner j := by
  unfold clearDue
  split
  · rw [Dev.rrOwner, Dev.rrOwner, Dev.fw, Dev.fw, Dev.word_put_ne _ _ (by simp only [FUSE_W, RR_IRQ_DUE, RR_IRQ]; omega)]
  · rfl

theorem clearDue_due (f vec k : Nat) (d : Dev) :
    (clearDue f vec k d).get (RR_IRQ_DUE k) = if d.rrOwner k = f ∧ d.get (RR_IRQ_VEC k) = vec then 0 else d.get (RR_IRQ_DUE k) := by
  unfold clearDue
  split
  · rw [Dev.get_put_same _ _ _ (fit rfl)]
    rfl
  · rfl

/-- What the sweep over the rings leaves in DUE of ring `j`. -/
theorem forRange_clearDue (f vec j : Nat) (n i : Nat) (hn : i + n ≤ 32) (d : Dev) : (forRange (clearDue f vec) i n d).get (RR_IRQ_DUE j) =
    if (i ≤ j ∧ j < i + n) ∧ d.rrOwner j = f ∧ d.get (RR_IRQ_VEC j) = vec then 0 else d.get (RR_IRQ_DUE j) := by
  induction n generalizing i d with
  | zero => exact (if_neg (by omega)).symm
  | succ n ih =>
    have howner : (clearDue f vec i d).rrOwner j = d.rrOwner j := clearDue_owner d (by omega)
    have hvec : (clearDue f vec i d).get (RR_IRQ_VEC j) = d.get (RR_IRQ_VEC j) := get_singleton (clearDue_frame f vec i d) (RR_IRQ_DUE_apart_VEC i j)
    rw [forRange, ih (i + 1) (by omega), howner, hvec]
    by_cases hj : j = i
    · subst hj
      rw [clearDue_due]
      by_cases hc : d.rrOwner j = f ∧ d.get (RR_IRQ_VEC j) = vec
      · rw [if_pos hc, ite_self, if_pos ⟨⟨Nat.le_refl _, by omega⟩, hc⟩]
      · rw [if_neg hc, if_neg (fun c => hc c.2), if_neg (fun c => hc c.2)]
    · rw [get_singleton (clearDue_frame f vec i d) (RR_IRQ_DUE_apart_ne (Ne.symm hj))]
      have hrange : (i + 1 ≤ j ∧ j < i + 1 + n) ↔ (i ≤ j ∧ j < i + (n + 1)) := by omega
      exact if_congr (and_congr hrange Iff.rfl) rfl rfl

/-- The state once the pending message has gone out. -/
def Dev.messageSent (d : Dev) (f vec : Nat) : Dev := (d.modFn f (fun x => { x with pba := x.pba.filter (fun v => v != vec) })).emit (.msix f vec)

theorem msixPending_idle {d : Dev} {f vec : Nat} (h : vec ∉ (d.fn f).pba ∨ ¬ d.unmasked f vec) : d.msixPending f vec = d := by
  refine if_neg fun c => ?_
  rw [msixOk_iff, List.contains_iff_mem] at c
  tauto

theorem msixPending_sends {d : Dev} {f vec : Nat} (h : vec ∈ (d.fn f).pba) (ho : d.unmasked f vec) :
    d.msixPending f vec = forRange (clearDue f vec) 0 32 (d.messageSent f vec) :=
  if_pos ⟨List.contains_iff_mem.2 h, (msixOk_iff _ _ _).2 ho⟩

theorem forRange_clearDue_frame (f vec : Nat) (d : Dev) : Dev.Frame [] ((List.range 32).map (fun k => RR_IRQ_DUE k)) d (forRange (clearDue f vec) 0 32 d) :=
  forRange_frame _ _ _ 32 0 (fun k _ hk e => (clearDue_frame f vec k e).mono (fun _ h => h) fun g hg => by
    rw [List.mem_singleton] at hg
    exact hg ▸ List.mem_map_of_mem (List.mem_range.2 (by omega))) d

/-! ## The route registers (R377, R390) -/

theorem locate_ROUTE (o : Fin 5) (n : Fin 32) : locate (ROUTE_ROUTE o n) = some ⟨.route, o, n, 0, ⟨0x0, 0x0, 0xDF0000FF, 0x0, 0x0, 0x0, []⟩⟩ := by
  revert o n; decide +kernel

/-- A write of a ROUTE register that it takes. -/
theorem regWrite_ROUTE {d : Dev} {w : Writer} (o : Fin 5) (n : Fin 32) (v : Word) (hw : w ≠ .commit) (h : d.takes w (ROUTE_ROUTE o n) = true)
    (hv : v &&& 0xDF0000FF = v) : d.regWrite w (ROUTE_ROUTE o n) v = d.routeWrite w.func o n v.toNat := by
  have ho := o.isLt
  have hn := n.isLt
  refine (Dev.regWrite_spine v h (locate_ROUTE o n) (by unfold ROUTE_ROUTE; omega) (by show Gid.route ≠ _; decide) rfl rfl
    (rsvBits_zero (m := 0xDF0000FF) (show w32 (0xDF0000FF ||| 0x0 ||| 0x0 ||| 0x0) = (0xDF0000FF : Word) from by decide) hv) (by simp [Dev.isLate, lateReg, hw])).trans ?_
  show d.spineWrite w.func ⟨.route, o, n, 0, ⟨0x0, 0x0, 0xDF0000FF, 0x0, 0x0, 0x0, []⟩⟩ _ (v &&& w32 (0xDF0000FF ||| 0x0 ||| 0x0)) = _
  rw [show w32 (0xDF0000FF ||| 0x0 ||| 0x0) = (0xDF0000FF : Word) by decide, hv]
  simp only [Dev.spineWrite]

/-- R377: the ring that a route word names. -/
theorem bits_ring (w : Nat) : bits w 24 5 = w / 2 ^ 24 % 32 := by
  rw [bits, Nat.shiftRight_eq_div_pow]
  rfl

/-- R390: function `f` may not write `v` to a ROUTE register. -/
def Dev.routeBad (d : Dev) (f v : Nat) : Prop :=
  (v.testBit 31 = true ∧ d.rrOwner (v / 2 ^ 24 % 32) ≠ f) ∨ (d.manager ≠ f ∧ ∃ e, e < 8 ∧ v.testBit e = true ∧ d.qOwner (e / 2) ≠ f)

theorem routeBad_iff (d : Dev) (f v : Nat) : ((bitAt v 31 && d.rrOwner (bits v 24 5) != f) ||
    (f != d.manager && (List.range 8).any (fun e => bitAt v e && d.qOwner (e / 2) != f))) = true ↔ d.routeBad f v := by
  rw [Dev.routeBad, bits_ring]
  simp only [Bool.or_eq_true, Bool.and_eq_true, bne_iff_ne, List.any_eq_true, List.mem_range, bitAt_eq_testBit, ne_comm (a := f)]

/-- The state once the route word of origin `o` and type `n` is `v`: the old word governs until the unit has the new one. -/
def Dev.routed (d : Dev) (o n : Nat) (v : Word) : Dev :=
  ({ d with ru := { d.ru with routeOld := Tab.set (0, 0) d.ru.routeOld (32 * o + n) (d.routeWord o n, d.tick + 1) } } : Dev).setWord (ROUTE_ROUTE o n) v

theorem routeWrite_bad {d : Dev} {f o n : Nat} {v : Word} (h : d.routeBad f v.toNat) : d.routeWrite (some f) o n v.toNat = d.incSat HIF_OWNVIOL_CNT :=
  if_pos ((routeBad_iff d f v.toNat).2 h)

theorem routeWrite_good {d : Dev} {f o n : Nat} {v : Word} (h : ¬ d.routeBad f v.toNat) : d.routeWrite (some f) o n v.toNat = d.routed o n v := by
  refine (if_neg fun c => h ((routeBad_iff d f v.toNat).1 c)).trans ?_
  rw [BitVec.ofNat_toNat, BitVec.setWidth_eq]
  rfl

theorem routed_frame (d : Dev) (o n : Nat) (v : Word) : Dev.Frame [.ru] [whole (ROUTE_ROUTE o n)] d (d.routed o n v) :=
  (Dev.ru_frame _ _ _ (by simp)).trans (Dev.setWord_frame _ _ _ _ (by simp))

theorem routed_word (d : Dev) (o n : Nat) (v : Word) : (d.routed o n v).word (ROUTE_ROUTE o n) = v := Dev.word_setWord_same _ _ _

/-- R390: a route word on tick `later`, from the word held and its age. -/
theorem routeWord_eq {d : Dev} {o n a : Nat} {later : Nat} {t : Nat} (h : Tab.get (0, 0) d.ru.routeOld (32 * o + n) = (a, t + 1)) :
    ({ d with tick := later } : Dev).routeWord o n = if later < t + 4 then a else (d.word (ROUTE_ROUTE o n)).toNat := by
  unfold Dev.routeWord
  dsimp only
  rw [h]
  by_cases hl : later < t + 4
  · rw [if_pos hl, if_pos ⟨by omega, by omega⟩]
  · rw [if_neg hl, if_neg (fun c => hl (by omega))]
    rfl

theorem routed_old (d : Dev) (o n : Nat) (v : Word) :
    Tab.get (0, 0) (d.routed o n v).ru.routeOld (32 * o + n) = (d.routeWord o n, d.tick + 1) := Tab.get_set_same _ _ _ _

theorem routed_governs (d : Dev) (o n : Nat) (v : Word) : (d.routed o n v).routeWord o n = d.routeWord o n ∧
    ∀ later, d.tick + 4 ≤ later → ({ d.routed o n v with tick := later } : Dev).routeWord o n = v.toNat := by
  refine ⟨(routeWord_eq (later := d.tick) (routed_old d o n v)).trans (if_pos (by omega)), fun later hl => ?_⟩
  rw [routeWord_eq (routed_old d o n v), if_neg (by omega), routed_word]

end Sys2Proof.Machine
end

section
/-! PROOF. Event records on their way, assembled from what each turn of the record unit does (O45). -/

namespace Sys2Proof.Machine

/-- The state once `r` has gone where its route word's ring says. -/
def Dev.ringRouted (d : Dev) (r : Rec) : Dev :=
  if (d.routeWord r.orig r.typ).testBit 31 then d.toRing (d.routeWord r.orig r.typ / 2 ^ 24 % 32) r else d

/-- R377: a record goes to its ring, then to its engines. -/
theorem accept_eq (d : Dev) (r : Rec) : d.accept r =
    (d.ringRouted r).toEngines (d.routeWord r.orig r.typ % 256) ((d.routeWord r.orig r.typ).testBit 30) r := by
  have hm : bits (d.routeWord r.orig r.typ) 0 8 = d.routeWord r.orig r.typ % 256 := rfl
  unfold Dev.accept Dev.ringRouted
  dsimp only
  rw [bits_ring, hm, bitAt_eq_testBit, bitAt_eq_testBit]

/-- Settles O45: the collector and the record unit by the turn each takes, the ring and the engines of a route by what a record does to them, the
timer and the pending message by the sweep over the rings. -/
theorem recordsTravelAndInterrupt : Obligations.RecordsTravelAndInterrupt := by
  unfold Obligations.RecordsTravelAndInterrupt
  refine ⟨fun s q => ?_, fun s => ?_, fun s => ?_, fun s k => ?_, fun s f vec => ?_, fun s f o n v htakes hv => ?_⟩
  · refine ⟨fun h => ?_, fun l p r hrun hdown hcol hpend hdue hl hr => ?_⟩
    · refine onDev_idle (f := fun d => d.recordCollect q) ?_
      by_cases hidle : s.dev.collectIdle q
      · exact recordCollect_idle hidle
      · refine recordCollect_none (collectNext_none ?_)
        rcases h with h | h | h | h
        · exact absurd (.inl (by rw [h]; simp)) hidle
        · exact absurd (.inr (.inl h)) hidle
        · exact absurd (.inr (.inr h)) hidle
        · exact h
    · have hidle : ¬ s.dev.collectIdle q := by
        rintro (c | c | c)
        · exact c hrun
        · rw [hdown] at c; cases c
        · exact hcol c
      obtain ⟨hroom, hfull⟩ := recordCollect_takes hidle (collectNext_some hpend hdue hl hr)
      have hgone : removeFirst p (s.dev.quad q).pend = l ++ r := by
        rw [hpend]
        exact removeFirst_split r fun hp => absurd (hl p hp hdue) (Nat.lt_irrefl _)
      have hquad (es : List QueuedRec) : (s.dev.collected q p es).quad q =
          { s.dev.quad q with pend := l ++ r, lastSource := p.source, collected := s.dev.tick + 1, recq := (s.dev.quad q).recq ++ es } := by
        rw [Dev.collected, Dev.quad_modQuad_same, hgone]
      have hframe (fs : List Fld) (es : List QueuedRec) : Dev.Frame [.quads] fs s.dev (s.dev.collected q p es) := Dev.modQuad_frame _ _ _ _ (by simp)
      refine ⟨fun hc => ⟨_, onDev_of (f := fun d => d.recordCollect q) (hroom hc), hquad _, fun m hm => Dev.quad_modQuad_ne _ _ hm, (hframe _ _).lift⟩,
        fun hc => ⟨_, onDev_of (f := fun d => d.recordCollect q) (hfull hc), ?_, ?_, fun m hm => ?_,
          ((hframe _ _).trans (Dev.incSat_frame _ _ _ (fit rfl) (by simp))).lift⟩⟩
      · refine (Dev.quad_put _ _ _ _).trans ((hquad []).trans ?_)
        rw [List.append_nil]
      · exact get_incSat _ (fit rfl)
      · exact (Dev.quad_put _ _ _ _).trans (Dev.quad_modQuad_ne _ _ hm)
  · refine ⟨fun h => onDev_idle (f := Dev.spineBuffer) (spineBuffer_empty h), fun r rest h => ⟨fun hl => ?_, fun hl => ?_⟩⟩
    · exact ⟨_, onDev_of (f := Dev.spineBuffer) (spineBuffer_takes h hl), rfl, (Dev.ru_frame _ _ _ (by simp)).lift⟩
    · exact ⟨_, onDev_of (f := Dev.spineBuffer) (spineBuffer_drops h hl), rfl, get_incSat _ (fit rfl),
        ((Dev.ru_frame _ _ _ (by simp)).trans (Dev.incSat_frame _ _ _ (fit rfl) (by simp))).lift⟩
  · intro ready turn none_ goes
    have hready (q : Nat) : s.dev.recReady q = ready q := recReady_eq s.dev q
    have hnone : none_ → s.dev.quadNext = none := fun h => quadNext_none fun q hq => (hready q).trans (h q hq)
    have hgoes : ∀ d r, s.dev.recordAccept = d.accept r → goes d r := by
      intro d r h
      refine ⟨_, d.ringRouted r, onDev_of (f := Dev.recordAccept) (h.trans (accept_eq d r)), fun h31 => ?_, fun h31 hdet => ?_, fun h31 hdet hoff => ?_,
        fun h31 hdet hen hty => ?_, fun hm => ?_, fun hm h30 m hm8 => ?_, fun hm h30 => ?_, toEngines_frame _ _ _ _ s⟩
      · rw [Dev.ringRouted, h31]
        rfl
      · rw [Dev.ringRouted, if_pos h31]
        obtain ⟨hcnt, hfirst, hframe⟩ := toRing_detached (k := d.routeWord r.orig r.typ / 2 ^ 24 % 32) (r := r) hdet
        exact ⟨hcnt, hfirst, hframe s⟩
      · rw [Dev.ringRouted, if_pos h31, toRing_off hdet hoff]
        exact ⟨get_incSat _ (fit rfl), Dev.incSat_frame _ _ _ (fit rfl) (by simp) s⟩
      · rw [Dev.ringRouted, if_pos h31]
        refine ⟨toRing_numbers hdet hen hty, fun hd3 hroom => ?_, fun hd3 hlen => ?_, fun hd3 hfree => ?_, fun hd3 hfree hlost => ?_,
          fun hd3 hfree hlost => toRing_reports hdet hen hty hd3 hfree hlost⟩
        · obtain ⟨hheld, hdis, hframe⟩ := toRing_held (r := r) hdet hen hty hd3 hroom
          exact ⟨hheld, ⟨hdis.off, hdis.timer⟩, hframe s⟩
        · have hl := toRing_lost (r := r) hdet hen hty (.inl ⟨hd3, hlen⟩)
          exact ⟨hl.dropped, hl.pending, hl.count, hl.frame s⟩
        · have hl := toRing_lost (r := r) hdet hen hty (.inr ⟨hd3, hfree⟩)
          exact ⟨hl.dropped, hl.pending, hl.count, hl.frame s⟩
        · rw [toRing_writes hdet hen hty hd3 hfree hlost]
          exact ⟨ringStep_out _ _, ringStep_tail _ _, ringStep_phase _ _, ⟨ringStep_disarms _ _, fun ha => ringStep_timing ha⟩,
            ((numbered_frame _ _ _ (by simp)).trans ((Dev.emit_frame _ _ _ (by simp)).trans (ringStep_frame _ _ (by simp)))) s⟩
      · exact congrArg (fun e => { s with dev := e }) (toEngines_none _ r hm)
      · rw [h30, toEngines_some _ r hm (Nat.mod_lt _ (by decide)), if_pos rfl]
        refine ⟨fun hoff => ?_, fun hon hlost => ?_⟩
        · exact (toEngine_foldl_other r _ _ fun c => by rw [(mem_namedEngines.1 c).2] at hoff; cases hoff).queue
        · have hof := toEngine_foldl_offered r (List.nodup_range.filter _) (mem_namedEngines.2 ⟨hm8, hon⟩) hlost
          exact ⟨hof.seq, hof.queued, hof.lost⟩
      · rw [h30]
        have hone := toEngines_some (d := d.ringRouted r) false r hm (Nat.mod_lt _ (by decide))
        refine ⟨fun hmay => ?_, fun m hm8 hmay hbelow hlost => ?_⟩
        · rw [hone, engineNext_none hmay]
          exact ⟨get_incSat _ (fit rfl), Dev.incSat_frame _ _ _ (fit rfl) (by simp) s⟩
        · rw [hone, engineNext_some hm8 hmay hbelow, if_neg (by simp), Dev.toFound, toEngine_queues r hlost hmay.2.2.2]
          exact ⟨Dev.me_modMe_same _ _ _, Tab.get_set_same _ _ _ _, fun y hy => Dev.me_modMe_ne _ _ hy,
            ((Dev.ru_frame _ _ _ (by simp)).trans (Dev.modMe_frame _ _ _ _ (by simp))) s⟩
    refine ⟨fun hs hn => onDev_idle (f := Dev.recordAccept) (recordAccept_none hs (hnone hn)), fun r rest hs ht => ?_, fun i q r hi hq hmin hs => ?_⟩
    · exact hgoes _ r (recordAccept_spine hs (ht.imp_right hnone))
    · refine ⟨s.dev.quadTaken q, hgoes _ r (recordAccept_quad (quadNext_some hi ((hready q).trans hq) fun j p hj hp => (hready p).trans (hmin j p hj hp))
        ((hready q).trans hq) hs), ?_, fun m hm => ?_, rfl, rfl, (quadTaken_frame _ _).lift⟩
      · rw [quadTaken_quad, Dev.quad_modQuad_same, List.drop_one]
      · rw [quadTaken_quad, Dev.quad_modQuad_ne _ _ hm]
  · have hk := k.isLt
    have hfn (m : Nat) : (s.dev.timerOff k).fn m = s.dev.fn m := fn_of_host (timerOff_host s.dev k) m
    refine ⟨fun h => onDev_idle (f := fun d => d.irqExpire k) (irqExpire_idle h), fun h hq => ?_, fun h hq hd3 => ?_, fun h hq hd3 => ?_⟩
    · exact ⟨{ s with dev := s.dev.timerOff k }, onDev_of (f := fun d => d.irqExpire k) (irqExpire_quiet hk h hq), timerOff_ended s.dev k, timerOff_sent s.dev k,
        (timerOff_frame s.dev k).lift⟩
    · refine ⟨_, onDev_of (f := fun d => d.irqExpire k) (irqExpire_wakes hk h hq hd3), ⟨?_, ?_⟩,
        (emits_get _ _ _).trans (waking_due _ _ _), ?_, fun m hm => ?_, ?_, ?_⟩
      · exact (emits_get _ _ _).trans ((waking_get (RR_IRQ_DUE_apart_TIMING k)).trans (timerOff_ended _ _).1)
      · exact (congrArg (fun r => Tab.get 0 r.modEnd k) ((emits_ru _ _).trans (waking_ru _ _ _))).trans (timerOff_ended _ _).2
      · exact (emits_fn _ _ _).trans ((waking_fn_same _ _ _).trans (by rw [hfn]))
      · exact (emits_fn _ _ _).trans ((waking_fn_ne _ _ hm).trans (hfn m))
      · exact congrArg (· ++ _) ((waking_out _ _ _).trans (timerOff_out _ _))
      · exact (((timerOff_frame _ _).mono (by simp) (by simp)).trans (((waking_frame _ _ _).mono (by simp) (by simp)).trans (emits_frame _ _ _ (by simp)))).lift
    · have howner := timerOff_owner (d := s.dev) hk
      have hvec : (s.dev.timerOff k).get (RR_IRQ_VEC k) = s.dev.get (RR_IRQ_VEC k) := timerOff_get (.inr (.inr (by decide : (0 : Nat) + 6 ≤ 28)))
      obtain ⟨hopen, hmasked⟩ := ringMessage_cases (s.dev.timerOff k) k
      rw [howner, hvec, Dev.unmasked, hfn] at hopen hmasked
      refine ⟨_, onDev_of (f := fun d => d.irqExpire k) (irqExpire_messages hk h hq hd3), ⟨?_, ?_⟩, ?_, fun ho => ?_, fun ho => ?_, ?_⟩
      · exact (ringMessage_timing _ _).trans (timerOff_ended _ _).1
      · exact (congrArg (fun t => Tab.get 0 t k) (ringMessage_modEnd _ _)).trans (timerOff_ended _ _).2
      · exact ringMessage_sent _ _
      · obtain ⟨hout, hdue, hhost⟩ := hopen ho
        exact ⟨hout.trans (by rw [timerOff_out]), hdue, hhost.trans (timerOff_host _ _)⟩
      · obtain ⟨hout, hdue, hpba, hothers⟩ := hmasked ho
        exact ⟨hout.trans (timerOff_out _ _), hdue, hpba, fun m hm => (hothers m hm).trans (hfn m)⟩
      · exact (((timerOff_frame _ _).mono (by simp) (by simp)).trans ((ringMessage_frame _ _).mono (fun _ h => h) (by simp))).lift
  · refine ⟨fun h => onDev_idle (f := fun d => d.msixPending f vec) (msixPending_idle h), fun h ho => ?_⟩
    have hframe := forRange_clearDue_frame f vec (s.dev.messageSent f vec)
    have hhost : (forRange (clearDue f vec) 0 32 (s.dev.messageSent f vec)).host = (s.dev.messageSent f vec).host := hframe.part .host (by simp)
    refine ⟨_, onDev_of (f := fun d => d.msixPending f vec) (msixPending_sends h ho), hframe.part .out (by simp), ?_, fun m hm => ?_, fun j hj => ?_, ?_⟩
    · exact (fn_of_host hhost f).trans (Dev.fn_modFn_same _ _ _)
    · exact (fn_of_host hhost m).trans (Dev.fn_modFn_ne _ _ hm)
    · refine (forRange_clearDue f vec j 32 0 (by omega) _).trans (if_congr ?_ rfl rfl)
      exact ⟨fun c => c.2, fun c => ⟨⟨by omega, by omega⟩, c⟩⟩
    · exact (((Dev.modFn_frame _ _ _ _ (by simp)).trans (Dev.emit_frame _ _ _ (by simp))).trans (hframe.mono (by simp) (fun _ h => h))).lift
  · have hexec : exec (.routeWrite f o n v) s = onDev s (fun d => d.routeWrite (some f) o n v.toNat) :=
      onDev_of (f := fun d => d.regWrite (.fn f) (ROUTE_ROUTE o n) v) (regWrite_ROUTE o n v (by simp) htakes hv)
    refine ⟨fun hb => ⟨_, hexec.trans (onDev_of (routeWrite_bad hb)), get_incSat s.dev (fit rfl), ?_⟩, fun hb => ⟨_, hexec.trans (onDev_of (routeWrite_good hb)), ?_⟩⟩
    · exact (Dev.incSat_frame _ s.dev HIF_OWNVIOL_CNT (fit rfl) (by simp)).lift
    · obtain ⟨hold, hnew⟩ := routed_governs s.dev o n v
      exact ⟨routed_word s.dev o n v, hold, hnew, (routed_frame s.dev o n v).lift⟩

end Sys2Proof.Machine
end

section
/-! PROOF. SLEEP entry beside a bank that is spared on the way (R321, R470). -/

namespace Sys2Proof.Machine

/-- The host is away and SLEEP is pending; one read waits at stacked memory, whose word 0 has an error in one check symbol; the first corrected error
of a bank triggers its sparing. -/
def sparedOnTheWay : State :=
  let d := ((State.reset.dev.put PWR_STATUS_SLPPEND 1).put MEM_CTL_AUTO 1).put MEM_SPARECFG_THR 1
  { State.reset with
    dev := { d with tb := { d.tb with running := true }, mc := { d.mc with reqs := [{ who := .me 0 }] } }
    mem := { chk := [(0, 1)] } }

/-- Completing the read starts a bank copy, so entry is refused on the same tick. -/
theorem sparedOnTheWay_refused : sparedOnTheWay.sleepEntry.dev.get PWR_STATUS_STATE = 0 := by decide +kernel

/-- Refutes O54: entry looks for a job that cannot be left again once the queued requests are completed, and one of these may have started a bank
copy. The statement has entry begin wherever no such job ran before. -/
theorem not_powerStatesAndHeat : ¬ Obligations.PowerStatesAndHeat := by
  unfold Obligations.PowerStatesAndHeat
  rintro ⟨-, states, -⟩
  obtain ⟨-, -, ⟨-, -, begins, -⟩, -⟩ := states sparedOnTheWay
  have hfree : sparedOnTheWay.dev.svc.fuseJob = none ∧ sparedOnTheWay.dev.mc.copy = none ∧ sparedOnTheWay.dev.svc.running = none := ⟨rfl, rfl, rfl⟩
  obtain ⟨t, hexec, -, hstate, -⟩ := begins (by decide +kernel) (by simp [hfree])
  have ht : sparedOnTheWay.sleepEntry = t := by injection hexec
  rw [← ht, sparedOnTheWay_refused] at hstate
  exact absurd hstate (by decide)

end Sys2Proof.Machine
end

section
/-! PROOF. Frames of what a tick and the timebase change, and a sweep that does nothing or acts once. -/

namespace Sys2Proof.Machine

theorem Dev.late_frame {ps : List Part} (fs : List Fld) (d : Dev) (l : List LateWrite) (hp : Part.late ∈ ps) : Dev.Frame ps fs d { d with late := l } :=
  fun _ => ⟨fun p hn => by cases p <;> first | rfl | exact absurd hp hn, fun _ _ => rfl⟩

theorem Dev.tb_frame {ps : List Part} (fs : List Fld) (d : Dev) (x : TbState) (hp : Part.tb ∈ ps) : Dev.Frame ps fs d { d with tb := x } :=
  fun _ => ⟨fun p hn => by cases p <;> first | rfl | exact absurd hp hn, fun _ _ => rfl⟩

theorem Dev.tick_frame {ps : List Part} (fs : List Fld) (d : Dev) (t : Nat) (hp : Part.tick ∈ ps) : Dev.Frame ps fs d { d with tick := t } :=
  fun _ => ⟨fun p hn => by cases p <;> first | rfl | exact absurd hp hn, fun _ _ => rfl⟩

theorem Dev.stime_frame {ps : List Part} (fs : List Fld) (d : Dev) (t : DWord) (hp : Part.stime ∈ ps) : Dev.Frame ps fs d { d with stime := t } :=
  fun _ => ⟨fun p hn => by cases p <;> first | rfl | exact absurd hp hn, fun _ _ => rfl⟩

/-- A sweep whose every turn leaves the state leaves it. -/
theorem forRange_eq_self {σ : Type} {f : Nat → σ → σ} (n : Nat) {i : Nat} {s : σ} (h : ∀ k, i ≤ k → k < i + n → f k s = s) : forRange f i n s = s := by
  induction n generalizing i with
  | zero => rfl
  | succ n ih =>
    rw [forRange, h i (Nat.le_refl _) (by omega)]
    exact ih fun k h1 h2 => h k (by omega) (by omega)

/-- A sweep in which only turn `e` acts, on states of which `P` holds. -/
theorem forRange_eq_one {σ : Type} {f : Nat → σ → σ} {P : σ → Prop} {e : Nat} (n : Nat) {i : Nat} {s : σ}
    (hidle : ∀ k s, i ≤ k → k < i + n → k ≠ e → P s → f k s = s) (he : i ≤ e ∧ e < i + n) (hs : P s) (hact : P (f e s)) :
    forRange f i n s = f e s := by
  induction n generalizing i with
  | zero => omega
  | succ n ih =>
    by_cases hi : i = e
    · subst hi
      exact forRange_eq_self n fun k h1 h2 => hidle k _ (by omega) (by omega) (by omega) hact
    · rw [forRange, hidle i s (Nat.le_refl _) (by omega) hi hs]
      exact ih (fun k s h1 h2 => hidle k s (by omega) (by omega)) (by omega)

end Sys2Proof.Machine
end

section
/-! PROOF. A tick of the clock (R29, R285, R508): what engines have sent, the writes that land, and what the next tick begins with. -/

namespace Sys2Proof.Machine

/-! ## Ticks on which nothing is due -/

/-- No ibex END, no cancel of a slice and no engine waits for the tick to pass. -/
structure Dev.Calm (d : Dev) : Prop where
  ends : ∀ p ∈ d.ibxs, p.2.ending = none
  cancels : ∀ q, q < 4 → (d.slice q).cancels = []
  engines : ∀ e, e < 8 → (d.me e).hkNext = 0 ∧ (d.me e).stopping = false

/-- Nothing that an engine has sent can act. -/
def Dev.Silent (d : Dev) : Prop := ∀ e, e < 8 → (d.me e).io = [] ∨ d.quadDown (e / 2) = true

/-- The device one tick later. -/
def Dev.ticked (d : Dev) : Dev := { d with tick := d.tick + 1, stime := d.stime + 1 }

theorem ticked_frame (d : Dev) : Dev.Frame [.tick, .stime] [] d d.ticked :=
  (Dev.tick_frame [] d (d.tick + 1) (by simp)).trans (Dev.stime_frame [] _ (d.stime + 1) (by simp))

theorem ioLand_none {d : Dev} {b : Bool} {e : Nat} (h : (d.me e).io = [] ∨ d.quadDown (e / 2) = true) : d.ioLand b e = d := by
  unfold Dev.ioLand
  rcases h with h | h
  · simp [h]
  · rw [if_pos (show d.quadDown (meQ e) = true from h)]

theorem meHkCopy_idle {d : Dev} {e : Nat} (h : (d.me e).hkNext = 0) : d.meHkCopy e = d := if_neg fun c => c.2 h

theorem meBoundary_idle {d : Dev} {e : Nat} (h : (d.me e).stopping = false) : d.meBoundary e = d := if_neg fun c => by simp [h] at c

theorem ibxEnds_idle {d : Dev} (h : ∀ p ∈ d.ibxs, p.2.ending = none) : d.ibxEnds = d := by
  refine List.foldlRecOn d.ibxs _ (motive := fun e => e = d) rfl ?_
  rintro e rfl p hp
  simp [h p hp]

/-- R22, R256, R304: a tick begins with nothing to do. -/
theorem begun_idle {d : Dev} (hc : d.Calm) (hs : d.Silent) : forRange Dev.meTick 0 8 d.ticked.ibxEnds = d.ticked := by
  rw [ibxEnds_idle (d := d.ticked) hc.ends]
  refine forRange_eq_self 8 fun e _ he => ?_
  obtain ⟨hhk, hstop⟩ := hc.engines e (by omega)
  rw [Dev.meTick, ioLand_none (d := d.ticked) (hs e (by omega)), meHkCopy_idle (d := d.ticked) hhk, meBoundary_idle (d := d.ticked) hstop]

/-- R29: a tick that ends in `e`, where the next one has nothing to begin with. -/
theorem idleTick_of {d e : Dev} (hr : d.tb.running = true) (he : (forRange (Dev.ioLand false) 0 8 d).landed = e) (hre : e.tb.running = true)
    (hc : e.Calm) (hs : e.Silent) : d.idleTick = e.ticked := by
  have hends : d.tickEnds = e := by
    rw [Dev.tickEnds, he]
    exact forRange_eq_self 4 fun q _ hq => if_pos (by rw [hc.cancels q (by omega)]; rfl)
  rw [Dev.idleTick, if_pos hr, hends, Dev.clockTick, if_pos hre]
  exact begun_idle hc hs

theorem ioLand_silent {d : Dev} (hs : d.Silent) : forRange (Dev.ioLand false) 0 8 d = d := forRange_eq_self 8 fun e _ he => ioLand_none (hs e (by omega))

theorem landed_none {d : Dev} (h : ∀ x ∈ d.late, d.tick < x.due) : d.landed = d := by
  have hdue : d.late.filter (fun x => decide (x.due ≤ d.tick)) = [] := List.filter_eq_nil_iff.2 fun x hx => by have := h x hx; simp; omega
  have hkeep : d.late.filter (fun x => !decide (x.due ≤ d.tick)) = d.late := List.filter_eq_self.2 fun x hx => by have := h x hx; simp; omega
  unfold Dev.landed
  dsimp only
  rw [hdue, hkeep]
  split <;> simp

/-! ## Stacked memory -/

/-- Stacked memory has nothing to do on a tick. -/
theorem memTick_idle {s : State} (hq : s.dev.host.bulkq = []) (hb : s.dev.mc.borrow = none) : s.mirrorTick.bulkTick = s := by
  have hm : s.mirrorTick = s := by rw [State.mirrorTick, hb]
  rw [hm, State.bulkTick, hq]

theorem step_tick {s : State} (hp : s.pending = []) (hr : s.dev.tb.running = true) :
    step s = .next ({ s with dev := s.dev.idleTick } : State).mirrorTick.bulkTick := by
  have hstep : step s = .next s.idleTick := by rw [step, hp]
  exact hstep.trans (congrArg Host.Outcome.next (if_pos hr))

/-- A tick on which stacked memory has nothing to do. -/
theorem step_tick_still {s : State} {e : Dev} (hp : s.pending = []) (hr : s.dev.tb.running = true) (he : s.dev.idleTick = e)
    (hq : e.host.bulkq = []) (hb : e.mc.borrow = none) : step s = .next { s with dev := e } := by
  rw [step_tick hp hr, he, memTick_idle hq hb]

/-! ## Writes that land -/

theorem locate_TC_CMP0 (i : Fin 1024) : locate (TC_CMP0 i) = some ⟨.tc, i, 0, i.val / 256, ⟨0xC, 0x0, 0xFFFFFFFF, 0x0, 0x0, 0x0, []⟩⟩ := by
  have h := locate_tc i 0xC i.isLt (by decide)
  rw [show TC_CMP0 i = 0x10000 + i / 256 * 0x8000 + 0x2000 + i % 256 * 0x20 + 0xC by unfold TC_CMP0; omega, h]
  rfl

theorem TC_CMP0_range (i : Fin 1024) : 0x10000 ≤ TC_CMP0 i ∧ TC_CMP0 i < 0x30000 := by
  have hi := i.isLt
  unfold TC_CMP0
  omega

theorem quadWrite_TC_CMP0 (d : Dev) (w : Writer) (i : Fin 1024) (v : Word) :
    d.quadWrite w ⟨.tc, i, 0, i.val / 256, ⟨0xC, 0x0, 0xFFFFFFFF, 0x0, 0x0, 0x0, []⟩⟩ (TC_CMP0 i) v = d.setWord (TC_CMP0 i) v := by
  have hall : w32 0xFFFFFFFF = BitVec.allOnes 32 := rfl
  simp only [Dev.quadWrite, Dev.tcWrite, Dev.store, hall, BitVec.not_allOnes, BitVec.and_allOnes, BitVec.and_zero, BitVec.zero_and, BitVec.zero_or]

/-- R508: a write of CMP0 lands. -/
theorem lateAct_TC_CMP0 {d : Dev} {x : LateWrite} (i : Fin 1024) (ho : x.off = TC_CMP0 i) (hx : x.rank ≤ 10) (hq : d.quadDown (i.val / 256) = false) :
    d.lateAct x = d.setWord (TC_CMP0 i) x.v := by
  have hi := i.isLt
  have hoff := TC_CMP0_range i
  unfold Dev.lateAct Dev.regAct
  rw [if_neg (show ¬ x.rank = 13 by omega), if_neg (show ¬ x.rank = 12 by omega)]
  simp only [ho, locate_TC_CMP0]
  rw [if_neg (show ¬ x.rank = 11 by omega), if_pos hoff, hq]
  exact quadWrite_TC_CMP0 d (Writer.ofCode x.code) i x.v

/-- R508: a write of CMP0 waits for the end of its tick, and lands as it stands. -/
theorem lands_TC_CMP0 {d : Dev} {w : Writer} (i : Fin 1024) (v : Word) (hw : w.rank ≤ 10) (h : d.takesLate w (TC_CMP0 i) = true) :
    d.regWrite w (TC_CMP0 i) v = d.awaiting w (TC_CMP0 i) v ∧ (d.awaiting w (TC_CMP0 i) v).landed = d.setWord (TC_CMP0 i) v := by
  have hn := i.isLt
  have hall : w32 (0xFFFFFFFF ||| 0x0 ||| 0x0) = BitVec.allOnes 32 := by decide
  have hv : v &&& BitVec.allOnes 32 = v := BitVec.and_allOnes
  obtain ⟨ht, -, -⟩ := (Dev.takesLate_iff _ _ _).mp h
  refine ⟨Dev.regWrite_late v ht (locate_TC_CMP0 i) (by show Gid.tc ≠ _; decide) rfl rfl (rsvBits_zero (show w32 (0xFFFFFFFF ||| 0x0 ||| 0x0 ||| 0x0) = BitVec.allOnes 32 by decide) hv) ((congrArg (v &&& ·) hall).trans hv) (by simp [Dev.isLate, lateReg]), ?_⟩
  exact (Dev.awaiting_landed_quad v hw h (locate_TC_CMP0 i) (by unfold TC_CMP0; omega) (by simp only [TC_CMP0]; omega)).trans (quadWrite_TC_CMP0 d _ i v)

/-- The turns of two writers of ranks `a` and `b`, in the order in which writes land; `true` is the second. -/
theorem landing_order (a b : Fin 11) : [11, 0, 1, 2, 3, 4, 5, 6, 7, 8, 9, 10, 12, 13].flatMap
      (fun r => (if a.val = r then [false] else []) ++ if b.val = r then [true] else []) = if b < a then [true, false] else [false, true] := by
  revert a b; decide +kernel

/-- R508: two writes that are due land in the order of their writers. -/
theorem landed_two {d : Dev} {x y : LateWrite} (hr : d.tb.running = true) (hl : d.late = [x, y]) (hx : x.due ≤ d.tick) (hy : y.due ≤ d.tick)
    (hxr : x.rank ≤ 10) (hyr : y.rank ≤ 10) : d.landed =
      if y.rank < x.rank then (({ d with late := [] } : Dev).lateAct y).lateAct x else (({ d with late := [] } : Dev).lateAct x).lateAct y := by
  have hpick (r : Nat) : [x, y].filter (fun z => z.rank == r) =
      ((if x.rank = r then [false] else []) ++ if y.rank = r then [true] else []).map (fun b => if b then y else x) := by
    by_cases h1 : x.rank = r <;> by_cases h2 : y.rank = r <;> simp [h1, h2]
  have horder := landing_order ⟨x.rank, by omega⟩ ⟨y.rank, by omega⟩
  have hdue : d.late.filter (fun z => decide (z.due ≤ d.tick)) = [x, y] := by rw [hl]; simp [hx, hy]
  have hkeep : d.late.filter (fun z => !decide (z.due ≤ d.tick)) = [] := by rw [hl]; simp [hx, hy]
  rw [Dev.landed, if_pos hr]
  dsimp only
  rw [hdue, hkeep]
  simp only [hpick]
  rw [← List.foldl_flatMap, ← List.map_flatMap]
  dsimp only at horder
  rw [horder]
  by_cases h : y.rank < x.rank
  · rw [if_pos h, if_pos (show (⟨y.rank, _⟩ : Fin 11) < ⟨x.rank, _⟩ from h)]
    rfl
  · rw [if_neg h, if_neg (show ¬ (⟨y.rank, _⟩ : Fin 11) < ⟨x.rank, _⟩ from h)]
    rfl

theorem quadDown_setWord_quad {d : Dev} {o : Nat} (q : Nat) (v : Word) (ho : o < 0x30000) : (d.setWord o v).quadDown q = d.quadDown q := by
  have hoff : o ≠ SVC_QSTAT := fun h => by rw [h] at ho; revert ho; decide
  have hget (g : Fld) (hg : g.off = SVC_QSTAT) : (d.setWord o v).get g = d.get g := Dev.get_setWord_apart _ _ (.inl (hg ▸ hoff))
  rw [Dev.quadDown, Dev.quadDown, hget _ rfl, hget _ rfl]
  rfl

/-- The device with nothing that waits for the end of the tick. -/
def Dev.noLate (d : Dev) : Dev := { d with late := [] }

/-- R508: two writes of CMP0 that are due: the later writer's value stands. -/
theorem landed_two_CMP0 {d : Dev} {x y : LateWrite} (n : Fin 1024) (hr : d.tb.running = true) (hl : d.late = [x, y]) (hx : x.due ≤ d.tick)
    (hy : y.due ≤ d.tick) (hxr : x.rank ≤ 10) (hyr : y.rank ≤ 10) (hxo : x.off = TC_CMP0 n) (hyo : y.off = TC_CMP0 n)
    (hq : d.quadDown (n.val / 256) = false) :
    ∃ v, d.landed = (d.noLate.setWord (TC_CMP0 n) v).setWord (TC_CMP0 n) (if y.rank < x.rank then x.v else y.v) := by
  have hq0 : d.noLate.quadDown (n.val / 256) = false := hq
  have hq1 (v : Word) : (d.noLate.setWord (TC_CMP0 n) v).quadDown (n.val / 256) = false := (quadDown_setWord_quad _ v (TC_CMP0_range n).2).trans hq0
  rw [landed_two hr hl hx hy hxr hyr, ← Dev.noLate]
  split
  · rw [lateAct_TC_CMP0 n hyo hyr hq0, lateAct_TC_CMP0 n hxo hxr (hq1 _)]
    exact ⟨y.v, rfl⟩
  · rw [lateAct_TC_CMP0 n hxo hxr hq0, lateAct_TC_CMP0 n hyo hyr (hq1 _)]
    exact ⟨x.v, rfl⟩

/-! ## What engines send -/

theorem modMe_congr {d : Dev} {e : Nat} {f g : Me → Me} (h : f (d.me e) = g (d.me e)) : d.modMe e f = d.modMe e g :=
  congrArg (fun m => { d with mes := Tab.set {} d.mes e m }) h

/-- The device once what engine `e` has sent is gone. -/
def Dev.ioSent (d : Dev) (e : Nat) : Dev := d.modMe e (fun m => { m with io := [] })

/-- R285: a write that is due, alone in what an engine has sent, is a register write by the engine. -/
theorem ioLand_write {d : Dev} {e k off : Nat} {v : Word} (hio : (d.me e).io = [(k, .wr off v)]) (hk : k ≤ d.tick) (hq : d.quadDown (e / 2) = false) :
    d.ioLand false e = (d.ioSent e).regWrite (.me e) (0x10000 + 0x8000 * (e / 2) + off) v := by
  have hq' : ¬ d.quadDown (meQ e) = true := by rw [show meQ e = e / 2 from rfl, hq]; simp
  have hdue : decide (k ≤ d.tick) = true := decide_eq_true hk
  have hgone : d.modMe e (fun m => { m with io := m.io.filter (fun x => !(decide (x.1 ≤ d.tick) && isBlockBit x.2 == false)) }) = d.ioSent e :=
    modMe_congr (by simp [hio, hdue, isBlockBit])
  rw [Dev.ioLand, if_neg hq', hio]
  dsimp only
  rw [hgone]
  simp [hdue, isBlockBit, Dev.ioAct, meQ]

/-- R285, R508: the one write that engines have sent, of a CMP0 of the sender's quadrant, lands. -/
theorem landed_ioWrite {d : Dev} {k : Nat} {v : Word} (e : Fin 8) (n : Fin 1024) (hr : d.tb.running = true) (hl : d.late = [])
    (hothers : ∀ j, j < 8 → j ≠ e.val → (d.me j).io = []) (hn : n.val / 256 = e.val / 2)
    (hio : (d.me e).io = [(k, .wr (TC_CMP0 n - 0x10000 - 0x8000 * (e.val / 2)) v)]) (hk : k ≤ d.tick) (ht : d.takes (.me e) (TC_CMP0 n) = true) :
    (forRange (Dev.ioLand false) 0 8 d).landed = (d.ioSent e).setWord (TC_CMP0 n) v := by
  have he := e.isLt
  have hoff : 0x10000 + 0x8000 * (e.val / 2) + (TC_CMP0 n - 0x10000 - 0x8000 * (e.val / 2)) = TC_CMP0 n := by unfold TC_CMP0; omega
  have hdown : d.quadDown (e.val / 2) = false := by
    obtain ⟨-, -, -, h⟩ := (Dev.takes_iff _ _ _).mp ht
    have := h (TC_CMP0_range n)
    rwa [show (TC_CMP0 n - 0x10000) / 0x8000 = e.val / 2 by unfold TC_CMP0; omega] at this
  obtain ⟨hwaits, hlands⟩ := lands_TC_CMP0 (d := d.ioSent e) (w := .me e) n v (by simp only [Writer.rank]; omega) ((Dev.takesLate_iff _ _ _).mpr ⟨ht, hl, hr⟩)
  have hact := ioLand_write hio hk hdown
  rw [hoff, hwaits] at hact
  have hrest (j : Nat) (hj : j ≠ e.val) : ((d.ioSent e).me j).io = (d.me j).io := by rw [Dev.ioSent, Dev.me_modMe_ne _ _ hj]
  rw [forRange_eq_one (P := fun c => ∀ j, j < 8 → j ≠ e.val → (c.me j).io = []) 8 (fun j c _ hj hne hc => ioLand_none (.inl (hc j (by omega) hne)))
    ⟨Nat.zero_le _, by omega⟩ hothers, hact, hlands]
  rw [hact]
  exact fun j hj hne => (hrest j hne).trans (hothers j hj hne)

/-- Settles O56: a step by its definition, and a tick by what its end makes of the state: nothing, the two writes in their order, or the write that
an engine sent. -/
theorem stepRunsTheFrontCommandOrATick : Obligations.StepRunsTheFrontCommandOrATick := by
  unfold Obligations.StepRunsTheFrontCommandOrATick
  refine ⟨fun _ _ => rfl, fun s hp => ⟨fun hr => ?_, fun hr hcalm => ?_⟩⟩
  · have hidle : s.idleTick = s := if_neg (by simp [hr])
    rw [step, hp]
    exact congrArg _ hidle
  have hc : s.dev.Calm := ⟨hcalm.1, hcalm.2.1, hcalm.2.2⟩
  refine ⟨fun hs hlate => ?_, fun x y n hs hstill hl hx hy hxr hyr hxo hyo hq => ?_, fun e k n v hothers hstill hl hn hio hk htakes => ?_⟩
  · have htick : s.dev.idleTick = s.dev.ticked := idleTick_of hr (by rw [ioLand_silent hs, landed_none hlate]) hr hc hs
    exact ⟨by rw [step_tick hp hr, htick]; rfl, fun hstill => step_tick_still hp hr htick hstill.1 hstill.2⟩
  · obtain ⟨u, hland⟩ := landed_two_CMP0 n hr hl hx hy hxr hyr hxo hyo hq
    have hsilent : ((s.dev.noLate.setWord (TC_CMP0 n) u).setWord (TC_CMP0 n) (if y.rank < x.rank then x.v else y.v)).Silent := fun e he => by
      rw [quadDown_setWord_quad _ _ (TC_CMP0_range n).2, quadDown_setWord_quad _ _ (TC_CMP0_range n).2]
      exact hs e he
    have htick := idleTick_of hr ((congrArg Dev.landed (ioLand_silent hs)).trans hland) hr ⟨hc.ends, hc.cancels, hc.engines⟩ hsilent
    refine ⟨_, step_tick_still hp hr htick hstill.1 hstill.2, Dev.word_setWord_same _ _ _, rfl, rfl, rfl, ?_⟩
    exact (((Dev.late_frame _ _ [] (by simp)).trans ((Dev.setWord_frame _ _ _ _ (by simp)).trans (Dev.setWord_frame _ _ _ _ (by simp)))).trans
      ((ticked_frame _).mono (by simp) (by simp))).lift
  · have hio' (j : Nat) (hj : j < 8) : ((s.dev.ioSent e).me j).io = [] := by
      by_cases he : j = e.val
      · rw [he, Dev.ioSent, Dev.me_modMe_same]
      · rw [Dev.ioSent, Dev.me_modMe_ne _ _ he, hothers j hj he]
    have hcalm' (j : Nat) (hj : j < 8) : ((s.dev.ioSent e).me j).hkNext = 0 ∧ ((s.dev.ioSent e).me j).stopping = false := by
      by_cases he : j = e.val
      · rw [he, Dev.ioSent, Dev.me_modMe_same]
        exact hc.engines e e.isLt
      · rw [Dev.ioSent, Dev.me_modMe_ne _ _ he]
        exact hc.engines j hj
    have htick := idleTick_of hr (landed_ioWrite e n hr hl hothers hn hio hk htakes) hr ⟨hc.ends, hc.cancels, hcalm'⟩ fun j hj => .inl (hio' j hj)
    refine ⟨_, step_tick_still hp hr htick hstill.1 hstill.2, Dev.word_setWord_same _ _ _, hio' e e.isLt, rfl, rfl, ?_⟩
    exact (((Dev.modMe_frame _ _ _ _ (by simp)).trans (Dev.setWord_frame _ _ _ _ (by simp))).trans ((ticked_frame _).mono (by simp) (by simp))).lift

end Sys2Proof.Machine
end

section
/-! PROOF. Pairs of registers, bits of a number and the engines in a sweep. -/

namespace Sys2Proof.Machine

/-! ## Registers that a frame leaves alone -/

theorem Dev.get_whole (d : Dev) (o : Nat) : d.get (whole o) = (d.word o).toNat := by
  simp only [Dev.get, whole, bits, Nat.shiftRight_zero]
  exact Nat.mod_eq_of_lt (d.word o).isLt

theorem Dev.Frame.word {ps : List Part} {fs : List Fld} {d e : Dev} (h : Dev.Frame ps fs d e) (o : Nat) (ho : ∀ f ∈ fs, f.apart (whole o)) :
    e.word o = d.word o := BitVec.eq_of_toNat_eq (by rw [← Dev.get_whole, ← Dev.get_whole, h.get _ ho])

theorem Dev.Frame.pair {ps : List Part} {fs : List Fld} {d e : Dev} (h : Dev.Frame ps fs d e) (lo hi : Nat) (hl : ∀ f ∈ fs, f.apart (whole lo))
    (hh : ∀ f ∈ fs, f.apart (whole hi)) : e.pair lo hi = d.pair lo hi := by
  rw [Dev.pair, Dev.pair, h.word lo hl, h.word hi hh]

theorem Dev.setPair_frame (ps : List Part) {fs : List Fld} (d : Dev) (lo hi v : Nat) (hl : whole lo ∈ fs) (hh : whole hi ∈ fs) :
    Dev.Frame ps fs d (d.setPair lo hi v) := (Dev.setWord_frame ps d lo _ hl).trans (Dev.setWord_frame ps _ hi _ hh)

/-- A pair reads what was written to it, modulo 2^64. -/
theorem Dev.pair_setPair (d : Dev) {lo hi : Nat} (v : Nat) (h : lo ≠ hi) : (d.setPair lo hi v).pair lo hi = v % 2 ^ 64 := by
  rw [Dev.pair, Dev.setPair, Dev.word_setWord_ne _ _ h, Dev.word_setWord_same, Dev.word_setWord_same, BitVec.toNat_ofNat, BitVec.toNat_ofNat,
    Nat.shiftRight_eq_div_pow]
  omega

theorem Dev.hks_frame {ps : List Part} (fs : List Fld) (d : Dev) (t : Tab HkState) (hp : Part.hks ∈ ps) : Dev.Frame ps fs d { d with hks := t } :=
  fun _ => ⟨fun p hn => by cases p <;> first | rfl | exact absurd hp hn, fun _ _ => rfl⟩

theorem Dev.latched_frame {ps : List Part} (fs : List Fld) (d : Dev) (t : Tab Word) (hp : Part.latched ∈ ps) :
    Dev.Frame ps fs d { d with latched := t } :=
  fun _ => ⟨fun p hn => by cases p <;> first | rfl | exact absurd hp hn, fun _ _ => rfl⟩

/-! ## Bits -/

theorem bitAt_eq_bits (n i : Nat) : bitAt n i = (bits n i 1 == 1) := rfl

/-- A number with one bit set reads that bit, and the others as they were. -/
theorem bitAt_setBitAt (n i k : Nat) (b : Bool) : bitAt (setBitAt n i b) k = if k = i then b else bitAt n k := by
  rw [setBitAt, bitAt_eq_bits, bitAt_eq_bits]
  split
  · next h =>
    rw [h, bits_putBits_same]
    cases b <;> rfl
  · next h =>
    rcases Nat.lt_or_gt_of_ne h with h | h
    · rw [bits_putBits_below _ _ _ _ _ _ (by omega)]
    · rw [bits_putBits_above _ _ _ _ _ _ (by omega)]

theorem bitAt_or (a b k : Nat) : bitAt (a ||| b) k = (bitAt a k || bitAt b k) := by
  rw [bitAt_eq_testBit, bitAt_eq_testBit, bitAt_eq_testBit, Nat.testBit_lor]

/-! ## A sweep over the engines -/

/-- Each engine of a sweep is changed once. -/
theorem me_forRange_modMe (f : Me → Me) (j : Nat) (n : Nat) {i : Nat} (d : Dev) :
    (forRange (fun e d => d.modMe e f) i n d).me j = if i ≤ j ∧ j < i + n then f (d.me j) else d.me j := by
  induction n generalizing i d with
  | zero => exact (if_neg (by omega)).symm
  | succ n ih =>
    rw [forRange, ih]
    by_cases hj : j = i
    · rw [hj, if_neg (by omega), if_pos (by omega), Dev.me_modMe_same]
    · rw [Dev.me_modMe_ne _ _ hj]
      exact if_congr (by omega) rfl rfl

end Sys2Proof.Machine
end

section
/-! PROOF. Housekeeping timers (R51, R54, R55, R60). -/

namespace Sys2Proof.Machine

/-! ## The match on its way to the engines (R22, R289) -/

theorem meHk_frame (n : Nat) (d : Dev) : Dev.Frame [.mes] [] d (Dev.meHk n d) :=
  forRange_frame _ _ _ 8 0 (fun _ _ _ e => Dev.modMe_frame _ e _ _ (by simp)) d

/-- R22: the match of timer `n` is on its way to engine `e`. -/
theorem meHk_me (n : Nat) (d : Dev) {e : Nat} (he : e < 8) :
    (Dev.meHk n d).me e = { d.me e with hkNext := setBitAt (d.me e).hkNext n true } :=
  (me_forRange_modMe (fun m => { m with hkNext := setBitAt m.hkNext n true }) e 8 d).trans (if_pos (by omega))

/-- R22: on an even tick the matches on their way reach the engine's copy. -/
theorem meHkCopy_even {d : Dev} (h : d.now % 2 = 0) (e k : Nat) :
    bitAt ((d.meHkCopy e).me e).hk k = (bitAt (d.me e).hk k || bitAt (d.me e).hkNext k) := by
  by_cases hz : (d.me e).hkNext = 0
  · rw [meHkCopy_idle hz, hz]
    simp [bitAt]
  · rw [Dev.meHkCopy, if_pos ⟨h, hz⟩, Dev.me_modMe_same, bitAt_or]

theorem meHkCopy_odd {d : Dev} (h : d.now % 2 = 1) (e : Nat) : d.meHkCopy e = d := if_neg fun c => by omega

/-! ## A count (R51, R60) -/

theorem me_of_mes {d e : Dev} (h : e.mes = d.mes) (k : Nat) : e.me k = d.me k := by rw [Dev.me, Dev.me, h]

theorem hk_of_hks {d e : Dev} (h : e.hks = d.hks) (k : Nat) : e.hk k = d.hk k := by rw [Dev.hk, Dev.hk, h]

theorem Dev.hk_modHk_same (d : Dev) (n : Nat) (f : HkState → HkState) : (d.modHk n f).hk n = f (d.hk n) := Tab.get_mod_same _ _ _ _

theorem Dev.hk_modHk_ne (d : Dev) {n m : Nat} (f : HkState → HkState) (h : m ≠ n) : (d.modHk n f).hk m = d.hk m := Tab.get_mod_ne _ _ _ h

/-- Timer `n` counts on this tick. -/
def Dev.hkDue (d : Dev) (n : Nat) : Prop := d.tb.running ∧ d.flag (HK_CTL_EN n) ∧ (d.hk n).next ≤ d.tick

/-- The count that comes next. -/
def Dev.hkNextCount (d : Dev) (n : Nat) : Nat := (d.pair (HK_CNT_LO n) (HK_CNT_HI n) + 1) % 2 ^ 64

/-- The device once timer `n` has counted. -/
def Dev.hkCounted (d : Dev) (n : Nat) : Dev :=
  let c := d.setPair (HK_CNT_LO n) (HK_CNT_HI n) (d.hkNextCount n)
  c.modHk n (fun h => { h with next := h.next + c.get (HK_CTL_PRE n) + 1, cur := c.get (HK_CTL_PRE n) + 1 })

/-- The device once a match of timer `n` is recorded and on its way to the engines. -/
def Dev.hkMatched (d : Dev) (n : Nat) : Dev := Dev.meHk n ((d.hkCounted n).hkRecord n false 0 (d.hkNextCount n))

section
variable (d : Dev) (n : Nat)

theorem hkCounted_frame : Dev.Frame [.hks] [whole (HK_CNT_LO n), whole (HK_CNT_HI n)] d (d.hkCounted n) :=
  (Dev.setPair_frame _ _ _ _ _ (by simp) (by simp)).trans (Dev.hks_frame _ _ _ (by simp))

/-- What a match adds to a count. -/
theorem hkMatched_adds : Dev.Frame [.ru, .mes] [] (d.hkCounted n) (d.hkMatched n) :=
  (Dev.spineRecNow_frame _ _ _ _ _ _ _ _ (by simp)).trans ((meHk_frame n _).mono (by simp) (by simp))

theorem hkMatched_frame : Dev.Frame [.hks, .ru, .mes] [whole (HK_CNT_LO n), whole (HK_CNT_HI n)] d (d.hkMatched n) :=
  ((hkCounted_frame d n).mono (by simp) (by simp)).trans ((hkMatched_adds d n).mono (by simp) (by simp))

theorem HK_CNT_LO_ne_HI : HK_CNT_LO n ≠ HK_CNT_HI n := by unfold HK_CNT_LO HK_CNT_HI; omega

theorem HK_CMP_LO_ne_HI : HK_CMP_LO n ≠ HK_CMP_HI n := by unfold HK_CMP_LO HK_CMP_HI; omega

/-- CTL, CMP and PER of a timer lie apart from its count. -/
theorem HK_CNT_apart {g : Fld} (hg : g.off = HK_CTL n ∨ g.off = HK_CMP_LO n ∨ g.off = HK_CMP_HI n ∨ g.off = HK_PER_LO n ∨ g.off = HK_PER_HI n) :
    ∀ f ∈ [whole (HK_CNT_LO n), whole (HK_CNT_HI n)], f.apart g := by
  intro f hf
  have ho : f.off = HK_CNT_LO n ∨ f.off = HK_CNT_HI n := by
    simp only [List.mem_cons, List.not_mem_nil, or_false] at hf
    rcases hf with rfl | rfl
    · exact .inl rfl
    · exact .inr rfl
  refine .inl ?_
  unfold HK_CNT_LO HK_CNT_HI HK_CTL HK_CMP_LO HK_CMP_HI HK_PER_LO HK_PER_HI at *
  omega

theorem hkCounted_pair : (d.hkCounted n).pair (HK_CNT_LO n) (HK_CNT_HI n) = d.hkNextCount n :=
  (Dev.pair_setPair d (d.hkNextCount n) (HK_CNT_LO_ne_HI n)).trans (Nat.mod_mod _ _)

theorem hkCounted_hk : (d.hkCounted n).hk n =
    { d.hk n with next := (d.hk n).next + d.get (HK_CTL_PRE n) + 1, cur := d.get (HK_CTL_PRE n) + 1 } := by
  have hpre : (d.setPair (HK_CNT_LO n) (HK_CNT_HI n) (d.hkNextCount n)).get (HK_CTL_PRE n) = d.get (HK_CTL_PRE n) :=
    (Dev.setPair_frame [] d _ _ _ (by simp) (by simp)).get _ (HK_CNT_apart n (.inl rfl))
  rw [Dev.hkCounted, Dev.hk_modHk_same, hpre]
  rfl

theorem hkCounted_hk_ne {m : Nat} (h : m ≠ n) : (d.hkCounted n).hk m = d.hk m := Dev.hk_modHk_ne _ _ h

/-- CMP, PER and MODE are not changed by a count. -/
theorem hkCounted_rest : (d.hkCounted n).pair (HK_CMP_LO n) (HK_CMP_HI n) = d.pair (HK_CMP_LO n) (HK_CMP_HI n) ∧
    (d.hkCounted n).get (HK_CTL_MODE n) = d.get (HK_CTL_MODE n) :=
  ⟨(hkCounted_frame d n).pair _ _ (HK_CNT_apart n (by simp [whole])) (HK_CNT_apart n (by simp [whole])),
    (hkCounted_frame d n).get _ (HK_CNT_apart n (.inl rfl))⟩

theorem hkMatched_pair : (d.hkMatched n).pair (HK_CNT_LO n) (HK_CNT_HI n) = d.hkNextCount n :=
  ((hkMatched_adds d n).pair _ _ (by simp) (by simp)).trans (hkCounted_pair d n)

theorem hkMatched_per : (d.hkMatched n).pair (HK_PER_LO n) (HK_PER_HI n) = d.pair (HK_PER_LO n) (HK_PER_HI n) :=
  (hkMatched_frame d n).pair _ _ (HK_CNT_apart n (by simp [whole])) (HK_CNT_apart n (by simp [whole]))

theorem hkMatched_hks : (d.hkMatched n).hks = (d.hkCounted n).hks := (hkMatched_adds d n).part .hks (by simp)

theorem hkMatched_raised : (d.hkMatched n).ru.raised = d.ru.raised ++
    [{ typ := 0x11, sub := 0, src := n, orig := 4, at_ := d.stampNow, p0 := 0, p1 := d.hkNextCount n % 2 ^ 32, p2 := d.hkNextCount n >>> 32 }] := by
  have hru : (d.hkMatched n).ru = ((d.hkCounted n).hkRecord n false 0 (d.hkNextCount n)).ru := (meHk_frame n _).part .ru (by simp)
  rw [hru]
  rfl

theorem hkMatched_me {e : Nat} (he : e < 8) : (d.hkMatched n).me e = { d.me e with hkNext := setBitAt (d.me e).hkNext n true } := by
  have hmes : ((d.hkCounted n).hkRecord n false 0 (d.hkNextCount n)).mes = d.mes := rfl
  rw [Dev.hkMatched, meHk_me _ _ he, me_of_mes hmes]

end

/-- What a match leaves, whatever it then does to CMP or EN. -/
structure Dev.HkMatch (d : Dev) (n : Nat) (e : Dev) : Prop where
  count : e.pair (HK_CNT_LO n) (HK_CNT_HI n) = d.hkNextCount n
  timer : e.hk n = { d.hk n with next := (d.hk n).next + d.get (HK_CTL_PRE n) + 1, cur := d.get (HK_CTL_PRE n) + 1 }
  others : ∀ m, m ≠ n → e.hk m = d.hk m
  record : e.ru.raised = d.ru.raised ++
    [{ typ := 0x11, sub := 0, src := n, orig := 4, at_ := d.stampNow, p0 := 0, p1 := d.hkNextCount n % 2 ^ 32, p2 := d.hkNextCount n >>> 32 }]
  engines : ∀ k < 8, bitAt (e.me k).hkNext n = true ∧ (e.me k).ports = (d.me k).ports ∧ (e.me k).hk = (d.me k).hk ∧
    ∀ b, b ≠ n → bitAt (e.me k).hkNext b = bitAt (d.me k).hkNext b

theorem hkMatch_of {d e : Dev} {n : Nat} {fs : List Fld} (h : Dev.Frame [] fs (d.hkMatched n) e)
    (hf : ∀ f ∈ fs, f.off = HK_CTL n ∨ f.off = HK_CMP_LO n ∨ f.off = HK_CMP_HI n) : d.HkMatch n e where
  count := by
    refine (h.pair _ _ ?_ ?_).trans (hkMatched_pair d n)
    all_goals
      intro f hm
      have := hf f hm
      exact .inl (by simp only [whole, HK_CNT_LO, HK_CNT_HI, HK_CTL, HK_CMP_LO, HK_CMP_HI] at *; omega)
  timer := (hk_of_hks ((h.part .hks (by simp)).trans (hkMatched_hks d n)) n).trans (hkCounted_hk d n)
  others m hm := (hk_of_hks ((h.part .hks (by simp)).trans (hkMatched_hks d n)) m).trans (hkCounted_hk_ne d n hm)
  record := (congrArg RecUnit.raised (h.part .ru (by simp))).trans (hkMatched_raised d n)
  engines k hk := by
    rw [me_of_mes (h.part .mes (by simp)) k, hkMatched_me d n hk]
    exact ⟨(bitAt_setBitAt _ _ _ _).trans (if_pos rfl), rfl, rfl, fun b hb => (bitAt_setBitAt _ _ _ _).trans (if_neg hb)⟩

/-! ## The command -/

theorem hkCount_idle {d : Dev} {n : Nat} (h : ¬ d.hkDue n) : d.hkCount Dev.meHk n = d := if_neg h

/-- R51, R60: a count, and what a match adds to it. -/
theorem hkCount_eq {d : Dev} {n : Nat} (h : d.hkDue n) : d.hkCount Dev.meHk n =
    if d.hkNextCount n = d.pair (HK_CMP_LO n) (HK_CMP_HI n) ∧ d.get (HK_CTL_MODE n) ≠ 0 then
      if d.get (HK_CTL_MODE n) = 1 then (d.hkMatched n).setPair (HK_CMP_LO n) (HK_CMP_HI n)
        ((d.pair (HK_CMP_LO n) (HK_CMP_HI n) + d.pair (HK_PER_LO n) (HK_PER_HI n)) % 2 ^ 64)
      else (d.hkMatched n).put (HK_CTL_EN n) 0
    else d.hkCounted n := by
  obtain ⟨hcmp, hmode⟩ := hkCounted_rest d n
  rw [← hcmp, ← hmode, ← hkMatched_per d n]
  unfold Dev.hkDue at h
  unfold Dev.hkCount
  rw [if_pos h]
  rfl

/-- Settles O24: what a count makes of the timer, and what a match adds, from the parts that each reaches; the engines' copies by their tick. -/
theorem housekeepingTimersCountAndMatch : Obligations.HousekeepingTimersCountAndMatch := by
  unfold Obligations.HousekeepingTimersCountAndMatch
  intro s n cnt cmp mode
  refine ⟨fun h => onDev_idle (f := fun d => d.hkCount Dev.meHk n) (hkCount_idle ?_), fun hr hen hnext => ?_, fun e => ⟨fun h => meHkCopy_odd h e,
    fun h k => meHkCopy_even h e k⟩, fun f => ⟨_, rfl, rfl, Tab.get_set_same _ _ _ _, ?_⟩⟩
  · rintro ⟨hr, hen, hnext⟩
    rcases h with h | h | h
    · rw [hr] at h; cases h
    · rw [hen] at h; cases h
    · omega
  · have hdo : exec (.hkCount n) s = onDev s (fun d => d.hkCount Dev.meHk n) := rfl
    have hd : s.dev.hkDue n := ⟨hr, hen, hnext⟩
    have hquiet {P : Prop} (hm : cnt = cmp ∧ mode ≠ 0) (h : cnt ≠ cmp ∨ mode = 0) : P := h.elim (fun h => absurd hm.1 h) (fun h => absurd h hm.2)
    by_cases hm : cnt = cmp ∧ mode ≠ 0
    · by_cases h1 : mode = 1
      · have heq := (hkCount_eq hd).trans ((if_pos hm).trans (if_pos h1))
        have hframe := Dev.setPair_frame (fs := [whole (HK_CMP_LO n), whole (HK_CMP_HI n)]) [] (s.dev.hkMatched n) (HK_CMP_LO n) (HK_CMP_HI n)
          ((cmp + s.dev.pair (HK_PER_LO n) (HK_PER_HI n)) % 2 ^ 64) (by simp) (by simp)
        have hmatch := hkMatch_of hframe (by simp [whole])
        exact ⟨_, hdo.trans (onDev_of heq), hmatch.count, hmatch.timer, hmatch.others, hquiet hm, fun _ _ => ⟨hmatch.record, hmatch.engines,
          fun _ => ⟨(Dev.pair_setPair _ _ (HK_CMP_LO_ne_HI n)).trans (Nat.mod_mod _ _),
            (((hkMatched_frame _ _).mono (by simp) (by simp)).trans (hframe.mono (by simp) (by simp))).lift⟩, fun h => absurd h1 h⟩⟩
      · have heq := (hkCount_eq hd).trans ((if_pos hm).trans (if_neg h1))
        have hframe := Dev.put_frame (fs := [HK_CTL_EN n]) [] (s.dev.hkMatched n) (HK_CTL_EN n) 0 (fit rfl) (by simp)
        have hmatch := hkMatch_of hframe (by simp [HK_CTL_EN])
        exact ⟨_, hdo.trans (onDev_of heq), hmatch.count, hmatch.timer, hmatch.others, hquiet hm, fun _ _ => ⟨hmatch.record, hmatch.engines,
          fun h => absurd h h1, fun _ => ⟨Dev.get_put_same _ _ _ (fit rfl),
            (((hkMatched_frame _ _).mono (by simp) (by simp)).trans (hframe.mono (by simp) (by simp))).lift⟩⟩⟩
    · have heq := (hkCount_eq hd).trans (if_neg hm)
      exact ⟨_, hdo.trans (onDev_of heq), hkCounted_pair _ _, hkCounted_hk _ _, fun m h => hkCounted_hk_ne _ _ h, fun _ => (hkCounted_frame _ _).lift,
        fun h1 h2 => absurd ⟨h1, h2⟩ hm⟩
  · exact ((Dev.latched_frame _ _ _ (by simp)).trans (Dev.emit_frame _ _ _ (by simp))).lift

end Sys2Proof.Machine
end

section
/-! PROOF. A field set to the value it holds, and an event on its way into the fault log (R434, R435). -/

namespace Sys2Proof.Machine

/-! ## A field that keeps its value -/

theorem putBits_bits (n lo w : Nat) : putBits n lo w (bits n lo w) = n := by
  have hle : bits n lo w * 2 ^ lo ≤ n :=
    calc bits n lo w * 2 ^ lo ≤ (n >>> lo) * 2 ^ lo := Nat.mul_le_mul_right _ (Nat.mod_le _ _)
      _ ≤ n := by rw [Nat.shiftRight_eq_div_pow]; exact Nat.div_mul_le_self _ _
  have hmod : bits n lo w % 2 ^ w = bits n lo w := Nat.mod_mod _ _
  rw [putBits, hmod]
  omega

theorem Dev.word_put_held {d : Dev} {f : Fld} {v : Nat} (h : d.get f = v) (o : Nat) : (d.put f v).word o = d.word o := by
  by_cases ho : o = f.off
  · rw [ho, Dev.put, Dev.word_setWord_same, ← h, Dev.get, putBits_bits, BitVec.ofNat_toNat, BitVec.setWidth_eq]
  · exact Dev.word_put_ne _ _ ho

/-- A field set to the value it holds leaves every field. -/
theorem Dev.put_held_frame (ps : List Part) (fs : List Fld) {d : Dev} {f : Fld} {v : Nat} (h : d.get f = v) : Dev.Frame ps fs d (d.put f v) :=
  fun _ => ⟨fun p _ => by cases p <;> rfl, fun g _ => congrArg (fun w : Word => bits w.toNat g.lo g.w) (Dev.word_put_held h g.off)⟩

/-! ## The fault log -/

theorem flogMerge_congr {d e : Dev} (hs : e.svc = d.svc) (ht : e.stime = d.stime) (a b : Nat) : e.flogMerge a b = d.flogMerge a b := by
  rw [Dev.flogMerge, Dev.flogMerge, hs, Dev.now, Dev.now, ht]

/-- R434: an event for the fault log takes no record away. -/
theorem flog_raised (d : Dev) (a b c e f : Nat) : d.ru.raised <+: (d.flog a b c e f).ru.raised := by
  unfold Dev.flog
  split
  · exact List.prefix_rfl
  · exact List.prefix_rfl
  · split
    · exact List.prefix_rfl
    · exact List.prefix_append _ _

/-- R434, R435: an event that is not merged enters the buffer where that has room. -/
theorem flog_enters {d : Dev} {a c : Nat} (b e f : Nat) (hm : d.flogMerge a c = none) (hl : d.svc.flBuf.length < 32) :
    ∃ x : FlEntry, (d.flog a b c e f).svc.flBuf = d.svc.flBuf ++ [x] ∧ x.code = a ∧ x.orig = b ∧ x.src = c ∧ x.time = d.now ∧ x.d0 = e ∧ x.d1 = f := by
  unfold Dev.flog
  rw [hm]
  dsimp only
  rw [if_pos hl]
  exact ⟨_, rfl, rfl, rfl, rfl, rfl, rfl, rfl⟩

theorem flog_get (d : Dev) (a b c e f : Nat) {g : Fld} (h : flogFields.all (fun x => x.isApart g) = true) : (d.flog a b c e f).get g = d.get g :=
  (Dev.flog_frame (ps := [.svc, .ru]) d a b c e f (by simp) (by simp) (fun _ h => h)).get g (apart_all h)

end Sys2Proof.Machine
end

section
/-! PROOF. The reference monitor (R34 to R36, R57). -/

namespace Sys2Proof.Machine

/-! ## The inputs' fields -/

theorem refOk_mem (x : Nat) : refOk x = TB_STATUS_REFA_OK ∨ refOk x = TB_STATUS_REFB_OK := by
  unfold refOk
  split
  · exact .inl rfl
  · exact .inr rfl

theorem refOk_fit (x : Nat) : (refOk x).lo + (refOk x).w ≤ 32 := by
  rcases refOk_mem x with h | h <;> rw [h] <;> decide

theorem refOk_w (x : Nat) : (refOk x).w = 1 := by
  rcases refOk_mem x with h | h <;> rw [h] <;> rfl

/-- The fields of the two inputs are apart. -/
theorem refOk_apart_ne {x y : Nat} (hx : x < 2) (hy : y < 2) (h : x ≠ y) : (refOk x).apart (refOk y) := by
  have hc : x = 0 ∧ y = 1 ∨ x = 1 ∧ y = 0 := by omega
  rcases hc with ⟨rfl, rfl⟩ | ⟨rfl, rfl⟩ <;> exact apart_of rfl

/-- A field apart from both inputs' fields. -/
theorem refOk_apart {g : Fld} (ha : TB_STATUS_REFA_OK.isApart g = true) (hb : TB_STATUS_REFB_OK.isApart g = true) (x : Nat) : (refOk x).apart g := by
  rcases refOk_mem x with h | h <;> rw [h]
  · exact apart_of ha
  · exact apart_of hb

theorem apart_refOk {fs : List Fld} (ha : fs.all (fun f => f.isApart TB_STATUS_REFA_OK) = true) (hb : fs.all (fun f => f.isApart TB_STATUS_REFB_OK) = true)
    (x : Nat) : ∀ f ∈ fs, f.apart (refOk x) := by
  rcases refOk_mem x with h | h <;> rw [h]
  · exact apart_all ha
  · exact apart_all hb

/-- R34: the number of the input in use. -/
theorem refActive_lt (d : Dev) : d.get TB_STATUS_REF_ACTIVE < 2 := Dev.get_lt _ _

/-! ## The switch to an input (R35) -/

section
variable (d : Dev) (x : Nat)

theorem refSwitch_frame : Dev.Frame [.ru, .svc] [TB_STATUS_REF_ACTIVE, TB_STATUS_REF_SWITCHED, SVC_FLOG_SEQ_SEQ, SVC_FLOG_LOST_CNT] d (d.refSwitch x) :=
  (Dev.put_frame _ _ _ _ (fit rfl) (by simp)).trans ((Dev.raise_frame _ _ _ (fit rfl) (by simp)).trans
    ((Dev.spineRecNow_frame _ _ _ _ _ _ _ _ (by simp)).trans (Dev.flog_frame _ _ _ _ _ _ (by simp) (by simp) (by simp [flogFields]))))

/-- R35: the switch shows in STATUS. -/
theorem refSwitch_shows (hx : x < 2) : (d.refSwitch x).get TB_STATUS_REF_ACTIVE = x ∧ (d.refSwitch x).get TB_STATUS_REF_SWITCHED = 1 := by
  constructor
  · rw [Dev.refSwitch, flog_get _ _ _ _ _ _ rfl, Dev.spineRecNow_get, Dev.raise, Dev.get_put_ne _ _ (fit rfl) (apart_of rfl), Dev.get_put_same _ _ _ (fit rfl)]
    exact Nat.mod_eq_of_lt hx
  · rw [Dev.refSwitch, flog_get _ _ _ _ _ _ rfl, Dev.spineRecNow_get, Dev.raise, Dev.get_put_same _ _ _ (fit rfl)]
    rfl

/-- R35: the record of a switch. -/
theorem refSwitch_record :
    d.ru.raised ++ [{ typ := 0x10, sub := 1, orig := 4, at_ := d.stampNow, p0 := x }] <+: (d.refSwitch x).ru.raised :=
  flog_raised (((d.put TB_STATUS_REF_ACTIVE x).raise TB_STATUS_REF_SWITCHED).spineRecNow 0x10 1 0 x 0 0) 0x20 4 0 0 x

/-- R35: the fault-log entry of a switch. -/
theorem refSwitch_logs (hm : d.flogMerge 0x20 0 = none) (hl : d.svc.flBuf.length < 32) :
    ∃ e : FlEntry, (d.refSwitch x).svc.flBuf = d.svc.flBuf ++ [e] ∧ e.code = 0x20 ∧ e.orig = 4 ∧ e.time = d.now ∧ e.d0 = 0 ∧ e.d1 = x := by
  obtain ⟨e, hbuf, hcode, horig, -, htime, h0, h1⟩ :=
    flog_enters (d := ((d.put TB_STATUS_REF_ACTIVE x).raise TB_STATUS_REF_SWITCHED).spineRecNow 0x10 1 0 x 0 0) 4 0 x hm hl
  exact ⟨e, hbuf, hcode, horig, htime, h0, h1⟩

end

/-! ## An input is lost (R35, R36) -/

theorem refDecide_same {d : Dev} (h : d.get TB_REFCFG_PRIMARY = d.tb.refPrim) : d.refDecide = d := if_pos h

/-- The device once input `x` is no longer OK. -/
def Dev.refGone (d : Dev) (x : Nat) : Dev :=
  let e := d.put (refOk x) 0
  { e with tb := { e.tb with refGood := Tab.set none e.tb.refGood x none } }

/-- R36: neither input is good: the timebase holds over. -/
def Dev.refHeld (d : Dev) : Dev :=
  ((d.raise TB_STATUS_HOLDOVER).spineRecNow 0x10 2 0 0 0 0).flog 0x20 4 0 1 (d.get TB_STATUS_REF_ACTIVE)

section
variable (d : Dev) (x : Nat)

theorem refGone_frame : Dev.Frame [.tb] [refOk x] d (d.refGone x) :=
  (Dev.put_frame _ _ _ _ (refOk_fit x) (by simp)).trans (Dev.tb_frame _ _ _ (by simp))

theorem refGone_ok : (d.refGone x).get (refOk x) = 0 := (Dev.get_put_same d _ _ (refOk_fit x)).trans (Nat.zero_mod _)

theorem refGone_ru : (d.refGone x).ru = d.ru := rfl

theorem refGone_svc : (d.refGone x).svc = d.svc := rfl

theorem refGone_stime : (d.refGone x).stime = d.stime := rfl

theorem refGone_stampNow : (d.refGone x).stampNow = d.stampNow := rfl

theorem refGone_again (h : d.flag (refOk x) = false) : Dev.Frame [.tb] [] d (d.refGone x) := by
  have h0 : d.get (refOk x) = 0 := by simpa [Dev.flag] using h
  exact (Dev.put_held_frame _ _ h0).trans (Dev.tb_frame _ _ _ (by simp))

/-- What the loss of an input leaves of STATUS. -/
theorem refGone_get {g : Fld} (ha : TB_STATUS_REFA_OK.isApart g = true) (hb : TB_STATUS_REFB_OK.isApart g = true) : (d.refGone x).get g = d.get g :=
  (refGone_frame d x).get g (by simpa using refOk_apart ha hb x)

theorem refGone_other {y : Nat} (hx : x < 2) (hy : y < 2) (h : x ≠ y) : (d.refGone x).get (refOk y) = d.get (refOk y) :=
  (refGone_frame d x).get _ (by simpa using refOk_apart_ne hx hy h)

theorem refHeld_frame : Dev.Frame [.ru, .svc] [TB_STATUS_HOLDOVER, SVC_FLOG_SEQ_SEQ, SVC_FLOG_LOST_CNT] d d.refHeld :=
  (Dev.raise_frame _ _ _ (fit rfl) (by simp)).trans ((Dev.spineRecNow_frame _ _ _ _ _ _ _ _ (by simp)).trans
    (Dev.flog_frame _ _ _ _ _ _ (by simp) (by simp) (by simp [flogFields])))

theorem refHeld_record : d.ru.raised ++ [{ typ := 0x10, sub := 2, orig := 4, at_ := d.stampNow }] <+: d.refHeld.ru.raised :=
  flog_raised ((d.raise TB_STATUS_HOLDOVER).spineRecNow 0x10 2 0 0 0 0) 0x20 4 0 1 (d.get TB_STATUS_REF_ACTIVE)

theorem refHeld_shows : d.refHeld.get TB_STATUS_HOLDOVER = 1 := by
  rw [Dev.refHeld, flog_get _ _ _ _ _ _ rfl, Dev.spineRecNow_get, Dev.raise, Dev.get_put_same _ _ _ (fit rfl)]
  rfl

end

/-- R35, R36: the loss of input `x`, where no new PRIMARY waits for a decision. -/
theorem refLost_eq {d : Dev} {x : Nat} (hx : x < 2) (hp : d.get TB_REFCFG_PRIMARY = d.tb.refPrim) : d.refLost x =
    if d.flag (refOk (1 - x)) then (if d.get TB_STATUS_REF_ACTIVE = x then (d.refGone x).refSwitch (1 - x) else d.refGone x)
    else if d.flag (refOk x) then (d.refGone x).refHeld else d.refGone x := by
  have hother : d.flag (refOk (1 - x)) = (d.refGone x).flag (refOk (1 - x)) := by
    rw [Dev.flag, Dev.flag, refGone_other d x hx (by omega) (by omega)]
  have hactive : d.get TB_STATUS_REF_ACTIVE = (d.refGone x).get TB_STATUS_REF_ACTIVE := (refGone_get d x rfl rfl).symm
  rw [hother, hactive, Dev.refLost, refDecide_same hp]
  rfl

/-! ## An input comes back (R35, R36) -/

/-- The device once input `x` is OK again and a holdover is over. -/
def Dev.refBack (d : Dev) (x : Nat) : Dev :=
  let e := d.raise (refOk x)
  let e := { e with tb := { e.tb with refGood := Tab.set none e.tb.refGood x (some e.tick) } }
  if e.flag TB_STATUS_HOLDOVER then e.put TB_STATUS_HOLDOVER 0 else e

section
variable (d : Dev) (x : Nat)

theorem refBack_frame : Dev.Frame [.tb] [refOk x, TB_STATUS_HOLDOVER] d (d.refBack x) :=
  ((Dev.raise_frame _ _ _ (refOk_fit x) (by simp)).trans (Dev.tb_frame _ _ _ (by simp))).trans
    (Dev.Frame.ite (fun _ => Dev.put_frame _ _ _ _ (fit rfl) (by simp)) (fun _ => Dev.Frame.refl _ _ _))

theorem refBack_ok : (d.refBack x).get (refOk x) = 1 := by
  have h1 : (d.raise (refOk x)).get (refOk x) = 1 := by
    rw [Dev.raise, Dev.get_put_same _ _ _ (refOk_fit x), refOk_w]
    rfl
  unfold Dev.refBack
  dsimp only
  split
  · exact (Dev.get_put_ne _ _ (fit rfl) (apart_refOk (fs := [TB_STATUS_HOLDOVER]) rfl rfl x _ (by simp))).trans h1
  · exact h1

theorem refBack_holdover : (d.refBack x).get TB_STATUS_HOLDOVER = 0 := by
  unfold Dev.refBack
  dsimp only
  split
  · exact Dev.get_put_same _ _ _ (fit rfl)
  · next h => simpa [Dev.flag] using h

theorem refBack_since : Tab.get none (d.refBack x).tb.refGood x = some d.tick := by
  have h1 : (d.refBack x).tb.refGood = Tab.set none d.tb.refGood x (some d.tick) := by
    unfold Dev.refBack
    dsimp only
    split <;> rfl
  rw [h1, Tab.get_set_same]

theorem refBack_get {g : Fld} (ha : TB_STATUS_REFA_OK.isApart g = true) (hb : TB_STATUS_REFB_OK.isApart g = true)
    (hh : TB_STATUS_HOLDOVER.isApart g = true) : (d.refBack x).get g = d.get g :=
  (refBack_frame d x).get g (by simpa using ⟨refOk_apart ha hb x, apart_of hh⟩)

end

/-- R35, R36: input `x` comes back, where no new PRIMARY waits for a decision. -/
theorem refReturn_eq {d : Dev} {x : Nat} (hx : x < 2) (hp : d.get TB_REFCFG_PRIMARY = d.tb.refPrim) (hok : d.flag (refOk x) = false) :
    d.refReturn x = if d.get TB_STATUS_REF_ACTIVE = x ∨ d.flag (refOk (d.get TB_STATUS_REF_ACTIVE)) then d.refBack x else (d.refBack x).refSwitch x := by
  have hactive : (d.refBack x).get TB_STATUS_REF_ACTIVE = d.get TB_STATUS_REF_ACTIVE := refBack_get d x rfl rfl rfl
  have hflag (h : d.get TB_STATUS_REF_ACTIVE ≠ x) :
      (d.refBack x).flag (refOk (d.get TB_STATUS_REF_ACTIVE)) = d.flag (refOk (d.get TB_STATUS_REF_ACTIVE)) := by
    have hne := (refBack_frame d x).get (refOk (d.get TB_STATUS_REF_ACTIVE))
      (by simpa using ⟨refOk_apart_ne hx (refActive_lt d) (Ne.symm h), apart_refOk (fs := [TB_STATUS_HOLDOVER]) rfl rfl _ _ (by simp)⟩)
    rw [Dev.flag, Dev.flag, hne]
  have heq : d.refReturn x = if (d.refBack x).get TB_STATUS_REF_ACTIVE = x ∨ (d.refBack x).flag (refOk ((d.refBack x).get TB_STATUS_REF_ACTIVE))
      then d.refBack x else (d.refBack x).refSwitch x := by
    rw [Dev.refReturn, refDecide_same hp, if_neg (by rw [hok]; simp)]
    rfl
  rw [heq, hactive]
  refine if_congr ?_ rfl rfl
  by_cases h : d.get TB_STATUS_REF_ACTIVE = x
  · simp [h]
  · rw [hflag h]

theorem refReturn_idle {d : Dev} {x : Nat} (hp : d.get TB_REFCFG_PRIMARY = d.tb.refPrim) (hok : d.flag (refOk x) = true) : d.refReturn x = d := by
  rw [Dev.refReturn, refDecide_same hp, if_pos hok]

/-! ## Decisions of the monitor (R35, R57) -/

theorem refRevert_same {d : Dev} {n : Nat} (hp : d.get TB_REFCFG_PRIMARY = d.tb.refPrim) (hg : Tab.get none d.tb.refGood (d.get TB_REFCFG_PRIMARY) = some n) :
    d.refRevert = if d.flag TB_REFCFG_REVERT ∧ d.get TB_STATUS_REF_ACTIVE ≠ d.get TB_REFCFG_PRIMARY ∧ d.flag (refOk (d.get TB_REFCFG_PRIMARY)) ∧
      n + 800000000 ≤ d.tick then d.refSwitch (d.get TB_REFCFG_PRIMARY) else d := by
  rw [Dev.refRevert, refDecide_same hp, hg]

/-- The device once its PRIMARY is known to the monitor. -/
def Dev.refSeen (d : Dev) : Dev := { d with tb := { d.tb with refPrim := d.get TB_REFCFG_PRIMARY } }

/-- R57: a PRIMARY that has been written comes into use where it is good, and REVERT then asks for nothing more. -/
theorem refRevert_new {d : Dev} (hp : d.get TB_REFCFG_PRIMARY ≠ d.tb.refPrim) (hok : d.flag (refOk (d.get TB_REFCFG_PRIMARY)) = true)
    (ha : d.get TB_STATUS_REF_ACTIVE ≠ d.get TB_REFCFG_PRIMARY) : d.refRevert = d.refSeen.refSwitch (d.get TB_REFCFG_PRIMARY) := by
  have hdecide : d.refDecide = d.refSeen.refSwitch (d.get TB_REFCFG_PRIMARY) := (if_neg hp).trans (if_pos ⟨ha, hok⟩)
  have hactive := (refSwitch_shows d.refSeen (d.get TB_REFCFG_PRIMARY) (Dev.get_lt _ _)).1
  have hprim : (d.refSeen.refSwitch (d.get TB_REFCFG_PRIMARY)).get TB_REFCFG_PRIMARY = d.get TB_REFCFG_PRIMARY :=
    (refSwitch_frame d.refSeen (d.get TB_REFCFG_PRIMARY)).get _ (apart_all rfl)
  rw [Dev.refRevert, hdecide]
  split
  · rfl
  · rw [if_neg]
    rintro ⟨-, hne, -⟩
    exact hne (hactive.trans hprim.symm)

/-! ## A write of REFCFG -/

theorem bits_congr {a b lo w : Nat} (h : ∀ i, lo ≤ i → i < lo + w → a.testBit i = b.testBit i) : bits a lo w = bits b lo w := by
  refine Nat.eq_of_testBit_eq fun i => ?_
  rw [bits, bits, Nat.testBit_mod_two_pow, Nat.testBit_mod_two_pow, Nat.testBit_shiftRight, Nat.testBit_shiftRight]
  by_cases hi : i < w
  · rw [h _ (by omega) (by omega)]
  · simp [hi]

/-- A write of the four low bits of a register: they are the value's, and those above stay. -/
theorem low4_testBit (a v : Word) (i : Nat) (hv : v &&& 0xF = v) :
    ((a &&& ~~~(0xF : Word)) ||| v).toNat.testBit i = if i < 4 then v.toNat.testBit i else a.toNat.testBit i := by
  have hmask : (0xF : Word).getLsbD i = decide (i < 4) := Nat.testBit_two_pow_sub_one 4 i
  have hlow : v.getLsbD i = (v.getLsbD i && decide (i < 4)) := by rw [← hmask, ← BitVec.getLsbD_and, hv]
  rw [BitVec.testBit_toNat, BitVec.testBit_toNat, BitVec.testBit_toNat, BitVec.getLsbD_or, BitVec.getLsbD_and, BitVec.getLsbD_not, hmask]
  by_cases h4 : i < 4
  · simp [h4]
  · rw [hlow]
    by_cases h32 : i < 32
    · simp [h4, h32]
    · have : a.getLsbD i = false := BitVec.getLsbD_of_ge _ _ (by omega)
      simp [h4, this]

theorem regWrite_REFCFG {d : Dev} {f : Fin 4} {v : Word} (h : d.takes (.fn f) TB_REFCFG = true) (hv : v &&& 0xF = v) :
    d.regWrite (.fn f) TB_REFCFG v = d.setWord TB_REFCFG ((d.word TB_REFCFG &&& ~~~(0xF : Word)) ||| v) := by
  have hw : w32 0xF = 0xF := rfl
  have h0 : w32 0x0 = 0#32 := rfl
  rw [regWrite_TB_REFCFG v (by simp) h hv, Dev.store]
  dsimp only
  rw [hw, h0, hv, BitVec.and_zero, BitVec.not_zero, BitVec.and_allOnes]

theorem REFCFG_frame (d : Dev) {v : Word} (hv : v &&& 0xF = v) :
    Dev.Frame [] [TB_REFCFG_REVERT, TB_REFCFG_PRIMARY, TB_REFCFG_FREQ] d (d.setWord TB_REFCFG ((d.word TB_REFCFG &&& ~~~(0xF : Word)) ||| v)) := by
  refine fun _ => ⟨fun p _ => by cases p <;> rfl, fun g hg => ?_⟩
  by_cases ho : g.off = TB_REFCFG
  · have h1 := hg TB_REFCFG_REVERT (by simp)
    have h2 := hg TB_REFCFG_PRIMARY (by simp)
    have h3 := hg TB_REFCFG_FREQ (by simp)
    simp only [Fld.apart, TB_REFCFG_REVERT, TB_REFCFG_PRIMARY, TB_REFCFG_FREQ, ho, ne_eq, not_true_eq_false, false_or] at h1 h2 h3
    show bits _ _ _ = bits _ _ _
    rw [ho, Dev.word_setWord_same]
    exact bits_congr fun i h4 h5 => (low4_testBit _ _ _ hv).trans (if_neg (by omega))
  · exact Dev.get_setWord_apart d _ (.inl (Ne.symm ho))

theorem REFCFG_get (d : Dev) {v : Word} (hv : v &&& 0xF = v) {g : Fld} (ho : g.off = TB_REFCFG) (h4 : g.lo + g.w ≤ 4) :
    (d.setWord TB_REFCFG ((d.word TB_REFCFG &&& ~~~(0xF : Word)) ||| v)).get g = bits v.toNat g.lo g.w := by
  rw [Dev.get, ho, Dev.word_setWord_same]
  exact bits_congr fun i _ h => (low4_testBit _ _ _ hv).trans (if_pos (by omega))

/-- Settles O20: the loss, the return and the decisions of the monitor by their cases, each from what the loss, the holdover or the switch leaves. -/
theorem referencesFailOverAndReturn : Obligations.ReferencesFailOverAndReturn := by
  unfold Obligations.ReferencesFailOverAndReturn
  intro s x ok
  have hx := x.isLt
  have hfs : ∀ f ∈ flogFields, f ∈ [TB_STATUS_REF_ACTIVE, TB_STATUS_REF_SWITCHED, SVC_FLOG_SEQ_SEQ, SVC_FLOG_LOST_CNT] := by simp [flogFields]
  refine ⟨fun hp => ⟨fun hok hno => ?_, fun hother hact => ?_, fun hok hother hact => ?_, fun hok hother => ?_, fun hok => ?_, fun hok => ?_,
    fun n hn => ⟨fun hno => ?_, fun hrev hact hpok hdue => ?_⟩⟩, fun hp hok hact => ?_, fun f v htakes hv => ?_⟩
  · refine ⟨{ s with dev := s.dev.refGone x }, onDev_of (f := fun d => d.refLost x) ?_, (refGone_again _ _ hok).lift⟩
    rw [refLost_eq hx hp, hok]
    rcases hno with hno | hno
    · simp [hno]
    · simp [show s.dev.get TB_STATUS_REF_ACTIVE ≠ x.val from hno]
  · have heq := (refLost_eq hx hp).trans ((if_pos hother).trans (if_pos hact))
    have hshow := refSwitch_shows (s.dev.refGone x) (1 - x) (by omega)
    have hframe := refSwitch_frame (s.dev.refGone x) (1 - x)
    have hgone : ((s.dev.refGone x).refSwitch (1 - x)).get (refOk x) = 0 := (hframe.get _ (apart_refOk rfl rfl x)).trans (refGone_ok _ _)
    have hstays : ((s.dev.refGone x).refSwitch (1 - x)).get (refOk (1 - x)) = 1 :=
      (hframe.get _ (apart_refOk rfl rfl _)).trans ((refGone_other _ _ hx (by omega) (by omega)).trans ((flag_iff_one (refOk_w _)).1 hother))
    have hrec := refSwitch_record (s.dev.refGone x) (1 - x)
    have hlog := refSwitch_logs (s.dev.refGone x) (1 - x)
    rw [refGone_ru, refGone_stampNow] at hrec
    rw [flogMerge_congr (refGone_svc _ _) (refGone_stime _ _), refGone_svc, now_of_stime (refGone_stime _ _)] at hlog
    exact ⟨_, onDev_of (f := fun d => d.refLost x) heq, hgone, hstays, hshow.1, hshow.2, hrec, hlog,
      (((refGone_frame _ _).mono (by simp) (by simp)).trans (hframe.mono (by simp) (by simp))).lift⟩
  · exact ⟨_, onDev_of (f := fun d => d.refLost x) ((refLost_eq hx hp).trans ((if_pos hother).trans (if_neg hact))), refGone_ok _ _, (refGone_frame _ _).lift⟩
  · have heq := (refLost_eq hx hp).trans ((if_neg (by rw [hother]; simp)).trans (if_pos hok))
    have hframe := refHeld_frame (s.dev.refGone x)
    have hrec := refHeld_record (s.dev.refGone x)
    rw [refGone_ru, refGone_stampNow] at hrec
    exact ⟨_, onDev_of (f := fun d => d.refLost x) heq, (hframe.get _ (apart_refOk rfl rfl x)).trans (refGone_ok _ _), refHeld_shows _,
      (hframe.get _ (apart_all rfl)).trans (refGone_get _ _ rfl rfl), hrec,
      (((refGone_frame _ _).mono (by simp) (by simp)).trans (hframe.mono (by simp) (by simp))).lift⟩
  · exact onDev_idle (f := fun d => d.refReturn x) (refReturn_idle hp hok)
  · have hback := refBack_frame s.dev x
    have hframe := refSwitch_frame (s.dev.refBack x) x
    by_cases hc : s.dev.get TB_STATUS_REF_ACTIVE = x ∨ s.dev.flag (refOk (s.dev.get TB_STATUS_REF_ACTIVE)) = true
    · have heq := (refReturn_eq hx hp hok).trans (if_pos hc)
      refine ⟨_, onDev_of (f := fun d => d.refReturn x) heq, refBack_ok _ _, refBack_holdover _ _, refBack_since _ _,
        fun _ => ⟨refBack_get _ _ rfl rfl rfl, hback.part .ru (by simp), hback.part .svc (by simp)⟩, fun h1 h2 => ?_, (hback.mono (by simp) (by simp)).lift⟩
      rcases hc with hc | hc
      · exact absurd hc h1
      · exact absurd (hc.symm.trans h2) (by simp)
    · have heq := (refReturn_eq hx hp hok).trans (if_neg hc)
      exact ⟨_, onDev_of (f := fun d => d.refReturn x) heq, (hframe.get _ (apart_refOk rfl rfl x)).trans (refBack_ok _ _),
        (hframe.get _ (apart_all rfl)).trans (refBack_holdover _ _),
        (congrArg (fun t : TbState => Tab.get none t.refGood x) (hframe.part .tb (by simp))).trans (refBack_since _ _), fun h => absurd h hc,
        fun _ _ => refSwitch_shows _ _ hx, ((hback.mono (by simp) (by simp)).trans (hframe.mono (by simp) (by simp))).lift⟩
  · refine onDev_idle (f := Dev.refRevert) ((refRevert_same hp hn).trans (if_neg ?_))
    rintro ⟨hrev, hact, -, hdue⟩
    rcases hno with hno | hno | hno
    · exact absurd (hrev.symm.trans hno) (by simp)
    · exact hact hno
    · simp only [msTicks] at hno
      omega
  · have heq := (refRevert_same hp hn).trans (if_pos ⟨hrev, hact, hpok, by simpa [msTicks] using hdue⟩)
    have hshow := refSwitch_shows s.dev (s.dev.get TB_REFCFG_PRIMARY) (Dev.get_lt _ _)
    exact ⟨_, onDev_of (f := Dev.refRevert) heq, hshow.1, hshow.2, refSwitch_record _ _, (refSwitch_frame _ _).lift⟩
  · have hshow := refSwitch_shows s.dev.refSeen (s.dev.get TB_REFCFG_PRIMARY) (Dev.get_lt _ _)
    have hframe := refSwitch_frame s.dev.refSeen (s.dev.get TB_REFCFG_PRIMARY)
    exact ⟨_, onDev_of (f := Dev.refRevert) (refRevert_new hp hok hact), congrArg TbState.refPrim (hframe.part .tb (by simp)), hshow.1, hshow.2,
      refSwitch_record s.dev.refSeen _, ((Dev.tb_frame _ _ _ (by simp)).trans (hframe.mono (by simp) (by simp))).lift⟩
  · exact ⟨_, onDev_of (f := fun d => d.regWrite (.fn f) TB_REFCFG v) (regWrite_REFCFG htakes hv), REFCFG_get _ hv rfl (by decide), REFCFG_get _ hv rfl (by decide),
      REFCFG_get _ hv rfl (by decide), (REFCFG_frame _ hv).lift⟩

end Sys2Proof.Machine
end

section
/-! PROOF. A step of STIME (R30, R31, R146, R404): what it changes, and its mark. -/

namespace Sys2Proof.Machine

section
variable {ps : List Part} {fs : List Fld} {d e : Dev}

theorem Dev.Frame.tick_eq (h : Dev.Frame ps fs d e) (hp : Part.tick ∉ ps) : e.tick = d.tick := h.part .tick hp

theorem Dev.Frame.stime_eq (h : Dev.Frame ps fs d e) (hp : Part.stime ∉ ps) : e.stime = d.stime := h.part .stime hp

theorem Dev.Frame.tb_eq (h : Dev.Frame ps fs d e) (hp : Part.tb ∉ ps) : e.tb = d.tb := h.part .tb hp

theorem Dev.Frame.ru_eq (h : Dev.Frame ps fs d e) (hp : Part.ru ∉ ps) : e.ru = d.ru := h.part .ru hp

end

theorem stampNow_congr {d e : Dev} (hs : e.stime = d.stime) (ht : e.tb = d.tb) : e.stampNow = d.stampNow := by
  rw [Dev.stampNow, Dev.stampNow, now_of_stime hs, Dev.inWindow, Dev.inWindow, ht]

theorem Dev.modGrp_frame {ps : List Part} (fs : List Fld) (d : Dev) (g : Nat) (f : Group → Group) (hp : Part.cmt ∈ ps) :
    Dev.Frame ps fs d (d.modGrp g f) :=
  fun _ => ⟨fun p hn => by cases p <;> first | rfl | exact absurd hp hn, fun _ _ => rfl⟩

theorem Dev.modSlice_frame {ps : List Part} (fs : List Fld) (d : Dev) (q : Nat) (f : Slice → Slice) (hp : Part.slices ∈ ps) :
    Dev.Frame ps fs d (d.modSlice q f) :=
  fun _ => ⟨fun p hn => by cases p <;> first | rfl | exact absurd hp hn, fun _ _ => rfl⟩

theorem grpSettle_frame (d : Dev) (g : Nat) : Dev.Frame [.cmt] [] d (d.grpSettle g) := by
  unfold Dev.grpSettle
  split
  · exact Dev.Frame.ite (fun _ => Dev.modGrp_frame _ _ _ _ (by simp)) (fun _ => Dev.Frame.refl _ _ _)
  · exact Dev.Frame.refl _ _ _

theorem strobedKeep_frame (d : Dev) : Dev.Frame [.cmt] [] d d.strobedKeep := forRange_frame _ _ _ 32 0 (fun g _ _ e => grpSettle_frame e g) d

theorem strobeLate_frame (d : Dev) : Dev.Frame [.cmt] [] d d.strobeLate := by
  refine forRange_frame _ _ _ 32 0 (fun g _ _ e => ?_) d
  split
  · exact Dev.Frame.ite (fun _ => Dev.modGrp_frame _ _ _ _ (by simp)) (fun _ => Dev.Frame.refl _ _ _)
  · exact Dev.Frame.refl _ _ _

/-- The slots of quadrant `q` that are due within 4 ticks keep the tick they are bound to, across a step from `old`. -/
def Dev.slotsKept (old q : Nat) (d : Dev) : Dev :=
  if (d.slice q).slots.isEmpty then d else d.modSlice q (fun s => { s with slots := s.slots.map (Slot.stepped old (d.now - old)) })

theorem slotsKept_frame (old q : Nat) (d : Dev) : Dev.Frame [.slices] [] d (Dev.slotsKept old q d) :=
  Dev.Frame.ite (fun _ => Dev.Frame.refl _ _ _) (fun _ => Dev.modSlice_frame _ _ _ _ (by simp))

/-- The device with another STIME. -/
def Dev.withStime (d : Dev) (v : DWord) : Dev := { d with stime := v }

/-- Across a step that goes forward the slots in the next 4 ticks are kept. -/
def Dev.slotsStepped (d : Dev) (old : Nat) : Dev := if old < d.now then forRange (Dev.slotsKept old) 0 4 d else d

section
variable (d : Dev) (v : DWord)

theorem slotsStepped_frame (old : Nat) : Dev.Frame [.slices] [] d (d.slotsStepped old) :=
  Dev.Frame.ite (fun _ => forRange_frame _ _ _ 4 0 (fun q _ _ e => slotsKept_frame _ q e) d) (fun _ => Dev.Frame.refl _ _ _)

theorem timeSet_slots : d.timeSet v = (d.withStime v).slotsStepped d.now := rfl

theorem timeSet_frame : Dev.Frame [.stime, .slices] [] d (d.timeSet v) :=
  (Dev.stime_frame _ _ _ (by simp)).trans ((slotsStepped_frame (d.withStime v) d.now).mono (by simp) (by simp))

theorem timeSet_stime : (d.timeSet v).stime = v := by
  rw [timeSet_slots, (slotsStepped_frame _ _).stime_eq (by simp)]
  rfl

theorem timeJump_frame : Dev.Frame [.stime, .cmt, .slices] [] d (d.timeJump v) := by
  unfold Dev.timeJump
  exact ((strobedKeep_frame d).mono (by simp) (by simp)).trans
    (((timeSet_frame d.strobedKeep v).mono (by simp) (by simp)).trans ((strobeLate_frame (d.strobedKeep.timeSet v)).mono (by simp) (by simp)))

theorem timeJump_stime : (d.timeJump v).stime = v := by
  rw [Dev.timeJump, (strobeLate_frame _).stime_eq (by simp), timeSet_stime]

/-- R30: the mark of a step. -/
theorem stepMark_frame (would : Nat) : Dev.Frame [.ru] [TB_STATUS_STEP, TB_STEPCNT_CNT] d (d.stepMark would) := by
  unfold Dev.stepMark
  exact (Dev.raise_frame _ _ _ (fit rfl) (by simp)).trans ((Dev.incWrap_frame _ _ _ (fit rfl) (by simp)).trans (Dev.ru_frame _ _ _ (by simp)))

theorem stepMark_flag (would : Nat) : (d.stepMark would).get TB_STATUS_STEP = 1 := by
  rw [Dev.stepMark, Dev.spineRec_get, Dev.incWrap, Dev.get_put_ne _ _ (fit rfl) (apart_of rfl), Dev.raise, Dev.get_put_same _ _ _ (fit rfl)]
  rfl

theorem stepMark_count (would : Nat) : (d.stepMark would).get TB_STEPCNT_CNT = (d.get TB_STEPCNT_CNT + 1) % 2 ^ 32 := by
  rw [Dev.stepMark, Dev.spineRec_get, Dev.incWrap, Dev.get_put_same _ _ _ (fit rfl), Dev.raise, Dev.get_put_ne _ _ (fit rfl) (apart_of rfl)]
  rfl

/-- R30: the record of a step, with the value that STIME would have held. -/
theorem stepMark_record (would : Nat) : (d.stepMark would).ru.raised = d.ru.raised ++
    [{ typ := 0x10, sub := 0, orig := 4, at_ := d.stampNow, p0 := would % 2 ^ 32, p1 := would >>> 32 }] := by
  have hstamp : ((d.raise TB_STATUS_STEP).incWrap TB_STEPCNT_CNT).stampNow = d.stampNow :=
    stampNow_congr (by simp [Dev.raise, Dev.incWrap]) (by simp [Dev.raise, Dev.incWrap])
  have hru : ((d.raise TB_STATUS_STEP).incWrap TB_STEPCNT_CNT).ru = d.ru := by simp [Dev.raise, Dev.incWrap]
  rw [Dev.stepMark]
  dsimp only [Dev.spineRec]
  rw [hstamp, hru]

theorem stimeStep_frame : Dev.Frame [.stime, .cmt, .slices, .ru] [TB_STATUS_STEP, TB_STEPCNT_CNT] d (d.stimeStep v) := by
  unfold Dev.stimeStep
  exact ((timeJump_frame d v).mono (by simp) (by simp)).trans ((stepMark_frame (d.timeJump v) _).mono (by simp) (by simp))

theorem stimeStep_stime : (d.stimeStep v).stime = v := by
  rw [Dev.stimeStep, (stepMark_frame _ _).stime_eq (by simp), timeJump_stime]

theorem stimeStep_flag : (d.stimeStep v).get TB_STATUS_STEP = 1 := by
  rw [Dev.stimeStep, stepMark_flag]

theorem stimeStep_count : (d.stimeStep v).get TB_STEPCNT_CNT = (d.get TB_STEPCNT_CNT + 1) % 2 ^ 32 := by
  rw [Dev.stimeStep, stepMark_count, (timeJump_frame d v).get _ (by simp)]

theorem stimeStep_record : (d.stimeStep v).ru.raised = d.ru.raised ++
    [{ typ := 0x10, sub := 0, orig := 4, at_ := { time := v.toNat, clkSw := d.inWindow }, p0 := d.now % 2 ^ 32, p1 := d.now >>> 32 }] := by
  have hstamp : (d.timeJump v).stampNow = { time := v.toNat, clkSw := d.inWindow } := by
    rw [Dev.stampNow, Dev.now, timeJump_stime, Dev.inWindow, (timeJump_frame d v).tb_eq (by simp), ← Dev.inWindow]
  rw [Dev.stimeStep, stepMark_record, hstamp, (timeJump_frame d v).ru_eq (by simp)]

end

end Sys2Proof.Machine
end

section
/-! PROOF. What generators have put off for a changeover (R38, R213): it is done once, and puts nothing off again. -/

namespace Sys2Proof.Machine

/-- What generator `x` has put off. -/
def Fe.putOff (x : Fe) : Bool × Bool × List (Nat × Nat × Nat) := (x.lateCopy, x.lateImm, x.lateStarts)

/-- From `d` to `e` generators have worked: time, the timebase and the registers below the quadrants' blocks stand, and nothing is put off
or done late. -/
structure Dev.FeWork (d e : Dev) : Prop where
  tick : e.tick = d.tick
  stime : e.stime = d.stime
  tb : e.tb = d.tb
  word : ∀ o, o < 0x10000 → e.word o = d.word o
  putOff : ∀ m, (e.fe m).putOff = (d.fe m).putOff

namespace Dev.FeWork

theorem refl (d : Dev) : Dev.FeWork d d := ⟨rfl, rfl, rfl, fun _ _ => rfl, fun _ => rfl⟩

theorem trans {d e f : Dev} (h : Dev.FeWork d e) (k : Dev.FeWork e f) : Dev.FeWork d f :=
  ⟨k.tick.trans h.tick, k.stime.trans h.stime, k.tb.trans h.tb, fun o ho => (k.word o ho).trans (h.word o ho), fun m => (k.putOff m).trans (h.putOff m)⟩

theorem ite {d a b : Dev} {c : Prop} [Decidable c] (ha : Dev.FeWork d a) (hb : Dev.FeWork d b) : Dev.FeWork d (if c then a else b) := by
  split
  · exact ha
  · exact hb

/-- A piece of work that is done or not. -/
theorem when {d e a : Dev} {c : Prop} [Decidable c] (h : Dev.FeWork d e) (ha : Dev.FeWork d e → Dev.FeWork d a) : Dev.FeWork d (if c then a else e) :=
  .ite (ha h) h

section
variable {d e : Dev} (h : Dev.FeWork d e)
include h

theorem then_put {f : Fld} (v : Nat) (hf : 0x10000 ≤ f.off) : Dev.FeWork d (e.put f v) :=
  h.trans ⟨rfl, rfl, rfl, fun _ ho => Dev.word_put_ne _ _ (by omega), fun _ => rfl⟩

theorem then_modFe {n : Nat} {f : Fe → Fe} (hf : ∀ x, (f x).putOff = x.putOff) : Dev.FeWork d (e.modFe n f) :=
  h.trans ⟨rfl, rfl, rfl, fun _ _ => rfl, fun m => by
    by_cases hm : m = n
    · rw [hm, Dev.fe_modFe_same, hf]
    · rw [Dev.fe_modFe_ne _ _ hm]⟩

theorem then_raiseRec (q s : Nat) (r : Rec) : Dev.FeWork d (e.raiseRec q s r) :=
  h.trans ⟨by simp, by simp, by simp, fun o _ => by rw [Dev.word, Dev.word, Dev.raiseRec_regs], fun m => by rw [Dev.fe, Dev.fe, Dev.raiseRec_fes]⟩

theorem then_raise {f : Fld} (hf : 0x10000 ≤ f.off) : Dev.FeWork d (e.raise f) := h.then_put 1 hf

theorem then_incSat {f : Fld} (hf : 0x10000 ≤ f.off) : Dev.FeWork d (e.incSat f) := h.then_put _ hf

theorem then_feRec (n k t : Nat) : Dev.FeWork d (e.feRec n k t) := h.then_raiseRec _ _ _

theorem then_foldl {β : Type} (f : Dev → β → Dev) (hf : ∀ c x, Dev.FeWork d c → Dev.FeWork d (f c x)) (l : List β) : Dev.FeWork d (l.foldl f e) :=
  List.foldlRecOn l f (motive := fun c => Dev.FeWork d c) h fun c hc x _ => hf c x hc

end

end Dev.FeWork

/-! ## The parts of the work -/

theorem FE_regs_ge (n : Nat) : 0x10000 ≤ FE_STATUS n ∧ 0x10000 ≤ FE_SUPCNT n ∧ 0x10000 ≤ FE_STRCNT n ∧ 0x10000 ≤ FE_IGNCNT n := by
  unfold FE_STATUS FE_SUPCNT FE_STRCNT FE_IGNCNT
  omega

section
variable {d e : Dev} (h : Dev.FeWork d e)
include h

theorem feCount_work (n : Nat) (a b : List Nat) : Dev.FeWork d (e.feCount n a b) := by
  obtain ⟨hs, hp, hr, -⟩ := FE_regs_ge n
  unfold Dev.feCount
  refine .then_foldl (.then_foldl h _ (fun c x hc => ?_) a) _ (fun c x hc => ?_) b
  · dsimp only
    have hcount := (hc.then_raise (f := FE_STATUS_SUPPRESSED n) hs).then_incSat (f := FE_SUPCNT_CNT n) hp
    exact .ite (hcount.then_feRec _ _ _) hcount
  · dsimp only
    have hcount := (hc.then_raise (f := FE_STATUS_STRETCHED n) hs).then_incSat (f := FE_STRCNT_CNT n) hr
    exact .ite (hcount.then_feRec _ _ _) hcount

theorem feCopy_work (n r : Nat) : Dev.FeWork d (e.feCopy n r) := by
  obtain ⟨hs, -⟩ := FE_regs_ge n
  unfold Dev.feCopy
  dsimp only
  refine .then_modFe (.ite (.then_raise ?_ hs) ?_) fun _ => rfl
  all_goals exact .ite h (h.then_put 0 hs)

theorem fePlan_work (n s : Nat) (ext : Bool) : Dev.FeWork d (e.fePlan n s ext) := by
  unfold Dev.fePlan
  dsimp only
  refine .ite ?_ ?_
  · refine feCount_work (feCount_work (.then_modFe h fun _ => ?_) _ _ _) _ _ _
    rfl
  · refine feCount_work (.then_modFe h fun _ => ?_) _ _ _
    rfl

theorem feFirst_work (n s t b r : Nat) : Dev.FeWork d (e.feFirst n s t b r) := by
  obtain ⟨hs, -⟩ := FE_regs_ge n
  unfold Dev.feFirst
  dsimp only
  refine fePlan_work (.then_modFe (feCopy_work (.then_raise h hs) n r) fun _ => ?_) _ _ _
  rfl

theorem feRestart_work (n s t b r : Nat) : Dev.FeWork d (e.feRestart n s t b r) := by
  unfold Dev.feRestart
  dsimp only
  refine .then_modFe (feCopy_work h n r) fun _ => ?_
  rfl

theorem feStartNow_work (n s t b r : Nat) : Dev.FeWork d (e.feStartNow n s t b r) := by
  obtain ⟨-, -, -, hi⟩ := FE_regs_ge n
  have hign (c : Bool) : Dev.FeWork d (if c = true then e.incSat (FE_IGNCNT_CNT n) else e) := .ite (h.then_put _ hi) h
  unfold Dev.feStartNow
  refine .ite (hign _) (.ite (.ite (hign _) (.ite ?_ ?_)) (.ite (.ite ?_ (hign _)) ?_))
  · exact feRestart_work (hign _) _ _ _ _ _
  · exact feFirst_work (hign _) _ _ _ _ _
  · exact feRestart_work (hign _) _ _ _ _ _
  · exact feFirst_work (hign _) _ _ _ _ _

end

theorem adv_putOff (x : Fe) (now : Nat) : (x.adv now).putOff = x.putOff := by
  unfold Fe.adv
  split <;> rfl

section
variable {d e : Dev} (h : Dev.FeWork d e)
include h

theorem feImmNow_work (n : Nat) : Dev.FeWork d (e.feImmNow n) := by
  obtain ⟨hs, -⟩ := FE_regs_ge n
  have hbegin := h.then_modFe (n := n) fun x => adv_putOff x ((e.tick + 1) * 64 + 63)
  unfold Dev.feImmNow
  dsimp only
  refine .ite ?_ ?_
  · refine fePlan_work (.then_modFe (.when hbegin fun hc => hc.then_raise hs) fun _ => ?_) _ _ _
    rfl
  · refine .when (.when (feCount_work (.then_modFe (.when (.when hbegin fun hc => hc.then_raise hs) fun hc => hc.then_raise hs) fun _ => ?_) _ _ _)
      fun hc => feCount_work hc _ _ _) fun hc => fePlan_work (hc.then_modFe fun _ => ?_) _ _ _
    · rfl
    · rfl

/-- R38: outside a window an IMM write is not put off. -/
theorem feImm_work (n : Nat) (hw : e.tb.window = none) : Dev.FeWork d (e.feImm n) := by
  have hin : ¬ e.inWindow = true := by rw [Dev.inWindow, hw]; simp
  unfold Dev.feImm
  rw [if_neg hin]
  exact .ite h (feImmNow_work h n)

end

/-! ## After the changeover -/

/-- The generator with nothing put off. -/
def Fe.settled (x : Fe) : Fe := { x with lateCopy := false, lateImm := false, lateStarts := [] }

/-- The generator has put nothing off. -/
def Dev.FeSettled (d : Dev) (n : Nat) : Prop := (d.fe n).lateCopy = false ∧ (d.fe n).lateImm = false ∧ (d.fe n).lateStarts = []

theorem feSettled_iff (d : Dev) (n : Nat) : d.FeSettled n ↔ (d.fe n).putOff = (false, false, []) := by
  simp [Dev.FeSettled, Fe.putOff]

theorem feAfterWindow_settled {d : Dev} {n : Nat} (h : d.FeSettled n) : Dev.feAfterWindow n d = d := by
  obtain ⟨hc, hi, hs⟩ := h
  exact if_pos ⟨by simp [hc], by simp [hi], hs⟩

/-- What a generator has put off is done with nothing put off. -/
theorem feAfterWindow_work (d : Dev) (n : Nat) (hw : d.tb.window = none) :
    d.FeSettled n ∨ Dev.FeWork (d.modFe n Fe.settled) (Dev.feAfterWindow n d) := by
  by_cases hs : d.FeSettled n
  · exact .inl hs
  · refine .inr ?_
    have hlate : ¬ (¬ (d.fe n).lateCopy = true ∧ ¬ (d.fe n).lateImm = true ∧ (d.fe n).lateStarts = []) := by simpa [Dev.FeSettled] using hs
    unfold Dev.feAfterWindow
    dsimp only
    rw [if_neg hlate]
    have hcopy : Dev.FeWork (d.modFe n Fe.settled) (if (d.fe n).lateCopy = true then (d.modFe n Fe.settled).feCopy n (d.modFe n Fe.settled).tick else d.modFe n Fe.settled) :=
      .when (.refl _) fun h => feCopy_work h _ _
    exact .then_foldl (.when hcopy fun h => feImm_work h n (by rw [h.tb]; exact hw)) _ (fun c x hc => feStartNow_work hc _ _ _ _ _) _

/-- From `d` to `e` the generators below `k` have done what they had put off. -/
structure Dev.FeSwept (d : Dev) (k : Nat) (e : Dev) : Prop where
  tick : e.tick = d.tick
  stime : e.stime = d.stime
  tb : e.tb = d.tb
  word : ∀ o, o < 0x10000 → e.word o = d.word o
  settled : ∀ m, m < k → e.FeSettled m

theorem feSwept_zero (d : Dev) : d.FeSwept 0 d := ⟨rfl, rfl, rfl, fun _ _ => rfl, fun m hm => absurd hm (Nat.not_lt_zero m)⟩

theorem feSwept_step {d e : Dev} {k : Nat} (hw : d.tb.window = none) (h : d.FeSwept k e) : d.FeSwept (k + 1) (Dev.feAfterWindow k e) := by
  rcases feAfterWindow_work e k (by rw [h.tb]; exact hw) with hs | hwork
  · rw [feAfterWindow_settled hs]
    exact ⟨h.tick, h.stime, h.tb, h.word, fun m hm => by
      by_cases hk : m = k
      · exact hk ▸ hs
      · exact h.settled m (by omega)⟩
  · refine ⟨hwork.tick.trans h.tick, hwork.stime.trans h.stime, hwork.tb.trans h.tb, fun o ho => (hwork.word o ho).trans (h.word o ho), fun m hm => ?_⟩
    rw [feSettled_iff, hwork.putOff]
    by_cases hk : m = k
    · rw [hk, Dev.fe_modFe_same]
      rfl
    · rw [Dev.fe_modFe_ne _ _ hk]
      exact (feSettled_iff _ _).1 (h.settled m (by omega))

/-- R38: after the changeover every generator has done what it had put off. -/
theorem forRange_feAfterWindow (d : Dev) (hw : d.tb.window = none) (n k : Nat) {e : Dev} (h : d.FeSwept k e) :
    d.FeSwept (k + n) (forRange Dev.feAfterWindow k n e) := by
  induction n generalizing k e with
  | zero => exact h
  | succ n ih =>
    rw [forRange, show k + (n + 1) = k + 1 + n by omega]
    exact ih (k + 1) (feSwept_step hw h)

end Sys2Proof.Machine
end

section
/-! PROOF. The two TCLK PLLs (R30, R37, R39, R49, R222, R516). -/

namespace Sys2Proof.Machine

/-! ## The changeover (R37) -/

/-- The device as the changeover's tick has passed: the window is closed, and a PLL that failed is being restarted. -/
def Dev.pllHeld (d : Dev) (commanded : Bool) : Dev :=
  { d with tick := d.tick + 1, tb := { d.tb with window := none, pllDown := if commanded then none else some d.tick } }

/-- The device once PLL `a` drives TCLK. -/
def Dev.pllDrives (d : Dev) (a : Nat) : Dev :=
  (((d.put TB_STATUS_PLL_ACTIVE a).raise TB_STATUS_PLL_SWITCHED).spineRecNow 0x10 3 0 a 0 0).flog 0x21 4 0 0 a

theorem pllSwitchover_eq {d : Dev} {c : Bool} (h : d.tb.window = some c) : d.pllSwitchover =
    (((d.pllHeld c).stimeStep (d.stime + 1)).pllDrives (1 - d.get TB_STATUS_PLL_ACTIVE)).recalTrigger := by
  unfold Dev.pllSwitchover
  rw [h]
  rfl

section
variable (d : Dev)

theorem pllHeld_frame (c : Bool) : Dev.Frame [.tick, .tb] [] d (d.pllHeld c) :=
  (Dev.tick_frame _ _ _ (by simp)).trans (Dev.tb_frame _ _ _ (by simp))

theorem pllDrives_frame (a : Nat) :
    Dev.Frame [.ru, .svc] [TB_STATUS_PLL_ACTIVE, TB_STATUS_PLL_SWITCHED, SVC_FLOG_SEQ_SEQ, SVC_FLOG_LOST_CNT] d (d.pllDrives a) := by
  unfold Dev.pllDrives
  exact (Dev.put_frame _ _ _ _ (fit rfl) (by simp)).trans ((Dev.raise_frame _ _ _ (fit rfl) (by simp)).trans
    ((Dev.spineRecNow_frame _ _ _ _ _ _ _ _ (by simp)).trans (Dev.flog_frame _ _ _ _ _ _ (by simp) (by simp) (by simp [flogFields]))))

theorem pllDrives_shows {a : Nat} (ha : a < 2) : (d.pllDrives a).get TB_STATUS_PLL_ACTIVE = a ∧ (d.pllDrives a).get TB_STATUS_PLL_SWITCHED = 1 := by
  constructor
  · rw [Dev.pllDrives, flog_get _ _ _ _ _ _ rfl, Dev.spineRecNow_get, Dev.raise, Dev.get_put_ne _ _ (fit rfl) (apart_of rfl), Dev.get_put_same _ _ _ (fit rfl)]
    exact Nat.mod_eq_of_lt ha
  · rw [Dev.pllDrives, flog_get _ _ _ _ _ _ rfl, Dev.spineRecNow_get, Dev.raise, Dev.get_put_same _ _ _ (fit rfl)]
    rfl

theorem pllDrives_record (a : Nat) :
    d.ru.raised ++ [{ typ := 0x10, sub := 3, orig := 4, at_ := d.stampNow, p0 := a }] <+: (d.pllDrives a).ru.raised :=
  flog_raised (((d.put TB_STATUS_PLL_ACTIVE a).raise TB_STATUS_PLL_SWITCHED).spineRecNow 0x10 3 0 a 0 0) 0x21 4 0 0 a

theorem recalTrigger_frame : Dev.Frame [.tb] [] d d.recalTrigger := Dev.tb_frame _ _ _ (by simp)

end

/-- What the changeover makes of the device. -/
structure Dev.PllSwitched (d : Dev) (c : Bool) (e : Dev) : Prop where
  tick : e.tick = d.tick + 1
  stime : e.stime = d.stime + 1
  step : e.get TB_STATUS_STEP = 1
  count : e.get TB_STEPCNT_CNT = (d.get TB_STEPCNT_CNT + 1) % 2 ^ 32
  active : e.get TB_STATUS_PLL_ACTIVE = 1 - d.get TB_STATUS_PLL_ACTIVE
  switched : e.get TB_STATUS_PLL_SWITCHED = 1
  tb : e.tb = { d.tb with window := none, pllDown := if c then none else some d.tick, recals := d.tb.recals ++ [d.tick + 1] }
  records : d.ru.raised ++ [{ typ := 0x10, sub := 0, orig := 4, at_ := { time := (d.stime + 1).toNat }, p0 := d.now % 2 ^ 32, p1 := d.now >>> 32 },
    { typ := 0x10, sub := 3, orig := 4, at_ := { time := (d.stime + 1).toNat }, p0 := 1 - d.get TB_STATUS_PLL_ACTIVE }] <+: e.ru.raised
  frame : Dev.Frame [.tick, .stime, .tb, .ru, .svc, .cmt, .slices]
    [TB_STATUS_STEP, TB_STEPCNT_CNT, TB_STATUS_PLL_ACTIVE, TB_STATUS_PLL_SWITCHED, SVC_FLOG_SEQ_SEQ, SVC_FLOG_LOST_CNT] d e

theorem pllSwitchover_switches {d : Dev} {c : Bool} (h : d.tb.window = some c) : d.PllSwitched c d.pllSwitchover := by
  obtain ⟨u, hu⟩ : ∃ u, u = d.pllHeld c := ⟨_, rfl⟩
  obtain ⟨a, ha⟩ : ∃ a, a = 1 - d.get TB_STATUS_PLL_ACTIVE := ⟨_, rfl⟩
  have hheld : Dev.Frame [.tick, .tb] [] d u := hu ▸ pllHeld_frame d c
  have htick : u.tick = d.tick + 1 := hu ▸ rfl
  have htb : u.tb = { d.tb with window := none, pllDown := if c then none else some d.tick } := hu ▸ rfl
  have hstep := stimeStep_frame u (d.stime + 1)
  have hdrives := pllDrives_frame (u.stimeStep (d.stime + 1)) a
  have hrecal := recalTrigger_frame ((u.stimeStep (d.stime + 1)).pllDrives a)
  have hshow := pllDrives_shows (u.stimeStep (d.stime + 1)) (a := a) (by omega)
  have hstime : (u.stimeStep (d.stime + 1)).stime = d.stime + 1 := stimeStep_stime _ _
  have hstamp : (u.stimeStep (d.stime + 1)).stampNow = { time := (d.stime + 1).toNat } := by
    rw [Dev.stampNow, Dev.now, hstime, Dev.inWindow, hstep.tb_eq (by simp), htb]
    rfl
  have hrec := pllDrives_record (u.stimeStep (d.stime + 1)) a
  rw [stimeStep_record, hstamp, hheld.ru_eq (by simp), now_of_stime (hheld.stime_eq (by simp)), Dev.inWindow, htb, List.append_assoc] at hrec
  rw [pllSwitchover_eq h, ← hu, ← ha]
  refine ⟨?_, ?_, ?_, ?_, ?_, ?_, ?_, ?_, ?_⟩
  · rw [hrecal.tick_eq (by simp), hdrives.tick_eq (by simp), hstep.tick_eq (by simp), htick]
  · rw [hrecal.stime_eq (by simp), hdrives.stime_eq (by simp), hstime]
  · rw [hrecal.get _ (by simp), hdrives.get _ (apart_all rfl), stimeStep_flag]
  · rw [hrecal.get _ (by simp), hdrives.get _ (apart_all rfl), stimeStep_count, hheld.get _ (by simp)]
  · rw [hrecal.get _ (by simp), hshow.1, ha]
  · rw [hrecal.get _ (by simp), hshow.2]
  · rw [Dev.recalTrigger, hdrives.tb_eq (by simp), hdrives.tick_eq (by simp), hstep.tb_eq (by simp), hstep.tick_eq (by simp), htb, htick]
  · rw [hrecal.ru_eq (by simp)]
    exact ha ▸ hrec
  · exact ((hheld.mono (by simp) (by simp)).trans (hstep.mono (by simp) (by simp))).trans
      ((hdrives.mono (by simp) (by simp)).trans (hrecal.mono (by simp) (by simp)))

/-! ## Faults, restarts and the stop (R37, R39, R222) -/

/-- R37: a standby is there and no changeover runs. -/
def Dev.pllReady (d : Dev) : Prop := d.tb.running = true ∧ d.flag TB_STATUS_PLL_SINGLE = false ∧ d.tb.pllDown = none ∧ d.tb.window = none

theorem pllReady_iff (d : Dev) : d.pllReady ↔ d.tb.running ∧ ¬ d.flag TB_STATUS_PLL_SINGLE ∧ d.tb.pllDown = none ∧ ¬ d.inWindow := by
  simp [Dev.pllReady, Dev.inWindow]

theorem pllFault_opens {d : Dev} (h : d.pllReady ∨ d.tb.window = some true) : d.pllFault = { d with tb := { d.tb with window := some false } } := by
  unfold Dev.pllFault
  by_cases hr : d.pllReady
  · exact if_pos ((pllReady_iff d).1 hr)
  · rw [if_neg (fun c => hr ((pllReady_iff d).2 c)), h.resolve_left hr]

theorem pllFault_idle {d : Dev} (hr : ¬ d.pllReady) (hw : d.tb.window ≠ some true) : d.pllFault = d := by
  unfold Dev.pllFault
  rw [if_neg (fun c => hr ((pllReady_iff d).2 c))]
  split
  · next h => exact absurd h hw
  · rfl

theorem tbSwitch_opens {d : Dev} (h : d.pllReady) : d.tbSwitch = { d with tb := { d.tb with window := some true } } := if_pos ((pllReady_iff d).1 h)

theorem tbSwitch_idle {d : Dev} (h : ¬ d.pllReady) : d.tbSwitch = d := if_neg fun c => h ((pllReady_iff d).2 c)

theorem tbRetry_restarts {d : Dev} (hs : d.flag TB_STATUS_PLL_SINGLE = true) (hd : d.tb.pllDown = none) :
    d.tbRetry = { d with tb := { d.tb with pllDown := some d.tick } } := if_pos ⟨hs, hd⟩

theorem tbRetry_idle {d : Dev} (h : d.flag TB_STATUS_PLL_SINGLE = false ∨ d.tb.pllDown ≠ none) : d.tbRetry = d := by
  refine if_neg ?_
  rintro ⟨hs, hd⟩
  rcases h with h | h
  · rw [hs] at h; cases h
  · exact h hd

/-- R516: TB.CTL with one command. -/
theorem tbCtl_switch (d : Dev) : d.tbCtl 4 = d.tbSwitch := by
  by_cases hs : d.flag TB_STATUS_PLL_SINGLE = true
  · rw [tbSwitch_idle fun ⟨_, hc, _⟩ => by rw [hs] at hc; cases hc]
    simp [Dev.tbCtl, bitAt, hs]
  · simp [Dev.tbCtl, bitAt, hs]

theorem tbCtl_retry (d : Dev) : d.tbCtl 2 = d.tbRetry := by
  by_cases hs : d.flag TB_STATUS_PLL_SINGLE = true
  · simp [Dev.tbCtl, bitAt, hs]
  · rw [tbRetry_idle (.inl (by simpa using hs))]
    simp [Dev.tbCtl, bitAt, hs]

theorem tbCtl_recal (d : Dev) : d.tbCtl 1 = d.recalTrigger := by
  simp [Dev.tbCtl, bitAt]

/-- R516: a write of TB.CTL acts at once while TCLK is stopped. -/
theorem regWrite_TB_CTL_stopped {d : Dev} {w : Writer} (v : Word) (hw : w ≠ .commit) (h : d.takes w TB_CTL = true) (hr : d.tb.running = false)
    (hv : v &&& 0x7 = v) : d.regWrite w TB_CTL v = d.tbCtl v.toNat := by
  have hmask : w32 (0x0 ||| 0x0 ||| 0x7) = (0x7 : Word) := by decide
  refine (Dev.regWrite_spine v h locate_TB_CTL (by decide) (by show Gid.tb ≠ _; decide) rfl rfl
    (rsvBits_zero (m := 0x7) (show w32 (0x0 ||| 0x0 ||| 0x0 ||| 0x7) = (0x7 : Word) from by decide) hv) (by simp [Dev.isLate, lateReg, hw, hr])).trans ?_
  show d.spineWrite w.func ⟨.tb, 0, 0, 0, _⟩ _ (v &&& w32 (0x0 ||| 0x0 ||| 0x7)) = _
  rw [hmask, hv]
  simp only [Dev.spineWrite]

/-! ## The failed PLL (R39) -/

theorem pllRestored_none {d : Dev} (h : d.tb.pllDown = none) : d.pllRestored = d := by
  unfold Dev.pllRestored
  rw [h]

theorem pllSingle_none {d : Dev} (h : d.tb.pllDown = none) : d.pllSingle = d := by
  unfold Dev.pllSingle
  rw [h]

/-- The device without a failed PLL that is being restarted. -/
def Dev.pllUp (d : Dev) : Dev := { d with tb := { d.tb with pllDown := none } }

theorem pllRestored_eq {d : Dev} {n : Nat} (h : d.tb.pllDown = some n) :
    d.pllRestored = if n + msTicks 10 ≤ d.tick then d.pllUp.put TB_STATUS_PLL_SINGLE 0 else d := by
  unfold Dev.pllRestored
  rw [h]
  rfl

/-- R39: the timebase goes on with one PLL. -/
def Dev.pllOne (d : Dev) : Dev :=
  let e := d.pllUp.raise TB_STATUS_PLL_SINGLE
  if d.flag TB_STATUS_PLL_SINGLE then e else e.spineRecNow 0x10 4 0 0 0 0

theorem pllSingle_eq {d : Dev} {n : Nat} (h : d.tb.pllDown = some n) :
    d.pllSingle = if n + msTicks 100 ≤ d.tick then d.pllOne.flog 0x21 4 0 1 (d.pllOne.get TB_STATUS_PLL_ACTIVE) else d := by
  unfold Dev.pllSingle Dev.pllOne
  rw [h]
  dsimp only
  by_cases hs : d.flag TB_STATUS_PLL_SINGLE = true
  · simp only [hs, Bool.not_true, Bool.false_eq_true, if_false, if_true]
    rfl
  · simp only [hs, Bool.not_false, if_true]
    rfl

section
variable (d : Dev)

theorem pllOne_frame : Dev.Frame [.tb, .ru] [TB_STATUS_PLL_SINGLE] d d.pllOne := by
  have h : Dev.Frame [.tb, .ru] [TB_STATUS_PLL_SINGLE] d (d.pllUp.raise TB_STATUS_PLL_SINGLE) :=
    (Dev.tb_frame _ _ _ (by simp)).trans (Dev.raise_frame _ _ _ (fit rfl) (by simp))
  exact Dev.Frame.ite (fun _ => h) (fun _ => h.trans (Dev.spineRecNow_frame _ _ _ _ _ _ _ _ (by simp)))

theorem pllOne_single : d.pllOne.get TB_STATUS_PLL_SINGLE = 1 := by
  have h : (d.pllUp.raise TB_STATUS_PLL_SINGLE).get TB_STATUS_PLL_SINGLE = 1 := Dev.get_put_same _ _ _ (fit rfl)
  unfold Dev.pllOne
  dsimp only
  split
  · exact h
  · exact h

theorem pllOne_tb : d.pllOne.tb = { d.tb with pllDown := none } := by
  unfold Dev.pllOne
  dsimp only
  split <;> rfl

theorem pllOne_svc : d.pllOne.svc = d.svc := by
  unfold Dev.pllOne
  dsimp only
  split <;> rfl

theorem pllOne_record (h : d.flag TB_STATUS_PLL_SINGLE = false) :
    d.pllOne.ru.raised = d.ru.raised ++ [{ typ := 0x10, sub := 4, orig := 4, at_ := d.stampNow }] := by
  have hstamp : (d.pllUp.raise TB_STATUS_PLL_SINGLE).stampNow = d.stampNow := rfl
  have hru : (d.pllUp.raise TB_STATUS_PLL_SINGLE).ru = d.ru := rfl
  unfold Dev.pllOne
  dsimp only
  rw [if_neg (by rw [h]; simp), Dev.spineRecNow, Dev.spineRec]
  dsimp only
  rw [hstamp, hru]

end

/-- R222: the timebase runs on its last PLL. -/
def Dev.pllLast (d : Dev) : Prop := d.tb.running = true ∧ (d.flag TB_STATUS_PLL_SINGLE = true ∨ d.tb.pllDown ≠ none)

/-- The device once TCLK has stopped. -/
def Dev.tclkDown (d : Dev) : Dev :=
  (({ d with tb := { d.tb with running := false } }).put TB_STATUS_TCLK_LOCK 0).raise SVC_CLKSTAT_TCLK_LOST

theorem tclkStop_idle {d : Dev} (h : ¬ d.pllLast) : d.tclkStop = d := if_neg h

theorem tclkStop_eq {d : Dev} (h : d.pllLast) : d.tclkStop = (d.tclkDown.flog 0x22 4 0 0 0).spineRecNow 0x14 0x06 0 0 0 0 := if_pos h

theorem tclkDown_frame (d : Dev) : Dev.Frame [.tb] [TB_STATUS_TCLK_LOCK, SVC_CLKSTAT_TCLK_LOST] d d.tclkDown :=
  (Dev.tb_frame _ _ _ (by simp)).trans ((Dev.put_frame _ _ _ _ (fit rfl) (by simp)).trans (Dev.raise_frame _ _ _ (fit rfl) (by simp)))

theorem tclkDown_shows (d : Dev) : d.tclkDown.get TB_STATUS_TCLK_LOCK = 0 ∧ d.tclkDown.get SVC_CLKSTAT_TCLK_LOST = 1 := by
  constructor
  · rw [Dev.tclkDown, Dev.raise, Dev.get_put_ne _ _ (fit rfl) (apart_of rfl), Dev.get_put_same _ _ _ (fit rfl)]
    rfl
  · rw [Dev.tclkDown, Dev.raise, Dev.get_put_same _ _ _ (fit rfl)]
    rfl

/-- Settles O21: the faults, commands and restarts by their conditions; the changeover by what its tick, its step and its new PLL leave, and what
generators put off by the sweep that follows. -/
theorem pllsSwitchOverRestoreAndStop : Obligations.PllsSwitchOverRestoreAndStop := by
  unfold Obligations.PllsSwitchOverRestoreAndStop
  intro s ready
  refine ⟨fun h => onDev_of (f := Dev.pllFault) (pllFault_opens h), fun hr hw => onDev_idle (f := Dev.pllFault) (pllFault_idle hr hw), fun hw => ?_,
    fun c hw => ?_, fun hd => ⟨onDev_idle (f := Dev.pllRestored) (pllRestored_none hd), onDev_idle (f := Dev.pllSingle) (pllSingle_none hd)⟩,
    fun n hd => ⟨fun ht => ?_, fun ht => ?_, fun ht => ?_, fun ht => ?_⟩, ⟨fun hl => onDev_idle (f := Dev.tclkStop) (tclkStop_idle hl), fun hl => ?_⟩,
    fun f ht => ?_, fun f hr ht => ?_⟩
  · exact onDev_idle (f := fun d => if d.inWindow then forRange Dev.feAfterWindow 0 256 d.pllSwitchover else d) (if_neg (by simp [Dev.inWindow, hw]))
  · have hsw := pllSwitchover_switches hw
    have hnone : s.dev.pllSwitchover.tb.window = none := by rw [hsw.tb]
    obtain ⟨e, he⟩ : ∃ e, forRange Dev.feAfterWindow 0 256 s.dev.pllSwitchover = e := ⟨_, rfl⟩
    have hswept : s.dev.pllSwitchover.FeSwept (0 + 256) e := he ▸ forRange_feAfterWindow _ hnone 256 0 (feSwept_zero _)
    have hget (g : Fld) (hg : g.off < 0x10000) : e.get g = s.dev.pllSwitchover.get g := by
      rw [Dev.get, Dev.get, hswept.word _ hg]
    have hdo : exec .pllSwitchover s = .next { s with dev := e } :=
      onDev_of (f := fun d => if d.inWindow then forRange Dev.feAfterWindow 0 256 d.pllSwitchover else d)
        ((if_pos (by simp [Dev.inWindow, hw])).trans he)
    refine ⟨_, hdo, hswept.tick.trans hsw.tick, hswept.stime.trans hsw.stime, (hget TB_STATUS_STEP (by decide)).trans hsw.step,
      (hget TB_STEPCNT_CNT (by decide)).trans hsw.count, (hget TB_STATUS_PLL_ACTIVE (by decide)).trans hsw.active,
      (hget TB_STATUS_PLL_SWITCHED (by decide)).trans hsw.switched, fun n hn => hswept.settled n (by omega), fun hs => ?_⟩
    have hfes : s.dev.pllSwitchover.fes = s.dev.fes := hsw.frame.part .fes (by simp)
    have hsame : e = s.dev.pllSwitchover :=
      he.symm.trans (forRange_eq_self 256 fun n _ hn => feAfterWindow_settled (by
        rw [Dev.FeSettled, Dev.fe, hfes]
        exact hs n (by omega)))
    rw [hsame]
    exact ⟨hsw.tb, hsw.records, hsw.frame.lift⟩
  · exact onDev_idle (f := Dev.pllRestored) ((pllRestored_eq hd).trans (if_neg (by simp only [msTicks]; omega)))
  · exact onDev_idle (f := Dev.pllSingle) ((pllSingle_eq hd).trans (if_neg (by simp only [msTicks]; omega)))
  · exact ⟨_, onDev_of (f := Dev.pllRestored) ((pllRestored_eq hd).trans (if_pos (by simp only [msTicks]; omega))), rfl, Dev.get_put_same _ _ _ (fit rfl),
      ((Dev.tb_frame _ _ _ (by simp)).trans (Dev.put_frame _ _ _ _ (fit rfl) (by simp))).lift⟩
  · have hone := pllOne_frame s.dev
    have hlog := Dev.flog_frame (ps := [.tb, .ru, .svc]) (fs := [TB_STATUS_PLL_SINGLE, SVC_FLOG_SEQ_SEQ, SVC_FLOG_LOST_CNT]) s.dev.pllOne 0x21 4 0 1
      (s.dev.pllOne.get TB_STATUS_PLL_ACTIVE) (by simp) (by simp) (by simp [flogFields])
    refine ⟨_, onDev_of (f := Dev.pllSingle) ((pllSingle_eq hd).trans (if_pos (by simp only [msTicks]; omega))), (Dev.flog_tb _ _ _ _ _ _).trans (pllOne_tb s.dev),
      (flog_get _ _ _ _ _ _ rfl).trans (pllOne_single s.dev), fun hs => ?_, fun hm hl => ?_, ((hone.mono (by simp) (by simp)).trans hlog).lift⟩
    · have hrec := flog_raised s.dev.pllOne 0x21 4 0 1 (s.dev.pllOne.get TB_STATUS_PLL_ACTIVE)
      rwa [pllOne_record _ hs] at hrec
    · have hactive : s.dev.pllOne.get TB_STATUS_PLL_ACTIVE = s.dev.get TB_STATUS_PLL_ACTIVE := hone.get _ (apart_all rfl)
      have hsvc := pllOne_svc s.dev
      obtain ⟨e, hbuf, hcode, -, -, -, h0, h1⟩ := flog_enters (d := s.dev.pllOne) 4 1 (s.dev.pllOne.get TB_STATUS_PLL_ACTIVE)
        ((flogMerge_congr hsvc (hone.stime_eq (by simp)) 0x21 0).trans hm) (by rw [hsvc]; exact hl)
      exact ⟨e, by rw [hbuf, hsvc], hcode, h0, h1.trans hactive⟩
  · have hdown := tclkDown_frame s.dev
    obtain ⟨hlock, hlost⟩ := tclkDown_shows s.dev
    refine ⟨_, onDev_of (f := Dev.tclkStop) (tclkStop_eq hl), Dev.flog_tb _ _ _ _ _ _, (flog_get _ _ _ _ _ _ rfl).trans hlock,
      (flog_get _ _ _ _ _ _ rfl).trans hlost, (Dev.flog_stime _ _ _ _ _ _).trans (hdown.stime_eq (by simp)), ?_, ?_⟩
    · exact ⟨_, List.mem_append_right _ (List.mem_singleton_self _), rfl, rfl, rfl⟩
    · exact ((hdown.mono (by simp) (by simp)).trans ((Dev.flog_frame _ _ _ _ _ _ (by simp) (by simp) (by simp [flogFields])).trans
        (Dev.spineRecNow_frame _ _ _ _ _ _ _ _ (by simp)))).lift
  · have hlands (v : Word) (e : Dev) (hv : v &&& 0x7 = v) (he : s.dev.tbCtl v.toNat = e) :
        ∃ u, onDev s (fun d => d.regWrite (.fn f) TB_CTL v) = .next u ∧ lands s u { s with dev := e } := by
      obtain ⟨hwaits, hland⟩ := lands_TB_CTL (w := .fn f) v (by simp [Writer.rank]) ht hv
      refine ⟨_, onDev_of hwaits, (Dev.late_frame _ _ _ (by simp)).lift, ?_⟩
      rw [State.landed, hland, he]
    refine ⟨fun hr => hlands 4 _ (by decide) ((tbCtl_switch _).trans (tbSwitch_opens hr)), fun hr => hlands 4 s.dev (by decide) ((tbCtl_switch _).trans (tbSwitch_idle hr)),
      fun hs hd => hlands 2 _ (by decide) ((tbCtl_retry _).trans (tbRetry_restarts hs hd)), fun hn => hlands 2 s.dev (by decide) ((tbCtl_retry _).trans (tbRetry_idle hn)),
      hlands 1 _ (by decide) (tbCtl_recal _)⟩
  · have hacts (v : Word) (hv : v &&& 0x7 = v) : onDev s (fun d => d.regWrite (.fn f) TB_CTL v) = .next { s with dev := s.dev.tbCtl v.toNat } :=
      onDev_of (regWrite_TB_CTL_stopped v (by simp) ht hr hv)
    have hstop : ¬ s.dev.pllReady := fun ⟨hrun, _⟩ => by rw [hr] at hrun; cases hrun
    refine ⟨(hacts 4 (by decide)).trans ?_, fun hs hd => (hacts 2 (by decide)).trans ?_, fun hn => (hacts 2 (by decide)).trans ?_, (hacts 1 (by decide)).trans ?_⟩
    · rw [show (4 : Word).toNat = 4 from rfl, tbCtl_switch, tbSwitch_idle hstop]
    · rw [show (2 : Word).toNat = 2 from rfl, tbCtl_retry, tbRetry_restarts hs hd]
    · rw [show (2 : Word).toNat = 2 from rfl, tbCtl_retry, tbRetry_idle hn]
    · rw [show (1 : Word).toNat = 1 from rfl, tbCtl_recal]
      rfl

end Sys2Proof.Machine
end

section
/-! PROOF. STIME and its lock, the frames sent on SYNC_OUT, and the measurement of ACLK (R29, R32, R40, R52). -/

namespace Sys2Proof.Machine

/-! ## The lock of TCLK (R29, R455) -/

theorem sealTell_frame (latched : Bool) (cnt : Nat) (d : Dev) : Dev.Frame [.svc, .ru] [SVC_FLOG_SEQ_SEQ, SVC_FLOG_LOST_CNT] d (d.sealTell latched cnt) := by
  unfold Dev.sealTell
  exact (Dev.flog_frame _ _ _ _ _ _ (by simp) (by simp) (by simp [flogFields])).trans (Dev.spineRecNow_frame _ _ _ _ _ _ _ _ (by simp))

/-- The device with no opening of the seal loop to report. -/
def Dev.sealClear (d : Dev) : Dev := { d with pw := { d.pw with sealLatched := 0 } }

theorem sealReport_frame (d : Dev) : Dev.Frame [.svc, .ru] [SVC_FLOG_SEQ_SEQ, SVC_FLOG_LOST_CNT] d.sealClear d.sealReport := by
  unfold Dev.sealReport
  exact forRange_frame _ _ _ d.pw.sealLatched 0 (fun _ _ _ e => sealTell_frame _ _ e) _

theorem sealReport_none {d : Dev} (h : d.pw.sealLatched = 0) : d.sealReport = d.sealClear := by
  unfold Dev.sealReport
  rw [h]
  rfl

/-- The device as TCLK locks, before the report. -/
def Dev.tclkStarts (d : Dev) : Dev := ({ d with tick := 0, stime := 0, tb := { d.tb with running := true } } : Dev).raise TB_STATUS_TCLK_LOCK

theorem tclkStarts_frame (d : Dev) : Dev.Frame [.tick, .stime, .tb] [TB_STATUS_TCLK_LOCK] d d.tclkStarts :=
  (Dev.tick_frame _ d 0 (by simp)).trans ((Dev.stime_frame _ _ 0 (by simp)).trans ((Dev.tb_frame _ _ { d.tb with running := true } (by simp)).trans
    (Dev.raise_frame _ _ _ (fit rfl) (by simp))))

theorem tclkLock_idle {d : Dev} (h : d.tb.running = true) : d.tclkLock = d := if_pos (by simp [h])

theorem tclkLock_eq {d : Dev} (hrel : d.pw.released = true) (hfuses : d.pw.fuses = true) (hrun : d.tb.running = false)
    (hlock : d.flag TB_STATUS_TCLK_LOCK = false) (hlost : d.flag SVC_CLKSTAT_TCLK_LOST = false) (hst : d.get PWR_STATUS_STATE = 0) :
    d.tclkLock = d.tclkStarts.sealReport := if_neg (by simp [hrel, hfuses, hrun, hlock, hlost, hst])

/-! ## SYNC_OUT (R40) -/

/-- R40: the level of SYNC_OUT around the frame of `b`, by the ticks that are left to its boundary. -/
theorem syncOutLevel_eq {d : Dev} {b : Nat} (ho : d.tb.syncOut = some b) (he : d.flag TB_SYNCCFG_OUT_EN = true) : d.syncOutLevel =
    if d.now < b then
      if 2033 ≤ b - d.now ∧ b - d.now ≤ 2048 then true
      else if 1009 ≤ b - d.now ∧ b - d.now ≤ 2032 then bitAt b (63 - (2032 - (b - d.now)) / 16) else false
    else decide (d.now < b + 64) := by
  unfold Dev.syncOutLevel
  rw [ho, he]
  rfl

section
variable {d : Dev} {b : Nat} (ho : d.tb.syncOut = some b) (he : d.flag TB_SYNCCFG_OUT_EN = true)
include ho he

theorem syncOutLevel_before (h : d.now + 2048 < b) : d.syncOutLevel = false := by
  rw [syncOutLevel_eq ho he, if_pos (by omega), if_neg (by omega), if_neg (by omega)]

theorem syncOutLevel_start (h1 : b ≤ d.now + 2048) (h2 : d.now + 2033 ≤ b) : d.syncOutLevel = true := by
  rw [syncOutLevel_eq ho he, if_pos (by omega), if_pos (by omega)]

theorem syncOutLevel_data {j : Nat} (hj : j < 64) (h1 : d.now + 1009 + 16 * j ≤ b) (h2 : b ≤ d.now + 1024 + 16 * j) : d.syncOutLevel = bitAt b j := by
  rw [syncOutLevel_eq ho he, if_pos (by omega), if_neg (by omega), if_pos (by omega), show 63 - (2032 - (b - d.now)) / 16 = j by omega]

theorem syncOutLevel_gap (h1 : d.now < b) (h2 : b < d.now + 1009) : d.syncOutLevel = false := by
  rw [syncOutLevel_eq ho he, if_pos h1, if_neg (by omega), if_neg (by omega)]

theorem syncOutLevel_marker (h : b ≤ d.now) : d.syncOutLevel = decide (d.now < b + 64) := by
  rw [syncOutLevel_eq ho he, if_neg (by omega)]

end

end Sys2Proof.Machine
end

section
/-! PROOF. A SYNC frame taken by a slave or relay, and the loss of frames (R41, R42). -/

namespace Sys2Proof.Machine

theorem Dev.free_frame {ps : List Part} (fs : List Fld) (d : Dev) (n : Nat) (hp : Part.free ∈ ps) : Dev.Frame ps fs d { d with free := n } :=
  fun _ => ⟨fun p hn => by cases p <;> first | rfl | exact absurd hp hn, fun _ _ => rfl⟩

/-- A number that fits in `w` signed bits is read back from them. -/
theorem sgn_uns_16 {x : Int} (h1 : -32768 ≤ x) (h2 : x ≤ 32767) : sgn 16 (uns 16 x % 2 ^ 16) = x := by
  have hx : (uns 16 x : Int) = x % 2 ^ 16 := Int.toNat_of_nonneg (Int.emod_nonneg _ (by decide))
  unfold sgn
  split <;> omega

theorem stampNow_window {d e : Dev} (hs : e.stime = d.stime) (hw : e.tb.window = d.tb.window) : e.stampNow = d.stampNow := by
  rw [Dev.stampNow, Dev.stampNow, now_of_stime hs, Dev.inWindow, Dev.inWindow, hw]

/-! ## What every frame does -/

/-- R41: the fine step of a marker, 0 before the first calibration. -/
def Dev.syncFine (d : Dev) (fine : Nat) : Nat := if d.get TB_STATUS_CAL_DONE = 0 then 0 else fine

/-- R41: the error of a frame that announced `b`, its marker latched at tick `tick` and fine step `fine`, in fine steps. -/
def Dev.syncError (d : Dev) (b tick fine : Nat) : Int := ((tick * 64 + d.syncFine fine : Int) - sgn 16 (d.get TB_SYNC_DELAY_DELAY)) - (b * 64 : Int)

/-- R42: the frame that announces `b` follows on the last one taken. -/
def Dev.syncOn (d : Dev) (b : Nat) : Bool := d.tb.syncLast == some (b - 2 ^ 20) && decide (2 ^ 20 ≤ b)

/-- The device once a frame and its marker are noted. -/
def Dev.syncNoted (d : Dev) (b tick fine : Nat) : Dev :=
  let e := d.syncFollow b
  { e with tb := { e.tb with syncMark := d.syncLatch tick fine }, free := e.free + 1 }

/-- The device once a frame is noted and its error shows. -/
def Dev.syncTaken (d : Dev) (b tick fine : Nat) : Dev :=
  (d.syncNoted b tick fine).put TB_SYNC_ERR_ERR (if -32768 ≤ d.syncError b tick fine ∧ d.syncError b tick fine ≤ 32767 then uns 16 (d.syncError b tick fine)
    else (Config.freeWord d.free).toNat % 65536)

/-- R41: the steering of the PLLs takes another value. -/
def Dev.steered (d : Dev) : Dev := { d with free := d.free + 1, tb := { d.tb with steer := (Config.freeWord d.free).truncate 16 } }

/-- The device with other runs of consecutive epochs. -/
def Dev.withRuns (d : Dev) (good bad : Nat) : Dev := { d with tb := { d.tb with syncGood := good, syncBad := bad } }

/-- R42: a locked device meets an error beyond 64 fine steps, the `n`-th in a row. -/
def Dev.syncStrays (d : Dev) (n : Nat) : Dev :=
  let e := ((d.incSat TB_SYNC_ERR_COUNT).withRuns 0 n).steered
  if 3 ≤ n then (e.withRuns 0 0).put TB_STATUS_SYNC_LOCK 0 else e

/-- R42: a device that is not locked meets an error within 64 fine steps, the `n`-th in a row within two. -/
def Dev.syncNears (d : Dev) (n : Nat) : Dev :=
  let e := (d.withRuns n d.tb.syncBad).steered
  if 16 ≤ n then ((e.withRuns 0 0).raise TB_STATUS_SYNC_LOCK).spineRecNow 0x10 6 0 0 0 0 else e

/-- R42: the device acts on an error of `err` fine steps. -/
def Dev.syncActs (d : Dev) (err : Int) : Dev :=
  if d.flag TB_STATUS_SYNC_LOCK then
    if 64 < err.natAbs then d.syncStrays (d.tb.syncBad + 1) else (d.withRuns d.tb.syncGood 0).steered
  else if 64 < err.natAbs then (d.withRuns 0 d.tb.syncBad).stimeStep (BitVec.ofInt 64 ((d.now : Int) - err.tdiv 64))
  else d.syncNears (if err.natAbs ≤ 2 then d.tb.syncGood + 1 else 0)

theorem syncFrame_none {d : Dev} (h : d.get TB_SYNCCFG_ROLE < 2) (b tick fine : Nat) : d.syncFrame b tick fine = d := if_pos h

theorem syncFrame_eq {d : Dev} (h : 2 ≤ d.get TB_SYNCCFG_ROLE) (b tick fine : Nat) :
    d.syncFrame b tick fine = (d.syncTaken b tick fine).syncActs (d.syncError b tick fine) := by
  unfold Dev.syncFrame Dev.syncActs
  rw [if_neg (show ¬ d.syncRole < 2 from Nat.not_lt.2 h)]
  simp only [decide_eq_true_eq]
  rfl

/-! ## What the frame leaves noted -/

section
variable (d : Dev) (b tick fine : Nat)

theorem withRuns_frame (good bad : Nat) : Dev.Frame [.tb] [] d (d.withRuns good bad) := Dev.tb_frame _ _ _ (by simp)

theorem steered_frame : Dev.Frame [.tb, .free] [] d d.steered :=
  (Dev.free_frame (ps := [.tb, .free]) [] d (d.free + 1) (by simp)).trans (Dev.tb_frame _ _ _ (by simp))

theorem syncNoted_frame : Dev.Frame [.tb, .free] [] d (d.syncNoted b tick fine) := fun _ => by
  unfold Dev.syncNoted Dev.syncFollow
  exact ⟨fun p hn => by cases p <;> first | rfl | exact absurd (by simp) hn, fun _ _ => rfl⟩

theorem syncTaken_frame : Dev.Frame [.tb, .free] [TB_SYNC_ERR_ERR] d (d.syncTaken b tick fine) :=
  ((syncNoted_frame d b tick fine).mono (by simp) (by simp)).trans (Dev.put_frame _ _ _ _ (fit rfl) (by simp))

theorem syncTaken_error (h1 : -32768 ≤ d.syncError b tick fine) (h2 : d.syncError b tick fine ≤ 32767) :
    sgn 16 ((d.syncTaken b tick fine).get TB_SYNC_ERR_ERR) = d.syncError b tick fine := by
  rw [Dev.syncTaken, Dev.get_put_same _ _ _ (fit rfl), if_pos ⟨h1, h2⟩]
  exact sgn_uns_16 h1 h2

theorem syncTaken_noted : (d.syncTaken b tick fine).tb.syncLast = some b ∧ (d.syncTaken b tick fine).tb.syncTick = d.tick := ⟨rfl, rfl⟩

/-- R42: the runs of consecutive epochs go on with a frame that follows on the last one, and end with another. -/
theorem syncTaken_runs : (d.syncTaken b tick fine).tb.syncGood = (if d.syncOn b = true then d.tb.syncGood else 0) ∧
    (d.syncTaken b tick fine).tb.syncBad = (if d.syncOn b = true then d.tb.syncBad else 0) := by
  have hf : (d.syncFollow b).tb.syncGood = (if d.syncOn b = true then d.tb.syncGood else 0) ∧
      (d.syncFollow b).tb.syncBad = (if d.syncOn b = true then d.tb.syncBad else 0) := by
    have hon : d.syncOn b = true ↔ d.tb.syncLast = some (b - 2 ^ 20) ∧ 2 ^ 20 ≤ b := by simp [Dev.syncOn]
    unfold Dev.syncFollow
    by_cases h : d.syncOn b = true
    · rw [if_pos h, if_pos h, if_pos (hon.1 h)]
      exact ⟨rfl, rfl⟩
    · rw [if_neg h, if_neg h, if_neg (fun c => h (hon.2 c))]
      exact ⟨rfl, rfl⟩
  exact hf

theorem syncTaken_window : (d.syncTaken b tick fine).tb.window = d.tb.window := by
  have hf : (d.syncFollow b).tb.window = d.tb.window := by
    unfold Dev.syncFollow
    split <;> rfl
  exact hf

end

/-! ## What the error asks for -/

section
variable (d : Dev)

theorem syncStrays_frame (n : Nat) : Dev.Frame [.tb, .free] [TB_SYNC_ERR_COUNT, TB_STATUS_SYNC_LOCK] d (d.syncStrays n) := by
  have h : Dev.Frame [.tb, .free] [TB_SYNC_ERR_COUNT, TB_STATUS_SYNC_LOCK] d ((d.incSat TB_SYNC_ERR_COUNT).withRuns 0 n).steered :=
    (Dev.incSat_frame _ _ _ (fit rfl) (by simp)).trans (((withRuns_frame _ _ _).mono (by simp) (by simp)).trans ((steered_frame _).mono (by simp) (by simp)))
  exact h.then_ite (((withRuns_frame _ _ _).mono (by simp) (by simp)).trans (Dev.put_frame _ _ _ _ (fit rfl) (by simp)))

theorem syncStrays_count (n : Nat) : (d.syncStrays n).get TB_SYNC_ERR_COUNT = min (d.get TB_SYNC_ERR_COUNT + 1) 65535 := by
  have h : (((d.incSat TB_SYNC_ERR_COUNT).withRuns 0 n).steered).get TB_SYNC_ERR_COUNT = min (d.get TB_SYNC_ERR_COUNT + 1) 65535 := get_incSat d (fit rfl)
  unfold Dev.syncStrays
  dsimp only
  split
  · rw [Dev.get_put_ne _ _ (fit rfl) (apart_of rfl)]
    exact h
  · exact h

/-- R42: the third error beyond 64 fine steps in a row drops the lock. -/
theorem syncStrays_lock {n : Nat} (h : d.flag TB_STATUS_SYNC_LOCK = true) : (d.syncStrays n).flag TB_STATUS_SYNC_LOCK = decide (n < 3) := by
  have hkeep : (((d.incSat TB_SYNC_ERR_COUNT).withRuns 0 n).steered).get TB_STATUS_SYNC_LOCK = d.get TB_STATUS_SYNC_LOCK :=
    Dev.get_put_ne d _ (fit rfl) (apart_of rfl)
  unfold Dev.syncStrays
  dsimp only
  split
  · next h3 =>
    rw [Dev.flag, Dev.get_put_same _ _ _ (fit rfl), decide_eq_false (by omega)]
    rfl
  · next h3 =>
    rw [Dev.flag, hkeep, ← Dev.flag, h, decide_eq_true (by omega)]

theorem syncStrays_bad (n : Nat) : (d.syncStrays n).tb.syncBad = if 3 ≤ n then 0 else n := by
  unfold Dev.syncStrays
  dsimp only
  split <;> rfl

theorem syncNears_far {n : Nat} (h : n < 16) : d.syncNears n = (d.withRuns n d.tb.syncBad).steered := if_neg (by omega)

theorem syncNears_locks {n : Nat} (h : 16 ≤ n) : d.syncNears n =
    ((((d.withRuns n d.tb.syncBad).steered).withRuns 0 0).raise TB_STATUS_SYNC_LOCK).spineRecNow 0x10 6 0 0 0 0 := if_pos h

theorem syncRuns_frame (good bad : Nat) : Dev.Frame [.tb, .free] [] d (d.withRuns good bad).steered :=
  ((withRuns_frame d good bad).mono (by simp) (by simp)).trans (steered_frame _)

/-- R42: the lock, once sixteen consecutive epochs were within two fine steps. -/
theorem syncNears_lock {n : Nat} (h : 16 ≤ n) : (d.syncNears n).get TB_STATUS_SYNC_LOCK = 1 := by
  rw [syncNears_locks d h, Dev.spineRecNow_get, Dev.raise, Dev.get_put_same _ _ _ (fit rfl)]
  rfl

theorem syncNears_record {n : Nat} (h : 16 ≤ n) :
    (d.syncNears n).ru.raised = d.ru.raised ++ [{ typ := 0x10, sub := 6, orig := 4, at_ := d.stampNow }] := by
  have hstamp : (((d.withRuns n d.tb.syncBad).steered.withRuns 0 0).raise TB_STATUS_SYNC_LOCK).stampNow = d.stampNow :=
    stampNow_window (by rw [Dev.raise, Dev.put_stime]; rfl) (by rw [Dev.raise, Dev.put_tb]; rfl)
  have hru : (((d.withRuns n d.tb.syncBad).steered.withRuns 0 0).raise TB_STATUS_SYNC_LOCK).ru = d.ru := by
    rw [Dev.raise, Dev.put_ru]
    rfl
  rw [syncNears_locks d h, Dev.spineRecNow, Dev.spineRec]
  dsimp only
  rw [hstamp, hru]

theorem syncNears_frame (n : Nat) : Dev.Frame [.tb, .free, .ru] [TB_STATUS_SYNC_LOCK] d (d.syncNears n) := by
  have hruns : Dev.Frame [.tb, .free, .ru] [TB_STATUS_SYNC_LOCK] d (d.withRuns n d.tb.syncBad).steered := (syncRuns_frame d _ _).mono (by simp) (by simp)
  exact hruns.then_ite (((withRuns_frame _ 0 0).mono (by simp) (by simp)).trans ((Dev.raise_frame _ _ _ (fit rfl) (by simp)).trans
    (Dev.spineRecNow_frame _ _ _ _ _ _ _ _ (by simp))))

/-! ## Which of these an error asks for -/

section
variable {d} {err : Int}

theorem syncActs_strays (hl : d.flag TB_STATUS_SYNC_LOCK = true) (h : 64 < err.natAbs) : d.syncActs err = d.syncStrays (d.tb.syncBad + 1) :=
  (if_pos hl).trans (if_pos h)

theorem syncActs_holds (hl : d.flag TB_STATUS_SYNC_LOCK = true) (h : err.natAbs ≤ 64) : d.syncActs err = (d.withRuns d.tb.syncGood 0).steered :=
  (if_pos hl).trans (if_neg (Nat.not_lt.2 h))

theorem syncActs_steps (hl : d.flag TB_STATUS_SYNC_LOCK = false) (h : 64 < err.natAbs) :
    d.syncActs err = (d.withRuns 0 d.tb.syncBad).stimeStep (BitVec.ofInt 64 ((d.now : Int) - err.tdiv 64)) :=
  (if_neg (by rw [hl]; simp)).trans (if_pos h)

theorem syncActs_nears (hl : d.flag TB_STATUS_SYNC_LOCK = false) (h : err.natAbs ≤ 64) :
    d.syncActs err = d.syncNears (if err.natAbs ≤ 2 then d.tb.syncGood + 1 else 0) :=
  (if_neg (by rw [hl]; simp)).trans (if_neg (Nat.not_lt.2 h))

end

/-- What every error leaves: the frame that was noted last, and the error that shows. -/
structure Dev.SyncKept (d e : Dev) : Prop where
  last : e.tb.syncLast = d.tb.syncLast
  tick : e.tb.syncTick = d.tb.syncTick
  error : e.get TB_SYNC_ERR_ERR = d.get TB_SYNC_ERR_ERR

theorem syncStrays_keeps (n : Nat) : Dev.SyncKept d (d.syncStrays n) := by
  have herr : (d.syncStrays n).get TB_SYNC_ERR_ERR = d.get TB_SYNC_ERR_ERR := (syncStrays_frame d n).get _ (apart_all rfl)
  refine ⟨?_, ?_, herr⟩
  all_goals
    unfold Dev.syncStrays
    dsimp only
    split <;> rfl

theorem syncNears_keeps (n : Nat) : Dev.SyncKept d (d.syncNears n) := by
  by_cases h : 16 ≤ n
  · rw [syncNears_locks d h]
    exact ⟨by rw [Dev.spineRecNow_tb, Dev.raise, Dev.put_tb]; rfl, by rw [Dev.spineRecNow_tb, Dev.raise, Dev.put_tb]; rfl,
      by rw [Dev.spineRecNow_get, Dev.raise, Dev.get_put_ne _ _ (fit rfl) (apart_of rfl)]; rfl⟩
  · rw [syncNears_far d (by omega)]
    exact ⟨rfl, rfl, rfl⟩

theorem syncActs_keeps (err : Int) : Dev.SyncKept d (d.syncActs err) := by
  have hstep (v : DWord) : Dev.SyncKept d ((d.withRuns 0 d.tb.syncBad).stimeStep v) := by
    have h := stimeStep_frame (d.withRuns 0 d.tb.syncBad) v
    have htb := h.tb_eq (by simp)
    exact ⟨by rw [htb]; rfl, by rw [htb]; rfl, h.get _ (apart_all rfl)⟩
  unfold Dev.syncActs
  split
  · split
    · exact syncStrays_keeps d _
    · exact ⟨rfl, rfl, rfl⟩
  · split
    · exact hstep _
    · exact syncNears_keeps d _

end

/-! ## The loss of frames (R42) -/

theorem syncLost_idle {d : Dev} (h : d.get TB_SYNCCFG_ROLE < 2 ∨ d.tick < d.tb.syncTick + 3 * 2 ^ 20) : d.syncLost = d :=
  if_pos (h.elim .inl fun h => .inr (.inr h))

theorem syncLost_eq {d : Dev} (hr : 2 ≤ d.get TB_SYNCCFG_ROLE) (hg : d.tb.syncGone = false) (ht : d.tb.syncTick + 3 * 2 ^ 20 ≤ d.tick) : d.syncLost =
    ((({ d with tb := { d.tb with syncGood := 0, syncBad := 0, syncGone := true } } : Dev).put TB_STATUS_SYNC_LOCK 0).raise TB_STATUS_SYNC_LOST).spineRecNow
      0x10 5 0 0 0 0 := by
  refine if_neg ?_
  rintro (h | h | h)
  · exact absurd hr (Nat.not_le.2 h)
  · rw [hg] at h; cases h
  · exact absurd ht (Nat.not_le.2 h)

theorem syncTaken_stamp (d : Dev) (b tick fine : Nat) : (d.syncTaken b tick fine).stampNow = d.stampNow :=
  stampNow_window ((syncTaken_frame d b tick fine).stime_eq (by simp)) (syncTaken_window d b tick fine)

theorem syncTaken_locked (d : Dev) (b tick fine : Nat) : (d.syncTaken b tick fine).flag TB_STATUS_SYNC_LOCK = d.flag TB_STATUS_SYNC_LOCK := by
  rw [Dev.flag, Dev.flag, (syncTaken_frame d b tick fine).get _ (apart_all rfl)]

/-- R42: an error beyond 64 fine steps meets a device that is not locked. -/
theorem syncSteps_record (d : Dev) (good bad : Nat) (v : DWord) : ((d.withRuns good bad).stimeStep v).ru.raised = d.ru.raised ++
    [{ typ := 0x10, sub := 0, orig := 4, at_ := ((d.withRuns good bad).stimeStep v).stampNow, p0 := d.now % 2 ^ 32, p1 := d.now >>> 32 }] := by
  have hstamp : ((d.withRuns good bad).stimeStep v).stampNow = { time := v.toNat, clkSw := (d.withRuns good bad).inWindow } := by
    rw [Dev.stampNow, Dev.now, stimeStep_stime, Dev.inWindow, (stimeStep_frame _ v).tb_eq (by simp), ← Dev.inWindow]
  rw [stimeStep_record, hstamp]
  rfl

/-! ## The reads and sendings -/

theorem stimeLoRead_eq (d : Dev) : (d.stimeLoRead).2.emit (.readData TB_STIME_LO d.stimeLoRead.1) =
    (d.setWord TB_STIME_HI (BitVec.ofNat 32 (d.now >>> 32))).emit (.readData TB_STIME_LO (BitVec.ofNat 32 d.now)) := rfl

/-- The next epoch boundary. -/
def Dev.nextEpoch (d : Dev) : Nat := (d.now / 2 ^ 20 + 1) * 2 ^ 20

theorem syncOutFrame_sends {d : Dev} (hr : d.get TB_SYNCCFG_ROLE = 1 ∨ d.get TB_SYNCCFG_ROLE = 3) (he : d.flag TB_SYNCCFG_OUT_EN = true)
    (hb : d.tb.syncOut ≠ some d.nextEpoch) (ht : d.nextEpoch ≤ d.now + 2048) :
    d.syncOutFrame = ({ d with tb := { d.tb with syncOut := some d.nextEpoch } } : Dev).emit (.syncFrame d.nextEpoch) := if_pos ⟨hr, he, ht, hb⟩

theorem syncOutFrame_idle {d : Dev} (h : d.tb.syncOut = some d.nextEpoch ∨ d.now + 2048 < d.nextEpoch) : d.syncOutFrame = d := by
  refine if_neg ?_
  rintro ⟨-, -, ht, hb⟩
  exact h.elim hb (Nat.not_lt.2 ht)

/-- The device once frames have been missing for three epochs. -/
def Dev.syncLoses (d : Dev) : Dev :=
  (({ d with tb := { d.tb with syncGood := 0, syncBad := 0, syncGone := true } } : Dev).put TB_STATUS_SYNC_LOCK 0).raise TB_STATUS_SYNC_LOST

theorem syncLoses_frame (d : Dev) : Dev.Frame [.tb, .ru] [TB_STATUS_SYNC_LOCK, TB_STATUS_SYNC_LOST] d d.syncLoses :=
  (Dev.tb_frame _ _ _ (by simp)).trans ((Dev.put_frame _ _ _ _ (fit rfl) (by simp)).trans (Dev.raise_frame _ _ _ (fit rfl) (by simp)))

theorem syncLoses_shows (d : Dev) : d.syncLoses.get TB_STATUS_SYNC_LOCK = 0 ∧ d.syncLoses.get TB_STATUS_SYNC_LOST = 1 := by
  constructor
  · rw [Dev.syncLoses, Dev.raise, Dev.get_put_ne _ _ (fit rfl) (apart_of rfl), Dev.get_put_same _ _ _ (fit rfl)]
    rfl
  · rw [Dev.syncLoses, Dev.raise, Dev.get_put_same _ _ _ (fit rfl)]
    rfl

theorem aclkRatio_takes {d : Dev} (hr : d.tb.running = true) (hs : d.get PWR_STATUS_STATE = 0) (n : Nat) :
    d.aclkRatio n = d.setWord TB_ACLK_RATIO (BitVec.ofNat 32 n) := if_pos ⟨hr, hs⟩

theorem aclkRatio_idle {d : Dev} (h : d.tb.running = false ∨ d.get PWR_STATUS_STATE ≠ 0) (n : Nat) : d.aclkRatio n = d := by
  refine if_neg ?_
  rintro ⟨hr, hs⟩
  exact h.elim (fun c => by rw [hr] at c; cases c) (fun c => c hs)

theorem tclkStarts_tb (d : Dev) : d.tclkStarts.tb = { d.tb with running := true } := rfl

theorem tclkStarts_times (d : Dev) : d.tclkStarts.stime = 0 ∧ d.tclkStarts.tick = 0 := ⟨rfl, rfl⟩

theorem tclkStarts_locked (d : Dev) : d.tclkStarts.get TB_STATUS_TCLK_LOCK = 1 := Dev.get_put_same _ _ _ (fit rfl)

theorem sealClear_frame (d : Dev) : Dev.Frame [.pw] [] d d.sealClear := Dev.pw_frame _ _ _ (by simp)

theorem syncLoses_tb (d : Dev) : d.syncLoses.tb = { d.tb with syncGood := 0, syncBad := 0, syncGone := true } := rfl

theorem syncLoses_record (d : Dev) :
    (d.syncLoses.spineRecNow 0x10 5 0 0 0 0).ru.raised = d.ru.raised ++ [{ typ := 0x10, sub := 5, orig := 4, at_ := d.stampNow }] := by
  have hstamp : d.syncLoses.stampNow = d.stampNow :=
    stampNow_window (by simp [Dev.syncLoses, Dev.raise]) (by simp [Dev.syncLoses, Dev.raise])
  have hru : d.syncLoses.ru = d.ru := by simp [Dev.syncLoses, Dev.raise]
  rw [Dev.spineRecNow, Dev.spineRec]
  dsimp only
  rw [hstamp, hru]

/-- Settles O22: the lock of TCLK with what it reports, the frames sent, and a frame taken by what its error asks for. -/
theorem stimeStartsAlignsAndIsRead : Obligations.StimeStartsAlignsAndIsRead := by
  unfold Obligations.StimeStartsAlignsAndIsRead
  intro s
  refine ⟨fun hr => onDev_idle (f := Dev.tclkLock) (tclkLock_idle hr), fun hrel hfu hrun hlk hlost hst => ?_, fun f => ?_,
    fun hr he => ⟨fun hb ht => onDev_of (f := Dev.syncOutFrame) (syncOutFrame_sends hr he hb ht), fun h => onDev_idle (f := Dev.syncOutFrame) (syncOutFrame_idle h)⟩,
    fun b ho he => ⟨syncOutLevel_before ho he, syncOutLevel_start ho he, fun j hj => syncOutLevel_data ho he hj, syncOutLevel_gap ho he,
      fun h1 h2 => (syncOutLevel_marker ho he h1).trans (decide_eq_true h2), fun h => (syncOutLevel_marker ho he (by omega)).trans (decide_eq_false (by omega))⟩,
    fun hr => ⟨fun b k f => onDev_idle (f := fun d => d.syncFrame b.toNat k.toNat f.val) (syncFrame_none hr _ _ _), onDev_idle (f := Dev.syncLost) (syncLost_idle (.inl hr))⟩,
    fun hr => ⟨fun b k f => ?_, fun ht => onDev_idle (f := Dev.syncLost) (syncLost_idle (.inr ht)), fun hg ht => ?_⟩,
    fun n => ⟨fun hr hs => ?_, fun h => onDev_idle (f := fun d => d.aclkRatio n) (aclkRatio_idle h n)⟩⟩
  · have hstart := tclkStarts_frame s.dev
    have hrep := sealReport_frame s.dev.tclkStarts
    have hclear := sealClear_frame s.dev.tclkStarts
    obtain ⟨hst0, htick0⟩ := tclkStarts_times s.dev
    have hboth : Dev.Frame [.pw, .svc, .ru] [SVC_FLOG_SEQ_SEQ, SVC_FLOG_LOST_CNT] s.dev.tclkStarts s.dev.tclkStarts.sealReport :=
      (hclear.mono (by simp) (by simp)).trans (hrep.mono (by simp) (by simp))
    refine ⟨_, onDev_of (f := Dev.tclkLock) (tclkLock_eq hrel hfu hrun hlk hlost hst), (hboth.stime_eq (by simp)).trans hst0, (hboth.tick_eq (by simp)).trans htick0,
      (hboth.tb_eq (by simp)).trans (tclkStarts_tb _), (hboth.get _ (apart_all rfl)).trans (tclkStarts_locked _), ?_, fun h => ?_,
      ((hstart.mono (by simp) (by simp)).trans (hboth.mono (by simp) (by simp))).lift⟩
    · have hpw : s.dev.tclkStarts.pw = s.dev.pw := hstart.part .pw (by simp)
      have hsame : s.dev.tclkStarts.sealReport.pw = s.dev.tclkStarts.sealClear.pw := hrep.part .pw (by simp)
      rw [hsame, Dev.sealClear, hpw]
    · have hnone : s.dev.tclkStarts.sealReport = s.dev.tclkStarts.sealClear := sealReport_none h
      rw [hnone]
      exact ⟨rfl, rfl⟩
  · refine ⟨_, onDev_of (f := fun d => (d.stimeLoRead).2.emit (.readData TB_STIME_LO d.stimeLoRead.1)) (stimeLoRead_eq s.dev), ?_, ?_, ((Dev.setWord_frame _ _ _ _ (by simp)).trans (Dev.emit_frame _ _ _ (by simp))).lift⟩
    · rfl
    · exact (Dev.word_setWord_same _ _ _).trans rfl
  · intro fine on good bad err
    obtain ⟨d, hd⟩ : ∃ d, s.dev.syncTaken b.toNat k.toNat f.val = d := ⟨_, rfl⟩
    have herr : s.dev.syncError b.toNat k.toNat f.val = err := rfl
    have hframe : Dev.Frame [.tb, .free] [TB_SYNC_ERR_ERR] s.dev d := hd ▸ syncTaken_frame _ _ _ _
    obtain ⟨hgood, hbad⟩ : d.tb.syncGood = good ∧ d.tb.syncBad = bad := hd ▸ syncTaken_runs s.dev b.toNat k.toNat f.val
    obtain ⟨hlast, htick⟩ := hd ▸ syncTaken_noted s.dev b.toNat k.toNat f.val
    have hlock : d.flag TB_STATUS_SYNC_LOCK = s.dev.flag TB_STATUS_SYNC_LOCK := hd ▸ syncTaken_locked _ _ _ _
    clear_value good bad err
    have hkept := syncActs_keeps d err
    have hnow : d.now = s.dev.now := now_of_stime (hframe.stime_eq (by simp))
    have hgot (g : Fld) (hg : TB_SYNC_ERR_ERR.apart g) : d.get g = s.dev.get g := hframe.get g (by simpa using hg)
    refine ⟨_, onDev_of (f := fun d => d.syncFrame b.toNat k.toNat f.val) ((syncFrame_eq hr _ _ _).trans (congrArg₂ Dev.syncActs hd herr)),
      hkept.last.trans hlast, hkept.tick.trans htick, fun h1 h2 => ?_, fun hl h => ?_, fun hl h => ?_, fun hl h => ?_, fun hl h2 h => ?_, fun hl h2 hn => ?_,
      fun hl h2 hn => ?_⟩
    · exact (congrArg (sgn 16) hkept.error).trans (hd ▸ herr ▸ syncTaken_error s.dev b.toNat k.toNat f.val (herr ▸ h1) (herr ▸ h2))
    · have hact : d.syncActs err = d.syncStrays (d.tb.syncBad + 1) := syncActs_strays (hlock.trans hl) h
      have hstray := syncStrays_frame d (d.tb.syncBad + 1)
      rw [← hbad]
      refine ⟨?_, ?_, ?_, ?_, ?_⟩
      · rw [hact, hstray.stime_eq (by simp), hframe.stime_eq (by simp)]
      · rw [hact, syncStrays_count, hgot _ (apart_of rfl)]
      · rw [hact, syncStrays_bad]
        exact if_congr (by omega) rfl rfl
      · rw [hact, syncStrays_lock _ (hlock.trans hl)]
        exact decide_eq_decide.2 (by omega)
      · rw [hact]
        exact ((hframe.widen (by simp) (by simp [TB_SYNC_ERR_ERR, TB_SYNC_ERR])).trans (hstray.widen (by simp) (by simp [TB_SYNC_ERR_COUNT, TB_SYNC_ERR]))).lift
    · have hact : d.syncActs err = (d.withRuns d.tb.syncGood 0).steered := syncActs_holds (hlock.trans hl) h
      rw [hact]
      exact ⟨rfl, (hframe.trans ((syncRuns_frame d _ _).mono (by simp) (by simp))).lift⟩
    · have hact := syncActs_steps (hlock.trans hl) h
      have hstep := stimeStep_frame (d.withRuns 0 d.tb.syncBad) (BitVec.ofInt 64 ((d.now : Int) - err.tdiv 64))
      have hrec := syncSteps_record d 0 d.tb.syncBad (BitVec.ofInt 64 ((d.now : Int) - err.tdiv 64))
      rw [hact]
      refine ⟨?_, ?_, stimeStep_flag _ _, ?_, ?_, ?_⟩
      · rw [stimeStep_stime, hnow]
      · rw [hstep.tb_eq (by simp)]
        rfl
      · rw [stimeStep_count, (withRuns_frame _ _ _).get _ (by simp), hgot _ (apart_of rfl)]
      · rw [hrec, hframe.ru_eq (by simp), hnow]
      · exact ((hframe.mono (by simp) (by simp)).trans (((withRuns_frame _ _ _).mono (by simp) (by simp)).trans (hstep.mono (by simp) (by simp)))).lift
    · have hact : d.syncActs err = (d.withRuns 0 d.tb.syncBad).steered := by
        rw [syncActs_nears (hlock.trans hl) h, if_neg (Nat.not_le.2 h2), syncNears_far _ (by omega)]
      rw [hact]
      exact ⟨rfl, (hframe.trans ((syncRuns_frame d _ _).mono (by simp) (by simp))).lift⟩
    · have hact : d.syncActs err = (d.withRuns (d.tb.syncGood + 1) d.tb.syncBad).steered := by
        rw [syncActs_nears (hlock.trans hl) (Nat.le_trans h2 (by omega)), if_pos h2,
          syncNears_far _ (Nat.succ_lt_succ (hgood ▸ hn))]
      rw [hact]
      exact ⟨congrArg (· + 1) hgood, (hframe.trans ((syncRuns_frame d _ _).mono (by simp) (by simp))).lift⟩
    · have hact : d.syncActs err = d.syncNears (d.tb.syncGood + 1) := by
        rw [syncActs_nears (hlock.trans hl) (Nat.le_trans h2 (by omega)), if_pos h2]
      have hfull : 16 ≤ d.tb.syncGood + 1 := Nat.succ_le_succ (hgood ▸ hn)
      have hstamp : d.stampNow = s.dev.stampNow := hd ▸ syncTaken_stamp _ _ _ _
      have hrec := syncNears_record d hfull
      rw [hframe.ru_eq (by simp), hstamp] at hrec
      rw [hact]
      exact ⟨syncNears_lock d hfull, hrec, ((hframe.mono (by simp) (by simp)).trans ((syncNears_frame d _).mono (by simp) (by simp))).lift⟩
  · have hloses := syncLoses_frame s.dev
    obtain ⟨hlock, hlost⟩ := syncLoses_shows s.dev
    exact ⟨_, onDev_of (f := Dev.syncLost) (syncLost_eq hr hg ht), (Dev.spineRecNow_get _ _ _ _ _ _ _ _).trans hlock, (Dev.spineRecNow_get _ _ _ _ _ _ _ _).trans hlost,
      (Dev.spineRecNow_tb _ _ _ _ _ _ _).trans (syncLoses_tb _), syncLoses_record _, (hloses.trans (Dev.spineRecNow_frame _ _ _ _ _ _ _ _ (by simp))).lift⟩
  · exact ⟨_, onDev_of (f := fun d => d.aclkRatio n) (aclkRatio_takes hr hs n), Dev.word_setWord_same _ _ _, (Dev.setWord_frame _ _ _ _ (by simp)).lift⟩

end Sys2Proof.Machine
end

section
/-! PROOF. The tap table of a line: nearest taps over cumulative hits (R44). -/

namespace Sys2Proof.Machine

/-- The cumulative hits before each tap are the sums of the taps below it. -/
theorem cumulate_eq (hits : List Nat) (acc : Nat) : cumulate acc hits = (List.range hits.length).map (fun j => acc + (hits.take j).sum) := by
  induction hits generalizing acc with
  | nil => rfl
  | cons h t ih =>
    rw [cumulate, ih, List.length_cons, List.range_succ_eq_map, List.map_cons, List.map_map]
    refine congrArg₂ _ rfl (List.map_congr_left fun j _ => ?_)
    simp only [Function.comp_apply, List.take_succ_cons, List.sum_cons]
    omega

/-- How far two numbers lie apart. -/
def apartBy (target c : Nat) : Nat := (c - target) + (target - c)

/-- Of the numbers below `n`, `r` is the one where `dist` is least, the lowest on a tie. -/
structure LeastAt (dist : Nat → Nat) (n r : Nat) : Prop where
  below : r < n
  least : ∀ j < n, dist r ≤ dist j ∧ (j < r → dist r < dist j)

theorem leastAt_succ {dist : Nat → Nat} {n r : Nat} (h : LeastAt dist n r) : LeastAt dist (n + 1) (if dist n < dist r then n else r) := by
  obtain ⟨hr, hleast⟩ := h
  split
  · next hlt =>
    refine ⟨Nat.lt_succ_self n, fun j hj => ?_⟩
    rcases Nat.lt_succ_iff_lt_or_eq.1 hj with h | rfl
    · have := (hleast j h).1
      omega
    · exact ⟨Nat.le_refl _, fun c => absurd c (Nat.lt_irrefl _)⟩
  · next hge =>
    refine ⟨Nat.lt_succ_of_lt hr, fun j hj => ?_⟩
    rcases Nat.lt_succ_iff_lt_or_eq.1 hj with h | rfl
    · exact hleast j h
    · exact ⟨Nat.not_lt.1 hge, fun c => absurd c (Nat.lt_asymm hr)⟩

/-- The search goes on from the best of the first `i` values to the best of all of them. -/
theorem nearestTap_least (target : Nat) (f : Nat → Nat) (n : Nat) {i r : Nat} (h : LeastAt (fun j => apartBy target (f j)) i r) :
    LeastAt (fun j => apartBy target (f j)) (i + n) (nearestTap target ((List.range' i n).map f) i (r, apartBy target (f r))) := by
  induction n generalizing i r with
  | zero => exact h
  | succ n ih =>
    have hstep := leastAt_succ h
    rw [List.range'_succ, List.map_cons, nearestTap, ← Nat.succ_add_eq_add_succ]
    dsimp only at hstep ⊢
    change LeastAt _ _ (nearestTap target _ _ (if apartBy target (f i) < apartBy target (f r) then (i, apartBy target (f i)) else (r, apartBy target (f r))))
    split
    · next hlt => exact ih (by rwa [if_pos hlt] at hstep)
    · next hge => exact ih (by rwa [if_neg hge] at hstep)

/-- R44: the tap of a fine step is the one with the nearest D(i), the lower one on a tie. -/
theorem tapTable_nearest {hits : List Nat} (hpos : 0 < hits.length) {k : Nat} (hk : k < 64) :
    ∃ i, (tapTable hits)[k]? = some i ∧ LeastAt (fun j => apartBy (k * 1024) (hits.take j).sum) hits.length i := by
  obtain ⟨n, hn⟩ := Nat.exists_eq_add_one_of_ne_zero (Nat.pos_iff_ne_zero.1 hpos)
  have hfirst : LeastAt (fun j => apartBy (k * 1024) (hits.take j).sum) 1 0 := ⟨Nat.one_pos, fun j hj => by
    obtain rfl := Nat.lt_one_iff.1 hj
    exact ⟨Nat.le_refl _, fun c => absurd c (Nat.lt_irrefl _)⟩⟩
  have hall := nearestTap_least (k * 1024) (fun j => (hits.take j).sum) n hfirst
  have hcum : cumulate 0 hits = 0 :: (List.range' 1 n).map (fun j => (hits.take j).sum) := by
    rw [cumulate_eq, hn, List.range_eq_range', List.range'_succ, List.map_cons]
    simp
  have hzero : apartBy (k * 1024) 0 < 65537 := by unfold apartBy; omega
  have hrun : nearestTap (k * 1024) (cumulate 0 hits) 0 (0, 65537) =
      nearestTap (k * 1024) ((List.range' 1 n).map (fun j => (hits.take j).sum)) 1 (0, apartBy (k * 1024) (hits.take 0).sum) := by
    rw [hcum, nearestTap]
    exact congrArg _ (if_pos hzero)
  refine ⟨nearestTap (k * 1024) (cumulate 0 hits) 0 (0, 65537), ?_, ?_⟩
  · simp [tapTable, hk]
  · rw [hrun, hn, Nat.add_comm n 1]
    exact hall

theorem apartBy_natAbs (target c : Nat) : apartBy target c = ((c : Int) - (target : Int)).natAbs := by
  unfold apartBy
  omega

end Sys2Proof.Machine
end

section
/-! PROOF. Twin lines: first calibration, recalibration and swaps (R46, R48 to R50). -/

namespace Sys2Proof.Machine

theorem Dev.lines_frame {ps : List Part} (fs : List Fld) (d : Dev) (t : Tab Lines) (hp : Part.lines ∈ ps) : Dev.Frame ps fs d { d with lines := t } :=
  fun _ => ⟨fun p hn => by cases p <;> first | rfl | exact absurd hp hn, fun _ _ => rfl⟩

theorem Dev.modLine_frame {ps : List Part} (fs : List Fld) (d : Dev) (k : Nat) (f : Lines → Lines) (hp : Part.lines ∈ ps) :
    Dev.Frame ps fs d (d.modLine k f) := Dev.lines_frame fs d _ hp

theorem line_of_lines {d e : Dev} (h : e.lines = d.lines) (k : Nat) : e.line k = d.line k := by rw [Dev.line, Dev.line, h]

/-! ## The rebuilt standby line (R49) -/

/-- The lines with the table of line B, or else of line A, replaced. -/
def Lines.rebuilt (l : Lines) (b : Bool) (taps : List Nat) : Lines := if b then { l with tapsB := taps } else { l with tapsA := taps }

/-- R49: the lines with the standby one rebuilt at tick `tick`, for the `n`-th trigger. -/
def Lines.rebuiltStandby (l : Lines) (n tick : Nat) (taps : List Nat) : Lines :=
  ({ l with seen := n, own := false, ready := some tick } : Lines).rebuilt (!l.activeB) taps

section
variable {d : Dev} {x : LineOwner} {hits : List Nat}

theorem lineDone_served (hc : d.calDone (lineQuad x) = true) (ho : (d.line (lineNo x)).own = false)
    (hs : d.tb.recals.length ≤ (d.line (lineNo x)).seen) : d.lineDone x hits = d := by
  unfold Dev.lineDone
  dsimp only
  rw [if_pos hc, if_neg (by rw [ho]; simpa using hs)]

theorem lineDone_rebuilds (hc : d.calDone (lineQuad x) = true) (h : (d.line (lineNo x)).own = true ∨ (d.line (lineNo x)).seen < d.tb.recals.length) :
    d.lineDone x hits = d.modLine (lineNo x) (fun _ => (d.line (lineNo x)).rebuiltStandby d.tb.recals.length d.tick (tapTable hits)) := by
  unfold Dev.lineDone
  dsimp only
  rw [if_pos hc, if_pos h]
  unfold Lines.rebuiltStandby Lines.rebuilt
  dsimp only
  cases (d.line (lineNo x)).activeB <;> rfl

/-! ## The first calibration (R46) -/

theorem lineDone_none (hc : d.calDone (lineQuad x) = false) (h : (d.quad (lineQuad x)).calStart = none) : d.lineDone x hits = d := by
  unfold Dev.lineDone
  dsimp only
  rw [if_neg (by rw [hc]; simp), h]

theorem lineDone_early {n : Nat} (hc : d.calDone (lineQuad x) = false) (h : (d.quad (lineQuad x)).calStart = some n)
    (ht : d.tick < n + (if (d.line (lineNo x)).tapsA = [] then 76800 else 153600) ∨ (d.line (lineNo x)).tapsB ≠ []) : d.lineDone x hits = d := by
  unfold Dev.lineDone
  dsimp only
  rw [if_neg (by rw [hc]; simp), h]
  exact if_pos (by simpa using ht)

/-- R46: a line of the first calibration has its table: line A first, then line B. -/
def Dev.lineBuilt (d : Dev) (k : Nat) (taps : List Nat) : Dev :=
  d.modLine k (fun _ => ({ d.line k with seen := d.tb.recals.length, lastSwap := d.tick } : Lines).rebuilt (!decide ((d.line k).tapsA = [])) taps)

section
variable (d : Dev) (k : Nat) (taps : List Nat)

theorem lineBuilt_frame : Dev.Frame [.lines] [] d (d.lineBuilt k taps) := Dev.modLine_frame _ _ _ _ (by simp)

theorem lineBuilt_same : (d.lineBuilt k taps).line k =
    ({ d.line k with seen := d.tb.recals.length, lastSwap := d.tick } : Lines).rebuilt (!decide ((d.line k).tapsA = [])) taps := by
  rw [Dev.lineBuilt, Dev.line_modLine_same]

theorem lineBuilt_ne {m : Nat} (h : m ≠ k) : (d.lineBuilt k taps).line m = d.line m := by
  rw [Dev.lineBuilt, Dev.line_modLine_ne _ _ h]

end

/-- Both lines of every owner in quadrant `q` have their tables. -/
def Dev.linesDone (d : Dev) (q : Nat) : Bool := (lineOwners q).all (fun k => (d.line k).tapsB != [])

/-- R46: the first calibration of quadrant `q` ends once all lines are done. -/
def Dev.calEnds (d : Dev) (q : Nat) : Dev :=
  if d.linesDone q then (d.put TB_STATUS_CAL_DONE (setBitAt (d.get TB_STATUS_CAL_DONE) q true)).modQuad q (fun y => { y with calStart := none }) else d

theorem lineDone_builds {n : Nat} (hc : d.calDone (lineQuad x) = false) (h : (d.quad (lineQuad x)).calStart = some n)
    (ht : n + (if (d.line (lineNo x)).tapsA = [] then 76800 else 153600) ≤ d.tick) (hb : (d.line (lineNo x)).tapsB = []) :
    d.lineDone x hits = (d.lineBuilt (lineNo x) (tapTable hits)).calEnds (lineQuad x) := by
  have hlines : (if (d.line (lineNo x)).tapsA = [] then
      ({ d.line (lineNo x) with seen := d.tb.recals.length, lastSwap := d.tick, tapsA := tapTable hits } : Lines)
      else { d.line (lineNo x) with seen := d.tb.recals.length, lastSwap := d.tick, tapsB := tapTable hits }) =
      ({ d.line (lineNo x) with seen := d.tb.recals.length, lastSwap := d.tick } : Lines).rebuilt (!decide ((d.line (lineNo x)).tapsA = [])) (tapTable hits) := by
    unfold Lines.rebuilt
    by_cases ha : (d.line (lineNo x)).tapsA = [] <;> simp [ha]
  unfold Dev.lineDone Dev.lineBuilt Dev.calEnds
  dsimp only
  rw [if_neg (by rw [hc]; simp), h, ← hlines]
  exact if_neg (by simpa [hb] using ht)

end

section
variable (d : Dev) (q : Nat)

theorem calEnds_frame : Dev.Frame [.quads] [TB_STATUS_CAL_DONE] d (d.calEnds q) :=
  Dev.Frame.ite (fun _ => (Dev.put_frame _ _ _ _ (fit rfl) (by simp)).trans (Dev.modQuad_frame _ _ _ _ (by simp))) (fun _ => Dev.Frame.refl _ _ _)

theorem calEnds_line (k : Nat) : (d.calEnds q).line k = d.line k := line_of_lines ((calEnds_frame d q).part .lines (by simp)) k

theorem calEnds_quad {m : Nat} (h : m ≠ q) : (d.calEnds q).quad m = d.quad m := by
  unfold Dev.calEnds
  split
  · rw [Dev.quad_modQuad_ne _ _ h, Dev.quad_put]
  · rfl

/-- R46: CAL_DONE of a quadrant is set with its last line. -/
theorem calEnds_done (hq : q < 4) (h : d.calDone q = false) : (d.calEnds q).calDone q = d.linesDone q := by
  unfold Dev.calEnds
  split
  · next hall =>
    rw [hall, Dev.calDone, Dev.modQuad_get, Dev.get_put_same _ _ _ (fit rfl), bitAt_eq_testBit, Nat.testBit_mod_two_pow, ← bitAt_eq_testBit,
      bitAt_setBitAt, if_pos rfl, Bool.and_true]
    exact decide_eq_true hq
  · next hnot =>
    rw [h, Bool.eq_false_iff.2 hnot]

end

/-! ## The start of the first calibration (R46) -/

/-- A table without the entries at the places that `c` names. -/
theorem Tab.get_filter {α : Type} (z : α) (c : Nat → Bool) (t : Tab α) (k : Nat) :
    Tab.get z (t.filter (fun p => !c p.1)) k = if c k = true then z else Tab.get z t k := by
  induction t with
  | nil => exact (ite_self _).symm
  | cons p t ih =>
    obtain ⟨j, v⟩ := p
    by_cases hj : c j = true
    · by_cases hk : k = j
      · simp [hj, hk, hk ▸ ih]
      · simp [hj, hk, Tab.get, ih]
    · by_cases hk : k = j
      · simp [hj, hk, Tab.get]
      · simp [hj, hk, Tab.get, ih]

/-- Owner `k` is one of quadrant `q`. -/
def lineMine (q k : Nat) : Bool := (k < 256 && k / 64 == q) || (256 ≤ k && k < 280 && (k - 256) / 6 == q) || (512 ≤ k && (k - 512) / 128 == q)

theorem lineMine_iff {q : Nat} (hq : q < 4) (k : Nat) : lineMine q k = true ↔ k ∈ lineOwners q := by
  simp only [lineMine, lineOwners, List.mem_append, List.mem_map, List.mem_range, Bool.or_eq_true, Bool.and_eq_true, decide_eq_true_eq, beq_iff_eq]
  constructor
  · rintro ((⟨h1, h2⟩ | ⟨⟨h1, h2⟩, h3⟩) | ⟨h1, h2⟩)
    · exact .inl (.inl ⟨k - 64 * q, by omega, by omega⟩)
    · exact .inl (.inr ⟨k - (256 + 6 * q), by omega, by omega⟩)
    · exact .inr ⟨k - (512 + 128 * q), by omega, by omega⟩
  · rintro ((⟨j, hj, rfl⟩ | ⟨j, hj, rfl⟩) | ⟨j, hj, rfl⟩) <;> omega

section
variable {d : Dev} {q : Nat}

theorem firstCalibration_done (h : d.calDone q = true) : d.firstCalibration q = d := if_neg fun c => c.2.2.1 h

/-- The device once the first calibration of quadrant `q` has begun. -/
def Dev.calBegins (d : Dev) (q : Nat) : Dev :=
  let e := d.modQuad q (fun x => { x with calStart := some d.tick })
  { e with lines := e.lines.filter (fun p => !lineMine q p.1) }

theorem firstCalibration_begins (hr : d.tb.running = true) (hq : d.quadDown q = false) (hc : d.calDone q = false) (h : (d.quad q).calStart = none) :
    d.firstCalibration q = d.calBegins q := if_pos ⟨hr, by rw [hq]; simp, by rw [hc]; simp, h⟩

theorem calBegins_frame : Dev.Frame [.lines, .quads] [] d (d.calBegins q) :=
  (Dev.modQuad_frame _ _ _ _ (by simp)).trans (Dev.lines_frame _ _ _ (by simp))

theorem calBegins_line (k : Nat) : (d.calBegins q).line k = if lineMine q k = true then {} else d.line k := by
  unfold Dev.calBegins
  exact Tab.get_filter ({} : Lines) (lineMine q) d.lines k

theorem calBegins_quad_same : ((d.calBegins q).quad q).calStart = some d.tick := congrArg Quad.calStart (Dev.quad_modQuad_same d q fun x => { x with calStart := some d.tick })

theorem calBegins_quad_ne {m : Nat} (h : m ≠ q) : (d.calBegins q).quad m = d.quad m := Dev.quad_modQuad_ne d (fun x => { x with calStart := some d.tick }) h

end

/-! ## Swaps (R48) -/

/-- R48: the lines after a swap at tick `tick`. -/
def Lines.swapped (l : Lines) (tick : Nat) : Lines := { l with activeB := !l.activeB, ready := none, lastSwap := tick, deferred := false }

/-- The device with the lines of owner `k` swapped. -/
def Dev.lineSwapped (d : Dev) (k : Nat) : Dev :=
  let e := d.modLine k (fun l => l.swapped d.tick)
  { e with tb := { e.tb with swapTemp := sgn 16 (d.get PWR_TEMP_TEMP) } }

section
variable {d : Dev} {k : Nat}

theorem lineSwapped_frame : Dev.Frame [.lines, .tb] [] d (d.lineSwapped k) :=
  (Dev.modLine_frame _ _ _ _ (by simp)).trans (Dev.tb_frame _ _ _ (by simp))

theorem lineSwapped_same : (d.lineSwapped k).line k = (d.line k).swapped d.tick := Dev.line_modLine_same d k fun l => l.swapped d.tick

theorem lineSwapped_ne {m : Nat} (h : m ≠ k) : (d.lineSwapped k).line m = d.line m := Dev.line_modLine_ne d (fun l => l.swapped d.tick) h

theorem swapLine_sampler (h : 256 ≤ k) : d.swapLine k = d.lineSwapped k := if_neg (Nat.not_lt.2 h)

theorem swapLine_generator (h : k < 256) : d.swapLine k =
    ((d.lineSwapped k).putB (FE_STATUS_LINE k) (!(d.line k).activeB)).put (FE_STATUS_CAL_STALE k) 0 := by
  have hactive : ((d.lineSwapped k).line k).activeB = !(d.line k).activeB := congrArg Lines.activeB lineSwapped_same
  rw [← hactive]
  exact if_pos h

end

theorem lineSwap_none {d : Dev} {x : LineOwner} (h : (d.line (lineNo x)).ready = none) : d.lineSwap x = d := if_pos (by rw [h]; rfl)

theorem sampler_no {x : LineOwner} (h : ∀ g, x ≠ .generator g) : 256 ≤ lineNo x := by
  cases x with
  | generator g => exact absurd rfl (h g)
  | axisInput a p => dsimp only [lineNo]; omega
  | laneInput n => dsimp only [lineNo]; omega

section
variable {d : Dev} {x : LineOwner} (hx : ∀ g, x ≠ .generator g)
include hx

theorem lineSwap_latched (h : (d.line (lineNo x)).latched = d.tick + 1) : d.lineSwap x = d := by
  unfold Dev.lineSwap
  dsimp only
  rw [if_pos (sampler_no hx), if_pos h, ite_self]

theorem lineSwap_sampler (hr : (d.line (lineNo x)).ready.isSome = true) (h : (d.line (lineNo x)).latched ≠ d.tick + 1) :
    d.lineSwap x = d.lineSwapped (lineNo x) := by
  unfold Dev.lineSwap
  dsimp only
  rw [if_neg (by rw [Option.isNone_iff_eq_none]; exact Option.isSome_iff_ne_none.1 hr), if_pos (sampler_no hx), if_neg h, swapLine_sampler (sampler_no hx)]

end

/-- R48: a generator that is no member of a pair swaps at its own boundary. -/
theorem lineSwap_single {d : Dev} {g : Fin 256} (hr : (d.line g).ready.isSome = true) (h1 : d.fePaired g = false) (h2 : d.fePair g = false) :
    d.lineSwap (.generator g) = if d.feBoundary g = true then d.swapLine g else d := by
  unfold Dev.lineSwap
  dsimp only [lineNo]
  rw [if_neg (by rw [Option.isNone_iff_eq_none]; exact Option.isSome_iff_ne_none.1 hr), if_neg (Nat.not_le.2 g.isLt), if_neg (show ¬ d.fePaired g = true by rw [h1]; simp),
    if_neg (show ¬ d.fePair g = true by rw [h2]; simp)]

/-! ## A swap put off (R50, R59) -/

theorem calDefer_none {d : Dev} {n : Nat} (h : (d.line n).ready = none) : d.calDefer n = d := by
  unfold Dev.calDefer
  rw [h]

theorem calDefer_late {d : Dev} {n t : Nat} (h : (d.line n).ready = some t) (ht : t + msTicks (max 1 (d.get TB_CALCFG_SWAP_WAIT)) ≤ d.tick) :
    d.calDefer n = (d.modLine n (fun l => { l with ready := none, deferred := true })).raise (FE_STATUS_CAL_DEFER n) := by
  unfold Dev.calDefer
  rw [h]
  exact if_pos ht

theorem calStale_late {d : Dev} {n : Nat} (h : (d.line n).deferred = true) (ht : (d.line n).lastSwap + 800000000 ≤ d.tick) :
    d.calStale n = d.raise (FE_STATUS_CAL_STALE n) := if_pos ⟨h, ht⟩

theorem calStale_idle {d : Dev} {n : Nat} (h : (d.line n).deferred = false) : d.calStale n = d := if_neg (by rw [h]; simp)

/-! ## The triggers (R49, R59) -/

theorem recalInterval_idle {d : Dev} (h : d.tick < d.tb.lastInterval + 800000 * max 1 (min 1000 (d.get TB_CALCFG_INTERVAL))) : d.recalInterval = d := by
  refine if_neg fun c => ?_
  have := c.2
  simp only [msTicks, clampN] at this
  omega

theorem recalInterval_triggers {d : Dev} (hr : d.tb.running = true) (h : d.tb.lastInterval + 800000 * max 1 (min 1000 (d.get TB_CALCFG_INTERVAL)) ≤ d.tick) :
    d.recalInterval = ({ d with tb := { d.tb with lastInterval := d.tick } } : Dev).recalTrigger :=
  if_pos ⟨hr, by simp only [msTicks, clampN]; omega⟩

theorem recalTemperature_idle {d : Dev} {x : Int} (h : d.get TB_CALCFG_TSTEP = 0 ∨ (x - d.tb.swapTemp).natAbs < 16 * d.get TB_CALCFG_TSTEP) :
    d.recalTemperature x = d := by
  refine if_neg ?_
  rintro ⟨h0, -, h1⟩
  rcases h with h | h
  · exact h0 h
  · omega

theorem recalTemperature_triggers {d : Dev} {x : Int} (h0 : d.get TB_CALCFG_TSTEP ≠ 0) (hr : d.tb.running = true)
    (h : 16 * d.get TB_CALCFG_TSTEP ≤ (x - d.tb.swapTemp).natAbs) : d.recalTemperature x = d.recalTrigger := if_pos ⟨h0, hr, by omega⟩

section
variable (d : Dev) (g : Nat)

/-- The device once a generator has swapped. -/
def Dev.genSwapped (d : Dev) (g : Nat) : Dev :=
  ((d.lineSwapped g).putB (FE_STATUS_LINE g) (!(d.line g).activeB)).put (FE_STATUS_CAL_STALE g) 0

theorem genSwapped_frame : Dev.Frame [.lines, .tb] [FE_STATUS_LINE g, FE_STATUS_CAL_STALE g] d (d.genSwapped g) :=
  (lineSwapped_frame.mono (by simp) (by simp)).trans ((Dev.put_frame _ _ _ _ (fit rfl) (by simp)).trans (Dev.put_frame _ _ _ _ (fit rfl) (by simp)))

theorem genSwapped_line (m : Nat) : (d.genSwapped g).line m = (d.lineSwapped g).line m := by
  unfold Dev.genSwapped Dev.putB
  rw [Dev.line_put, Dev.line_put]

theorem genSwapped_flag : (d.genSwapped g).flag (FE_STATUS_LINE g) = !(d.line g).activeB := by
  rw [Dev.genSwapped, Dev.flag, Dev.get_put_ne _ _ (fit rfl) (apart_of (by simp [Fld.isApart, FE_STATUS_CAL_STALE, FE_STATUS_LINE])), Dev.putB,
    Dev.get_put_same _ _ _ (fit rfl)]
  cases (d.line g).activeB <;> rfl

theorem genSwapped_stale : (d.genSwapped g).get (FE_STATUS_CAL_STALE g) = 0 := Dev.get_put_same _ _ _ (fit rfl)

/-- The device once generator `g` has put its swap off. -/
def Dev.calDeferred (d : Dev) (g : Nat) : Dev := (d.modLine g (fun l => { l with ready := none, deferred := true })).raise (FE_STATUS_CAL_DEFER g)

theorem calDeferred_frame : Dev.Frame [.lines] [FE_STATUS_CAL_DEFER g] d (d.calDeferred g) :=
  (Dev.modLine_frame _ _ _ _ (by simp)).trans (Dev.raise_frame _ _ _ (fit rfl) (by simp))

theorem calDeferred_flag : (d.calDeferred g).get (FE_STATUS_CAL_DEFER g) = 1 := Dev.get_put_same _ _ _ (fit rfl)

theorem calDeferred_line : (d.calDeferred g).line g = { d.line g with ready := none, deferred := true } := by
  rw [Dev.calDeferred, Dev.raise, Dev.line_put, Dev.line_modLine_same]

theorem get_raise (f : Fld) (h : f.w = 1) (hf : f.lo + f.w ≤ 32) : (d.raise f).get f = 1 := by
  rw [Dev.raise, Dev.get_put_same _ _ _ hf, h]
  rfl

end

/-- Settles O23: the tap table by the search over the cumulative hits, the first calibration line by line, and the swaps by what they wait for. -/
theorem linesCalibrateAndSwap : Obligations.LinesCalibrateAndSwap := by
  unfold Obligations.LinesCalibrateAndSwap
  intro s
  have hdone {x : LineOwner} {hits : List Nat} {e : Dev} (h1 : hits.length = 192) (h2 : hits.sum = 65536) (h : s.dev.lineDone x hits = e) :
      exec (.lineCalibrationDone x hits) s = .next { s with dev := e } :=
    (if_pos ⟨h1, h2⟩).trans (onDev_of (f := fun d => d.lineDone x hits) h)
  refine ⟨fun hits hlen hsum => ⟨by simp [tapTable], fun k hk => ?_⟩, fun x hits h => if_neg fun c => h.elim (· c.1) (· c.2),
    fun x hits h1 h2 => ⟨fun hc ho hs => hdone h1 h2 (lineDone_served hc ho hs), fun hc h => ?_, fun hc h => hdone h1 h2 (lineDone_none hc h),
      fun n hc hn hq => ⟨fun h => hdone h1 h2 (lineDone_early hc hn ?_), fun hb ht => ?_⟩⟩,
    fun q => ⟨fun h => onDev_idle (f := fun d => d.firstCalibration q) (firstCalibration_done h), fun hr hq hc h => ?_⟩,
    fun x hx => ⟨fun h => onDev_idle (f := fun d => d.lineSwap x) (h.elim lineSwap_none (lineSwap_latched hx)), fun hr h => ?_⟩,
    fun g => ⟨fun h => ⟨onDev_idle (f := fun d => d.lineSwap (.generator g)) (lineSwap_none h), onDev_idle (f := fun d => d.calDefer g) (calDefer_none h)⟩,
      fun hr h1 h2 => ⟨fun h => onDev_idle (f := fun d => d.lineSwap (.generator g)) ((lineSwap_single hr h1 h2).trans (if_neg (by rw [h]; simp))), fun h => ?_⟩,
      fun n hn ht => ?_, fun h ht => ?_, fun h => onDev_idle (f := fun d => d.calStale g) (calStale_idle h)⟩,
    ⟨fun h => onDev_idle (f := Dev.recalInterval) (recalInterval_idle h), fun hr h => onDev_of (f := Dev.recalInterval) (recalInterval_triggers hr h)⟩,
    fun x => ⟨fun h => onDev_idle (f := fun d => d.recalTemperature x) (recalTemperature_idle h),
      fun h0 hr h => onDev_of (f := fun d => d.recalTemperature x) (recalTemperature_triggers h0 hr h)⟩⟩
  · obtain ⟨i, hi, hbelow, hleast⟩ := tapTable_nearest (hits := hits) (by omega) hk
    refine ⟨i, hi, by omega, fun j hj => ?_⟩
    have h := hleast j (by omega)
    simp only [apartBy_natAbs, Nat.cast_mul, Nat.cast_ofNat] at h
    exact h
  · have hsame := Dev.line_modLine_same s.dev (lineNo x) (fun _ => (s.dev.line (lineNo x)).rebuiltStandby s.dev.tb.recals.length s.dev.tick (tapTable hits))
    refine ⟨_, hdone h1 h2 (lineDone_rebuilds hc h), ?_, ?_, fun ha => ?_, fun ha => ?_, fun m hm => Dev.line_modLine_ne _ _ hm,
      (Dev.modLine_frame _ _ _ _ (by simp)).lift⟩
    all_goals dsimp only
    all_goals rw [hsame]
    all_goals unfold Lines.rebuiltStandby Lines.rebuilt
    · split <;> rfl
    · split <;> rfl
    · rw [if_neg (by rw [ha]; simp)]
      exact ⟨rfl, rfl⟩
    · rw [if_pos (by rw [ha]; simp)]
      exact ⟨rfl, rfl⟩
  · by_cases ha : (s.dev.line (lineNo x)).tapsA = []
    · rw [if_pos ha]
      exact h.elim .inr (.inl <| ·.elim id (absurd ha ·.1))
    · rw [if_neg ha]
      exact h.elim .inr (.inl <| ·.elim (by omega) (·.2))
  · have hline (k : Nat) : (s.dev.lineDone x hits).line k = (s.dev.lineBuilt (lineNo x) (tapTable hits)).line k := by
      rw [lineDone_builds hc hn ht hb, calEnds_line]
    have hsame := lineBuilt_same s.dev (lineNo x) (tapTable hits)
    refine ⟨_, hdone h1 h2 rfl, fun ha => ?_, fun ha => ?_, ?_, fun m hm => (hline m).trans (lineBuilt_ne _ _ _ hm), fun q hq' => ?_, ?_⟩
    · dsimp only
      rw [hline, hsame, Lines.rebuilt, if_neg (by simpa using ha)]
      exact ⟨rfl, hb⟩
    · dsimp only
      rw [hline, hsame, Lines.rebuilt, if_pos (by simpa using ha)]
      exact ⟨rfl, rfl⟩
    · have hcal : (s.dev.lineDone x hits).calDone (lineQuad x) = (s.dev.lineBuilt (lineNo x) (tapTable hits)).linesDone (lineQuad x) := by
        rw [lineDone_builds hc hn ht hb, calEnds_done _ _ hq (show (s.dev.lineBuilt (lineNo x) (tapTable hits)).calDone (lineQuad x) = false from hc)]
      dsimp only
      rw [hcal]
      simp only [hline, Dev.linesDone, List.all_eq_true, bne_iff_ne]
    · dsimp only
      rw [lineDone_builds hc hn ht hb, calEnds_quad _ _ hq']
      rfl
    · rw [lineDone_builds hc hn ht hb]
      exact ((lineBuilt_frame s.dev _ _).mono (by simp) (by simp) |>.trans ((calEnds_frame _ _).mono (by simp) (by simp))).lift
  · exact ⟨_, onDev_of (f := fun d => d.firstCalibration q) (firstCalibration_begins hr hq hc h), calBegins_quad_same,
      fun k => ⟨fun hk => (calBegins_line k).trans (if_pos ((lineMine_iff q.isLt k).2 hk)),
        fun hk => (calBegins_line k).trans (if_neg fun c => hk ((lineMine_iff q.isLt k).1 c))⟩,
      fun m hm => calBegins_quad_ne hm, calBegins_frame.lift⟩
  · exact ⟨_, onDev_of (f := fun d => d.lineSwap x) (lineSwap_sampler hx hr h), lineSwapped_same, fun m hm => lineSwapped_ne hm, lineSwapped_frame.lift⟩
  · exact ⟨_, onDev_of (f := fun d => d.lineSwap (.generator g)) ((lineSwap_single hr h1 h2).trans ((if_pos h).trans (swapLine_generator (d := s.dev) g.isLt))),
      (genSwapped_line s.dev g g).trans lineSwapped_same, genSwapped_flag s.dev g, genSwapped_stale s.dev g,
      fun m hm => (genSwapped_line s.dev g m).trans (lineSwapped_ne hm), (genSwapped_frame s.dev g).lift⟩
  · exact ⟨_, onDev_of (f := fun d => d.calDefer g) (calDefer_late hn (by simp only [msTicks]; omega)), calDeferred_flag s.dev g, calDeferred_line s.dev g,
      (calDeferred_frame s.dev g).lift⟩
  · exact ⟨_, onDev_of (f := fun d => d.calStale g) (calStale_late h ht), get_raise s.dev _ rfl (fit rfl), (Dev.raise_frame _ _ _ (fit rfl) (by simp)).lift⟩

end Sys2Proof.Machine
end

section
/-! PROOF. What an edge latch of an axis reaches (R70): the frames of the operations that it is made of, and of what learns of it. -/

namespace Sys2Proof.Machine

theorem Dev.modAxis_frame {ps : List Part} (fs : List Fld) (d : Dev) (a : Nat) (f : Axis → Axis) (hp : Part.axes ∈ ps) :
    Dev.Frame ps fs d (d.modAxis a f) :=
  fun _ => ⟨fun p h => by cases p <;> first | rfl | exact absurd hp h, fun _ _ => rfl⟩

theorem Dev.modEmu_frame {ps : List Part} (fs : List Fld) (d : Dev) (b : Nat) (f : Emu → Emu) (hp : Part.emus ∈ ps) :
    Dev.Frame ps fs d (d.modEmu b f) :=
  fun _ => ⟨fun p h => by cases p <;> first | rfl | exact absurd hp h, fun _ _ => rfl⟩

theorem Dev.modCar_frame {ps : List Part} (fs : List Fld) (d : Dev) (c : Nat) (f : Carriage → Carriage) (hp : Part.cars ∈ ps) :
    Dev.Frame ps fs d (d.modCar c f) :=
  fun _ => ⟨fun p h => by cases p <;> first | rfl | exact absurd hp h, fun _ _ => rfl⟩

theorem Dev.msgs_frame {ps : List Part} (fs : List Fld) (d : Dev) (l : List AxMsg) (hp : Part.msgs ∈ ps) : Dev.Frame ps fs d { d with msgs := l } :=
  fun _ => ⟨fun p h => by cases p <;> first | rfl | exact absurd hp h, fun _ _ => rfl⟩

theorem Dev.raiseRecAt_frame {ps : List Part} (fs : List Fld) (d : Dev) (q s t : Nat) (r : Rec) (hp : Part.quads ∈ ps) :
    Dev.Frame ps fs d (d.raiseRecAt q s t r) :=
  fun _ => ⟨fun p h => by cases p <;> first | exact absurd hp h | simp [Part.same], fun _ _ => by simp⟩

theorem axis_of_axes {d e : Dev} (h : e.axes = d.axes) (k : Nat) : e.axis k = d.axis k := by rw [Dev.axis, Dev.axis, h]

theorem Dev.Frame.axis {ps : List Part} {fs : List Fld} {d e : Dev} (h : Dev.Frame ps fs d e) (hp : Part.axes ∉ ps) (k : Nat) : e.axis k = d.axis k :=
  axis_of_axes (h.part .axes hp) k

theorem Dev.Frame.flag {ps : List Part} {fs : List Fld} {d e : Dev} (h : Dev.Frame ps fs d e) (g : Fld) (hg : ∀ f ∈ fs, f.apart g) :
    e.flag g = d.flag g := by rw [Dev.flag, Dev.flag, h.get g hg]

/-! ## Events, records and faults -/

theorem axEvent_frame (d : Dev) (a kind t : Nat) : Dev.Frame [.xev] [] d (d.axEvent a kind t) := Dev.raiseEventAt_frame _ _ _ _ _ _ (by simp)

theorem axRec_frame (d : Dev) (a t : Nat) (r : Rec) : Dev.Frame [.quads] [] d (d.axRec a t r) := Dev.raiseRecAt_frame _ _ _ _ _ _ (by simp)

/-- R92: the device once axis `a` shows a fault, before its event and its record. -/
def Dev.axFaulted (d : Dev) (a cause : Nat) : Dev :=
  if d.flag (AXIS_STATUS_FAULT a) then d else (d.raise (AXIS_STATUS_FAULT a)).put (AXIS_STATUS_FAULT_CAUSE a) cause

theorem axFault_told (d : Dev) (a cause t : Nat) : Dev.Frame [.quads, .xev] [] (d.axFaulted a cause) (d.axFault a cause t) :=
  .trans ((axEvent_frame _ _ _ _).mono (by simp) (by simp)) ((axRec_frame _ _ _ _).mono (by simp) (by simp))

theorem axFault_frame (d : Dev) (a cause t : Nat) :
    Dev.Frame [.quads, .xev] [AXIS_STATUS_FAULT a, AXIS_STATUS_FAULT_CAUSE a] d (d.axFault a cause t) := by
  refine .trans ?_ ((axFault_told d a cause t).mono (by simp) (by simp))
  exact .ite (fun _ => .refl _ _ _) (fun _ => .trans (Dev.raise_frame _ _ _ (fit rfl) (by simp)) (Dev.put_frame _ _ _ _ (fit rfl) (by simp)))

theorem axFault_flag (d : Dev) (a cause t : Nat) : (d.axFault a cause t).get (AXIS_STATUS_FAULT a) = 1 := by
  rw [(axFault_told d a cause t).get _ (by simp), Dev.axFaulted]
  split
  · next h =>
    have hlt : d.get (AXIS_STATUS_FAULT a) < 2 := Dev.get_lt d _
    have hne := (Dev.flag_iff d _).1 h
    omega
  · have hap : (AXIS_STATUS_FAULT_CAUSE a).apart (AXIS_STATUS_FAULT a) := .inr (.inr (Nat.le_refl 15))
    rw [Dev.get_put_ne _ _ (fit rfl) hap, Dev.raise, Dev.get_put_same _ _ _ (fit rfl)]
    rfl

theorem axFault_cause (d : Dev) (a cause t : Nat) : (d.axFault a cause t).get (AXIS_STATUS_FAULT_CAUSE a) =
    if d.flag (AXIS_STATUS_FAULT a) then d.get (AXIS_STATUS_FAULT_CAUSE a) else cause % 8 := by
  rw [(axFault_told d a cause t).get _ (by simp), Dev.axFaulted]
  split
  · rfl
  · rw [Dev.get_put_same _ _ _ (fit rfl)]
    rfl

/-! ## What the emulators do with a latch (R110 to R114) -/

/-- The registers of emulator `b` that a latch can reach (R113, R114). -/
def emuFields (b : Nat) : List Fld :=
  [AXIS_EMU_STATUS_OVERSPEED b, AXIS_EMU_STATUS_FAULT b, AXIS_EMU_STATUS_LATE b, AXIS_EMU_LOSTCNT_CNT b]

theorem emuPush_frame (d : Dev) (b : Nat) (e : EmuDue) : Dev.Frame [.emus] (emuFields b) d (d.emuPush b e) := by
  have hlate (c : Bool) : Dev.Frame [.emus] (emuFields b) d (if c then d.raise (AXIS_EMU_STATUS_OVERSPEED b) else d) :=
    .then_ite (.refl _ _ _) (Dev.raise_frame _ _ _ (fit rfl) (by simp [emuFields]))
  have hlost (f : Dev) : Dev.Frame [.emus] (emuFields b) f
      (if e.early then f else (f.incSat (AXIS_EMU_LOSTCNT_CNT b)).raise (AXIS_EMU_STATUS_FAULT b)) :=
    .ite (fun _ => .refl _ _ _) fun _ =>
      .trans (Dev.incSat_frame _ _ _ (fit rfl) (by simp [emuFields])) (Dev.raise_frame _ _ _ (fit rfl) (by simp [emuFields]))
  exact .ite (fun _ => (hlate _).trans (hlost _)) (fun _ => (hlate _).trans (Dev.modEmu_frame _ _ _ _ (by simp)))

/-- R113: an output count that could not be placed in time is shown. -/
theorem emuLate_frame (d : Dev) (b : Nat) {c : Prop} [Decidable c] :
    Dev.Frame [.emus] (emuFields b) d (if c then d.raise (AXIS_EMU_STATUS_LATE b) else d) :=
  .then_ite (.refl _ _ _) (Dev.raise_frame _ _ _ (fit rfl) (by simp [emuFields]))

theorem emuCount_frame (d : Dev) (b : Nat) (l : EmuLatch) (up : Bool) (i : Nat) (early : List EmuDue) :
    Dev.Frame [.emus] (emuFields b) d (d.emuCount b l up i early).2 := by
  have hmod (e : Dev) (f : Emu → Emu) : Dev.Frame [.emus] (emuFields b) e (e.modEmu b f) := Dev.modEmu_frame _ _ _ _ (by simp)
  unfold Dev.emuCount
  dsimp only
  split
  · exact hmod _ _
  · split
    · exact (hmod _ _).trans (hmod _ _)
    · split
      · exact (hmod _ _).trans (emuPush_frame _ _ _)
      · exact (hmod _ _).trans ((emuLate_frame _ _).trans (emuPush_frame _ _ _))

theorem emuLook_frame (b : Nat) (v : AxView) (t : Nat) (up : Bool) (fuel : Nat) (d : Dev) (k skip : Nat) :
    Dev.Frame [.emus] (emuFields b) d (d.emuLook b v t up fuel k skip) := by
  induction fuel generalizing d k skip with
  | zero => exact .refl _ _ _
  | succ fuel ih =>
    unfold Dev.emuLook
    refine .ite (fun _ => .trans ?_ (ih _ _ _)) (fun _ => .refl _ _ _)
    exact .ite (fun _ => .refl _ _ _) (fun _ => (emuLate_frame _ _).trans (emuPush_frame _ _ _))

theorem emuUndo_frame (b due k : Nat) (d : Dev) : Dev.Frame [.emus] (emuFields b) d (d.emuUndo b due k) := by
  induction k generalizing d with
  | zero => exact .refl _ _ _
  | succ k ih => exact ((Dev.modEmu_frame _ _ _ _ (by simp)).trans (emuPush_frame _ _ _)).trans (ih _)

theorem emuCounts_frame (b : Nat) (l : EmuLatch) (up : Bool) (is : List Nat) (p : List EmuDue × Dev) :
    Dev.Frame [.emus] (emuFields b) p.2 (is.foldl (fun p i => p.2.emuCount b l up i p.1) p).2 := by
  induction is generalizing p with
  | nil => exact .refl _ _ _
  | cons i is ih => exact (emuCount_frame _ _ _ _ _ _).trans (ih _)

theorem emuTake_frame (d : Dev) (b : Nat) (l : EmuLatch) (n : Int) (now : AxView) : Dev.Frame [.emus] (emuFields b) d (d.emuTake b l n now) := by
  have hmod (e : Dev) (f : Emu → Emu) : Dev.Frame [.emus] (emuFields b) e (e.modEmu b f) := Dev.modEmu_frame _ _ _ _ (by simp)
  have hundo (e : Dev) {c : Prop} [Decidable c] (k : Nat) : Dev.Frame [.emus] (emuFields b) e (if c then e.emuUndo b l.t k else e) :=
    .then_ite (.refl _ _ _) (emuUndo_frame _ _ _ _)
  have hpast (e : Dev) (f : Emu → Emu) : Dev.Frame [.emus] (emuFields b) e (if n = 0 then e else e.modEmu b f) :=
    .ite (fun _ => .refl _ _ _) (fun _ => hmod _ _)
  refine .ite (fun _ => .refl _ _ _) fun _ => .then_ite ?_ (emuLook_frame _ _ _ _ _ _ _ _)
  exact (((hmod _ _).trans (hundo _ _)).trans (emuCounts_frame b l _ _ (_, _))).trans (hpast _ _)

/-- The registers of the emulators that a latch can reach. -/
def emusFields : List Fld := (List.range 8).flatMap emuFields

theorem emuAll_frame (d : Dev) (a t : Nat) (v : AxView) (ft n : Int) (jump : Bool) :
    Dev.Frame [.emus] emusFields d (d.emuAll a t v ft n jump) := by
  refine Dev.foldl_frame _ _ _ _ (fun b hb e => .then_ite (.refl _ _ _) ((emuTake_frame _ _ _ _ _).mono (by simp) fun f hf => ?_)) d
  exact List.mem_flatMap.2 ⟨b, by simp at hb ⊢; omega, hf⟩

/-! ## What the channels, the carriages and the slices learn -/

theorem tcAxisEdge_frame (d : Dev) (a t : Nat) (inc : Int) : Dev.Frame [.tcs] [] d (d.tcAxisEdge a t inc) :=
  Dev.forList_frame _ _ _ _ (fun _ _ _ => .then_ite (.refl _ _ _) (Dev.modTc_frame _ _ _ _ (by simp))) d

theorem carClose_frame (d : Dev) (c reason t : Nat) (keep : Slot → Bool) :
    Dev.Frame [.slices, .cars, .quads, .xev] [] d (d.carClose c reason t keep) := by
  refine .ite (fun _ => .refl _ _ _) fun _ => ?_
  exact (((Dev.modSlice_frame _ d _ _ (by simp)).trans (Dev.modCar_frame _ _ _ _ (by simp))).trans (Dev.raiseRecAt_frame _ _ _ _ _ _ (by simp))).trans
    (Dev.raiseEventAt_frame _ _ _ _ _ _ (by simp))

theorem carBacked_frame (d : Dev) (a : Nat) (t16 : Int) (t : Nat) : Dev.Frame [.slices, .cars, .quads, .xev] [] d (d.carBacked a t16 t) :=
  .ite (fun _ => .refl _ _ _) fun _ => Dev.foldl_frame _ _ _ _ (fun _ _ e => carClose_frame e _ _ _ _) d

theorem axSend_frame (d : Dev) (a t : Nat) (m : AxMsg) : Dev.Frame [.msgs] [] d (d.axSend a t m) := Dev.msgs_frame _ _ _ (by simp)

theorem axRemember_frame (d : Dev) (a t : Nat) (v : AxView) : Dev.Frame [.axes] [] d (d.axRemember a t v) := Dev.modAxis_frame _ _ _ _ (by simp)

theorem axHoldShown_frame (d : Dev) (a : Nat) : Dev.Frame [] [AXIS_ESTSTAT_HOLD_ISSUED a, AXIS_HOLDCNT_CNT a] d (d.axHoldShown a) :=
  .trans (Dev.raise_frame _ _ _ (fit rfl) (by simp)) (Dev.incSat_frame _ _ _ (fit rfl) (by simp))

theorem estShift_frame (d : Dev) (a : Nat) (size : Int) : Dev.Frame [.axes] [] d (d.estShift a size) := Dev.modAxis_frame _ _ _ _ (by simp)

theorem estLatch_frame (d : Dev) (a t ft : Nat) (rev brk : Bool) :
    Dev.Frame [.axes, .free] [AXIS_ESTSTAT_REBUILD a] d (d.estLatch a t ft rev brk) := by
  have hanew (c : Bool) : Dev.Frame [.axes, .free] [AXIS_ESTSTAT_REBUILD a] d (if c then d.raise (AXIS_ESTSTAT_REBUILD a) else d) :=
    .then_ite (.refl _ _ _) (Dev.raise_frame _ _ _ (fit rfl) (by simp))
  have hopen (e : Dev) (c : Bool) : Dev.Frame [.axes, .free] [AXIS_ESTSTAT_REBUILD a] e (if c then e.fresh.2 else e) :=
    .then_ite (.refl _ _ _) (Dev.free_frame _ _ _ (by simp))
  exact ((hanew _).trans (hopen _ _)).trans (Dev.modAxis_frame _ _ _ _ (by simp))

end Sys2Proof.Machine
end

section
/-! PROOF. Two's-complement numbers, and where the registers of an axis lie. -/

namespace Sys2Proof.Machine

/-! ## Two's complement -/

theorem sgn_eq_bmod {w : Nat} (hw : 0 < w) (n : Nat) : sgn w n = Int.bmod n (2 ^ w) := by
  obtain ⟨k, rfl⟩ := Nat.exists_eq_add_one_of_ne_zero (Nat.pos_iff_ne_zero.1 hw)
  have hhalf : ((2 ^ (k + 1) : Nat) + 1 : Int) / 2 = 2 ^ k := by push_cast; omega
  have hcast : ((n % 2 ^ (k + 1) : Nat) : Int) = (n : Int) % ((2 ^ (k + 1) : Nat) : Int) := by push_cast; rfl
  rw [Int.bmod_def, hhalf, ← hcast]
  unfold sgn
  rw [Nat.add_sub_cancel]
  push_cast
  exact if_congr (by exact_mod_cast Iff.rfl) rfl rfl

theorem uns_cast (w : Nat) (i : Int) : (uns w i : Int) = i % (2 ^ w : Int) := Int.toNat_of_nonneg (Int.emod_nonneg _ (by positivity))

theorem uns_lt (w : Nat) (i : Int) : uns w i < 2 ^ w := by
  have h : (uns w i : Int) < 2 ^ w := by rw [uns_cast]; exact Int.emod_lt_of_pos _ (by positivity)
  exact_mod_cast h

theorem sgn_uns_eq_bmod {w : Nat} (hw : 0 < w) (i : Int) : sgn w (uns w i) = Int.bmod i (2 ^ w) := by
  rw [sgn_eq_bmod hw, uns_cast]
  exact_mod_cast Int.emod_bmod i (2 ^ w)

theorem sgn_range {w : Nat} (hw : 0 < w) (n : Nat) : -(2 ^ (w - 1) : Int) ≤ sgn w n ∧ sgn w n < 2 ^ (w - 1) := by
  obtain ⟨k, rfl⟩ := Nat.exists_eq_add_one_of_ne_zero (Nat.pos_iff_ne_zero.1 hw)
  rw [sgn_eq_bmod hw]
  have hlo := Int.le_bmod (x := n) (m := 2 ^ (k + 1)) (by positivity)
  have hhi := Int.bmod_lt (x := n) (m := 2 ^ (k + 1)) (by positivity)
  push_cast at hlo hhi
  rw [Nat.add_sub_cancel]
  omega

/-- A number that fits in `w` signed bits is read back from them. -/
theorem sgn_uns {w : Nat} (hw : 0 < w) {i : Int} (h1 : -(2 ^ (w - 1) : Int) ≤ i) (h2 : i < 2 ^ (w - 1)) : sgn w (uns w i) = i := by
  obtain ⟨k, rfl⟩ := Nat.exists_eq_add_one_of_ne_zero (Nat.pos_iff_ne_zero.1 hw)
  rw [Nat.add_sub_cancel] at h1 h2
  rw [sgn_uns_eq_bmod hw]
  exact Int.bmod_eq_of_le (by push_cast; omega) (by push_cast; omega)

theorem sgn_uns_sgn {w : Nat} (hw : 0 < w) (n : Nat) : sgn w (uns w (sgn w n)) = sgn w n := sgn_uns hw (sgn_range hw n).1 (sgn_range hw n).2

/-! ## Registers of an axis -/

/-- The register at offset `k` of the block of axis `a` (R95). -/
def axisReg (a k : Nat) : Nat := 0x10000 + (a / 2) * 0x8000 + k + (a % 2) * 0x200

theorem axisReg_ne {a b k l : Nat} (hk : 0x400 ≤ k ∧ k < 0x600) (hl : 0x400 ≤ l ∧ l < 0x600) (h : k ≠ l) : axisReg a k ≠ axisReg b l := by
  unfold axisReg
  omega

/-- Two fields of one axis share no bit where they lie in different registers, or at different places of one. -/
theorem axis_apart {a k l lo w lo' w' : Nat} (h : k ≠ l ∨ lo + w ≤ lo' ∨ lo' + w' ≤ lo) :
    (⟨axisReg a k, lo, w⟩ : Fld).apart ⟨axisReg a l, lo', w'⟩ := h.imp_left fun c e => c (by simp only [axisReg] at e; omega)

/-- The registers in which axis `a` holds its position (R80 to R82). -/
def placedFields (a : Nat) : List Fld :=
  [whole (AXIS_POS_LO a), whole (AXIS_POS_HI a), whole (AXIS_EXCESS a), AXIS_STATUS_SAT_HI a, AXIS_STATUS_SAT_LO a]

/-- The registers by which a latch of axis `a` is told (R104, R113, R114). -/
def toldFields (a : Nat) : List Fld := [AXIS_ESTSTAT_HOLD_ISSUED a, AXIS_HOLDCNT_CNT a] ++ emusFields

theorem placed_apart {a k lo w : Nat} (h : k ∉ [0x404, 0x410, 0x414, 0x418] ∨ k = 0x404 ∧ (lo + w ≤ 12 ∨ 14 ≤ lo)) :
    ∀ f ∈ placedFields a, f.apart ⟨axisReg a k, lo, w⟩ := by
  simp only [List.mem_cons, List.not_mem_nil, or_false, not_or] at h
  intro f hf
  simp only [placedFields, List.mem_cons, List.not_mem_nil, or_false] at hf
  rcases hf with rfl | rfl | rfl | rfl | rfl
  · exact axis_apart (k := 0x410) (.inl (by omega))
  · exact axis_apart (k := 0x414) (.inl (by omega))
  · exact axis_apart (k := 0x418) (.inl (by omega))
  · exact axis_apart (k := 0x404) (by omega)
  · exact axis_apart (k := 0x404) (by omega)

theorem emus_apart {a k lo w : Nat} (h : 0x400 ≤ k ∧ k < 0x500) : ∀ f ∈ emusFields, f.apart ⟨axisReg a k, lo, w⟩ := by
  intro f hf
  obtain ⟨b, -, hb⟩ := List.mem_flatMap.1 hf
  simp only [emuFields, List.mem_cons, List.not_mem_nil, or_false] at hb
  rcases hb with rfl | rfl | rfl | rfl
  · exact .inl (axisReg_ne (a := b) (k := 0x520) (by decide) (by omega) (by omega))
  · exact .inl (axisReg_ne (a := b) (k := 0x520) (by decide) (by omega) (by omega))
  · exact .inl (axisReg_ne (a := b) (k := 0x520) (by decide) (by omega) (by omega))
  · exact .inl (axisReg_ne (a := b) (k := 0x524) (by decide) (by omega) (by omega))

theorem told_apart {a k lo w : Nat} (h : 0x400 ≤ k ∧ k < 0x480) : ∀ f ∈ toldFields a, f.apart ⟨axisReg a k, lo, w⟩ := by
  intro f hf
  simp only [toldFields, List.mem_append, List.mem_cons, List.not_mem_nil, or_false] at hf
  rcases hf with (rfl | rfl) | hf
  · exact axis_apart (k := 0x488) (.inl (by omega))
  · exact axis_apart (k := 0x4A0) (.inl (by omega))
  · exact emus_apart (by omega) f hf

end Sys2Proof.Machine
end

section
/-! PROOF. The place of an axis: T, POS, EXCESS and the saturation flags (R80 to R82). -/

namespace Sys2Proof.Machine

/-- R80, R82: EXCESS for the true position `v`, as it can be shown. -/
def Dev.axBound (d : Dev) (a : Nat) (v : Int) : Int := max (-2147483648) (min 2147483647 (d.axExcessOf a (v / 65536)))

/-- R82: T once the true position is `v`, held where EXCESS would leave its range. -/
def Dev.axTrue (d : Dev) (a : Nat) (v : Int) : Int := sgn 64 (uns 64 (v + (d.axBound a v - d.axExcessOf a (v / 65536)) * 65536))

/-- R80: POS for the true position `v`. -/
def Dev.axHeld (d : Dev) (a : Nat) (v : Int) : Int :=
  if d.axBound a v = 0 then d.axTrue a v else if 0 < d.axBound a v then d.axLimitHi a * 65536 else d.axLimitLo a * 65536

/-- The device once axis `a` stands at `v`, before the fault and the limit event. -/
def Dev.axPlaced (d : Dev) (a : Nat) (v : Int) : Dev :=
  let e := d.modAxis a (fun x => { x with t16 := d.axTrue a v, excess := d.axBound a v })
  let e := (e.setPair (AXIS_POS_LO a) (AXIS_POS_HI a) (uns 64 (d.axHeld a v))).setWord (AXIS_EXCESS a) (BitVec.ofNat 32 (uns 32 (d.axBound a v)))
  (e.putB (AXIS_STATUS_SAT_HI a) (decide (0 < d.axBound a v))).putB (AXIS_STATUS_SAT_LO a) (decide (d.axBound a v < 0))

section
variable (d : Dev) (a : Nat) (v : Int) (t : Nat)

theorem axPlace_eq : d.axPlace a v t =
    let e := if d.axBound a v = d.axExcessOf a (v / 65536) then d.axPlaced a v else (d.axPlaced a v).axFault a 5 t
    if ((d.axis a).excess = 0) = (d.axBound a v = 0) then e else e.axEvent a 2 t := rfl

theorem axPlace_told : Dev.Frame [.quads, .xev] [AXIS_STATUS_FAULT a, AXIS_STATUS_FAULT_CAUSE a] (d.axPlaced a v) (d.axPlace a v t) := by
  have hfault : Dev.Frame [.quads, .xev] [AXIS_STATUS_FAULT a, AXIS_STATUS_FAULT_CAUSE a] (d.axPlaced a v)
      (if d.axBound a v = d.axExcessOf a (v / 65536) then d.axPlaced a v else (d.axPlaced a v).axFault a 5 t) :=
    .ite (fun _ => .refl _ _ _) (fun _ => axFault_frame _ _ _ _)
  rw [axPlace_eq]
  exact .ite (fun _ => hfault) (fun _ => hfault.trans ((axEvent_frame _ _ _ _).mono (by simp) (by simp)))

theorem axPlaced_frame : Dev.Frame [.axes] (placedFields a) d (d.axPlaced a v) :=
  ((((Dev.modAxis_frame _ _ _ _ (by simp)).trans (Dev.setPair_frame _ _ _ _ _ (by simp [placedFields]) (by simp [placedFields]))).trans
    (Dev.setWord_frame _ _ _ _ (by simp [placedFields]))).trans (Dev.put_frame _ _ _ _ (fit rfl) (by simp [placedFields]))).trans
    (Dev.put_frame _ _ _ _ (fit rfl) (by simp [placedFields]))

theorem axPlace_frame : Dev.Frame [.axes, .quads, .xev] (placedFields a ++ [AXIS_STATUS_FAULT a, AXIS_STATUS_FAULT_CAUSE a]) d (d.axPlace a v t) :=
  ((axPlaced_frame d a v).mono (by simp) (fun _ h => List.mem_append_left _ h)).trans
    ((axPlace_told d a v t).mono (by simp) (fun _ h => List.mem_append_right _ h))

theorem axPlaced_axis : (d.axPlaced a v).axis a = { d.axis a with t16 := d.axTrue a v, excess := d.axBound a v } :=
  by simp [Dev.axPlaced, Dev.setPair]

theorem axPlaced_axis_ne {m : Nat} (h : m ≠ a) : (d.axPlaced a v).axis m = d.axis m :=
  by simp [Dev.axPlaced, Dev.setPair, Dev.axis_modAxis_ne _ _ h]

theorem axPlace_axis : (d.axPlace a v t).axis a = { d.axis a with t16 := d.axTrue a v, excess := d.axBound a v } :=
  ((axPlace_told d a v t).axis (by simp) a).trans (axPlaced_axis d a v)

theorem axPlace_axis_ne {m : Nat} (h : m ≠ a) : (d.axPlace a v t).axis m = d.axis m :=
  ((axPlace_told d a v t).axis (by simp) m).trans (axPlaced_axis_ne d a v h)

/-- A field of axis `a` but the two of the fault that its place leaves to its flags. -/
theorem fault_apart {k lo w : Nat} (h : k ≠ 0x404 ∨ lo + w ≤ 14) :
    ∀ f ∈ [AXIS_STATUS_FAULT a, AXIS_STATUS_FAULT_CAUSE a], f.apart ⟨axisReg a k, lo, w⟩ := by
  intro f hf
  simp only [List.mem_cons, List.not_mem_nil, or_false] at hf
  rcases hf with rfl | rfl <;> exact axis_apart (k := 0x404) (by omega)

theorem axPlaced_pair : (d.axPlaced a v).pair (AXIS_POS_LO a) (AXIS_POS_HI a) = uns 64 (d.axHeld a v) := by
  have hput (e : Dev) (f : Fld) (b : Bool) (hf : f.off = AXIS_STATUS a) :
      (e.putB f b).pair (AXIS_POS_LO a) (AXIS_POS_HI a) = e.pair (AXIS_POS_LO a) (AXIS_POS_HI a) := by
    rw [Dev.pair, Dev.pair, Dev.putB, Dev.word_put_ne _ _ (by rw [hf]; unfold AXIS_STATUS AXIS_POS_LO; omega),
      Dev.word_put_ne _ _ (by rw [hf]; unfold AXIS_STATUS AXIS_POS_HI; omega)]
  unfold Dev.axPlaced
  dsimp only
  rw [hput _ _ _ rfl, hput _ _ _ rfl, Dev.pair, Dev.word_setWord_ne _ _ (by unfold AXIS_POS_LO AXIS_EXCESS; omega),
    Dev.word_setWord_ne _ _ (by unfold AXIS_POS_HI AXIS_EXCESS; omega), ← Dev.pair, Dev.pair_setPair _ _ (by unfold AXIS_POS_LO AXIS_POS_HI; omega)]
  exact Nat.mod_eq_of_lt (uns_lt _ _)

theorem axPlace_pos : (d.axPlace a v t).axPos a = sgn 64 (uns 64 (d.axHeld a v)) := by
  rw [Dev.axPos, (axPlace_told d a v t).pair (AXIS_POS_LO a) (AXIS_POS_HI a) (fault_apart a (k := 0x410) (.inl (by decide)))
      (fault_apart a (k := 0x414) (.inl (by decide))),
    axPlaced_pair]

theorem axPlace_excess : (d.axPlace a v t).get (AXIS_EXCESS_EXCESS a) = uns 32 (d.axBound a v) := by
  have hlo : (AXIS_STATUS_SAT_LO a).apart (AXIS_EXCESS_EXCESS a) := axis_apart (k := 0x404) (l := 0x418) (.inl (by decide))
  have hhi : (AXIS_STATUS_SAT_HI a).apart (AXIS_EXCESS_EXCESS a) := axis_apart (k := 0x404) (l := 0x418) (.inl (by decide))
  have hw : ∀ e : Dev, ∀ x : Word, (e.setWord (AXIS_EXCESS a) x).get (AXIS_EXCESS_EXCESS a) = x.toNat := fun e x =>
    (Dev.get_setWord_same e (AXIS_EXCESS_EXCESS a) x).trans (Nat.mod_eq_of_lt x.isLt)
  rw [(axPlace_told d a v t).get (AXIS_EXCESS_EXCESS a) (fault_apart a (k := 0x418) (.inl (by decide))), Dev.axPlaced]
  rw [Dev.putB, Dev.get_put_ne _ _ (fit rfl) hlo, Dev.putB, Dev.get_put_ne _ _ (fit rfl) hhi, hw, BitVec.toNat_ofNat]
  exact Nat.mod_eq_of_lt (uns_lt 32 _)

theorem axPlace_sat_hi : (d.axPlace a v t).get (AXIS_STATUS_SAT_HI a) = b2n (decide (0 < d.axBound a v)) := by
  have hap : (AXIS_STATUS_SAT_LO a).apart (AXIS_STATUS_SAT_HI a) := axis_apart (k := 0x404) (l := 0x404) (by decide)
  rw [(axPlace_told d a v t).get (AXIS_STATUS_SAT_HI a) (fault_apart a (k := 0x404) (by decide)), Dev.axPlaced]
  rw [Dev.putB, Dev.get_put_ne _ _ (fit rfl) hap, Dev.putB, Dev.get_put_same _ _ _ (fit rfl)]
  cases decide (0 < d.axBound a v) <;> rfl

theorem axPlace_sat_lo : (d.axPlace a v t).get (AXIS_STATUS_SAT_LO a) = b2n (decide (d.axBound a v < 0)) := by
  rw [(axPlace_told d a v t).get (AXIS_STATUS_SAT_LO a) (fault_apart a (k := 0x404) (by decide)), Dev.axPlaced]
  rw [Dev.putB, Dev.get_put_same _ _ _ (fit rfl)]
  cases decide (d.axBound a v < 0) <;> rfl

end

/-! ## Without limits -/

section
variable {d : Dev} {a : Nat} (h : d.flag (AXIS_CFG_LIM_EN a) = false)
include h

theorem axExcessOf_free (c : Int) : d.axExcessOf a c = 0 := if_neg (by rw [h]; simp)

theorem axBound_free (v : Int) : d.axBound a v = 0 := by rw [Dev.axBound, axExcessOf_free h]; rfl

theorem axTrue_free (v : Int) : d.axTrue a v = sgn 64 (uns 64 v) := by
  rw [Dev.axTrue, axBound_free h, axExcessOf_free h]
  simp

theorem axPlace_free_frame (v : Int) (t : Nat) : Dev.Frame [.axes, .xev] (placedFields a) d (d.axPlace a v t) := by
  rw [axPlace_eq, if_pos ((axBound_free h v).trans (axExcessOf_free h _).symm)]
  exact .ite (fun _ => (axPlaced_frame d a v).mono (by simp) (fun _ => id))
    (fun _ => ((axPlaced_frame d a v).mono (by simp) (fun _ => id)).trans ((axEvent_frame _ _ _ _).mono (by simp) (by simp)))

theorem axPlace_free_axis (v : Int) (t : Nat) : (d.axPlace a v t).axis a = { d.axis a with t16 := sgn 64 (uns 64 v), excess := 0 } := by
  rw [axPlace_axis, axTrue_free h, axBound_free h]

theorem axPlace_free_pos (v : Int) (t : Nat) : (d.axPlace a v t).axPos a = sgn 64 (uns 64 v) := by
  rw [axPlace_pos, Dev.axHeld, if_pos (axBound_free h v), axTrue_free h, sgn_uns_sgn (by decide)]

theorem axPlace_free_excess (v : Int) (t : Nat) : (d.axPlace a v t).get (AXIS_EXCESS_EXCESS a) = 0 := by
  rw [axPlace_excess, axBound_free h]
  rfl

end

end Sys2Proof.Machine
end

section
/-! PROOF. An edge latch of an axis that stands within no limits: what it writes, and whom it tells (R70, R72, R97, R101, R104). -/

namespace Sys2Proof.Machine

/-- R97: the estimator's history, run and last latch once it has taken a latch; a reversal or a BREAK starts a new run without a velocity. -/
theorem estLatch_axis (d : Dev) (a t ft : Nat) (rev brk : Bool) : ∃ run vel, (rev = true ∨ brk = true → run = 1 ∧ vel = 0) ∧
    (d.estLatch a t ft rev brk).axis a = { d.axis a with
      hist := (((d.axis a).t16, ft) :: (d.axis a).hist).take 64, run := run, vel := vel, lastLatch := t, stopped := false, holdDone := false,
      runNext := false, stale := false } := by
  have hraise (e : Dev) (c : Bool) (f : Fld) : (if c then e.raise f else e).axis a = e.axis a := by split <;> rfl
  have hfresh (e : Dev) (c : Bool) : (if c then e.fresh.2 else e).axis a = e.axis a := by split <;> rfl
  unfold Dev.estLatch
  extract_lets x stop long anew n hist w d1 old isOpen v d2
  refine ⟨n, v, fun h => ?_, ?_⟩
  · have hn : n = 1 := if_pos (by rcases h with h | h <;> simp [anew, h])
    exact ⟨hn, if_pos (by omega)⟩
  · rw [Dev.axis_modAxis_same, show d2.axis a = d1.axis a from hfresh _ _, show d1.axis a = x from hraise _ _ _]

/-! ## The stages of a latch -/

/-- R70: the direction flag of axis `a` after an increment. -/
def Dev.axTurned (d : Dev) (a : Nat) (inc : Int) : Dev :=
  if inc = 0 then d else (d.putB (AXIS_STATUS_DIR a) (decide (inc < 0))).modAxis a (fun x => { x with moved := true })

/-- R72: an increment of axis `a` turns its direction. -/
def Dev.axTurns (d : Dev) (a : Nat) (inc : Int) : Bool := (d.axis a).moved && inc != 0 && decide (inc < 0) != d.flag (AXIS_STATUS_DIR a)

/-- R70, R106: T has moved, and the history with a snap. -/
def Dev.axMoved (d : Dev) (a t : Nat) (e : Edge) : Dev :=
  ((d.axTurned a e.inc).axPlace a ((d.axis a).t16 + e.mv + e.snap.getD 0) t).estShift a (e.snap.getD 0)

/-- R70: the latch set that an edge brings. -/
def Dev.axLatchSet (d : Dev) (a : Nat) (st : Stamp) (e : Edge) (rev : Bool) : Latch :=
  let y := d.axis a
  { pos := d.axPos a, t16 := y.t16, at_ := st, inc := e.shown, dir := d.flag (AXIS_STATUS_DIR a), rev := rev,
    snap := e.snap.isSome || y.snapNext, sat := y.excess != 0, brk := y.brkNext, gap := e.gap }

/-- R70, R97: the latch is written and the estimator has acted. -/
def Dev.axLatched (d : Dev) (a t : Nat) (st : Stamp) (e : Edge) (rev : Bool) (v : AxView) : Dev :=
  ((d.modAxis a (fun x => { x with latch := d.axLatchSet a st e rev, brkNext := false, snapNext := false })).estLatch a t
    (st.time * 64 + st.fine) rev (d.axis a).brkNext).axRemember a t v

/-- R104: a reversal is told and a HOLD is shown. -/
def Dev.axReversed (d : Dev) (a t : Nat) (rev : Bool) : Dev :=
  if rev then ((d.axEvent a 0 t).axEvent a 4 t).axHoldShown a else d.axEvent a 0 t

/-- What the slices learn of a latch (R79, R101, R104). -/
def latchMsg (e : Edge) (rev : Bool) : AxMsg :=
  { hold := rev, all := rev, rev := rev, edge := true, jump := e.snap.isSome, size := e.snap.getD 0 }

/-- R117: the channels, the emulators and the carriages learn of a latch. -/
def Dev.axTold (d : Dev) (a t : Nat) (st : Stamp) (e : Edge) (v : AxView) : Dev :=
  let d := if e.inc = 0 then d else d.tcAxisEdge a t e.inc
  let d := d.emuAll a t v (st.time * 64 + st.fine : Nat) ((d.axis a).t16 / 65536 - v.t16 / 65536) e.snap.isSome
  d.carBacked a (d.axis a).t16 t

theorem axLatch_eq (d : Dev) (a t : Nat) (st : Stamp) (e : Edge) : d.axLatch a t st e =
    ((((d.axMoved a t e).axLatched a t st e (d.axTurns a e.inc) (d.axView a t)).axReversed a t (d.axTurns a e.inc)).axSend a t
      (latchMsg e (d.axTurns a e.inc))).axTold a t st e (d.axView a t) := rfl

theorem axReversed_frame (d : Dev) (a t : Nat) (rev : Bool) : Dev.Frame [.xev] [AXIS_ESTSTAT_HOLD_ISSUED a, AXIS_HOLDCNT_CNT a] d (d.axReversed a t rev) := by
  have hev (e : Dev) (k : Nat) : Dev.Frame [.xev] [AXIS_ESTSTAT_HOLD_ISSUED a, AXIS_HOLDCNT_CNT a] e (e.axEvent a k t) :=
    (axEvent_frame _ _ _ _).mono (by simp) (by simp)
  exact .ite (fun _ => ((hev _ _).trans (hev _ _)).trans ((axHoldShown_frame _ _).mono (by simp) (fun _ => id))) (fun _ => hev _ _)

theorem axTold_frame (d : Dev) (a t : Nat) (st : Stamp) (e : Edge) (v : AxView) :
    Dev.Frame [.tcs, .emus, .slices, .cars, .quads, .xev] emusFields d (d.axTold a t st e v) := by
  have htc (c : Dev) : Dev.Frame [.tcs, .emus, .slices, .cars, .quads, .xev] emusFields c (if e.inc = 0 then c else c.tcAxisEdge a t e.inc) :=
    .ite (fun _ => .refl _ _ _) (fun _ => (tcAxisEdge_frame _ _ _ _).mono (by simp) (by simp))
  exact ((htc d).trans ((emuAll_frame _ _ _ _ _ _ _).mono (by simp) (fun _ => id))).trans ((carBacked_frame _ _ _ _).mono (by simp) (by simp))

/-- What follows the estimator's part of a latch. -/
theorem axLatch_after (d : Dev) (a t : Nat) (st : Stamp) (e : Edge) :
    Dev.Frame [.quads, .xev, .msgs, .emus, .tcs, .slices, .cars] (toldFields a)
      ((d.axMoved a t e).axLatched a t st e (d.axTurns a e.inc) (d.axView a t)) (d.axLatch a t st e) := by
  rw [axLatch_eq]
  exact (((axReversed_frame _ _ _ _).mono (by simp) (fun _ h => List.mem_append_left _ h)).trans ((axSend_frame _ _ _ _).mono (by simp) (by simp))).trans
    ((axTold_frame _ _ _ _ _ _).mono (by simp) (fun _ h => List.mem_append_right _ h))

theorem axLatched_frame (d : Dev) (a t : Nat) (st : Stamp) (e : Edge) (rev : Bool) (v : AxView) :
    Dev.Frame [.axes, .free] [AXIS_ESTSTAT_REBUILD a] d (d.axLatched a t st e rev v) :=
  ((Dev.modAxis_frame _ _ _ _ (by simp)).trans (estLatch_frame _ _ _ _ _ _)).trans ((axRemember_frame _ _ _ _).mono (by simp) (by simp))

theorem axTurned_frame (d : Dev) (a : Nat) (inc : Int) : Dev.Frame [.axes] [AXIS_STATUS_DIR a] d (d.axTurned a inc) :=
  .ite (fun _ => .refl _ _ _) (fun _ => (Dev.put_frame _ _ _ _ (fit rfl) (by simp)).trans (Dev.modAxis_frame _ _ _ _ (by simp)))

theorem axTurned_axis (d : Dev) (a : Nat) (inc : Int) : (d.axTurned a inc).axis a = { d.axis a with moved := (d.axis a).moved || inc != 0 } := by
  unfold Dev.axTurned
  split
  · next h => simp [h]
  · next h => simp [h]

theorem axTurned_dir (d : Dev) (a : Nat) (inc : Int) :
    (d.axTurned a inc).flag (AXIS_STATUS_DIR a) = if inc = 0 then d.flag (AXIS_STATUS_DIR a) else decide (inc < 0) := by
  unfold Dev.axTurned
  split
  · rfl
  · rw [Dev.flag, Dev.modAxis_get, Dev.putB, Dev.get_put_same _ _ _ (fit rfl)]
    cases decide (inc < 0) <;> rfl

/-! ## A latch without limits -/

section
variable {d : Dev} {a : Nat} (h : d.flag (AXIS_CFG_LIM_EN a) = false)
include h

theorem axTurned_free (inc : Int) : (d.axTurned a inc).flag (AXIS_CFG_LIM_EN a) = false := by
  have hap : (AXIS_STATUS_DIR a).apart (AXIS_CFG_LIM_EN a) := axis_apart (k := 0x404) (l := 0x400) (.inl (by decide))
  rw [(axTurned_frame d a inc).flag _ (by simpa using hap), h]

theorem axMoved_frame (t : Nat) (e : Edge) : Dev.Frame [.axes, .xev] (AXIS_STATUS_DIR a :: placedFields a) d (d.axMoved a t e) :=
  (((axTurned_frame d a e.inc).mono (by simp) (by simp)).trans
    ((axPlace_free_frame (axTurned_free h e.inc) _ t).mono (by simp) (fun _ hf => List.mem_cons_of_mem _ hf))).trans
    ((estShift_frame _ _ _).mono (by simp) (by simp))

theorem axMoved_axis (t : Nat) (e : Edge) : (d.axMoved a t e).axis a = { d.axis a with
    moved := (d.axis a).moved || e.inc != 0, t16 := sgn 64 (uns 64 ((d.axis a).t16 + e.mv + e.snap.getD 0)), excess := 0,
    hist := (d.axis a).hist.map (fun p => (p.1 + e.snap.getD 0, p.2)) } := by
  rw [Dev.axMoved, Dev.estShift, Dev.axis_modAxis_same, axPlace_free_axis (axTurned_free h e.inc), axTurned_axis]

theorem axMoved_pos (t : Nat) (e : Edge) : (d.axMoved a t e).axPos a = sgn 64 (uns 64 ((d.axis a).t16 + e.mv + e.snap.getD 0)) :=
  axPlace_free_pos (axTurned_free h e.inc) _ t

theorem axMoved_dir (t : Nat) (e : Edge) :
    (d.axMoved a t e).flag (AXIS_STATUS_DIR a) = if e.inc = 0 then d.flag (AXIS_STATUS_DIR a) else decide (e.inc < 0) := by
  rw [← axTurned_dir]
  exact ((axPlace_free_frame (axTurned_free h e.inc) _ t).flag _ (placed_apart (k := 0x404) (.inr (by decide))))

/-- R70, R72, R96, R97: what a latch makes of its axis. -/
theorem axLatch_axis (t : Nat) (st : Stamp) (e : Edge) : ∃ run vel dir recent,
    (d.axTurns a e.inc = true ∨ (d.axis a).brkNext = true → run = 1 ∧ vel = 0) ∧ (d.axLatch a t st e).axis a =
      let x := d.axis a
      let pos := sgn 64 (uns 64 (x.t16 + e.mv + e.snap.getD 0))
      { x with
        moved := x.moved || e.inc != 0, t16 := pos, excess := 0
        latch := { pos := pos, t16 := pos, at_ := st, inc := e.shown, dir := dir, rev := d.axTurns a e.inc, snap := e.snap.isSome || x.snapNext,
                   sat := false, brk := x.brkNext, gap := e.gap }
        brkNext := false, snapNext := false
        hist := ((pos, st.time * 64 + st.fine) :: x.hist.map (fun p => (p.1 + e.snap.getD 0, p.2))).take 64
        run := run, vel := vel, lastLatch := t, stopped := false, holdDone := false, runNext := false, stale := false, recent := recent } := by
  obtain ⟨run, vel, hrun, haxis⟩ := estLatch_axis ((d.axMoved a t e).modAxis a (fun x => { x with
    latch := (d.axMoved a t e).axLatchSet a st e (d.axTurns a e.inc), brkNext := false, snapNext := false })) a t (st.time * 64 + st.fine)
    (d.axTurns a e.inc) ((d.axMoved a t e).axis a).brkNext
  refine ⟨run, vel, (d.axMoved a t e).flag (AXIS_STATUS_DIR a), ((d.axLatch a t st e).axis a).recent, fun c => hrun ?_, ?_⟩
  · rw [axMoved_axis h]
    exact c
  · rw [(axLatch_after d a t st e).axis (by simp), Dev.axLatched, Dev.axRemember, Dev.axis_modAxis_same, haxis, Dev.axis_modAxis_same, Dev.axLatchSet,
      axMoved_pos h, axMoved_axis h]
    rfl

theorem axLatch_frame (t : Nat) (st : Stamp) (e : Edge) : Dev.Frame latchParts (AXIS_STATUS_DIR a :: AXIS_ESTSTAT_REBUILD a :: (placedFields a ++ toldFields a)) d
    (d.axLatch a t st e) := by
  refine (((axMoved_frame h t e).mono (by simp [latchParts]) ?_).trans ((axLatched_frame _ _ _ _ _ _ _).mono (by simp [latchParts]) (by simp))).trans
    ((axLatch_after d a t st e).mono (by simp [latchParts]) ?_)
  · exact fun f hf => by simp only [List.mem_cons, List.mem_append] at hf ⊢; tauto
  · exact fun f hf => by simp only [List.mem_cons, List.mem_append] at hf ⊢; tauto

theorem axLatch_latchFrame (t : Nat) (st : Stamp) (e : Edge) : Dev.Frame latchParts (latchFields a) d (d.axLatch a t st e) := by
  refine (axLatch_frame h t st e).mono (fun _ => id) fun f hf => ?_
  simp only [placedFields, toldFields, List.mem_cons, List.mem_append, List.not_mem_nil, or_false] at hf
  simp only [latchFields, List.mem_cons, List.mem_append, List.not_mem_nil, or_false]
  tauto

/-- A field of axis `a` that neither a latch nor its place writes. -/
theorem axLatch_get (t : Nat) (st : Stamp) (e : Edge) {k lo w : Nat} (hk : 0x400 ≤ k ∧ k < 0x480)
    (hf : k ∉ [0x404, 0x410, 0x414, 0x418] ∨ k = 0x404 ∧ 2 ≤ lo ∧ (lo + w ≤ 12 ∨ 14 ≤ lo)) :
    (d.axLatch a t st e).get ⟨axisReg a k, lo, w⟩ = d.get ⟨axisReg a k, lo, w⟩ := by
  refine (axLatch_frame h t st e).get _ fun f hm => ?_
  simp only [List.mem_cons, List.mem_append] at hm
  rcases hm with rfl | rfl | hm | hm
  · exact axis_apart (k := 0x404) (by simp at hf; omega)
  · exact axis_apart (k := 0x488) (.inl (by omega))
  · exact placed_apart (hf.imp id (fun c => ⟨c.1, c.2.2⟩)) f hm
  · exact told_apart hk f hm

end

end Sys2Proof.Machine
end

section
/-! PROOF. What an edge latch and a jump of an axis without limits leave in its registers and send to the slices (R70, R79, R101). -/

namespace Sys2Proof.Machine

section
variable {d : Dev} {a : Nat} (h : d.flag (AXIS_CFG_LIM_EN a) = false)

/-- What follows the movement of T in a latch. -/
theorem axLatch_rest (d : Dev) (a t : Nat) (st : Stamp) (e : Edge) :
    Dev.Frame latchParts (AXIS_ESTSTAT_REBUILD a :: toldFields a) (d.axMoved a t e) (d.axLatch a t st e) :=
  ((axLatched_frame _ _ _ _ _ _ _).mono (by simp [latchParts]) (by simp)).trans
    ((axLatch_after d a t st e).mono (by simp [latchParts]) (fun _ hf => List.mem_cons_of_mem _ hf))

theorem rest_apart {k lo w : Nat} (hk : 0x400 ≤ k ∧ k < 0x480) :
    ∀ f ∈ AXIS_ESTSTAT_REBUILD a :: toldFields a, f.apart ⟨axisReg a k, lo, w⟩ := by
  intro f hf
  rcases List.mem_cons.1 hf with rfl | hf
  · exact axis_apart (k := 0x488) (.inl (by omega))
  · exact told_apart hk f hf

theorem axLatch_dir (t : Nat) (st : Stamp) (e : Edge) (h : d.flag (AXIS_CFG_LIM_EN a) = false) : (d.axLatch a t st e).flag (AXIS_STATUS_DIR a) =
    if e.inc = 0 then d.flag (AXIS_STATUS_DIR a) else decide (e.inc < 0) := by
  rw [(axLatch_rest d a t st e).flag (AXIS_STATUS_DIR a) (rest_apart (k := 0x404) (by decide)), axMoved_dir h]

theorem axPos_of_frame {ps : List Part} {fs : List Fld} {e : Dev} (hf : Dev.Frame ps fs d e) (hlo : ∀ f ∈ fs, f.apart (whole (AXIS_POS_LO a)))
    (hhi : ∀ f ∈ fs, f.apart (whole (AXIS_POS_HI a))) : e.axPos a = d.axPos a := by
  rw [Dev.axPos, Dev.axPos, hf.pair _ _ hlo hhi]

theorem Dev.modAxis_axPos (d : Dev) (n : Nat) (f : Axis → Axis) (b : Nat) : (d.modAxis n f).axPos b = d.axPos b := rfl

theorem axLatch_pos (t : Nat) (st : Stamp) (e : Edge) (h : d.flag (AXIS_CFG_LIM_EN a) = false) :
    (d.axLatch a t st e).axPos a = ((d.axLatch a t st e).axis a).t16 := by
  obtain ⟨run, vel, dir, recent, -, haxis⟩ := axLatch_axis h t st e
  rw [axPos_of_frame (axLatch_rest d a t st e) (rest_apart (k := 0x410) (by decide)) (rest_apart (k := 0x414) (by decide)), axMoved_pos h, haxis]

theorem axLatch_excess (t : Nat) (st : Stamp) (e : Edge) (h : d.flag (AXIS_CFG_LIM_EN a) = false) :
    (d.axLatch a t st e).get (AXIS_EXCESS_EXCESS a) = 0 :=
  ((axLatch_rest d a t st e).get (AXIS_EXCESS_EXCESS a) (rest_apart (k := 0x418) (by decide))).trans (axPlace_free_excess (axTurned_free h e.inc) _ t)

/-- R101, R127: a latch goes to every quadrant's slices, to its own quadrant's first. -/
theorem axLatch_msgs (t : Nat) (st : Stamp) (e : Edge) (h : d.flag (AXIS_CFG_LIM_EN a) = false) :
    ((d.axLatch a t st e).msgs.drop d.msgs.length).map (fun m => (m.q, m.a, m.due)) =
      [0, 1, 2, 3].map (fun q => (q, a, if q = a / 2 then t + 2 else t + 6)) := by
  let before := ((d.axMoved a t e).axLatched a t st e (d.axTurns a e.inc) (d.axView a t)).axReversed a t (d.axTurns a e.inc)
  have hsame : before.msgs = d.msgs := ((axReversed_frame _ _ _ _).part .msgs (by simp)).trans
    (((axLatched_frame _ _ _ _ _ _ _).part .msgs (by simp)).trans ((axMoved_frame h t e).part .msgs (by simp)))
  have hsent : (d.axLatch a t st e).msgs = (before.axSend a t (latchMsg e (d.axTurns a e.inc))).msgs := by
    rw [axLatch_eq]
    exact (axTold_frame _ _ _ _ _ _).part .msgs (by simp)
  rw [hsent, Dev.axSend, hsame, List.drop_left]
  rfl

/-! ## Jumps -/

/-- R79, R106: T has jumped, before anyone learns of it. -/
def Dev.axJumped (d : Dev) (a t : Nat) (size : Int) : Dev :=
  ((d.axPlace a ((d.axis a).t16 + size) t).estShift a size).modAxis a (fun x => { x with snapNext := true })

theorem axJump_told (d : Dev) (a t : Nat) (size : Int) :
    Dev.Frame latchParts emusFields ((d.axJumped a t size).axRemember a t (d.axView a t)) (d.axJump a t size) :=
  (((axSend_frame _ _ _ _).mono (by simp [latchParts]) (by simp)).trans ((emuAll_frame _ _ _ _ _ _ _).mono (by simp [latchParts]) (fun _ => id))).trans
    ((carBacked_frame _ _ _ _).mono (by simp [latchParts]) (by simp))

theorem axJump_axes (d : Dev) (a t : Nat) (size : Int) : (d.axJump a t size).axes = ((d.axJumped a t size).axRemember a t (d.axView a t)).axes :=
  ((carBacked_frame _ _ _ _).part .axes (by simp)).trans (((emuAll_frame _ _ _ _ _ _ _).part .axes (by simp)).trans ((axSend_frame _ _ _ _).part .axes (by simp)))

include h

theorem axJump_axis (t : Nat) (size : Int) : ∃ recent, (d.axJump a t size).axis a = { d.axis a with
    t16 := sgn 64 (uns 64 ((d.axis a).t16 + size)), excess := 0, hist := (d.axis a).hist.map (fun p => (p.1 + size, p.2)), snapNext := true,
    recent := recent } := by
  refine ⟨((d.axJump a t size).axis a).recent, ?_⟩
  rw [axis_of_axes (axJump_axes d a t size), Dev.axRemember, Dev.axis_modAxis_same, Dev.axJumped, Dev.axis_modAxis_same, Dev.estShift,
    Dev.axis_modAxis_same, axPlace_free_axis h]

theorem axJumped_frame (t : Nat) (size : Int) : Dev.Frame [.axes, .xev] (placedFields a) d ((d.axJumped a t size).axRemember a t (d.axView a t)) :=
  ((axPlace_free_frame h _ t).trans ((estShift_frame _ _ _).mono (by simp) (by simp))).trans
    ((Dev.modAxis_frame _ _ _ _ (by simp)).trans ((axRemember_frame _ _ _ _).mono (by simp) (by simp)))

theorem axJump_pos (t : Nat) (size : Int) : (d.axJump a t size).axPos a = sgn 64 (uns 64 ((d.axis a).t16 + size)) := by
  rw [axPos_of_frame (axJump_told d a t size) (emus_apart (k := 0x410) (by decide)) (emus_apart (k := 0x414) (by decide))]
  rw [Dev.axRemember, Dev.modAxis_axPos, Dev.axJumped, Dev.modAxis_axPos, Dev.estShift, Dev.modAxis_axPos, axPlace_free_pos h]

theorem axJump_frame (t : Nat) (size : Int) : Dev.Frame latchParts (latchFields a) d (d.axJump a t size) := by
  refine ((axJumped_frame h t size).mono (by simp [latchParts]) fun f hf => ?_).trans
    ((axJump_told d a t size).mono (fun _ => id) (fun f hf => List.mem_append_right _ hf))
  simp only [placedFields, List.mem_cons, List.not_mem_nil, or_false] at hf
  rcases hf with rfl | rfl | rfl | rfl | rfl <;> simp [latchFields]

end

end Sys2Proof.Machine
end

section
/-! PROOF. The inputs of an axis: loss, the filter, references (R61, R63 to R66). -/

namespace Sys2Proof.Machine

/-! ## One input pair -/

/-- The axis with input pair `p` changed. -/
def Axis.modIn (x : Axis) (p : Nat) (f : AxIn → AxIn) : Axis :=
  { x with inA := if p = 0 then f x.inA else x.inA, inB := if p = 1 then f x.inB else x.inB, inZ := if p = 0 ∨ p = 1 then x.inZ else f x.inZ }

theorem Dev.modIn_eq (d : Dev) (a p : Nat) (f : AxIn → AxIn) : d.modIn a p f = d.modAxis a (·.modIn p f) := by
  unfold Dev.modIn
  congr 1
  funext x
  by_cases h0 : p = 0
  · simp [h0, Axis.modIn]
  · by_cases h1 : p = 1
    · simp [h1, Axis.modIn]
    · simp [h0, h1, Axis.modIn]

theorem Axis.modIn_input (x : Axis) (p : Nat) (f : AxIn → AxIn) : (x.modIn p f).input p = f (x.input p) := by
  unfold Axis.input Axis.modIn
  by_cases h0 : p = 0
  · simp [h0]
  · by_cases h1 : p = 1
    · simp [h1]
    · simp [h0, h1]

theorem Dev.modIn_axis (d : Dev) (a p : Nat) (f : AxIn → AxIn) : (d.modIn a p f).axis a = (d.axis a).modIn p f := by
  rw [Dev.modIn_eq, Dev.axis_modAxis_same]

theorem Dev.modIn_input (d : Dev) (a p : Nat) (f : AxIn → AxIn) : ((d.modIn a p f).axis a).input p = f ((d.axis a).input p) := by
  rw [Dev.modIn_axis, Axis.modIn_input]

theorem Dev.modIn_axis_ne (d : Dev) {a m : Nat} (p : Nat) (f : AxIn → AxIn) (h : m ≠ a) : (d.modIn a p f).axis m = d.axis m := by
  rw [Dev.modIn_eq, Dev.axis_modAxis_ne _ _ h]

theorem Dev.modIn_frame (d : Dev) (a p : Nat) (f : AxIn → AxIn) : Dev.Frame [.axes] [] d (d.modIn a p f) := Dev.modAxis_frame _ _ _ _ (by simp)

/-! ## Loss and return (R63, R92) -/

theorem lost_any (x : Axis) (p : Nat) (h : (x.input p).lost = true) : (x.inA.lost || x.inB.lost || x.inZ.lost) = true := by
  unfold Axis.input at h
  split at h
  · simp [h]
  · split at h
    · simp [h]
    · simp [h]

theorem axStatus_loss (d : Dev) (a p : Nat) (h : ((d.axis a).input p).lost = true) : bitAt (d.axStatus a) 18 = true := by
  unfold Dev.axStatus
  rw [bitAt_or, bitAt_or, bitAt_or, bitAt_or, lost_any _ _ h]
  simp [b2n, bitAt]

theorem inputLoss_idle {d : Dev} {a p : Nat} (h : d.axInUse a p = false ∨ ((d.axis a).input p).lost = true) : d.inputLoss a p = d :=
  if_neg fun ⟨hu, hl, _⟩ => by rcases h with h | h <;> simp_all

/-- The device once a pair is lost, before the fault. -/
def Dev.inputGone (d : Dev) (a p : Nat) : Dev := d.modIn a p (fun i => { i with lost := true, pend := false })

theorem inputLoss_eq {d : Dev} {a p : Nat} (hu : d.axInUse a p = true) (hl : ((d.axis a).input p).lost = false) (hr : d.tb.running = true) :
    d.inputLoss a p = (d.inputGone a p).axFault a 6 d.tick := if_pos ⟨hu, by simp [hl], hr⟩

theorem axFault_axis (d : Dev) (a cause t m : Nat) : (d.axFault a cause t).axis m = d.axis m := (axFault_frame d a cause t).axis (by simp) m

/-- The device once a lost pair is within its band again: its level waits to be a reference. -/
def Dev.inputBack (d : Dev) (a p : Nat) (lvl : Bool) : Dev :=
  d.modIn a p (fun i => { i with lost := false, ref := true, raw := lvl, pend := true, rawTick := d.tick, at_ := d.stamp (a / 2) d.tick 0 })

theorem inputRestored_eq {d : Dev} {a p : Nat} {lvl : Bool} (h : ((d.axis a).input p).lost = true) :
    d.inputRestored a p lvl = (d.inputBack a p lvl).modAxis a (fun x => { x with brkNext := true }) := if_pos h

theorem inputRestored_idle {d : Dev} {a p : Nat} {lvl : Bool} (h : ((d.axis a).input p).lost = false) : d.inputRestored a p lvl = d :=
  if_neg (by simp [h])

theorem brkNext_input (x : Axis) (p : Nat) : ({ x with brkNext := true } : Axis).input p = x.input p := rfl

/-! ## The filter (R64, R66) -/

/-- R64, R66: the tick on which the level in the filter of pair `p` of axis `a` is accepted. -/
def Dev.filterTick (d : Dev) (a p : Nat) : Nat := max (((d.axis a).input p).rawTick + d.get (AXIS_CFG_FILT a)) (d.axis a).filtFrom

/-- R64: the filter of pair `p` has accepted its level. -/
def Dev.filterTaken (d : Dev) (a p : Nat) : Dev :=
  d.modIn a p (fun i => { i with pend := false, acc := i.raw, ref := false, hist := ((i.rawTick, i.raw) :: i.hist).take 8 })

theorem filterAccept_idle {d : Dev} {a p : Nat} (h : ((d.axis a).input p).pend = false ∨ ((d.axis a).input p).lost = true ∨ d.tick < d.filterTick a p ∨
    d.tick ≤ ((d.axis a).input p).rawTick) : d.filterAccept a p = d := by
  refine if_pos fun ⟨hp, hl, ht, hraw, _⟩ => ?_
  rcases h with h | h | h | h
  · rw [h] at hp; cases hp
  · exact hl h
  · exact absurd ht (Nat.not_le.2 h)
  · omega

/-- A level that has not yet held for FILT ticks is not accepted. -/
theorem filterAccept_early {d : Dev} {a p : Nat}
    (h : ((d.axis a).input p).pend = false ∨ d.tick < ((d.axis a).input p).rawTick + d.get (AXIS_CFG_FILT a)) : d.filterAccept a p = d :=
  filterAccept_idle (h.imp id fun h => .inr (.inl (lt_of_lt_of_le h (Nat.le_max_left _ _))))

theorem axReference_frame (d : Dev) (a p : Nat) : Dev.Frame [.axes] [] d (d.axReference a p) :=
  .ite (fun _ => .refl _ _ _) fun _ => .ite (fun _ => Dev.modAxis_frame _ _ _ _ (by simp)) fun _ =>
    .ite (fun _ => Dev.modAxis_frame _ _ _ _ (by simp)) (fun _ => Dev.modAxis_frame _ _ _ _ (by simp))

/-- R63: a reference takes no change, and leaves the inputs and T. -/
theorem axReference_axis (d : Dev) (a p : Nat) : ∃ dec tPrev learning periods serPrev serSeq, (d.axReference a p).axis a =
    { d.axis a with dec := dec, tPrev := tPrev, learning := learning, periods := periods, serPrev := serPrev, serSeq := serSeq } := by
  unfold Dev.axReference
  dsimp only
  split
  · exact ⟨_, _, _, _, _, _, rfl⟩
  · split
    · exact ⟨_, _, _, _, _, _, Dev.axis_modAxis_same _ _ _⟩
    · split
      · exact ⟨_, _, _, _, _, _, Dev.axis_modAxis_same _ _ _⟩
      · exact ⟨_, _, _, _, _, _, Dev.axis_modAxis_same _ _ _⟩

theorem axReference_axis_ne (d : Dev) {a m : Nat} (p : Nat) (h : m ≠ a) : (d.axReference a p).axis m = d.axis m := by
  unfold Dev.axReference
  dsimp only
  split
  · rfl
  · split
    · exact Dev.axis_modAxis_ne _ _ h
    · split
      · exact Dev.axis_modAxis_ne _ _ h
      · exact Dev.axis_modAxis_ne _ _ h

theorem axReference_dec {d : Dev} {a p : Nat} (hm : d.get (AXIS_CFG_MODE a) = 1) (hp : p < 2) :
    ((d.axReference a p).axis a).dec = setBitAt (d.axis a).dec (d.decBit a p) ((d.axis a).input p).acc := by
  unfold Dev.axReference
  dsimp only
  rw [if_neg (by omega), if_pos hm, Dev.axis_modAxis_same]

section
variable {d : Dev} {a p : Nat} (hp : ((d.axis a).input p).pend = true) (hl : ((d.axis a).input p).lost = false) (ht : d.filterTick a p ≤ d.tick)
  (hraw : ((d.axis a).input p).rawTick < d.tick) (hr : d.tb.running = true)

/-- R64: the change that the filter of pair `p` hands on. -/
def Dev.filterChange (d : Dev) (a p : Nat) : AxChange :=
  let i := (d.axis a).input p
  { pair := p, lvl := i.raw, raw := i.rawTick, at_ := i.at_, acc := d.filterTick a p }

/-- R66: the change goes to the decoder, or the tooth wheel. -/
def Dev.filterTells (d : Dev) (a p : Nat) : Prop :=
  (d.get (AXIS_CFG_MODE a) = 1 ∧ p < 2) ∨ (d.get (AXIS_CFG_MODE a) = 2 ∧ p = 0 ∧ ((d.axis a).input p).raw = !d.flag (AXIS_TWCFG_EDGE a))

include hp hl ht hraw hr

theorem filterAccept_taken : ¬ ¬ (((d.axis a).input p).pend = true ∧ ¬ ((d.axis a).input p).lost = true ∧ d.filterTick a p ≤ d.tick ∧
    ((d.axis a).input p).rawTick < d.tick ∧ d.tb.running = true) := not_not.2 ⟨hp, by simp [hl], ht, hraw, hr⟩

theorem filterAccept_reference (href : ((d.axis a).input p).ref = true) : d.filterAccept a p = (d.filterTaken a p).axReference a p :=
  (if_neg (filterAccept_taken hp hl ht hraw hr)).trans (if_pos href)

theorem filterAccept_change (href : ((d.axis a).input p).ref = false) (htell : d.filterTells a p) :
    d.filterAccept a p = (d.filterTaken a p).modAxis a (fun x => { x with changes := x.changes ++ [d.filterChange a p] }) :=
  (if_neg (filterAccept_taken hp hl ht hraw hr)).trans ((if_neg (by simp [href])).trans (if_pos htell))

theorem filterAccept_level (href : ((d.axis a).input p).ref = false) (htell : ¬ d.filterTells a p) : d.filterAccept a p = d.filterTaken a p :=
  (if_neg (filterAccept_taken hp hl ht hraw hr)).trans ((if_neg (by simp [href])).trans (if_neg htell))

/-- R64: what an acceptance makes of its axis, beside the changes and the references. -/
theorem filterAccept_axis : ∃ changes dec tPrev learning periods serPrev serSeq, (d.filterAccept a p).axis a =
    { (d.filterTaken a p).axis a with changes := changes, dec := dec, tPrev := tPrev, learning := learning, periods := periods, serPrev := serPrev,
                                      serSeq := serSeq } ∧
    (((d.axis a).input p).ref = true → changes = (d.axis a).changes) := by
  by_cases href : ((d.axis a).input p).ref = true
  · obtain ⟨dec, tPrev, learning, periods, serPrev, serSeq, haxis⟩ := axReference_axis (d.filterTaken a p) a p
    rw [filterAccept_reference hp hl ht hraw hr href, haxis]
    exact ⟨_, _, _, _, _, _, _, rfl, fun _ => by rw [Dev.filterTaken, Dev.modIn_axis, Axis.modIn]⟩
  · have href' := eq_false_of_ne_true href
    by_cases htell : d.filterTells a p
    · rw [filterAccept_change hp hl ht hraw hr href' htell, Dev.axis_modAxis_same]
      exact ⟨_, _, _, _, _, _, _, rfl, fun h => absurd h href⟩
    · rw [filterAccept_level hp hl ht hraw hr href' htell]
      exact ⟨_, _, _, _, _, _, _, rfl, fun h => absurd h href⟩

theorem filterAccept_axis_ne {m : Nat} (h : m ≠ a) : (d.filterAccept a p).axis m = d.axis m := by
  have htaken : (d.filterTaken a p).axis m = d.axis m := Dev.modIn_axis_ne _ _ _ h
  by_cases href : ((d.axis a).input p).ref = true
  · rw [filterAccept_reference hp hl ht hraw hr href, axReference_axis_ne _ _ h, htaken]
  · have href' := eq_false_of_ne_true href
    by_cases htell : d.filterTells a p
    · rw [filterAccept_change hp hl ht hraw hr href' htell, Dev.axis_modAxis_ne _ _ h, htaken]
    · rw [filterAccept_level hp hl ht hraw hr href' htell, htaken]

omit hp hl ht hraw hr in
theorem filterAccept_frame (d : Dev) (a p : Nat) : Dev.Frame [.axes] [] d (d.filterAccept a p) :=
  .ite (fun _ => .refl _ _ _) fun _ => (Dev.modIn_frame _ _ _ _).trans
    (.ite (fun _ => axReference_frame _ _ _) fun _ => .ite (fun _ => Dev.modAxis_frame _ _ _ _ (by simp)) (fun _ => .refl _ _ _))

end

end Sys2Proof.Machine
end

section
/-! PROOF. Transitions at an input of an axis (R64, R65). -/

namespace Sys2Proof.Machine

/-- R49: the sampler of pair `p` latches the line on the next tick. -/
def Dev.sampled (d : Dev) (a p : Nat) : Dev := d.modLine (256 + 3 * a + p) (fun l => { l with latched := d.tick + 1 })

/-- R65: a level that reverts in the filter is counted where its pair is in use and it came on an earlier tick. -/
def Dev.glitched (d : Dev) (a p : Nat) : Dev :=
  if d.axInUse a p && ((d.axis a).input p).rawTick != d.tick then d.incSat (AXIS_GLITCHCNT_CNT a) else d

/-- R63, R64: the level in the filter of pair `p` gives way to `lvl`. -/
def Dev.reverts (d : Dev) (a p : Nat) (lvl : Bool) (fine : Nat) (i : AxIn) : Dev :=
  if i.ref then d.modIn a p (fun i => { i with raw := lvl, rawTick := d.tick, at_ := d.stamp (a / 2) d.tick fine })
  else if i.rawTick = d.tick then d.modIn a p (fun i => { i with raw := lvl, pend := false })
  else d.modIn a p (fun i => { i with raw := lvl, pend := false, discard := d.tick, discRaw := i.rawTick })

theorem reverts_frame (d : Dev) (a p : Nat) (lvl : Bool) (fine : Nat) (i : AxIn) : Dev.Frame [.axes] [] d (d.reverts a p lvl fine i) :=
  .ite (fun _ => Dev.modIn_frame _ _ _ _) fun _ => .ite (fun _ => Dev.modIn_frame _ _ _ _) fun _ => Dev.modIn_frame _ _ _ _

/-- What a level that reverts on a later tick leaves of its pair. -/
theorem reverts_input {d : Dev} {a p : Nat} {lvl : Bool} {fine : Nat} (hp : ((d.axis a).input p).pend = true) (ht : ((d.axis a).input p).rawTick ≠ d.tick) :
    let i := ((d.reverts a p lvl fine ((d.axis a).input p)).axis a).input p
    i.raw = lvl ∧ i.pend = ((d.axis a).input p).ref ∧ i.acc = ((d.axis a).input p).acc ∧ (((d.axis a).input p).ref = true → i.rawTick = d.tick) := by
  cases href : ((d.axis a).input p).ref with
  | true =>
    rw [Dev.reverts, if_pos href, Dev.modIn_input]
    exact ⟨rfl, hp, rfl, fun _ => rfl⟩
  | false =>
    rw [Dev.reverts, if_neg (by simp [href]), if_neg ht, Dev.modIn_input]
    exact ⟨rfl, rfl, rfl, fun h => absurd h (by decide)⟩

theorem glitched_frame (d : Dev) (a p : Nat) : Dev.Frame [] [AXIS_GLITCHCNT_CNT a] d (d.glitched a p) :=
  .then_ite (.refl _ _ _) (Dev.incSat_frame _ _ _ (fit rfl) (by simp))

theorem glitched_axis (d : Dev) (a p m : Nat) : (d.glitched a p).axis m = d.axis m := (glitched_frame d a p).axis (by simp) m

section
variable {d : Dev} {a p : Nat} {lvl : Bool} {fine : Nat}
  (he : ((d.axis a).input p).pend = false ∨ d.tick < ((d.axis a).input p).rawTick + d.get (AXIS_CFG_FILT a))
include he

theorem axTransition_eq : d.axTransition a p lvl fine =
    let e := d.sampled a p
    let i := (e.axis a).input p
    if i.lost ∨ i.raw = lvl ∨ ¬ e.tb.running then e
    else if i.pend then (e.glitched a p).reverts a p lvl fine i
    else e.modIn a p (fun i => { i with raw := lvl, pend := true, rawTick := e.tick, at_ := e.stamp (a / 2) e.tick fine }) := by
  unfold Dev.axTransition
  rw [filterAccept_early he]
  rfl

theorem axTransition_same (h : ((d.axis a).input p).raw = lvl) : d.axTransition a p lvl fine = d.sampled a p :=
  (axTransition_eq he).trans (if_pos (.inr (.inl h)))

/-- What a transition does beside the sampling of the line. -/
theorem axTransition_sampled : Dev.Frame [.axes] [AXIS_GLITCHCNT_CNT a] (d.sampled a p) (d.axTransition a p lvl fine) := by
  rw [axTransition_eq he]
  refine .ite (fun _ => .refl _ _ _) fun _ => .ite (fun _ => ?_) fun _ => (Dev.modIn_frame _ _ _ _).mono (by simp) (by simp)
  exact ((glitched_frame _ _ _).mono (by simp) (by simp)).trans ((reverts_frame _ _ _ _ _ _).mono (by simp) (by simp))

variable (h : ((d.axis a).input p).raw ≠ lvl) (hl : ((d.axis a).input p).lost = false) (hr : d.tb.running = true)
include h hl hr

omit he in
theorem sampled_moves : ¬ (((d.axis a).input p).lost = true ∨ ((d.axis a).input p).raw = lvl ∨ ¬ d.tb.running = true) := by
  simp [h, hl, hr]

theorem axTransition_new (hp : ((d.axis a).input p).pend = false) : d.axTransition a p lvl fine =
    (d.sampled a p).modIn a p (fun i => { i with raw := lvl, pend := true, rawTick := d.tick, at_ := d.stamp (a / 2) d.tick fine }) :=
  (axTransition_eq he).trans ((if_neg (sampled_moves h hl hr)).trans (if_neg (fun c => absurd (hp.symm.trans c) (by decide))))

theorem axTransition_reverts (hp : ((d.axis a).input p).pend = true) : d.axTransition a p lvl fine =
    ((d.sampled a p).glitched a p).reverts a p lvl fine ((d.axis a).input p) :=
  (axTransition_eq he).trans ((if_neg (sampled_moves h hl hr)).trans (if_pos hp))

end

end Sys2Proof.Machine
end

section
/-! PROOF. The frozen latch set (R71) and the clear of a fault (R92). -/

namespace Sys2Proof.Machine

theorem locate_AXIS_LPOS_LO (i : Fin 8) :
    locate (AXIS_LPOS_LO i) = some ⟨.axis, i, 0, i.val / 2, ⟨0x60, 0x0, 0x0, 0xFFFFFFFF, 0x0, 0x0, []⟩⟩ := by
  have h := locate_axis i 0x60 i.isLt (by decide)
  rw [show AXIS_LPOS_LO i = 0x10000 + i / 2 * 0x8000 + 0x400 + i % 2 * 0x200 + 0x60 by unfold AXIS_LPOS_LO; omega, h]
  rfl

/-- A reader that the block belongs to reads LPOS_LO with its effect. -/
theorem senderRead_AXIS_LPOS_LO {d : Dev} {w : Sender} {a : Fin 8} (h : d.reads w (a / 2) = true) :
    d.senderRead w (AXIS_LPOS_LO a) = d.lposRead a := by
  have hlt := a.isLt
  cases w with
  | fn f =>
    have hown : d.qOwner (a.val / 2) = f.val := by simpa [Dev.reads] using h
    unfold Dev.senderRead Dev.hostRead
    dsimp only
    rw [if_neg (by unfold AXIS_LPOS_LO; omega), locate_AXIS_LPOS_LO]
    dsimp only
    rw [hown, if_neg (by simp)]
    rfl
  | me e =>
    have hq : e.val / 2 = a.val / 2 := by simpa [Dev.reads] using h
    have hoff : 0x10000 + (e.val / 2) * 0x8000 + AXIS_LPOS_LO a % 0x8000 = AXIS_LPOS_LO a := by unfold AXIS_LPOS_LO; omega
    unfold Dev.senderRead Dev.ioRead
    dsimp only
    rw [if_pos (by unfold AXIS_LPOS_LO; omega), hoff, locate_AXIS_LPOS_LO]
    rfl

theorem readOut_AXIS_LPOS_LO {d : Dev} {w : Sender} {a : Fin 8} (h : d.reads w (a / 2) = true) : d.readOut w (AXIS_LPOS_LO a) =
    (d.lposRead a).2.emit (answer w (AXIS_LPOS_LO a) (d.lposRead a).1) := by
  unfold Dev.readOut
  rw [senderRead_AXIS_LPOS_LO h]
  cases w <;> rfl

/-! ## FAULT -/

/-- A register that takes the value that it holds. -/
theorem setWord_self_frame (d : Dev) (o : Nat) : Dev.Frame [] [] d (d.setWord o (d.word o)) :=
  fun _ => ⟨fun p _ => by cases p <;> rfl, fun g _ => by
    by_cases h : g.off = o
    · subst h
      exact Dev.get_setWord_same _ _ _
    · exact Dev.get_setWord_ne _ _ h⟩

/-- A word whose bit of FAULT is 0 is left as it is when that bit is cleared. -/
theorem word_clear_fault {x : Word} (h : bits x.toNat 14 1 = 0) : x &&& ~~~(0x4000 : Word) = x := by
  have hbit : x.getLsbD 14 = false := by
    rw [← BitVec.testBit_toNat, ← bitAt_eq_testBit, bitAt_eq_bits, h]
    rfl
  have hmask : ∀ i < 32, i ≠ 14 → (0x4000 : Word).getLsbD i = false := by decide
  refine BitVec.eq_of_getLsbD_eq fun i hi => ?_
  rw [BitVec.getLsbD_and, BitVec.getLsbD_not]
  by_cases h14 : i = 14
  · rw [h14, hbit]
    rfl
  · rw [hmask i hi h14]
    simp [hi]

theorem lands_AXIS_STATUS {d : Dev} {w : Writer} (i : Fin 8) (hw : w.rank ≤ 10) (h : d.takesLate w (AXIS_STATUS i) = true) :
    d.regWrite w (AXIS_STATUS i) 0x4000 = d.awaiting w (AXIS_STATUS i) 0x4000 ∧
    (d.awaiting w (AXIS_STATUS i) 0x4000).landed =
      (d.axFaultClear i).setWord (AXIS_STATUS i) ((d.axFaultClear i).word (AXIS_STATUS i) &&& ~~~(0x4000 : Word)) := by
  have hn := i.isLt
  obtain ⟨ht, -, hr⟩ := (Dev.takesLate_iff _ _ _).mp h
  refine ⟨Dev.regWrite_late 0x4000 ht (locate_AXIS_STATUS i) (by show Gid.axis ≠ _; decide) rfl rfl
    (rsvBits_zero (m := 0x7FFFB) (show w32 (0x0 ||| 0x7B123 ||| 0x4ED8 ||| 0x0) = (0x7FFFB : Word) from by decide) (by decide))
    (show (0x4000 : Word) &&& w32 (0x0 ||| 0x4ED8 ||| 0x0) = 0x4000 from by decide) (by simp [Dev.isLate, lateReg, bitAt]), ?_⟩
  refine (Dev.awaiting_landed_quad 0x4000 hw h (locate_AXIS_STATUS i) (by unfold AXIS_STATUS; omega) (by simp only [AXIS_STATUS]; omega)).trans ?_
  simp only [Dev.quadWrite, Dev.axisWrite]
  rw [if_pos (by decide), Dev.store]
  dsimp only
  rw [show ~~~(w32 0x0) = BitVec.allOnes 32 by decide, show (0x4000 : Word) &&& w32 0x4ED8 = 0x4000 by decide,
    show (0x4000 : Word) &&& w32 0x0 = 0 by decide, BitVec.and_allOnes]
  exact congrArg _ BitVec.or_zero

/-- R92: the run and consecutive counters of a faulted axis are cleared. -/
def Axis.faultFree (x : Axis) (was : Bool) : Axis :=
  let y : Axis := { x with illRun := 0, illClean := 0, idxRun := 0, serBad := 0 }
  if was then { y.relearn with serPrev := none, serSeq := none, serOk := false, runNext := true } else y

/-- R92: the registers of a cleared fault. -/
def Dev.faultDown (d : Dev) (a : Nat) : Dev := ((d.put (AXIS_STATUS_FAULT a) 0).put (AXIS_STATUS_FAULT_CAUSE a) 0).put (AXIS_SERERR_BADCNT a) 0

theorem faultDown_frame (d : Dev) (a : Nat) :
    Dev.Frame [] [AXIS_STATUS_FAULT a, AXIS_STATUS_FAULT_CAUSE a, AXIS_SERERR_BADCNT a] d (d.faultDown a) :=
  ((Dev.put_frame _ _ _ _ (fit rfl) (by simp)).trans (Dev.put_frame _ _ _ _ (fit rfl) (by simp))).trans (Dev.put_frame _ _ _ _ (fit rfl) (by simp))

theorem faultDown_shows (d : Dev) (a : Nat) : (d.faultDown a).get (AXIS_STATUS_FAULT a) = 0 ∧ (d.faultDown a).get (AXIS_STATUS_FAULT_CAUSE a) = 0 ∧
    (d.faultDown a).get (AXIS_SERERR_BADCNT a) = 0 := by
  have hfault : (AXIS_SERERR_BADCNT a).apart (AXIS_STATUS_FAULT a) := axis_apart (k := 0x454) (l := 0x404) (.inl (by decide))
  have hbad : (AXIS_SERERR_BADCNT a).apart (AXIS_STATUS_FAULT_CAUSE a) := axis_apart (k := 0x454) (l := 0x404) (.inl (by decide))
  have hcause : (AXIS_STATUS_FAULT_CAUSE a).apart (AXIS_STATUS_FAULT a) := axis_apart (k := 0x404) (l := 0x404) (by decide)
  refine ⟨?_, ?_, ?_⟩
  · rw [Dev.faultDown, Dev.get_put_ne _ _ (fit rfl) hfault, Dev.get_put_ne _ _ (fit rfl) hcause, Dev.get_put_same _ _ _ (fit rfl)]
    rfl
  · rw [Dev.faultDown, Dev.get_put_ne _ _ (fit rfl) hbad, Dev.get_put_same _ _ _ (fit rfl)]
    rfl
  · rw [Dev.faultDown, Dev.get_put_same _ _ _ (fit rfl)]
    rfl

theorem faultDown_axis (d : Dev) (a m : Nat) : (d.faultDown a).axis m = d.axis m := (faultDown_frame d a).axis (by simp) m

theorem axFaultClear_eq (d : Dev) (a : Nat) : d.axFaultClear a =
    let e := (d.faultDown a).modAxis a (fun x => { x with illRun := 0, illClean := 0, idxRun := 0, serBad := 0 })
    if d.flag (AXIS_STATUS_FAULT a) then e.modAxis a (fun x => { x.relearn with serPrev := none, serSeq := none, serOk := false, runNext := true })
    else e := rfl

theorem axFaultClear_axis (d : Dev) (a : Nat) : (d.axFaultClear a).axis a = (d.axis a).faultFree (d.flag (AXIS_STATUS_FAULT a)) := by
  rw [axFaultClear_eq, Axis.faultFree]
  dsimp only
  by_cases h : d.flag (AXIS_STATUS_FAULT a) = true
  · rw [if_pos h, if_pos h, Dev.axis_modAxis_same, Dev.axis_modAxis_same, faultDown_axis]
  · rw [if_neg h, if_neg h, Dev.axis_modAxis_same, faultDown_axis]

theorem axFaultClear_axis_ne (d : Dev) {a m : Nat} (h : m ≠ a) : (d.axFaultClear a).axis m = d.axis m := by
  rw [axFaultClear_eq]
  dsimp only
  split
  · rw [Dev.axis_modAxis_ne _ _ h, Dev.axis_modAxis_ne _ _ h, faultDown_axis]
  · rw [Dev.axis_modAxis_ne _ _ h, faultDown_axis]

theorem axFaultClear_down (d : Dev) (a : Nat) : Dev.Frame [.axes] [] (d.faultDown a) (d.axFaultClear a) :=
  (Dev.modAxis_frame _ _ _ _ (by simp)).trans (.then_ite (.refl _ _ _) (Dev.modAxis_frame _ _ _ _ (by simp)))

/-- What the write of 1 to FAULT leaves, once landed: the register takes no other change. -/
theorem axFaultClear_stored (d : Dev) (a : Nat) : Dev.Frame [] [] (d.axFaultClear a)
    ((d.axFaultClear a).setWord (AXIS_STATUS a) ((d.axFaultClear a).word (AXIS_STATUS a) &&& ~~~(0x4000 : Word))) := by
  have hzero : (d.axFaultClear a).get (AXIS_STATUS_FAULT a) = 0 :=
    ((axFaultClear_down d a).get (AXIS_STATUS_FAULT a) (by simp)).trans (faultDown_shows d a).1
  rw [word_clear_fault (x := (d.axFaultClear a).word (AXIS_STATUS a)) hzero]
  exact setWord_self_frame _ _

end Sys2Proof.Machine
end

section
/-! PROOF. The inputs of an axis (O25). -/

namespace Sys2Proof.Machine

theorem inputLoss_result {d : Dev} {a p : Nat} (hu : d.axInUse a p = true) (hl : ((d.axis a).input p).lost = false) (hr : d.tb.running = true) :
    let e := d.inputLoss a p
    ((e.axis a).input p).lost = true ∧ ((e.axis a).input p).pend = false ∧ bitAt (e.axStatus a) 18 = true ∧ (e.axis a).t16 = (d.axis a).t16 ∧
    e.get (AXIS_STATUS_FAULT a) = 1 ∧
    e.get (AXIS_STATUS_FAULT_CAUSE a) = (if d.flag (AXIS_STATUS_FAULT a) then d.get (AXIS_STATUS_FAULT_CAUSE a) else 6) ∧
    (∀ m, m ≠ a → e.axis m = d.axis m) ∧ Dev.Frame [.axes, .quads, .xev] [AXIS_STATUS_FAULT a, AXIS_STATUS_FAULT_CAUSE a] d e := by
  dsimp only
  rw [inputLoss_eq hu hl hr]
  have hin : ((d.inputGone a p).axis a).input p = { (d.axis a).input p with lost := true, pend := false } := Dev.modIn_input _ _ _ _
  have hlost : ((((d.inputGone a p).axFault a 6 d.tick).axis a).input p).lost = true := by rw [axFault_axis, hin]
  refine ⟨hlost, ?_, axStatus_loss _ _ p hlost, ?_, axFault_flag _ _ _ _, axFault_cause _ _ _ _, fun m hm => ?_, ?_⟩
  · rw [axFault_axis, hin]
  · rw [axFault_axis, Dev.inputGone, Dev.modIn_axis, Axis.modIn]
  · rw [axFault_axis, Dev.inputGone, Dev.modIn_axis_ne _ _ _ hm]
  · exact ((Dev.modIn_frame _ _ _ _).mono (by simp) (by simp)).trans ((axFault_frame _ _ _ _).mono (by simp) (fun _ => id))

theorem inputRestored_result {d : Dev} {a p : Nat} {lvl : Bool} (hl : ((d.axis a).input p).lost = true) :
    let e := d.inputRestored a p lvl
    ((e.axis a).input p).lost = false ∧ ((e.axis a).input p).ref = true ∧ ((e.axis a).input p).raw = lvl ∧ ((e.axis a).input p).pend = true ∧
    (e.axis a).brkNext = true ∧ (∀ m, m ≠ a → e.axis m = d.axis m) ∧ Dev.Frame [.axes] [] d e := by
  dsimp only
  rw [inputRestored_eq hl, Dev.axis_modAxis_same, brkNext_input, Dev.inputBack, Dev.modIn_input]
  refine ⟨rfl, rfl, rfl, rfl, rfl, fun m hm => ?_, (Dev.modIn_frame _ _ _ _).trans (Dev.modAxis_frame _ _ _ _ (by simp))⟩
  rw [Dev.axis_modAxis_ne _ _ hm, Dev.modIn_axis_ne _ _ _ hm]

theorem sampled_frame (d : Dev) (a p : Nat) : Dev.Frame [.lines] [] d (d.sampled a p) := Dev.modLine_frame _ _ _ _ (by simp)

theorem axTransition_line {d : Dev} {a p : Nat} {lvl : Bool} {fine : Nat}
    (he : ((d.axis a).input p).pend = false ∨ d.tick < ((d.axis a).input p).rawTick + d.get (AXIS_CFG_FILT a)) (k : Nat) :
    (d.axTransition a p lvl fine).line k = (d.sampled a p).line k := by
  rw [Dev.line, Dev.line, (axTransition_sampled he).part .lines (by simp)]

theorem filterAccept_result {d : Dev} {a p : Nat} (hp : ((d.axis a).input p).pend = true) (hl : ((d.axis a).input p).lost = false)
    (ht : d.filterTick a p ≤ d.tick) (hraw : ((d.axis a).input p).rawTick < d.tick) (hr : d.tb.running = true) :
    let i := (d.axis a).input p
    let e := d.filterAccept a p
    ((e.axis a).input p).acc = i.raw ∧ ((e.axis a).input p).pend = false ∧ ((e.axis a).input p).hist = ((i.rawTick, i.raw) :: i.hist).take 8 ∧
    (e.axis a).t16 = (d.axis a).t16 ∧
    (i.ref = false → d.get (AXIS_CFG_MODE a) = 1 → p < 2 → (e.axis a).changes = (d.axis a).changes ++ [d.filterChange a p]) ∧
    (i.ref = true → (e.axis a).changes = (d.axis a).changes) ∧
    (i.ref = true → d.get (AXIS_CFG_MODE a) = 1 → p < 2 → (e.axis a).dec = setBitAt (d.axis a).dec (d.decBit a p) i.raw) ∧
    (∀ m, m ≠ a → e.axis m = d.axis m) ∧ Dev.Frame [.axes] [] d e := by
  obtain ⟨changes, dec, tPrev, learning, periods, serPrev, serSeq, haxis, hchanges⟩ := filterAccept_axis hp hl ht hraw hr
  have htaken : (d.filterTaken a p).axis a = (d.axis a).modIn p _ := Dev.modIn_axis _ _ _ _
  have hin : ((d.filterAccept a p).axis a).input p = ((d.filterTaken a p).axis a).input p := by rw [haxis]; rfl
  have hacc : ((d.filterTaken a p).axis a).input p = { (d.axis a).input p with
      pend := false, acc := ((d.axis a).input p).raw, ref := false,
      hist := ((((d.axis a).input p).rawTick, ((d.axis a).input p).raw) :: ((d.axis a).input p).hist).take 8 } := Dev.modIn_input _ _ _ _
  refine ⟨by rw [hin, hacc], by rw [hin, hacc], by rw [hin, hacc], ?_, fun href hm hp2 => ?_, fun href => ?_, fun href hm hp2 => ?_,
    fun m hm => filterAccept_axis_ne hp hl ht hraw hr hm, filterAccept_frame _ _ _⟩
  · rw [haxis, htaken, Axis.modIn]
  · rw [filterAccept_change hp hl ht hraw hr href (.inl ⟨hm, hp2⟩), Dev.axis_modAxis_same, htaken, Axis.modIn]
  · rw [haxis]
    exact hchanges href
  · rw [filterAccept_reference hp hl ht hraw hr href, axReference_dec (d := d.filterTaken a p) hm hp2, hacc, htaken, Axis.modIn]
    rfl

theorem glitched_count {d : Dev} {a p : Nat} (hu : d.axInUse a p = true) (ht : ((d.axis a).input p).rawTick ≠ d.tick) :
    ((d.sampled a p).glitched a p).get (AXIS_GLITCHCNT_CNT a) = min (d.get (AXIS_GLITCHCNT_CNT a) + 1) (2 ^ 32 - 1) := by
  have hcount : (d.sampled a p).glitched a p = (d.sampled a p).incSat (AXIS_GLITCHCNT_CNT a) :=
    if_pos (by rw [show (d.sampled a p).axInUse a p = d.axInUse a p from rfl, hu]; simpa [Dev.sampled] using ht)
  rw [hcount, get_incSat _ (fit rfl)]
  rfl

theorem lposRead_axis (d : Dev) (a : Nat) : (d.lposRead a).2.axis a = { d.axis a with frozen := some (d.axis a).latch } := Dev.axis_modAxis_same _ _ _

theorem faultFree_clears (x : Axis) (was : Bool) : (x.faultFree was).illRun = 0 ∧ (x.faultFree was).idxRun = 0 ∧ (x.faultFree was).serBad = 0 ∧
    (x.faultFree was).t16 = x.t16 ∧ (was = true → (x.faultFree was).serPrev = none ∧ (x.faultFree was).tPrev = none ∧
      (x.faultFree was).learning = true ∧ (x.faultFree was).runNext = true) := by
  cases was with
  | true => exact ⟨rfl, rfl, rfl, rfl, fun _ => ⟨rfl, rfl, rfl, rfl⟩⟩
  | false => exact ⟨rfl, rfl, rfl, rfl, fun h => absurd h (by decide)⟩

/-- Settles O25: the loss, the return, a transition, an acceptance, the freezing read and the fault clear, each by what it leaves of its axis. -/
theorem axisInputsAreFilteredAndWatched : Obligations.AxisInputsAreFilteredAndWatched := by
  unfold Obligations.AxisInputsAreFilteredAndWatched
  intro s a
  refine ⟨fun p => ⟨fun hu hl hr => ?_, fun h => onDev_idle (f := fun d => d.inputLoss a p) (inputLoss_idle h), fun lvl => ⟨fun hl => ?_, fun hl => ?_⟩,
    fun lvl fine hl hr he => ⟨?_, fun h hp => ?_, fun h hp ht hu => ?_⟩, fun h => ?_, fun hp hl ht hraw hr => ?_⟩, fun w h => ?_, fun w h => ?_⟩
  · obtain ⟨hlost, hpend, hstatus, ht16, hfault, hcause, hne, hframe⟩ := inputLoss_result hu hl hr
    exact ⟨_, onDev_of (f := fun d => d.inputLoss a p) rfl, hlost, hpend, hstatus, ht16, hfault, hcause, hne, hframe.lift⟩
  · exact onDev_idle (f := fun d => d.inputRestored a p lvl) (inputRestored_idle hl)
  · obtain ⟨hlost, href, hraw, hpend, hbrk, hne, hframe⟩ := inputRestored_result (lvl := lvl) hl
    exact ⟨_, onDev_of (f := fun d => d.inputRestored a p lvl) rfl, hlost, href, hraw, hpend, hbrk, hne, hframe.lift⟩
  · refine ⟨_, onDev_of (f := fun d => d.axTransition a p lvl fine) rfl, ?_, fun k hk => ?_, fun h => ?_⟩
    · rw [axTransition_line he, Dev.sampled, Dev.line_modLine_same]
    · rw [axTransition_line he, Dev.sampled, Dev.line_modLine_ne _ _ hk]
    · rw [axTransition_same he h]
      exact (sampled_frame _ _ _).lift
  · refine ⟨_, onDev_of (f := fun d => d.axTransition a p lvl fine) (axTransition_new he h hl hr hp), Dev.modIn_input _ _ _ _,
      fun m hm => Dev.modIn_axis_ne _ _ _ hm, (((sampled_frame _ _ _).mono (by simp) (by simp)).trans ((Dev.modIn_frame _ _ _ _).mono (by simp) (by simp))).lift⟩
  · have hreverts := axTransition_reverts (fine := fine) he h hl hr hp
    have hcounts := glitched_frame (s.dev.sampled a p) a p
    have haxis : ((s.dev.sampled a p).glitched a p).axis a = s.dev.axis a := glitched_axis _ _ _ _
    have htick : ((s.dev.sampled a p).glitched a p).tick = s.dev.tick := hcounts.tick_eq (by simp)
    obtain ⟨hraw, hpend, hacc, hlater⟩ := reverts_input (d := (s.dev.sampled a p).glitched a p) (lvl := lvl) (fine := fine) (by rw [haxis]; exact hp)
      (by rw [haxis, htick]; exact ht)
    rw [haxis] at hraw hpend hacc hlater
    refine ⟨_, onDev_of (f := fun d => d.axTransition a p lvl fine) hreverts, hraw, hpend, hacc, fun href => (hlater href).trans htick,
      ((reverts_frame _ _ _ _ _ _).get _ (by simp)).trans (glitched_count hu ht), Dev.Frame.lift ?_⟩
    exact (((sampled_frame _ _ _).mono (by simp) (by simp)).trans (hcounts.mono (by simp) (fun _ => id))).trans
      ((reverts_frame _ _ _ _ _ _).mono (by simp) (by simp))
  · exact onDev_idle (f := fun d => d.filterAccept a p) (filterAccept_idle h)
  · obtain ⟨hacc, hpend, hhist, ht16, hchange, hkeep, hdec, hne, hframe⟩ := filterAccept_result hp hl ht hraw hr
    exact ⟨_, onDev_of (f := fun d => d.filterAccept a p) rfl, hacc, hpend, hhist, ht16, hchange, hkeep, hdec, hne, hframe.lift⟩
  · refine ⟨_, onDev_of (f := fun d => d.readOut w (AXIS_LPOS_LO a)) (readOut_AXIS_LPOS_LO h), rfl, ?_, ?_, ?_⟩
    · exact congrArg (fun x : Axis => x.frozen.getD x.latch) (lposRead_axis s.dev a)
    · exact (congrArg Axis.latch (lposRead_axis s.dev a) :)
    · exact ((Dev.modAxis_frame _ _ _ _ (by simp)).trans (Dev.emit_frame _ _ _ (by simp))).lift
  · obtain ⟨hwaits, hland⟩ := lands_AXIS_STATUS a (writerOf_rank w) h
    obtain ⟨hfault, hcause, hcount⟩ := faultDown_shows s.dev a
    have hstored := axFaultClear_stored s.dev a
    have hlanded := (axFaultClear_down s.dev a).trans (hstored.mono (by simp) (fun _ => id))
    have haxis := (hstored.axis (by simp) a).trans (axFaultClear_axis s.dev a)
    refine ⟨_, _, onDev_of hwaits, ⟨(Dev.late_frame _ _ _ (by simp)).lift, rfl⟩, ?_⟩
    rw [State.landed, hland]
    dsimp only
    rw [haxis]
    refine ⟨(hlanded.get _ (by simp)).trans hfault, (hlanded.get _ (by simp)).trans hcause, (hlanded.get _ (by simp)).trans hcount, ?_⟩
    obtain ⟨hill, hidx, hbad, ht16, hclear⟩ := faultFree_clears (s.dev.axis a) (s.dev.flag (AXIS_STATUS_FAULT a))
    exact ⟨hill, hidx, hbad, ht16, hclear, fun m hm => (hstored.axis (by simp) m).trans (axFaultClear_axis_ne _ hm),
      (((faultDown_frame _ _).mono (by simp) (fun _ => id)).trans (hlanded.mono (by simp) (by simp))).lift⟩

end Sys2Proof.Machine
end

section
/-! PROOF. The index of an axis (R76 to R78). -/

namespace Sys2Proof.Machine

/-! ## The expected position (R77) -/

/-- The nearest multiple of `p` to `δ`, a tie taking the lower. -/
theorem nearest_multiple {p : Int} (hp : 0 < p) (δ : Int) : -p < 2 * (δ - -((p - 2 * δ) / (2 * p)) * p) ∧ 2 * (δ - -((p - 2 * δ) / (2 * p)) * p) ≤ p := by
  have hdiv := Int.mul_ediv_add_emod (p - 2 * δ) (2 * p)
  have h0 := Int.emod_nonneg (p - 2 * δ) (b := 2 * p) (by omega)
  have h1 := Int.emod_lt_of_pos (p - 2 * δ) (b := 2 * p) (by omega)
  generalize (p - 2 * δ) / (2 * p) = k at hdiv ⊢
  generalize (p - 2 * δ) % (2 * p) = r at hdiv h0 h1
  have hk : 2 * (δ - -k * p) = 2 * δ + 2 * p * k := by ring
  rw [hk]
  omega

theorem axExpected_periodic {d : Dev} {a : Nat} (tg : Int) (he : d.flag (AXIS_IDXCFG_PERIODIC a) = true) (hp : d.get (AXIS_IDX_PERIOD_PERIOD a) ≠ 0) :
    let base := sgn 48 (d.pair (AXIS_IDX_BASE_LO a) (AXIS_IDX_BASE_HI a)) * 65536
    let p : Int := d.get (AXIS_IDX_PERIOD_PERIOD a) * 65536
    d.axExpected a tg = base + (-((p - 2 * (tg - base)) / (2 * p))) * p := if_pos ⟨he, by omega⟩

/-! ## The stages of an index -/

/-- R77: the deviation of an index is shown. -/
def Dev.idxShown (d : Dev) (a t : Nat) (dv : Int) : Dev := (d.setWord (AXIS_IDX_DEV a) (BitVec.ofNat 32 (uns 32 (dv / 65536)))).axEvent a 1 t

/-- R77: an index within its tolerance. -/
def Dev.idxGood (d : Dev) (a : Nat) : Dev := ((d.incSat (AXIS_IDXCNT_GOOD a)).raise (AXIS_STATUS_IDX_SEEN a)).modAxis a (fun x => { x with idxRun := 0 })

/-- R78: an index beyond its tolerance, before the policy acts. -/
def Dev.idxBad (d : Dev) (a t : Nat) (e dv : Int) : Dev :=
  let d := ((d.incSat (AXIS_IDXCNT_MISMATCH a)).raise (AXIS_STATUS_IDX_FLAG a)).modAxis a (fun x => { x with idxRun := x.idxRun + 1 })
  d.axRec a t { sub := 0, at_ := d.tickStamp (a / 2) t, p0 := uns 32 (dv / 65536), p1 := uns 48 (e / 65536) % 2 ^ 32, p2 := uns 48 (e / 65536) >>> 32 }

/-- R78: what the policy makes of an index beyond its tolerance. -/
def Dev.idxPolicy (d : Dev) (a t : Nat) (dv : Int) : Option Int × Dev :=
  let pol := d.get (AXIS_IDXCFG_POLICY a)
  let mmax := d.get (AXIS_IDXCFG_MMAX a)
  if pol = 2 then (none, d.axFault a 3 t)
  else
    let d := if mmax ≠ 0 ∧ (d.axis a).idxRun = mmax then d.axFault a 2 t else d
    (if pol = 0 then some (-dv) else none, d)

theorem axIndex_eq (d : Dev) (a t : Nat) (tg : Int) : d.axIndex a t tg =
    let dv := tg - d.axExpected a tg
    let e := d.idxShown a t dv
    if dv.natAbs ≤ e.get (AXIS_IDXCFG_TOL a) * 65536 then (none, e.idxGood a) else (e.idxBad a t (d.axExpected a tg) dv).idxPolicy a t dv := rfl

/-- The registers of the index of axis `a`. -/
def idxFields (a : Nat) : List Fld := [whole (AXIS_IDX_DEV a), whole (AXIS_IDXCNT a), AXIS_STATUS_IDX_SEEN a, AXIS_STATUS_IDX_FLAG a]

/-- The registers that an index reaches, its faults included. -/
def idxAll (a : Nat) : List Fld := idxFields a ++ [AXIS_STATUS_FAULT a, AXIS_STATUS_FAULT_CAUSE a]

theorem idx_apart {a k lo w : Nat} (h : k ∉ [0x404, 0x41C, 0x47C] ∨ k = 0x404 ∧ lo + w ≤ 10) : ∀ f ∈ idxAll a, f.apart ⟨axisReg a k, lo, w⟩ := by
  simp only [List.mem_cons, List.not_mem_nil, or_false, not_or] at h
  intro f hf
  simp only [idxAll, idxFields, List.mem_append, List.mem_cons, List.not_mem_nil, or_false] at hf
  rcases hf with (rfl | rfl | rfl | rfl) | rfl | rfl
  · exact axis_apart (k := 0x41C) (.inl (by omega))
  · exact axis_apart (k := 0x47C) (.inl (by omega))
  · exact axis_apart (k := 0x404) (by omega)
  · exact axis_apart (k := 0x404) (by omega)
  · exact axis_apart (k := 0x404) (by omega)
  · exact axis_apart (k := 0x404) (by omega)

/-- A counter lies within its register. -/
theorem incSat_within {d : Dev} {ps : List Part} {fs : List Fld} {f : Fld} (hf : whole f.off ∈ fs) : Dev.Frame ps fs d (d.incSat f) :=
  Dev.setWord_frame _ _ _ _ hf

theorem idxShown_frame (d : Dev) (a t : Nat) (dv : Int) : Dev.Frame [.xev] [whole (AXIS_IDX_DEV a)] d (d.idxShown a t dv) :=
  (Dev.setWord_frame _ _ _ _ (by simp)).trans ((axEvent_frame _ _ _ _).mono (by simp) (by simp))

theorem idxShown_dev (d : Dev) (a t : Nat) (dv : Int) : (d.idxShown a t dv).get (AXIS_IDX_DEV_D a) = uns 32 (dv / 65536) := by
  rw [Dev.idxShown, (axEvent_frame _ _ _ _).get (AXIS_IDX_DEV_D a) (by simp)]
  refine (Dev.get_setWord_same d (AXIS_IDX_DEV_D a) _).trans ?_
  rw [BitVec.toNat_ofNat, Nat.mod_eq_of_lt (uns_lt 32 _)]
  exact Nat.mod_eq_of_lt (uns_lt 32 _)

theorem idxGood_frame (d : Dev) (a : Nat) : Dev.Frame [.axes] [whole (AXIS_IDXCNT a), AXIS_STATUS_IDX_SEEN a] d (d.idxGood a) :=
  (((incSat_within (by simp [AXIS_IDXCNT_GOOD])).trans (Dev.raise_frame _ _ _ (fit rfl) (by simp)))).trans (Dev.modAxis_frame _ _ _ _ (by simp))

theorem idxGood_axis (d : Dev) (a : Nat) : (d.idxGood a).axis a = { d.axis a with idxRun := 0 } := by
  rw [Dev.idxGood, Dev.axis_modAxis_same, Dev.raise, Dev.axis_put, Dev.incSat_eq, Dev.axis_put]

theorem idxGood_shows (d : Dev) (a : Nat) : (d.idxGood a).get (AXIS_IDXCNT_GOOD a) = min (d.get (AXIS_IDXCNT_GOOD a) + 1) 65535 ∧
    (d.idxGood a).get (AXIS_STATUS_IDX_SEEN a) = 1 := by
  have hap : (AXIS_STATUS_IDX_SEEN a).apart (AXIS_IDXCNT_GOOD a) := axis_apart (k := 0x404) (l := 0x47C) (.inl (by decide))
  rw [Dev.idxGood, Dev.modAxis_get, Dev.modAxis_get, Dev.raise, Dev.get_put_ne _ _ (fit rfl) hap, get_incSat _ (fit rfl), Dev.get_put_same _ _ _ (fit rfl)]
  exact ⟨rfl, rfl⟩

theorem idxBad_frame (d : Dev) (a t : Nat) (e dv : Int) :
    Dev.Frame [.axes, .quads] [whole (AXIS_IDXCNT a), AXIS_STATUS_IDX_FLAG a] d (d.idxBad a t e dv) :=
  ((((incSat_within (by simp [AXIS_IDXCNT_MISMATCH])).trans (Dev.raise_frame _ _ _ (fit rfl) (by simp)))).trans (Dev.modAxis_frame _ _ _ _ (by simp))).trans
    ((axRec_frame _ _ _ _).mono (by simp) (by simp))

theorem idxBad_axis (d : Dev) (a t : Nat) (e dv : Int) : (d.idxBad a t e dv).axis a = { d.axis a with idxRun := (d.axis a).idxRun + 1 } := by
  rw [Dev.idxBad, (axRec_frame _ _ _ _).axis (by simp), Dev.axis_modAxis_same, Dev.raise, Dev.axis_put, Dev.incSat_eq, Dev.axis_put]

theorem idxBad_shows (d : Dev) (a t : Nat) (e dv : Int) :
    (d.idxBad a t e dv).get (AXIS_IDXCNT_MISMATCH a) = min (d.get (AXIS_IDXCNT_MISMATCH a) + 1) 65535 ∧
    (d.idxBad a t e dv).get (AXIS_STATUS_IDX_FLAG a) = 1 := by
  have hap : (AXIS_STATUS_IDX_FLAG a).apart (AXIS_IDXCNT_MISMATCH a) := axis_apart (k := 0x404) (l := 0x47C) (.inl (by decide))
  rw [Dev.idxBad, (axRec_frame _ _ _ _).get _ (by simp), (axRec_frame _ _ _ _).get _ (by simp), Dev.modAxis_get, Dev.modAxis_get, Dev.raise,
    Dev.get_put_ne _ _ (fit rfl) hap, get_incSat _ (fit rfl), Dev.get_put_same _ _ _ (fit rfl)]
  exact ⟨rfl, rfl⟩

theorem idxPolicy_frame (d : Dev) (a t : Nat) (dv : Int) :
    Dev.Frame [.quads, .xev] [AXIS_STATUS_FAULT a, AXIS_STATUS_FAULT_CAUSE a] d (d.idxPolicy a t dv).2 := by
  unfold Dev.idxPolicy
  dsimp only
  split
  · exact axFault_frame _ _ _ _
  · exact .then_ite (.refl _ _ _) (axFault_frame _ _ _ _)

/-- R78: SNAP moves T to the expected position. -/
theorem idxPolicy_snap (d : Dev) (a t : Nat) (dv : Int) :
    (d.idxPolicy a t dv).1 = if d.get (AXIS_IDXCFG_POLICY a) = 0 then some (-dv) else none := by
  unfold Dev.idxPolicy
  dsimp only
  split
  · next h => rw [if_neg (by omega)]
  · rfl

theorem idxPolicy_fault {d : Dev} {a : Nat} (t : Nat) (dv : Int) (h : d.get (AXIS_IDXCFG_POLICY a) = 2) :
    (d.idxPolicy a t dv).2.get (AXIS_STATUS_FAULT a) = 1 := by
  unfold Dev.idxPolicy
  dsimp only
  rw [if_pos h]
  exact axFault_flag _ _ _ _

/-! ## An index as a whole -/

theorem idxShown_within (d : Dev) (a t : Nat) (dv : Int) : (d.idxShown a t dv).get (AXIS_IDXCFG_TOL a) = d.get (AXIS_IDXCFG_TOL a) :=
  (idxShown_frame d a t dv).get (AXIS_IDXCFG_TOL a) (by
    intro f hf
    rw [List.mem_singleton.1 hf]
    exact axis_apart (k := 0x41C) (l := 0x408) (.inl (by decide)))

section
variable {d : Dev} {a : Nat} (t : Nat) {tg : Int}

theorem axIndex_good (h : (tg - d.axExpected a tg).natAbs ≤ d.get (AXIS_IDXCFG_TOL a) * 65536) :
    d.axIndex a t tg = (none, (d.idxShown a t (tg - d.axExpected a tg)).idxGood a) :=
  (axIndex_eq d a t tg).trans (if_pos (by rw [idxShown_within]; exact h))

/-- R78: the device at an index beyond its tolerance, before the policy acts. -/
def Dev.idxMissed (d : Dev) (a t : Nat) (tg : Int) : Dev :=
  (d.idxShown a t (tg - d.axExpected a tg)).idxBad a t (d.axExpected a tg) (tg - d.axExpected a tg)

theorem axIndex_bad (h : ¬ (tg - d.axExpected a tg).natAbs ≤ d.get (AXIS_IDXCFG_TOL a) * 65536) :
    d.axIndex a t tg = (d.idxMissed a t tg).idxPolicy a t (tg - d.axExpected a tg) :=
  (axIndex_eq d a t tg).trans (if_neg (by rw [idxShown_within]; exact h))

theorem idxMissed_frame (d : Dev) (a t : Nat) (tg : Int) : Dev.Frame [.axes, .quads, .xev] (idxFields a) d (d.idxMissed a t tg) :=
  ((idxShown_frame _ _ _ _).mono (by simp) (by simp [idxFields])).trans ((idxBad_frame _ _ _ _ _).mono (by simp) (by simp [idxFields]))

theorem axIndex_frame (d : Dev) (a t : Nat) (tg : Int) : Dev.Frame [.axes, .quads, .xev] (idxAll a) d (d.axIndex a t tg).2 := by
  by_cases h : (tg - d.axExpected a tg).natAbs ≤ d.get (AXIS_IDXCFG_TOL a) * 65536
  · rw [axIndex_good t h]
    exact ((idxShown_frame _ _ _ _).mono (by simp) (by simp [idxAll, idxFields])).trans
      ((idxGood_frame _ _).mono (by simp) (by simp [idxAll, idxFields]))
  · rw [axIndex_bad t h]
    exact ((idxMissed_frame _ _ _ _).mono (fun _ => id) (fun _ hf => List.mem_append_left _ hf)).trans
      ((idxPolicy_frame _ _ _ _).mono (by simp) (fun _ hf => List.mem_append_right _ hf))

/-- An index leaves its axis but for the run of mismatches. -/
theorem axIndex_axis (d : Dev) (a t : Nat) (tg : Int) : (d.axIndex a t tg).2.axis a = { d.axis a with
    idxRun := if (tg - d.axExpected a tg).natAbs ≤ d.get (AXIS_IDXCFG_TOL a) * 65536 then 0 else (d.axis a).idxRun + 1 } := by
  have hshown (dv : Int) : (d.idxShown a t dv).axis a = d.axis a := (idxShown_frame _ _ _ _).axis (by simp) a
  by_cases h : (tg - d.axExpected a tg).natAbs ≤ d.get (AXIS_IDXCFG_TOL a) * 65536
  · rw [axIndex_good t h, idxGood_axis, hshown, if_pos h]
  · rw [axIndex_bad t h, (idxPolicy_frame _ _ _ _).axis (by simp), Dev.idxMissed, idxBad_axis, hshown, if_neg h]

/-- The counter and the flag of an index lie apart from what shows its deviation. -/
theorem idxCount_apart {k lo w : Nat} (f : Fld) (hf : f.off = AXIS_STATUS a) (h : k ∉ [0x404, 0x47C]) :
    ∀ g ∈ [whole (AXIS_IDXCNT a), f], g.apart ⟨axisReg a k, lo, w⟩ := by
  simp only [List.mem_cons, List.not_mem_nil, or_false, not_or] at h
  intro g hg
  simp only [List.mem_cons, List.not_mem_nil, or_false] at hg
  rcases hg with rfl | rfl
  · exact axis_apart (k := 0x47C) (.inl (by omega))
  · exact .inl (by rw [hf]; simp only [AXIS_STATUS, axisReg]; omega)

theorem axIndex_dev (d : Dev) (a t : Nat) (tg : Int) : (d.axIndex a t tg).2.get (AXIS_IDX_DEV_D a) = uns 32 ((tg - d.axExpected a tg) / 65536) := by
  by_cases h : (tg - d.axExpected a tg).natAbs ≤ d.get (AXIS_IDXCFG_TOL a) * 65536
  · rw [axIndex_good t h, (idxGood_frame _ _).get (AXIS_IDX_DEV_D a) (idxCount_apart (k := 0x41C) _ rfl (by decide)), idxShown_dev]
  · rw [axIndex_bad t h, (idxPolicy_frame _ _ _ _).get (AXIS_IDX_DEV_D a) (fault_apart a (k := 0x41C) (.inl (by decide))), Dev.idxMissed,
      (idxBad_frame _ _ _ _ _).get (AXIS_IDX_DEV_D a) (idxCount_apart (k := 0x41C) _ rfl (by decide)), idxShown_dev]

theorem idxDev_apart {k lo w : Nat} (h : k ≠ 0x41C) : ∀ g ∈ [whole (AXIS_IDX_DEV a)], g.apart ⟨axisReg a k, lo, w⟩ := by
  intro g hg
  rw [List.mem_singleton.1 hg]
  exact axis_apart (k := 0x41C) (.inl (Ne.symm h))

theorem axIndex_good_shows (h : (tg - d.axExpected a tg).natAbs ≤ d.get (AXIS_IDXCFG_TOL a) * 65536) :
    (d.axIndex a t tg).1 = none ∧ (d.axIndex a t tg).2.get (AXIS_IDXCNT_GOOD a) = min (d.get (AXIS_IDXCNT_GOOD a) + 1) 65535 ∧
    (d.axIndex a t tg).2.get (AXIS_STATUS_IDX_SEEN a) = 1 := by
  rw [axIndex_good t h]
  obtain ⟨hcount, hseen⟩ := idxGood_shows (d.idxShown a t (tg - d.axExpected a tg)) a
  rw [(idxShown_frame _ _ _ _).get (AXIS_IDXCNT_GOOD a) (idxDev_apart (k := 0x47C) (by decide))] at hcount
  exact ⟨rfl, hcount, hseen⟩

theorem axIndex_bad_shows (h : ¬ (tg - d.axExpected a tg).natAbs ≤ d.get (AXIS_IDXCFG_TOL a) * 65536) :
    (d.axIndex a t tg).1 = (if d.get (AXIS_IDXCFG_POLICY a) = 0 then some (d.axExpected a tg - tg) else none) ∧
    (d.axIndex a t tg).2.get (AXIS_IDXCNT_MISMATCH a) = min (d.get (AXIS_IDXCNT_MISMATCH a) + 1) 65535 ∧
    (d.axIndex a t tg).2.get (AXIS_STATUS_IDX_FLAG a) = 1 ∧
    (d.get (AXIS_IDXCFG_POLICY a) = 2 → (d.axIndex a t tg).2.get (AXIS_STATUS_FAULT a) = 1) := by
  have hpolicy : (d.idxMissed a t tg).get (AXIS_IDXCFG_POLICY a) = d.get (AXIS_IDXCFG_POLICY a) :=
    (idxMissed_frame d a t tg).get (AXIS_IDXCFG_POLICY a) fun f hf => idx_apart (k := 0x408) (.inl (by decide)) f (List.mem_append_left _ hf)
  obtain ⟨hcount, hflag⟩ := idxBad_shows (d.idxShown a t (tg - d.axExpected a tg)) a t (d.axExpected a tg) (tg - d.axExpected a tg)
  rw [(idxShown_frame _ _ _ _).get (AXIS_IDXCNT_MISMATCH a) (idxDev_apart (k := 0x47C) (by decide))] at hcount
  have htold := idxPolicy_frame (d.idxMissed a t tg) a t (tg - d.axExpected a tg)
  rw [axIndex_bad t h, idxPolicy_snap, hpolicy, neg_sub]
  exact ⟨rfl, (htold.get (AXIS_IDXCNT_MISMATCH a) (fault_apart a (k := 0x47C) (.inl (by decide)))).trans hcount,
    (htold.get (AXIS_STATUS_IDX_FLAG a) (fault_apart a (k := 0x404) (.inr (by decide)))).trans hflag,
    fun hp => idxPolicy_fault t _ (hpolicy.trans hp)⟩

end

end Sys2Proof.Machine
end

section
/-! PROOF. The quadrature decoder (R66 to R69). -/

namespace Sys2Proof.Machine

/-! ## The table of R67 -/

theorem quadCounts_eq (m u v : Nat) : quadCounts m u v = (decide (m = 0) || (decide (m = 1) && decide (u % 2 ≠ v % 2)) ||
    (decide (2 ≤ m) && (decide (u = 0 ∧ v = 1) || decide (u = 1 ∧ v = 0)))) := by
  unfold quadCounts
  by_cases h0 : m = 0
  · simp [h0]
  · by_cases h1 : m = 1
    · simp [h1, bne, Bool.beq_eq_decide_eq]
    · have h2 : 2 ≤ m := by omega
      simp [h0, h1, h2, Bool.beq_eq_decide_eq]

theorem quadDir_unit {u v : Nat} {g : Int} (h : quadDir u v = some g) : g = 1 ∨ g = -1 := by
  unfold quadDir at h
  split at h
  · exact .inl (Option.some.inj h).symm
  · split at h
    · exact .inr (Option.some.inj h).symm
    · cases h

/-! ## A change is taken -/

section
variable {d : Dev} {a : Nat} {c : AxChange} {rest : List AxChange}

theorem quadDecode_idle (h : (d.axis a).changes = [] ∨ d.get (AXIS_CFG_MODE a) ≠ 1) : d.quadDecode a = d := by
  unfold Dev.quadDecode
  dsimp only
  split
  · rfl
  · next c rest hc =>
    refine if_pos (.inl (h.resolve_left fun h => ?_))
    rw [h] at hc
    cases hc

/-- R67: the decoder takes a change that no other follows. -/
def Dev.quadTakes (d : Dev) (a : Nat) (c : AxChange) (rest : List AxChange) : Prop :=
  (d.axis a).changes = c :: rest ∧ d.get (AXIS_CFG_MODE a) = 1 ∧ d.tb.running = true ∧ c.acc + 2 ≤ d.tick ∧
    ((d.axis a).input (1 - c.pair)).pend = false

/-- R67: the decoder's state after the change `c`. -/
def Dev.quadState (d : Dev) (a st : Nat) (c : AxChange) : Nat := setBitAt st (d.decBit a c.pair) c.lvl

/-- R66: the decode tick of a change that no other follows. -/
def Dev.quadTick (d : Dev) (a : Nat) (c : AxChange) : Nat :=
  let other := (d.axis a).input (1 - c.pair)
  if c.acc + 2 < other.discard ∧ other.discRaw < c.acc + 2 then other.discard else c.acc + 2

theorem quadDecode_single (h : d.quadTakes a c rest) (hf : rest.find? (fun e => e.pair != c.pair && decide (e.raw < c.acc + 2)) = none) :
    d.quadDecode a = (d.modAxis a (fun x => { x with changes := rest })).axDecode a c (d.quadState a (d.axis a).dec c) (d.quadTick a c) := by
  obtain ⟨hc, hm, hr, ht, hp⟩ := h
  unfold Dev.quadDecode
  dsimp only
  rw [hc]
  dsimp only
  rw [if_neg (by simp [hm, hr]; omega), if_neg (by simp [hp]), hf]
  rfl

theorem quadDecode_double {e : AxChange} (h : d.quadTakes a c rest) (hf : rest.find? (fun e => e.pair != c.pair && decide (e.raw < c.acc + 2)) = some e)
    (he : e.acc ≤ d.tick) : d.quadDecode a = (d.modAxis a (fun x => { x with changes := rest.erase e })).axDecode a c
      (d.quadState a (d.quadState a (d.axis a).dec c) e) (max (c.acc + 2) e.acc) := by
  obtain ⟨hc, hm, hr, ht, hp⟩ := h
  unfold Dev.quadDecode
  dsimp only
  rw [hc]
  dsimp only
  rw [if_neg (by simp [hm, hr]; omega), if_neg (by simp [hp]), hf]
  exact if_neg (by omega)

end

/-! ## What the decoder makes of a change -/

section
variable {d : Dev} {a : Nat} {c : AxChange} {st t : Nat}

/-- R67: the decoder is in state `st`. -/
def Dev.decSet (d : Dev) (a st : Nat) : Dev := d.modAxis a (fun x => { x with dec := st })

theorem decSet_axis (d : Dev) (a st : Nat) : (d.decSet a st).axis a = { d.axis a with dec := st } := Dev.axis_modAxis_same _ _ _

theorem decSet_frame (d : Dev) (a st : Nat) : Dev.Frame [.axes] [] d (d.decSet a st) := Dev.modAxis_frame _ _ _ _ (by simp)

theorem axDecode_illegal (hst : st ≠ (d.axis a).dec) (hq : quadDir (d.axis a).dec st = none) : d.axDecode a c st t = (d.decSet a st).axIllegal a t := by
  unfold Dev.axDecode
  dsimp only
  rw [if_neg hst, hq]
  rfl

theorem axDecode_uncounted {g : Int} (hst : st ≠ (d.axis a).dec) (hq : quadDir (d.axis a).dec st = some g)
    (hm : quadCounts (d.get (AXIS_CFG_MULT a)) (d.axis a).dec st = false) : d.axDecode a c st t = d.decSet a st := by
  unfold Dev.axDecode
  dsimp only
  rw [if_neg hst, hq]
  exact if_pos (by rw [Dev.modAxis_get, hm]; rfl)

/-- R69: a counted edge since the last illegal transition. -/
def Axis.cleaned (x : Axis) : Axis :=
  if x.illClean + 1 < 4096 then { x with illClean := x.illClean + 1 } else { x with illClean := 0, illRun := 0 }

theorem cleaned_eq (x : Axis) : ∃ clean run, x.cleaned = { x with illClean := clean, illRun := run } := by
  unfold Axis.cleaned
  split
  · exact ⟨_, _, rfl⟩
  · exact ⟨_, _, rfl⟩

/-- R67, R69: the decoder has counted. -/
def Dev.quadCounted (d : Dev) (a st : Nat) : Dev := (d.decSet a st).modAxis a Axis.cleaned

theorem quadCounted_axis (d : Dev) (a st : Nat) : ∃ clean run, (d.quadCounted a st).axis a = { d.axis a with dec := st, illClean := clean, illRun := run } := by
  rw [Dev.quadCounted, Dev.axis_modAxis_same, decSet_axis]
  exact cleaned_eq _

theorem quadCounted_frame (d : Dev) (a st : Nat) : Dev.Frame [.axes] [] d (d.quadCounted a st) :=
  (decSet_frame _ _ _).trans (Dev.modAxis_frame _ _ _ _ (by simp))

/-- R76: the transition from state `old` to `st` in direction `g` at the raw tick `raw` carries an index. -/
def Dev.quadHit (d : Dev) (a : Nat) (raw old st : Nat) (g : Int) : Bool :=
  (if 0 < g then st == d.get (AXIS_IDXCFG_GATE a) else old == d.get (AXIS_IDXCFG_GATE a)) && d.axZActive a raw

/-- R77: the true position at which the index of a transition in direction `g` is judged. -/
def Dev.quadTrue (d : Dev) (a : Nat) (g : Int) : Int := (d.axis a).t16 + g * 65536 + (if 0 < g then 0 else 65536)

theorem axDecode_counted {g : Int} (hst : st ≠ (d.axis a).dec) (hq : quadDir (d.axis a).dec st = some g)
    (hm : quadCounts (d.get (AXIS_CFG_MULT a)) (d.axis a).dec st = true) : d.axDecode a c st t =
      let e := d.quadCounted a st
      let r := if e.quadHit a c.raw (d.axis a).dec st g then e.axIndex a (t + 1) (e.quadTrue a g) else (none, e)
      r.2.axLatch a (t + 1) c.at_ { mv := g * 65536, inc := g, shown := g, snap := r.1 } := by
  unfold Dev.axDecode
  dsimp only
  rw [if_neg hst, hq]
  exact if_neg (by rw [Dev.modAxis_get, hm]; decide)

/-! ## An illegal transition (R69) -/

/-- R69: an illegal transition is counted and shown, before its fault. -/
def Dev.illCounted (d : Dev) (a : Nat) : Dev :=
  ((d.incSat (AXIS_ILLCNT_CNT a)).raise (AXIS_STATUS_ILLEGAL a)).modAxis a
    (fun x => { x with illRun := (d.axis a).illRun + 1, illClean := 0, brkNext := true })

theorem illCounted_axis (d : Dev) (a : Nat) :
    (d.illCounted a).axis a = { d.axis a with illRun := (d.axis a).illRun + 1, illClean := 0, brkNext := true } := by
  rw [Dev.illCounted, Dev.axis_modAxis_same, Dev.raise, Dev.axis_put, Dev.incSat_eq, Dev.axis_put]

theorem illCounted_frame (d : Dev) (a : Nat) : Dev.Frame [.axes] [AXIS_STATUS_ILLEGAL a, AXIS_ILLCNT_CNT a] d (d.illCounted a) :=
  ((Dev.incSat_frame _ _ _ (fit rfl) (by simp)).trans (Dev.raise_frame _ _ _ (fit rfl) (by simp))).trans (Dev.modAxis_frame _ _ _ _ (by simp))

theorem illCounted_shows (d : Dev) (a : Nat) : (d.illCounted a).get (AXIS_STATUS_ILLEGAL a) = 1 ∧
    (d.illCounted a).get (AXIS_ILLCNT_CNT a) = min (d.get (AXIS_ILLCNT_CNT a) + 1) (2 ^ 32 - 1) := by
  have hap : (AXIS_STATUS_ILLEGAL a).apart (AXIS_ILLCNT_CNT a) := axis_apart (k := 0x404) (l := 0x474) (.inl (by decide))
  rw [Dev.illCounted, Dev.modAxis_get, Dev.modAxis_get, Dev.raise, Dev.get_put_ne _ _ (fit rfl) hap, get_incSat _ (fit rfl), Dev.get_put_same _ _ _ (fit rfl)]
  exact ⟨rfl, rfl⟩

theorem illCounted_max (d : Dev) (a : Nat) : (d.illCounted a).get (AXIS_CFG_ILLMAX a) = d.get (AXIS_CFG_ILLMAX a) := by
  refine (illCounted_frame d a).get (AXIS_CFG_ILLMAX a) fun f hf => ?_
  simp only [List.mem_cons, List.not_mem_nil, or_false] at hf
  rcases hf with rfl | rfl
  · exact axis_apart (k := 0x404) (l := 0x400) (.inl (by decide))
  · exact axis_apart (k := 0x474) (l := 0x400) (.inl (by decide))

theorem axIllegal_eq (d : Dev) (a t : Nat) : d.axIllegal a t =
    if (d.illCounted a).get (AXIS_CFG_ILLMAX a) ≠ 0 ∧ (d.axis a).illRun + 1 = (d.illCounted a).get (AXIS_CFG_ILLMAX a)
    then (d.illCounted a).axFault a 1 (t + 1) else d.illCounted a := by
  have haxis : ((d.incSat (AXIS_ILLCNT_CNT a)).raise (AXIS_STATUS_ILLEGAL a)).axis a = d.axis a := by
    rw [Dev.raise, Dev.axis_put, Dev.incSat_eq, Dev.axis_put]
  unfold Dev.axIllegal
  dsimp only
  rw [haxis]
  rfl

theorem axIllegal_told (d : Dev) (a t : Nat) :
    Dev.Frame [.quads, .xev] [AXIS_STATUS_FAULT a, AXIS_STATUS_FAULT_CAUSE a] (d.illCounted a) (d.axIllegal a t) := by
  rw [axIllegal_eq]
  exact .then_ite (.refl _ _ _) (axFault_frame _ _ _ _)

theorem axIllegal_fault (t : Nat) (h : d.get (AXIS_CFG_ILLMAX a) = (d.axis a).illRun + 1) : (d.axIllegal a t).get (AXIS_STATUS_FAULT a) = 1 := by
  rw [axIllegal_eq, illCounted_max, if_pos ⟨by omega, h.symm⟩]
  exact axFault_flag _ _ _ _

end

end Sys2Proof.Machine
end

section
/-! PROOF. Quadrature decoding, the edge latch and the index (O26). -/

namespace Sys2Proof.Machine

/-! ## The index on a counting transition -/

/-- R76: what the index, where there is one, makes of the device before the latch. -/
def Dev.quadIndex (d : Dev) (a raw t old st : Nat) (g : Int) : Option Int × Dev :=
  if d.quadHit a raw old st g then d.axIndex a t (d.quadTrue a g) else (none, d)

section
variable {d : Dev} {a raw t old st : Nat} {g : Int}

theorem quadHit_iff : d.quadHit a raw old st g = true ↔ (if 0 < g then st else old) = d.get (AXIS_IDXCFG_GATE a) ∧ d.axZActive a raw = true := by
  unfold Dev.quadHit
  split <;> simp

theorem quadIndex_hit (h : d.quadHit a raw old st g = true) : d.quadIndex a raw t old st g = d.axIndex a t (d.quadTrue a g) := if_pos h

theorem quadIndex_miss (h : ¬ d.quadHit a raw old st g = true) : d.quadIndex a raw t old st g = (none, d) := if_neg h

theorem quadIndex_frame (d : Dev) (a raw t old st : Nat) (g : Int) : Dev.Frame [.axes, .quads, .xev] (idxAll a) d (d.quadIndex a raw t old st g).2 := by
  by_cases h : d.quadHit a raw old st g = true
  · rw [quadIndex_hit h]
    exact axIndex_frame _ _ _ _
  · rw [quadIndex_miss h]
    exact .refl _ _ _

theorem quadIndex_axis (d : Dev) (a raw t old st : Nat) (g : Int) : ∃ n, (d.quadIndex a raw t old st g).2.axis a = { d.axis a with idxRun := n } := by
  by_cases h : d.quadHit a raw old st g = true
  · rw [quadIndex_hit h]
    exact ⟨_, axIndex_axis _ _ _ _⟩
  · rw [quadIndex_miss h]
    exact ⟨_, rfl⟩

theorem quadIndex_snap (d : Dev) (a raw t old st : Nat) (g : Int) : (d.quadIndex a raw t old st g).1.getD 0 =
    if d.quadHit a raw old st g = true ∧ ¬ (d.quadTrue a g - d.axExpected a (d.quadTrue a g)).natAbs ≤ d.get (AXIS_IDXCFG_TOL a) * 65536 ∧
      d.get (AXIS_IDXCFG_POLICY a) = 0 then d.axExpected a (d.quadTrue a g) - d.quadTrue a g else 0 := by
  by_cases h : d.quadHit a raw old st g = true
  · rw [quadIndex_hit h]
    by_cases hgood : (d.quadTrue a g - d.axExpected a (d.quadTrue a g)).natAbs ≤ d.get (AXIS_IDXCFG_TOL a) * 65536
    · rw [(axIndex_good_shows t hgood).1, if_neg (fun c => c.2.1 hgood)]
      rfl
    · rw [(axIndex_bad_shows t hgood).1]
      by_cases hp : d.get (AXIS_IDXCFG_POLICY a) = 0
      · rw [if_pos hp, if_pos ⟨h, hgood, hp⟩]
        rfl
      · rw [if_neg hp, if_neg (fun c => hp c.2.2)]
        rfl
  · rw [quadIndex_miss h, if_neg (fun c => h c.1)]
    rfl

end

/-! ## Changes of the decoder that leave T -/

theorem quadDecode_double_result {d : Dev} {a : Nat} {c e : AxChange} (h : d.quadTakes a c [e]) (hp : e.pair ≠ c.pair) (hraw : e.raw < c.acc + 2)
    (he : e.acc ≤ d.tick) (hst : d.quadState a (d.quadState a (d.axis a).dec c) e ≠ (d.axis a).dec)
    (hq : quadDir (d.axis a).dec (d.quadState a (d.quadState a (d.axis a).dec c) e) = none) :
    let f := d.quadDecode a
    (f.axis a).dec = d.quadState a (d.quadState a (d.axis a).dec c) e ∧ (f.axis a).changes = [] ∧ (f.axis a).t16 = (d.axis a).t16 ∧
    (f.axis a).brkNext = true ∧ (f.axis a).illRun = (d.axis a).illRun + 1 ∧ f.get (AXIS_STATUS_ILLEGAL a) = 1 ∧
    f.get (AXIS_ILLCNT_CNT a) = min (d.get (AXIS_ILLCNT_CNT a) + 1) (2 ^ 32 - 1) ∧
    (d.get (AXIS_CFG_ILLMAX a) = (d.axis a).illRun + 1 → f.get (AXIS_STATUS_FAULT a) = 1) ∧
    Dev.Frame [.axes, .quads, .xev] [AXIS_STATUS_ILLEGAL a, AXIS_STATUS_FAULT a, AXIS_STATUS_FAULT_CAUSE a, AXIS_ILLCNT_CNT a] d f := by
  obtain ⟨y, hy⟩ : ∃ y, d.modAxis a (fun x => { x with changes := ([e] : List AxChange).erase e }) = y := ⟨_, rfl⟩
  have hyaxis : y.axis a = { d.axis a with changes := [] } := by rw [← hy, Dev.axis_modAxis_same, List.erase_cons_head]
  have hyframe : Dev.Frame [.axes] [] d y := hy ▸ Dev.modAxis_frame _ _ _ _ (by simp)
  have hdec : (y.axis a).dec = (d.axis a).dec := by rw [hyaxis]
  dsimp only
  rw [quadDecode_double h (by simp [hp, hraw]) he, hy]
  generalize d.quadState a (d.quadState a (d.axis a).dec c) e = st at hst hq ⊢
  rw [axDecode_illegal (by rw [hdec]; exact hst) (by rw [hdec]; exact hq)]
  have htold := axIllegal_told (y.decSet a st) a (max (c.acc + 2) e.acc)
  have hset := hyframe.trans (decSet_frame y a st)
  have haxis : ((y.decSet a st).axIllegal a (max (c.acc + 2) e.acc)).axis a =
      { d.axis a with changes := [], dec := st, illRun := (d.axis a).illRun + 1, illClean := 0, brkNext := true } := by
    rw [htold.axis (by simp), illCounted_axis, decSet_axis, hyaxis]
  obtain ⟨hill, hcount⟩ := illCounted_shows (y.decSet a st) a
  rw [haxis]
  refine ⟨rfl, rfl, rfl, rfl, rfl, (htold.get (AXIS_STATUS_ILLEGAL a) (fault_apart a (k := 0x404) (.inr (by decide)))).trans hill,
    (htold.get (AXIS_ILLCNT_CNT a) (fault_apart a (k := 0x474) (.inl (by decide)))).trans (hcount.trans (by rw [hset.get _ (by simp)])),
    fun hmax => axIllegal_fault _ (by rw [hset.get _ (by simp), decSet_axis, hyaxis]; exact hmax), ?_⟩
  exact ((hset.mono (by simp) (by simp)).trans ((illCounted_frame _ _).mono (by simp) (by simp))).trans (htold.mono (by simp) (by simp))

theorem quadDecode_uncounted_result {d : Dev} {a : Nat} {c : AxChange} {rest : List AxChange} {g : Int} (h : d.quadTakes a c rest)
    (hf : rest.find? (fun e => e.pair != c.pair && decide (e.raw < c.acc + 2)) = none) (hst : d.quadState a (d.axis a).dec c ≠ (d.axis a).dec)
    (hq : quadDir (d.axis a).dec (d.quadState a (d.axis a).dec c) = some g)
    (hm : quadCounts (d.get (AXIS_CFG_MULT a)) (d.axis a).dec (d.quadState a (d.axis a).dec c) = false) :
    (d.quadDecode a).axis a = { d.axis a with dec := d.quadState a (d.axis a).dec c, changes := rest } ∧ Dev.Frame [.axes] [] d (d.quadDecode a) := by
  have haxis : (d.modAxis a (fun x => { x with changes := rest })).axis a = { d.axis a with changes := rest } := Dev.axis_modAxis_same _ _ _
  rw [quadDecode_single h hf, axDecode_uncounted (by rw [haxis]; exact hst) (by rw [haxis]; exact hq) (by rw [haxis]; exact hm), decSet_axis, haxis]
  exact ⟨rfl, (Dev.modAxis_frame _ _ _ _ (by simp)).trans (decSet_frame _ _ _)⟩

/-! ## A counting transition -/

theorem axExpected_of_frame {ps : List Part} {d e : Dev} (h : Dev.Frame ps [] d e) (a : Nat) (tg : Int) : e.axExpected a tg = d.axExpected a tg := by
  rw [Dev.axExpected, Dev.axExpected, h.pair _ _ (by simp) (by simp), h.get _ (by simp), h.flag _ (by simp)]

theorem axZActive_of_frame {ps : List Part} {d e : Dev} (h : Dev.Frame ps [] d e) {a : Nat} (hz : (e.axis a).inZ = (d.axis a).inZ) (raw : Nat) :
    e.axZActive a raw = d.axZActive a raw := by
  rw [Dev.axZActive, Dev.axZActive, h.flag _ (by simp), h.flag _ (by simp), hz]

section
variable {d : Dev} {a : Nat} {c : AxChange} {rest : List AxChange} {g : Int}

/-- R67: the device once the decoder has counted the change `c`, before the index. -/
def Dev.quadReady (d : Dev) (a : Nat) (c : AxChange) (rest : List AxChange) : Dev :=
  (d.modAxis a (fun x => { x with changes := rest })).quadCounted a (d.quadState a (d.axis a).dec c)

theorem quadReady_frame (d : Dev) (a : Nat) (c : AxChange) (rest : List AxChange) : Dev.Frame [.axes] [] d (d.quadReady a c rest) :=
  (Dev.modAxis_frame _ _ _ _ (by simp)).trans (quadCounted_frame _ _ _)

theorem quadReady_axis (d : Dev) (a : Nat) (c : AxChange) (rest : List AxChange) : ∃ clean run, (d.quadReady a c rest).axis a =
    { d.axis a with changes := rest, dec := d.quadState a (d.axis a).dec c, illClean := clean, illRun := run } := by
  obtain ⟨clean, run, h⟩ := quadCounted_axis (d.modAxis a (fun x => { x with changes := rest })) a (d.quadState a (d.axis a).dec c)
  exact ⟨clean, run, by rw [Dev.quadReady, h, Dev.axis_modAxis_same]⟩

/-- R76, R77: the index on the change `c`. -/
def Dev.quadJudged (d : Dev) (a : Nat) (c : AxChange) (rest : List AxChange) (g : Int) : Option Int × Dev :=
  (d.quadReady a c rest).quadIndex a c.raw (d.quadTick a c + 1) (d.axis a).dec (d.quadState a (d.axis a).dec c) g

theorem quadDecode_counts (h : d.quadTakes a c rest) (hf : rest.find? (fun e => e.pair != c.pair && decide (e.raw < c.acc + 2)) = none)
    (hst : d.quadState a (d.axis a).dec c ≠ (d.axis a).dec) (hq : quadDir (d.axis a).dec (d.quadState a (d.axis a).dec c) = some g)
    (hm : quadCounts (d.get (AXIS_CFG_MULT a)) (d.axis a).dec (d.quadState a (d.axis a).dec c) = true) : d.quadDecode a =
      (d.quadJudged a c rest g).2.axLatch a (d.quadTick a c + 1) c.at_ { mv := g * 65536, inc := g, shown := g, snap := (d.quadJudged a c rest g).1 } := by
  have haxis : (d.modAxis a (fun x => { x with changes := rest })).axis a = { d.axis a with changes := rest } := Dev.axis_modAxis_same _ _ _
  rw [quadDecode_single h hf, axDecode_counted (by rw [haxis]; exact hst) (by rw [haxis]; exact hq) (by rw [haxis]; exact hm), haxis]
  rfl

theorem quadJudged_frame (d : Dev) (a : Nat) (c : AxChange) (rest : List AxChange) (g : Int) :
    Dev.Frame [.axes, .quads, .xev] (idxAll a) d (d.quadJudged a c rest g).2 :=
  ((quadReady_frame _ _ _ _).mono (by simp) (by simp)).trans (quadIndex_frame _ _ _ _ _ _ _)

theorem quadJudged_axis (d : Dev) (a : Nat) (c : AxChange) (rest : List AxChange) (g : Int) : ∃ clean run n, (d.quadJudged a c rest g).2.axis a =
    { d.axis a with changes := rest, dec := d.quadState a (d.axis a).dec c, illClean := clean, illRun := run, idxRun := n } := by
  obtain ⟨clean, run, hready⟩ := quadReady_axis d a c rest
  obtain ⟨n, haxis⟩ := quadIndex_axis (d.quadReady a c rest) a c.raw (d.quadTick a c + 1) (d.axis a).dec (d.quadState a (d.axis a).dec c) g
  exact ⟨clean, run, n, by rw [Dev.quadJudged, haxis, hready]⟩

theorem quadJudged_free (h : d.flag (AXIS_CFG_LIM_EN a) = false) : (d.quadJudged a c rest g).2.flag (AXIS_CFG_LIM_EN a) = false := by
  rw [(quadJudged_frame d a c rest g).flag (AXIS_CFG_LIM_EN a) (idx_apart (k := 0x400) (.inl (by decide))), h]

/-- R76: the change `c` carries an index, as the device before it shows. -/
theorem quadReady_hit : (d.quadReady a c rest).quadHit a c.raw (d.axis a).dec (d.quadState a (d.axis a).dec c) g = true ↔
    (if 0 < g then d.quadState a (d.axis a).dec c else (d.axis a).dec) = d.get (AXIS_IDXCFG_GATE a) ∧ d.axZActive a c.raw = true := by
  obtain ⟨clean, run, haxis⟩ := quadReady_axis d a c rest
  have hframe := quadReady_frame d a c rest
  rw [quadHit_iff, hframe.get _ (by simp), axZActive_of_frame hframe (by rw [haxis])]

theorem quadReady_true : (d.quadReady a c rest).quadTrue a g = d.quadTrue a g := by
  obtain ⟨clean, run, haxis⟩ := quadReady_axis d a c rest
  rw [Dev.quadTrue, Dev.quadTrue, haxis]

/-- R76: the change `c`, counted in direction `g`, carries an index. -/
def Dev.quadIndexed (d : Dev) (a : Nat) (c : AxChange) (g : Int) : Prop :=
  (if 0 < g then d.quadState a (d.axis a).dec c else (d.axis a).dec) = d.get (AXIS_IDXCFG_GATE a) ∧ d.axZActive a c.raw = true

/-- R77: the true position `tg` is within the tolerance of its expected position. -/
def Dev.idxWithin (d : Dev) (a : Nat) (tg : Int) : Prop := (tg - d.axExpected a tg).natAbs ≤ d.get (AXIS_IDXCFG_TOL a) * 65536

theorem quadReady_within (tg : Int) : (tg - (d.quadReady a c rest).axExpected a tg).natAbs ≤ (d.quadReady a c rest).get (AXIS_IDXCFG_TOL a) * 65536 ↔
    d.idxWithin a tg := by
  rw [axExpected_of_frame (quadReady_frame d a c rest), (quadReady_frame d a c rest).get _ (by simp)]
  rfl

theorem quadJudged_snap {v : Int}
    (h1 : d.quadIndexed a c g ∧ ¬ d.idxWithin a (d.quadTrue a g) ∧ d.get (AXIS_IDXCFG_POLICY a) = 0 → d.axExpected a (d.quadTrue a g) - d.quadTrue a g = v)
    (h0 : ¬ (d.quadIndexed a c g ∧ ¬ d.idxWithin a (d.quadTrue a g) ∧ d.get (AXIS_IDXCFG_POLICY a) = 0) → 0 = v) :
    (d.quadJudged a c rest g).1.getD 0 = v := by
  have hframe := quadReady_frame d a c rest
  have hiff := and_congr (quadReady_hit (d := d) (a := a) (c := c) (rest := rest) (g := g))
    (and_congr (not_congr (quadReady_within (d := d) (a := a) (c := c) (rest := rest)
    (d.quadTrue a g))) (Iff.of_eq (congrArg (· = 0) (hframe.get (AXIS_IDXCFG_POLICY a) (by simp)))))
  rw [Dev.quadJudged, quadIndex_snap, quadReady_true]
  split
  · next h =>
    rw [axExpected_of_frame hframe]
    exact h1 (hiff.1 h)
  · next h => exact h0 (mt hiff.2 h)

theorem quadJudged_hit (h : d.quadIndexed a c g) : d.quadJudged a c rest g = (d.quadReady a c rest).axIndex a (d.quadTick a c + 1) (d.quadTrue a g) := by
  rw [Dev.quadJudged, quadIndex_hit (quadReady_hit.2 h), quadReady_true]

theorem quadJudged_miss (h : ¬ d.quadIndexed a c g) : d.quadJudged a c rest g = (none, d.quadReady a c rest) := by
  rw [Dev.quadJudged, quadIndex_miss (mt quadReady_hit.1 h)]

theorem quadJudged_dev (h : d.quadIndexed a c g) : (d.quadJudged a c rest g).2.get (AXIS_IDX_DEV_D a) =
    uns 32 ((d.quadTrue a g - d.axExpected a (d.quadTrue a g)) / 65536) := by
  rw [quadJudged_hit h, axIndex_dev, axExpected_of_frame (quadReady_frame d a c rest)]

theorem quadJudged_run (h : d.quadIndexed a c g) : (d.idxWithin a (d.quadTrue a g) → ((d.quadJudged a c rest g).2.axis a).idxRun = 0) ∧
    (¬ d.idxWithin a (d.quadTrue a g) → ((d.quadJudged a c rest g).2.axis a).idxRun = (d.axis a).idxRun + 1) := by
  obtain ⟨clean, run, hready⟩ := quadReady_axis d a c rest
  rw [quadJudged_hit h, axIndex_axis, hready]
  exact ⟨fun hw => if_pos ((quadReady_within _).2 hw), fun hw => if_neg (mt (quadReady_within _).1 hw)⟩

theorem quadJudged_good (h : d.quadIndexed a c g) (hw : d.idxWithin a (d.quadTrue a g)) :
    (d.quadJudged a c rest g).2.get (AXIS_IDXCNT_GOOD a) = min (d.get (AXIS_IDXCNT_GOOD a) + 1) 65535 ∧
    (d.quadJudged a c rest g).2.get (AXIS_STATUS_IDX_SEEN a) = 1 := by
  obtain ⟨-, hcount, hseen⟩ := axIndex_good_shows (d.quadTick a c + 1) ((quadReady_within (c := c) (rest := rest) _).2 hw)
  rw [quadJudged_hit h, hcount, (quadReady_frame d a c rest).get _ (by simp)]
  exact ⟨rfl, hseen⟩

theorem quadJudged_bad (h : d.quadIndexed a c g) (hw : ¬ d.idxWithin a (d.quadTrue a g)) :
    (d.quadJudged a c rest g).1.isSome = decide (d.get (AXIS_IDXCFG_POLICY a) = 0) ∧
    (d.quadJudged a c rest g).2.get (AXIS_IDXCNT_MISMATCH a) = min (d.get (AXIS_IDXCNT_MISMATCH a) + 1) 65535 ∧
    (d.quadJudged a c rest g).2.get (AXIS_STATUS_IDX_FLAG a) = 1 ∧
    (d.get (AXIS_IDXCFG_POLICY a) = 2 → (d.quadJudged a c rest g).2.get (AXIS_STATUS_FAULT a) = 1) := by
  have hframe := quadReady_frame d a c rest
  obtain ⟨hsnap, hcount, hflag, hfault⟩ := axIndex_bad_shows (d.quadTick a c + 1) (mt (quadReady_within (c := c) (rest := rest) _).1 hw)
  rw [hframe.get _ (by simp)] at hsnap hcount hfault
  rw [quadJudged_hit h, hcount, hsnap]
  refine ⟨?_, rfl, hflag, hfault⟩
  split
  · next hp => simp [hp]
  · next hp => simp [hp]

/-! ## The latch of a counting transition -/

/-- R70: the edge of a counting transition. -/
def quadEdge (g : Int) (snap : Option Int) : Edge := { mv := g * 65536, inc := g, shown := g, snap := snap }

theorem quadJudged_turns (hg : g = 1 ∨ g = -1) : (d.quadJudged a c rest g).2.axTurns a g =
    ((d.axis a).moved && decide (g < 0) != d.flag (AXIS_STATUS_DIR a)) := by
  obtain ⟨clean, run, n, haxis⟩ := quadJudged_axis d a c rest g
  rw [Dev.axTurns, haxis, (quadJudged_frame d a c rest g).flag (AXIS_STATUS_DIR a) (idx_apart (k := 0x404) (.inr (by decide))), show (g != 0) = true by
    rcases hg with rfl | rfl <;> rfl]
  simp

theorem quadDecode_frame {t : Nat} {st : Stamp} {e : Edge} (hlim : d.flag (AXIS_CFG_LIM_EN a) = false) :
    Dev.Frame latchParts (latchFields a ++ idxFields a) d ((d.quadJudged a c rest g).2.axLatch a t st e) := by
  refine ((quadJudged_frame d a c rest g).mono (by simp [latchParts]) fun f hf => ?_).trans
    ((axLatch_latchFrame (quadJudged_free hlim) t st e).mono (fun _ => id) (fun f hf => List.mem_append_left _ hf))
  rcases List.mem_append.1 hf with hf | hf
  · exact List.mem_append_right _ hf
  · refine List.mem_append_left _ (List.mem_append_left _ ?_)
    simp only [List.mem_cons, List.not_mem_nil, or_false] at hf
    rcases hf with rfl | rfl <;> simp

theorem quadDecode_missFrame {t : Nat} {st : Stamp} {e : Edge} (hlim : d.flag (AXIS_CFG_LIM_EN a) = false) (h : ¬ d.quadIndexed a c g) :
    Dev.Frame latchParts (latchFields a) d ((d.quadJudged a c rest g).2.axLatch a t st e) := by
  refine Dev.Frame.trans ?_ (axLatch_latchFrame (quadJudged_free hlim) t st e)
  rw [quadJudged_miss h]
  exact (quadReady_frame _ _ _ _).mono (by simp [latchParts]) (by simp)

end

/-- Settles O26: the table by its cases, a change by what it makes of the decoder, a counting one by its index and then its latch, the expected
position by the division that finds the nearest multiple. -/
theorem quadratureIsDecoded : Obligations.QuadratureIsDecoded := by
  unfold Obligations.QuadratureIsDecoded
  refine ⟨⟨rfl, rfl, rfl, rfl, rfl, rfl, rfl, rfl, rfl, rfl, rfl, rfl, fun m u v _ _ => quadCounts_eq m u v⟩, fun s a =>
    ⟨fun h => onDev_idle (f := fun d => d.quadDecode a) (quadDecode_idle h), fun c rest hc hm hr ht hp => ?_, fun tg he hp => ?_⟩⟩
  · have htakes : s.dev.quadTakes a c rest := ⟨hc, hm, hr, ht, hp⟩
    refine ⟨fun e hrest hpair hraw hacc hst hq => ?_, fun hf => ⟨fun g hst hq hcount => ?_, fun g hst hq hcount hlim => ?_⟩⟩
    · subst hrest
      obtain ⟨hdec, hchanges, ht16, hbrk, hill, hflag, hcnt, hfault, hframe⟩ := quadDecode_double_result htakes hpair hraw hacc hst hq
      exact ⟨_, onDev_of (f := fun d => d.quadDecode a) rfl, hdec, hchanges, ht16, hbrk, hill, hflag, hcnt, hfault, hframe.lift⟩
    · obtain ⟨haxis, hframe⟩ := quadDecode_uncounted_result htakes hf hst hq hcount
      exact ⟨_, onDev_of (f := fun d => d.quadDecode a) rfl, haxis, hframe.lift⟩
    · have hfree := quadJudged_free (c := c) (rest := rest) (g := g) hlim
      obtain ⟨clean, run, n, hjudged⟩ := quadJudged_axis s.dev a c rest g
      have hturns := quadJudged_turns (d := s.dev) (a := a) (c := c) (rest := rest) (quadDir_unit hq)
      have hne : g ≠ 0 := by rcases quadDir_unit hq with rfl | rfl <;> decide
      obtain ⟨b, hb⟩ : ∃ b, s.dev.quadJudged a c rest g = b := ⟨_, rfl⟩
      have hedge := quadDecode_counts htakes hf hst hq hcount
      have hframe := quadDecode_frame (c := c) (rest := rest) (g := g) (t := s.dev.quadTick a c + 1) (st := c.at_) (e := quadEdge g b.1) hlim
      have hmiss := quadDecode_missFrame (c := c) (rest := rest) (g := g) (t := s.dev.quadTick a c + 1) (st := c.at_) (e := quadEdge g b.1) hlim
      rw [hb] at hfree hjudged hturns hedge hframe hmiss
      obtain ⟨r, vel, dir, recent, hrun, haxis⟩ := axLatch_axis hfree (s.dev.quadTick a c + 1) c.at_ (quadEdge g b.1)
      have hpos := axLatch_pos (s.dev.quadTick a c + 1) c.at_ (quadEdge g b.1) hfree
      have hexcess := axLatch_excess (s.dev.quadTick a c + 1) c.at_ (quadEdge g b.1) hfree
      have hdir := axLatch_dir (s.dev.quadTick a c + 1) c.at_ (quadEdge g b.1) hfree
      have hmsgs := axLatch_msgs (s.dev.quadTick a c + 1) c.at_ (quadEdge g b.1) hfree
      have hkeep {k lo w : Nat} := axLatch_get hfree (s.dev.quadTick a c + 1) c.at_ (quadEdge g b.1) (k := k) (lo := lo) (w := w)
      have hdev := quadJudged_dev (d := s.dev) (a := a) (c := c) (rest := rest) (g := g)
      have hgood := quadJudged_good (d := s.dev) (a := a) (c := c) (rest := rest) (g := g)
      have hbad := quadJudged_bad (d := s.dev) (a := a) (c := c) (rest := rest) (g := g)
      have hidx := quadJudged_run (d := s.dev) (a := a) (c := c) (rest := rest) (g := g)
      obtain ⟨f, hfe⟩ : ∃ f, b.2.axLatch a (s.dev.quadTick a c + 1) c.at_ (quadEdge g b.1) = f := ⟨_, rfl⟩
      rw [hfe] at haxis hpos hexcess hdir hmsgs hframe hmiss hkeep
      rw [hb] at hdev hgood hbad hidx
      rw [hjudged] at hidx
      rw [hjudged, show b.2.axTurns a (quadEdge g b.1).inc = _ from hturns] at hrun haxis
      intro hit tg e good snap
      have hsnap : b.1.getD 0 = snap := by
        rw [← hb]
        exact quadJudged_snap (fun h => (if_pos h).symm) (fun h => (if_neg h).symm)
      refine ⟨{ s with dev := f }, onDev_of (f := fun d => d.quadDecode a) (hedge.trans hfe), ?_⟩
      dsimp only
      rw [hpos, haxis]
      dsimp only
      refine ⟨rfl, rfl, ?_, rfl, hexcess, hdir.trans (if_neg hne), rfl, rfl, rfl, rfl, rfl, rfl, rfl, rfl, hrun, ?_, fun h => ⟨?_, fun hw => ?_, fun hw => ?_⟩,
        fun h => (hmiss h).lift, hframe.lift⟩
      · exact congrArg (fun i => sgn 64 (uns 64 (_ + i))) hsnap
      · have hsame : b.2.msgs = s.dev.msgs := by rw [← hb]; exact (quadJudged_frame _ _ _ _ _).part .msgs (by simp)
        rwa [hsame] at hmsgs
      · exact (hkeep (k := 0x41C) (by decide) (.inl (by decide))).trans (hdev h)
      · obtain ⟨hcnt, hseen⟩ := hgood h hw
        exact ⟨(hkeep (k := 0x47C) (by decide) (.inl (by decide))).trans hcnt, (hkeep (k := 0x404) (by decide) (.inr (by decide))).trans hseen, (hidx h).1 hw⟩
      · obtain ⟨hpol, hcnt, hflag, hfault⟩ := hbad h hw
        exact ⟨(hkeep (k := 0x47C) (by decide) (.inl (by decide))).trans hcnt, (hkeep (k := 0x404) (by decide) (.inr (by decide))).trans hflag, (hidx h).2 hw,
          (congrArg (· || _) hpol).trans (Bool.or_comm _ _), fun hp => (hkeep (k := 0x404) (by decide) (.inr (by decide))).trans (hfault hp)⟩
  · have hpos : (0 : Int) < s.dev.get (AXIS_IDX_PERIOD_PERIOD a) * 65536 := by omega
    intro p
    rw [axExpected_periodic tg he hp]
    obtain ⟨hlo, hhi⟩ := nearest_multiple hpos (tg - sgn 48 (s.dev.pair (AXIS_IDX_BASE_LO a) (AXIS_IDX_BASE_HI a)) * 65536)
    rw [sub_sub] at hlo hhi
    exact ⟨⟨_, rfl⟩, hlo, hhi⟩

end Sys2Proof.Machine
end

section
/-! PROOF. The tooth wheel (R73 to R75, O27). -/

namespace Sys2Proof.Machine

/-! ## What a tooth does -/

/-- R93: the direction of a tooth. -/
def Dev.twDir (d : Dev) (a : Nat) (c : AxChange) : Int :=
  if d.get (AXIS_TWCFG_DIRSRC a) = 0 then 1 else if d.get (AXIS_TWCFG_DIRSRC a) = 1 then -1 else if (d.axis a).inB.levelAt c.raw then -1 else 1

/-- The time of a tooth in fine steps. -/
def AxChange.fineTime (c : AxChange) : Nat := c.at_.time * 64 + c.at_.fine

/-- R73: the edge of `k` positions. -/
def twEdge (k : Int) (gap : Bool) : Edge := { mv := k * 65536, inc := k, shown := k, gap := gap }

/-- R73: the last real tooth is the one of the change `c`. -/
def Dev.twSet (d : Dev) (a : Nat) (c : AxChange) : Dev := d.modAxis a (fun x => { x with tPrev := some c.fineTime })

/-- R73: a tooth that enters the average. -/
def Dev.twPushed (d : Dev) (a : Nat) (c : AxChange) (tp : Nat) : Dev := (d.twSet a c).modAxis a (fun x => x.pushPeriod (c.fineTime - tp))

/-- R75: a tooth that the tooth wheel learns from. -/
def Dev.twLearned (d : Dev) (a : Nat) (c : AxChange) (tp : Nat) : Dev :=
  (d.twPushed a c tp).modAxis a (fun x => { x with learning := decide (x.periods.length < (d.twPushed a c tp).twN a) })

/-- R75: the tooth wheel has stopped, and learns anew from this tooth. -/
def Dev.twStopped (d : Dev) (a : Nat) (c : AxChange) : Dev :=
  ((d.twSet a c).raise (AXIS_STATUS_TW_STOP a)).modAxis a (fun x => { x with brkNext := true, learning := true, periods := [] })

/-- R74: a reference of the wrong kind, before its latch. -/
def Dev.twErred (d : Dev) (a : Nat) (c : AxChange) : Dev := (d.twSet a c).raise (AXIS_STATUS_TW_ERR a)

/-- R73: the positions that a period `p` spans. -/
def Dev.twSpan (d : Dev) (a p : Nat) : Nat := (p + d.twAvg a / 2) / d.twAvg a

/-- R76: the index of a tooth at the true position `tg`, where it is on. -/
def Dev.twIndex (d : Dev) (a t : Nat) (tg : Int) : Option Int × Dev := if d.flag (AXIS_IDXCFG_IDX_EN a) then d.axIndex a t tg else (none, d)

section
variable {d : Dev} {a : Nat} {c : AxChange} {rest : List AxChange} {tp : Nat}

theorem toothEdge_idle (hc : (d.axis a).changes = c :: rest) (h : d.get (AXIS_CFG_MODE a) ≠ 2 ∨ d.tick < c.acc + 2) : d.toothEdge a = d := by
  unfold Dev.toothEdge
  rw [hc]
  exact if_pos (h.elim .inl (fun h => .inr (.inl h)))

theorem toothEdge_takes (hc : (d.axis a).changes = c :: rest) (hm : d.get (AXIS_CFG_MODE a) = 2) (ht : c.acc + 2 ≤ d.tick) (hr : d.tb.running = true) :
    d.toothEdge a = (d.modAxis a (fun x => { x with changes := rest })).twTooth a c := by
  unfold Dev.toothEdge
  rw [hc]
  exact if_neg (by simp [hm, hr]; omega)

theorem twTooth_first (h : (d.axis a).tPrev = none) : d.twTooth a c = d.twSet a c := by
  unfold Dev.twTooth
  dsimp only
  rw [h]
  rfl

section
variable (h : (d.axis a).tPrev = some tp)
include h

theorem twTooth_learns (hl : (d.axis a).learning = true) : d.twTooth a c =
    (d.twLearned a c tp).axLatch a (c.acc + 3) c.at_ (twEdge (d.twDir a c * 1) false) := by
  unfold Dev.twTooth
  dsimp only
  rw [h]
  dsimp only
  rw [if_pos hl]
  rfl

variable (hl : (d.axis a).learning = false)
include hl

theorem twTooth_normal (hg : (c.fineTime - tp) * 64 / d.twAvg a ≤ d.get (AXIS_TWCFG_GAP_RATIO a))
    (he : d.get (AXIS_TWCFG_EXTRA_RATIO a) ≤ (c.fineTime - tp) * 64 / d.twAvg a) : d.twTooth a c =
    (d.twPushed a c tp).axLatch a (c.acc + 3) c.at_ (twEdge (d.twDir a c * 1) false) := by
  unfold Dev.twTooth
  dsimp only
  rw [h]
  dsimp only
  exact (if_neg (by simp [hl])).trans ((if_neg (Nat.not_lt.2 hg)).trans (if_neg (Nat.not_lt.2 he)))

theorem twTooth_short (hg : (c.fineTime - tp) * 64 / d.twAvg a ≤ d.get (AXIS_TWCFG_GAP_RATIO a))
    (he : (c.fineTime - tp) * 64 / d.twAvg a < d.get (AXIS_TWCFG_EXTRA_RATIO a)) (href : d.flag (AXIS_TWCFG_REFTYPE a) = false) :
    d.twTooth a c = d.raise (AXIS_STATUS_TW_ERR a) := by
  unfold Dev.twTooth
  dsimp only
  rw [h]
  dsimp only
  exact (if_neg (by simp [hl])).trans ((if_neg (Nat.not_lt.2 hg)).trans ((if_pos he).trans (if_neg (by simp [href]))))

variable (hg : d.get (AXIS_TWCFG_GAP_RATIO a) < (c.fineTime - tp) * 64 / d.twAvg a)
include hg

theorem twTooth_stops (hm : max 1 (d.get (AXIS_TWCFG_MAXGAP a)) < d.twSpan a (c.fineTime - tp) - 1) : d.twTooth a c =
    (d.twStopped a c).axLatch a (c.acc + 3) c.at_ (twEdge (d.twDir a c * 1) false) := by
  unfold Dev.twTooth
  dsimp only
  rw [h]
  dsimp only
  exact (if_neg (by simp [hl])).trans ((if_pos hg).trans (if_pos hm))

variable (hm : d.twSpan a (c.fineTime - tp) - 1 ≤ max 1 (d.get (AXIS_TWCFG_MAXGAP a)))
include hm

theorem twTooth_wrong (href : d.flag (AXIS_TWCFG_REFTYPE a) = true) : d.twTooth a c =
    (d.twErred a c).axLatch a (c.acc + 3) c.at_ (twEdge (d.twDir a c * d.twSpan a (c.fineTime - tp)) true) := by
  unfold Dev.twTooth
  dsimp only
  rw [h]
  dsimp only
  exact (if_neg (by simp [hl])).trans ((if_pos hg).trans ((if_neg (Nat.not_lt.2 hm)).trans (if_pos href)))

theorem twTooth_gap (href : d.flag (AXIS_TWCFG_REFTYPE a) = false) (hidx : d.flag (AXIS_IDXCFG_IDX_EN a) = false) : d.twTooth a c =
    (d.twSet a c).axLatch a (c.acc + 3) c.at_ (twEdge (d.twDir a c * d.twSpan a (c.fineTime - tp)) true) := by
  have hoff : (d.twSet a c).twIndex a (c.acc + 3) ((d.axis a).t16 + d.twDir a c * (d.twSpan a (c.fineTime - tp) : Int) * 65536) = (none, d.twSet a c) :=
    if_neg (by simp [show (d.twSet a c).flag (AXIS_IDXCFG_IDX_EN a) = false from hidx])
  unfold Dev.twTooth
  dsimp only
  rw [h]
  dsimp only
  refine (if_neg (by simp [hl])).trans ((if_pos hg).trans ((if_neg (Nat.not_lt.2 hm)).trans ((if_neg (by simp [href])).trans ?_)))
  change (((d.twSet a c).twIndex a (c.acc + 3) ((d.axis a).t16 + d.twDir a c * (d.twSpan a (c.fineTime - tp) : Int) * 65536)).2).axLatch a (c.acc + 3) c.at_
    { twEdge (d.twDir a c * d.twSpan a (c.fineTime - tp)) true with
      snap := ((d.twSet a c).twIndex a (c.acc + 3) ((d.axis a).t16 + d.twDir a c * (d.twSpan a (c.fineTime - tp) : Int) * 65536)).1 } = _
  rw [hoff]
  rfl

end

end

/-! ## The latch of a tooth -/

/-- R70, R73: what the latch of `k` positions on tick `t` makes of axis `a`, from `b` to `f`. -/
structure Dev.ToothLatched (b f : Dev) (a t : Nat) (st : Stamp) (k : Int) (gap : Bool) : Prop where
  t16 : (f.axis a).t16 = sgn 64 (uns 64 ((b.axis a).t16 + k * 65536))
  pos : f.axPos a = (f.axis a).t16
  inc : (f.axis a).latch.inc = k
  at_ : (f.axis a).latch.at_ = st
  last : (f.axis a).lastLatch = t
  changes : (f.axis a).changes = (b.axis a).changes
  tPrev : (f.axis a).tPrev = (b.axis a).tPrev
  periods : (f.axis a).periods = (b.axis a).periods
  learning : (f.axis a).learning = (b.axis a).learning
  gap : (f.axis a).latch.gap = gap
  brk : (f.axis a).latch.brk = (b.axis a).brkNext
  run : (b.axis a).brkNext = true → (f.axis a).run = 1
  frame : Dev.Frame latchParts (latchFields a) b f
  status : ∀ lo, 2 ≤ lo → lo ≤ 11 → f.get ⟨AXIS_STATUS a, lo, 1⟩ = b.get ⟨AXIS_STATUS a, lo, 1⟩

theorem toothLatched {b : Dev} {a : Nat} (h : b.flag (AXIS_CFG_LIM_EN a) = false) (t : Nat) (st : Stamp) (k : Int) (gap : Bool) :
    b.ToothLatched (b.axLatch a t st (twEdge k gap)) a t st k gap := by
  obtain ⟨run, vel, dir, recent, hrun, haxis⟩ := axLatch_axis h t st (twEdge k gap)
  exact {
    t16 := by rw [haxis]; exact congrArg (fun i => sgn 64 (uns 64 i)) (Int.add_zero _)
    pos := axLatch_pos t st _ h
    inc := by rw [haxis]; rfl
    at_ := by rw [haxis]
    last := by rw [haxis]
    changes := by rw [haxis]
    tPrev := by rw [haxis]
    periods := by rw [haxis]
    learning := by rw [haxis]
    gap := by rw [haxis]; rfl
    brk := by rw [haxis]
    run := fun hb => by rw [haxis]; exact (hrun (.inr hb)).1
    frame := axLatch_latchFrame h t st _
    status := fun lo h1 h2 => axLatch_get h t st _ (k := 0x404) (by decide) (.inr ⟨rfl, h1, .inl (by omega)⟩) }

theorem Dev.ToothLatched.counts {b f : Dev} {a t : Nat} {st : Stamp} {k : Int} {gap : Bool} (h : b.ToothLatched f a t st k gap) {v : Int} {rest : List AxChange}
    (hv : (b.axis a).t16 = v) (hrest : (b.axis a).changes = rest) : (f.axis a).t16 = sgn 64 (uns 64 (v + k * 65536)) ∧ f.axPos a = (f.axis a).t16 ∧
      (f.axis a).latch.inc = k ∧ (f.axis a).latch.at_ = st ∧ (f.axis a).lastLatch = t ∧ (f.axis a).changes = rest :=
  ⟨hv ▸ h.t16, h.pos, h.inc, h.at_, h.last, h.changes.trans hrest⟩

/-- R73: the oldest change is taken from the tooth wheel. -/
def Dev.toothTaken (d : Dev) (a : Nat) (rest : List AxChange) : Dev := d.modAxis a (fun x => { x with changes := rest })

theorem toothTaken_axis (d : Dev) (a : Nat) (rest : List AxChange) : (d.toothTaken a rest).axis a = { d.axis a with changes := rest } :=
  Dev.axis_modAxis_same _ _ _

theorem toothTaken_dir (d : Dev) (a : Nat) (rest : List AxChange) (c : AxChange) : (d.toothTaken a rest).twDir a c = d.twDir a c := by
  rw [Dev.twDir, Dev.twDir, toothTaken_axis]
  rfl

theorem toothTaken_avg (d : Dev) (a : Nat) (rest : List AxChange) : (d.toothTaken a rest).twAvg a = d.twAvg a := by
  rw [Dev.twAvg, Dev.twAvg, toothTaken_axis]
  rfl

theorem toothTaken_span (d : Dev) (a : Nat) (rest : List AxChange) (p : Nat) : (d.toothTaken a rest).twSpan a p = d.twSpan a p := by
  rw [Dev.twSpan, Dev.twSpan, toothTaken_avg]

theorem toothTaken_frame (d : Dev) (a : Nat) (rest : List AxChange) : Dev.Frame [.axes] [] d (d.toothTaken a rest) := Dev.modAxis_frame _ _ _ _ (by simp)

/-- What stands before the latch of a tooth has the limits off. -/
theorem tooth_free {d b : Dev} {a : Nat} {fs : List Fld} (hb : Dev.Frame [.axes] fs d b) (hf : ∀ f ∈ fs, f.off = AXIS_STATUS a)
    (h : d.flag (AXIS_CFG_LIM_EN a) = false) : b.flag (AXIS_CFG_LIM_EN a) = false := by
  rw [hb.flag _ fun f hm => .inl (by rw [hf f hm]; simp only [AXIS_STATUS, AXIS_CFG_LIM_EN, AXIS_CFG]; omega), h]

section
variable (d : Dev) (a : Nat) (c : AxChange) (tp : Nat)

theorem twSet_axis : (d.twSet a c).axis a = { d.axis a with tPrev := some c.fineTime } := Dev.axis_modAxis_same _ _ _

theorem twSet_frame : Dev.Frame [.axes] [] d (d.twSet a c) := Dev.modAxis_frame _ _ _ _ (by simp)

theorem twPushed_axis : (d.twPushed a c tp).axis a =
    { d.axis a with tPrev := some c.fineTime, periods := ((c.fineTime - tp) :: (d.axis a).periods).take 32 } := by
  rw [Dev.twPushed, Dev.axis_modAxis_same, twSet_axis, Axis.pushPeriod]

theorem twPushed_frame : Dev.Frame [.axes] [] d (d.twPushed a c tp) := (twSet_frame _ _ _).trans (Dev.modAxis_frame _ _ _ _ (by simp))

theorem twLearned_axis : (d.twLearned a c tp).axis a =
    { d.axis a with
      tPrev := some c.fineTime, periods := ((c.fineTime - tp) :: (d.axis a).periods).take 32
      learning := decide ((((c.fineTime - tp) :: (d.axis a).periods).take 32).length < 4 * 2 ^ d.get (AXIS_TWCFG_AVG_N a)) } := by
  rw [Dev.twLearned, Dev.axis_modAxis_same, twPushed_axis, Dev.twN, (twPushed_frame d a c tp).get _ (by simp)]

theorem twLearned_frame : Dev.Frame [.axes] [] d (d.twLearned a c tp) := (twPushed_frame _ _ _ _).trans (Dev.modAxis_frame _ _ _ _ (by simp))

theorem twStopped_axis : (d.twStopped a c).axis a = { d.axis a with tPrev := some c.fineTime, brkNext := true, learning := true, periods := [] } := by
  rw [Dev.twStopped, Dev.axis_modAxis_same, Dev.raise, Dev.axis_put, twSet_axis]

theorem twStopped_frame : Dev.Frame [.axes] [AXIS_STATUS_TW_STOP a] d (d.twStopped a c) :=
  (((twSet_frame _ _ _).mono (by simp) (by simp)).trans (Dev.raise_frame _ _ _ (fit rfl) (by simp))).trans (Dev.modAxis_frame _ _ _ _ (by simp))

theorem twStopped_flag : (d.twStopped a c).get (AXIS_STATUS_TW_STOP a) = 1 := by
  rw [Dev.twStopped, Dev.modAxis_get, get_raise _ _ rfl (fit rfl)]

theorem twErred_axis : (d.twErred a c).axis a = { d.axis a with tPrev := some c.fineTime } := by rw [Dev.twErred, Dev.raise, Dev.axis_put, twSet_axis]

theorem twErred_flag : (d.twErred a c).get (AXIS_STATUS_TW_ERR a) = 1 := get_raise _ _ rfl (fit rfl)

theorem twErred_frame : Dev.Frame [.axes] [AXIS_STATUS_TW_ERR a] d (d.twErred a c) :=
  ((twSet_frame _ _ _).mono (by simp) (by simp)).trans (Dev.raise_frame _ _ _ (fit rfl) (by simp))

end

/-- Settles O27: each kind of period by the device that stands before its latch, and the latch by what it leaves of that. -/
theorem toothWheelCountsTeeth : Obligations.ToothWheelCountsTeeth := by
  unfold Obligations.ToothWheelCountsTeeth
  intro s a c rest x ft dir hc
  refine ⟨fun h => onDev_idle (f := fun d => d.toothEdge a) (toothEdge_idle hc h), fun hm ht hr hlim => ?_⟩
  have htake : s.dev.toothEdge a = (s.dev.toothTaken a rest).twTooth a c := toothEdge_takes hc hm ht hr
  have haxis := toothTaken_axis s.dev a rest
  have hdir : (s.dev.toothTaken a rest).twDir a c = dir := toothTaken_dir s.dev a rest c
  have havg := toothTaken_avg s.dev a rest
  have hspan := toothTaken_span s.dev a rest
  have hget (f : Fld) : (s.dev.toothTaken a rest).get f = s.dev.get f := rfl
  have hframe := toothTaken_frame s.dev a rest
  obtain ⟨d, hd⟩ : ∃ d, s.dev.toothTaken a rest = d := ⟨_, rfl⟩
  rw [hd] at htake haxis hdir havg hspan hget hframe
  have hone : d.twDir a c * 1 = dir := by rw [hdir, mul_one]
  have hflag (f : Fld) : d.flag f = s.dev.flag f := by rw [Dev.flag, Dev.flag, hget]
  have hlim : d.flag (AXIS_CFG_LIM_EN a) = false := (hflag _).trans hlim
  have hfirst : (d.axis a).tPrev = x.tPrev := by rw [haxis]
  have hlearns : (d.axis a).learning = x.learning := by rw [haxis]
  have hwide {f : Dev} {fs : List Fld} (hf : Dev.Frame latchParts fs d f) : Dev.Frame latchParts fs s.dev f :=
    (hframe.mono (by simp [latchParts]) (by simp)).trans hf
  have hdo {e : Dev} (he : d.twTooth a c = e) : exec (.toothEdge a) s = .next { s with dev := e } := onDev_of (f := fun d => d.toothEdge a) (htake.trans he)
  refine ⟨fun hp => ?_, fun tp hp => ⟨fun hl => ?_, fun hl hg hm => ?_, fun hl hg hm href => ?_, fun hl hg hm href hidx => ?_, fun hl hg he href => ?_,
    fun hl hg he => ?_⟩⟩
  · exact ⟨_, hdo (twTooth_first (hfirst.trans hp)), (twSet_axis d a c).trans (by rw [haxis]; rfl), (hframe.trans (twSet_frame d a c)).lift⟩
  · have hb := twLearned_axis d a c tp
    have htooth : d.twTooth a c = _ := twTooth_learns (hfirst.trans hp) (hlearns.trans hl)
    rw [hone] at htooth
    have hlatch := toothLatched (tooth_free (twLearned_frame d a c tp) (by simp) hlim) (c.acc + 3) c.at_ dir false
    rw [haxis, hget] at hb
    refine ⟨_, hdo htooth, hlatch.counts (by rw [hb]) (by rw [hb]), hlatch.tPrev.trans (by rw [hb]; rfl), hlatch.periods.trans (by rw [hb]; rfl),
      hlatch.learning.trans (by rw [hb]; rfl), (hwide (((twLearned_frame _ _ _ _).mono (by simp [latchParts]) (by simp)).trans hlatch.frame)).lift⟩
  · have hb := twStopped_axis d a c
    have htooth : d.twTooth a c = _ := twTooth_stops (hfirst.trans hp) (hlearns.trans hl) (by rw [hget, havg]; exact hg) (by rw [hget, hspan]; exact hm)
    rw [hone] at htooth
    have hlatch := toothLatched (tooth_free (twStopped_frame d a c) (by simp [AXIS_STATUS_TW_STOP]) hlim) (c.acc + 3) c.at_ dir false
    rw [haxis] at hb
    refine ⟨_, hdo htooth, hlatch.counts (by rw [hb]) (by rw [hb]), (hlatch.status 7 (by decide) (by decide)).trans (twStopped_flag d a c),
      hlatch.brk.trans (by rw [hb]), hlatch.run (by rw [hb]), hlatch.learning.trans (by rw [hb]), hlatch.tPrev.trans (by rw [hb]; rfl),
      hlatch.periods.trans (by rw [hb]), (hwide ?_).lift⟩
    exact ((twStopped_frame _ _ _).mono (by simp [latchParts]) (by simp)).trans (hlatch.frame.mono (fun _ => id) (fun _ hf => List.mem_cons_of_mem _ hf))
  · have hb := twErred_axis d a c
    have htooth : d.twTooth a c = _ :=
      twTooth_wrong (hfirst.trans hp) (hlearns.trans hl) (by rw [hget, havg]; exact hg) (by rw [hget, hspan]; exact hm) ((hflag _).trans href)
    rw [hdir, hspan] at htooth
    have hlatch := toothLatched (tooth_free (twErred_frame d a c) (by simp [AXIS_STATUS_TW_ERR]) hlim) (c.acc + 3) c.at_
      (dir * s.dev.twSpan a (c.fineTime - tp)) true
    rw [haxis] at hb
    refine ⟨_, hdo htooth, hlatch.counts (by rw [hb]) (by rw [hb]), hlatch.gap, (hlatch.status 6 (by decide) (by decide)).trans (twErred_flag d a c),
      hlatch.tPrev.trans (by rw [hb]; rfl), hlatch.periods.trans (by rw [hb]), (hwide ?_).lift⟩
    exact ((twErred_frame _ _ _).mono (by simp [latchParts]) (by simp)).trans (hlatch.frame.mono (fun _ => id) (fun _ hf => List.mem_cons_of_mem _ hf))
  · have hb := twSet_axis d a c
    have htooth : d.twTooth a c = _ :=
      twTooth_gap (hfirst.trans hp) (hlearns.trans hl) (by rw [hget, havg]; exact hg) (by rw [hget, hspan]; exact hm) ((hflag _).trans href) ((hflag _).trans hidx)
    rw [hdir, hspan] at htooth
    have hlatch := toothLatched (tooth_free (twSet_frame d a c) (by simp) hlim) (c.acc + 3) c.at_ (dir * s.dev.twSpan a (c.fineTime - tp)) true
    rw [haxis] at hb
    exact ⟨_, hdo htooth, hlatch.counts (by rw [hb]) (by rw [hb]), hlatch.gap, hlatch.tPrev.trans (by rw [hb]; rfl),
      (hwide (((twSet_frame _ _ _).mono (by simp [latchParts]) (by simp)).trans hlatch.frame)).lift⟩
  · have htooth : d.twTooth a c = _ :=
      twTooth_short (hfirst.trans hp) (hlearns.trans hl) (by rw [hget, havg]; exact hg) (by rw [hget, havg]; exact he) ((hflag _).trans href)
    exact ⟨_, hdo htooth, haxis, get_raise _ _ rfl (fit rfl), ((hframe.mono (by simp) (by simp)).trans (Dev.raise_frame _ _ _ (fit rfl) (by simp))).lift⟩
  · have hb := twPushed_axis d a c tp
    have htooth : d.twTooth a c = _ := twTooth_normal (hfirst.trans hp) (hlearns.trans hl) (by rw [hget, havg]; exact hg) (by rw [hget, havg]; exact he)
    rw [hone] at htooth
    have hlatch := toothLatched (tooth_free (twPushed_frame d a c tp) (by simp) hlim) (c.acc + 3) c.at_ dir false
    rw [haxis] at hb
    exact ⟨_, hdo htooth, hlatch.counts (by rw [hb]) (by rw [hb]), hlatch.tPrev.trans (by rw [hb]; rfl), hlatch.learning.trans (by rw [hb]; exact hl),
      hlatch.periods.trans (by rw [hb]; rfl), hlatch.gap, (hwide (((twPushed_frame _ _ _ _).mono (by simp [latchParts]) (by simp)).trans hlatch.frame)).lift⟩

end Sys2Proof.Machine
end

section
/-! PROOF. The soft limits of an axis (R80 to R82), and writes of POS (R90). -/

namespace Sys2Proof.Machine

/-! ## T within its limits -/

/-- R80: an axis whose true position is `v` shows what the limits `lo` and `hi` leave of it. -/
def Dev.Limited (e : Dev) (a : Nat) (lo hi v : Int) : Prop :=
  let c := v / 65536
  (hi < c → c - hi ≤ 2147483647 → e.axPos a = hi * 65536 ∧ (e.axis a).excess = c - hi ∧ e.get (AXIS_STATUS_SAT_HI a) = 1) ∧
  (lo ≤ hi → c < lo → lo - c ≤ 2147483648 → e.axPos a = lo * 65536 ∧ (e.axis a).excess = c - lo ∧ e.get (AXIS_STATUS_SAT_LO a) = 1) ∧
  (lo ≤ c → c ≤ hi → -(2 ^ 63) ≤ v → v < 2 ^ 63 → e.axPos a = v ∧ (e.axis a).excess = 0 ∧ e.get (AXIS_STATUS_SAT_HI a) = 0 ∧
    e.get (AXIS_STATUS_SAT_LO a) = 0)

/-- A limit in 1/65,536 count fits in POS. -/
theorem sgn_uns_limit (n : Nat) : sgn 64 (uns 64 (sgn 48 n * 65536)) = sgn 48 n * 65536 := by
  obtain ⟨hlo, hhi⟩ := sgn_range (w := 48) (by decide) n
  exact sgn_uns (by decide) (by norm_num at hlo ⊢; omega) (by norm_num at hhi ⊢; omega)

section
variable {d : Dev} {a : Nat} (hen : d.flag (AXIS_CFG_LIM_EN a) = true) {v : Int}
include hen

theorem axExcessOf_limited (c : Int) :
    d.axExcessOf a c = if d.axLimitHi a < c then c - d.axLimitHi a else if c < d.axLimitLo a then c - d.axLimitLo a else 0 := if_pos hen

theorem axBound_above (h : d.axLimitHi a < v / 65536) (hb : v / 65536 - d.axLimitHi a ≤ 2147483647) : d.axBound a v = v / 65536 - d.axLimitHi a := by
  rw [Dev.axBound, axExcessOf_limited hen, if_pos h]
  omega

theorem axBound_below (hl : d.axLimitLo a ≤ d.axLimitHi a) (h : v / 65536 < d.axLimitLo a) (hb : d.axLimitLo a - v / 65536 ≤ 2147483648) :
    d.axBound a v = v / 65536 - d.axLimitLo a := by
  rw [Dev.axBound, axExcessOf_limited hen, if_neg (by omega), if_pos h]
  omega

theorem axBound_within (h1 : d.axLimitLo a ≤ v / 65536) (h2 : v / 65536 ≤ d.axLimitHi a) : d.axBound a v = 0 ∧ d.axTrue a v = sgn 64 (uns 64 v) := by
  have hzero : d.axExcessOf a (v / 65536) = 0 := by rw [axExcessOf_limited hen, if_neg (by omega), if_neg (by omega)]
  have hbound : d.axBound a v = 0 := by rw [Dev.axBound, hzero]; rfl
  rw [Dev.axTrue, hbound, hzero]
  exact ⟨rfl, congrArg (fun i => sgn 64 (uns 64 i)) (by omega)⟩

theorem axPlace_limited (t : Nat) : (d.axPlace a v t).Limited a (d.axLimitLo a) (d.axLimitHi a) v := by
  rw [Dev.Limited, axPlace_pos, axPlace_axis, axPlace_sat_hi, axPlace_sat_lo]
  refine ⟨fun h hb => ?_, fun hl h hb => ?_, fun h1 h2 hlo hhi => ?_⟩
  · have hbound := axBound_above hen h hb
    rw [Dev.axHeld, if_neg (by omega), if_pos (by omega)]
    exact ⟨sgn_uns_limit _, hbound, by rw [decide_eq_true (by omega)]; rfl⟩
  · have hbound := axBound_below hen hl h hb
    rw [Dev.axHeld, if_neg (by omega), if_neg (by omega)]
    exact ⟨sgn_uns_limit _, hbound, by rw [decide_eq_true (by omega)]; rfl⟩
  · obtain ⟨hbound, htrue⟩ := axBound_within hen h1 h2
    rw [Dev.axHeld, if_pos hbound, htrue, sgn_uns_sgn (by decide), hbound]
    exact ⟨sgn_uns (by decide) hlo hhi, rfl, rfl, rfl⟩

end

/-! ## The limits are applied (R82, R99) -/

theorem axRelimit_eq (d : Dev) (a t : Nat) : d.axRelimit a t =
    let e := d.axPlace a (d.axis a).t16 t
    if e.axExt a = (d.axView a t).ext then e else (e.axRemember a t (d.axView a t)).axSend a t {} := rfl

theorem axRelimit_told (d : Dev) (a t : Nat) : Dev.Frame [.axes, .msgs] [] (d.axPlace a (d.axis a).t16 t) (d.axRelimit a t) := by
  rw [axRelimit_eq]
  exact .ite (fun _ => .refl _ _ _) fun _ => ((axRemember_frame _ _ _ _).mono (by simp) (by simp)).trans ((axSend_frame _ _ _ _).mono (by simp) (by simp))

theorem axRelimit_axis (d : Dev) (a t : Nat) : ∃ recent, (d.axRelimit a t).axis a = { (d.axPlace a (d.axis a).t16 t).axis a with recent := recent } := by
  rw [axRelimit_eq]
  dsimp only
  split
  · exact ⟨_, rfl⟩
  · exact ⟨_, ((axSend_frame _ _ _ _).axis (by simp) a).trans (Dev.axis_modAxis_same _ _ _)⟩

/-- The registers that a placement of axis `a` can reach. -/
def satFields (a : Nat) : List Fld := placedFields a ++ [AXIS_STATUS_FAULT a, AXIS_STATUS_FAULT_CAUSE a]

theorem axRelimit_frame (d : Dev) (a t : Nat) : Dev.Frame [.axes, .msgs, .quads, .xev] (satFields a) d (d.axRelimit a t) :=
  ((axPlace_frame _ _ _ _).mono (by simp) (fun _ => id)).trans ((axRelimit_told _ _ _).mono (by simp) (by simp))

theorem axRelimit_limited {d : Dev} {a : Nat} (hen : d.flag (AXIS_CFG_LIM_EN a) = true) (t : Nat) :
    (d.axRelimit a t).Limited a (d.axLimitLo a) (d.axLimitHi a) (d.axis a).t16 := by
  obtain ⟨recent, haxis⟩ := axRelimit_axis d a t
  have htold := axRelimit_told d a t
  have hplaced := axPlace_limited hen (v := (d.axis a).t16) t
  rw [Dev.Limited] at hplaced ⊢
  rw [axPos_of_frame htold (by simp) (by simp), haxis, htold.get _ (by simp), htold.get _ (by simp)]
  exact hplaced

/-- Without limits T stands as it is. -/
theorem axRelimit_free {d : Dev} {a : Nat} (h : d.flag (AXIS_CFG_LIM_EN a) = false) (hlo : -(2 ^ 63) ≤ (d.axis a).t16) (hhi : (d.axis a).t16 < 2 ^ 63) (t : Nat) :
    (d.axRelimit a t).axPos a = (d.axis a).t16 ∧ ((d.axRelimit a t).axis a).excess = 0 ∧ ((d.axRelimit a t).axis a).t16 = (d.axis a).t16 := by
  obtain ⟨recent, haxis⟩ := axRelimit_axis d a t
  have hfit : sgn 64 (uns 64 (d.axis a).t16) = (d.axis a).t16 := sgn_uns (by decide) hlo hhi
  rw [axPos_of_frame (axRelimit_told d a t) (by simp) (by simp), axPlace_free_pos h, haxis, axPlace_free_axis h]
  exact ⟨hfit, rfl, hfit⟩

/-! ## A write of POS (R90) -/

theorem posWrite_eq (d : Dev) (a : Nat) (v : Word) : d.posWrite a v.toNat =
    d.axJump a (d.tick + 1) (sgn 64 (v.toNat + 2 ^ 32 * (Tab.get 0 d.heldHi (AXIS_POS_HI a)).toNat) - (d.axis a).t16) := by
  rw [Dev.posWrite, Nat.mod_eq_of_lt v.isLt]

/-! ## A write of a limit (R82) -/

/-- R82: the limit that a write of its LO half loads. -/
def Dev.limitLoad (d : Dev) (hi : Nat) (v : Word) : Nat := v.toNat + 2 ^ 32 * ((Tab.get 0 d.heldHi hi).toNat % 65536)

theorem limitLoad_lt (d : Dev) (hi : Nat) (v : Word) : d.limitLoad hi v < 2 ^ 48 := by
  have h1 := v.isLt
  have h2 := Nat.mod_lt (Tab.get 0 d.heldHi hi).toNat (show 0 < 65536 by decide)
  unfold Dev.limitLoad
  omega

/-- R82: a limit as it is loaded: refused where LIMIT_LO would exceed LIMIT_HI, else applied at once while LIM_EN is 1. -/
def Dev.limitSet (d : Dev) (a lo hi n : Nat) (bad : Bool) : Dev :=
  if d.flag (AXIS_CFG_LIM_EN a) && bad then d.raise (AXIS_STATUS_LIM_ERR a)
  else if d.flag (AXIS_CFG_LIM_EN a) then (d.setPair lo hi n).axRelimit a (d.tick + 1) else d.setPair lo hi n

theorem limitWrite_lo (d : Dev) (a : Nat) (v : Word) : d.limitWrite a false v.toNat =
    d.limitSet a (AXIS_LIMIT_LO_LO a) (AXIS_LIMIT_LO_HI a) (d.limitLoad (AXIS_LIMIT_LO_HI a) v)
      (decide (d.axLimitHi a < sgn 48 (d.limitLoad (AXIS_LIMIT_LO_HI a) v))) := by
  unfold Dev.limitWrite
  rw [Nat.mod_eq_of_lt v.isLt]
  rfl

theorem limitWrite_hi (d : Dev) (a : Nat) (v : Word) : d.limitWrite a true v.toNat =
    d.limitSet a (AXIS_LIMIT_HI_LO a) (AXIS_LIMIT_HI_HI a) (d.limitLoad (AXIS_LIMIT_HI_HI a) v)
      (decide (sgn 48 (d.limitLoad (AXIS_LIMIT_HI_HI a) v) < d.axLimitLo a)) := by
  unfold Dev.limitWrite
  rw [Nat.mod_eq_of_lt v.isLt]
  rfl

section
variable {d : Dev} {a lo hi n : Nat} {bad : Bool}

theorem limitSet_bad (hen : d.flag (AXIS_CFG_LIM_EN a) = true) (hb : bad = true) : d.limitSet a lo hi n bad = d.raise (AXIS_STATUS_LIM_ERR a) :=
  if_pos (by rw [hen, hb]; rfl)

theorem limitSet_good (hen : d.flag (AXIS_CFG_LIM_EN a) = true) (hb : bad = false) :
    d.limitSet a lo hi n bad = (d.setPair lo hi n).axRelimit a (d.tick + 1) :=
  (if_neg (by simp [hb])).trans (if_pos hen)

theorem limitSet_off (hen : d.flag (AXIS_CFG_LIM_EN a) = false) : d.limitSet a lo hi n bad = d.setPair lo hi n :=
  (if_neg (by simp [hen])).trans (if_neg (by simp [hen]))

end

end Sys2Proof.Machine
end

section
/-! PROOF. A write of a limit of an axis (R82): what is loaded, and what the limits then leave of T. -/

namespace Sys2Proof.Machine

theorem sat_apart {a k lo w : Nat} (h : k ∉ [0x404, 0x410, 0x414, 0x418]) : ∀ f ∈ satFields a, f.apart ⟨axisReg a k, lo, w⟩ := by
  intro f hf
  rcases List.mem_append.1 hf with hf | hf
  · exact placed_apart (.inl h) f hf
  · exact fault_apart a (.inl (by rintro rfl; exact h (by decide))) f hf

section
variable {d e : Dev} {a : Nat} {ps : List Part} {fs : List Fld} (hf : Dev.Frame ps fs d e)
include hf

theorem axLimitLo_of_frame (h : ∀ k ∈ [0x420, 0x424], ∀ f ∈ fs, f.apart (whole (axisReg a k))) : e.axLimitLo a = d.axLimitLo a := by
  rw [Dev.axLimitLo, Dev.axLimitLo, hf.pair (AXIS_LIMIT_LO_LO a) (AXIS_LIMIT_LO_HI a) (h 0x420 (by decide)) (h 0x424 (by decide))]

theorem axLimitHi_of_frame (h : ∀ k ∈ [0x428, 0x42C], ∀ f ∈ fs, f.apart (whole (axisReg a k))) : e.axLimitHi a = d.axLimitHi a := by
  rw [Dev.axLimitHi, Dev.axLimitHi, hf.pair (AXIS_LIMIT_HI_LO a) (AXIS_LIMIT_HI_HI a) (h 0x428 (by decide)) (h 0x42C (by decide))]

end

/-! ## The pair of registers -/

section
variable (d : Dev) (a n : Nat)

theorem setPair_limit {lo hi : Nat} (h : lo ≠ hi) (hn : n < 2 ^ 48) : sgn 48 ((d.setPair lo hi n).pair lo hi) = sgn 48 n := by
  rw [Dev.pair_setPair _ _ h, Nat.mod_eq_of_lt (by omega)]

/-- The registers of one limit lie apart from every other of the axis. -/
theorem halves_apart {k l m lo w : Nat} (h1 : l ≠ k) (h2 : m ≠ k) : ∀ f ∈ [whole (axisReg a l), whole (axisReg a m)], f.apart ⟨axisReg a k, lo, w⟩ := by
  intro f hf
  simp only [List.mem_cons, List.not_mem_nil, or_false] at hf
  rcases hf with rfl | rfl
  · exact axis_apart (.inl h1)
  · exact axis_apart (.inl h2)

theorem setPair_halves (lo hi : Nat) : Dev.Frame [] [whole lo, whole hi] d (d.setPair lo hi n) := Dev.setPair_frame _ _ _ _ _ (by simp) (by simp)

theorem limitLo_loaded (hn : n < 2 ^ 48) :
    (d.setPair (AXIS_LIMIT_LO_LO a) (AXIS_LIMIT_LO_HI a) n).axLimitLo a = sgn 48 n ∧
    (d.setPair (AXIS_LIMIT_LO_LO a) (AXIS_LIMIT_LO_HI a) n).axLimitHi a = d.axLimitHi a := by
  refine ⟨setPair_limit d n (by unfold AXIS_LIMIT_LO_LO AXIS_LIMIT_LO_HI; omega) hn, axLimitHi_of_frame (setPair_halves d n _ _) fun k hk => ?_⟩
  simp only [List.mem_cons, List.not_mem_nil, or_false] at hk
  exact halves_apart a (l := 0x420) (m := 0x424) (by omega) (by omega)

theorem limitHi_loaded (hn : n < 2 ^ 48) :
    (d.setPair (AXIS_LIMIT_HI_LO a) (AXIS_LIMIT_HI_HI a) n).axLimitHi a = sgn 48 n ∧
    (d.setPair (AXIS_LIMIT_HI_LO a) (AXIS_LIMIT_HI_HI a) n).axLimitLo a = d.axLimitLo a := by
  refine ⟨setPair_limit d n (by unfold AXIS_LIMIT_HI_LO AXIS_LIMIT_HI_HI; omega) hn, axLimitLo_of_frame (setPair_halves d n _ _) fun k hk => ?_⟩
  simp only [List.mem_cons, List.not_mem_nil, or_false] at hk
  exact halves_apart a (l := 0x428) (m := 0x42C) (by omega) (by omega)

end

theorem axRelimit_limits (d : Dev) (a t : Nat) : (d.axRelimit a t).axLimitLo a = d.axLimitLo a ∧ (d.axRelimit a t).axLimitHi a = d.axLimitHi a := by
  refine ⟨axLimitLo_of_frame (axRelimit_frame d a t) fun k hk => sat_apart ?_, axLimitHi_of_frame (axRelimit_frame d a t) fun k hk => sat_apart ?_⟩
  all_goals
    simp only [List.mem_cons, List.not_mem_nil, or_false] at hk ⊢
    omega

/-- R82: a limit that is loaded while LIM_EN is 1 is applied to the present T. -/
theorem limitApplied {d e : Dev} {a : Nat} {halves : List Fld} {lo hi : Int} (hf : Dev.Frame [] halves d e) (hlo : e.axLimitLo a = lo) (hhi : e.axLimitHi a = hi)
    (hen : e.flag (AXIS_CFG_LIM_EN a) = true) (t : Nat) :
    (e.axRelimit a t).axLimitLo a = lo ∧ (e.axRelimit a t).axLimitHi a = hi ∧ (e.axRelimit a t).Limited a lo hi (d.axis a).t16 ∧
    Dev.Frame [.axes, .msgs, .quads, .xev] (halves ++ satFields a) d (e.axRelimit a t) := by
  obtain ⟨h1, h2⟩ := axRelimit_limits e a t
  have hlimited := axRelimit_limited hen t
  rw [hlo, hhi, hf.axis (by simp)] at hlimited
  exact ⟨h1.trans hlo, h2.trans hhi, hlimited, (hf.mono (by simp) (fun _ h => List.mem_append_left _ h)).trans
    ((axRelimit_frame e a t).mono (fun _ => id) (fun _ h => List.mem_append_right _ h))⟩

end Sys2Proof.Machine
end

section
/-! PROOF. A write of CFG of an axis (R62, R64, R82, R91). -/

namespace Sys2Proof.Machine

/-! ## The levels that the filters hold are accepted first -/

theorem filterAccept_place (d : Dev) (a p : Nat) :
    ((d.filterAccept a p).axis a).t16 = (d.axis a).t16 ∧ ((d.filterAccept a p).axis a).excess = (d.axis a).excess := by
  by_cases h : ((d.axis a).input p).pend = true ∧ ((d.axis a).input p).lost = false ∧ d.filterTick a p ≤ d.tick ∧ ((d.axis a).input p).rawTick < d.tick ∧
      d.tb.running = true
  · obtain ⟨hp, hl, ht, hraw, hr⟩ := h
    obtain ⟨changes, dec, tPrev, learning, periods, serPrev, serSeq, haxis, -⟩ := filterAccept_axis hp hl ht hraw hr
    rw [haxis, Dev.filterTaken, Dev.modIn_axis, Axis.modIn]
    exact ⟨rfl, rfl⟩
  · rw [show d.filterAccept a p = d from if_pos fun ⟨hp, hl, ht, hraw, hr⟩ => h ⟨hp, by simpa using hl, ht, hraw, hr⟩]
    exact ⟨rfl, rfl⟩

theorem filterAccept_others (d : Dev) {a m : Nat} (p : Nat) (hm : m ≠ a) : (d.filterAccept a p).axis m = d.axis m := by
  by_cases h : ((d.axis a).input p).pend = true ∧ ((d.axis a).input p).lost = false ∧ d.filterTick a p ≤ d.tick ∧ ((d.axis a).input p).rawTick < d.tick ∧
      d.tb.running = true
  · obtain ⟨hp, hl, ht, hraw, hr⟩ := h
    exact filterAccept_axis_ne hp hl ht hraw hr hm
  · rw [show d.filterAccept a p = d from if_pos fun ⟨hp, hl, ht, hraw, hr⟩ => h ⟨hp, by simpa using hl, ht, hraw, hr⟩]

/-- R64: the three filters of axis `a` have accepted what has held for FILT. -/
def Dev.filtersTaken (d : Dev) (a : Nat) : Dev := ((d.filterAccept a 0).filterAccept a 1).filterAccept a 2

theorem filtersTaken_frame (d : Dev) (a : Nat) : Dev.Frame [.axes] [] d (d.filtersTaken a) :=
  ((filterAccept_frame _ _ _).trans (filterAccept_frame _ _ _)).trans (filterAccept_frame _ _ _)

theorem filtersTaken_place (d : Dev) (a : Nat) : ((d.filtersTaken a).axis a).t16 = (d.axis a).t16 ∧ ((d.filtersTaken a).axis a).excess = (d.axis a).excess := by
  obtain ⟨h1, h2⟩ := filterAccept_place ((d.filterAccept a 0).filterAccept a 1) a 2
  obtain ⟨h3, h4⟩ := filterAccept_place (d.filterAccept a 0) a 1
  obtain ⟨h5, h6⟩ := filterAccept_place d a 0
  exact ⟨h1.trans (h3.trans h5), h2.trans (h4.trans h6)⟩

theorem filtersTaken_others (d : Dev) {a m : Nat} (hm : m ≠ a) : (d.filtersTaken a).axis m = d.axis m := by
  rw [Dev.filtersTaken, filterAccept_others _ _ hm, filterAccept_others _ _ hm, filterAccept_others _ _ hm]

theorem filtersTaken_calm {d : Dev} {a : Nat}
    (h : ∀ p < 3, ((d.axis a).input p).pend = false ∨ d.tick < ((d.axis a).input p).rawTick + d.get (AXIS_CFG_FILT a)) : d.filtersTaken a = d := by
  rw [Dev.filtersTaken, filterAccept_early (h 0 (by decide)), filterAccept_early (h 1 (by decide)), filterAccept_early (h 2 (by decide))]

/-! ## The pairs that the new CFG uses -/

/-- An axis with nothing changed but what its inputs are used for, and since when FILT holds. -/
def Axis.reused (x y : Axis) : Prop :=
  ∃ inA inB inZ from_, y = { x with inA := inA, inB := inB, inZ := inZ, filtFrom := from_ } ∧ inA.acc = x.inA.acc ∧ inB.acc = x.inB.acc

theorem Axis.reused.trans {x y z : Axis} (h1 : x.reused y) (h2 : y.reused z) : x.reused z := by
  obtain ⟨a1, b1, z1, f1, rfl, ha1, hb1⟩ := h1
  obtain ⟨a2, b2, z2, f2, rfl, ha2, hb2⟩ := h2
  exact ⟨a2, b2, z2, f2, rfl, ha2.trans ha1, hb2.trans hb1⟩

theorem Axis.reused.refl (x : Axis) : x.reused x := ⟨_, _, _, _, rfl, rfl, rfl⟩

/-- R63: a pair that is not in use is not lost. -/
theorem axUse_step (d : Dev) (a p : Nat) (c : Bool) :
    (d.axis a).reused ((if c then d else d.modIn a p (fun i => { i with lost := false, ref := false })).axis a) := by
  split
  · exact .refl _
  · rw [Dev.modIn_axis]
    exact ⟨_, _, _, _, rfl, by dsimp only; split <;> rfl, by dsimp only; split <;> rfl⟩

theorem axUse_axis (d : Dev) (a : Nat) : (d.axis a).reused ((d.axUse a).axis a) :=
  ((axUse_step _ _ _ _).trans (axUse_step _ _ _ _)).trans (axUse_step _ _ _ _)

theorem axUse_frame (d : Dev) (a : Nat) : Dev.Frame [.axes] [] d (d.axUse a) :=
  Dev.foldl_frame _ _ _ _ (fun _ _ _ => .ite (fun _ => .refl _ _ _) (fun _ => Dev.modIn_frame _ _ _ _)) d

theorem axUse_others (d : Dev) {a m : Nat} (hm : m ≠ a) : (d.axUse a).axis m = d.axis m := by
  have hstep (e : Dev) (p : Nat) (c : Bool) : (if c then e else e.modIn a p (fun i => { i with lost := false, ref := false })).axis m = e.axis m := by
    split
    · rfl
    · exact Dev.modIn_axis_ne _ _ _ hm
  exact (hstep _ _ _).trans ((hstep _ _ _).trans (hstep _ _ _))

end Sys2Proof.Machine
end

section
/-! PROOF. A write of CFG of an axis: its stages, and what each leaves (R62, R82). -/

namespace Sys2Proof.Machine

/-! ## The bits of CFG -/

theorem flag_bit (d : Dev) (o i : Nat) : d.flag ⟨o, i, 1⟩ = bitAt (d.word o).toNat i := by
  have h := Nat.mod_two_eq_zero_or_one ((d.word o).toNat >>> i)
  unfold Dev.flag Dev.get bitAt bits
  rcases h with h | h <;> simp [h]

/-- MULT and INVERT stand beside each other. -/
theorem bits_mult_invert (m n : Nat) : bits m 8 3 = bits n 8 3 ↔ bits m 8 2 = bits n 8 2 ∧ bitAt m 10 = bitAt n 10 := by
  have hbit (k : Nat) : bitAt k 10 = decide (k / 1024 % 2 = 1) := by rw [bitAt, Nat.shiftRight_eq_div_pow]; rfl
  rw [hbit, hbit, decide_eq_decide]
  simp only [bits, Nat.shiftRight_eq_div_pow]
  omega

/-! ## A change of MODE, MULT or INVERT -/

/-- R62: the decoder's state as the filters hold A and B. -/
def Dev.decHeld (d : Dev) (a : Nat) : Nat := setBitAt (setBitAt 0 (d.decBit a 0) (d.axis a).inA.acc) (d.decBit a 1) (d.axis a).inB.acc

/-- R62: an axis whose mode has changed. -/
def Axis.remoded (x : Axis) (dec : Nat) : Axis :=
  { x.relearn with
    hist := [], run := 0, vel := 0, moved := false, serPrev := none, serSeq := none, serOk := false, serBad := 0, frameStart := none, stopped := false,
    holdDone := true, changes := [], dec := dec }

theorem axMode_axis (d : Dev) (a : Nat) : ∃ recent, (d.axMode a).axis a = { (d.axis a).remoded (d.decHeld a) with recent := recent } := by
  refine ⟨((d.axMode a).axis a).recent, ?_⟩
  unfold Dev.axMode
  rw [(axSend_frame _ _ _ _).axis (by simp), Dev.axRemember, Dev.axis_modAxis_same, Dev.decLoad, Dev.axis_modAxis_same, Dev.axis_modAxis_same]
  rfl

theorem axMode_frame (d : Dev) (a : Nat) : Dev.Frame [.axes, .msgs] [] d (d.axMode a) :=
  (((Dev.modAxis_frame _ _ _ _ (by simp)).trans (Dev.modAxis_frame _ _ _ _ (by simp))).trans ((axRemember_frame _ _ _ _).mono (by simp) (by simp))).trans
    ((axSend_frame _ _ _ _).mono (by simp) (by simp))

theorem axMode_others (d : Dev) {a m : Nat} (hm : m ≠ a) : (d.axMode a).axis m = d.axis m := by
  unfold Dev.axMode
  rw [(axSend_frame _ _ _ _).axis (by simp), Dev.axRemember, Dev.axis_modAxis_ne _ _ hm, Dev.decLoad, Dev.axis_modAxis_ne _ _ hm, Dev.axis_modAxis_ne _ _ hm]

/-- The bits of the decoder's state as A and B stand, exchanged by INVERT. -/
theorem decHeld_bits (d : Dev) (a : Nat) : bitAt (d.decHeld a) (if d.flag (AXIS_CFG_INVERT a) then 1 else 0) = (d.axis a).inA.acc ∧
    bitAt (d.decHeld a) (if d.flag (AXIS_CFG_INVERT a) then 0 else 1) = (d.axis a).inB.acc := by
  unfold Dev.decHeld Dev.decBit
  cases d.flag (AXIS_CFG_INVERT a) with
  | true => exact ⟨by rw [bitAt_setBitAt, bitAt_setBitAt]; rfl, by rw [bitAt_setBitAt]; rfl⟩
  | false => exact ⟨by rw [bitAt_setBitAt, bitAt_setBitAt]; rfl, by rw [bitAt_setBitAt]; rfl⟩

/-! ## The stages of the write -/

/-- R62, R64: CFG holds `v` and its uses of the pairs and FILT are in force; `old` is what it held. -/
def Dev.cfgStored (d : Dev) (a old v : Nat) : Dev :=
  let e := (d.setWord (AXIS_CFG a) (BitVec.ofNat 32 v)).axUse a
  if bits old 24 8 = bits v 24 8 then e else e.modAxis a (fun x => { x with filtFrom := e.tick + 1 })

/-- R62: MODE, MULT or INVERT changes. -/
def cfgChanges (old v : Nat) : Bool := bits old 0 3 != bits v 0 3 || bits old 8 3 != bits v 8 3

/-- R62: CFG holds `v`, and the mode has changed where it does. -/
def Dev.cfgMoved (d : Dev) (a old v : Nat) : Dev := if cfgChanges old v then (d.cfgStored a old v).axMode a else d.cfgStored a old v

/-- R82: a write of `v` would set LIM_EN where LIMIT_LO exceeds LIMIT_HI. -/
def Dev.cfgBad (d : Dev) (a old v : Nat) : Bool := bitAt v 11 && !bitAt old 11 && decide (d.axLimitHi a < d.axLimitLo a)

theorem axCfg_good (d : Dev) (a v : Nat) (h : (d.filtersTaken a).cfgBad a ((d.filtersTaken a).word (AXIS_CFG a)).toNat v = false) : d.axCfg a v =
    let e := d.filtersTaken a
    let old := (e.word (AXIS_CFG a)).toNat
    let f := e.cfgMoved a old v
    if bitAt old 11 = bitAt v 11 then f else f.axRelimit a (f.tick + 1) := by
  unfold Dev.cfgBad Dev.filtersTaken at h
  unfold Dev.axCfg
  dsimp only
  rw [h]
  rfl

theorem axCfg_bad (d : Dev) (a v : Nat) (h : (d.filtersTaken a).cfgBad a ((d.filtersTaken a).word (AXIS_CFG a)).toNat v = true) : d.axCfg a v =
    let e := d.filtersTaken a
    let old := (e.word (AXIS_CFG a)).toNat
    let f := (e.raise (AXIS_STATUS_LIM_ERR a)).cfgMoved a old (setBitAt v 11 false)
    if bitAt old 11 = bitAt (setBitAt v 11 false) 11 then f else f.axRelimit a (f.tick + 1) := by
  unfold Dev.cfgBad Dev.filtersTaken at h
  unfold Dev.axCfg
  dsimp only
  rw [h]
  rfl

section
variable (d : Dev) (a old v : Nat)

theorem cfgStored_told : Dev.Frame [.axes] [] (d.setWord (AXIS_CFG a) (BitVec.ofNat 32 v)) (d.cfgStored a old v) :=
  (axUse_frame _ _).trans (.ite (fun _ => .refl _ _ _) (fun _ => Dev.modAxis_frame _ _ _ _ (by simp)))

theorem cfgStored_axis : (d.axis a).reused ((d.cfgStored a old v).axis a) := by
  have huse := axUse_axis (d.setWord (AXIS_CFG a) (BitVec.ofNat 32 v)) a
  unfold Dev.cfgStored
  dsimp only
  split
  · exact huse
  · rw [Dev.axis_modAxis_same]
    exact huse.trans ⟨_, _, _, _, rfl, rfl, rfl⟩

theorem cfgStored_others {m : Nat} (hm : m ≠ a) : (d.cfgStored a old v).axis m = d.axis m := by
  have huse := axUse_others (d.setWord (AXIS_CFG a) (BitVec.ofNat 32 v)) hm
  unfold Dev.cfgStored
  dsimp only
  split
  · exact huse
  · rw [Dev.axis_modAxis_ne _ _ hm]
    exact huse

theorem cfgMoved_told : Dev.Frame [.axes, .msgs] [] (d.setWord (AXIS_CFG a) (BitVec.ofNat 32 v)) (d.cfgMoved a old v) :=
  ((cfgStored_told d a old v).mono (by simp) (by simp)).trans (.then_ite (.refl _ _ _) (axMode_frame _ _))

theorem cfgMoved_frame : Dev.Frame [.axes, .msgs] [whole (AXIS_CFG a)] d (d.cfgMoved a old v) :=
  (Dev.setWord_frame _ _ _ _ (by simp)).trans ((cfgMoved_told d a old v).mono (by simp) (by simp))

theorem cfgMoved_word : (d.cfgMoved a old v).word (AXIS_CFG a) = BitVec.ofNat 32 v := by
  rw [(cfgMoved_told d a old v).word _ (by simp), Dev.word_setWord_same]

theorem cfgMoved_others {m : Nat} (hm : m ≠ a) : (d.cfgMoved a old v).axis m = d.axis m := by
  unfold Dev.cfgMoved
  split
  · rw [axMode_others _ hm, cfgStored_others _ _ _ _ hm]
  · exact cfgStored_others _ _ _ _ hm

theorem cfgMoved_place : ((d.cfgMoved a old v).axis a).t16 = (d.axis a).t16 ∧ ((d.cfgMoved a old v).axis a).excess = (d.axis a).excess := by
  obtain ⟨inA, inB, inZ, from_, hstored, -, -⟩ := cfgStored_axis d a old v
  unfold Dev.cfgMoved
  split
  · obtain ⟨recent, hmode⟩ := axMode_axis (d.cfgStored a old v) a
    rw [hmode, hstored]
    exact ⟨rfl, rfl⟩
  · rw [hstored]
    exact ⟨rfl, rfl⟩

end

end Sys2Proof.Machine
end

section
/-! PROOF. Writes of CFG, POS and the limits of an axis (O28). -/

namespace Sys2Proof.Machine

/-! ## What a write of CFG comes to -/

section
variable {d : Dev} {a : Nat} {v : Word}

theorem filtersTaken_word (d : Dev) (a o : Nat) : (d.filtersTaken a).word o = d.word o := (filtersTaken_frame d a).word o (by simp)

theorem filtersTaken_cfgBad (old n : Nat) : (d.filtersTaken a).cfgBad a old n = d.cfgBad a old n := by
  rw [Dev.cfgBad, Dev.cfgBad, axLimitLo_of_frame (filtersTaken_frame d a) (by simp), axLimitHi_of_frame (filtersTaken_frame d a) (by simp)]

/-- R62: the device once CFG holds `v`, before the limits are applied. -/
def Dev.cfgWritten (d : Dev) (a : Nat) (v : Word) : Dev := (d.filtersTaken a).cfgMoved a (d.word (AXIS_CFG a)).toNat v.toNat

theorem axCfg_keeps (h : bitAt v.toNat 11 = d.flag (AXIS_CFG_LIM_EN a)) : d.axCfg a v.toNat = d.cfgWritten a v := by
  have hold : bitAt (d.word (AXIS_CFG a)).toNat 11 = bitAt v.toNat 11 := by rw [h, AXIS_CFG_LIM_EN, flag_bit]
  have hbad : d.cfgBad a (d.word (AXIS_CFG a)).toNat v.toNat = false := by
    rw [Dev.cfgBad, hold]
    cases bitAt v.toNat 11 <;> rfl
  rw [axCfg_good _ _ _ (by rw [filtersTaken_word, filtersTaken_cfgBad, hbad])]
  dsimp only
  rw [filtersTaken_word]
  exact if_pos hold

theorem axCfg_relimits (h : bitAt v.toNat 11 ≠ d.flag (AXIS_CFG_LIM_EN a)) (hgood : bitAt v.toNat 11 = true → d.axLimitLo a ≤ d.axLimitHi a) :
    d.axCfg a v.toNat = (d.cfgWritten a v).axRelimit a ((d.cfgWritten a v).tick + 1) := by
  have hold : bitAt (d.word (AXIS_CFG a)).toNat 11 ≠ bitAt v.toNat 11 := by
    rw [AXIS_CFG_LIM_EN, flag_bit] at h
    exact fun e => h e.symm
  have hbad : d.cfgBad a (d.word (AXIS_CFG a)).toNat v.toNat = false := by
    rw [Dev.cfgBad]
    cases hv : bitAt v.toNat 11 with
    | true => rw [decide_eq_false (not_lt.2 (hgood hv)), Bool.and_false]
    | false => rfl
  rw [axCfg_good _ _ _ (by rw [filtersTaken_word, filtersTaken_cfgBad, hbad])]
  dsimp only
  rw [filtersTaken_word]
  exact if_neg hold

theorem axCfg_refuses (h1 : bitAt v.toNat 11 = true) (h0 : d.flag (AXIS_CFG_LIM_EN a) = false) (hlt : d.axLimitHi a < d.axLimitLo a) :
    d.axCfg a v.toNat = ((d.filtersTaken a).raise (AXIS_STATUS_LIM_ERR a)).cfgMoved a (d.word (AXIS_CFG a)).toNat (setBitAt v.toNat 11 false) := by
  have hold : bitAt (d.word (AXIS_CFG a)).toNat 11 = false := by rw [← flag_bit]; exact h0
  have hbad : d.cfgBad a (d.word (AXIS_CFG a)).toNat v.toNat = true := by rw [Dev.cfgBad, h1, hold, decide_eq_true hlt]; rfl
  rw [axCfg_bad _ _ _ (by rw [filtersTaken_word, filtersTaken_cfgBad, hbad])]
  dsimp only
  rw [filtersTaken_word]
  exact if_pos (by rw [hold, bitAt_setBitAt, if_pos rfl])

theorem cfgWritten_frame (d : Dev) (a : Nat) (v : Word) : Dev.Frame [.axes, .msgs] [whole (AXIS_CFG a)] d (d.cfgWritten a v) :=
  ((filtersTaken_frame d a).mono (by simp) (by simp)).trans (cfgMoved_frame _ _ _ _)

theorem cfgWritten_word (d : Dev) (a : Nat) (v : Word) : (d.cfgWritten a v).word (AXIS_CFG a) = v := by
  rw [Dev.cfgWritten, cfgMoved_word, BitVec.ofNat_toNat, BitVec.setWidth_eq]

theorem cfgWritten_place (d : Dev) (a : Nat) (v : Word) :
    ((d.cfgWritten a v).axis a).t16 = (d.axis a).t16 ∧ ((d.cfgWritten a v).axis a).excess = (d.axis a).excess := by
  obtain ⟨h1, h2⟩ := cfgMoved_place (d.filtersTaken a) a (d.word (AXIS_CFG a)).toNat v.toNat
  obtain ⟨h3, h4⟩ := filtersTaken_place d a
  exact ⟨h1.trans h3, h2.trans h4⟩

theorem cfgWritten_others (d : Dev) {a m : Nat} (v : Word) (hm : m ≠ a) : (d.cfgWritten a v).axis m = d.axis m :=
  (cfgMoved_others _ _ _ _ hm).trans (filtersTaken_others _ hm)

theorem cfgWritten_limit (d : Dev) (a : Nat) (v : Word) : (d.cfgWritten a v).flag (AXIS_CFG_LIM_EN a) = bitAt v.toNat 11 := by
  rw [AXIS_CFG_LIM_EN, flag_bit, cfgWritten_word]

theorem cfgWritten_limits (d : Dev) (a : Nat) (v : Word) :
    (d.cfgWritten a v).axLimitLo a = d.axLimitLo a ∧ (d.cfgWritten a v).axLimitHi a = d.axLimitHi a := by
  have hcfg {k : Nat} (hk : k ≠ 0x400) : ∀ f ∈ [whole (AXIS_CFG a)], f.apart (whole (axisReg a k)) := fun f hf => by
    rw [List.mem_singleton.1 hf]
    exact axis_apart (k := 0x400) (.inl (Ne.symm hk))
  refine ⟨axLimitLo_of_frame (cfgWritten_frame d a v) fun k hk => hcfg ?_, axLimitHi_of_frame (cfgWritten_frame d a v) fun k hk => hcfg ?_⟩
  all_goals
    simp only [List.mem_cons, List.not_mem_nil, or_false] at hk
    omega

/-- R62: the mode changes as the statement's fields say. -/
theorem cfgChanges_iff : cfgChanges (d.word (AXIS_CFG a)).toNat v.toNat = true ↔ bits v.toNat 0 3 ≠ d.get (AXIS_CFG_MODE a) ∨
    bits v.toNat 8 2 ≠ d.get (AXIS_CFG_MULT a) ∨ bitAt v.toNat 10 ≠ d.flag (AXIS_CFG_INVERT a) := by
  rw [AXIS_CFG_INVERT, flag_bit, cfgChanges, Bool.or_eq_true, bne_iff_ne, bne_iff_ne, Ne, Ne, bits_mult_invert, not_and_or, eq_comm,
    eq_comm (a := bits _ 8 2), eq_comm (a := bitAt _ 10)]
  rfl

section
variable (hcalm : ∀ p < 3, ((d.axis a).input p).pend = false ∨ d.tick < ((d.axis a).input p).rawTick + d.get (AXIS_CFG_FILT a))
include hcalm

theorem cfgWritten_same (h : cfgChanges (d.word (AXIS_CFG a)).toNat v.toNat = false) :
    (d.axis a).reused ((d.cfgWritten a v).axis a) ∧ (d.cfgWritten a v).msgs = d.msgs := by
  rw [Dev.cfgWritten, filtersTaken_calm hcalm, Dev.cfgMoved, if_neg (by simp [h])]
  exact ⟨cfgStored_axis _ _ _ _, (cfgStored_told _ _ _ _).part .msgs (by simp)⟩

theorem cfgWritten_changed (h : cfgChanges (d.word (AXIS_CFG a)).toNat v.toNat = true) : ∃ x : Axis, ∃ dec recent,
    (d.cfgWritten a v).axis a = { x.remoded dec with recent := recent } ∧ bitAt dec (if bitAt v.toNat 10 then 1 else 0) = (d.axis a).inA.acc ∧
    bitAt dec (if bitAt v.toNat 10 then 0 else 1) = (d.axis a).inB.acc := by
  obtain ⟨inA, inB, inZ, from_, hstored, hA, hB⟩ := cfgStored_axis d a (d.word (AXIS_CFG a)).toNat v.toNat
  obtain ⟨recent, hmode⟩ := axMode_axis (d.cfgStored a (d.word (AXIS_CFG a)).toNat v.toNat) a
  have hinvert : (d.cfgStored a (d.word (AXIS_CFG a)).toNat v.toNat).flag (AXIS_CFG_INVERT a) = bitAt v.toNat 10 := by
    rw [AXIS_CFG_INVERT, flag_bit, (cfgStored_told _ _ _ _).word _ (by simp), Dev.word_setWord_same, BitVec.ofNat_toNat, BitVec.setWidth_eq]
  obtain ⟨hdecA, hdecB⟩ := decHeld_bits (d.cfgStored a (d.word (AXIS_CFG a)).toNat v.toNat) a
  rw [hinvert, hstored] at hdecA hdecB
  rw [Dev.cfgWritten, filtersTaken_calm hcalm, Dev.cfgMoved, if_pos h]
  exact ⟨_, _, _, hmode, hdecA.trans hA, hdecB.trans hB⟩

end

theorem cfgRefused_shows (d : Dev) (a : Nat) (v : Word) :
    let e := ((d.filtersTaken a).raise (AXIS_STATUS_LIM_ERR a)).cfgMoved a (d.word (AXIS_CFG a)).toNat (setBitAt v.toNat 11 false)
    e.get (AXIS_CFG_LIM_EN a) = 0 ∧ e.get (AXIS_CFG_MODE a) = bits v.toNat 0 3 ∧ e.get (AXIS_CFG_FILT a) = bits v.toNat 24 8 ∧
    e.get (AXIS_STATUS_LIM_ERR a) = 1 ∧ (e.axis a).t16 = (d.axis a).t16 ∧ (e.axis a).excess = (d.axis a).excess := by
  intro e
  have hlt : setBitAt v.toNat 11 false < 2 ^ 32 := putBits_lt _ _ _ _ (by decide) v.isLt
  have hget (lo w : Nat) : e.get ⟨AXIS_CFG a, lo, w⟩ = bits (setBitAt v.toNat 11 false) lo w := by
    rw [Dev.get, cfgMoved_word, BitVec.toNat_ofNat, Nat.mod_eq_of_lt hlt]
  obtain ⟨h1, h2⟩ := cfgMoved_place ((d.filtersTaken a).raise (AXIS_STATUS_LIM_ERR a)) a (d.word (AXIS_CFG a)).toNat (setBitAt v.toNat 11 false)
  obtain ⟨h3, h4⟩ := filtersTaken_place d a
  have hap : ∀ f ∈ [whole (AXIS_CFG a)], f.apart (AXIS_STATUS_LIM_ERR a) := fun f hf => by
    rw [List.mem_singleton.1 hf]
    exact axis_apart (k := 0x400) (l := 0x404) (.inl (by decide))
  refine ⟨(hget 11 1).trans (bits_putBits_same _ _ _ _), (hget 0 3).trans (bits_putBits_below _ _ _ _ _ _ (by decide)),
    (hget 24 8).trans (bits_putBits_above _ _ _ _ _ _ (by decide)), ?_, h1.trans h3, h2.trans h4⟩
  rw [(cfgMoved_frame _ _ _ _).get _ hap, get_raise _ _ rfl (fit rfl)]

end

/-! ## What a write of a limit comes to -/

theorem limitSet_result {d : Dev} {a lo hi n : Nat} {bad : Bool} {loN hiN : Int} (hlo : (d.setPair lo hi n).axLimitLo a = loN)
    (hhi : (d.setPair lo hi n).axLimitHi a = hiN) (hap : ∀ f ∈ [whole lo, whole hi], f.apart (AXIS_CFG_LIM_EN a)) (hbad : bad = decide (hiN < loN)) :
    let e := d.limitSet a lo hi n bad
    (d.flag (AXIS_CFG_LIM_EN a) = true → hiN < loN → e.get (AXIS_STATUS_LIM_ERR a) = 1 ∧ Dev.Frame [] [AXIS_STATUS_LIM_ERR a] d e) ∧
    (d.flag (AXIS_CFG_LIM_EN a) = true → loN ≤ hiN → e.axLimitLo a = loN ∧ e.axLimitHi a = hiN ∧ e.Limited a loN hiN (d.axis a).t16 ∧
      Dev.Frame [.axes, .msgs, .quads, .xev] ([whole lo, whole hi] ++ satFields a) d e) ∧
    (d.flag (AXIS_CFG_LIM_EN a) = false → e.axLimitLo a = loN ∧ e.axLimitHi a = hiN ∧ Dev.Frame [] [whole lo, whole hi] d e) := by
  have hhalves := setPair_halves d n lo hi
  refine ⟨fun hen hlt => ?_, fun hen hle => ?_, fun hen => ?_⟩
  · rw [limitSet_bad hen (by rw [hbad, decide_eq_true hlt])]
    exact ⟨get_raise _ _ rfl (fit rfl), Dev.raise_frame _ _ _ (fit rfl) (by simp)⟩
  · rw [limitSet_good hen (by rw [hbad, decide_eq_false (not_lt.2 hle)])]
    exact limitApplied hhalves hlo hhi (by rw [hhalves.flag _ hap, hen]) _
  · rw [limitSet_off hen]
    exact ⟨hlo, hhi, hhalves⟩

/-- A write of a limit by the command `i`, as it lands. -/
theorem limitSet_lands {s u : State} {i : Instr} {a lo hi n : Nat} {bad : Bool} {loN hiN : Int} (hexec : exec i s = .next u) (hwaits : Frame [.late] [] s u)
    (hland : u.landed.dev = s.dev.limitSet a lo hi n bad) (hlo : (s.dev.setPair lo hi n).axLimitLo a = loN) (hhi : (s.dev.setPair lo hi n).axLimitHi a = hiN)
    (hap : ∀ f ∈ [whole lo, whole hi], f.apart (AXIS_CFG_LIM_EN a)) (hbad : bad = decide (hiN < loN)) (hsame : u.landed = { s with dev := u.landed.dev }) :
    (s.dev.flag (AXIS_CFG_LIM_EN a) = true → hiN < loN → ∃ u t, exec i s = .next u ∧ lands s u t ∧
      t.dev.get (AXIS_STATUS_LIM_ERR a) = 1 ∧ Frame [] [AXIS_STATUS_LIM_ERR a] s t) ∧
    (s.dev.flag (AXIS_CFG_LIM_EN a) = true → loN ≤ hiN → ∃ u t, exec i s = .next u ∧ lands s u t ∧
      t.dev.axLimitLo a = loN ∧ t.dev.axLimitHi a = hiN ∧ t.dev.Limited a loN hiN (s.dev.axis a).t16 ∧
      Frame [.axes, .msgs, .quads, .xev] ([whole lo, whole hi] ++ satFields a) s t) ∧
    (s.dev.flag (AXIS_CFG_LIM_EN a) = false → ∃ u t, exec i s = .next u ∧ lands s u t ∧
      t.dev.axLimitLo a = loN ∧ t.dev.axLimitHi a = hiN ∧ Frame [] [whole lo, whole hi] s t) := by
  obtain ⟨hrefused, hloaded, hoff⟩ := limitSet_result hlo hhi hap hbad
  rw [← hland] at hrefused hloaded hoff
  refine ⟨fun hen hlt => ?_, fun hen hle => ?_, fun hen => ?_⟩
  · obtain ⟨herr, hframe⟩ := hrefused hen hlt
    exact ⟨u, u.landed, hexec, ⟨hwaits, rfl⟩, herr, hsame ▸ hframe.lift⟩
  · obtain ⟨h1, h2, hlimited, hframe⟩ := hloaded hen hle
    exact ⟨u, u.landed, hexec, ⟨hwaits, rfl⟩, h1, h2, hlimited, hsame ▸ hframe.lift⟩
  · obtain ⟨h1, h2, hframe⟩ := hoff hen
    exact ⟨u, u.landed, hexec, ⟨hwaits, rfl⟩, h1, h2, hsame ▸ hframe.lift⟩

/-! ## The theorem -/

theorem cfg_allowed {v : Word} (h1 : bits v.toNat 0 3 ≤ 4) (h2 : bits v.toNat 8 2 ≠ 3) :
    badValue ⟨0x0, 0x0, 0xFFFF0F07, 0x0, 0x0, 0x0, [(8, 2, 3), (0, 3, 5)]⟩ v.toNat = false := by
  have hlt : bits v.toNat 8 2 < 4 := Nat.mod_lt _ (by decide)
  simp only [badValue, List.any_cons, List.any_nil, Bool.or_false, Bool.or_eq_false_iff, decide_eq_false_iff_not]
  omega

/-- Settles O28: a write of CFG by whether it keeps, sets, clears or is refused LIM_EN; POS by the jump; a limit by what is loaded and then applied. -/
theorem axisSettingsAndLimits : Obligations.AxisSettingsAndLimits := by
  unfold Obligations.AxisSettingsAndLimits
  intro s w a x lo hi c limited calm sat
  refine ⟨fun v ht hmask hmode hmult => ?_, fun v ht hen => ?_, fun up v ht => ?_⟩
  · obtain ⟨hwaits, hland⟩ := lands_AXIS_CFG a v (writerOf_rank w) ht hmask (cfg_allowed hmode hmult)
    have hdo {e : Dev} (he : s.dev.axCfg a v.toNat = e) : exec (.axisCfgWrite w a v) s =
        .next { s with dev := s.dev.awaiting (writerOf w) (AXIS_CFG a) v } ∧
        lands s { s with dev := s.dev.awaiting (writerOf w) (AXIS_CFG a) v } { s with dev := e } :=
      ⟨onDev_of hwaits, (Dev.late_frame _ _ _ (by simp)).lift, by rw [State.landed, hland, he]⟩
    have hword := cfgWritten_word s.dev a v
    have hframe := cfgWritten_frame s.dev a v
    obtain ⟨ht16, hexcess⟩ := cfgWritten_place s.dev a v
    obtain ⟨hlo, hhi⟩ := cfgWritten_limits s.dev a v
    have hrelimit (t : Nat) : Dev.Frame [.axes, .msgs, .quads, .xev] (whole (AXIS_CFG a) :: sat) s.dev ((s.dev.cfgWritten a v).axRelimit a t) :=
      (hframe.mono (by simp) (by simp)).trans ((axRelimit_frame _ _ _).mono (fun _ => id) (fun _ h => List.mem_cons_of_mem _ h))
    have hcfg (t : Nat) : ((s.dev.cfgWritten a v).axRelimit a t).word (AXIS_CFG a) = v :=
      ((axRelimit_frame _ _ _).word (AXIS_CFG a) (sat_apart (k := 0x400) (by decide))).trans hword
    refine ⟨fun h => ?_, fun h1 h0 hlt => ?_, fun h1 h0 hle => ?_, fun h0 h1 hmin hmax => ?_⟩
    · obtain ⟨hexec, hlands⟩ := hdo (axCfg_keeps h)
      refine ⟨_, _, hexec, hlands, hword, ht16, hexcess, fun hcalm e1 e2 e3 => ?_, fun hcalm hch => ?_, fun m hm => cfgWritten_others _ _ hm, hframe.lift⟩
      · have hsame : cfgChanges (s.dev.word (AXIS_CFG a)).toNat v.toNat = false := by
          rw [← Bool.not_eq_true, cfgChanges_iff]
          exact fun h => h.elim (fun h => h e1) (fun h => h.elim (fun h => h e2) (fun h => h e3))
        obtain ⟨⟨inA, inB, inZ, from_, haxis, -, -⟩, hmsgs⟩ := cfgWritten_same hcalm hsame
        dsimp only
        rw [haxis]
        exact ⟨rfl, rfl, rfl, rfl, hmsgs⟩
      · obtain ⟨y, dec, recent, haxis, hA, hB⟩ := cfgWritten_changed hcalm (cfgChanges_iff.2 hch)
        dsimp only
        rw [haxis]
        exact ⟨rfl, rfl, rfl, rfl, rfl, rfl, rfl, hA, hB⟩
    · obtain ⟨hexec, hlands⟩ := hdo (axCfg_refuses h1 h0 hlt)
      exact ⟨_, _, hexec, hlands, cfgRefused_shows s.dev a v⟩
    · obtain ⟨hexec, hlands⟩ := hdo (axCfg_relimits (by rw [h1, h0]; decide) (fun _ => hle))
      have hlimited := axRelimit_limited (d := s.dev.cfgWritten a v) (a := a) (by rw [cfgWritten_limit, h1]) ((s.dev.cfgWritten a v).tick + 1)
      rw [hlo, hhi, ht16] at hlimited
      exact ⟨_, _, hexec, hlands, hcfg _, hlimited, (hrelimit _).lift⟩
    · obtain ⟨hexec, hlands⟩ := hdo (axCfg_relimits (by rw [h1, h0]; decide) (fun h => absurd (h0.symm.trans h) (by decide)))
      obtain ⟨hpos, hzero, hkeep⟩ := axRelimit_free (d := s.dev.cfgWritten a v) (a := a) (by rw [cfgWritten_limit, h0])
        (by rw [ht16]; exact hmin) (by rw [ht16]; exact hmax)
        ((s.dev.cfgWritten a v).tick + 1)
      rw [ht16] at hpos hkeep
      exact ⟨_, _, hexec, hlands, hcfg _, hpos, hzero, hkeep, (hrelimit _).lift⟩
  · obtain ⟨hwaits, hland⟩ := lands_AXIS_POS_LO a v (writerOf_rank w) ht
    have hnew (n : Nat) : sgn 64 (uns 64 (x.t16 + (sgn 64 n - x.t16))) = sgn 64 n := by rw [add_sub_cancel, sgn_uns_sgn (by decide)]
    refine ⟨_, _, onDev_of hwaits, ⟨(Dev.late_frame _ _ _ (by simp)).lift, rfl⟩, ?_⟩
    rw [State.landed, hland, posWrite_eq]
    dsimp only
    obtain ⟨recent, haxis⟩ := axJump_axis hen (s.dev.tick + 1) (sgn 64 (v.toNat + 2 ^ 32 * (Tab.get 0 s.dev.heldHi (AXIS_POS_HI a)).toNat) - x.t16)
    rw [axJump_pos hen, haxis]
    exact ⟨hnew _, hnew _, rfl, rfl, rfl, rfl, rfl, (axJump_frame hen _ _).lift⟩
  · cases up with
    | false =>
      obtain ⟨hwaits, hland⟩ := lands_AXIS_LIMIT_LO_LO a v (writerOf_rank w) ht
      obtain ⟨hlo, hhi⟩ := limitLo_loaded s.dev a _ (limitLoad_lt s.dev (AXIS_LIMIT_LO_HI a) v)
      exact limitSet_lands (onDev_of hwaits) (Dev.late_frame _ _ _ (by simp)).lift (hland.trans (limitWrite_lo _ _ _)) hlo hhi
        (halves_apart a (k := 0x400) (l := 0x420) (m := 0x424) (by decide) (by decide)) rfl rfl
    | true =>
      obtain ⟨hwaits, hland⟩ := lands_AXIS_LIMIT_HI_LO a v (writerOf_rank w) ht
      obtain ⟨hhi, hlo⟩ := limitHi_loaded s.dev a _ (limitLoad_lt s.dev (AXIS_LIMIT_HI_HI a) v)
      exact limitSet_lands (onDev_of hwaits) (Dev.late_frame _ _ _ (by simp)).lift (hland.trans (limitWrite_hi _ _ _)) hlo hhi
        (halves_apart a (k := 0x400) (l := 0x428) (m := 0x42C) (by decide) (by decide)) rfl rfl

end Sys2Proof.Machine
end

section
/-! PROOF. The numbers of a serial frame: Gray codes, bits, movements (R84 to R86, R88). -/

namespace Sys2Proof.Machine

/-! ## Gray codes (R84) -/

/-- The Gray code of `v`, shifted and added up, is `v` but for its bits from `k` on. -/
theorem gray_telescopes (v k : Nat) : (List.range k).foldl (fun acc i => acc ^^^ ((v ^^^ (v >>> 1)) >>> i)) 0 = v ^^^ (v >>> k) := by
  induction k with
  | zero => simp
  | succ k ih =>
    rw [List.range_succ, List.foldl_append, ih, List.foldl_cons, List.foldl_nil, Nat.shiftRight_xor_distrib, ← Nat.shiftRight_add, Nat.add_comm 1 k,
      Nat.xor_assoc, ← Nat.xor_assoc (v >>> k), Nat.xor_self, Nat.zero_xor]

theorem ofGray_gray {n v : Nat} (h : v < 2 ^ n) : ofGray n (v ^^^ (v >>> 1)) = v := by
  rw [ofGray, gray_telescopes, Nat.shiftRight_eq_div_pow, Nat.div_eq_of_lt h, Nat.xor_zero, Nat.mod_eq_of_lt h]

theorem ofGray_lt (n v : Nat) : ofGray n v < 2 ^ n := Nat.mod_lt _ (Nat.two_pow_pos n)

/-! ## Movements (R88) -/

theorem serDelta_range {w : Nat} (hw : 0 < w) (u v : Nat) : -(2 ^ (w - 1) : Int) ≤ serDelta w u v ∧ serDelta w u v < 2 ^ (w - 1) := sgn_range hw _

theorem serDelta_congr {w : Nat} (hw : 0 < w) (u v : Nat) : (serDelta w u v - ((v : Int) - u)) % (2 ^ w : Int) = 0 := by
  have h : serDelta w u v = Int.bmod ((v : Int) - u) (2 ^ w) := sgn_uns_eq_bmod hw _
  have hmod : Int.bmod ((v : Int) - u) (2 ^ w) % ((2 ^ w : Nat) : Int) = ((v : Int) - u) % ((2 ^ w : Nat) : Int) := Int.bmod_emod
  push_cast at hmod
  rw [h]
  exact Int.emod_eq_emod_iff_emod_sub_eq_zero.1 hmod

/-! ## Bits (R84, R85) -/

theorem bitsOf_length (w n : Nat) : (bitsOf w n).length = w := by rw [bitsOf, List.length_map, List.length_range]

theorem bitsOf_succ (w n : Nat) : bitsOf (w + 1) n = bitsOf w (n / 2) ++ [bitAt n 0] := by
  rw [bitsOf, bitsOf, List.range_succ, List.map_append]
  refine congrArg₂ _ (List.map_congr_left fun i hi => ?_) (by simp)
  rw [List.mem_range] at hi
  rw [bitAt_eq_testBit, bitAt_eq_testBit, ← Nat.testBit_succ]
  exact congrArg _ (by omega)

theorem ofBits_concat (l : List Bool) (b : Bool) : ofBits (l ++ [b]) = 2 * ofBits l + b2n b := by
  rw [ofBits, List.foldl_append]
  rfl

theorem ofBits_bitsOf (w n : Nat) : ofBits (bitsOf w n) = n % 2 ^ w := by
  induction w generalizing n with
  | zero => rw [Nat.pow_zero, Nat.mod_one]; rfl
  | succ w ih =>
    have hbit : b2n (bitAt n 0) = n % 2 := by
      rcases Nat.mod_two_eq_zero_or_one n with h | h <;> simp [bitAt, b2n, h]
    rw [bitsOf_succ, ofBits_concat, ih, hbit, Nat.pow_succ, Nat.mul_comm (2 ^ w) 2, Nat.mod_mul, Nat.add_comm]

/-- A field within a list of bits is read from where it stands. -/
theorem field_of_bits {g : Nat → Bool} {pre post : List Bool} {w x : Nat} (hx : x < 2 ^ w)
    (h : ∀ i < w, some (g (pre.length + i)) = (pre ++ (bitsOf w x ++ post))[pre.length + i]?) :
    ofBits ((List.range w).map (fun i => g (pre.length + i))) = x := by
  have hbits : (List.range w).map (fun i => g (pre.length + i)) = bitsOf w x := by
    refine List.ext_getElem (by rw [bitsOf_length, List.length_map, List.length_range]) fun i h1 h2 => ?_
    have hi : i < w := by rwa [bitsOf_length] at h2
    have hg := h i hi
    rw [List.getElem?_append_right (Nat.le_add_right _ _), Nat.add_sub_cancel_left, List.getElem?_append_left h2, List.getElem?_eq_getElem h2] at hg
    rw [List.getElem_map, List.getElem_range]
    exact Option.some.inj hg
  rw [hbits, ofBits_bitsOf, Nat.mod_eq_of_lt hx]

/-! ## The data line (R84, R87) -/

/-- The level of a line after the changes `l`, from the level `b`. -/
def lineLevel (b : Bool) (l : List (Nat × Bool)) (t : Nat) : Bool := l.foldl (fun b c => if c.1 ≤ t then c.2 else b) b

theorem dataLevel_eq (f : SerialFrame) (t : Nat) : dataLevel f t = lineLevel f.first f.changes t := rfl

theorem lineLevel_cons (b : Bool) (c : Nat × Bool) (l : List (Nat × Bool)) (t : Nat) : lineLevel b (c :: l) t = lineLevel (if c.1 ≤ t then c.2 else b) l t := rfl

theorem lineLevel_later {l : List (Nat × Bool)} {t : Nat} (h : ∀ e ∈ l, t < e.1) (b : Bool) : lineLevel b l t = b := by
  induction l generalizing b with
  | nil => rfl
  | cons c l ih =>
    rw [lineLevel_cons, if_neg (Nat.not_le.2 (h c (by simp))), ih (fun e he => h e (List.mem_cons_of_mem _ he))]

/-- In order of time, the line has the level of a change on the tick of the change. -/
theorem lineLevel_change {l : List (Nat × Bool)} {c : Nat × Bool} (hl : l.Pairwise (fun c e => c.1 < e.1)) (hc : c ∈ l) (b : Bool) :
    lineLevel b l c.1 = c.2 := by
  obtain ⟨as, bs, rfl⟩ := List.append_of_mem hc
  have hlater := (List.pairwise_cons.1 (List.pairwise_append.1 hl).2.1).1
  rw [lineLevel, List.foldl_append]
  exact (lineLevel_cons _ _ _ _).trans ((lineLevel_later hlater _).trans (if_pos (Nat.le_refl _)))

/-- A line that is high on tick `k` was high on tick `t` before, or rose between. -/
theorem lineLevel_rises {l : List (Nat × Bool)} {t k : Nat} (htk : t ≤ k) {b c : Bool} (h : lineLevel c l k = true) :
    lineLevel b l t = true ∨ (∃ e ∈ l, t < e.1 ∧ e.1 ≤ k ∧ e.2 = true) ∨ (c = true ∧ b = false) := by
  induction l generalizing b c with
  | nil =>
    cases b with
    | true => exact .inl rfl
    | false => exact .inr (.inr ⟨h, rfl⟩)
  | cons e l ih =>
    rw [lineLevel_cons] at h ⊢
    rcases ih (b := if e.1 ≤ t then e.2 else b) h with h1 | ⟨e', he', h1⟩ | ⟨h1, h2⟩
    · exact .inl h1
    · exact .inr (.inl ⟨e', List.mem_cons_of_mem _ he', h1⟩)
    · by_cases het : e.1 ≤ t
      · rw [if_pos (het.trans htk)] at h1
        rw [if_pos het, h1] at h2
        cases h2
      · by_cases hek : e.1 ≤ k
        · rw [if_pos hek] at h1
          exact .inr (.inl ⟨e, List.mem_cons_self, by omega, hek, h1⟩)
        · rw [if_neg hek] at h1
          rw [if_neg het] at h2
          exact .inr (.inr ⟨h1, h2⟩)

theorem dataLevel_rises {f : SerialFrame} {t k : Nat} (htk : t ≤ k) (h : dataLevel f k = true) :
    dataLevel f t = true ∨ ∃ e ∈ f.changes, t < e.1 ∧ e.1 ≤ k ∧ e.2 = true := by
  rcases lineLevel_rises htk (b := f.first) h with h | h | ⟨h1, h2⟩
  · exact .inl h
  · exact .inr h
  · rw [h1] at h2
    cases h2

/-- R87: the data line is high again on tick `h`, first after tick `t`, by tick `lim`. -/
def dataHigh (f : SerialFrame) (t lim h : Nat) : Prop := t ≤ h ∧ h ≤ lim ∧ dataLevel f h = true ∧ ∀ k, t ≤ k → k < h → dataLevel f k = false

theorem dataHigh_unique {f : SerialFrame} {t lim h k : Nat} (h1 : dataHigh f t lim h) (h2 : dataHigh f t lim k) : h = k := by
  obtain ⟨ht, -, hh, hbefore⟩ := h1
  obtain ⟨kt, -, hk, kbefore⟩ := h2
  rcases Nat.lt_trichotomy h k with hlt | rfl | hlt
  · rw [kbefore h ht hlt] at hh
    cases hh
  · rfl
  · rw [hbefore k kt hlt] at hk
    cases hk

/-- The first rise that is found is where the line is high again. -/
theorem dataHigh_found {f : SerialFrame} (hs : f.changes.Pairwise (fun c e => c.1 < e.1)) {t lim : Nat} (h0 : dataLevel f t = false) {c : Nat × Bool}
    (hc : f.changes.find? (fun c => decide (t < c.1) && decide (c.1 ≤ lim) && c.2) = some c) : dataHigh f t lim c.1 := by
  obtain ⟨hp, as, bs, hl, has⟩ := List.find?_eq_some_iff_append.1 hc
  simp only [Bool.and_eq_true, decide_eq_true_eq] at hp
  obtain ⟨⟨ht, hlim⟩, hlvl⟩ := hp
  have hmem : c ∈ f.changes := by rw [hl]; simp
  refine ⟨Nat.le_of_lt ht, hlim, (lineLevel_change hs hmem _).trans hlvl, fun k htk hk => ?_⟩
  by_contra hhigh
  rcases dataLevel_rises htk (Bool.not_eq_false _ ▸ hhigh) with h1 | ⟨e, he, hte, hek, hlv⟩
  · rw [h0] at h1
    cases h1
  · rw [hl] at he hs
    rcases List.mem_append.1 he with he | he
    · have hno := has e he
      simp [hte, hlv] at hno
      omega
    · rcases List.mem_cons.1 he with rfl | he
      · omega
      · have hlater := (List.pairwise_cons.1 (List.pairwise_append.1 hs).2.1).1 e he
        omega

theorem dataHigh_exists {f : SerialFrame} {t lim h : Nat} (h0 : dataLevel f t = false)
    (hh : dataHigh f t lim h) : ∃ c, f.changes.find? (fun c => decide (t < c.1) && decide (c.1 ≤ lim) && c.2) = some c := by
  obtain ⟨-, hlim, hlvl, -⟩ := id hh
  rcases dataLevel_rises hh.1 hlvl with h1 | ⟨e, he, hte, heh, hlv⟩
  · rw [h0] at h1
    cases h1
  · refine Option.isSome_iff_exists.1 (List.find?_isSome.2 ⟨e, he, ?_⟩)
    simp [hte, hlv]
    omega

theorem serHigh_eq (d : Dev) (a : Nat) (f : SerialFrame) : d.serHigh a f =
    if dataLevel f (d.serTicks a) then some (d.serTicks a)
    else (f.changes.find? (fun c => decide (d.serTicks a < c.1) &&
      decide (c.1 ≤ d.serTicks a + usTicks (clampN 1 1000 (d.get (AXIS_SERTIME_TIMEOUT a)))) && c.2)).map (fun c => c.1) := rfl

theorem serHigh_iff {d : Dev} {a : Nat} {f : SerialFrame} (hs : f.changes.Pairwise (fun c e => c.1 < e.1)) (h : Nat) : d.serHigh a f = some h ↔
    dataHigh f (d.serTicks a) (d.serTicks a + 800 * clampN 1 1000 (d.get (AXIS_SERTIME_TIMEOUT a))) h := by
  rw [serHigh_eq, usTicks, Nat.mul_comm _ 800]
  by_cases h0 : dataLevel f (d.serTicks a) = true
  · rw [if_pos h0]
    have hnow : dataHigh f (d.serTicks a) (d.serTicks a + 800 * clampN 1 1000 (d.get (AXIS_SERTIME_TIMEOUT a))) (d.serTicks a) :=
      ⟨Nat.le_refl _, Nat.le_add_right _ _, h0, fun k h1 h2 => absurd h1 (Nat.not_le.2 h2)⟩
    exact ⟨fun e => Option.some.inj e ▸ hnow, fun e => congrArg some (dataHigh_unique hnow e)⟩
  · rw [if_neg h0]
    have h0 := eq_false_of_ne_true h0
    constructor
    · intro e
      obtain ⟨c, hc, rfl⟩ := Option.map_eq_some_iff.1 e
      exact dataHigh_found hs h0 hc
    · intro e
      obtain ⟨c, hc⟩ := dataHigh_exists h0 e
      rw [hc]
      exact congrArg some (dataHigh_unique (dataHigh_found hs h0 hc) e)

end Sys2Proof.Machine
end

section
/-! PROOF. A serial frame starts, is discarded, or moves T (R83, R87 to R89). -/

namespace Sys2Proof.Machine

/-! ## A frame starts (R83) -/

/-- R83: a start trigger that START names has come. -/
def Dev.serDue (d : Dev) (a : Nat) (conv : Bool) : Bool :=
  if conv then d.get (AXIS_SERCFG_START a) == 2 && (Tab.get {} d.convs (4 * (a / 2) + d.get (AXIS_SERCFG_CONVSEL a))).high
  else d.get (AXIS_SERCFG_START a) == 1 && decide ((d.axis a).lastPeriodic + max 1 (d.get (AXIS_SERPER_PER a)) ≤ d.tick)

/-- R83: a periodic trigger is remembered. -/
def Dev.serTriggered (d : Dev) (a : Nat) (conv : Bool) : Dev := if conv then d else d.modAxis a (fun x => { x with lastPeriodic := d.tick })

section
variable {d : Dev} {a : Nat} {conv : Bool}

theorem serTriggered_axis (d : Dev) (a : Nat) (conv : Bool) :
    (d.serTriggered a conv).axis a = { d.axis a with lastPeriodic := if conv then (d.axis a).lastPeriodic else d.tick } := by
  cases conv with
  | true => rfl
  | false => exact Dev.axis_modAxis_same _ _ _

theorem serTriggered_frame (d : Dev) (a : Nat) (conv : Bool) : Dev.Frame [.axes] [] d (d.serTriggered a conv) :=
  .ite (fun _ => .refl _ _ _) (fun _ => Dev.modAxis_frame _ _ _ _ (by simp))

theorem serStart_idle (h : d.get (AXIS_CFG_MODE a) < 3) : d.serStart a conv = d := if_pos fun ⟨hm, _⟩ => by omega

/-- R83: a frame begins. -/
def Dev.serBegun (d : Dev) (a : Nat) : Dev := d.modAxis a (fun x => { x with frameStart := some d.tick, frameAt := d.stamp (a / 2) d.tick 0 })

/-- R83: a trigger is dropped. -/
def Dev.serDropped (d : Dev) (a : Nat) : Dev := (d.raise (AXIS_SERERR_OVERRUN a)).raise (AXIS_STATUS_SER_ERR a)

theorem serStart_due (hm : 3 ≤ d.get (AXIS_CFG_MODE a)) (hr : d.tb.running = true) (hq : d.quadDown (a / 2) = false) (hd : d.serDue a conv = true) :
    d.serStart a conv = if (d.axis a).frameStart ≠ none ∨ (d.serTriggered a conv).tick < (d.axis a).busyUntil then (d.serTriggered a conv).serDropped a
      else (d.serTriggered a conv).serBegun a := if_neg (not_not.2 ⟨hm, hd, hr, by simp [hq]⟩)

theorem serTriggered_tick : (d.serTriggered a conv).tick = d.tick := (serTriggered_frame d a conv).tick_eq (by simp)

theorem serTriggered_stamp (q t fine : Nat) : (d.serTriggered a conv).stamp q t fine = d.stamp q t fine := by cases conv <;> rfl

theorem serBegun_axis : ((d.serTriggered a conv).serBegun a).axis a = { d.axis a with
    frameStart := some d.tick, frameAt := d.stamp (a / 2) d.tick 0, lastPeriodic := if conv then (d.axis a).lastPeriodic else d.tick } := by
  rw [Dev.serBegun, Dev.axis_modAxis_same, serTriggered_axis, serTriggered_stamp, serTriggered_tick]

theorem serDropped_shows (d : Dev) (a : Nat) : (d.serDropped a).get (AXIS_SERERR_OVERRUN a) = 1 ∧ (d.serDropped a).get (AXIS_STATUS_SER_ERR a) = 1 := by
  have hap : (AXIS_STATUS_SER_ERR a).apart (AXIS_SERERR_OVERRUN a) := axis_apart (k := 0x404) (l := 0x454) (.inl (by decide))
  refine ⟨?_, get_raise _ _ rfl (fit rfl)⟩
  rw [Dev.serDropped, Dev.raise, Dev.get_put_ne _ _ (fit rfl) hap, get_raise _ _ rfl (fit rfl)]

theorem serDropped_frame (d : Dev) (a : Nat) : Dev.Frame [] [AXIS_SERERR_OVERRUN a, AXIS_STATUS_SER_ERR a] d (d.serDropped a) :=
  (Dev.raise_frame _ _ _ (fit rfl) (by simp)).trans (Dev.raise_frame _ _ _ (fit rfl) (by simp))

end

/-! ## A frame is discarded (R87) -/

/-- A check of R87 in SERERR. -/
def serCheckBit (a : Nat) (g : Fld) : Prop := ∃ lo, lo < 8 ∧ g = ⟨AXIS_SERERR a, lo, 1⟩

section
variable {d : Dev} {a : Nat} {g : Fld}

/-- R87: a discarded frame is counted and shown, before its event and its fault. -/
def Dev.serCounted (d : Dev) (a : Nat) (g : Fld) : Dev := ((d.raise g).raise (AXIS_STATUS_SER_ERR a)).incSat (AXIS_SERERR_BADCNT a)

/-- R87: a discarded frame, before its fault. -/
def Dev.serDiscarded (d : Dev) (a : Nat) (g : Fld) : Dev :=
  ((d.serCounted a g).modAxis a (fun x => { x with serBad := x.serBad + 1 })).axEvent a 7 (d.serCounted a g).tick

theorem serBadFrame_eq (d : Dev) (a : Nat) (g : Fld) : d.serBadFrame a g =
    let e := d.serDiscarded a g
    if e.get (AXIS_SERCFG_FAULTN a) ≠ 0 ∧ (e.axis a).serBad = e.get (AXIS_SERCFG_FAULTN a) then e.axFault a 4 e.tick else e := rfl

/-- The registers of a discarded frame. -/
def serFields (a : Nat) (g : Fld) : List Fld := [g, AXIS_STATUS_SER_ERR a, AXIS_SERERR_BADCNT a]

theorem serCounted_frame (hg : serCheckBit a g) : Dev.Frame [] (serFields a g) d (d.serCounted a g) := by
  obtain ⟨lo, hlo, rfl⟩ := hg
  exact ((Dev.raise_frame _ _ _ (by dsimp only; omega) (by simp [serFields])).trans (Dev.raise_frame _ _ _ (fit rfl) (by simp [serFields]))).trans
    (Dev.incSat_frame _ _ _ (fit rfl) (by simp [serFields]))

theorem serCounted_axis (hg : serCheckBit a g) (m : Nat) : (d.serCounted a g).axis m = d.axis m := (serCounted_frame hg).axis (by simp) m

theorem serCounted_shows (hg : serCheckBit a g) : (d.serCounted a g).get g = 1 ∧ (d.serCounted a g).get (AXIS_STATUS_SER_ERR a) = 1 ∧
    (d.serCounted a g).get (AXIS_SERERR_BADCNT a) = min (d.get (AXIS_SERERR_BADCNT a) + 1) 65535 := by
  obtain ⟨lo, hlo, rfl⟩ := hg
  have hself : (AXIS_SERERR_BADCNT a).apart ⟨AXIS_SERERR a, lo, 1⟩ := axis_apart (k := 0x454) (l := 0x454) (.inr (.inr (by omega)))
  have hback : (⟨AXIS_SERERR a, lo, 1⟩ : Fld).apart (AXIS_SERERR_BADCNT a) := axis_apart (k := 0x454) (l := 0x454) (.inr (.inl (by omega)))
  have herr : (AXIS_STATUS_SER_ERR a).apart ⟨AXIS_SERERR a, lo, 1⟩ := axis_apart (k := 0x404) (l := 0x454) (.inl (by decide))
  have hcnt : (AXIS_STATUS_SER_ERR a).apart (AXIS_SERERR_BADCNT a) := axis_apart (k := 0x404) (l := 0x454) (.inl (by decide))
  have hst : (AXIS_SERERR_BADCNT a).apart (AXIS_STATUS_SER_ERR a) := axis_apart (k := 0x454) (l := 0x404) (.inl (by decide))
  refine ⟨?_, ?_, ?_⟩
  · rw [Dev.serCounted, Dev.incSat_eq, Dev.get_put_ne _ _ (fit rfl) hself, Dev.raise, Dev.get_put_ne _ _ (fit rfl) herr,
      get_raise _ _ rfl (by dsimp only; omega)]
  · rw [Dev.serCounted, Dev.incSat_eq, Dev.get_put_ne _ _ (fit rfl) hst, get_raise _ _ rfl (fit rfl)]
  · rw [Dev.serCounted, get_incSat _ (fit rfl), Dev.raise, Dev.get_put_ne _ _ (fit rfl) hcnt, Dev.raise, Dev.get_put_ne _ _ (by dsimp only; omega) hback]
    rfl

theorem serDiscarded_told (d : Dev) (a : Nat) (g : Fld) : Dev.Frame [.axes, .xev] [] (d.serCounted a g) (d.serDiscarded a g) :=
  (Dev.modAxis_frame _ _ _ _ (by simp)).trans ((axEvent_frame _ _ _ _).mono (by simp) (by simp))

theorem serDiscarded_axis (hg : serCheckBit a g) : (d.serDiscarded a g).axis a = { d.axis a with serBad := (d.axis a).serBad + 1 } := by
  rw [Dev.serDiscarded, (axEvent_frame _ _ _ _).axis (by simp), Dev.axis_modAxis_same, serCounted_axis hg]

theorem serDiscarded_faultn (hg : serCheckBit a g) : (d.serDiscarded a g).get (AXIS_SERCFG_FAULTN a) = d.get (AXIS_SERCFG_FAULTN a) := by
  rw [(serDiscarded_told _ _ _).get _ (by simp)]
  obtain ⟨lo, hlo, rfl⟩ := hg
  refine (serCounted_frame ⟨lo, hlo, rfl⟩).get (AXIS_SERCFG_FAULTN a) fun f hf => ?_
  simp only [serFields, List.mem_cons, List.not_mem_nil, or_false] at hf
  rcases hf with rfl | rfl | rfl
  · exact axis_apart (k := 0x454) (l := 0x440) (.inl (by decide))
  · exact axis_apart (k := 0x404) (l := 0x440) (.inl (by decide))
  · exact axis_apart (k := 0x454) (l := 0x440) (.inl (by decide))

theorem serBadFrame_told (d : Dev) (a : Nat) (g : Fld) :
    Dev.Frame [.quads, .xev] [AXIS_STATUS_FAULT a, AXIS_STATUS_FAULT_CAUSE a] (d.serDiscarded a g) (d.serBadFrame a g) := by
  rw [serBadFrame_eq]
  exact .then_ite (.refl _ _ _) (axFault_frame _ _ _ _)

theorem serBadFrame_axis (hg : serCheckBit a g) : (d.serBadFrame a g).axis a = { d.axis a with serBad := (d.axis a).serBad + 1 } := by
  rw [(serBadFrame_told d a g).axis (by simp), serDiscarded_axis hg]

theorem serBadFrame_frame (hg : serCheckBit a g) :
    Dev.Frame [.axes, .quads, .xev] (serFields a g ++ [AXIS_STATUS_FAULT a, AXIS_STATUS_FAULT_CAUSE a]) d (d.serBadFrame a g) :=
  (((serCounted_frame hg).mono (by simp) (fun _ h => List.mem_append_left _ h)).trans ((serDiscarded_told _ _ _).mono (by simp) (by simp))).trans
    ((serBadFrame_told d a g).mono (by simp) (fun _ h => List.mem_append_right _ h))

theorem serBadFrame_shows (hg : serCheckBit a g) : (d.serBadFrame a g).get g = 1 ∧ (d.serBadFrame a g).get (AXIS_STATUS_SER_ERR a) = 1 ∧
    (d.serBadFrame a g).get (AXIS_SERERR_BADCNT a) = min (d.get (AXIS_SERERR_BADCNT a) + 1) 65535 ∧
    (d.get (AXIS_SERCFG_FAULTN a) = (d.axis a).serBad + 1 → (d.serBadFrame a g).get (AXIS_STATUS_FAULT a) = 1) := by
  obtain ⟨h1, h2, h3⟩ := serCounted_shows (d := d) hg
  have htold := serBadFrame_told d a g
  have hkeep (f : Fld) (hf : ∀ e ∈ [AXIS_STATUS_FAULT a, AXIS_STATUS_FAULT_CAUSE a], e.apart f) : (d.serBadFrame a g).get f = (d.serCounted a g).get f := by
    rw [htold.get _ hf, (serDiscarded_told _ _ _).get _ (by simp)]
  refine ⟨?_, (hkeep _ (fault_apart a (k := 0x404) (.inr (by decide)))).trans h2,
    (hkeep _ (fault_apart a (k := 0x454) (.inl (by decide)))).trans h3, fun hn => ?_⟩
  · refine (hkeep g ?_).trans h1
    obtain ⟨lo, hlo, rfl⟩ := hg
    exact fault_apart a (k := 0x454) (.inl (by decide))
  · rw [serBadFrame_eq]
    dsimp only
    rw [serDiscarded_faultn hg, serDiscarded_axis hg, if_pos ⟨by omega, hn.symm⟩]
    exact axFault_flag _ _ _ _

end

end Sys2Proof.Machine
end

section
/-! PROOF. A good frame of a serial axis (R88, R89), and a frame as it is checked, from its end to its result. -/

namespace Sys2Proof.Machine

/-- SERRAW of axis `a`. -/
def rawFields (a : Nat) : List Fld := [whole (AXIS_SERRAW_LO a), whole (AXIS_SERRAW_HI a)]

theorem raw_apart {a k lo w : Nat} (h : k ∉ [0x458, 0x45C]) : ∀ f ∈ rawFields a, f.apart ⟨axisReg a k, lo, w⟩ := by
  simp only [List.mem_cons, List.not_mem_nil, or_false, not_or] at h
  exact halves_apart a (l := 0x458) (m := 0x45C) (Ne.symm h.1) (Ne.symm h.2)

/-! ## A good frame (R88, R89) -/

/-- R89: SERRAW shows the value `v`. -/
def Dev.serShown (d : Dev) (a v : Nat) : Dev := d.setPair (AXIS_SERRAW_LO a) (AXIS_SERRAW_HI a) v

/-- R88: `v` is the previous raw value from now on. -/
def Dev.serTaken (d : Dev) (a v : Nat) : Dev := (d.serShown a v).modAxis a (fun x => { x with serPrev := some v, serOk := true, serBad := 0 })

/-- R89: the stamp of a frame's latch. -/
def Dev.serStamp (d : Dev) (a : Nat) : Stamp :=
  { (d.axis a).frameAt with time := (d.axis a).frameAt.time + d.get (AXIS_SERDLY_SENSOR_LAT a) }

section
variable {d : Dev} {a w v : Nat}

theorem serShown_frame (d : Dev) (a v : Nat) : Dev.Frame [] (rawFields a) d (d.serShown a v) := setPair_halves _ _ _ _

theorem serShown_axis (d : Dev) (a v m : Nat) : (d.serShown a v).axis m = d.axis m := (serShown_frame d a v).axis (by simp) m

theorem serTaken_axis (d : Dev) (a v : Nat) : (d.serTaken a v).axis a = { d.axis a with serPrev := some v, serOk := true, serBad := 0 } := by
  rw [Dev.serTaken, Dev.axis_modAxis_same, serShown_axis]

theorem serTaken_frame (d : Dev) (a v : Nat) : Dev.Frame [.axes] (rawFields a) d (d.serTaken a v) :=
  ((serShown_frame _ _ _).mono (by simp) (fun _ => id)).trans (Dev.modAxis_frame _ _ _ _ (by simp))

theorem serShown_stamp (d : Dev) (a v : Nat) : (d.serShown a v).serStamp a = d.serStamp a := by
  rw [Dev.serStamp, Dev.serStamp, serShown_axis, (serShown_frame d a v).get (AXIS_SERDLY_SENSOR_LAT a) (raw_apart (k := 0x448) (by decide))]

theorem serGood_first (h : (d.axis a).serPrev = none) : d.serGood a w v =
    (d.serTaken a v).axLatch a d.tick (d.serStamp a) { mv := (if d.flag (AXIS_SERCFG_SIGNED a) then sgn w v else v) * 65536 - (d.axis a).t16 } := by
  have hsigned : (d.serShown a v).flag (AXIS_SERCFG_SIGNED a) = d.flag (AXIS_SERCFG_SIGNED a) :=
    (serShown_frame d a v).flag (AXIS_SERCFG_SIGNED a) (raw_apart (k := 0x440) (by decide))
  have hshown : ((d.serShown a v).axis a).serPrev = none := by rw [serShown_axis, h]
  unfold Dev.serGood
  rw [← Dev.serShown]
  dsimp only
  rw [hshown, hsigned, serShown_axis, ← Dev.serTaken]
  exact congrArg (fun st => Dev.axLatch _ _ _ st _) (serShown_stamp d a v)

theorem serGood_max : (d.serShown a v).get (AXIS_SERMAX_MAX a) = d.get (AXIS_SERMAX_MAX a) :=
  (serShown_frame d a v).get (AXIS_SERMAX_MAX a) (raw_apart (k := 0x450) (by decide))

section
variable {u : Nat} (h : (d.axis a).serPrev = some u)
include h

theorem serGood_jumps (h0 : d.get (AXIS_SERMAX_MAX a) ≠ 0) (hlt : d.get (AXIS_SERMAX_MAX a) < (serDelta w u v).natAbs) :
    d.serGood a w v = (d.serShown a v).serBadFrame a (AXIS_SERERR_JUMP a) := by
  have hshown : ((d.serShown a v).axis a).serPrev = some u := by rw [serShown_axis, h]
  unfold Dev.serGood
  rw [← Dev.serShown]
  dsimp only
  rw [hshown]
  exact if_pos (by rw [serGood_max]; exact ⟨h0, hlt⟩)

theorem serGood_moves (hle : d.get (AXIS_SERMAX_MAX a) = 0 ∨ (serDelta w u v).natAbs ≤ d.get (AXIS_SERMAX_MAX a)) :
    d.serGood a w v = (d.serTaken a v).axLatch a d.tick (d.serStamp a) { mv := serDelta w u v * 65536, inc := serDelta w u v } := by
  have hshown : ((d.serShown a v).axis a).serPrev = some u := by rw [serShown_axis, h]
  unfold Dev.serGood
  rw [← Dev.serShown]
  dsimp only
  rw [hshown]
  refine (if_neg (by rw [serGood_max]; omega)).trans ?_
  rw [← Dev.serTaken]
  exact congrArg (fun st => Dev.axLatch _ _ _ st _) (serShown_stamp d a v)

end

end

end Sys2Proof.Machine
end

section
/-! PROOF. A frame as it is checked: what a discarded one and a good one leave (R87 to R89). -/

namespace Sys2Proof.Machine

/-- R83: the tick before which no frame starts, once a frame has ended. -/
def Dev.serRests (d : Dev) (a : Nat) : Nat := d.tick + usTicks (clampN 1 1000 (d.get (AXIS_SERTIME_RECOVERY a)))

/-- R87: the frame has ended and is now checked. -/
def Dev.serEnded (d : Dev) (a : Nat) : Dev := d.modAxis a (fun x => { x with frameStart := none, busyUntil := d.serRests a })

/-- From `d` to `b` the frame of axis `a` has ended, and no more than the sequence number of the last one has changed. -/
def Dev.SerChecked (d b : Dev) (a : Nat) : Prop :=
  (∃ seq, b.axis a = { d.axis a with frameStart := none, busyUntil := d.serRests a, serSeq := seq }) ∧ Dev.Frame [.axes] [] d b

theorem serEnded_checked (d : Dev) (a : Nat) : d.SerChecked (d.serEnded a) a := ⟨⟨_, Dev.axis_modAxis_same _ _ _⟩, Dev.modAxis_frame _ _ _ _ (by simp)⟩

theorem serSeq_checked {d b : Dev} {a : Nat} (h : d.SerChecked b a) (seq : Nat) : d.SerChecked (b.modAxis a (fun x => { x with serSeq := some seq })) a := by
  obtain ⟨⟨q, haxis⟩, hframe⟩ := h
  exact ⟨⟨some seq, by rw [Dev.axis_modAxis_same, haxis]⟩, hframe.trans (Dev.modAxis_frame _ _ _ _ (by simp))⟩

/-- R87: from `d` to `f` a frame of axis `a` has been discarded by the check `g`. -/
structure Dev.SerDiscards (d f : Dev) (a : Nat) (g : Fld) : Prop where
  ended : (f.axis a).frameStart = none
  rests : (f.axis a).busyUntil = d.serRests a
  check : f.get g = 1
  err : f.get (AXIS_STATUS_SER_ERR a) = 1
  count : f.get (AXIS_SERERR_BADCNT a) = min (d.get (AXIS_SERERR_BADCNT a) + 1) 65535
  bad : (f.axis a).serBad = (d.axis a).serBad + 1
  t16 : (f.axis a).t16 = (d.axis a).t16
  latch : (f.axis a).latch = (d.axis a).latch
  fault : d.get (AXIS_SERCFG_FAULTN a) = (d.axis a).serBad + 1 → f.get (AXIS_STATUS_FAULT a) = 1
  frame : Dev.Frame [.axes, .quads, .xev] [g, AXIS_STATUS_SER_ERR a, AXIS_SERERR_BADCNT a, AXIS_STATUS_FAULT a, AXIS_STATUS_FAULT_CAUSE a,
    whole (AXIS_SERRAW_LO a), whole (AXIS_SERRAW_HI a)] d f

/-- A checked frame is discarded, whether SERRAW has shown it or not. -/
theorem serBadFrame_discards {d b c : Dev} {a : Nat} {g : Fld} (h : d.SerChecked b a) (hc : Dev.Frame [] (rawFields a) b c) (hg : serCheckBit a g) :
    d.SerDiscards (c.serBadFrame a g) a g := by
  obtain ⟨⟨q, hb⟩, hframe⟩ := h
  have haxis := (serBadFrame_axis (d := c) hg)
  rw [hc.axis (by simp), hb] at haxis
  obtain ⟨hcheck, herr, hcount, hfault⟩ := serBadFrame_shows (d := c) hg
  have hall : Dev.Frame [.axes] (rawFields a) d c := (hframe.mono (by simp) (by simp)).trans (hc.mono (by simp) (fun _ => id))
  rw [hall.get (AXIS_SERERR_BADCNT a) (raw_apart (k := 0x454) (by decide))] at hcount
  rw [hall.get (AXIS_SERCFG_FAULTN a) (raw_apart (k := 0x440) (by decide)), hc.axis (by simp), hb] at hfault
  exact {
    ended := by rw [haxis]
    rests := by rw [haxis]
    check := hcheck
    err := herr
    count := hcount
    bad := by rw [haxis]
    t16 := by rw [haxis]
    latch := by rw [haxis]
    fault := hfault
    frame := (hall.mono (by simp) (by simp [rawFields])).trans ((serBadFrame_frame hg).mono (by simp) (by simp [serFields])) }

/-- R88, R89: from `d` to `f` a good frame of value `v` has moved axis `a` to `mv`; the flags of `extra` are set. -/
structure Dev.SerMoves (d f : Dev) (a v : Nat) (extra : List Fld) (mv : Int) : Prop where
  ended : (f.axis a).frameStart = none
  rests : (f.axis a).busyUntil = d.serRests a
  raw : f.pair (AXIS_SERRAW_LO a) (AXIS_SERRAW_HI a) = v
  t16 : (f.axis a).t16 = sgn 64 (uns 64 mv)
  prev : (f.axis a).serPrev = some v
  ok : (f.axis a).serOk = true
  bad : (f.axis a).serBad = 0
  inc : (f.axis a).latch.inc = 0
  at_ : (f.axis a).latch.at_ = d.serStamp a
  last : (f.axis a).lastLatch = d.tick
  flags : ∀ g ∈ extra, f.get g = 1
  frame : Dev.Frame latchParts (latchFields a ++ extra ++ [whole (AXIS_SERRAW_LO a), whole (AXIS_SERRAW_HI a)]) d f

/-- A pair of registers of axis `a` that neither a latch nor its place writes. -/
theorem axLatch_pair {d : Dev} {a : Nat} (h : d.flag (AXIS_CFG_LIM_EN a) = false) (t : Nat) (st : Stamp) (e : Edge) {k l : Nat}
    (hk : 0x420 ≤ k ∧ k < 0x480) (hl : 0x420 ≤ l ∧ l < 0x480) :
    (d.axLatch a t st e).pair (axisReg a k) (axisReg a l) = d.pair (axisReg a k) (axisReg a l) := by
  have hword {m : Nat} (hm : 0x420 ≤ m ∧ m < 0x480) : (d.axLatch a t st e).get (whole (axisReg a m)) = d.get (whole (axisReg a m)) :=
    axLatch_get h t st e (by omega) (.inl (by simp only [List.mem_cons, List.not_mem_nil, or_false]; omega))
  rw [Dev.pair, Dev.pair, ← Dev.get_whole, ← Dev.get_whole, ← Dev.get_whole, ← Dev.get_whole, hword hk, hword hl]

section
variable {d b : Dev} {a v : Nat} (h : d.SerChecked b a) (hlim : d.flag (AXIS_CFG_LIM_EN a) = false) (hv : v < 2 ^ 64)
include h hlim hv

theorem serTaken_moves {e : Edge} (hshown : e.shown = 0) (hsnap : e.snap = none) :
    d.SerMoves ((b.serTaken a v).axLatch a b.tick (b.serStamp a) e) a v [] ((d.axis a).t16 + e.mv) := by
  obtain ⟨⟨q, hb⟩, hframe⟩ := h
  have htaken := serTaken_axis b a v
  have hraw := serTaken_frame b a v
  have hfree : (b.serTaken a v).flag (AXIS_CFG_LIM_EN a) = false := by
    rw [hraw.flag (AXIS_CFG_LIM_EN a) (raw_apart (k := 0x400) (by decide)), hframe.flag _ (by simp), hlim]
  obtain ⟨run, vel, dir, recent, -, haxis⟩ := axLatch_axis hfree b.tick (b.serStamp a) e
  rw [htaken, hb, hsnap] at haxis
  have hstamp : b.serStamp a = d.serStamp a := by rw [Dev.serStamp, Dev.serStamp, hb, hframe.get _ (by simp)]
  have hpair : (b.serTaken a v).pair (AXIS_SERRAW_LO a) (AXIS_SERRAW_HI a) = v :=
    (Dev.pair_setPair _ _ (by unfold AXIS_SERRAW_LO AXIS_SERRAW_HI; omega)).trans (Nat.mod_eq_of_lt hv)
  exact {
    ended := by rw [haxis]
    rests := by rw [haxis]
    raw := (axLatch_pair hfree b.tick (b.serStamp a) e (k := 0x458) (l := 0x45C) (by decide) (by decide)).trans hpair
    t16 := by rw [haxis]; exact congrArg (fun i => sgn 64 (uns 64 i)) (Int.add_zero _)
    prev := by rw [haxis]
    ok := by rw [haxis]
    bad := by rw [haxis]
    inc := by rw [haxis]; exact hshown
    at_ := by rw [haxis]; exact hstamp
    last := by rw [haxis]; exact hframe.tick_eq (by simp)
    flags := fun g hg => absurd hg (by simp)
    frame := ((hframe.mono (by simp [latchParts]) (by simp)).trans (hraw.mono (by simp [latchParts]) (by simp [rawFields]))).trans
      ((axLatch_latchFrame hfree _ _ _).mono (fun _ => id) (fun f hf => by simp only [List.mem_append]; exact .inl (.inl hf))) }

end

theorem Dev.SerMoves.warns {d f : Dev} {a v : Nat} {mv : Int} (h : d.SerMoves f a v [] mv) :
    d.SerMoves (f.raise (AXIS_SERERR_WARN a)) a v [AXIS_SERERR_WARN a] mv := by
  have hwarn : Dev.Frame [] [AXIS_SERERR_WARN a] f (f.raise (AXIS_SERERR_WARN a)) := Dev.raise_frame _ _ _ (fit rfl) (by simp)
  have haxis : (f.raise (AXIS_SERERR_WARN a)).axis a = f.axis a := hwarn.axis (by simp) a
  have hap {k : Nat} (hk : k ≠ 0x454) : ∀ g ∈ [AXIS_SERERR_WARN a], g.apart (whole (axisReg a k)) := fun g hg => by
    rw [List.mem_singleton.1 hg]
    exact axis_apart (k := 0x454) (.inl (Ne.symm hk))
  exact {
    ended := by rw [haxis, h.ended]
    rests := by rw [haxis, h.rests]
    raw := by rw [hwarn.pair (AXIS_SERRAW_LO a) (AXIS_SERRAW_HI a) (hap (k := 0x458) (by decide)) (hap (k := 0x45C) (by decide)), h.raw]
    t16 := by rw [haxis, h.t16]
    prev := by rw [haxis, h.prev]
    ok := by rw [haxis, h.ok]
    bad := by rw [haxis, h.bad]
    inc := by rw [haxis, h.inc]
    at_ := by rw [haxis, h.at_]
    last := by rw [haxis, h.last]
    flags := fun g hg => by rw [List.mem_singleton.1 hg]; exact get_raise _ _ rfl (fit rfl)
    frame := (h.frame.mono (fun _ => id) (fun f hf => by simp only [List.mem_append] at hf ⊢; tauto)).trans (Dev.raise_frame _ _ _ (fit rfl) (by simp)) }

end Sys2Proof.Machine
end

section
/-! PROOF. The checks of a serial frame in their order (R87). -/

namespace Sys2Proof.Machine

/-! ## The end of a frame -/

section
variable {d : Dev} {a b : Nat} {f : SerialFrame}

theorem serCheck_none (h : (d.axis a).frameStart = none) : d.serCheck a f = d := by
  unfold Dev.serCheck
  rw [h]

/-- R87: the tick after the frame's start on which it is checked. -/
def Dev.serSpan (d : Dev) (a : Nat) (f : SerialFrame) : Nat :=
  (d.serHigh a f).getD (d.serTicks a + usTicks (clampN 1 1000 (d.get (AXIS_SERTIME_TIMEOUT a))))

theorem serCheck_started (h : (d.axis a).frameStart = some b) : d.serCheck a f = if d.tick < b + d.serSpan a f then d
    else if d.get (AXIS_CFG_MODE a) = 3 then (d.serEnded a).ssiCheck a f else (d.serEnded a).spfCheck a f := by
  unfold Dev.serCheck Dev.serSpan
  rw [h]
  dsimp only
  cases d.serHigh a f with
  | none => rfl
  | some h => rfl

theorem serCheck_early (h : (d.axis a).frameStart = some b) (ht : d.tick < b + d.serSpan a f) : d.serCheck a f = d := (serCheck_started h).trans (if_pos ht)

theorem serCheck_ssi (h : (d.axis a).frameStart = some b) (ht : b + d.serSpan a f ≤ d.tick) (hm : d.get (AXIS_CFG_MODE a) = 3) :
    d.serCheck a f = (d.serEnded a).ssiCheck a f := (serCheck_started h).trans ((if_neg (Nat.not_lt.2 ht)).trans (if_pos hm))

theorem serCheck_spf (h : (d.axis a).frameStart = some b) (ht : b + d.serSpan a f ≤ d.tick) (hm : d.get (AXIS_CFG_MODE a) ≠ 3) :
    d.serCheck a f = (d.serEnded a).spfCheck a f := (serCheck_started h).trans ((if_neg (Nat.not_lt.2 ht)).trans (if_neg hm))

end

/-! ## SSI -/

section
variable {d : Dev} {a : Nat} {f : SerialFrame}

/-- R84: the width of an SSI frame. -/
def Dev.ssiWidth (d : Dev) (a : Nat) : Nat := clampN 8 48 (d.get (AXIS_SERCFG_NBITS a))

/-- R84: the value of an SSI frame. -/
def Dev.ssiValue (d : Dev) (a : Nat) (f : SerialFrame) : Nat := ofBits ((List.range (d.ssiWidth a)).map (fun i => d.serBit a f (i + 1)))

/-- R87: the error bit of an SSI frame shows an error. -/
def Dev.ssiError (d : Dev) (a : Nat) (e : Bool) : Prop :=
  (d.get (AXIS_SERCFG_ERRBIT a) = 1 ∧ e = true) ∨ (d.get (AXIS_SERCFG_ERRBIT a) = 2 ∧ ¬ e = true)

theorem ssiWidth_le (d : Dev) (a : Nat) : d.ssiWidth a ≤ 48 := by
  unfold Dev.ssiWidth clampN
  omega

theorem ssiCheck_line (h : dataLevel f 0 = false) : d.ssiCheck a f = d.serBadFrame a (AXIS_SERERR_LINE a) := if_pos (by rw [h]; rfl)

section
variable (h : dataLevel f 0 = true)
include h

theorem ssiCheck_timeout (hh : (d.serHigh a f).isNone = true) : d.ssiCheck a f = d.serBadFrame a (AXIS_SERERR_TIMEOUT a) :=
  (if_neg (by rw [h]; decide)).trans (if_pos hh)

variable (hh : (d.serHigh a f).isSome = true)
include hh

omit h in
theorem serHigh_some : ¬ (d.serHigh a f).isNone = true := by simp [Option.isSome_iff_ne_none.1 hh]

theorem ssiCheck_sensor (he : d.ssiError a (d.serBit a f (d.ssiWidth a + 1))) : d.ssiCheck a f = d.serBadFrame a (AXIS_SERERR_SENSOR a) :=
  (if_neg (by rw [h]; decide)).trans ((if_neg (serHigh_some hh)).trans (if_pos he))

theorem ssiCheck_good (he : ¬ d.ssiError a (d.serBit a f (d.ssiWidth a + 1))) : d.ssiCheck a f =
    d.serGood a (d.ssiWidth a) (if d.flag (AXIS_SERCFG_GRAY a) then ofGray (d.ssiWidth a) (d.ssiValue a f) else d.ssiValue a f) :=
  (if_neg (by rw [h]; decide)).trans ((if_neg (serHigh_some hh)).trans (if_neg he))

end

end

/-- R84: the bits of an SSI frame are its value, most significant first. -/
theorem ssiValue_of_bits {d : Dev} {a : Nat} {f : SerialFrame} {v : Nat} (hv : v < 2 ^ d.ssiWidth a)
    (h : ∀ i < d.ssiWidth a, d.serBit a f (i + 1) = bitAt v (d.ssiWidth a - 1 - i)) : d.ssiValue a f = v := by
  have hbits : (List.range (d.ssiWidth a)).map (fun i => d.serBit a f (i + 1)) = bitsOf (d.ssiWidth a) v :=
    List.map_congr_left fun i hi => h i (List.mem_range.1 hi)
  rw [Dev.ssiValue, hbits, ofBits_bitsOf, Nat.mod_eq_of_lt hv]

/-! ## SPF -/

section
variable {d : Dev} {a : Nat} {f : SerialFrame}

/-- R85: the field of `w` bits at bit `lo` of an SPF frame. -/
def Dev.spfField (d : Dev) (a : Nat) (f : SerialFrame) (lo w : Nat) : Nat :=
  ofBits ((List.range w).map (fun i => d.serBit a f (d.get (AXIS_SERCFG_SPFWAIT a) + 1 + lo + i)))

/-- R87: the frame's sequence number does not follow the last one. -/
def seqSkips (prev : Option Nat) (seq : Nat) : Bool :=
  match prev with
  | some p => seq != (p + 1) % 16
  | none => false

/-- R87: the value of a frame with a good sequence number, and its warning. -/
def Dev.spfTake (d : Dev) (a v stat : Nat) : Dev :=
  let n := (d.axis a).serBad
  let e := d.serGood a (spfLen (d.get (AXIS_SERCFG_SPFLEN a))) v
  if bitAt stat 6 ∧ (e.axis a).serBad ≠ n + 1 then e.raise (AXIS_SERERR_WARN a) else e

/-- R87: the check of the sequence number. -/
def Dev.spfSeq (d : Dev) (a hdr v stat : Nat) : Dev :=
  let e := d.modAxis a (fun x => { x with serSeq := some (hdr % 16) })
  if e.flag (AXIS_SERCFG_SEQCHK a) ∧ seqSkips (d.axis a).serSeq (hdr % 16) = true then e.serBadFrame a (AXIS_SERERR_SEQ a) else e.spfTake a v stat

/-- R87: the checks of a frame from its CRC on. -/
def Dev.spfContent (d : Dev) (a sum hdr v stat crc : Nat) : Dev :=
  if crc ≠ sum then d.serBadFrame a (AXIS_SERERR_CRC a)
  else if hdr / 64 ≠ d.get (AXIS_SERCFG_SPFLEN a) ∨ d.get (AXIS_SERCFG_SPFLEN a) = 3 then d.serBadFrame a (AXIS_SERERR_LEN a)
  else if bitAt stat 7 then d.serBadFrame a (AXIS_SERERR_SENSOR a)
  else d.spfSeq a hdr v stat

theorem spfCheck_eq (d : Dev) (a : Nat) (f : SerialFrame) : d.spfCheck a f =
    let l := spfLen (d.get (AXIS_SERCFG_SPFLEN a))
    let hdr := d.spfField a f 6 8
    let v := d.spfField a f 14 l
    let stat := d.spfField a f (14 + l) 8
    if dataLevel f 0 = false ∨ d.spfField a f 0 6 ≠ 0x2C then d.serBadFrame a (AXIS_SERERR_LINE a)
    else if (d.serHigh a f).isNone then d.serBadFrame a (AXIS_SERERR_TIMEOUT a)
    else d.spfContent a (crc16 ([hdr] ++ bytesOf (l / 8) v ++ [stat])) hdr v stat (d.spfField a f (22 + l) 16) := rfl

end

end Sys2Proof.Machine
end

section
/-! PROOF. Serial frames, their checks and the movement they bring (O29). -/

namespace Sys2Proof.Machine

/-! ## What a good frame comes to (R88) -/

/-- R88: from `d` to `f` a frame of width `w` and value `v` has passed every check but JUMP; the flags of `extra` are set where it passes that too. -/
def Dev.SerPasses (d f : Dev) (a w v : Nat) (extra : List Fld) : Prop :=
  ((d.axis a).serPrev = none → d.SerMoves f a v extra ((if d.flag (AXIS_SERCFG_SIGNED a) then sgn w v else v) * 65536)) ∧
  ∀ u, (d.axis a).serPrev = some u →
    (d.get (AXIS_SERMAX_MAX a) ≠ 0 → d.get (AXIS_SERMAX_MAX a) < (serDelta w u v).natAbs → d.SerDiscards f a (AXIS_SERERR_JUMP a)) ∧
    (d.get (AXIS_SERMAX_MAX a) = 0 ∨ (serDelta w u v).natAbs ≤ d.get (AXIS_SERMAX_MAX a) →
      d.SerMoves f a v extra ((d.axis a).t16 + serDelta w u v * 65536))

section
variable {d b : Dev} {a v : Nat} (h : d.SerChecked b a) (hlim : d.flag (AXIS_CFG_LIM_EN a) = false) (hv : v < 2 ^ 64)
include h hlim hv

theorem serGood_passes (w : Nat) : d.SerPasses (b.serGood a w v) a w v [] := by
  obtain ⟨⟨seq, hb⟩, hframe⟩ := id h
  have hprev : (b.axis a).serPrev = (d.axis a).serPrev := by rw [hb]
  have ht16 : (b.axis a).t16 = (d.axis a).t16 := by rw [hb]
  have hmax : b.get (AXIS_SERMAX_MAX a) = d.get (AXIS_SERMAX_MAX a) := hframe.get _ (by simp)
  refine ⟨fun hnone => ?_, fun u hu => ⟨fun h0 hlt => ?_, fun hle => ?_⟩⟩
  · have hmoves := serTaken_moves h hlim hv (e := { mv := (if d.flag (AXIS_SERCFG_SIGNED a) then sgn w v else v) * 65536 - (d.axis a).t16 }) rfl rfl
    rw [serGood_first (hprev.trans hnone), hframe.flag _ (by simp), ht16]
    rwa [add_sub_cancel] at hmoves
  · rw [serGood_jumps (hprev.trans hu) (by rw [hmax]; exact h0) (by rw [hmax]; exact hlt)]
    exact serBadFrame_discards h (serShown_frame b a v) ⟨6, by decide, rfl⟩
  · rw [serGood_moves (hprev.trans hu) (by rw [hmax]; exact hle)]
    exact serTaken_moves h hlim hv rfl rfl

/-- R87: the warning of a frame is shown where the frame moves T. -/
theorem spfTake_passes (stat : Nat) : d.SerPasses (b.spfTake a v stat) a (spfLen (d.get (AXIS_SERCFG_SPFLEN a))) v
    (if bitAt stat 6 then [AXIS_SERERR_WARN a] else []) := by
  obtain ⟨⟨seq, hb⟩, hframe⟩ := id h
  have hbad : (b.axis a).serBad = (d.axis a).serBad := by rw [hb]
  obtain ⟨hfirst, hlater⟩ := serGood_passes h hlim hv (spfLen (d.get (AXIS_SERCFG_SPFLEN a)))
  have htake : b.spfTake a v stat = if bitAt stat 6 ∧ ((b.serGood a (spfLen (d.get (AXIS_SERCFG_SPFLEN a))) v).axis a).serBad ≠ (d.axis a).serBad + 1
      then (b.serGood a (spfLen (d.get (AXIS_SERCFG_SPFLEN a))) v).raise (AXIS_SERERR_WARN a) else b.serGood a (spfLen (d.get (AXIS_SERCFG_SPFLEN a))) v := by
    rw [Dev.spfTake, hbad, hframe.get _ (by simp)]
  rw [htake]
  generalize b.serGood a (spfLen (d.get (AXIS_SERCFG_SPFLEN a))) v = e at hfirst hlater
  have hwarns {mv : Int} (hm : d.SerMoves e a v [] mv) : d.SerMoves (if bitAt stat 6 ∧ (e.axis a).serBad ≠ (d.axis a).serBad + 1
      then e.raise (AXIS_SERERR_WARN a) else e) a v (if bitAt stat 6 then [AXIS_SERERR_WARN a] else []) mv := by
    by_cases hw : bitAt stat 6 = true
    · rw [if_pos ⟨hw, by rw [hm.bad]; omega⟩, if_pos hw]
      exact hm.warns
    · rw [if_neg (fun c => hw c.1), if_neg hw]
      exact hm
  refine ⟨fun hnone => hwarns (hfirst hnone), fun u hu => ⟨fun h0 hlt => ?_, fun hle => hwarns ((hlater u hu).2 hle)⟩⟩
  have hjump := (hlater u hu).1 h0 hlt
  rw [if_neg (fun c => c.2 hjump.bad)]
  exact hjump

end

/-! ## The fields of an SPF frame (R85) -/

section
variable {d : Dev} {a n : Nat} {f : SerialFrame} {l : List Bool}
  (h : ∀ i < n, some (d.serBit a f (d.get (AXIS_SERCFG_SPFWAIT a) + 1 + i)) = l[i]?)
include h

theorem spfField_of_bits {pre post : List Bool} {w x lo : Nat} (hl : l = pre ++ (bitsOf w x ++ post)) (hlo : pre.length = lo) (hx : x < 2 ^ w)
    (hn : lo + w ≤ n) : d.spfField a f lo w = x := by
  subst hl hlo
  have hfield := field_of_bits (g := fun i => d.serBit a f (d.get (AXIS_SERCFG_SPFWAIT a) + 1 + i)) hx (fun i hi => h (pre.length + i) (by omega))
  rw [Dev.spfField, List.map_congr_left fun i _ => congrArg (d.serBit a f) (Nat.add_assoc _ _ _)]
  exact hfield

end

theorem spfFields {d : Dev} {a l : Nat} {f : SerialFrame} {sync hdr p st crc : Nat} (h1 : sync < 64) (h2 : hdr < 256) (h3 : p < 2 ^ l) (h4 : st < 256)
    (h5 : crc < 65536) (h : ∀ i < 38 + l, some (d.serBit a f (d.get (AXIS_SERCFG_SPFWAIT a) + 1 + i)) =
      (bitsOf 6 sync ++ bitsOf 8 hdr ++ bitsOf l p ++ bitsOf 8 st ++ bitsOf 16 crc)[i]?) :
    d.spfField a f 0 6 = sync ∧ d.spfField a f 6 8 = hdr ∧ d.spfField a f 14 l = p ∧ d.spfField a f (14 + l) 8 = st ∧ d.spfField a f (22 + l) 16 = crc := by
  refine ⟨spfField_of_bits h (pre := []) (post := bitsOf 8 hdr ++ (bitsOf l p ++ (bitsOf 8 st ++ bitsOf 16 crc))) ?_ rfl h1 (by omega),
    spfField_of_bits h (pre := bitsOf 6 sync) (post := bitsOf l p ++ (bitsOf 8 st ++ bitsOf 16 crc)) ?_ ?_ h2 (by omega),
    spfField_of_bits h (pre := bitsOf 6 sync ++ bitsOf 8 hdr) (post := bitsOf 8 st ++ bitsOf 16 crc) ?_ ?_ h3 (by omega),
    spfField_of_bits h (pre := bitsOf 6 sync ++ bitsOf 8 hdr ++ bitsOf l p) (post := bitsOf 16 crc) ?_ ?_ h4 (by omega),
    spfField_of_bits h (pre := bitsOf 6 sync ++ bitsOf 8 hdr ++ bitsOf l p ++ bitsOf 8 st) (post := []) ?_ ?_ h5 (by omega)⟩
  all_goals simp only [List.append_assoc, List.append_nil, List.nil_append, List.length_append, bitsOf_length]
  all_goals omega

/-! ## The checks of an SPF frame from its CRC on (R87) -/

section
variable {d : Dev} {a sum hdr v stat crc : Nat}

theorem spfContent_crc (h : crc ≠ sum) : d.spfContent a sum hdr v stat crc = d.serBadFrame a (AXIS_SERERR_CRC a) := if_pos h

variable (h : crc = sum)
include h

theorem spfContent_len (hl : hdr / 64 ≠ d.get (AXIS_SERCFG_SPFLEN a) ∨ d.get (AXIS_SERCFG_SPFLEN a) = 3) :
    d.spfContent a sum hdr v stat crc = d.serBadFrame a (AXIS_SERERR_LEN a) := (if_neg (not_not.2 h)).trans (if_pos hl)

variable (hl : hdr / 64 = d.get (AXIS_SERCFG_SPFLEN a)) (h3 : d.get (AXIS_SERCFG_SPFLEN a) ≠ 3)
include hl h3

theorem spfContent_sensor (hs : bitAt stat 7 = true) : d.spfContent a sum hdr v stat crc = d.serBadFrame a (AXIS_SERERR_SENSOR a) :=
  (if_neg (not_not.2 h)).trans ((if_neg (fun c => c.elim (fun c => c hl) h3)).trans (if_pos hs))

theorem spfContent_seq (hs : bitAt stat 7 = false) : d.spfContent a sum hdr v stat crc = d.spfSeq a hdr v stat :=
  (if_neg (not_not.2 h)).trans ((if_neg (fun c => c.elim (fun c => c hl) h3)).trans (if_neg (by rw [hs]; decide)))

end

/-- R87: the sequence number of a frame may stand: it is not checked, or there is none before it, or it follows that. -/
def Dev.seqOk (d : Dev) (a hdr : Nat) : Prop :=
  d.flag (AXIS_SERCFG_SEQCHK a) = false ∨ (d.axis a).serSeq = none ∨ ∃ k, (d.axis a).serSeq = some k ∧ hdr % 16 = (k + 1) % 16

theorem seqOk_iff (d : Dev) (a hdr : Nat) : d.seqOk a hdr ↔ ¬ (d.flag (AXIS_SERCFG_SEQCHK a) = true ∧ seqSkips (d.axis a).serSeq (hdr % 16) = true) := by
  unfold Dev.seqOk
  cases (d.axis a).serSeq with
  | none => simp [seqSkips]
  | some k =>
    have hskip : seqSkips (some k) (hdr % 16) = (hdr % 16 != (k + 1) % 16) := rfl
    rw [hskip]
    cases d.flag (AXIS_SERCFG_SEQCHK a) <;> simp

section
variable {d : Dev} {a hdr v stat : Nat}

/-- R87: the sequence number of this frame is the previous one from now on. -/
def Dev.seqTaken (d : Dev) (a hdr : Nat) : Dev := d.modAxis a (fun x => { x with serSeq := some (hdr % 16) })

theorem spfSeq_bad (h : ¬ d.seqOk a hdr) : d.spfSeq a hdr v stat = (d.seqTaken a hdr).serBadFrame a (AXIS_SERERR_SEQ a) :=
  if_pos (not_not.1 (mt (seqOk_iff d a hdr).2 h))

theorem spfSeq_good (h : d.seqOk a hdr) : d.spfSeq a hdr v stat = (d.seqTaken a hdr).spfTake a v stat := if_neg ((seqOk_iff d a hdr).1 h)

end

/-! ## The checks of a frame up to its content (R87) -/

section
variable {d : Dev} {a : Nat} {f : SerialFrame}

theorem spfCheck_line (h : dataLevel f 0 = false ∨ d.spfField a f 0 6 ≠ 0x2C) : d.spfCheck a f = d.serBadFrame a (AXIS_SERERR_LINE a) :=
  (spfCheck_eq d a f).trans (if_pos h)

section
variable (h : dataLevel f 0 = true) (hs : d.spfField a f 0 6 = 0x2C)
include h hs

theorem spfSync_kept : ¬ (dataLevel f 0 = false ∨ d.spfField a f 0 6 ≠ 0x2C) := by simp [h, hs]

theorem spfCheck_timeout (hh : (d.serHigh a f).isNone = true) : d.spfCheck a f = d.serBadFrame a (AXIS_SERERR_TIMEOUT a) :=
  (spfCheck_eq d a f).trans ((if_neg (spfSync_kept h hs)).trans (if_pos hh))

theorem spfCheck_content {hdr p st crc : Nat} (hh : (d.serHigh a f).isSome = true) (h2 : d.spfField a f 6 8 = hdr)
    (h3 : d.spfField a f 14 (spfLen (d.get (AXIS_SERCFG_SPFLEN a))) = p) (h4 : d.spfField a f (14 + spfLen (d.get (AXIS_SERCFG_SPFLEN a))) 8 = st)
    (h5 : d.spfField a f (22 + spfLen (d.get (AXIS_SERCFG_SPFLEN a))) 16 = crc) :
    d.spfCheck a f = d.spfContent a (crc16 ([hdr] ++ bytesOf (spfLen (d.get (AXIS_SERCFG_SPFLEN a)) / 8) p ++ [st])) hdr p st crc := by
  subst h2 h3 h4 h5
  exact (spfCheck_eq d a f).trans ((if_neg (spfSync_kept h hs)).trans (if_neg (serHigh_some hh)))

end

/-- R84: the error bit of an SSI frame is unused, or shows no error. -/
theorem not_ssiError {e : Bool} (h : d.get (AXIS_SERCFG_ERRBIT a) = 0 ∨ d.get (AXIS_SERCFG_ERRBIT a) = 1 ∧ e = false ∨
    d.get (AXIS_SERCFG_ERRBIT a) = 2 ∧ e = true) : ¬ d.ssiError a e := by
  unfold Dev.ssiError
  cases e <;> simp at h ⊢ <;> omega

theorem spfLen_le (code : Nat) : spfLen code ≤ 48 := by
  unfold spfLen
  split_ifs <;> decide

theorem ofGray_width {n v : Nat} (hn : n ≤ 48) (hv : v < 2 ^ n) (gray : Bool) : (if gray then ofGray n v else v) < 2 ^ 64 := by
  have h64 : 2 ^ n ≤ 2 ^ 64 := Nat.pow_le_pow_right (by decide) (by omega)
  cases gray with
  | true => exact (ofGray_lt n v).trans_le h64
  | false => exact hv.trans_le h64

end

/-! ## A frame that has ended, by what its bits are -/

/-- R87: a check other than JUMP discards the frame. -/
theorem serEnded_discards {d : Dev} {a : Nat} {f : SerialFrame} {g : Fld} (hg : serCheckBit a g)
    (h : d.serCheck a f = (d.serEnded a).serBadFrame a g) : d.SerDiscards (d.serCheck a f) a g := by
  rw [h]
  exact serBadFrame_discards (serEnded_checked d a) (.refl _ _ _) hg

section
variable {d : Dev} {a b : Nat} {f : SerialFrame} (hb : (d.axis a).frameStart = some b) (ht : b + d.serSpan a f ≤ d.tick)
include hb ht

theorem serCheck_line (h0 : dataLevel f 0 = false) : d.SerDiscards (d.serCheck a f) a (AXIS_SERERR_LINE a) := by
  refine serEnded_discards ⟨0, by decide, rfl⟩ ?_
  by_cases hm : d.get (AXIS_CFG_MODE a) = 3
  · exact (serCheck_ssi hb ht hm).trans (ssiCheck_line h0)
  · exact (serCheck_spf hb ht hm).trans (spfCheck_line (.inl h0))

section
variable (hm : d.get (AXIS_CFG_MODE a) = 3) (h0 : dataLevel f 0 = true)
include hm h0

theorem ssi_timeout (hh : (d.serHigh a f).isNone = true) : d.SerDiscards (d.serCheck a f) a (AXIS_SERERR_TIMEOUT a) :=
  serEnded_discards ⟨1, by decide, rfl⟩ ((serCheck_ssi hb ht hm).trans (ssiCheck_timeout h0 hh))

variable (hh : (d.serHigh a f).isSome = true)
include hh

theorem ssi_sensor (he : d.ssiError a (d.serBit a f (d.ssiWidth a + 1))) : d.SerDiscards (d.serCheck a f) a (AXIS_SERERR_SENSOR a) :=
  serEnded_discards ⟨3, by decide, rfl⟩ ((serCheck_ssi hb ht hm).trans (ssiCheck_sensor (d := d.serEnded a) h0 hh he))

theorem ssi_passes (he : ¬ d.ssiError a (d.serBit a f (d.ssiWidth a + 1))) (hlim : d.flag (AXIS_CFG_LIM_EN a) = false) {v : Nat}
    (hv : v < 2 ^ d.ssiWidth a) (hbits : ∀ i < d.ssiWidth a, d.serBit a f (i + 1) = bitAt v (d.ssiWidth a - 1 - i)) :
    d.SerPasses (d.serCheck a f) a (d.ssiWidth a) (if d.flag (AXIS_SERCFG_GRAY a) then ofGray (d.ssiWidth a) v else v) [] := by
  have hvalue : (d.serEnded a).ssiValue a f = v := ssiValue_of_bits (d := d.serEnded a) hv hbits
  have hgood := ssiCheck_good (d := d.serEnded a) h0 hh he
  rw [hvalue] at hgood
  rw [serCheck_ssi hb ht hm, hgood]
  exact serGood_passes (serEnded_checked d a) hlim (ofGray_width (ssiWidth_le d a) hv _) _

end

section
variable (hm : d.get (AXIS_CFG_MODE a) ≠ 3) (h0 : dataLevel f 0 = true)
include hm

theorem spf_sync (hs : d.spfField a f 0 6 ≠ 0x2C) : d.SerDiscards (d.serCheck a f) a (AXIS_SERERR_LINE a) :=
  serEnded_discards ⟨0, by decide, rfl⟩ ((serCheck_spf hb ht hm).trans (spfCheck_line (d := d.serEnded a) (.inr hs)))

variable (hs : d.spfField a f 0 6 = 0x2C)
include h0 hs

theorem spf_timeout (hh : (d.serHigh a f).isNone = true) : d.SerDiscards (d.serCheck a f) a (AXIS_SERERR_TIMEOUT a) :=
  serEnded_discards ⟨1, by decide, rfl⟩ ((serCheck_spf hb ht hm).trans (spfCheck_timeout (d := d.serEnded a) h0 hs hh))

theorem spf_content {hdr p st crc : Nat} (hh : (d.serHigh a f).isSome = true) (h2 : d.spfField a f 6 8 = hdr)
    (h3 : d.spfField a f 14 (spfLen (d.get (AXIS_SERCFG_SPFLEN a))) = p) (h4 : d.spfField a f (14 + spfLen (d.get (AXIS_SERCFG_SPFLEN a))) 8 = st)
    (h5 : d.spfField a f (22 + spfLen (d.get (AXIS_SERCFG_SPFLEN a))) 16 = crc) : d.serCheck a f =
      (d.serEnded a).spfContent a (crc16 ([hdr] ++ bytesOf (spfLen (d.get (AXIS_SERCFG_SPFLEN a)) / 8) p ++ [st])) hdr p st crc :=
  (serCheck_spf hb ht hm).trans (spfCheck_content (d := d.serEnded a) h0 hs hh h2 h3 h4 h5)

end

end

theorem serEnded_seqOk (d : Dev) (a hdr : Nat) : (d.serEnded a).seqOk a hdr ↔ d.seqOk a hdr := by
  rw [Dev.seqOk, Dev.seqOk, Dev.serEnded, Dev.axis_modAxis_same]
  rfl

section
variable {d : Dev} {a sum hdr p st crc : Nat} {f : SerialFrame} (hc : d.serCheck a f = (d.serEnded a).spfContent a sum hdr p st crc)
include hc

theorem spf_crc (h : crc ≠ sum) : d.SerDiscards (d.serCheck a f) a (AXIS_SERERR_CRC a) :=
  serEnded_discards ⟨2, by decide, rfl⟩ (hc.trans (spfContent_crc h))

variable (h : crc = sum)
include h

theorem spf_len (hl : hdr / 64 ≠ d.get (AXIS_SERCFG_SPFLEN a) ∨ d.get (AXIS_SERCFG_SPFLEN a) = 3) : d.SerDiscards (d.serCheck a f) a (AXIS_SERERR_LEN a) :=
  serEnded_discards ⟨4, by decide, rfl⟩ (hc.trans (spfContent_len (d := d.serEnded a) h hl))

variable (hl : hdr / 64 = d.get (AXIS_SERCFG_SPFLEN a)) (h3 : d.get (AXIS_SERCFG_SPFLEN a) ≠ 3)
include hl h3

theorem spf_sensor (hs : bitAt st 7 = true) : d.SerDiscards (d.serCheck a f) a (AXIS_SERERR_SENSOR a) :=
  serEnded_discards ⟨3, by decide, rfl⟩ (hc.trans (spfContent_sensor (d := d.serEnded a) h hl h3 hs))

variable (hs : bitAt st 7 = false)
include hs

theorem spf_seq (hq : ¬ d.seqOk a hdr) : d.SerDiscards (d.serCheck a f) a (AXIS_SERERR_SEQ a) := by
  rw [hc, spfContent_seq (d := d.serEnded a) h hl h3 hs, spfSeq_bad (mt (serEnded_seqOk d a hdr).1 hq)]
  exact serBadFrame_discards (serSeq_checked (serEnded_checked d a) _) (.refl _ _ _) ⟨5, by decide, rfl⟩

theorem spf_passes (hq : d.seqOk a hdr) (hlim : d.flag (AXIS_CFG_LIM_EN a) = false) (hp : p < 2 ^ spfLen (d.get (AXIS_SERCFG_SPFLEN a))) :
    d.SerPasses (d.serCheck a f) a (spfLen (d.get (AXIS_SERCFG_SPFLEN a))) p (if bitAt st 6 then [AXIS_SERERR_WARN a] else []) := by
  rw [hc, spfContent_seq (d := d.serEnded a) h hl h3 hs, spfSeq_good ((serEnded_seqOk d a hdr).2 hq)]
  exact spfTake_passes (serSeq_checked (serEnded_checked d a) _) hlim
    (hp.trans_le (Nat.pow_le_pow_right (by decide) ((spfLen_le _).trans (by decide)))) st

end

/-! ## The obligation -/

/-- R86: the check value of the CRC, nine bytes that the kernel evaluates. -/
theorem crc16_check : crc16 [0x31, 0x32, 0x33, 0x34, 0x35, 0x36, 0x37, 0x38, 0x39] = 0x29B1 := by decide +kernel

/-- The two kinds of trigger of R83, each where START names it. -/
theorem serDue_of {d : Dev} {a : Nat} {conv : Bool} (hc : conv = true → d.get (AXIS_SERCFG_START a) = 2 ∧
      (Tab.get {} d.convs (4 * (a / 2) + d.get (AXIS_SERCFG_CONVSEL a))).high = true)
    (hp : conv = false → d.get (AXIS_SERCFG_START a) = 1 ∧ (d.axis a).lastPeriodic + max 1 (d.get (AXIS_SERPER_PER a)) ≤ d.tick) :
    d.serDue a conv = true := by
  cases conv with
  | true =>
    obtain ⟨hstart, hhigh⟩ := hc rfl
    simp [Dev.serDue, hstart, hhigh]
  | false =>
    obtain ⟨hstart, hper⟩ := hp rfl
    simp [Dev.serDue, hstart, hper]

/-- Settles O29: the start by its two outcomes; a frame that has ended by the first check that fails, or by what a good one moves. -/
theorem serialFramesAreCheckedInOrder : Obligations.SerialFramesAreCheckedInOrder := by
  unfold Obligations.SerialFramesAreCheckedInOrder
  refine ⟨crc16_check, fun n v hv => ofGray_gray hv, fun w u v hw => ?_, fun s a => ?_⟩
  · obtain ⟨hlo, hhi⟩ := serDelta_range hw u v
    exact ⟨hlo, hhi, serDelta_congr hw u v⟩
  intro x mode
  refine ⟨fun conv => ⟨fun hm => onDev_idle (f := fun d => d.serStart a conv) (serStart_idle hm), fun hm hr hq hc hp => ?_⟩, fun f => ?_⟩
  · have hstart := serStart_due hm hr hq (serDue_of hc hp)
    have htick := serTriggered_tick (d := s.dev) (a := a) (conv := conv)
    rw [htick] at hstart
    refine ⟨fun hnone hbusy => ?_, fun hbusy => ?_⟩
    · have hbegun := hstart.trans (if_neg (not_or.2 ⟨not_not.2 hnone, Nat.not_lt.2 hbusy⟩))
      exact ⟨_, onDev_of (f := fun d => d.serStart a conv) hbegun, serBegun_axis,
        ((serTriggered_frame _ _ _).trans (Dev.modAxis_frame _ _ _ _ (by simp))).lift⟩
    · have hdropped := hstart.trans (if_pos hbusy)
      have haxis : ((s.dev.serTriggered a conv).serDropped a).axis a = _ := ((serDropped_frame _ _).axis (by simp) a).trans (serTriggered_axis _ _ _)
      obtain ⟨hover, herr⟩ := serDropped_shows (s.dev.serTriggered a conv) a
      exact ⟨_, onDev_of (f := fun d => d.serStart a conv) hdropped, hover, herr, by rw [haxis], by rw [haxis],
        (((serTriggered_frame _ _ _).mono (by simp) (by simp)).trans ((serDropped_frame _ _).mono (by simp) (fun _ => id))).lift⟩
  · intro limit
    refine ⟨fun _ => rfl, fun hs h => serHigh_iff hs h, fun hnone => onDev_idle (f := fun d => d.serCheck a f) (serCheck_none hnone), fun b hb => ?_⟩
    intro due done bad moved good
    have hdue : due = b + s.dev.serSpan a f := by rw [Dev.serSpan, usTicks, Nat.mul_comm _ 800]
    have hrests : s.dev.serRests a = s.dev.tick + 800 * clampN 1 1000 (s.dev.get (AXIS_SERTIME_RECOVERY a)) := by rw [Dev.serRests, usTicks, Nat.mul_comm]
    have hexec : exec (.serialFrameCheck a f) s = .next { s with dev := s.dev.serCheck a f } := onDev_of (f := fun d => d.serCheck a f) rfl
    have hbad {g : Fld} (h : s.dev.SerDiscards (s.dev.serCheck a f) a g) : bad g :=
      ⟨_, hexec, ⟨h.ended, h.rests.trans hrests⟩, h.check, h.err, h.count, h.bad, h.t16, h.latch, h.fault, h.frame.lift⟩
    have hmoved {v : Nat} {extra : List Fld} {mv : Int} (h : s.dev.SerMoves (s.dev.serCheck a f) a v extra mv) : moved v extra mv :=
      ⟨_, hexec, ⟨h.ended, h.rests.trans hrests⟩, h.raw, h.t16, h.prev, h.ok, h.bad, h.inc, h.at_, h.last, h.flags, h.frame.lift⟩
    have hgood {w v : Nat} {extra : List Fld} (h : s.dev.flag (AXIS_CFG_LIM_EN a) = false → s.dev.SerPasses (s.dev.serCheck a f) a w v extra) :
        good w v extra := fun hlim =>
      have ⟨hfirst, hlater⟩ := h hlim
      ⟨fun hnone => hmoved (hfirst hnone), fun u hu => ⟨fun h0 hlt => hbad ((hlater u hu).1 h0 hlt), fun hle => hmoved ((hlater u hu).2 hle)⟩⟩
    clear_value bad good
    refine ⟨fun hlt => onDev_idle (f := fun d => d.serCheck a f) (serCheck_early hb (hdue ▸ hlt)), fun hle => ?_⟩
    have ht : b + s.dev.serSpan a f ≤ s.dev.tick := hdue ▸ hle
    refine ⟨fun h0 => hbad (serCheck_line hb ht h0), fun hm h0 hh => hbad (ssi_timeout hb ht hm h0 hh), fun hm h0 hh => ?_, fun hm h0 => ?_⟩
    · intro n v e hv hbits he
      subst he
      refine ⟨fun herr => hbad (ssi_sensor hb ht hm h0 hh ?_), fun hok => hgood fun hlim => ssi_passes hb ht hm h0 hh (not_ssiError hok) hlim hv hbits⟩
      exact herr.imp id fun ⟨h2, hlow⟩ => ⟨h2, Bool.eq_false_iff.1 hlow⟩
    · intro code l sync hdr p st crc h1 h2 h3 h4 h5 hbits sum seqOk
      obtain ⟨fsync, fhdr, fp, fst, fcrc⟩ := spfFields h1 h2 h3 h4 h5 hbits
      refine ⟨fun hs => hbad (spf_sync hb ht hm (by rwa [fsync])), fun hs hh => hbad (spf_timeout hb ht hm h0 (fsync.trans hs) hh), fun hs hh => ?_⟩
      have hc := spf_content hb ht hm h0 (fsync.trans hs) hh fhdr fp fst fcrc
      exact ⟨fun hne => hbad (spf_crc hc hne), fun heq => ⟨fun hl => hbad (spf_len hc heq hl), fun hl hcode => ⟨fun hw => hbad (spf_sensor hc heq hl hcode hw),
        fun hw => ⟨fun hq => hbad (spf_seq hc heq hl hcode hw hq), fun hq => hgood fun hlim => spf_passes hc heq hl hcode hw hq hlim h3⟩⟩⟩⟩

end Sys2Proof.Machine
end

section
/-! PROOF. The estimator of an axis (R97 to R101): rounding, the run and the velocity of a latch, extrapolation, predictions. -/

namespace Sys2Proof.Machine

/-! ## Rounding (R206) -/

theorem roundDiv_of_pos {b : Int} (hb : 0 < b) (a : Int) : roundDiv a b = (2 * a + b) / (2 * b) := by
  rw [roundDiv, if_neg hb.ne', Int.sign_eq_one_of_pos hb, mul_one, Int.natAbs_of_nonneg hb.le]

/-- R206: what rounding leaves over lies from minus one half, which an exact half leaves, to below one half of the divisor. -/
theorem roundDiv_rest {b : Int} (hb : 0 < b) (a : Int) : 2 * (a - roundDiv a b * b) < b ∧ -b ≤ 2 * (a - roundDiv a b * b) := by
  have hsplit := Int.mul_ediv_add_emod (2 * a + b) (2 * b)
  have hlo := Int.emod_nonneg (2 * a + b) (show 2 * b ≠ 0 by omega)
  have hhi := Int.emod_lt_of_pos (2 * a + b) (show 0 < 2 * b by omega)
  rw [roundDiv_of_pos hb, mul_comm]
  rw [mul_assoc] at hsplit
  constructor <;> linarith

/-- A quotient that lies within whole bounds is rounded within them. -/
theorem roundDiv_natAbs_lt {a b s : Int} (hb : 0 < b) (h : (a.natAbs : Int) < s * b) : -s ≤ roundDiv a b ∧ roundDiv a b ≤ s := by
  obtain ⟨h1, h2⟩ := roundDiv_rest hb a
  have habs : -(s * b) < a ∧ a < s * b := by omega
  constructor <;> by_contra hc <;> nlinarith

/-! ## A latch (R97, R98) -/

section
variable (d : Dev) (a t ft : Nat) (rev brk : Bool)

/-- R97, R104, R105: a latch of axis `a` at time `ft` starts a new run. -/
def Dev.estAnew : Bool :=
  let x := d.axis a
  x.run == 0 || x.runNext || rev || brk || x.stopped ||
    match x.hist with
    | (_, p) :: _ => decide (p + usTicks (max 1 (d.get (AXIS_ESTSTOP_STOP a))) * 64 < ft)
    | [] => false

/-- R97: the run count after the latch. -/
def Dev.estRun : Nat := if d.estAnew a ft rev brk then 1 else min 64 ((d.axis a).run + 1)

/-- R97: the history after the latch. -/
def Dev.estHist : List (Int × Nat) := (((d.axis a).t16, ft) :: (d.axis a).hist).take 64

/-- R98: the latch that lies the window's length back. -/
def Dev.estOld : Int × Nat := ((d.estHist a ft)[min (max 1 (d.get (AXIS_ESTCFG_WIN a))) (d.estRun a ft rev brk - 1)]?).getD (0, 0)

/-- R97: a new run is shown. -/
def Dev.estShown : Dev := if d.estAnew a ft rev brk then d.raise (AXIS_ESTSTAT_REBUILD a) else d

/-- R98: the interval of the window is zero, so that the velocity is not stated (log 5). -/
def Dev.estOpen : Bool := decide (2 ≤ d.estRun a ft rev brk) && (d.estOld a ft rev brk).2 == ft

/-- R98: the velocity after the latch. -/
def Dev.estVel : Int :=
  if d.estRun a ft rev brk < 2 then 0
  else if d.estOpen a ft rev brk then sgn 64 (d.estShown a ft rev brk).fresh.1.toNat
  else roundDiv (((d.axis a).t16 - (d.estOld a ft rev brk).1) * 2 ^ 30) ((ft : Int) - (d.estOld a ft rev brk).2)

theorem estLatch_eq : d.estLatch a t ft rev brk =
    (if d.estOpen a ft rev brk then (d.estShown a ft rev brk).fresh.2 else d.estShown a ft rev brk).modAxis a (fun x => { x with
      hist := d.estHist a ft, run := d.estRun a ft rev brk, vel := d.estVel a ft rev brk, lastLatch := t, stopped := false, holdDone := false,
      runNext := false, stale := false }) := rfl

theorem estLatch_run : ((d.estLatch a t ft rev brk).axis a).run = d.estRun a ft rev brk := by rw [estLatch_eq, Dev.axis_modAxis_same]

theorem estLatch_hist : ((d.estLatch a t ft rev brk).axis a).hist = d.estHist a ft := by rw [estLatch_eq, Dev.axis_modAxis_same]

theorem estLatch_vel : ((d.estLatch a t ft rev brk).axis a).vel = d.estVel a ft rev brk := by rw [estLatch_eq, Dev.axis_modAxis_same]

theorem estAnew_iff : d.estAnew a ft rev brk = true ↔ (d.axis a).run = 0 ∨ (d.axis a).runNext = true ∨ rev = true ∨ brk = true ∨
    (d.axis a).stopped = true ∨
    (d.axis a).hist.head?.any (fun p => decide (p.2 + 51200 * max 1 (d.get (AXIS_ESTSTOP_STOP a)) < ft)) = true := by
  have hstop (n : Nat) : usTicks n * 64 = 51200 * n := by rw [usTicks]; omega
  unfold Dev.estAnew
  cases h : (d.axis a).hist with
  | nil => simp [or_assoc, h]
  | cons p r => simp [or_assoc, h, hstop]

theorem estRun_eq_one : d.estRun a ft rev brk = 1 → d.estAnew a ft rev brk = true := by
  intro h
  by_contra hc
  have hrun : (d.axis a).run = 0 := by rw [Dev.estRun, if_neg hc] at h; omega
  exact hc ((estAnew_iff d a ft rev brk).2 (.inl hrun))

theorem estLatch_rebuild (h : d.estAnew a ft rev brk = true) : (d.estLatch a t ft rev brk).get (AXIS_ESTSTAT_REBUILD a) = 1 := by
  have hraised : (d.estShown a ft rev brk).get (AXIS_ESTSTAT_REBUILD a) = 1 := by rw [Dev.estShown, if_pos h, get_raise _ _ rfl (fit rfl)]
  rw [estLatch_eq, Dev.modAxis_get]
  split <;> exact hraised

/-- R98: the velocity is the movement over the window, rounded to 2⁻⁴⁰ count per tick. -/
theorem estVel_rounds {p : Int × Nat} (hn : 2 ≤ d.estRun a ft rev brk) (hp : d.estOld a ft rev brk = p) (hlt : p.2 < ft) :
    let v := d.estVel a ft rev brk
    let dt : Int := (ft : Int) - p.2
    2 * (((d.axis a).t16 - p.1) * 2 ^ 30 - v * dt) < dt ∧ -dt ≤ 2 * (((d.axis a).t16 - p.1) * 2 ^ 30 - v * dt) := by
  have hopen : d.estOpen a ft rev brk = false := by
    rw [Dev.estOpen, hp, beq_false_of_ne hlt.ne, Bool.and_false]
  rw [Dev.estVel, if_neg (by omega), hopen, hp]
  exact roundDiv_rest (by omega) _

end

/-! ## Extrapolation and prediction (R99 to R101) -/

theorem extrapolate_off {v : AxView} (h : v.ext = false) (ft : Nat) : v.extrapolate ft = (v.t16, false) := by
  rw [AxView.extrapolate, h]; rfl

theorem extrapolate_clamped {v : AxView} {ft : Nat} (h : v.ext = true) (hc : (v.span - 1) * 2 ^ 30 ≤ v.vel.natAbs * ((ft : Int) - v.ft)) :
    v.extrapolate ft = (v.t16 + v.vel.sign * (v.span - 1), true) := by
  rw [AxView.extrapolate, h]
  exact if_pos hc

theorem extrapolate_free {v : AxView} {ft : Nat} (h : v.ext = true) (hc : ¬ (v.span - 1) * 2 ^ 30 ≤ v.vel.natAbs * ((ft : Int) - v.ft)) :
    v.extrapolate ft = (v.t16 + roundDiv (v.vel * ((ft : Int) - v.ft)) (2 ^ 30), false) := by
  rw [AxView.extrapolate, h]
  exact if_neg hc

theorem extrapolate_clamps {v : AxView} (h : v.ext = true) (ft : Nat) :
    (v.extrapolate ft).2 = true ↔ (v.span - 1) * 2 ^ 30 ≤ v.vel.natAbs * ((ft : Int) - v.ft) := by
  by_cases hc : (v.span - 1) * 2 ^ 30 ≤ v.vel.natAbs * ((ft : Int) - v.ft)
  · rw [extrapolate_clamped h hc]
    exact iff_of_true rfl hc
  · rw [extrapolate_free h hc]
    exact iff_of_false Bool.false_ne_true hc

/-- R100: the extrapolated position stays short of the span. -/
theorem extrapolate_range {v : AxView} {ft : Nat} (h : v.ext = true) (hs : 0 < v.span) (hft : v.ft ≤ ft) :
    v.t16 - v.span < (v.extrapolate ft).1 ∧ (v.extrapolate ft).1 < v.t16 + v.span := by
  by_cases hc : (v.span - 1) * 2 ^ 30 ≤ v.vel.natAbs * ((ft : Int) - v.ft)
  · rw [extrapolate_clamped h hc]
    rcases lt_trichotomy v.vel 0 with hv | hv | hv
    · rw [Int.sign_eq_neg_one_of_neg hv]; constructor <;> dsimp only <;> omega
    · rw [hv, Int.sign_zero]; constructor <;> dsimp only <;> omega
    · rw [Int.sign_eq_one_of_pos hv]; constructor <;> dsimp only <;> omega
  · have habs : ((v.vel * ((ft : Int) - v.ft)).natAbs : Int) < (v.span - 1) * 2 ^ 30 := by
      rw [Int.natAbs_mul, Int.natCast_mul, Int.natAbs_of_nonneg (a := (ft : Int) - v.ft) (by omega)]
      exact not_le.1 hc
    obtain ⟨h1, h2⟩ := roundDiv_natAbs_lt (by decide) habs
    rw [extrapolate_free h hc]
    constructor <;> dsimp only <;> omega

/-- R101: a prediction is made for a key that lies ahead, while extrapolation is on and the axis moves. -/
theorem predict_ahead {v : AxView} {k : Int} (h : (v.predict k).isSome = true) :
    v.ext = true ∧ v.vel ≠ 0 ∧ (0 < v.vel → v.t16 < k) ∧ (v.vel < 0 → k < v.t16) := by
  obtain ⟨hext, hvel, hahead⟩ : v.ext = true ∧ v.vel ≠ 0 ∧ 0 < (k - v.t16) * v.vel.sign := by
    by_contra hc
    rw [AxView.predict, if_neg hc] at h
    exact absurd h (by decide)
  refine ⟨hext, hvel, fun hv => ?_, fun hv => ?_⟩
  · rw [Int.sign_eq_one_of_pos hv] at hahead; omega
  · rw [Int.sign_eq_neg_one_of_neg hv] at hahead; omega

end Sys2Proof.Machine
end

section
/-! PROOF. The HOLD and the stop of an axis (R103, R105), and the estimator (O30). -/

namespace Sys2Proof.Machine

/-! ## What the slices are told (R101, R103, R127) -/

/-- From `d` to `e` axis `a` has told the slices once: its own quadrant's 2 ticks from now, the others after 6. -/
def Dev.toldOnce (d e : Dev) (a : Nat) (hold : Bool) : Prop :=
  (e.msgs.drop d.msgs.length).map (fun m => (m.q, m.a, m.due, m.hold)) =
    [0, 1, 2, 3].map (fun q => (q, a, (if q = a / 2 then d.tick + 2 else d.tick + 6), hold))

theorem axSend_told {d e : Dev} (h : e.msgs = d.msgs) (a : Nat) (m : AxMsg) : d.toldOnce (e.axSend a d.tick m) a m.hold := by
  rw [Dev.toldOnce, Dev.axSend, h, List.drop_left]
  rfl

/-! ## The HOLD (R103) -/

section
variable (d : Dev) (a : Nat)

theorem hold_apart : (AXIS_ESTSTAT_HOLD_ISSUED a).apart (AXIS_HOLDCNT_CNT a) := axis_apart (k := 0x488) (l := 0x4A0) (.inl (by decide))

/-- R103, R104: a HOLD is shown and counted. -/
theorem axHoldShown_shows : (d.axHoldShown a).get (AXIS_ESTSTAT_HOLD_ISSUED a) = 1 ∧
    (d.axHoldShown a).get (AXIS_HOLDCNT_CNT a) = min (d.get (AXIS_HOLDCNT_CNT a) + 1) (2 ^ 32 - 1) := by
  have hap := hold_apart a
  rw [Dev.axHoldShown]
  refine ⟨?_, ?_⟩
  · rw [Dev.incSat, Dev.addSat, Dev.get_put_ne _ _ (fit rfl) (Fld.apart_symm hap), get_raise _ _ rfl (fit rfl)]
  · rw [get_incSat _ (fit rfl), Dev.raise, Dev.get_put_ne _ _ (fit rfl) hap]
    rfl

theorem axHoldDue_nil (h : (d.axis a).hist = []) : d.axHoldDue a = false := by
  rw [Dev.axHoldDue]
  simp only [h]

/-- R103: the HOLD is due when the axis moves, has not stopped, has not sent one since its last latch, and its time lies within the tick. -/
theorem axHoldDue_iff {p : Int × Nat} {r : List (Int × Nat)} (h : (d.axis a).hist = p :: r) : d.axHoldDue a = true ↔
    d.tb.running = true ∧ 2 ≤ (d.axis a).run ∧ (d.axis a).vel ≠ 0 ∧ (d.axis a).holdDone = false ∧ (d.axis a).stopped = false ∧
    (max 16 (d.get (AXIS_ESTCFG_HOLDF a)) : Int) * d.axSpan a * 2 ^ 30 < 16 * ((d.axis a).vel.natAbs : Int) * (((d.now + 1) * 64 : Int) - p.2) := by
  rw [Dev.axHoldDue]
  simp only [h, Bool.and_eq_true, decide_eq_true_eq, bne_iff_ne, Bool.not_eq_true', and_assoc]
  push_cast
  rfl

/-- R103: the axis once it has shown its HOLD, before the slices learn of it. -/
def Dev.holdNoted : Dev := (d.axHoldShown a).modAxis a (fun x => { x with holdDone := true })

theorem axHold_idle (h : d.axHoldDue a = false) : d.axHold a = d := by
  rw [Dev.axHold, h]
  rfl

theorem axHold_due (h : d.axHoldDue a = true) : d.axHold a = (d.holdNoted a).axSend a d.tick { hold := true } := by
  rw [Dev.axHold, h]
  rfl

theorem axHoldDue_moot (h : (d.axis a).hist = [] ∨ (d.axis a).run < 2 ∨ (d.axis a).vel = 0 ∨ (d.axis a).holdDone = true ∨
    (d.axis a).stopped = true) : d.axHoldDue a = false := by
  cases hh : (d.axis a).hist with
  | nil => exact axHoldDue_nil d a hh
  | cons p r =>
    rw [← Bool.not_eq_true, axHoldDue_iff d a hh]
    rintro ⟨-, hrun, hvel, hdone, hstop, -⟩
    rcases h with h | h | h | h | h
    · exact absurd (hh.symm.trans h) (List.cons_ne_nil p r)
    · exact absurd hrun (Nat.not_le.2 h)
    · exact hvel h
    · exact Bool.false_ne_true (hdone.symm.trans h)
    · exact Bool.false_ne_true (hstop.symm.trans h)

theorem holdNoted_told : Dev.Frame [.axes] [] (d.axHoldShown a) (d.holdNoted a) := Dev.modAxis_frame _ _ _ _ (by simp)

theorem axHold_result (h : d.axHoldDue a = true) : (d.axHold a).get (AXIS_ESTSTAT_HOLD_ISSUED a) = 1 ∧
    (d.axHold a).get (AXIS_HOLDCNT_CNT a) = min (d.get (AXIS_HOLDCNT_CNT a) + 1) (2 ^ 32 - 1) ∧ (d.axHold a).axis a = { d.axis a with holdDone := true } ∧
    d.toldOnce (d.axHold a) a true ∧ Dev.Frame [.axes, .msgs] [AXIS_ESTSTAT_HOLD_ISSUED a, AXIS_HOLDCNT_CNT a] d (d.axHold a) := by
  have hshow := axHoldShown_frame d a
  have htold := holdNoted_told d a
  have hsent := axSend_frame (d.holdNoted a) a d.tick { hold := true }
  rw [← axHold_due d a h] at hsent
  have hafter : Dev.Frame [.axes, .msgs] [] (d.axHoldShown a) (d.axHold a) := (htold.mono (by simp) (by simp)).trans (hsent.mono (by simp) (by simp))
  obtain ⟨hshown, hcount⟩ := axHoldShown_shows d a
  refine ⟨(hafter.get _ (by simp)).trans hshown, (hafter.get _ (by simp)).trans hcount, ?_, ?_,
    (hshow.mono (by simp) (fun _ => id)).trans (hafter.mono (by simp) (by simp))⟩
  · rw [hsent.axis (by simp), Dev.holdNoted, Dev.axis_modAxis_same, hshow.axis (by simp)]
  · rw [axHold_due d a h]
    exact axSend_told ((htold.part .msgs (by simp)).trans (hshow.part .msgs (by simp))) _ _

/-! ## The stop (R105) -/

/-- R105: the axis shows its HOLD where it has shown none since its last latch. -/
def Dev.stopShown : Dev := if !(d.axis a).holdDone then d.axHoldShown a else d

/-- R105: the axis stops, before the view that it had is remembered. -/
def Dev.stopBegun : Dev := (d.stopShown a).modAxis a (fun x => { x with stopped := true, holdDone := true, vel := 0 })

/-- R105: the axis once it has stopped, before the slices learn of it. -/
def Dev.stopNoted : Dev := (d.stopBegun a).axRemember a (d.stopBegun a).tick (d.axView a d.tick)

theorem axStopped_idle (h : (d.axis a).hist = [] ∨ (d.axis a).stopped = true ∨
    d.tick < (d.axis a).lastLatch + usTicks (max 1 (d.get (AXIS_ESTSTOP_STOP a)))) : d.axStopped a = d := by
  rw [Dev.axStopped]
  refine if_neg ?_
  rintro ⟨-, hhist, -, hstop, ht⟩
  rcases h with h | h | h
  · exact hhist h
  · exact hstop h
  · omega

theorem stopShown_frame : Dev.Frame [] [AXIS_ESTSTAT_HOLD_ISSUED a, AXIS_HOLDCNT_CNT a] d (d.stopShown a) :=
  .then_ite (.refl _ _ _) (axHoldShown_frame d a)

theorem stopBegun_told : Dev.Frame [.axes] [] (d.stopShown a) (d.stopBegun a) := Dev.modAxis_frame _ _ _ _ (by simp)

theorem stopNoted_told : Dev.Frame [.axes] [] (d.stopShown a) (d.stopNoted a) := (stopBegun_told d a).trans (axRemember_frame _ _ _ _)

theorem axStopped_due (hr : d.tb.running = true) (hh : (d.axis a).hist ≠ []) (hn : (d.axis a).run ≠ 0) (hs : (d.axis a).stopped = false)
    (ht : (d.axis a).lastLatch + usTicks (max 1 (d.get (AXIS_ESTSTOP_STOP a))) ≤ d.tick) :
    d.axStopped a = (d.stopNoted a).axSend a d.tick { hold := !(d.axis a).holdDone } := by
  have htick : (d.stopBegun a).tick = d.tick := ((stopBegun_told d a).part .tick (by simp)).trans ((stopShown_frame d a).part .tick (by simp))
  have hdue : d.axStopped a = (d.stopNoted a).axSend a (d.stopBegun a).tick { hold := !(d.axis a).holdDone } := if_pos ⟨hr, hh, hn, by simp [hs], ht⟩
  rw [hdue, htick]

/-- R105: a stopped axis keeps its place and its history, without a velocity. -/
theorem stopNoted_axis : ∃ recent, (d.stopNoted a).axis a = { d.axis a with stopped := true, holdDone := true, vel := 0, recent := recent } := by
  refine ⟨((d.stopNoted a).axis a).recent, ?_⟩
  rw [Dev.stopNoted, Dev.axRemember, Dev.axis_modAxis_same, Dev.stopBegun, Dev.axis_modAxis_same, (stopShown_frame d a).axis (by simp)]

theorem stopShown_done (h : (d.axis a).holdDone = true) : d.stopShown a = d := by rw [Dev.stopShown, h]; rfl

theorem stopShown_first (h : (d.axis a).holdDone = false) : d.stopShown a = d.axHoldShown a := by rw [Dev.stopShown, h]; rfl

/-- What follows the HOLD of a stop. -/
theorem axStopped_after (h : d.axStopped a = (d.stopNoted a).axSend a d.tick { hold := !(d.axis a).holdDone }) :
    Dev.Frame [.axes, .msgs] [] (d.stopShown a) (d.axStopped a) := by
  rw [h]
  exact ((stopNoted_told d a).mono (by simp) (by simp)).trans ((axSend_frame _ _ _ _).mono (by simp) (by simp))

theorem axStopped_axis (h : d.axStopped a = (d.stopNoted a).axSend a d.tick { hold := !(d.axis a).holdDone }) :
    ∃ recent, (d.axStopped a).axis a = { d.axis a with stopped := true, holdDone := true, vel := 0, recent := recent } := by
  rw [h, (axSend_frame _ _ _ _).axis (by simp)]
  exact stopNoted_axis d a

theorem axStopped_told (h : d.axStopped a = (d.stopNoted a).axSend a d.tick { hold := !(d.axis a).holdDone }) :
    d.toldOnce (d.axStopped a) a (!(d.axis a).holdDone) := by
  rw [h]
  exact axSend_told (((stopNoted_told d a).part .msgs (by simp)).trans ((stopShown_frame d a).part .msgs (by simp))) _ _

end

/-- R99: a stopped axis is not extrapolated. -/
theorem axExt_stopped {d : Dev} {a : Nat} (h : (d.axis a).stopped = true) : d.axExt a = false := by
  rw [Dev.axExt]
  simp only [h, Bool.not_true, Bool.and_false]

/-- R124: ESTSTAT shows that the axis has stopped. -/
theorem estStat_stopped {d : Dev} {a : Nat} (h : (d.axis a).stopped = true) : bitAt (d.estStat a) 3 = true := by
  rw [Dev.estStat]
  simp only [bitAt_or, h, show bitAt (b2n true * 8) 3 = true from rfl, Bool.or_true, Bool.true_or]

/-! ## The theorem -/

/-- Settles O30: a latch by its run, extrapolation and prediction by their cases, the HOLD and the stop by whether they are due. -/
theorem estimatorPredictsHoldsAndStops : Obligations.EstimatorPredictsHoldsAndStops := by
  unfold Obligations.EstimatorPredictsHoldsAndStops
  refine ⟨fun d a t ft rev brk => ?_, fun v ft => ⟨fun h => extrapolate_off h ft, fun hext hspan hft => ?_⟩, fun v k => predict_ahead, fun s a => ?_⟩
  · intro x n
    have hn : n = d.estRun a ft rev brk := if_congr (estAnew_iff d a ft rev brk).symm rfl rfl
    rw [hn, estLatch_run, estLatch_hist, estLatch_vel]
    refine ⟨rfl, rfl, fun h1 => ⟨if_pos (by omega), estLatch_rebuild _ _ _ _ _ _ (estRun_eq_one _ _ _ _ _ h1)⟩, fun p h2 hp hlt => ?_⟩
    exact estVel_rounds _ _ _ _ _ h2 (by rw [Dev.estOld, Dev.estHist, hp, Option.getD_some]) hlt
  · exact ⟨extrapolate_clamps hext ft, fun hc => by rw [extrapolate_clamped hext ((extrapolate_clamps hext ft).1 hc)], extrapolate_range hext hspan hft⟩
  · intro x told
    have hus (n : Nat) : usTicks n = 800 * n := Nat.mul_comm _ _
    refine ⟨fun h => onDev_idle (f := fun d => d.axHold a) (axHold_idle _ _ (axHoldDue_moot _ _ h)), fun p rest hh hr hn hv hd hs hlt => ?_, fun h => ?_,
      fun hr hh hn hs ht => ?_⟩
    · obtain ⟨hshown, hcount, haxis, htold, hframe⟩ := axHold_result _ _ ((axHoldDue_iff s.dev a hh).2 ⟨hr, hn, hv, hd, hs, hlt⟩)
      exact ⟨_, onDev_of (f := fun d => d.axHold a) rfl, hshown, hcount, haxis, htold, hframe.lift⟩
    · rw [← hus] at h
      exact onDev_idle (f := fun d => d.axStopped a) (axStopped_idle _ _ h)
    · rw [← hus] at ht
      have hdue := axStopped_due _ _ hr hh hn hs ht
      have hshow := stopShown_frame s.dev a
      have hafter := axStopped_after _ _ hdue
      obtain ⟨recent, haxis⟩ := axStopped_axis _ _ hdue
      have hstopped : ((s.dev.axStopped a).axis a).stopped = true := by rw [haxis]
      refine ⟨_, onDev_of (f := fun d => d.axStopped a) rfl, hstopped, (congrArg Axis.vel haxis :), (congrArg Axis.holdDone haxis :),
        axExt_stopped hstopped, (congrArg Axis.hist haxis :), (congrArg Axis.t16 haxis :), estStat_stopped hstopped, axStopped_told _ _ hdue,
        fun hd => ?_, fun hd => ?_, ((hshow.mono (by simp) (fun _ => id)).trans (hafter.mono (by simp) (by simp))).lift⟩
      · obtain ⟨hshown, hcount⟩ := axHoldShown_shows s.dev a
        rw [stopShown_first _ _ hd] at hafter
        exact ⟨(hafter.get _ (by simp)).trans hcount, (hafter.get _ (by simp)).trans hshown⟩
      · rw [stopShown_done _ _ hd] at hafter
        exact hafter.lift

end Sys2Proof.Machine
end

section
/-! PROOF. Emulators: the divider, the enable and the ratio (R110, R111). -/

namespace Sys2Proof.Machine

/-! ## The divider (R110) -/

/-- R110: an upward source count adds M to the accumulator, less N where it brings an output count. -/
theorem divStep_up {m n : Nat} {acc : Int} (hm : m ≤ n) (h0 : 0 ≤ acc) (hn : acc < n) :
    0 ≤ (divStep m n acc true).1 ∧ (divStep m n acc true).1 < n ∧ (divStep m n acc true).1 + n * b2n (divStep m n acc true).2 = acc + m := by
  rw [divStep, if_pos rfl]
  by_cases h : (n : Int) ≤ acc + m
  · rw [if_pos h, b2n, if_pos rfl]; push_cast; omega
  · rw [if_neg h, b2n, if_neg Bool.false_ne_true]; push_cast; omega

/-- R110: a downward source count takes M from the accumulator, and adds N where it brings an output count. -/
theorem divStep_down {m n : Nat} {acc : Int} (hm : m ≤ n) (h0 : 0 ≤ acc) (hn : acc < n) :
    0 ≤ (divStep m n acc false).1 ∧ (divStep m n acc false).1 < n ∧ (divStep m n acc false).1 - n * b2n (divStep m n acc false).2 = acc - m := by
  rw [divStep, if_neg Bool.false_ne_true]
  by_cases h : acc < (m : Int)
  · rw [if_pos h, b2n, if_pos rfl]; push_cast; omega
  · rw [if_neg h, b2n, if_neg Bool.false_ne_true]; push_cast; omega

/-! ## Bit 0 of a word -/

theorem or_one_masked {v m : Word} (hv : v &&& m = v) (hm : (1 : Word) &&& m = 1) : (v ||| 1) &&& m = v ||| 1 := by
  refine BitVec.eq_of_getLsbD_eq fun i _ => ?_
  have h1 : (v.getLsbD i && m.getLsbD i) = v.getLsbD i := by rw [← BitVec.getLsbD_and, hv]
  have h2 : ((1 : Word).getLsbD i && m.getLsbD i) = (1 : Word).getLsbD i := by rw [← BitVec.getLsbD_and, hm]
  rw [BitVec.getLsbD_and, BitVec.getLsbD_or, Bool.and_or_distrib_right, h1, h2]

theorem bitAt_or_one (v : Word) : bitAt (v ||| 1).toNat 0 = true := by
  rw [BitVec.toNat_or, bitAt_or]
  exact Bool.or_true _

theorem bits_or_one (v : Word) {lo : Nat} (w : Nat) (hlo : 0 < lo) : bits (v ||| 1).toNat lo w = bits v.toNat lo w := by
  have hone : 1 >>> lo = 0 := Nat.shiftRight_eq_zero 1 lo (Nat.one_lt_two_pow hlo.ne')
  rw [BitVec.toNat_or, bits, Nat.shiftRight_or_distrib, show (1 : Word).toNat = 1 from rfl, hone, Nat.or_zero, bits]

/-- Bit 0 cleared after it has been set. -/
theorem or_one_cleared (v : Word) : BitVec.ofNat 32 (setBitAt (v ||| 1).toNat 0 false) = v &&& 0xFFFFFFFE := by
  have hmask : ∀ i < 32, (0xFFFFFFFE : Word).getLsbD i = decide (i ≠ 0) := by decide
  have hone : ∀ i < 32, (1 : Word).getLsbD i = decide (i = 0) := by decide
  refine BitVec.eq_of_getLsbD_eq fun i hi => ?_
  rw [BitVec.getLsbD_ofNat, ← bitAt_eq_testBit, bitAt_setBitAt, bitAt_eq_testBit, BitVec.testBit_toNat, BitVec.getLsbD_or, BitVec.getLsbD_and,
    hmask i hi, hone i hi]
  by_cases h0 : i = 0 <;> simp [h0, hi]

/-! ## The enable (R110, R111) -/

/-- R111: the device without a held M. -/
theorem emuUnhold_frame (d : Dev) (b : Nat) : Dev.Frame [.heldHi] [] d (d.emuUnhold b) :=
  fun _ => ⟨fun p h => by cases p <;> first | rfl | exact absurd List.mem_cons_self h, fun _ _ => rfl⟩

@[simp] theorem emuUnhold_get (d : Dev) (b : Nat) (g : Fld) : (d.emuUnhold b).get g = d.get g := rfl

@[simp] theorem emuUnhold_flag (d : Dev) (b : Nat) (g : Fld) : (d.emuUnhold b).flag g = d.flag g := rfl

@[simp] theorem emuUnhold_emu (d : Dev) (b k : Nat) : (d.emuUnhold b).emu k = d.emu k := rfl

/-- R110: emulator `x` enabled with the accumulator `acc` on the ratio `m` / `n`, its source at `p`. -/
def Emu.started (x : Emu) (acc p : Int) (m n : Nat) : Emu :=
  { x with acc := acc, c0 := x.c, p0 := p, m := m, n := n, newRatio := none, backlog := x.backlog.filter (fun e => !e.early), shown := x.c, ahead := 0 }

/-- R110, R111: CFG holds `v`, and no M is held any more. -/
def Dev.emuStored (d : Dev) (b : Nat) (v : Word) : Dev := (d.emuUnhold b).setWord (AXIS_EMU_CFG b) v

theorem emuStored_frame (d : Dev) (b : Nat) (v : Word) : Dev.Frame [.heldHi] [whole (AXIS_EMU_CFG b)] d (d.emuStored b v) :=
  ((emuUnhold_frame d b).mono (fun _ => id) (by simp)).trans (Dev.setWord_frame _ _ _ _ (by simp))

section
variable {d : Dev} {b v : Nat} (hv : bitAt v 0 = true)
include hv

theorem emuCfg_on (hon : d.flag (AXIS_EMU_CFG_EN b) = true) : d.emuCfg b v = d.setWord (AXIS_EMU_CFG b) (BitVec.ofNat 32 v) := by
  simp [Dev.emuCfg, hv, hon]

theorem emuCfg_starts (hon : d.flag (AXIS_EMU_CFG_EN b) = false) (h1 : 1 ≤ d.get (AXIS_EMU_RATIO_M_M b))
    (hle : d.get (AXIS_EMU_RATIO_M_M b) ≤ d.get (AXIS_EMU_RATIO_N_N b)) : d.emuCfg b v =
    let e := d.emuStored b (BitVec.ofNat 32 v)
    e.modEmu b (fun x => x.started (min (e.get (AXIS_EMU_PHASE_PHASE b)) (d.get (AXIS_EMU_RATIO_N_N b) - 1))
      ((e.axis (e.get (AXIS_EMU_CFG_SRC b))).t16 / 65536) (d.get (AXIS_EMU_RATIO_M_M b)) (d.get (AXIS_EMU_RATIO_N_N b))) := by
  simp [Dev.emuCfg, hv, hon, h1, hle, Emu.started, Dev.emuStored]

theorem emuCfg_refuses (hon : d.flag (AXIS_EMU_CFG_EN b) = false)
    (h : d.get (AXIS_EMU_RATIO_M_M b) = 0 ∨ d.get (AXIS_EMU_RATIO_N_N b) < d.get (AXIS_EMU_RATIO_M_M b)) : d.emuCfg b v =
    (d.emuStored b (BitVec.ofNat 32 (setBitAt v 0 false))).raise (AXIS_EMU_STATUS_RATIO_ERR b) := by
  simp [Dev.emuCfg, hv, hon, h, Dev.emuStored]

end

section
variable {d : Dev} {b : Nat} (v : Word)

theorem ofNat_toNat (v : Word) : BitVec.ofNat 32 v.toNat = v := by rw [BitVec.ofNat_toNat, BitVec.setWidth_eq]

/-- R110: a running emulator stays as it is when CFG is written with EN. -/
theorem emuCfg_on_result (hon : d.flag (AXIS_EMU_CFG_EN b) = true) : (d.emuCfg b (v ||| 1).toNat).word (AXIS_EMU_CFG b) = v ||| 1 ∧
    Dev.Frame [] [whole (AXIS_EMU_CFG b)] d (d.emuCfg b (v ||| 1).toNat) := by
  rw [emuCfg_on (bitAt_or_one v) hon, ofNat_toNat]
  exact ⟨Dev.word_setWord_same _ _ _, Dev.setWord_frame _ _ _ _ (by simp)⟩

/-- R110, R111: an emulator starts on an allowed ratio. -/
theorem emuCfg_starts_result (hon : d.flag (AXIS_EMU_CFG_EN b) = false) (h1 : 1 ≤ d.get (AXIS_EMU_RATIO_M_M b))
    (hle : d.get (AXIS_EMU_RATIO_M_M b) ≤ d.get (AXIS_EMU_RATIO_N_N b)) :
    let e := d.emuCfg b (v ||| 1).toNat
    e.word (AXIS_EMU_CFG b) = v ||| 1 ∧
    e.emu b = (d.emu b).started (min (d.get (AXIS_EMU_PHASE_PHASE b)) (d.get (AXIS_EMU_RATIO_N_N b) - 1)) ((d.axis (bits v.toNat 9 3)).t16 / 65536)
      (d.get (AXIS_EMU_RATIO_M_M b)) (d.get (AXIS_EMU_RATIO_N_N b)) ∧
    (∀ k, k ≠ b → e.emu k = d.emu k) ∧ Dev.Frame [.emus, .heldHi] [whole (AXIS_EMU_CFG b)] d e := by
  intro e
  have hsrc : (d.emuStored b (v ||| 1)).get (AXIS_EMU_CFG_SRC b) = bits v.toNat 9 3 :=
    (Dev.get_setWord_same _ (AXIS_EMU_CFG_SRC b) _).trans (bits_or_one v 3 (Nat.succ_pos 8))
  have hphase : (d.emuStored b (v ||| 1)).get (AXIS_EMU_PHASE_PHASE b) = d.get (AXIS_EMU_PHASE_PHASE b) :=
    Dev.get_setWord_ne _ _ (axisReg_ne (a := b) (b := b) (k := 0x50C) (l := 0x500) (by decide) (by decide) (by decide))
  have he := emuCfg_starts (bitAt_or_one v) hon h1 hle
  rw [ofNat_toNat] at he
  dsimp only at he
  rw [hsrc, hphase] at he
  simp only [e, he]
  exact ⟨Dev.word_setWord_same _ _ _, Dev.emu_modEmu_same _ _ _, fun k hk => Dev.emu_modEmu_ne _ _ hk,
    ((emuStored_frame d b _).mono (by simp) (fun _ => id)).trans (Dev.modEmu_frame _ _ _ _ (by simp))⟩

/-- R111: EN is not set on a ratio that is not allowed. -/
theorem emuCfg_refuses_result (hon : d.flag (AXIS_EMU_CFG_EN b) = false)
    (h : d.get (AXIS_EMU_RATIO_M_M b) = 0 ∨ d.get (AXIS_EMU_RATIO_N_N b) < d.get (AXIS_EMU_RATIO_M_M b)) :
    let e := d.emuCfg b (v ||| 1).toNat
    e.get (AXIS_EMU_CFG_EN b) = 0 ∧ e.get (AXIS_EMU_STATUS_RATIO_ERR b) = 1 ∧ e.word (AXIS_EMU_CFG b) = v &&& 0xFFFFFFFE ∧
    Dev.Frame [.heldHi] [whole (AXIS_EMU_CFG b), AXIS_EMU_STATUS_RATIO_ERR b] d e := by
  intro e
  have hne : AXIS_EMU_CFG b ≠ AXIS_EMU_STATUS b := axisReg_ne (a := b) (b := b) (k := 0x500) (l := 0x520) (by decide) (by decide) (by decide)
  have hlt : setBitAt (v ||| 1).toNat 0 false < 2 ^ 32 := putBits_lt _ _ _ _ (by decide) (v ||| 1).isLt
  have he : e = _ := emuCfg_refuses (bitAt_or_one v) hon h
  have hword : e.word (AXIS_EMU_CFG b) = BitVec.ofNat 32 (setBitAt (v ||| 1).toNat 0 false) := by
    rw [he, Dev.raise, Dev.word_put_ne _ _ hne]
    exact Dev.word_setWord_same _ _ _
  refine ⟨?_, ?_, hword.trans (or_one_cleared v), ?_⟩
  · rw [Dev.get, show (AXIS_EMU_CFG_EN b).off = AXIS_EMU_CFG b from rfl, hword, BitVec.toNat_ofNat, Nat.mod_eq_of_lt hlt]
    exact bits_putBits_same _ _ _ _
  · rw [he, get_raise _ _ rfl (fit rfl)]
  · rw [he]
    exact ((emuStored_frame d b _).mono (fun _ => id) (by simp)).trans (Dev.raise_frame _ _ _ (fit rfl) (by simp))

end

/-! ## The ratio (R111) -/

/-- R111: the M that a write of RATIO_N takes: the one held, or the one in force. -/
def Dev.emuM (d : Dev) (b : Nat) : Nat :=
  let held := (Tab.get 0 d.heldHi (AXIS_EMU_RATIO_M b)).toNat
  if held = 0 then d.get (AXIS_EMU_RATIO_M_M b) else held % 2 ^ 24

theorem emuM_lt (d : Dev) (b : Nat) : d.emuM b < 2 ^ 24 := by
  unfold Dev.emuM
  dsimp only
  split
  · exact Dev.get_lt _ _
  · exact Nat.mod_lt _ (by decide)

/-- R111: the ratio `m` / `n` is in the registers, and waits for the next source count. -/
def Dev.ratioWaits (d : Dev) (b m n : Nat) : Dev :=
  (((d.emuUnhold b).put (AXIS_EMU_RATIO_M_M b) m).put (AXIS_EMU_RATIO_N_N b) n).modEmu b (fun x => { x with newRatio := some (m, n) })

theorem ratioWaits_shows (d : Dev) {b m n : Nat} (hm : m < 2 ^ 24) (hn : n < 2 ^ 24) :
    (d.ratioWaits b m n).get (AXIS_EMU_RATIO_M_M b) = m ∧ (d.ratioWaits b m n).get (AXIS_EMU_RATIO_N_N b) = n := by
  have hap : (AXIS_EMU_RATIO_N_N b).apart (AXIS_EMU_RATIO_M_M b) := axis_apart (k := 0x508) (l := 0x504) (.inl (by decide))
  unfold Dev.ratioWaits
  rw [Dev.modEmu_get, Dev.modEmu_get, Dev.get_put_same _ _ _ (fit rfl), Dev.get_put_ne _ _ (fit rfl) hap, Dev.get_put_same _ _ _ (fit rfl)]
  exact ⟨Nat.mod_eq_of_lt hm, Nat.mod_eq_of_lt hn⟩

theorem ratioWaits_emu (d : Dev) (b m n : Nat) : (d.ratioWaits b m n).emu b = { d.emu b with newRatio := some (m, n) } := Dev.emu_modEmu_same _ _ _

theorem ratioWaits_frame (d : Dev) (b m n : Nat) :
    Dev.Frame [.emus, .heldHi] [AXIS_EMU_RATIO_M_M b, AXIS_EMU_RATIO_N_N b] d (d.ratioWaits b m n) :=
  (((emuUnhold_frame d b).mono (by simp) (by simp)).trans (Dev.put_frame _ _ _ _ (fit rfl) (by simp))).trans
    ((Dev.put_frame _ _ _ _ (fit rfl) (by simp)).trans (Dev.modEmu_frame _ _ _ _ (by simp)))

section
variable {d : Dev} {b v : Nat} (hv : v < 2 ^ 24)
include hv

theorem emuRatioN_off (hon : d.flag (AXIS_EMU_CFG_EN b) = false) : d.emuRatioN b v = d.put (AXIS_EMU_RATIO_N_N b) v := by
  rw [Dev.emuRatioN, hon, Nat.mod_eq_of_lt hv]
  rfl

theorem emuRatioN_on (hon : d.flag (AXIS_EMU_CFG_EN b) = true) : d.emuRatioN b v =
    if 1 ≤ d.emuM b ∧ d.emuM b ≤ v then d.ratioWaits b (d.emuM b) v else (d.emuUnhold b).raise (AXIS_EMU_STATUS_RATIO_ERR b) := by
  have hm : (if (Tab.get 0 d.heldHi (AXIS_EMU_RATIO_M b)).toNat ≠ 0 then (Tab.get 0 d.heldHi (AXIS_EMU_RATIO_M b)).toNat % 2 ^ 24
      else d.get (AXIS_EMU_RATIO_M_M b)) = d.emuM b := ite_not _ _ _
  rw [Dev.emuRatioN, hon, Nat.mod_eq_of_lt hv]
  dsimp only
  rw [hm]
  rfl

end

end Sys2Proof.Machine
end

section
/-! PROOF. Emulators: the outputs and the slave answers (R114, R115, R118 to R123). -/

namespace Sys2Proof.Machine

/-! ## A refused ratio (R111) -/

theorem ratioRefused_shows (d : Dev) (b : Nat) : ((d.emuUnhold b).raise (AXIS_EMU_STATUS_RATIO_ERR b)).get (AXIS_EMU_STATUS_RATIO_ERR b) = 1 :=
  get_raise _ _ rfl (fit rfl)

theorem ratioRefused_frame (d : Dev) (b : Nat) :
    Dev.Frame [.heldHi] [AXIS_EMU_STATUS_RATIO_ERR b] d ((d.emuUnhold b).raise (AXIS_EMU_STATUS_RATIO_ERR b)) :=
  ((emuUnhold_frame d b).mono (fun _ => id) (by simp)).trans (Dev.raise_frame _ _ _ (fit rfl) (by simp))

/-- R111: a ratio that waits is in force from the next source count on. -/
theorem takeRatio_of_some {x : Emu} {m n : Nat} (h : x.newRatio = some (m, n)) :
    x.takeRatio = { x with acc := x.acc * n / x.n, m := m, n := n, newRatio := none } := by rw [Emu.takeRatio, h]

/-! ## The outputs (R114, R115) -/

theorem emuZ_eq (d : Dev) (b : Nat) : d.emuZ b = (decide (d.get (AXIS_EMU_ZCFG_ZPERIOD b) ≠ 0) && d.flag (AXIS_EMU_CFG_ZEN b) &&
    decide ((d.emu b).c % (d.get (AXIS_EMU_ZCFG_ZPERIOD b) : Int) = d.get (AXIS_EMU_ZCFG_ZPOS b))) := by
  rw [Dev.emuZ, decide_not, ← beq_eq_decide, ← beq_eq_decide]
  rfl

theorem emuOut_empty {d : Dev} {b : Nat} (h : (d.emu b).backlog = []) : d.emuOut b = d := by rw [Dev.emuOut, h]

/-- R114: the outputs have stood still for 32 ticks. -/
def Emu.rested (x : Emu) (tick : Nat) : Bool := x.lastOut.all (fun l => decide (l + 32 ≤ tick))

theorem rested_iff {x : Emu} {tick : Nat} : x.rested tick = true ↔ ∀ l, x.lastOut = some l → l + 32 ≤ tick := by
  simp [Emu.rested, Option.all_eq_true]

/-- R114: the waiting count `e` goes out at `tick`, and `r` still waits. -/
def Emu.stepped (x : Emu) (e : EmuDue) (r : List EmuDue) (tick : Nat) : Emu :=
  { x with backlog := r, out := quadNext x.out e.up, shown := e.c, lastOut := some tick,
           ahead := if e.early then (if e.up then x.ahead + 1 else x.ahead - 1) else x.ahead }

theorem emuOut_cons {d : Dev} {b : Nat} {e : EmuDue} {r : List EmuDue} (h : (d.emu b).backlog = e :: r) : d.emuOut b =
    if d.tb.running = true ∧ e.due ≤ d.tick ∧ (d.emu b).rested d.tick = true then d.modEmu b (fun x => x.stepped e r d.tick) else d := by
  rw [Dev.emuOut, h, Emu.rested]
  cases (d.emu b).lastOut <;> rfl

theorem emuOut_waits {d : Dev} {b : Nat} {e : EmuDue} {r : List EmuDue} (h : (d.emu b).backlog = e :: r)
    (hw : d.tick < e.due ∨ ∃ l, (d.emu b).lastOut = some l ∧ d.tick < l + 32) : d.emuOut b = d := by
  rw [emuOut_cons h, if_neg]
  rintro ⟨-, hdue, hrest⟩
  obtain h | ⟨l, hl, h⟩ := hw
  · exact absurd hdue (by omega)
  · exact absurd (rested_iff.1 hrest l hl) (by omega)

theorem emuOut_steps {d : Dev} {b : Nat} {e : EmuDue} {r : List EmuDue} (h : (d.emu b).backlog = e :: r) (hrun : d.tb.running = true)
    (hdue : e.due ≤ d.tick) (hrest : ∀ l, (d.emu b).lastOut = some l → l + 32 ≤ d.tick) : d.emuOut b = d.modEmu b (fun x => x.stepped e r d.tick) := by
  rw [emuOut_cons h, if_pos ⟨hrun, hdue, rested_iff.2 hrest⟩]

/-! ## The answer frame (R119 to R121) -/

/-- R119: C as it stands, where nothing is extrapolated and no count has come since the falling edge was on the lane. -/
theorem emuCAt_plain {d : Dev} {b : Nat} (f : Nat) (hsm : d.flag (AXIS_EMU_CFG_SMOOTH b) = false) (hrec : (d.emu b).recent = []) :
    d.emuCAt b f = (d.emu b).c := by
  simp [Dev.emuCAt, Dev.emuPast, hsm, hrec]

/-- R120: an SSI answer is the low bits of C. -/
theorem slaveFrame_ssi {d : Dev} {b : Nat} (f : Nat) (hm : d.get (AXIS_EMU_CFG_SLAVE b) = 1) (hsm : d.flag (AXIS_EMU_CFG_SMOOTH b) = false)
    (hrec : (d.emu b).recent = []) (herr : d.flag (AXIS_EMU_SLVCFG_ERR_EN b) = false) (hgray : d.flag (AXIS_EMU_SLVCFG_GRAY b) = false) :
    d.slaveFrame b f = bitsOf (clampN 8 48 (d.get (AXIS_EMU_SLVCFG_NBITS b))) (uns (clampN 8 48 (d.get (AXIS_EMU_SLVCFG_NBITS b))) (d.emu b).c) := by
  simp [Dev.slaveFrame, hm, herr, hgray, emuCAt_plain f hsm hrec]

/-- R121: an SPF answer is a start bit, the sync field, the header, the position, the status and the CRC. -/
theorem slaveFrame_spf {d : Dev} {b : Nat} (f : Nat) (hm : d.get (AXIS_EMU_CFG_SLAVE b) ≠ 1) :
    (d.slaveFrame b f).length = 40 + spfLen (d.get (AXIS_EMU_SLVCFG_SPFLEN b)) ∧
    (d.slaveFrame b f).take 8 = [true, true, true, false, true, true, false, false] := by
  rw [Dev.slaveFrame, if_neg hm]
  refine ⟨?_, ?_⟩
  · simp only [List.length_append, bitsOf_length, List.length_cons, List.length_nil]
    omega
  · simp only [List.append_assoc]
    rfl

/-! ## The slave (R118, R120, R122) -/

theorem slaveStart_off {d : Dev} {b : Nat} (h : d.get (AXIS_EMU_CFG_SLAVE b) = 0) : d.slaveStart b = d := if_neg fun hc => hc.1 h

theorem slaveStart_busy {d : Dev} {b : Nat} {l : List Bool} (h : (d.emu b).frame = some l) : d.slaveStart b = d :=
  if_neg fun hc => by rw [h] at hc; exact absurd hc.2.1 (Option.some_ne_none l)

/-- R118, R119: the slave in `mode` answers a falling clock edge with `fr`. -/
def Emu.answering (x : Emu) (mode : Nat) (fr : List Bool) : Emu :=
  { x with clk := false, frame := some fr, data := decide (mode ≠ 1), seq := if mode = 2 then (x.seq + 1) % 16 else x.seq }

theorem slaveStart_answers {d : Dev} {b : Nat} (hm : d.get (AXIS_EMU_CFG_SLAVE b) ≠ 0) (hf : (d.emu b).frame = none) (hdat : (d.emu b).data = true)
    (hclk : (d.emu b).clk = true) (hrun : d.tb.running = true) :
    d.slaveStart b = d.modEmu b (fun x => x.answering (d.get (AXIS_EMU_CFG_SLAVE b)) (d.slaveFrame b (d.tick - 2))) :=
  if_pos ⟨hm, hf, hdat, hclk, hrun⟩

theorem slaveClock_off {d : Dev} {b : Nat} (r : Bool) (h : d.get (AXIS_EMU_CFG_SLAVE b) = 0) : d.slaveClock b r = d := if_pos h

/-- R120: what a rising clock edge at `tick` does to the slave. -/
def Emu.risen (x : Emu) (tick : Nat) : Emu :=
  { x with clk := true, clkHigh := tick, frame := x.frame.map (fun l => l.drop 1),
           data := match x.frame with
             | some (l :: _) => l
             | some [] => false
             | none => x.data }

theorem slaveClock_rises {d : Dev} {b : Nat} (h : d.get (AXIS_EMU_CFG_SLAVE b) ≠ 0) : d.slaveClock b true = d.modEmu b (fun x => x.risen d.tick) := if_neg h

theorem risen_data {x : Emu} {l : List Bool} (h : x.frame = some l) (tick : Nat) :
    (x.risen tick).data = l.head?.getD false ∧ (x.risen tick).frame = some (l.drop 1) := by
  unfold Emu.risen
  rw [h]
  cases l <;> exact ⟨rfl, rfl⟩

theorem slaveClock_falls {d : Dev} {b : Nat} {l : List Bool} (h : d.get (AXIS_EMU_CFG_SLAVE b) ≠ 0) (hf : (d.emu b).frame = some l) :
    d.slaveClock b false = d.modEmu b (fun x => { x with clk := false }) := by
  rw [Dev.slaveClock, if_neg h, if_neg Bool.false_ne_true, hf, if_neg (Option.some_ne_none l)]

/-! ## The end of an answer (R122) -/

/-- R122: TM µs in ticks. -/
def Dev.slaveTm (d : Dev) (b : Nat) : Nat := 800 * clampN 1 1000 (d.get (AXIS_EMU_SLVCFG_TM b))

theorem slaveTimeout_idle {d : Dev} {b : Nat} (h : (d.emu b).frame = none) : d.slaveTimeout b = d := by rw [Dev.slaveTimeout, h]

theorem slaveTimeout_some {d : Dev} {b : Nat} {l : List Bool} (h : (d.emu b).frame = some l) : d.slaveTimeout b =
    if (d.emu b).clk = true ∧ (d.emu b).clkHigh + d.slaveTm b ≤ d.tick then
      (d.modEmu b (fun x => { x with frame := none, data := true })).incSat (if l = [] then AXIS_EMU_SLVCNT_ANSWERED b else AXIS_EMU_SLVCNT_ABORTED b)
    else d := by
  rw [Dev.slaveTimeout, h, Dev.slaveTm, Nat.mul_comm, apply_ite (Dev.incSat _)]
  rfl

theorem slaveTimeout_waits {d : Dev} {b : Nat} {l : List Bool} (h : (d.emu b).frame = some l)
    (hw : (d.emu b).clk = false ∨ d.tick < (d.emu b).clkHigh + d.slaveTm b) : d.slaveTimeout b = d := by
  rw [slaveTimeout_some h, if_neg]
  rintro ⟨hclk, hle⟩
  obtain h | h := hw
  · exact absurd (h.symm.trans hclk) Bool.false_ne_true
  · omega

/-- A counter of 16 bits that is not counted stays as it is. -/
theorem get_min16 (d : Dev) {f : Fld} (hf : f.w = 16) : d.get f = min (d.get f + 0) 65535 := by
  have := Dev.get_lt d f
  rw [hf] at this
  omega

/-- R122: the answer is over: the slave is idle, and its answer or its abort is counted. -/
theorem slaveTimeout_ends {d : Dev} {b : Nat} {l : List Bool} (h : (d.emu b).frame = some l) (hclk : (d.emu b).clk = true)
    (hle : (d.emu b).clkHigh + d.slaveTm b ≤ d.tick) :
    (d.slaveTimeout b).emu b = { d.emu b with frame := none, data := true } ∧
    (d.slaveTimeout b).get (AXIS_EMU_SLVCNT_ANSWERED b) = min (d.get (AXIS_EMU_SLVCNT_ANSWERED b) + b2n (decide (l = []))) 65535 ∧
    (d.slaveTimeout b).get (AXIS_EMU_SLVCNT_ABORTED b) = min (d.get (AXIS_EMU_SLVCNT_ABORTED b) + b2n (decide (l ≠ []))) 65535 ∧
    Dev.Frame [.emus] [AXIS_EMU_SLVCNT_ANSWERED b, AXIS_EMU_SLVCNT_ABORTED b] d (d.slaveTimeout b) := by
  have hap : (AXIS_EMU_SLVCNT_ANSWERED b).apart (AXIS_EMU_SLVCNT_ABORTED b) := .inr (.inl (Nat.le_refl 16))
  have hidle : ((d.modEmu b (fun x => { x with frame := none, data := true })).emu b) = { d.emu b with frame := none, data := true } :=
    Dev.emu_modEmu_same _ _ _
  rw [slaveTimeout_some h, if_pos ⟨hclk, hle⟩]
  by_cases hl : l = []
  · rw [if_pos hl]
    refine ⟨hidle, by rw [get_incSat _ (fit rfl), decide_eq_true hl]; rfl, ?_, (Dev.modEmu_frame _ _ _ _ (by simp)).trans (Dev.incSat_frame _ _ _ (fit rfl) (by simp))⟩
    rw [Dev.incSat, Dev.addSat, Dev.get_put_ne _ _ (fit rfl) hap, Dev.modEmu_get, hl]
    exact get_min16 d rfl
  · rw [if_neg hl]
    refine ⟨hidle, ?_, by rw [get_incSat _ (fit rfl), decide_eq_true hl]; rfl, (Dev.modEmu_frame _ _ _ _ (by simp)).trans (Dev.incSat_frame _ _ _ (fit rfl) (by simp))⟩
    rw [Dev.incSat, Dev.addSat, Dev.get_put_ne _ _ (fit rfl) (Fld.apart_symm hap), Dev.modEmu_get, decide_eq_false hl]
    exact get_min16 d rfl

/-! ## The theorem -/

theorem emuCfg_allowed {v : Word} (h : bits v.toNat 6 2 ≠ 3) :
    badValue ⟨0x100, 0x10000020, 0xFF7F0FF3, 0x0, 0x0, 0x0, [(6, 2, 3)]⟩ (v ||| 1).toNat = false := by
  have hlt : bits v.toNat 6 2 < 4 := Nat.mod_lt _ (by decide)
  simp only [badValue, List.any_cons, List.any_nil, Bool.or_false, bits_or_one v 2 (lo := 6) (by decide), decide_eq_false_iff_not]
  omega

theorem lt_of_masked24 {v : Word} (h : v &&& 0xFFFFFF = v) : v.toNat < 2 ^ 24 := by
  rw [← h, BitVec.toNat_and]
  exact Nat.lt_of_le_of_lt Nat.and_le_right (by decide)

/-- Settles O31: EN by whether it is already set, allowed or refused; the ratio likewise; the outputs and the slave by the guards of their steps. -/
theorem emulatorsDivideAndAnswer : Obligations.EmulatorsDivideAndAnswer := by
  unfold Obligations.EmulatorsDivideAndAnswer
  refine ⟨fun m n acc up hm h0 hn => ?_, fun s w a => ?_⟩
  · cases up with
    | true =>
      obtain ⟨hlo, hhi, hsum⟩ := divStep_up hm h0 hn
      exact ⟨hlo, hhi, fun _ => hsum, nofun⟩
    | false =>
      obtain ⟨hlo, hhi, hsum⟩ := divStep_down hm h0 hn
      exact ⟨hlo, hhi, nofun, fun _ => hsum⟩
  intro x on m n
  have hout {e : Dev} (h : s.dev.emuOut a = e) : exec (.emuOutputEdge a) s = .next { s with dev := e } := onDev_of (f := fun d => d.emuOut a) h
  have hstart {e : Dev} (h : s.dev.slaveStart a = e) : exec (.slaveFrameStart a) s = .next { s with dev := e } :=
    onDev_of (f := fun d => d.slaveStart a) h
  have hclock {e : Dev} {r : Bool} (h : s.dev.slaveClock a r = e) : exec (.slaveClockEdge a r) s = .next { s with dev := e } :=
    onDev_of (f := fun d => d.slaveClock a r) h
  have htime {e : Dev} (h : s.dev.slaveTimeout a = e) : exec (.slaveIdleTimeout a) s = .next { s with dev := e } :=
    onDev_of (f := fun d => d.slaveTimeout a) h
  refine ⟨fun v ht hmask hbad => ?_, emuZ_eq s.dev a, fun v ht hmask => ?_, fun h => hout (emuOut_empty h), fun e r h => ?_, ?_,
    fun h => htime (slaveTimeout_idle h), fun l hl => ?_⟩
  · obtain ⟨hwaits, hland⟩ := lands_AXIS_EMU_CFG a (v ||| 1) (writerOf_rank w) ht (or_one_masked hmask (by decide)) (emuCfg_allowed hbad)
    have hexec : exec (.emuEnable w a v) s = .next { s with dev := s.dev.awaiting (writerOf w) (AXIS_EMU_CFG a) (v ||| 1) } := onDev_of hwaits
    have hlands : lands s { s with dev := s.dev.awaiting (writerOf w) (AXIS_EMU_CFG a) (v ||| 1) }
        { s with dev := s.dev.emuCfg a (v ||| 1).toNat } := ⟨(Dev.late_frame _ _ _ (by simp)).lift, by rw [State.landed, hland]⟩
    refine ⟨fun hon => ?_, fun hon h1 hle => ?_, fun hon h => ?_⟩
    · obtain ⟨hword, hframe⟩ := emuCfg_on_result v hon
      exact ⟨_, _, hexec, hlands, hword, hframe.lift⟩
    · obtain ⟨hword, hemu, hothers, hframe⟩ := emuCfg_starts_result v hon h1 hle
      refine ⟨_, _, hexec, hlands, hword, ?_⟩
      dsimp only
      rw [hemu]
      have hacc : (min (s.dev.get (AXIS_EMU_PHASE_PHASE a) : Int) (n - 1) : Int) = (min (s.dev.get (AXIS_EMU_PHASE_PHASE a)) (n - 1) : Nat) := by
        push_cast [Nat.cast_pred (Nat.le_trans h1 hle)]
        rfl
      exact ⟨hacc, rfl, rfl, rfl, rfl, rfl, hothers, hframe.lift⟩
    · obtain ⟨hen, herr, hword, hframe⟩ := emuCfg_refuses_result v hon h
      exact ⟨_, _, hexec, hlands, hen, herr, hword, hframe.lift⟩
  · have hv := lt_of_masked24 hmask
    have hexec {e : Dev} (he : s.dev.emuRatioN a v.toNat = e) : exec (.emuRatioNWrite w a v) s = .next { s with dev := e } :=
      onDev_of ((regWrite_AXIS_EMU_RATIO_N a v (writerOf_ne w) ht hmask).trans he)
    intro held mN
    refine ⟨fun hon => ⟨_, hexec (emuRatioN_off hv hon), ?_, (Dev.put_frame _ _ _ _ (fit rfl) (by simp)).lift⟩, fun hon h1 hle => ?_, fun hon h => ?_⟩
    · exact (Dev.get_put_same _ _ _ (fit rfl)).trans (Nat.mod_eq_of_lt hv)
    · obtain ⟨hm, hn⟩ := ratioWaits_shows s.dev (b := a) (emuM_lt s.dev a) hv
      have hemu := ratioWaits_emu s.dev a mN v.toNat
      have htake := takeRatio_of_some (congrArg Emu.newRatio hemu)
      refine ⟨_, hexec ((emuRatioN_on hv hon).trans (if_pos ⟨h1, hle⟩)), hm, hn, hemu, congrArg Emu.m htake, congrArg Emu.n htake, ?_,
        (ratioWaits_frame _ _ _ _).lift⟩
      refine (congrArg Emu.acc htake).trans ?_
      rw [hemu]
    · have hno : ¬ (1 ≤ s.dev.emuM a ∧ s.dev.emuM a ≤ v.toNat) := fun ⟨h1, hle⟩ =>
        h.elim (fun h0 : s.dev.emuM a = 0 => by omega) (fun hlt : v.toNat < s.dev.emuM a => by omega)
      exact ⟨_, hexec ((emuRatioN_on hv hon).trans (if_neg hno)), ratioRefused_shows s.dev a, (ratioRefused_frame s.dev a).lift⟩
  · refine ⟨fun hw => hout (emuOut_waits h hw), fun hrun hdue hrest => ⟨_, hout (emuOut_steps h hrun hdue hrest), ?_⟩⟩
    have hemu := Dev.emu_modEmu_same s.dev a (fun x => x.stepped e r s.dev.tick)
    dsimp only
    rw [hemu]
    exact ⟨rfl, rfl, rfl, rfl, rfl, rfl, fun k hk => Dev.emu_modEmu_ne _ _ hk, (Dev.modEmu_frame _ _ _ _ (by simp)).lift⟩
  · intro mode
    refine ⟨fun h => ⟨hstart (slaveStart_off h), fun r => hclock (slaveClock_off r h)⟩, fun h hf hdat hclk hrun => ?_, fun h l hl => ?_⟩
    · refine ⟨_, hstart (slaveStart_answers h hf hdat hclk hrun), ?_⟩
      have hemu := Dev.emu_modEmu_same s.dev a (fun x => x.answering mode (s.dev.slaveFrame a (s.dev.tick - 2)))
      dsimp only
      rw [hemu]
      exact ⟨⟨_, rfl, fun h1 hsm hrec herr hgray => slaveFrame_ssi _ h1 hsm hrec herr hgray, fun hne => slaveFrame_spf _ hne⟩, rfl, rfl, rfl, rfl,
        (Dev.modEmu_frame _ _ _ _ (by simp)).lift⟩
    · obtain ⟨hdata, hrest⟩ := risen_data hl s.dev.tick
      have hemu := Dev.emu_modEmu_same s.dev a (fun x => x.risen s.dev.tick)
      refine ⟨hstart (slaveStart_busy hl), ⟨_, hclock (slaveClock_rises h), ?_⟩, ⟨_, hclock (slaveClock_falls h hl), Dev.emu_modEmu_same _ _ _,
        (Dev.modEmu_frame _ _ _ _ (by simp)).lift⟩⟩
      dsimp only
      rw [hemu]
      exact ⟨rfl, rfl, hdata, hrest, (Dev.modEmu_frame _ _ _ _ (by simp)).lift⟩
  · intro tm
    refine ⟨fun hw => htime (slaveTimeout_waits hl hw), fun hclk hle => ?_⟩
    obtain ⟨hemu, hans, habort, hframe⟩ := slaveTimeout_ends hl hclk hle
    exact ⟨_, htime rfl, hemu, hans, habort, hframe.lift⟩

end Sys2Proof.Machine
end

section
/-! PROOF. Slots: what a message of the axis does to them (R101 to R104, R141, R142). -/

namespace Sys2Proof.Machine

/-! ## One slot -/

/-- R103: the slot's key lies beyond the span. -/
def Slot.beyond (x : Slot) (v : AxView) : Prop := if v.rev = true then x.e.key < v.t16 - v.span else v.t16 + v.span < x.e.key

theorem held_hold {x : Slot} {m : AxMsg} (now : Int) (hm : m.hold = true) (hx : x.kind = 1) (h : m.all = true ∨ x.beyond m.view) :
    x.held m now = if now + 4 ≤ x.f / 64 then { x with kind := 2, late := false, ideal := none } else { x with clamp := true } := by
  have hb : m.all = true ∨ (if m.view.rev = true then decide (x.e.key < m.view.t16 - m.view.span)
      else decide (m.view.t16 + m.view.span < x.e.key)) = true :=
    h.imp_right fun h => by unfold Slot.beyond at h; split at h <;> simp [*]
  rw [Slot.held, if_pos ⟨hm, hx, hb⟩]

theorem held_ext {x : Slot} {m : AxMsg} (now : Int) (hm : m.hold = false) (hv : m.view.ext = true) : x.held m now = x := by
  rw [Slot.held, if_neg (by simp [hm]), if_neg (by simp [hv])]

theorem held_fixed {x : Slot} (m : AxMsg) (now : Int) (hx : x.kind = 0) : x.held m now = x := by
  rw [Slot.held, if_neg (by simp [hx]), if_neg (by simp [hx])]

section
variable {x : Slot} {m : AxMsg} {t0 lead : Int} {now : Nat} (hrev : m.rev = false)
include hrev

/-- A slot that has been sent to its key, by a HOLD of now or of before, waits for it. -/
theorem told_waiting (hedge : m.edge = false) (hjump : m.jump = false) (hk : (x.held m now).kind = 2) : x.told m t0 now lead = some (x.held m now) := by
  simp [Slot.told, hrev, hk, hedge, hjump]

/-- A timed slot that has no new aim stays as the HOLD leaves it. -/
theorem told_kept (hk : (x.held m now).kind ≠ 2)
    (h : (x.held m now).kind ≠ 1 ∨ m.hold = true ∨ (x.held m now).f / 64 < (now : Int) + 4) : x.told m t0 now lead = some (x.held m now) := by
  simp only [Slot.told, hrev, hk, Bool.false_eq_true, false_and, if_false]
  refine if_neg fun ⟨h1, h2, h3⟩ => ?_
  obtain h | h | h := h
  · exact h h1
  · exact h2 h
  · omega

/-- R101, R141: a timed slot that is told at least 4 ticks ahead is aimed anew, or fires now. -/
theorem told_aims (hk : x.kind = 1) (hm : m.hold = false) (hv : m.view.ext = true) (hf : (now : Int) + 4 ≤ x.f / 64)
    (hp : x.e.passed m.view now = false) {p : Int} (hpr : m.view.predict x.e.key = some p) :
    x.told m t0 now lead = some (if p / 64 ≤ now then x.fireNow ((now * 64 : Nat) : Int) lead (some p) else x.aim p lead) := by
  simp [Slot.told, hrev, held_ext _ hm hv, hk, hm, hf, hp, hpr, apply_ite some]

/-- R142: only a REV sends a slot's entry back. -/
theorem told_some : (x.told m t0 now lead).isNone = false := by
  rw [Slot.told, if_neg (by simp [hrev])]
  dsimp only
  repeat' split
  all_goals rfl

end

theorem told_hold {x : Slot} {m : AxMsg} (t0 lead : Int) (now : Nat) (hrev : m.rev = false) (hedge : m.edge = false) (hjump : m.jump = false)
    (hm : m.hold = true) (hx : x.kind = 1) (h : m.all = true ∨ x.beyond m.view) : x.told m t0 now lead =
    some (if (now : Int) + 4 ≤ x.f / 64 then { x with kind := 2, late := false, ideal := none } else { x with clamp := true }) := by
  have hheld := held_hold now hm hx h
  rw [← hheld]
  by_cases hf : (now : Int) + 4 ≤ x.f / 64
  · exact told_waiting hrev hedge hjump (by rw [hheld, if_pos hf])
  · refine told_kept hrev ?_ (.inr (.inl hm))
    rw [hheld, if_neg hf]
    exact fun h => absurd (hx.symm.trans h) (by decide)

/-! ## The message arrives -/

/-- The message that is next for axis `a` of slice `q`. -/
def Dev.nextMsg (d : Dev) (q a : Nat) : Option AxMsg := d.msgs.find? (fun m => m.q == q && m.a == a)

theorem axArrive_none {d : Dev} {q a : Nat} (hold : Bool) (h : d.nextMsg q a = none) : d.axArrive q a hold = d := by
  rw [Dev.axArrive, show d.msgs.find? _ = none from h]

theorem axArrive_waits {d : Dev} {q a : Nat} {m : AxMsg} {hold : Bool} (h : d.nextMsg q a = some m) (hw : d.tick < m.due ∨ m.hold = !hold) :
    d.axArrive q a hold = d := by
  rw [Dev.axArrive, show d.msgs.find? _ = some m from h]
  exact if_pos (hw.imp_right fun h => by rw [h]; cases hold <;> decide)

/-- R101, R141, R142: the slots of slice `q` after message `m` of axis `a`. -/
def Dev.slotsTold (d : Dev) (q a : Nat) (m : AxMsg) : List Slot :=
  (d.slice q).slots.filterMap (fun x => if x.e.ktype = 1 ∧ x.e.axis = a
    then x.told m (d.view q a).t16 d.now ((d.stimeAt (x.a + 256) * 64 : Nat) : Int) else some x)

/-- The slice after a message of axis `a` that shows `v`: its slots, its calendar and its insertion queue are those given. -/
def Slice.heard (s : Slice) (a : Nat) (v : AxView) (slots : List Slot) (cal : List (Bucket × Entry)) (insq : List InsReq) : Slice :=
  { s with slots, views := Tab.set {} s.views a v, cal, insq }

section
variable {d : Dev} {q a : Nat} {m : AxMsg} (h : d.nextMsg q a = some m) (hdue : m.due ≤ d.tick)
include h hdue

/-- An arrival takes the message, sets the view, and tells the slots. -/
theorem axArrive_arrives : ∃ (cal : Slice → List (Bucket × Entry)) (insq : Slice → List InsReq), d.axArrive q a m.hold =
    ({ d with msgs := removeFirst m d.msgs } : Dev).modSlice q (fun s => s.heard a m.view (d.slotsTold q a m) (cal s) (insq s)) ∧
    (m.jump = false → cal (d.slice q) = (d.slice q).cal) ∧ (m.rev = false → insq (d.slice q) = (d.slice q).insq) := by
  have hslots : (d.slice q).slots.filterMap (fun x => if (x.e.ktype == 1 && x.e.axis == a) = true
      then x.told m (d.view q a).t16 d.now ((d.stimeAt (x.a + 256) * 64 : Nat) : Int) else some x) = d.slotsTold q a m := by
    simp only [Dev.slotsTold, Bool.and_eq_true, beq_iff_eq]
  rw [Dev.axArrive, show d.msgs.find? _ = some m from h]
  dsimp only
  rw [if_neg (not_or.2 ⟨Nat.not_lt.2 hdue, fun h => h rfl⟩), ← hslots]
  refine ⟨_, _, rfl, fun hjump => ?_, fun hrev => ?_⟩
  · simp [hjump]
  · simp [told_some hrev]

/-- R101, R103: an arrival is of this slice and this axis. -/
theorem axArrive_result :
    let e := d.axArrive q a m.hold
    e.msgs = removeFirst m d.msgs ∧ e.view q a = m.view ∧ (∀ b, b ≠ a → e.view q b = d.view q b) ∧
    (e.slice q).slots = d.slotsTold q a m ∧ (e.slice q).hor = (d.slice q).hor ∧ (m.jump = false → (e.slice q).cal = (d.slice q).cal) ∧
    (m.rev = false → (e.slice q).insq = (d.slice q).insq) ∧ (∀ k, k ≠ q → e.slice k = d.slice k) ∧ Dev.Frame [.slices, .msgs] [] d e := by
  intro e
  obtain ⟨cal, insq, he, hcal, hinsq⟩ := axArrive_arrives h hdue
  have he : e = _ := he
  have hs : e.slice q = (d.slice q).heard a m.view (d.slotsTold q a m) (cal (d.slice q)) (insq (d.slice q)) := by
    rw [he]
    exact Dev.slice_modSlice_same _ _ _
  refine ⟨by rw [he]; rfl, ?_, fun b hb => ?_, congrArg Slice.slots hs, (congrArg Slice.hor hs :),
    fun hj => (congrArg Slice.cal hs).trans (hcal hj), fun hr => (congrArg Slice.insq hs).trans (hinsq hr), fun k hk => ?_, ?_⟩
  · rw [Dev.view, hs]
    exact Tab.get_set_same _ _ _ _
  · rw [Dev.view, hs]
    exact Tab.get_set_ne _ _ _ hb
  · rw [he]
    exact Dev.slice_modSlice_ne _ _ hk
  · rw [he]
    exact (Dev.msgs_frame _ _ _ (by simp)).trans (Dev.modSlice_frame _ _ _ _ (by simp))

end

end Sys2Proof.Machine
end

section
/-! PROOF. Firing: what an entry's action leaves unchanged, and who acts on a target (R131, R143, R147, R161). -/

namespace Sys2Proof.Machine

/-! ## An action spares the Coach -/

/-- The slices and the counters of slice `q` are as they were. -/
def Dev.SparesCoach (q : Nat) (d e : Dev) : Prop :=
  e.slices = d.slices ∧ ∀ f ∈ [COACH_COLLCNT_CNT q, COACH_LATECNT_CNT q, COACH_STATUS_LATE_SEEN q], e.get f = d.get f

theorem sparesCoach_refl (q : Nat) (d : Dev) : Dev.SparesCoach q d d := ⟨rfl, fun _ _ => rfl⟩

/-- The Coach's registers are the first 8 KiB of a quadrant. -/
theorem sparesCoach_of_frame {ps : List Part} {fs : List Fld} {d e : Dev} (q : Nat) (h : Dev.Frame ps fs d e) (hp : Part.slices ∉ ps)
    (hf : ∀ f ∈ fs, 0x2000 ≤ f.off % 0x8000) : Dev.SparesCoach q d e := by
  refine ⟨h.part .slices hp, fun g hg => h.get g fun f hm => .inl fun heq => ?_⟩
  have hge := hf f hm
  have hlow : g.off % 0x8000 < 0x2000 := by
    simp only [List.mem_cons, List.not_mem_nil, or_false] at hg
    obtain rfl | rfl | rfl := hg <;> simp only [COACH_COLLCNT_CNT, COACH_COLLCNT, COACH_LATECNT_CNT, COACH_LATECNT, COACH_STATUS_LATE_SEEN, COACH_STATUS] <;> omega
  omega

theorem sparesCoach_trans {q : Nat} {d e f : Dev} (h : Dev.SparesCoach q d e) (k : Dev.SparesCoach q e f) : Dev.SparesCoach q d f :=
  ⟨k.1.trans h.1, fun g hg => (k.2 g hg).trans (h.2 g hg)⟩

theorem sparesCoach_ite {q : Nat} {d a b : Dev} {c : Prop} [Decidable c] (ha : Dev.SparesCoach q d a) (hb : Dev.SparesCoach q d b) :
    Dev.SparesCoach q d (if c then a else b) := by
  split
  · exact ha
  · exact hb

section
variable (q : Nat) (d : Dev) (n t : Nat)

theorem TC_STATUS_beyond (n : Nat) : 0x2000 ≤ TC_STATUS n % 0x8000 := by unfold TC_STATUS; omega

theorem TC_CNT_beyond (n : Nat) : 0x2000 ≤ TC_CNT n % 0x8000 := by unfold TC_CNT; omega

theorem modTc_spares (f : Tc → Tc) : Dev.SparesCoach q d (d.modTc n f) :=
  sparesCoach_of_frame q (Dev.modTc_frame [] d n f (List.mem_singleton_self Part.tcs)) (by decide) nofun

theorem tcRunAll_spares (b : Bool) : Dev.SparesCoach q d (d.tcRunAll n b) :=
  sparesCoach_of_frame q (Dev.tcRunAll_frame [] d n b) (by decide) (List.forall_mem_map.2 fun m _ => TC_STATUS_beyond m)

theorem tcZeroAll_spares : Dev.SparesCoach q d (d.tcZeroAll n t) :=
  sparesCoach_of_frame q (Dev.tcZeroAll_frame d n t (List.mem_singleton_self Part.tcs)) (by decide) (List.forall_mem_map.2 fun m _ => TC_CNT_beyond m)

theorem tcStart_spares : Dev.SparesCoach q d (d.tcStart n t) := by
  unfold Dev.tcStart
  refine sparesCoach_ite (sparesCoach_refl q d) ?_
  refine sparesCoach_trans (e := if d.tcMode n = 2 then d.tcZeroAll n t else d) (sparesCoach_ite (tcZeroAll_spares q d n t) (sparesCoach_refl q d)) ?_
  exact sparesCoach_trans (sparesCoach_trans (modTc_spares _ _ _ _) (tcRunAll_spares _ _ _ _)) (modTc_spares _ _ _ _)

theorem tcStop_spares : Dev.SparesCoach q d (d.tcStop n t) := by
  unfold Dev.tcStop
  exact sparesCoach_ite (sparesCoach_refl q d) (sparesCoach_trans (modTc_spares _ _ _ _) (tcRunAll_spares _ _ _ _))

theorem tcRestart_spares : Dev.SparesCoach q d (d.tcRestart n t) := by
  unfold Dev.tcRestart
  have hzero : Dev.SparesCoach q d ((d.tcZeroAll n t).tcResidue n t) := sparesCoach_trans (tcZeroAll_spares q d n t) (modTc_spares _ _ _ _)
  exact sparesCoach_ite (sparesCoach_refl q d)
    (sparesCoach_ite hzero (sparesCoach_trans hzero (sparesCoach_trans (modTc_spares _ _ _ _) (tcRunAll_spares _ _ _ _))))

theorem tcCapture_spares (c : Nat) (a : Stamp) : Dev.SparesCoach q d (d.tcCapture n t c a) := by
  refine sparesCoach_of_frame q (ps := [.tcs, .quads, .xev]) (fs := (d.tcMembers n).map TC_STATUS_CAPOVF ++ (d.tcMembers n).map TC_STATUS_CAPOVFCNT)
    (Dev.tcCapture_frame d n t c a (by decide) (by decide) (by decide) fun m hm =>
      ⟨List.mem_append_left _ (List.mem_map_of_mem hm), List.mem_append_right _ (List.mem_map_of_mem hm)⟩) (by decide) ?_
  exact List.forall_mem_append.2 ⟨List.forall_mem_map.2 fun m _ => TC_STATUS_beyond m, List.forall_mem_map.2 fun m _ => TC_STATUS_beyond m⟩

/-- R184: channel `n` notes its trigger of tick `t`, and counts it where triggers are its source. -/
def Dev.tcNoted (d : Dev) (n t : Nat) : Dev :=
  let e := d.modTc n (fun x => { x with trigTick := some t })
  if e.get (TC_CLK_SRC n) = 5 then e.modTc n (fun x => { x with pend := x.pend ++ [(t, 1)] }) else e

theorem tcNoted_spares : Dev.SparesCoach q d (d.tcNoted n t) :=
  sparesCoach_ite (sparesCoach_trans (modTc_spares _ _ _ _) (modTc_spares _ _ _ _)) (modTc_spares _ _ _ _)

/-- R184: what the function of the trigger input does. -/
theorem tcFn_spares (fn : Nat) : Dev.SparesCoach q d (if fn = 1 then d.tcStart n t else if fn = 2 then d.tcStop n t else if fn = 3 then d.tcRestart n t
    else if fn = 4 then d.tcCapture n t 3 (d.tickStamp (n / 256) t) else d) :=
  sparesCoach_ite (tcStart_spares _ _ _ _) (sparesCoach_ite (tcStop_spares _ _ _ _) (sparesCoach_ite (tcRestart_spares _ _ _ _)
    (sparesCoach_ite (tcCapture_spares _ _ _ _ _ _) (sparesCoach_refl q _))))

/-- R184: the trigger input acts on its channel's chain, and counts a merge in the crossbar. -/
theorem tcTrigger_spares : Dev.SparesCoach q d (d.tcTrigger n t) := by
  have hmerge (e : Dev) : Dev.SparesCoach q e (e.incSat (XBAR_MERGE_CNT (n / 256))) :=
    sparesCoach_of_frame q (Dev.incSat_frame [] e _ (fit rfl) (List.mem_singleton_self _)) (by decide)
      (by simp only [List.mem_singleton, forall_eq, XBAR_MERGE_CNT, XBAR_MERGE]; omega)
  unfold Dev.tcTrigger
  refine sparesCoach_ite (sparesCoach_refl q d) (sparesCoach_ite (sparesCoach_ite (sparesCoach_refl q d) (sparesCoach_trans (modTc_spares _ _ _ _) (hmerge _))) ?_)
  exact sparesCoach_trans (e := d.tcNoted n t) (tcNoted_spares q d n t) (tcFn_spares q _ n t _)

/-- The registers that a start or a stop of generator `n` may touch. -/
def feActFields (n : Nat) : List Fld := [whole (FE_STATUS n), FE_SUPCNT_CNT n, FE_STRCNT_CNT n, whole (FE_STATUS (n + 1)), FE_SUPCNT_CNT (n + 1),
  FE_STRCNT_CNT (n + 1), FE_IGNCNT_CNT n]

theorem feActFields_beyond : ∀ f ∈ feActFields n, 0x2000 ≤ f.off % 0x8000 := by
  simp only [feActFields, List.forall_mem_cons, List.not_mem_nil, false_implies, implies_true, and_true, whole, FE_STATUS, FE_SUPCNT_CNT, FE_SUPCNT,
    FE_STRCNT_CNT, FE_STRCNT, FE_IGNCNT_CNT, FE_IGNCNT]
  omega

theorem feStart_spares (s0 b : Nat) : Dev.SparesCoach q d (d.feStart n s0 t b) :=
  sparesCoach_of_frame q (ps := [.fes, .quads]) (fs := feActFields n) (by apply Dev.feStart_frame <;> simp [feActFields]) (by decide) (feActFields_beyond n)

theorem feStop_spares : Dev.SparesCoach q d (d.feStop n t) :=
  sparesCoach_of_frame q (ps := [.fes, .quads]) (fs := feActFields n) (by apply Dev.feStop_frame <;> simp [feActFields]) (by decide) (feActFields_beyond n)

end

/-- R131: an action on a generator, a channel or a line spares the Coach. -/
theorem entryAct_spares (q : Nat) (d : Dev) {e : Entry} (h : e.action ≤ 5) (fine status lateness : Nat) :
    Dev.SparesCoach q d (d.entryAct q e fine status lateness) := by
  unfold Dev.entryAct
  generalize e.action = a at h ⊢
  match a, h with
  | 0, _ => exact sparesCoach_refl q d
  | 1, _ => exact feStart_spares _ _ _ _ _ _
  | 2, _ => exact feStop_spares _ _ _ _
  | 3, _ => exact tcTrigger_spares _ _ _ _
  | 4, _ => exact tcCapture_spares _ _ _ _ _ _
  | 5, _ => exact sparesCoach_of_frame q (Dev.raiseEventAt_frame [] d _ _ _ _ (List.mem_singleton_self Part.xev)) (by decide) nofun

end Sys2Proof.Machine
end

section
/-! PROOF. Firing: the slot, its rivals, the counters (R143, R147, R161), and the re-aims and HOLDs assembled. -/

namespace Sys2Proof.Machine

/-! ## Rivals (R147) -/

/-- R147, R148: the entries of the other due slots that act on the same target. -/
def Dev.rivals (d : Dev) (q k : Nat) (e : Entry) : List Slot :=
  (d.slice q).slots.filter (fun y => y.id != k && y.isDue d.now && y.e.goal == e.goal)

/-- R147, R148: entry `e` of slot `k` acts: it has no target, or no rival comes before it. -/
def Dev.wins (d : Dev) (q k : Nat) (e : Entry) : Prop :=
  e.action = 0 ∨ ∀ y ∈ d.rivals q k e, e.prio < y.e.prio ∨ (e.prio = y.e.prio ∧ e.acc ≤ y.e.acc)

/-- R147: the target of an action on a generator, a channel or a line. -/
theorem goal_of_action {e : Entry} (h : e.action ≤ 5) : (e.action = 0 ∧ e.goal = none) ∨ (e.action ≠ 0 ∧ ∃ g : Nat × Nat, e.goal = some g ∧ g.1 < 6) := by
  unfold Entry.goal
  generalize e.action = a at h ⊢
  match a, h with
  | 0, _ => exact .inl ⟨rfl, rfl⟩
  | 1, _ | 2, _ | 3, _ | 4, _ | 5, _ => exact .inr ⟨by decide, _, rfl, by norm_num⟩

/-- R147: an entry is beaten where it does not win. -/
theorem slotBeaten_iff {d : Dev} {q : Nat} {x : Slot} (hq : d.quadDown q = false) (ha : x.e.action ≤ 5)
    (hfired : (d.slice q).fired.1 = d.tick + 1 → (d.slice q).fired.2 = []) : d.slotBeaten q x = true ↔ ¬ d.wins q x.id x.e := by
  unfold Dev.slotBeaten Dev.wins
  obtain ⟨h0, hg⟩ | ⟨h0, g, hg, hlt⟩ := goal_of_action ha
  · rw [hg]
    exact iff_of_false Bool.false_ne_true fun h => h (.inl h0)
  · have hmine : goalSlices q g = [q] := if_neg (by omega)
    have hnone : ((d.slice q).fired.1 == d.tick + 1 && (d.slice q).fired.2.contains g) = false := by
      rw [Bool.and_eq_false_iff, beq_eq_false_iff_ne]
      exact or_iff_not_imp_left.2 fun h => by rw [hfired (not_not.1 h)]; rfl
    rw [hg]
    dsimp only
    rw [hmine, List.any_cons, List.any_nil, Bool.or_false, hnone, hq]
    simp only [Bool.false_or, Bool.not_false, Bool.true_and, List.any_eq_true, h0, false_or, Dev.rivals, hg, List.mem_filter, Entry.beats,
      Bool.and_eq_true, decide_eq_true_eq, beq_self_eq_true, bne, if_true, not_forall, exists_prop]
    refine exists_congr fun y => ?_
    constructor
    · rintro ⟨hy, ⟨⟨hid, hdue⟩, hgoal⟩, hbeats⟩
      exact ⟨⟨hy, ⟨hid, hdue⟩, hgoal⟩, by omega⟩
    · rintro ⟨⟨hy, ⟨hid, hdue⟩, hgoal⟩, hbeats⟩
      exact ⟨hy, ⟨⟨hid, hdue⟩, hgoal⟩, by omega⟩

/-! ## The slot fires (R143, R161) -/

/-- R143: slot `k` is gone, and `g` is what the slice has acted on this tick. -/
def Dev.slotGone (d : Dev) (q k : Nat) (g : Nat × Nat) : Dev :=
  d.modSlice q (fun s => { s with slots := s.slots.filter (fun y => y.id != k), fired := (d.tick + 1, [g]) })

/-- R147, R161: a collision and a late firing are counted. -/
def Dev.slotCounts (d : Dev) (q : Nat) (collide late : Bool) : Dev :=
  let e := if collide = true then d.incSat (COACH_COLLCNT_CNT q) else d
  if late = true then (e.incSat (COACH_LATECNT_CNT q)).raise (COACH_STATUS_LATE_SEEN q) else e

/-- R131: these actions do not depend on how the entry fires. -/
theorem entryAct_plain (d : Dev) (q : Nat) {e : Entry} (h : e.action ≤ 5) (fine status lateness : Nat) :
    d.entryAct q e fine status lateness = d.entryAct q e fine 0 0 := by
  unfold Dev.entryAct
  generalize e.action = a at h ⊢
  match a, h with
  | 0, _ | 1, _ | 2, _ | 3, _ | 4, _ | 5, _ => rfl

section
variable (d : Dev) (q : Nat) {e : Entry} (fine status lateness : Nat)

theorem entryAct_nop (h : e.action = 0) : d.entryAct q e fine status lateness = d := by simp only [Dev.entryAct, h]

theorem entryAct_feStart (h : e.action = 1) : d.entryAct q e fine status lateness = d.feStart (64 * q + e.target) (d.tick * 64 + fine) d.tick 0 := by
  simp only [Dev.entryAct, h]

theorem entryAct_feStop (h : e.action = 2) : d.entryAct q e fine status lateness = d.feStop (64 * q + e.target) d.tick := by simp only [Dev.entryAct, h]

theorem entryAct_tcTrigger (h : e.action = 3) : d.entryAct q e fine status lateness = d.tcTrigger (256 * q + e.target) d.tick := by simp only [Dev.entryAct, h]

theorem entryAct_tcCapture (h : e.action = 4) :
    d.entryAct q e fine status lateness = d.tcCapture (256 * q + e.target) d.tick 5 (d.tickStamp q d.tick) := by simp only [Dev.entryAct, h]

theorem entryAct_event (h : e.action = 5) :
    d.entryAct q e fine status lateness = d.raiseEventAt q (0x440 + e.target) d.tick (d.tickStamp q d.tick) := by simp only [Dev.entryAct, h]

end

theorem cancelSweep_none {d : Dev} {q : Nat} (h : (d.slice q).cancels = []) : d.cancelSweep q = d := by rw [Dev.cancelSweep, h]

theorem cmtGone_none (d : Dev) : d.cmtGone 0 = d := if_pos rfl

theorem entryRec_none {d : Dev} {q : Nat} {e : Entry} (h : e.recmode = 0) (status lateness : Nat) (st : Stamp) : d.entryRec q e status lateness st = d :=
  if_neg (by omega)

section
variable {d : Dev} {q k : Nat} (hc : (d.slice q).cancels = [])
include hc

theorem slotFire_none (h : (d.slice q).slots.find? (fun x => x.id == k) = none) : d.slotFire q k = d := by
  rw [Dev.slotFire, cancelSweep_none hc]
  dsimp only
  rw [h]

theorem slotFire_waits {x : Slot} (h : (d.slice q).slots.find? (fun x => x.id == k) = some x)
    (hw : x.isDue d.now = false ∨ d.quadDown q = true ∨ d.pw.waking = true) : d.slotFire q k = d := by
  rw [Dev.slotFire, cancelSweep_none hc]
  dsimp only
  rw [h]
  exact if_pos (hw.imp_left (by simp))

/-- R143, R147, R161: a slot that is due on this tick, of a plain entry without a record. -/
theorem slotFire_fires {x : Slot} {f : Int} (h : (d.slice q).slots.find? (fun x => x.id == k) = some x) (hdue : x.isDue d.now = true)
    (hq : d.quadDown q = false) (hwake : d.pw.waking = false) (hf : x.due = some f) (hnow : f / 64 = d.now) (hrec : x.e.recmode = 0)
    (hcar : x.e.car = none) (harm : x.e.arming = 0) (ha : x.e.action ≤ 5) (hfired : (d.slice q).fired.1 = d.tick + 1 → (d.slice q).fired.2 = []) :
    d.slotFire q k = Dev.slotCounts (if d.slotBeaten q x = true then d.slotGone q k (0, 0)
      else (d.slotGone q k (x.e.goal.getD (0, 0))).entryAct q x.e (f % 64).toNat 0 0) q (d.slotBeaten q x && x.e.action != 5) x.late := by
  have hdone : (if (d.slice q).fired.1 = d.tick + 1 then (d.slice q).fired.2 else []) = [] := ite_eq_right_iff.2 hfired
  have h6 : (x.e.action != 6) = true := bne_iff_ne.2 (by omega)
  rw [Dev.slotFire, cancelSweep_none hc]
  dsimp only
  rw [h]
  dsimp only
  rw [if_neg (by simp [hdue, hq, hwake]), hf, Option.getD_some, hnow, hdone, h6, hcar, harm]
  simp only [entryRec_none hrec, cmtGone_none, entryAct_plain _ _ ha, ite_self, lt_self_iff_false, decide_false, Bool.or_false, Bool.and_true,
    Bool.false_eq_true, if_false, List.nil_append]
  cases d.slotBeaten q x <;> rfl

end

/-! ## What the firing leaves -/

theorem slotGone_slice (d : Dev) (q k : Nat) (g : Nat × Nat) : ((d.slotGone q k g).slice q).slots = (d.slice q).slots.filter (fun y => y.id != k) ∧
    ((d.slotGone q k g).slice q).hor = (d.slice q).hor ∧ ((d.slotGone q k g).slice q).cal = (d.slice q).cal ∧
    ((d.slotGone q k g).slice q).insq = (d.slice q).insq ∧ ∀ m, m ≠ q → (d.slotGone q k g).slice m = d.slice m := by
  refine ⟨?_, ?_, ?_, ?_, fun m hm => Dev.slice_modSlice_ne _ _ hm⟩ <;> rw [Dev.slotGone, Dev.slice_modSlice_same]

theorem slotGone_frame (d : Dev) (q k : Nat) (g : Nat × Nat) : Dev.Frame [.slices] [] d (d.slotGone q k g) := Dev.modSlice_frame _ _ _ _ (by simp)

section
variable (d : Dev) (q : Nat) (collide late : Bool)

/-- The counters of a collision apart from those of a late firing. -/
theorem lateCounts_frame {fs : List Fld} (h1 : COACH_LATECNT_CNT q ∈ fs) (h2 : COACH_STATUS_LATE_SEEN q ∈ fs) :
    Dev.Frame [] fs d (if late = true then (d.incSat (COACH_LATECNT_CNT q)).raise (COACH_STATUS_LATE_SEEN q) else d) :=
  .ite (fun _ => (Dev.incSat_frame _ _ _ (fit rfl) h1).trans (Dev.raise_frame _ _ _ (fit rfl) h2)) (fun _ => .refl _ _ _)

theorem slotCounts_frame : Dev.Frame [] [COACH_COLLCNT_CNT q, COACH_LATECNT_CNT q, COACH_STATUS_LATE_SEEN q] d (d.slotCounts q collide late) :=
  (Dev.Frame.ite (fun _ => Dev.incSat_frame _ _ _ (fit rfl) (by simp)) (fun _ => .refl _ _ _)).trans (lateCounts_frame _ _ _ (by simp) (by simp))

theorem slotCounts_frame_acts : Dev.Frame [] [COACH_LATECNT_CNT q, COACH_STATUS_LATE_SEEN q] d (d.slotCounts q false late) :=
  lateCounts_frame _ _ _ (by simp) (by simp)

theorem LATECNT_apart : (COACH_LATECNT_CNT q).apart (COACH_COLLCNT_CNT q) ∧ (COACH_STATUS_LATE_SEEN q).apart (COACH_COLLCNT_CNT q) ∧
    (COACH_STATUS_LATE_SEEN q).apart (COACH_LATECNT_CNT q) := by
  refine ⟨.inl ?_, .inl ?_, .inl ?_⟩ <;>
    simp only [COACH_COLLCNT_CNT, COACH_COLLCNT, COACH_LATECNT_CNT, COACH_LATECNT, COACH_STATUS_LATE_SEEN, COACH_STATUS] <;> omega

/-- R147: COLLCNT counts a collision. -/
theorem slotCounts_coll : (d.slotCounts q collide late).get (COACH_COLLCNT_CNT q) =
    if collide = true then min (d.get (COACH_COLLCNT_CNT q) + 1) (2 ^ 32 - 1) else d.get (COACH_COLLCNT_CNT q) := by
  obtain ⟨h1, h2, -⟩ := LATECNT_apart q
  refine ((lateCounts_frame _ q late (fs := [COACH_LATECNT_CNT q, COACH_STATUS_LATE_SEEN q]) (by simp) (by simp)).get _
    (by simp [h1, h2])).trans ?_
  rw [apply_ite (Dev.get · _), get_incSat _ (fit rfl)]
  rfl

/-- R161: LATECNT and LATE_SEEN show a late firing. -/
theorem slotCounts_late : (d.slotCounts q collide true).get (COACH_LATECNT_CNT q) = min (d.get (COACH_LATECNT_CNT q) + 1) (2 ^ 32 - 1) ∧
    (d.slotCounts q collide true).get (COACH_STATUS_LATE_SEEN q) = 1 := by
  obtain ⟨h1, -, h3⟩ := LATECNT_apart q
  rw [Dev.slotCounts, if_pos rfl]
  refine ⟨?_, get_raise _ _ rfl (fit rfl)⟩
  rw [Dev.raise, Dev.get_put_ne _ _ (fit rfl) h3, get_incSat _ (fit rfl)]
  cases collide with
  | false => rfl
  | true => rw [if_pos rfl, Dev.incSat, Dev.addSat, Dev.get_put_ne _ _ (fit rfl) (Fld.apart_symm h1)]; rfl

theorem slotCounts_timely : (d.slotCounts q collide false).get (COACH_LATECNT_CNT q) = d.get (COACH_LATECNT_CNT q) := by
  obtain ⟨h1, -, -⟩ := LATECNT_apart q
  rw [Dev.slotCounts, if_neg Bool.false_ne_true]
  cases collide with
  | false => rfl
  | true => rw [if_pos rfl, Dev.incSat, Dev.addSat, Dev.get_put_ne _ _ (fit rfl) (Fld.apart_symm h1)]

end

/-- R143, R161: what stands of slice `q` after a firing, whatever the entry has done. -/
theorem fired_result {d b : Dev} {q k : Nat} {g : Nat × Nat} (hb : Dev.SparesCoach q (d.slotGone q k g) b) (collide late : Bool) :
    let e := b.slotCounts q collide late
    (e.slice q).slots = (d.slice q).slots.filter (fun y => y.id != k) ∧ (e.slice q).hor = (d.slice q).hor ∧ (e.slice q).cal = (d.slice q).cal ∧
    (e.slice q).insq = (d.slice q).insq ∧ (∀ m, m ≠ q → e.slice m = d.slice m) ∧
    (late = true → e.get (COACH_LATECNT_CNT q) = min (d.get (COACH_LATECNT_CNT q) + 1) (2 ^ 32 - 1) ∧ e.get (COACH_STATUS_LATE_SEEN q) = 1) ∧
    (late = false → e.get (COACH_LATECNT_CNT q) = d.get (COACH_LATECNT_CNT q)) ∧
    e.get (COACH_COLLCNT_CNT q) = if collide = true then min (d.get (COACH_COLLCNT_CNT q) + 1) (2 ^ 32 - 1) else d.get (COACH_COLLCNT_CNT q) := by
  obtain ⟨hslices, hget⟩ := hb
  intro e
  have hsame : e.slices = (d.slotGone q k g).slices := ((slotCounts_frame b q collide late).part .slices (by simp)).trans hslices
  have hall (m : Nat) : e.slice m = (d.slotGone q k g).slice m := by rw [Dev.slice, hsame, Dev.slice]
  have hlate : b.get (COACH_LATECNT_CNT q) = d.get (COACH_LATECNT_CNT q) := hget _ (by simp)
  have hcoll : b.get (COACH_COLLCNT_CNT q) = d.get (COACH_COLLCNT_CNT q) := hget _ (by simp)
  obtain ⟨h1, h2, h3, h4, h5⟩ := slotGone_slice d q k g
  rw [← hlate, ← hcoll, hall q]
  refine ⟨h1, h2, h3, h4, fun m hm => (hall m).trans (h5 m hm), ?_, ?_, slotCounts_coll b q collide late⟩
  · rintro rfl
    exact slotCounts_late b q collide
  · rintro rfl
    exact slotCounts_timely b q collide

/-! ## The theorem -/

/-- Settles O34: a slot by its kind and the message; a firing by whether a rival comes before it. -/
theorem slotsAreAimedAndFire : Obligations.SlotsAreAimedAndFire := by
  unfold Obligations.SlotsAreAimedAndFire
  refine ⟨fun x m t0 now lead hrev hedge hjump => ?_, fun s q => ⟨fun a => ?_, fun k hc => ?_⟩⟩
  · refine ⟨fun hm hx _ h => told_hold t0 lead now hrev hedge hjump hm hx h, fun hm hx hv hf hp p hpr => ⟨fun hlt => ?_, fun hle => ?_⟩,
      fun hm hx hv hf => ?_, fun hx => ?_⟩
    · exact ⟨_, (told_aims hrev hx hm hv hf hp hpr).trans (by rw [if_neg (by omega)]), rfl, rfl, rfl⟩
    · exact ⟨_, (told_aims hrev hx hm hv hf hp hpr).trans (by rw [if_pos hle]), rfl, rfl, rfl⟩
    · have hheld := held_ext (x := x) now hm hv
      exact (told_kept hrev (by rw [hheld, hx]; decide) (.inr (.inr (by rwa [hheld])))).trans (congrArg some hheld)
    · have hheld := held_fixed m now hx
      exact (told_kept hrev (by rw [hheld, hx]; decide) (.inl (by rw [hheld, hx]; decide))).trans (congrArg some hheld)
  · have hreaim {e : Dev} (h : s.dev.axArrive q a false = e) : exec (.reaimArrive q a) s = .next { s with dev := e } :=
      onDev_of (f := fun d => d.axArrive q a false) h
    have hhold {e : Dev} (h : s.dev.axArrive q a true = e) : exec (.holdArrive q a) s = .next { s with dev := e } :=
      onDev_of (f := fun d => d.axArrive q a true) h
    refine ⟨fun h => ⟨hreaim (axArrive_none false h), hhold (axArrive_none true h)⟩, fun m h => ⟨fun hw => hreaim (axArrive_waits h hw),
      fun hw => hhold (axArrive_waits h hw), fun hdue => ?_⟩⟩
    have hexec : exec (if m.hold = true then .holdArrive q a else .reaimArrive q a) s = .next { s with dev := s.dev.axArrive q a m.hold } := by
      cases m.hold with
      | true => exact hhold rfl
      | false => exact hreaim rfl
    obtain ⟨hmsgs, hview, hviews, hslots, hhor, hcal, hinsq, hothers, hframe⟩ := axArrive_result h hdue
    exact ⟨_, hexec, hmsgs, hview, hviews, hslots, hhor, hcal, hinsq, hothers, hframe.lift⟩
  · have hexec {e : Dev} (h : s.dev.slotFire q k = e) : exec (.slotFire q k) s = .next { s with dev := e } := onDev_of (f := fun d => d.slotFire q k) h
    refine ⟨fun h => hexec (slotFire_none hc h), fun x h => ⟨fun hw => hexec (slotFire_waits hc h hw), ?_⟩⟩
    intro f hdue hq hwake hf hnow hrec hcar harm ha hfired rivals d1 wins
    have hid : x.id = k := by simpa using List.find?_some h
    have hbeaten : s.dev.slotBeaten q x = true ↔ ¬ s.dev.wins q k x.e := hid ▸ slotBeaten_iff hq ha hfired
    have hfires := slotFire_fires hc h hdue hq hwake hf hnow hrec hcar harm ha hfired
    by_cases hwins : s.dev.wins q k x.e
    · rw [Bool.eq_false_iff.2 fun hb => hbeaten.1 hb hwins, if_neg Bool.false_ne_true, Bool.false_and] at hfires
      obtain ⟨hslots, hhor, hcal, hinsq, hothers, hlate, htimely, hcoll⟩ :=
        fired_result (k := k) (g := x.e.goal.getD (0, 0)) (entryAct_spares q _ ha (f % 64).toNat 0 0) false x.late
      have hframe := slotCounts_frame_acts ((s.dev.slotGone q k (x.e.goal.getD (0, 0))).entryAct q x.e (f % 64).toNat 0 0) q x.late
      refine ⟨_, hexec hfires, hslots, hhor, hcal, hinsq, hothers, hlate, htimely, fun hn => absurd hwins hn, fun _ => ⟨hcoll, ?_⟩⟩
      have hgone := slotGone_frame s.dev q k (x.e.goal.getD (0, 0))
      refine ⟨fun h0 => ?_, fun h5 => ⟨?_, ?_⟩, fun h1 => ?_, fun h2 => ?_, fun h3 => ?_, fun h4 => ?_⟩
      · rw [entryAct_nop _ _ _ _ _ h0] at hframe ⊢
        exact ((hgone.mono (fun _ => id) (by simp)).trans (hframe.mono (by simp) (fun _ => id))).lift
      · exact (hframe.part .xev (by simp)).trans (congrArg Dev.xev (entryAct_event _ _ _ _ _ h5))
      · rw [entryAct_event _ _ _ _ _ h5] at hframe ⊢
        exact ((hgone.mono (by simp) (by simp)).trans ((Dev.raiseEventAt_frame _ _ _ _ _ _ (by simp)).trans (hframe.mono (by simp) (fun _ => id)))).lift
      · exact (hframe.part .fes (by simp)).trans (congrArg Dev.fes (entryAct_feStart _ _ _ _ _ h1))
      · exact (hframe.part .fes (by simp)).trans (congrArg Dev.fes (entryAct_feStop _ _ _ _ _ h2))
      · exact (hframe.part .tcs (by simp)).trans (congrArg Dev.tcs (entryAct_tcTrigger _ _ _ _ _ h3))
      · exact (hframe.part .tcs (by simp)).trans (congrArg Dev.tcs (entryAct_tcCapture _ _ _ _ _ h4))
    · rw [hbeaten.2 hwins, if_pos rfl, Bool.true_and] at hfires
      obtain ⟨hslots, hhor, hcal, hinsq, hothers, hlate, htimely, hcoll⟩ :=
        fired_result (k := k) (sparesCoach_refl q (s.dev.slotGone q k (0, 0))) (x.e.action != 5) x.late
      refine ⟨_, hexec hfires, hslots, hhor, hcal, hinsq, hothers, hlate, htimely, fun _ h5 => ⟨?_, ?_⟩, fun hy => absurd hy hwins⟩
      · exact hcoll.trans (if_pos (bne_iff_ne.2 h5))
      · exact (((slotGone_frame _ _ _ _).mono (by simp) (by simp)).trans ((slotCounts_frame _ _ _ _).mono (by simp) (fun _ => id))).lift

end Sys2Proof.Machine
end
